-- ==== Sys2Proof/Word.lean ====
section
/-! DEFINITION. The plainest word types of the ZL7648's bytes, records and time stamps (00_scope.md, R10). -/

namespace Sys2Proof

/-- One byte of a register, message, bank or stack. -/
abbrev Byte := BitVec 8

/-- A byte string: byte 0 first (R10: byte offsets count from 0). -/
abbrev Bytes := List Byte

/-- A 64-byte command record (R47), byte k in bits [8k + 7 : 8k]. -/
abbrev CmdRecord := BitVec 512

/-- A 32-byte KV walk record (R206), byte k in bits [8k + 7 : 8k]. -/
abbrev WalkRecord := BitVec 256

/-- A global time stamp or duration: a count of 1 ns (R38, R345). -/
abbrev Ns := Nat

/-- Index of a partition, 0–7. -/
abbrev PartId := Fin 8

/-- Index of an I3C port: 0 is port A, 1 is port B. -/
abbrev I3cId := Fin 2

/-- Index of a CSI-2 or Carloth port, 0–15. -/
abbrev PortId := Fin 16

/-- Index of a core, 0–63. -/
abbrev CoreId := Fin 64

/-- Index of a cluster, or of the HBM stack of that cluster, 0–7 (R4). -/
abbrev ClusterId := Fin 8

/-- Index of a die, or of its video engine, 0–1 (R4). -/
abbrev DieId := Fin 2

end Sys2Proof
end

