-- ==== Sys2Proof/Machine/Records.lean ====
section
/-! DEFINITION. The records that the module keeps and exports as data: journal entries and step records (01 R29, R30), queue
descriptors' runtime part (02 R44), sequences (07 R203, 08 R216), adapters, page lists, video contexts and checkpoints (01
R32). They cross the module's edge with an export or a replay. -/

namespace Sys2Proof.Machine

/-- Runtime part of a queue (02 R44); `entry` is the ring entry being issued, as STEP and COUNT. -/
structure QueueRt where
  queue  : Nat
  head   : Nat
  tail   : Nat
  issued : Nat
  count  : Nat
  step   : Nat
  deriving DecidableEq, Repr

/-- An arrival journal entry (01 R29) with its kept payload and the marks of the payload's words; `stream` is the logical
stream it arrived on, `buffer` the landing buffer that holds it, `lines` and `bad` its line counts (10 R281), `taken` that a
GATHER or the gaffer has taken it, `paired` that the entry is the leader's (13 R360), `dest` where a GATHER wrote it (bank address, bytes,
step), `housed` that the house turn has read it from there (05 R144) and `copied` that no copy of it is still to go to a mirror's other
member (12 R336). -/
structure JEntry where
  seq     : Nat
  arrived : Ns
  port    : Nat
  vc      : Nat
  dt      : Nat
  flags   : Nat
  length  : Nat
  pcrc    : BitVec 32
  frame   : Nat
  stream  : Nat
  buffer  : Option Nat
  lines   : Nat
  bad     : Nat
  payload : Option Bytes
  marks   : List Bool
  taken   : Bool
  dest    : Option (Nat × Nat × Nat)
  housed  : Bool
  paired  : Bool
  copied  : Bool := true
  deriving DecidableEq, Repr

/-- A decision entry of a step record (01 R30). -/
structure Decision where
  kind : Nat
  a    : Nat
  b    : Nat
  c    : Nat
  deriving DecidableEq, Repr

/-- A step record (01 R30). -/
structure StepRecord where
  part     : Nat
  flags    : Nat
  step     : Nat
  boundary : Ns
  firstSeq : Nat
  work     : Nat
  ocrc     : BitVec 32
  epoch    : Nat
  ngather  : Nat
  layout   : Nat
  image    : BitVec 32
  entries  : List Decision
  deriving DecidableEq, Repr

/-- Sequence states (08 R215). -/
inductive SeqState where
  | free | queued | active | heldOver | paused | resuming | runOut
  deriving DecidableEq, Repr

/-- A sequence: its sequence-table entry (07 R203, 08 R216) and its part of the request store (08, "Sequences"). -/
structure Seq where
  seq        : Nat
  len        : Nat
  ptBase     : Nat
  slot       : Option Nat
  state      : SeqState
  cls        : Nat
  shared     : Bool
  adapterSlot : Option Nat
  promptEnd  : Nat
  tokensOut  : Nat
  maxNew     : Nat
  stream     : Nat
  client     : Nat
  stopToken  : Nat
  sampling   : Nat
  adapter    : Nat
  prefixSeq  : Nat
  prefixLen  : Nat
  prompt     : List Nat
  frameSeq   : Nat
  admitted   : Nat
  lastToken  : Option Nat
  done       : Bool
  reclaim    : Bool
  cancelled  : Bool
  deriving DecidableEq, Repr

/-- State of an adapter slot (08 R236–R238): a version awaiting its body, loaded, current or superseded. -/
inductive AdapterState where
  | awaiting | loaded | current | superseded
  deriving DecidableEq, Repr

structure Adapter where
  slot    : Nat
  ident   : Nat
  version : Nat
  digest  : BitVec 384
  state   : AdapterState
  bound   : Nat
  loadedAt : Ns
  deriving DecidableEq, Repr

/-- KV state of a logical cluster besides its page table and count table, which lie in memory (07 R204, R205, R211–R213):
the cullet list (head first), pages whose count reached 0 at the latest boundary, the copies ordered at the latest
boundary (source, destination) and entries marked for a private copy (slot, list, entry, page). -/
structure KvCluster where
  cullet : List Nat
  zeroed : List Nat
  copies : List (Nat × Nat)
  marks  : List (Nat × Nat × Nat × Nat)
  deriving DecidableEq, Repr

/-- Reference mark of a pool entry (09 R253). -/
inductive PoolMark where
  | free | recon | short | long
  deriving DecidableEq, Repr

/-- A pool entry (09 R253) with its picture's number in the context, its order count, and in `era` the coded video sequence of the stream that
it belongs to, in whose order pictures go out; `longIndex` is AVC's long-term index and `latency` HEVC's latency count (R266). -/
structure PoolEntry where
  entry   : Nat
  mark    : PoolMark
  pending : Bool
  damaged : Bool
  frameNo : Nat
  poc     : Int
  era     : Nat
  longIndex : Nat := 0
  latency : Nat := 0
  deriving DecidableEq, Repr

/-- What the syntax of a codec's standard gives for an access unit (09 R242, R253, R266–R268): the profile number, the coded size and what is
cropped of it (left, right, top, bottom) in chroma samples, the chroma format (0 is 4:0:0, 1 is 4:2:0) and the bit depth; a header fault; HEVC's
range, screen-content and multilayer extensions, AVC's field pictures and MBAFF; the order count; the pictures named and those predicted
from, by their numbers in the context; HEVC's reference picture set, with whether each is long-term; AVC's marking: the long-term index
for the picture itself, memory-management operations with a picture and a long-term index in place of the sliding window and the most
reference frames; the most pictures that wait for output, their greatest latency (0 none) and the frames of the decoded picture buffer; prior
pictures discarded; the picture is for output; and the CTUs from a syntax error to the end of its slice. -/
structure UnitHeader where
  profileIdc  : Nat
  codedWidth  : Nat
  codedHeight : Nat
  crop        : Nat × Nat × Nat × Nat
  chroma      : Nat
  depth       : Nat
  broken      : Bool
  extensions  : Bool
  fields      : Bool
  mbaff       : Bool
  poc         : Int
  names       : List Nat
  uses        : List Nat
  refSet      : List (Nat × Bool)
  longSelf    : Option Nat
  adaptive    : Bool
  ops         : List (Nat × Nat × Nat)
  refFrames   : Nat
  reorder     : Nat
  latencyMax  : Nat
  dpbSize     : Nat
  dropPrior   : Bool
  output      : Bool
  faults      : List (Nat × Nat)
  deriving DecidableEq, Repr, Inhabited

/-- The context store entry of an open context (09 R249–R253, R261–R263): descriptor bytes and the encoder's or
decoder's running values. `units` are the access units decoded since it opened, in which the parameter sets and order counts that the decoder
keeps stand; `era` counts the coded video sequences among them. While a frame is coded, `later` is the pool at its completion (R253). -/
structure VidContext where
  ctx      : Nat
  part     : Nat
  desc     : Bytes
  frameNo  : Nat
  balance  : Int
  basePrev : Nat
  needIdr  : Bool
  hasPrev  : Bool
  mvs      : List (Int × Int)
  modes    : List Nat
  complex  : List Nat
  pool     : List PoolEntry
  units    : List Bytes
  era      : Nat
  later    : List PoolEntry
  deriving DecidableEq, Repr

/-- A status or token entry of a step-batch frame (08 R226). -/
structure BatchEntry where
  client : Nat
  seq    : Nat
  token  : Nat
  pos    : Nat
  status : Nat
  cls    : Nat
  prob   : Nat
  deriving DecidableEq, Repr

/-- A checkpoint (01 R32): bytes and marks of the captured banks, by carried item, the partition's tables, page by page and
bank by bank of its logical clusters, and the content of the pages it holds (`pages`: those whose references it raised), with the poison
marks of tables and pages (05 R156). `older` are
the pages that earlier checkpoints still referred to when it was taken (R34). -/
structure Checkpoint where
  step     : Nat
  cells    : List Host.Cell
  marks    : List Nat
  tallies  : List Nat
  queues   : List QueueRt
  seqs     : List Seq
  tables   : List Host.Cell
  kv       : List KvCluster
  seedGen  : Nat
  epoch    : Nat
  layout   : Nat
  kind     : Nat
  firstSeq : Nat
  nextSeq  : Nat
  nextSeqNo : Nat
  paused   : List Nat
  status   : List (Nat × BatchEntry)
  adapters : List Adapter
  pages    : List Nat
  older    : List Nat
  pageData : List Host.Cell
  video    : List (Nat × VidContext)
  buffers  : List Host.Cell
  bufMarks : List Nat
  tabMarks : List Nat
  pageMarks : List Nat
  taken    : List Nat
  deriving DecidableEq, Repr

/-- What the store tray serves to an arm order in replay mode (01 R35, R36): the newest complete checkpoint at or before
the step wanted, the journal with payloads and the step records from it on. The manual gives no byte layout for a stored
checkpoint, so all three come with the row as data. DESIGN CHOICE, log entry 35. -/
structure ReplaySupply where
  checkpoint : Option Checkpoint
  journal    : List JEntry
  records    : List StepRecord
  deriving DecidableEq, Repr

end Sys2Proof.Machine
end

