-- ==== Sys2Proof/Syntax.lean ====
section
/-! DEFINITION. Syntax of the block: the commands of spec/opcode_table.json (one constructor of `Instr` each), the
Sniok image as data (02 R61 gives its sections and no byte layout), the frames and records that cross the module's
edges, and the readings that its sensors deliver. -/

namespace Sys2Proof

/-! ## The Sniok image (02 R61) -/

/-- Kind of a requirement record (02 R61, R62). -/
inductive ReqKind where
  | minimum
  | exact
  deriving DecidableEq, Repr

/-- One record of the requirements section. -/
structure Requirement where
  entry : Nat
  kind  : ReqKind
  value : Nat
  deriving DecidableEq, Repr

/-- The fixed fields of a queue descriptor (02 R44); HEAD, TAIL and ISSUED are runtime state. -/
structure QueueDesc where
  queue       : Nat
  cls         : Nat
  inUse       : Bool
  random      : Bool
  inst        : Nat
  ringEntries : Nat
  ringCluster : Nat
  ringBank    : Nat
  ringOffset  : Nat
  deriving DecidableEq, Repr

/-- A command list with its place (02 R485). -/
structure CmdList where
  queue   : Nat
  cluster : Nat
  bank    : Nat
  offset  : Nat
  cmds    : List CmdRecord
  deriving DecidableEq, Repr

/-- The turn list of one engine instance (02 R44). -/
structure TurnList where
  cls    : Nat
  inst   : Nat
  queues : List Nat
  deriving DecidableEq, Repr

/-- One bank of the bank plan: its owner at the start of a step (05 R130, R133). -/
structure BankPlan where
  cluster  : Nat
  bank     : Nat
  owner    : Nat
  unit     : Nat
  observer : Nat
  deriving DecidableEq, Repr

/-- A KV walk list of one logical cluster, with its place (07 R206, 02 R485). -/
structure WalkList where
  cluster : Nat
  bank    : Nat
  offset  : Nat
  records : List WalkRecord
  deriving DecidableEq, Repr

/-- The plan of one step kind in one layout (04 R97). -/
structure KindPlan where
  lists    : List CmdList
  turns    : List TurnList
  declared : List (Nat × Nat)
  banks    : List BankPlan
  walks    : List WalkList
  deriving DecidableEq, Repr

/-- One endpoint of an elastic channel: an engine class and its logical instance (04 R100). -/
structure Endpoint where
  cls  : Nat
  inst : Nat
  deriving DecidableEq, Repr

/-- An elastic channel of a layout (04 R100, R101); `relay` names the second channel of a relay, `halo` the halo rows
of a halo channel (06 R166). -/
structure Channel where
  chan   : Nat
  item   : Nat
  depth  : Nat
  writer : Endpoint
  reader : Endpoint
  relay  : Option Nat
  halo   : Option Nat
  deriving DecidableEq, Repr

/-- A halo set of a logical core (06 R167): channel numbers, any of them absent. -/
structure HaloSet where
  core      : Nat
  set       : Nat
  topIn     : Option Nat
  bottomIn  : Option Nat
  topOut    : Option Nat
  bottomOut : Option Nat
  deriving DecidableEq, Repr

/-- A rotation group (04 R114, R115). -/
structure RotGroup where
  members    : List Nat
  sameChunks : Bool
  weightCopy : Bool
  deriving DecidableEq, Repr

/-- A bank carried across steps, with the logical bank that holds the item in this layout (04 R121, 02 R61). -/
structure Carried where
  item    : Nat
  cluster : Nat
  bank    : Nat
  deriving DecidableEq, Repr

/-- A layout of the image (04 R97). `placement` gives the slot of a logical core in its logical cluster. -/
structure Layout where
  placement : List (Nat × Nat)
  absent    : List Nat
  groups    : List RotGroup
  channels  : List Channel
  haloSets  : List HaloSet
  carried   : List Carried
  certified : Bool
  kinds     : List KindPlan
  deriving DecidableEq, Repr

/-- Landing buffers of a receive stream (10 R274). -/
structure Landing where
  cluster : Nat
  bank    : Nat
  offset  : Nat
  size    : Nat
  count   : Nat
  deriving DecidableEq, Repr

/-- A declared stream (02 R61, 10 R273, R274): `limit` and `room` are the entry limit and status room of a step-batch
stream (08 R227). -/
structure StreamDecl where
  stream   : Nat
  transmit : Bool
  dt       : Nat
  streamId : Nat
  landing  : Option Landing
  limit    : Nat
  room     : Nat
  deriving DecidableEq, Repr

/-- A table record of the format-tables section (03 R90): KIND, ID, ENTRIES and the entries as raw bits. -/
structure FormatTable where
  kind    : Nat
  id      : Nat
  count   : Nat
  entries : List Nat
  deriving DecidableEq, Repr

/-- One weight-manifest chunk (15 R424). -/
structure Chunk where
  digest  : BitVec 384
  length  : Nat
  cluster : Nat
  offset  : Nat
  deriving DecidableEq, Repr

/-- A receive ring (12 R332). -/
structure RingDecl where
  ring     : Nat
  peer     : Nat
  peerRing : Nat
  slotSize : Nat
  slots    : Nat
  cluster  : Nat
  bank     : Nat
  offset   : Nat
  deriving DecidableEq, Repr

/-- A quantity of the partition's state that a selector may read (02 R46): sequences in the batch, in the queue, paused or held
over; pending gathers of one stream; the step number; a tally; the layout; the current version of an adapter. -/
inductive SelVar where
  | active | queued | paused | heldOver
  | pendingOf (stream : Nat)
  | step
  | tally (t : Nat)
  | layout
  | adapter (ident : Nat)
  deriving DecidableEq, Repr

/-- A test of a selector row: the quantity lies in a range. -/
structure SelTest where
  what : SelVar
  low  : Nat
  high : Nat
  deriving DecidableEq, Repr

/-- A row of the step-kind selector (02 R46): the last row whose minima (of sequences in the batch, and of pending gathers of all
streams) and tests the state meets gives the kind; none gives kind 0. The manual gives the selector no form: DESIGN CHOICE, log
entry 127. DESIGN CHOICE, log entry 127. -/
structure SelRow where
  minActive  : Nat
  minPending : Nat
  kind       : Nat
  tests      : List SelTest := []
  deriving DecidableEq, Repr

/-- KV and serving declarations of the image (07 R200, R202, R203, R212; 08 R217, R220, R221).
DESIGN CHOICE, log entry 149. -/
structure KvDecl where
  pools         : List Nat
  poolFirst     : Nat
  ptBank        : Nat
  countOffset   : Nat
  lists         : Nat
  cap           : Nat
  tpp           : Nat
  fmt           : Nat
  sequences     : Nat
  slots         : Nat
  copyAllowance : Nat
  promptMax     : Nat
  prefillChunk  : Nat
  admitLimit    : Nat
  samplings     : Nat
  deriving DecidableEq, Repr

/-- Video declarations of one engine (09 R248, R249). -/
structure VideoDecl where
  minSlots : Nat
  contexts : Nat
  deriving DecidableEq, Repr

/-- A Sniok image (02 R61). `digest` is the SHA-384 of the whole image; it comes with the image, since the manual gives no byte
layout for it. DESIGN CHOICE, log entry 35. -/
structure Image where
  magic         : Nat
  formatVersion : Nat
  contractGen   : Nat
  modules       : Nat
  clusters      : Nat
  digest        : BitVec 384
  requirements  : List Requirement
  power         : Nat
  wallSA        : Option (List Nat)
  wallSB        : Option (List Nat)
  latestStarts  : Option (List (Nat × Nat × Nat))
  epochLength   : Nat
  checkpoint    : Nat
  layouts       : List Layout
  stepKinds     : Nat
  selector      : List SelRow
  queues        : List QueueDesc
  tallies       : Nat
  streams       : List StreamDecl
  tables        : List FormatTable
  chunks        : List Chunk
  salt          : BitVec 24
  kv            : Option KvDecl
  video         : List VideoDecl
  adapterSlots  : Nat
  adapterSize   : Nat
  intakeBanks   : List Nat
  rings         : List RingDecl
  links         : List (Nat × Nat)
  transport     : Nat
  houseMib      : Nat
  hbmMib        : Nat
  journalMib    : Nat
  spill         : Nat
  deriving DecidableEq, Repr

/-! ## Frames and records at the edges -/

/-- A Carloth frame (12 R322): header fields, LEN among them, payload, tag and the reserved header bytes 37–47. -/
structure Frame where
  magic   : Nat
  version : Nat
  typ     : Nat
  dst     : Nat
  src     : Nat
  cabinet : Nat
  job     : Nat
  keyid   : Nat
  fflags  : Nat
  msg     : Nat
  counter : Nat
  offset  : Nat
  ring    : Nat
  payload : Bytes
  tag     : Bytes
  len     : Nat := payload.length / 64
  spare   : Bytes := List.replicate 11 0
  deriving DecidableEq, Repr

/-- A Carloth envelope (12 R317): the fields of its prefix, its frame, its CRC-32C as it came, and in `uncorr` how many uncorrectable
codewords came with it. -/
structure Envelope where
  lseq    : Nat
  lack    : Nat
  nak     : Bool
  credit  : Nat × Nat × Nat
  frame   : Option Frame
  crc     : Nat
  uncorr  : Nat
  deriving DecidableEq, Repr

/-- A heartbeat record on a claim lane (13 R357), its RCRC as it came. -/
structure Heartbeat where
  place   : Nat
  part    : Nat
  bflags  : Nat
  group   : Nat
  claim   : Nat
  highest : Nat
  step    : Nat
  ocrc    : Nat
  time    : Nat
  serial  : Nat
  cabinet : Nat
  rcrc    : Nat
  deriving DecidableEq, Repr

/-- A link partner's training identity (12, "Training and partners", R341, R344); `pubKey` is the identity key that it is verified
under. DESIGN CHOICE, log entry 83. -/
structure PartnerId where
  place    : Nat
  port     : Nat
  cabinet  : Nat
  serial   : Nat
  store    : Bool
  pubKey   : Bytes
  sig      : Bytes
  deriving DecidableEq, Repr

/-- One token that the program handed to the gaffer for a batch slot in the step that ends (08 R225, R226): the manual
gives no layout for this hand-over, so it comes with the EMIT of the step-batch stream. -/
structure TokenOut where
  slot  : Nat
  token : Nat
  prob  : Nat
  deriving DecidableEq, Repr

/-- What the boundary of a step meets: the cores whose self-check at this boundary fails (04 R118, 05 R155). -/
structure BoundaryIn where
  checkFail : List CoreId
  deriving DecidableEq, Repr

/-- A CCC that has a broadcast and a direct form, at a port (11 R289). -/
structure CccForm where
  port   : I3cId
  direct : Bool
  deriving DecidableEq, Repr

/-- An RSTACT that resets nothing: defining byte 0x00, or one that no port acknowledges, neither 0x00 nor 0x01 (11 R289). -/
structure RstactForm where
  port     : I3cId
  direct   : Bool
  defining : Nat
  deriving DecidableEq, Repr

/-- A bit error that arises in a 64-byte word of the banks or a unit of the stacks: uncorrectable (`double`) or corrected as it is read (05
R155, R157). DESIGN CHOICE, log entry 130. -/
structure BitError where
  stack  : Bool
  word   : Nat
  double : Bool
  deriving DecidableEq, Repr

/-- The readings of one teaser cycle (14 R375): temperatures in m°C, power in mW, rates
in Mbeat/s, the supply voltage in mV, its current in units of 10 mA, the supplied flow (R407) in 0.01 L/min, and the level of TAMPER_N where it has
changed (15 R436; DESIGN CHOICE, log entry 98). -/
structure Readings where
  diode   : Vector Int 64
  delay   : Vector Int 64
  rate    : Vector Nat 64
  hbm     : Vector Int 8
  reg     : Vector Int 8
  inlet   : Int
  outlet  : Int
  p100    : Nat
  p1s     : Nat
  supply  : Nat
  current : Nat
  suppliedFlow : Nat
  bitErrors : List BitError := []
  tamperLow : Option Bool := none
  deriving DecidableEq, Repr

/-- What the start sequence finds (16 R437, R438): straps, the boot ROM's self-test, stacks that train, cores that pass
their self-check, the lid, the mesh, REFCLK, TAMPER_N and the supply in mV. -/
structure StartIn where
  tray      : Nat
  slot      : Nat
  selfTest  : Bool
  hbm    : Vector Bool 8
  cores     : Vector Bool 64
  refclk    : Bool
  lidOpen   : Bool
  meshOpen  : Bool
  tamperLow : Bool
  supplyMv  : Nat
  deriving DecidableEq, Repr

/-- Vector-class operations (03 R89, R92): the manual names them and gives no opcodes. -/
inductive VecOp where
  | copy | neg | abs | add | sub | mul | mulAdd | max | min | cmpLt | cmpLe | cmpEq
  | exp2 | log2 | recip | rsqrt | gelu | silu | tanh
  deriving DecidableEq, Repr

/-- Operands of a vector-class command: the manual gives no layout, so they come with the row. Operands lie in core
banks of the command's logical core, at byte offsets; formats are format codes of R63. `hand` is what its handover names: bank
number, owner code and unit. -/
structure VecArgs where
  op    : VecOp
  fmt   : Nat
  count : Nat
  a     : Nat × Nat
  b     : Nat × Nat
  c     : Nat × Nat
  out   : Nat × Nat
  wdesc : Nat
  hand  : Option (Nat × Nat × Nat) := none
  deriving DecidableEq, Repr

/-! ## The commands -/

/-- The commands of the block, one per row of spec/opcode_table.json. -/
inductive Instr where
  -- engine commands: partition and partition-local queue whose turn it is (02 R44)
  | nop (p : PartId) (q : Nat)
  | sizeCopy (p : PartId) (q : Nat)
  | matmul (p : PartId) (q : Nat)
  | groupedMatmul (p : PartId) (q : Nat)
  | reduce (p : PartId) (q : Nat)
  | attn (p : PartId) (q : Nat)
  | dwconv (p : PartId) (q : Nat)
  | wgather (p : PartId) (q : Nat)
  | poolMax (p : PartId) (q : Nat)
  | poolMin (p : PartId) (q : Nat)
  | globalAvg (p : PartId) (q : Nat)
  | argmaxCh (p : PartId) (q : Nat)
  | hbmRead (p : PartId) (q : Nat)
  | hbmWrite (p : PartId) (q : Nat)
  | bankCopy (p : PartId) (q : Nat)
  | hbmZero (p : PartId) (q : Nat)
  | linkSend (p : PartId) (q : Nat)
  | linkRecv (p : PartId) (q : Nat)
  | storeRead (p : PartId) (q : Nat)
  | storeWrite (p : PartId) (q : Nat)
  | intakeChunk (p : PartId)
  | vctxSet (p : PartId) (q : Nat)
  | vencFrame (p : PartId) (q : Nat)
  | vdecFrame (p : PartId) (q : Nat)
  | gather (p : PartId) (q : Nat)
  | emit (p : PartId) (q : Nat) (tokens : List TokenOut)
  | walkStage (p : PartId) (cluster : Nat)
  | walkAppend (p : PartId) (cluster : Nat)
  | commandCompletion (p : PartId) (cls : Nat) (inst : Nat)
  -- steps, checkpoints, cores
  | stepBoundary (p : PartId) (i : BoundaryIn)
  | checkpointComplete (p : PartId)
  | stepExport (p : PartId)
  | stepStall (p : PartId)
  | hardStop (c : CoreId)
  | houseTurn (p : PartId) (cluster : Nat)
  | copyPhase (p : PartId) (cluster : Nat)
  | videoTurn (p : PartId) (q : Nat)
  | videoSlotBoundary (d : DieId)
  | hbmScrub (k : ClusterId) (corrected : List Nat) (uncorrectable : List Nat)
  | keySweep (k : ClusterId) (uncorrectable : List Nat)
  | clearComplete (p : PartId)
  | gloryHolePass (c : CoreId) (failStage : Option Nat)
  -- teaser, supply, start
  | teaserCycle (r : Readings)
  | floorMiss (c : CoreId)
  | coreHotDescent (c : CoreId)
  | descentEnd
  | pairSuspect (c : CoreId)
  | flowLow
  | inletOut
  | coolantFlagClear
  | overVoltage (mv : Nat)
  | regulatorFault (rail : Nat) (deviation : Int)
  | supplyWarning (mv : Nat)
  | supplyWarningEnd (mv : Nat)
  | supplyHold (mv : Nat)
  | stackSelfRefresh
  | supplyHoldEnd
  | supplyReset
  | start (i : StartIn)
  | startTimeLockTimeout
  | prsntLoss
  | tamperLoopOpen
  | lidTamper (mesh : Bool)
  | ephemeralKeyExpiry (p : PartId)
  -- time
  | timeSyncEdge (reading : Ns) (cycles : Nat)
  | quotaWindowTimeout (port : PortId) (vc : Nat)
  | identityBurst (bits : BitVec 96)
  | refclkLoss
  | edgeMissing
  | slewComplete
  -- I3C CCCs
  | setdasa (x : I3cId) (static addr : Nat)
  | rstdaa (x : I3cId)
  | getpid (x : I3cId)
  | getbcr (x : I3cId)
  | getdcr (x : I3cId)
  | getstatus (x : I3cId)
  | setmwl (f : CccForm) (v : Nat)
  | getmwl (x : I3cId)
  | setmrl (f : CccForm) (v : Nat)
  | getmrl (x : I3cId)
  | getmxds (x : I3cId)
  | rstactNoReset (f : RstactForm)
  | rstactPortReset (f : CccForm)
  | rstactRecoveryEnd (x : I3cId)
  | enec (f : CccForm)
  | disec (f : CccForm)
  | enthdr0 (x : I3cId)
  | enthdr3 (x : I3cId)
  | enthdrUnsupported (x : I3cId)
  | hdrExit (x : I3cId)
  -- register window
  | readPointerSet (x : I3cId) (offset : Nat)
  | registerWrite (x : I3cId) (offset : Nat) (data : Bytes) (damaged : Bool)
  | mbxCmdDataWrite (x : I3cId) (data : Bytes)
  | mbxBulkDataWrite (x : I3cId) (data : Bytes)
  | mbxPostCmd (x : I3cId)
  | mbxPostBulk (x : I3cId)
  | mbxTakeRsp (x : I3cId)
  | mbxTakeLog (x : I3cId)
  | mbxAbortCmd (x : I3cId)
  | mbxAbortBulk (x : I3cId)
  | rspDataRead (x : I3cId) (bytes : Nat)
  | logDataRead (x : I3cId) (bytes : Nat)
  | dataRegisterRewind (x : I3cId) (offset : Nat)
  | loRegisterRead (x : I3cId) (bytes : Nat)
  | pwrCountsRead (x : I3cId) (bytes : Nat)
  | csiRxFaultsRead (x : I3cId) (bytes : Nat)
  | lnkErrorsRead (x : I3cId) (bytes : Nat)
  | timeNextHiWrite (x : I3cId) (v : BitVec 32)
  -- session messages and queries taken from a port
  | sessionOpen (x : I3cId)
  | leaseRenew (x : I3cId)
  | detach (x : I3cId)
  | leaseExpiry (x : I3cId)
  | identity (x : I3cId)
  | attestation (x : I3cId) (vaultBad : Bool)
  | tallyRead (x : I3cId)
  | sizeRead (x : I3cId)
  | coreStatus (x : I3cId)
  -- orders
  | orderWindowResolve
  | partAssign
  | partLoad (img : Image)
  | partArm (supply : Machine.ReplaySupply)
  | partStart
  | partStop
  | partUnload
  | partRelease
  | seedSet
  | streamBind
  | csiTimeout
  | videoSlot
  | servingSettings
  | cancel
  | cancelPendingEntry
  | adapterLoad
  | coreFence
  | coreReadmit
  | replaySet
  | pwrCap
  | pwrDrainEnter
  | pwrDrainLeave
  | pwrQuench
  | pwrQuenchClear
  | thmCoolant
  | thmSensorClear
  | claimPair
  | claimYield
  | claimRaise
  | claimUnpair
  | claimReenter
  | secKeyRelease (vaultBad : Bool)
  | secIntake
  | secRotate
  | secReturnBegin
  | secReturnConfirm
  | fwBeginBlocks (x : I3cId)
  | fwBeginPull (x : I3cId)
  | fwBlock (x : I3cId)
  | fwEnd (x : I3cId)
  | fwLoadTimeout
  | fwActivateBoundary (x : I3cId)
  | fwActivateRestart (x : I3cId)
  | deferredActivation
  | fwWithdrawDeferred (x : I3cId)
  | fwWithdrawLoad (x : I3cId)
  | evtCopy
  | evtCopyStop
  | evtMirror
  | logMessageFill (x : I3cId)
  | mirrorFrame
  | linkPlan
  | linkShare
  | linkJob
  | linkPortDisable
  | linkPortEnable
  | linkPortTest
  | linkTestEnd (port : PortId) (bitErrors : Nat) (laneErrors : Nat)
  | intervalTest (port : PortId)
  | linkIngressCopy
  | linkIngressBind
  | linkIngressRemove
  | timeTrim
  -- CSI-2
  | csiFrameStart (port : PortId) (vc : Nat) (frame : Nat)
  | csiLongPacket (port : PortId) (vc : Nat) (dt : Nat) (data : Bytes) (crcOk : Bool) (hdrErrors : Nat)
  | csiFrameEnd (port : PortId) (vc : Nat) (frame : Nat)
  | csiFrameTimeout (port : PortId) (vc : Nat)
  | csiLaneSyncLoss (port : PortId)
  | csiLaneSyncRegained (port : PortId)
  | csiGenericShortPacket (port : PortId) (dt : Nat)
  | emitFrameSend (p : PartId) (stream : Nat)
  -- Carloth
  | envelopeReceive (port : PortId) (e : Envelope)
  | calendarTurn (port : PortId)
  | keyAgreementStart (p : PartId)
  | kaHello
  | kaReply
  | kaConfirm
  | kaRetryTimeout (p : PartId) (peer : Nat)
  | kaRetryInterval (p : PartId) (peer : Nat)
  | jobKeyRekey (p : PartId) (peer : Nat)
  | oldKeyidExpiry (p : PartId) (peer : Nat)
  | gcmFailTeardown (p : PartId) (peer : Nat)
  | ringCredit
  | jobData
  | ingressCopy
  | decisionPart
  | snapshotSection
  | snapshotJournal
  | reentryRequest
  | storeRdData
  | storeWrAck
  | storeErr
  | storeRequestTimeout
  | trainingRetry (port : PortId)
  | trainingTimeout (port : PortId)
  | partnerIdentity (port : PortId) (i : PartnerId)
  | slowPartner (port : PortId)
  | slowPartnerRetrain (port : PortId)
  | faultyPartner (port : PortId)
  | heartbeatTimer (p : PartId)
  | heartbeatReceive (h : Heartbeat)
  | holderLost (p : PartId)
  | followerUnmatched (p : PartId)
  | vectorCommand (p : PartId) (q : Nat) (v : VecArgs)
  | signalDetect (port : PortId)
  | fecLock (port : PortId) (challenge : Bytes)
  | refclkReturn
  | prsntMate
  | holdLevelLeft (mv : Nat)
  | peerRxSyncLost
  | peerRxSyncGained
  deriving DecidableEq, Repr

end Sys2Proof
end

