-- ==== Sys2Proof/Machine/Bits.lean ====
section
/-! DEFINITION. Byte order, bit fields and saturating counts (00 R10): the helpers that every layout of the manual uses. -/

namespace Sys2Proof.Machine

/-- The `n` bytes of `v`, least significant first (R10). -/
def leBytes : Nat → Nat → Bytes
  | 0, _ => []
  | n + 1, v => BitVec.ofNat 8 v :: leBytes n (v / 256)

/-- The number whose bytes are given, least significant first (R10). -/
def leNat : Bytes → Nat
  | [] => 0
  | b :: bs => b.toNat + 256 * leNat bs

/-- The number whose bytes are given, most significant first (fields of published standards, R10). -/
def beNat (bs : Bytes) : Nat := bs.foldl (fun n b => 256 * n + b.toNat) 0

/-- The `n` bytes of `v`, most significant first. -/
def beBytes (n v : Nat) : Bytes := (leBytes n v).reverse

/-- The little-endian field of `n` bytes at byte `off`; bytes past the end read as 0. -/
def fieldAt (bs : Bytes) (off n : Nat) : Nat := leNat ((bs.drop off).take n)

/-- Bits [hi:lo] of `v` (R10: both ends included). -/
def bitsOf (v hi lo : Nat) : Nat := v / 2 ^ lo % 2 ^ (hi + 1 - lo)

/-- Bit `i` of `v`. -/
def bitOf (v i : Nat) : Bool := v / 2 ^ i % 2 == 1

/-- 1 for true. -/
def bit (b : Bool) : Nat := if b then 1 else 0

/-- `bs` cut or filled with zeros to `n` bytes. DESIGN CHOICE, log entry 59. -/
def padTo (n : Nat) (bs : Bytes) : Bytes := (bs ++ List.replicate (n - bs.length) 0).take n

/-- `n` zero bytes: a reserved field (R11). -/
def zeros (n : Nat) : Bytes := List.replicate n 0

/-- All the bytes are zero. -/
def allZero (bs : Bytes) : Bool := bs.all (· == 0)

/-- Bytes `off` to `off + n - 1` are zero: a reserved field is written as zero (R11). -/
def zeroAt (bs : Bytes) (off n : Nat) : Bool := allZero ((bs.drop off).take n)

/-- The bytes `off` to `off + n - 1`. -/
def slice (bs : Bytes) (off n : Nat) : Bytes := (bs.drop off).take n

/-- Bytes with those at an offset replaced. -/
def splice (bs : Bytes) (off : Nat) (part : Bytes) : Bytes := bs.take off ++ part ++ bs.drop (off + part.length)

/-- A saturating count of `w` bits after `n` more. -/
def satAdd (w c n : Nat) : Nat := min (c + n) (2 ^ w - 1)

/-- The least multiple of `m` that is at least `n`, divided by `m`. -/
def ceilDiv (n m : Nat) : Nat := (n + m - 1) / m

/-- Two's complement of `v` in `w` bits. -/
def twosNat (w : Nat) (v : Int) : Nat := (v % (2 ^ w : Int)).toNat

/-- The signed value of `w` bits. -/
def signedOf (w v : Nat) : Int := if v < 2 ^ (w - 1) then (v : Int) else (v : Int) - (2 ^ w : Int)

/-- A number lies in a range, both ends included. -/
def within (v lo hi : Nat) : Bool := lo ≤ v && v ≤ hi

/-- The first element that satisfies `f`, replaced by `g` of it. -/
def updFirst {α : Type} (f : α → Bool) (g : α → α) : List α → List α
  | [] => []
  | a :: as => if f a then g a :: as else a :: updFirst f g as

/-- Insert or replace the value of a key in an association list. -/
def assocSet {α : Type} (k : Nat) (v : α) : List (Nat × α) → List (Nat × α)
  | [] => [(k, v)]
  | (k', v') :: as => if k' = k then (k, v) :: as else (k', v') :: assocSet k v as

/-- The value of a key in an association list. -/
def assocGet {α : Type} (k : Nat) (as : List (Nat × α)) : Option α := (as.find? (fun a => a.1 == k)).map (·.2)

/-- The bytes of a command record, byte 0 first. -/
def bytesOfRecord (r : CmdRecord) : Bytes := leBytes 64 r.toNat

/-- The unsigned field of `n` bytes at byte `off` of a command record (R47). -/
def recField (r : CmdRecord) (off n : Nat) : Nat := r.toNat / 2 ^ (8 * off) % 2 ^ (8 * n)

/-- The unsigned field of `n` bytes at byte `off` of a walk record (R206). -/
def walkField (r : WalkRecord) (off n : Nat) : Nat := r.toNat / 2 ^ (8 * off) % 2 ^ (8 * n)

end Sys2Proof.Machine
end

