-- ==== Sys2Proof/Machine/Flags.lean ====
section
/-! DEFINITION. Exact values, the long accumulator and its flags NAN, PINF and MINF (03 R75–R79). -/

namespace Sys2Proof.Machine

/-- An input value: NaN, an infinity, or (−1)^neg · m · 2^e exactly (R67, R68). -/
inductive Num where
  | nan
  | inf (neg : Bool)
  | fin (neg : Bool) (m : Nat) (e : Int)
  deriving DecidableEq, Repr

/-- A lane: the long accumulator in units of 2^-304 and the three flags (R75, R77). DESIGN CHOICE, log entry 37. -/
structure Lane where
  acc  : Int
  nan  : Bool
  pinf : Bool
  minf : Bool
  deriving DecidableEq, Repr

/-- A lane at the start of a chain (R77). -/
def Lane.start : Lane := { acc := 0, nan := false, pinf := false, minf := false }

/-- `m · 2^k`, exact for the multiples that the formats give (R75). -/
def scaleInt (m : Int) (k : Int) : Int := if 0 ≤ k then m * 2 ^ k.toNat else m / 2 ^ (-k).toNat

/-- A signed magnitude as an integer. -/
def signed (neg : Bool) (m : Nat) : Int := if neg then -(m : Int) else m

/-- Add an infinity of the given sign (R77). -/
def Lane.addInf (l : Lane) (neg : Bool) : Lane := if neg then { l with minf := true } else { l with pinf := true }

/-- Add a product to a lane (R77). -/
def Lane.mulAdd (l : Lane) (a b : Num) : Lane :=
  match a, b with
  | .nan, _ => { l with nan := true }
  | _, .nan => { l with nan := true }
  | .inf s, .inf t => l.addInf (s != t)
  | .inf s, .fin t m _ => if m = 0 then { l with nan := true } else l.addInf (s != t)
  | .fin s m _, .inf t => if m = 0 then { l with nan := true } else l.addInf (s != t)
  | .fin s m e, .fin t n f => { l with acc := l.acc + scaleInt (signed (s != t) (m * n)) (e + f + 304) }

/-- Add a value itself to a lane (R95, R106). -/
def Lane.add (l : Lane) (a : Num) : Lane := l.mulAdd a (.fin false 1 0)

/-- Add another lane: values add and flags OR (R79). -/
def Lane.join (l m : Lane) : Lane :=
  { acc := l.acc + m.acc, nan := l.nan || m.nan, pinf := l.pinf || m.pinf, minf := l.minf || m.minf }

/-- The FLAGS byte of an exact partial record (R79). -/
def Lane.flags (l : Lane) : Nat := bit l.nan + 2 * bit l.pinf + 4 * bit l.minf

/-- The 96 bytes of an exact partial record (R79). -/
def Lane.record (l : Lane) : Bytes := leBytes 80 (twosNat 640 l.acc) ++ leBytes 1 l.flags ++ zeros 15

/-- An exact partial record is valid when FLAGS bits 7:3 and bytes 81–95 are zero (R79, R110). -/
def recordOk (bs : Bytes) : Bool := fieldAt bs 80 1 < 8 && zeroAt bs 81 15

/-- The lane of an exact partial record (R79). -/
def laneOfRecord (bs : Bytes) : Lane :=
  { acc := signedOf 640 (fieldAt bs 0 80), nan := bitOf (fieldAt bs 80 1) 0, pinf := bitOf (fieldAt bs 80 1) 1,
    minf := bitOf (fieldAt bs 80 1) 2 }

/-- What is rounded at write-out: a special, or (−1)^neg · n / d exactly with d > 0. -/
inductive OutVal where
  | nan
  | inf (neg : Bool)
  | num (neg : Bool) (n d : Nat)
  deriving DecidableEq, Repr

/-- The value of a lane by its flags (R77). -/
def Lane.value (l : Lane) : OutVal :=
  if l.nan || (l.pinf && l.minf) then .nan
  else if l.pinf then .inf false
  else if l.minf then .inf true
  else .num (l.acc < 0) l.acc.natAbs (2 ^ 304)

/-- The exact value of an input. -/
def Num.value (a : Num) : OutVal :=
  match a with
  | .nan => .nan
  | .inf s => .inf s
  | .fin s m e => if 0 ≤ e then .num s (m * 2 ^ e.toNat) 1 else .num s m (2 ^ (-e).toNat)

end Sys2Proof.Machine
end

