-- ==== Sys2Proof/Machine/Formats.lean ====
section
/-! DEFINITION. The 20 number formats: reading an element exactly and the single rounding of write-out (03 R67–R88). -/

namespace Sys2Proof.Machine

/-- A scalar floating-point format of R67: bits, fraction bits, bias, the code of its largest finite magnitude, the NaN it
writes (none: it has neither NaN nor infinity) and the code of +∞. -/
structure FloatFmt where
  bits : Nat
  frac : Nat
  bias : Nat
  top  : Nat
  nan  : Option Nat
  inf  : Option Nat
  deriving DecidableEq, Repr

/-- Formats 1–8. -/
def floatFmt (code : Nat) : Option FloatFmt :=
  match code with
  | 1 => some ⟨32, 23, 127, 0x7F7FFFFF, some 0x7FC00000, some 0x7F800000⟩
  | 2 => some ⟨16, 10, 15, 0x7BFF, some 0x7E00, some 0x7C00⟩
  | 3 => some ⟨16, 7, 127, 0x7F7F, some 0x7FC0, some 0x7F80⟩
  | 4 => some ⟨8, 3, 7, 0x7E, some 0x7F, none⟩
  | 5 => some ⟨8, 2, 15, 0x7B, some 0x7E, some 0x7C⟩
  | 6 => some ⟨6, 2, 3, 0x1F, none, none⟩
  | 7 => some ⟨6, 3, 1, 0x1F, none, none⟩
  | 8 => some ⟨4, 1, 1, 0x7, none, none⟩
  | _ => none

/-- Integer formats 13–18: bits and whether signed. -/
def intFmt (code : Nat) : Option (Nat × Bool) :=
  match code with
  | 13 => some (16, true)
  | 14 => some (8, true)
  | 15 => some (4, true)
  | 16 => some (8, false)
  | 17 => some (16, false)
  | 18 => some (32, true)
  | _ => none

/-- Element format of an MX format: MXFP8, MXFP6, MXFP4 (R67); MXINT8 stands apart. -/
def mxElement (code : Nat) : Nat :=
  match code with
  | 9 => 4
  | 10 => 7
  | 11 => 8
  | _ => 14

/-- Element emax of a block format (R67). -/
def mxEmax (code : Nat) : Int :=
  match code with
  | 9 => 8
  | 10 => 2
  | 11 => 2
  | _ => 0

/-- Whether a format stores a scale plane (R70). -/
def isBlock (code : Nat) : Bool := (9 ≤ code && code ≤ 12) || code == 19 || code == 20

/-- Bits of an element (R67). -/
def fmtBits (code : Nat) : Nat :=
  match code with
  | 1 => 32
  | 2 => 16
  | 3 => 16
  | 4 => 8
  | 5 => 8
  | 6 => 6
  | 7 => 6
  | 8 => 4
  | 9 => 8
  | 10 => 6
  | 11 => 4
  | 12 => 8
  | 13 => 16
  | 14 => 8
  | 15 => 4
  | 16 => 8
  | 17 => 16
  | 18 => 32
  | 19 => 4
  | 20 => 6
  | _ => 0

/-- Bytes of the data plane of `n` elements (R69): whole bytes up to the last element's. DEDUCED, log entry 122. -/
def planeBytes (code n : Nat) : Nat := ceilDiv (n * fmtBits code) 8

/-- The raw bits of element `i` in a plane read byte by byte (R69): byte address and bit place of the element. -/
def elemRaw (rd : Nat → Nat) (code i : Nat) : Nat :=
  let w := fmtBits code
  if w = 6 then
    (rd (3 * (i / 4)) + 256 * rd (3 * (i / 4) + 1) + 65536 * rd (3 * (i / 4) + 2)) / 2 ^ (6 * (i % 4)) % 64
  else if w = 4 then rd (i / 2) / 2 ^ (4 * (i % 2)) % 16
  else if w = 8 then rd i
  else if w = 16 then rd (2 * i) + 256 * rd (2 * i + 1)
  else rd (4 * i) + 256 * rd (4 * i + 1) + 65536 * rd (4 * i + 2) + 16777216 * rd (4 * i + 3)

/-- The value of a code in a floating-point format (R67). -/
def floatNum (f : FloatFmt) (raw : Nat) : Num :=
  let neg := bitOf raw (f.bits - 1)
  let mag := raw % 2 ^ (f.bits - 1)
  let e := mag / 2 ^ f.frac
  let m := mag % 2 ^ f.frac
  if f.top < mag then (if f.inf = some mag then .inf neg else .nan)
  else if e = 0 then .fin neg m (1 - (f.bias : Int) - f.frac)
  else .fin neg (m + 2 ^ f.frac) ((e : Int) - f.bias - f.frac)

/-- The value of a code in an integer format. -/
def intNum (w : Nat) (isSigned : Bool) (raw : Nat) : Num :=
  if isSigned then .fin (signedOf w raw < 0) (signedOf w raw).natAbs 0 else .fin false raw 0

/-- The value of an element by itself, without its block scale: `tab` is its codebook (R67, R72). -/
def elemNum (tab : List Nat) (code raw : Nat) : Num :=
  if code = 12 then (match intNum 8 true raw with | .fin s m _ => .fin s m (-6) | n => n)
  else if code = 19 || code = 20 then
    (match floatFmt 3 with | some f => floatNum f (tab.getD raw 0) | none => .nan)
  else match floatFmt (if 9 ≤ code && code ≤ 11 then mxElement code else code) with
    | some f => floatNum f raw
    | none => match intFmt code with
      | some (w, g) => intNum w g raw
      | none => .nan

/-- A value times an E8M0 scale (R70, R71). -/
def scaleNum (byte : Nat) (a : Num) : Num :=
  if byte = 255 then .nan else match a with | .fin s m e => .fin s m (e + byte - 127) | n => n

/-- Element `i` of a tensor: data plane, scale plane and codebook (R70, R71). -/
def readElem (rd sc : Nat → Nat) (tab : List Nat) (code i : Nat) : Num :=
  let v := elemNum tab code (elemRaw rd code i)
  if isBlock code then scaleNum (sc (i / 32)) v else v

/-! ## Write-out -/

/-- A write-out descriptor (R80). -/
structure Wdesc where
  fmt   : Nat
  rnd   : Nat
  ovf   : Bool
  shift : Int
  rest  : Nat
  deriving DecidableEq, Repr

/-- The descriptor of 32 bits (R80). -/
def wdescOf (w : Nat) : Wdesc :=
  { fmt := bitsOf w 4 0, rnd := bitsOf w 6 5, ovf := bitOf w 7, shift := signedOf 8 (bitsOf w 15 8), rest := bitsOf w 31 16 }

/-- The conditions of R80 on a descriptor; MX outputs are formats without OVF (R80, R85). -/
def wdescOk (d : Wdesc) : Bool :=
  d.rest == 0 && d.rnd != 3 &&
  (if d.fmt = 31 then d.rnd == 0 && !d.ovf && d.shift == 0
   else 1 ≤ d.fmt && d.fmt ≤ 18 && (!d.ovf || d.fmt ≤ 5))

/-- floor(log2(n / d)) for n, d > 0. -/
def log2Ratio (n d : Nat) : Int :=
  let a : Int := (Nat.log2 n : Int) - Nat.log2 d
  if (if 0 ≤ a then d * 2 ^ a.toNat ≤ n else d ≤ n * 2 ^ (-a).toNat) then a else a - 1

/-- n / d rounded to a multiple of 2^k, as the multiple: RNE, RTZ or stochastic with the word `r` (R82, R87). -/
def roundMag (n d : Nat) (k : Int) (rnd r : Nat) : Nat :=
  let nn := if 0 ≤ k then n else n * 2 ^ (-k).toNat
  let dd := if 0 ≤ k then d * 2 ^ k.toNat else d
  let q := nn / dd
  let m := nn % dd
  if rnd = 0 then (if dd < 2 * m || (2 * m == dd && q % 2 == 1) then q + 1 else q)
  else if rnd = 1 then q
  else if r < m * 2 ^ 32 / dd then q + 1 else q

/-- A magnitude on the extended grid of a floating-point format, as a code without upper limit (R82). -/
def floatCode (f : FloatFmt) (n d rnd r : Nat) : Nat :=
  let emin : Int := 1 - (f.bias : Int)
  let e := if n = 0 then emin else max (log2Ratio n d) emin
  (e - emin).toNat * 2 ^ f.frac + roundMag n d (e - f.frac) rnd r

/-- With its sign bit. -/
def signCode (bits : Nat) (neg : Bool) (code : Nat) : Nat := code + bit neg * 2 ^ (bits - 1)

/-- n / d · 2^k as a ratio. -/
def shiftRatio (n d : Nat) (k : Int) : Nat × Nat := if 0 ≤ k then (n * 2 ^ k.toNat, d) else (n, d * 2 ^ (-k).toNat)

/-- The infinity or NaN that a floating-point format writes on overflow with OVF 1 (R83). -/
def overCode (f : FloatFmt) (neg : Bool) : Nat :=
  match f.inf with
  | some i => signCode f.bits neg i
  | none => f.nan.getD (signCode f.bits neg f.top)

/-- The integer of a format nearest in range (R83). -/
def clampInt (w : Nat) (isSigned : Bool) (v : Int) : Nat :=
  if isSigned then twosNat w (max (-(2 ^ (w - 1) : Int)) (min v (2 ^ (w - 1) - 1)))
  else twosNat w (max 0 (min v (2 ^ w - 1)))

/-- The bits written for a value in a scalar format: R81 to R84, R87. -/
def writeScalar (d : Wdesc) (r : Nat) (v : OutVal) : Nat :=
  match floatFmt d.fmt with
  | some f =>
    match v with
    | .nan => f.nan.getD 0
    | .inf s => if d.ovf then overCode f s else signCode f.bits s f.top
    | .num s n den =>
      if n = 0 then 0 else
      let (a, b) := shiftRatio n den d.shift
      let c := floatCode f a b d.rnd r
      if f.top < c then (if d.ovf && d.rnd != 1 then overCode f s else signCode f.bits s f.top) else signCode f.bits s c
  | none =>
    match intFmt d.fmt with
    | some (w, g) =>
      match v with
      | .nan => 0
      | .inf s => clampInt w g (if s then -(2 ^ 64) else 2 ^ 64)
      | .num s n den =>
        let (a, b) := shiftRatio n den d.shift
        clampInt w g (signed s (roundMag a b 0 d.rnd r))
    | none => 0

/-- An element of an MX block after the division by 2^x (R85): saturates at the element maximum or minimum. -/
def mxElem (fmt : Nat) (rnd r : Nat) (neg : Bool) (n d : Nat) : Nat :=
  if fmt = 12 then clampInt 8 true (signed neg (roundMag n d (-6) rnd r))
  else match floatFmt (mxElement fmt) with
    | some f => if n = 0 then 0 else signCode f.bits neg (min (floatCode f n d rnd r) f.top)
    | none => 0

/-- Element maximum or minimum of an MX format. -/
def mxLimit (fmt : Nat) (neg : Bool) : Nat :=
  if fmt = 12 then (if neg then 0x80 else 0x7F)
  else match floatFmt (mxElement fmt) with
    | some f => signCode f.bits neg f.top
    | none => 0

/-- The larger of two ratios. -/
def maxRatio (a b : Nat × Nat) : Nat × Nat := if a.1 * b.2 < b.1 * a.2 then b else a

/-- A value times 2^k. -/
def OutVal.scaled (k : Int) (v : OutVal) : OutVal :=
  match v with
  | .num s n d => .num s (shiftRatio n d k).1 (shiftRatio n d k).2
  | o => o

/-- A block of lanes written in an MX format (R85): its scale byte and element codes. `rs` are the elements' random
words. -/
def writeBlock (d : Wdesc) (rs : List Nat) (vs : List OutVal) : Nat × List Nat :=
  let ws := vs.map (OutVal.scaled d.shift)
  if ws.any (fun v => v == .nan) then (255, ws.map (fun _ => 0))
  else if ws.any (fun v => match v with | .inf _ => true | _ => false) then
    (254, (ws.zip rs).map (fun a => match a.1 with
      | .inf s => mxLimit d.fmt s
      | .num s n den => mxElem d.fmt d.rnd a.2 s n (den * 2 ^ 127)
      | .nan => 0))
  else
    let amax := ws.foldl (fun m v => match v with | .num _ n den => maxRatio m (n, den) | _ => m) (0, 1)
    if amax.1 = 0 then (0, ws.map (fun _ => 0))
    else
      let x := min (max (log2Ratio amax.1 amax.2 - mxEmax d.fmt) (-127)) 127
      ((x + 127).toNat, (ws.zip rs).map (fun a => match a.1 with
        | .num s n den => mxElem d.fmt d.rnd a.2 s (shiftRatio n den (-x)).1 (shiftRatio n den (-x)).2
        | _ => 0))

/-- The bytes of a plane of elements (R69); bits of the last byte beyond the last element are 0. DEDUCED, log entry 122. -/
def packPlane (code : Nat) : List Nat → Bytes
  | [] => []
  | a :: [] =>
    leBytes (ceilDiv (fmtBits code) 8) a
  | a :: b :: [] =>
    if fmtBits code = 6 then leBytes 2 (a + 64 * b)
    else if fmtBits code = 4 then leBytes 1 (a + 16 * b)
    else leBytes (fmtBits code / 8) a ++ leBytes (fmtBits code / 8) b
  | a :: b :: c :: [] =>
    if fmtBits code = 6 then leBytes 3 (a + 64 * b + 4096 * c)
    else if fmtBits code = 4 then leBytes 1 (a + 16 * b) ++ leBytes 1 c
    else leBytes (fmtBits code / 8) a ++ leBytes (fmtBits code / 8) b ++ leBytes (fmtBits code / 8) c
  | a :: b :: c :: d :: es =>
    (if fmtBits code = 6 then leBytes 3 (a + 64 * b + 4096 * c + 262144 * d)
     else if fmtBits code = 4 then leBytes 1 (a + 16 * b) ++ leBytes 1 (c + 16 * d)
     else leBytes (fmtBits code / 8) a ++ leBytes (fmtBits code / 8) b ++ leBytes (fmtBits code / 8) c ++
       leBytes (fmtBits code / 8) d) ++ packPlane code es

/-- A written run of lanes: the data plane and the scale plane (empty for scalar formats). `rand e` is the random word of
output element `e` (R88). -/
def writeOut (d : Wdesc) (rand : Nat → Nat) (vs : List OutVal) : Bytes × Bytes :=
  if isBlock d.fmt then
    let blocks := (List.range (ceilDiv vs.length 32)).map (fun b =>
      writeBlock d ((List.range 32).map (fun j => rand (b * 32 + j))) ((vs.drop (b * 32)).take 32))
    (packPlane d.fmt (blocks.flatMap (·.2)), blocks.map (fun b => BitVec.ofNat 8 b.1))
  else (packPlane d.fmt (vs.mapIdx (fun i v => writeScalar d (rand i) v)), [])

end Sys2Proof.Machine
end

