-- ==== Sys2Proof/Machine/Curves.lean ====
section
/-! DEFINITION. Curve tables and their exact interpolation (03 R89–R94). The default points are the true function values
rounded to FP32 by RNE (R92), computed with exact arithmetic from the table of R92. -/

namespace Sys2Proof.Machine

/-- Default points of curve 0 (exp2), 205 to a number, the first lowest. -/
def defaultCurve0 : List Nat :=
  [0x3F92F42C3F92DAB73F92C1463F92A7DA3F928E723F92750F3F925BB03F9242563F9229003F920FAE3F91F6613F91DD183F91C3D33F91AA933F9191583F9178203F915EED3F9145BE3F912C943F91136E3F90FA4D3F90E12F3F90C8163F90AF023F9095F23F907CE63F9063DE3F904ADB3F9031DC3F9018E23F8FFFEC3F8FE6FA3F8FCE0C3F8FB5233F8F9C3E3F8F835D3F8F6A813F8F51A93F8F38D53F8F20063F8F073B3F8EEE743F8ED5B23F8EBCF33F8EA43A3F8E8B843F8E72D33F8E5A253F8E417D3F8E28D83F8E10383F8DF79C3F8DDF043F8DC6713F8DADE13F8D95563F8D7CD03F8D644D3F8D4BCF3F8D33553F8D1ADF3F8D026E3F8CEA013F8CD1983F8CB9333F8CA0D23F8C88763F8C701E3F8C57CA3F8C3F7A3F8C272F3F8C0EE73F8BF6A43F8BDE653F8BC62B3F8BADF43F8B95C23F8B7D943F8B656A3F8B4D443F8B35233F8B1D053F8B04EC3F8AECD73F8AD4C63F8ABCBA3F8AA4B13F8A8CAD3F8A74AD3F8A5CB13F8A44B93F8A2CC53F8A14D53F89FCEA3F89E5033F89CD203F89B5413F899D663F89858F3F896DBC3F8955EE3F893E243F89265D3F890E9B3F88F6DD3F88DF233F88C76E3F88AFBC3F88980F3F8880653F8868C03F88511E3F8839813F8821E83F880A533F87F2C23F87DB353F87C3AD3F87AC283F8794A83F877D2B3F8765B33F874E3E3F8736CE3F871F623F8707F93F86F0953F86D9353F86C1D93F86AA813F86932D3F867BDD3F8664913F864D4A3F8636063F861EC63F86078A3F85F0523F85D91F3F85C1EF3F85AAC33F85939C3F857C783F8565583F854E3D3F8537253F8520123F8509023F84F1F63F84DAEF3F84C3EB3F84ACEB3F8495F03F847EF83F8468043F8451153F843A293F8423413F840C5D3F83F57D3F83DEA13F83C7C93F83B0F53F839A253F8383593F836C913F8355CD3F833F0D3F8328503F8311983F82FAE43F82E4333F82CD873F82B6DE3F82A0393F8289983F8272FC3F825C633F8245CE3F822F3C3F8218AF3F8202263F81EBA13F81D51F3F81BEA13F81A8283F8191B23F817B403F8164D23F814E683F8138023F81219F3F810B413F80F4E63F80DE8F3F80C83C3F80B1ED3F809BA23F80855B3F806F173F8058D83F80429C3F802C643F8016303F800000,
   0x3FA8D4143FA8B6D53FA8999B3FA87C663FA85F373FA8420C3FA824E63FA807C63FA7EAAA3FA7CD943FA7B0823FA793763FA7766E3FA7596C3FA73C6F3FA71F763FA702833FA6E5953FA6C8AC3FA6ABC73FA68EE83FA6720E3FA655383FA638683FA61B9D3FA5FED73FA5E2153FA5C5593FA5A8A23FA58BEF3FA56F423FA552993FA535F63FA519583FA4FCBE3FA4E0293FA4C39A3FA4A70F3FA48A893FA46E083FA4518D3FA435163FA418A43FA3FC373FA3DFCE3FA3C36B3FA3A70D3FA38AB33FA36E5F3FA3520F3FA335C53FA3197F3FA2FD3E3FA2E1023FA2C4CB3FA2A8993FA28C6B3FA270433FA2541F3FA238013FA21BE73FA1FFD23FA1E3C23FA1C7B73FA1ABB03FA18FAF3FA173B23FA157BA3FA13BC73FA11FD93FA103F03FA0E80B3FA0CC2C3FA0B0513FA0947B3FA078AA3FA05CDE3FA041163FA025533FA009963F9FEDDC3F9FD2283F9FB6793F9F9ACE3F9F7F283F9F63873F9F47EB3F9F2C533F9F10C03F9EF5323F9ED9A93F9EBE253F9EA2A53F9E872A3F9E6BB43F9E50433F9E34D63F9E196E3F9DFE0B3F9DE2AD3F9DC7533F9DABFE3F9D90AE3F9D75623F9D5A1C3F9D3EDA3F9D239C3F9D08643F9CED303F9CD2013F9CB6D63F9C9BB13F9C80903F9C65733F9C4A5C3F9C2F493F9C143B3F9BF9313F9BDE2C3F9BC32C3F9BA8313F9B8D3A3F9B72483F9B575A3F9B3C713F9B218D3F9B06AE3F9AEBD33F9AD0FD3F9AB62B3F9A9B5E3F9A80963F9A65D23F9A4B133F9A30593F9A15A33F99FAF23F99E0463F99C59E3F99AAFA3F99905C3F9975C23F995B2C3F99409C3F99260F3F990B883F98F1053F98D6863F98BC0D3F98A1973F9887273F986CBB3F9852533F9837F03F981D923F9803383F97E8E33F97CE923F97B4463F9799FF3F977FBC3F97657D3F974B433F97310E3F9716DD3F96FCB13F96E2893F96C8663F96AE473F96942D3F967A183F9660063F9645FA3F962BF23F9611EE3F95F7EF3F95DDF53F95C3FF3F95AA0D3F9590203F9576373F955C533F9542743F9528983F950EC23F94F4F03F94DB223F94C1593F94A7943F948DD43F9474183F945A603F9440AE3F9426FF3F940D553F93F3AF3F93DA0E3F93C0723F93A6D93F938D463F9373B63F935A2B3F9340A53F9327233F930DA5,
   0x3FC1F58E3FC1D3F53FC1B2613FC190D33FC16F4B3FC14DC93FC12C4D3FC10AD63FC0E9663FC0C7FB3FC0A6953FC085363FC063DC3FC042893FC0213B3FBFFFF23FBFDEB03FBFBD733FBF9C3C3FBF7B0B3FBF59DF3FBF38BA3FBF179A3FBEF67F3FBED56B3FBEB45C3FBE93533FBE72503FBE51523FBE305A3FBE0F683FBDEE7C3FBDCD953FBDACB43FBD8BD83FBD6B033FBD4A333FBD29683FBD08A43FBCE7E53FBCC72B3FBCA6783FBC85CA3FBC65213FBC447F3FBC23E23FBC034A3FBBE2B93FBBC22D3FBBA1A63FBB81263FBB60AA3FBB40353FBB1FC53FBAFF5B3FBADEF63FBABE973FBA9E3E3FBA7DEA3FBA5D9B3FBA3D533FBA1D103FB9FCD23FB9DC9A3FB9BC683FB99C3B3FB97C143FB95BF33FB93BD73FB91BC03FB8FBAF3FB8DBA43FB8BB9E3FB89B9E3FB87BA33FB85BAE3FB83BBE3FB81BD43FB7FBF03FB7DC113FB7BC373FB79C633FB77C953FB75CCC3FB73D083FB71D4A3FB6FD923FB6DDDF3FB6BE313FB69E893FB67EE73FB65F4A3FB63FB23FB620203FB600943FB5E10D3FB5C18B3FB5A20F3FB582983FB563273FB543BB3FB524543FB504F33FB4E5983FB4C6423FB4A6F13FB487A63FB468603FB4491F3FB429E43FB40AAF3FB3EB7E3FB3CC543FB3AD2E3FB38E0E3FB36EF43FB34FDE3FB330CF3FB311C43FB2F2BF3FB2D3BF3FB2B4C53FB295D03FB276E03FB257F63FB239113FB21A323FB1FB573FB1DC833FB1BDB33FB19EE93FB180243FB161653FB142AA3FB123F63FB105463FB0E69C3FB0C7F73FB0A9573FB08ABD3FB06C283FB04D983FB02F0E3FB010893FAFF2093FAFD38E3FAFB5193FAF96A93FAF783E3FAF59D93FAF3B793FAF1D1E3FAEFEC83FAEE0783FAEC22D3FAEA3E73FAE85A63FAE676B3FAE49343FAE2B033FAE0CD83FADEEB13FADD0903FADB2743FAD945D3FAD764B3FAD583F3FAD3A383FAD1C363FACFE393FACE0413FACC24F3FACA4623FAC867A3FAC68973FAC4AB93FAC2CE03FAC0F0D3FABF13F3FABD3763FABB5B23FAB97F33FAB7A3A3FAB5C853FAB3ED63FAB212C3FAB03873FAAE5E73FAAC84C3FAAAAB73FAA8D263FAA6F9B3FAA52153FAA34943FAA17183FA9F9A13FA9DC2F3FA9BEC23FA9A15B3FA983F83FA9669B3FA949423FA92BEF3FA90EA13FA8F158,
   0x3FDED4AE3FDEAE143FDE87813FDE60F53FDE3A6F3FDE13F03FDDED773FDDC7063FDDA09B3FDD7A363FDD53D93FDD2D823FDD07313FDCE0E73FDCBAA43FDC94683FDC6E323FDC48023FDC21DA3FDBFBB83FDBD59C3FDBAF873FDB89793FDB63713FDB3D703FDB17763FDAF1823FDACB943FDAA5AE3FDA7FCD3FDA59F43FDA34213FDA0E543FD9E88E3FD9C2CF3FD99D163FD977633FD951B83FD92C123FD906733FD8E0DB3FD8BB493FD895BE3FD870393FD84ABB3FD825433FD7FFD23FD7DA673FD7B5033FD78FA53FD76A4E3FD744FD3FD71FB23FD6FA6E3FD6D5313FD6AFFA3FD68AC93FD6659F3FD6407B3FD61B5E3FD5F6473FD5D1373FD5AC2D3FD587293FD5622C3FD53D353FD518453FD4F35B3FD4CE773FD4A99A3FD484C33FD45FF33FD43B293FD416653FD3F1A83FD3CCF13FD3A8403FD383963FD35EF23FD33A543FD315BD3FD2F12C3FD2CCA23FD2A81E3FD283A03FD25F283FD23AB73FD2164C3FD1F1E73FD1CD893FD1A9313FD184DF3FD160943FD13C4F3FD118103FD0F3D73FD0CFA53FD0AB793FD087533FD063343FD03F1B3FD01B083FCFF6FB3FCFD2F43FCFAEF43FCF8AFA3FCF67063FCF43193FCF1F313FCEFB503FCED7753FCEB3A13FCE8FD23FCE6C0A3FCE48483FCE248C3FCE00D63FCDDD273FCDB97E3FCD95DA3FCD723D3FCD4EA73FCD2B163FCD078C3FCCE4073FCCC0893FCC9D113FCC799F3FCC56333FCC32CE3FCC0F6E3FCBEC153FCBC8C23FCBA5753FCB822E3FCB5EED3FCB3BB23FCB187D3FCAF54F3FCAD2263FCAAF043FCA8BE83FCA68D13FCA45C13FCA22B73FC9FFB33FC9DCB53FC9B9BE3FC996CC3FC973E03FC950FA3FC92E1B3FC90B413FC8E86D3FC8C5A03FC8A2D83FC880173FC85D5B3FC83AA63FC817F73FC7F54D3FC7D2AA3FC7B00C3FC78D753FC76AE33FC748583FC725D23FC703533FC6E0D93FC6BE663FC69BF83FC679913FC6572F3FC634D33FC6127E3FC5F02E3FC5CDE43FC5ABA03FC589623FC5672A3FC544F83FC522CC3FC500A53FC4DE853FC4BC6B3FC49A563FC478483FC4563F3FC4343C3FC4123F3FC3F0483FC3CE573FC3AC6B3FC38A863FC368A73FC346CD3FC324F93FC3032B3FC2E1633FC2BFA13FC29DE43FC27C2E3FC25A7D3FC238D23FC2172D,
   0x400000003FFFD3A73FFFA7563FFF7B0D3FFF4ECB3FFF22913FFEF65F3FFECA343FFE9E113FFE71F63FFE45E23FFE19D63FFDEDD23FFDC1D53FFD95E03FFD69F23FFD3E0C3FFD122E3FFCE6573FFCBA883FFC8EC03FFC63003FFC37483FFC0B973FFBDFED3FFBB44C3FFB88B23FFB5D1F3FFB31943FFB06103FFADA943FFAAF203FFA83B33FFA584D3FFA2CF03FFA01993FF9D64A3FF9AB033FF97FC33FF9548B3FF9295A3FF8FE303FF8D30E3FF8A7F43FF87CE13FF851D53FF826D13FF7FBD53FF7D0DF3FF7A5F23FF77B0B3FF7502D3FF725553FF6FA853FF6CFBC3FF6A4FB3FF67A413FF64F8F3FF624E43FF5FA403FF5CFA43FF5A50F3FF57A823FF54FFC3FF5257D3FF4FB063FF4D0963FF4A62D3FF47BCC3FF451723FF4271F3FF3FCD43FF3D2903FF3A8533FF37E1E3FF353F03FF329C93FF2FFAA3FF2D5923FF2AB813FF281773FF257753FF22D7A3FF203863FF1D99A3FF1AFB53FF185D73FF15C003FF132313FF108683FF0DEA83FF0B4EE3FF08B3B3FF061903FF037EC3FF00E4F3FEFE4BA3FEFBB2B3FEF91A43FEF68243FEF3EAB3FEF15393FEEEBCF3FEEC26C3FEE99103FEE6FBB3FEE466D3FEE1D263FEDF3E73FEDCAAE3FEDA17D3FED78533FED4F303FED26143FECFD003FECD3F23FECAAEC3FEC81EC3FEC58F43FEC30033FEC07193FEBDE363FEBB55A3FEB8C853FEB63B73FEB3AF13FEB12313FEAE9783FEAC0C73FEA981C3FEA6F793FEA46DD3FEA1E473FE9F5B93FE9CD323FE9A4B13FE97C383FE953C63FE92B5B3FE902F73FE8DA993FE8B2433FE889F43FE861AC3FE8396A3FE811303FE7E8FD3FE7C0D03FE798AB3FE7708C3FE748753FE720643FE6F85B3FE6D0583FE6A85C3FE680673FE658793FE630923FE608B23FE5E0D93FE5B9073FE5913C3FE569773FE541B93FE51A033FE4F2533FE4CAAA3FE4A3083FE47B6D3FE453D83FE42C4B3FE404C43FE3DD443FE3B5CB3FE38E593FE366EE3FE33F893FE3182C3FE2F0D53FE2C9853FE2A23C3FE27AF93FE253BE3FE22C893FE2055B3FE1DE343FE1B7133FE18FFA3FE168E73FE141DB3FE11AD53FE0F3D73FE0CCDF3FE0A5EE3FE07F033FE058203FE031433FE00A6D3FDFE39E3FDFBCD53FDF96133FDF6F583FDF48A33FDF21F53FDEFB4E]

/-- Default points of curve 1 (log2), 205 to a number, the first lowest. -/
def defaultCurve1 : List Nat :=
  [0x3E86314C3E85973F3E84FD123E8462C43E83C8573E832DC93E82931B3E81F84C3E815D5D3E80C24D3E80271D3E7F17993E7DE0B63E7CA9913E7B722B3E7A3A833E79029A3E77CA6E3E7692013E7559513E74205F3E72E72B3E71ADB43E7073FB3E6F39FF3E6DFFC03E6CC53F3E6B8A7A3E6A4F723E6914273E67D8993E669CC73E6560B23E6424593E62E7BC3E61AADB3E606DB63E5F304E3E5DF2A03E5CB4AF3E5B76793E5A37FE3E58F93F3E57BA3B3E567AF13E553B633E53FB903E52BB773E517B193E503A753E4EF98C3E4DB85D3E4C76E83E4B352D3E49F32C3E48B0E53E476E573E462B833E44E8683E43A5073E42615F3E411D6F3E3FD9393E3E94BB3E3D4FF63E3C0AEA3E3AC5963E397FFA3E383A173E36F3EB3E35AD783E3466BC3E331FB83E31D86B3E3090D63E2F48F83E2E00D23E2CB8623E2B6FAA3E2A26A83E28DD5D3E2793C83E2649EA3E24FFC23E23B5503E226A943E211F8E3E1FD43E3E1E88A33E1D3CBE3E1BF08F3E1AA4143E19574F3E180A3F3E16BCE33E156F3D3E14214A3E12D30D3E1184833E1035AE3E0EE68D3E0D971F3E0C47663E0AF7603E09A70E3E08566F3E0705833E05B44A3E0462C43E0310F13E01BED13E006C643DFE33503DFB8D3E3DF8E6913DF63F473DF397613DF0EEDE3DEE45BE3DEB9C013DE8F1A73DE646AF3DE39B193DE0EEE53DDE42123DDB94A03DD8E68F3DD637DF3DD3888F3DD0D89F3DCE280E3DCB76DD3DC8C50B3DC612983DC35F843DC0ABCD3DBDF7753DBB427A3DB88CDC3DB5D69C3DB31FB83DB068303DADB0053DAAF7363DA83DC23DA583A93DA2C8EB3DA00D883D9D517F3D9A94D03D97D77B3D95197F3D925ADC3D8F9B923D8CDBA03D8A1B073D8759C53D8497DB3D81D5483D7E24173D789C4C3D73132D3D6D88BB3D67FCF33D626FD63D5CE1633D5751993D51C0773D4C2DFE3D469A2C3D4105013D3B6E7C3D35D69C3D303D603D2AA2C93D2506D63D1F69853D19CAD63D142AC83D0E895B3D08E68F3D0342613CFB39A53CEFEBC43CE49B1E3CD947B13CCDF17C3CC2987D3CB73CB43CABDE1F3CA07CBC3C95188B3C89B1893C7C8F6A3C65B61D3C4ED7273C37F2863C2108363C0A18343BE644FD3BB84E233B8A4BD63B387C203AB8932A00000000,
   0x3EF83AB53EF7B6B43EF7329B3EF6AE6A3EF62A223EF5A5C23EF5214B3EF49CBB3EF418143EF393553EF30E7E3EF2898F3EF204893EF17F6A3EF0FA333EF074E43EEFEF7E3EEF69FF3EEEE4683EEE5EB83EEDD8F13EED53113EECCD193EEC47093EEBC0E03EEB3A9F3EEAB4463EEA2DD43EE9A7493EE920A63EE899EB3EE813173EE78C2A3EE705253EE67E063EE5F6D03EE56F803EE4E8183EE460963EE3D8FC3EE351493EE2C97D3EE241983EE1B99B3EE131833EE0A9533EE0210A3EDF98A83EDF102C3EDE87973EDDFEE93EDD76223EDCED413EDC64473EDBDB333EDB52063EDAC8C03EDA3F603ED9B5E63ED92C533ED8A2A63ED818DF3ED78EFF3ED705053ED67AF13ED5F0C43ED5667C3ED4DC1B3ED451A03ED3C70A3ED33C5B3ED2B1913ED226AE3ED19BB03ED110993ED085673ECFFA1A3ECF6EB43ECEE3333ECE57983ECDCBE23ECD40123ECCB4273ECC28223ECB9C023ECB0FC83ECA83733EC9F7043EC96A793EC8DDD43EC851143EC7C43A3EC737443EC6AA343EC61D083EC58FC23EC502603EC474E43EC3E74C3EC359993EC2CBCB3EC23DE23EC1AFDD3EC121BD3EC093823EC0052B3EBF76B93EBEE82B3EBE59823EBDCABD3EBD3BDD3EBCACE13EBC1DC93EBB8E963EBAFF473EBA6FDC3EB9E0553EB950B23EB8C0F33EB831183EB7A1213EB7110E3EB680DF3EB5F0943EB5602D3EB4CFA93EB43F093EB3AE4D3EB31D743EB28C7F3EB1FB6E3EB16A3F3EB0D8F53EB0478E3EAFB60A3EAF24693EAE92AC3EAE00D23EAD6EDB3EACDCC73EAC4A963EABB8493EAB25DE3EAA93573EAA00B23EA96DF03EA8DB113EA848143EA7B4FB3EA721C43EA68E703EA5FAFE3EA5676F3EA4D3C23EA43FF83EA3AC103EA3180B3EA283E83EA1EFA73EA15B493EA0C6CC3EA032323E9F9D7A3E9F08A33E9E73AF3E9DDE9D3E9D496D3E9CB41E3E9C1EB13E9B89263E9AF37D3E9A5DB63E99C7D03E9931CB3E989BA83E9805673E976F073E96D8883E9641EA3E95AB2E3E9514533E947D5A3E93E6413E934F093E92B7B33E92203D3E9188A93E90F0F53E9059223E8FC1303E8F291E3E8E90ED3E8DF89D3E8D602E3E8CC79E3E8C2EF03E8B96223E8AFD343E8A64263E89CAF93E8931AC3E88983F3E87FEB23E8765053E86CB38,
   0x3F2D7F093F2D454B3F2D0B853F2CD1B63F2C97DD3F2C5DFC3F2C24113F2BEA1E3F2BB0213F2B761B3F2B3C0C3F2B01F43F2AC7D23F2A8DA83F2A53743F2A19383F29DEF23F29A4A23F296A4A3F292FE83F28F57E3F28BB0A3F28808C3F2846063F280B763F27D0DD3F27963A3F275B8E3F2720D93F26E61B3F26AB533F2670823F2635A73F25FAC33F25BFD63F2584DF3F2549DF3F250ED53F24D3C23F2498A63F245D803F2422513F23E7183F23ABD53F2370893F2335343F22F9D53F22BE6C3F2282FA3F22477E3F220BF93F21D06A3F2194D23F2159303F211D843F20E1CF3F20A6103F206A473F202E743F1FF2983F1FB6B33F1F7AC33F1F3ECA3F1F02C73F1EC6BA3F1E8AA33F1E4E833F1E12593F1DD6253F1D99E73F1D5DA03F1D214E3F1CE4F33F1CA88E3F1C6C1F3F1C2FA63F1BF3233F1BB6973F1B7A003F1B3D5F3F1B00B53F1AC4003F1A87423F1A4A793F1A0DA63F19D0CA3F1993E33F1956F33F1919F83F18DCF33F189FE43F1862CB3F1825A83F17E87B3F17AB443F176E023F1730B73F16F3613F16B6013F1678963F163B223F15FDA33F15C01A3F1582873F1544EA3F1507423F14C9903F148BD33F144E0D3F14103C3F13D2603F13947A3F13568A3F1318903F12DA8B3F129C7B3F125E623F12203D3F11E20F3F11A3D53F1165923F1127443F10E8EB3F10AA883F106C1A3F102DA23F0FEF1F3F0FB0913F0F71F93F0F33563F0EF4A93F0EB5F13F0E772E3F0E38613F0DF9893F0DBAA63F0D7BB93F0D3CC13F0CFDBE3F0CBEB03F0C7F983F0C40743F0C01463F0BC20E3F0B82CA3F0B437C3F0B04223F0AC4BE3F0A854F3F0A45D53F0A06503F09C6C03F0987253F09477F3F0907CF3F08C8133F08884C3F08487A3F08089E3F07C8B63F0788C33F0748C53F0708BC3F06C8A73F0688883F06485E3F0608283F05C7E73F05879B3F0547443F0506E23F04C6743F0485FB3F0445773F0404E83F03C44D3F0383A73F0342F53F0302393F02C1713F02809D3F023FBF3F01FED43F01BDDF3F017CDE3F013BD13F00FAB93F00B9963F0078673F00372C3EFFEBCD3EFF692A3EFEE6703EFE639E3EFDE0B63EFD5DB63EFCDA9F3EFC57713EFBD42B3EFB50CE3EFACD5A3EFA49CE3EF9C62B3EF942713EF8BE9F,
   0x3F590C113F58D8C03F58A5683F5872093F583EA33F580B363F57D7C13F57A4463F5770C33F573D393F5709A83F56D60F3F56A2703F566EC93F563B1B3F5607653F55D3A93F559FE53F556C1A3F5538483F55046E3F54D08D3F549CA53F5468B63F5434BF3F5400C13F53CCBB3F5398AF3F53649A3F53307F3F52FC5C3F52C8323F5294013F525FC83F522B873F51F7403F51C2F13F518E9A3F515A3C3F5125D73F50F16A3F50BCF63F50887A3F5053F73F501F6C3F4FEADA3F4FB6403F4F819F3F4F4CF73F4F18473F4EE38F3F4EAED03F4E7A093F4E453B3F4E10653F4DDB883F4DA6A33F4D71B63F4D3CC23F4D07C73F4CD2C33F4C9DB83F4C68A63F4C338C3F4BFE6A3F4BC9403F4B940F3F4B5ED73F4B29963F4AF44E3F4ABEFE3F4A89A73F4A54473F4A1EE13F49E9723F49B3FB3F497E7D3F4948F73F49136A3F48DDD43F48A8373F4872923F483CE53F4807313F47D1743F479BB03F4765E43F4730103F46FA343F46C4513F468E653F4658723F4622773F45EC733F45B6683F4580553F454A3B3F4514183F44DDED3F44A7BA3F4471803F443B3D3F4404F23F43CEA03F4398453F4361E33F432B783F42F5063F42BE8B3F4288083F42517D3F421AEB3F41E4503F41ADAD3F4177023F41404F3F4109933F40D2D03F409C053F4065313F402E553F3FF7713F3FC0853F3F89913F3F52953F3F1B903F3EE4833F3EAD6E3F3E76513F3E3F2B3F3E07FE3F3DD0C83F3D998A3F3D62433F3D2AF43F3CF39D3F3CBC3E3F3C84D63F3C4D663F3C15EE3F3BDE6D3F3BA6E43F3B6F533F3B37B93F3B00173F3AC86D3F3A90BA3F3A58FF3F3A213B3F39E96F3F39B19A3F3979BD3F3941D83F3909EA3F38D1F43F3899F53F3861ED3F3829DE3F37F1C53F37B9A43F37817B3F3749493F37110E3F36D8CB3F36A0803F36682B3F362FCF3F35F7693F35BEFB3F3586843F354E053F35157D3F34DCEC3F34A4533F346BB13F3433063F33FA533F33C1973F3388D23F3350043F33172E3F32DE4F3F32A5673F326C773F32337D3F31FA7B3F31C1703F31885C3F314F403F31161A3F30DCEC3F30A3B53F306A753F30312C3F2FF7DA3F2FBE803F2F851C3F2F4BB03F2F123A3F2ED8BC3F2E9F343F2E65A43F2E2C0B3F2DF2683F2DB8BD,
   0x3F8000003F7FD1D33F7FA39F3F7F75663F7F47283F7F18E33F7EEA993F7EBC483F7E8DF23F7E5F973F7E31353F7E02CD3F7DD4603F7DA5ED3F7D77743F7D48F53F7D1A713F7CEBE63F7CBD563F7C8EBF3F7C60233F7C31813F7C02D93F7BD42B3F7BA5783F7B76BE3F7B47FE3F7B19393F7AEA6D3F7ABB9C3F7A8CC53F7A5DE83F7A2F043F7A001B3F79D12C3F79A2373F79733C3F79443B3F7915343F78E6273F78B7143F7887FB3F7858DC3F7829B73F77FA8C3F77CB5B3F779C243F776CE73F773DA43F770E5A3F76DF0B3F76AFB63F76805A3F7650F93F7621913F75F2243F75C2B03F7593363F7563B63F7534303F7504A43F74D5113F74A5793F7475DA3F7446363F74168B3F73E6DA3F73B7233F7387653F7357A23F7327D83F72F8083F72C8323F7298563F7268733F72388A3F72089B3F71D8A63F71A8AB3F7178A93F7148A13F7118933F70E87F3F70B8643F7088433F70581C3F7027EF3F6FF7BB3F6FC7813F6F97413F6F66FA3F6F36AD3F6F065A3F6ED6003F6EA5A03F6E753A3F6E44CD3F6E145A3F6DE3E13F6DB3613F6D82DB3F6D524F3F6D21BC3F6CF1233F6CC0833F6C8FDD3F6C5F313F6C2E7E3F6BFDC53F6BCD053F6B9C3F3F6B6B723F6B3A9F3F6B09C63F6AD8E63F6AA7FF3F6A77123F6A461F3F6A15253F69E4243F69B31E3F6982103F6950FC3F691FE23F68EEC13F68BD993F688C6B3F685B373F6829FB3F67F8BA3F67C7713F6796223F6764CD3F6733713F67020E3F66D0A53F669F353F666DBF3F663C413F660ABE3F65D9333F65A7A23F65760A3F65446C3F6512C73F64E11B3F64AF693F647DB03F644BF03F641A293F63E85C3F63B6883F6384AD3F6352CC3F6320E43F62EEF53F62BCFF3F628B033F6259003F6226F63F61F4E53F61C2CE3F6190AF3F615E8A3F612C5E3F60FA2B3F60C7F23F6095B13F60636A3F60311C3F5FFEC73F5FCC6B3F5F9A093F5F679F3F5F352F3F5F02B73F5ED0393F5E9DB43F5E6B283F5E38953F5E05FB3F5DD35A3F5DA0B23F5D6E033F5D3B4E3F5D08913F5CD5CD3F5CA3033F5C70313F5C3D583F5C0A793F5BD7923F5BA4A43F5B71B03F5B3EB43F5B0BB13F5AD8A83F5AA5973F5A727F3F5A3F603F5A0C3A3F59D90C3F59A5D83F59729D3F593F5A]

/-- Default points of curve 2 (recip), 205 to a number, the first lowest. -/
def defaultCurve2 : List Nat :=
  [0x3F5578E93F55A5733F55D2103F55FEBF3F562B813F5658553F56853D3F56B2373F56DF443F570C643F5739973F5766DD3F5794363F57C1A23F57EF213F581CB43F584A5A3F5878133F58A5DF3F58D3BF3F5901B23F592FB93F595DD33F598C013F59BA423F59E8983F5A17003F5A457D3F5A740E3F5AA2B23F5AD16A3F5B00373F5B2F173F5B5E0C3F5B8D143F5BBC313F5BEB623F5C1AA73F5C4A013F5C796F3F5CA8F13F5CD8883F5D08343F5D37F43F5D67C93F5D97B23F5DC7B03F5DF7C33F5E27EB3F5E58283F5E887A3F5EB8E03F5EE95C3F5F19ED3F5F4A933F5F7B4F3F5FAC1F3F5FDD053F600E013F603F123F6070383F60A1743F60D2C63F61042D3F6135AA3F61673D3F6198E53F61CAA43F61FC783F622E633F6260633F62927A3F62C4A73F62F6EA3F6329433F635BB33F638E393F63C0D63F63F3893F6426523F6459333F648C2A3F64BF383F64F25D3F6525983F6558EB3F658C543F65BFD53F65F36D3F66271C3F665AE23F668EBF3F66C2B43F66F6C13F672AE43F675F203F6793733F67C7DE3F67FC603F6830FA3F6865AC3F689A773F68CF593F6904533F6939653F696E903F69A3D23F69D92D3F6A0EA13F6A442D3F6A79D13F6AAF8E3F6AE5643F6B1B523F6B515A3F6B877A3F6BBDB33F6BF4053F6C2A703F6C60F43F6C97913F6CCE483F6D05183F6D3C013F6D73043F6DAA203F6DE1563F6E18A63F6E500F3F6E87923F6EBF2F3F6EF6E63F6F2EB73F6F66A23F6F9EA83F6FD6C73F700F013F7047553F707FC43F70B84D3F70F0F13F7129AF3F7162893F719B7D3F71D48C3F720DB63F7246FB3F72805B3F72B9D63F72F36D3F732D1F3F7366EC3F73A0D53F73DADA3F7414FA3F744F363F74898D3F74C4013F74FE913F75393C3F7574043F75AEE83F75E9E83F7625053F76603E3F769B933F76D7053F7712943F774E403F778A083F77C5EE3F7801F03F783E103F787A4C3F78B6A63F78F31D3F792FB23F796C643F79A9343F79E6223F7A232D3F7A60563F7A9D9D3F7ADB023F7B18853F7B56273F7B93E63F7BD1C43F7C0FC13F7C4DDC3F7C8C163F7CCA6E3F7D08E53F7D477B3F7D86313F7DC5053F7E03F83F7E430B3F7E823D3F7EC18E3F7F00FF3F7F40903F7F80403F7FC0103F800000,
   0x3F36EF073F370FBB3F37307B3F3751473F37721E3F3793013F37B3EF3F37D4EA3F37F5F13F3817033F3838213F38594B3F387A813F389BC33F38BD113F38DE6C3F38FFD23F3921443F3942C23F39644D3F3985E33F39A7863F39C9353F39EAF03F3A0CB83F3A2E8C3F3A506C3F3A72583F3A94513F3AB6563F3AD8683F3AFA863F3B1CB03F3B3EE73F3B612B3F3B837B3F3BA5D73F3BC8413F3BEAB63F3C0D393F3C2FC83F3C52643F3C750D3F3C97C23F3CBA843F3CDD533F3D002F3F3D23183F3D460E3F3D69103F3D8C203F3DAF3C3F3DD2663F3DF59D3F3E18E03F3E3C313F3E5F8F3F3E82FA3F3EA6723F3EC9F83F3EED8B3F3F112B3F3F34D83F3F58923F3F7C5B3F3FA0303F3FC4133F3FE8033F400C013F40300C3F4054253F40784B3F409C7F3F40C0C13F40E5103F41096D3F412DD83F4152503F4176D63F419B6A3F41C00C3F41E4BC3F4209793F422E453F42531F3F4278063F429CFC3F42C1FF3F42E7113F430C313F43315F3F43569B3F437BE53F43A13E3F43C6A53F43EC1A3F44119E3F4437303F445CD03F44827F3F44A83C3F44CE083F44F3E23F4519CB3F453FC23F4565C83F458BDD3F45B2013F45D8333F45FE743F4624C43F464B223F4671903F46980C3F46BE983F46E5323F470BDB3F4732943F47595B3F4780323F47A7183F47CE0C3F47F5113F481C243F4843473F486A793F4891BA3F48B90B3F48E06B3F4907DA3F492F593F4956E83F497E863F49A6343F49CDF13F49F5BF3F4A1D9B3F4A45883F4A6D843F4A95903F4ABDAC3F4AE5D83F4B0E143F4B36603F4B5EBC3F4B87283F4BAFA43F4BD8303F4C00CC3F4C29783F4C52353F4C7B023F4CA3DF3F4CCCCD3F4CF5CB3F4D1ED93F4D47F83F4D71273F4D9A673F4DC3B83F4DED193F4E168A3F4E400D3F4E69A03F4E93443F4EBCF93F4EE6BE3F4F10953F4F3A7C3F4F64753F4F8E7E3F4FB8993F4FE2C43F500D013F50374F3F5061AE3F508C1E3F50B6A03F50E1333F510BD73F51368D3F5161543F518C2D3F51B7173F51E2133F520D213F5238403F5263713F528EB43F52BA083F52E56F3F5310E73F533C713F53680D3F5393BB3F53BF7C3F53EB4E3F5417333F5443293F546F323F549B4D3F54C77B3F54F3BB3F55200D3F554C72,
   0x3F200A013F2023083F203C173F20552D3F206E4C3F2087723F20A0A13F20B9D73F20D3153F20EC5B3F2105A93F211EFF3F21385D3F2151C33F216B313F2184A73F219E253F21B7AB3F21D13A3F21EAD03F22046E3F221E153F2237C33F22517A3F226B393F2285003F229ECF3F22B8A73F22D2863F22EC6E3F23065E3F2320573F233A573F2354603F236E723F23888B3F23A2AD3F23BCD83F23D70A3F23F1453F240B893F2425D53F2440293F245A863F2474EB3F248F593F24A9CF3F24C44E3F24DED53F24F9653F2513FD3F252E9E3F2549483F2563FA3F257EB53F2599783F25B4453F25CF193F25E9F73F2604DD3F261FCC3F263AC43F2655C43F2670CD3F268BDF3F26A6FA3F26C21E3F26DD4A3F26F8803F2713BE3F272F053F274A553F2765AE3F2781103F279C7B3F27B7EF3F27D36C3F27EEF23F280A813F2826193F2841BA3F285D643F2879173F2894D33F28B0993F28CC683F28E83F3F2904203F29200B3F293BFE3F2957FB3F2974013F2990103F29AC283F29C84A3F29E4753F2A00AA3F2A1CE83F2A392F3F2A55803F2A71DA3F2A8E3E3F2AAAAB3F2AC7213F2AE3A13F2B002B3F2B1CBE3F2B395A3F2B56013F2B72B03F2B8F6A3F2BAC2D3F2BC8FA3F2BE5D03F2C02B03F2C1F9A3F2C3C8D3F2C598B3F2C76923F2C93A23F2CB0BD3F2CCDE13F2CEB103F2D08483F2D258A3F2D42D63F2D602B3F2D7D8B3F2D9AF53F2DB8693F2DD5E63F2DF36E3F2E11003F2E2E9B3F2E4C413F2E69F13F2E87AB3F2EA5703F2EC33E3F2EE1173F2EFEFA3F2F1CE73F2F3ADE3F2F58DF3F2F76EB3F2F95013F2FB3223F2FD14C3F2FEF823F300DC13F302C0B3F304A5F3F3068BE3F3087273F30A59B3F30C41A3F30E2A23F3101363F311FD43F313E7C3F315D2F3F317BED3F319AB63F31B9893F31D8673F31F74F3F3216433F3235413F32544A3F32735E3F32927C3F32B1A63F32D0DA3F32F0193F330F633F332EB83F334E193F336D843F338CFA3F33AC7B3F33CC073F33EB9E3F340B413F342AEE3F344AA73F346A6B3F348A3A3F34AA143F34C9FA3F34E9EA3F3509E73F3529EE3F354A013F356A1F3F358A483F35AA7D3F35CABE3F35EB093F360B613F362BC43F364C323F366CAC3F368D313F36ADC23F36CE5F,
   0x3F0E3CD73F0E509C3F0E64663F0E78353F0E8C0B3F0E9FE53F0EB3C53F0EC7AB3F0EDB973F0EEF873F0F037E3F0F177A3F0F2B7B3F0F3F833F0F538F3F0F67A23F0F7BBA3F0F8FD83F0FA3FB3F0FB8243F0FCC533F0FE0873F0FF4C13F1009013F101D463F1031913F1045E23F105A383F106E953F1082F73F10975E3F10ABCC3F10C03F3F10D4B83F10E9373F10FDBC3F1112473F1126D73F113B6D3F1150093F1164AB3F1179533F118E003F11A2B43F11B76D3F11CC2C3F11E0F23F11F5BD3F120A8E3F121F653F1234423F1249253F125E0D3F1272FC3F1287F13F129CEC3F12B1ED3F12C6F43F12DC013F12F1143F13062D3F131B4C3F1330713F13459C3F135ACD3F1370053F1385423F139A863F13AFD03F13C51F3F13DA763F13EFD23F1405343F141A9D3F14300C3F1445813F145AFC3F14707D3F1486053F149B933F14B1273F14C6C23F14DC623F14F2093F1507B73F151D6A3F1533243F1548E53F155EAB3F1574783F158A4C3F15A0253F15B6063F15CBEC3F15E1D93F15F7CC3F160DC63F1623C73F1639CD3F164FDA3F1665EE3F167C083F1692293F16A8503F16BE7E3F16D4B23F16EAED3F17012E3F1717763F172DC43F1744193F175A753F1770D73F1787403F179DB03F17B4263F17CAA33F17E1263F17F7B03F180E413F1824D93F183B773F18521C3F1868C83F187F7B3F1896343F18ACF43F18C3BB3F18DA883F18F15D3F1908383F191F1A3F1936033F194CF33F1963EA3F197AE73F1991EC3F19A8F73F19C00A3F19D7233F19EE433F1A056A3F1A1C983F1A33CD3F1A4B093F1A624D3F1A79973F1A90E83F1AA8403F1ABF9F3F1AD7063F1AEE733F1B05E73F1B1D633F1B34E63F1B4C703F1B64013F1B7B993F1B93383F1BAADF3F1BC28C3F1BDA413F1BF1FD3F1C09C13F1C218B3F1C395D3F1C51363F1C69173F1C80FE3F1C98ED3F1CB0E43F1CC8E13F1CE0E63F1CF8F33F1D11073F1D29223F1D41443F1D596E3F1D71A03F1D89D93F1DA2193F1DBA613F1DD2B03F1DEB073F1E03653F1E1BCB3F1E34383F1E4CAD3F1E652A3F1E7DAE3F1E96393F1EAECD3F1EC7673F1EE00A3F1EF8B43F1F11663F1F2A1F3F1F42E13F1F5BA93F1F747A3F1F8D523F1FA6333F1FBF1A3F1FD80A3F1FF101,
   0x3F0000003F0010023F0020083F0030123F0040203F0050323F0060483F0070623F0080813F0090A33F00A0C93F00B0F33F00C1223F00D1543F00E18B3F00F1C53F0102043F0112473F01228E3F0132D93F0143283F01537B3F0163D33F01742E3F01848E3F0194F13F01A5593F01B5C53F01C6363F01D6AA3F01E7233F01F7A03F0208213F0218A63F02292F3F0239BD3F024A4E3F025AE43F026B7F3F027C1D3F028CC03F029D673F02AE123F02BEC13F02CF753F02E02D3F02F0E93F0301AA3F03126F3F0323383F0334053F0344D73F0355AD3F0366873F0377663F0388493F0399303F03AA1C3F03BB0C3F03CC013F03DCF93F03EDF63F03FEF83F040FFE3F0421083F0432173F04432A3F0454423F04655E3F04767E3F0487A33F0498CC3F04A9FA3F04BB2C3F04CC633F04DD9E3F04EEDD3F0500213F05116A3F0522B73F0534083F05455E3F0556B93F0568183F05797C3F058AE43F059C503F05ADC23F05BF373F05D0B23F05E2313F05F3B43F06053C3F0616C93F06285A3F0639F03F064B8A3F065D2A3F066ECD3F0680763F0692233F06A3D43F06B58B3F06C7463F06D9053F06EACA3F06FC933F070E603F0720333F07320A3F0743E63F0755C63F0767AB3F0779953F078B843F079D783F07AF703F07C16D3F07D36F3F07E5753F07F7813F0809913F081BA63F082DBF3F083FDE3F0852013F08642A3F0876573F0888893F089ABF3F08ACFB3F08BF3B3F08D1813F08E3CB3F08F61A3F09086E3F091AC73F092D253F093F883F0951F03F09645C3F0976CE3F0989443F099BC03F09AE413F09C0C63F09D3503F09E5E03F09F8743F0A0B0E3F0A1DAC3F0A30503F0A42F83F0A55A63F0A68593F0A7B103F0A8DCD3F0AA08F3F0AB3563F0AC6223F0AD8F33F0AEBC93F0AFEA53F0B11853F0B246B3F0B37553F0B4A453F0B5D3A3F0B70343F0B83343F0B96383F0BA9423F0BBC513F0BCF653F0BE27E3F0BF59D3F0C08C13F0C1BEA3F0C2F183F0C424B3F0C55843F0C68C23F0C7C053F0C8F4E3F0CA29C3F0CB5EF3F0CC9483F0CDCA63F0CF0093F0D03713F0D16DF3F0D2A523F0D3DCB3F0D51493F0D64CC3F0D78553F0D8BE33F0D9F773F0DB3103F0DC6AE3F0DDA523F0DEDFB3F0E01AA3F0E155E3F0E2918]

/-- Default points of curve 3 (rsqrt), 205 to a number, the first lowest. -/
def defaultCurve3 : List Nat :=
  [0x3F69C5653F69DDC63F69F6303F6A0EA13F6A271A3F6A3F9A3F6A58223F6A70B23F6A89493F6AA1E93F6ABA903F6AD33F3F6AEBF53F6B04B43F6B1D7A3F6B36483F6B4F1E3F6B67FC3F6B80E23F6B99CF3F6BB2C53F6BCBC23F6BE4C83F6BFDD53F6C16EA3F6C30083F6C492D3F6C625B3F6C7B903F6C94CE3F6CAE143F6CC7613F6CE0B73F6CFA153F6D137C3F6D2CEA3F6D46603F6D5FDF3F6D79663F6D92F53F6DAC8D3F6DC62D3F6DDFD53F6DF9853F6E133E3F6E2CFF3F6E46C83F6E609A3F6E7A743F6E94573F6EAE423F6EC8363F6EE2323F6EFC363F6F16433F6F30593F6F4A773F6F649D3F6F7ECD3F6F99043F6FB3453F6FCD8E3F6FE7E03F70023A3F701C9D3F7037093F70517D3F706BFB3F7086813F70A1103F70BBA73F70D6483F70F0F13F710BA33F71265E3F7141223F715BEF3F7176C53F7191A33F71AC8B3F71C77C3F71E2763F71FD793F7218843F7233993F724EB73F7269DE3F72850F3F72A0483F72BB8B3F72D6D73F72F22C3F730D8A3F7328F13F7344623F735FDC3F737B603F7396EC3F73B2823F73CE223F73E9CB3F74057D3F7421393F743CFE3F7458CD3F7474A53F7490873F74AC723F74C8673F74E4653F75006D3F751C7F3F75389A3F7554BF3F7570EE3F758D273F75A9693F75C5B53F75E20A3F75FE6A3F761AD33F7637473F7653C43F76704B3F768CDC3F76A9773F76C61B3F76E2CA3F76FF833F771C463F7739133F7755EA3F7772CB3F778FB63F77ACAC3F77C9AB3F77E6B53F7803C93F7820E73F783E103F785B423F78787F3F7895C73F78B3193F78D0753F78EDDB3F790B4C3F7928C83F79464E3F7963DE3F7981793F799F1F3F79BCCF3F79DA893F79F84F3F7A161F3F7A33F93F7A51DF3F7A6FCF3F7A8DCA3F7AABCF3F7AC9E03F7AE7FB3F7B06213F7B24523F7B428E3F7B60D43F7B7F263F7B9D833F7BBBEB3F7BDA5D3F7BF8DB3F7C17643F7C35F83F7C54973F7C73423F7C91F73F7CB0B83F7CCF843F7CEE5B3F7D0D3E3F7D2C2C3F7D4B253F7D6A2A3F7D893A3F7DA8553F7DC77C3F7DE6AE3F7E05EC3F7E25363F7E448B3F7E63EB3F7E83583F7EA2D03F7EC2533F7EE1E23F7F017E3F7F21243F7F40D73F7F60953F7F80603F7FA0363F7FC0183F7FE0063F800000,
   0x3F5867A03F587AF73F588E533F58A1B43F58B51B3F58C8873F58DBF83F58EF6E3F5902EA3F59166B3F5929F13F593D7C3F59510D3F5964A33F59783E3F598BDE3F599F843F59B3303F59C6E03F59DA963F59EE513F5A02123F5A15D83F5A29A33F5A3D743F5A514A3F5A65253F5A79063F5A8CED3F5AA0D93F5AB4CA3F5AC8C13F5ADCBD3F5AF0BF3F5B04C63F5B18D33F5B2CE53F5B40FD3F5B551A3F5B693D3F5B7D653F5B91933F5BA5C63F5BB9FF3F5BCE3E3F5BE2823F5BF6CC3F5C0B1C3F5C1F713F5C33CC3F5C482C3F5C5C923F5C70FE3F5C856F3F5C99E63F5CAE633F5CC2E63F5CD76E3F5CEBFC3F5D00903F5D15293F5D29C83F5D3E6D3F5D53183F5D67C93F5D7C7F3F5D913B3F5DA5FD3F5DBAC53F5DCF933F5DE4673F5DF9403F5E0E1F3F5E23053F5E37F03F5E4CE13F5E61D83F5E76D53F5E8BD83F5EA0E03F5EB5EF3F5ECB043F5EE01F3F5EF53F3F5F0A663F5F1F933F5F34C63F5F49FF3F5F5F3E3F5F74833F5F89CE3F5F9F1F3F5FB4763F5FC9D43F5FDF373F5FF4A13F600A113F601F873F6035033F604A853F60600E3F60759C3F608B313F60A0CC3F60B66E3F60CC163F60E1C43F60F7783F610D323F6122F33F6138BA3F614E883F61645B3F617A363F6190163F61A5FD3F61BBEA3F61D1DE3F61E7D83F61FDD83F6213DF3F6229ED3F6240003F62561B3F626C3B3F6282633F6298903F62AEC53F62C5003F62DB413F62F1893F6307D73F631E2C3F6334883F634AEA3F6361533F6377C33F638E393F63A4B63F63BB393F63D1C33F63E8543F63FEEC3F64158A3F642C2F3F6442DB3F64598E3F6470473F6487073F649DCE3F64B49C3F64CB703F64E24C3F64F92E3F6510173F6527073F653DFE3F6554FC3F656C013F65830D3F659A1F3F65B1393F65C8593F65DF813F65F6B03F660DE53F6625223F663C663F6653B03F666B023F66825B3F6699BB3F66B1223F66C8913F66E0063F66F7823F670F063F6726913F673E233F6755BD3F676D5D3F6785053F679CB43F67B46A3F67CC283F67E3ED3F67FBB93F68138D3F682B683F68434A3F685B343F6873253F688B1D3F68A31D3F68BB253F68D3343F68EB4A3F6903683F691B8D3F6933BA3F694BEE3F69642A3F697C6D3F6994B83F69AD0B,
   0x3F4A69153F4A78E83F4A88BF3F4A989A3F4AA8783F4AB85A3F4AC83F3F4AD8293F4AE8163F4AF8073F4B07FC3F4B17F43F4B27F03F4B37F03F4B47F43F4B57FC3F4B68073F4B78163F4B88293F4B98403F4BA85A3F4BB8793F4BC89B3F4BD8C13F4BE8EB3F4BF9193F4C094B3F4C19803F4C29B93F4C39F73F4C4A383F4C5A7D3F4C6AC63F4C7B123F4C8B633F4C9BB83F4CAC103F4CBC6C3F4CCCCD3F4CDD313F4CED993F4CFE053F4D0E763F4D1EEA3F4D2F623F4D3FDE3F4D505E3F4D60E23F4D71693F4D81F53F4D92853F4DA3193F4DB3B13F4DC44D3F4DD4ED3F4DE5913F4DF6393F4E06E53F4E17963F4E284A3F4E39023F4E49BE3F4E5A7F3F4E6B433F4E7C0C3F4E8CD93F4E9DAA3F4EAE7E3F4EBF583F4ED0353F4EE1163F4EF1FB3F4F02E53F4F13D33F4F24C53F4F35BB3F4F46B53F4F57B33F4F68B63F4F79BC3F4F8AC73F4F9BD73F4FACEA3F4FBE013F4FCF1D3F4FE03D3F4FF1623F50028A3F5013B73F5024E83F50361D3F5047573F5058943F5069D73F507B1D3F508C683F509DB73F50AF0A3F50C0623F50D1BE3F50E31E3F50F4833F5105EC3F5117593F5128CB3F513A413F514BBB3F515D3A3F516EBD3F5180453F5191D13F51A3613F51B4F63F51C68F3F51D82D3F51E9CF3F51FB763F520D213F521ED03F5230843F52423D3F5253FA3F5265BB3F5277813F52894C3F529B1B3F52ACEE3F52BEC63F52D0A33F52E2843F52F4693F5306543F5318423F532A363F533C2E3F534E2A3F53602B3F5372313F53843B3F53964A3F53A85E3F53BA763F53CC933F53DEB53F53F0DB3F5403063F5415353F5427693F5439A23F544BE03F545E223F5470693F5482B53F5495053F54A75A3F54B9B43F54CC133F54DE773F54F0DF3F55034C3F5515BE3F5528343F553AB03F554D303F555FB53F55723F3F5584CD3F5597613F55A9F93F55BC973F55CF393F55E1E03F55F48C3F56073C3F5619F23F562CAD3F563F6C3F5652313F5664FA3F5677C83F568A9B3F569D743F56B0513F56C3333F56D61A3F56E9063F56FBF83F570EEE3F5721E93F5734E93F5747EE3F575AF93F576E083F57811C3F5794363F57A7543F57BA783F57CDA13F57E0CF3F57F4023F58073A3F581A773F582DBA3F5841013F58544E,
   0x3F3ED24D3F3EDF8F3F3EECD43F3EFA1C3F3F07663F3F14B33F3F22033F3F2F563F3F3CAC3F3F4A043F3F575F3F3F64BD3F3F721E3F3F7F813F3F8CE83F3F9A513F3FA7BD3F3FB52C3F3FC29D3F3FD0123F3FDD893F3FEB033F3FF8803F4006003F4013833F4021093F402E913F403C1C3F4049AA3F40573B3F4064CF3F4072663F4080003F408D9C3F409B3B3F40A8DE3F40B6833F40C42B3F40D1D63F40DF843F40ED353F40FAE93F41089F3F4116593F4124153F4131D53F413F973F414D5C3F415B253F4168F03F4176BE3F41848F3F4192633F41A03A3F41AE143F41BBF13F41C9D13F41D7B43F41E59A3F41F3833F42016F3F420F5E3F421D503F422B453F42393D3F4247383F4255363F4263373F42713B3F427F423F428D4C3F429B593F42A96A3F42B77D3F42C5933F42D3AD3F42E1C93F42EFE93F42FE0B3F430C313F431A5A3F4328853F4336B43F4344E63F43531B3F4361543F436F8F3F437DCD3F438C0F3F439A543F43A89B3F43B6E63F43C5343F43D3853F43E1DA3F43F0313F43FE8C3F440CEA3F441B4B3F4429AF3F4438163F4446813F4454EE3F44635F3F4471D33F44804A3F448EC53F449D423F44ABC33F44BA473F44C8CE3F44D7593F44E5E63F44F4773F45030C3F4511A33F45203E3F452EDB3F453D7D3F454C213F455AC93F4569743F4578223F4586D33F4595883F45A4403F45B2FB3F45C1BA3F45D07C3F45DF413F45EE0A3F45FCD63F460BA53F461A773F46294D3F4638263F4647033F4655E33F4664C63F4673AC3F4682963F4691843F46A0743F46AF683F46BE603F46CD5A3F46DC593F46EB5A3F46FA5F3F4709683F4718733F4727833F4736953F4745AB3F4754C53F4763E23F4773023F4782263F47914D3F47A0783F47AFA63F47BED73F47CE0C3F47DD453F47EC813F47FBC13F480B043F481A4A3F4829943F4838E23F4848333F4857873F4866DF3F48763B3F48859A3F4894FD3F48A4633F48B3CD3F48C33A3F48D2AB3F48E21F3F48F1983F4901133F4910923F4920153F492F9B3F493F253F494EB33F495E443F496DD93F497D713F498D0D3F499CAD3F49AC503F49BBF73F49CBA23F49DB503F49EB023F49FAB73F4A0A713F4A1A2D3F4A29EE3F4A39B23F4A497A3F4A5946,
   0x3F3504F33F3510453F351B983F3526EE3F3532453F353D9F3F3548FB3F3554593F355FBA3F356B1C3F3576813F3581E83F358D503F3598BB3F35A4293F35AF983F35BB093F35C67D3F35D1F33F35DD6B3F35E8E53F35F4613F35FFE03F360B613F3616E43F3622693F362DF03F3639793F3645053F3650933F365C233F3667B53F36734A3F367EE03F368A793F3696143F36A1B13F36AD513F36B8F33F36C4973F36D03D3F36DBE53F36E7903F36F33D3F36FEEC3F370A9D3F3716513F3722063F372DBF3F3739793F3745353F3750F43F375CB53F3768793F37743E3F3780063F378BD03F37979D3F37A36C3F37AF3D3F37BB103F37C6E53F37D2BD3F37DE973F37EA743F37F6533F3802343F380E173F3819FD3F3825E43F3831CF3F383DBB3F3849AA3F38559B3F38618F3F386D853F38797D3F3885773F3891743F389D733F38A9753F38B5793F38C17F3F38CD883F38D9933F38E5A03F38F1AF3F38FDC13F3909D63F3915ED3F3922063F392E213F393A3F3F39465F3F3952823F395EA73F396ACE3F3976F83F3983243F398F533F399B843F39A7B73F39B3ED3F39C0253F39CC603F39D89D3F39E4DC3F39F11E3F39FD623F3A09A93F3A15F23F3A223E3F3A2E8C3F3A3ADC3F3A472F3F3A53843F3A5FDC3F3A6C363F3A78933F3A84F23F3A91543F3A9DB83F3AAA1F3F3AB6883F3AC2F33F3ACF613F3ADBD23F3AE8453F3AF4BA3F3B01323F3B0DAD3F3B1A2A3F3B26A93F3B332B3F3B3FAF3F3B4C363F3B58C03F3B654C3F3B71DB3F3B7E6C3F3B8AFF3F3B97953F3BA42E3F3BB0C93F3BBD673F3BCA073F3BD6AA3F3BE34F3F3BEFF73F3BFCA23F3C094F3F3C15FF3F3C22B13F3C2F663F3C3C1D3F3C48D73F3C55933F3C62533F3C6F143F3C7BD83F3C889F3F3C95693F3CA2353F3CAF043F3CBBD53F3CC8A93F3CD57F3F3CE2593F3CEF343F3CFC133F3D08F43F3D15D73F3D22BE3F3D2FA73F3D3C923F3D49803F3D56713F3D63653F3D705B3F3D7D543F3D8A4F3F3D974E3F3DA44F3F3DB1523F3DBE583F3DCB613F3DD86D3F3DE57B3F3DF28C3F3DFFA03F3E0CB63F3E19CF3F3E26EB3F3E340A3F3E412B3F3E4E4F3F3E5B763F3E689F3F3E75CB3F3E82FA3F3E902C3F3E9D603F3EAA973F3EB7D13F3EC50E,
   0x3F254D153F255E533F256F963F2580DE3F25922C3F25A37F3F25B4D83F25C6363F25D79A3F25E9033F25FA723F260BE63F261D5F3F262EDE3F2640633F2651ED3F26637D3F2675123F2686AD3F26984E3F26A9F43F26BBA03F26CD513F26DF083F26F0C43F2702873F27144F3F27261C3F2737F03F2749C93F275BA73F276D8C3F277F763F2791663F27A35C3F27B5573F27C7593F27D9603F27EB6D3F27FD803F280F983F2821B73F2833DB3F2846053F2858353F286A6B3F287CA73F288EE93F28A1313F28B37F3F28C5D23F28D82C3F28EA8C3F28FCF13F290F5D3F2921CF3F2934463F2946C43F2959483F296BD23F297E623F2990F83F29A3953F29B6373F29C8E03F29DB8E3F29EE433F2A00FE3F2A13C03F2A26873F2A39553F2A4C293F2A5F033F2A71E33F2A84CA3F2A97B73F2AAAAB3F2ABDA43F2AD0A43F2AE3AB3F2AF6B73F2B09CB3F2B1CE43F2B30043F2B432A3F2B56573F2B698A3F2B7CC43F2B90043F2BA34B3F2BB6983F2BC9EB3F2BDD463F2BF0A63F2C040E3F2C177B3F2C2AF03F2C3E6B3F2C51ED3F2C65753F2C79043F2C8C993F2CA0363F2CB3D93F2CC7823F2CDB333F2CEEEA3F2D02A83F2D166C3F2D2A383F2D3E0A3F2D51E33F2D65C33F2D79AA3F2D8D973F2DA18C3F2DB5873F2DC9893F2DDD933F2DF1A33F2E05BA3F2E19D83F2E2DFD3F2E42293F2E565C3F2E6A963F2E7ED73F2E931F3F2EA76E3F2EBBC53F2ED0223F2EE4873F2EF8F23F2F0D653F2F21DF3F2F36613F2F4AE93F2F5F793F2F74103F2F88AE3F2F9D533F2FB2003F2FC6B43F2FDB6F3F2FF0323F3004FC3F3019CE3F302EA73F3043873F30586E3F306D5E3F3082543F3097523F30AC583F30C1653F30D67A3F30EB963F3100B93F3115E53F312B183F3140523F3155943F316ADE3F3180303F3195893F31AAEA3F31C0533F31D5C33F31EB3B3F3200BB3F3216433F322BD23F32416A3F3257093F326CB03F32825F3F3298163F32ADD53F32C39C3F32D96B3F32EF413F3305203F331B073F3330F63F3346ED3F335CEC3F3372F33F3389023F339F193F33B5393F33CB613F33E1913F33F7C93F340E093F3424523F343AA33F3450FC3F34675E3F347DC73F34943A3F34AAB43F34C1373F34D7C33F34EE573F3504F3,
   0x3F1905733F1913203F1920D13F192E853F193C3D3F1949F83F1957B83F19657B3F1973423F19810C3F198EDA3F199CAC3F19AA823F19B85B3F19C6383F19D4193F19E1FE3F19EFE63F19FDD23F1A0BC23F1A19B63F1A27AE3F1A35A93F1A43A83F1A51AB3F1A5FB23F1A6DBD3F1A7BCB3F1A89DD3F1A97F33F1AA60D3F1AB42B3F1AC24D3F1AD0733F1ADE9C3F1AECC93F1AFAFB3F1B09303F1B17693F1B25A63F1B33E73F1B422C3F1B50743F1B5EC13F1B6D123F1B7B673F1B89BF3F1B981C3F1BA67C3F1BB4E13F1BC3493F1BD1B63F1BE0273F1BEE9B3F1BFD143F1C0B903F1C1A113F1C28963F1C371F3F1C45AB3F1C543C3F1C62D13F1C716A3F1C80083F1C8EA93F1C9D4E3F1CABF83F1CBAA53F1CC9573F1CD80D3F1CE6C73F1CF5853F1D04473F1D130E3F1D21D83F1D30A73F1D3F7A3F1D4E523F1D5D2D3F1D6C0D3F1D7AF13F1D89D93F1D98C53F1DA7B63F1DB6AA3F1DC5A33F1DD4A13F1DE3A23F1DF2A83F1E01B33F1E10C13F1E1FD43F1E2EEB3F1E3E063F1E4D263F1E5C4A3F1E6B733F1E7AA03F1E89D13F1E99063F1EA8403F1EB77F3F1EC6C13F1ED6083F1EE5543F1EF4A43F1F03F83F1F13513F1F22AF3F1F32103F1F41763F1F50E13F1F60503F1F6FC43F1F7F3C3F1F8EB93F1F9E3A3F1FADC03F1FBD4A3F1FCCD93F1FDC6C3F1FEC043F1FFBA03F200B413F201AE73F202A913F203A403F2049F33F2059AB3F2069683F2079293F2088EF3F2098BA3F20A8893F20B85D3F20C8353F20D8133F20E7F53F20F7DB3F2107C73F2117B73F2127AC3F2137A53F2147A43F2157A73F2167AF3F2177BC3F2187CD3F2197E33F21A7FE3F21B81E3F21C8433F21D86D3F21E89B3F21F8CE3F2209073F2219443F2229853F2239CC3F224A183F225A693F226ABE3F227B193F228B783F229BDD3F22AC463F22BCB43F22CD283F22DDA03F22EE1D3F22FE9F3F230F273F231FB33F2330453F2340DB3F2351773F2362173F2372BD3F2383683F2394173F23A4CC3F23B5873F23C6463F23D70A3F23E7D43F23F8A23F2409763F241A4F3F242B2E3F243C113F244CFA3F245DE83F246EDB3F247FD33F2490D13F24A1D43F24B2DC3F24C3EA3F24D4FC3F24E6153F24F7323F2508553F25197D3F252AAA3F253BDD,
   0x3F0F20363F0F2B663F0F369A3F0F41CF3F0F4D083F0F58433F0F63813F0F6EC13F0F7A043F0F854A3F0F90923F0F9BDD3F0FA72A3F0FB27B3F0FBDCE3F0FC9233F0FD47C3F0FDFD73F0FEB353F0FF6953F1001F83F100D5E3F1018C63F1024323F102FA03F103B103F1046843F1051FA3F105D733F1068EE3F10746D3F107FEE3F108B723F1096F83F10A2813F10AE0E3F10B99C3F10C52E3F10D0C33F10DC5A3F10E7F43F10F3913F10FF303F110AD33F1116783F1122203F112DCA3F1139783F1145293F1150DC3F115C923F11684B3F1174073F117FC53F118B873F11974B3F11A3123F11AEDC3F11BAA93F11C6793F11D24B3F11DE213F11E9F93F11F5D43F1201B33F120D943F1219783F12255E3F1231483F123D353F1249253F1255173F12610D3F126D053F1279003F1284FF3F1291003F129D043F12A90B3F12B5153F12C1223F12CD323F12D9453F12E55B3F12F1743F12FD903F1309AF3F1315D13F1321F63F132E1E3F133A493F1346773F1352A83F135EDC3F136B133F13774E3F13838B3F138FCB3F139C0E3F13A8553F13B49E3F13C0EB3F13CD3A3F13D98D3F13E5E33F13F23B3F13FE973F140AF63F1417583F1423BE3F1430263F143C913F1449003F1455723F1461E73F146E5F3F147ADA3F1487583F1493D93F14A05E3F14ACE63F14B9713F14C5FF3F14D2903F14DF253F14EBBC3F14F8573F1504F53F1511973F151E3B3F152AE33F15378E3F15443C3F1550ED3F155DA23F156A5A3F1577153F1583D33F1590953F159D5A3F15AA223F15B6EE3F15C3BC3F15D08E3F15DD643F15EA3C3F15F7183F1603F83F1610DA3F161DC03F162AA93F1637963F1644863F1651793F165E703F166B6A3F1678673F1685683F16926C3F169F733F16AC7E3F16B98C3F16C69E3F16D3B33F16E0CB3F16EDE73F16FB063F1708293F17154F3F1722783F172FA53F173CD63F174A0A3F1757413F17647C3F1771BA3F177EFC3F178C413F17998A3F17A6D63F17B4263F17C1793F17CED03F17DC2A3F17E9883F17F6E93F18044E3F1811B73F181F233F182C923F183A053F18477C3F1854F63F1862743F186FF53F187D7A3F188B033F18988F3F18A61F3F18B3B23F18C1493F18CEE43F18DC823F18EA243F18F7CA,
   0x3F06EE613F06F7C13F0701233F070A873F0713ED3F071D553F0726BE3F07302A3F0739983F0743083F074C793F0755ED3F075F633F0768DA3F0772543F077BD03F07854D3F078ECD3F07984F3F07A1D23F07AB583F07B4DF3F07BE693F07C7F53F07D1823F07DB123F07E4A43F07EE373F07F7CD3F0801653F080AFF3F08149B3F081E393F0827D83F08317A3F083B1E3F0844C53F084E6D3F0858173F0861C33F086B713F0875223F087ED43F0888893F08923F3F089BF83F08A5B23F08AF6F3F08B92E3F08C2EF3F08CCB23F08D6773F08E03E3F08EA083F08F3D33F08FDA13F0907703F0911423F091B163F0924EC3F092EC43F09389E3F09427A3F094C593F09563A3F09601C3F096A013F0973E83F097DD13F0987BD3F0991AA3F099B9A3F09A58B3F09AF7F3F09B9753F09C36D3F09CD683F09D7643F09E1633F09EB643F09F5673F09FF6C3F0A09743F0A137D3F0A1D893F0A27973F0A31A73F0A3BBA3F0A45CE3F0A4FE53F0A59FE3F0A641A3F0A6E373F0A78573F0A82793F0A8C9D3F0A96C33F0AA0EC3F0AAB173F0AB5443F0ABF733F0AC9A43F0AD3D83F0ADE0E3F0AE8473F0AF2813F0AFCBE3F0B06FD3F0B113E3F0B1B823F0B25C83F0B30103F0B3A5B3F0B44A73F0B4EF63F0B59483F0B639B3F0B6DF13F0B78493F0B82A43F0B8D013F0B97603F0BA1C13F0BAC253F0BB68B3F0BC0F43F0BCB5E3F0BD5CB3F0BE03B3F0BEAAD3F0BF5213F0BFF973F0C0A103F0C148B3F0C1F083F0C29883F0C340A3F0C3E8F3F0C49163F0C539F3F0C5E2B3F0C68B93F0C73493F0C7DDC3F0C88713F0C93093F0C9DA33F0CA83F3F0CB2DE3F0CBD7F3F0CC8233F0CD2C93F0CDD723F0CE81C3F0CF2CA3F0CFD793F0D082C3F0D12E03F0D1D973F0D28513F0D330D3F0D3DCB3F0D488C3F0D534F3F0D5E153F0D68DD3F0D73A83F0D7E753F0D89453F0D94173F0D9EEB3F0DA9C23F0DB49C3F0DBF783F0DCA573F0DD5383F0DE01B3F0DEB013F0DF5EA3F0E00D53F0E0BC33F0E16B33F0E21A53F0E2C9B3F0E37923F0E428D3F0E4D8A3F0E58893F0E638B3F0E6E8F3F0E79963F0E84A03F0E8FAC3F0E9ABB3F0EA5CC3F0EB0E03F0EBBF73F0EC7103F0ED22B3F0EDD4A3F0EE86B3F0EF38E3F0EFEB43F0F09DD3F0F1508,
   0x3F0000003F0008013F0010033F0018073F00200C3F0028133F00301B3F0038253F0040303F00483D3F00504B3F00585B3F00606D3F00687F3F0070943F0078AA3F0080C13F0088DA3F0090F53F0099113F00A12E3F00A94E3F00B16E3F00B9903F00C1B43F00C9DA3F00D2003F00DA293F00E2533F00EA7E3F00F2AB3F00FADA3F01030A3F010B3C3F01136F3F011BA43F0123DA3F012C123F01344C3F013C873F0144C43F014D023F0155423F015D833F0165C63F016E0B3F0176513F017E993F0186E23F018F2D3F01977A3F019FC83F01A8183F01B0693F01B8BC3F01C1113F01C9673F01D1BF3F01DA183F01E2733F01EAD03F01F32E3F01FB8E3F0203EF3F020C523F0214B73F021D1D3F0225853F022DEF3F02365A3F023EC73F0247353F024FA63F0258173F02608B3F0269003F0271763F0279EF3F0282693F028AE43F0293623F029BE13F02A4613F02ACE43F02B5683F02BDED3F02C6753F02CEFD3F02D7883F02E0143F02E8A23F02F1323F02F9C33F0302563F030AEB3F0313813F031C1A3F0324B33F032D4F3F0335EC3F033E8B3F03472B3F034FCE3F0358723F0361173F0369BF3F0372683F037B133F0383BF3F038C6D3F03951D3F039DCF3F03A6823F03AF373F03B7EE3F03C0A73F03C9613F03D21D3F03DADB3F03E39B3F03EC5C3F03F51F3F03FDE43F0406AA3F040F723F04183C3F0421083F0429D63F0432A53F043B763F0444493F044D1E3F0455F43F045ECC3F0467A63F0470823F04795F3F04823E3F048B1F3F0494023F049CE73F04A5CD3F04AEB53F04B79F3F04C08B3F04C9793F04D2683F04DB593F04E44C3F04ED413F04F6383F04FF303F05082A3F0511263F051A243F0523243F052C253F0535293F053E2E3F0547353F05503E3F0559493F0562553F056B643F0574743F057D863F05869A3F058FB03F0598C73F05A1E13F05AAFC3F05B4193F05BD383F05C6593F05CF7C3F05D8A13F05E1C73F05EAF03F05F41A3F05FD463F0606743F060FA43F0618D63F06220A3F062B403F0634773F063DB13F0646EC3F0650293F0659693F0662AA3F066BED3F0675323F067E783F0687C13F06910C3F069A583F06A3A73F06ACF73F06B64A3F06BF9E3F06C8F43F06D24D3F06DBA73F06E503]

/-- Default points of curve 4 (gelu), 205 to a number, the first lowest. -/
def defaultCurve4 : List Nat :=
  [0x9D64042D9D28B72B9CF96E3B9CB8333E9C87E5529C48524D9C13803C9BD901009B9F78FB9B6A28999B2BBE4A9AFBAF0C9AB83C9B9A86BB909A44DE399A0FB05C99D18B779998A48B995E2AF5992185A498EAA1E798AA404A9876D4709832C0859801530297BAF2029786FCEA9742C069970C59A196CA17AD96915B2A9650E4639615F41895D71411959A17C9955C958A951DBAA094E1593494A0D23A9465515A942355A093E8726793A53D73936AB3219326840F92EC0CD892A725A6926C7B839227205691EBFDD791A6742F916A954E9125233590E8461B90A331529065171D9020A44A8FE111B48F9D83978F5C41998F19D8498ED6B4A68E95ACD78E507A8D8E110CF38DC9A4978D8C054D8D42454B8D06A35C8CBA70248C80F5238C3239358BF611ED8BA9B4D88B69DA768B20F75A8ADD60658A9814AC8A50BF878A0F201D89C4129289862C15893772CC88FA93B988AAF7C2886912DA881EB70587D7F28E8792C3FF87474CAD87072FCC86B737BD8678124A8627C6DB85E2B8B5859909BD854E66A9850B0CB984BB2B48847BB1D18429113883E2E89883981EE1834BC405830856C382B6450A82736F9D822267D581D87B8A8190245E813FC34480FEDDF580A9340B807038F3804A5B998031388A80208CBC8015810E800E316380095BBA80062A1E80040E868002AAC38001C06F8001263E8000C0E180007E50800052A380003603800023448000170180000EFE800009C38000065980000420800002AD800001BD80000120800000BA800000798000004E8000003280000020800000158000000D800000098000000680000004800000028000000180000001800000018000000080000000800000008000000080000000800000008000000080000000800000008000000080000000800000008000000080000000800000008000000080000000800000008000000080000000800000008000000080000000800000008000000080000000800000008000000080000000800000008000000080000000800000008000000080000000800000008000000080000000800000008000000080000000800000008000000080000000800000008000000080000000800000008000000080000000800000008000000080000000,
   0xBB07CBC1BAF5CDAEBADE3D60BAC8BB9DBAB52005BAA344BCBA930653BA8443A9BA6DBBB0BA557028BA3F6F29BA2B86F4BA198966BA094BC6B9F54D28B9DAEAB0B9C32CE5B9ADD5E0B99AACB8B9897D2EB9742EBAB9589ED6B93FFA83B929F88EB9165639B904D6BDB8EA85ABB8CED0A4B8B6335AB8A05B52B88CFDF2B877AFA4B859583CB83E880CB826DC67B811FC9AB7FF31FFB7DED45FB7C26067B7A963ABB79377F2B7804203B75EE124B741767DB727C361B7115588B6FB8F28B6D97F6DB6BBDCF0B6A21B39B68BBE45B670B178B64F149FB631FC8EB618D461B603196CB5E0B242B5C05E5DB5A487B2B58C94F3B57000ADB54CAA83B52E5C59B5146597B4FC59ACB4D659EFB4B5E53BB49A33C8B48298D3B45CFE43B43ACBD9B41DBC70B40510EDB3E049ECB3BCD6BCB39ED5FFB3857807B360160DB33BEDD5B31D7392B303C989B2DC656CB2B81C4FB299A5F1B28019B0B255643DB2318FB1B2139A3AB1F52803B1CB64B3B1A8945AB18B9672B166EFE6B13ED8C3B11D8FBFB101F43FB0D62870B0B049C0B090F902B06E34EAB0438240B0204EA8B00350ABAFD6EC05AFAFB540AF8F821FAF6A3076AF3EE5F1AF1B7518AEFCF1DCAECD94F3AEA6EC86AE876715AE5B73DCAE31A9F0AE0FB11EADE8344CADBB6FA2AD9726A8AD738ABEAD4402F1AD1D9A58ACFD316FACCB2E82ACA2E39FAC827591AC50C46FAC26E065AC0542D1ABD4A034ABA9766EAB86EDF5AB56A834AB2A9484AB076BD8AAD6CED9AAAA332AAA86B932AA55132AAA2854F9AA04DABAA9D180D2A9A5067BA981DCF3A94C2FA3A9205DA6A8FBA741A8C5428BA89A78E2A871B1D7A83CE616A8137DC8A7E61898A7B34E96A78B978DA759227BA728B600A702F54BA6CB1BB0A69D59ABA673905EA63C52BFA611780AA5E0835FA5AD15B5A5854E79A54D23B8A51DAF93A4F22E89A4B9CBB4A48E6603A45A0FEFA426CD4BA3FEEF01A3C29FFFA394702CA36233EEA32C2F6EA302F06BA2C6F3B9A296FFA3A264FB97A22D739BA2034251A1C67741A195E52EA1623392A12A826CA1006751A0C133ADA091354AA05A0F67A02392439FF528179FB789AF9F8945BA9F4D23589F1920CD9EE462C99EAA261E9E7D46BD9E3C52F19E0BE44E9DCFA09B9D99EE01,
   0x404BDA874049D6AE4047D27B4045CDE94043C8EF4041C386403FBDA6403DB748403BB0614039A8EA4037A0D84035982240338EBD403184A0402F79BE402D6E0E402B618240295410402745AC40253648402325D940211452401F01A7401CEDCB401AD8B04018C24C4016AA9140149174401276E940105AE4400E3D5B400C1E454009FD964007DB484005B753400391B040016A5A3FFE82993FFA2D0C3FF5D40B3FF177973FED17B73FE8B4733FE44DD93FDFE3FC3FDB76F23FD706D93FD293D13FCE1E023FC9A5983FC52AC73FC0ADC73FBC2ED73FB7AE3F3FB32C4B3FAEA94E3FAA25A23FA5A1AB3FA11DCF3F9C9A7E3F9818303F9397613F8F18963F8A9C5A3F86233F3F81ADDD3F7A79A53F71A1863F68D4B03F6014803F57625F3F4EBFBA3F462E093F3DAECB3F3543833F2CEDBA3F24AEFA3F1C88D23F147CD03F0C8C823F04B9753EFA0A633EEAE2773EDBFE243ECD60583EBF0BEE3EB103AF3EA34A4A3E95E2573E88CE4E3E7821133E5F56853E47411A3E2FE4B03E1944D13E0364B53DDC8E723DB3DDC23D8CBBA53D4E57463D0661013C8330E700000000BC799E33BCF33DFEBD31A8BABD6688B6BD8C223EBDA3718EBDB93697BDCD765DBDE036A0BDF17DCBBE00A97BBE07DEEDBE0E6365BE143B52BE196B6BBE1DF8A2BE21E823BE253F50BE2803B7BE2A3B12BE2BEB3BBE2D1A2CBE2DCDF7BE2E0CC0BE2DDCB8BE2D4418BE2C4919BE2AF1F3BE2944D3BE2747DBBE250119BE227686BE1FADFEBE1CAD40BE1979E8BE16196BBE129114BE0EE605BE0B1D2FBE073B51BE0344FBBDFE7D08BDF65820BDEE2317BDE5E557BDDDA5D8BDD56B24BDCD3B52BDC51C0BBDBD1288BDB52396BDAD5395BDA5A67EBD9E1FE1BD96C2EDBD8F9270BD8890DABD81C045BD7644E7BD6971AEBD5D092BBD510D16BD457EA1BD3A5E7CBD2FACE1BD25699ABD1B940CBD122B40BD092DE5BD009A63BCF0DDB0BCE1524DBCD28DF3BCC48B9EBCB745F3BCAAB758BC9ED9F7BC93A7D0BC891ABEBC7E590FBC6BADC3BC5A26F6BC49B80CBC3A5477BC2BEFCABC1E7DC0BC11F24ABC064197BBF6C035BBE2852ABBCFBC34BBBE5028BBAE2C93BB9F3DBFBB9170B7BB84B34CBB71E82ABB5C44E4BB485D11BB361288BB2548A6BB15E447,
   0x4119800041190000411880004118000041178000411700004116800041160000411580004115000041148000411400004113800041130000411280004112000041118000411100004110800041100000410F8000410F0000410E8000410E0000410D8000410D0000410C8000410C0000410B8000410B0000410A8000410A0000410980004109000041088000410800004107800041070000410680004106000041058000410500004104800041040000410380004103000041028000410200004101800041010000410080004100000040FF000040FE000040FD000040FC000040FB000040FA000040F9000040F8000040F7000040F6000040F5000040F4000040F3000040F2000040F1000040F0000040EF000040EE000040ED000040EC000040EB000040EA000040E9000040E8000040E7000040E6000040E5000040E4000040E3000040E2000040E1000040E0000040DF000040DE000040DD000040DC000040DB000040DA000040D9000040D8000040D7000040D6000040D5000040D4000040D3000040D2000040D1000040D0000040CF000040CE000040CD000040CC000040CB000040CA000040C9000040C8000040C7000040C6000040C5000040C4000040C3000040C2000040C1000040C0000040BF000040BE000040BD000040BC000040BB000040BA000040B9000040B8000040B7000040B6000040B5000040B4000040B3000040B2000040B1000040B0000040AF000040AE000040AD000040AC000040AAFFFF40A9FFFF40A8FFFF40A7FFFF40A6FFFF40A5FFFF40A4FFFF40A3FFFE40A2FFFE40A1FFFE40A0FFFD409FFFFD409EFFFC409DFFFC409CFFFB409BFFFA409AFFFA4099FFF84098FFF74097FFF64096FFF44095FFF24094FFF04093FFEE4092FFEB4091FFE84090FFE4408FFFE0408EFFDB408DFFD6408CFFCF408BFFC8408AFFC04089FFB74088FFAD4087FFA14086FF934085FF844084FF734083FF604082FF4A4081FF314080FF15407FFDED407DFDA7407BFD584079FD004077FC9E4075FC2F4073FBB44071FB2B406FFA91406DF9E7406BF9294069F8564067F76B4065F6674063F5484061F409405FF2A9405DF124405BEF784059ED9F4057EB974055E95C4053E6E94051E438404FE146404DDE0D,
   0x41800000417F8000417F0000417E8000417E0000417D8000417D0000417C8000417C0000417B8000417B0000417A8000417A00004179800041790000417880004178000041778000417700004176800041760000417580004175000041748000417400004173800041730000417280004172000041718000417100004170800041700000416F8000416F0000416E8000416E0000416D8000416D0000416C8000416C0000416B8000416B0000416A8000416A00004169800041690000416880004168000041678000416700004166800041660000416580004165000041648000416400004163800041630000416280004162000041618000416100004160800041600000415F8000415F0000415E8000415E0000415D8000415D0000415C8000415C0000415B8000415B0000415A8000415A00004159800041590000415880004158000041578000415700004156800041560000415580004155000041548000415400004153800041530000415280004152000041518000415100004150800041500000414F8000414F0000414E8000414E0000414D8000414D0000414C8000414C0000414B8000414B0000414A8000414A00004149800041490000414880004148000041478000414700004146800041460000414580004145000041448000414400004143800041430000414280004142000041418000414100004140800041400000413F8000413F0000413E8000413E0000413D8000413D0000413C8000413C0000413B8000413B0000413A8000413A00004139800041390000413880004138000041378000413700004136800041360000413580004135000041348000413400004133800041330000413280004132000041318000413100004130800041300000412F8000412F0000412E8000412E0000412D8000412D0000412C8000412C0000412B8000412B0000412A8000412A00004129800041290000412880004128000041278000412700004126800041260000412580004125000041248000412400004123800041230000412280004122000041218000412100004120800041200000411F8000411F0000411E8000411E0000411D8000411D0000411C8000411C0000411B8000411B0000411A8000411A0000]

/-- Default points of curve 5 (silu), 205 to a number, the first lowest. -/
def defaultCurve5 : List Nat :=
  [0xBA26A896BA220E48BA1D9417BA193928BA14FCA4BA10DDBABA0CDB9FBA08F58DBA052AC2BA017A83B9FBC830B9F4CDA1B9EE03FDB9E769F2B9E0FE37B9DABF8DB9D4ACBCB9CEC495B9C905F0B9C36FAEB9BE00B7B9B8B7FBB9B39471B9AE9517B9A9B8F1B9A4FF0BB9A06676B99BEE4CB99795ABB9935BB7B98F3F9BB98B4086B9875DAFB9839650B97FD355B978AE06B971BB49B96AF9BCB9646807B95E04DDB957CEF7B951C519B94BE60EB94630ABB940A3CBB93B3E52B935FF2CB930E54DB92BEFADB9271D50B9226D3CB91DDE82B9197036B9152175B910F160B90CDF20B908E9E2B90510DAB9015341B8FB60ACB8F44EB9B8ED6F3AB8E6C0CCB8E04214B8D9F1C2B8D3CE8CB8CDD734B8C80A85B8C2674FB8BCEC6EB8B798C3B8B26B3AB8AD62C4B8A87E5AB8A3BCFCB89F1DB3B89A9F8BB896419BB89202FCB88DE2D2B889E042B885FA7CB88230B2B87D0439B875DBF6B86EE722B868244EB8619217B85B2F22B854FA1EB84EF1C4B84914D5B843621BB83DD86AB838769CB8333B95B82E2640B8293590B824687DB81FBE0BB81B3541B816CD2FB81284EBB80E5B90B80A5042B8066229B8029074B7FDB4B1B7F67E20B7EF7BB3B7E8ABF6B7E20D7DB7DB9EE6B7D55EDAB7CF4C0AB7C96532B7C3A916B7BE1682B7B8AC4DB7B36953B7AE4C7CB7A954B4B7A480F2B79FD031B79B4176B796D3CCB7928644B78E57F8B78A4806B7865593B7827FCBB77D8BBEB7764E0CB76F44FAB7686F0BB761CACFB75B56DFB75511DEB74EFA79B7490F67B7434F66B73DB941B7384BC8B73305D4B72DE649B728EC11B724161CB71F6366B71AD2EEB71663BCB71214E0B70DE570B709D487B705E148B7020ADDB6FCA0E7B6F56283B6EE5903B6E782E6B6E0DEB8B6DA6B0EB6D42687B6CE0FCFB6C82597B6C2669DB6BCD1A7B6B76582B6B22107B6AD0314B6A80A92B6A33671B69E85A7B699F734B6958A1DB6913D70B68D1040B68901A9B68510CBB6813CCEB67B09C0B673D067B66CCC05B665FB18B65F5C27B658EDC7B652AE96B64C9D3AB646B866B640FED5B63B6F4AB6360893B630C986B62BB100B626BDE9B621EF2FB61D43C8B618BAB2B61452F2B6100B94B60BE3ACB607DA53B603EEA9B6001FD6B5F8DA0EB5F1AADC,
   0xBDFD91B3BDF872A1BDF36616BDEE6C32BDE9850CBDE4B0B6BDDFEF3DBDDB40A8BDD6A4F9BDD21C2EBDCDA63EBDC94321BDC4F2C5BDC0B519BDBC8A07BDB87174BDB46B44BDB07759BDAC958FBDA8C5C4BDA507CFBDA15B89BD9DC0C6BD9A375BBD96BF19BD9357D1BD900152BD8CBB69BD8985E5BD866090BD834B36BD8045A0BD7A9F32BD74D1D3BD6F22B3BD699163BD641D74BD5EC672BD598BEFBD546D77BD4F6A9ABD4A82E6BD45B5EABD410334BD3C6A54BD37EAD9BD338454BD2F3655BD2B006EBD26E231BD22DB30BD1EEB01BD1B1136BD174D67BD139F2ABD100616BD0C81C5BD0911D0BD05B5D4BD026D6BBCFE7067BCF82B9ABCF20BADBCEC0FE4BCE63785BCE081D6BCDAEE22BCD57BB7BCD029E4BCCAF7FCBCC5E553BCC0F143BCBC1B25BCB76256BCB2C637BCAE4629BCA9E193BCA597DCBCA1686FBC9D52B8BC995628BC957231BC91A647BC8DF1E2BC8A547CBC86CD92BC835CA3BC80012FBC797576BC731199BC6CD5DABC66C14DBC60D30EBC5B0A3BBC5565F7BC4FE56CBC4A87C4BC454C31BC4031E8BC3B3822BC365E1BBC31A316BC2D0657BC288728BC2424D6BC1FDEB2BC1BB410BC17A449BC13AEB9BC0FD2BFBC0C0FBFBC08651EBC04D247BC0156A7BBFBE35BBBF5459EBBEED303BBE88A7FBBE26B0CBBDC73A8BBD6A358BBD0F929BBCB742ABBC61371BBC0D61BBBBBBB47BBB6C21BBBB1E9C3BBAD316EBBA89850BBA41DA4BB9FC0A6BB9B809BBB975CC7BB935478BB8F66FCBB8B93A8BB87D9D3BB8438D9BB80B01ABB7A7DF3BB73C9BEBB6D426BBB66E6D6BB60B5E5BB5AAE82BB54CF9EBB4F1833BB49873FBB441BC6BB3ED4D4BB39B17ABB34B0CFBB2FD1EFBB2B13FCBB26761FBB21F783BB1D975CBB1954E0BB152F4BBB1125DFBB0D37E2BB09649DBB05AB60BB020B7FBAFD089FBAF62A5FBAEF7AFBBAE8F93DBAE2A3F4BADC79F7BAD67A26BAD0A366BACAF4A6BAC56CD8BAC00AF9BABACE0ABAB5B514BAB0BF23BAABEB4EBAA738AFBAA2A666BA9E3398BA99DF73BA95A927BA918FEABA8D92F8BA89B192BA85EAFDBA823E83BA7D56E8BA766246BA6F9DD0BA69083FBA62A054BA5C64D9BA56549EBA506E7EBA4AB15ABA451C19BA3FADABBA3A6508BA35412CBA30411DBA2B63E5,
   0x4043E9E74041BFC9403F951C403D69E0403B3E18403911C64036E4EC4034B78F403289B040305B54402E2C7D402BFD324029CD7540279D4C40256CBC40233BCC40210A80401ED8E1401CA6F4401A74C14018425140160FAB4013DCD94011A9E5400F76D8400D43BD400B10A04008DD8C4006AA8F400477B44002450A4000129F3FFBC1053FF75D893FF2FAEC3FEE994E3FEA38D63FE5D9A83FE17BEB3FDD1FC83FD8C56A3FD46CFD3FD016AD3FCBC2AB3FC771263FC322523FBED6623FBA8D8B3FB648063FB2060B3FADC7D43FA98D9D3FA557A53FA126293F9CF96C3F98D1AE3F94AF333F9092403F8C7B1A3F886A0B3F845F583F805B4D3F78BC683F70D0AF3F68F4093F6127103F596A5F3F51BE923F4A24463F429C193F3B26A83F33C4903F2C76713F253CE53F1E18893F1709F93F1011CD3F09309D3F0266FE3EF76B063EEA397A3EDD3A713ED06EFE3EC3D82D3EB777023EAB4C773E9F597F3E939EFF3E881DD63E79ADA93E63957F3E4DF4A33E38CC6C3E241E193E0FEACD3DF8671C3DD1F28C3DAC79813D87FD563D48FE503D03FFAB3C81FFF500000000BC7C0015BCF800ABBD3701B0BD700553BD93867FBDAE0D74BDC798E4BDE02A67BDF7C3CFBE073394BE120B5DBE1C6A81BE265257BE2FC454BE38C201BE414D03BE496712BE5111FDBE584FA7BE5F2205BE658B1FBE6B8D0CBE7129F3BE766409BE7B3D8DBE7FB8CCBE81EC0EBE83CEEDBE858636BE87131FBE8876DFBE89B2B1BE8AC7CEBE8BB773BE8C82DBBE8D2B41BE8DB1DFBE8E17EDBE8E5EA2BE8E8731BE8E92CBBE8E829FBE8E57D6BE8E1396BE8DB701BE8D4335BE8CB949BE8C1A51BE8B675ABE8AA16DBE89C98BBE88E0B1BE87E7D5BE86DFE8BE85C9D3BE84A679BE8376B9BE823B67BE80F554BE7F4A95BE7C9819BE79D4ADBE7701BDBE7420A9BE7132C3BE6E3951BE6B358DBE6828A3BE6513B4BE61F7D6BE5ED613BE5BAF67BE5884C6BE555718BE522739BE4EF5FCBE4BC429BE48927EBE4561B1BE42326BBE3F054FBE3BDAF5BE38B3F0BE3590C5BE3271F6BE2F57FABE2C4343BE29343ABE262B41BE2328B3BE202CE7BE1D382BBE1A4AC8BE176501BE148714BE11B139BE0EE3A5BE0C1E84BE096202BE06AE44BE04036BBE016194,
   0x41197D524118FD3F41187D2B4117FD1641177D014116FCEC41167CD54115FCBE41157CA74114FC8E41147C754113FC5C41137C424112FC2641127C0B4111FBEE41117BD14110FBB241107B93410FFB74410F7B53410EFB31410E7B0E410DFAEB410D7AC6410CFAA1410C7A7A410BFA52410B7A2A410AFA00410A79D54109F9A84109797B4108F94C4108791C4107F8EB410778B84106F8844106784F4105F818410577DF4104F7A54104776A4103F72D410376EE4102F6AD4102766B4101F627410175E14100F5994100754F40FFEA0640FEE96A40FDE8CA40FCE82540FBE77D40FAE6CF40F9E61D40F8E56640F7E4AA40F6E3E940F5E32340F4E25840F3E18740F2E0B040F1DFD440F0DEF240EFDE0A40EEDD1B40EDDC2640ECDB2B40EBDA2940EAD92040E9D81040E8D6F940E7D5DA40E6D4B440E5D38640E4D24F40E3D11140E2CFCA40E1CE7B40E0CD2340DFCBC240DECA5740DDC8E340DCC76540DBC5DD40DAC44B40D9C2AF40D8C10740D7BF5540D6BD9740D5BBCD40D4B9F840D3B81740D2B62940D1B42E40D0B22640CFB01140CEADEE40CDABBC40CCA97D40CBA72E40CAA4D140C9A26440C89FE740C79D5A40C69ABC40C5980D40C4954D40C3927B40C28F9640C18C9F40C0899540BF867740BE834540BD7FFF40BC7CA340BB793240BA75AC40B9720E40B86E5A40B76A8E40B666AA40B562AD40B45E9840B35A6840B2561E40B151BA40B04D3A40AF489E40AE43E540AD3F0F40AC3A1B40AB350840AA2FD640A92A8440A8251240A71F7E40A619C840A513F040A40DF440A307D440A2019040A0FB25409FF494409EEDDC409DE6FC409CDFF4409BD8C2409AD1654099C9DE4098C22A4097BA4A4096B23C4095A9FF4094A193409398F74092902A4091872B40907DFA408F7494408E6AFA408D612B408C5725408B4CE8408A4273408937C540882CDD408721BB4086165C40850AC24083FEE94082F2D34081E67E4080D9E8407F9A25407D7FF5407B654140794A0740772E45407511FA4072F5244070D7C2406EB9D2406C9B54406A7C4540685CA640663C7440641BB04061FA57405FD86A405DB5E7405B92CE40596F1F40574AD8405525FB405300864050DA7A404EB3D8404C8C9E404A64CF40483C6B40461372,
   0x417FFFFE417F7FFE417EFFFE417E7FFE417DFFFE417D7FFE417CFFFE417C7FFE417BFFFE417B7FFE417AFFFD417A7FFD4179FFFD41797FFD4178FFFD41787FFD4177FFFD41777FFD4176FFFD41767FFD4175FFFD41757FFD4174FFFC41747FFC4173FFFC41737FFC4172FFFC41727FFC4171FFFC41717FFC4170FFFB41707FFB416FFFFB416F7FFB416EFFFB416E7FFB416DFFFB416D7FFA416CFFFA416C7FFA416BFFFA416B7FFA416AFFFA416A7FF94169FFF941697FF94168FFF941687FF94167FFF841677FF84166FFF841667FF84165FFF741657FF74164FFF741647FF74163FFF641637FF64162FFF641627FF54161FFF541617FF54160FFF441607FF4415FFFF4415F7FF3415EFFF3415E7FF3415DFFF2415D7FF2415CFFF1415C7FF1415BFFF1415B7FF0415AFFF0415A7FEF4159FFEF41597FEE4158FFEE41587FED4157FFED41577FEC4156FFEB41567FEB4155FFEA41557FEA4154FFE941547FE84153FFE841537FE74152FFE641527FE54151FFE541517FE44150FFE341507FE2414FFFE1414F7FE0414EFFDF414E7FDE414DFFDD414D7FDC414CFFDB414C7FDA414BFFD9414B7FD8414AFFD7414A7FD64149FFD441497FD34148FFD241487FD14147FFCF41477FCE4146FFCC41467FCB4145FFC941457FC84144FFC641447FC44143FFC341437FC14142FFBF41427FBD4141FFBB41417FB94140FFB741407FB5413FFFB3413F7FB0413EFFAE413E7FAC413DFFA9413D7FA7413CFFA4413C7FA2413BFF9F413B7F9C413AFF99413A7F964139FF9341397F904138FF8D41387F894137FF8641377F824136FF7F41367F7B4135FF7741357F734134FF6F41347F6B4133FF6741337F624132FF5E41327F594131FF5441317F4F4130FF4A41307F45412FFF3F412F7F3A412EFF34412E7F2E412DFF28412D7F22412CFF1C412C7F15412BFF0E412B7F07412AFF00412A7EF94129FEF141297EE94128FEE241287ED94127FED141277EC84126FEBF41267EB64125FEAD41257EA34124FE9941247E8F4123FE8441237E794122FE6E41227E624121FE5741217E4B4120FE3E41207E31411FFE24411F7E16411EFE08411E7DFA411DFDEB411D7DDC411CFDCD411C7DBD411BFDAC411B7D9B411AFD8A411A7D784119FD65]

/-- Default points of curve 6 (tanh), 205 to a number, the first lowest. -/
def defaultCurve6 : List Nat :=
  [0xBF800000BF800000BF800000BF800000BF800000BF800000BF800000BF800000BF800000BF800000BF800000BF800000BF800000BF800000BF800000BF800000BF800000BF800000BF800000BF800000BF800000BF800000BF800000BF800000BF800000BF800000BF800000BF800000BF800000BF800000BF800000BF800000BF800000BF800000BF800000BF800000BF800000BF800000BF800000BF800000BF800000BF800000BF800000BF800000BF800000BF800000BF800000BF800000BF800000BF800000BF800000BF800000BF800000BF800000BF800000BF800000BF800000BF800000BF800000BF800000BF800000BF800000BF800000BF800000BF800000BF800000BF800000BF800000BF800000BF800000BF800000BF800000BF800000BF800000BF800000BF800000BF800000BF800000BF800000BF800000BF800000BF800000BF800000BF800000BF800000BF800000BF800000BF800000BF800000BF800000BF800000BF800000BF800000BF800000BF800000BF800000BF800000BF800000BF800000BF800000BF800000BF800000BF800000BF800000BF800000BF800000BF800000BF800000BF800000BF800000BF800000BF800000BF800000BF800000BF800000BF800000BF800000BF800000BF800000BF800000BF800000BF800000BF800000BF800000BF800000BF800000BF800000BF800000BF800000BF800000BF800000BF800000BF800000BF800000BF800000BF800000BF800000BF800000BF800000BF800000BF800000BF800000BF800000BF800000BF800000BF800000BF800000BF800000BF800000BF800000BF800000BF800000BF800000BF800000BF800000BF800000BF800000BF800000BF800000BF800000BF800000BF800000BF800000BF800000BF800000BF800000BF800000BF800000BF800000BF800000BF800000BF800000BF800000BF800000BF800000BF800000BF800000BF800000BF800000BF800000BF800000BF800000BF800000BF800000BF800000BF800000BF800000BF800000BF800000BF800000BF800000BF800000BF800000BF800000BF800000BF800000BF800000BF800000BF800000BF800000BF800000BF800000BF800000BF800000BF800000,
   0xBF7F2E91BF7F3B3DBF7F4724BF7F5254BF7F5CD6BF7F66B6BF7F6FFDBF7F78B4BF7F80E5BF7F8896BF7F8FD1BF7F969BBF7F9CFDBF7FA2FBBF7FA89DBF7FADE8BF7FB2E0BF7FB78CBF7FBBEFBF7FC00EBF7FC3EEBF7FC791BF7FCAFCBF7FCE32BF7FD136BF7FD40CBF7FD6B5BF7FD935BF7FDB8FBF7FDDC4BF7FDFD7BF7FE1C9BF7FE39EBF7FE556BF7FE6F4BF7FE878BF7FE9E5BF7FEB3CBF7FEC7EBF7FEDACBF7FEEC9BF7FEFD4BF7FF0CEBF7FF1BABF7FF297BF7FF367BF7FF42BBF7FF4E2BF7FF58FBF7FF631BF7FF6C9BF7FF758BF7FF7DEBF7FF85CBF7FF8D3BF7FF942BF7FF9AABF7FFA0DBF7FFA69BF7FFAC0BF7FFB11BF7FFB5EBF7FFBA6BF7FFBE9BF7FFC28BF7FFC64BF7FFC9CBF7FFCD1BF7FFD02BF7FFD30BF7FFD5CBF7FFD85BF7FFDABBF7FFDD0BF7FFDF2BF7FFE11BF7FFE2FBF7FFE4CBF7FFE66BF7FFE7FBF7FFE96BF7FFEACBF7FFEC1BF7FFED4BF7FFEE6BF7FFEF7BF7FFF07BF7FFF16BF7FFF25BF7FFF32BF7FFF3EBF7FFF4ABF7FFF55BF7FFF5FBF7FFF69BF7FFF72BF7FFF7BBF7FFF83BF7FFF8BBF7FFF92BF7FFF98BF7FFF9FBF7FFFA5BF7FFFAABF7FFFAFBF7FFFB4BF7FFFB9BF7FFFBDBF7FFFC1BF7FFFC5BF7FFFC9BF7FFFCCBF7FFFCFBF7FFFD2BF7FFFD5BF7FFFD7BF7FFFDABF7FFFDCBF7FFFDEBF7FFFE0BF7FFFE2BF7FFFE4BF7FFFE6BF7FFFE7BF7FFFE9BF7FFFEABF7FFFECBF7FFFEDBF7FFFEEBF7FFFEFBF7FFFF0BF7FFFF1BF7FFFF2BF7FFFF3BF7FFFF4BF7FFFF4BF7FFFF5BF7FFFF6BF7FFFF6BF7FFFF7BF7FFFF7BF7FFFF8BF7FFFF8BF7FFFF9BF7FFFF9BF7FFFFABF7FFFFABF7FFFFBBF7FFFFBBF7FFFFBBF7FFFFBBF7FFFFCBF7FFFFCBF7FFFFCBF7FFFFCBF7FFFFDBF7FFFFDBF7FFFFDBF7FFFFDBF7FFFFDBF7FFFFEBF7FFFFEBF7FFFFEBF7FFFFEBF7FFFFEBF7FFFFEBF7FFFFEBF7FFFFEBF7FFFFFBF7FFFFFBF7FFFFFBF7FFFFFBF7FFFFFBF7FFFFFBF7FFFFFBF7FFFFFBF7FFFFFBF7FFFFFBF7FFFFFBF7FFFFFBF7FFFFFBF7FFFFFBF7FFFFFBF7FFFFFBF7FFFFFBF7FFFFFBF800000BF800000BF800000BF800000BF800000BF800000BF800000BF800000BF800000BF800000BF800000BF800000BF800000BF800000BF800000BF800000BF800000BF800000BF800000,
   0x3F7F21153F7F12BB3F7F03763F7EF3343F7EE1E83F7ECF803F7EBBE93F7EA7103F7E90E03F7E79453F7E60263F7E456C3F7E28FB3F7E0AB83F7DEA853F7DC8433F7DA3D03F7D7D0A3F7D53CA3F7D27E83F7CF9393F7CC7923F7C92C13F7C5A953F7C1ED63F7BDF4C3F7B9BBB3F7B53E23F7B077E3F7AB6453F7A5FEB3F7A04213F79A28F3F793ADC3F78CCA73F78578B3F77DB1E3F7756EE3F76CA833F7635603F7596FF3F74EED63F743C4F3F737ED13F72B5B83F71E0583F70FDFD3F700DEA3F6F0F5B3F6E017F3F6CE37D3F6BB4753F6A737A3F691F973F67B7CC3F663B103F64A8523F62FE743F613C533F5F60C03F5D6A853F5B58663F59291E3F56DB633F546DE63F51DF553F4F2E5B3F4C59A33F495FDA3F463FAE3F42F7D63F3F870D3F3BEC1C3F3825D93F3433283F3013053F2BC4803F2746C53F22991F3F1DBAFC3F18ABF03F136BB83F0DFA3F3F0857A43F0284383EF901093EEC9A9F3EDFD7353ED2B94F3EC543F13EB77A9F3EA961633E9AFCC53E8C51CD3E7ACBF53E5C7E823E3DC7FD3E1EB5E43DFEACC93DBF70813D7FAACD3CFFEAAD00000000BCFFEAADBD7FAACDBDBF7081BDFEACC9BE1EB5E4BE3DC7FDBE5C7E82BE7ACBF5BE8C51CDBE9AFCC5BEA96163BEB77A9FBEC543F1BED2B94FBEDFD735BEEC9A9FBEF90109BF028438BF0857A4BF0DFA3FBF136BB8BF18ABF0BF1DBAFCBF22991FBF2746C5BF2BC480BF301305BF343328BF3825D9BF3BEC1CBF3F870DBF42F7D6BF463FAEBF495FDABF4C59A3BF4F2E5BBF51DF55BF546DE6BF56DB63BF59291EBF5B5866BF5D6A85BF5F60C0BF613C53BF62FE74BF64A852BF663B10BF67B7CCBF691F97BF6A737ABF6BB475BF6CE37DBF6E017FBF6F0F5BBF700DEABF70FDFDBF71E058BF72B5B8BF737ED1BF743C4FBF74EED6BF7596FFBF763560BF76CA83BF7756EEBF77DB1EBF78578BBF78CCA7BF793ADCBF79A28FBF7A0421BF7A5FEBBF7AB645BF7B077EBF7B53E2BF7B9BBBBF7BDF4CBF7C1ED6BF7C5A95BF7C92C1BF7CC792BF7CF939BF7D27E8BF7D53CABF7D7D0ABF7DA3D0BF7DC843BF7DEA85BF7E0AB8BF7E28FBBF7E456CBF7E6026BF7E7945BF7E90E0BF7EA710BF7EBBE9BF7ECF80BF7EE1E8BF7EF334BF7F0376BF7F12BBBF7F2115,
   0x3F8000003F8000003F8000003F8000003F8000003F8000003F8000003F8000003F8000003F8000003F8000003F8000003F8000003F8000003F8000003F8000003F8000003F8000003F8000003F7FFFFF3F7FFFFF3F7FFFFF3F7FFFFF3F7FFFFF3F7FFFFF3F7FFFFF3F7FFFFF3F7FFFFF3F7FFFFF3F7FFFFF3F7FFFFF3F7FFFFF3F7FFFFF3F7FFFFF3F7FFFFF3F7FFFFF3F7FFFFF3F7FFFFE3F7FFFFE3F7FFFFE3F7FFFFE3F7FFFFE3F7FFFFE3F7FFFFE3F7FFFFE3F7FFFFD3F7FFFFD3F7FFFFD3F7FFFFD3F7FFFFD3F7FFFFC3F7FFFFC3F7FFFFC3F7FFFFC3F7FFFFB3F7FFFFB3F7FFFFB3F7FFFFB3F7FFFFA3F7FFFFA3F7FFFF93F7FFFF93F7FFFF83F7FFFF83F7FFFF73F7FFFF73F7FFFF63F7FFFF63F7FFFF53F7FFFF43F7FFFF43F7FFFF33F7FFFF23F7FFFF13F7FFFF03F7FFFEF3F7FFFEE3F7FFFED3F7FFFEC3F7FFFEA3F7FFFE93F7FFFE73F7FFFE63F7FFFE43F7FFFE23F7FFFE03F7FFFDE3F7FFFDC3F7FFFDA3F7FFFD73F7FFFD53F7FFFD23F7FFFCF3F7FFFCC3F7FFFC93F7FFFC53F7FFFC13F7FFFBD3F7FFFB93F7FFFB43F7FFFAF3F7FFFAA3F7FFFA53F7FFF9F3F7FFF983F7FFF923F7FFF8B3F7FFF833F7FFF7B3F7FFF723F7FFF693F7FFF5F3F7FFF553F7FFF4A3F7FFF3E3F7FFF323F7FFF253F7FFF163F7FFF073F7FFEF73F7FFEE63F7FFED43F7FFEC13F7FFEAC3F7FFE963F7FFE7F3F7FFE663F7FFE4C3F7FFE2F3F7FFE113F7FFDF23F7FFDD03F7FFDAB3F7FFD853F7FFD5C3F7FFD303F7FFD023F7FFCD13F7FFC9C3F7FFC643F7FFC283F7FFBE93F7FFBA63F7FFB5E3F7FFB113F7FFAC03F7FFA693F7FFA0D3F7FF9AA3F7FF9423F7FF8D33F7FF85C3F7FF7DE3F7FF7583F7FF6C93F7FF6313F7FF58F3F7FF4E23F7FF42B3F7FF3673F7FF2973F7FF1BA3F7FF0CE3F7FEFD43F7FEEC93F7FEDAC3F7FEC7E3F7FEB3C3F7FE9E53F7FE8783F7FE6F43F7FE5563F7FE39E3F7FE1C93F7FDFD73F7FDDC43F7FDB8F3F7FD9353F7FD6B53F7FD40C3F7FD1363F7FCE323F7FCAFC3F7FC7913F7FC3EE3F7FC00E3F7FBBEF3F7FB78C3F7FB2E03F7FADE83F7FA89D3F7FA2FB3F7F9CFD3F7F969B3F7F8FD13F7F88963F7F80E53F7F78B43F7F6FFD3F7F66B63F7F5CD63F7F52543F7F47243F7F3B3D3F7F2E91,
   0x3F8000003F8000003F8000003F8000003F8000003F8000003F8000003F8000003F8000003F8000003F8000003F8000003F8000003F8000003F8000003F8000003F8000003F8000003F8000003F8000003F8000003F8000003F8000003F8000003F8000003F8000003F8000003F8000003F8000003F8000003F8000003F8000003F8000003F8000003F8000003F8000003F8000003F8000003F8000003F8000003F8000003F8000003F8000003F8000003F8000003F8000003F8000003F8000003F8000003F8000003F8000003F8000003F8000003F8000003F8000003F8000003F8000003F8000003F8000003F8000003F8000003F8000003F8000003F8000003F8000003F8000003F8000003F8000003F8000003F8000003F8000003F8000003F8000003F8000003F8000003F8000003F8000003F8000003F8000003F8000003F8000003F8000003F8000003F8000003F8000003F8000003F8000003F8000003F8000003F8000003F8000003F8000003F8000003F8000003F8000003F8000003F8000003F8000003F8000003F8000003F8000003F8000003F8000003F8000003F8000003F8000003F8000003F8000003F8000003F8000003F8000003F8000003F8000003F8000003F8000003F8000003F8000003F8000003F8000003F8000003F8000003F8000003F8000003F8000003F8000003F8000003F8000003F8000003F8000003F8000003F8000003F8000003F8000003F8000003F8000003F8000003F8000003F8000003F8000003F8000003F8000003F8000003F8000003F8000003F8000003F8000003F8000003F8000003F8000003F8000003F8000003F8000003F8000003F8000003F8000003F8000003F8000003F8000003F8000003F8000003F8000003F8000003F8000003F8000003F8000003F8000003F8000003F8000003F8000003F8000003F8000003F8000003F8000003F8000003F8000003F8000003F8000003F8000003F8000003F8000003F8000003F8000003F8000003F8000003F8000003F8000003F8000003F8000003F8000003F8000003F8000003F8000003F8000003F8000003F8000003F8000003F8000003F8000003F8000003F8000003F8000003F8000003F8000003F8000003F800000]

/-- The default points of a curve (R92). -/
def defaultCurve (code : Nat) : List Nat :=
  match code with
  | 0 => defaultCurve0
  | 1 => defaultCurve1
  | 2 => defaultCurve2
  | 3 => defaultCurve3
  | 4 => defaultCurve4
  | 5 => defaultCurve5
  | _ => defaultCurve6

/-- The FP32 code of point `j` of a curve: the partition's table when its image ships one, else the default (R74, R92). -/
def curvePoint (tabs : List FormatTable) (code j : Nat) : Nat :=
  match tabs.find? (fun t => t.kind == 2 && t.id == code) with
  | some t => t.entries.getD j 0
  | none => (defaultCurve code).getD (j / 205) 0 / 2 ^ (32 * (j % 205)) % 2 ^ 32

/-- An FP32 code as a multiple of 2^-149 (points are finite, R91). -/
def fp32Int (raw : Nat) : Int :=
  match floatFmt 1 with
  | some f => (match floatNum f raw with | .fin s m e => signed s m * 2 ^ (e + 149).toNat | _ => 0)
  | none => 0

/-- L of R92 as a multiple of 2^-163: `base` is 0, or 1,025 for half B. -/
def curveL (tabs : List FormatTable) (code base f : Nat) : Int :=
  let a := fp32Int (curvePoint tabs code (base + f / 2 ^ 14))
  let b := fp32Int (curvePoint tabs code (base + f / 2 ^ 14 + 1))
  let t : Nat := f % 2 ^ 14
  a * 2 ^ 14 + (b - a) * (t : Int)

/-- A signed multiple of 2^k as a value to write. -/
def dyadic (v : Int) (k : Int) : OutVal :=
  let (n, d) := shiftRatio v.natAbs 1 k
  .num (v < 0) n d

/-- floor(m · 2^e · 2^24) with the sign, so that n and F of exp2 and the activations follow. -/
def floorFixed (neg : Bool) (m : Nat) (e : Int) (fracBits : Nat) : Int :=
  let k := e + fracBits
  if 0 ≤ k then signed neg m * 2 ^ k.toNat else signed neg m / 2 ^ (-k).toNat

/-- exp2 of a finite exact value: L and n (R92, R94). A |n| above 1,000 gives the results of 1,000 (DESIGN CHOICE, log entry 11). -/
def exp2Val (tabs : List FormatTable) (neg : Bool) (m : Nat) (e : Int) : OutVal :=
  if m = 0 then dyadic (curveL tabs 0 0 0) (-163) else
  if 1024 ≤ (Nat.log2 m : Int) + e then dyadic (curveL tabs 0 0 0) (if neg then -1163 else 837) else
  let v := floorFixed neg m e 24
  dyadic (curveL tabs 0 0 (v % 2 ^ 24).toNat) (max (-1000) (min (v / 2 ^ 24) 1000) - 163)

/-- The mantissa fraction F and exponent of m · 2^e with 1 ≤ mantissa < 2 (R92): exact for FP32 inputs. -/
def mantissa (m : Nat) (e : Int) : Nat × Int :=
  let k := Nat.log2 m
  ((if k ≤ 24 then m * 2 ^ (24 - k) else m / 2 ^ (k - 24)) - 2 ^ 24, e + k)

/-- An activation curve within −16 ≤ x < 16: `hi` and `lo` are its results outside (R92). -/
def activation (tabs : List FormatTable) (code : Nat) (hi lo : OutVal) (neg : Bool) (m : Nat) (e : Int) : OutVal :=
  let v := floorFixed neg m e 19 + 16 * 2 ^ 19
  if !neg && 5 ≤ (Nat.log2 m : Int) + e && m != 0 then hi
  else if neg && 5 ≤ (Nat.log2 m : Int) + e && m != 0 then lo
  else if 2 ^ 24 ≤ v then hi
  else if v < 0 then lo
  else dyadic (curveL tabs code 0 v.toNat) (-163)

/-- The result of a curve before rounding, special inputs first (R92). -/
def curve (tabs : List FormatTable) (code : Nat) (x : Num) : OutVal :=
  match code, x with
  | _, .nan => .nan
  | 0, .inf neg => if neg then .num false 0 1 else .inf false
  | 0, .fin s m e => exp2Val tabs s m e
  | 1, .inf neg => if neg then .nan else .inf false
  | 1, .fin s m e =>
    if m = 0 then .inf true else if s then .nan else
    let (f, k) := mantissa m e
    if f = 0 && k = 0 then .num false 0 1 else dyadic (k * 2 ^ 163 + curveL tabs 1 0 f) (-163)
  | 2, .inf neg => .num neg 0 1
  | 2, .fin s m e =>
    if m = 0 then .inf s else
    let (f, k) := mantissa m e
    dyadic (if s then -(curveL tabs 2 0 f) else curveL tabs 2 0 f) (-163 - k)
  | 3, .inf neg => if neg then .nan else .num false 0 1
  | 3, .fin s m e =>
    if m = 0 then .inf s else if s then .nan else
    let (f, k) := mantissa m e
    if k % 2 = 0 then dyadic (curveL tabs 3 0 f) (-163 - k / 2) else dyadic (curveL tabs 3 1025 f) (-163 - (k - 1) / 2)
  | 6, .inf neg => .num neg 1 1
  | 6, .fin s m e => activation tabs 6 (.num false 1 1) (.num true 1 1) s m e
  | c, .inf neg => if neg then .num false 0 1 else if c = 4 || c = 5 then .inf false else .nan
  | c, .fin s m e => activation tabs c (Num.value x) (.num false 0 1) s m e

/-- The special −0 that a curve writes (reciprocal of −∞): encoded apart, since an exact zero writes +0 (R84, R92). -/
def curveNegZero (code : Nat) (x : Num) : Bool :=
  match code, x with
  | 2, .inf neg => neg
  | _, _ => false

end Sys2Proof.Machine
end

