-- ==== Sys2Proof/Config.lean ====
section
/-! DEFINITION. What the manual leaves open. Every constant here is opaque: no proof can see a value of it. The functions
from a counter are applied to `State.fresh`, which the step advances, so that each use is a new value; those from a list are applied to what
the value may depend on. Log entry 2. -/

namespace Sys2Proof.Config

/-- The 256 random bits that the security core draws for a new key or private key (15 R430, R418; its source is random).
A wider key takes two draws (05 R146). -/
opaque randomKey : Nat → BitVec 256

/-- The 384 random bits of an ephemeral private key or signature nonce (15 R413, R418). -/
opaque randomScalar : Nat → BitVec 384

/-- Waiting beats counted while a command waits: their number may differ from run to run (01 R15). -/
opaque waitingBeats : Nat → BitVec 64

/-- How long a replay is held for a dump within a step, less 1 ns (01 R36). DESIGN CHOICE, log entry 18. -/
opaque dumpTime : Nat → Nat

/-- The NAL units, header and payload, that the encoder writes before a picture's slice: parameter sets and what else the standard allows
(09 R265). The manual fixes every encoder decision in the hardware and does not list them (R243). Arguments here and below: the engine's
input (source, references, global and previous vectors), the descriptor bytes, the frame number, IDR or not, the picture QP, the row QPs so
far and the vectors of the blocks so far; here the frame cropping on the right and below, in chroma samples, too (R242). DESIGN CHOICE, log
entry 67. DESIGN CHOICE, log entry 67. -/
opaque leadingUnits : Bytes → Nat → Bool → Nat × Nat → List Bytes

/-- The header of a slice's NAL unit, with the type that the encoder gives an IDR or a P picture, and the bits of its slice header. -/
opaque sliceUnit : Bytes → Nat → Bool → Bytes
opaque sliceHeader : Bytes → Nat → Bool → Nat → List Bool

/-- The bits coded for a 64 × 64 block (09 R262, R264). -/
opaque ctuCode : Bytes → Bytes → Nat → List Nat → List (Int × Int) → Nat → List Bool

/-- The samples of the reconstructed picture (09 R253). -/
opaque reconPicture : Bytes → Bytes → Nat → List Nat → List (Int × Int) → Bytes

/-- How the encoder codes a 16 × 16 luma block, from its winning vector and that vector's cost: 0 intra, 1 inter, 2 skipped (09 R260, R264).
Before them: input, descriptor, frame number, row QP and block number. -/
opaque blockMode : Bytes → Bytes → Nat → Nat → Nat → Int × Int → Nat → Nat

/-- Whether an encoded picture predicts from the picture in a pool entry (09 R268). -/
opaque refUsed : Bytes → Bytes → Nat → List Nat → Nat → Bool

/-- Luma SATD of a 64 × 64 block against its chosen prediction (09 R264). -/
opaque blockSatd : Bytes → Bytes → Nat → List Nat → Nat → Nat

/-- The complexity of a CTU in a picture (09 R262). -/
opaque ctuComplexity : Bytes → Bytes → Nat → List Nat → Nat → Nat

/-- What the syntax of ITU-T H.265 and H.264 gives for an access unit in its context: the descriptor bytes, the access units decoded before it
since the context opened, and its own bytes (09 R242, R243). The standards are outside the manual. DESIGN CHOICE, log entry 67. -/
opaque readUnit : Bytes → List Bytes → Bytes → Machine.UnitHeader

/-- The samples of the decoded picture as a frame buffer holds them, from the same and the pictures that it refers to, by their numbers in
the context (09 R252, R266). DESIGN CHOICE, log entry 67. -/
opaque decodePicture : Bytes → List Bytes → Bytes → List (Nat × Bytes) → Bytes

/-- Bins that the entropy decoder has decoded by the end of a CTU (09 R266). -/
opaque binsTo : Bytes → List Bytes → Bytes → Nat → Nat

/-- The first CTU that poisoned words affect: words of the payload, and words of reference pictures by picture number (09 R267). -/
opaque firstAffected : Bytes → List Bytes → Bytes → List Nat → List (Nat × Nat) → Nat

/-- The list-0 and list-1 vectors of the prediction unit that covers a luma sample (column, row) of an access unit, none of an intra or a
skipped one (09 R264). -/
opaque unitMotion : Bytes → List Bytes → Bytes → Nat → Nat → Option (Int × Int) × Option (Int × Int)

/-- Bits coded in each 64 × 64 block of an access unit (09 R264). -/
opaque decodeBits : Bytes → List Bytes → Bytes → Nat → Nat

/-- A core's power in mW from its work-beat rate (Mbeat/s), the die voltage (mV) and the core's fused beat rates at that voltage, at 60 °C
and 105 °C: the manual names the derivation and gives no formula (14 R399). -/
opaque corePower : Nat → Nat → Nat → Nat → Nat

/-- A core's fused beat rate in Mbeat/s at a die voltage in mV, at 60 °C (`false`) or 105 °C (`true`) (14 R376). -/
opaque curveRate : Nat → Nat → Bool → Nat

/-- The bytes of section `i` of a snapshot (13 R370): the manual names the sections of a checkpoint and gives no byte layout for
them (01 R32). DESIGN CHOICE, log entry 38. -/
opaque sectionBytes : Machine.Checkpoint → Nat → Bytes

/-- The checkpoint that the received sections of a snapshot spell. DESIGN CHOICE, log entry 38. -/
opaque sectionsRead : List (Nat × Bytes) → Option Machine.Checkpoint

/-- The bytes of an undefined part of a store region, a key schedule or a padding that the manual does not state.
The key lists what the byte may depend on: no count of uses and no time is in it, so that equal runs leave equal bytes (01 R24, R25).
DESIGN CHOICE, log entry 13. DESIGN CHOICE, log entry 2. -/
opaque freeByte : List Nat → Byte

/-- A free 32-bit value where the manual states no result (03 R89, R92): a function of the operation and the operand codes, as every
computed value is (01 R24, R25). DESIGN CHOICE, log entry 15. DESIGN CHOICE, log entry 2. -/
opaque freeWord : List Nat → BitVec 32

/-- Work beats of a vector-class command, by operation, operand format and element count: the manual's vector chapter is
not part of it (02 R41, 03 R89). -/
opaque vectorBeats : Nat → Nat → Nat → Nat

/-- Ballast: whether the lehr can hold a falling core at −3 °C/s (14 R405). DESIGN CHOICE, log entry 79. -/
opaque ballastHolds : Nat → Bool

/-- A reading in m°C where the manual's rule has no reading to take it from: every stack read-out invalid, or no other
non-suspect core on the die (14 R397, R399). DESIGN CHOICE, log entry 74. -/
opaque unknownReading : Nat → Int

/-- Which sensor of a pair is doubted when both lie equally far from the estimate (14 R398): the diode when true.
DESIGN CHOICE, log entry 74. -/
opaque tieDiode : Nat → Bool

/-- The bytes that a training identity signs: place, port, CABINET, serial and the partner's challenge, for which the manual gives no
byte layout (12, "Training and partners"). DESIGN CHOICE, log entry 83. -/
opaque identityMessage : Nat → Nat → Nat → Nat → Sys2Proof.Bytes → Sys2Proof.Bytes

/-- Logical cluster and offset of chunk `j` of the adapter body in slot `n`, for which the manual gives no place (15 R427).
DESIGN CHOICE, log entry 108. -/
opaque adapterPlace : Nat → Nat → Nat × Nat

/-- The code of the event that a store key has sealed 2^32 blocks (15 R422), to which 19 R476 gives none.
DESIGN CHOICE, log entry 82. -/
opaque sealLimitCode : Nat

/-- The code of the slow-partner event of 12 R341, to which 19 R476 gives none. DESIGN CHOICE, log entry 82. -/
opaque slowPartnerCode : Nat

end Sys2Proof.Config
end

