-- ==== Sys2Proof/Machine/State.lean ====
section
/-! DEFINITION. The state of the ZL7648 as plain data: every register, queue, counter, mode and pin that the manual gives
the module, the queue of waiting commands, and the state right after reset, which is the first entry into HOLD (00 R12).
INVENTORY.md lists each field with its rule and its reset value. -/

namespace Sys2Proof.Machine

/-! ## Memory (05) -/

/-- SRAM banks and HBM stacks, by global byte address (Machine/Ops.lean says which), with the poison marks of R156 by
64-byte word. Each list is strictly rising; an unlisted byte reads as 0. DESIGN CHOICE, log entry 9. A word with an uncorrectable error that
no read has met yet stands among the poisoned words and in `bankFlips` or `stackFlips`, one with a correctable error in `bankSingles` or
`stackSingles` (R155, R157; DESIGN CHOICE, log entry 130); `bankCounts` counts the correctable errors read in each bank (R159). -/
structure Mem where
  banks       : List Host.Cell
  hbm      : List Host.Cell
  bankPoison  : List Nat
  stackPoison : List Nat
  bankFlips   : List Nat
  stackFlips  : List Nat
  bankSingles : List Nat
  stackSingles : List Nat
  bankCounts  : List (Nat × Nat)
  deriving DecidableEq, Repr

/-- A bank owner register (05 R130). -/
structure BankOwner where
  owner     : Nat
  observer  : Nat
  unit      : Nat
  part      : Nat
  partValid : Bool
  deriving DecidableEq, Repr

/-- What a cluster's transfer engine and stack hold besides data (05 R147, R148, R154, R158; 14 R393; 16 R438). `key` is
the slot of generation g mod 2, `prev` the other slot. `sweep` is the page under sweep: it and the pages above it carry the
previous generation, those below it the current one, so that it holds the generation map; `halfDone` says that the first
half of the page under sweep is rewritten. -/
structure Cluster where
  clean       : Bool
  trained     : Bool
  selfRefresh : Bool
  key         : Option (BitVec 512)
  prev        : Option (BitVec 512)
  sweep       : Option Nat
  halfDone    : Bool
  clearing    : Bool
  fullClear   : Bool
  slot        : Nat
  scrubAt     : Nat
  scrubPass   : Nat
  corrected   : List Nat
  lastPass    : List Nat
  correctable : Nat
  beats       : BitVec 64
  waiting     : BitVec 64
  deriving DecidableEq, Repr

/-- Core states and fence causes (04 R117, R124; 11 R300). -/
inductive CoreState where
  | inService | fencePending | fenced | gloryHole | rejoinPending
  deriving DecidableEq, Repr

inductive FenceCause where
  | none | floorMiss | selfCheck | hardStop | order
  deriving DecidableEq, Repr

/-- A core (01 R15, R18; 04 R117; 14 R377, R397–R401, R405). Temperatures in m°C. `workSeen` is the work-beat counter at the last teaser
cycle and `workRate` the work beats of the cycle before it in Mbeat/s (14 R399). -/
structure Core where
  state         : CoreState
  cause         : FenceCause
  causeAt       : Ns
  work          : BitVec 64
  waiting       : BitVec 64
  rate          : BitVec 16
  workSeen      : BitVec 64
  workRate      : Nat
  subFloor      : Nat
  diode         : Int
  delay         : Int
  pair          : Int
  diodeDoubted  : Bool
  delayDoubted  : Bool
  suspect       : Bool
  estimateUsed  : Bool
  estimate      : Int
  disagree      : Nat
  hot           : Nat
  rampUp        : Bool
  rampDown      : Bool
  checkDue      : Bool
  deriving DecidableEq, Repr

/-! ## Partitions (02, 04, 07, 08) -/

/-- Partition states (02 R59). -/
inductive PState where
  | free | clearing | clear | loaded | armed | running
  deriving DecidableEq, Repr

/-- Why a partition is held at a boundary until an operator acts (01 R37, 02 R55, 04 R120, R123; 13 R370, R372).
DESIGN CHOICE, log entry 132. -/
inductive BoundaryHold where
  | tallyOverflow | noLayout | catchUpImpossible | divergence | gloryHole | dump | replayEnd
  deriving DecidableEq, Repr

/-- Causes to which held time is attributed (14 R389), in the order of decision kind 0x0D. -/
inductive HoldCause where
  | cap | supply | thermal | dump
  deriving DecidableEq, Repr

/-- An engine instance's place in its turn list (02 R44). -/
structure TurnRt where
  cls  : Nat
  inst : Nat
  pos  : Nat
  deriving DecidableEq, Repr

/-- A handover still to be taken (05 R131): logical cluster, bank number, new owner, unit. -/
structure Handover where
  cluster : Nat
  bank    : Nat
  owner   : Nat
  unit    : Nat
  deriving DecidableEq, Repr

/-- A command or walk record that has run its work beats and has not yet completed (02 R49, R50); one that waits for a
first hop's acknowledgement or for its frame to leave is `awaiting`, under the message number `ticket`; for a stream command `ticket` is the
instant of its frame's end. -/
structure InFlight where
  cls      : Nat
  inst     : Nat
  queue    : Nat
  index    : Nat
  stepEnd  : Bool
  handover : Option Handover
  signal   : Option (Nat × Nat)
  error    : Nat
  walk     : Bool
  awaiting : Bool
  ticket   : Nat
  deriving DecidableEq, Repr

/-- What an elastic channel carries (04 R100), in order, as bytes with the poison mark of their 64-byte words: first `front` bytes that
the command under way has read, then what the channel holds, then what its writer has still to write. -/
structure ChanRt where
  chan   : Nat
  bytes  : Bytes
  poison : List Bool
  front  : Nat := 0
  deriving DecidableEq, Repr

/-- A cancel of the pending set (08 R222, R230; 11 R304): by sequence number or client, its stamp and source, the SEQ of
its frame (0 for an order), the order it answers (port, SEQ of the message, eff) and whether it has entered the set. -/
structure CancelReq where
  byClient : Bool
  target   : Nat
  stamp    : Ns
  source   : Nat
  frameSeq : Nat
  answer   : Option (Nat × Nat × Nat)
  entered  : Bool
  stream   : Nat
  deriving DecidableEq, Repr

/-- Serving settings (08, SRV registers). -/
structure Serving where
  cancelMode  : Bool
  rebind      : Bool
  admitClosed : Bool
  quantum     : Nat
  riskPct     : Nat
  resumePct   : Nat
  targets     : Vector Nat 4
  deriving DecidableEq, Repr

/-- A dump point of REPLAY_SET (11 R300, 01 R36). -/
structure DumpPoint where
  kind    : Nat
  atTally : Bool
  cluster : Nat
  bank    : Nat
  tally   : Nat
  count   : Nat
  step    : Nat
  value   : Nat
  page    : Nat
  deriving DecidableEq, Repr

structure ReplaySet where
  first : Nat
  last  : Nat
  dumps : List DumpPoint
  deriving DecidableEq, Repr

/-- Held time of the current step and of the current 1 s window, per cause, in ns (14 R389, R390), and the level and
cause bits of the latest complete window. -/
structure HoldAcct where
  step     : Vector Nat 4
  window   : Vector Nat 4
  openedAt : Ns
  lastAt   : Ns
  level    : Nat
  bits     : Nat
  deriving DecidableEq, Repr

/-- Keys agreed with one peer of a job (12 R326–R331): key and salt per direction and the counters. `stage` counts the
agreement: 0 none, 1 hello sent, 2 reply sent, 3 live. -/
structure PeerKeys where
  keyid    : Nat
  live     : Bool
  txKey    : Bytes
  txSalt   : Bytes
  rxKey    : Bytes
  rxSalt   : Bytes
  txCount  : Nat
  rxHigh   : Nat
  old      : Option (Nat × Bytes × Bytes × Nat)
  oldUntil : Option Ns
  stage    : Nat
  priv     : BitVec 384
  hello    : Bytes
  reply    : Bytes
  attempts : Nat
  sentAt   : Ns
  failed   : Bool
  retryAt  : Option Ns
  fails    : List Ns
  deriving DecidableEq, Repr

/-- A member of a job (12 R325) with the keys shared with it. -/
structure Member where
  place  : Nat
  serial : Nat
  keys   : PeerKeys
  deriving DecidableEq, Repr

/-- The job table of a partition (12 R325, R352). -/
structure Job where
  mirror  : Bool
  job     : Nat
  total   : Nat
  own     : Nat
  members : List (Nat × Member)
  deriving DecidableEq, Repr

/-- A receive ring (12 R332): the slot that the next message takes, the complete messages, oldest first, as slot and length, and
the message arriving as its number and the bytes placed. -/
structure RingRt where
  ring    : Nat
  slot    : Nat
  full    : List (Nat × Nat)
  arriving : Option (Nat × Nat)
  deriving DecidableEq, Repr

/-- Send credits towards a peer's ring (12 R332). -/
structure CreditRt where
  peer   : Nat
  ring   : Nat
  credit : Nat
  deriving DecidableEq, Repr

/-- What a store request is for (12 R338). -/
inductive StoreUse where
  | read | write | intake | pull | exports
  deriving DecidableEq, Repr

/-- A store request outstanding (12 R338): its tag, use, owner partition (8 for the module), place, region, the bytes received so far and,
for a write, its data. -/
structure StoreReq where
  tag      : Nat
  use      : StoreUse
  part     : Nat
  queue    : Nat
  store    : Nat
  volume   : Nat
  offset   : Nat
  length   : Nat
  got      : Bytes
  data     : Bytes
  sentAt   : Ns
  attempts : Nat
  done     : Bool
  failed   : Bool
  deriving DecidableEq, Repr

/-- Roles of a partition (13, CLM_p_STATE). -/
inductive Role where
  | unpaired | holder | standby | gloryHole
  deriving DecidableEq, Repr

/-- Claim state of a partition (13). `beats` holds the step and time of the partner's last boundary heartbeats, newest first; `parts` the
decision parts by step, with the SEQ after their journal entries; `unmatched` the leader's entries whose frames have not landed, with
when they came; `wanted` that a re-entry is asked for (of a leader) or open; `beatAt` the boundary whose heartbeat has been sent. -/
structure Claim where
  role        : Role
  paired      : Bool
  group       : Nat
  partner     : Nat
  serial      : Nat
  detectSteps : Nat
  detectMin   : Nat
  pacePct     : Nat
  claim       : BitVec 32
  highest     : BitVec 32
  leader      : Bool
  lost        : Bool
  tries       : Nat
  backlog     : Nat
  raises      : Nat
  demotions   : Nat
  mismatches  : Nat
  reentries   : Nat
  beats       : List (Nat × Ns)
  lastBeat    : Option Ns
  lastSent    : Ns
  holderOcrc  : List (Nat × BitVec 32)
  parts       : List (Nat × Nat × List Decision)
  waitPart    : Option Ns
  unmatched   : List (JEntry × Ns)
  good        : Nat
  sentSeq     : Nat
  snapshot    : Option Nat
  sections    : List (Nat × Bytes)
  wanted      : Bool
  beatAt      : Option Nat
  deriving DecidableEq, Repr

/-- A live stream key generation (10 R278, R279; 15 R422). -/
structure StreamKey where
  stream : Nat
  gen    : Nat
  key    : Bytes
  salt   : Bytes
  high   : Nat
  deriving DecidableEq, Repr

/-- An outstanding ephemeral key of a main report (15 R418, R420): its nonce, private scalar, report and instant. -/
structure Ephemeral where
  nonce  : Bytes
  priv   : BitVec 384
  report : Bytes
  madeAt : Ns
  deriving DecidableEq, Repr

/-- An intake in progress (15 R426): `target` 1 weight chunks or 2 an adapter body, the next chunk and the end, for an adapter its body's
length, slot and the plaintext so far, and the region (store, volume, offset). -/
structure Intake where
  target  : Nat
  next    : Nat
  stop    : Nat
  length  : Nat
  ident   : Nat
  version : Nat
  slot    : Nat
  region  : Nat × Nat × Nat
  body    : Bytes
  deriving DecidableEq, Repr

/-- Keys and intake of a partition (15). -/
structure PKeys where
  memGen      : Nat
  model       : Option Bytes
  store       : Option (Nat × Bytes)
  storePrev   : Option (Nat × Bytes)
  storeSeals  : Nat
  streams     : List StreamKey
  highest     : List (Nat × Nat × Nat)
  ephemeral   : List Ephemeral
  applied     : List (Bytes × Nat × Nat × Nat)
  checked     : List Nat
  failedChunks : List Nat
  intake      : Option Intake
  result      : Nat
  deriving DecidableEq, Repr

/-- An EMIT waiting to send (10 R283–R285): stream, payload as sent, poisoned words, step, and when it became ready. -/
structure EmitReq where
  stream  : Nat
  payload : Bytes
  poison  : Nat
  step    : Nat
  queue   : Nat
  index   : Nat
  deriving DecidableEq, Repr

/-- A partition (02 "Partitions"; 01; 04; 07; 08; 12; 13; 15). `seeds` holds the seeds by generation (01 R27), `stopWanted`,
`rotateWanted`, `seedNext` and `settingsNext` the instants of acceptance (01 R21), `ckptPages` the pages that the checkpoint being taken
refers to, `unsettled` the changes of the fenced set that no layout covers yet (04 R119, R120), `exportAt` the next block of the export
region, `exportRest` what waits to be sealed for it, with its kind, and `exportPaid` the bytes of it that house turns have moved (12 R337),
and `spillLength` the LENGTH of the region. Of the house turn (05 R144), `houseTodo` holds the logical clusters whose
turn this step has still to come, `houseUsed` the bytes they have moved, `houseMoved` what of a journal entry's frame they have moved so far, by SEQ, `houseOwed` the bytes of records that wait, `houseSeen` how far
the journal and the events have been counted. `copyIn` and `partIn` hold the INGRESS_COPY and the SNAPSHOT message that arrives, as its
number and bytes. DESIGN CHOICE, log entry 128. -/
structure Part where
  state     : PState
  clusters  : List ClusterId
  firstQ    : Nat
  nQ        : Nat
  firstT    : Nat
  nT        : Nat
  image     : Option Image
  loadCode  : Nat
  loadDetail : Nat
  replay    : Bool
  paced     : Bool
  exporting : Bool
  step      : Nat
  kind      : Nat
  layout    : Nat
  epoch     : Nat
  boundary  : Ns
  released  : Bool
  releaseAt : Ns
  history   : List (Ns × Nat)
  stalled   : Bool
  tallySat  : Bool
  holdAt    : Option BoundaryHold
  hold      : HoldAcct
  seed      : BitVec 128
  seedGen   : Nat
  seedSet   : Bool
  seedNext  : List (Ns × BitVec 128)
  seeds     : List (Nat × BitVec 128)
  tallies   : List Nat
  bases     : List Nat
  queues    : List QueueRt
  turns     : List TurnRt
  inflight  : List InFlight
  chans     : List ChanRt
  journal   : List JEntry
  nextSeq   : Nat
  firstSeq  : Nat
  records   : List StepRecord
  supplied  : List StepRecord
  exported  : Nat
  exportLag : Bool
  stepWork  : Nat
  emitted   : List (Nat × Bytes)
  emits     : List EmitReq
  stopWanted   : Option Ns
  unloadWanted : Bool
  rotateWanted : Option Ns
  fwEntry   : Option Nat
  settingsNext : List (Ns × Serving)
  serving   : Serving
  seqs      : List Seq
  nextSeqNo : Nat
  cancels   : List CancelReq
  status    : List (Nat × BatchEntry)
  batch     : List (Nat × BatchEntry)
  admitted  : Nat
  rejected  : Nat
  cancelled : Nat
  period    : Nat
  lastMove  : Option Nat
  calm      : Nat
  pausedStack : List Nat
  entered   : Nat
  adapters  : List Adapter
  kv        : List KvCluster
  ckpt      : Option Checkpoint
  ckptNew   : Option Checkpoint
  ckptPages : List Nat
  ckptDrop  : List Nat
  restored  : Bool
  replaySet : Option ReplaySet
  catchUp   : Option Nat
  job       : Option Job
  rings     : List RingRt
  credits   : List CreditRt
  tables    : List FormatTable
  frames    : Nat
  decErrors : Nat
  encErrors : Nat
  claim     : Claim
  keys      : PKeys
  walkDone  : List (Nat × Nat)
  unsettled : List (Option CoreId)
  houseTodo : List Nat
  houseUsed : List (Nat × Nat)
  houseOwed : Nat
  houseSeen : Nat × Nat
  videoMoved : List (Nat × Nat)
  msgNext   : Nat
  sent      : List Nat
  places    : List (Nat × Nat)
  spill     : Nat × Nat × Nat
  exportAt  : Nat
  exportRest : List (Nat × Bytes)
  exportPaid : Nat
  spillLength : Nat
  houseMoved : List (Nat × Nat)
  copyIn    : Option (Nat × Bytes)
  partIn    : Option (Nat × Bytes)
  deriving DecidableEq, Repr

/-! ## Video engines (09) -/

/-- A video engine (09 R246–R255). `slotUsed` counts the work beats used in the slot in progress; `running` and `suspended` hold the
commands that outlast a slot: partition, queue, work beats left. -/
structure VidEngine where
  slot      : Nat
  slotUsed  : Nat
  owners    : Vector (Option PartId) 64
  ownersNext : Option (Vector (Option PartId) 64)
  ctxFirst  : Vector Nat 8
  ctxBlocks : Vector Nat 8
  poolFirst : Vector Nat 8
  poolBlocks : Vector Nat 8
  contexts  : List VidContext
  running   : Option (Nat × Nat × Nat)
  suspended : List (Nat × Nat × Nat)
  beats     : BitVec 64
  waiting   : BitVec 64
  deriving DecidableEq, Repr

/-! ## CSI-2 ports (10) -/

/-- A frame being landed (10 R275, R276); `tail` keeps the latest embedded line with
whether its CRC passed: it may be the ingress tag. -/
structure OpenFrame where
  buffer   : Option Nat
  frame    : Nat
  written  : Nat
  flags    : Nat
  lines    : Nat
  bad      : Nat
  received : Bytes
  tail     : Option (Bytes × Bool)
  started  : Bool
  drop     : Bool
  openedAt : Ns
  lastAt   : Ns
  timeout  : Nat
  deriving DecidableEq, Repr

/-- A stream binding (10 R270) with the port's runtime for the stream; `windowDue` is the reading of the time counter at which a quota
window opens without an edge (R277). -/
structure Binding where
  part     : PartId
  transmit : Bool
  stream   : Nat
  port     : PortId
  vc       : Nat
  lanes    : Nat
  sflags   : Nat
  laneMbps : Nat
  lineBytes : Nat
  maxBytes : Nat
  quota    : Nat
  minInterval : Nat
  boundAt  : Ns
  windowAt : Option Ns
  windowDue : Ns
  counted  : Nat
  opened   : Option OpenFrame
  deriving DecidableEq, Repr

/-- Copy bindings of a logical receive stream (12 R336): the peer place and stream id that copies go to, or come from. -/
structure RxStream where
  part   : PartId
  stream : Nat
  copyTo : Option (Nat × Nat)
  copyFrom : Option (Nat × Nat)
  deriving DecidableEq, Repr

/-- Transmit runtime of a stream: when its previous frame started (10 R285). -/
structure TxStream where
  part   : PartId
  stream : Nat
  lastStart : Option Ns
  deriving DecidableEq, Repr

/-- A receive port with its gather block, whose beats count as a core's (14 R388). -/
structure RxPort where
  sync      : Bool
  lost      : Bool
  frames    : BitVec 32
  noBuffer  : Nat
  overQuota : Nat
  hdrDiscard : Nat
  badLine   : Nat
  timeout   : Nat
  tagFail   : Nat
  hdrCorrected : Nat
  beats     : BitVec 64
  waiting   : BitVec 64
  deriving DecidableEq, Repr

/-- A transmit port with its emit block (14 R388); `endAt` is the frame end of the frame that it sends, or sent last. -/
structure TxPort where
  endAt   : Ns
  frames  : BitVec 32
  numbers : Vector Nat 32
  beats   : BitVec 64
  waiting : BitVec 64
  deriving DecidableEq, Repr

structure Csi where
  timeout  : Nat
  unbound  : Nat
  bindings : List Binding
  rx       : Vector RxPort 16
  tx       : Vector TxPort 16
  streams  : List RxStream
  txStreams : List TxStream
  stopped  : Bool
  deriving DecidableEq, Repr

/-! ## I3C ports, mailboxes and orders (11) -/

/-- Bus mode of a port (11 R287, R289). -/
inductive I3cMode where
  | sdr | hdrDdr | hdrBt | silent
  deriving DecidableEq, Repr

/-- A message as taken from a mailbox (11 R295). -/
structure Msg where
  typ    : Nat
  seq    : Nat
  issuer : Nat
  issued : Nat
  body   : Bytes
  deriving DecidableEq, Repr

/-- A message taken and not yet answered. `eff` is its effective stamp (11 R301). -/
structure Taken where
  port : I3cId
  bulk : Bool
  msg  : Msg
  eff  : Nat
  /-- A query's answer from the state at the instant it was taken (11 R300): its status and the bytes after it. -/
  seen : Option (Nat × Bytes) := none
  deriving DecidableEq, Repr

/-- Categories of conflict keys (11 R302). -/
inductive OrderKey where
  | cap
  | stopStart (p : Nat)
  | group (g : Nat)
  | other (typ : Nat) (field : Nat) (port : Nat)
  deriving DecidableEq, Repr

/-- An order window (11 R302): its key, W and the orders it holds in the order taken. -/
structure Window where
  key    : OrderKey
  w      : Nat
  orders : List Taken
  deriving DecidableEq, Repr

/-- A session of a port (11 R306, R307). -/
structure Session where
  live    : Bool
  number  : Nat
  iface   : Nat
  expiry  : Nat
  renewed : Ns
  clean   : Bool
  deriving DecidableEq, Repr

/-- The last message taken from a mailbox, with its response once it has one (11 R298). Repeats of a message that still waits for
its response stand in the port's `repeats`. -/
structure LastTaken where
  seq      : Nat
  content  : Bytes
  response : Option Bytes
  deriving DecidableEq, Repr

structure I3cPort where
  dynAddr    : Option Nat
  mode       : I3cMode
  protoErr   : Bool
  mwl        : Nat
  mrl        : Nat
  recoverAt  : Option Ns
  pointer    : Nat
  pointerAt  : Option Ns
  cmd        : Bytes
  bulk       : Bytes
  cmdFull    : Bool
  bulkFull   : Bool
  responses  : List Bytes
  rspAt      : Nat
  owed       : Nat
  log        : Option (Bool × Nat × Nat × Bytes)
  logAt      : Nat
  posted     : BitVec 16
  malformed  : Nat
  overrun    : Nat
  latches    : List (Nat × BitVec 32)
  lastCmd    : Option LastTaken
  lastBulk   : Option LastTaken
  repeats    : List (Bool × Bytes)
  session    : Session
  nextLo     : BitVec 32
  commit     : Option Nat
  talliesRead : List Ns
  copyOn     : Bool
  cursor     : Nat
  deriving DecidableEq, Repr

structure Orders where
  windows    : List Window
  due        : List Taken
  taken      : List Taken
  accepted   : BitVec 32
  superseded : BitVec 32
  refused    : BitVec 32
  lastEff    : Nat
  nextSession : Nat
  refusedFlag : Bool
  deriving DecidableEq, Repr

/-! ## Carloth (12) -/

/-- States of a Carloth port (12, LNK_n_STATUS). -/
inductive LinkState where
  | down | training | up | retraining | miswired | failed | disabled | testing
  deriving DecidableEq, Repr

/-- Owner of a calendar turn (12 R320). -/
inductive TurnOwner where
  | house | part (p : PartId) | relay
  deriving DecidableEq, Repr

/-- A far end as its identity reported it (12 R344): `store` when it is a store tray, `claimsStore` when it reported STORE (16 R444). -/
structure FarEnd where
  place   : Nat
  port    : Nat
  cabinet : Nat
  serial  : Nat
  store   : Bool
  auth    : Bool
  agrees  : Bool
  claimsStore : Bool := store
  deriving DecidableEq, Repr

/-- An envelope sent and not yet acknowledged (12 R318), with the owner of the turn that sent it. -/
structure SentEnv where
  lseq   : Nat
  credit : Nat × Nat × Nat
  frame  : Option Frame
  owner  : TurnOwner := .house
  deriving DecidableEq, Repr

/-- A Carloth port (12 R313–R344). `resend` counts the last envelopes of `unacked` that go again; `nakSent` that a NAK is out for the
envelope expected; `relay` holds each frame with when and on which port it came in; `waitSince` since when a frame of each class waits without
credit; `trainStep` is 0 sending patterns, 1 after signal detect, 2 after lock, from `trainAt` on; `testFrom` the state to which
a test returns; `dropped` the frames discarded in the second that began at `discardAt`; `nakTimes` when NAKs came in the last 1 ms (R341). -/
structure Link where
  state     : LinkState
  stalled   : Bool
  retrains  : List Ns
  owners    : Vector TurnOwner 64
  turn      : Nat
  txSeq     : Nat
  rxNext    : Nat
  unacked   : List SentEnv
  resend    : Nat
  credits   : Vector Nat 3
  owedCredit : Vector Nat 3
  nakDue    : Bool
  nakSent   : Bool
  house     : List Frame
  jobs      : List (PartId × Frame)
  relay     : List (Ns × PortId × Frame)
  challenge : Bytes
  far       : Option FarEnd
  naks      : Nat
  fecUncorr : Nat
  discards  : Nat
  gcmFail   : Nat
  ber       : Nat
  berSeconds : Nat
  testFrom  : LinkState
  testUntil : Option Ns
  testSeconds : Nat
  testHours : Nat
  testAt    : Option Ns
  lastFrame : Option Ns
  waitSince : Vector (Option Ns) 3
  trainAt   : Ns
  trainStep : Nat
  discardAt : Option Ns
  dropped   : Nat
  nakTimes  : List Ns
  deriving DecidableEq, Repr

/-- A route byte (12 R323). -/
structure Route where
  port  : Nat
  loc   : Bool
  valid : Bool
  store : Bool
  anyIn : Bool
  deriving DecidableEq, Repr

/-- The link plan in force (12 R323, R352); none before the first. -/
structure Plan where
  inForce : Bool
  version : Nat
  cabinet : Nat
  expected : Vector (Nat × Nat × Bool) 16
  routes  : List (Nat × Route)
  deriving DecidableEq, Repr

/-- Claim lanes (13 R356, R374). -/
structure Lanes where
  rxSync   : Bool
  testing  : Bool
  discards : Nat
  ber      : Nat
  berSeconds : Nat
  far      : Option (Nat × Bool)
  idleOnly : Bool
  deriving DecidableEq, Repr

/-! ## Time (12 R345–R351) -/

inductive TimeState where
  | acquiring | locked | holdover
  deriving DecidableEq, Repr

/-- `base` is what the time counter reads above `now`, the time since power came; `slew` the backward offset still to be
taken out and `slewAt` when its slewing began. -/
structure TimeRt where
  state     : TimeState
  unsure    : Bool
  base      : Int
  slew      : Nat
  slewAt    : Ns
  ref       : Bool
  heldSince : Option Ns
  trim      : Int
  lastEdge  : Option Ns
  lastValue : Option Nat
  disagree  : Nat
  offset    : Int
  far       : BitVec 32
  annBad    : Nat
  missed    : Nat
  losses    : Nat
  deriving DecidableEq, Repr

/-! ## Power and heat (14) -/

/-- Module states (14 R379). -/
inductive ModState where
  | off | boot | hold | ready | run | drain | quench
  deriving DecidableEq, Repr

/-- Supply levels (14 R391). -/
inductive SupplyLevel where
  | normal | warning | hold
  deriving DecidableEq, Repr

/-- A die (14 R377, R384, R404): voltage and the entry of R377 that governs it, the cap ceiling, the voltage that a floor demand last
required, and when the lehr last raised and lowered the voltage and the ceiling last rose. -/
structure Die where
  mv       : Nat
  gov      : Nat
  ceiling  : Nat
  demand   : Option Nat
  lastRise : Option Ns
  lastFall : Option Ns
  ceilRise : Option Ns
  deriving DecidableEq, Repr

/-- Power (14). `p100` and `p1s` are in mW and `currentUnits` in units of 10 mA. The cap in force falls from `rampFrom` (mW, and since when) to
`target` over `rampNs` (R383). `quenchAt` is when a quench cause was last present (R381), `above45` since when the supply has been
above 45.0 V (R394), and `prsnt` whether PRSNT_N reads low (17 R456). -/
structure Power where
  state      : ModState
  quenchFrom : ModState
  quenchCause : Nat
  quenchAt   : Ns
  regFault   : Bool
  prsntLost  : Bool
  latch      : Bool
  drained    : Bool
  supplyMv   : Nat
  level      : SupplyLevel
  supplyHeld : Bool
  above45    : Option Ns
  currentUnits : Nat
  p100       : Nat
  p1s        : Nat
  target     : Nat
  rampFrom   : Nat × Ns
  rampNs     : Nat
  shed       : Bool
  shedAt     : Ns
  gate       : Nat
  thermGate  : Nat
  dies       : Vector Die 2
  sheds      : Nat
  supplyHolds : Nat
  descents   : Nat
  quenches   : Nat
  cycleAt    : Ns
  prsnt      : Bool
  deriving DecidableEq, Repr

/-- Thermal state (14 R397–R408). `descent` holds the sensor kind, index and the instant from which the end condition has
been met. -/
structure Thermal where
  descent   : Option (Nat × Nat × Option Ns)
  throttle  : Bool
  hbm       : Vector Int 8
  hbmBad    : Vector Bool 8
  reg       : Vector Int 8
  regBad    : Vector Bool 8
  inlet     : Int
  outlet    : Int
  inletBad  : Bool
  outletBad : Bool
  ballast   : Bool
  calm      : Bool
  flow      : Nat
  cv        : Nat
  flowMin   : Nat
  flowLow   : Bool
  inletOut  : Bool
  flowBadSince  : Option Ns
  flowOkSince   : Option Ns
  inletBadSince : Option Ns
  inletOkSince  : Option Ns
  capped    : Vector Bool 8
  history   : List (Vector Int 64 × Vector Int 8 × Vector Int 8)
  supplied  : Nat
  deriving DecidableEq, Repr

/-! ## Security, firmware, events (15, 16, 19) -/

/-- Fuses, straps and what the boot ROM holds (11 R312, 15 R411–R416, 16 R440). -/
structure Fuses where
  codeSB      : Bool
  serial      : Nat
  reprov      : Nat
  lifecycle   : Nat
  testClosed  : Bool
  debugClosed : Bool
  tampered    : Bool
  secver      : Nat
  romDigest   : BitVec 384
  rootKey     : Bytes
  identityKey : BitVec 384
  cert        : Bytes
  tray        : Nat
  slot        : Nat
  deriving DecidableEq, Repr

structure Security where
  moduleKey : Option (BitVec 512)
  identity  : Bool
  extTamper : Bool
  wipes     : Nat
  lastCause : Nat
  reports   : Nat
  releases  : Nat
  rejects   : Nat
  returning : Option (Nat × Ns)
  deriving DecidableEq, Repr

/-- A firmware image (16 R439): its header fields as accepted, whether a pull brought it (FW_START.PULLED), and its bytes as they lie in
the module area of stack 0 (05 R140; 16 R437, R445), by offset. -/
structure FwHeader where
  version : Nat
  iface   : Nat
  secver  : Nat
  major   : Nat
  minor   : Nat
  digest  : BitVec 384
  pulled  : Bool := false
  cells   : List Host.Cell := []
  deriving DecidableEq, Repr

/-- A load in progress (16 R442–R444): the staging area and the ranges covered, `size` 0 while a pull's header is to come; for a pull the
locator (store, volume, offset, length), the order still to be answered and the next offset to request. -/
structure FwLoad where
  port    : I3cId
  pull    : Bool
  size    : Nat
  cells   : List Host.Cell
  covered : List (Nat × Nat)
  lastAt  : Ns
  linkPort : Nat
  locator : Nat × Nat × Nat × Nat
  cabinet : Nat
  asked   : Option Taken
  ahead   : Nat
  deriving DecidableEq, Repr

structure Firmware where
  running   : FwHeader
  staged    : Option FwHeader
  load      : Option FwLoad
  loadState : Nat
  loadPort  : Nat
  result    : Nat
  startStep : Nat
  startFail : Nat
  startMs   : Nat
  hbm    : Nat
  ports     : Nat
  locked    : Bool
  pulled    : Bool
  crcFail   : Nat
  activations : Nat
  deferrals : Nat
  deferred  : Option (I3cId × Nat)
  startIn   : Option StartIn
  step5At   : Ns
  powerAt   : Ns
  windowEnd : Option Ns
  deriving DecidableEq, Repr

/-- An event record (19 R473). -/
structure Event where
  time   : Ns
  source : Nat
  code   : Nat
  part   : Nat
  eflags : Nat
  data   : Bytes
  deriving DecidableEq, Repr

/-- The event mirror port (10 R272, 19 R480). -/
structure Mirror where
  port     : PortId
  vc       : Nat
  lanes    : Nat
  laneMbps : Nat
  lineBytes : Nat
  maxBytes : Nat
  minInterval : Nat
  cursor   : Nat
  lastStart : Option Ns
  deriving DecidableEq, Repr

/-- The event ring (19 R474): `written` records made since start, the held ones newest first. -/
structure Events where
  openRing : Bool
  records  : List Event
  written  : Nat
  copied   : Nat
  takenUpTo : List (Nat × Nat)
  overwritten : Nat
  mirror   : Option Mirror
  mirrorFrames : Nat
  deriving DecidableEq, Repr

/-- What the block drives outward, oldest first: the model's own field (DESIGN CHOICE, log entry 3). -/
inductive Output where
  | i3cData (x : I3cId) (bytes : Bytes)
  | i3cAck (x : I3cId)
  | i3cNack (x : I3cId)
  | csiFrame (port : PortId) (vc : Nat) (number : Nat) (start : Ns) (header : Bytes) (dt : Nat) (lines : List Bytes)
  | csiCut (port : PortId)
  | heartbeat (h : Heartbeat)
  | envelope (port : PortId) (e : Envelope)
  | trainingIdentity (port : PortId) (place portNo cabinet serial : Nat) (challenge sig : Bytes)
  | trainingPattern (port : PortId)
  deriving DecidableEq, Repr

/-! ## The whole state -/

/-- The block's state. `pending` is the queue of waiting commands, first in, first out; `now` the time since power came, in
ns (with `time.base` it makes the time counter of R345); `fresh` counts the free values used, and `out` what the block has driven outward (the model's own fields). -/
structure State where
  pending  : List Instr
  now      : Ns
  fresh    : Nat
  out      : List Output
  mem      : Mem
  owners   : Vector BankOwner 288
  clusters : Vector Cluster 8
  cores    : Vector Core 64
  parts    : Vector Part 8
  video    : Vector VidEngine 2
  csi      : Csi
  i3c      : Vector I3cPort 2
  orders   : Orders
  links    : Vector Link 16
  inbox    : List (PortId × Frame)
  plan     : Plan
  requests : List StoreReq
  nextTag  : Nat
  lanes    : Lanes
  time     : TimeRt
  power    : Power
  thermal  : Thermal
  fuses    : Fuses
  security : Security
  fw       : Firmware
  events   : Events
  deriving DecidableEq, Repr

/-- Faults of the block. -/
inductive Fault where
  /-- Raised by the memory operations (Machine/Ops.lean) for an access past the end of a bank or stack, which the manual
  says does not exist (05 R127, R140). Safe: the model stops where the loader's checks let no command go. -/
  | noSuchAddress (address : Nat)
  deriving DecidableEq, Repr

/-- Refusals of the block. -/
inductive Refusal where
  /-- Raised by `exec` alone, for a command that has no meaning yet. Safe: the model stops. -/
  | notModelled (mnemonic : String)
  deriving DecidableEq, Repr

/-! ## The state right after reset

Reset is the first entry into HOLD (00 R12). Each value is the "After start" value of its register; where the manual gives
none, or says "as found", "as trained" or "as fused", the value is the model's and log entries 4 to 8 (DESIGN CHOICE) name it. -/

/-- Serving settings after start and at arming (08, SRV_p_MODE, SRV_p_TARGETc). -/
def Serving.init : Serving :=
  { cancelMode := false, rebind := false, admitClosed := false, quantum := 8, riskPct := 90, resumePct := 75,
    targets := Vector.replicate 4 0 }

def PeerKeys.init : PeerKeys :=
  { keyid := 0, live := false, txKey := [], txSalt := [], rxKey := [], rxSalt := [], txCount := 1, rxHigh := 0, old := none,
    oldUntil := none, stage := 0, priv := 0, hello := [], reply := [], attempts := 0, sentAt := 0, failed := false,
    retryAt := none, fails := [] }

def Claim.init : Claim :=
  { role := .unpaired, paired := false, group := 0, partner := 0, serial := 0, detectSteps := 0, detectMin := 0,
    pacePct := 0, claim := 0, highest := 0, leader := false, lost := false, tries := 0, backlog := 0, raises := 0,
    demotions := 0, mismatches := 0, reentries := 0, beats := [], lastBeat := none, lastSent := 0, holderOcrc := [],
    parts := [], waitPart := none, unmatched := [], good := 0, sentSeq := 0, snapshot := none, sections := [], wanted := false, beatAt := none }

def PKeys.init : PKeys :=
  { memGen := 0, model := none, store := none, storePrev := none, storeSeals := 0, streams := [], highest := [],
    ephemeral := [], applied := [], checked := [], failedChunks := [], intake := none, result := 0 }

def HoldAcct.init : HoldAcct :=
  { step := Vector.replicate 4 0, window := Vector.replicate 4 0, openedAt := 0, lastAt := 0, level := 0, bits := 0 }

/-- A partition that is FREE (02 R59): no cluster, no block, no image. DEDUCED, log entry 121. -/
def Part.init : Part :=
  { state := .free, clusters := [], firstQ := 0, nQ := 0, firstT := 0, nT := 0, image := none, loadCode := 0,
    loadDetail := 0, replay := false, paced := false, exporting := false, step := 0, kind := 0, layout := 0, epoch := 0,
    boundary := 0, released := false, releaseAt := 0, history := [], stalled := false, tallySat := false, holdAt := none,
    hold := HoldAcct.init, seed := 0, seedGen := 0, seedSet := false, seedNext := [], seeds := [], tallies := [], bases := [],
    queues := [], turns := [], inflight := [], chans := [], journal := [], nextSeq := 0, firstSeq := 0, records := [],
    supplied := [], exported := 0, exportLag := false, stepWork := 0, emitted := [], emits := [], stopWanted := none,
    unloadWanted := false, rotateWanted := none, fwEntry := none, settingsNext := [], serving := Serving.init,
    seqs := [], nextSeqNo := 1, cancels := [], status := [], batch := [], admitted := 0, rejected := 0, cancelled := 0,
    period := 0, lastMove := none, calm := 0, pausedStack := [], entered := 0, adapters := [], kv := [], ckpt := none,
    ckptNew := none, ckptPages := [], ckptDrop := [], restored := false, replaySet := none, catchUp := none, job := none, rings := [], credits := [],
    tables := [], frames := 0, decErrors := 0, encErrors := 0, claim := Claim.init, keys := PKeys.init, walkDone := [],
    unsettled := [], houseTodo := [], houseUsed := [], houseOwed := 0, houseSeen := (0, 0),
    videoMoved := [], msgNext := 0, sent := [], places := [], spill := (0, 0, 0), exportAt := 0, exportRest := [], exportPaid := 0,
    spillLength := 0, houseMoved := [],
    copyIn := none, partIn := none }

/-- A bank owner register after start (05 R130). -/
def BankOwner.init : BankOwner := { owner := 5, observer := 1, unit := 0, part := 0, partValid := false }

/-- DESIGN CHOICE, log entry 5. -/
def Cluster.init : Cluster :=
  { clean := false, trained := true, selfRefresh := false, key := none, prev := none, sweep := none,
    halfDone := false, clearing := false, fullClear := false, slot := 0, scrubAt := 0, scrubPass := 0, corrected := [],
    lastPass := [], correctable := 0, beats := 0, waiting := 0 }

/-- A core after start: every core in service is DESIGN CHOICE, log entry 5; the temperatures read 0 °C until the first teaser
cycle reads them, DESIGN CHOICE, log entry 6. -/
def Core.init : Core :=
  { state := .inService, cause := .none, causeAt := 0, work := 0, waiting := 0, rate := 0,
    workSeen := 0, workRate := 0, subFloor := 0, diode := 0, delay := 0, pair := 0, diodeDoubted := false, delayDoubted := false,
    suspect := false, estimateUsed := false, estimate := 0, disagree := 0, hot := 0, rampUp := false,
    rampDown := false, checkDue := false }

/-- DEDUCED, log entry 121. -/
def VidEngine.init : VidEngine :=
  { slot := 0, slotUsed := 0, owners := Vector.replicate 64 none, ownersNext := none, ctxFirst := Vector.replicate 8 0,
    ctxBlocks := Vector.replicate 8 0, poolFirst := Vector.replicate 8 0, poolBlocks := Vector.replicate 8 0,
    contexts := [], running := none, suspended := [], beats := 0, waiting := 0 }

def RxPort.init : RxPort :=
  { sync := false, lost := false, frames := 0, noBuffer := 0, overQuota := 0, hdrDiscard := 0, badLine := 0, timeout := 0, tagFail := 0,
    hdrCorrected := 0, beats := 0, waiting := 0 }

def TxPort.init : TxPort := { endAt := 0, frames := 0, numbers := Vector.replicate 32 1, beats := 0, waiting := 0 }

def Csi.init : Csi :=
  { timeout := 50000, unbound := 0, bindings := [], rx := Vector.replicate 16 RxPort.init,
    tx := Vector.replicate 16 TxPort.init, streams := [], txStreams := [], stopped := false }

def Session.init : Session :=
  { live := false, number := 0, iface := 0, expiry := 0, renewed := 0, clean := false }

def I3cPort.init : I3cPort :=
  { dynAddr := none, mode := .sdr, protoErr := false, mwl := 4098, mrl := 4096, recoverAt := none, pointer := 0,
    pointerAt := none, cmd := [], bulk := [], cmdFull := false, bulkFull := false, responses := [], rspAt := 0, owed := 0,
    log := none, logAt := 0, posted := 0, malformed := 0, overrun := 0, latches := [], lastCmd := none, lastBulk := none, repeats := [],
    session := Session.init, nextLo := 0, commit := none, talliesRead := [], copyOn := true, cursor := 0 }

def Orders.init : Orders :=
  { windows := [], due := [], taken := [], accepted := 0, superseded := 0, refused := 0, lastEff := 0, nextSession := 1,
    refusedFlag := false }

/-- A Carloth port after start: it keeps training, with the turn owners and credits of 12 R319 and R320.
DESIGN CHOICE, log entry 5. -/
def Link.init : Link :=
  { state := .training, stalled := false, retrains := [],
    owners := Vector.ofFn (fun i : Fin 64 => if i.val < 4 then .house else .relay),
    turn := 0, txSeq := 0, rxNext := 0, unacked := [], resend := 0, credits := Vector.replicate 3 0,
    owedCredit := Vector.replicate 3 0, nakDue := false, nakSent := false, house := [], jobs := [], relay := [], challenge := [], far := none,
    naks := 0, fecUncorr := 0, discards := 0, gcmFail := 0, ber := 0, berSeconds := 0, testFrom := .training, testUntil := none, testSeconds := 0,
    testHours := 0, testAt := none, lastFrame := none, waitSince := Vector.replicate 3 none, trainAt := 0, trainStep := 0, discardAt := none,
    dropped := 0, nakTimes := [] }

def Plan.init : Plan :=
  { inForce := false, version := 0, cabinet := 0, expected := Vector.replicate 16 (0, 0, false), routes := [] }

def Lanes.init : Lanes :=
  { rxSync := false, testing := false, discards := 0, ber := 0, berSeconds := 0, far := none, idleOnly := false }

def TimeRt.init : TimeRt :=
  { state := .acquiring, unsure := true, base := 0, slew := 0, slewAt := 0, ref := true, heldSince := none, trim := 0, lastEdge := none,
    lastValue := none, disagree := 0, offset := 0, far := 0, annBad := 0, missed := 0, losses := 0 }

/-- DESIGN CHOICE, log entry 7. -/
def Die.init : Die := { mv := 600, gov := 0, ceiling := 850, demand := none, lastRise := none, lastFall := none, ceilRise := none }

/-- DESIGN CHOICE, log entry 7. -/
def Power.init : Power :=
  { state := .hold, quenchFrom := .hold, quenchCause := 0, quenchAt := 0, regFault := false, prsntLost := false,
    latch := false, drained := false, supplyMv := 54000, level := .normal, supplyHeld := false, above45 := none,
    currentUnits := 0, p100 := 0, p1s := 0, target := 1000, rampFrom := (1000000, 0),
    rampNs := 0, shed := false, shedAt := 0, gate := 0, thermGate := 0, dies := Vector.replicate 2 Die.init, sheds := 0,
    supplyHolds := 0, descents := 0, quenches := 0, cycleAt := 0, prsnt := true }

/-- DESIGN CHOICE, log entry 6. -/
def Thermal.init : Thermal :=
  { descent := none, throttle := false, hbm := Vector.replicate 8 0, hbmBad := Vector.replicate 8 false,
    reg := Vector.replicate 8 0, regBad := Vector.replicate 8 false, inlet := 0, outlet := 0,
    inletBad := false, outletBad := false, ballast := false, calm := true, flow := 0, cv := 1700, flowMin := 360,
    flowLow := false, inletOut := false, flowBadSince := none, flowOkSince := none, inletBadSince := none,
    inletOkSince := none, capped := Vector.replicate 8 false, history := [], supplied := 0 }

/-- The fuses, straps and certificates of the part: every value is the model's choice (DESIGN CHOICE, log entry 4). -/
def Fuses.init : Fuses :=
  { codeSB := false, serial := 0, reprov := 0, lifecycle := 2, testClosed := true, debugClosed := true, tampered := false,
    secver := 0, romDigest := 0, rootKey := [], identityKey := 1, cert := [], tray := 0, slot := 0 }

/-- DESIGN CHOICE, log entry 8. -/
def Security.init : Security :=
  { moduleKey := some 0, identity := true, extTamper := false, wipes := 0, lastCause := 0, reports := 0, releases := 0, rejects := 0,
    returning := none }

/-- DESIGN CHOICE, log entry 8. -/
def FwHeader.init : FwHeader :=
  { version := 0, iface := 0, secver := 0, major := 0, minor := 0, digest := 0 }

/-- DESIGN CHOICE, log entry 8. -/
def Firmware.init : Firmware :=
  { running := FwHeader.init, staged := none, load := none, loadState := 0, loadPort := 0,
    result := 0, startStep := 9, startFail := 0, startMs := 0, hbm := 255, ports := 0, locked := false,
    pulled := false, crcFail := 0, activations := 0, deferrals := 0, deferred := none, startIn := none, step5At := 0,
    powerAt := 0, windowEnd := none }

def Events.init : Events :=
  { openRing := true, records := [], written := 0, copied := 0, takenUpTo := [], overwritten := 0, mirror := none,
    mirrorFrames := 0 }

def Mem.init : Mem :=
  { banks := [], hbm := [], bankPoison := [], stackPoison := [], bankFlips := [], stackFlips := [], bankSingles := [], stackSingles := [],
    bankCounts := [] }

/-- The block at its first entry into HOLD, with an empty queue. DESIGN CHOICE, log entry 4.
DESIGN CHOICE, log entry 117. DEDUCED, log entry 121. -/
def State.reset : State :=
  { pending := [], now := 0, fresh := 0, out := [], mem := Mem.init, owners := Vector.replicate 288 BankOwner.init,
    clusters := Vector.replicate 8 Cluster.init, cores := Vector.replicate 64 Core.init,
    parts := Vector.replicate 8 Part.init, video := Vector.replicate 2 VidEngine.init, csi := Csi.init,
    i3c := Vector.replicate 2 I3cPort.init, orders := Orders.init, links := Vector.replicate 16 Link.init, inbox := [],
    plan := Plan.init, requests := [], nextTag := 0, lanes := Lanes.init, time := TimeRt.init, power := Power.init,
    thermal := Thermal.init, fuses := Fuses.init, security := Security.init, fw := Firmware.init, events := Events.init }

end Sys2Proof.Machine
end

