-- ==== Sys2Proof/Machine/Ops.lean ====
section
/-! DEFINITION. The named operations over the state: memory, units, events, outputs, free values. Bank `b` of cluster `k`
(0–35, R129) is physical bank `36 k + b`; its byte `off` has bank address `(36 k + b) · 2^21 + off`. Byte `off` of stack `k`
has stack address `k · 2^36 + off`. -/

namespace Sys2Proof.Machine

/-- What a meaning answers. -/
abbrev Result := Host.Outcome State Fault Refusal

/-! ## Byte memory -/

/-- The byte at an address; an unlisted address reads as 0 (DESIGN CHOICE, log entry 9). -/
def cellRead : List Host.Cell → Nat → Byte
  | [], _ => 0
  | (k, v) :: cs, a => if k = a then v else if a < k then 0 else cellRead cs a

/-- Write one byte, keeping the canonical form. DESIGN CHOICE, log entry 9. -/
def cellWrite : List Host.Cell → Nat → Byte → List Host.Cell
  | [], a, b => if b = 0 then [] else [(a, b)]
  | (k, v) :: cs, a, b =>
    if k = a then (if b = 0 then cs else (a, b) :: cs)
    else if a < k then (if b = 0 then (k, v) :: cs else (a, b) :: (k, v) :: cs)
    else (k, v) :: cellWrite cs a b

/-- The `n` bytes at an address. -/
def cellsRead (cs : List Host.Cell) (a n : Nat) : Bytes := (List.range n).map (fun i => cellRead cs (a + i))

/-- Write bytes at an address, the first at the lowest. -/
def cellsWrite : List Host.Cell → Nat → Bytes → List Host.Cell
  | cs, _, [] => cs
  | cs, a, b :: bs => cellsWrite (cellWrite cs a b) (a + 1) bs

/-- Zero the `n` bytes at an address. -/
def cellsZero (cs : List Host.Cell) (a n : Nat) : List Host.Cell :=
  cs.filter (fun c => !(a ≤ c.1 && c.1 < a + n))

/-- The listed bytes of `n` bytes at an address. -/
def cellsIn (cs : List Host.Cell) (a n : Nat) : List Host.Cell :=
  cs.filter (fun c => a ≤ c.1 && c.1 < a + n)

/-- Canonical form: addresses strictly rising and no byte equal to what an unlisted address reads as. -/
def cellsWf : List Host.Cell → Bool
  | [] => true
  | [c] => c.2 != 0
  | c :: d :: cs => c.2 != 0 && c.1 < d.1 && cellsWf (d :: cs)

/-! ## Poison marks (05 R156), one per 64-byte word -/

/-- Mark word `w`. -/
def markSet : List Nat → Nat → List Nat
  | [], w => [w]
  | v :: vs, w => if v = w then v :: vs else if w < v then w :: v :: vs else v :: markSet vs w

/-- Unmark the words `w` to `w + n - 1`. -/
def markClear (vs : List Nat) (w n : Nat) : List Nat := vs.filter (fun v => !(w ≤ v && v < w + n))

/-- Whether any of the words `w` to `w + n - 1` is marked. -/
def markAny (vs : List Nat) (w n : Nat) : Bool := vs.any (fun v => w ≤ v && v < w + n)

/-- Strictly rising. -/
def marksWf : List Nat → Bool
  | [] => true
  | [_] => true
  | a :: b :: vs => a < b && marksWf (b :: vs)

/-- The canonical form of the whole memory. -/
def memWf (m : Mem) : Bool :=
  cellsWf m.banks && cellsWf m.hbm && marksWf m.bankPoison && marksWf m.stackPoison && marksWf m.bankFlips && marksWf m.stackFlips &&
  marksWf m.bankSingles && marksWf m.stackSingles

/-- First and count of the 64-byte words that the `n` bytes at `a` touch. -/
def wordsOf (a n : Nat) : Nat × Nat := (a / 64, if n = 0 then 0 else (a + n - 1) / 64 + 1 - a / 64)

/-- Bytes of a bank, and of a stack (05 R127, R140). -/
def bankSize : Nat := 2 ^ 21
def stackSize : Nat := 2 ^ 36

/-- Bytes of a partition's space in a stack (05 R140). -/
def partSpace : Nat := 0xFF0000000

/-- Bank address of byte `off` of physical bank `b`. -/
def bankAddr (b off : Nat) : Nat := b * bankSize + off

/-- Stack address of byte `off` of stack `k`. -/
def stackAddr (k off : Nat) : Nat := k * stackSize + off

/-- Bytes of a bank. -/
def bankRead (s : State) (a n : Nat) : Bytes := cellsRead s.mem.banks a n

/-- Whether the bytes touch a poisoned word of the banks. -/
def bankPoisoned (s : State) (a n : Nat) : Bool := markAny s.mem.bankPoison (wordsOf a n).1 (wordsOf a n).2

/-- Clear the marks of the words that `n` bytes of the banks touch, bit errors that no read has met among them. -/
def bankClean (m : Mem) (a n : Nat) : Mem :=
  { m with
    bankPoison := markClear m.bankPoison (wordsOf a n).1 (wordsOf a n).2
    bankFlips := markClear m.bankFlips (wordsOf a n).1 (wordsOf a n).2
    bankSingles := markClear m.bankSingles (wordsOf a n).1 (wordsOf a n).2 }

/-- The same in the stacks. -/
def stackClean (m : Mem) (a n : Nat) : Mem :=
  { m with
    stackPoison := markClear m.stackPoison (wordsOf a n).1 (wordsOf a n).2
    stackFlips := markClear m.stackFlips (wordsOf a n).1 (wordsOf a n).2
    stackSingles := markClear m.stackSingles (wordsOf a n).1 (wordsOf a n).2 }

/-- Write bytes in a bank: a word that is written loses its mark (R156), also when less than the word is written (DESIGN CHOICE, log
entry 130). -/
def bankWrite (s : State) (a : Nat) (bs : Bytes) : State :=
  { s with mem := { bankClean s.mem a bs.length with banks := cellsWrite s.mem.banks a bs } }

/-- Mark one word of the banks poisoned. -/
def bankMark (s : State) (w : Nat) : State :=
  { s with mem := { s.mem with bankPoison := markSet s.mem.bankPoison w } }

/-- Zero a range of the banks, its marks included. -/
def bankZero (s : State) (a n : Nat) : State :=
  { s with mem := { bankClean s.mem a n with banks := cellsZero s.mem.banks a n } }

/-- Bytes of a stack. -/
def stackRead (s : State) (a n : Nat) : Bytes := cellsRead s.mem.hbm a n

/-- Whether the bytes touch a poisoned unit of the stacks. -/
def stackPoisoned (s : State) (a n : Nat) : Bool := markAny s.mem.stackPoison (wordsOf a n).1 (wordsOf a n).2

/-- Write bytes in a stack. -/
def stackWrite (s : State) (a : Nat) (bs : Bytes) : State :=
  { s with mem := { stackClean s.mem a bs.length with hbm := cellsWrite s.mem.hbm a bs } }

/-- Mark one unit of the stacks poisoned. -/
def stackMark (s : State) (w : Nat) : State :=
  { s with mem := { s.mem with stackPoison := markSet s.mem.stackPoison w } }

/-- Zero a range of the stacks, its marks included. -/
def stackZero (s : State) (a n : Nat) : State :=
  { s with mem := { stackClean s.mem a n with hbm := cellsZero s.mem.hbm a n } }

/-- The marks of `n` words from word `w`, in order. -/
def marksRead (vs : List Nat) (w n : Nat) : List Bool := (List.range n).map (fun i => vs.contains (w + i))

/-- Set the marks of the words from word `w` as listed. -/
def marksWrite : List Nat → Nat → List Bool → List Nat
  | vs, _, [] => vs
  | vs, w, b :: bs => marksWrite (if b then markSet vs w else vs) (w + 1) bs

/-! ## Units -/

def State.part (s : State) (p : PartId) : Part := s.parts.get p
def State.setPart (s : State) (p : PartId) (x : Part) : State := { s with parts := s.parts.set p.val x p.isLt }
def State.modPart (s : State) (p : PartId) (f : Part → Part) : State := s.setPart p (f (s.part p))

def State.core (s : State) (c : CoreId) : Core := s.cores.get c
def State.setCore (s : State) (c : CoreId) (x : Core) : State := { s with cores := s.cores.set c.val x c.isLt }
def State.modCore (s : State) (c : CoreId) (f : Core → Core) : State := s.setCore c (f (s.core c))

def State.cluster (s : State) (k : ClusterId) : Cluster := s.clusters.get k
def State.setCluster (s : State) (k : ClusterId) (x : Cluster) : State :=
  { s with clusters := s.clusters.set k.val x k.isLt }
def State.modCluster (s : State) (k : ClusterId) (f : Cluster → Cluster) : State := s.setCluster k (f (s.cluster k))

def State.port (s : State) (x : I3cId) : I3cPort := s.i3c.get x
def State.setPort (s : State) (x : I3cId) (q : I3cPort) : State := { s with i3c := s.i3c.set x.val q x.isLt }
def State.modPort (s : State) (x : I3cId) (f : I3cPort → I3cPort) : State := s.setPort x (f (s.port x))

def State.link (s : State) (n : PortId) : Link := s.links.get n
def State.setLink (s : State) (n : PortId) (l : Link) : State := { s with links := s.links.set n.val l n.isLt }
def State.modLink (s : State) (n : PortId) (f : Link → Link) : State := s.setLink n (f (s.link n))

def State.engine (s : State) (d : DieId) : VidEngine := s.video.get d
def State.setEngine (s : State) (d : DieId) (v : VidEngine) : State := { s with video := s.video.set d.val v d.isLt }
def State.modEngine (s : State) (d : DieId) (f : VidEngine → VidEngine) : State := s.setEngine d (f (s.engine d))

def State.modRx (s : State) (n : PortId) (f : RxPort → RxPort) : State :=
  { s with csi := { s.csi with rx := s.csi.rx.set n.val (f (s.csi.rx.get n)) n.isLt } }
def State.modTx (s : State) (n : PortId) (f : TxPort → TxPort) : State :=
  { s with csi := { s.csi with tx := s.csi.tx.set n.val (f (s.csi.tx.get n)) n.isLt } }

def State.modPower (s : State) (f : Power → Power) : State := { s with power := f s.power }
def State.modThermal (s : State) (f : Thermal → Thermal) : State := { s with thermal := f s.thermal }
def State.modTime (s : State) (f : TimeRt → TimeRt) : State := { s with time := f s.time }
def State.modOrders (s : State) (f : Orders → Orders) : State := { s with orders := f s.orders }
def State.modSecurity (s : State) (f : Security → Security) : State := { s with security := f s.security }
def State.modFw (s : State) (f : Firmware → Firmware) : State := { s with fw := f s.fw }
def State.modEvents (s : State) (f : Events → Events) : State := { s with events := f s.events }
def State.modCsi (s : State) (f : Csi → Csi) : State := { s with csi := f s.csi }
def State.modLanes (s : State) (f : Lanes → Lanes) : State := { s with lanes := f s.lanes }
def State.modClaim (s : State) (p : PartId) (f : Claim → Claim) : State :=
  s.modPart p (fun x => { x with claim := f x.claim })
def State.modKeys (s : State) (p : PartId) (f : PKeys → PKeys) : State :=
  s.modPart p (fun x => { x with keys := f x.keys })

/-- Apply `f` for each partition in index order. -/
def forParts (f : PartId → State → State) (s : State) : State := (List.finRange 8).foldl (fun t p => f p t) s

/-- Apply `f` for each core in index order. -/
def forCores (f : CoreId → State → State) (s : State) : State := (List.finRange 64).foldl (fun t c => f c t) s

/-- Apply `f` for each cluster in index order. -/
def forClusters (f : ClusterId → State → State) (s : State) : State := (List.finRange 8).foldl (fun t k => f k t) s

/-- Apply `f` for each Carloth or CSI-2 port in index order. -/
def forPorts (f : PortId → State → State) (s : State) : State := (List.finRange 16).foldl (fun t n => f n t) s

/-- Apply `f` for both I3C ports. -/
def forI3c (f : I3cId → State → State) (s : State) : State := f 1 (f 0 s)

/-- The cluster of a core (R4). -/
def clusterOf (c : CoreId) : ClusterId := ⟨c.val / 8, by omega⟩

/-- The die of a cluster (R4). -/
def dieOf (k : ClusterId) : DieId := ⟨k.val / 4, by omega⟩

/-- The partition that holds a cluster. -/
def partOfCluster (s : State) (k : ClusterId) : Option PartId :=
  (List.finRange 8).find? (fun p => (s.part p).clusters.contains k)

/-! ## Free values, outputs, time -/

/-- A use of the free-value counter: its value before and the state with the next one. DESIGN CHOICE, log entry 2. -/
def State.draw (s : State) : Nat × State := (s.fresh, { s with fresh := s.fresh + 1 })

/-- Drive something outward. DESIGN CHOICE, log entry 3. -/
def State.emit (s : State) (o : Output) : State := { s with out := s.out ++ [o] }

/-- Let the module's time reach `t`: a row whose occasion is a deadline acts at it (DESIGN CHOICE, log entry 10). -/
def State.reach (s : State) (t : Ns) : State := { s with now := max s.now t }

/-- The time counter (12 R345): while a backward offset slews out it advances 999 ns per 1,000 ns (R349). -/
def State.stamp (s : State) : Ns :=
  ((s.now : Int) + s.time.base - (min s.time.slew ((s.now - s.time.slewAt) / 1000) : Nat)).toNat

/-- Let the time counter read `t`, with the time that a slew takes. DESIGN CHOICE, log entry 10. -/
def State.reachStamp (s : State) (t : Ns) : State :=
  let d : Int := (t : Int) - s.time.base - s.time.slewAt
  { s with now := if t ≤ s.stamp then s.now else max s.now ((s.time.slewAt : Int) + min (d + (d - 1) / 999) (d + s.time.slew)).toNat }

/-- Durations. -/
def us (n : Nat) : Ns := n * 1000
def ms (n : Nat) : Ns := n * 1000000
def sec (n : Nat) : Ns := n * 1000000000

/-- The cap in force, in mW (14 R383). DESIGN CHOICE, log entry 81. -/
def capMw (s : State) : Nat :=
  let w := s.power
  if w.rampFrom.2 + w.rampNs ≤ s.now then 1000 * w.target
  else w.rampFrom.1 - (w.rampFrom.1 - 1000 * w.target) * (s.now - w.rampFrom.2) / w.rampNs

/-- The cap in force, in W (PWR_CAP.IN_FORCE). DESIGN CHOICE, log entry 81. -/
def capNow (s : State) : Nat := capMw s / 1000

/-! ## Sources and events (01 R38, 19 R473–R479) -/

/-- The module's place number (16 R455). -/
def State.place (s : State) : Nat := s.fuses.tray * 32 + s.fuses.slot

/-- A source number from a local number (R38). -/
def State.source (s : State) (unitNo : Nat) : Nat := s.place * 65536 + unitNo

/-- Codes with partition scope (19 R476). -/
def scopeP (code : Nat) : Bool :=
  [0x0102, 0x0103, 0x0104, 0x0106, 0x0201, 0x0202, 0x0203, 0x0204, 0x0205, 0x0206, 0x0207, 0x0208, 0x0209, 0x0210, 0x0211,
   0x0212, 0x0213, 0x0214, 0x0215, 0x0301, 0x0305, 0x0503, 0x0704, 0x0705].contains code

/-- Urgent codes (19 R476). -/
def urgent (code : Nat) : Bool := [0x0404, 0x040A, 0x040B, 0x0501].contains code

/-- The 32 bytes of an event record (19 R473). -/
def eventBytes (e : Event) : Bytes :=
  leBytes 8 e.time ++ leBytes 4 e.source ++ leBytes 2 e.code ++ leBytes 1 e.part ++ leBytes 1 e.eflags ++ padTo 16 e.data

/-- Records held by the ring, at most. DESIGN CHOICE, log entry 51. -/
def ringSize : Nat := 65536

/-- Number of records from index `a` to `b - 1` that a list of taken ranges holds not. -/
def untaken (ranges : List (Nat × Nat)) (a b : Nat) : Nat :=
  ranges.foldl (fun n r => n - (min b r.2 - max a r.1)) (b - a)

/-- Add a range of record indices to a list of disjoint ranges in rising order. -/
def rangeAdd : List (Nat × Nat) → Nat → Nat → List (Nat × Nat)
  | [], a, b => if a < b then [(a, b)] else []
  | (c, d) :: rs, a, b =>
    if b < c then (if a < b then (a, b) :: (c, d) :: rs else (c, d) :: rs)
    else if d < a then (c, d) :: rangeAdd rs a b
    else rangeAdd rs (min a c) (max b d)

/-- A log message of port source `issuer` (11 R295, 19 R477): TYPE 0x60, the body's length with MORE in bit 15, and the
body with FIRST, COUNT and the records. -/
def logMessage (issuer now : Nat) (more : Bool) (first : Nat) (records : List Event) : Bytes :=
  let body := leBytes 8 first ++ leBytes 2 records.length ++ zeros 6 ++ records.flatMap eventBytes
  leBytes 1 0x60 ++ leBytes 1 0 ++ leBytes 2 (body.length + 32768 * bit more) ++ leBytes 4 issuer ++ leBytes 8 now ++ body

/-- Make an event record (R473, R474), place it in the ring, and, when it is urgent, in both log mailboxes (R478).
DESIGN CHOICE, log entry 51. -/
def State.event (s : State) (unitNo code part : Nat) (data : Bytes) : State :=
  let u := urgent code
  let e : Event :=
    { time := s.stamp, source := s.source unitNo, code := code, part := part,
      eflags := bit s.time.unsure + 2 * bit (scopeP code) + 4 * bit u + 8 * bit (!s.events.openRing), data := padTo 16 data }
  if !s.events.openRing && 256 ≤ s.events.records.length then s else
  let n := s.events.written
  let lost := if ringSize ≤ n && 0 < untaken s.events.takenUpTo (n - ringSize) (n - ringSize + 1) then 1 else 0
  let s := s.modEvents (fun v => { v with records := (e :: v.records).take ringSize, written := n + 1,
                                          overwritten := satAdd 32 v.overwritten lost })
  if u then
    forI3c (fun x t => t.modPort x (fun q => { q with
      log := some (true, n, 1, logMessage (s.source (0x90 + x.val)) s.stamp false n [e]), logAt := 0 })) s
  else s

/-- Local source numbers (R38). -/
def srcGaffer : Nat := 0x48
def srcTeaser : Nat := 0x49
def srcSecurity : Nat := 0x4A

end Sys2Proof.Machine
end

