-- ==== Sys2Proof/Machine/Contract.lean ====
section
/-! DEFINITION. The Turieno contract (02 R41–R56, 04 R97–R115): which command of a queue is due, when it may start, where
its logical units lie, and what issuing and waiting do. -/

namespace Sys2Proof.Machine

/-! ## Layouts and places -/

/-- The layout in force. -/
def layoutOf (x : Part) : Option Layout := x.image.bind (fun i => i.layouts[x.layout]?)

/-- The plan of the current step kind in the layout in force. -/
def planOf (x : Part) : Option KindPlan := (layoutOf x).bind (fun l => l.kinds[x.kind]?)

/-- A core that carries logical cores: not FENCED, GLORY_HOLE or REJOIN_PENDING (04 R117, R125). -/
def CoreState.serves (c : CoreState) : Bool := c == .inService || c == .fencePending

/-- The core numbers of a cluster in ascending order. -/
def coresOf (k : ClusterId) : List CoreId := (List.finRange 64).filter (fun c => clusterOf c == k)

/-- The cores of a cluster that are not fenced, in ascending order: the slots of a layout (04 R98). -/
def slotsOf (s : State) (k : ClusterId) : List CoreId := (coresOf k).filter (fun c => (s.core c).state.serves)

/-- The slot that the placement map gives a logical core (04 R97). -/
def placedSlot (l : Layout) (j : Nat) : Nat := (assocGet j l.placement).getD (j % 8)

/-- A bank of a logical core is carried across steps in this layout. -/
def carriesBank (l : Layout) (j : Nat) : Bool :=
  l.carried.any (fun c => c.cluster == j / 8 && c.bank < 32 && c.bank / 4 == j % 8)

/-- A group rotates when no member carries a bank, or the same chunks fill them, or weight copy is enabled (04 R115). -/
def groupRotates (l : Layout) (g : RotGroup) : Bool :=
  g.sameChunks || g.weightCopy || g.members.all (fun j => !carriesBank l j)

/-- The slot of logical core `j` in epoch `e` (04 R97, R114). -/
def slotAt (l : Layout) (e j : Nat) : Nat :=
  match l.groups.find? (fun g => g.members.contains j && groupRotates l g) with
  | some g => placedSlot l (g.members.getD ((g.members.idxOf j + e) % g.members.length) j)
  | none => placedSlot l j

/-- The cluster of a logical cluster (02 R42). -/
def physCluster (x : Part) (lc : Nat) : Option ClusterId := x.clusters[lc]?

/-- A logical core that a layout leaves vacant (04 R98). -/
def vacantCore (l : Layout) (j : Nat) : Bool := 8 - l.absent.getD (j / 8) 0 ≤ j % 8

/-- The core of a logical core (02 R42); a vacant one names none (04 R98). -/
def physCore (s : State) (x : Part) (j : Nat) : Option CoreId :=
  match layoutOf x, physCluster x (j / 8) with
  | some l, some k => if vacantCore l j then none else (slotsOf s k)[slotAt l x.epoch j]?
  | _, _ => none

/-- The physical bank of bank number `b` (0–35) of a logical cluster (05 R127). -/
def physBank (s : State) (x : Part) (lc b : Nat) : Option (Fin 288) :=
  match physCluster x lc with
  | none => none
  | some k =>
    let n := if b < 32 then (physCore s x (8 * lc + b / 4)).map (fun c => 36 * k.val + 4 * (c.val % 8) + b % 4)
             else some (36 * k.val + b)
    n.bind (fun n => if h : n < 288 ∧ b < 36 then some ⟨n, h.1⟩ else none)

/-- A bank owner register. -/
def State.owner (s : State) (b : Fin 288) : BankOwner := s.owners.get b
def State.setOwner (s : State) (b : Fin 288) (o : BankOwner) : State := { s with owners := s.owners.set b.val o b.isLt }

/-- The owner register's bits (05 R130). -/
def ownerWord (o : BankOwner) : Nat :=
  o.owner + 16 * o.observer + 256 * o.unit + 4096 * o.part + 32768 * bit o.partValid

/-! ## Whether a partition's engines run -/

/-- The module withholds every token: a supply hold, a shed, QUENCH, or a gating value of 10 of 10 periods (14 R386, R401).
DESIGN CHOICE, log entry 126. -/
def moduleHeld (s : State) : Bool :=
  s.power.supplyHeld || s.power.shed || s.power.state == .quench || s.power.gate == 10 ||
    (s.thermal.descent.isSome && s.power.thermGate == 10)

/-- The partition is held: by the module, or at a boundary or dump point (02 PART_p_STATUS.HELD). -/
def partHeld (s : State) (p : PartId) : Bool := moduleHeld s || (s.part p).holdAt.isSome

/-- A partition whose current step runs. -/
def stepping (s : State) (p : PartId) : Bool :=
  (s.part p).state == .running && (s.part p).released && !partHeld s p

/-! ## The command record (02 R47) -/

def recOpcode (r : CmdRecord) : Nat := recField r 0 2
def recClass (r : CmdRecord) : Nat := recField r 2 1
def recFlags (r : CmdRecord) : Nat := recField r 4 4
def waitEn (r : CmdRecord) : Bool := bitOf (recFlags r) 0
def sigEn (r : CmdRecord) : Bool := bitOf (recFlags r) 1
def stepEnd (r : CmdRecord) : Bool := bitOf (recFlags r) 2
def handoverEn (r : CmdRecord) : Bool := bitOf (recFlags r) 3
def randomEn (r : CmdRecord) : Bool := bitOf (recFlags r) 4
def waitTally (r : CmdRecord) : Nat := recField r 8 2
def sigTally (r : CmdRecord) : Nat := recField r 10 2
def sigInc (r : CmdRecord) : Nat := recField r 12 4
def waitValue (r : CmdRecord) : Nat := recField r 16 8
def recSite (r : CmdRecord) : Nat := recField r 56 4

/-! ## Which command is due (02 R44) -/

/-- The command that a queue's turn brings. -/
structure Due where
  p    : PartId
  desc : QueueDesc
  record : CmdRecord
  index : Nat
  next : Nat
  deriving DecidableEq, Repr

/-- The list of a queue in the current step (02 R45). -/
def listOf (x : Part) (q : Nat) : List CmdRecord :=
  match (planOf x).bind (fun k => k.lists.find? (fun l => l.queue == q)) with
  | some l => l.cmds
  | none => []

/-- Commands of the current list that a queue has issued. -/
def issuedOf (x : Part) (q : Nat) : Nat :=
  match x.queues.find? (fun r => r.queue == q) with
  | some r => r.issued
  | none => 0

/-- A queue that still has a command to issue in this step. -/
def queueLeft (x : Part) (q : Nat) : Bool := issuedOf x q < (listOf x q).length

/-- The turn list of an instance in the current step (02 R44). -/
def turnsOf (x : Part) (cls inst : Nat) : List Nat :=
  match (planOf x).bind (fun k => k.turns.find? (fun t => t.cls == cls && t.inst == inst)) with
  | some t => t.queues
  | none => []

/-- The next entry of the turn list. -/
def turnPos (x : Part) (cls inst : Nat) : Nat :=
  match x.turns.find? (fun t => t.cls == cls && t.inst == inst) with
  | some t => t.pos
  | none => 0

/-- A turn-list entry of a transfer instance that is a KV turn, and the walk list of its cluster that it names (07 R206); the manual
gives the entry no code (DESIGN CHOICE, log entry 137). -/
def kvTurn (e : Nat) : Option Nat := if e < 65536 || 131072 ≤ e then none else some (e - 65536)

/-- A turn-list entry of a transfer instance that is a video turn, and the video queue that it names (09 R254; DESIGN CHOICE, log entry 137). -/
def videoTurn (e : Nat) : Option Nat := if e < 131072 then none else some (e - 131072)

/-- A frame command of the video class. -/
def isFrame (r : CmdRecord) : Bool := recOpcode r == 0x0601 || recOpcode r == 0x0602

/-- The walk lists of a logical cluster in a step kind, numbered in the order of the plan (07 R206). -/
def planWalks (k : KindPlan) (lc : Nat) : List (List WalkRecord) := (k.walks.filter (fun w => w.cluster == lc)).map (fun w => w.records)

/-- The walk lists of a logical cluster in the current step. -/
def walkLists (x : Part) (lc : Nat) : List (List WalkRecord) := ((planOf x).map (fun k => planWalks k lc)).getD []

/-- Records of walk list `i` of a logical cluster that the walker has taken in this step. -/
def walkTaken (x : Part) (lc i : Nat) : Nat := (assocGet (65536 * lc + i) x.walkDone).getD 0

/-- Frame commands of a video queue whose pictures its video turn has moved in this step (09 R254). -/
def videoTaken (x : Part) (q : Nat) : Nat := (assocGet q x.videoMoved).getD 0

/-- A turn-list entry whose queue, walk list or frame commands have something left for the step. -/
def turnLeft (x : Part) (inst e : Nat) : Bool :=
  match kvTurn e, videoTurn e with
  | some i, _ => walkTaken x inst i < ((walkLists x inst).getD i []).length
  | none, some q => videoTaken x q < ((listOf x q).filter isFrame).length
  | none, none => queueLeft x e

/-- Position and entry of the first turn from `pos` on, cyclically, that has something left: exhausted ones are passed over (02 R44). -/
def nextTurn (x : Part) (inst : Nat) (queues : List Nat) (pos : Nat) : Option (Nat × Nat) :=
  ((List.range queues.length).map (fun i => ((pos + i) % queues.length, queues.getD ((pos + i) % queues.length) 0))).find?
    (fun e => turnLeft x inst e.2)

/-- The descriptor of a queue. -/
def descOf (x : Part) (q : Nat) : Option QueueDesc :=
  x.image.bind (fun i => i.queues.find? (fun d => d.queue == q && d.inUse))

/-- The command of queue `q` when its turn has come on its instance and the partition's step runs. -/
def dueAt (s : State) (p : PartId) (q : Nat) : Option Due :=
  let x := s.part p
  if !stepping s p then none else
  match descOf x q with
  | none => none
  | some d =>
    match nextTurn x d.inst (turnsOf x d.cls d.inst) (turnPos x d.cls d.inst) with
    | some (pos, q') =>
      if q' = q then
        match (listOf x q)[issuedOf x q]? with
        | some r => some { p := p, desc := d, record := r, index := issuedOf x q,
                           next := (pos + 1) % (turnsOf x d.cls d.inst).length }
        | none => none
      else none
    | none => none

/-- The due command when it is of the row's class and opcode. -/
def dueCommand (s : State) (p : PartId) (q cls opcode : Nat) : Option Due :=
  match dueAt s p q with
  | some d => if d.desc.cls = cls && recOpcode d.record = opcode then some d else none
  | none => none

/-- Move the turn list of an instance to an entry. -/
def setTurn (x : Part) (cls inst pos : Nat) : Part :=
  { x with turns := if x.turns.any (fun t => t.cls == cls && t.inst == inst) then
      updFirst (fun t => t.cls == cls && t.inst == inst) (fun t => { t with pos := pos }) x.turns
    else x.turns ++ [{ cls := cls, inst := inst, pos := pos }] }

/-! ## Start, wait, issue -/

/-- The value of a tally, and its step base (02 R52, R53). -/
def tallyOf (x : Part) (t : Nat) : Nat := x.tallies.getD t 0
def baseOf (x : Part) (t : Nat) : Nat := x.bases.getD t 0

/-- The tally condition of R48, as unsigned 64-bit numbers. -/
def tallyReady (x : Part) (r : CmdRecord) : Bool :=
  !waitEn r || waitValue r ≤ (tallyOf x (waitTally r) + 2 ^ 64 - baseOf x (waitTally r)) % 2 ^ 64

/-- A bank is owned by a master of the partition (02 R48, 05 R128). -/
def ownedBy (s : State) (p : PartId) (b : Fin 288) (code unitNo : Nat) : Bool :=
  (s.owner b).owner == code && (s.owner b).unit == unitNo && (s.owner b).part == p.val && (s.owner b).partValid

/-- Add to the work-beat or waiting-beat counter of the unit of an engine instance (01 R15), that of a Stream instance being the gather or
emit block of its stream's port (14 R388). -/
def countBeats (s : State) (p : PartId) (cls inst work waiting : Nat) : State :=
  let x := s.part p
  if 1 ≤ cls && cls ≤ 4 then
    match physCore s x inst with
    | some c => s.modCore c (fun k => { k with work := k.work + BitVec.ofNat 64 work, waiting := k.waiting + BitVec.ofNat 64 waiting })
    | none => s
  else if cls = 5 then
    match physCluster x inst with
    | some k => s.modCluster k (fun c => { c with beats := c.beats + BitVec.ofNat 64 work, waiting := c.waiting + BitVec.ofNat 64 waiting })
    | none => s
  else if cls = 6 then
    s.modEngine ⟨inst % 2, by omega⟩ (fun v => { v with beats := v.beats + BitVec.ofNat 64 work, waiting := v.waiting + BitVec.ofNat 64 waiting })
  else match s.csi.bindings.find? (fun b => b.part == p && b.stream == inst) with
    | some b =>
      if b.transmit then s.modTx b.port (fun t => { t with beats := t.beats + BitVec.ofNat 64 work, waiting := t.waiting + BitVec.ofNat 64 waiting })
      else s.modRx b.port (fun r => { r with beats := r.beats + BitVec.ofNat 64 work, waiting := r.waiting + BitVec.ofNat 64 waiting })
    | none => s

/-- A command that waits in handshake: its waiting beats, a free number, are counted and nothing else happens (01 R15). -/
def waits (s : State) (p : PartId) (cls inst : Nat) : State :=
  countBeats (s.draw).2 p cls inst 0 (Config.waitingBeats (s.draw).1).toNat

/-- Every core of a partition that serves waits: for a part of the leader's (13 R359), or for a boundary's time in paced mode (15 R433). -/
def coresWait (s : State) (p : PartId) : State :=
  ((s.part p).clusters.flatMap coresOf).foldl (fun s c =>
    if (s.core c).state.serves then (s.draw).2.modCore c (fun k => { k with waiting := k.waiting + Config.waitingBeats (s.draw).1 }) else s) s

/-- What an engine's datapath answers: it waits, waits with items of its channels read (04 R100), meets an address that does not exist,
or has run, with its work beats and its error code (0 none). -/
inductive EngineOut where
  | wait
  | stall (t : State)
  | bad (address : Nat)
  | done (t : State) (beats : Nat) (err : Nat)

/-- Issue a command that has run: its work beats (01 R14; those of cores make WORK, R30), its queue's and its turn list's place, and its entry
among the commands that have not completed. DESIGN CHOICE, log entry 34. -/
def issue (s : State) (d : Due) (beats err : Nat) (hand : Option Handover) : State :=
  let s := countBeats s d.p d.desc.cls d.desc.inst beats 0
  s.modPart d.p (fun x =>
    let x := setTurn x d.desc.cls d.desc.inst d.next
    { x with
      stepWork := x.stepWork + (if 1 ≤ d.desc.cls && d.desc.cls ≤ 4 then beats else 0)
      queues := updFirst (fun r => r.queue == d.desc.queue) (fun r => { r with issued := d.index + 1 }) x.queues
      inflight := x.inflight ++
        [{ cls := d.desc.cls, inst := d.desc.inst, queue := d.desc.queue, index := d.index, stepEnd := stepEnd d.record,
           handover := if handoverEn d.record then hand else none,
           signal := if sigEn d.record then some (sigTally d.record, sigInc d.record) else none,
           error := err, walk := false, awaiting := false, ticket := 0 }] })

/-- The handover descriptor at a byte offset of a record, for a logical cluster (05 R131). -/
def handoverAt (r : CmdRecord) (off lc : Nat) : Option Handover :=
  let w := recField r off 3
  some { cluster := lc, bank := bitsOf w 5 0, owner := bitsOf w 9 6, unit := bitsOf w 13 10 }

/-- Copies ordered at the boundary still wait for the copy phase of a logical cluster: no KV turn or transfer queue of the
step runs before it (07 R212). -/
def copiesPending (x : Part) (lc : Nat) : Bool :=
  match x.kv[lc]? with
  | some k => !k.copies.isEmpty
  | none => false

/-- What comes first in a logical cluster's turn list is still to come: the house turn (05 R144) or the copy phase (07 R212). -/
def headPending (x : Part) (lc : Nat) : Bool := x.houseTodo.contains lc || copiesPending x lc

/-! ## Elastic channels (04 R100, R101) -/

/-- The declaration of a channel in the layout in force. -/
def chanDecl (x : Part) (c : Nat) : Option Channel := (layoutOf x).bind (fun l => l.channels.find? (fun h => h.chan == c))

/-- The bytes and marks that a channel holds. -/
def chanRt (x : Part) (c : Nat) : ChanRt := (x.chans.find? (fun h => h.chan == c)).getD { chan := c, bytes := [], poison := [] }

def setChan (x : Part) (h : ChanRt) : Part :=
  { x with chans := if x.chans.any (fun g => g.chan == h.chan) then updFirst (fun g => g.chan == h.chan) (fun _ => h) x.chans
                    else x.chans ++ [h] }

/-- The writer of a channel waits: it is full, and an item is still to be written (R100). DESIGN CHOICE, log entry 12. -/
def chanBusy (x : Part) (c : Nat) : Bool :=
  match chanDecl x c with
  | some d => d.depth * d.item < (chanRt x c).bytes.length - (chanRt x c).front
  | none => false

/-- A channel's writer has written all it had (R100). -/
def chanRoom (x : Part) (c : Nat) : Bool := (chanDecl x c).isSome && !chanBusy x c

/-- An instance waits for room on a channel that it writes: its last command has items still to be accepted (R100, R101; 06 R169).
DESIGN CHOICE, log entry 12. -/
def chanBlocked (x : Part) (cls inst : Nat) : Bool :=
  x.chans.any (fun h => chanBusy x h.chan && (chanDecl x h.chan).any (fun d => d.writer == ⟨cls, inst⟩))

/-- Write bytes, whole 64-byte words with their marks. -/
def chanPut (x : Part) (c : Nat) (bs : Bytes) (marks : List Bool) : Part :=
  let h := chanRt x c
  setChan x { h with bytes := h.bytes ++ bs, poison := h.poison ++ marks }

/-- A channel and its writer have `n` bytes for their reader. -/
def chanReady (x : Part) (c n : Nat) : Bool := (chanDecl x c).isSome && n ≤ (chanRt x c).bytes.length

/-- Pass on the bytes from `a` to `b` of what a relay carries to the channel that it names (R101). -/
def relayOn (x : Part) (c a b : Nat) : Part :=
  match (chanDecl x c).bind (fun d => d.relay) with
  | some r => chanPut x r (((chanRt x c).bytes.drop a).take (b - a)) (((chanRt x c).poison.drop (a / 64)).take ((b - a) / 64))
  | none => x

/-- Take `n` bytes; a relay writes them to its named channel too (R101). -/
def chanTake (x : Part) (c n : Nat) : Part :=
  let x := relayOn x c (min (chanRt x c).front n) n
  let h := chanRt x c
  setChan x { h with bytes := h.bytes.drop n, poison := h.poison.drop (n / 64), front := h.front - n }

/-- The items of a channel that a command of `n` bytes can read while it waits for the rest: all that have come, on a relay as many as
the named channel has room for (R100, R101). DESIGN CHOICE, log entry 12. -/
def chanStage (x : Part) (c n : Nat) : Part :=
  match chanDecl x c with
  | none => x
  | some d =>
    let h := chanRt x c
    let have_ := min n h.bytes.length - h.front
    let room := match d.relay.bind (chanDecl x) with
      | some r => r.depth * r.item - ((chanRt x r.chan).bytes.length - (chanRt x r.chan).front)
      | none => have_
    let k := if d.item = 0 then 0 else min have_ room / d.item * d.item
    let x := relayOn x c h.front (h.front + k)
    let h := chanRt x c
    setChan x { h with front := h.front + k }

/-- Take the due command of a queue through its datapath. DESIGN CHOICE, log entry 34. -/
def runEngine (s : State) (p : PartId) (q cls opcode : Nat) (hand : Due → Option Handover) (op : Due → State → EngineOut) :
    Result :=
  match dueCommand s p q cls opcode with
  | none => .next s
  | some d =>
    if tallyReady (s.part p) d.record && !(cls = 5 && headPending (s.part p) d.desc.inst) && !chanBlocked (s.part p) cls d.desc.inst then
      match op d s with
      | .wait => .next (waits s p cls d.desc.inst)
      | .stall t => .next (waits t p cls d.desc.inst)
      | .bad a => .fault (.noSuchAddress a)
      | .done t n e => .next (issue t d n e (hand d))
    else .next (waits s p cls d.desc.inst)

/-! ## Tallies -/

/-- Add to a tally; an add that would pass 2^64 − 1 saturates, sets TALLY_SAT and records the event (02 R52, R55). -/
def tallyAdd (s : State) (p : PartId) (t inc : Nat) : State :=
  let x := s.part p
  let v := tallyOf x t + inc
  if v < 2 ^ 64 then s.setPart p { x with tallies := x.tallies.set t v }
  else (s.setPart p { x with tallies := x.tallies.set t (2 ^ 64 - 1), tallySat := true }).event srcGaffer 0x0202 p.val
         (leBytes 2 t)

/-- Write an owner register for a handover (05 R131, R132): OBSERVER, PART and PART_VALID stay (R136). -/
def takeHandover (s : State) (p : PartId) (h : Handover) : State :=
  match physBank s (s.part p) h.cluster h.bank with
  | some b => s.setOwner b { s.owner b with owner := h.owner, unit := h.unit }
  | none => s

/-- The local source number of the unit of an engine instance (01 R38). -/
def unitSource (s : State) (p : PartId) (cls inst : Nat) : Nat :=
  let x := s.part p
  if 1 ≤ cls && cls ≤ 4 then (match physCore s x inst with | some c => c.val | none => srcGaffer)
  else if cls = 5 then (match physCluster x inst with | some k => 0x40 + k.val | none => srcGaffer)
  else if cls = 6 then 0x80 + inst % 2
  else match s.csi.bindings.find? (fun b => b.part == p && b.stream == inst) with
    | some b => (if b.transmit then 0x60 else 0x50) + b.port.val
    | none => srcGaffer

end Sys2Proof.Machine
end

