-- ==== Sys2Proof/Machine/MemErrors.lean ====
section
/-! DEFINITION. Bit errors of the banks and stacks (05 R155, R157, R159): where they lie until a read meets them, and what the read that
meets them leaves. The manual has no command that brings one: they come with the readings of a teaser cycle (DESIGN CHOICE, log entry
130). -/

namespace Sys2Proof.Machine

/-- Local source number of a cluster's servitor (01 R38). -/
def srcCluster (k : ClusterId) : Nat := 0x40 + k.val

/-- The core that holds a physical bank, when it is a core bank (05 R127, R129). -/
def coreOfBank (b : Nat) : Option CoreId :=
  if h : b < 288 ∧ b % 36 < 32 then some ⟨8 * (b / 36) + b % 36 / 4, by omega⟩ else none

/-- The cluster of a word of the banks, and of a unit of the stacks. -/
def clusterOfWord (w : Nat) : ClusterId := ⟨w / 32768 / 36 % 8, by omega⟩
def clusterOfUnit (w : Nat) : ClusterId := ⟨w / 2 ^ 30 % 8, by omega⟩

/-- The partition byte of an event about a cluster's memory. -/
def memoryPart (s : State) (k : ClusterId) : Nat := ((partOfCluster s k).map (fun p => p.val)).getD 0xFF

/-- A read first meets the uncorrectable error of a bank word: its record, and a self-check of the core that the bank belongs to, at the
next boundary (R155, R159). -/
def foundBank (s : State) (w : Nat) : State :=
  let k := clusterOfWord w
  let s := { s with mem := { s.mem with bankFlips := markClear s.mem.bankFlips w 1 } }
  let s := match coreOfBank (w / 32768) with | some c => s.modCore c (fun k => { k with checkDue := true }) | none => s
  s.event (srcCluster k) 0x0301 (memoryPart s k) (leBytes 1 0 ++ leBytes 1 (w / 32768 % 36) ++ zeros 6 ++ leBytes 8 (64 * (w % 32768)))

/-- A read first meets an uncorrectable stack unit (R159). -/
def foundUnit (s : State) (w : Nat) : State :=
  let k := clusterOfUnit w
  let off := 64 * (w % 2 ^ 30)
  let s := { s with mem := { s.mem with stackFlips := markClear s.mem.stackFlips w 1 } }
  if off < partSpace then s.event (srcCluster k) 0x0301 (memoryPart s k) (leBytes 1 1 ++ leBytes 1 k.val ++ zeros 6 ++ leBytes 8 off)
  else s.event (srcCluster k) 0x0304 0xFF (leBytes 1 k.val ++ zeros 7 ++ leBytes 8 off)

/-- The marks among the words that `n` bytes at `a` touch. -/
def marksIn (vs : List Nat) (a n : Nat) : List Nat := vs.filter (fun w => (wordsOf a n).1 ≤ w && w < (wordsOf a n).1 + (wordsOf a n).2)

/-- A read of `n` bytes of the banks: a correctable error is counted for its bank, each time (R159), and an uncorrectable one is found.
DESIGN CHOICE, log entry 130. -/
def meetBank (s : State) (a n : Nat) : State :=
  (marksIn s.mem.bankFlips a n).foldl foundBank
    { s with mem := { s.mem with
        bankCounts := (marksIn s.mem.bankSingles a n).foldl (fun c w => assocSet (w / 32768) ((assocGet (w / 32768) c).getD 0 + 1) c) s.mem.bankCounts } }

/-- A read of `n` bytes of the stacks. -/
def meetStack (s : State) (a n : Nat) : State :=
  (marksIn s.mem.stackFlips a n).foldl foundUnit
    ((marksIn s.mem.stackSingles a n).foldl (fun s w => s.modCluster (clusterOfUnit w) (fun c => { c with correctable := c.correctable + 1 })) s)

/-- A bit error arises in a word: of the stacks or the banks, uncorrectable or not. An error in a word that already holds one of its kind,
or a poisoned word, adds nothing. DESIGN CHOICE, log entry 130. -/
def addBitError (s : State) (e : BitError) : State :=
  let m := s.mem
  match e.stack, e.double with
  | false, true =>
    if 288 * 32768 ≤ e.word || m.bankPoison.contains e.word then s
    else { s with mem := { m with
      bankPoison := markSet m.bankPoison e.word
      bankFlips := markSet m.bankFlips e.word
      bankSingles := markClear m.bankSingles e.word 1 } }
  | false, false =>
    if 288 * 32768 ≤ e.word || m.bankPoison.contains e.word then s else { s with mem := { m with bankSingles := markSet m.bankSingles e.word } }
  | true, true =>
    if 2 ^ 33 ≤ e.word || m.stackPoison.contains e.word then s
    else { s with mem := { m with
      stackPoison := markSet m.stackPoison e.word
      stackFlips := markSet m.stackFlips e.word
      stackSingles := markClear m.stackSingles e.word 1 } }
  | true, false =>
    if 2 ^ 33 ≤ e.word || m.stackPoison.contains e.word then s else { s with mem := { m with stackSingles := markSet m.stackSingles e.word } }

end Sys2Proof.Machine
end

