-- ==== Sys2Proof/Machine/Random.lean ====
section
/-! DEFINITION. Philox-4x32-10 and the random word of an element (01 R28). -/

namespace Sys2Proof.Machine

/-- One round of Philox-4x32: the multipliers and the key schedule are those of the published generator. -/
def philoxRound (k0 k1 : Nat) (c : Nat × Nat × Nat × Nat) : Nat × Nat × Nat × Nat :=
  let p0 := 0xD2511F53 * c.1
  let p1 := 0xCD9E8D57 * c.2.2.1
  (Nat.xor (Nat.xor (p1 / 2 ^ 32) c.2.1) k0, p1 % 2 ^ 32, Nat.xor (Nat.xor (p0 / 2 ^ 32) c.2.2.2) k1, p0 % 2 ^ 32)

/-- `n` rounds, the key stepping between them. -/
def philoxRounds : Nat → Nat → Nat → Nat × Nat × Nat × Nat → Nat × Nat × Nat × Nat
  | 0, _, _, c => c
  | n + 1, k0, k1, c =>
    philoxRounds n ((k0 + 0x9E3779B9) % 2 ^ 32) ((k1 + 0xBB67AE85) % 2 ^ 32) (philoxRound k0 k1 c)

/-- The four output words. -/
def philox (k0 k1 : Nat) (c : Nat × Nat × Nat × Nat) : List Nat :=
  let o := philoxRounds 10 k0 k1 c
  [o.1, o.2.1, o.2.2.1, o.2.2.2]

/-- The counter of a site's element in a step (R28). -/
def philoxCounter (seed site step e : Nat) : Nat × Nat × Nat × Nat :=
  (e / 4 % 2 ^ 32, site % 2 ^ 32, Nat.xor (step % 2 ^ 32) (bitsOf seed 95 64),
    Nat.xor (step / 2 ^ 32 % 2 ^ 32) (bitsOf seed 127 96))

/-- The random word of element `e` (R28). -/
def randomWord (seed site step e : Nat) : Nat :=
  (philox (bitsOf seed 31 0) (bitsOf seed 63 32) (philoxCounter seed site step e)).getD (e % 4) 0

/-! ## CRC-32C -/

/-- One bit of the reflected CRC-32C. -/
def crcBit (c : Nat) : Nat := if c % 2 = 1 then Nat.xor (c / 2) 0x82F63B78 else c / 2

/-- One byte. -/
def crcByte (c : Nat) (b : Byte) : Nat :=
  crcBit (crcBit (crcBit (crcBit (crcBit (crcBit (crcBit (crcBit (Nat.xor c b.toNat))))))))

/-- CRC-32C of a byte string. -/
def crc32c (bs : Bytes) : Nat := Nat.xor (bs.foldl crcByte 0xFFFFFFFF) 0xFFFFFFFF

end Sys2Proof.Machine
end

