-- ==== Sys2Proof/Machine/Operands.lean ====
section
/-! DEFINITION. Operand forms of the engine commands: planes of elements in banks and channels, tensor references (04 R103,
R104), bank references (05 R141), results written back. -/

namespace Sys2Proof.Machine

/-- Move bytes and marks into a bank. -/
def moveToBank (s : State) (addr : Nat) (bs : Bytes) (marks : List Bool) : State :=
  let t := bankWrite s addr bs
  { t with mem := { t.mem with bankPoison := marksWrite t.mem.bankPoison (addr / 64) marks } }

/-- What an engine reads: byte `i` of a region, and whether its 64-byte word is poisoned (05 R156). -/
structure Plane where
  rd  : Nat → Nat
  bad : Nat → Bool

/-- A region of a bank. -/
def bankPlane (s : State) (b : Fin 288) (off : Nat) : Plane :=
  { rd := fun i => (cellRead s.mem.banks (bankAddr b off + i)).toNat
    bad := fun i => s.mem.bankPoison.contains ((bankAddr b off + i) / 64) }

/-- Bytes taken from a channel, with the marks of their words. -/
def bytesPlane (bs : Bytes) (marks : List Bool) : Plane :=
  { rd := fun i => (bs.getD i 0).toNat, bad := fun i => marks.getD (i / 64) false }

/-- A plane seen from byte `off` on. -/
def Plane.from (pl : Plane) (off : Nat) : Plane := { rd := fun i => pl.rd (off + i), bad := fun i => pl.bad (off + i) }

/-- The bytes of a plane. DESIGN CHOICE, log entry 68. -/
def Plane.bytes (pl : Plane) (n : Nat) : Bytes := (List.range n).map (fun i => BitVec.ofNat 8 (pl.rd i))

/-- The least multiple of 64 that is at least `n`. -/
def round64 (n : Nat) : Nat := 64 * ceilDiv n 64

/-- Where the scale plane of `n` elements starts (04 R104). -/
def scaleAt (code n : Nat) : Nat := round64 (planeBytes code n)

/-- Bytes that `n` elements take, up to their last byte (04 R104). -/
def extent (code n : Nat) : Nat := if isBlock code then scaleAt code n + ceilDiv n 32 else planeBytes code n

/-- Whether any byte of element `i`, or its scale byte, is poisoned. -/
def elemBad (pl : Plane) (code sc i : Nat) : Bool :=
  let w := fmtBits code
  pl.bad (i * w / 8) || pl.bad ((i * w + w - 1) / 8) || (isBlock code && pl.bad (sc + i / 32))

/-- Element `i` of an operand of `n` elements: a poisoned word reads as NaN (04 R110). -/
def planeElem (pl : Plane) (tab : List Nat) (code n i : Nat) : Num :=
  let sc := scaleAt code n
  if elemBad pl code sc i then .nan
  else readElem pl.rd (fun b => pl.rd (sc + b)) tab code i

/-- Whether any element of an operand of `n` elements meets a poisoned word. -/
def planeBad (pl : Plane) (code n : Nat) : Bool := (List.range n).any (fun i => elemBad pl code (scaleAt code n) i)

/-- An exact partial record of a plane as a lane, and its error: 0x01 for a reserved bit or byte, 0x02 for a poisoned word
(04 R110). -/
def planeRecord (pl : Plane) (r : Nat) : Lane × Nat :=
  let q := pl.from (96 * r)
  let bs := q.bytes 96
  if q.bad 0 || q.bad 63 || q.bad 95 then ({ Lane.start with nan := true }, 2)
  else if recordOk bs then (laneOfRecord bs, 0)
  else ({ Lane.start with nan := true }, 1)

/-- The one error code of a command that meets several causes (02 R50). -/
def joinErr (a b : Nat) : Nat := if a = 2 || b = 2 then 2 else if a = 0 then b else if b = 0 then a else min a b

/-! ## References -/

/-- A tensor reference (04 R103). -/
structure TRef where
  off  : Nat
  bank : Nat
  kind : Nat
  deriving DecidableEq, Repr

def trefOf (w : Nat) : TRef := { off := bitsOf w 20 0, bank := bitsOf w 22 21, kind := bitsOf w 24 23 }

/-- A bank reference of a transfer command (05 R141). -/
structure BankRef where
  off      : Nat
  bank     : Nat
  observer : Bool
  deriving DecidableEq, Repr

def bankRefOf (w : Nat) : BankRef := { off := bitsOf w 20 0, bank := bitsOf w 26 21, observer := bitOf w 27 }

/-- Answers of an engine's steps: it waits, meets a missing address, or goes on. -/
abbrev Engine (α : Type) := Except EngineOut α

/-- The core bank of a command's logical core, owned by the master of its class; a bank owned by another master makes the
command wait (02 R48). DESIGN CHOICE, log entry 120. -/
def coreBank (s : State) (d : Due) (bank bytes off : Nat) : Engine (Fin 288) :=
  match physBank s (s.part d.p) (d.desc.inst / 8) (4 * (d.desc.inst % 8) + bank) with
  | none => .error .wait
  | some b =>
    if bankSize < off + bytes then .error (.bad (bankAddr b off + bytes))
    else if ownedBy s d.p b d.desc.cls 0 then .ok b else .error .wait

/-- Fetch an operand of `bytes` bytes, with the bit errors that the read meets: from a core bank, or whole items from an inbound channel (04 R103, R104). -/
def fetch (s : State) (d : Due) (r : TRef) (bytes : Nat) : Engine (Plane × State) :=
  if r.kind = 0 then do
    let b ← coreBank s d r.bank bytes r.off
    return (bankPlane s b r.off, meetBank s (bankAddr b r.off) bytes)
  else
    let c := r.off % 4096
    let x := s.part d.p
    if chanReady x c (round64 bytes) then
      let h := chanRt x c
      .ok (bytesPlane (h.bytes.take (round64 bytes)) (h.poison.take (round64 bytes / 64)),
           s.setPart d.p (chanTake x c (round64 bytes)))
    else .error .wait

/-- The bytes that a command takes from each channel it reads. -/
def chanNeeds (rs : List (TRef × Nat)) : List (Nat × Nat) :=
  (rs.filter (fun r => r.1.kind != 0)).foldl (fun ns r => assocSet (r.1.off % 4096)
    ((assocGet (r.1.off % 4096) ns).getD 0 + round64 r.2) ns) []

/-- All that a command reads from channels has come; until then it reads the items that have, and waits (04 R100). -/
def gatherItems (s : State) (p : PartId) (needs : List (Nat × Nat)) : Engine Unit :=
  if needs.all (fun n => chanReady (s.part p) n.1 n.2) then .ok ()
  else .error (.stall (s.setPart p (needs.foldl (fun x n => chanStage x n.1 n.2) (s.part p))))

/-- The banks of a command's references are owned (02 R48). -/
def banksReady (s : State) (d : Due) : List (TRef × Nat) → Engine Unit
  | [] => .ok ()
  | r :: rs => do
    let _ ← (if r.1.kind = 0 then (coreBank s d r.1.bank r.2 r.1.off).map (fun _ => ()) else .ok ())
    banksReady s d rs

/-- The banks that a command reads are owned, and all that it reads from channels has come. -/
def gatherReads (s : State) (d : Due) (rs : List (TRef × Nat)) : Engine Unit := do
  banksReady s d rs
  gatherItems s d.p (chanNeeds rs)

/-- Whether a result of `bytes` bytes can be written: its bank is owned, or its channel has room. -/
def sinkReady (s : State) (d : Due) (r : TRef) (bytes : Nat) : Engine Unit :=
  if r.kind = 0 then do
    let _ ← coreBank s d r.bank bytes r.off
    return ()
  else if chanRoom (s.part d.p) (r.off % 4096) then .ok () else .error .wait

/-- The bytes of a result as stored: data plane, zeros up to the next multiple of 64, scale plane (04 R104). -/
def planeOut (out : Bytes × Bytes) : Bytes :=
  if out.2.isEmpty then out.1 else padTo (round64 out.1.length) out.1 ++ out.2

/-- Store a result's bytes at byte `at` of its reference. -/
def storeResult (s : State) (d : Due) (r : TRef) (at_ : Nat) (bs : Bytes) : State :=
  if r.kind = 0 then
    match physBank s (s.part d.p) (d.desc.inst / 8) (4 * (d.desc.inst % 8) + r.bank) with
    | some b => bankWrite s (bankAddr b (r.off + at_)) bs
    | none => s
  else
    s.setPart d.p (chanPut (s.part d.p) (r.off % 4096) (padTo (round64 bs.length) bs)
      (List.replicate (ceilDiv bs.length 64) false))

/-- The codebook of a table identifier in the partition's table store (03 R72, R74). -/
def codebook (x : Part) (id : Nat) : List Nat :=
  match x.tables.find? (fun t => t.kind == 1 && t.id == id) with
  | some t => t.entries
  | none => []

/-- The random words of a command: element `e` of its site in the step (01 R28, 03 R88). -/
def elemRandom (x : Part) (r : CmdRecord) (e : Nat) : Nat := randomWord x.seed.toNat (recSite r) x.step e

/-- Lanes written under a descriptor: exact partial records for OUT_FMT 31, else the rounded planes (03 R79, R81, R85).
`rand e` is the random word of output element `e`. -/
def writeLanes (w : Wdesc) (rand : Nat → Nat) (ls : List Lane) : Bytes :=
  if w.fmt = 31 then ls.flatMap Lane.record else planeOut (writeOut w rand (ls.map Lane.value))

/-- Bytes of a result of `n` lanes. -/
def lanesExtent (w : Wdesc) (n : Nat) : Nat := if w.fmt = 31 then 96 * n else extent w.fmt n

/-- Turn the answer of an engine's steps into what the contract takes. DESIGN CHOICE, log entry 3. -/
def Engine.out (e : Engine EngineOut) : EngineOut :=
  match e with
  | .ok a => a
  | .error a => a

end Sys2Proof.Machine
end

