-- ==== Sys2Proof/Machine/Attention.lean ====
section
/-! DEFINITION. The attention unit: scores, soft maximum, state records, masks, errors (07 R184–R197, R487). -/

namespace Sys2Proof.Machine

/-- Operands of ATTN (07 R185). -/
structure AttnArgs where
  q     : TRef
  kv    : TRef
  o     : TRef
  w     : Wdesc
  nk    : Nat
  g     : Nat
  npos  : Nat
  d     : Nat
  qFmt  : Nat
  kvFmt : Nat
  tpp   : Nat
  stateIn : Bool
  finish  : Bool
  lenMask : Bool
  causal  : Bool
  scale : Num
  aux   : TRef
  deriving DecidableEq, Repr

/-- Format code of R63 of a KV format code (07 R195). -/
def kvFormat (c : Nat) : Nat :=
  match c with
  | 0 => 3
  | 1 => 4
  | 2 => 10
  | _ => 11

def attnArgs (r : CmdRecord) : AttnArgs :=
  let fm := recField r 47 1
  let fl := recField r 50 2
  { q := trefOf (recField r 24 4), kv := trefOf (recField r 28 4), o := trefOf (recField r 32 4),
    w := wdescOf (recField r 36 4), nk := recField r 40 3, g := recField r 43 1, npos := recField r 44 2,
    d := 16 * recField r 46 1,
    qFmt := (match bitsOf fm 1 0 with | 0 => 3 | 1 => 4 | _ => 5), kvFmt := kvFormat (bitsOf fm 3 2),
    tpp := recField r 48 2, stateIn := bitOf fl 0, finish := bitOf fl 1, lenMask := bitOf fl 2, causal := bitOf fl 3,
    scale := elemNum [] 1 (recField r 56 4), aux := trefOf (recField r 60 4) }

/-- Bytes of a half record: `d` elements and their scales, in 32-byte units (R195). -/
def halfBytes (fmt d : Nat) : Nat :=
  32 * ceilDiv (d * fmtBits fmt / 8 + (if isBlock fmt then d / 32 else 0)) 32

/-- Bytes of a state record (R185). -/
def stateBytes (d : Nat) : Nat := 160 + 96 * d

/-- Work beats of ATTN (R187). -/
def attnBeats (a : AttnArgs) : Nat :=
  let rate := if a.kvFmt = 3 then 4096 else 8192
  let c := max (ceilDiv (16 * a.g * a.d) rate) (ceilDiv (16 * (2 * halfBytes a.kvFmt a.d)) 4096)
  let sin := if a.stateIn then ceilDiv (a.g * stateBytes a.d) 4096 else 0
  let fout := if a.finish then a.g * ceilDiv a.d 64 + 4 else ceilDiv (a.g * stateBytes a.d) 4096
  12 + a.npos * (sin + ceilDiv a.nk 16 * c + fout)

/-- The running state of a row (R189, R193). DESIGN CHOICE, log entry 58. -/
structure RowState where
  m    : Option Int
  keys : Nat
  nan  : Bool
  den  : Lane
  num  : List Lane
  deriving DecidableEq, Repr

def RowState.start (d : Nat) : RowState :=
  { m := none, keys := 0, nan := false, den := Lane.start, num := List.replicate d Lane.start }

/-- A score of a key: it is masked, sets the row's NaN flag, or is a 32-bit integer (R188). -/
inductive Score where
  | masked
  | nan
  | score (v : Int)
  deriving DecidableEq, Repr

/-- n / d rounded by RNE to the 32-bit range. -/
def satScore (neg : Bool) (n d : Nat) : Int :=
  max (-(2 ^ 31 : Int)) (min (signed neg (roundMag n d 0 0 0)) (2 ^ 31 - 1))

/-- The score of a dot product times SCALE times 2^16 (R188). -/
def scoreOf (p : Lane) (scale : Num) : Score :=
  match p.value, scale with
  | .nan, _ => .nan
  | _, .nan => .nan
  | .inf s, .fin t m _ => if m = 0 then .nan else if s != t then .masked else .score (2 ^ 31 - 1)
  | .inf s, .inf t => if s != t then .masked else .score (2 ^ 31 - 1)
  | .num s n _, .inf t => if n = 0 then .nan else if s != t then .masked else .score (2 ^ 31 - 1)
  | .num s n d, .fin t m e =>
    let (a, b) := shiftRatio (n * m) d (e + 16)
    .score (satScore (s != t) a b)

/-- The weight W of a fraction: L(f) · 2^16 rounded by RNE (R189, R190). -/
def weightOf (tabs : List FormatTable) (f : Nat) : Int :=
  let l := curveL tabs 0 0 (f * 256)
  signed (l < 0) (roundMag l.natAbs 1 147 0 0)

/-- An arithmetic shift right of a lane (R189). -/
def Lane.asr (l : Lane) (k : Nat) : Lane := { l with acc := l.acc / 2 ^ k }

/-- A key of a group: its score, and its value elements with poisoned lanes as NaN (R487). -/
structure Key where
  score : Score
  v     : List Num

/-- Enter one unmasked key at running maximum `m` (R189). -/
def enterKey (tabs : List FormatTable) (m : Int) (r : RowState) (s : Int) (v : List Num) : RowState :=
  let h := s / 65536
  if m - 150 ≤ h then
    let w := weightOf tabs (s % 65536).toNat
    { r with den := { r.den with acc := r.den.acc + scaleInt w (h - m - 16 + 304) }
             num := (r.num.zip v).map (fun a => a.1.mulAdd (.fin (w < 0) w.natAbs (h - m - 16)) a.2) }
  else r

/-- The largest H of a group's unmasked keys, and the running maximum (R189). DESIGN CHOICE, log entry 143. -/
def groupMax (m : Option Int) (ks : List Key) : Option Int :=
  ks.foldl (fun a k => match k.score with
    | .score s => (match a with | none => some (s / 65536) | some b => some (max b (s / 65536)))
    | _ => a) m

/-- One group of keys (R189). A key whose score is NaN sets the row's flag and raises neither M nor a lane: FINISH makes the row NaN, and
what such a key leaves in M, DEN and NUM of a state record the manual does not say (DESIGN CHOICE, log entry 143). -/
def takeGroup (tabs : List FormatTable) (r : RowState) (ks : List Key) : RowState :=
  let mg := groupMax r.m ks
  let k : Nat := match r.m, mg with
    | some m, some n => (n - m).toNat
    | _, _ => 0
  let r1 : RowState :=
    { r with m := mg, nan := r.nan || ks.any (fun k => k.score == Score.nan), den := Lane.asr r.den k,
             num := r.num.map (fun l => Lane.asr l k) }
  match mg with
  | none => r1
  | some m => ks.foldl (fun r k => match k.score with | .score s => enterKey tabs m r s k.v | _ => r) r1

/-- The groups of 16 keys in order, `fuel` at most. -/
def takeGroups (tabs : List FormatTable) : Nat → RowState → List Key → RowState
  | 0, r, _ => r
  | n + 1, r, ks => if ks.isEmpty then r else takeGroups tabs n (takeGroup tabs r (ks.take 16)) (ks.drop 16)

/-! ## Reading -/

/-- Whether any word that the `n` bytes at `off` touch is poisoned. -/
def Plane.anyBad (pl : Plane) (off n : Nat) : Bool :=
  (List.range (n / 64 + 2)).any (fun i => off / 64 * 64 + 64 * i < off + n && pl.bad (off / 64 * 64 + 64 * i))

/-- The state record of a row: the row's state and the error (R193, R197). DESIGN CHOICE, log entry 58. -/
def readState (pl : Plane) (d off : Nat) : RowState × Nat :=
  let q := pl.from off
  let bs := q.bytes (stateBytes d)
  let m := signedOf 32 (fieldAt bs 0 4)
  let keys := fieldAt bs 4 4
  let okRec := fun at_ => recordOk (slice bs at_ 96)
  let ok := fieldAt bs 8 1 < 2 && zeroAt bs 9 55 && keys % 16 == 0 && -32769 ≤ m && m ≤ 32767 && okRec 64 &&
    (List.range d).all (fun i => okRec (160 + 96 * i))
  let bad := pl.anyBad off (stateBytes d)
  ({ m := if m = -32769 then none else some m, keys := keys, nan := bitOf (fieldAt bs 8 1) 0 || !ok || bad,
     den := laneOfRecord (slice bs 64 96), num := (List.range d).map (fun i => laneOfRecord (slice bs (160 + 96 * i) 96)) },
   if bad then 2 else if ok then 0 else 1)

/-- The bytes of a state record (R193). -/
def writeState (r : RowState) (keys : Nat) : Bytes :=
  leBytes 4 (twosNat 32 (r.m.getD (-32769))) ++ leBytes 4 keys ++ leBytes 1 (bit r.nan) ++ zeros 55 ++ r.den.record ++
    r.num.flatMap Lane.record

/-- Element `i` of a half record at byte `off`: poisoned words are judged apart. -/
def halfElem (pl : Plane) (fmt d off i : Nat) : Num :=
  let q := pl.from off
  readElem q.rd (fun b => q.rd (d * fmtBits fmt / 8 + b)) [] fmt i

/-- Poisoned lanes of a value half at byte `off` (R487): those whose element or block scale lies in a poisoned word, and
every lane when a poisoned word holds only zero bytes of the half. -/
def laneBad (pl : Plane) (fmt d off : Nat) : List Bool :=
  let w := fmtBits fmt
  let data := d * w / 8
  let used := data + (if isBlock fmt then d / 32 else 0)
  let word := fun byte => (off + byte) / 64
  let onlyZero := (List.range (halfBytes fmt d)).any (fun b => pl.bad (off + b) && used ≤ b && word b != word (used - 1))
  (List.range d).map (fun i =>
    onlyZero || pl.bad (off + i * w / 8) || pl.bad (off + (i * w + w - 1) / 8) || (isBlock fmt && pl.bad (off + data + i / 32)))

/-- The token record of key `j` of a command: its byte offset from KV_REF (R186). -/
def tokenAt (a : AttnArgs) (j : Nat) : Nat := j / a.tpp * 65536 + j % a.tpp * (2 * halfBytes a.kvFmt a.d)

/-- The dot product of a query row and a key (R188). -/
def dotLane (qs ks : List Num) : Lane := (qs.zip ks).foldl (fun l p => l.mulAdd p.1 p.2) Lane.start

/-- Key `j` as row `n` sees it (R188, R194, R487). -/
def keyFor (a : AttnArgs) (kv : Plane) (vlen qpos0 : Nat) (qs : List Num) (base n j : Nat) : Key :=
  let off := tokenAt a j
  let hr := halfBytes a.kvFmt a.d
  let k := base + j
  if (a.lenMask && vlen ≤ k) || (a.causal && qpos0 + n / a.g < k) then { score := .masked, v := [] }
  else
    let v := ((List.range a.d).map (halfElem kv a.kvFmt a.d (off + hr))).zip (laneBad kv a.kvFmt a.d (off + hr))
    { score := if kv.anyBad off hr then .nan
               else scoreOf (dotLane qs ((List.range a.d).map (halfElem kv a.kvFmt a.d off))) a.scale
      v := v.map (fun e => if e.2 then .nan else e.1) }

/-- Row `n` of a command after its keys. -/
def attnRow (tabs : List FormatTable) (a : AttnArgs) (qp kv ap : Plane) (n : Nat) : RowState :=
  let r := if a.stateIn then (readState ap a.d (64 + n * stateBytes a.d)).1 else RowState.start a.d
  let qs := (List.range a.d).map (fun i => elemNum [] a.qFmt (elemRaw qp.rd a.qFmt (n * a.d + i)))
  let w := fmtBits a.qFmt / 8
  let keys := (List.range a.nk).map (keyFor a kv (leNat (ap.bytes 4)) (leNat ((ap.from 4).bytes 4)) qs r.keys n)
  let r := { r with nan := r.nan || ap.bad 0 || qp.anyBad (n * a.d * w) (a.d * w) }
  takeGroups tabs (a.nk / 16 + 1) r keys

/-! ## Writing -/

/-- What lane `l` of a finished row writes; none where the manual states no quotient: den 0, which a table of the image's own can make, and a
den loaded from a state record whose flags make it NaN or an infinity (DESIGN CHOICE, log entry 15). -/
def finishLane (r : RowState) (l : Lane) : Option OutVal :=
  if r.nan then some .nan
  else match l.value with
    | .nan => some .nan
    | .inf s => some (.inf s)
    | .num _ _ _ =>
      match r.m with
      | none => some (.num false 0 1)
      | some _ =>
        match r.den.value with
        | .num t n _ => if n = 0 then none else some (.num ((l.acc < 0) != t) l.acc.natAbs n)
        | _ => none

/-- The code of lane `l` of a finished row; where no quotient is stated, a free value of the lane and of den. DESIGN CHOICE, log entry 15. -/
def finishCode (w : Wdesc) (r : RowState) (l : Lane) : Nat :=
  match finishLane r l with
  | some o => writeScalar w 0 o
  | none => (Config.freeWord [w.fmt, leNat l.record, leNat r.den.record]).toNat % 2 ^ fmtBits w.fmt

/-- The codes of the finished rows in order. DESIGN CHOICE, log entry 15. -/
def finishCodes (w : Wdesc) (rows : List RowState) : List Nat := rows.flatMap (fun r => r.num.map (finishCode w r))

/-- What ATTN writes: the finished rows' codes, else their state records with the counts of keys advanced by NKEY (R189, R193). -/
def attnOut (a : AttnArgs) (rs : List RowState) : Bytes :=
  if a.finish then packPlane a.w.fmt (finishCodes a.w rs) else rs.flatMap (fun r => writeState r ((r.keys + a.nk) % 2 ^ 32))

/-- The error of ATTN: 0x02 for a poisoned word, 0x01 for a state record that is none (R197). -/
def attnErr (a : AttnArgs) (qp kv ap : Plane) : Nat :=
  if ap.bad 0 || qp.anyBad 0 (planeBytes a.qFmt (a.npos * a.g * a.d)) ||
      (List.range a.nk).any (fun j => kv.anyBad (tokenAt a j) (2 * halfBytes a.kvFmt a.d)) ||
      (a.stateIn && ap.anyBad 64 (a.npos * a.g * stateBytes a.d)) then 2
  else if a.stateIn && (List.range (a.npos * a.g)).any (fun n => (readState ap a.d (64 + n * stateBytes a.d)).2 == 1) then 1
  else 0

/-- Bytes of the KV pages, of the auxiliary block, and of the result. -/
def AttnArgs.kvBytes (a : AttnArgs) : Nat := ceilDiv a.nk a.tpp * 65536
def AttnArgs.auxBytes (a : AttnArgs) : Nat := 64 + (if a.stateIn then a.npos * a.g * stateBytes a.d else 0)
def AttnArgs.qBytes (a : AttnArgs) : Nat := planeBytes a.qFmt (a.npos * a.g * a.d)
def AttnArgs.outBytes (a : AttnArgs) : Nat := if a.finish then planeBytes a.w.fmt (a.npos * a.g * a.d) else a.npos * a.g * stateBytes a.d

/-- The bit errors that the reads of the token records meet: the records of keys 0 to NKEY − 1 alone (R186). -/
def meetKeys (s : State) (a : AttnArgs) (b : Fin 288) : State :=
  (List.range a.nk).foldl (fun s j => meetBank s (bankAddr b (a.kv.off + tokenAt a j)) (2 * halfBytes a.kvFmt a.d)) s

def attnSteps (d : Due) (s : State) : Engine EngineOut := do
  let a := attnArgs d.record
  let kb ← coreBank s d a.kv.bank a.kvBytes a.kv.off
  let ab ← coreBank s d a.aux.bank a.auxBytes a.aux.off
  sinkReady s d a.o a.outBytes
  gatherReads s d [(a.q, a.qBytes)]
  let (qp, s1) ← fetch (meetBank (meetKeys s a kb) (bankAddr ab a.aux.off) a.auxBytes) d a.q a.qBytes
  let kv := bankPlane s kb a.kv.off
  let ap := bankPlane s ab a.aux.off
  let rs := (List.range (a.npos * a.g)).map (attnRow (s.part d.p).tables a qp kv ap)
  return .done (storeResult s1 d a.o 0 (attnOut a rs)) (attnBeats a) (attnErr a qp kv ap)

/-- ATTN (07 R185–R197, R487). -/
def execAttn (p : PartId) (q : Nat) (s : State) : Result :=
  runEngine s p q 2 0x0200 (fun d => handoverAt d.record 53 (d.desc.inst / 8)) (fun d s => (attnSteps d s).out)

end Sys2Proof.Machine
end

