-- ==== Sys2Proof/Machine/Crypto.lean ====
section
/-! DEFINITION. The published algorithms that the manual names: SHA-384 (FIPS 180-4), HMAC and HKDF (RFC 2104, RFC 5869),
AES-256 (FIPS 197), GCM and GMAC (SP 800-38D), XTS (IEEE 1619), ECDSA and ECDH on brainpoolP384r1 (RFC 5639), as 05 R146,
10 R278, 12 R326–R329 and 15 use them. -/

namespace Sys2Proof.Machine

/-! ## SHA-384 -/

/-- The 80 round constants of SHA-512, 64 bits each, the first lowest. -/
def shaConst : Nat :=
  0x6C44198C4A4758175FCB6FAB3AD6FAEC597F299CFC657E2A4CC5D4BECB3E42B6431D67C49C100D4C3C9EBE0A15C9BEBC32CAAB7B40C7249328DB77F523047D841B710B35131C471B113F9804BEF90DAE0A637DC5A2C898A606F067AA72176FBAF57D4F7FEE6ED178EADA7DD6CDE0EB1ED186B8C721C0C207CA273ECEEA26619CC67178F2E372532BBEF9A3F7B2C67915A4506CEBDE82BDE990BEFFFA23631E288CC702081A6439EC84C87814A1F0AB7278A5636F43172F60748F82EE5DEFB2FC682E6FF3D6B2B8A35B9CCA4F7763E3734ED8AA4AE3418ACB391C0CB3C5C95A6334B0BCB5E19B48A82748774CDF8EEB991E376C085141AB5319A4C116B8D2D0C8106AA07032BBD1B8F40E35855771202AD69906245565A910D192E819D6EF5218C76C51A30654BE30C24B8B70D0F89791A81A664BBC423001A2BFE8A14CF1036492722C851482353B81C2C92E47EDAEE6766A0ABB3C77B2A8650A73548BAF63DE53380D139D95B3DF4D2C6DFC5AC42AED2E1B21385C26C92627B70A8546D22FFC142929670A0E6E7006CA6351E003826FD5A79147930AA725C6E00BF33DA88FC2BF597FC7BEEF0EE4B00327C898FB213FA831C66D2DB43210983E5152EE66DFAB76F988DA831153B55CB0A9DCBD41FBD44A7484AA6EA6E4832DE92C6F592B0275240CA1CC77AC9C650FC19DC68B8CD5B5EFBE4786384F25E3E49B69C19EF14AD2C19BF174CF6926949BDC06A725C7123580DEB1FE3B1696B172BE5D74F27B896F550C7DC3D5FFB4E2243185BE4EE4B28C12835B0145706FBED807AA98A3030242AB1C5ED5DA6D8118923F82A4AF194F9B59F111F1B605D0193956C25BF348B538E9B5DBA58189DBBCB5C0FBCFEC4D3B2F7137449123EF65CD428A2F98D728AE22

/-- The initial value of SHA-384, 64 bits each, the first lowest. -/
def shaInit : Nat :=
  0x47B5481DBEFA4FA4DB0C2E0D64F98FA78EB44A876858151167332667FFC00B31152FECD8F70E59399159015A3070DD17629A292A367CD507CBBB9D5DC1059ED8

/-- Rotate a 64-bit word right. -/
def rotr64 (x n : Nat) : Nat := x / 2 ^ n + x % 2 ^ n * 2 ^ (64 - n)

def shaSmall0 (x : Nat) : Nat := Nat.xor (Nat.xor (rotr64 x 1) (rotr64 x 8)) (x / 2 ^ 7)
def shaSmall1 (x : Nat) : Nat := Nat.xor (Nat.xor (rotr64 x 19) (rotr64 x 61)) (x / 2 ^ 6)
def shaBig0 (x : Nat) : Nat := Nat.xor (Nat.xor (rotr64 x 28) (rotr64 x 34)) (rotr64 x 39)
def shaBig1 (x : Nat) : Nat := Nat.xor (Nat.xor (rotr64 x 14) (rotr64 x 18)) (rotr64 x 41)

/-- The message schedule, newest word first: `n` more words after the 16 of the block. -/
def shaSchedule : Nat → List Nat → List Nat
  | 0, w => w
  | n + 1, w =>
    shaSchedule n ((shaSmall1 (w.getD 1 0) + w.getD 6 0 + shaSmall0 (w.getD 14 0) + w.getD 15 0) % 2 ^ 64 :: w)

/-- The eight working words. -/
structure Sha where
  a : Nat
  b : Nat
  c : Nat
  d : Nat
  e : Nat
  f : Nat
  g : Nat
  h : Nat
  deriving DecidableEq, Repr

/-- One round with schedule word `w` and constant `k`. -/
def shaRound (s : Sha) (w k : Nat) : Sha :=
  let t1 := s.h + shaBig1 s.e + Nat.xor (Nat.land s.e s.f) (Nat.land (2 ^ 64 - 1 - s.e) s.g) + k + w
  let t2 := shaBig0 s.a + Nat.xor (Nat.xor (Nat.land s.a s.b) (Nat.land s.a s.c)) (Nat.land s.b s.c)
  { a := (t1 + t2) % 2 ^ 64, b := s.a, c := s.b, d := s.c, e := (s.d + t1) % 2 ^ 64, f := s.e, g := s.f, h := s.g }

/-- One block of 16 words. -/
def shaBlock (s : Sha) (ws : List Nat) : Sha :=
  let w := (shaSchedule 64 ws.reverse).reverse
  let r := (w.zip (List.range 80)).foldl (fun t a => shaRound t a.1 (shaConst / 2 ^ (64 * a.2) % 2 ^ 64)) s
  { a := (s.a + r.a) % 2 ^ 64, b := (s.b + r.b) % 2 ^ 64, c := (s.c + r.c) % 2 ^ 64, d := (s.d + r.d) % 2 ^ 64,
    e := (s.e + r.e) % 2 ^ 64, f := (s.f + r.f) % 2 ^ 64, g := (s.g + r.g) % 2 ^ 64, h := (s.h + r.h) % 2 ^ 64 }

/-- The message with its padding. -/
def shaPad (bs : Bytes) : Bytes :=
  bs ++ [0x80] ++ zeros ((128 - (bs.length + 17) % 128) % 128) ++ beBytes 16 (8 * bs.length)

/-- `n` big-endian words of 64 bits. -/
def shaWords : Nat → Bytes → List Nat
  | 0, _ => []
  | n + 1, bs => beNat (bs.take 8) :: shaWords n (bs.drop 8)

/-- `n` blocks of a padded message. -/
def shaBlocks : Nat → Sha → Bytes → Sha
  | 0, s, _ => s
  | n + 1, s, bs => shaBlocks n (shaBlock s (shaWords 16 bs)) (bs.drop 128)

/-- The 48 bytes of SHA-384. -/
def sha384 (bs : Bytes) : Bytes :=
  let p := shaPad bs
  let i := fun k => shaInit / 2 ^ (64 * k) % 2 ^ 64
  let r := shaBlocks (p.length / 128) { a := i 0, b := i 1, c := i 2, d := i 3, e := i 4, f := i 5, g := i 6, h := i 7 } p
  [r.a, r.b, r.c, r.d, r.e, r.f].flatMap (beBytes 8)

/-- HMAC-SHA-384; keys of the manual are at most one block long. -/
def hmac384 (key msg : Bytes) : Bytes :=
  let k := padTo 128 (if 128 < key.length then sha384 key else key)
  sha384 (k.map (fun b => b ^^^ 0x5C) ++ sha384 (k.map (fun b => b ^^^ 0x36) ++ msg))

/-- HKDF expand: `n` blocks. -/
def hkdfBlocks (prk info : Bytes) : Nat → Nat → Bytes → Bytes
  | 0, _, _ => []
  | n + 1, i, prev =>
    let t := hmac384 prk (prev ++ info ++ leBytes 1 i)
    t ++ hkdfBlocks prk info n (i + 1) t

/-- HKDF-SHA-384 of `len` bytes. -/
def hkdf384 (ikm salt info : Bytes) (len : Nat) : Bytes :=
  (hkdfBlocks (hmac384 salt ikm) info (ceilDiv len 48) 1 []).take len

/-! ## AES-256 -/

/-- The S-box, entry i in byte i. -/
def aesSbox : Nat :=
  0x16BB54B00F2D99416842E6BF0D89A18CDF2855CEE9871E9B948ED9691198F8E19E1DC186B95735610EF6034866B53E708A8BBD4B1F74DDE8C6B4A61C2E2578BA08AE7A65EAF4566CA94ED58D6D37C8E779E4959162ACD3C25C2406490A3A32E0DB0B5EDE14B8EE4688902A22DC4F816073195D643D7EA7C41744975FEC130CCDD2F3FF1021DAB6BCF5389D928F40A351A89F3C507F02F94585334D43FBAAEFD0CF584C4A39BECB6A5BB1FC20ED00D153842FE329B3D63B52A05A6E1B1A2C830975B227EBE28012079A059618C323C7041531D871F1E5A534CCF73F362693FDB7C072A49CAFA2D4ADF04759FA7DC982CA76ABD7FE2B670130C56F6BF27B777C63

def subByte (b : Nat) : Nat := aesSbox / 2 ^ (8 * b) % 256

/-- Multiplication by x in GF(2^8). -/
def xtime (b : Nat) : Nat := if b < 128 then 2 * b else Nat.xor (2 * b - 256) 0x1B

/-- XOR of two lists of bytes. -/
def xorList (a b : List Nat) : List Nat := (a.zip b).map (fun p => Nat.xor p.1 p.2)

/-- The key words of AES-256, newest first, `n` more. -/
def aesExpand : Nat → Nat → Nat → List (List Nat) → List (List Nat)
  | 0, _, _, w => w
  | n + 1, i, rc, w =>
    let t := w.getD 0 []
    let t := if i % 8 = 0 then xorList ((t.drop 1 ++ t.take 1).map subByte) [rc, 0, 0, 0]
             else if i % 8 = 4 then t.map subByte else t
    aesExpand n (i + 1) (if i % 8 = 0 then xtime rc else rc) (xorList (w.getD 7 []) t :: w)

/-- The 15 round keys, 16 bytes each. -/
def aesKeys (key : Bytes) : List (List Nat) :=
  let k := (padTo 32 key).map BitVec.toNat
  let w := (aesExpand 52 8 1 ((List.range 8).map (fun i => (k.drop (4 * i)).take 4)).reverse).reverse
  (List.range 15).map (fun r => ((w.drop (4 * r)).take 4).flatten)

/-- ShiftRows of a state held column by column. -/
def shiftRows (s : List Nat) : List Nat := (List.range 16).map (fun i => s.getD ((i + 4 * (i % 4)) % 16) 0)

/-- MixColumns of one column. -/
def mixColumn (a b c d : Nat) : List Nat :=
  let t := Nat.xor (Nat.xor a b) (Nat.xor c d)
  [Nat.xor a (Nat.xor t (xtime (Nat.xor a b))), Nat.xor b (Nat.xor t (xtime (Nat.xor b c))),
   Nat.xor c (Nat.xor t (xtime (Nat.xor c d))), Nat.xor d (Nat.xor t (xtime (Nat.xor d a)))]

def mixColumns (s : List Nat) : List Nat :=
  (List.range 4).flatMap (fun c => mixColumn (s.getD (4 * c) 0) (s.getD (4 * c + 1) 0) (s.getD (4 * c + 2) 0) (s.getD (4 * c + 3) 0))

/-- AES-256 of one block. -/
def aesBlock (key blk : Bytes) : Bytes :=
  let ks := aesKeys key
  let s := xorList ((padTo 16 blk).map BitVec.toNat) (ks.getD 0 [])
  let s := (List.range 13).foldl (fun s r => xorList (mixColumns (shiftRows (s.map subByte))) (ks.getD (r + 1) [])) s
  (xorList (shiftRows (s.map subByte)) (ks.getD 14 [])).map (BitVec.ofNat 8)

/-- XOR of byte strings. -/
def xorBytes (a b : Bytes) : Bytes := (a.zip b).map (fun p => p.1 ^^^ p.2)

/-! ## GCM -/

/-- One bit of the GHASH product: `z` the sum, `v` the shifted factor, bit `i` of `x` (bit 0 most significant). -/
def ghashBit (x : Nat) (zv : Nat × Nat) (i : Nat) : Nat × Nat :=
  (if x / 2 ^ (127 - i) % 2 = 1 then Nat.xor zv.1 zv.2 else zv.1,
   if zv.2 % 2 = 1 then Nat.xor (zv.2 / 2) (0xE1 * 2 ^ 120) else zv.2 / 2)

/-- The product in GCM's field. -/
def ghashMul (x y : Nat) : Nat := ((List.range 128).foldl (ghashBit x) (0, y)).1

/-- GHASH of a byte string whose length is a multiple of 16. -/
def ghash (h : Nat) (bs : Bytes) : Nat :=
  (List.range (bs.length / 16)).foldl (fun y i => ghashMul (Nat.xor y (beNat (slice bs (16 * i) 16))) h) 0

/-- Zero bytes up to a multiple of 16. -/
def pad16 (bs : Bytes) : Bytes := padTo (16 * ceilDiv bs.length 16) bs

/-- The counter-mode stream over `bs` from counter block `c`, with a 12-byte IV. -/
def gcmStream (key iv bs : Bytes) : Bytes :=
  (List.range (ceilDiv bs.length 16)).flatMap (fun i =>
    xorBytes (slice bs (16 * i) 16) (aesBlock key (iv ++ beBytes 4 (i + 2))))

/-- The tag of AES-256-GCM over additional data and ciphertext. -/
def gcmTag (key iv aad ct : Bytes) : Bytes :=
  let h := beNat (aesBlock key (zeros 16))
  let s := ghash h (pad16 aad ++ pad16 ct ++ beBytes 8 (8 * aad.length) ++ beBytes 8 (8 * ct.length))
  xorBytes (beBytes 16 s) (aesBlock key (iv ++ beBytes 4 1))

/-- AES-256-GCM: ciphertext and tag. -/
def gcmSeal (key iv aad pt : Bytes) : Bytes × Bytes := (gcmStream key iv pt, gcmTag key iv aad (gcmStream key iv pt))

/-- Open a GCM message. -/
def gcmOpen (key iv aad ct tag : Bytes) : Option Bytes :=
  if gcmTag key iv aad ct = tag then some (gcmStream key iv ct) else none

/-- AES-256-GMAC: GCM with an empty plaintext. -/
def gmac (key iv aad : Bytes) : Bytes := gcmTag key iv aad []

/-! ## XTS (05 R146) -/

/-- Multiplication of a tweak by x, least significant byte first. -/
def xtsNext (t : Nat) : Nat := if t < 2 ^ 127 then 2 * t else Nat.xor (2 * t - 2 ^ 128) 0x87

/-- XTS-AES-256 of whole blocks from tweak value `t`. -/
def xtsBlocks (dataKey : Bytes) : Nat → Nat → Bytes → Bytes
  | 0, _, _ => []
  | n + 1, t, bs =>
    xorBytes (aesBlock dataKey (xorBytes (bs.take 16) (leBytes 16 t))) (leBytes 16 t) ++ xtsBlocks dataKey n (xtsNext t) (bs.drop 16)

/-- The ciphertext of a 64-byte unit: unit index in tweak bits [29:0], stack number in [34:32]; the key is the data key
followed by the tweak key (R146). -/
def xtsUnit (key : Bytes) (stack unitNo : Nat) (pt : Bytes) : Bytes :=
  xtsBlocks (key.take 32) 4 (leNat (aesBlock (key.drop 32) (leBytes 16 (unitNo % 2 ^ 30 + stack * 2 ^ 32)))) pt

/-! ## brainpoolP384r1 -/

def ecP : Nat := 0x8CB91E82A3386D280F5D6F7E50E641DF152F7109ED5456B412B1DA197FB71123ACD3A729901D1A71874700133107EC53
def ecA : Nat := 0x7BC382C63D8C150C3C72080ACE05AFA0C2BEA28E4FB22787139165EFBA91F90F8AA5814A503AD4EB04A8C7DD22CE2826
def ecB : Nat := 0x04A8C7DD22CE28268B39B55416F0447C2FB77DE107DCD2A62E880EA53EEB62D57CB4390295DBC9943AB78696FA504C11
def ecN : Nat := 0x8CB91E82A3386D280F5D6F7E50E641DF152F7109ED5456B31F166E6CAC0425A7CF3AB6AF6B7FC3103B883202E9046565
def ecG : Nat × Nat :=
  (0x1D1C64F068CF45FFA2A63A81B7C13F6B8847A3E77EF14FE3DB7FCAFE0CBD10E8E826E03436D646AAEF87B2E247D4AF1E,
   0x8ABE1D7520F9C2A45CB1EB8E95CFD55262B70B29FEEC5864E19C054FF99129280E4646217791811142820341263C5315)

/-- A power modulo `m`: `bits` bits of the exponent. -/
def powMod (m : Nat) : Nat → Nat → Nat → Nat
  | 0, _, _ => 1 % m
  | bits + 1, b, e => powMod m bits (b * b % m) (e / 2) * (if e % 2 = 1 then b else 1) % m

/-- The inverse modulo a prime of at most 384 bits. -/
def invMod (m a : Nat) : Nat := powMod m 384 (a % m) (m - 2)

/-- A point: none is the point at infinity. -/
abbrev Point := Option (Nat × Nat)

/-- A point in projective coordinates: (x / z², y / z³), and the point at infinity when z is 0. They need one inverse for a whole product. -/
structure Proj where
  x : Nat
  y : Nat
  z : Nat
  deriving DecidableEq, Repr

/-- The point at infinity. -/
def Proj.inf : Proj := { x := 1, y := 1, z := 0 }

def Proj.of (p : Point) : Proj := match p with | some a => { x := a.1, y := a.2, z := 1 } | none => Proj.inf

def Proj.point (p : Proj) : Point :=
  if p.z = 0 then none
  else
    let i := invMod ecP p.z
    some (p.x * (i * i % ecP) % ecP, p.y * (i * i % ecP * i % ecP) % ecP)

/-- Twice a point: the tangent. -/
def ecDouble (p : Proj) : Proj :=
  let yy := p.y * p.y % ecP
  let s := 4 * p.x * yy % ecP
  let zz := p.z * p.z % ecP
  let m := (3 * p.x * p.x + ecA * (zz * zz % ecP)) % ecP
  let x := (m * m + 2 * (ecP - s)) % ecP
  { x := x, y := (m * (s + ecP - x) + 8 * (ecP - yy * yy % ecP)) % ecP, z := 2 * p.y * p.z % ecP }

/-- Addition of points: the chord, the tangent for equal points, infinity for opposite ones. -/
def ecAdd (p q : Proj) : Proj :=
  if p.z = 0 then q else if q.z = 0 then p else
  let a := p.z * p.z % ecP
  let b := q.z * q.z % ecP
  let u := p.x * b % ecP
  let v := q.x * a % ecP
  let s := p.y * (b * q.z % ecP) % ecP
  let t := q.y * (a * p.z % ecP) % ecP
  if u = v then (if s = t then ecDouble p else Proj.inf) else
  let h := (v + ecP - u) % ecP
  let r := (t + ecP - s) % ecP
  let hh := h * h % ecP
  let hhh := hh * h % ecP
  let w := u * hh % ecP
  let x := (r * r + (ecP - hhh) + 2 * (ecP - w)) % ecP
  { x := x, y := (r * (w + ecP - x) + s * (ecP - hhh)) % ecP, z := h * (p.z * q.z % ecP) % ecP }

/-- `k` times a point: `bits` bits of `k`. -/
def ecMul : Nat → Nat → Proj → Proj
  | 0, _, _ => Proj.inf
  | bits + 1, k, p => ecAdd (if k % 2 = 1 then p else Proj.inf) (ecMul bits (k / 2) (ecDouble p))

/-- `k` times a point of the curve, for `k` of at most 384 bits. -/
def ecTimes (k : Nat) (p : Point) : Proj := ecMul 384 k (Proj.of p)

/-- Whether coordinates lie on the curve. -/
def onCurve (p : Nat × Nat) : Bool :=
  p.1 < ecP && p.2 < ecP && p.2 * p.2 % ecP == (p.1 * p.1 % ecP * p.1 + ecA * p.1 + ecB) % ecP

/-- The uncompressed form of a point: 0x04, X, Y, big-endian (15, SEC 1). -/
def pointBytes (p : Point) : Bytes :=
  match p with
  | some a => 4 :: (beBytes 48 a.1 ++ beBytes 48 a.2)
  | none => zeros 97

/-- The point of 97 bytes, when it is one of the curve. -/
def pointOf (bs : Bytes) : Point :=
  let a := (beNat (slice bs 1 48), beNat (slice bs 49 48))
  if bs.length = 97 && fieldAt bs 0 1 = 4 && onCurve a then some a else none

/-- A private key in 1 to n − 1 from random bits. -/
def privKey (bits : Nat) : Nat := bits % (ecN - 1) + 1

/-- The public key of a private key. -/
def pubKey (d : Nat) : Bytes := pointBytes (ecTimes d (some ecG)).point

/-- The shared x-coordinate of ECDH, 48 bytes. -/
def ecdh (d : Nat) (p : Point) : Bytes :=
  match (ecTimes d p).point with
  | some a => beBytes 48 a.1
  | none => zeros 48

/-- An ECDSA signature over SHA-384 with nonce `k`: r then s, 96 bytes. -/
def ecdsaSign (d k : Nat) (msg : Bytes) : Bytes :=
  let z := beNat (sha384 msg)
  let r := (match (ecTimes k (some ecG)).point with | some a => a.1 | none => 0) % ecN
  beBytes 48 r ++ beBytes 48 (invMod ecN k * (z + r * d) % ecN)

/-- Whether a 96-byte signature verifies under a 97-byte public key. -/
def ecdsaVerify (key msg sig : Bytes) : Bool :=
  let r := beNat (sig.take 48)
  let s := beNat (sig.drop 48)
  let z := beNat (sha384 msg)
  match pointOf key with
  | none => false
  | some q =>
    if r = 0 || s = 0 || ecN ≤ r || ecN ≤ s || sig.length != 96 then false
    else
      let w := invMod ecN s
      match (ecAdd (ecTimes (z * w % ecN) (some ecG)) (ecTimes (r * w % ecN) (some q))).point with
      | some a => a.1 % ecN == r
      | none => false

end Sys2Proof.Machine
end

