-- ==== Sys2Proof/Machine/Messages.lean ====
section
/-! DEFINITION. Messages of the mailboxes and what both I3C ports share (11 R287–R311): headers, responses, sessions,
leases, orphan mode. -/

namespace Sys2Proof.Machine

/-! ## Message types (11 R300 and the order tables of 12 to 16, 19) -/

/-- Session messages and queries. -/
def isSession (typ : Nat) : Bool := typ == 0x01 || typ == 0x02 || typ == 0x03
def isQuery (typ : Nat) : Bool := [0x08, 0x09, 0x10, 0x11, 0x12].contains typ

/-- Firmware-load messages, which travel in the bulk mailbox (11 R295, R300). -/
def isFirmware (typ : Nat) : Bool := 0x50 ≤ typ && typ ≤ 0x54

/-- Orders. -/
def isOrder (typ : Nat) : Bool :=
  (0x20 ≤ typ && typ ≤ 0x29) || (0x30 ≤ typ && typ ≤ 0x34) || (0x38 ≤ typ && typ ≤ 0x3B) || (0x40 ≤ typ && typ ≤ 0x43) ||
  isFirmware typ || typ == 0x60 || typ == 0x61 || (0x68 ≤ typ && typ ≤ 0x6D)

def isKnown (typ : Nat) : Bool := isSession typ || isQuery typ || isOrder typ

/-- Body bytes named by the header (11 R295). -/
def rawLength (raw : Bytes) : Nat := fieldAt raw 2 2 % 8192

/-- The message that a mailbox's words spell (11 R295). -/
def parseMsg (raw : Bytes) : Msg :=
  { typ := fieldAt raw 0 1, seq := fieldAt raw 1 1, issuer := fieldAt raw 4 4, issued := fieldAt raw 8 8,
    body := slice raw 16 (rawLength raw) }

/-- An unsigned field of a message's body; bytes past its end read as 0. -/
def Msg.field (m : Msg) (off n : Nat) : Nat := fieldAt m.body off n

/-- A field of the body of a taken message. -/
def Taken.field (t : Taken) (off n : Nat) : Nat := t.msg.field off n

/-- The partition that a body names in byte `off`. -/
def Taken.part (t : Taken) (off : Nat) : PartId := ⟨t.field off 1 % 8, by omega⟩

/-! ## Module state codes -/

/-- STATE of ID_STATE (11 R312). -/
def ModState.code : ModState → Nat
  | .off => 0 | .boot => 1 | .hold => 2 | .ready => 3 | .run => 4 | .drain => 5 | .quench => 6

/-- Local source number of an I3C port (01 R38). -/
def srcI3c (x : I3cId) : Nat := 0x90 + x.val

/-! ## Sessions and leases (11 R306–R311) -/

/-- The module time at which a port's lease runs out (R307). -/
def leaseEnd (s : State) (x : I3cId) : Ns := (s.port x).session.renewed + sec (s.port x).session.expiry

/-- A port holds a live session: a message at or after the lease's end finds none (R307). -/
def sessionLive (s : State) (x : I3cId) : Bool := (s.port x).session.live && s.stamp < leaseEnd s x

/-- Lease left, in ms. -/
def leaseLeft (s : State) (x : I3cId) : Nat := (leaseEnd s x - s.stamp) / 1000000

/-- Orphan mode (R310). -/
def orphan (s : State) : Bool :=
  !sessionLive s 0 && !sessionLive s 1 && (s.power.state == .ready || s.power.state == .run || s.power.state == .drain)

/-- End a port's session: kind 0 clean, 1 expired, 2 replaced, 3 restart (R306, R307, R311; 19 R476). -/
def endSession (s : State) (x : I3cId) (kind : Nat) : State :=
  let n := (s.port x).session.number
  let s := s.modPort x (fun q => { q with session := { q.session with live := false, clean := kind == 0 } })
  let s := if kind = 1 then s.event (srcI3c x) 0x0901 0xFF (leBytes 4 n) else s
  s.event (srcI3c x) 0x0902 0xFF (leBytes 1 kind ++ zeros 3 ++ leBytes 4 n)

/-- End a session whose lease has run out. -/
def expireSession (s : State) (x : I3cId) : State :=
  if (s.port x).session.live && leaseEnd s x ≤ s.stamp then endSession s x 1 else s

/-! ## Responses (11 R295–R298) -/

/-- The bytes of a response. -/
def responseBytes (s : State) (x : I3cId) (m : Msg) (status : Nat) (tail : Bytes) : Bytes :=
  let body := leBytes 1 status ++ tail
  leBytes 1 m.typ ++ leBytes 1 m.seq ++ leBytes 2 (body.length + 8192) ++ leBytes 4 (s.source (srcI3c x)) ++
    leBytes 8 s.stamp ++ padTo (4 * ceilDiv body.length 4) body

/-- A response sent again, with REPEAT set (R298). -/
def asRepeat (r : Bytes) : Bytes := r.take 3 ++ ((r.drop 3).take 1).map (fun b => b ||| 0x40) ++ r.drop 4

/-- The response joins the latest message of a mailbox, when it answers that one. -/
def settle (l : Option LastTaken) (m : Msg) (r : Bytes) : Option LastTaken :=
  l.map (fun e => if parseMsg e.content = m then { e with response := some r } else e)

/-- Queue the response to a message taken (R297), and count an order's outcome (11, ORD registers).
DESIGN CHOICE, log entry 52. -/
def answer (s : State) (t : Taken) (status : Nat) (tail : Bytes) : State :=
  let q := s.port t.port
  let r := responseBytes s t.port t.msg status tail
  let l := settle (if t.bulk then q.lastBulk else q.lastCmd) t.msg r
  let mine := fun (e : Bool × Bytes) => e.1 == t.bulk && parseMsg e.2 == t.msg
  let n := (q.repeats.filter mine).length
  let s := s.setPort t.port
    { q with responses := q.responses ++ [r] ++ List.replicate n (asRepeat r), owed := q.owed - 1 - n, repeats := q.repeats.filter (fun e => !mine e)
             lastCmd := if t.bulk then q.lastCmd else l, lastBulk := if t.bulk then l else q.lastBulk }
  if isOrder t.msg.typ then
    s.modOrders (fun o =>
      if status = 0 then { o with accepted := o.accepted + 1, lastEff := t.eff }
      else if status = 2 then { o with superseded := o.superseded + 1 }
      else { o with refused := o.refused + 1 })
  else s

/-- Answer status 0x00 or another with nothing after it. DESIGN CHOICE, log entry 52. -/
def answerBare (s : State) (t : Taken) (status : Nat) : State := answer s t status []

/-- The oldest taken message that satisfies `f`, and the list without it. -/
def takeFirst (f : Taken → Bool) : List Taken → Option (Taken × List Taken)
  | [] => none
  | t :: ts => if f t then some (t, ts) else (takeFirst f ts).map (fun r => (r.1, t :: r.2))

/-- Take the oldest waiting session message, query or firmware message of a port and type, and go on with it.
DESIGN CHOICE, log entry 26. -/
def onTaken (s : State) (x : I3cId) (typ : Nat) (ok : Msg → Bool) (f : Taken → State → State) : Result :=
  match takeFirst (fun t => t.port == x && t.msg.typ == typ && ok t.msg) s.orders.taken with
  | some (t, rest) => .next (f t (s.modOrders (fun o => { o with taken := rest })))
  | none => .next s

/-- Take the oldest order of a type that has won its window, and go on with it (R302, R303). DESIGN CHOICE, log entry 26. -/
def onDue (s : State) (typ : Nat) (ok : Msg → Bool) (f : Taken → State → State) : Result :=
  match takeFirst (fun t => t.msg.typ == typ && ok t.msg) s.orders.due with
  | some (t, rest) => .next (f t (s.modOrders (fun o => { o with due := rest })))
  | none => .next s

end Sys2Proof.Machine
end

