-- ==== Sys2Proof/Machine/JobFrames.lean ====
section
/-! DEFINITION. Carloth frames (12 R319–R329): their bytes, the routes, the sealing of job frames and the queues from which
a port's turns send. -/

namespace Sys2Proof.Machine

/-- The 48 bytes of a frame header (R322). -/
def frameHeader (f : Frame) : Bytes :=
  leBytes 2 f.magic ++ leBytes 1 f.version ++ leBytes 1 f.typ ++ leBytes 2 f.dst ++ leBytes 2 f.src ++ leBytes 4 f.cabinet ++
  leBytes 4 f.job ++ leBytes 1 f.keyid ++ leBytes 1 f.fflags ++ leBytes 2 f.len ++ leBytes 4 f.msg ++
  leBytes 8 f.counter ++ leBytes 4 f.offset ++ leBytes 1 f.ring ++ f.spare

/-- The 8 bytes of an envelope's prefix (R317). -/
def prefixBytes (e : Envelope) : Bytes :=
  leBytes 2 e.lseq ++ leBytes 2 e.lack ++ leBytes 1 (bit e.frame.isSome + 2 * bit e.nak) ++ leBytes 1 e.credit.1 ++ leBytes 1 e.credit.2.1 ++ leBytes 1 e.credit.2.2

/-- The CRC-32C of an envelope: over its prefix and its frame (R317). -/
def envelopeCrc (e : Envelope) : Nat :=
  crc32c (prefixBytes e ++ (match e.frame with | some f => frameHeader f ++ f.payload ++ f.tag | none => []))

/-- Class of a frame by its TYPE (R319): control, job or store. -/
def frameClass (typ : Nat) : Nat := if typ < 0x10 then 0 else if typ < 0x20 then 1 else 2

/-- The known types (R322). -/
def frameKnown (typ : Nat) : Bool :=
  [0x01, 0x02, 0x03, 0x05, 0x10, 0x11, 0x12, 0x20, 0x21, 0x22, 0x23, 0x24].contains typ

/-- Buffer units of 256 bytes that a frame takes (R317). -/
def frameUnits (f : Frame) : Nat := ceilDiv (64 + f.payload.length) 256

/-- A frame of this module with a zero tag. -/
def newFrame (s : State) (typ dst job keyid msg offset ring : Nat) (payload : Bytes) : Frame :=
  { magic := 0x4C43, version := 1, typ := typ, dst := dst, src := s.place, cabinet := s.plan.cabinet, job := job, keyid := keyid,
    fflags := 2 * bit s.time.unsure, msg := msg, counter := 0, offset := offset, ring := ring, payload := payload, tag := zeros 16 }

/-- The route of a place (R323). -/
def routeOf (s : State) (place : Nat) : Route :=
  (assocGet place s.plan.routes).getD { port := 0, loc := false, valid := false, store := false, anyIn := false }

def routePort (r : Route) : PortId := ⟨r.port % 16, by omega⟩

/-- Count a discarded frame (R324, R342). -/
def discard (s : State) (n : PortId) : State := s.modLink n (fun l => { l with discards := satAdd 8 l.discards 1 })

/-- Queue a frame for the turns of its owner on a port; a port that is not UP discards it (R342). -/
def queueOn (s : State) (n : PortId) (owner : Option PartId) (f : Frame) : State :=
  if (s.link n).state = .up then
    s.modLink n (fun l => match owner with | some p => { l with jobs := l.jobs ++ [(p, f)] } | none => { l with house := l.house ++ [f] })
  else discard s n

/-- Send a frame by the route of its destination. -/
def sendFrame (s : State) (owner : Option PartId) (f : Frame) : State :=
  let r := routeOf s f.dst
  if r.valid then queueOn s (routePort r) owner f else s

/-- A member of a partition's job. -/
def memberOf (x : Part) (i : Nat) : Option Member := x.job.bind (fun j => assocGet i j.members)

/-- Change the keys shared with a member. -/
def modKeysOf (s : State) (p : PartId) (i : Nat) (f : PeerKeys → PeerKeys) : State :=
  s.modPart p (fun x => { x with job := x.job.map (fun j =>
    { j with members := j.members.map (fun m => if m.1 = i then (m.1, { m.2 with keys := f m.2.keys }) else m) }) })

/-- The GCM nonce of a job frame: the salt, then COUNTER (R328). -/
def jobNonce (salt : Bytes) (counter : Nat) : Bytes := salt ++ leBytes 8 counter

/-- A job frame under the keys of a member, with the member's next COUNTER (R328). -/
def sealFrame (s : State) (m : Member) (typ job msg offset ring : Nat) (last : Bool) (payload : Bytes) : Frame :=
  let f := newFrame s typ m.place job m.keys.keyid msg offset ring payload
  let f := { f with fflags := f.fflags + bit last, counter := m.keys.txCount }
  let c := gcmSeal m.keys.txKey (jobNonce m.keys.txSalt f.counter) (frameHeader f) payload
  { f with payload := c.1, tag := c.2 }

/-- A payload in whole multiples of 64 bytes (R322). DESIGN CHOICE, log entry 24. -/
def pad64 (bs : Bytes) : Bytes := padTo (64 * ceilDiv bs.length 64) bs

/-- Cut a payload into frames of at most 4,096 bytes with their offsets; an empty payload makes none. -/
def pieces : Nat → Nat → Bytes → List (Nat × Bytes)
  | 0, _, _ => []
  | n + 1, off, bs => if bs.isEmpty then [] else (off, bs.take 4096) :: pieces n (off + 4096) (bs.drop 4096)

/-- Send a message to a member in sealed frames in the partition's turns, LAST on the final one (R333);
without live keys nothing can be sealed and nothing is sent (R330). -/
def sendMessage (s : State) (p : PartId) (i typ ring msg : Nat) (payload : Bytes) : State :=
  let bs := padTo (64 * ceilDiv payload.length 64) payload
  let cut := pieces (bs.length / 4096 + 1) 0 bs
  cut.foldl (fun s c =>
    match memberOf (s.part p) i, (s.part p).job with
    | some m, some j =>
      if !m.keys.live then s else
      let f := sealFrame s m typ j.job msg c.1 ring (bs.length ≤ c.1 + 4096) c.2
      sendFrame (modKeysOf s p i (fun k => { k with txCount := k.txCount + 1 })) (some p) f
    | _, _ => s) s

/-- The 32 bytes of an arrival journal entry (01 R29). -/
def journalBytes (e : JEntry) : Bytes :=
  leBytes 8 e.seq ++ leBytes 8 e.arrived ++ leBytes 1 e.port ++ leBytes 1 e.vc ++ leBytes 1 e.dt ++ leBytes 1 e.flags ++
  leBytes 4 e.length ++ leBytes 4 e.pcrc.toNat ++ leBytes 2 e.frame ++ zeros 2

/-- The journal entry that 32 bytes spell. -/
def journalOf (bs : Bytes) : JEntry :=
  { seq := fieldAt bs 0 8, arrived := fieldAt bs 8 8, port := fieldAt bs 16 1, vc := fieldAt bs 17 1, dt := fieldAt bs 18 1,
    flags := fieldAt bs 19 1, length := fieldAt bs 20 4, pcrc := BitVec.ofNat 32 (fieldAt bs 24 4), frame := fieldAt bs 28 2,
    stream := 0, buffer := none, lines := 0, bad := 0, payload := none, marks := [], taken := false, dest := none, housed := false, paired := true }

/-- A paired partition that does not lead: it takes its inputs and decisions from its leader (13 R359, R360). -/
def follows (x : Part) : Bool := x.claim.paired && !x.claim.leader

/-! ## Pairing a follower's frames with the leader's journal (13 R360) -/

/-- A frame that the follower landed fits a leader's entry: its type, its FRAME unless it came as a copy, and its PCRC, or, where the leader
dropped the frame and so has no PCRC of it, its stream. DEDUCED, log entry 112. -/
def fits (e j : JEntry) : Bool :=
  !j.paired && j.dt == e.dt &&
  (if bitOf e.flags 3 then j.stream == e.stream && (if 0x10 ≤ j.port then bitOf j.flags 3 else j.frame == e.frame)
   else (0x10 ≤ j.port || j.frame == e.frame) && j.pcrc == e.pcrc)

/-- Insert an entry by SEQ among the paired ones. -/
def journalInsert (e : JEntry) : List JEntry → List JEntry
  | [] => [e]
  | j :: js => if j.paired && j.seq < e.seq then j :: journalInsert e js else e :: j :: js

/-- Take out the first entry that satisfies `f` and the unpaired entries of its stream before it, which the leader never journaled.
DEDUCED, log entry 112. -/
def dropThrough (f : JEntry → Bool) (stream : Nat) : List JEntry → List JEntry
  | [] => []
  | j :: js => if f j then js else if !j.paired && j.stream = stream then dropThrough f stream js else j :: dropThrough f stream js

/-- The follower's own frame of a leader's entry: one of its stream, else one whose FRAME and PCRC say that it is the same.
DEDUCED, log entry 112. -/
def partnerOf (js : List JEntry) (e : JEntry) : Option JEntry :=
  match js.find? (fun j => fits e j && j.stream == e.stream) with
  | some j => some j
  | none => js.find? (fits e)

/-- The journal with a leader's entry paired; a dropped one takes the follower's frame away. None while the frame is missing.
DEDUCED, log entry 112. DESIGN CHOICE, log entry 113. -/
def pairEntry (js : List JEntry) (e : JEntry) : Option (List JEntry) :=
  match partnerOf js e with
  | some j =>
    let rest := dropThrough (fun k => fits e k && k.stream == j.stream) j.stream js
    if bitOf e.flags 3 then some (journalInsert e rest)
    else some (journalInsert { j with seq := e.seq, arrived := e.arrived, flags := e.flags, paired := true } rest)
  | none => if bitOf e.flags 3 then some (journalInsert e js) else none

/-- Take one leader's entry, from the part that arrived at `t`. -/
def takeEntry (x : Part) (e : JEntry) (t : Ns) : Part :=
  if x.journal.any (fun j => j.paired && j.seq == e.seq) then x
  else match pairEntry x.journal e with
    | some js => { x with journal := js }
    | none => { x with claim := { x.claim with unmatched := x.claim.unmatched ++ [(e, t)] } }

/-- Pair the entries that were still unmatched, once a frame has landed. -/
def pairAll (x : Part) : Part :=
  if !follows x then x
  else x.claim.unmatched.foldl (fun x u => takeEntry x u.1 u.2) { x with claim := { x.claim with unmatched := [] } }

/-- The index of the other member of a mirror set. -/
def mirrorPeer (x : Part) : Option Nat := x.job.bind (fun j => if j.mirror then some (if j.own = 0 then 1 else 0) else none)

/-- A receive stream is bound by LINK_INGRESS: it lands the copies of a mirror's other member (R336).
DESIGN CHOICE, log entry 145. -/
def copyBound (s : State) (p : PartId) (stream : Nat) : Bool :=
  s.csi.streams.any (fun r => r.part == p && r.stream == stream && r.copyFrom.isSome)

/-- The stream id under which the frames of a receive stream are copied to a mirror's other member (R336). -/
def copiedAs (s : State) (p : PartId) (stream : Nat) : Option Nat :=
  ((s.csi.streams.find? (fun r => r.part == p && r.stream == stream)).bind (fun r => r.copyTo)).map (fun c => c.2)

/-- A frame's place in the journal is settled: no frame that is still open can close at its nanosecond on a receive port of a lower source
number (10 R275). DEDUCED, log entry 19. -/
def seqSettled (s : State) (p : PartId) (e : JEntry) : Bool :=
  e.arrived != s.stamp || !s.csi.bindings.any (fun b => b.part == p && !b.transmit && b.opened.isSome && b.port.val < e.port)

/-- Send a landed frame to the other member `i` (R336): a block with the journal entry and the stream id, then the frame's bytes. -/
def sendCopy (s : State) (p : PartId) (i sid : Nat) (e : JEntry) : State :=
  let n := (s.part p).msgNext
  let s := s.modPart p (fun x => { x with msgNext := (n + 1) % 2 ^ 32,
                                          journal := updFirst (fun j => !j.copied && j.seq == e.seq && j.stream == e.stream) (fun j => { j with copied := true }) x.journal })
  sendMessage s p i 0x11 0 n (journalBytes e ++ leBytes 2 sid ++ zeros 30 ++ e.payload.getD [])

/-- The frames that landed on copied streams go to the other member in journal order (R336), each once its place is settled and the keys are
live; one whose stream is no longer copied stays. -/
def copyOut (s : State) (p : PartId) : State :=
  match mirrorPeer (s.part p) with
  | none => s
  | some i =>
    if !(memberOf (s.part p) i).any (fun m => m.keys.live) then s else
    (((s.part p).journal.filter (fun e => !e.copied && (copiedAs s p e.stream).isSome)).takeWhile (seqSettled s p)).foldl (fun s e =>
      match copiedAs s p e.stream with | some sid => sendCopy s p i sid e | none => s) s

end Sys2Proof.Machine
end

