-- ==== Sys2Proof/Machine/Exports.lean ====
section
/-! DEFINITION. Requests to store trays (12 R337, R338), the sealing of their blocks (12 R339; 15 R422) and the queue of a partition's exports
(01 R31, R33, R35, R36). -/

namespace Sys2Proof.Machine

/-! ## Requests (R338) -/

/-- The partition of a request; none for the module's own. -/
def reqPart (r : StoreReq) : Option PartId := if h : r.part < 8 then some ⟨r.part, h⟩ else none

/-- Frames of a store message: pieces of at most 4,096 bytes with LAST on the final one. -/
def storeFrames (s : State) (typ place tag : Nat) (bs : Bytes) : List Frame :=
  let b := pad64 bs
  (pieces (b.length / 4096 + 1) 0 b).map (fun c =>
    let f := newFrame s typ place 0 0 tag c.1 0 c.2
    { f with fflags := f.fflags + bit (b.length ≤ c.1 + 4096) })

/-- A request that writes. -/
def StoreUse.writes (u : StoreUse) : Bool := u == .write || u == .exports

/-- The bytes of a request: volume, offset, then length or data (R322). -/
def requestBytes (r : StoreReq) : Bytes :=
  leBytes 2 r.volume ++ zeros 6 ++ leBytes 8 r.offset ++ (if r.use.writes then r.data else leBytes 4 r.length)

/-- Send a request's frames: a partition's own traffic in its turns, the module's in house turns (R320). A firmware pull uses its port,
by no plan (16 R444). -/
def sendRequest (s : State) (r : StoreReq) : State :=
  (storeFrames s (if r.use.writes then 0x22 else 0x20) r.store r.tag (requestBytes r)).foldl (fun s f =>
    match r.use, s.fw.load with
    | .pull, some l => queueOn s ⟨l.linkPort % 16, by omega⟩ none { f with cabinet := l.cabinet }
    | _, _ => sendFrame s (reqPart r) f) s

/-- A new request under the next tag. -/
def newRequest (s : State) (use : StoreUse) (part queue store volume offset length : Nat) (data : Bytes) : StoreReq :=
  { tag := s.nextTag, use := use, part := part, queue := queue, store := store, volume := volume, offset := offset, length := length,
    got := [], data := data, sentAt := s.now, attempts := 1, done := false, failed := false }

/-- Note a request under its tag. -/
def noteRequest (s : State) (r : StoreReq) : State := { s with requests := s.requests ++ [r], nextTag := (s.nextTag + 1) % 2 ^ 32 }

/-- Open a request and send it. -/
def openRequest (s : State) (use : StoreUse) (part queue store volume offset length : Nat) (data : Bytes) : State :=
  let r := newRequest s use part queue store volume offset length data
  sendRequest (noteRequest s r) r

/-- A request for bytes that lie in no region: it fails and nothing is sent. -/
def failRequest (s : State) (use : StoreUse) (part queue store volume offset length : Nat) : State :=
  noteRequest s { newRequest s use part queue store volume offset length [] with failed := true }

/-- Change the request of a tag. -/
def modRequest (s : State) (tag : Nat) (f : StoreReq → StoreReq) : State :=
  { s with requests := updFirst (fun r => r.tag == tag) f s.requests }

/-- Drop the requests that satisfy `f`. -/
def dropRequests (s : State) (f : StoreReq → Bool) : State := { s with requests := s.requests.filter (fun r => !f r) }

/-- A request that is neither answered in full nor failed. -/
def reqOpen (r : StoreReq) : Bool := !r.done && !r.failed

/-- Requests that a partition, or the module, may still open (R338). -/
def requestRoom (s : State) (part : Nat) : Nat :=
  (if part < 8 then 64 else 16) - (s.requests.filter (fun r => r.part == part && reqOpen r)).length

/-- The oldest open request: the first to time out. -/
def oldestRequest : List StoreReq → Option StoreReq
  | [] => none
  | r :: rs => match oldestRequest rs with
    | some q => if reqOpen r && r.sentAt ≤ q.sentAt then some r else some q
    | none => if reqOpen r then some r else none

/-- A request unanswered after 200 ms is sent again, at most twice (R338). -/
def timeoutRequest (s : State) (r : StoreReq) : State :=
  let s := s.reach (r.sentAt + ms 200)
  if 3 ≤ r.attempts then modRequest s r.tag (fun r => { r with failed := true })
  else
    let s := modRequest s r.tag (fun r => { r with attempts := r.attempts + 1, sentAt := s.now, got := [] })
    sendRequest s r

/-! ## Sealing (R339) -/

def blockBytes : Nat := 65536
def sealedBytes : Nat := 65600

/-- Blocks that one store key seals at most (15 R422). -/
def sealLimit : Nat := 2 ^ 32

/-- Blocks that a partition can still seal. -/
def sealsLeft (x : Part) : Nat := if x.keys.store.isSome then sealLimit - x.keys.storeSeals else 0

/-- Seal one block under a random nonce; BLOCK and STEP are the additional data. -/
def sealBlock (s : State) (key : Bytes) (block step : Nat) (data : Bytes) : Bytes × State :=
  let d := s.draw
  let nonce := leBytes 12 (Config.randomKey d.1).toNat
  let aad := leBytes 8 block ++ leBytes 8 step
  let c := gcmSeal key nonce aad data
  (c.1 ++ aad ++ nonce ++ zeros 4 ++ c.2 ++ zeros 16, d.2)

/-- Offset of a block in a partition's spill region, which its arm locator names (R337). -/
def spillAt (x : Part) (block : Nat) : Nat := x.spill.2.2 + block * sealedBytes

/-- The blocks from `block` on, `n` of them, lie in the region that the locator names (R337). -/
def inRegion (x : Part) (block n : Nat) : Bool := (block + n) * sealedBytes ≤ x.spillLength

/-- Seal one block of a partition's store region and send it under one request; the seal that retires the key makes an event (R339; 15
R422). A block past the region's LENGTH is not written: its request fails (DESIGN CHOICE, log entry 129). DESIGN CHOICE, log entry 93. -/
def storeBlock (s : State) (use : StoreUse) (p : PartId) (q block : Nat) (data : Bytes) : State :=
  let x := s.part p
  if !inRegion x block 1 then failRequest s use p.val q x.spill.1 x.spill.2.1 (spillAt x block) sealedBytes
  else
    let c := sealBlock s ((x.keys.store.map (fun k => k.2)).getD []) block x.step (padTo blockBytes data)
    let s := openRequest c.2 use p.val q x.spill.1 x.spill.2.1 (spillAt x block) sealedBytes c.1
    let s := s.modKeys p (fun k => { k with storeSeals := k.storeSeals + 1 })
    if (s.part p).keys.storeSeals = sealLimit then s.event srcSecurity Config.sealLimitCode p.val [] else s

/-- Seal and send `n` blocks, in order. -/
def sealBlocks (s : State) (use : StoreUse) (p : PartId) (q block n : Nat) (data : Bytes) : State :=
  (List.range n).foldl (fun s i => storeBlock s use p q (block + i) (slice data (i * blockBytes) blockBytes)) s

/-! ## Exports (01 R31, R33, R35, R36)

A partition's exports leave in the order in which they come, as sealed blocks after the spill region (R337, R339), each from a block's
start. Kind 0 is a step record with its journal entries, 1 a checkpoint, 2 a dump of a replay, 3 an output frame of a replay. -/

/-- The kinds whose bytes a house turn moves before they are sealed (05 R144). -/
def houseKind (k : Nat) : Bool := k < 2

/-- Steps run, so that house turns come. -/
def stepsRun (x : Part) : Bool := x.state == .running && x.holdAt.isNone

/-- Bytes of the waiting exports that house turns have to move. -/
def exportOwed (x : Part) : Nat := ((x.exportRest.filter (fun e => houseKind e.1)).map (fun e => e.2.length)).sum - x.exportPaid

/-- Seal the next block of a partition's exports when a request and a seal are free (R338; 15 R422) and, while steps run, a house turn has
moved its bytes (05 R144). -/
def pumpOne (p : PartId) (s : State) : State :=
  let x := s.part p
  match x.exportRest with
  | [] => s
  | (k, bs) :: rest =>
    let n := min blockBytes bs.length
    if requestRoom s p.val = 0 || sealsLeft x = 0 || (houseKind k && stepsRun x && x.exportPaid < n) then s
    else (storeBlock s .exports p k x.exportAt (bs.take blockBytes)).modPart p (fun x => { x with
      exportAt := x.exportAt + 1
      exportPaid := if houseKind k then x.exportPaid - n else x.exportPaid
      exportRest := if bs.length ≤ blockBytes then rest else (k, bs.drop blockBytes) :: rest })

/-- Seal and send what of a partition's exports can go. -/
def pumpExport (p : PartId) (s : State) : State := (List.range 64).foldl (fun s _ => pumpOne p s) s

/-- Put something among a partition's exports. -/
def queueExport (s : State) (p : PartId) (kind : Nat) (bs : Bytes) : State :=
  pumpExport p (s.modPart p (fun x => { x with exportRest := x.exportRest ++ [(kind, bs)] }))

/-- An export of a kind still runs: it waits, or the store has not answered. -/
def exportRuns (s : State) (p : PartId) (kind : Nat) : Bool :=
  (s.part p).exportRest.any (fun e => e.1 == kind) || s.requests.any (fun r => r.use == .exports && r.part == p.val && r.queue == kind && reqOpen r)

end Sys2Proof.Machine
end

