-- ==== Sys2Proof/Machine/Holds.lean ====
section
/-! DEFINITION. Held time and its causes (14 R386–R390): each instant of a RUNNING partition's hold has one cause, supply
before thermal before cap before replay dump. -/

namespace Sys2Proof.Machine

/-- Held time per cause (cap, supply, thermal, dump) of `t` ns under the present holds; token gating withholds G of every 10
periods, the larger of the two values of G (R386, R401). DESIGN CHOICE, log entry 126. -/
def heldIn (s : State) (t : Nat) : Vector Nat 4 :=
  let th := if s.thermal.descent.isSome then t * s.power.thermGate / 10 else 0
  if s.power.supplyHeld then #v[0, t, 0, 0]
  else if s.power.state = .quench then #v[0, 0, t, 0]
  else if s.power.shed then #v[t - th, 0, th, 0]
  else #v[t * s.power.gate / 10 - th, 0, th, 0]

/-- Held time per cause of `t` ns in which a replay dump holds the partition too, as the last cause (R389). -/
def heldDump (s : State) (t : Nat) : Vector Nat 4 := (heldIn s t).set 3 (t - (heldIn s t).toList.sum)

/-- Add held times. -/
def heldAdd (a b : Vector Nat 4) : Vector Nat 4 := Vector.zipWith (· + ·) a b

/-- LEVEL of PWR_p_HOLD for held time in a window of 1 s (14, PWR registers). -/
def holdLevel (h : Vector Nat 4) : Nat :=
  let t := h.toList.sum
  if t = 0 then 0 else if t ≤ 10000000 then 1 else if t ≤ 50000000 then 2 else if t ≤ 100000000 then 3
  else if t ≤ 250000000 then 4 else if t ≤ 500000000 then 5 else if t < 1000000000 then 6 else 7

/-- The cause bits CAP, SUPPLY and THERMAL. -/
def holdBits (h : Vector Nat 4) : Nat := bit (h[0] != 0) + 2 * bit (h[1] != 0) + 4 * bit (h[2] != 0)

/-- Account held time, `part` of a span, up to `now`: for the step, and for the 1 s windows of reference time (R390). -/
def accountHold (part : Nat → Vector Nat 4) (now : Ns) (h : HoldAcct) : HoldAcct :=
  let stepH := heldAdd h.step (part (now - h.lastAt))
  let w := h.openedAt + sec 1
  if now < w then { h with step := stepH, window := heldAdd h.window (part (now - h.lastAt)), lastAt := now }
  else
    let k := (now - w) / sec 1
    let last := if k = 0 then heldAdd h.window (part (w - h.lastAt)) else part (sec 1)
    { step := stepH, window := part (now - (w + k * sec 1)), openedAt := w + k * sec 1, lastAt := now,
      level := holdLevel last, bits := holdBits last }

/-- Account the held time of a partition up to now. -/
def settleHold (s : State) (running : Bool) (h : HoldAcct) : HoldAcct :=
  accountHold (fun t => if running then heldIn s t else Vector.replicate 4 0) s.now h

/-- Account the held time of every partition before a hold begins, changes or ends. -/
def settleHolds (s : State) : State :=
  forParts (fun p s => s.modPart p (fun x => { x with hold := settleHold s (x.state == .running) x.hold })) s

/-- The kind 0x0D entries of a step: one per cause with held time, in µs, saturating, or 0 in paced mode (R389; 01 R30). -/
def holdEntries (x : Part) : List Decision :=
  ((List.range 4).map (fun i => (i + 1, x.hold.step.toList.getD i 0))).filterMap (fun e =>
    if e.2 = 0 then none else some { kind := 0x0D, a := e.1, b := if x.paced then 0 else min (e.2 / 1000) (2 ^ 32 - 1), c := 0 })

/-- Held time of the step, in µs per cause summed (08 R232). -/
def heldUs (x : Part) : Nat := (x.hold.step.toList.map (fun t => t / 1000)).sum

end Sys2Proof.Machine
end

