-- ==== Sys2Proof/Machine/Transfer.lean ====
section
/-! DEFINITION. Transfer commands between the stack and the banks of a logical cluster (05 R141–R145). -/

namespace Sys2Proof.Machine

/-- The key of a stack unit (05 R146–R149): the module-area key from the end of the partition space on; else the current key, or during a
sweep the previous one for the pages after the page under sweep and for what of that page is not yet rewritten. None while a full clear is
to come: what the stack holds was written under a key that is gone, and no party can decrypt it (R152).
DESIGN CHOICE, log entry 13. -/
def unitKey (s : State) (k : ClusterId) (unitNo : Nat) : Option (BitVec 512) :=
  let c := s.cluster k
  if partSpace ≤ 64 * unitNo then s.security.moduleKey
  else if c.fullClear then none
  else match c.sweep with
    | none => c.key
    | some g => if unitNo / 1024 < g || (unitNo / 1024 == g && c.halfDone && unitNo % 1024 < 512) then c.key else c.prev

/-- The ciphertext that a stack holds in a unit (R146): what lies in `Mem.hbm` is what the transfer engine delivers, decrypted
(DESIGN CHOICE, log entry 13). -/
def stackCipher (s : State) (k : ClusterId) (unitNo : Nat) : Option Bytes :=
  (unitKey s k unitNo).map (fun key => xtsUnit (beBytes 64 key.toNat) k.val unitNo (stackRead s (stackAddr k (64 * unitNo)) 64))

/-- Bytes of a stack as its transfer engine delivers them, each unit under its key; the units of a range are under two keys at most, that
of the first and that of the last. Without a key nothing can be decrypted, and the bytes are free (05 R147, R152; DESIGN CHOICE, log entry
13). -/
def stackPlain (s : State) (k : ClusterId) (off n : Nat) : Bytes :=
  if (unitKey s k (off / 64)).isSome && (unitKey s k ((off + n - 1) / 64)).isSome then stackRead s (stackAddr k off) n
  else (List.range n).map (fun i => Config.freeByte [stackAddr k off + i])

/-- Move bytes and marks into a stack. -/
def moveToStack (s : State) (addr : Nat) (bs : Bytes) (marks : List Bool) : State :=
  let t := stackWrite s addr bs
  { t with mem := { t.mem with stackPoison := marksWrite t.mem.stackPoison (addr / 64) marks } }

/-- The bank of a reference, through the owner port or the observer port (05 R136, R141). DESIGN CHOICE, log entry 120. -/
def transferBank (s : State) (d : Due) (r : BankRef) (bytes : Nat) : Engine (Fin 288) :=
  match physBank s (s.part d.p) d.desc.inst r.bank with
  | none => .error .wait
  | some b =>
    if bankSize < r.off + bytes then .error (.bad (bankAddr b r.off + bytes))
    else if r.observer then (if (s.owner b).observer = 1 then .ok b else .error .wait)
    else if ownedBy s d.p b 5 0 then .ok b
    else .error .wait

/-- The stack of a command's logical cluster. DESIGN CHOICE, log entry 120. -/
def transferStack (s : State) (d : Due) (off bytes : Nat) : Engine ClusterId :=
  match physCluster (s.part d.p) d.desc.inst with
  | none => .error .wait
  | some k => if partSpace < off + bytes then .error (.bad (stackAddr k (off + bytes)))
              else if (s.cluster k).selfRefresh then .error .wait else .ok k

/-- Work beats of a move (05 R142). -/
def moveBeats (bytes : Nat) : Nat := 4 + ceilDiv bytes 2048

/-- HBM_READ (05 R141–R145). -/
def hbmReadSteps (d : Due) (s : State) : Engine EngineOut := do
  let r := d.record
  let ref := bankRefOf (recField r 24 4)
  let off := recField r 28 8
  let n := recField r 36 4
  let b ← transferBank s d { ref with observer := false } n
  let k ← transferStack s d off n
  let marks := marksRead s.mem.stackPoison (stackAddr k off / 64) (n / 64)
  return .done (moveToBank (meetStack s (stackAddr k off) n) (bankAddr b ref.off) (stackPlain s k off n) marks) (moveBeats n) (if marks.any (fun m => m) then 2 else 0)

def execHbmRead (p : PartId) (q : Nat) (s : State) : Result :=
  runEngine s p q 5 0x0500 (fun d => handoverAt d.record 40 d.desc.inst) (fun d s => (hbmReadSteps d s).out)

/-- HBM_WRITE (05 R141–R145). -/
def hbmWriteSteps (d : Due) (s : State) : Engine EngineOut := do
  let r := d.record
  let ref := bankRefOf (recField r 24 4)
  let off := recField r 28 8
  let n := recField r 36 4
  let b ← transferBank s d ref n
  let k ← transferStack s d off n
  let marks := marksRead s.mem.bankPoison (bankAddr b ref.off / 64) (n / 64)
  return .done (moveToStack (meetBank s (bankAddr b ref.off) n) (stackAddr k off) (bankRead s (bankAddr b ref.off) n) marks) (moveBeats n)
    (if marks.any (fun m => m) then 2 else 0)

def execHbmWrite (p : PartId) (q : Nat) (s : State) : Result :=
  runEngine s p q 5 0x0501 (fun d => handoverAt d.record 40 d.desc.inst) (fun d s => (hbmWriteSteps d s).out)

/-- BANK_COPY (05 R141–R145). -/
def bankCopySteps (d : Due) (s : State) : Engine EngineOut := do
  let r := d.record
  let src := bankRefOf (recField r 24 4)
  let dst := bankRefOf (recField r 28 4)
  let n := recField r 32 4
  let a ← transferBank s d src n
  let b ← transferBank s d { dst with observer := false } n
  let marks := marksRead s.mem.bankPoison (bankAddr a src.off / 64) (n / 64)
  return .done (moveToBank (meetBank s (bankAddr a src.off) n) (bankAddr b dst.off) (bankRead s (bankAddr a src.off) n) marks) (moveBeats n)
    (if marks.any (fun m => m) then 2 else 0)

def execBankCopy (p : PartId) (q : Nat) (s : State) : Result :=
  runEngine s p q 5 0x0502 (fun d => handoverAt d.record 40 d.desc.inst) (fun d s => (bankCopySteps d s).out)

/-- HBM_ZERO (05 R141, R142). -/
def hbmZeroSteps (d : Due) (s : State) : Engine EngineOut := do
  let off := recField d.record 28 8
  let n := recField d.record 36 4
  let k ← transferStack s d off n
  return .done (stackZero s (stackAddr k off) n) 4 0

def execHbmZero (p : PartId) (q : Nat) (s : State) : Result :=
  runEngine s p q 5 0x0503 (fun _ => none) (fun d s => (hbmZeroSteps d s).out)

end Sys2Proof.Machine
end

