-- ==== Sys2Proof/Machine/Completion.lean ====
section
/-! DEFINITION. Completion of commands and walk records (02 R48–R55), the dumps of a replay (01 R36). -/

namespace Sys2Proof.Machine

/-- Bytes of a KV page (07 R199). -/
def pageSize : Nat := 65536

/-- Stack address of a page of a logical cluster: [19:0] of its number is the page within the cluster's stack (R199). -/
def pageAddr (k : ClusterId) (page : Nat) : Nat := stackAddr k (page % 2 ^ 20 * pageSize)

/-- What a dump point writes (01 R36; 11 R300). -/
def dumpData (s : State) (p : PartId) (d : DumpPoint) : Bytes :=
  let x := s.part p
  match d.kind with
  | 1 => match physBank s x d.cluster d.bank with | some b => bankRead s (bankAddr b 0) bankSize | none => []
  | 2 => (List.range d.count).flatMap (fun i => leBytes 8 (tallyOf x (d.tally + i)))
  | _ => match physCluster x (bitsOf d.page 22 20) with | some k => stackRead s (pageAddr k d.page) pageSize | none => []

/-- The dumps of a replay that `f` selects (01 R36). -/
def dumpsDue (x : Part) (f : DumpPoint → Bool) : List DumpPoint :=
  if x.replay then (((x.replaySet.map (fun r => r.dumps)).getD []).filter f) else []

/-- A dump point as REPLAY_SET lays it out (11 R300). -/
def dumpPointBytes (d : DumpPoint) : Bytes :=
  leBytes 1 d.kind ++ leBytes 1 (bit d.atTally) ++ leBytes 1 d.cluster ++ leBytes 1 d.bank ++ leBytes 2 d.tally ++ leBytes 2 d.count ++
  leBytes 8 d.step ++ leBytes 8 d.value ++ leBytes 4 d.page ++ zeros 4

/-- Write dumps to the store tray, each with its step number and dump point before its bytes (01 R36). DESIGN CHOICE, log entry 18. -/
def writeDumps (s : State) (p : PartId) (f : DumpPoint → Bool) : State :=
  (dumpsDue (s.part p) f).foldl (fun s d => queueExport s p 2 (leBytes 8 (s.part p).step ++ dumpPointBytes d ++ dumpData s p d)) s

/-- Hold a partition at a beat of its step for `t` ns, for a replay dump, which has the time that no other cause has (01 R23, R30, R36; 14
R389, R390).
DESIGN CHOICE, log entry 18. -/
def dumpHold (s : State) (p : PartId) (t : Nat) : State :=
  let s := settleHolds s
  let s := { s with now := s.now + t }
  settleHolds (s.modPart p (fun x => { x with hold := accountHold (heldDump s) s.now x.hold }))

/-- Add to a tally and write the dumps whose named tally reaches its named value there: the replay is held at that beat
while they are written, for a time that the manual does not give (R36; DESIGN CHOICE, log entry 18). -/
def tallySignal (s : State) (p : PartId) (t inc : Nat) : State :=
  let old := tallyOf (s.part p) t
  let s := tallyAdd s p t inc
  let due := fun (d : DumpPoint) => d.atTally && d.step == (s.part p).step && d.tally == t && old < d.value && d.value ≤ tallyOf (s.part p) t
  if (dumpsDue (s.part p) due).isEmpty then s
  else
    let s := writeDumps s p due
    dumpHold s.draw.2 p (Config.dumpTime s.draw.1 + 1)

/-- The event of a command or walk record that ends in an error (02 R50, 07 R210). -/
def errorEvent (s : State) (p : PartId) (e : InFlight) : State :=
  let x := s.part p
  if e.error = 0 then s
  else if e.walk then
    s.event srcGaffer 0x0209 p.val (leBytes 8 x.step ++ leBytes 1 e.inst ++ leBytes 1 e.error ++ leBytes 4 e.index)
  else
    s.event (unitSource s p e.cls e.inst) 0x0106 p.val
      (leBytes 8 x.step ++ leBytes 2 e.queue ++ leBytes 2 e.index ++ leBytes 1 e.error ++ leBytes 1 x.kind ++ leBytes 1 x.layout)

/-- The opcode of a command of the current list. -/
def opcodeAt (x : Part) (q i : Nat) : Nat := (((listOf x q)[i]?).map recOpcode).getD 0

/-- VID_p_FRAMES and VID_p_ERRORS count frame commands at their completion (09, VID registers). -/
def countFrame (x : Part) (e : InFlight) : Part :=
  if e.cls ≠ 6 || e.walk then x else
  match opcodeAt x e.queue e.index with
  | 0x0601 => { x with frames := (x.frames + 1) % 2 ^ 32, encErrors := if e.error = 0 then x.encErrors else satAdd 16 x.encErrors 1 }
  | 0x0602 => { x with frames := (x.frames + 1) % 2 ^ 32, decErrors := if e.error = 0 then x.decErrors else satAdd 16 x.decErrors 1 }
  | _ => x

/-- The command that completes next on an engine instance: the oldest, unless what it waits for is still to come. The last one does not
complete while an item that it wrote to a channel is still to be accepted (04 R101; 06 R169). -/
def oldest (x : Part) (cls inst : Nat) : Option InFlight :=
  match x.inflight.filter (fun e => e.cls == cls && e.inst == inst) with
  | [] => none
  | e :: rest => if e.awaiting || (rest.isEmpty && chanBlocked x cls inst) then none else some e

/-- Complete a command: its handover, its error event, its signal (R49, R50, R52, R54). DESIGN CHOICE, log entry 34. -/
def complete (s : State) (p : PartId) (e : InFlight) : State :=
  let s := s.modPart p (fun x => countFrame { x with inflight := x.inflight.erase e } e)
  let s := match e.handover with | some h => takeHandover s p h | none => s
  let s := errorEvent s p e
  match e.signal with | some (t, inc) => tallySignal s p t inc | none => s

/-- An EMIT completes no earlier than its frame end has been sent (10 R283). DESIGN CHOICE, log entry 147. -/
def frameOut (s : State) (e : InFlight) : State := if e.cls = 7 then s.reach e.ticket else s

/-- COMMAND_COMPLETION (R49). A command that waits for its items to be accepted or for a first hop waits in handshake, counting waiting beats
(04 R100; 12 R333). -/
def execCommandCompletion (p : PartId) (cls : Nat) (inst : Nat) (s : State) : Result :=
  if stepping s p then
    match oldest (s.part p) cls inst with
    | some e => .next (complete (frameOut s e) p e)
    | none => .next (if (s.part p).inflight.any (fun e => e.cls == cls && e.inst == inst) then waits s p cls inst else s)
  else .next s

end Sys2Proof.Machine
end

