-- ==== Sys2Proof/Machine/Layouts.lean ====
section
/-! DEFINITION. Core states and layouts (04 R97–R126): fences, the selection of a layout, the places of carried banks and
their copies; bank owners, rings and lists (05 R133, 02 R45, R485). -/

namespace Sys2Proof.Machine

/-- The cores of a partition. -/
def partCores (x : Part) : List CoreId := x.clusters.flatMap coresOf

/-- The partition that holds a core. -/
def partOfCore (s : State) (c : CoreId) : Option PartId := partOfCluster s (clusterOf c)

/-- Cores of a cluster that are fenced (R119). -/
def fencedCount (s : State) (k : ClusterId) : Nat := 8 - (slotsOf s k).length

/-- A layout covers the fenced set of a partition. -/
def layoutCovers (s : State) (x : Part) (l : Layout) : Bool :=
  ((List.range x.clusters.length).zip x.clusters).all (fun k => fencedCount s k.2 ≤ l.absent.getD k.1 0)

/-- The lowest-numbered layout that covers the fenced set (R119). -/
def pickLayout (s : State) (x : Part) : Option Nat :=
  match x.image with
  | some i => (List.range i.layouts.length).find? (fun n => match i.layouts[n]? with | some l => layoutCovers s x l | none => false)
  | none => none

/-- The physical bank of each carried item in the layout in force (R121). -/
def carriedPlaces (s : State) (x : Part) : List (Nat × Nat) :=
  match layoutOf x with
  | some l => l.carried.filterMap (fun c => (physBank s x c.cluster c.bank).map (fun b => (c.item, b.val)))
  | none => []

/-- The copies that take the carried items from the places `old` to the places `new`: source and destination bank. -/
def carriedMoves (old new : List (Nat × Nat)) : List (Nat × Nat) :=
  new.filterMap (fun n => match assocGet n.1 old with
    | some b => if b = n.2 then none else some (b, n.2)
    | none => none)

/-- Copy every carried bank whose place differs between two layouts or epochs; all are read before any is written. A word
read as uncorrectable names its bank (R121). -/
def copyCarried (s : State) (old new : List (Nat × Nat)) : State × Option Nat :=
  let data := (carriedMoves old new).map (fun m => (m.2, cellsIn s.mem.banks (bankAddr m.1 0) bankSize, m.1, marksRead s.mem.bankPoison (m.1 * 32768) 32768))
  (data.foldl (fun s d =>
    let s := bankZero s (bankAddr d.1 0) bankSize
    let s := d.2.1.foldl (fun s c => bankWrite s (bankAddr d.1 0 + (c.1 - bankAddr d.2.2.1 0)) [c.2]) s
    { s with mem := { s.mem with bankPoison := marksWrite s.mem.bankPoison (d.1 * 32768) d.2.2.2 } })
    (data.foldl (fun s d => meetBank s (bankAddr d.2.2.1 0) bankSize) s),
   (data.find? (fun d => d.2.2.2.any (fun b => b))).map (fun d => d.2.2.1))

/-- Move the carried banks of a partition to the layout and epoch in force. -/
def moveCarried (s : State) (p : PartId) : State × Option Nat :=
  let new := carriedPlaces s (s.part p)
  let r := copyCarried s (s.part p).places new
  (r.1.modPart p (fun x => { x with places := new }), r.2)

/-- The carried items of the cores whose group rotates without a copy, the same chunks filling every member's banks (R115). -/
def sameItems (l : Layout) : List Nat :=
  (l.carried.filter (fun c => c.bank < 32 && (l.groups.find? (fun g => g.members.contains (8 * c.cluster + c.bank / 4) && groupRotates l g)).any
    (fun g => g.sameChunks))).map (fun c => c.item)

/-- The epoch that contains the coming step (R99). -/
def epochAt (x : Part) : Nat := let n := (x.image.map (fun i => i.epochLength)).getD 0; if n = 0 then x.epoch else x.step / n

/-- The places of the carried items once the coming epoch's rotation has moved those that need no copy (R114, R115). -/
def rotatePlaces (s : State) (x : Part) : List (Nat × Nat) :=
  match layoutOf x with
  | none => x.places
  | some l =>
    let next := carriedPlaces s { x with epoch := epochAt x }
    x.places.map (fun e => if (sameItems l).contains e.1 then (e.1, (assocGet e.1 next).getD e.2) else e)

/-- Fence a core: it receives no tokens until it is readmitted (R117). -/
def fenceCore (s : State) (c : CoreId) : State := s.modCore c (fun k => { k with state := .fenced })

/-- The event of a fence or readmission (19 R476). -/
def fenceEvent (s : State) (c : CoreId) (cause layout : Nat) : State :=
  s.event c.val 0x0104 ((partOfCore s c).map (fun p => p.val) |>.getD 0xFF) (leBytes 1 cause ++ leBytes 1 layout)

/-- Codes of the fence causes in CORE_STATUS (11 R300). -/
def causeCode (c : FenceCause) : Nat :=
  match c with | .none => 0 | .floorMiss => 1 | .selfCheck => 2 | .hardStop => 3 | .order => 4

/-- The fences due at a boundary: pending ones whose cause arose before its stamp (R126). -/
def dueFences (s : State) (x : Part) (stamp : Ns) : List CoreId :=
  (partCores x).filter (fun c => (s.core c).state == .fencePending && (s.core c).causeAt < stamp)

/-- The cores that a boundary self-checks: one per cluster every 4,096 steps (R118), and those whose bank returned a
double-bit error (05 R155). -/
def dueChecks (s : State) (x : Part) (step : Nat) : List CoreId :=
  (partCores x).filter (fun c => (s.core c).state.serves &&
    ((s.core c).checkDue || (step != 0 && step % 4096 == 0 && c.val % 8 == step / 4096 % 8)))

/-- Self-check the cores due; the failing ones are fenced at the same boundary. Gives the cores fenced. -/
def selfCheck (s : State) (p : PartId) (step : Nat) (fail : List CoreId) : State × List CoreId :=
  let cs := dueChecks s (s.part p) step
  let s := cs.foldl (fun s c => s.modCore c (fun k => { k with checkDue := false })) s
  let bad := cs.filter (fun c => fail.contains c)
  (bad.foldl (fun s c => fenceCore ((s.modCore c (fun k => { k with cause := .selfCheck })).event c.val 0x0102 p.val (leBytes 4 (step / 4096))) c) s, bad)

/-- A core enters service. -/
def enterService (s : State) (c : CoreId) : State := s.modCore c (fun k => { k with state := .inService, cause := .none })

/-- The receipt of a carried bank that fails under layout `n`: a copy into a core of `back` reads an uncorrectable word (R124). Its source bank
and the core. -/
def receiptFails (s : State) (x : Part) (n : Nat) (back : List CoreId) : Option (Nat × CoreId) :=
  (carriedMoves x.places (carriedPlaces s { x with layout := n })).findSome? (fun m =>
    if markAny s.mem.bankPoison (m.1 * 32768) 32768 then ((coreOfBank m.2).filter (fun c => back.contains c)).map (fun c => (m.1, c)) else none)

/-- A receipt that fails returns its core to FENCED, with an event of stage 3 (R124). -/
def failReceipt (s : State) (b : Nat) (c : CoreId) : State :=
  (fenceCore (meetBank s (bankAddr b 0) bankSize) c).event c.val 0x0105 0xFF (leBytes 1 3)

/-- Readmit cores under the layout that `pick` selects for them, each that receives every bank carried into it; one that does not goes back
to FENCED and the layout is selected again (R124, R126). Gives the cores readmitted. -/
def readmit (p : PartId) (pick : State → Option Nat) : Nat → State → List CoreId → State × List CoreId
  | 0, s, _ => (s, [])
  | f + 1, s, cs =>
    let t := cs.foldl enterService s
    match (pick t).bind (fun n => receiptFails t (t.part p) n cs) with
    | some (b, c) => readmit p pick f (failReceipt s b c) (cs.filter (fun d => d != c))
    | none => (t, cs)

/-- The cores in REJOIN_PENDING since before `stamp` (R125; 01 R21). -/
def dueRejoins (s : State) (x : Part) (stamp : Ns) : List CoreId :=
  (partCores x).filter (fun c => (s.core c).state == .rejoinPending && (s.core c).causeAt < stamp)

/-- The mask of a partition's fenced cores. -/
def fencedMask (s : State) (x : Part) : Nat := ((partCores x).map (fun c => if (s.core c).state.serves then 0 else 2 ^ c.val)).sum

/-! ## Owners, rings, lists -/

/-- Write every owner register of a partition with the owners that the bank plan of the current step kind gives (05 R133); a bank
that the plan does not name takes the owner of R130 after start. DEDUCED, log entry 49. -/
def writeOwners (s : State) (p : PartId) : State :=
  let s := (List.finRange 288).foldl (fun s b =>
    if (s.part p).clusters.any (fun k => k.val == b.val / 36) then
      s.setOwner b { BankOwner.init with part := p.val, partValid := true } else s) s
  match planOf (s.part p) with
  | some k => k.banks.foldl (fun s b => match physBank s (s.part p) b.cluster b.bank with
    | some n => s.setOwner n { owner := b.owner, observer := b.observer, unit := b.unit, part := p.val, partValid := true }
    | none => s) s
  | none => s

/-- The 16 bytes of a ring entry (02 R45, R485). -/
def ringEntry (x : Part) (q step : Nat) : Bytes :=
  match (planOf x).bind (fun k => k.lists.find? (fun l => l.queue == q)) with
  | some l => leBytes 4 l.offset ++ leBytes 1 l.bank ++ leBytes 1 l.cluster ++ leBytes 2 l.cmds.length ++ leBytes 8 step
  | none => zeros 8 ++ leBytes 8 step

/-- Write one ring entry into a queue (R45): it is the one being issued, and TAIL passes it. -/
def writeRing (s : State) (p : PartId) (step : Nat) (d : QueueDesc) : State :=
  let x := s.part p
  match x.queues.find? (fun r => r.queue == d.queue) with
  | none => s
  | some r =>
    let s := match physBank s x d.ringCluster (32 + d.ringBank % 4) with
      | some b => bankWrite s (bankAddr b (d.ringOffset + 16 * r.tail)) (ringEntry x d.queue step)
      | none => s
    s.modPart p (fun x => { x with queues := updFirst (fun q => q.queue == d.queue) (fun q =>
      { q with head := r.tail, tail := if d.ringEntries = 0 then 0 else (r.tail + 1) % d.ringEntries, issued := 0,
               count := (listOf x d.queue).length, step := step }) x.queues })

/-- The in-use queue descriptors. -/
def usedQueues (x : Part) : List QueueDesc := (x.image.map (fun i => i.queues.filter (fun d => d.inUse))).getD []

def writeRings (s : State) (p : PartId) (step : Nat) : State := (usedQueues (s.part p)).foldl (fun s d => writeRing s p step d) s

/-- The loader writes every command list and walk list into its place at arming (R485). -/
def writeLists (s : State) (p : PartId) : State :=
  let x := s.part p
  let put := fun (s : State) (lc bank off : Nat) (bs : Bytes) =>
    match physBank s x lc (32 + bank % 4) with | some b => bankWrite s (bankAddr b off) bs | none => s
  ((x.image.map (fun i => i.layouts)).getD []).foldl (fun s l => l.kinds.foldl (fun s k =>
    let s := k.lists.foldl (fun s c => put s c.cluster c.bank c.offset (c.cmds.flatMap bytesOfRecord)) s
    k.walks.foldl (fun s w => put s w.cluster w.bank w.offset (w.records.flatMap (fun r => leBytes 32 r.toNat))) s) s) s

/-! ## The step kind (02 R46) -/

/-- Pending gathers: entries of receive streams that the boundary has before it, not dropped and not taken by a GATHER. -/
def pendingGathers (x : Part) (f : JEntry → Bool) : Nat :=
  (x.journal.filter (fun e => e.paired && f e && !bitOf e.flags 3 && !e.taken)).length

/-- Sequences of a partition in a state that `t` admits. -/
def seqsIn (x : Part) (t : SeqState → Bool) : Nat := (x.seqs.filter (fun q => t q.state)).length

/-- A quantity that a selector reads; `f` says which journal entries the boundary has before it. DESIGN CHOICE, log entry 127. -/
def selValue (x : Part) (f : JEntry → Bool) : SelVar → Nat
  | .active => seqsIn x (fun t => t == .active || t == .runOut)
  | .queued => seqsIn x (fun t => t == .queued)
  | .paused => seqsIn x (fun t => t == .paused || t == .resuming)
  | .heldOver => seqsIn x (fun t => t == .heldOver)
  | .pendingOf n => pendingGathers x (fun e => f e && e.stream == n)
  | .step => x.step
  | .tally t => tallyOf x t
  | .layout => x.layout
  | .adapter n => ((x.adapters.find? (fun a => a.ident == n && a.state == .current)).map (fun a => a.version)).getD 0

/-- A selector row meets the state. DESIGN CHOICE, log entry 127. -/
def rowMeets (r : SelRow) (x : Part) (f : JEntry → Bool) : Bool :=
  r.minActive ≤ selValue x f .active && r.minPending ≤ pendingGathers x f &&
  r.tests.all (fun t => t.low ≤ selValue x f t.what && selValue x f t.what ≤ t.high)

/-- The step kind of a boundary (R46): the last row of the selector that meets the state gives it, and 0 when none does. The manual
gives the selector no form (DESIGN CHOICE, log entry 127). -/
def selectKind (x : Part) (f : JEntry → Bool) : Nat :=
  ((x.image.map (fun i => i.selector)).getD []).foldl (fun k r => if rowMeets r x f then r.kind else k) 0

end Sys2Proof.Machine
end

