-- ==== Sys2Proof/Machine/Kv.lean ====
section
/-! DEFINITION. KV pages as the walker meets them (07 R199–R214): page-table and count-table entries, the walk records, the
copy phase; and the house turn (05 R144). -/

namespace Sys2Proof.Machine

/-! ## Page tables and count tables (R201–R204) -/

/-- The KV declarations of the loaded image. -/
def kvDecl (x : Part) : Option KvDecl := x.image.bind (fun i => i.kv)

/-- Bank address of a page-table entry of a logical cluster. -/
def ptAddr (s : State) (x : Part) (kd : KvDecl) (lc e : Nat) : Option Nat :=
  (physBank s x lc (32 + kd.ptBank % 4)).map (fun b => bankAddr b (8 * e))

/-- A page-table entry. -/
def ptRead (s : State) (x : Part) (kd : KvDecl) (lc e : Nat) : Nat :=
  match ptAddr s x kd lc e with
  | some a => leNat (bankRead s a 8)
  | none => 0

def ptWrite (s : State) (x : Part) (kd : KvDecl) (lc e v : Nat) : State :=
  match ptAddr s x kd lc e with
  | some a => bankWrite s a (leBytes 8 v)
  | none => s

/-- Fields of a page-table entry (R201). -/
def ptPage (v : Nat) : Nat := bitsOf v 22 0
def ptFmt (v : Nat) : Nat := bitsOf v 25 24
def ptCow (v : Nat) : Bool := bitOf v 26
def ptValid (v : Nat) : Bool := bitOf v 63

/-- A valid entry. -/
def ptEntry (page fmt : Nat) (cow gen : Bool) : Nat := page + fmt * 2 ^ 24 + bit cow * 2 ^ 26 + bit gen * 2 ^ 27 + 2 ^ 63

/-- The generation bit of a page in its stack's generation map (05 R147). -/
def pageGen (s : State) (x : Part) (page : Nat) : Bool :=
  let g := x.keys.memGen % 2 == 1
  match physCluster x (bitsOf page 22 20) with
  | some k => (match (s.cluster k).sweep with | some q => if page % 2 ^ 20 < q then g else !g | none => g)
  | none => g

/-- Stack address of a page's count (R204). -/
def countAddr (x : Part) (kd : KvDecl) (page : Nat) : Option Nat :=
  (physCluster x (bitsOf page 22 20)).map (fun k => stackAddr k (kd.countOffset + 2 * (page % 2 ^ 20)))

/-- A page's count. -/
def countOf (s : State) (x : Part) (kd : KvDecl) (page : Nat) : Nat :=
  match countAddr x kd page with
  | some a => leNat (stackRead s a 2)
  | none => 0

def setCount (s : State) (x : Part) (kd : KvDecl) (page v : Nat) : State :=
  match countAddr x kd page with
  | some a => stackWrite s a (leBytes 2 v)
  | none => s

/-- The read of a page-table entry, and of a count, meets the bit errors of its word (05 R159). -/
def ptMeet (s : State) (x : Part) (kd : KvDecl) (lc e : Nat) : State :=
  match ptAddr s x kd lc e with
  | some a => meetBank s a 8
  | none => s

def countMeet (s : State) (x : Part) (kd : KvDecl) (page : Nat) : State :=
  match countAddr x kd page with
  | some a => meetStack s a 2
  | none => s

/-- The word of a page-table entry, and of a count, is poisoned. -/
def ptPoisoned (s : State) (x : Part) (kd : KvDecl) (lc e : Nat) : Bool :=
  match ptAddr s x kd lc e with
  | some a => markAny s.mem.bankPoison (a / 64) 1
  | none => false

def countPoisoned (s : State) (x : Part) (kd : KvDecl) (page : Nat) : Bool :=
  match countAddr x kd page with
  | some a => markAny s.mem.stackPoison (a / 64) 1
  | none => false

/-- First page-table entry of page list `l` of a sequence (R202). -/
def listBase (kd : KvDecl) (q : Seq) (l : Nat) : Nat := q.ptBase + l * kd.cap

/-- The null page of a logical cluster: the first page of its pool (R200). -/
def nullPage (kd : KvDecl) (lc : Nat) : Nat := lc * 2 ^ 20 + kd.poolFirst

/-- In the batch of the current step (08 R215). -/
def SeqState.inBatch (t : SeqState) : Bool := t == .active || t == .runOut

/-- The sequence that a batch slot holds in this step; none when the slot reads as empty (08 R216). -/
def seqInSlot (x : Part) (slot : Nat) : Option Seq := x.seqs.find? (fun q => q.slot == some slot && q.state.inBatch)

/-- A sequence that holds a place in the batch, in ascending batch slot. -/
def slotLe (a b : Seq) : Bool := a.slot.getD 0 ≤ b.slot.getD 0

def seqInsert (le : Seq → Seq → Bool) (q : Seq) : List Seq → List Seq
  | [] => [q]
  | r :: rs => if le r q then r :: seqInsert le q rs else q :: r :: rs

/-- Sequences sorted by an order; those it does not tell apart keep theirs. -/
def seqSort (le : Seq → Seq → Bool) (qs : List Seq) : List Seq := qs.foldl (fun l q => seqInsert le q l) []

/-- The sequences of the batch, in ascending batch slot. -/
def batchSeqs (x : Part) : List Seq := seqSort slotLe (x.seqs.filter (fun q => q.slot.isSome && q.state.inBatch))

/-! ## Walk records (R206–R210) -/


/-- Records that the append records of the step kind hold for a batch slot: the same in every list (R208).
DESIGN CHOICE, log entry 43. -/
def slotAppends (x : Part) (slot : Nat) : Nat :=
  match planOf x with
  | some k =>
    let rs := k.walks.flatMap (fun w => (w.records.filter (fun r => walkField r 0 1 = 2 && walkField r 2 2 = slot)).map
      (fun r => (w.cluster, walkField r 4 2, walkField r 8 1)))
    match rs with
    | r :: _ => ((rs.filter (fun e => e.1 == r.1 && e.2.1 == r.2.1)).map (fun e => e.2.2)).sum
    | [] => 0
  | none => 0

/-- Tokens that a sequence of the batch appends in the current step: the records that the step kind appends for its slot (R208).
DESIGN CHOICE, log entry 43. -/
def stepAppends (x : Part) (q : Seq) : Nat :=
  match q.slot with
  | some sl => if q.state.inBatch then slotAppends x sl else 0
  | none => 0

/-- A walk record that is due: its walk list and its number in it, where it stands in the turn list and whether it is the last. -/
structure WalkDue where
  lc    : Nat
  list  : Nat
  index : Nat
  turn  : Nat
  last  : Bool
  record : WalkRecord
  kd    : KvDecl

/-- The walker's next record when a KV turn has come on its transfer instance (R206), it is of kind `kind` and the partition's step
runs. -/
def walkDue (s : State) (p : PartId) (lc kind : Nat) : Option WalkDue :=
  let x := s.part p
  if !stepping s p then none else
  match nextTurn x lc (turnsOf x 5 lc) (turnPos x 5 lc), kvDecl x with
  | some (pos, e), some kd =>
    match kvTurn e with
    | none => none
    | some i =>
      let rs := (walkLists x lc).getD i []
      match rs[walkTaken x lc i]? with
      | some r =>
        if walkField r 0 1 = kind then
          some { lc := lc, list := i, index := walkTaken x lc i, turn := pos, last := walkTaken x lc i + 1 == rs.length, record := r, kd := kd }
        else none
      | none => none
  | _, _ => none

/-- The tally condition of a walk record (R48, R206). -/
def walkReady (x : Part) (r : WalkRecord) : Bool :=
  !bitOf (walkField r 9 1) 0 || walkField r 16 8 ≤ (tallyOf x (walkField r 10 2) + 2 ^ 64 - baseOf x (walkField r 10 2)) % 2 ^ 64

/-- The bank that a walk record names, owned by the transfer engine, with `n` bytes from its offset on. -/
def walkBank (s : State) (p : PartId) (lc w n : Nat) : Engine (Nat) :=
  let r := bankRefOf w
  match physBank s (s.part p) lc r.bank with
  | none => .error .wait
  | some b =>
    if bankSize < r.off + n then .error (.bad (bankAddr b r.off + n))
    else if ownedBy s p b 5 0 then .ok (bankAddr b r.off) else .error .wait

/-- Move one page of a stage: its data and marks, and the error it meets. The page of an entry that could not be read, error 2, is
poisoned. DESIGN CHOICE, log entry 146. -/
def stagePage (s : State) (k : ClusterId) (addr : Nat) (target : Nat × Nat) : State × Nat :=
  let off := target.1 % 2 ^ 20 * pageSize
  let marks := marksRead s.mem.stackPoison (stackAddr k off / 64) (pageSize / 64)
  let seen := if target.2 = 2 then List.replicate (pageSize / 64) true else marks
  (moveToBank (meetStack s (stackAddr k off) pageSize) addr (stackPlain s k off pageSize) seen,
   joinErr target.2 (if marks.any (fun m => m) then 2 else 0))

/-- Where the page-table entry of list entry `e` stands that a walk record reads, none for an empty slot or one beyond CAP. -/
def walkEntry (x : Part) (w : WalkDue) (e : Nat) : Option Nat :=
  if w.kd.cap ≤ e then none else (seqInSlot x (walkField w.record 2 2)).map (fun q => listBase w.kd q (walkField w.record 4 2) + e)

/-- The read of that entry. -/
def walkMeet (s : State) (x : Part) (w : WalkDue) (e : Nat) : State :=
  match walkEntry x w e with | some i => ptMeet s x w.kd w.lc i | none => s

/-- The page that list entry `e` of a stage names, and the error of naming it (R207, R210). DESIGN CHOICE, log entry 146. -/
def stageTarget (s : State) (x : Part) (w : WalkDue) (e : Nat) : Nat × Nat :=
  match walkEntry x w e with
  | none => (nullPage w.kd w.lc, 0)
  | some i =>
    let v := ptRead s x w.kd w.lc i
    if ptPoisoned s x w.kd w.lc i then (nullPage w.kd w.lc, 2)
    else if !ptValid v then (nullPage w.kd w.lc, 0)
    else if ptFmt v ≠ walkField w.record 1 1 % 4 then (nullPage w.kd w.lc, 3)
    else (ptPage v, 0)

/-- Pages `first` to `first + n - 1` of a stage, one after the other from address `a` on (R207), and the error they meet. -/
def stagePages (s : State) (x : Part) (w : WalkDue) (k : ClusterId) (a first n : Nat) : State × Nat :=
  (List.range n).foldl (fun (acc : State × Nat) i =>
    let m := stagePage (walkMeet acc.1 x w (first + i)) k (a + i * pageSize) (stageTarget s x w (first + i))
    (m.1, joinErr acc.2 m.2)) (s, 0)

/-- WALK_STAGE (R207). -/
def walkStageSteps (p : PartId) (w : WalkDue) (s : State) : Engine EngineOut := do
  let x := s.part p
  let n := walkField w.record 8 1
  let a ← walkBank s p w.lc (walkField w.record 12 4) (n * pageSize)
  match physCluster x w.lc with
  | none => .error .wait
  | some k =>
    if (s.cluster k).selfRefresh then .error .wait else
    let r := stagePages s x w k a (walkField w.record 6 2) n
    return .done r.1 (4 + 32 * n) r.2

/-- The list entries that an append of `n` records from length `len` on reaches. -/
def appendEntries (tpp len n : Nat) : List Nat :=
  (List.range ((len + n - 1) / tpp + 1 - len / tpp)).map (fun i => len / tpp + i)

/-- The error that an append meets in one entry (R210), of several causes that of 02 R50. An entry beyond CAP names no page, as one with VALID
0 does; a word that cannot be read gives 2 (DESIGN CHOICE, log entry 146). -/
def appendError (s : State) (x : Part) (w : WalkDue) (e : Nat) : Nat :=
  match walkEntry x w e with
  | none => 4
  | some i =>
    let v := ptRead s x w.kd w.lc i
    if ptPoisoned s x w.kd w.lc i then 2
    else if !ptValid v then 4
    else joinErr (if ptFmt v ≠ walkField w.record 1 1 % 4 then 3 else 0)
      (if countPoisoned s x w.kd (ptPage v) then 2 else if ptCow v || countOf s x w.kd (ptPage v) ≠ 1 then 4 else 0)

/-- The reads of an append in one entry: the entry, and the count of the page that it names. -/
def appendMeet (s : State) (x : Part) (w : WalkDue) (e : Nat) : State :=
  match walkEntry x w e with
  | none => s
  | some i =>
    let t := ptMeet s x w.kd w.lc i
    if ptValid (ptRead s x w.kd w.lc i) then countMeet t x w.kd (ptPage (ptRead s x w.kd w.lc i)) else t

/-- Write bytes in a stack and mark the units that receive a poisoned word. -/
def appendBytes (s : State) (src dst n : Nat) : State :=
  let marks := marksRead s.mem.bankPoison (src / 64) (wordsOf src n).2
  let t := stackWrite (meetBank s src n) dst (bankRead s src n)
  ((List.range marks.length).zip marks).foldl (fun t m => if m.2 then stackMark t ((dst + 64 * m.1) / 64) else t) t

/-- The `n` token records of `tr` bytes from bank address `a` on go to the pages and places of the sequence's length (R208). -/
def appendRecords (s : State) (x : Part) (w : WalkDue) (k : ClusterId) (q : Seq) (a tr tpp n : Nat) : State :=
  (List.range n).foldl (fun t i =>
    let j := q.len + i
    let v := ptRead s x w.kd w.lc (listBase w.kd q (walkField w.record 4 2) + j / tpp)
    appendBytes t (a + i * tr) (pageAddr k (ptPage v) + j % tpp * tr) tr) s

/-- WALK_APPEND (R208). -/
def walkAppendSteps (p : PartId) (w : WalkDue) (s : State) : Engine EngineOut := do
  let x := s.part p
  let n := walkField w.record 8 1
  let tr := 2 * walkField w.record 30 2
  let tpp := 16 * walkField w.record 29 1
  let a ← walkBank s p w.lc (walkField w.record 12 4) (n * tr)
  let beats := 4 + ceilDiv (n * tr) 2048
  match physCluster x w.lc, seqInSlot x (walkField w.record 2 2) with
  | none, _ => .error .wait
  | some _, none => return .done s beats 0
  | some k, some q =>
    if (s.cluster k).selfRefresh then .error .wait else
    let err := (appendEntries tpp q.len n).foldl (fun acc e => joinErr acc (appendError s x w e)) 0
    let s := (appendEntries tpp q.len n).foldl (fun t e => appendMeet t x w e) s
    if err ≠ 0 then return .done s beats err
    return .done (appendRecords s x w k q a tr tpp n) beats 0

/-- Number of the walk record that comes next, among those that its cluster's walker takes in the step, as events give it (19 R476). -/
def walkNumber (x : Part) (lc : Nat) : Nat := ((List.range (walkLists x lc).length).map (walkTaken x lc)).sum

/-- Issue a walk record that has run (R206, R209): after the last of its list the next turn comes. -/
def issueWalk (s : State) (p : PartId) (w : WalkDue) (beats err : Nat) : State :=
  let s := countBeats s p 5 w.lc beats 0
  let h := walkField w.record 26 3
  s.modPart p (fun x =>
    let x := setTurn x 5 w.lc (if w.last then (w.turn + 1) % (turnsOf x 5 w.lc).length else w.turn)
    { x with
    walkDone := assocSet (65536 * w.lc + w.list) (w.index + 1) x.walkDone
    inflight := x.inflight ++
      [{ cls := 5, inst := w.lc, queue := 0, index := walkNumber x w.lc, stepEnd := false,
         handover := if bitOf (walkField w.record 9 1) 2 then some { cluster := w.lc, bank := bitsOf h 5 0, owner := bitsOf h 9 6, unit := bitsOf h 13 10 } else none,
         signal := if bitOf (walkField w.record 9 1) 1 then some (walkField w.record 24 2, 1) else none,
         error := err, walk := true, awaiting := false, ticket := 0 }] })

/-- Take the walker's due record through its datapath. -/
def runWalk (s : State) (p : PartId) (lc kind : Nat) (op : WalkDue → State → Engine EngineOut) : Result :=
  match walkDue s p lc kind with
  | none => .next s
  | some w =>
    if walkReady (s.part p) w.record && !headPending (s.part p) lc then
      match (op w s).out with
      | .wait => .next (waits s p 5 lc)
      | .stall t => .next (waits t p 5 lc)
      | .bad a => .fault (.noSuchAddress a)
      | .done t n e => .next (issueWalk t p w n e)
    else .next (waits s p 5 lc)

def execWalkStage (p : PartId) (cluster : Nat) (s : State) : Result := runWalk s p cluster 1 (walkStageSteps p)
def execWalkAppend (p : PartId) (cluster : Nat) (s : State) : Result := runWalk s p cluster 2 (walkAppendSteps p)

/-! ## The copy phase (R212) -/

/-- Copy a page as it stands, its marks with it. -/
def copyPage (s : State) (k : ClusterId) (src dst : Nat) : State :=
  let off := src % 2 ^ 20 * pageSize
  moveToStack (meetStack s (stackAddr k off) pageSize) (pageAddr k dst) (stackPlain s k off pageSize) (marksRead s.mem.stackPoison (stackAddr k off / 64) (pageSize / 64))

/-- COPY_PHASE, after the house turn: the copies ordered at the boundary run; they add no work beats. -/
def execCopyPhase (p : PartId) (cluster : Nat) (s : State) : Result :=
  let x := s.part p
  match x.kv[cluster]?, physCluster x cluster with
  | some kc, some k =>
    if stepping s p && !(s.cluster k).selfRefresh && !x.houseTodo.contains cluster then
      let s := kc.copies.foldl (fun s c => copyPage s k c.1 c.2) s
      .next (s.modPart p (fun x => { x with kv := x.kv.set cluster { kc with copies := [] } }))
    else .next s
  | _, _ => .next s

/-! ## The house turn (05 R144) -/

/-- A bank address lies in the banks of a cluster. -/
def inCluster (k : ClusterId) (a : Nat) : Bool := bankAddr (36 * k.val) 0 ≤ a && a < bankAddr (36 * (k.val + 1)) 0

/-- A frame that a gather of an earlier step wrote into a cluster's banks and that the house turn has still to read. -/
def unhoused (k : ClusterId) (step : Nat) (e : JEntry) : Bool :=
  match e.dest with | some (a, _, st) => !e.housed && st < step && inCluster k a | none => false

/-- The observer ports of every bank that the `n` bytes at `a` touch serve the transfer engine (R136). -/
def observed (s : State) (a n : Nat) : Bool :=
  (List.range ((a + n - 1) / bankSize + 1 - a / bankSize)).all (fun i =>
    if h : a / bankSize + i < 288 then (s.owner ⟨a / bankSize + i, h⟩).observer == 1 else false)

/-- What a house turn leaves: the entries, what is left of the allowance, the frames moved in part, and the pieces read. -/
structure HouseRun where
  entries : List JEntry
  room    : Nat
  moved   : List (Nat × Nat)
  pieces  : List (Nat × Nat)

/-- What a house turn has still to read of an entry's frame: its address and length. A frame under a bank whose observer port serves another
unit waits. -/
def houseNeed (s : State) (k : ClusterId) (step : Nat) (moved : List (Nat × Nat)) (e : JEntry) : Option (Nat × Nat) :=
  match e.dest with
  | some (a, n, _) =>
    let m := (assocGet e.seq moved).getD 0
    if unhoused k step e && observed s a n then some (a + m, n - m) else none
  | none => none

/-- Read frames through the observer port, in sequence order, within an allowance of bytes. What is left of a frame when the allowance is used
up waits for a later step (DESIGN CHOICE, log entry 133). -/
def houseEntries (s : State) (k : ClusterId) (step : Nat) : Nat → List (Nat × Nat) → List JEntry → HouseRun
  | room, moved, [] => { entries := [], room := room, moved := moved, pieces := [] }
  | room, moved, e :: es =>
    match houseNeed s k step moved e with
    | none =>
      let r := houseEntries s k step room moved es
      { r with entries := e :: r.entries }
    | some (a, left) =>
      let n := min left room
      let r := houseEntries s k step (room - n)
        (if n = left then moved.filter (fun m => m.1 != e.seq) else assocSet e.seq (((assocGet e.seq moved).getD 0) + n) moved) es
      { r with entries := (if n = left then { e with housed := true } else e) :: r.entries, pieces := (a, n) :: r.pieces }

/-- The clusters whose house turn has something to move in the coming step: frames that gathers of earlier steps wrote, and in logical
cluster 0 what records, journal entries and events owe and what exports wait (DESIGN CHOICE, log entry 133). -/
def houseWork (x : Part) : List Nat :=
  (List.range x.clusters.length).filter (fun lc =>
    (lc == 0 && (0 < x.houseOwed || !x.exportRest.isEmpty)) || (match x.clusters[lc]? with | some k => x.journal.any (unhoused k x.step) | none => false))

/-- HOUSE_TURN, first in the turn list of every transfer instance: frames that gathers of earlier steps wrote are read through the
observer port, and in logical cluster 0 what records, journal entries and events owe and then what exports read (R31, R33) is moved, within
what is left of the step's house allowance; the rest waits for later steps. DESIGN CHOICE, log entry 133. -/
def execHouseTurn (p : PartId) (cluster : Nat) (s : State) : Result :=
  let x := s.part p
  match physCluster x cluster, x.image with
  | some k, some i =>
    if stepping s p && !(s.cluster k).selfRefresh then
      let used := (assocGet cluster x.houseUsed).getD 0
      let r := houseEntries s k x.step (i.houseMib * 2 ^ 20 - used) x.houseMoved x.journal
      let paid := if cluster = 0 then min x.houseOwed r.room else 0
      let sent := if cluster = 0 then min (exportOwed x) (r.room - paid) else 0
      .next (pumpExport p ((r.pieces.foldl (fun s g => meetBank s g.1 g.2) s).setPart p { x with
        journal := r.entries
        houseMoved := r.moved
        houseOwed := x.houseOwed - paid
        exportPaid := x.exportPaid + sent
        houseUsed := assocSet cluster (i.houseMib * 2 ^ 20 - (r.room - paid - sent)) x.houseUsed
        houseTodo := x.houseTodo.filter (fun c => c != cluster) }))
    else .next s
  | _, _ => .next s

end Sys2Proof.Machine
end

