-- ==== Sys2Proof/Machine/Pages.lean ====
section
/-! DEFINITION. Page actions at a boundary (07 R199–R214): sharing, allocation, copies, decrements, the cullet lists, and the
page references of checkpoints (01 R32, R34). -/

namespace Sys2Proof.Machine

/-- Change one sequence of a partition. -/
def modSeq (s : State) (p : PartId) (n : Nat) (f : Seq → Seq) : State :=
  s.modPart p (fun x => { x with seqs := updFirst (fun q => q.seq == n) f x.seqs })

/-- Change the KV state of a logical cluster. -/
def modKv (s : State) (p : PartId) (lc : Nat) (f : KvCluster → KvCluster) : State :=
  s.modPart p (fun x => { x with kv := x.kv.modify lc f })

/-- The logical clusters that hold page lists. -/
def poolClusters (kd : KvDecl) : List Nat := (List.range kd.pools.length).filter (fun lc => 0 < kd.pools.getD lc 0)

/-- A sequence that holds a page-table range. -/
def SeqState.holds (t : SeqState) : Bool := t != .free && t != .queued

/-- The places of a sequence's page lists: cluster, list, entry. -/
def listPlaces (kd : KvDecl) : List (Nat × Nat × Nat) :=
  (poolClusters kd).flatMap (fun lc => (List.range kd.lists).flatMap (fun l => (List.range kd.cap).map (fun e => (lc, l, e))))

/-- A sequence's entry at a place. -/
def seqEntry (s : State) (p : PartId) (kd : KvDecl) (q : Seq) (lc l e : Nat) : Nat := ptRead s (s.part p) kd lc (listBase kd q l + e)

def setSeqEntry (s : State) (p : PartId) (kd : KvDecl) (q : Seq) (lc l e v : Nat) : State :=
  ptWrite s (s.part p) kd lc (listBase kd q l + e) v

/-- An entry that names `page`, with its copy-on-write mark. -/
def entryFor (s : State) (p : PartId) (kd : KvDecl) (page : Nat) (cow : Bool) : Nat := ptEntry page kd.fmt cow (pageGen s (s.part p) page)

/-- Set or clear COW_PENDING in every entry that names a page (R211). -/
def markCow (s : State) (p : PartId) (kd : KvDecl) (page : Nat) (cow : Bool) : State :=
  let lc := bitsOf page 22 20
  ((s.part p).seqs.filter (fun q => q.state.holds)).foldl (fun s q =>
    ((List.range kd.lists).flatMap (fun l => (List.range kd.cap).map (fun e => (l, e)))).foldl (fun s g =>
      let v := seqEntry s p kd q lc g.1 g.2
      if ptValid v && ptPage v = page && ptCow v != cow then setSeqEntry s p kd q lc g.1 g.2 (entryFor s p kd page cow) else s) s) s

/-! ## Action 1: sharing a prefix (R211, 08 R221) -/

/-- Share the page of one entry of the source: the count rises, or the entry is marked for a private copy. -/
def shareEntry (s : State) (p : PartId) (kd : KvDecl) (q src : Seq) (lc l e : Nat) : State :=
  let v := seqEntry s p kd src lc l e
  let s := ptMeet s (s.part p) kd lc (listBase kd src l + e)
  if !ptValid v then s else
  let c := countOf s (s.part p) kd (ptPage v)
  let s := countMeet s (s.part p) kd (ptPage v)
  if c < 65535 then
    let s := setCount s (s.part p) kd (ptPage v) (c + 1)
    let s := setSeqEntry s p kd q lc l e (entryFor s p kd (ptPage v) true)
    markCow s p kd (ptPage v) true
  else
    let s := setSeqEntry s p kd q lc l e 0
    modKv s p lc (fun k => { k with marks := k.marks ++ [(q.slot.getD 0, l, e, ptPage v)] })

/-- Share the pages that cover the first `n` tokens. -/
def sharePages (s : State) (p : PartId) (kd : KvDecl) (q src : Seq) (n : Nat) : State :=
  ((listPlaces kd).filter (fun g => g.2.2 * kd.tpp < n)).foldl (fun s g => shareEntry s p kd q src g.1 g.2.1 g.2.2) s

/-! ## Action 2: allocations, copies-on-write, private copies (R211, R212) -/

/-- What action 2 has done in a logical cluster: the state, copies granted, sequences held over, and old pages of
copies-on-write. -/
structure Alloc where
  s      : State
  copies : Nat
  held   : List Nat
  drops  : List Nat

/-- Take the page at the cullet head. -/
def takePage (s : State) (p : PartId) (lc : Nat) : Option (Nat × State) :=
  match (s.part p).kv[lc]? with
  | some k => match k.cullet with
    | g :: rest => some (g, modKv s p lc (fun k => { k with cullet := rest }))
    | [] => none
  | none => none

/-- Hold a sequence over. -/
def Alloc.holdOver (a : Alloc) (q : Seq) : Alloc := { a with held := if a.held.contains q.seq then a.held else a.held ++ [q.seq] }

/-- Give an entry a new page with count 1, and order a copy when it has a source. -/
def Alloc.give (a : Alloc) (p : PartId) (kd : KvDecl) (q : Seq) (lc l e : Nat) (src : Option Nat) : Alloc :=
  if src.isSome && kd.copyAllowance ≤ a.copies then a.holdOver q else
  match takePage a.s p lc with
  | none => a.holdOver q
  | some (page, s) =>
    let s := setCount s (s.part p) kd page 1
    let s := setSeqEntry s p kd q lc l e (entryFor s p kd page false)
    let s := match src with | some g => modKv s p lc (fun k => { k with copies := k.copies ++ [(g, page)] }) | none => s
    { a with s := s, copies := a.copies + bit src.isSome }

/-- Action 2 at one entry: it reads the entry, and the count of a valid one (05 R159). -/
def Alloc.entry (a : Alloc) (p : PartId) (kd : KvDecl) (q : Seq) (lc l e : Nat) : Alloc :=
  let marks := (((a.s.part p).kv[lc]?).map (fun k => k.marks)).getD []
  match marks.find? (fun m => some m.1 == q.slot && m.2.1 == l && m.2.2.1 == e) with
  | some m =>
    let b := a.give p kd q lc l e (some m.2.2.2)
    if ptValid (seqEntry b.s p kd q lc l e) then { b with s := modKv b.s p lc (fun k => { k with marks := k.marks.erase m }) } else b
  | none =>
    let v := seqEntry a.s p kd q lc l e
    let t := ptMeet a.s (a.s.part p) kd lc (listBase kd q l + e)
    let a := { a with s := if ptValid v then countMeet t (t.part p) kd (ptPage v) else t }
    if !ptValid v then a.give p kd q lc l e none
    else if 1 < countOf a.s (a.s.part p) kd (ptPage v) then
      let b := a.give p kd q lc l e (some (ptPage v))
      if ptPage (seqEntry b.s p kd q lc l e) = ptPage v then b else { b with drops := b.drops ++ [ptPage v] }
    else if ptCow v then { a with s := setSeqEntry a.s p kd q lc l e (entryFor a.s p kd (ptPage v) false) }
    else a

/-- The entries of a list that a sequence's `n` appends of the coming step reach, or that are marked.
DESIGN CHOICE, log entry 43. -/
def neededEntries (kd : KvDecl) (n : Nat) (q : Seq) (marks : List (Nat × Nat × Nat × Nat)) (l : Nat) : List Nat :=
  (List.range kd.cap).filter (fun e =>
    (0 < n && q.len / kd.tpp ≤ e && e ≤ (q.len + n - 1) / kd.tpp) || marks.any (fun m => some m.1 == q.slot && m.2.1 == l && m.2.2.1 == e))

/-- Action 2 in a logical cluster: ascending batch slot, then list, then entry. The appends of a slot are those that the step kind holds for
it (R208, R211). DESIGN CHOICE, log entry 43. -/
def allocCluster (a : Alloc) (p : PartId) (kd : KvDecl) (lc : Nat) (qs : List Seq) : Alloc :=
  let a := { a with copies := 0 }
  qs.foldl (fun a q =>
    (List.range kd.lists).foldl (fun a l =>
      let marks := (((a.s.part p).kv[lc]?).map (fun k => k.marks)).getD []
      (neededEntries kd ((q.slot.map (slotAppends (a.s.part p))).getD 0) q marks l).foldl (fun a e => a.entry p kd q lc l e) a) a) a

/-! ## Actions 3 and 4: decrements and returns (R211, R213) -/

/-- One reference to a page goes: a count that reaches 0 puts the page among those that join the cullet list one boundary
later; one that reaches 1 clears COW_PENDING in the entry left. -/
def dropRef (s : State) (p : PartId) (kd : KvDecl) (page : Nat) : State :=
  let c := countOf s (s.part p) kd page
  let s := setCount (countMeet s (s.part p) kd page) (s.part p) kd page (c - 1)
  if c = 1 then modKv s p (bitsOf page 22 20) (fun k => { k with zeroed := k.zeroed ++ [page] })
  else if c = 2 then markCow s p kd page false
  else s

/-- The pages of a sequence that leaves: each is decremented and its entries become 0 (08 R223).
DESIGN CHOICE, log entry 48. -/
def releasePages (s : State) (p : PartId) (kd : KvDecl) (q : Seq) : State :=
  let s := (listPlaces kd).foldl (fun s g =>
    let v := seqEntry s p kd q g.1 g.2.1 g.2.2
    let s := ptMeet s (s.part p) kd g.1 (listBase kd q g.2.1 + g.2.2)
    if ptValid v then dropRef (setSeqEntry s p kd q g.1 g.2.1 g.2.2 0) p kd (ptPage v) else s) s
  s.modPart p (fun x => { x with kv := x.kv.map (fun k => { k with marks := k.marks.filter (fun m => some m.1 != q.slot) }) })

/-- Insertion of a page in ascending order. -/
def pageInsert (g : Nat) : List Nat → List Nat
  | [] => [g]
  | h :: hs => if g ≤ h then g :: h :: hs else h :: pageInsert g hs

/-- Action 4: the pages whose count reached 0 at the previous boundary, given per cluster, join in ascending number.
DESIGN CHOICE, log entry 48. -/
def returnPages (s : State) (p : PartId) (old : List (List Nat)) : State :=
  s.modPart p (fun x => { x with kv := ((List.range x.kv.length).zip x.kv).map (fun k =>
    let o := old.getD k.1 []
    { k.2 with cullet := k.2.cullet ++ o.foldl (fun l g => pageInsert g l) [], zeroed := k.2.zeroed.drop o.length }) })

/-! ## Checkpoint references (01 R32–R34) -/

/-- The pages that valid entries name, each once. -/
def pagesInUse (s : State) (p : PartId) (kd : KvDecl) : List Nat :=
  ((s.part p).seqs.filter (fun q => q.state.holds)).foldl (fun l q =>
    (listPlaces kd).foldl (fun l g =>
      let v := seqEntry s p kd q g.1 g.2.1 g.2.2
      if ptValid v && !l.contains (ptPage v) then l ++ [ptPage v] else l) l) []

/-- A checkpoint's references fit every count (R204). -/
def refsFit (s : State) (p : PartId) (kd : KvDecl) (pages : List Nat) : Bool :=
  pages.all (fun g => countOf s (s.part p) kd g < 65535)

/-- One checkpoint reference per page. -/
def holdPages (s : State) (p : PartId) (kd : KvDecl) (pages : List Nat) : State :=
  pages.foldl (fun s g => markCow (setCount (countMeet s (s.part p) kd g) (s.part p) kd g (countOf s (s.part p) kd g + 1)) p kd g true) s

/-! ## Arming (R200, R201, R204, R205) -/

/-- At arming every entry and count is 0, the null page is zeroed, and the other pages enter the cullet list in ascending
number. -/
def armKv (s : State) (p : PartId) : State :=
  match kvDecl (s.part p) with
  | none => s.modPart p (fun x => { x with kv := [] })
  | some kd =>
    let x := s.part p
    let s := (poolClusters kd).foldl (fun s lc =>
      let s := match ptAddr s x kd lc 0 with | some a => bankZero s a bankSize | none => s
      match physCluster x lc with
      | some k =>
        let s := stackZero s (stackAddr k (kd.countOffset + 2 * kd.poolFirst)) (2 * kd.pools.getD lc 0)
        stackZero s (pageAddr k (nullPage kd lc)) pageSize
      | none => s) s
    s.modPart p (fun x => { x with kv := (List.range kd.pools.length).map (fun lc =>
      { cullet := (List.range (kd.pools.getD lc 0 - 1)).map (fun i => nullPage kd lc + 1 + i), zeroed := [], copies := [], marks := [] }) })

end Sys2Proof.Machine
end

