-- ==== Sys2Proof/Machine/VideoStore.lean ====
section
/-! DEFINITION. The context store and the frame buffers of the video engines (09 R249–R255). -/

namespace Sys2Proof.Machine

/-- The die of a Video instance (02 R42). -/
def dieOfInst (n : Nat) : DieId := ⟨n % 2, by omega⟩

/-- A field of a context's descriptor (R250). -/
def VidContext.field (c : VidContext) (off n : Nat) : Nat := fieldAt c.desc off n

/-- Bytes of a frame buffer (R252). -/
def bufferBytes (width height profile : Nat) : Nat :=
  let fb := ceilDiv width 64 * 64 * (ceilDiv height 64 * 64) * 3 / 2 * (if profile = 1 then 2 else 1)
  ceilDiv fb 32768 * 32768

/-- Bytes of a context's frame buffers. -/
def VidContext.bufferBytes (c : VidContext) : Nat := Machine.bufferBytes (c.field 4 2) (c.field 6 2) (c.field 2 1)

/-- Stack address of the buffer of a pool entry (R252). -/
def vidBufferAddr (x : Part) (c : VidContext) (entry : Nat) : Option Nat :=
  (physCluster x (c.field 32 1)).map (fun k => stackAddr k (c.field 40 8 + (entry - c.field 28 2) * c.bufferBytes))

/-- Change the context with an engine context number. -/
def modContext (s : State) (d : DieId) (n : Nat) (f : VidContext → VidContext) : State :=
  s.modEngine d (fun v => { v with contexts := updFirst (fun c => c.ctx == n) f v.contexts })

/-- The contexts of a partition, with their dies. -/
def partContexts (s : State) (p : PartId) : List (Nat × VidContext) :=
  (List.finRange 2).flatMap (fun d => ((s.engine d).contexts.filter (fun c => c.part == p.val)).map (fun c => (d.val, c)))

/-- The contexts of a partition by their numbers within the partition, as a checkpoint holds them (R255). -/
def ownContexts (s : State) (p : PartId) : List (Nat × VidContext) :=
  (List.finRange 2).flatMap (fun d => ((s.engine d).contexts.filter (fun c => c.part == p.val)).map (fun c =>
    (d.val, { c with ctx := c.ctx - 16 * (s.engine d).ctxFirst.get p })))

/-- The frame buffers of a context that are not FREE: address and size (R255). -/
def heldBuffers (x : Part) (c : VidContext) : List (Nat × Nat) :=
  c.pool.filterMap (fun e => if e.mark = .free && !e.pending then none else (vidBufferAddr x c e.entry).map (fun a => (a, c.bufferBytes)))

/-- Close every context of a partition (R249). -/
def closeContexts (s : State) (p : PartId) : State :=
  [(0 : DieId), 1].foldl (fun s d => s.modEngine d (fun v => { v with
    contexts := v.contexts.filter (fun c => c.part != p.val)
    suspended := v.suspended.filter (fun r => r.1 != p.val)
    running := match v.running with | some r => if r.1 = p.val then none else some r | none => none })) s

end Sys2Proof.Machine
end

