-- ==== Sys2Proof/Machine/Checkpoints.lean ====
section
/-! DEFINITION. Checkpoints and their restoration (01 R32–R36; 09 R255), the release of a step (02 R45, R53; 05 R133), and the
abandoning of a step by a hard stop (04 R122, R123). -/

namespace Sys2Proof.Machine

/-! ## What a checkpoint captures (R32) -/

/-- Cells moved to other addresses. -/
def shiftCells (cs : List Host.Cell) (base to_ : Nat) : List Host.Cell := cs.map (fun c => (c.1 - base + to_, c.2))

/-- Marks of `n` words from word `w`, moved to other words. -/
def shiftMarks (vs : List Nat) (w n to_ : Nat) : List Nat := (vs.filter (fun v => w ≤ v && v < w + n)).map (fun v => v - w + to_)

/-- The carried banks, by item, and their marks. -/
def carriedCells (s : State) (x : Part) : List Host.Cell :=
  x.places.flatMap (fun c => shiftCells (cellsIn s.mem.banks (bankAddr c.2 0) bankSize) (bankAddr c.2 0) (bankAddr c.1 0))

def carriedMarks (s : State) (x : Part) : List Nat :=
  x.places.flatMap (fun c => shiftMarks s.mem.bankPoison (c.2 * 32768) 32768 (c.1 * 32768))

/-- Where a logical cluster's page table and count table lie among the captured tables: 2 MiB each. -/
def tableKey (lc : Nat) (count : Bool) : Nat := lc * 2 ^ 22 + bit count * 2 ^ 21

/-- Page tables and count tables. -/
def tableCells (s : State) (x : Part) (kd : KvDecl) : List Host.Cell :=
  (poolClusters kd).flatMap (fun lc =>
    (match ptAddr s x kd lc 0 with
     | some a => shiftCells (cellsIn s.mem.banks a bankSize) a (tableKey lc false)
     | none => []) ++
    (match countAddr x kd (nullPage kd lc) with
     | some a => shiftCells (cellsIn s.mem.hbm a (2 * kd.pools.getD lc 0)) a (tableKey lc true)
     | none => []))

/-- The poison marks of the same tables, by word of their place. -/
def tableMarks (s : State) (x : Part) (kd : KvDecl) : List Nat :=
  (poolClusters kd).flatMap (fun lc =>
    (match ptAddr s x kd lc 0 with
     | some a => shiftMarks s.mem.bankPoison (a / 64) 32768 (tableKey lc false / 64)
     | none => []) ++
    (match countAddr x kd (nullPage kd lc) with
     | some a => shiftMarks s.mem.stackPoison (a / 64) (ceilDiv (2 * kd.pools.getD lc 0) 64) (tableKey lc true / 64)
     | none => []))

/-- The poison marks of the pages in use, by unit of the page. -/
def pageMarks (s : State) (x : Part) (pages : List Nat) : List Nat :=
  pages.flatMap (fun g => match physCluster x (bitsOf g 22 20) with
    | some k => shiftMarks s.mem.stackPoison (pageAddr k g / 64) 1024 (g * 1024)
    | none => [])

/-- The content of the pages in use. -/
def pageCells (s : State) (x : Part) (pages : List Nat) : List Host.Cell :=
  pages.flatMap (fun g => match physCluster x (bitsOf g 22 20) with
    | some k => shiftCells (cellsIn s.mem.hbm (pageAddr k g) pageSize) (pageAddr k g) (g * pageSize)
    | none => [])

/-- The poison marks of the frame buffers, at the same places, by unit. -/
def bufferMarks (s : State) (p : PartId) : List Nat :=
  (partContexts s p).flatMap (fun c => (heldBuffers (s.part p) c.2).flatMap (fun b =>
    shiftMarks s.mem.stackPoison (b.1 / 64) (b.2 / 64) ((b.1 % stackSize + stackAddr (c.2.field 32 1) 0) / 64)))

/-- The frame buffers not FREE, at their places in the partition's logical clusters. -/
def bufferCells (s : State) (p : PartId) : List Host.Cell :=
  (partContexts s p).flatMap (fun c => (heldBuffers (s.part p) c.2).flatMap (fun b =>
    shiftCells (cellsIn s.mem.hbm b.1 b.2) (b.1 - b.1 % stackSize) (stackAddr (c.2.field 32 1) 0)))

/-- The checkpoint of a partition as it stands at the start of its step, with the pages whose references were raised for it. -/
def capture (s : State) (p : PartId) : Checkpoint :=
  let x := s.part p
  let pages := x.ckptPages
  { step := x.step, cells := carriedCells s x, marks := carriedMarks s x, tallies := x.tallies, queues := x.queues, seqs := x.seqs,
    tables := match kvDecl x with | some kd => tableCells s x kd | none => [], kv := x.kv, seedGen := x.seedGen, epoch := x.epoch,
    layout := x.layout, kind := x.kind, firstSeq := x.firstSeq, nextSeq := x.nextSeq, nextSeqNo := x.nextSeqNo, paused := x.pausedStack,
    status := x.status, adapters := x.adapters, pages := pages, older := x.ckptDrop ++ (x.ckpt.map (fun o => o.pages)).getD [],
    pageData := pageCells s x pages, video := ownContexts s p, buffers := bufferCells s p, bufMarks := bufferMarks s p,
    tabMarks := match kvDecl x with | some kd => tableMarks s x kd | none => [], pageMarks := pageMarks s x pages,
    taken := ((x.journal.filter (fun e => e.taken && e.paired && x.firstSeq ≤ e.seq)).map (fun e => e.seq)) }

/-- The bit errors that the copies of a checkpoint meet. -/
def meetCapture (s : State) (p : PartId) : State :=
  let x := s.part p
  let s := x.places.foldl (fun s c => meetBank s (bankAddr c.2 0) bankSize) s
  let s := x.ckptPages.foldl (fun s g => match physCluster x (bitsOf g 22 20) with | some k => meetStack s (pageAddr k g) pageSize | none => s) s
  (partContexts s p).foldl (fun s c => (heldBuffers x c.2).foldl (fun s b => meetStack s b.1 b.2) s) s

/-! ## Restoration (R32, R36, R122; 13 R370) -/

/-- Zero a range of the banks or stacks and write the captured cells of `n` bytes from key `key` there. -/
def putBanks (s : State) (cs : List Host.Cell) (key n a : Nat) : State :=
  (cellsIn cs key n).foldl (fun s c => bankWrite s (c.1 - key + a) [c.2]) (bankZero s a n)

def putStacks (s : State) (cs : List Host.Cell) (key n a : Nat) : State :=
  (cellsIn cs key n).foldl (fun s c => stackWrite s (c.1 - key + a) [c.2]) (stackZero s a n)

/-- Mark `n` captured words from word `w` at word `to_` of the banks, and of the stacks. -/
def markBanks (s : State) (vs : List Nat) (w n to_ : Nat) : State := (shiftMarks vs w n to_).foldl bankMark s
def markStacks (s : State) (vs : List Nat) (w n to_ : Nat) : State := (shiftMarks vs w n to_).foldl stackMark s

/-- Write the carried banks of a checkpoint into their places in the layout in force. -/
def putCarried (s : State) (p : PartId) (c : Checkpoint) : State :=
  let new := carriedPlaces s (s.part p)
  let s := new.foldl (fun s g =>
    markBanks (putBanks s c.cells (bankAddr g.1 0) bankSize (bankAddr g.2 0)) c.marks (g.1 * 32768) 32768 (g.2 * 32768)) s
  s.modPart p (fun x => { x with places := new })

/-- Write the tables and pages of a checkpoint, with their poison marks (05 R156). -/
def putTables (s : State) (p : PartId) (c : Checkpoint) : State :=
  match kvDecl (s.part p) with
  | none => s
  | some kd =>
    let x := s.part p
    let s := (poolClusters kd).foldl (fun s lc =>
      let s := match ptAddr s x kd lc 0 with | some a => markBanks (putBanks s c.tables (tableKey lc false) bankSize a) c.tabMarks (tableKey lc false / 64) 32768 (a / 64) | none => s
      match countAddr x kd (nullPage kd lc) with
      | some a =>
        let n := 2 * kd.pools.getD lc 0
        markStacks (putStacks s c.tables (tableKey lc true) n a) c.tabMarks (tableKey lc true / 64) (ceilDiv n 64) (a / 64)
      | none => s) s
    c.pages.foldl (fun s g => match physCluster x (bitsOf g 22 20) with
      | some k => markStacks (putStacks s c.pageData (g * pageSize) pageSize (pageAddr k g)) c.pageMarks (g * 1024) 1024 (pageAddr k g / 64)
      | none => s) s

/-- Write back the contexts, under the engine context numbers of the partition's blocks here, and the frame buffers of a checkpoint (09
R255). -/
def putVideo (s : State) (p : PartId) (c : Checkpoint) : State :=
  let s := closeContexts s p
  let s := c.video.foldl (fun s v => s.modEngine (dieOfInst v.1) (fun e => { e with contexts := e.contexts ++ [{ v.2 with part := p.val, ctx := v.2.ctx + 16 * e.ctxFirst.get p }] })) s
  (partContexts s p).foldl (fun s v => (heldBuffers (s.part p) v.2).foldl (fun s b =>
    let key := b.1 % stackSize + stackAddr (v.2.field 32 1) 0
    markStacks (putStacks s c.buffers key b.2 b.1) c.bufMarks (key / 64) (b.2 / 64) (b.1 / 64)) s) s

/-- The journal as a checkpoint left it: the entries that its boundary had taken are taken. -/
def journalAt (c : Checkpoint) (js : List JEntry) : List JEntry :=
  js.map (fun e => if e.seq < c.firstSeq then e else
    { e with taken := c.taken.contains e.seq, dest := none, housed := false })

/-- The adapters after a restoration: the bindings `old` of the checkpoint, with the bodies that came since (08 R236). A version whose load is
newer than the checkpoint is one that has not become current yet. -/
def mergeAdapters (old now : List Adapter) : List Adapter :=
  let same := fun (a b : Adapter) => a.slot == b.slot && a.ident == b.ident && a.version == b.version
  (old.filter (fun a => a.state != .awaiting || now.any (same a))).map (fun a => match now.find? (same a) with
    | some b => if a.state == .awaiting && b.state != .awaiting then { a with state := .loaded, loadedAt := b.loadedAt } else a
    | none => a) ++
  (now.filter (fun b => !old.any (fun a => same a b))).map (fun b => { b with state := if b.state == .awaiting then .awaiting else .loaded, bound := 0 })

/-- Restore a checkpoint: the partition stands at its boundary, before the release of its step. `layout` is the layout for it. The stamps of
its boundaries and their holds stay: a catch-up runs the steps again under the same stamps (08 R232; 04 R122). -/
def restore (s : State) (p : PartId) (c : Checkpoint) (layout : Nat) : State :=
  let s := s.modPart p (fun x => { x with
    step := c.step
    layout := layout
    kind := c.kind
    epoch := c.epoch
    seedGen := c.seedGen
    seed := (assocGet c.seedGen x.seeds).getD x.seed
    seeds := assocSet c.seedGen ((assocGet c.seedGen x.seeds).getD x.seed) x.seeds
    ckptDrop := c.older
    tallies := c.tallies
    bases := c.tallies
    queues := c.queues
    seqs := c.seqs
    kv := c.kv
    adapters := mergeAdapters c.adapters x.adapters
    nextSeqNo := c.nextSeqNo
    pausedStack := c.paused
    status := c.status
    firstSeq := c.firstSeq
    journal := journalAt c x.journal
    inflight := []
    chans := []
    emits := []
    emitted := []
    batch := []
    stepWork := 0
    released := false
    restored := true })
  putVideo (putTables (putCarried s p c) p c) p c

/-! ## The release of a step -/

/-- Copy the generation map into the page-table entries (07 R201); in generation 0 every bit is 0. -/
def refreshGen (s : State) (p : PartId) : State :=
  match kvDecl (s.part p) with
  | none => s
  | some kd =>
    if (s.part p).keys.memGen = 0 then s else
    ((s.part p).seqs.filter (fun q => q.state.holds)).foldl (fun s q => (listPlaces kd).foldl (fun s g =>
      let v := seqEntry s p kd q g.1 g.2.1 g.2.2
      let w := ptEntry (ptPage v) (ptFmt v) (ptCow v) (pageGen s (s.part p) (ptPage v))
      if ptValid v && v != w then setSeqEntry s p kd q g.1 g.2.1 g.2.2 w else s) s) s

/-- Owners, ring entries, generation bits and step bases of the coming step (05 R133; 07 R201; 02 R45, R53), whose turns start at the head,
the house turn first (05 R144). -/
def prepareStep (s : State) (p : PartId) : State :=
  let s := refreshGen (writeRings (writeOwners s p) p (s.part p).step) p
  s.modPart p (fun x => { x with bases := x.tallies, turns := [], walkDone := [], houseUsed := [], houseTodo := houseWork x, videoMoved := [] })

/-- Release the step (01 R21). -/
def releaseStep (s : State) (p : PartId) : State :=
  s.modPart p (fun x => { x with released := true, restored := false, stalled := false, hold := { x.hold with step := Vector.replicate 4 0 } })

/-! ## Layouts at a boundary (04 R119, R120) -/

/-- Change the newest step record. -/
def modRec (s : State) (p : PartId) (f : StepRecord → StepRecord) : State :=
  s.modPart p (fun x => { x with records := match x.records with | r :: rs => f r :: rs | [] => [] })

/-- Append an entry to the newest step record. -/
def recEntry (s : State) (p : PartId) (kind a b c : Nat) : State :=
  modRec s p (fun r => { r with entries := r.entries ++ [{ kind := kind, a := a, b := b, c := c }] })

/-- Set a flag of the newest step record. -/
def recFlag (s : State) (p : PartId) (i : Nat) : State :=
  modRec s p (fun r => { r with flags := if bitOf r.flags i then r.flags else r.flags + 2 ^ i })

/-- Hold a partition at its boundary for want of a layout (R120). The changes of its fenced set keep their entries for the selection that
ends the hold. DESIGN CHOICE, log entry 42. -/
def noLayout (s : State) (p : PartId) (changes : List (Option CoreId)) : State :=
  let s := changes.foldl (fun s c => match c with | some c => fenceEvent s c (causeCode (s.core c).cause) (s.part p).layout | none => s) s
  (s.modPart p (fun x => { x with holdAt := some .noLayout, unsettled := x.unsettled ++ changes })).event srcGaffer 0x0203 p.val (leBytes 8 (fencedMask s (s.part p)))

/-! ## Hard stops (04 R122, R123) -/

/-- Hold a partition whose catch-up is abandoned (R123). -/
def catchUpFail (s : State) (p : PartId) (cause : Nat) : State :=
  (s.modPart p (fun x => { x with holdAt := some .catchUpImpossible, released := false })).event srcGaffer 0x0204 p.val (leBytes 1 cause)

/-- The payloads from a checkpoint on are in the journal. -/
def payloadsHeld (x : Part) (c : Checkpoint) : Bool :=
  x.journal.all (fun e => e.seq < c.firstSeq || bitOf e.flags 3 || e.payload.isSome)

/-- Stream ids of the frames of the abandoned step that have left. DESIGN CHOICE, log entry 40. -/
def sentIds (x : Part) : List Nat :=
  match x.catchUp with
  | some t => if x.step = t then x.sent ++ x.emitted.map (fun e => e.1) else x.sent
  | none => x.emitted.map (fun e => e.1)

/-- The records that a catch-up runs by: the partition's own, and for the steps that an earlier catch-up has not reached again those that it
runs by (R122). A replay keeps the records it was given. -/
def keptRecords (x : Part) : List StepRecord :=
  if x.replay then x.supplied
  else if x.catchUp.isSome then x.supplied.filter (fun r => x.step ≤ r.step) ++ x.records
  else x.records

/-- Abandon the step: restore the newest complete checkpoint and run the recorded steps again (R122), or hold (R123); an interval without a
complete checkpoint yet counts as none. A checkpoint that was still being exported is dropped. DESIGN CHOICE, log entry 39. DESIGN CHOICE, log entry 40. -/
def abandonStep (s : State) (p : PartId) : State :=
  let x := s.part p
  match x.ckpt, x.image with
  | some c, some i =>
    if i.checkpoint = 0 then catchUpFail s p 1
    else if !payloadsHeld x c then catchUpFail s p 2
    else
      let s := { s with requests := s.requests.filter (fun r => r.part != p.val || (r.use == StoreUse.exports && r.queue != 1)) }
      let s := s.modPart p (fun x => { x with
        ckptNew := none
        exportRest := x.exportRest.filter (fun e => e.1 != 1)
        exportPaid := 0
        supplied := keptRecords x
        records := x.records.filter (fun r => r.step ≤ c.step)
        sent := sentIds x
        catchUp := some (max x.step (x.catchUp.getD 0)) })
      match pickLayout s (s.part p) with
      | some n => restore s p c n
      | none => noLayout (restore s p c (s.part p).layout) p []
  | _, _ => catchUpFail s p 1

/-- A hard stop of a core (R117, R122): its fence is a change of the fenced set, whose entry goes into the record of the step from which
the partition runs again (R119). DESIGN CHOICE, log entry 39. -/
def hardStop (s : State) (p : PartId) (c : CoreId) : State :=
  let s := s.event c.val 0x0103 p.val (leBytes 8 (s.part p).step)
  let s := fenceCore (s.modCore c (fun k => { k with cause := .hardStop, causeAt := s.stamp })) c
  let s := s.modPart p (fun x => { x with unsettled := x.unsettled ++ [some c] })
  let s := abandonStep s p
  fenceEvent s c (causeCode .hardStop) (s.part p).layout

/-! ## Fences and readmissions of a partition that runs no step (R117, R126) -/

/-- Move the carried banks of a partition that runs no step; an uncorrectable word is a hard stop of the core that holds it (R121).
DESIGN CHOICE, log entry 136. -/
def moveOrStop (s : State) (p : PartId) : State :=
  let r := moveCarried s p
  match r.2.bind coreOfBank with
  | some c => hardStop r.1 p c
  | none => r.1

/-- Take a core out for a cause: at once while its partition runs no step, else at the next boundary (R117, R126). A core that is not in
service is left as it is (DESIGN CHOICE, log entry 136). -/
def fenceFor (s : State) (c : CoreId) (cause : FenceCause) : State :=
  if (s.core c).state ≠ .inService then s else
  let s := s.modCore c (fun k => { k with state := .fencePending, cause := cause, causeAt := s.stamp })
  match partOfCore s c with
  | some p =>
    if (s.part p).state = .running then s else
    let s := fenceCore s c
    let s := if (s.part p).state = .armed then
        match pickLayout s (s.part p) with
        | some n => moveOrStop (s.modPart p (fun x => { x with layout := n })) p
        | none => s
      else s
    fenceEvent s c (causeCode cause) (s.part p).layout
  | none => fenceEvent (fenceCore s c) c (causeCode cause) 0

/-- A partition that comes to run no step takes its pending fences and readmissions at once, with no epoch wait, and its layout
is selected again (R126); no step record is open, so none of them is an entry. DEDUCED, log entry 125. -/
def settleCores (s : State) (p : PartId) : State :=
  let out := (partCores (s.part p)).filter (fun c => (s.core c).state == .fencePending)
  let r := readmit p (fun t => pickLayout t (t.part p)) 64 (out.foldl fenceCore s) (dueRejoins s (s.part p) (s.stamp + 1))
  if out.isEmpty && r.2.isEmpty then s else
    let s := match pickLayout r.1 (s.part p) with
      | some n => moveOrStop (r.1.modPart p (fun x => { x with layout := n })) p
      | none => r.1
    let s := out.foldl (fun s c => fenceEvent s c (causeCode (s.core c).cause) (s.part p).layout) s
    r.2.foldl (fun s c => fenceEvent s c 0 (s.part p).layout) s

end Sys2Proof.Machine
end

