-- ==== Sys2Proof/Machine/Beats.lean ====
section
/-! DEFINITION. What a paired partition sends (13 R357, R359): heartbeats on the claim lanes and parts over the mirror set. -/

namespace Sys2Proof.Machine

/-- OCRC of a step, from its record (01 R30); 0 where there is none. -/
def ocrcOf (x : Part) (step : Nat) : Nat := ((x.records.find? (fun r => r.step == step)).map (fun r => r.ocrc.toNat)).getD 0

/-- Bytes 0–59 of a heartbeat record (R357). -/
def beatBytes (h : Heartbeat) : Bytes :=
  leBytes 4 0x54424C43 ++ leBytes 2 h.place ++ leBytes 1 h.part ++ leBytes 1 h.bflags ++ leBytes 2 h.group ++ zeros 2 ++ leBytes 4 h.claim ++
  leBytes 4 h.highest ++ leBytes 8 h.step ++ leBytes 4 h.ocrc ++ leBytes 8 h.time ++ leBytes 8 h.serial ++ leBytes 4 h.cabinet ++ zeros 8

/-- A heartbeat record with its RCRC. -/
def sealBeat (h : Heartbeat) : Heartbeat := { h with rcrc := crc32c (beatBytes h) }

/-- The heartbeat of a partition (R357); a PULLED one takes the place of a HELD one (17 R459). -/
def heartbeatOf (s : State) (p : PartId) (pulled : Bool) : Heartbeat :=
  let x := s.part p
  sealBeat <|
  { place := s.place, part := p.val,
    bflags := bit (partHeld s p && !pulled) + 2 * bit (x.claim.role == .gloryHole) + 4 * bit x.claim.leader + 8 * bit pulled + 16 * bit s.time.unsure,
    group := x.claim.group, claim := x.claim.claim.toNat, highest := x.claim.highest.toNat, step := x.step,
    ocrc := if x.step = 0 then 0 else ocrcOf x (x.step - 1), time := s.stamp, serial := s.fuses.serial, cabinet := s.plan.cabinet, rcrc := 0 }

/-- Send the heartbeat of a paired partition on both transmit lanes, which carry only idles once PRSNT_N is lost (17 R458) and a test
pattern during a test (R358), but for a PULLED one, which no test holds up (13 R368). -/
def sendBeatAs (s : State) (p : PartId) (pulled : Bool) : State :=
  if (s.part p).claim.paired && !s.lanes.idleOnly && (pulled || !s.lanes.testing) then (s.emit (.heartbeat (heartbeatOf s p pulled))).modClaim p (fun c => { c with lastSent := s.now }) else s

def sendBeat (s : State) (p : PartId) : State := sendBeatAs s p false

/-- The heartbeat of a boundary, once at each, however it ends: the release of its step, a hold, a stop or a wait (R357). -/
def boundaryBeat (s : State) (p : PartId) : State :=
  if (s.part p).claim.beatAt = some (s.part p).step then s
  else sendBeat (s.modClaim p (fun c => { c with beatAt := some (s.part p).step })) p

/-- Change a partition's claim; a change is told by a heartbeat (R357). A partition in replay mode holds claim number 0 (01 R35). -/
def setClaim (s : State) (p : PartId) (n : BitVec 32) : State :=
  let old := (s.part p).claim.claim
  let v := if (s.part p).replay then 0 else n
  let s := s.modClaim p (fun c => { c with claim := v, highest := if c.highest < v then v else c.highest })
  if old = v then s else sendBeat s p

/-- The 64-byte header of a part (R359). -/
def partHeader (kind part pace step claim section_ length : Nat) : Bytes :=
  leBytes 4 0x54524150 ++ leBytes 1 kind ++ leBytes 1 part ++ leBytes 1 pace ++ zeros 1 ++ leBytes 8 step ++ leBytes 4 claim ++
  leBytes 4 section_ ++ leBytes 8 length ++ zeros 32

/-- Send a part to the partner over the mirror set as SNAPSHOT frames in the partition's turns. -/
def sendPart (s : State) (p : PartId) (kind pace step section_ : Nat) (body : Bytes) : State :=
  match mirrorPeer (s.part p) with
  | some i =>
    let n := (s.part p).msgNext
    let s := s.modPart p (fun x => { x with msgNext := (n + 1) % 2 ^ 32 })
    sendMessage s p i 0x12 0 n (partHeader kind p.val pace step (s.part p).claim.claim.toNat section_ body.length ++ body)
  | none => s

/-- The 16 bytes of a decision entry (01 R30). -/
def decisionBytes (d : Decision) : Bytes := leBytes 1 d.kind ++ zeros 1 ++ leBytes 2 d.a ++ leBytes 4 d.b ++ leBytes 8 d.c

/-- The decision entry that 16 bytes spell. -/
def decisionOf (bs : Bytes) : Decision := { kind := fieldAt bs 0 1, a := fieldAt bs 2 2, b := fieldAt bs 4 4, c := fieldAt bs 8 8 }

/-- The leader's decision part of a boundary: its entries and the journal entries that closed since the previous part. -/
def sendDecisions (s : State) (p : PartId) (step : Nat) (stamp : Ns) (entries : List Decision) : State :=
  let x := s.part p
  if x.claim.paired && x.claim.leader then
    let js := x.journal.filter (fun e => x.claim.sentSeq ≤ e.seq && e.arrived < stamp)
    let s := s.modClaim p (fun c => { c with sentSeq := c.sentSeq + js.length })
    sendPart s p 1 0 step 0 (entries.flatMap decisionBytes ++ js.flatMap journalBytes)
  else s

/-- Bytes of a step record: header and entries (01 R30). DESIGN CHOICE, log entry 59. -/
def recordBytes (r : StepRecord) : Bytes :=
  let h := leBytes 4 0x53545052 ++ leBytes 2 1 ++ leBytes 1 r.part ++ leBytes 1 r.flags ++ leBytes 8 r.step ++ leBytes 8 r.boundary ++
    leBytes 8 r.firstSeq ++ leBytes 8 r.work ++ leBytes 4 r.ocrc.toNat ++ leBytes 4 r.epoch ++ leBytes 2 r.ngather ++ leBytes 2 r.entries.length ++
    leBytes 1 r.layout ++ zeros 3 ++ leBytes 4 r.image.toNat
  let es := r.entries.flatMap decisionBytes
  h ++ leBytes 4 (crc32c (h ++ es)) ++ es

end Sys2Proof.Machine
end

