-- ==== Sys2Proof/Machine/Serving.lean ====
section
/-! DEFINITION. The serving actions of a boundary (08 R215–R241): settings, completions, request frames, cancels, adapters,
admissions, allocations, releases, pauses and resumes. -/

namespace Sys2Proof.Machine

/-- A boundary while its actions are applied: the state, the entries written so far (01 R30), the sequences cancelled by
the pending set (08 R230), those that leave at action 8, the entries still to apply when the decisions are recorded, and
whether one of them could not be applied (08 R240). -/
structure Bd where
  s    : State
  p    : PartId
  step : Nat
  ts   : Ns
  es   : List Decision
  cut  : List Nat
  gone : List Nat
  given : Option (List Decision)
  bad  : Bool

def Bd.x (b : Bd) : Part := b.s.part b.p
def Bd.map (b : Bd) (f : State → State) : Bd := { b with s := f b.s }
def Bd.mapPart (b : Bd) (f : Part → Part) : Bd := { b with s := b.s.modPart b.p f }
def Bd.entry (b : Bd) (kind a n c : Nat) : Bd := { b with es := b.es ++ [{ kind := kind, a := a, b := n, c := c }] }
def Bd.seq (b : Bd) (n : Nat) (f : Seq → Seq) : Bd := { b with s := modSeq b.s b.p n f }

/-- The recorded entries of some kinds, in order. -/
def Bd.recorded (b : Bd) (kinds : List Nat) : List Decision := (b.given.getD []).filter (fun d => kinds.contains d.kind)

/-! ## Status entries (R226, R227) -/

/-- The lowest-numbered step-batch stream of a partition, or `stream` when it is one (R219). -/
def batchStream (x : Part) (stream : Nat) : Nat :=
  let ids := (((x.image.map (fun i => i.streams)).getD []).filter (fun d => d.transmit && d.dt == 0x34)).map (fun d => d.stream)
  if ids.contains stream then stream else ids.foldl (fun m n => if n < m then n else m) (ids.headD stream)

/-- Queue a status entry for a stream's frames. -/
def Bd.tell (b : Bd) (stream client seq pos cls status : Nat) : Bd :=
  b.mapPart (fun x => { x with status := x.status ++ [(batchStream x stream,
    { client := client, seq := seq, token := 0xFFFFFFFF, pos := pos, status := status, cls := cls, prob := 0 })] })

/-- The status entry of a sequence on its own stream; after status 0x20 it has no further entries (R226). -/
def Bd.tellSeq (b : Bd) (q : Seq) (status : Nat) : Bd := if q.cancelled then b else b.tell q.stream q.client q.seq q.len q.cls status

/-! ## Actions 1 and 2 -/

/-- Action 1: the serving settings of the pending set, those accepted before the boundary's stamp (01 R21). -/
def Bd.settings (b : Bd) : Bd :=
  let t := b.s.stamp
  b.mapPart (fun x => { x with
    serving := ((x.settingsNext.filter (fun e => e.1 < t)).getLast?.map (fun e => e.2)).getD x.serving
    settingsNext := x.settingsNext.filter (fun e => !(e.1 < t)) })

/-- The advance of a sequence by its appends and token of the step that ends (R222, action 2; 07 R208). -/
def advanceSeq (x : Part) (q : Seq) : Seq :=
  match q.slot.bind (fun sl => assocGet sl x.batch) with
  | some e => { q with len := q.len + stepAppends x q, tokensOut := q.tokensOut + 1, lastToken := some e.token, done := e.status != 0 }
  | none => { q with len := q.len + stepAppends x q }

/-- Action 2: completions, in ascending batch slot (R229); recorded ones must be the same (R240). DESIGN CHOICE, log entry 44. -/
def Bd.completions (b : Bd) : Bd :=
  let qs := seqSort slotLe (b.x.seqs.filter (fun q => q.done))
  let same := b.given.isNone || (b.recorded [0x06]).map (fun d => (d.b, d.c)) == qs.map (fun q => (q.seq, q.tokensOut))
  qs.foldl (fun b q => { b.entry 0x06 0 q.seq q.tokensOut with gone := b.gone ++ [q.seq] }) { b with bad := b.bad || !same }

/-! ## Action 3: request frames (R217–R219) -/

/-- A message of a request frame: its bytes up to the end of its tokens, whether it ends within the payload and whether it touches a bad
line. -/
structure ReqMsg where
  hdr    : Bytes
  tokens : Bytes
  whole  : Bool
  bad    : Bool

def ReqMsg.field (m : ReqMsg) (off n : Nat) : Nat := fieldAt m.hdr off n

/-- The messages of a payload, at multiples of 64 bytes, at most 64; `marks` are the marks of its 64-byte words, which a bad line sets (10
R276). -/
def reqMessages : Nat → Bytes → List Bool → List ReqMsg
  | 0, _, _ => []
  | n + 1, bs, marks =>
    if bs.isEmpty || fieldAt bs 0 4 = 0 then [] else
    let tok := if fieldAt bs 4 1 = 1 then 4 * fieldAt bs 16 4 else 0
    let size := 64 + 64 * ceilDiv tok 64
    { hdr := padTo 64 bs, tokens := slice bs 64 tok, whole := size ≤ bs.length, bad := (marks.take (size / 64)).any (fun m => m) } ::
      (if size ≤ bs.length then reqMessages n (bs.drop size) (marks.drop (size / 64)) else [])

/-- The fields of a message lie in their ranges; one that touches a bad line fails MCRC (R219). -/
def ReqMsg.ok (m : ReqMsg) : Bool :=
  m.whole && !m.bad && m.field 0 4 == 0x52514D53 && m.field 60 4 == crc32c (m.hdr.take 60 ++ m.tokens) && zeroAt m.hdr 38 22 && m.field 8 8 != 0 &&
  (match m.field 4 1 with
   | 1 => m.field 5 1 ≤ 3 && 1 ≤ m.field 16 4 && 1 ≤ m.field 20 2 &&
          (if m.field 24 4 = 0 then m.field 28 4 == 0 else 1 ≤ m.field 28 4 && m.field 28 4 ≤ m.field 16 4)
   | 2 => m.field 16 4 == 0 && m.field 20 2 == 0
   | _ => false)

/-- The rejection status of a message, in the order of R219. -/
def rejection (x : Part) (kd : KvDecl) (m : ReqMsg) : Option Nat :=
  if !m.ok then some 0x30
  else if m.field 4 1 = 2 then none
  else if x.seqs.any (fun q => q.client == m.field 8 8) then some 0x31
  else if kd.promptMax < m.field 16 4 || kd.cap * kd.tpp < m.field 16 4 + m.field 20 2 ||
       batchStream x (m.field 6 2) ≠ m.field 6 2 || kd.samplings ≤ m.field 36 2 then some 0x32
  else if 4096 ≤ (x.seqs.filter (fun q => q.state == .queued)).length then some 0x33
  else none

/-- The words of a token list. -/
def tokenList : Bytes → List Nat
  | a :: b :: c :: d :: bs => leNat [a, b, c, d] :: tokenList bs
  | _ => []

/-- Sequence numbers pass from 0xFFFF_FFFF to 1. -/
def seqAfter (n : Nat) : Nat := if 2 ^ 32 - 1 ≤ n then 1 else n + 1

/-- The next number that no sequence holds (R218). -/
def freeNumber (x : Part) : Nat → Nat → Nat
  | 0, n => n
  | f + 1, n => if x.seqs.any (fun q => q.seq == n) then freeNumber x f (seqAfter n) else n

/-- A valid request to be admitted: the next sequence number, QUEUED. DESIGN CHOICE, log entry 148. -/
def queueSeq (x : Part) (m : ReqMsg) (frameSeq : Nat) : Part :=
  let n := freeNumber x x.seqs.length x.nextSeqNo
  let q : Seq :=
    { seq := n, len := 0, ptBase := 0, slot := none, state := .queued, cls := m.field 5 1, shared := false, adapterSlot := none,
      promptEnd := m.field 16 4, tokensOut := 0, maxNew := m.field 20 2, stream := m.field 6 2, client := m.field 8 8,
      stopToken := m.field 32 4, sampling := m.field 36 2, adapter := m.field 22 2, prefixSeq := m.field 24 4, prefixLen := m.field 28 4,
      prompt := tokenList m.tokens, frameSeq := frameSeq, admitted := 0, lastToken := none, done := false, reclaim := false, cancelled := false }
  { x with seqs := x.seqs ++ [q], nextSeqNo := seqAfter n }

/-- Take one message of a consumed frame. -/
def Bd.message (b : Bd) (e : JEntry) (m : ReqMsg) : Bd :=
  match kvDecl b.x with
  | none => b
  | some kd =>
    match rejection b.x kd m with
    | some st => (b.tell (m.field 6 2) (m.field 8 8) 0 0 (m.field 5 1 % 4) st).mapPart (fun x => { x with rejected := (x.rejected + 1) % 2 ^ 32 })
    | none =>
      if m.field 4 1 = 1 then b.mapPart (fun x => queueSeq x m e.seq)
      else b.mapPart (fun x => { x with cancels := x.cancels ++
        [{ byClient := true, target := m.field 8 8, stamp := e.arrived, source := b.s.source (0x50 + e.port), frameSeq := e.seq, answer := none,
           entered := true, stream := m.field 6 2 }] })

/-- A receive stream of type 0x30. -/
def requestStream (x : Part) (stream : Nat) : Bool :=
  (x.image.map (fun i => i.streams.any (fun d => d.stream == stream && !d.transmit && d.dt == 0x30))).getD false

/-- Consume the request frames that `f` selects, in journal order, and free their landing buffers (R218; 10 R282). -/
def Bd.consume (b : Bd) (f : JEntry → Bool) : Bd :=
  let es := b.x.journal.filter (fun e => !e.taken && e.paired && requestStream b.x e.stream && f e)
  let b := es.foldl (fun b e => if bitOf e.flags 3 then b else (reqMessages 64 (e.payload.getD []) e.marks).foldl (fun b m => b.message e m) b) b
  b.mapPart (fun x => { x with journal := x.journal.map (fun j => if es.any (fun e => e.seq == j.seq) && j.paired then { j with taken := true, buffer := none } else j) })

/-! ## Action 4: cancels (R229–R231) -/

/-- Answer the order behind a cancel through the mailbox. DESIGN CHOICE, log entry 47. -/
def answerCancel (s : State) (c : CancelReq) (status : Nat) : State :=
  match c.answer with
  | none => s
  | some (port, sq, eff) =>
    match takeFirst (fun t => t.port.val == port && t.msg.typ == 0x26 && t.msg.seq == sq && t.eff == eff) s.orders.taken with
    | some (t, rest) => answer (s.modOrders (fun o => { o with taken := rest })) t 0x00 (leBytes 1 status)
    | none => s

/-- The sequence that a cancel names. -/
def cancelTarget (x : Part) (c : CancelReq) : Option Seq :=
  x.seqs.find? (fun q => if c.byClient then q.client == c.target else q.seq == c.target)

/-- Outcome of a cancel of `q` in reclaim mode or not: entry kind (0 none), status, and whether it runs out or leaves. A second cancel of
one target writes no entry and gets its state's status. -/
def cancelOutcome (b : Bd) (q : Seq) (reclaim : Bool) : Nat × Nat × Bool × Bool :=
  let kind := if reclaim then 0x03 else 0x02
  if b.cut.contains q.seq then
    (0, if q.done then 0x22 else if q.state = .queued then 0x23 else if b.gone.contains q.seq then 0x21 else 0x20, false, false)
  else if q.done then (kind, 0x22, false, false)
  else match q.state with
    | .queued => (kind, 0x23, false, true)
    | .active => (kind, if reclaim then 0x21 else 0x20, !reclaim, reclaim)
    | .heldOver => (kind, if reclaim then 0x21 else 0x20, !reclaim, reclaim)
    | .runOut => (kind, if reclaim then 0x21 else 0x20, false, reclaim)
    | .paused => (0x03, 0x21, false, true)
    | .resuming => (0x03, 0x21, false, true)
    | .free => (0, 0x24, false, false)

/-- Apply one cancel: its entry, its effect, its answers. An order that writes no decision entry is answered through the mailbox alone: no
status entry of a frame rests on it (R228). -/
def Bd.cancel (b : Bd) (c : CancelReq) (reclaim : Bool) : Bd :=
  match cancelTarget b.x c with
  | none =>
    let b := b.map (fun s => answerCancel s c 0x24)
    if c.byClient && c.answer.isNone then b.tell c.stream c.target 0 0 0 0x24 else b
  | some q =>
    let o := cancelOutcome b q reclaim
    let b := if o.1 = 0 then b else (b.entry o.1 0 q.seq c.frameSeq).mapPart (fun x => { x with cancelled := (x.cancelled + 1) % 2 ^ 32 })
    let b := if o.2.2.1 then b.seq q.seq (fun q => { q with state := .runOut, cancelled := true }) else b
    let b := if o.2.2.2 && !b.gone.contains q.seq then { b with gone := b.gone ++ [q.seq] } else b
    let b := { b with cut := b.cut ++ [q.seq] }
    let b := b.map (fun s => answerCancel s c o.2.1)
    if o.1 = 0 && c.answer.isSome then b else
    b.tell (if c.frameSeq = 0 && c.answer.isSome then q.stream else c.stream) q.client q.seq q.len q.cls o.2.1

/-- Order of R39: time stamp, then source number. -/
def cancelLe (a c : CancelReq) : Bool := a.stamp < c.stamp || (a.stamp == c.stamp && a.source ≤ c.source)

def cancelInsert (c : CancelReq) : List CancelReq → List CancelReq
  | [] => [c]
  | d :: ds => if cancelLe d c then d :: cancelInsert c ds else c :: d :: ds

/-- A recorded cancel entry as an order's or a frame's cancel. -/
def cancelOf (d : Decision) (stream : Nat) : CancelReq :=
  { byClient := false, target := d.b, stamp := 0, source := 0, frameSeq := d.c, answer := none, entered := true, stream := stream }

/-- Apply a recorded cancel entry, by the cancel `c` behind it or, with none at hand, as an order's; one whose sequence is not in a state
where it can be applied is a divergence (R240). -/
def Bd.cancelEntry (b : Bd) (c : Option CancelReq) (d : Decision) : Bd :=
  match b.x.seqs.find? (fun q => q.seq == d.b) with
  | none => { b with bad := true }
  | some q =>
    if (cancelOutcome b q (d.kind == 0x03)).1 = d.kind then b.cancel (c.getD (cancelOf d q.stream)) (d.kind == 0x03) else { b with bad := true }

/-- Recorded cancels (R240): the entries in their order, each with the cancel behind it where one waits. A cancel whose target is gone or
cancelled already is answered in its place; one that no entry applies changes nothing, and an order stays pending.
DESIGN CHOICE, log entry 47. -/
def Bd.cancelRecorded (b : Bd) : List CancelReq → List Decision → Bd
  | [], ds => ds.foldl (fun b d => b.cancelEntry none d) b
  | c :: cs, ds =>
    match cancelTarget b.x c with
    | none => (b.cancel c false).cancelRecorded cs ds
    | some q =>
      if b.cut.contains q.seq then (b.cancel c false).cancelRecorded cs ds else
      let before := ds.takeWhile (fun d => d.b != q.seq)
      match ds.drop before.length with
      | [] => (if c.answer.isSome then b.mapPart (fun x => { x with cancels := x.cancels ++ [c] }) else b).cancelRecorded cs ds
      | d :: rest =>
        let b := before.foldl (fun b d => b.cancelEntry none d) b
        (if d.c = c.frameSeq then b.cancelEntry (some c) d else (b.cancelEntry none d).cancel c false).cancelRecorded cs rest

/-- A cancel is in the set that a boundary takes: it entered the pending set before the boundary's stamp, a frame's with its frame and an
order's 20 µs after its eff (01 R21; 11 R304). -/
def cancelDue (stamp : Ns) (c : CancelReq) : Bool := c.entered && (c.answer.isNone || c.stamp + us 20 < stamp)

/-- Action 4. -/
def Bd.cancels (b : Bd) : Bd :=
  let t := b.s.stamp
  let cs := (b.x.cancels.filter (cancelDue t)).foldl (fun l c => cancelInsert c l) []
  let mode := b.x.serving.cancelMode
  let b := b.mapPart (fun x => { x with cancels := x.cancels.filter (fun c => !cancelDue t c) })
  match b.given with
  | some _ => b.cancelRecorded cs (b.recorded [0x02, 0x03])
  | none => cs.foldl (fun b c => b.cancel c mode) b

/-! ## Action 5: adapters (R236–R238) -/

/-- The current version of an identifier. -/
def currentAdapter (x : Part) (ident : Nat) : Option Adapter := x.adapters.find? (fun a => a.ident == ident && a.state == .current)

/-- Change the adapter of a slot. -/
def modAdapter (x : Part) (slot : Nat) (f : Adapter → Adapter) : Part :=
  { x with adapters := updFirst (fun a => a.slot == slot) f x.adapters }

/-- Move the sequences bound to older versions of an identifier to a slot (R238). -/
def rebindTo (x : Part) (a : Adapter) : Part :=
  let old := fun (q : Seq) => match q.adapterSlot with
    | some sl => x.adapters.any (fun d => d.slot == sl && d.ident == a.ident && d.slot != a.slot)
    | none => false
  let n := (x.seqs.filter old).length
  { x with
    seqs := x.seqs.map (fun q => if old q then { q with adapterSlot := some a.slot } else q)
    adapters := x.adapters.map (fun d => if d.slot = a.slot then { d with bound := d.bound + n }
                                         else if d.ident = a.ident then { d with bound := 0 } else d) }

/-- A version whose digest check has completed becomes current when it is higher, or frees its slot (R236); a replay does not test it
(R240). DESIGN CHOICE, log entry 151. -/
def Bd.adapter (b : Bd) (a : Adapter) : Bd :=
  let stale := !b.x.replay && (match currentAdapter b.x a.ident with | some c => decide (a.version ≤ c.version) | none => false)
  if stale then b.mapPart (fun x => { x with adapters := x.adapters.filter (fun d => d.slot != a.slot) })
  else
    let b := b.mapPart (fun x => { x with adapters := x.adapters.map (fun d =>
      if d.slot = a.slot then { d with state := .current } else if d.ident = a.ident && d.state = .current then { d with state := .superseded } else d) })
    if b.x.serving.rebind && b.given.isNone && b.x.seqs.any (fun q => q.adapterSlot.isSome && (b.x.adapters.any (fun d => some d.slot == q.adapterSlot && d.ident == a.ident && d.slot != a.slot)))
    then (b.mapPart (fun x => rebindTo x a)).entry 0x08 a.slot 0 a.version else b

/-- Action 5. DESIGN CHOICE, log entry 152. -/
def Bd.adaptersCurrent (b : Bd) : Bd :=
  let due := b.x.adapters.filter (fun a => a.state == .loaded && a.loadedAt < b.ts)
  let b := due.foldl (fun b a => b.adapter a) b
  (b.recorded [0x08]).foldl (fun b d =>
    match b.x.adapters.find? (fun a => a.slot == d.a && a.version == d.c) with
    | some a => (b.mapPart (fun x => rebindTo x a)).entry 0x08 d.a 0 d.c
    | none => { b with bad := true }) b

/-! ## Action 6: resumes and admissions (R220, R221, R237) -/

/-- The state in which a sequence runs again. DESIGN CHOICE, log entry 46. -/
def runState (q : Seq) : SeqState := if q.cancelled then .runOut else .active

/-- RESUMING sequences join the batch. DESIGN CHOICE, log entry 46. -/
def Bd.rejoin (b : Bd) : Bd :=
  b.mapPart (fun x => { x with seqs := x.seqs.map (fun q => if q.state = .resuming then { q with state := runState q } else q) })

/-- The lowest free batch slot. -/
def freeSlot (x : Part) (kd : KvDecl) : Option Nat := (List.range kd.slots).find? (fun n => !x.seqs.any (fun q => q.slot == some n))

/-- The lowest free page-table range of LISTS × CAP entries. -/
def freeRange (x : Part) (kd : KvDecl) : Option Nat :=
  let n := max 1 (kd.lists * kd.cap)
  ((List.range (262144 / n)).map (fun i => i * n)).find? (fun b => !x.seqs.any (fun q => q.slot.isSome && q.ptBase == b))

/-- The supply lies below the warning level, or the module drains: the gaffer admits nothing (14 R380, R392). -/
def admitsNothing (s : State) : Bool := s.power.level != .normal || s.power.state == .drain

/-- What the admission of a QUEUED sequence meets first (R220). -/
inductive AdmitTest where
  | go | skip | stop
  deriving DecidableEq, Repr

def admitTest (b : Bd) (kd : KvDecl) (count : Nat) (q : Seq) : AdmitTest :=
  let x := b.x
  if x.serving.admitClosed || admitsNothing b.s then .stop
  else if kd.admitLimit ≤ count then .stop
  else if x.seqs.any (fun r => (r.state == .paused || r.state == .resuming) && r.cls ≤ q.cls) then .skip
  else if (freeSlot x kd).isNone || (freeRange x kd).isNone then .stop
  else if ((x.image.bind (fun i => i.streams.find? (fun d => d.stream == q.stream && d.transmit))).map (fun d => d.limit)).getD 0 ≤
       (x.seqs.filter (fun r => r.stream == q.stream && r.state.holds)).length then .skip
  else if q.adapter ≠ 0xFFFF && (currentAdapter x q.adapter).isNone then .skip
  else if (poolClusters kd).any (fun lc => ((x.kv[lc]?).map (fun k => k.cullet.length)).getD 0 < 2 * kd.lists) then .stop
  else .go

/-- The prefix source that a sequence may share with (R221). DESIGN CHOICE, log entry 150. -/
def prefixSource (b : Bd) (q : Seq) (slot : Option Nat) : Option Seq :=
  if q.prefixSeq = 0 then none else
  (b.x.seqs.find? (fun r => r.seq == q.prefixSeq)).bind (fun r =>
    if (r.state == .active || r.state == .heldOver || r.state == .paused || r.state == .resuming) && !b.gone.contains r.seq &&
       r.adapterSlot == slot && q.prefixLen ≤ r.promptEnd && q.prefixLen ≤ r.len && r.prompt.take q.prefixLen == q.prompt.take q.prefixLen
    then some r else none)

/-- Admit a QUEUED sequence, binding `slot` of the adapters. -/
def Bd.letIn (b : Bd) (kd : KvDecl) (q : Seq) (ad : Option Adapter) : Bd :=
  match freeSlot b.x kd, freeRange b.x kd with
  | some n, some r =>
    let src := prefixSource b q (ad.map (fun a => a.slot))
    let q := { q with slot := some n, ptBase := r, state := .active, adapterSlot := ad.map (fun a => a.slot), admitted := b.x.admitted + 1,
                      len := if src.isSome then q.prefixLen else 0, shared := src.isSome }
    let b := (b.seq q.seq (fun _ => q)).mapPart (fun x => { x with admitted := x.admitted + 1 })
    let b := match src with | some t => b.map (fun s => sharePages s b.p kd q t q.prefixLen) | none => b
    let b := b.entry 0x01 q.cls q.seq q.frameSeq
    let b := match ad with
      | some a => (b.mapPart (fun x => modAdapter x a.slot (fun d => { d with bound := d.bound + 1 }))).entry 0x07 a.slot q.seq a.version
      | none => b
    b.tellSeq q 0x10
  | _, _ => { b with bad := true }

/-- QUEUED order: priority class, then sequence number. -/
def queueLe (a c : Seq) : Bool := a.cls < c.cls || (a.cls == c.cls && a.seq ≤ c.seq)

/-- Live admissions. -/
def Bd.admitLive (b : Bd) (kd : KvDecl) : List Seq → Nat → Bd
  | [], _ => b
  | q :: qs, n =>
    match admitTest b kd n q with
    | .stop => b
    | .skip => b.admitLive kd qs n
    | .go => (b.letIn kd q (if q.adapter = 0xFFFF then none else currentAdapter b.x q.adapter)).admitLive kd qs (n + 1)

/-- Recorded admissions: an 0x01 entry and, when an adapter is bound, the 0x07 entry that follows it. An entry that names no QUEUED sequence
of its class and frame, or no slot that holds the version, is a divergence (R240). -/
def Bd.admitRecorded (b : Bd) (kd : KvDecl) : List Decision → Bd
  | [] => b
  | d :: ds =>
    match b.x.seqs.find? (fun q => q.seq == d.b && q.state == .queued && !b.gone.contains q.seq && q.cls == d.a && q.frameSeq == d.c) with
    | none => { b with bad := true }
    | some q =>
      if d.kind ≠ 0x01 then { b with bad := true }
      else if q.adapter = 0xFFFF then (b.letIn kd q none).admitRecorded kd ds
      else match ds with
        | [] => { b with bad := true }
        | e :: es =>
          match b.x.adapters.find? (fun a => a.slot == e.a && a.ident == q.adapter && a.version == e.c) with
          | some a => if e.kind = 0x07 && e.b = d.b then (b.letIn kd q (some a)).admitRecorded kd es else { b with bad := true }
          | none => { b with bad := true }

/-- Action 6. -/
def Bd.admissions (b : Bd) : Bd :=
  let b := b.rejoin
  match kvDecl b.x with
  | none => b
  | some kd =>
    match b.given with
    | some _ => b.admitRecorded kd (b.recorded [0x01, 0x07])
    | none => b.admitLive kd (seqSort queueLe (b.x.seqs.filter (fun q => q.state == .queued && !b.gone.contains q.seq))) 0

/-! ## Actions 7 to 9 (R223, R224) -/

/-- Action 7: allocations, and the sequences held over; gives the old pages of copies-on-write.
DESIGN CHOICE, log entry 45. -/
def Bd.allocations (b : Bd) : Bd × List Nat :=
  match kvDecl b.x with
  | none => (b, [])
  | some kd =>
    let qs := seqSort slotLe (b.x.seqs.filter (fun q => (q.state.inBatch || q.state == .heldOver) && !b.gone.contains q.seq))
    let a := (poolClusters kd).foldl (fun a lc => allocCluster a b.p kd lc qs) { s := b.s, copies := 0, held := [], drops := [] }
    let b := { b with s := a.s }
    let b := qs.foldl (fun b q =>
      if a.held.contains q.seq then (b.seq q.seq (fun q => { q with state := .heldOver })).tellSeq q 0x13
      else b.seq q.seq (fun q => { q with state := if q.state = .heldOver then runState q else q.state })) b
    (b, a.drops)

/-- A slot that is no longer current and whose bound count is 0 is freed (R237). -/
def freeAdapters (x : Part) : Part :=
  { x with adapters := x.adapters.filter (fun a => !(a.state == .superseded && a.bound == 0)) }

/-- Action 8: decrements; the sequences that leave return their slot and range and become FREE. -/
def Bd.releases (b : Bd) (drops : List Nat) : Bd :=
  let gone := b.x.seqs.filter (fun q => b.gone.contains q.seq)
  let b := match kvDecl b.x with
    | some kd =>
      b.map (fun s =>
        let s := drops.foldl (fun s g => dropRef s b.p kd g) s
        let s := (seqSort slotLe (gone.filter (fun q => q.slot.isSome))).foldl (fun s q => releasePages s b.p kd q) s
        (s.part b.p).ckptDrop.foldl (fun s g => dropRef s b.p kd g) s)
    | none => b
  b.mapPart (fun x => freeAdapters { x with
    ckptDrop := []
    adapters := x.adapters.map (fun a => { a with bound := a.bound - (gone.filter (fun q => q.adapterSlot == some a.slot)).length })
    seqs := x.seqs.filter (fun q => !b.gone.contains q.seq)
    pausedStack := x.pausedStack.filter (fun n => !b.gone.contains n) })

/-! ## Action 10: the latency policy (R232–R235) -/

/-- 16 P in ns, once 16 boundaries have passed since the partition entered RUNNING (R232). -/
def period16 (b : Bd) (stamp : Ns) : Option Nat :=
  let x := b.x
  if b.step < x.entered + 16 then none else
  match x.history[15]? with
  | some (t, _) => some (stamp - t - ((x.history.take 15).map (fun h => h.2)).foldl (· + ·) (heldUs x) * 1000)
  | none => none

/-- A class is at risk (R232). -/
def atRisk (x : Part) (p16 : Nat) (c : Nat) : Bool :=
  let t := x.serving.targets.toList.getD c 0
  t != 0 && x.seqs.any (fun q => q.cls == c && q.state == .active) && t * x.serving.riskPct * 160 < p16

/-- The resume condition at this boundary, for the lowest class among ACTIVE sequences (R234). -/
def resumeReady (x : Part) (p16 : Nat) : Bool :=
  match (List.range 4).find? (fun c => x.seqs.any (fun q => q.cls == c && q.state == .active)) with
  | some c => p16 < x.serving.targets.toList.getD c 0 * x.serving.resumePct * 160
  | none => false

/-- Pausing order: lowest priority first, then the most recently admitted (R233). -/
def pauseLe (a c : Seq) : Bool := c.cls < a.cls || (a.cls == c.cls && c.admitted ≤ a.admitted)

def Bd.pause (b : Bd) (q : Seq) : Bd :=
  ((b.seq q.seq (fun q => { q with state := .paused })).mapPart (fun x => { x with pausedStack := q.seq :: x.pausedStack })).entry 0x04 0 q.seq 0
    |>.tellSeq q 0x11

/-- DESIGN CHOICE, log entry 46. -/
def Bd.resume (b : Bd) (q : Seq) : Bd :=
  ((b.seq q.seq (fun q => { q with state := .resuming })).mapPart (fun x => { x with pausedStack := x.pausedStack.erase q.seq })).entry 0x05 0 q.seq 0
    |>.tellSeq q 0x12

/-- Note the boundary of a pause or resume decision (R233); a pause restarts the count of R234. -/
def Bd.moved (b : Bd) (pause : Bool) : Bd :=
  b.mapPart (fun x => { x with lastMove := some b.step, calm := if pause && x.catchUp.isNone then 0 else x.calm })

/-- Recorded pauses and resumes. -/
def Bd.moveRecorded (b : Bd) (d : Decision) : Bd :=
  match b.x.seqs.find? (fun q => q.seq == d.b) with
  | some q =>
    if d.kind = 0x04 && (q.state.inBatch || q.state == .heldOver) then (b.pause q).moved true
    else if d.kind = 0x05 && q.state == .paused then (b.resume q).moved false
    else { b with bad := true }
  | none => { b with bad := true }

/-- Measure the period (R232) and count the boundaries of R234, whoever decides. A catch-up comes to boundaries that have been measured: what
was counted at them stands. -/
def Bd.measure (b : Bd) (stamp : Ns) : Bd :=
  b.mapPart (fun x => if x.catchUp.isSome then x else match period16 b stamp with
    | none => { x with period := 0, calm := 0 }
    | some p16 => { x with period := min (p16 / 16000) (2 ^ 24 - 1), calm := if resumeReady x p16 then x.calm + 1 else 0 })

/-- The decisions of the latency policy at a period `p16` (R233, R234). -/
def Bd.decideMoves (b : Bd) (p16 : Nat) : Bd :=
  let x := b.x
  let risk := (List.range 4).any (atRisk x p16)
  let free := match x.lastMove with | some m => m + 16 ≤ b.step | none => true
  if risk && free then
    let qs := (seqSort pauseLe (x.seqs.filter (fun q => q.state.inBatch || q.state == .heldOver))).take x.serving.quantum
    if qs.isEmpty then b else (qs.foldl Bd.pause b).moved true
  else if !risk && free && 64 ≤ x.calm then
    let qs := (x.pausedStack.filterMap (fun n => x.seqs.find? (fun q => q.seq == n))).take x.serving.quantum
    if qs.isEmpty then b else (qs.foldl Bd.resume b).moved false
  else b

/-- Action 10: the measurement, then the decisions, recorded or live. -/
def Bd.policy (b : Bd) (stamp : Ns) : Bd :=
  let m := b.measure stamp
  match b.given with
  | some _ => (b.recorded [0x04, 0x05]).foldl Bd.moveRecorded m
  | none => match period16 b stamp with
    | none => m
    | some p16 => m.decideMoves p16

/-- Actions 1 to 6. A live boundary, or a follower's, consumes what arrived before its stamp; a replay consumes the frames
that its record names (R240). -/
def Bd.decide (b : Bd) (named : Option (Nat × Nat)) : Bd :=
  let b := b.settings.completions
  let b := match named with
    | none => b.consume (fun e => e.arrived < b.ts)
    | some (first, count) => b.consume (fun e => first ≤ e.seq && e.seq < first + count)
  b.cancels.adaptersCurrent.admissions

/-- Actions 7 to 10; `old` holds the pages whose count reached 0 at the previous boundary. -/
def Bd.settle (b : Bd) (old : List (List Nat)) (stamp : Ns) : Bd :=
  let a := b.allocations
  ((a.1.releases a.2).map (fun s => returnPages s b.p old)).policy stamp

end Sys2Proof.Machine
end

