-- ==== Sys2Proof/Machine/Clearing.lean ====
section
/-! DEFINITION. Memory keys, their sweep and the clearing between tenants (05 R146–R154; 12 R330; 15 R423, R430). -/

namespace Sys2Proof.Machine

/-- A new memory key from two draws of the random source. -/
def newMemoryKey (s : State) : BitVec 512 × State :=
  let a := s.draw
  let b := a.2.draw
  (Config.randomKey a.1 ++ Config.randomKey b.1, b.2)

/-- A partition's memory-key generation advances: one new key in every transfer engine, and a sweep of each stack (R148). -/
def advanceKeys (s : State) (p : PartId) : State :=
  let n := newMemoryKey s
  let s := (s.part p).clusters.foldl (fun s k =>
    s.modCluster k (fun c => { c with prev := c.key, key := some n.1, sweep := some 0, halfDone := false })) n.2
  s.modPart p (fun x => { x with rotateWanted := none, keys := { x.keys with memGen := (x.keys.memGen + 1) % 2 ^ 32 } })

/-- Any page of the partition still carries the previous generation (R150). -/
def sweeping (s : State) (x : Part) : Bool := x.clusters.any (fun k => (s.cluster k).sweep.isSome)

/-- Crypto-erase of a cluster: both key slots zeroed and the partition's new generation-0 key loaded (R152). A cluster taken with its
clean mark set keeps its key and its zeroed stack (R154). -/
def eraseCluster (key : BitVec 512) (s : State) (k : ClusterId) : State :=
  if (s.cluster k).clean then s.modCluster k (fun c => { c with clearing := true, fullClear := false })
  else s.modCluster k (fun c =>
    { c with key := some key, prev := none, sweep := none, halfDone := false, clearing := true, fullClear := true })

/-- The job keys of a partition are wiped (12 R330). DESIGN CHOICE, log entry 71. -/
def wipeJob (j : Job) : Job := { j with members := j.members.map (fun m => (m.1, { m.2 with keys := PeerKeys.init })) }

/-- What a partition keeps when it enters CLEARING: its resources, its pairing, its job table and its last loader result.
DESIGN CHOICE, log entry 71. -/
def clearedPart (x : Part) : Part :=
  { Part.init with
    state := .clearing
    clusters := x.clusters
    firstQ := x.firstQ
    nQ := x.nQ
    firstT := x.firstT
    nT := x.nT
    loadCode := x.loadCode
    loadDetail := x.loadDetail
    hold := x.hold
    claim := x.claim
    job := x.job.map wipeJob
    msgNext := x.msgNext }

/-- Enter CLEARING (R59 of 02): every key of the partition is destroyed (15 R423) and its clusters are crypto-erased. Cancel
orders that wait for a boundary find no sequence (08 R230). A frame that is open is discarded: its partition takes frames no longer (10
R275). DESIGN CHOICE, log entry 62. DESIGN CHOICE, log entry 71. -/
def enterClearing (s : State) (p : PartId) : State :=
  let s := (s.part p).cancels.foldl (fun s c => answerCancel s c 0x24) (closeContexts s p)
  let n := newMemoryKey s
  let s := (n.2.part p).clusters.foldl (eraseCluster n.1) n.2
  let s := s.modCsi (fun c => { c with bindings := c.bindings.map (fun b => if b.part == p then { b with opened := none } else b) })
  ({ s with requests := s.requests.filter (fun r => r.part != p.val) } : State).modPart p clearedPart

/-- Zero the 36 banks of a cluster and give their owner registers the values after start (R153). -/
def zeroBanks (s : State) (k : ClusterId) : State :=
  (List.finRange 288).foldl (fun s b => if b.val / 36 = k.val then s.setOwner b BankOwner.init else s)
    (bankZero s (bankAddr (36 * k.val) 0) (36 * bankSize))

/-- The clear of one cluster ends. -/
def clearCluster (s : State) (k : ClusterId) : State :=
  let s := zeroBanks s k
  let s := if (s.cluster k).fullClear then stackZero s (stackAddr k 0) partSpace else s
  s.modCluster k (fun c => { c with clean := true, clearing := false, fullClear := false })

/-- CLEAR_COMPLETE (R153, R154). A zero pass waits for its stack to leave self-refresh (14 R381, R393). -/
def execClearComplete (p : PartId) (s : State) : Result :=
  let x := s.part p
  if x.state ≠ .clearing || x.clusters.any (fun k => (s.cluster k).fullClear && (s.cluster k).selfRefresh) then .next s
  else .next ((x.clusters.foldl clearCluster s).modPart p (fun x => { x with state := .clear }))

end Sys2Proof.Machine
end

