-- ==== Sys2Proof/Machine/Csi.lean ====
section
/-! DEFINITION. CSI-2 receive ports (10 R269–R279): frames that open, take lines and close, the defence table, quota windows,
ingress tags. -/

namespace Sys2Proof.Machine

/-! ## Bindings and landing buffers -/

/-- The binding of a receive port's virtual channel (R270). -/
def rxBinding (s : State) (port : PortId) (vc : Nat) : Option Binding :=
  s.csi.bindings.find? (fun b => !b.transmit && b.port == port && b.vc == vc)

/-- Change the binding of a logical stream. -/
def modBinding (s : State) (p : PartId) (stream : Nat) (transmit : Bool) (f : Binding → Binding) : State :=
  s.modCsi (fun c => { c with bindings := updFirst (fun b => b.part == p && b.stream == stream && b.transmit == transmit) f c.bindings })

/-- A partition takes CSI-2 frames: ARMED or RUNNING (R275), and not a replay, which ignores its channels (01 R35). -/
def takesFrames (s : State) (p : PartId) : Bool :=
  ((s.part p).state == .armed || (s.part p).state == .running) && !(s.part p).replay

/-- The image's declaration of a receive stream. -/
def rxDecl (x : Part) (stream : Nat) : Option StreamDecl :=
  x.image.bind (fun i => i.streams.find? (fun d => d.stream == stream && !d.transmit))

/-- The landing buffers of a receive stream (R274). -/
def landingOf (x : Part) (stream : Nat) : Option Landing := (rxDecl x stream).bind (fun d => d.landing)

/-- Bank address of byte `off` of a run of cluster banks that starts in cluster bank `bank` of a logical cluster: such a
run continues in the next cluster bank (09 R256). -/
def clusterBankAddr (x : Part) (lc bank off : Nat) : Option Nat :=
  (physCluster x lc).map (fun k => bankAddr (36 * k.val + 32 + bank) off)

/-- Bank address of landing buffer `i`. -/
def bufferAddr (x : Part) (l : Landing) (i : Nat) : Option Nat := clusterBankAddr x l.cluster l.bank (l.offset + i * l.size)

/-- A landing buffer holds a landed frame, or the open one. -/
def bufferBusy (x : Part) (stream : Nat) (opened : Option OpenFrame) (i : Nat) : Bool :=
  x.journal.any (fun e => e.stream == stream && !e.taken && e.buffer == some i) ||
  (match opened with | some f => f.buffer == some i | none => false)

/-- The lowest-numbered free landing buffer (R275). -/
def freeBuffer (x : Part) (stream : Nat) (opened : Option OpenFrame) : Option Nat :=
  (landingOf x stream).bind (fun l => (List.range l.count).find? (fun i => !bufferBusy x stream opened i))

/-- Data types of long packets that the module accepts on receive, embedded data apart (R273). -/
def receives (dt : Nat) : Bool := [0x1E, 0x24, 0x2A, 0x2B, 0x2C, 0x2D, 0x2E, 0x30, 0x31, 0x32, 0x33].contains dt

/-- Data types that the module sends as payload lines, the mirror port's apart (R273). -/
def transmits (dt : Nat) : Bool := [0x32, 0x33, 0x34, 0x35].contains dt

/-- A packet that no open frame takes (R276). -/
def countUnbound (s : State) : State := s.modCsi (fun c => { c with unbound := satAdd 32 c.unbound 1 })

/-- A receive port that takes a packet holds lane sync (R269; DEDUCED, log entry 19). -/
def noteSync (s : State) (port : PortId) : State :=
  let r := s.csi.rx.get port
  let s := s.modRx port (fun r => { r with sync := true, lost := false })
  if r.lost then s.event (0x50 + port.val) 0x0601 0xFF [1] else s

/-! ## Lines (R273, R275, R276) -/

/-- Pixels of packed RAW data: groups of `bytes` bytes that hold `pix` pixels with `low` low bits each after their high
bytes, as the CSI-2 standard packs them. -/
def unpackRaw (bytes pix low : Nat) (data : Bytes) : Bytes :=
  (List.range (ceilDiv data.length bytes)).flatMap (fun g =>
    let grp := padTo bytes (data.drop (g * bytes))
    let lows := leNat (grp.drop pix)
    (List.range pix).flatMap (fun i => leBytes 2 ((grp.getD i 0).toNat * 2 ^ low + lows / 2 ^ (low * i) % 2 ^ low)))

/-- A line as written to the bank (R273). -/
def convertLine (dt : Nat) (data : Bytes) : Bytes :=
  match dt with
  | 0x2B => unpackRaw 5 4 2 data
  | 0x2C => unpackRaw 3 2 4 data
  | 0x2D => unpackRaw 7 4 6 data
  | _ => data

/-- The address that a stream's open frame writes to, when it has a buffer. -/
def frameAddr (s : State) (b : Binding) (f : OpenFrame) : Option Nat :=
  match f.buffer, landingOf (s.part b.part) b.stream with
  | some i, some l => bufferAddr (s.part b.part) l i
  | _, _ => none

/-- Write bytes with every 64-byte word of the line poisoned, or none. -/
def putMarked (s : State) (a : Nat) (bs : Bytes) (bad : Bool) : State :=
  let s := bankWrite s a bs
  if bad then (List.range (ceilDiv bs.length 64)).foldl (fun s i => bankMark s (a / 64 + i)) s else s

def countBadLine (s : State) (port : PortId) : State := s.modRx port (fun r => { r with badLine := satAdd 8 r.badLine 1 })

/-- Write a converted line at the next multiple of 64 bytes (R275), or discard it when it would pass MAX_BYTES (R276). -/
def putLine (s : State) (b : Binding) (f : OpenFrame) (line : Bytes) (bad : Bool) : State × OpenFrame :=
  if f.drop then (s, f) else
  match frameAddr s b f with
  | none => (s, f)
  | some a =>
    if b.maxBytes < f.written + line.length then (countBadLine s b.port, { f with flags := f.flags ||| 1 })
    else
      let whole := padTo (64 * ceilDiv line.length 64) line
      let s := putMarked s (a + f.written) whole bad
      let f := { f with written := f.written + whole.length, lines := f.lines + 1 }
      if bad then (countBadLine s b.port, { f with bad := f.bad + 1, flags := f.flags ||| 1 }) else (s, f)

/-- TAGS and KEEP_EMB of a binding. -/
def tagsOf (b : Binding) : Bool := bitOf b.sflags 0
def keepEmb (b : Binding) : Bool := bitOf b.sflags 1

/-- A long packet that is not written fails its CRC-16: a bad line of its frame (R276). -/
def noteBad (s : State) (b : Binding) (f : OpenFrame) (ok : Bool) : State × OpenFrame :=
  if ok || f.drop then (s, f) else (countBadLine s b.port, { f with flags := f.flags ||| 1 })

/-- An embedded line that turned out not to be the last packet: leading ones are kept under KEEP_EMB (R273). -/
def flushTail (s : State) (b : Binding) (f : OpenFrame) : State × OpenFrame :=
  match f.tail with
  | none => (s, f)
  | some (data, ok) =>
    let f := { f with tail := none, received := f.received ++ data }
    if keepEmb b && !f.started then putLine s b f data (!ok) else noteBad s b f ok

/-- The last packet of a frame that closes: the tag line under TAGS, which is never written (R278), else an embedded line. -/
def closeTail (s : State) (b : Binding) (f : OpenFrame) : State × OpenFrame :=
  if tagsOf b then noteBad s b f ((f.tail.map (fun t => t.2)).getD true) else flushTail s b f

/-- A payload line of the stream's own type: a length other than LINE_BYTES is padded or truncated and marked bad. -/
def payloadLine (s : State) (b : Binding) (f : OpenFrame) (dt : Nat) (data : Bytes) (ok : Bool) : State × OpenFrame :=
  let (s, f) := flushTail s b f
  let f := { f with started := true, received := f.received ++ data }
  putLine s b f (convertLine dt (padTo b.lineBytes data)) (!ok || data.length != b.lineBytes)

/-! ## Ingress tags (R278, R279) -/

/-- The additional data of a frame's tag. -/
def tagData (line : Bytes) (frame dt vc : Nat) (received : Bytes) : Bytes :=
  line.take 16 ++ leBytes 2 frame ++ leBytes 1 dt ++ leBytes 1 vc ++ zeros 4 ++ received

/-- The stream key that verifies a frame's tag line. -/
def tagKey (x : Part) (stream : Nat) (f : OpenFrame) (dt vc : Nat) : Option StreamKey :=
  match f.tail with
  | none => none
  | some (line, _) =>
    if line.length = 64 && fieldAt line 0 4 = 0x47544147 && zeroAt line 32 32 then
      x.keys.streams.find? (fun k => k.stream == stream && k.gen == fieldAt line 4 4 && k.high < fieldAt line 8 8 &&
        gmac k.key (k.salt ++ leBytes 8 (fieldAt line 8 8)) (tagData line f.frame dt vc f.received) == slice line 16 16)
    else none

/-- The counter of a tag line. -/
def tagCounter (f : OpenFrame) : Nat := match f.tail with | some (line, _) => fieldAt line 8 8 | none => 0

/-- Check the tag of a frame that closes on a stream with TAGS: verified, or dropped (R276, R279). -/
def checkTag (s : State) (b : Binding) (f : OpenFrame) (dt : Nat) : State × OpenFrame :=
  if !tagsOf b || f.drop then (s, f) else
  match tagKey (s.part b.part) b.stream f dt b.vc with
  | some k =>
    (s.modKeys b.part (fun q => { q with streams := updFirst (fun j => j.stream == k.stream && j.gen == k.gen) (fun j => { j with high := tagCounter f }) q.streams }),
     { f with flags := f.flags ||| 4 })
  | none =>
    (s.modRx b.port (fun r => { r with tagFail := satAdd 8 r.tagFail 1 }), { f with flags := f.flags ||| 8, drop := true })

/-! ## Closing (R275, 01 R29) -/

/-- A journal entry that a frame of receive port `n` which closes at `t` precedes although it was entered before: it closed at the same
nanosecond on a port of a higher source number (R275; 01 R39). A follower's own frames, which its leader has still to number, stand in this
order too (13 R364). DEDUCED, log entry 19. -/
def comesLater (x : Part) (t : Ns) (n : Nat) (e : JEntry) : Bool := e.paired == !follows x && e.arrived == t && n < e.port

/-- How many entries at the journal's end the new entry precedes. -/
def laterCount (later : JEntry → Bool) (js : List JEntry) : Nat := (js.reverse.takeWhile later).length

/-- Enter a closed frame before the last `n` entries; the numbers of those that have one move up by one. -/
def enterJournal (js : List JEntry) (e : JEntry) (n : Nat) : List JEntry :=
  js.take (js.length - n) ++ [e] ++ (js.drop (js.length - n)).map (fun j => { j with seq := j.seq + bit j.paired })

/-- Close the open frame of a binding with further flags: journal it, keep its payload, pass it to a mirror member.
DEDUCED, log entry 19. -/
def closeFrame (s : State) (b : Binding) (bits : Nat) : State :=
  match b.opened with
  | none => s
  | some f =>
    let dt := ((rxDecl (s.part b.part) b.stream).map (fun d => d.dt)).getD 0
    let f := { f with flags := f.flags ||| bits, drop := f.drop || bitOf bits 3 }
    let s := if bitOf bits 1 then s.modRx b.port (fun r => { r with timeout := satAdd 8 r.timeout 1 }) else s
    let (s, f) := closeTail s b f
    let (s, f) := checkTag s b f dt
    let len := if f.drop then 0 else f.written
    let a := (frameAddr s b f).getD 0
    let data := bankRead s a len
    let x := s.part b.part
    let k := laterCount (comesLater x s.stamp b.port.val) x.journal
    let e : JEntry :=
      { seq := if follows x then x.nextSeq else x.nextSeq - k, arrived := s.stamp, port := b.port.val, vc := b.vc, dt := dt, flags := f.flags + 16 * bit s.time.unsure,
        length := len, pcrc := BitVec.ofNat 32 (crc32c data), frame := f.frame, stream := b.stream, buffer := if f.drop then none else f.buffer,
        lines := f.lines, bad := f.bad, payload := if f.drop then none else some data,
        marks := marksRead s.mem.bankPoison (a / 64) (len / 64), taken := false, dest := none, housed := false,
        paired := !follows x, copied := (copiedAs s b.part b.stream).isNone }
    let s := s.setPart b.part { x with nextSeq := x.nextSeq + bit (!follows x), journal := enterJournal x.journal e k }
    let s := s.modRx b.port (fun r => { r with frames := r.frames + 1 })
    let s := modBinding s b.part b.stream false (fun b => { b with opened := none })
    copyOut (s.modPart b.part pairAll) b.part

/-! ## The rows -/

/-- A new open frame. -/
def newOpen (s : State) (frame : Nat) (buffer : Option Nat) (dropped : Bool) : OpenFrame :=
  { buffer := buffer, frame := frame, written := 0, flags := if dropped then 8 else 0, lines := 0, bad := 0, received := [],
    tail := none, started := false, drop := dropped, openedAt := s.now, lastAt := s.now, timeout := s.csi.timeout }

/-- Open a frame: the quota is tested before the landing buffers (R276, R277). -/
def openFrame (s : State) (b : Binding) (frame : Nat) : State :=
  let excess := b.quota ≤ b.counted
  let buf := freeBuffer (s.part b.part) b.stream none
  let s := if excess then s.modRx b.port (fun r => { r with overQuota := satAdd 16 r.overQuota 1 })
           else if buf.isNone then s.modRx b.port (fun r => { r with noBuffer := satAdd 16 r.noBuffer 1 })
           else s
  let f := if excess || buf.isNone then newOpen s frame none true else newOpen s frame buf false
  modBinding s b.part b.stream false (fun b => { b with counted := b.counted + 1, opened := some f })

/-- CSI_FRAME_START (R275–R277). -/
def execCsiFrameStart (port : PortId) (vc : Nat) (frame : Nat) (s : State) : Result :=
  let s := noteSync s port
  match rxBinding s port vc with
  | none => .next (countUnbound s)
  | some b =>
    if takesFrames s b.part && (landingOf (s.part b.part) b.stream).isSome then
      let s := closeFrame s b 2
      match rxBinding s port vc with
      | some b => .next (openFrame s b (frame % 65536))
      | none => .next s
    else .next (countUnbound s)

/-- CSI_LONG_PACKET (R273, R275, R276). -/
def execCsiLongPacket (port : PortId) (vc : Nat) (dt : Nat) (data : Bytes) (crcOk : Bool) (hdrErrors : Nat) (s : State) : Result :=
  let s := noteSync s port
  if 2 ≤ hdrErrors then
    let s := s.modRx port (fun r => { r with hdrDiscard := satAdd 8 r.hdrDiscard 1 })
    match rxBinding s port vc with
    | some b => .next (modBinding s b.part b.stream false (fun b => { b with opened := b.opened.map (fun f => { f with flags := f.flags ||| 1 }) }))
    | none => .next s
  else
    let s := if hdrErrors = 1 then s.modRx port (fun r => { r with hdrCorrected := r.hdrCorrected + 1 }) else s
    match rxBinding s port vc with
    | none => .next (countUnbound s)
    | some b =>
      match b.opened, rxDecl (s.part b.part) b.stream with
      | some f, some d =>
        if !takesFrames s b.part then .next (countUnbound s) else
        let f := { f with lastAt := s.now }
        if dt = 0x12 then
          let (s, f) := flushTail s b f
          .next (modBinding s b.part b.stream false (fun b => { b with opened := some { f with tail := some (data, crcOk) } }))
        else if dt = d.dt && receives dt then
          let (s, f) := payloadLine s b f dt data crcOk
          .next (modBinding s b.part b.stream false (fun b => { b with opened := some f }))
        else .next (countUnbound (modBinding s b.part b.stream false (fun b => { b with opened := some f })))
      | _, _ => .next (countUnbound s)

/-- CSI_FRAME_END: another frame number than the start's marks the frame and counts as a bad line (R276). -/
def execCsiFrameEnd (port : PortId) (vc : Nat) (frame : Nat) (s : State) : Result :=
  let s := noteSync s port
  match rxBinding s port vc with
  | none => .next (countUnbound s)
  | some b =>
    match b.opened with
    | some f =>
      if !takesFrames s b.part then .next (countUnbound s)
      else if f.frame = frame % 65536 then .next (closeFrame s b 0) else .next (closeFrame (countBadLine s port) b 1)
    | none => .next (countUnbound s)

/-- CSI_FRAME_TIMEOUT: FE_TIMEOUT passes without a packet (R276). -/
def execCsiFrameTimeout (port : PortId) (vc : Nat) (s : State) : Result :=
  match rxBinding s port vc with
  | none => .next s
  | some b =>
    match b.opened with
    | some f => .next (closeFrame (s.reach (f.lastAt + us f.timeout)) b 2)
    | none => .next s

/-- Every open frame of a receive port closes as by timeout. -/
def closeAll (s : State) (port : PortId) : State :=
  (s.csi.bindings.filter (fun b => !b.transmit && b.port == port)).foldl (fun s b => closeFrame s b 2) s

/-- CSI_LANE_SYNC_LOSS (R276). -/
def execCsiLaneSyncLoss (port : PortId) (s : State) : Result :=
  if (s.csi.rx.get port).sync then
    let s := s.modRx port (fun r => { r with sync := false, lost := true })
    .next (closeAll (s.event (0x50 + port.val) 0x0601 0xFF [0]) port)
  else .next s

/-- CSI_LANE_SYNC_REGAINED (R269). -/
def execCsiLaneSyncRegained (port : PortId) (s : State) : Result :=
  if (s.csi.rx.get port).sync then .next s
  else .next ((s.modRx port (fun r => { r with sync := true, lost := false })).event (0x50 + port.val) 0x0601 0xFF [1])

/-- CSI_GENERIC_SHORT_PACKET: data types 0x08–0x0F (R269). -/
def execCsiGenericShortPacket (port : PortId) (dt : Nat) (s : State) : Result :=
  if 0x08 ≤ dt && dt ≤ 0x0F then .next (countUnbound (noteSync s port)) else .next s

/-- A quota window of a stream opens now; without an edge the next opens when the time counter reads `due` (R277). -/
def openWindow (s : State) (b : Binding) (due : Ns) : State :=
  modBinding s b.part b.stream false (fun b => { b with windowAt := some s.now, counted := 0, windowDue := due })

/-- At a TIME_SYNC edge: a window opens at least 0.9999 s after the current one, or as a stream's first (R277). -/
def quotaEdge (s : State) : State :=
  (s.csi.bindings.filter (fun b => !b.transmit)).foldl (fun s b =>
    match b.windowAt with
    | some t => if t + 999900000 ≤ s.now then openWindow s b (s.stamp + 1000100000) else s
    | none => openWindow s b (s.stamp + 1000100000)) s

/-- QUOTA_WINDOW_TIMEOUT (R277). -/
def execQuotaWindowTimeout (port : PortId) (vc : Nat) (s : State) : Result :=
  match rxBinding s port vc with
  | some b =>
    let s := s.reachStamp b.windowDue
    .next (openWindow s b (s.stamp + sec 1))
  | none => .next s

end Sys2Proof.Machine
end

