-- ==== Sys2Proof/Machine/Streams.lean ====
section
/-! DEFINITION. Stream commands and transmit ports (10 R270–R272, R280–R286; 19 R480, R481): GATHER, EMIT, the frames that
leave, stream bindings and the event mirror. -/

namespace Sys2Proof.Machine

/-! ## Video bank references (09 R256) -/

/-- A video bank reference. -/
structure VRef where
  off  : Nat
  bank : Nat
  lc   : Nat
  deriving DecidableEq, Repr

def vrefOf (w : Nat) : VRef := { off := bitsOf w 20 0, bank := bitsOf w 22 21, lc := bitsOf w 25 23 }

/-- A region of a video bank reference passes the end of cluster bank 3. -/
def vrefPast (r : VRef) (bytes : Nat) : Bool := 4 * bankSize < r.bank * bankSize + r.off + bytes

/-- Bank address of a video bank reference. -/
def vrefAddr (x : Part) (r : VRef) : Option Nat := clusterBankAddr x r.lc r.bank r.off

/-- Every bank that a region touches is owned by the master with `code` and `unitNo` (10 R281, R283; 09 R256). -/
def vrefOwned (s : State) (p : PartId) (r : VRef) (bytes code unitNo : Nat) : Bool :=
  (List.range 4).all (fun b =>
    (b + 1) * bankSize ≤ r.bank * bankSize + r.off || r.bank * bankSize + r.off + bytes ≤ b * bankSize ||
    (match physBank s (s.part p) r.lc (32 + b) with | some q => ownedBy s p q code unitNo | none => false))

/-! ## GATHER (R280–R282) -/

/-- The binding of a logical stream. -/
def bindingOf (s : State) (p : PartId) (stream : Nat) (transmit : Bool) : Option Binding :=
  s.csi.bindings.find? (fun b => b.part == p && b.stream == stream && b.transmit == transmit)

/-- The UNIT of the banks of a receive stream: its port; for one bound by LINK_INGRESS alone, which has no CSI-2 port, that of the bank where
the destination begins (DESIGN CHOICE, log entry 145). -/
def gatherUnit (s : State) (p : PartId) (stream : Nat) (dst : VRef) : Nat :=
  match bindingOf s p stream false, physBank s (s.part p) dst.lc (32 + dst.bank) with
  | some b, _ => b.port.val
  | none, some q => if copyBound s p stream then (s.owner q).unit else 0
  | none, none => 0

/-- The landed frame of a stream with the lowest sequence number not taken, and how many dropped entries come before it. -/
def nextLanded (stream : Nat) : List JEntry → Option (JEntry × Nat)
  | [] => none
  | e :: es =>
    if e.stream != stream || e.taken || !e.paired then nextLanded stream es
    else if bitOf e.flags 3 then (nextLanded stream es).map (fun r => (r.1, r.2 + 1))
    else some (e, 0)

/-- Two address ranges meet. -/
def meets (a n b m : Nat) : Bool := a < b + m && b < a + n

/-- A destination that a GATHER of an earlier step wrote and the house turn has not read (R281). -/
def destHeld (x : Part) (a n : Nat) : Bool :=
  x.journal.any (fun e => match e.dest with
    | some (b, m, st) => !e.housed && st < x.step && meets a n b m
    | none => false)

/-- The gather result record (R281). DESIGN CHOICE, log entry 56. -/
def gatherRecord (stream : Nat) (e : JEntry) (skipped length : Nat) : Bytes :=
  leBytes 4 0x47544852 ++ leBytes 2 stream ++ leBytes 1 (e.flags % 8) ++ leBytes 1 e.dt ++ leBytes 8 e.seq ++ leBytes 4 length ++
  leBytes 2 e.frame ++ leBytes 2 (min skipped 65535) ++ leBytes 2 e.lines ++ leBytes 2 e.bad ++ leBytes 4 e.pcrc.toNat ++ zeros 32

/-- Take a landed frame and the dropped entries before it. -/
def takeEntries (e : JEntry) (dest : Nat × Nat × Nat) (js : List JEntry) : List JEntry :=
  js.map (fun j =>
    if !j.paired then j
    else if j.seq = e.seq then { j with taken := true, buffer := none, dest := some dest }
    else if j.stream = e.stream && j.seq < e.seq then { j with taken := true } else j)

/-- The first `n` bytes of a landed frame with the marks of their words, read from its landing buffer, bit errors met there included (05 R157);
a frame that a replay's journal feeds has no buffer. -/
def landedBytes (s : State) (p : PartId) (e : JEntry) (n : Nat) : State × Bytes × List Bool :=
  match e.buffer, landingOf (s.part p) e.stream with
  | some i, some l =>
    match bufferAddr (s.part p) l i with
    | some a => (meetBank s a n, bankRead s a n, marksRead (meetBank s a n).mem.bankPoison (a / 64) (ceilDiv n 64))
    | none => (s, (e.payload.getD []).take n, e.marks.take (n / 64))
  | _, _ => (s, (e.payload.getD []).take n, e.marks.take (n / 64))

/-- GATHER (R280): copy, zero fill, result record, free the landing buffer. It waits while the frame's number is not settled (R275). -/
def gatherSteps (d : Due) (s : State) : Engine EngineOut := do
  let r := d.record
  let dst := vrefOf (recField r 24 4)
  let res := vrefOf (recField r 28 4)
  let maxB := recField r 32 4
  let stream := recField r 36 2
  let x := s.part d.p
  let unitNo := gatherUnit s d.p stream dst
  match vrefAddr x dst, vrefAddr x res, nextLanded stream x.journal with
  | some a, some c, some (e, skipped) =>
    if vrefPast dst maxB then .error (.bad (a + maxB)) else
    if vrefPast res 64 then .error (.bad (c + 64)) else
    if !vrefOwned s d.p dst maxB 6 unitNo || !vrefOwned s d.p res 64 6 unitNo || destHeld x a maxB || !seqSettled s d.p e then .error .wait else
    let n := min e.length maxB
    let f := landedBytes s d.p e n
    let s := moveToBank f.1 a (padTo maxB f.2.1) f.2.2
    let s := bankWrite s c (gatherRecord stream e skipped n)
    let s := s.modPart d.p (fun x => { x with journal := takeEntries e (a, maxB, x.step) x.journal })
    return .done s (16 + ceilDiv maxB 4096) 0
  | _, _, _ => .error .wait

def execGather (p : PartId) (q : Nat) (s : State) : Result :=
  runEngine s p q 7 0x0700 (fun d => handoverAt d.record 40 (vrefOf (recField d.record 24 4)).lc) (fun d s => (gatherSteps d s).out)

/-! ## EMIT (R283–R286) -/

/-- The payload words as sent: a poisoned word leaves as zeros (R286). -/
def sentWords (bs : Bytes) (marks : List Bool) : Bytes :=
  ((List.range bs.length).zip bs).map (fun b => if marks.getD (b.1 / 64) false then 0 else b.2)

/-- The image's declaration of a transmit stream. -/
def txDecl (x : Part) (stream : Nat) : Option StreamDecl :=
  x.image.bind (fun i => i.streams.find? (fun d => d.stream == stream && d.transmit))

/-! ### Step-batch frames (08 R225–R227) -/

/-- The 32 bytes of an entry (08 R226). -/
def entryBytes (e : BatchEntry) : Bytes :=
  leBytes 8 e.client ++ leBytes 4 e.seq ++ leBytes 4 e.token ++ leBytes 4 e.pos ++ leBytes 1 e.status ++ leBytes 1 e.cls ++ zeros 2 ++
  leBytes 4 e.prob ++ zeros 4

/-- The token entry of a batch slot in the current step: a sequence produces a token once its appends reach its prompt's
end (08 R221, R226, R229). DESIGN CHOICE, log entry 44. -/
def tokenEntry (x : Part) (q : Seq) (t : TokenOut) : Option (Nat × BatchEntry) :=
  let pos := q.len + stepAppends x q
  if pos < q.promptEnd then none else
  some (t.slot, { client := q.client, seq := q.seq, token := t.token, pos := pos, cls := q.cls, prob := t.prob,
                  status := if q.tokensOut + 1 = q.maxNew then 0x01
                            else if t.token = q.stopToken && q.stopToken ≠ 0xFFFFFFFF then 0x02 else 0x00 })

/-- The token entries of a stream's sequences, in ascending batch slot. DEDUCED, log entry 21. -/
def tokenEntries (x : Part) (stream : Nat) (tokens : List TokenOut) : List (Nat × BatchEntry) :=
  (batchSeqs x).filterMap (fun q =>
    if q.stream = stream then (tokens.find? (fun t => some t.slot == q.slot)).bind (tokenEntry x q) else none)

/-- The payload of a step-batch frame (08 R225): a RUN_OUT sequence's token is dropped (08 R229). DEDUCED, log entry 21. -/
def batchPayload (p : PartId) (x : Part) (stream room : Nat) (es : List (Nat × BatchEntry)) : Bytes :=
  let toks := es.filter (fun e => x.seqs.any (fun q => q.slot == some e.1 && q.state == .active))
  let sts := x.status.filter (fun e => e.1 == stream)
  let bs := leBytes 4 0x53424154 ++ leBytes 2 1 ++ leBytes 1 p.val ++ leBytes 1 (bit (room < sts.length)) ++ leBytes 8 x.step ++
    leBytes 2 stream ++ leBytes 2 toks.length ++ leBytes 2 (min room sts.length) ++ zeros 42 ++
    toks.flatMap (fun e => entryBytes e.2) ++ (sts.take room).flatMap (fun e => entryBytes e.2)
  padTo (64 * ceilDiv bs.length 64) bs

/-- Drop the first `n` status entries of a stream. -/
def dropStatus (stream : Nat) : Nat → List (Nat × BatchEntry) → List (Nat × BatchEntry)
  | _, [] => []
  | 0, es => es
  | n + 1, e :: es => if e.1 = stream then dropStatus stream n es else e :: dropStatus stream (n + 1) es

/-- What an EMIT sends: on a step-batch stream the frame that the gaffer composes (DEDUCED, log entry 21), else the source region's
words, and how many were poisoned. -/
def emitPayload (s : State) (p : PartId) (stream a n : Nat) (tokens : List TokenOut) : Bytes × Nat × Part :=
  let x := s.part p
  match txDecl x stream with
  | some d =>
    if d.dt = 0x34 then
      let es := tokenEntries x stream tokens
      (batchPayload p x stream d.room es, 0, { x with batch := x.batch ++ es, status := dropStatus stream d.room x.status })
    else
      let marks := marksRead s.mem.bankPoison (a / 64) (ceilDiv n 64)
      (sentWords (bankRead s a n) marks, (marks.filter (fun m => m)).length, x)
  | none => ([], 0, x)

/-- A stream's step-batch frame of the current step waits to leave or has left. -/
def batchSent (x : Part) (d : StreamDecl) : Bool :=
  x.emits.any (fun e => e.stream == d.stream && e.step == x.step) || x.emitted.any (fun e => e.1 == d.streamId)

/-- An EMIT on a step-batch stream whose frame of this step is composed already: there is one in every step (08 R225). -/
def secondBatch (x : Part) (stream : Nat) : Bool :=
  match txDecl x stream with | some d => d.dt == 0x34 && batchSent x d | none => false

/-- A command of the running step kind emits on a stream. -/
def kindEmits (x : Part) (stream : Nat) : Bool :=
  ((planOf x).map (fun k => k.lists.any (fun l => l.cmds.any (fun r => recClass r == 7 && recOpcode r == 0x0701 && recField r 32 2 == stream)))).getD false

/-- The tokens that the sequences of a stream produce in a step in which no command gives them: free values, by step and sequence (08 R221,
R225). DEDUCED, log entry 21. -/
def gafferTokens (x : Part) (stream : Nat) : List TokenOut :=
  (batchSeqs x).filterMap (fun q => if q.stream = stream then
      q.slot.map (fun sl => { slot := sl, token := (Config.freeWord [stream, x.step, q.seq, 0]).toNat, prob := (Config.freeWord [stream, x.step, q.seq, 1]).toNat })
    else none)

/-- The frames that the gaffer sends in a step on the step-batch streams of a serving partition on which no command of the step kind
emits: a step has one frame on each (08 R225). They stand under queue number 65536, which no queue has. DEDUCED, log entry 21. -/
def gafferFrames (s : State) (p : PartId) : State :=
  let x := s.part p
  let ds := ((x.image.map (fun i => i.streams)).getD []).filter (fun d => d.transmit && d.dt == 0x34 && !kindEmits x d.stream)
  if !((x.image.map (fun i => i.streams.any (fun d => !d.transmit && d.dt == 0x30))).getD false) then s else
  ds.foldl (fun s d =>
    let out := emitPayload s p d.stream 0 0 (gafferTokens (s.part p) d.stream)
    s.setPart p { out.2.2 with emits := out.2.2.emits ++ [{ stream := d.stream, payload := out.1, poison := 0, step := x.step, queue := 65536, index := 0 }] }) s

/-- EMIT: its work beats, then its frame waits for the interval and the wire; it completes when frame end has been sent. -/
def emitSteps (d : Due) (tokens : List TokenOut) (s : State) : Engine EngineOut := do
  let r := d.record
  let src := vrefOf (recField r 24 4)
  let n := recField r 28 4
  let stream := recField r 32 2
  let x := s.part d.p
  let unitNo := match bindingOf s d.p stream true with | some b => b.port.val | none => 0
  match vrefAddr x src with
  | some a =>
    if vrefPast src n then .error (.bad (a + n)) else
    if !vrefOwned s d.p src n 7 unitNo then .error .wait else
    if secondBatch x stream then return .done s (16 + ceilDiv n 4096) 0 else
    let out := emitPayload s d.p stream a n tokens
    let e : EmitReq := { stream := stream, payload := out.1, poison := out.2.1, step := x.step, queue := d.desc.queue, index := d.index }
    let read := ((txDecl x stream).map (fun t => t.dt != 0x34)).getD false
    return .done ((if read then meetBank s a n else s).setPart d.p { out.2.2 with emits := x.emits ++ [e] }) (16 + ceilDiv n 4096) 0
  | none => .error .wait

/-- Mark the command of a queue that completes only when its frame has left. -/
def awaitFrame (s : State) (p : PartId) (q : Nat) : State :=
  s.modPart p (fun x => { x with inflight := x.inflight.map (fun e =>
    if e.queue = q && !e.walk && x.emits.any (fun m => m.queue == q && m.index == e.index) then { e with awaiting := true } else e) })

def execEmit (p : PartId) (q : Nat) (tokens : List TokenOut) (s : State) : Result :=
  match runEngine s p q 7 0x0701 (fun d => handoverAt d.record 40 (vrefOf (recField d.record 24 4)).lc) (fun d s => (emitSteps d tokens s).out) with
  | .next t => .next (awaitFrame t p q)
  | r => r

/-- Claim number that a partition's frames carry: 0 in a replay, 1 unpaired, its own otherwise (13 R355, 01 R35). -/
def frameClaim (x : Part) : Nat := if x.replay then 0 else if x.claim.paired then x.claim.claim.toNat else 1

/-- The frame-header line (R285). -/
def headerLine (part hflags streamId dt claim step time source bytes pcrc poison : Nat) : Bytes :=
  let h := leBytes 4 0x5A464844 ++ leBytes 2 1 ++ leBytes 1 part ++ leBytes 1 hflags ++ leBytes 2 streamId ++ leBytes 1 dt ++ zeros 1 ++
    leBytes 4 claim ++ leBytes 8 step ++ leBytes 8 time ++ leBytes 4 source ++ leBytes 4 bytes ++ leBytes 4 pcrc ++ leBytes 4 poison ++ zeros 12
  h ++ leBytes 4 (crc32c h)

/-- The payload lines of a frame: LINE_BYTES each, the last padded with zeros (R284). -/
def payloadLines (lineBytes : Nat) (bs : Bytes) : List Bytes :=
  (List.range (ceilDiv bs.length lineBytes)).map (fun i => padTo lineBytes (bs.drop (i * lineBytes)))

/-- Frame numbers of a virtual channel count from 1 and pass from 65,535 back to 1 (R284). -/
def nextNumber (n : Nat) : Nat := if n = 65535 then 1 else n + 1

/-- The instant before which a stream's next frame may not start (R285). -/
def intervalEnd (s : State) (p : PartId) (b : Binding) : Ns :=
  match s.csi.txStreams.find? (fun t => t.part == p && t.stream == b.stream) with
  | some t => match t.lastStart with | some l => l + us b.minInterval | none => 0
  | none => 0

/-- Latest start of an EMIT in paced mode (15 R433), after its step's boundary. -/
def latestStart (x : Part) (e : EmitReq) : Ns :=
  if x.paced then
    match (x.image.bind (fun i => i.latestStarts)).bind (fun l => l.find? (fun r => r.1 == e.queue && r.2.1 == e.index)) with
    | some r => x.releaseAt + r.2.2
    | none => 0
  else 0

/-- Note a frame start of a stream. -/
def noteStart (s : State) (p : PartId) (stream : Nat) : State :=
  s.modCsi (fun c => { c with
    txStreams := if c.txStreams.any (fun t => t.part == p && t.stream == stream) then
      updFirst (fun t => t.part == p && t.stream == stream) (fun t => { t with lastStart := some s.now }) c.txStreams
    else c.txStreams ++ [{ part := p, stream := stream, lastStart := some s.now }] })

/-- The EMIT whose frame has left, or leaves until `done`, may complete. DEDUCED, log entry 20. DESIGN CHOICE, log entry 147. -/
def frameSent (s : State) (p : PartId) (e : EmitReq) (done : Ns := 0) : State :=
  s.modPart p (fun x => { x with
    emits := x.emits.erase e
    emitted := x.emitted ++ [(((txDecl x e.stream).map (fun d => d.streamId)).getD 0, e.payload)]
    inflight := updFirst (fun i => i.queue == e.queue && i.index == e.index && !i.walk) (fun i => { i with awaiting := false, ticket := done }) x.inflight })

/-- The header line of an EMIT's frame (R285), from the transmit port `n`. -/
def emitHeader (s : State) (p : PartId) (n : Nat) (e : EmitReq) : Bytes :=
  let x := s.part p
  headerLine p.val (bit s.time.unsure + 2 * bit (e.poison != 0)) (((txDecl x e.stream).map (fun d => d.streamId)).getD 0)
    (((txDecl x e.stream).map (fun d => d.dt)).getD 0) (frameClaim x) e.step s.stamp (s.source (0x60 + n)) e.payload.length (crc32c e.payload)
    (min e.poison (2 ^ 32 - 1))

/-- A replay writes a frame, its header line first, to the store tray (01 R35). The port in its source is the one bound, else port 0.
DESIGN CHOICE, log entry 129. -/
def storeFrame (s : State) (p : PartId) (e : EmitReq) : State :=
  let n := ((bindingOf s p e.stream true).map (fun b => b.port.val)).getD 0
  queueExport s p 3 (emitHeader s p n e ++ e.payload)

/-- The time of a frame on the wire, in ns: the bits of its header line and payload lines, each with 6 bytes of its packet, as R271 counts them,
over the lanes of the port. DESIGN CHOICE, log entry 147. -/
def wireTime (lanes mbps lineBytes bytes : Nat) : Ns :=
  let n := ceilDiv bytes (max lineBytes 1)
  ceilDiv ((64 + n * lineBytes + 6 * (n + 1)) * 8 * 1000) (max (lanes * mbps) 1)

/-- Send a frame whole: frame start, header line, payload lines, frame end (R284). DEDUCED, log entry 20.
DESIGN CHOICE, log entry 147. -/
def sendFrameOut (s : State) (p : PartId) (b : Binding) (e : EmitReq) : State :=
  let x := s.part p
  let dt := ((txDecl x e.stream).map (fun d => d.dt)).getD 0
  let t := s.csi.tx.get b.port
  let vc : Fin 32 := ⟨b.vc % 32, by omega⟩
  let n := t.numbers.get vc
  let s := s.emit (.csiFrame b.port b.vc n s.stamp (emitHeader s p b.port.val e) dt (payloadLines b.lineBytes e.payload))
  let s := s.modTx b.port (fun t => { t with
      frames := t.frames + 1, numbers := t.numbers.set vc.val (nextNumber n) vc.isLt, endAt := s.now + wireTime b.lanes b.laneMbps b.lineBytes e.payload.length })
  frameSent (noteStart s p e.stream) p e (s.csi.tx.get b.port).endAt

/-- A lower virtual channel of the port has a frame ready now: it is sent first (R284). -/
def lowerReady (s : State) (b : Binding) (at_ : Ns) : Bool :=
  s.csi.bindings.any (fun c => c.transmit && c.port == b.port && c.vc < b.vc && !partHeld s c.part &&
    (match (s.part c.part).emits.find? (fun e => e.stream == c.stream) with
     | some e => max (intervalEnd s c.part c) (latestStart (s.part c.part) e) ≤ at_
     | none => false))

/-- During catch-up no frame leaves, and in its last step none that had left before the hard stop (04 R122); a member that
holds no claim emits nothing (13 R366, R370). DESIGN CHOICE, log entry 40. -/
def catchUpSent (x : Part) (e : EmitReq) : Bool :=
  (x.claim.paired && x.claim.role == .gloryHole) ||
  (match x.catchUp with
   | some t => e.step < t || x.sent.contains (((txDecl x e.stream).map (fun d => d.streamId)).getD 0)
   | none => false)

/-- A frame of the caught-up step that had left before counts once. -/
def dropSent (s : State) (p : PartId) (e : EmitReq) : State :=
  s.modPart p (fun x => { x with sent := if x.catchUp = some e.step then x.sent.erase (((txDecl x e.stream).map (fun d => d.streamId)).getD 0) else x.sent })

/-- The declared data type of a transmit stream is one that the module sends (R273). -/
def sendable (x : Part) (stream : Nat) : Bool := ((txDecl x stream).map (fun d => transmits d.dt)).getD false

/-- EMIT_FRAME_SEND (R285): not before the interval or while the port sends another frame (R284), nor while the partition is held; a replay
writes the frame to the store tray and sends nothing (01 R35); after the loss of PRSNT_N nothing starts (17 R458) and the EMIT ends unsent, and so does one on a stream
of a data type that the module does not send (R273; DEDUCED, log entry 20). -/
def execEmitFrameSend (p : PartId) (stream : Nat) (s : State) : Result :=
  match (s.part p).emits.find? (fun e => e.stream == stream) with
  | none => .next s
  | some e =>
    if (s.part p).replay then .next (frameSent (storeFrame s p e) p e)
    else if catchUpSent (s.part p) e then .next (frameSent (dropSent s p e) p e)
    else if s.csi.stopped || !sendable (s.part p) stream then .next (frameSent s p e)
    else if partHeld s p then .next s
    else
      match bindingOf s p stream true with
      | none => .next s
      | some b =>
        let t := max (max s.now (s.csi.tx.get b.port).endAt) (max (intervalEnd s p b) (latestStart (s.part p) e))
        if lowerReady s b t then .next s else .next (sendFrameOut (s.reach t) p b e)

/-! ## Stream bindings (R270–R272) -/

/-- The binding that a stream-bind body spells. -/
def bindingFrom (s : State) (t : Taken) (p : PartId) : Binding :=
  { part := p, transmit := t.field 1 1 = 1, stream := t.field 2 2, port := ⟨t.field 4 1 % 16, by omega⟩, vc := t.field 5 1,
    lanes := t.field 6 1, sflags := t.field 7 1, laneMbps := t.field 8 2, lineBytes := t.field 10 2, maxBytes := t.field 12 4,
    quota := t.field 16 2, minInterval := t.field 20 4, boundAt := s.now, windowAt := none, windowDue := s.stamp + sec 1, counted := 0,
    opened := none }

/-- A binding breaks R270: the port belongs to another partition or to the mirror, the virtual channel carries a stream, or
the port's lanes, lane rate or clock mode differ. -/
def bindConflict (s : State) (b : Binding) : Bool :=
  (s.csi.bindings.any (fun c => c.transmit == b.transmit && c.port == b.port && !(c.part == b.part && c.stream == b.stream) &&
    (c.part != b.part || c.vc == b.vc || c.lanes != b.lanes || c.laneMbps != b.laneMbps ||
     (b.transmit && bitOf c.sflags 2 != bitOf b.sflags 2)))) ||
  (b.transmit && (match s.events.mirror with | some m => m.port == b.port | none => false))

/-- Bits of a frame of a transmit stream, for R271. -/
def frameBits (maxBytes lineBytes : Nat) : Nat := (maxBytes + 64 + 6 * (ceilDiv maxBytes lineBytes + 1)) * 8

/-- The sum of R271 over streams given as (MAX_BYTES, LINE_BYTES, MIN_INTERVAL) exceeds 90 % of the port's rate: both sides
times ten and the product of the intervals. -/
def rateExceeded (lanes laneMbps : Nat) (streams : List (Nat × Nat × Nat)) : Bool :=
  let prod := (streams.map (fun r => r.2.2)).foldl (· * ·) 1
  9 * lanes * laneMbps * prod < 10 * (streams.map (fun r => frameBits r.1 r.2.1 * (prod / r.2.2))).sum

/-- The streams of a transmit port besides `b`, and `b`. -/
def portStreams (s : State) (b : Binding) : List (Nat × Nat × Nat) :=
  ((s.csi.bindings.filter (fun c => c.transmit && c.port == b.port && !(c.part == b.part && c.stream == b.stream))).map
    (fun c => (c.maxBytes, c.lineBytes, c.minInterval))) ++ [(b.maxBytes, b.lineBytes, b.minInterval)]

/-- Unbind a logical stream: an open frame closes as by timeout and is dropped (R270). -/
def unbind (s : State) (p : PartId) (stream : Nat) (f : Binding → Bool) : State :=
  (s.csi.bindings.filter (fun b => b.part == p && b.stream == stream && f b)).foldl (fun s b =>
    let s := if b.transmit then s else closeFrame s b 10
    s.modCsi (fun c => { c with bindings := c.bindings.filter (fun c => !(c.part == p && c.stream == stream && c.transmit == b.transmit)) })) s

/-- STREAM_BIND (R270, R271). -/
def execStreamBind (s : State) : Result :=
  onDue s 0x22 (fun _ => true) (fun t s =>
    let p := t.part 0
    if (s.part p).state = .running then answerBare s t 0x01
    else if t.field 1 1 = 0xFF then answerBare (unbind s p (t.field 2 2) (fun _ => true)) t 0x00
    else
      let b := bindingFrom s t p
      if bindConflict s b then answerBare s t 0x03
      else if b.transmit && rateExceeded b.lanes b.laneMbps (portStreams s b) then answerBare s t 0x05
      else
        let s := unbind s p b.stream (fun c => c.transmit == b.transmit)
        answerBare (s.modCsi (fun c => { c with bindings := c.bindings ++ [b] })) t 0x00)

/-- CSI_TIMEOUT: for frames opened from now on (R300 of 11; "The CSI registers"). -/
def execCsiTimeout (s : State) : Result :=
  onDue s 0x23 (fun _ => true) (fun t s => answerBare (s.modCsi (fun c => { c with timeout := t.field 0 4 })) t 0x00)

/-! ## The event mirror (R272; 19 R480, R481) -/

/-- EVT_MIRROR: bind or unbind the mirror port. DESIGN CHOICE, log entry 141. -/
def execEvtMirror (s : State) : Result :=
  onDue s 0x61 (fun _ => true) (fun t s =>
    if t.field 1 1 = 0xFF then answerBare (s.modEvents (fun v => { v with mirror := none })) t 0x00
    else
      let m : Mirror := { port := ⟨t.field 4 1 % 16, by omega⟩, vc := t.field 5 1, lanes := t.field 6 1, laneMbps := t.field 8 2,
                          lineBytes := t.field 10 2, maxBytes := t.field 12 4, minInterval := t.field 20 4, cursor := 0, lastStart := none }
      if s.csi.bindings.any (fun c => c.transmit && c.port == m.port) then answerBare s t 0x03
      else if rateExceeded m.lanes m.laneMbps [(m.maxBytes, m.lineBytes, m.minInterval)] then answerBare s t 0x05
      else answerBare (s.modEvents (fun v => { v with mirror := some m })) t 0x00)

/-- Index of the oldest record that the ring holds. -/
def oldestHeld (v : Events) : Nat := v.written - v.records.length

/-- Up to `n` held records from index `first` on. -/
def recordsFrom (v : Events) (first n : Nat) : List Event := (v.records.reverse.drop (first - oldestHeld v)).take n

/-- MIRROR_FRAME (19 R480): at least one new record, MIN_INTERVAL past, in every module state until PRSNT_N is lost.
DESIGN CHOICE, log entry 147. -/
def execMirrorFrame (s : State) : Result :=
  match s.events.mirror with
  | none => .next s
  | some m =>
    let first := max m.cursor (oldestHeld s.events)
    let es := recordsFrom s.events first ((m.maxBytes - 32) / 32)
    if es.isEmpty || s.csi.stopped || s.power.state = .off then .next s else
    let s := s.reach (max (s.csi.tx.get m.port).endAt (match m.lastStart with | some l => l + us m.minInterval | none => 0))
    let body := leBytes 4 0x524D5645 ++ leBytes 4 es.length ++ leBytes 8 first ++ zeros 16 ++ es.flatMap eventBytes
    let vc : Fin 32 := ⟨m.vc % 32, by omega⟩
    let n := (s.csi.tx.get m.port).numbers.get vc
    let h := headerLine 0xFF (bit s.time.unsure) 0 0x36 0 0 s.stamp (s.source (0x60 + m.port.val)) body.length (crc32c body) 0
    let s := s.emit (.csiFrame m.port m.vc n s.stamp h 0x36 (payloadLines m.lineBytes body))
    let s := s.modTx m.port (fun t => { t with
      frames := t.frames + 1, numbers := t.numbers.set vc.val (nextNumber n) vc.isLt, endAt := s.now + wireTime m.lanes m.laneMbps m.lineBytes body.length })
    .next (s.modEvents (fun v => { v with mirrorFrames := satAdd 16 v.mirrorFrames 1,
                                          mirror := some { m with cursor := first + es.length, lastStart := some s.now } }))

/-! ## Copy-out of the event ring (19 R477–R479, R481) -/

/-- EVT_COPY: copy on, from FROM or the oldest record held. -/
def execEvtCopy (s : State) : Result :=
  onDue s 0x60 (fun m => m.field 0 1 == 1) (fun t s =>
    let from_ := max (t.field 8 8) (oldestHeld s.events)
    answerBare (s.modPort t.port (fun q => { q with
      copyOn := true
      cursor := from_
      log := match q.log with | some (true, a, n, bs) => some (true, a, n, bs) | _ => none
      logAt := 0 })) t 0x00)

/-- EVT_COPY with ACTION 2: copy off. -/
def execEvtCopyStop (s : State) : Result :=
  onDue s 0x60 (fun m => m.field 0 1 == 2) (fun t s => answerBare (s.modPort t.port (fun q => { q with copyOn := false })) t 0x00)

/-- LOG_MESSAGE_FILL (R477): the next 1 to 127 records from the cursor; a cursor too far behind moves to the oldest held
(R479). -/
def execLogMessageFill (x : I3cId) (s : State) : Result :=
  let q := s.port x
  let first := max q.cursor (oldestHeld s.events)
  if s.events.openRing && q.copyOn && q.log.isNone && first < s.events.written then
    let es := recordsFrom s.events first 127
    .next (s.modPort x (fun q => { q with
      cursor := first
      logAt := 0
      log := some (false, first, es.length, logMessage (s.source (srcI3c x)) s.stamp (first + es.length < s.events.written) first es) }))
  else .next s

end Sys2Proof.Machine
end

