-- ==== Sys2Proof/Machine/Boundary.lean ====
section
/-! DEFINITION. The step boundary (01 R20–R22, R30–R37; 04 R126; 08 R222; 13 R359–R361, R370–R372; 14 R380; 15 R430, R433; 16
R447): what ends a step, what decides the next one, and its release. -/

namespace Sys2Proof.Machine

/-! ## The end of a step (R20, R30) -/

/-- A tally holds the value that the image declares for the end of the step (R20, 02 R53). -/
def tallyDone (x : Part) (t : Nat) : Bool :=
  tallyOf x t == min (baseOf x t + (((planOf x).bind (fun k => assocGet t k.declared)).getD 0)) (2 ^ 64 - 1)

/-- The running step has drained (R20): queues, walkers, house turns, copies, channels, tallies and frames. -/
def drained (x : Part) : Bool :=
  x.queues.all (fun r => !queueLeft x r.queue) && x.inflight.isEmpty && x.emits.isEmpty &&
  (List.range x.clusters.length).all (fun lc => (List.range (walkLists x lc).length).all (fun i => ((walkLists x lc).getD i []).length ≤ walkTaken x lc i)) &&
  x.houseTodo.isEmpty && x.kv.all (fun k => k.copies.isEmpty) && x.chans.all (fun c => c.bytes.isEmpty) &&
  (List.range x.tallies.length).all (tallyDone x)

/-- Journal entries consumed by the step, from FIRSTSEQ on (R30). -/
def gathered (x : Part) : Nat → Nat → Nat
  | 0, _ => 0
  | n + 1, sq => if x.journal.any (fun e => e.paired && e.seq == sq && e.taken) then gathered x n (sq + 1) + 1 else 0

/-- Payloads of a step's frames in stream-id order (R30). -/
def outInsert (e : Nat × Bytes) : List (Nat × Bytes) → List (Nat × Bytes)
  | [] => [e]
  | f :: fs => if f.1 ≤ e.1 then f :: outInsert e fs else e :: f :: fs

def stepOcrc (x : Part) : BitVec 32 :=
  BitVec.ofNat 32 (crc32c ((x.emitted.foldl (fun l e => outInsert e l) []).flatMap (fun e => e.2)))

/-- Journal payloads older than 60 s may be overwritten, the oldest first (13 R369). -/
def dropOld (s : State) (x : Part) : Part :=
  { x with journal := x.journal.map (fun e => if e.arrived + sec 60 < s.stamp && e.taken then { e with payload := none, marks := [] } else e) }

/-- Bytes that a step adds to the house turn's traffic (05 R144): its record, the journal entries and the event records since the last
one. DESIGN CHOICE, log entry 133. -/
def stepOwes (s : State) (p : PartId) (x : Part) : Nat :=
  (match x.records with | r :: _ => 64 + 16 * r.entries.length | [] => 0) + 32 * (x.nextSeq - x.houseSeen.1) +
  32 * ((s.events.records.take (s.events.written - x.houseSeen.2)).filter (fun e => e.part == p.val)).length

/-- Complete the record of the step that ends, advance its sequences (08 R222), count the step and take the tallies as its bases (02
R53). -/
def closeStep (s : State) (p : PartId) : State :=
  (settleHolds s).modPart p (fun x =>
    let n := gathered x x.journal.length x.firstSeq
    dropOld s { x with
      records := match x.records with
        | r :: rs => { r with work := x.stepWork, ocrc := stepOcrc x, ngather := n } :: rs
        | [] => []
      firstSeq := x.firstSeq + n
      seqs := x.seqs.map (advanceSeq x)
      batch := []
      emitted := []
      stepWork := 0
      houseOwed := x.houseOwed + stepOwes s p x
      houseSeen := (x.nextSeq, s.events.written)
      step := x.step + 1
      bases := x.tallies
      released := false
      stalled := false })

/-! ## Comparisons (R37; 04 R122; 13 R361, R370, R372) -/

/-- The record of a step among supplied or own ones. -/
def recordAt (rs : List StepRecord) (step : Nat) : Option StepRecord := rs.find? (fun r => r.step == step)

/-- WORK, OCRC and NGATHER of a step against a supplied record: the mask of event 0x0208. DEDUCED, log entry 41. -/
def mismatchMask (x : Part) (work : Bool) : Nat :=
  match recordAt x.records (x.step - 1), recordAt x.supplied (x.step - 1) with
  | some a, some b => bit (work && a.work != b.work) + 2 * bit (a.ocrc != b.ocrc) + 4 * bit (a.ngather != b.ngather)
  | _, _ => 0

/-- Hold a replay that diverges. -/
def diverge (s : State) (p : PartId) (step mask : Nat) : State :=
  (s.modPart p (fun x => { x with holdAt := some .divergence })).event srcGaffer 0x0208 p.val (leBytes 8 step ++ leBytes 1 mask)

/-- Compare the step that ended with the supplied record: a replay, and the steps before the abandoned one in catch-up, whose
WORK is equal only under the layout of the record (R24). DEDUCED, log entry 41. -/
def compareSupplied (s : State) (p : PartId) : State :=
  let x := s.part p
  if x.replay then
    let m := mismatchMask x true
    if m = 0 then s else diverge s p (x.step - 1) m
  else match x.catchUp with
    | some t =>
      let same := match recordAt x.records (x.step - 1), recordAt x.supplied (x.step - 1) with
        | some a, some b => a.layout == b.layout
        | _, _ => false
      if x.step ≤ t && mismatchMask x same != 0 then catchUpFail s p 3 else s
    | none => s

/-- A re-entry fails: an event, and the member starts again from a new snapshot until the third failure in a row (R372). -/
def reentryFail (s : State) (p : PartId) (cause : Nat) : State :=
  let tries := min 3 ((s.part p).claim.tries + 1)
  let s := s.event srcGaffer 0x0214 p.val (leBytes 1 cause ++ leBytes 1 tries)
  let s := s.modPart p (fun x => { x with
    released := false
    restored := false
    inflight := []
    emits := []
    chans := []
    holdAt := if x.state = .running then some .gloryHole else x.holdAt
    claim := { x.claim with tries := tries, wanted := x.claim.wanted && decide (tries < 3), good := 0, sections := [], parts := [], snapshot := none, holderOcrc := [] } })
  if 3 ≤ tries then s else sendPart s p 4 (s.part p).claim.pacePct (s.part p).step 0 []

/-- A member in GLORY_HOLE has a re-entry open (R370). -/
def reentryOpen (c : Claim) : Bool := c.role == .gloryHole && !c.leader && c.wanted

/-- Compare the OCRCs of finished steps with the holder's heartbeats (R361). -/
def compareHolder (s : State) (p : PartId) : State :=
  let x := s.part p
  if !follows x then s else
  let due := x.claim.holderOcrc.filter (fun h => h.1 ≤ x.step)
  let s := s.modClaim p (fun c => { c with holderOcrc := c.holderOcrc.filter (fun h => x.step < h.1) })
  due.foldl (fun s h =>
    match recordAt (s.part p).records (h.1 - 1) with
    | some r =>
      if h.1 = 0 || r.ocrc = h.2 then s else
      let s := (s.modClaim p (fun c => { c with mismatches := satAdd 8 c.mismatches 1, good := 0 })).event srcGaffer 0x0210 p.val
        (leBytes 8 (h.1 - 1) ++ leBytes 4 r.ocrc.toNat ++ leBytes 4 h.2.toNat)
      if reentryOpen (s.part p).claim then reentryFail s p 2 else s
    | none => s) s

/-- Steps by which a follower trails its leader (13, CLM_p_LAG). -/
def backlogOf (x : Part) : Nat :=
  let far := (x.claim.beats.head?.map (fun b => b.1)).getD 0
  min 65535 (if x.claim.leader then x.step - far else far - x.step)

/-- Note the backlog at a boundary; 64 good boundaries end a re-entry (R370). -/
def noteBacklog (s : State) (p : PartId) : State :=
  let x := s.part p
  if !x.claim.paired then s else
  let b := backlogOf x
  let s := s.modClaim p (fun c => { c with backlog := b })
  if reentryOpen x.claim && x.claim.snapshot.isSome then
    let good := if b ≤ 1 then x.claim.good + 1 else 0
    if 64 ≤ good then
      let s := (s.modClaim p (fun c => { c with role := .standby, good := 0, tries := 0, wanted := false, snapshot := none, pacePct := 0, reentries := satAdd 8 c.reentries 1 })).event srcGaffer 0x0215 p.val
        (leBytes 8 x.step)
      setClaim s p 1
    else s.modClaim p (fun c => { c with good := good })
  else s

/-! ## Stops (02 R59; 14 R380) -/

/-- No partition runs and no export runs: a draining module is drained (R380); with no partition running RUN falls to READY. -/
def settleModule (s : State) : State :=
  let running := s.parts.toList.any (fun x => x.state == .running)
  let s := if !running && s.power.state = .run then s.modPower (fun w => { w with state := .ready }) else s
  if s.power.state = .drain && !running && s.parts.toList.all (fun x => x.ckptNew.isNone) then s.modPower (fun w => { w with drained := true }) else s

/-- A partition that stops becomes ARMED with its step number kept (02 R59); one whose catch-up is impossible stays held until it
is unloaded (04 R123). DEDUCED, log entry 125. -/
def stopPart (s : State) (p : PartId) : State :=
  let s := (settleHolds s).modPart p (fun x => { x with
    state := .armed
    stopWanted := none
    released := false
    catchUp := none
    sent := []
    unsettled := []
    holdAt := if x.holdAt = some .catchUpImpossible then x.holdAt else none })
  settleModule (settleCores s p)

/-- A member yields: it leads no more, its claim is 0, and neither a re-entry nor a snapshot for the other member is open (13 R373). -/
def yieldClaim (s : State) (p : PartId) : State :=
  setClaim (s.modClaim p (fun c => { c with role := .gloryHole, leader := false, snapshot := none, wanted := false })) p 0

/-- A leader that comes to a boundary in DRAIN yields its claim there (14 R380). -/
def drainYield (s : State) (p : PartId) : State :=
  if s.power.state = .drain && (s.part p).claim.paired && (s.part p).claim.leader then yieldClaim s p else s

/-- What stops a partition at a boundary: a stop or unload order accepted before its stamp (R21), or DRAIN with no export running. -/
def stopDue (s : State) (x : Part) : Bool :=
  x.stopWanted.any (fun t => t < s.stamp) || (s.power.state == .drain && x.ckptNew.isNone)

/-! ## Who decides (R21, R35; 04 R122; 13 R359) -/

/-- What decides a boundary: the stamp of R21, the entries given for it (none when it is live) and the journal entries
before it. -/
structure Source where
  ts    : Ns
  given : Option (List Decision)
  named : Option (Nat × Nat)
  seen  : JEntry → Bool

/-- Entries that a boundary gives back. -/
def sourceOfRecord (r : StepRecord) : Source :=
  { ts := r.boundary, given := some r.entries, named := some (r.firstSeq, r.ngather), seen := fun e => e.arrived < r.boundary }

/-- The decision part held for the boundary (13 R359, R364): the SEQ after its journal entries, and its decisions. -/
def partFor (x : Part) : Option (Nat × List Decision) :=
  if x.claim.paired then (x.claim.parts.find? (fun e => e.1 == x.step)).map (fun e => e.2) else none

/-- The source of boundary s, or none while it is still to come. -/
def sourceOf (s : State) (x : Part) : Option Source :=
  let own := s.stamp
  let live : Source := { ts := own, given := none, named := none, seen := fun e => e.arrived < own }
  if x.replay then (recordAt x.supplied x.step).map sourceOfRecord
  else if x.catchUp.isSome then
    match recordAt x.supplied x.step with
    | some r => some (sourceOfRecord r)
    | none => some live
  else match partFor x with
    | some e => some { ts := own, given := some e.2, named := some (0, e.1), seen := fun j => j.seq < e.1 }
    | none => if follows x then none else some live

/-- The abandoned step takes its request frames by its boundary stamp: its record has no count of them yet. -/
def sourceNamed (x : Part) (r : Source) : Option (Nat × Nat) :=
  if x.catchUp = some x.step then none else r.named

/-! ## The boundary itself -/

/-- Wall bound of a step kind for this module's ordering code, in ns (R19). -/
def wallBound (s : State) (x : Part) (kind : Nat) : Nat :=
  ((x.image.bind (fun i => if s.fuses.codeSB then i.wallSB else i.wallSA)).bind (fun l => l[kind]?)).getD 0

/-- In paced mode a boundary waits out the wall bound of the step before it, and the engines count waiting beats (15 R433). -/
def paceBoundary (s : State) (p : PartId) : State :=
  let x := s.part p
  let t := x.boundary + wallBound s x x.kind
  if x.paced && x.entered < x.step && s.stamp < t then (coresWait s p).reachStamp t else s

/-- The new step record, with what is known at its boundary (R30). -/
def newRecord (s : State) (p : PartId) (stamp : Ns) (es : List Decision) : StepRecord :=
  let x := s.part p
  { part := p.val, flags := 2 * bit s.time.unsure + 4 * bit x.replay, step := x.step, boundary := stamp, firstSeq := x.firstSeq, work := 0, ocrc := 0,
    epoch := x.epoch, ngather := 0, layout := x.layout,
    image := BitVec.ofNat 32 (leNat (beBytes 48 ((x.image.map (fun i => i.digest.toNat)).getD 0) |>.take 4)), entries := es }

/-- Enter a seed generation (R27). -/
def enterSeed (x : Part) (gen : Nat) (v : BitVec 128) : Part := { x with seed := v, seedGen := gen, seeds := assocSet gen v x.seeds }

/-- The seed change of a boundary: the entry, and the partition after it (R27). A live boundary takes the orders accepted before its
stamp, as one change; a recorded change takes the seed that the partition holds for the generation, else the order that waits.
DESIGN CHOICE, log entry 63. -/
def seedChange (x : Part) (given : Option (List Decision)) (stamp : Ns) : List Decision × Part :=
  let due := x.seedNext.filter (fun e => e.1 < stamp)
  let entry := fun (g : Nat) => ({ kind := 0x09, a := 0, b := 0, c := g } : Decision)
  match given with
  | none => match due.getLast? with
    | some e => ([entry (x.seedGen + 1)], enterSeed { x with seedNext := x.seedNext.filter (fun e => !(e.1 < stamp)) } (x.seedGen + 1) e.2)
    | none => ([], x)
  | some ds => match ds.find? (fun d => d.kind == 0x09) with
    | none => ([], x)
    | some d => match assocGet d.c x.seeds with
      | some v => ([entry d.c], enterSeed x d.c v)
      | none =>
        let from_ := if due.isEmpty then x.seedNext else due
        ([entry d.c], enterSeed { x with seedNext := if due.isEmpty then [] else x.seedNext.filter (fun e => !(e.1 < stamp)) } d.c
          ((from_.getLast?.map (fun e => e.2)).getD x.seed))

/-- The kind 0x0C entries of a boundary and what stays of the partition's own (16 R447): recorded ones keep their place; the own one of a
replay is dropped, that of a catch-up waits for the boundaries after it, and else it is written here. DESIGN CHOICE, log entry 47. -/
def fwEntries (x : Part) (given : Option (List Decision)) : List Decision × Option Nat :=
  let old := (given.getD []).filter (fun d => d.kind == 0x0C)
  if x.replay then (old, none)
  else if x.catchUp.isSome && given.isSome then (old, x.fwEntry)
  else (old ++ (match x.fwEntry with | some v => [{ kind := 0x0C, a := 0, b := v, c := 0 }] | none => []), none)

/-- Seed and firmware entries due (R27; 16 R447): their entries, and the partition after them.
DESIGN CHOICE, log entry 47. -/
def dueChanges (x : Part) (given : Option (List Decision)) (stamp : Ns) : List Decision × Part :=
  let f := fwEntries x given
  let c := seedChange { x with fwEntry := f.2 } given stamp
  (f.1 ++ c.1, c.2)

/-- The hold entries of a boundary (14 R389): the time accounted in the step that ended, in a catch-up what the record of the boundary gives (04
R122; 08 R232). -/
def stepHolds (x : Part) (given : Option (List Decision)) : List Decision :=
  match x.catchUp, given with
  | some _, some ds => ds.filter (fun d => d.kind == 0x0D)
  | _, _ => holdEntries x

/-- A checkpoint, or the snapshot that a re-entry asks for, is due at the boundary (R32; 13 R370). -/
def checkpointDue (x : Part) : Bool :=
  let n := (x.image.map (fun i => i.checkpoint)).getD 0
  (n != 0 && x.step % n == 0) || (x.claim.leader && x.claim.wanted && x.ckptNew.isNone)

/-- Why a due checkpoint is skipped (R33), 0 when it is taken. -/
def skipCause (s : State) (p : PartId) : Nat :=
  if (s.part p).ckptNew.isSome then 1 else
  match kvDecl (s.part p) with
  | some kd => if refsFit s p kd (pagesInUse s p kd) then 0 else 2
  | none => 0

/-- Raise the page references of a checkpoint that will be taken, and keep the pages. DESIGN CHOICE, log entry 45. -/
def raiseRefs (s : State) (p : PartId) : State :=
  match kvDecl (s.part p) with
  | some kd => (holdPages s p kd (pagesInUse s p kd)).modPart p (fun x => { x with ckptPages := pagesInUse s p kd })
  | none => s.modPart p (fun x => { x with ckptPages := [] })

/-- The sections of a snapshot, then the journal from its step on, to the member that re-enters (13 R370). -/
def sendSnapshot (s : State) (p : PartId) (c : Checkpoint) : State :=
  let s := (List.range 6).foldl (fun s i => sendPart s p 2 0 c.step i (Config.sectionBytes c i)) s
  let js := (s.part p).journal.filter (fun e => c.firstSeq ≤ e.seq)
  js.foldl (fun s e => sendPart s p 3 0 c.step 0 (journalBytes e ++ e.payload.getD [])) s

/-- The bytes of a checkpoint as it is exported: its sections in order (R33). DESIGN CHOICE, log entry 38. -/
def checkpointBytes (c : Checkpoint) : Bytes := (List.range 6).flatMap (Config.sectionBytes c)

/-- Note a skipped checkpoint (R33). -/
def skipCheckpoint (s : State) (p : PartId) (skip : Nat) : State :=
  (recFlag s p 5).event srcGaffer 0x0206 p.val (leBytes 8 (s.part p).step ++ leBytes 1 skip)

/-- Take the checkpoint of a boundary, unless it is skipped (R32, R33): its export to the store tray begins.
DESIGN CHOICE, log entry 45. DESIGN CHOICE, log entry 129. -/
def takeCheckpoint (s : State) (p : PartId) : State :=
  if !checkpointDue (s.part p) || bitOf (((s.part p).records.head?.map (fun r => r.flags)).getD 0) 5 then s
  else
    let c := capture s p
    let s := meetCapture s p
    let s := queueExport ((recFlag s p 0).modPart p (fun x => { x with ckptNew := some c })) p 1 (checkpointBytes c)
    if (s.part p).claim.wanted && (s.part p).claim.leader then
      sendSnapshot (s.modClaim p (fun d => { d with wanted := false, snapshot := some c.step })) p c
    else s

/-- Delay of a step's release while a re-entry trails by more than 1 step (13 R371): PACE_PCT % of the previous period. -/
def releaseDelay (x : Part) : Nat :=
  if x.claim.leader && x.claim.snapshot.isSome && 1 < backlogOf x then
    match x.history with
    | a :: b :: _ => (a.1 - b.1) * x.claim.pacePct / 100
    | _ => 0
  else 0

/-- Release the step: the decision parts up to it are used, and the gaffer's own frames of it are composed. -/
def beginStep (s : State) (p : PartId) : State :=
  releaseStep (gafferFrames (s.modPart p (fun x => { x with claim := { x.claim with parts := x.claim.parts.filter (fun e => x.step < e.1) } })) p) p

/-- The rest of a boundary whose layout is settled: moves, checkpoint, key generation, step kind, owners, rings, record,
release (04 R126; 15 R430; R21). An uncorrectable word met by a copy for a rotation or a readmission is a hard stop like one met by R121's
own (DESIGN CHOICE, log entry 136). DESIGN CHOICE, log entry 42. DESIGN CHOICE, log entry 47. -/
def finishBoundary (s : State) (p : PartId) (stamp : Ns) (seen : JEntry → Bool) : State :=
  let m := moveCarried s p
  match m.2.bind coreOfBank with
  | some c => hardStop m.1 p c
  | none =>
    let s := takeCheckpoint (m.1.modPart p (fun x => { x with kind := selectKind x seen })) p
    let s := if (s.part p).rotateWanted.any (fun t => t < stamp) then advanceKeys s p else s
    let s := (modRec s p (fun r => { r with layout := (s.part p).layout, epoch := (s.part p).epoch })).modPart p (fun x => { x with
      history := if x.catchUp.isSome then x.history else (stamp, heldUs x) :: x.history
      boundary := stamp
      releaseAt := s.now })
    let s := prepareStep s p
    let s := sendDecisions s p (s.part p).step stamp (((s.part p).records.head?.map (fun r => r.entries)).getD [])
    let s := boundaryBeat s p
    let s := s.reach (s.now + releaseDelay (s.part p))
    let s := writeDumps s p (fun d => !d.atTally && d.step == (s.part p).step)
    beginStep s p

/-- One entry of kind 0x0B per change of the fenced set, for the layout that it leads to (R119). -/
def layoutEntries (s : State) (p : PartId) (n : Nat) (changes : List (Option CoreId)) : State :=
  changes.foldl (fun s c => recFlag (recEntry s p 0x0B n ((c.map (fun c => c.val)).getD 0xFFFFFFFF) 0) p 3) s

/-- The layout of a boundary, whose fenced set has changed or not: in a replay that of the record, where it covers the set (R119; 01 R24). -/
def layoutFor (s : State) (p : PartId) (changed : Bool) : Option Nat :=
  let x := s.part p
  if x.replay then
    match recordAt x.supplied x.step with
    | some r => if ((x.image.bind (fun i => i.layouts[r.layout]?)).map (layoutCovers s x)).getD false then some r.layout else pickLayout s x
    | none => pickLayout s x
  else if !changed && ((layoutOf x).map (layoutCovers s x)).getD true then some x.layout else pickLayout s x

/-- Select a layout over a fenced set that changed, with one entry per change (R119); none when nothing covers it.
DESIGN CHOICE, log entry 42. -/
def settleLayout (s : State) (p : PartId) (changes : List (Option CoreId)) : Option State :=
  let x := s.part p
  (layoutFor s p (!changes.isEmpty)).map (fun n =>
    let s := s.modPart p (fun x => { x with layout := n })
    let moved := if changes.isEmpty && n ≠ x.layout then [none] else changes
    moved.foldl (fun s c => match c with | some c => fenceEvent s c (causeCode (s.core c).cause) n | none => s) (layoutEntries s p n moved))

/-- Layout actions of a boundary (R126, actions 2 to 5): the fences, the self-checks, the epoch, the readmissions with their receipts (R124). In
catch-up only the epoch advances: what arrives meanwhile waits for the boundary after the abandoned step (R122). A boundary that is taken
again after a stop stands in its epoch already (R99). DEDUCED, log entry 41. -/
def layoutActions (s : State) (p : PartId) (stamp : Ns) (fail : List CoreId) : State × List (Option CoreId) :=
  let x := s.part p
  let live := x.catchUp.isNone
  let len := (x.image.map (fun i => i.epochLength)).getD 0
  let turn := x.step != 0 && len != 0 && x.step % len == 0
  let s := if turn then s.modPart p (fun x => { x with places := rotatePlaces s x }) else s
  let fs := if live then dueFences s x stamp else []
  let s := fs.foldl fenceCore s
  let ck := if live then selfCheck s p x.step fail else (s, [])
  let s := ck.1
  let s := if turn then
      recFlag (recEntry (s.modPart p (fun x => { x with epoch := epochAt x })) p 0x0A 0 (epochAt x) 0) p 4
    else s
  let back := if turn && live then readmit p (fun t => layoutFor t p true) 64 s (dueRejoins s (s.part p) stamp) else (s, [])
  let s := back.2.foldl (fun s c => fenceEvent s c 0 (s.part p).layout) back.1
  (s, (fs ++ ck.2).map some ++ back.2.map (fun _ => none))

/-- The stamp of a boundary: its record's in a catch-up, else the time counter. -/
def boundaryStamp (s : State) (x : Part) (src : Source) : Ns := if x.catchUp.isSome && src.given.isSome then src.ts else s.stamp

/-- The decisions of a boundary (R21; 08 R222), and why a checkpoint that is due is skipped: none where it is taken or none is due. Action 7
allocates for the appends of the step kind that the decisions up to it select (07 R211; DESIGN CHOICE, log entry 43). -/
def decideBoundary (s : State) (p : PartId) (src : Source) : Bd × Option Nat :=
  let x := s.part p
  let stamp := boundaryStamp s x src
  let ch := dueChanges x src.given stamp
  let old := x.kv.map (fun k => k.zeroed)
  let b : Bd := { s := s.setPart p ch.2, p := p, step := x.step, ts := src.ts, es := stepHolds x src.given ++ ch.1, cut := [], gone := [], given := src.given, bad := false }
  let b := b.decide (sourceNamed x src)
  let due := checkpointDue b.x
  let skip := skipCause b.s p
  let b := b.mapPart (fun x => { x with kind := selectKind x src.seen })
  ((if due && skip = 0 then b.map (fun s => raiseRefs s p) else b).settle old stamp, if due && skip ≠ 0 then some skip else none)

/-- Boundary s: decisions, record, layout, release; a decision that cannot be applied as recorded is a divergence (08 R240). The ring of
records has no limit, for which the manual gives no size (DESIGN CHOICE, log entry 128). DESIGN CHOICE, log entry 60. -/
def takeBoundary (s : State) (p : PartId) (src : Source) (fail : List CoreId) : State :=
  let x := s.part p
  let stamp := boundaryStamp s x src
  let d := decideBoundary s p src
  let s := d.1.s.modPart p (fun y => { y with records := newRecord d.1.s p stamp d.1.es :: y.records.filter (fun r => r.step != y.step) })
  let s := match d.2 with | some skip => skipCheckpoint s p skip | none => s
  if d.1.bad then (if x.catchUp.isSome then catchUpFail s p 3 else diverge s p x.step 8)
  else
    let a := layoutActions s p stamp fail
    match settleLayout a.1 p a.2 with
    | some s => finishBoundary s p stamp src.seen
    | none => noLayout a.1 p a.2

/-- A boundary at which a partition stops (02 R59; 14 R380); a rotation that waits for it is made there (15 R430). -/
def stopBoundary (s : State) (p : PartId) : State :=
  let s := drainYield s p
  let s := if (s.part p).rotateWanted.isSome then advanceKeys s p else s
  let s := stopPart s p
  if (s.part p).unloadWanted then enterClearing s p else s

/-- A partition that is held at a boundary stops there when it is due to (14 R380). DEDUCED, log entry 125. -/
def stopHeld (s : State) (p : PartId) : State :=
  let x := s.part p
  if x.state = .running && x.holdAt.isSome && !x.released && stopDue s x then stopBoundary s p else s

/-- A restored boundary releases its step without deciding again (R36; 04 R122; 13 R370); a record of it names the layout that the step
runs in now, and the changes of the fenced set that led to it (R119). In a catch-up the boundary keeps its stamp (08 R232). -/
def releaseRestored (s : State) (p : PartId) : State :=
  let x := s.part p
  let es := match partFor x with | some e => e.2 | none => ((recordAt x.supplied x.step).map (fun r => r.entries)).getD []
  let f := fwEntries { x with catchUp := none } none
  let held := recordAt x.records x.step
  let stamp := match held with | some r => if x.catchUp.isSome then r.boundary else s.stamp | none => s.stamp
  let s := s.modPart p (fun x => match held with
    | some r => { x with records := { r with layout := x.layout } :: x.records.filter (fun r => r.step != x.step) }
    | none => { x with
        records := { newRecord s p s.stamp (es ++ f.1) with flags := 2 * bit s.time.unsure + 4 * bit x.replay } :: x.records
        fwEntry := f.2 })
  let s := layoutEntries s p x.layout x.unsettled
  let s := s.modPart p (fun x => { x with
    unsettled := []
    history := if x.catchUp.isSome then x.history else (stamp, 0) :: x.history
    boundary := stamp
    releaseAt := s.now })
  let s := boundaryBeat (prepareStep s p) p
  beginStep s p

/-- Wait at a boundary for a part of the leader's (13 R359): the cores count waiting beats. -/
def awaitPart (s : State) (p : PartId) : State :=
  coresWait (s.modClaim p (fun c => { c with waitPart := some (c.waitPart.getD s.now) })) p

/-- A member in GLORY_HOLE without an open re-entry has lost its leader: its partition is held (13 R372). -/
def leaderGone (c : Claim) : Bool := c.role == .gloryHole && c.lost && !c.wanted

/-- Reach boundary s: a stop, a tally that has saturated (02 R55), the end of a replay, or the boundary's actions. A replay whose next
record is missing, or that is past its last step, is held there until a stop order (DESIGN CHOICE, log entry 132). -/
def reachBoundary (s : State) (p : PartId) (fail : List CoreId) : State :=
  let s := s.modPart p (fun x => match x.catchUp with | some t => if t < x.step then { x with catchUp := none, sent := [] } else x | none => x)
  let s := drainYield s p
  let x := s.part p
  if stopDue s x then stopBoundary s p
  else if x.tallySat then s.modPart p (fun x => { x with holdAt := some .tallyOverflow })
  else if x.replay && ((match x.replaySet with | some r => r.last < x.step | none => false) || (!x.restored && (recordAt x.supplied x.step).isNone)) then
    s.modPart p (fun x => { x with holdAt := some .replayEnd })
  else if leaderGone x.claim then s.modPart p (fun x => { x with holdAt := some .gloryHole })
  else if x.restored && !(follows x && (partFor x).isNone) then releaseRestored s p
  else if x.restored then awaitPart s p
  else
    let s := paceBoundary s p
    match sourceOf s (s.part p) with
    | some src => takeBoundary (s.modClaim p (fun c => { c with waitPart := none })) p src fail
    | none => awaitPart s p

/-- STEP_BOUNDARY (R20–R22). A boundary reached in a switch window waits until it closes (16 R447).
DESIGN CHOICE, log entry 60. -/
def execStepBoundary (p : PartId) (i : BoundaryIn) (s : State) : Result :=
  let x := s.part p
  if x.state != .running || partHeld s p then .next s
  else
    let s := match s.fw.windowEnd with | some e => if s.now < e then s.reach e else s | none => s
    if x.released then
      if !drained x then .next s
      else
        let s := noteBacklog (compareHolder (compareSupplied (closeStep s p) p) p) p
        .next (boundaryBeat (if (s.part p).holdAt.isSome then s else reachBoundary s p i.checkFail) p)
    else .next (boundaryBeat (reachBoundary s p i.checkFail) p)

end Sys2Proof.Machine
end

