-- ==== Sys2Proof/Machine/Identity.lean ====
section
/-! DEFINITION. Certificates and signatures of the identity key (15 R413, R414). -/

namespace Sys2Proof.Machine

/-- Sign with the identity key, by a fresh nonce; 96 zero bytes when the key is not usable. -/
def signIdentity (s : State) (msg : Bytes) : Bytes × State :=
  if s.security.identity then (ecdsaSign s.fuses.identityKey.toNat (privKey (Config.randomScalar s.draw.1).toNat) msg, s.draw.2)
  else (zeros 96, s)

/-- Bytes of a certificate. -/
def certSize : Nat := 240

/-- The public key of a certificate. -/
def certKey (c : Bytes) : Bytes := slice c 32 97

/-- A certificate of the given KIND with the fields that its KIND takes, signed by the key of its issuer (R414). -/
def certOk (c : Bytes) (kind : Nat) (issuer : Nat) (issuerKey : Bytes) : Bool :=
  c.length == certSize && fieldAt c 0 4 == 0x54434C5A && fieldAt c 4 2 == 1 && fieldAt c 6 1 == kind && zeroAt c 7 1 &&
  fieldAt c 16 2 == (if kind = 2 then 0 else 0x7648) && (kind == 1 || (fieldAt c 18 1 == 0 && fieldAt c 19 1 == 0)) &&
  fieldAt c 18 1 ≤ 1 && fieldAt c 19 1 ≤ 3 && fieldAt c 20 4 == issuer && zeroAt c 129 15 &&
  ecdsaVerify issuerKey (c.take 144) (slice c 144 96)

/-- An identity certificate chains to the root: the module certificate by the device CA, whose certificate the root signs. -/
def chainOk (s : State) (cert : Bytes) : Bool :=
  let m := cert.take certSize
  let ca := slice cert certSize certSize
  certOk ca 2 0 s.fuses.rootKey && certOk m 1 (fieldAt ca 8 8) (certKey ca)

/-- The serial number in a module certificate. -/
def certSerial (c : Bytes) : Nat := fieldAt c 8 8

end Sys2Proof.Machine
end

