-- ==== Sys2Proof/Machine/I3c.lean ====
section
/-! DEFINITION. The I3C targets: the CCCs of 11 R288 and R289. An acknowledged GET drives its bytes, most significant byte
first; an unacknowledged CCC drives nothing but the missing acknowledgement. -/

namespace Sys2Proof.Machine

/-- A port hears its bus: the module has power, the first step of its start, which reads the straps, is over, 5 ms have passed since power good
(R288; 16 R437) and the port is not silenced (R289). DESIGN CHOICE, log entry 17. -/
def portHears (s : State) (x : I3cId) : Bool :=
  s.power.state != .off && !(s.power.state == .boot && (s.fw.startStep == 0 || s.now < s.fw.powerAt + ms 5)) && (s.port x).mode != .silent

/-- The 1 ms recovery of a port reset runs (R289). -/
def recovering (s : State) (x : I3cId) : Bool :=
  match (s.port x).recoverAt with
  | some t => s.now < t
  | none => false

/-- A port acknowledges direct CCCs and private transfers (R288, R289). -/
def portAcks (s : State) (x : I3cId) : Bool := portHears s x && !recovering s x && (s.port x).dynAddr.isSome

/-- A direct CCC: acknowledged and obeyed, or not acknowledged. -/
def directCcc (s : State) (x : I3cId) (f : State → State) : Result :=
  if portAcks s x then .next (f s) else .next (s.emit (.i3cNack x))

/-- A CCC that has a broadcast form: obeyed whenever the port hears it (DESIGN CHOICE, log entry 17). -/
def broadcastCcc (s : State) (x : I3cId) (f : State → State) : Result :=
  if portHears s x then .next (f s) else .next s

/-- A CCC in its broadcast or its direct form. -/
def formCcc (s : State) (c : CccForm) (f : State → State) : Result :=
  if c.direct then directCcc s c.port f else broadcastCcc s c.port f

/-- SETDASA at the static address 0x08 + SLOT_ID (R288). -/
def execSetdasa (x : I3cId) (static addr : Nat) (s : State) : Result :=
  if portHears s x && !recovering s x && (s.port x).dynAddr.isNone && static = 0x08 + s.fuses.slot && 0 < addr && addr < 128 then
    .next ((s.modPort x (fun q => { q with dynAddr := some addr })).emit (.i3cAck x))
  else .next (s.emit (.i3cNack x))

/-- RSTDAA (R288). -/
def execRstdaa (x : I3cId) (s : State) : Result :=
  broadcastCcc s x (fun s => s.modPort x (fun q => { q with dynAddr := none }))

/-- The provisional ID (R289). -/
def pid (s : State) (x : I3cId) : Nat := 0x01D3 * 2 ^ 33 + 0x7648 * 2 ^ 16 + x.val * 2 ^ 12 + s.place

/-- GETPID, GETBCR, GETDCR (R289). -/
def execGetpid (x : I3cId) (s : State) : Result := directCcc s x (fun s => s.emit (.i3cData x (beBytes 6 (pid s x))))
def execGetbcr (x : I3cId) (s : State) : Result := directCcc s x (fun s => s.emit (.i3cData x [0x01]))
def execGetdcr (x : I3cId) (s : State) : Result := directCcc s x (fun s => s.emit (.i3cData x [0x00]))

/-- ID_STATE (11 R312). -/
def idState (s : State) : Nat := s.power.state.code + 8 * bit s.orders.refusedFlag + 16 * bit (orphan s)

/-- GETSTATUS returns and clears the protocol-error bit (R289). -/
def execGetstatus (x : I3cId) (s : State) : Result :=
  directCcc s x (fun s => (s.modPort x (fun q => { q with protoErr := false })).emit
    (.i3cData x [BitVec.ofNat 8 (idState s), BitVec.ofNat 8 (32 * bit (s.port x).protoErr)]))

/-- SETMWL and SETMRL: a value outside the range is ignored (R289). -/
def execSetmwl (f : CccForm) (v : Nat) (s : State) : Result :=
  formCcc s f (fun s => if 6 ≤ v && v ≤ 4098 then s.modPort f.port (fun q => { q with mwl := v }) else s)
def execSetmrl (f : CccForm) (v : Nat) (s : State) : Result :=
  formCcc s f (fun s => if 4 ≤ v && v ≤ 4096 then s.modPort f.port (fun q => { q with mrl := v }) else s)

def execGetmwl (x : I3cId) (s : State) : Result := directCcc s x (fun s => s.emit (.i3cData x (beBytes 2 (s.port x).mwl)))
def execGetmrl (x : I3cId) (s : State) : Result := directCcc s x (fun s => s.emit (.i3cData x (beBytes 2 (s.port x).mrl)))

/-- GETMXDS: five bytes, the turnaround of 20 µs least significant byte first (R289). -/
def execGetmxds (x : I3cId) (s : State) : Result := directCcc s x (fun s => s.emit (.i3cData x [0x00, 0x00, 0x14, 0x00, 0x00]))

/-- RSTACT with defining byte 0x00; a byte other than 0x00 and 0x01 is not acknowledged (R289). -/
def execRstactNoReset (f : RstactForm) (s : State) : Result :=
  if f.defining = 0 then formCcc s { port := f.port, direct := f.direct } (fun s => s.emit (.i3cAck f.port)) else .next (s.emit (.i3cNack f.port))

/-- RSTACT with defining byte 0x01: unposted words go, read pointers rewind, and the recovery of 1 ms begins (R289). -/
def execRstactPortReset (f : CccForm) (s : State) : Result :=
  formCcc s f (fun s => (s.modPort f.port (fun q =>
    { q with cmd := if q.cmdFull then q.cmd else [], bulk := if q.bulkFull then q.bulk else [], pointer := 0, rspAt := 0,
             logAt := 0, recoverAt := some (s.now + ms 1) })).emit (.i3cAck f.port))

/-- The recovery of a port reset ends. -/
def execRstactRecoveryEnd (x : I3cId) (s : State) : Result :=
  match (s.port x).recoverAt with
  | some t => .next ((s.reach t).modPort x (fun q => { q with recoverAt := none }))
  | none => .next s

/-- ENEC and DISEC are accepted and without effect (R289). -/
def execEnec (f : CccForm) (s : State) : Result := formCcc s f (fun s => s.emit (.i3cAck f.port))
def execDisec (f : CccForm) (s : State) : Result := formCcc s f (fun s => s.emit (.i3cAck f.port))

/-- ENTHDR0, ENTHDR3, ENTHDR1 or ENTHDR2, and the HDR exit pattern (R289). -/
def execEnthdr0 (x : I3cId) (s : State) : Result := broadcastCcc s x (fun s => s.modPort x (fun q => { q with mode := .hdrDdr }))
def execEnthdr3 (x : I3cId) (s : State) : Result := broadcastCcc s x (fun s => s.modPort x (fun q => { q with mode := .hdrBt }))
def execEnthdrUnsupported (x : I3cId) (s : State) : Result :=
  broadcastCcc s x (fun s => s.modPort x (fun q => { q with mode := .silent }))
def execHdrExit (x : I3cId) (s : State) : Result :=
  if s.power.state = .off then .next s else .next (s.modPort x (fun q => { q with mode := .sdr }))

end Sys2Proof.Machine
end

