-- ==== Sys2Proof/Machine/Reports.lean ====
section
/-! DEFINITION. The fields of attestation reports (15 R417). -/

namespace Sys2Proof.Machine

/-- While the boot ROM serves the ports, only ID and MBX do (11 R294): until the verified firmware runs. -/
def romServes (s : State) : Bool := s.fw.startStep < 5

/-- STATE of PART_p_CFG (02 R59). -/
def PState.code : PState → Nat
  | .free => 0 | .clearing => 1 | .clear => 2 | .loaded => 3 | .armed => 4 | .running => 5

/-- Mask of a partition's clusters. -/
def clusterMask (x : Part) : Nat := (x.clusters.map (fun k => 2 ^ k.val)).sum

/-- LOADED, ARMED or RUNNING. -/
def holdsImage (x : Part) : Bool := x.state == .loaded || x.state == .armed || x.state == .running

/-- Bytes 0 to 191 of a report. -/
def reportHead (s : State) (kind : Nat) (nonce : Bytes) : Bytes :=
  let f := s.fuses
  let fw := if romServes s then { FwHeader.init with version := 0, iface := 0, digest := 0 } else s.fw.running
  leBytes 4 0x41545352 ++ leBytes 2 1 ++ leBytes 1 kind ++
  leBytes 1 (bit s.time.unsure + 2 * bit s.orders.refusedFlag + 4 * bit (orphan s)) ++
  leBytes 8 f.serial ++ leBytes 2 0x7648 ++ leBytes 1 (bit f.codeSB) ++ leBytes 1 f.lifecycle ++ leBytes 2 s.place ++
  leBytes 1 fw.secver ++ leBytes 1 f.reprov ++
  leBytes 4 (bit f.testClosed + 2 * bit f.debugClosed + 4 * bit f.tampered + 8 * bit s.security.identity) ++
  leBytes 4 fw.version ++ beBytes 48 f.romDigest.toNat ++ beBytes 48 fw.digest.toNat ++ leBytes 2 fw.iface ++ zeros 6 ++
  s.parts.toList.flatMap (fun x => leBytes 1 (clusterMask x)) ++
  s.parts.toList.flatMap (fun x => leBytes 1 (x.state.code + 8 * bit x.paced + 16 * bit x.replay + 32 * bit x.claim.paired)) ++
  leBytes 8 s.stamp ++ padTo 32 nonce

/-- The manifest entry of a chunk (R424). -/
def chunkEntry (c : Chunk) : Bytes :=
  beBytes 48 c.digest.toNat ++ leBytes 4 c.length ++ leBytes 1 c.cluster ++ zeros 3 ++ leBytes 8 c.offset

/-- Every manifest chunk is checked (R428). -/
def weightsOk (x : Part) (img : Image) : Bool := (List.range img.chunks.length).all (fun i => x.keys.checked.contains i)

/-- An adapter slot that holds a version. -/
def slotLoaded (a : Adapter) : Bool := a.state != .awaiting

/-- The 64-byte record of a loaded slot. -/
def slotRecord (a : Adapter) : Bytes := leBytes 2 a.slot ++ leBytes 2 a.ident ++ leBytes 8 a.version ++ zeros 4 ++ beBytes 48 a.digest.toNat

/-- Loaded slots in slot order. -/
def loadedSlots (x : Part) : List Adapter := (List.range 256).filterMap (fun n => x.adapters.find? (fun a => a.slot == n && slotLoaded a))

/-- A table record, padded with zeros to a multiple of 8 bytes (03 R90). -/
def tableRecord (t : FormatTable) : Bytes :=
  let bs := leBytes 2 t.kind ++ leBytes 2 t.id ++ leBytes 4 t.count ++ t.entries.flatMap (leBytes (if t.kind = 1 then 2 else 4))
  padTo (8 * ceilDiv bs.length 8) bs

/-- The format-tables section of an image (03 R90), which the format-table digest covers (03 R91). -/
def tablesSection (img : Image) : Bytes := img.tables.flatMap tableRecord

/-- Bytes 192 to 511 of a main report. -/
def reportMain (x : Part) (p : PartId) (img : Image) (eph : Bytes) : Bytes :=
  leBytes 1 p.val ++ leBytes 1 (bit (weightsOk x img) + 2 * bit x.keys.model.isSome + 4 * bit x.keys.store.isSome) ++
  leBytes 2 (loadedSlots x).length ++ leBytes 4 x.keys.memGen ++ leBytes 8 x.step ++ beBytes 48 img.digest.toNat ++
  sha384 (img.chunks.flatMap chunkEntry) ++ sha384 ((loadedSlots x).flatMap slotRecord) ++ sha384 (tablesSection img) ++ padTo 97 eph ++ zeros 15

/-- The module is in a state in which it gives main reports (R417). -/
def reportsMain (s : State) : Bool :=
  s.power.state != .off && s.power.state != .boot && s.power.state != .hold && !s.orders.refusedFlag

/-- The signed bytes of the report that a query asks for, from the present state and before the ephemeral key is made (R417). -/
def reportOf (s : State) (m : Msg) : Bytes :=
  let nonce := slice m.body 8 32
  let p : PartId := ⟨m.field 0 1 % 8, by omega⟩
  match (s.part p).image with
  | some img =>
    if m.field 0 1 < 8 && reportsMain s && holdsImage (s.part p) then reportHead s 1 nonce ++ reportMain (s.part p) p img (zeros 97)
    else reportHead s 2 nonce
  | none => reportHead s 2 nonce

end Sys2Proof.Machine
end

