-- ==== Sys2Proof/Machine/Tensor.lean ====
section
/-! DEFINITION. NOP, SIZE_COPY and the tensor class (02 R47; 04 R103–R110). -/

namespace Sys2Proof.Machine

/-! ## Contract-level commands -/

/-- NOP engages no datapath and costs 1 work beat (02 R47); it belongs to every class. -/
def execNop (p : PartId) (q : Nat) (s : State) : Result :=
  match descOf (s.part p) q with
  | some d => runEngine s p q d.cls 0xFF00 (fun _ => none) (fun _ s => .done s 1 0)
  | none => .next s

/-- Array shapes of the formats (02 R63): lanes and products. -/
def shapeOf (code : Nat) : Nat × Nat :=
  match code with
  | 1 => (64, 32)
  | 2 => (128, 128)
  | 3 => (128, 128)
  | 8 => (256, 256)
  | 11 => (256, 256)
  | 13 => (128, 128)
  | 15 => (256, 256)
  | 17 => (128, 128)
  | 18 => (0, 0)
  | 19 => (256, 256)
  | n => if 4 ≤ n && n ≤ 20 then (256, 128) else (0, 0)

/-- Entries 0–39 of the size table (02 R62); `sb` is the ordering code. -/
def sizeFixed (sb : Bool) : List Nat :=
  [1, 60, 2, 8, 64, 8, 4, 2048, 4, 2048, 65536, 2000, 32768, 16384, 8, 128, 64, 0x000FFFFF, 2048, 512, 15, 255, 15, 256,
   64, 8388608, 16384, 2, 256, 16, 16, 32, 12, 4, 640, 256, 4096, 4096, if sb then 1100 else 1000, 64]

/-- Entry `n` of the size table (02 R62, R63). -/
def sizeEntry (s : State) (n : Nat) : Nat :=
  if n < 40 then (sizeFixed s.fuses.codeSB).getD n 0
  else if n < 60 then (shapeOf (n - 39)).1 * 65536 + (shapeOf (n - 39)).2
  else 0

/-- The 512 bytes of the size table (02 R62). -/
def sizeTable (s : State) : Bytes := (List.range 128).flatMap (fun n => leBytes 4 (sizeEntry s n))

/-- SIZE_COPY writes the size table to a cluster bank, or to a core bank of a logical core of the engine's cluster, that
the transfer engine owns (02 R47). -/
def sizeCopyOp (d : Due) (s : State) : EngineOut :=
  let r := d.record
  let b := if bitOf (recField r 29 1) 0 then 4 * (recField r 30 2 % 8) + recField r 28 1 % 4 else 32 + recField r 28 1 % 4
  match physBank s (s.part d.p) d.desc.inst b with
  | none => .wait
  | some pb =>
    if bankSize < recField r 24 4 + 512 then .bad (bankAddr pb (recField r 24 4) + 512)
    else if ownedBy s d.p pb 5 0 then .done (bankWrite s (bankAddr pb (recField r 24 4)) (sizeTable s)) 8 0
    else .wait

def execSizeCopy (p : PartId) (q : Nat) (s : State) : Result :=
  runEngine s p q 5 0xFF01 (fun _ => none) sizeCopyOp

/-! ## MATMUL and GROUPED_MATMUL -/

/-- Operands of MATMUL and GROUPED_MATMUL (04 R105). -/
structure MatArgs where
  a      : TRef
  b      : TRef
  c      : TRef
  w      : Wdesc
  m      : Nat
  n      : Nat
  k      : Nat
  aFmt   : Nat
  bFmt   : Nat
  aTab   : Nat
  bTab   : Nat
  partialIn : Bool
  tail   : Nat
  deriving DecidableEq, Repr

def matArgs (r : CmdRecord) : MatArgs :=
  { a := trefOf (recField r 24 4), b := trefOf (recField r 28 4), c := trefOf (recField r 32 4),
    w := wdescOf (recField r 36 4), m := recField r 40 2, n := recField r 42 2, k := recField r 44 4,
    aFmt := recField r 48 1, bFmt := recField r 49 1, aTab := recField r 50 1, bTab := recField r 51 1,
    partialIn := bitOf (recField r 52 1) 0, tail := recField r 60 4 }

/-- The shape of a pair of input formats: that with the smaller number of products per beat (02 R63). -/
def pairShape (a b : Nat) : Nat × Nat :=
  if (shapeOf a).1 * (shapeOf a).2 ≤ (shapeOf b).1 * (shapeOf b).2 then shapeOf a else shapeOf b

/-- Meff × G and the beats of one tile (04 R106). -/
def matTiles (g : MatArgs) : Nat × Nat :=
  let (l, pr) := pairShape g.aFmt g.bFmt
  let pair := if g.n ≤ l / 2 then 2 else 1
  let e := if g.w.fmt = 31 then 6 else 1
  let pin := if g.partialIn then 6 else 0
  (ceilDiv g.m pair * (if pair = 2 then 1 else ceilDiv g.n l), ceilDiv g.k pr + e + pin)

/-- Work beats of a MATMUL of `groups` problems (04 R106, R107). -/
def matBeats (g : MatArgs) (groups : Nat) : Nat := 12 + groups * ((matTiles g).1 * (matTiles g).2)

/-- Lane (m, n) of A × Bᵀ: the exact sum of its K products (03 R78, 04 R104). -/
def matLane (x : Part) (g : MatArgs) (pa pb : Plane) (m n : Nat) : Lane :=
  (List.range g.k).foldl (fun l k =>
    l.mulAdd (planeElem pa (codebook x g.aTab) g.aFmt (g.m * g.k) (m * g.k + k))
             (planeElem pb (codebook x g.bTab) g.bFmt (g.n * g.k) (n * g.k + k))) Lane.start

/-- The lanes of one problem in C order. -/
def matLanes (x : Part) (g : MatArgs) (pa pb : Plane) : List Lane :=
  (List.range g.m).flatMap (fun m => (List.range g.n).map (fun n => matLane x g pa pb m n))

/-- Error 0x02 when an operand meets a poisoned word (04 R110). -/
def poisonErr (b : Bool) : Nat := if b then 2 else 0

/-- MATMUL (04 R105, R106, R110). -/
def matmulSteps (d : Due) (s : State) : Engine EngineOut := do
  let g := matArgs d.record
  let x := s.part d.p
  sinkReady s d g.c (lanesExtent g.w (g.m * g.n))
  gatherReads s d ([(g.a, extent g.aFmt (g.m * g.k)), (g.b, extent g.bFmt (g.n * g.k))] ++
    (if g.partialIn then [(trefOf g.tail, 96 * (g.m * g.n))] else []))
  let (pa, s1) ← fetch s d g.a (extent g.aFmt (g.m * g.k))
  let (pb, s2) ← fetch s1 d g.b (extent g.bFmt (g.n * g.k))
  let (pp, s3) ← (if g.partialIn then fetch s2 d (trefOf g.tail) (96 * (g.m * g.n)) else .ok (bytesPlane [] [], s2))
  let recs := if g.partialIn then (List.range (g.m * g.n)).map (planeRecord pp) else []
  let lanes := (matLanes x g pa pb).mapIdx (fun i l => l.join (recs.getD i (Lane.start, 0)).1)
  let err := joinErr (poisonErr (planeBad pa g.aFmt (g.m * g.k) || planeBad pb g.bFmt (g.n * g.k)))
               (recs.foldl (fun e r => joinErr e r.2) 0)
  return .done (storeResult s3 d g.c 0 (writeLanes g.w (elemRandom x d.record) lanes)) (matBeats g 1) err

def execMatmul (p : PartId) (q : Nat) (s : State) : Result :=
  runEngine s p q 1 0x0100 (fun d => handoverAt d.record 53 (d.desc.inst / 8)) (fun d s => (matmulSteps d s).out)

/-- One group of GROUPED_MATMUL: its operands and result lie `grp` sizes further on, each size rounded to 64 bytes
(04 R107). -/
def groupedOne (d : Due) (g : MatArgs) (grp : Nat) (acc : State × Nat) : Engine (State × Nat) := do
  let x := acc.1.part d.p
  let ea := round64 (extent g.aFmt (g.m * g.k))
  let eb := round64 (extent g.bFmt (g.n * g.k))
  let ec := round64 (lanesExtent g.w (g.m * g.n))
  let (pa, s1) ← fetch acc.1 d (if g.a.kind = 0 then { g.a with off := g.a.off + grp * ea } else g.a) (extent g.aFmt (g.m * g.k))
  let (pb, s2) ← fetch s1 d (if g.b.kind = 0 then { g.b with off := g.b.off + grp * eb } else g.b) (extent g.bFmt (g.n * g.k))
  let out := writeLanes g.w (fun e => elemRandom x d.record (grp * g.m * g.n + e)) (matLanes x g pa pb)
  return (storeResult s2 d g.c (if g.c.kind = 0 then grp * ec else 0) out,
          joinErr acc.2 (poisonErr (planeBad pa g.aFmt (g.m * g.k) || planeBad pb g.bFmt (g.n * g.k))))

/-- GROUPED_MATMUL (04 R107). -/
def groupedSteps (d : Due) (s : State) : Engine EngineOut := do
  let g := matArgs d.record
  let groups := g.tail % 65536
  sinkReady s d g.c (groups * round64 (lanesExtent g.w (g.m * g.n)))
  gatherReads s d [(g.a, groups * round64 (extent g.aFmt (g.m * g.k))), (g.b, groups * round64 (extent g.bFmt (g.n * g.k)))]
  let (t, err) ← (List.range groups).foldlM (fun acc grp => groupedOne d g grp acc) (s, 0)
  return .done t (matBeats g groups) err

def execGroupedMatmul (p : PartId) (q : Nat) (s : State) : Result :=
  runEngine s p q 1 0x0101 (fun d => handoverAt d.record 53 (d.desc.inst / 8)) (fun d s => (groupedSteps d s).out)

/-! ## REDUCE -/

/-- Fetch the sources of a REDUCE in order. -/
def reduceSources (d : Due) (count : Nat) : List TRef → State → Engine (List Plane × State)
  | [], s => .ok ([], s)
  | r :: rs, s => do
    let (pl, s1) ← fetch s d r (96 * count)
    let (pls, s2) ← reduceSources d count rs s1
    return (pl :: pls, s2)

/-- Record `r` of every source added into one lane, and the error (04 R108, R110). DESIGN CHOICE, log entry 37. -/
def reduceLane (pls : List Plane) (r : Nat) : Lane × Nat :=
  pls.foldl (fun a pl => (a.1.join (planeRecord pl r).1, joinErr a.2 (planeRecord pl r).2)) (Lane.start, 0)

/-- REDUCE (04 R108). -/
def reduceSteps (d : Due) (s : State) : Engine EngineOut := do
  let r := d.record
  let c := trefOf (recField r 24 4)
  let w := wdescOf (recField r 28 4)
  let count := bitsOf (recField r 32 4) 23 0
  let nsrc := bitsOf (recField r 32 4) 26 24
  sinkReady s d c (lanesExtent w count)
  gatherReads s d ((List.range nsrc).map (fun i => (trefOf (recField r (36 + 4 * i) 4), 96 * count)))
  let (pls, t) ← reduceSources d count ((List.range nsrc).map (fun i => trefOf (recField r (36 + 4 * i) 4))) s
  let ls := (List.range count).map (reduceLane pls)
  return .done (storeResult t d c 0 (writeLanes w (fun _ => 0) (ls.map (·.1))))
    (12 + ceilDiv count 256 * (6 * nsrc + (if w.fmt = 31 then 6 else 1))) (ls.foldl (fun e l => joinErr e l.2) 0)

def execReduce (p : PartId) (q : Nat) (s : State) : Result :=
  runEngine s p q 1 0x0102 (fun _ => none) (fun d s => (reduceSteps d s).out)

end Sys2Proof.Machine
end

