-- ==== Sys2Proof/Machine/Mailbox.lean ====
section
/-! DEFINITION. The mailboxes and private writes (11 R290–R305): what the driver writes, how the module takes a post and
screens it, and the order windows. -/

namespace Sys2Proof.Machine

/-! ## Screening a message when it is taken (11 R300) -/

/-- Bytes of a body that its layout names, as offset and count; every other byte is reserved. -/
def layoutOfBody (typ : Nat) (body : Bytes) : List (Nat × Nat) :=
  match typ with
  | 0x01 => [(0, 8)]
  | 0x09 => [(0, 1), (8, 32)]
  | 0x10 => [(0, 6)]
  | 0x20 => [(0, 5), (6, 3), (10, 2), (16, 4), (24, 16)]
  | 0x21 => [(0, 1), (8, 16)]
  | 0x22 => [(0, 18), (20, 4)]
  | 0x23 => [(0, 4)]
  | 0x24 => [(0, 6), (8, 8)]
  | 0x25 => [(0, 5), (8, 3), (12, 3), (16, 3), (20, 3)]
  | 0x26 => [(0, 2), (8, 8)]
  | 0x27 => [(0, 1), (2, 2), (8, 8), (16, 48)]
  | 0x28 => [(0, 2)]
  | 0x29 => [(0, 1), (8, 17)] ++ (List.range (fieldAt body 24 1)).map (fun k => (32 + 32 * k, 28))
  | 0x30 => [(0, 4)]
  | 0x31 => [(0, 1)]
  | 0x32 => [(0, 1)]
  | 0x33 => [(0, 4)]
  | 0x34 => [(0, 1)]
  | 0x38 => [(0, 16)]
  | 0x39 => [(0, 1), (4, 4)]
  | 0x3A => [(0, 1)]
  | 0x3B => [(0, 2)]
  | 0x40 => [(0, 137), (144, 52)]
  | 0x41 => [(0, 28), (32, 16)]
  | 0x42 => [(0, 2)]
  | 0x43 => [(0, 1), (8, 8)]
  | 0x50 => [(0, 2), (4, 8), (16, 4), (24, 16)]
  | 0x51 => [(0, 6), (8, 4), (16, fieldAt body 4 2)]
  | 0x53 => [(0, 1)]
  | 0x54 => [(0, 1)]
  | 0x60 => [(0, 1), (8, 8)]
  | 0x61 => [(0, 18), (20, 4)]
  | 0x68 => [(0, 2120)]
  | 0x69 => [(0, 2), (8, 64)]
  | 0x6A => [(0, 14)] ++ (List.range (fieldAt body 4 2)).flatMap (fun i => [(16 + 16 * i, 2), (24 + 16 * i, 8)])
  | 0x6B => [(0, 3), (4, 2)]
  | 0x6C => [(0, 8)]
  | 0x6D => [(0, 2)]
  | _ => []

/-- A reserved byte of the body is set. -/
def reservedSet (typ : Nat) (body : Bytes) : Bool :=
  let lay := layoutOfBody typ body
  ((List.range body.length).zip body).any (fun b => b.2 != 0 && !lay.any (fun l => l.1 ≤ b.1 && b.1 < l.1 + l.2))

/-- Locator fields in range: OFFSET is a multiple of 4,096 (12 R337). -/
def locatorOk (m : Msg) (at_ : Nat) : Bool := m.field (at_ + 8) 8 % 4096 == 0

/-- Reserved bits of a body's named fields. -/
def reservedBits (m : Msg) : Bool :=
  match m.typ with
  | 0x20 => 8 ≤ m.field 2 1
  | 0x22 => 8 ≤ m.field 7 1
  | 0x61 => 8 ≤ m.field 7 1
  | 0x25 => 8 ≤ m.field 1 1
  | 0x38 => 2048 ≤ m.field 4 2
  | 0x68 => (List.range 16).any (fun n => 65536 ≤ m.field (8 + 4 * n) 4)
  | 0x6A => (List.range (m.field 4 2)).any (fun i => 2048 ≤ m.field (16 + 16 * i) 2)
  | _ => false

/-- Fields of a stream-bind body in range (10, "Ports, streams and bindings", R269). -/
def bindFieldsOk (m : Msg) (mirror : Bool) : Bool :=
  let dir := m.field 1 1
  (if mirror then m.field 0 1 == 0xFF && dir != 0 else m.field 0 1 ≤ 7) && (dir ≤ 1 || dir == 0xFF) && m.field 2 2 ≤ 1023 &&
  (dir == 0xFF ||
    (m.field 4 1 ≤ 15 && m.field 5 1 ≤ 31 && [1, 2, 4].contains (m.field 6 1) && within (m.field 12 4) 64 8388608 &&
     (if dir = 0 then within (m.field 8 2) 80 4500 && 1 ≤ m.field 10 2 && m.field 12 4 % 64 == 0 && 1 ≤ m.field 16 2 && m.field 20 4 == 0
      else within (m.field 8 2) 160 4500 && within (m.field 10 2) 64 65472 && m.field 10 2 % 64 == 0 && m.field 16 2 == 0 &&
           within (m.field 20 4) 100 60000000)))

/-- Fields of a dump point in range (11 R300, 01 R36). -/
def dumpFieldsOk (m : Msg) (k : Nat) : Bool :=
  let o := 32 + 32 * k
  within (m.field o 1) 1 3 && m.field (o + 1) 1 ≤ 1 && m.field (o + 2) 1 ≤ 7 && m.field (o + 3) 1 ≤ 35

/-- Every field of a body lies in its range (11 R300 and the rules of the orders). DESIGN CHOICE, log entry 138. -/
def fieldsOk (m : Msg) : Bool :=
  match m.typ with
  | 0x01 => m.field 2 2 == 0 || within (m.field 2 2) 2 60
  | 0x09 => m.field 0 1 ≤ 7 || m.field 0 1 == 0xFF
  | 0x10 => m.field 0 1 ≤ 7 && m.field 1 1 ≤ 1 && within (m.field 4 2) 1 256
  | 0x20 => m.field 0 1 ≤ 7 && within (m.field 1 1) 1 7 &&
            (m.field 1 1 != 1 || (m.field 3 1 != 0 && within (m.field 6 2) 1 256 && within (m.field 10 2) 1 256 &&
              m.field 4 1 + m.field 6 2 ≤ 256 && m.field 8 1 + m.field 10 2 ≤ 256)) && locatorOk m 16
  | 0x21 => m.field 0 1 ≤ 7
  | 0x22 => bindFieldsOk m false
  | 0x23 => within (m.field 0 4) 1000 1000000
  | 0x24 => m.field 0 1 ≤ 7 && m.field 1 1 ≤ 1 && m.field 3 1 ≤ 16 && m.field 2 1 + m.field 3 1 ≤ 16 && m.field 5 1 ≤ 64 &&
            m.field 4 1 + m.field 5 1 ≤ 64
  | 0x25 => m.field 0 1 ≤ 7 && 1 ≤ m.field 2 1 && within (m.field 3 1) 50 100 && within (m.field 4 1) 25 95 &&
            m.field 4 1 < m.field 3 1
  | 0x26 => m.field 0 1 ≤ 7 && m.field 1 1 ≤ 1
  | 0x27 => m.field 0 1 ≤ 7 && m.field 2 2 ≤ 65534
  | 0x28 => within (m.field 0 1) 1 2 && m.field 1 1 ≤ 63
  | 0x29 => m.field 0 1 ≤ 7 && m.field 24 1 ≤ 16 && m.field 8 8 ≤ m.field 16 8 &&
            (List.range (m.field 24 1)).all (fun k => dumpFieldsOk m k)
  | 0x30 => within (m.field 0 2) 350 1000 && m.field 2 2 ≤ 60000
  | 0x31 => within (m.field 0 1) 1 2
  | 0x32 => within (m.field 0 1) 1 2
  | 0x33 => within (m.field 0 2) 1000 3000 && within (m.field 2 2) 300 2000
  | 0x34 => m.field 0 1 ≤ 63 || m.field 0 1 == 0xFF
  | 0x38 => m.field 0 1 ≤ 7 && within (m.field 1 1) 1 2 && (m.field 6 1 == 0 || within (m.field 6 1) 2 7) &&
            (m.field 7 1 == 0 || within (m.field 7 1) 2 100)
  | 0x39 => m.field 0 1 ≤ 7
  | 0x3A => m.field 0 1 ≤ 7
  | 0x3B => m.field 0 1 ≤ 7 && (m.field 1 1 ≤ 50 || m.field 1 1 == 0xFF)
  | 0x40 => m.field 0 1 ≤ 7 && within (m.field 1 1) 1 3 && (m.field 1 1 == 2 || m.field 2 2 == 0) &&
            (m.field 1 1 != 1 || m.field 4 4 == 0)
  | 0x41 => m.field 0 1 ≤ 7 && within (m.field 1 1) 1 2 && m.field 12 4 % 64 == 0 && locatorOk m 24
  | 0x42 => m.field 0 1 ≤ 7 && m.field 1 1 == 1
  | 0x43 => within (m.field 0 1) 1 2
  | 0x50 => m.field 0 1 ≤ 1 && (if m.field 0 1 = 0 then within (m.field 4 4) 4096 33554432
                                else m.field 1 1 ≤ 15 && m.field 4 4 == 0 && locatorOk m 16)
  | 0x51 => m.field 0 4 % 16 == 0 && within (m.field 4 2) 16 4064 && m.field 4 2 % 16 == 0
  | 0x53 => m.field 0 1 ≤ 1
  | 0x54 => within (m.field 0 1) 1 2
  | 0x60 => within (m.field 0 1) 1 2
  | 0x61 => bindFieldsOk m true
  | 0x69 => (List.range 60).all (fun i => m.field (12 + i) 1 ≤ 7 || m.field (12 + i) 1 == 0xF0)
  | 0x6A => m.field 0 1 ≤ 7 && m.field 1 1 ≤ 1 && within (m.field 4 2) 1 254 && within (m.field 6 2) 2 2048 &&
            m.field 2 2 + m.field 4 2 ≤ m.field 6 2 && m.field 12 2 < m.field 6 2 && (m.field 1 1 == 0 || m.field 6 2 == 2)
  | 0x6B => m.field 0 1 ≤ 15 && within (m.field 1 1) 1 3 && (m.field 1 1 != 3 || 1 ≤ m.field 2 1)
  | 0x6C => m.field 0 1 ≤ 7 && (within (m.field 1 1) 1 2 || m.field 1 1 == 0xFF) && m.field 2 2 ≤ 1023
  | 0x6D => within (m.field 0 2) 0 1000 || 65536 - 1000 ≤ m.field 0 2
  | _ => true

/-- The words posted fail the header's layout (R296). -/
def headerBad (raw : Bytes) : Bool :=
  raw.length != 4 * ceilDiv (16 + rawLength raw) 4 || 4080 < rawLength raw || bitOf (fieldAt raw 2 2) 13 ||
  bitOf (fieldAt raw 2 2) 14 || 2 ^ 27 ≤ fieldAt raw 4 4

/-- Which types the module takes in its present state (11 R294, R300; 15 R411, R416; 16 R438, R442). -/
def typeServed (s : State) (typ : Nat) : Bool :=
  match s.power.state with
  | .boot =>
    if s.fw.startFail = 1 then typ == 0x08
    else typ == 0x08 || typ == 0x09 || (isFirmware typ && !s.fuses.tampered && within s.fuses.lifecycle 1 2)
  | .hold => typ == 0x01 || typ == 0x08 || typ == 0x09 || isFirmware typ
  | _ => !s.orders.refusedFlag || typ == 0x01 || typ == 0x08 || typ == 0x09 || isFirmware typ

/-- The status that a message meets at the moment it is taken; `none` when it goes on (R296, R300).
DESIGN CHOICE, log entry 138. -/
def screen (s : State) (x : I3cId) (bulk : Bool) (raw : Bytes) : Option Nat :=
  let m := parseMsg raw
  if headerBad raw then some 0x0C
  else if !isKnown m.typ || isFirmware m.typ != bulk then some 0x0D
  else if !typeServed s m.typ then some 0x10
  else if reservedSet m.typ m.body || reservedBits m then some 0x0C
  else if !fieldsOk m then some 0x04
  else if (m.typ = 0x02 || m.typ = 0x03) && !sessionLive s x then some 0x0E
  else if isFirmware m.typ && s.power.state != .boot && s.power.state != .hold && !sessionLive s x then some 0x0E
  else if isOrder m.typ && !isFirmware m.typ && !sessionLive s x then some 0x0E
  else none

/-! ## Order windows (11 R301–R305) -/

/-- The effective stamp of an order taken now (R301). -/
def effOf (s : State) (m : Msg) : Nat := min (max m.issued (s.stamp - us 10)) s.stamp

/-- The conflict key of an order (R302; 13 R373, 15 R421, 19 R481). DESIGN CHOICE, log entry 54. -/
def keyOf (s : State) (x : I3cId) (m : Msg) : OrderKey :=
  let part := m.field 0 1
  match m.typ with
  | 0x30 => .cap
  | 0x20 => if 3 ≤ m.field 1 1 then .stopStart part else .other m.typ part 0
  | 0x39 => .group (s.part ⟨part % 8, by omega⟩).claim.group
  | 0x22 => .other m.typ (65536 * part + m.field 2 2) 0
  | 0x24 => .other m.typ (65536 * part + m.field 1 1) 0
  | 0x27 => .other m.typ (65536 * part + m.field 2 2) 0
  | 0x28 => .other m.typ (m.field 1 1) 0
  | 0x40 => .other m.typ (65536 * part + m.field 2 2) 0
  | 0x41 => .other m.typ (65536 * part + m.field 2 2) 0
  | 0x6C => .other m.typ (65536 * part + m.field 2 2) 0
  | 0x60 => .other m.typ 0 x.val
  | 0x61 => .other m.typ 0 x.val
  | 0x23 => .other m.typ 0 0
  | 0x31 => .other m.typ 0 0
  | 0x32 => .other m.typ 0 0
  | 0x33 => .other m.typ 0 0
  | 0x34 => .other m.typ 0 0
  | 0x43 => .other m.typ 0 0
  | 0x68 => .other m.typ 0 0
  | 0x69 => .other m.typ 0 0
  | 0x6D => .other m.typ 0 0
  | _ => .other m.typ part 0

/-- Orders held in open windows (R305). -/
def windowsHeld (ws : List Window) : Nat := (ws.map (fun w => w.orders.length)).sum

/-- An order joins the open window of its key whose W + 10 µs lies above its eff, or opens one (R302). -/
def joinWindow (k : OrderKey) (t : Taken) : List Window → List Window
  | [] => [{ key := k, w := t.eff, orders := [t] }]
  | w :: ws => if w.key = k && t.eff < w.w + us 10 then { w with orders := w.orders ++ [t] } :: ws else w :: joinWindow k t ws

/-- An order that passed its screen. -/
def enterOrder (s : State) (x : I3cId) (m : Msg) : State :=
  let t : Taken := { port := x, bulk := false, msg := m, eff := effOf s m }
  if m.typ = 0x26 then s.modOrders (fun o => { o with taken := o.taken ++ [t] })
  else if 64 ≤ windowsHeld s.orders.windows then answerBare s t 0x01
  else s.modOrders (fun o => { o with windows := joinWindow (keyOf s x m) t o.windows })

/-- Serial order (R301): ascending eff, then ISSUER, then port A before port B. -/
def serialLe (a b : Taken) : Bool :=
  a.eff < b.eff || (a.eff == b.eff && (a.msg.issuer < b.msg.issuer || (a.msg.issuer == b.msg.issuer && a.port.val ≤ b.port.val)))

/-- Insertion in serial order, after the orders that it does not precede. -/
def serialInsert (t : Taken) : List Taken → List Taken
  | [] => [t]
  | u :: us => if serialLe u t then u :: serialInsert t us else t :: u :: us

def serialSort (ts : List Taken) : List Taken := ts.foldl (fun l t => serialInsert t l) []

/-- The last order of a list in serial order that `f` ranks no lower than any other. -/
def lastBest (f : Taken → Nat) : List Taken → Option Taken
  | [] => none
  | t :: ts => match lastBest f ts with
    | some u => if f u < f t then some t else some u
    | none => some t

/-- Stop kind of PART_ORDER: stop, unload and release (R302). -/
def stopKind (t : Taken) : Bool := 5 ≤ t.field 1 1

/-- The winner of a window (R302). -/
def winnerOf (w : Window) : Option Taken :=
  let ts := serialSort w.orders
  match w.key with
  | .cap => lastBest (fun t => 65535 - t.field 0 2) ts
  | .stopStart _ => lastBest (fun t => bit (stopKind t)) ts
  | .group _ => lastBest (fun t => t.field 4 4) ts
  | .other _ _ _ => lastBest (fun _ => 0) ts

/-- The open window that resolves first: least W, then the serial order of the winners (R302). -/
def firstWindow : List Window → Option Window
  | [] => none
  | w :: ws => match firstWindow ws with
    | none => some w
    | some v =>
      if w.w < v.w then some w
      else if v.w < w.w then some v
      else match winnerOf w, winnerOf v with
        | some a, some b => if serialLe a b then some w else some v
        | _, _ => some w

/-- The losers of a window: every order but the winner, once. -/
def losersOf (w : Window) (win : Taken) : List Taken := (serialSort w.orders).erase win

/-- ORDER_WINDOW_RESOLVE (R302): at W + 20 µs the winner is due to take effect, the losers are superseded, and a window
with losers makes its records. -/
def execOrderWindowResolve (s : State) : Result :=
  match firstWindow s.orders.windows with
  | none => .next s
  | some w =>
    match winnerOf w with
    | none => .next s
    | some win =>
      let s := s.reachStamp (w.w + us 20)
      let lose := losersOf w win
      let s := s.modOrders (fun o => { o with windows := o.windows.erase w, due := o.due ++ [win] })
      let s := lose.foldl (fun s t => answerBare s t 0x02) s
      if lose.isEmpty then .next s else
      let s := s.event (srcI3c win.port) 0x0903 0xFF
        (leBytes 4 win.msg.issuer ++ leBytes 8 win.eff ++ leBytes 1 win.port.val ++ leBytes 1 lose.length ++ leBytes 1 win.msg.typ)
      .next (lose.foldl (fun s t =>
        s.event (srcI3c t.port) 0x0904 0xFF (leBytes 4 t.msg.issuer ++ leBytes 8 t.eff ++ leBytes 1 t.port.val)) s)

/-! ## Taking a post (11 R296–R298, R307) -/

/-- A switch window of firmware activation is open: no post is taken (16 R447). -/
def switching (s : State) : Bool :=
  match s.fw.windowEnd with
  | some t => s.now < t
  | none => false

/-- Tally reads beyond 1,000 per second are answered busy (02 R58): the window is the last second before the read, for each port (DESIGN
CHOICE, log entry 131). -/
def tallyRate (s : State) (x : I3cId) : Bool × State :=
  let recent := (s.port x).talliesRead.filter (fun t => s.now < t + sec 1)
  if recent.length < 1000 then (true, s.modPort x (fun q => { q with talliesRead := s.now :: recent }))
  else (false, s.modPort x (fun q => { q with talliesRead := recent }))

/-! ## Queries (11 R300) -/

/-- Codes of CORE_STATUS (R300). -/
def CoreState.code : CoreState → Nat
  | .inService => 0 | .fencePending => 1 | .fenced => 2 | .gloryHole => 3 | .rejoinPending => 4
def FenceCause.code : FenceCause → Nat
  | .none => 0 | .floorMiss => 1 | .selfCheck => 2 | .hardStop => 3 | .order => 4

/-- The byte of a core in CORE_STATUS. -/
def coreByte (c : Core) : Nat := c.state.code + 16 * c.cause.code

/-- TALLY_READ (02 R57): live values, or step bases with the step number of the latest boundary.
DESIGN CHOICE, log entry 53. -/
def tallyAnswer (s : State) (m : Msg) : Nat × Bytes :=
  let p := s.part ⟨m.field 0 1 % 8, by omega⟩
  let mode := m.field 1 1
  let first := m.field 2 2
  let count := m.field 4 2
  if p.state ≠ .armed && p.state ≠ .running then (0x10, [])
  else if 64 * p.nT < first + count then (0x04, [])
  else
    let vs := (List.range count).map (fun i => if mode = 0 then tallyOf p (first + i) else baseOf p (first + i))
    (0x00, leBytes 1 mode ++ leBytes 2 count ++ zeros 4 ++ leBytes 8 (if mode = 0 then 0 else p.step) ++ vs.flatMap (leBytes 8))

/-- The answer of a query from the present state (R300): its status and the bytes after it. IDENTITY gives the 480-byte certificate, which
a BLANK module lacks (15 R411, R414). DESIGN CHOICE, log entry 139. -/
def queryAnswer (s : State) (m : Msg) : Option (Nat × Bytes) :=
  match m.typ with
  | 0x09 => some (0x00, reportOf s m)
  | 0x08 => some (if s.fuses.lifecycle = 0 then (0x10, []) else (0x00, zeros 3 ++ padTo 480 s.fuses.cert))
  | 0x10 => some (tallyAnswer s m)
  | 0x11 => some (0x00, zeros 3 ++ sizeTable s)
  | 0x12 => some (0x00, zeros 3 ++ (List.finRange 64).map (fun c => BitVec.ofNat 8 (coreByte (s.core c))))
  | _ => none

/-- The answer of a query as its state was when it was taken (R300). DESIGN CHOICE, log entry 139. -/
def seenAnswer (s : State) (t : Taken) : Nat × Bytes := (t.seen <|> queryAnswer s t.msg).getD (0x00, [])

/-- A message that passed its screen goes on: sessions, queries and firmware messages wait for their rows, orders enter
their windows. -/
def admitMsg (s : State) (x : I3cId) (bulk : Bool) (m : Msg) : State :=
  let t : Taken := { port := x, bulk := bulk, msg := m, eff := if isOrder m.typ then effOf s m else s.stamp, seen := queryAnswer s m }
  if isOrder m.typ && !isFirmware m.typ then enterOrder s x m
  else if m.typ = 0x10 then
    match tallyRate s x with
    | (true, s) => s.modOrders (fun o => { o with taken := o.taken ++ [t] })
    | (false, s) => answerBare s t 0x01
  else s.modOrders (fun o => { o with taken := o.taken ++ [t] })

/-- Take a posted message (R296): a repeat receives the response again (R298), any other is screened.
DESIGN CHOICE, log entry 33. -/
def takePost (s : State) (x : I3cId) (bulk : Bool) : State :=
  let s := expireSession s x
  let q := s.port x
  let raw := if bulk then q.bulk else q.cmd
  let m := parseMsg raw
  let last := if bulk then q.lastBulk else q.lastCmd
  let q := { q with posted := q.posted + 1, cmd := if bulk then q.cmd else [], cmdFull := if bulk then q.cmdFull else false
                    bulk := if bulk then [] else q.bulk, bulkFull := if bulk then false else q.bulkFull
                    session := if q.session.live then { q.session with renewed := s.stamp } else q.session }
  let repeated := match last with | some e => e.content == raw | none => false
  if repeated then
    match last with
    | some e =>
      match e.response with
      | some r => s.setPort x { q with responses := q.responses ++ [asRepeat r] }
      | none =>
        s.setPort x { q with owed := q.owed + 1, repeats := q.repeats ++ [(bulk, e.content)] }
    | none => s
  else
    let e : LastTaken := { seq := m.seq, content := raw, response := none }
    let s := s.setPort x { q with owed := q.owed + 1, lastCmd := if bulk then q.lastCmd else some e
                                  lastBulk := if bulk then some e else q.lastBulk }
    match screen s x bulk raw with
    | some st =>
      let s := if st = 0x0C then s.modPort x (fun q => { q with malformed := satAdd 8 q.malformed 1 }) else s
      answerBare s { port := x, bulk := bulk, msg := m, eff := if isOrder m.typ then effOf s m else s.stamp } st
    | none => admitMsg s x bulk m

/-- Whether the module may take a post on a port: fewer than 15 responses queued and owed (R297), no switch window.
DESIGN CHOICE, log entry 33. -/
def mayTake (s : State) (x : I3cId) : Bool := (s.port x).responses.length + (s.port x).owed < 15 && !switching s

/-- Take the posts that wait on a port. -/
def takeWaiting (s : State) (x : I3cId) : State :=
  let s := if (s.port x).cmdFull && mayTake s x then takePost s x false else s
  if (s.port x).bulkFull && mayTake s x then takePost s x true else s

/-! ## Register writes (11 R290, 18 R470) -/

/-- Write a word to MBX_x_CMD_DATA or MBX_x_BULK_DATA: a word beyond 4,096 bytes or to a full buffer is ignored and
counted (R296). -/
def dataWrite (s : State) (x : I3cId) (bulk : Bool) (v : Nat) : State :=
  s.modPort x (fun q =>
    if bulk then
      if q.bulkFull || 4096 < q.bulk.length + 4 then { q with overrun := satAdd 8 q.overrun 1 } else { q with bulk := q.bulk ++ leBytes 4 v }
    else
      if q.cmdFull || 4096 < q.cmd.length + 4 then { q with overrun := satAdd 8 q.overrun 1 } else { q with cmd := q.cmd ++ leBytes 4 v })

/-- The end of the switch window, until which a post waits (16 R447). -/
def afterWindow (s : State) : State :=
  match s.fw.windowEnd with
  | some t => s.reach t
  | none => s

/-- MBX_x_POST bit CMD or BULK. DESIGN CHOICE, log entry 33. -/
def postWrite (s : State) (x : I3cId) (bulk : Bool) : State :=
  takeWaiting ((afterWindow s).modPort x (fun q => { q with cmdFull := q.cmdFull || !bulk, bulkFull := q.bulkFull || bulk })) x

/-- MBX_x_TAKE bit RSP: the head response goes (R297), and a post that waits for its room is taken, after a switch window as a post is.
DESIGN CHOICE, log entry 33. -/
def takeRsp (s : State) (x : I3cId) : State :=
  let q := s.port x
  if q.responses.isEmpty then s
  else
    let s := s.modPort x (fun q => { q with responses := q.responses.drop 1, rspAt := 0 })
    if q.cmdFull || q.bulkFull then takeWaiting (afterWindow s) x else s

/-- MBX_x_TAKE bit LOG: the log mailbox is free; taking a copy message advances the cursor (R299, 19 R477, R478). -/
def takeLog (s : State) (x : I3cId) : State :=
  match (s.port x).log with
  | none => s
  | some (urgentMsg, first, n, _) =>
    let s := s.modPort x (fun q => { q with log := none, logAt := 0, cursor := if urgentMsg then q.cursor else first + n })
    if urgentMsg then s
    else s.modEvents (fun v => { v with takenUpTo := rangeAdd v.takenUpTo first (first + n), copied := max v.copied (first + n) })

/-- MBX_x_ABORT bit CMD or BULK: unposted words go. -/
def abortWrite (s : State) (x : I3cId) (bulk : Bool) : State :=
  s.modPort x (fun q => if bulk then { q with bulk := if q.bulkFull then q.bulk else [] }
                        else { q with cmd := if q.cmdFull then q.cmd else [] })

/-- A commit is valid between 100 ms after an edge and 100 ms before the next, 1 s after it (12 R346).
DESIGN CHOICE, log entry 55. -/
def commitValid (s : State) : Bool :=
  match s.time.lastEdge with
  | some e => e + ms 100 ≤ s.now && s.now ≤ e + ms 900
  | none => false

/-- A write to TIME_NEXT_HI commits the announcement (12 R346). -/
def nextHiWrite (s : State) (x : I3cId) (v : Nat) : State :=
  if romServes s then s
  else if commitValid s then s.modPort x (fun q => { q with commit := some (v * 2 ^ 32 + q.nextLo.toNat) })
  else s.modTime (fun t => { t with annBad := satAdd 8 t.annBad 1 })

/-- A write of one register (18 R470): every other offset is RO or reserved and the write is ignored (R290). -/
def regWrite (s : State) (x : I3cId) (off v : Nat) : State :=
  match off with
  | 0x0204 =>
    let s := if bitOf v 0 then postWrite s x false else s
    if bitOf v 1 then postWrite s x true else s
  | 0x0208 =>
    let s := if bitOf v 0 then takeRsp s x else s
    if bitOf v 1 then takeLog s x else s
  | 0x020C =>
    let s := if bitOf v 0 then abortWrite s x false else s
    if bitOf v 1 then abortWrite s x true else s
  | 0x0210 => dataWrite s x false v
  | 0x0214 => dataWrite s x true v
  | 0x0610 => if romServes s then s else s.modPort x (fun q => { q with nextLo := BitVec.ofNat 32 v })
  | 0x0614 => nextHiWrite s x v
  | _ => s

/-- The groups of 4 bytes of a write; trailing bytes are ignored (R290). -/
def groups : Bytes → List Nat
  | a :: b :: c :: d :: bs => leNat [a, b, c, d] :: groups bs
  | _ => []

/-- Write groups upward from an offset; a data register takes every group (R290). -/
def writeGroups (s : State) (x : I3cId) : Nat → List Nat → State
  | _, [] => s
  | off, v :: vs => writeGroups (regWrite s x off v) x (if off = 0x0210 || off = 0x0214 then off else (off + 4) % 65536) vs

/-- A private write that the port acknowledges: an offset alone sets the read pointer (R290, R292). -/
def privateWrite (s : State) (x : I3cId) (off : Nat) (data : Bytes) : State :=
  let off := off % 65536
  if off % 4 ≠ 0 then s.modPort x (fun q => { q with malformed := satAdd 8 q.malformed 1 })
  else if data.isEmpty then
    s.modPort x (fun q => { q with pointer := off, pointerAt := some s.now, rspAt := if off = 0x0218 then 0 else q.rspAt
                                   logAt := if off = 0x021C then 0 else q.logAt })
  else writeGroups s x off (groups data)

/-- A private transfer: not acknowledged when the port does not listen (R288, R289). -/
def onPrivate (s : State) (x : I3cId) (f : State → State) : Result :=
  if portAcks s x then .next (f s) else .next (s.emit (.i3cNack x))

def execReadPointerSet (x : I3cId) (offset : Nat) (s : State) : Result := onPrivate s x (fun s => privateWrite s x offset [])

/-- REGISTER_WRITE; a write that arrives damaged is discarded whole and sets the protocol-error bit (R292). -/
def execRegisterWrite (x : I3cId) (offset : Nat) (data : Bytes) (damaged : Bool) (s : State) : Result :=
  onPrivate s x (fun s =>
    if damaged then s.modPort x (fun q => { q with protoErr := true }) else privateWrite s x offset data)

def execMbxCmdDataWrite (x : I3cId) (data : Bytes) (s : State) : Result := onPrivate s x (fun s => privateWrite s x 0x0210 data)
def execMbxBulkDataWrite (x : I3cId) (data : Bytes) (s : State) : Result := onPrivate s x (fun s => privateWrite s x 0x0214 data)
def execMbxPostCmd (x : I3cId) (s : State) : Result := onPrivate s x (fun s => regWrite s x 0x0204 1)
def execMbxPostBulk (x : I3cId) (s : State) : Result := onPrivate s x (fun s => regWrite s x 0x0204 2)
def execMbxTakeRsp (x : I3cId) (s : State) : Result := onPrivate s x (fun s => regWrite s x 0x0208 1)
def execMbxTakeLog (x : I3cId) (s : State) : Result := onPrivate s x (fun s => regWrite s x 0x0208 2)
def execMbxAbortCmd (x : I3cId) (s : State) : Result := onPrivate s x (fun s => regWrite s x 0x020C 1)
def execMbxAbortBulk (x : I3cId) (s : State) : Result := onPrivate s x (fun s => regWrite s x 0x020C 2)
/-- DESIGN CHOICE, log entry 55. -/
def execTimeNextHiWrite (x : I3cId) (v : BitVec 32) (s : State) : Result := onPrivate s x (fun s => regWrite s x 0x0614 v.toNat)

/-- DATA_REGISTER_REWIND: the offset of RSP_DATA or LOG_DATA alone (R292). -/
def execDataRegisterRewind (x : I3cId) (offset : Nat) (s : State) : Result :=
  if offset = 0x0218 || offset = 0x021C then onPrivate s x (fun s => privateWrite s x offset []) else .next s

end Sys2Proof.Machine
end

