-- ==== Sys2Proof/Machine/Links.lean ====
section
/-! DEFINITION. Carloth ports (12 R313–R324, R341–R344, R352): training, partners, envelopes, turns, the link plan and tests. -/

namespace Sys2Proof.Machine

/-- Codes of LNK_n_STATUS.STATE. -/
def LinkState.code : LinkState → Nat
  | .down => 0 | .training => 1 | .up => 2 | .retraining => 3 | .miswired => 4 | .failed => 5 | .disabled => 6 | .testing => 7

/-- Local source number of a Carloth port (R313). -/
def srcLink (n : PortId) : Nat := 0x70 + n.val

/-- The frame buffers, in units of 256 bytes (R319): control, job, store. -/
def bufferUnits : Vector Nat 3 := #v[256, 1024, 768]

/-- The class of a frame as an index. -/
def classIx (typ : Nat) : Fin 3 := ⟨frameClass typ % 3, by omega⟩

/-! ## Port states (R341, R342) -/

/-- A port that comes up afresh: sequence numbers from 0, a credit for every unit of the partner's buffers.
DESIGN CHOICE, log entry 88. -/
def freshLink (l : Link) : Link :=
  { l with
    txSeq := 0
    rxNext := 0
    unacked := []
    resend := 0
    credits := bufferUnits
    owedCredit := Vector.replicate 3 0
    nakDue := false
    nakSent := false
    waitSince := Vector.replicate 3 none
    nakTimes := [] }

/-- What a port that loses its partner keeps: queued frames are discarded and counted (R342).
DESIGN CHOICE, log entry 88. -/
def emptyLink (l : Link) : Link :=
  { freshLink l with
    house := []
    jobs := []
    relay := []
    stalled := false
    discards := satAdd 8 l.discards (l.house.length + l.jobs.length + l.relay.length) }

/-- Units of the input buffer are free again. -/
def freeUnits (s : State) (n : PortId) (f : Frame) : State :=
  let c := classIx f.typ
  s.modLink n (fun l => { l with owedCredit := l.owedCredit.set c.val (l.owedCredit.get c + frameUnits f) c.isLt })

/-- A port in a state keeps what it has queued. -/
def keepsQueues (st : LinkState) : Bool := st = .up || st = .retraining || st = .testing

/-- Bits of a vector of flags. -/
def maskOf {n : Nat} (f : Fin n → Bool) : Nat := ((List.finRange n).map (fun i => if f i then 2 ^ i.val else 0)).sum

/-- Mask of the ports that are UP. -/
def portsUp (s : State) : Nat := maskOf (fun n => (s.link n).state == .up)

/-- Step 7 of the start ends when every port is UP, or 300 ms after step 6; FW_START.PORTS holds the ports that are UP then (16 R437).
DESIGN CHOICE, log entry 96. -/
def endStep7 (s : State) : State :=
  if s.power.state = .boot && s.fw.startStep = 6 && (portsUp s = 65535 || s.fw.step5At + ms 300 ≤ s.now) then
    s.modFw (fun f => { f with startStep := 7, ports := portsUp s })
  else s

/-- Change a port's state, with its event (19 R476). Frames that it was to relay free the buffers of the ports on which they came in (R319). -/
def setLink (s : State) (n : PortId) (st : LinkState) : State :=
  let l := s.link n
  if l.state = st then s else
  let s := endStep7 s
  let s := if keepsQueues st then s else l.relay.foldl (fun s e => freeUnits s e.2.1 e.2.2) s
  let s := s.modLink n (fun l => { (if keepsQueues st then l else emptyLink l) with state := st })
  s.event (srcLink n) 0x0701 0xFF (leBytes 1 l.state.code ++ leBytes 1 st.code ++ leBytes 2 ((l.far.map (fun f => f.place)).getD 0))

/-- Before step 5 a supply hold pauses the start (16 R438). DESIGN CHOICE, log entry 98. -/
def startPaused (s : State) : Bool := s.power.state == .boot && s.fw.startStep < 5 && s.power.supplyHeld

/-- A port may train: after step 6 of the start, or for a firmware pull before, while the start does not pause (16 R437, R438, R444). -/
def mayTrain (s : State) (n : PortId) : Bool :=
  s.power.state != .off && !startPaused s && (6 ≤ s.fw.startStep || (match s.fw.load with | some f => f.pull && f.linkPort == n.val | none => false))

/-- A state in which a port trains, or tries to. -/
def inTraining (st : LinkState) : Bool := st == .down || st == .training || st == .retraining

/-- Send training patterns. -/
def startTraining (s : State) (n : PortId) : State :=
  (s.modLink n (fun l => { l with trainStep := 0, trainAt := s.now })).emit (.trainingPattern n)

/-- Retrains of a port in the last 60 s. -/
def recentRetrains (s : State) (n : PortId) : List Ns := (s.link n).retrains.filter (fun t => s.now < t + sec 60)

/-- A port retrains; the fourth retrain within 60 s makes it FAILED instead (R342). DESIGN CHOICE, log entry 88. -/
def retrain (s : State) (n : PortId) : State :=
  let r := recentRetrains s n
  if 3 ≤ r.length then setLink (s.modLink n (fun l => { l with retrains := r })) n .failed
  else startTraining (setLink (s.modLink n (fun l => { l with retrains := s.now :: r, waitSince := Vector.replicate 3 none, stalled := false, nakTimes := [] })) n .retraining) n

/-- SIGNAL_DETECT ("Training and partners"). -/
def execSignalDetect (n : PortId) (s : State) : Result :=
  let l := s.link n
  if mayTrain s n && inTraining l.state && l.trainStep = 0 then
    let s := if l.state = .down then setLink s n .training else s
    .next (s.modLink n (fun l => { l with trainStep := 1, trainAt := s.now }))
  else .next s

/-- FEC_LOCK: the port draws its 32-byte challenge and sends its identity, signed with the partner's challenge. -/
def execFecLock (n : PortId) (challenge : Bytes) (s : State) : Result :=
  let l := s.link n
  if mayTrain s n && inTraining l.state && l.trainStep = 1 then
    let a := s.draw
    let own := leBytes 32 (Config.randomKey a.1).toNat
    let sig := signIdentity a.2 (Config.identityMessage s.place n.val s.plan.cabinet s.fuses.serial challenge)
    let s := sig.2.modLink n (fun l => { l with trainStep := 2, trainAt := s.now, challenge := own })
    .next (s.emit (.trainingIdentity n s.place n.val s.plan.cabinet s.fuses.serial own sig.1))
  else .next s

/-- TRAINING_RETRY (R341): no signal is found; the port is DOWN and tries again after 1 s. -/
def execTrainingRetry (n : PortId) (s : State) : Result :=
  let l := s.link n
  if mayTrain s n && inTraining l.state && l.trainStep = 0 then .next (startTraining (setLink (s.reach (l.trainAt + sec 1)) n .down) n)
  else .next s

/-- TRAINING_TIMEOUT (R341): 200 ms after signal detect, 50 ms after lock. DESIGN CHOICE, log entry 87. -/
def execTrainingTimeout (n : PortId) (s : State) : Result :=
  let l := s.link n
  if mayTrain s n && inTraining l.state && l.trainStep != 0 then
    .next (retrain (s.reach (l.trainAt + (if l.trainStep = 1 then ms 200 else ms 50))) n)
  else .next s

/-- The far end agrees with the plan's expected far end of the port (R344). DESIGN CHOICE, log entry 84. -/
def agreesWith (s : State) (n : PortId) (place port : Nat) : Bool :=
  s.plan.inForce && (s.plan.expected.get n).1 == place && (s.plan.expected.get n).2.1 == port

/-- The far end is another than the plan expects, or of another cabinet (R341). DESIGN CHOICE, log entry 84. -/
def wiredWrong (s : State) (n : PortId) (place port cabinet : Nat) : Bool :=
  s.plan.inForce && (cabinet != s.plan.cabinet || ((s.plan.expected.get n).2.2 && !agreesWith s n place port))

/-- A far end that reports STORE, from a place that the plan in force marks so (R341, R314). DESIGN CHOICE, log entry 84. -/
def isStore (s : State) (i : PartnerId) : Bool := i.store && (!s.plan.inForce || (routeOf s i.place).store)

/-- A signed identity verifies under the partner's key over its fields and this port's challenge.
DESIGN CHOICE, log entry 83. -/
def identityOk (s : State) (n : PortId) (i : PartnerId) : Bool :=
  ecdsaVerify i.pubKey (Config.identityMessage i.place i.port i.cabinet i.serial (s.link n).challenge) i.sig

/-- The far end that an identity makes known. -/
def farOf (s : State) (n : PortId) (i : PartnerId) : FarEnd :=
  { place := i.place, port := i.port, cabinet := i.cabinet, serial := i.serial, store := isStore s i, auth := identityOk s n i,
    agrees := agreesWith s n i.place i.port, claimsStore := i.store }

/-- The port after an identity (R341): UP, FAILED or MISWIRED. A retrained port sends its unacknowledged envelopes again. -/
def takeIdentity (s : State) (n : PortId) (i : PartnerId) : State :=
  let f := farOf s n i
  let back := (s.link n).state = .retraining
  let s := s.modLink n (fun l => { l with far := some f, trainStep := 0 })
  if !f.auth && !(f.store && i.sig.isEmpty) then (setLink s n .failed).event (srcLink n) 0x0702 0xFF (leBytes 2 i.place)
  else if wiredWrong s n i.place i.port i.cabinet then setLink s n .miswired
  else
    let s := s.modLink n (fun l => if back then { l with resend := l.unacked.length } else freshLink l)
    setLink s n .up

/-! ## Slow and faulty partners (R341) -/

/-- The earliest instant since when a frame waits without credit. -/
def waitingSince (l : Link) : Option Ns :=
  l.waitSince.toList.foldl (fun m t => match m, t with | some a, some b => some (min a b) | some a, none => some a | none, t => t) none

/-- SLOW_PARTNER: 10 ms without credit. The code of the event is the manual's to give and it gives none.
DESIGN CHOICE, log entry 82. -/
def execSlowPartner (n : PortId) (s : State) : Result :=
  match waitingSince (s.link n) with
  | some t =>
    if (s.link n).stalled || (s.link n).state ≠ .up then .next s
    else .next (((s.reach (t + ms 10)).modLink n (fun l => { l with stalled := true })).event (srcLink n) Config.slowPartnerCode 0xFF [])
  | none => .next s

/-- SLOW_PARTNER_RETRAIN: 1 s without credit. -/
def execSlowPartnerRetrain (n : PortId) (s : State) : Result :=
  match waitingSince (s.link n) with
  | some t => if (s.link n).stalled && (s.link n).state == .up then .next (retrain (s.reach (t + sec 1)) n) else .next s
  | none => .next s

/-- FAULTY_PARTNER: FEC lock is lost. More than 64 NAKs in 1 ms are found where the NAKs are taken (`takeNak`). DESIGN CHOICE, log entry 85. -/
def execFaultyPartner (n : PortId) (s : State) : Result :=
  if (s.link n).state = .up then .next (retrain s n) else .next s

/-! ## Sending (R317–R321) -/

/-- The owner of a port's present turn. -/
def turnOwner (l : Link) : TurnOwner := l.owners.toList.getD l.turn .relay

/-- The turns of a partition stop in a hold; house and relay turns go on (14 R388). DESIGN CHOICE, log entry 95. -/
def turnHeld (s : State) (p : PartId) : Bool :=
  s.power.supplyHeld || s.power.state == .quench || (s.power.shed && (s.part p).state == .running)

/-- The frame that a turn's owner has ready. DESIGN CHOICE, log entry 95. -/
def turnFrame (s : State) (l : Link) : Option Frame :=
  match turnOwner l with
  | .house => l.house.head?
  | .part p => if turnHeld s p then none else (l.jobs.find? (fun e => e.1 == p)).map (fun e => e.2)
  | .relay => (l.relay.head?).map (fun e => e.2.2)

/-- Take out the frame that the turn's owner sends. A relayed frame frees the buffer of the port it came in on. -/
def dropTurnFrame (s : State) (n : PortId) (f : Frame) : State :=
  let l := s.link n
  match turnOwner l with
  | .house => s.modLink n (fun l => { l with house := l.house.drop 1 })
  | .part p => s.modLink n (fun l => { l with jobs := l.jobs.erase (p, f) })
  | .relay =>
    let s := match l.relay.head? with | some e => freeUnits s e.2.1 f | none => s
    s.modLink n (fun l => { l with relay := l.relay.drop 1 })

/-- Every frame queued on a port. -/
def queuedFrames (l : Link) : List Frame := l.house ++ l.jobs.map (fun e => e.2) ++ l.relay.map (fun e => e.2.2)

/-- Note which classes have a frame waiting without credit (R341). -/
def noteWaiting (s : State) (n : PortId) : State :=
  s.modLink n (fun l =>
    let w := Vector.ofFn (fun c : Fin 3 =>
      if (queuedFrames l).any (fun f => classIx f.typ == c && l.credits.get c < frameUnits f) then some ((l.waitSince.get c).getD s.now) else none)
    { l with waitSince := w, stalled := l.stalled && w.toList.any (fun t => t.isSome) })

/-- Bytes of an envelope (R317). -/
def envBytes (f : Option Frame) : Nat := 12 + (f.map (fun f => 64 + f.payload.length)).getD 0

/-- Emit an envelope with the present LACK and NAK. DESIGN CHOICE, log entry 85. -/
def emitEnvelope (s : State) (n : PortId) (e : SentEnv) : State :=
  let l := s.link n
  let s := s.modLink n (fun l => { l with nakDue := false, naks := satAdd 8 l.naks (bit l.nakDue) })
  let v : Envelope := { lseq := e.lseq, lack := (l.rxNext + 65535) % 65536, nak := l.nakDue, credit := e.credit, frame := e.frame, crc := 0, uncorr := 0 }
  s.emit (.envelope n { v with crc := envelopeCrc v })

/-- A new envelope: it returns at most 255 units of each class and takes credit for its frame.
DESIGN CHOICE, log entry 86. -/
def sendNew (s : State) (n : PortId) (f : Option Frame) : State :=
  let l := s.link n
  let give := l.owedCredit.map (fun u => min 255 u)
  let e : SentEnv := { lseq := l.txSeq, credit := (give[0], give[1], give[2]), frame := f, owner := turnOwner l }
  let s := match f with | some f => dropTurnFrame s n f | none => s
  let s := s.modLink n (fun l => { l with
    txSeq := (l.txSeq + 1) % 65536
    owedCredit := Vector.zipWith (· - ·) l.owedCredit give
    unacked := l.unacked ++ [e]
    credits := match f with | some f => l.credits.set (classIx f.typ).val (l.credits.get (classIx f.typ) - frameUnits f) (classIx f.typ).isLt | none => l.credits
    lastFrame := if f.isSome then some s.now else l.lastFrame })
  emitEnvelope s n e

/-- An envelope may go again in the present turn: it has no frame, or the turn is its owner's, and PRSNT_N holds (R320; 17 R458). -/
def mayResend (s : State) (l : Link) (e : SentEnv) : Bool := e.frame.isNone || (e.owner == turnOwner l && !s.power.prsntLost)

/-- The envelope of a turn: first those that go again, in order, each in a turn of its owner, then the owner's frame when it has one with
credit (R318, R320). A turn of another owner meanwhile sends an envelope without a frame, under the LSEQ before, which the partner has.
With the 512 KiB of unacknowledged envelopes full, they go again. After a loss of PRSNT_N no frame is sent (17 R458).
DESIGN CHOICE, log entry 85. -/
def turnEnvelope (s : State) (n : PortId) : State :=
  let l := s.link n
  let f := match turnFrame s l with
    | some f => if frameUnits f ≤ l.credits.get (classIx f.typ) && !s.power.prsntLost then some f else none
    | none => none
  let full := decide (524288 < (l.unacked.map (fun e => envBytes e.frame)).sum + envBytes f)
  let again := if l.resend = 0 && full then l.unacked.length else l.resend
  match l.unacked[l.unacked.length - again]? with
  | some e =>
    if mayResend s l e then emitEnvelope (s.modLink n (fun l => { l with resend := again - 1 })) n e
    else emitEnvelope (s.modLink n (fun l => { l with resend := again })) n { lseq := (e.lseq + 65535) % 65536, credit := (0, 0, 0), frame := none }
  | none => sendNew s n f

/-- The discard event of a port whose second has passed (R341; 19 R476). DESIGN CHOICE, log entry 86. -/
def flushDiscards (s : State) (n : PortId) : State :=
  match (s.link n).discardAt with
  | some t =>
    if s.now < t + sec 1 then s
    else (s.modLink n (fun l => { l with discardAt := none, dropped := 0 })).event (srcLink n) 0x0703 0xFF (leBytes 4 (s.link n).dropped)
  | none => s

/-- CALENDAR_TURN (R320, R321). -/
def execCalendarTurn (n : PortId) (s : State) : Result :=
  if (s.link n).state ≠ .up then .next s
  else
    let s := match turnOwner (s.link n) with | .part p => copyOut s p | _ => s
    let s := turnEnvelope (noteWaiting (flushDiscards s n) n) n
    .next (s.modLink n (fun l => { l with turn := (l.turn + 1) % 64 }))

/-! ## Receiving (R318, R321, R324) -/

/-- A frame that fails R324: discarded and counted, also for the event of the second that its first discard begins.
DESIGN CHOICE, log entry 86. -/
def hostile (s : State) (n : PortId) (f : Frame) : State :=
  let s := flushDiscards s n
  (discard (freeUnits s n f) n).modLink n (fun l => { l with dropped := l.dropped + 1, discardAt := some (l.discardAt.getD s.now) })

/-- An answer of the store from which firmware is pulled on this port: it needs no link plan (16 R444). -/
def pullFrame (s : State) (n : PortId) (f : Frame) : Bool :=
  match s.fw.load with
  | some l => l.pull && l.linkPort == n.val && f.src == l.locator.1 && f.dst == s.place && f.cabinet == l.cabinet && (f.typ == 0x21 || f.typ == 0x24)
  | none => false

/-- The checks of R324, in their order. -/
def frameOk (s : State) (n : PortId) (f : Frame) : Bool :=
  let src := routeOf s f.src
  let dst := routeOf s f.dst
  f.magic == 0x4C43 && f.version == 1 && frameKnown f.typ && f.payload.length == 64 * f.len && f.len ≤ 64 && f.tag.length == 16 &&
  (pullFrame s n f ||
   f.cabinet == s.plan.cabinet && (src.anyIn || (src.valid && routePort src == n)) && dst.valid && (frameClass f.typ != 2 || src.store || dst.store))

/-- A frame joins a relay queue; of frames of the same nanosecond the lower inbound port is first (R321). -/
def relayInsert (e : Ns × PortId × Frame) : List (Ns × PortId × Frame) → List (Ns × PortId × Frame)
  | [] => [e]
  | g :: gs => if g.1 = e.1 && e.2.1.val < g.2.1.val then e :: g :: gs else g :: relayInsert e gs

/-- Deliver, relay or discard an arriving frame. A request or a write for a store, which the module is not, is discarded on delivery and frees
its buffer (R315, R319). -/
def takeFrame (s : State) (n : PortId) (f : Frame) : State :=
  let s := s.modLink n (fun l => { l with lastFrame := some s.now })
  if !frameOk s n f then hostile s n f
  else if (routeOf s f.dst).loc || pullFrame s n f then
    if f.typ = 0x20 || f.typ = 0x22 then freeUnits s n f else { s with inbox := s.inbox ++ [(n, f)] }
  else
    let o := routePort (routeOf s f.dst)
    if (s.link o).state = .up then s.modLink o (fun l => { l with relay := relayInsert (s.now, n, f) l.relay })
    else discard (freeUnits s n f) o

/-- The LINK_SEND whose last frame the first hop has acknowledged completes (R333). -/
def ackSend (s : State) (e : SentEnv) : State :=
  match e.frame with
  | some f =>
    if f.typ = 0x10 && bitOf f.fflags 0 && f.src = s.place then
      forParts (fun p s => if ((s.part p).job.map (fun j => j.job)) == some f.job then
        s.modPart p (fun x => { x with inflight := x.inflight.map (fun i => if i.awaiting && i.cls = 5 && i.ticket = f.msg then { i with awaiting := false } else i) }) else s) s
    else s
  | none => s

/-- LACK acknowledges the envelopes up to it. -/
def takeAck (s : State) (n : PortId) (lack : Nat) : State :=
  let l := s.link n
  match (List.range l.unacked.length).find? (fun i => match l.unacked[i]? with | some e => e.lseq == lack | none => false) with
  | some i =>
    let rest := l.unacked.drop (i + 1)
    (l.unacked.take (i + 1)).foldl ackSend (s.modLink n (fun l => { l with unacked := rest, resend := min l.resend rest.length }))
  | none => s

/-- Credit returned in an envelope, never above the partner's buffers. DESIGN CHOICE, log entry 86. -/
def takeCredit (l : Link) (c : Nat × Nat × Nat) : Link :=
  { l with credits := Vector.zipWith min bufferUnits (Vector.zipWith (· + ·) l.credits #v[c.1, c.2.1, c.2.2]) }

/-- An envelope asks for a resend from LACK + 1 (R318). DESIGN CHOICE, log entry 85. -/
def takeNak (s : State) (n : PortId) : State :=
  s.modLink n (fun l => { l with resend := l.unacked.length, nakTimes := (s.now :: l.nakTimes.filter (fun t => s.now < t + ms 1)).take 65 })

/-- An LSEQ that has been received already: its envelope is a repetition, and nothing is missing. DESIGN CHOICE, log entry 85. -/
def lseqBehind (l : Link) (lseq : Nat) : Bool := within ((l.rxNext + 65536 - lseq) % 65536) 1 32768

/-- ENVELOPE_RECEIVE (R318, R324): its CRC and LSEQ are checked, its LACK, NAK and CREDIT taken, and its frame; more than 64 NAKs in 1 ms
retrain the port (R341). DESIGN CHOICE, log entry 85. -/
def execEnvelopeReceive (n : PortId) (e : Envelope) (s : State) : Result :=
  let l := s.link n
  if l.state ≠ .up then .next s else
  let s := s.modLink n (fun l => { l with fecUncorr := satAdd 8 l.fecUncorr e.uncorr })
  if e.crc ≠ envelopeCrc e then .next (s.modLink n (fun l => { l with nakDue := true, nakSent := true }))
  else if e.lseq ≠ l.rxNext then .next (s.modLink n (fun l => if l.nakSent || lseqBehind l e.lseq then l else { l with nakDue := true, nakSent := true }))
  else
    let s := s.modLink n (fun l => { takeCredit l e.credit with rxNext := (l.rxNext + 1) % 65536, nakSent := false })
    let s := takeAck s n e.lack
    let s := if e.nak then takeNak s n else s
    let s := match e.frame with | some f => takeFrame s n f | none => s
    .next (if 64 < (s.link n).nakTimes.length then retrain s n else s)

/-! ## Plan, shares and ports (R323, R342, R343, R352) -/

/-- A compute job of the module is RUNNING. -/
def computeRuns (s : State) : Bool := s.parts.toList.any (fun x => x.state == .running && (match x.job with | some j => !j.mirror | none => false))

/-- A route from its byte (R323). -/
def routeByte (b : Nat) : Route := { port := b % 16, loc := bitOf b 4, valid := bitOf b 5, store := bitOf b 6, anyIn := bitOf b 7 }

/-- The plan of a LINK_PLAN body. -/
def planOfBody (m : Msg) : Plan :=
  { inForce := true, version := m.field 4 4, cabinet := m.field 0 4,
    expected := Vector.ofFn (fun n : PortId =>
      let v := m.field (8 + 4 * n.val) 2
      (bitsOf v 10 0, bitsOf v 14 11, bitOf v 15)),
    routes := (List.range 2048).filterMap (fun i => let b := m.field (72 + i) 1; if b = 0 then none else some (i, routeByte b)) }

/-- A port that is UP is compared with the plan again (R314, R341). -/
def compareFar (s : State) (n : PortId) : State :=
  match (s.link n).far with
  | some f => if (s.link n).state = .up && wiredWrong s n f.place f.port f.cabinet then setLink s n .miswired else s
  | none => s

/-- A new plan meets a port: the far end is compared again, and a MISWIRED port trains again (R341, R342); a port under test is compared when
the test ends. -/
def replanPort (s : State) (n : PortId) : State :=
  match (s.link n).far with
  | none => s
  | some f =>
    let s := s.modLink n (fun l => { l with far := some { f with agrees := agreesWith s n f.place f.port } })
    if (s.link n).state = .miswired then startTraining (setLink s n .training) n
    else compareFar s n

/-- LINK_PLAN (R352). -/
def execLinkPlan (s : State) : Result :=
  onDue s 0x68 (fun _ => true) (fun t s =>
    if computeRuns s then answerBare s t 0x01
    else answerBare (forPorts (fun n s => replanPort s n) { s with plan := planOfBody t.msg }) t 0x00)

/-- The owner that a LINK_SHARE byte names. -/
def shareOwner (b : Nat) : TurnOwner := if h : b < 8 then .part ⟨b, h⟩ else .relay

/-- The owners of a port after a LINK_SHARE order: turns 4 to 63. -/
def sharedOwners (m : Msg) (l : Link) : Vector TurnOwner 64 :=
  Vector.ofFn (fun i : Fin 64 => if i.val < 4 then l.owners.get i else shareOwner (m.field (8 + i.val) 1))

/-- A share would take a turn from a RUNNING partition. -/
def shareTakes (s : State) (m : Msg) (l : Link) : Bool :=
  (List.finRange 64).any (fun i => match l.owners.get i with
    | .part p => (s.part p).state == .running && (sharedOwners m l).get i != .part p
    | _ => false)

/-- LINK_SHARE (R320, R352). -/
def execLinkShare (s : State) : Result :=
  onDue s 0x69 (fun _ => true) (fun t s =>
    let ports := (List.finRange 16).filter (fun n => bitOf (t.field 0 2) n.val)
    if ports.any (fun n => shareTakes s t.msg (s.link n)) then answerBare s t 0x01
    else answerBare (ports.foldl (fun s n => s.modLink n (fun l => { l with owners := sharedOwners t.msg l })) s) t 0x00)

/-- The port that a LINK_PORT body names. -/
def portField (t : Taken) : PortId := ⟨t.field 0 1 % 16, by omega⟩

/-- A test that runs on a port, if any, ends without a result; the claim lanes are tested while any port is (R343). -/
def dropTest (s : State) (n : PortId) : State :=
  let s := s.modLink n (fun l => { l with testUntil := none })
  s.modLanes (fun l => { l with testing := (List.finRange 16).any (fun m => (s.link m).testUntil.isSome) })

/-- A FAILED or MISWIRED port leaves that state by an enable order or a new plan only (R342). -/
def stuckState (st : LinkState) : Bool := st == .failed || st == .miswired

/-- The state of a port that is disabled. -/
def disabledAs (l : Link) : LinkState := if stuckState l.state then l.state else .disabled

/-- LINK_PORT with ACTION 1 (R342). -/
def execLinkPortDisable (s : State) : Result :=
  onDue s 0x6B (fun m => m.field 1 1 == 1) (fun t s =>
    let n := portField t
    answerBare (setLink (dropTest s n) n (disabledAs (s.link n))) t 0x00)

/-- LINK_PORT with ACTION 2: the port leaves every state and trains (R342); its retrains of the last 60 s still count. -/
def execLinkPortEnable (s : State) : Result :=
  onDue s 0x6B (fun m => m.field 1 1 == 2) (fun t s =>
    let n := portField t
    let s := dropTest s n
    answerBare (startTraining (setLink s n (if (s.link n).state = .up then .retraining else .training)) n) t 0x00)

/-- A PRBS31 test begins on a port, and on the claim lanes in the same way (R343, 13 R358); a FAILED or MISWIRED port stays so (R342).
DESIGN CHOICE, log entry 89. -/
def beginTest (s : State) (n : PortId) (seconds : Nat) : State :=
  let s := s.modLink n (fun l => { l with
    testFrom := if l.state = .testing then l.testFrom else l.state
    testUntil := some (s.now + sec seconds)
    testSeconds := seconds })
  (if stuckState (s.link n).state then s else setLink s n .testing).modLanes (fun l => { l with testing := true })

/-- LINK_PORT with ACTION 3 (R343): a test, and the interval of tests in hours. -/
def execLinkPortTest (s : State) : Result :=
  onDue s 0x6B (fun m => m.field 1 1 == 3) (fun t s =>
    let n := portField t
    let s := s.modLink n (fun l => { l with testHours := t.field 4 2, testAt := some s.now })
    answerBare (beginTest s n (t.field 2 1)) t 0x00)

/-- LINK_TEST_END (R343): `bitErrors` of the port's lanes and `laneErrors` of CLAIM_PEER_RX. DESIGN CHOICE, log entry 89. -/
def execLinkTestEnd (n : PortId) (bitErrors laneErrors : Nat) (s : State) : Result :=
  match (s.link n).testUntil with
  | some t =>
    let s := s.reach t
    let secs := (s.link n).testSeconds
    let s := s.modLink n (fun l => { l with testUntil := none, ber := min bitErrors (2 ^ 24 - 1), berSeconds := secs })
    let s := if (s.link n).state = .testing then compareFar (setLink s n (s.link n).testFrom) n else s
    let busy := (List.finRange 16).any (fun m => (s.link m).testUntil.isSome)
    .next (s.modLanes (fun l => { l with testing := busy, ber := min laneErrors (2 ^ 24 - 1), berSeconds := secs }))
  | none => .next s

/-- INTERVAL_TEST (R343): skipped, with an event, when the port has carried a frame in the preceding 10 s.
DESIGN CHOICE, log entry 89. -/
def execIntervalTest (n : PortId) (s : State) : Result :=
  let l := s.link n
  match l.testAt with
  | some t =>
    if l.testHours = 0 || l.testUntil.isSome then .next s else
    let s := s.reach (t + sec (3600 * l.testHours))
    let s := s.modLink n (fun l => { l with testAt := some s.now })
    if (match l.lastFrame with | some f => decide (s.now < f + sec 10) | none => false) then .next (s.event (srcLink n) 0x0706 0xFF (leBytes 1 n.val))
    else .next (beginTest s n l.testSeconds)
  | none => .next s

end Sys2Proof.Machine
end

