-- ==== Sys2Proof/Machine/Jobs.lean ====
section
/-! DEFINITION. Jobs of Carloth (12 R325–R336): the job table, key agreement, messages in rings, ingress copies. -/

namespace Sys2Proof.Machine

/-! ## The job table (R325, R352) -/

/-- A member entry of a LINK_JOB body: index, place, serial. -/
def memberEntry (m : Msg) (i : Nat) : Nat × Nat × Nat := (m.field 2 2 + i, m.field (16 + 16 * i) 2, m.field (24 + 16 * i) 8)

/-- Enter one member; one that stays as it was keeps its keys. -/
def enterMember (ms : List (Nat × Member)) (e : Nat × Nat × Nat) : List (Nat × Member) :=
  match assocGet e.1 ms with
  | some m => if m.place = e.2.1 && m.serial = e.2.2 then ms else assocSet e.1 { place := e.2.1, serial := e.2.2, keys := PeerKeys.init } ms
  | none => assocSet e.1 { place := e.2.1, serial := e.2.2, keys := PeerKeys.init } ms

/-- The table that a LINK_JOB order extends: an order of another kind, job, size or own index starts a new one. -/
def jobBase (x : Part) (m : Msg) : Job :=
  let new : Job := { mirror := m.field 1 1 == 1, job := m.field 8 4, total := m.field 6 2, own := m.field 12 2, members := [] }
  match x.job with
  | some j => if j.mirror = new.mirror && j.job = new.job && j.total = new.total && j.own = new.own then j else new
  | none => new

/-- LINK_JOB (R325, R352). -/
def execLinkJob (s : State) : Result :=
  onDue s 0x6A (fun _ => true) (fun t s =>
    if computeRuns s then answerBare s t 0x01 else
    let m := t.msg
    answerBare (s.modPart (t.part 0) (fun x =>
      let j := jobBase x m
      { x with job := some { j with members := ((List.range (m.field 4 2)).map (memberEntry m)).foldl enterMember j.members } })) t 0x00)

/-- Every member of the job is named. -/
def jobComplete (x : Part) : Bool := match x.job with | some j => j.members.length == j.total | none => false

/-- The members with which the image's exchange graph links this one; a mirror set links its pair (R326). -/
def linkedMember (x : Part) (i : Nat) : Bool :=
  match x.job with
  | some j => i != j.own && (j.mirror || (match x.image with
      | some g => g.links.any (fun l => (l.1 == i && l.2 == j.own) || (l.1 == j.own && l.2 == i))
      | none => false))
  | none => false

/-- A partition whose members agree keys: its job table is complete and it is LOADED or beyond. -/
def agreesKeys (x : Part) : Bool := jobComplete x && (x.state == .loaded || x.state == .armed || x.state == .running)

/-! ## Key agreement (R326–R331) -/

/-- The next KEYID; 0 is none. DESIGN CHOICE, log entry 90. -/
def nextKeyid (k : Nat) : Nat := k % 255 + 1

/-- JOB, KEYID, nonce, ephemeral public key and certificate, in this order (DESIGN CHOICE, log entry 24). -/
def kaFields (job keyid : Nat) (nonce : Bytes) (pub cert : Bytes) : Bytes := leBytes 4 job ++ leBytes 1 keyid ++ nonce ++ pub ++ padTo 480 cert

/-- Bytes of those fields, and where each lies. DESIGN CHOICE, log entry 24. -/
def kaSize : Nat := 614
def kaJob (p : Bytes) : Nat := fieldAt p 0 4
def kaKeyid (p : Bytes) : Nat := fieldAt p 4 1
def kaNonce (p : Bytes) : Bytes := slice p 5 32
def kaPub (p : Bytes) : Bytes := slice p 37 97
def kaCert (p : Bytes) : Bytes := slice p 134 480

/-- Send a control frame in the house turns. DESIGN CHOICE, log entry 90. -/
def sendControl (s : State) (typ place ring : Nat) (payload : Bytes) : State :=
  sendFrame s none (newFrame s typ place 0 0 0 0 ring (pad64 payload))

/-- The 72 bytes that both members derive: starter's key and salt, then the responder's (R327). -/
def jobSecret (job keyid : Nat) (starter responder : Nat) (n1 n2 z : Bytes) : Bytes :=
  hkdf384 z (leBytes 4 job ++ n1 ++ n2)
    ("CARLOTH-JOB-1".toList.map (fun c => BitVec.ofNat 8 c.toNat) ++ leBytes 2 starter ++ leBytes 2 responder ++ leBytes 1 keyid) 72

/-- New keys go live; the old receiving key stays until 1 s after the first frame under the new one (R329).
DESIGN CHOICE, log entry 90. -/
def newKeys (k : PeerKeys) (keyid : Nat) (sec72 : Bytes) (starts : Bool) : PeerKeys :=
  let a := (slice sec72 0 32, slice sec72 32 4)
  let b := (slice sec72 36 32, slice sec72 68 4)
  let tx := if starts then a else b
  let rx := if starts then b else a
  { k with
    old := if k.live then some (k.keyid, k.rxKey, k.rxSalt, k.rxHigh) else none
    oldUntil := none
    keyid := keyid
    live := true
    txKey := tx.1
    txSalt := tx.2
    rxKey := rx.1
    rxSalt := rx.2
    txCount := 1
    rxHigh := 0
    stage := 0
    priv := 0
    failed := false
    retryAt := none
    fails := [] }

/-- An ephemeral private key and a nonce. -/
def drawPair (s : State) : BitVec 384 × Bytes × State :=
  let a := s.draw
  let b := a.2.draw
  (Config.randomScalar a.1, leBytes 32 (Config.randomKey b.1).toNat, b.2)

/-- The lower place starts (R326). -/
def starts (s : State) (m : Member) : Bool := s.place < m.place

/-- Send KA_HELLO to a member. -/
def sendHello (s : State) (p : PartId) (i : Nat) : State :=
  match memberOf (s.part p) i, (s.part p).job with
  | some m, some j =>
    let d := drawPair s
    let hello := pad64 (kaFields j.job (nextKeyid m.keys.keyid) d.2.1 (pubKey (privKey d.1.toNat)) s.fuses.cert)
    let s := modKeysOf d.2.2 p i (fun k => { k with stage := 1, priv := d.1, hello := hello, reply := [], attempts := 1, sentAt := s.now, retryAt := none })
    sendControl s 0x01 m.place 0 hello
  | _, _ => s

/-- A member with which this one starts an agreement now. -/
def helloDue (s : State) (x : Part) : Option Nat :=
  match x.job with
  | some j => (j.members.find? (fun m => linkedMember x m.1 && starts s m.2 && !m.2.keys.live && m.2.keys.stage == 0 && m.2.keys.retryAt.isNone)).map (fun m => m.1)
  | none => none

/-- KEY_AGREEMENT_START (R326). -/
def execKeyAgreementStart (p : PartId) (s : State) : Result :=
  if agreesKeys (s.part p) then
    match helloDue s (s.part p) with
    | some i => .next (sendHello s p i)
    | none => .next s
  else .next s

/-- The source of a peer's events: the port of its route (19 R476). -/
def peerSource (s : State) (place : Nat) : Nat := srcLink (routePort (routeOf s place))

/-- A key agreement fails (R331): 1 signature, 2 chain, 3 serial, 4 unanswered; it is tried again after 10 s. -/
def agreementFail (s : State) (p : PartId) (i cause : Nat) : State :=
  let place := ((memberOf (s.part p) i).map (fun m => m.place)).getD 0
  (modKeysOf s p i (fun k => { k with stage := 0, failed := true, retryAt := some (s.now + sec 10) })).event (peerSource s place) 0x0704 p.val
    (leBytes 2 place ++ leBytes 1 cause)

/-- What is wrong with a member's certificate: 0 nothing, 2 its chain, 3 its serial (R331). -/
def certFault (s : State) (m : Member) (cert : Bytes) : Nat :=
  if !chainOk s cert then 2 else if certSerial cert ≠ m.serial then 3 else 0

/-- The partition and member index to which a frame from a place belongs. -/
def findMember (s : State) (f : Part → Nat × Member → Bool) : Option (PartId × Nat) :=
  (List.finRange 8).findSome? (fun p =>
    match (s.part p).job with
    | some j => (j.members.find? (fun m => f (s.part p) m)).map (fun m => (p, m.1))
    | none => none)

/-- The oldest frame of the inbox that satisfies `f`, taken out; its buffer is free again. -/
def takeInbox (s : State) (f : PortId × Frame → Bool) : Option ((PortId × Frame) × State) :=
  match s.inbox.find? f with
  | some e => some (e, freeUnits { s with inbox := s.inbox.erase e } e.1 e.2)
  | none => none

/-- Take the oldest frame of a type and go on with it. DESIGN CHOICE, log entry 26. -/
def onFrame (s : State) (typ : Nat) (f : PortId → Frame → State → State) : Result :=
  match takeInbox s (fun e => e.2.typ == typ) with
  | some (e, s) => .next (f e.1 e.2 s)
  | none => .next s

/-- The member whose KA_HELLO a frame is: linked, of the frame's job and place, and the one that starts, or one that has torn down its keys of
this one's while they are live here and no agreement runs (DESIGN CHOICE, log entry 90). -/
def helloMember (s : State) (f : Frame) : Option (PartId × Nat) :=
  findMember s (fun x m => agreesKeys x && linkedMember x m.1 && m.2.place == f.src && (x.job.map (fun j => j.job)) == some (kaJob f.payload) &&
    (!starts s m.2 || (m.2.keys.live && m.2.keys.stage == 0)))

/-- The member that a KA_REPLY answers: the one whose KA_HELLO of this job and KEYID waits. -/
def replyMember (s : State) (f : Frame) : Option (PartId × Nat) :=
  findMember s (fun x m => m.2.place == f.src && m.2.keys.stage == 1 && (x.job.map (fun j => j.job)) == some (kaJob f.payload) &&
    kaKeyid f.payload == kaKeyid m.2.keys.hello)

/-- A KA_CONFIRM's signature verifies over what a member sent and was answered. -/
def confirmOk (f : Frame) (m : Member) : Bool :=
  ecdsaVerify (certKey (kaCert m.keys.hello)) (m.keys.hello ++ m.keys.reply) (slice f.payload 0 96)

/-- The member that a KA_CONFIRM confirms. -/
def confirmMember (s : State) (f : Frame) : Option (PartId × Nat) :=
  findMember s (fun _ m => m.2.place == f.src && m.2.keys.stage == 2 && confirmOk f m.2)

/-- KA_HELLO: verified and answered with KA_REPLY (R326). -/
def execKaHello (s : State) : Result :=
  onFrame s 0x01 (fun _ f s =>
    match helloMember s f with
    | none => s
    | some (p, i) =>
      match memberOf (s.part p) i with
      | none => s
      | some m =>
        let bad := certFault s m (kaCert f.payload)
        if bad ≠ 0 then agreementFail s p i bad
        else if (pointOf (kaPub f.payload)).isNone then agreementFail s p i 1
        else
          let d := drawPair s
          let own := kaFields (kaJob f.payload) (kaKeyid f.payload) d.2.1 (pubKey (privKey d.1.toNat)) s.fuses.cert
          let g := signIdentity d.2.2 (f.payload ++ own)
          let reply := pad64 (own ++ g.1)
          let s := modKeysOf g.2 p i (fun k => { k with stage := 2, priv := d.1, hello := f.payload, reply := reply, attempts := 1, sentAt := s.now })
          sendControl s 0x02 m.place 0 reply)

/-- KA_REPLY: verified, answered with KA_CONFIRM, and the keys are live (R326, R327). -/
def execKaReply (s : State) : Result :=
  onFrame s 0x02 (fun _ f s =>
    match replyMember s f with
    | none => s
    | some (p, i) =>
      match memberOf (s.part p) i with
      | none => s
      | some m =>
        let bad := certFault s m (kaCert f.payload)
        let point := pointOf (kaPub f.payload)
        if bad ≠ 0 then agreementFail s p i bad
        else if point.isNone || !ecdsaVerify (certKey (kaCert f.payload)) (m.keys.hello ++ f.payload.take kaSize) (slice f.payload kaSize 96) then agreementFail s p i 1
        else
          let g := signIdentity s (m.keys.hello ++ f.payload)
          let z := ecdh (privKey m.keys.priv.toNat) point
          let secret := jobSecret (kaJob f.payload) (kaKeyid f.payload) s.place m.place (kaNonce m.keys.hello) (kaNonce f.payload) z
          let s := modKeysOf g.2 p i (fun k => newKeys k (kaKeyid f.payload) secret true)
          sendControl s 0x03 m.place 0 g.1)

/-- KA_CONFIRM: verified, and the keys are live (R326, R327). -/
def execKaConfirm (s : State) : Result :=
  onFrame s 0x03 (fun _ f s =>
    match confirmMember s f with
    | some (p, i) =>
      match memberOf (s.part p) i with
      | some m =>
        let z := ecdh (privKey m.keys.priv.toNat) (pointOf (kaPub m.keys.hello))
        let secret := jobSecret (kaJob m.keys.hello) (kaKeyid m.keys.hello) m.place s.place (kaNonce m.keys.hello) (kaNonce m.keys.reply) z
        modKeysOf s p i (fun k => newKeys k (kaKeyid m.keys.hello) secret false)
      | none => s
    | none =>
      match findMember s (fun _ m => m.2.place == f.src && m.2.keys.stage == 2) with
      | some (p, i) => agreementFail s p i 1
      | none => s)

/-- KA_RETRY_TIMEOUT (R331): three attempts 100 ms apart. -/
def execKaRetryTimeout (p : PartId) (i : Nat) (s : State) : Result :=
  match memberOf (s.part p) i with
  | some m =>
    if m.keys.stage = 0 then .next s else
    let s := s.reach (m.keys.sentAt + ms 100)
    if 3 ≤ m.keys.attempts then .next (agreementFail s p i 4)
    else
      let s := modKeysOf s p i (fun k => { k with attempts := k.attempts + 1, sentAt := s.now })
      .next (if m.keys.stage = 1 then sendControl s 0x01 m.place 0 m.keys.hello else sendControl s 0x02 m.place 0 m.keys.reply)
  | none => .next s

/-- A member that starts agreements with this one, or whose keys this one has torn down and has to agree anew (R326, R331). -/
def startsAgain (s : State) (m : Member) : Bool := starts s m || (m.keys.keyid != 0 && !m.keys.live)

/-- KA_RETRY_INTERVAL (R331): a failed agreement is tried again; the responder waits for its partner's message. -/
def execKaRetryInterval (p : PartId) (i : Nat) (s : State) : Result :=
  match memberOf (s.part p) i with
  | some m =>
    match m.keys.retryAt with
    | some t =>
      let s := modKeysOf (s.reach t) p i (fun k => { k with retryAt := none })
      .next (if startsAgain s m && agreesKeys (s.part p) then sendHello s p i else s)
    | none => .next s
  | none => .next s

/-- The count at which a direction changes its key. -/
def rekeyCount : Nat := 2 ^ 36

/-- JOB_KEY_REKEY (R329). -/
def execJobKeyRekey (p : PartId) (i : Nat) (s : State) : Result :=
  match memberOf (s.part p) i with
  | some m =>
    if m.keys.live && m.keys.stage = 0 && starts s m && (rekeyCount ≤ m.keys.txCount || rekeyCount ≤ m.keys.rxHigh) then .next (sendHello s p i) else .next s
  | none => .next s

/-- OLD_KEYID_EXPIRY (R329). -/
def execOldKeyidExpiry (p : PartId) (i : Nat) (s : State) : Result :=
  match (memberOf (s.part p) i).bind (fun m => m.keys.oldUntil) with
  | some t => .next (modKeysOf (s.reach t) p i (fun k => { k with old := none, oldUntil := none }))
  | none => .next s

/-- GCM_FAIL_TEARDOWN (R331): the 16 frames within 1 s tear the peer's keys down, and this member starts a new agreement, be its place the
higher (DESIGN CHOICE, log entry 90). -/
def execGcmFailTeardown (p : PartId) (i : Nat) (s : State) : Result :=
  match memberOf (s.part p) i with
  | some m =>
    if (m.keys.fails.filter (fun t => s.now < t + sec 1)).length < 16 then .next s else
    let s := (modKeysOf s p i (fun k => { PeerKeys.init with keyid := k.keyid })).event (peerSource s m.place) 0x0705 p.val (leBytes 2 m.place)
    .next (if agreesKeys (s.part p) then sendHello s p i else s)
  | none => .next s

/-! ## Opening job frames (R328, R329) -/

/-- The key, salt and highest counter under which a frame may be accepted. -/
def rxKeyOf (k : PeerKeys) (keyid : Nat) : Option (Bytes × Bytes × Nat) :=
  if k.live && k.keyid = keyid then some (k.rxKey, k.rxSalt, k.rxHigh)
  else match k.old with
    | some o => if o.1 = keyid then some (o.2.1, o.2.2.1, o.2.2.2) else none
    | none => none

/-- Keys after a frame is accepted; the first under the new KEYID starts the old one's last second. -/
def acceptKeys (now : Ns) (k : PeerKeys) (keyid counter : Nat) : PeerKeys :=
  if k.live && k.keyid = keyid then
    { k with rxHigh := counter, oldUntil := if k.old.isSome && k.oldUntil.isNone then some (now + sec 1) else k.oldUntil }
  else { k with old := k.old.map (fun o => (o.1, o.2.1, o.2.2.1, counter)) }

/-- A job frame that fails R329 is counted against its port and its sender. -/
def gcmFailed (s : State) (n : PortId) (w : Option (PartId × Nat)) : State :=
  let s := s.modLink n (fun l => { l with gcmFail := satAdd 8 l.gcmFail 1 })
  match w with
  | some (p, i) => modKeysOf s p i (fun k => { k with fails := (s.now :: k.fails.filter (fun t => s.now < t + sec 1)).take 16 })
  | none => s

/-- The member that a job frame comes from. DEDUCED, log entry 25. -/
def senderOf (s : State) (f : Frame) : Option (PartId × Nat) :=
  findMember s (fun x m => (x.job.map (fun j => j.job)) == some f.job && m.2.place == f.src)

/-- Open a job frame: its member and plaintext when R329 accepts it. -/
def openJob (s : State) (n : PortId) (f : Frame) : Option (PartId × Nat × Bytes) × State :=
  match senderOf s f with
  | none => (none, gcmFailed s n none)
  | some (p, i) =>
    match ((memberOf (s.part p) i).bind (fun m => rxKeyOf m.keys f.keyid)) with
    | none => (none, gcmFailed s n (some (p, i)))
    | some k =>
      match (if k.2.2 < f.counter then gcmOpen k.1 (jobNonce k.2.1 f.counter) (frameHeader f) f.payload f.tag else none) with
      | some pt => (some (p, i, pt), modKeysOf s p i (fun q => acceptKeys s.now q f.keyid f.counter))
      | none => (none, gcmFailed s n (some (p, i)))

/-- Frames of one sender are opened in the order of their arrival: the first job frame of each sender. -/
def firstOfSender (s : State) (e : PortId × Frame) : Bool :=
  (s.inbox.find? (fun g => frameClass g.2.typ == 1 && g.2.src == e.2.src && g.2.job == e.2.job)) == some e

/-- Take the oldest job frame of a type that is first of its sender and go on with it opened. -/
def onJobFrame (s : State) (typ : Nat) (f : PortId → Frame → PartId → Nat → Bytes → State → State) : Result :=
  match takeInbox s (fun e => e.2.typ == typ && firstOfSender s e) with
  | none => .next s
  | some (e, s) =>
    match openJob s e.1 e.2 with
    | (some (p, i, pt), s) => .next (f e.1 e.2 p i pt s)
    | (none, s) => .next s

/-! ## Rings (R332, R333) -/

/-- The declaration of a receive ring that a member sends into. -/
def ringOf (x : Part) (i ring : Nat) : Option RingDecl := x.image.bind (fun g => g.rings.find? (fun r => r.peer == i && r.ring == ring))

/-- Bank address of a slot. -/
def slotAddr (x : Part) (r : RingDecl) (slot : Nat) : Option Nat := clusterBankAddr x r.cluster r.bank (r.offset + slot * r.slotSize)

/-- Place a frame's bytes in the slot that its message takes; the last frame completes the message.
DESIGN CHOICE, log entry 91. -/
def placeFrame (s : State) (p : PartId) (r : RingDecl) (f : Frame) (pt : Bytes) : State :=
  match (s.part p).rings.find? (fun g => g.ring == r.ring) with
  | none => s
  | some g =>
    let here := match g.arriving with | some (m, n) => m == f.msg && n == f.offset | none => f.offset == 0 && g.full.length < r.slots
    match slotAddr (s.part p) r g.slot with
    | some a =>
      if !here || r.slotSize < f.offset + pt.length then s else
      let s := bankWrite s (a + f.offset) pt
      let len := f.offset + pt.length
      let g' := if bitOf f.fflags 0 then { g with slot := (g.slot + 1) % r.slots, full := g.full ++ [(g.slot, len)], arriving := none }
        else { g with arriving := some (f.msg, len) }
      s.modPart p (fun x => { x with rings := updFirst (fun h => h.ring == r.ring) (fun _ => g') x.rings })
    | none => s

/-- The partition's job is a mirror set, whose members exchange INGRESS_COPY and SNAPSHOT frames only (R325). DESIGN CHOICE, log entry 145. -/
def isMirror (x : Part) : Bool := x.job.any (fun j => j.mirror)

/-- JOB_DATA (R328, R329, R333). -/
def execJobData (s : State) : Result :=
  onJobFrame s 0x10 (fun _ f p i pt s =>
    match ringOf (s.part p) i f.ring with
    | some r => if isMirror (s.part p) then s else placeFrame s p r f pt
    | none => s)

/-- Slots of the ring of a number. DESIGN CHOICE, log entry 92. -/
def ringSlots (x : Part) (ring : Nat) : Nat := ((x.image.bind (fun g => g.rings.find? (fun r => r.ring == ring))).map (fun r => r.slots)).getD 0

/-- Send credits towards a member's ring: one per slot at first (R332). DESIGN CHOICE, log entry 92. -/
def creditOf (x : Part) (i ring : Nat) : Nat :=
  match x.credits.find? (fun c => c.peer == i && c.ring == ring) with
  | some c => c.credit
  | none => ringSlots x ring

def setCredit (x : Part) (i ring n : Nat) : Part :=
  { x with credits := { peer := i, ring := ring, credit := n } :: x.credits.filter (fun c => !(c.peer == i && c.ring == ring)) }

/-- The member whose ring a RING_CREDIT credits: of its source place, one that has credits out towards the ring first. DEDUCED, log entry 25. -/
def creditedMember (s : State) (f : Frame) : Option (PartId × Nat) :=
  let at_ := fun (x : Part) (m : Nat × Member) => m.2.place == f.src && !isMirror x
  (findMember s (fun x m => at_ x m && x.credits.any (fun c => c.peer == m.1 && c.ring == f.ring && c.credit < ringSlots x f.ring))).orElse
    (fun _ => findMember s at_)

/-- RING_CREDIT (R332). DEDUCED, log entry 25. -/
def execRingCredit (s : State) : Result :=
  onFrame s 0x05 (fun _ f s =>
    match creditedMember s f with
    | some (p, i) => s.modPart p (fun x => setCredit x i f.ring (creditOf x i f.ring + fieldAt f.payload 0 4))
    | none => s)

/-- Return one credit to a ring's sender, in a house turn, whose frames have JOB 0 (R322). DEDUCED, log entry 25. -/
def returnCredit (s : State) (p : PartId) (i ring : Nat) : State :=
  match memberOf (s.part p) i with
  | some m => sendFrame s none (newFrame s 0x05 m.place 0 0 0 0 ring (padTo 64 (leBytes 4 1)))
  | none => s

/-- A member with live keys. -/
def peerLive (x : Part) (i : Nat) : Bool := match memberOf x i with | some m => m.keys.live | none => false

/-- Send bytes as one message to a ring of a member, for one credit (R332, R333). -/
def linkSent (s : State) (p : PartId) (i ring : Nat) (bs : Bytes) : State :=
  (sendMessage s p i 0x10 ring (s.part p).msgNext bs).modPart p (fun x =>
    { setCredit x i ring (creditOf x i ring - 1) with msgNext := (x.msgNext + 1) % 2 ^ 32 })

/-- LINK_SEND (R332, R333): it waits for a credit and for the keys, and sends its frames. DESIGN CHOICE, log entry 94. -/
def linkSendSteps (d : Due) (s : State) : Engine EngineOut := do
  let r := d.record
  let ref := bankRefOf (recField r 24 4)
  let n := recField r 28 4
  let i := recField r 32 2
  let ring := recField r 34 1
  let x := s.part d.p
  let b ← transferBank s d ref n
  if creditOf x i ring = 0 || !peerLive x i || isMirror x then .error .wait else
  let marks := marksRead s.mem.bankPoison (bankAddr b ref.off / 64) (n / 64)
  return .done (linkSent (meetBank s (bankAddr b ref.off) n) d.p i ring (bankRead s (bankAddr b ref.off) n)) (moveBeats n) (if marks.any (fun m => m) then 2 else 0)

/-- The command just issued on a queue waits for the first hop's acknowledgement of its last frame. -/
def awaitHop (s t : State) (p : PartId) (q : Nat) : State :=
  if issuedOf (t.part p) q = issuedOf (s.part p) q then t
  else t.modPart p (fun x => { x with inflight := x.inflight.map (fun e =>
    if e.cls = 5 && e.queue = q && e.index + 1 = issuedOf x q && !e.walk then { e with awaiting := true, ticket := (s.part p).msgNext } else e) })

/-- DESIGN CHOICE, log entry 92. -/
def execLinkSend (p : PartId) (q : Nat) (s : State) : Result :=
  match runEngine s p q 5 0x0510 (fun d => handoverAt d.record 40 d.desc.inst) (fun d s => (linkSendSteps d s).out) with
  | .next t => .next (awaitHop s t p q)
  | r => r

/-- The oldest complete message of a ring has been taken: `rest` remain, and its slot's credit returns to the sender (R332). -/
def slotFreed (s : State) (p : PartId) (i ring : Nat) (rest : List (Nat × Nat)) : State :=
  returnCredit (s.modPart p (fun x => { x with rings := updFirst (fun h => h.ring == ring) (fun h => { h with full := rest }) x.rings })) p i ring

/-- LINK_RECV (R333, R340): the oldest complete message is copied, its slot freed and a credit returned. -/
def linkRecvSteps (d : Due) (s : State) : Engine EngineOut := do
  let r := d.record
  let ref := bankRefOf (recField r 24 4)
  let n := recField r 28 4
  let i := recField r 32 2
  let ring := recField r 34 1
  let x := s.part d.p
  let b ← transferBank s d { ref with observer := false } n
  match ringOf x i ring, x.rings.find? (fun g => g.ring == ring) with
  | some g, some rt =>
    match rt.full, rt.full.head?.bind (fun e => slotAddr x g e.1) with
    | e :: rest, some a =>
      let m := min n e.2
      let marks := marksRead s.mem.bankPoison (a / 64) (m / 64)
      let s := moveToBank (meetBank s a m) (bankAddr b ref.off) (padTo n (bankRead s a m)) marks
      return .done (slotFreed s d.p i ring rest) (moveBeats n) (if marks.any (fun m => m) then 2 else if n ≠ e.2 then 7 else 0)
    | _, _ => .error .wait
  | _, _ => .error .wait

def execLinkRecv (p : PartId) (q : Nat) (s : State) : Result :=
  runEngine s p q 5 0x0511 (fun d => handoverAt d.record 40 d.desc.inst) (fun d s => (linkRecvSteps d s).out)

/-! ## Ingress copies (R336) -/

/-- Change the copy bindings of a receive stream. -/
def modStream (s : State) (p : PartId) (n : Nat) (f : RxStream → RxStream) : State :=
  let old := (s.csi.streams.find? (fun r => r.part == p && r.stream == n)).getD { part := p, stream := n, copyTo := none, copyFrom := none }
  let rest := s.csi.streams.filter (fun r => !(r.part == p && r.stream == n))
  let new := f old
  s.modCsi (fun c => { c with streams := if new.copyTo.isNone && new.copyFrom.isNone then rest else new :: rest })

/-- LINK_INGRESS with ACTION 1. -/
def execLinkIngressCopy (s : State) : Result :=
  onDue s 0x6C (fun m => m.field 1 1 == 1) (fun t s =>
    answerBare (modStream s (t.part 0) (t.field 2 2) (fun r => { r with copyTo := some (t.field 4 2, t.field 6 2) })) t 0x00)

/-- LINK_INGRESS with ACTION 2. -/
def execLinkIngressBind (s : State) : Result :=
  onDue s 0x6C (fun m => m.field 1 1 == 2) (fun t s =>
    answerBare (modStream s (t.part 0) (t.field 2 2) (fun r => { r with copyFrom := some (t.field 4 2, t.field 6 2) })) t 0x00)

/-- LINK_INGRESS with ACTION 0xFF. -/
def execLinkIngressRemove (s : State) : Result :=
  onDue s 0x6C (fun m => m.field 1 1 == 0xFF) (fun t s =>
    answerBare (modStream s (t.part 0) (t.field 2 2) (fun r => { r with copyTo := none, copyFrom := none })) t 0x00)

/-- Land an INGRESS_COPY message on the stream bound to its sender and stream id. DESIGN CHOICE, log entry 56. -/
def landCopy (s : State) (p : PartId) (n : PortId) (src : Nat) (bs : Bytes) : State :=
  let x := s.part p
  match s.csi.streams.find? (fun r => r.part == p && r.copyFrom == some (src, fieldAt bs 32 2)) with
  | none => s
  | some r =>
    if !takesFrames s p then s else
    let e := journalOf (bs.take 32)
    let data := slice bs 64 e.length
    let buf := if bitOf e.flags 3 || (landingOf x r.stream).any (fun l => l.size < e.length) then none else freeBuffer x r.stream none
    let drop := buf.isNone
    let s := match buf, landingOf x r.stream with
      | some i, some l => (match bufferAddr x l i with | some a => bankWrite s a data | none => s)
      | _, _ => s
    let entry : JEntry := { e with
      seq := x.nextSeq
      port := 0x10 + n.val
      vc := 0
      frame := 0
      stream := r.stream
      buffer := buf
      flags := (if drop then e.flags ||| 8 else e.flags) ||| (16 * bit s.time.unsure)
      length := if drop then 0 else e.length
      pcrc := if drop then BitVec.ofNat 32 (crc32c []) else e.pcrc
      payload := if drop then none else some data
      marks := List.replicate (data.length / 64) false
      paired := !follows x }
    s.modPart p (fun x => pairAll { x with nextSeq := x.nextSeq + bit (!follows x), journal := x.journal ++ [entry] })

/-- A message after its next frame: offset 0 begins one, and a frame that does not follow the piece before it joins none.
DESIGN CHOICE, log entry 91. -/
def joinPiece (had : Option (Nat × Bytes)) (f : Frame) (pt : Bytes) : Option Bytes :=
  if f.offset = 0 then some pt
  else match had with
    | some (m, bs) => if m = f.msg && bs.length = f.offset then some (bs ++ pt) else none
    | none => none

/-- INGRESS_COPY: one frame is opened; the last of a message lands it. -/
def execIngressCopy (s : State) : Result :=
  onJobFrame s 0x11 (fun n f p _ pt s =>
    match joinPiece (s.part p).copyIn f pt with
    | none => s
    | some bs =>
      if bitOf f.fflags 0 then landCopy (s.modPart p (fun x => { x with copyIn := none })) p n f.src bs
      else s.modPart p (fun x => { x with copyIn := some (f.msg, bs) }))

end Sys2Proof.Machine
end

