-- ==== Sys2Proof/Machine/WindowUnit.lean ====
section
/-! DEFINITION. The window engine: geometry, padding, halo channels and the window commands (06 R161–R182). -/

namespace Sys2Proof.Machine

/-- Operands of DWCONV, WGATHER, POOL_MAX and POOL_MIN (06, "Window operand layout"). -/
structure Geo where
  inp   : TRef
  out   : TRef
  wgt   : TRef
  w     : Wdesc
  width : Nat
  ow    : Nat
  rows  : Nat
  orows : Nat
  c     : Nat
  kh    : Nat
  kw    : Nat
  sy    : Nat
  sx    : Nat
  dy    : Nat
  dx    : Nat
  top   : Int
  left  : Int
  mode  : Nat
  set   : Nat
  partialIn : Bool
  haloIn  : Bool
  haloOut : Bool
  inFmt : Nat
  wFmt  : Nat
  upsy  : Nat
  upsx  : Nat
  padc  : Nat
  deriving DecidableEq, Repr

def geoOf (r : CmdRecord) : Geo :=
  let g0 := recField r 40 8
  let g1 := recField r 48 8
  let g2 := recField r 60 4
  { inp := trefOf (recField r 24 4), out := trefOf (recField r 28 4), wgt := trefOf (recField r 32 4),
    w := wdescOf (recField r 36 4), width := bitsOf g0 13 0 + 1, ow := bitsOf g0 27 14 + 1, rows := bitsOf g0 39 28 + 1,
    orows := bitsOf g0 51 40 + 1, c := bitsOf g0 63 52 + 1, kh := bitsOf g1 3 0 + 1, kw := bitsOf g1 7 4 + 1,
    sy := bitsOf g1 11 8 + 1, sx := bitsOf g1 15 12 + 1, dy := bitsOf g1 23 16 + 1, dx := bitsOf g1 31 24 + 1,
    top := signedOf 12 (bitsOf g1 43 32), left := signedOf 12 (bitsOf g1 55 44), mode := bitsOf g1 57 56,
    set := bitsOf g1 60 58, partialIn := bitOf g1 61, haloIn := bitOf g1 62, haloOut := bitOf g1 63,
    inFmt := bitsOf g2 4 0, wFmt := bitsOf g2 9 5, upsy := bitsOf g2 12 10 + 1, upsx := bitsOf g2 15 13 + 1,
    padc := bitsOf g2 31 16 }

/-- Where a virtual position reads: a real row or column, an inserted zero, or padding (R162, R163). -/
inductive Spot where
  | real (i : Int)
  | inserted
  | padding
  deriving DecidableEq, Repr

/-- A virtual position inside the virtual input with insertion factor `ups`. -/
def spotOf (ups : Nat) (v : Int) : Spot := if v % ups = 0 then .real (v / ups) else .inserted

/-- Resolve position `v` in one direction: `n` is the virtual size, `lo` and `hi` the first and last virtual positions that
the input holds, halo rows counted; `loEdge`, `hiEdge` say which ends are image edges (R163, R168). -/
def resolve (mode ups : Nat) (n lo hi : Int) (loEdge hiEdge : Bool) (v : Int) : Spot :=
  if lo ≤ v && v ≤ hi then spotOf ups v
  else if mode < 2 then .padding
  else if mode = 2 then spotOf ups (max lo (min v hi))
  else if loEdge && hiEdge then
    if n = 1 then spotOf ups 0
    else
      let p := 2 * n - 2
      let j := v % p
      spotOf ups (if j < n then j else p - j)
  else if v < lo then spotOf ups (max lo (min (if loEdge then -v else lo) hi))
  else spotOf ups (max lo (min (if hiEdge then 2 * (n - 1) - v else hi) hi))

/-- A sample: its code, and whether it is poisoned. -/
structure Sample where
  raw : Nat
  bad : Bool
  deriving DecidableEq, Repr

/-- The value of a sample: a poisoned one is NaN (R182). -/
def Sample.num (fmt : Nat) (a : Sample) : Num := if a.bad then .nan else elemNum [] fmt a.raw

/-- The input of a window command: its plane, and the halo rows read from its channels (R169), items of `topItem` and `botItem` bytes; `key`
is what the elements that an item is too short for may depend on. -/
structure WinIn where
  pl   : Plane
  topPl : Plane
  botPl : Plane
  ht   : Nat
  hb   : Nat
  topItem : Nat
  botItem : Nat
  key  : List Nat

/-- Element `e` of a plane without scales. -/
def rawSample (pl : Plane) (fmt e : Nat) : Sample := { raw := elemRaw pl.rd fmt e, bad := elemBad pl fmt 0 e }

/-- Row `y` of the halo rows of one side, in items of `item` bytes. A row of the input that is longer than the item has free values after it:
no rule makes the two equal (DESIGN CHOICE, log entry 142). -/
def haloRow (pl : Plane) (item : Nat) (key : List Nat) (y : Nat) : Plane :=
  { rd := fun b => if b < item then pl.rd (y * item + b) else (Config.freeByte (key ++ [y, b])).toNat
    bad := fun b => b < item && pl.bad (y * item + b) }

/-- The sample of channel `c` at virtual row and column (R162–R164). -/
def winSample (g : Geo) (i : WinIn) (c : Nat) (vy vx : Int) : Sample :=
  let ny : Int := g.rows * g.upsy - (g.upsy - 1)
  let nx : Int := g.width * g.upsx - (g.upsx - 1)
  let row := resolve g.mode g.upsy ny (-((i.ht * g.upsy : Nat) : Int)) (((g.rows + i.hb : Nat) - 1 : Int) * g.upsy)
               (i.ht == 0) (i.hb == 0) vy
  let col := resolve g.mode g.upsx nx 0 (nx - 1) true true vx
  match row, col with
  | .padding, _ => { raw := if g.mode = 1 then g.padc else 0, bad := false }
  | _, .padding => { raw := if g.mode = 1 then g.padc else 0, bad := false }
  | .inserted, _ => { raw := 0, bad := false }
  | _, .inserted => { raw := 0, bad := false }
  | .real y, .real x =>
    if y < 0 then rawSample (haloRow i.topPl i.topItem (i.key ++ [0]) (y + i.ht).toNat) g.inFmt (c * g.width + x.toNat)
    else if g.rows ≤ y.toNat then rawSample (haloRow i.botPl i.botItem (i.key ++ [1]) (y.toNat - g.rows)) g.inFmt (c * g.width + x.toNat)
    else rawSample i.pl g.inFmt ((c * g.rows + y.toNat) * g.width + x.toNat)

/-- The sample of a tap (R162). -/
def tapSample (g : Geo) (i : WinIn) (c oy ox ky kx : Nat) : Sample :=
  winSample g i c ((oy * g.sy + ky * g.dy : Nat) - g.top) ((ox * g.sx + kx * g.dx : Nat) - g.left)

/-- The taps of a window in order: ky, then kx. -/
def taps (g : Geo) : List (Nat × Nat) := (List.range g.kh).flatMap (fun ky => (List.range g.kw).map (fun kx => (ky, kx)))

/-- The result positions in order: channel, row, column. -/
def positions (g : Geo) : List (Nat × Nat × Nat) :=
  (List.range g.c).flatMap (fun c => (List.range g.orows).flatMap (fun oy => (List.range g.ow).map (fun ox => (c, oy, ox))))

/-! ## Halo channels (R166–R169) -/

/-- Element width of a result format on a halo channel: an exact partial record is one element of 96 bytes (R166; 03 R79). -/
def haloBits (fmt : Nat) : Nat := if fmt = 31 then 768 else fmtBits fmt

/-- Bytes of a halo item of `c` channels of width `w` (R166). -/
def haloItem (c w fmt : Nat) : Nat := ceilDiv (c * w * haloBits fmt) 512 * 64

/-- The halo set that a command selects (R167). -/
def haloSetOf (x : Part) (core set : Nat) : Option HaloSet :=
  (layoutOf x).bind (fun l => l.haloSets.find? (fun h => h.core == core && h.set == set))

/-- Halo rows of a channel, 0 when absent. -/
def haloRows (x : Part) (c : Option Nat) : Nat :=
  match c.bind (chanDecl x) with
  | some d => d.halo.getD 0
  | none => 0

/-- Bytes of an item of a channel, as declared; 0 when absent. -/
def haloItemOf (x : Part) (c : Option Nat) : Nat :=
  match c.bind (chanDecl x) with
  | some d => d.item
  | none => 0

/-- Read every item of an inbound halo channel (R169): bytes, marks and the state after. -/
def haloFetch (s : State) (p : PartId) (c : Option Nat) (bytes : Nat) : Plane × State :=
  match c with
  | none => (bytesPlane [] [], s)
  | some c =>
    let x := s.part p
    (bytesPlane ((chanRt x c).bytes.take bytes) ((chanRt x c).poison.take (bytes / 64)), s.setPart p (chanTake x c bytes))

/-- The input of a command with its inbound halo rows, whole items of each channel, the beats HIN, and the state with both read. -/
def haloRead (d : Due) (g : Geo) (s : State) : Engine (WinIn × Nat × State) := do
  let x := s.part d.p
  let b ← coreBank s d g.inp.bank (planeBytes g.inFmt (g.c * g.rows * g.width)) g.inp.off
  let pl := bankPlane s b g.inp.off
  let hs := if g.haloIn then haloSetOf x d.desc.inst g.set else none
  let ht := haloRows x (hs.bind (·.topIn))
  let hb := haloRows x (hs.bind (·.bottomIn))
  let ti := haloItemOf x (hs.bind (·.topIn))
  let bi := haloItemOf x (hs.bind (·.bottomIn))
  gatherItems s d.p (((hs.bind (·.topIn)).toList.map (fun c => (c, ht * ti))) ++
    ((hs.bind (·.bottomIn)).toList.map (fun c => (c, hb * bi))))
  let s0 := meetBank s (bankAddr b g.inp.off) (planeBytes g.inFmt (g.c * g.rows * g.width))
  let (tp, s1) := haloFetch s0 d.p (hs.bind (·.topIn)) (ht * ti)
  let (bp, s2) := haloFetch s1 d.p (hs.bind (·.bottomIn)) (hb * bi)
  return ({ pl := pl, topPl := tp, botPl := bp, ht := ht, hb := hb, topItem := ti, botItem := bi, key := [d.record.toNat, x.step] },
    ht * ceilDiv ti 4096 + hb * ceilDiv bi 4096, s2)

/-- `item` free bytes. -/
def freeRow (key : List Nat) (item : Nat) : Bytes := (List.range item).map (fun i => Config.freeByte (key ++ [i]))

/-- Write result rows on an outbound halo channel: `rowBytes j` is what goes as item `j` with its marks, before the padding to whole
items (R166, R169); none where the result has no such row, whose item is then free (DESIGN CHOICE, log entry 142).
DESIGN CHOICE, log entry 50. -/
def haloSend (s : State) (p : PartId) (c : Option Nat) (key : List Nat) (rowBytes : Nat → Option (Bytes × Bool)) : Engine (Nat × State) :=
  match c with
  | none => .ok (0, s)
  | some c =>
    let x := s.part p
    match chanDecl x c with
    | none => .error .wait
    | some h =>
      let n := h.halo.getD 0
      let rows := (List.range n).map (fun j => (rowBytes j).getD (freeRow (key ++ [c, j]) h.item, false))
      .ok (n * ceilDiv h.item 4096,
           s.setPart p (rows.foldl (fun y r => chanPut y c (padTo h.item r.1) (List.replicate (h.item / 64) r.2)) x))

/-- The outbound halo rows of a command: `row r` is result row `r`, the first TO on the top-out and the last BO on the bottom-out channel. What the neighbour has not accepted yet keeps the command from its
completion (R169). DESIGN CHOICE, log entry 142. -/
def haloWrite (d : Due) (g : Geo) (row : Nat → Bytes × Bool) (s : State) : Engine (Nat × State) := do
  let x := s.part d.p
  let hs := if g.haloOut then haloSetOf x d.desc.inst g.set else none
  let bo := haloRows x (hs.bind (·.bottomOut))
  let key := [d.record.toNat, x.step]
  let (a, s1) ← haloSend s d.p (hs.bind (·.topOut)) key (fun j => if j < g.orows then some (row j) else none)
  let (b, s2) ← haloSend s1 d.p (hs.bind (·.bottomOut)) key (fun j => if bo ≤ j + g.orows then some (row (j + g.orows - bo)) else none)
  return (a + b, s2)

/-- The items that a command before wrote to the outbound channels have been accepted (04 R100). -/
def haloRoom (d : Due) (g : Geo) (s : State) : Engine Unit :=
  let x := s.part d.p
  match (if g.haloOut then haloSetOf x d.desc.inst g.set else none) with
  | none => .ok ()
  | some h =>
    if (match h.topOut with | some c => chanRoom x c | none => true) &&
       (match h.bottomOut with | some c => chanRoom x c | none => true) then .ok () else .error .wait

/-! ## DWCONV (R174) -/

/-- T, r and E of the work-beat formulas. -/
def tiles (ow : Nat) : Nat := ceilDiv ow 256
def fp32Rate (g : Geo) : Nat := if g.inFmt = 1 || g.wFmt = 1 then 4 else 1
def outBeats (w : Wdesc) : Nat := if w.fmt = 31 then 6 else 1

/-- The lane of one result position. -/
def dwLane (g : Geo) (i : WinIn) (wp : Plane) (pos : Nat × Nat × Nat) : Lane :=
  (taps g).foldl (fun l t =>
    l.mulAdd ((tapSample g i pos.1 pos.2.1 pos.2.2 t.1 t.2).num g.inFmt)
      ((rawSample wp g.wFmt ((pos.1 * g.kh + t.1) * g.kw + t.2)).num g.wFmt)) Lane.start

/-- Whether a halo item that the command read is poisoned (R169, R182). -/
def haloBad (i : WinIn) : Bool :=
  (List.range (i.ht * i.topItem / 64)).any (fun w => i.topPl.bad (64 * w)) ||
  (List.range (i.hb * i.botItem / 64)).any (fun w => i.botPl.bad (64 * w))

/-- Whether any tap, or any halo item, meets a poisoned word. -/
def tapsBad (g : Geo) (i : WinIn) : Bool :=
  haloBad i || (positions g).any (fun q => (taps g).any (fun t => (tapSample g i q.1 q.2.1 q.2.2 t.1 t.2).bad))

/-- Row `oy` of a result whose element codes, in result order, are written by `enc`. -/
def resultRow (g : Geo) (fmt : Nat) (code : Nat → Nat) (oy : Nat) : Bytes :=
  packPlane fmt ((List.range g.c).flatMap (fun c => (List.range g.ow).map (fun ox => code ((c * g.orows + oy) * g.ow + ox))))

def dwconvSteps (d : Due) (s : State) : Engine EngineOut := do
  let g := geoOf d.record
  let x := s.part d.p
  let n := g.c * g.orows * g.ow
  let ob ← coreBank s d g.out.bank (max (lanesExtent g.w n) (if g.partialIn then 96 * n else 0)) g.out.off
  let wb ← coreBank s d g.wgt.bank (planeBytes g.wFmt (g.c * g.kh * g.kw)) g.wgt.off
  haloRoom d g s
  let (i, hin, s1) ← haloRead d g s
  let wp := bankPlane s wb g.wgt.off
  let pp := bankPlane s ob g.out.off
  let recs := if g.partialIn then (List.range n).map (planeRecord pp) else []
  let lanes := ((positions g).map (dwLane g i wp)).mapIdx (fun e l => l.join (recs.getD e (Lane.start, 0)).1)
  let rand := elemRandom x d.record
  let out := writeLanes g.w rand lanes
  let codes := lanes.mapIdx (fun e l => writeScalar g.w (rand e) l.value)
  let (hout, s2) ← haloWrite d g (fun r =>
      (if g.w.fmt = 31 then ((List.range g.c).flatMap (fun c => (List.range g.ow).flatMap (fun ox =>
          (lanes.getD ((c * g.orows + r) * g.ow + ox) Lane.start).record)))
       else resultRow g g.w.fmt (fun e => codes.getD e 0) r, false)) s1
  let err := joinErr (poisonErr (tapsBad g i || planeBad wp g.wFmt (g.c * g.kh * g.kw))) (recs.foldl (fun e r => joinErr e r.2) 0)
  let s3 := meetBank s2 (bankAddr wb g.wgt.off) (planeBytes g.wFmt (g.c * g.kh * g.kw))
  let s4 := if g.partialIn then meetBank s3 (bankAddr ob g.out.off) (96 * n) else s3
  return .done (storeResult s4 d g.out 0 out)
    (12 + g.c * g.orows * tiles g.ow * (g.kh * g.kw * fp32Rate g + outBeats g.w + (if g.partialIn then 6 else 0)) + hin + hout) err
where
  poisonErr (b : Bool) : Nat := if b then 2 else 0

/-- The handover descriptor of a window command (R173). -/
def winHandover (d : Due) : Option Handover := handoverAt d.record 56 (d.desc.inst / 8)

def execDwconv (p : PartId) (q : Nat) (s : State) : Result :=
  runEngine s p q 3 0x0300 winHandover (fun d s => (dwconvSteps d s).out)

/-! ## WGATHER (R176) -/

/-- The patch samples of one row m of A. -/
def patchRow (g : Geo) (i : WinIn) (m : Nat) : List Sample :=
  (List.range g.c).flatMap (fun c => (taps g).map (fun t => tapSample g i c (m / g.ow) (m % g.ow) t.1 t.2))

/-- Marks of the 64-byte words that poisoned elements of a packed run touch. -/
def packedMarks (fmt : Nat) (ss : List Sample) (words : Nat) : List Bool :=
  let w := fmtBits fmt
  (List.range words).map (fun k =>
    (List.range (512 / w + 2)).any (fun j =>
      let e := k * 512 / w + j
      (ss.getD e { raw := 0, bad := false }).bad && (e * w / 512 == k || (e * w + w - 1) / 512 == k)))

/-- Row `r` of a WGATHER that goes out on a halo channel: the manual gives the size of its item and not its elements, so its bytes are free
values of the command, the step and the row's samples. DESIGN CHOICE, log entry 50. -/
def gatherHalo (d : Due) (g : Geo) (i : WinIn) (step r : Nat) : Bytes :=
  freeRow (d.record.toNat :: step :: r :: ((List.range g.ow).flatMap (fun ox => (patchRow g i (r * g.ow + ox)).map (·.raw))))
    (haloItem g.c g.ow g.inFmt)

/-- The samples of the patch matrix, row by row. -/
def patchSamples (g : Geo) (i : WinIn) : List Sample := (List.range (g.orows * g.ow)).flatMap (patchRow g i)

/-- Bytes of the patch matrix, whole words. -/
def patchBytes (g : Geo) : Nat := round64 (planeBytes g.inFmt (g.orows * g.ow * (g.c * g.kh * g.kw)))

/-- Store the patch matrix with its marks, a poisoned element as 0: in its bank, or as whole words on its channel (R176, R182). -/
def patchStore (s : State) (d : Due) (g : Geo) (ss : List Sample) : State :=
  let bs := padTo (patchBytes g) (packPlane g.inFmt (ss.map (fun a => if a.bad then 0 else a.raw)))
  let marks := packedMarks g.inFmt ss (patchBytes g / 64)
  if g.out.kind = 0 then
    match physBank s (s.part d.p) (d.desc.inst / 8) (4 * (d.desc.inst % 8) + g.out.bank) with
    | some b => moveToBank s (bankAddr b g.out.off) bs marks
    | none => s
  else s.setPart d.p (chanPut (s.part d.p) (g.out.off % 4096) bs marks)

/-- DESIGN CHOICE, log entry 50. -/
def wgatherSteps (d : Due) (s : State) : Engine EngineOut := do
  let g := geoOf d.record
  sinkReady s d g.out (patchBytes g)
  haloRoom d g s
  let (i, hin, s1) ← haloRead d g s
  let ss := patchSamples g i
  let (hout, s2) ← haloWrite d g (fun r => (gatherHalo d g i (s.part d.p).step r, false)) s1
  return .done (patchStore s2 d g ss)
    (12 + g.orows * ceilDiv (g.ow * (g.c * g.kh * g.kw) * fmtBits g.inFmt) 32768 + hin + hout) (if haloBad i || ss.any (·.bad) then 2 else 0)

def execWgather (p : PartId) (q : Nat) (s : State) : Result :=
  runEngine s p q 3 0x0301 winHandover (fun d s => (wgatherSteps d s).out)

/-! ## POOL_MAX and POOL_MIN (R177) -/

/-- Exact order of two values that are not NaN. -/
def numLt (a b : Num) : Bool :=
  match a, b with
  | .inf s, .inf t => s && !t
  | .inf s, .fin _ _ _ => s
  | .fin _ _ _, .inf t => !t
  | .fin s m e, .fin t n f =>
    let k := min e f
    signed s m * 2 ^ (e - k).toNat < signed t n * 2 ^ (f - k).toNat
  | _, _ => false

/-- The sample selected among the taps: the first with the largest (or smallest) value; NaN when any is NaN. -/
def poolPick (isMax : Bool) (fmt : Nat) (ss : List Sample) : Option Sample :=
  if ss.any (fun a => a.num fmt == .nan) then none
  else match ss with
    | [] => none
    | a :: as => some (as.foldl (fun b c => if (if isMax then numLt (b.num fmt) (c.num fmt) else numLt (c.num fmt) (b.num fmt)) then c else b) a)

/-- The code written for a selected sample: as an exact value; a −0 stays when the formats are equal (DEDUCED, log entry 14). An infinity
under OVF 0 saturates as 03 R83 says, also when the formats are equal, where R177 calls the sample unchanged (DESIGN CHOICE, log entry
135). -/
def poolCode (g : Geo) (r : Nat) (a : Option Sample) : Nat :=
  match a with
  | none => writeScalar g.w r .nan
  | some a =>
    if g.w.fmt = g.inFmt && a.num g.inFmt == Num.fin true 0 (match elemNum [] g.inFmt a.raw with | .fin _ _ e => e | _ => 0) then a.raw
    else writeScalar g.w r (a.num g.inFmt).value

def poolSteps (isMax : Bool) (d : Due) (s : State) : Engine EngineOut := do
  let g := geoOf d.record
  let x := s.part d.p
  let n := g.c * g.orows * g.ow
  let _ ← coreBank s d g.out.bank (planeBytes g.w.fmt n) g.out.off
  haloRoom d g s
  let (i, hin, s1) ← haloRead d g s
  let codes := ((positions g).map (fun q =>
      poolPick isMax g.inFmt ((taps g).map (fun t => tapSample g i q.1 q.2.1 q.2.2 t.1 t.2)))).mapIdx
        (fun e a => poolCode g (elemRandom x d.record e) a)
  let (hout, s2) ← haloWrite d g (fun r => (resultRow g g.w.fmt (fun e => codes.getD e 0) r, false)) s1
  return .done (storeResult s2 d g.out 0 (packPlane g.w.fmt codes))
    (12 + g.c * g.orows * tiles g.ow * (g.kh * g.kw + 1) + hin + hout) (if tapsBad g i then 2 else 0)

def execPoolMax (p : PartId) (q : Nat) (s : State) : Result :=
  runEngine s p q 3 0x0302 winHandover (fun d s => (poolSteps true d s).out)

def execPoolMin (p : PartId) (q : Nat) (s : State) : Result :=
  runEngine s p q 3 0x0303 winHandover (fun d s => (poolSteps false d s).out)

/-! ## GLOBAL_AVG (R178) -/

/-- The exact quotient of a lane's value by the divisor (0: none). -/
def divideBy (n : Nat) (v : OutVal) : OutVal :=
  match v with
  | .num s a b => .num s a (if n = 0 then b else b * n)
  | o => o

def globalAvgSteps (d : Due) (s : State) : Engine EngineOut := do
  let r := d.record
  let x := s.part d.p
  let inp := trefOf (recField r 24 4)
  let out := trefOf (recField r 28 4)
  let pref := trefOf (recField r 32 4)
  let w := wdescOf (recField r 36 4)
  let p := recField r 40 4
  let divisor := recField r 44 4
  let c := recField r 48 2 + 1
  let fmt := recField r 50 1
  let nsrc := recField r 51 1
  let ib ← coreBank s d inp.bank (planeBytes fmt (c * p)) inp.off
  let _ ← coreBank s d out.bank (lanesExtent w c) out.off
  let (pp, s1) ← (if nsrc = 0 then .ok (bytesPlane [] [], s) else do
    let b ← coreBank s d pref.bank (96 * c * nsrc) pref.off
    return (bankPlane s b pref.off, meetBank s (bankAddr b pref.off) (96 * c * nsrc)))
  let pl := bankPlane s ib inp.off
  let recs := fun ch => (List.range nsrc).map (fun i => planeRecord pp (i * c + ch))
  let lanes := (List.range c).map (fun ch =>
    let own := (List.range p).foldl (fun l e => l.add ((rawSample pl fmt (ch * p + e)).num fmt)) Lane.start
    (recs ch).foldl (fun l a => l.join a.1) own)
  let err := joinErr (if (List.range (c * p)).any (fun e => (rawSample pl fmt e).bad) then 2 else 0)
    ((List.range c).foldl (fun e ch => (recs ch).foldl (fun e a => joinErr e a.2) e) 0)
  let bs := if w.fmt = 31 then lanes.flatMap Lane.record
    else planeOut (writeOut w (elemRandom x r) (lanes.map (fun l => divideBy divisor l.value)))
  return .done (storeResult (meetBank s1 (bankAddr ib inp.off) (planeBytes fmt (c * p))) d out 0 bs)
    (12 + c * ceilDiv p 256 + ceilDiv c 256 * (6 * nsrc + outBeats w + (if divisor = 0 then 0 else 4))) err

def execGlobalAvg (p : PartId) (q : Nat) (s : State) : Result :=
  runEngine s p q 3 0x0304 winHandover (fun d s => (globalAvgSteps d s).out)

/-! ## ARGMAX_CH (R179, R180) -/

/-- A running choice of a pixel: index, sample and NaN flag. -/
structure Choice where
  idx : Nat
  val : Sample
  nan : Bool
  deriving DecidableEq, Repr

/-- Rank a later channel against the running choice: only a strictly higher rank takes its place. -/
def argStep (fmt : Nat) (a : Option Choice) (idx : Nat) (v : Sample) : Option Choice :=
  let vn := v.num fmt == .nan
  match a with
  | none => some { idx := idx, val := v, nan := vn }
  | some c => if !c.nan && (vn || numLt (c.val.num fmt) (v.num fmt)) then some { idx := idx, val := v, nan := vn } else some c

/-- The code the value plane receives: bit for bit, or the format's NaN, or 0, for a poisoned sample (R179, R182).
DESIGN CHOICE, log entry 144. -/
def argCode (fmt : Nat) (v : Sample) : Nat :=
  if v.bad then (match floatFmt fmt with | some f => f.nan.getD 0 | none => 0) else v.raw

/-- Bytes of `n` flags, bit j of byte k for pixel 8k + j. -/
def flagBytes (fs : List Bool) : Bytes :=
  (List.range (ceilDiv fs.length 8)).map (fun k =>
    BitVec.ofNat 8 ((List.range 8).foldl (fun v j => v + bit (fs.getD (8 * k + j) false) * 2 ^ j) 0))

/-- Operands of ARGMAX_CH (R179). -/
structure ArgArgs where
  inp    : TRef
  idx    : TRef
  val    : TRef
  flg    : TRef
  px     : Nat
  c      : Nat
  cbase  : Nat
  fmt    : Nat
  chain  : Bool
  hasVal : Bool
  hasFlg : Bool
  deriving DecidableEq, Repr

def argArgs (r : CmdRecord) : ArgArgs :=
  { inp := trefOf (recField r 24 4), idx := trefOf (recField r 28 4), val := trefOf (recField r 32 4), flg := trefOf (recField r 36 4),
    px := recField r 40 4, c := recField r 44 2 + 1, cbase := recField r 46 2, fmt := recField r 48 1, chain := bitOf (recField r 49 1) 0,
    hasVal := recField r 32 4 != 0, hasFlg := recField r 36 4 != 0 }

/-- The choice that a command of a chain takes over for a pixel: what the planes hold (R180). A poisoned index makes the value the format's NaN
and a poisoned flag makes the choice NaN; both end the command with error 0x02. The table of R182 names samples, weights, halo items and
records, not these words: DESIGN CHOICE, log entry 144. -/
def argBefore (g : ArgArgs) (vp xp fp : Plane) (px : Nat) : Option Choice :=
  if g.chain then
    let v := rawSample vp g.fmt px
    let i := rawSample xp 17 px
    some { idx := i.raw, val := { v with bad := v.bad || i.bad },
           nan := v.num g.fmt == .nan || (g.hasFlg && (fp.bad (px / 8) || bitOf (fp.rd (px / 8)) (px % 8))) }
  else none

/-- The channel that ranks first at a pixel (R179). -/
def argPick (g : ArgArgs) (pl vp xp fp : Plane) (px : Nat) : Choice :=
  ((List.range g.c).foldl (fun a ch => argStep g.fmt a (g.cbase + ch) (rawSample pl g.fmt (ch * g.px + px))) (argBefore g vp xp fp px)).getD
    { idx := 0, val := { raw := 0, bad := false }, nan := false }

/-- A poisoned word is met (R182). DESIGN CHOICE, log entry 144. -/
def argBad (g : ArgArgs) (pl vp xp fp : Plane) : Bool :=
  (List.range (g.c * g.px)).any (fun e => (rawSample pl g.fmt e).bad) ||
  (g.chain && (List.range g.px).any (fun px => (rawSample vp g.fmt px).bad || (rawSample xp 17 px).bad || (g.hasFlg && fp.bad (px / 8))))

/-- The bit errors that the reads of an ARGMAX_CH meet. -/
def argMeets (s : State) (g : ArgArgs) (ib xb vb fb : Fin 288) : State :=
  let s := meetBank s (bankAddr ib g.inp.off) (planeBytes g.fmt (g.c * g.px))
  let s := if g.chain then meetBank (meetBank s (bankAddr xb g.idx.off) (2 * g.px)) (bankAddr vb g.val.off) (planeBytes g.fmt g.px) else s
  if g.chain && g.hasFlg then meetBank s (bankAddr fb g.flg.off) (ceilDiv g.px 8) else s

/-- The planes written: indices, and where they are named values and NaN flags (R179). -/
def argStore (s : State) (d : Due) (g : ArgArgs) (picks : List Choice) : State :=
  let s := storeResult s d g.idx 0 (packPlane 17 (picks.map (·.idx)))
  let s := if g.hasVal then storeResult s d g.val 0 (packPlane g.fmt (picks.map (fun a => argCode g.fmt a.val))) else s
  if g.hasFlg then storeResult s d g.flg 0 (flagBytes (picks.map (fun a => a.nan && (floatFmt g.fmt).any (fun f => f.nan.isSome)))) else s

def argmaxSteps (d : Due) (s : State) : Engine EngineOut := do
  let g := argArgs d.record
  let ib ← coreBank s d g.inp.bank (planeBytes g.fmt (g.c * g.px)) g.inp.off
  let xb ← coreBank s d g.idx.bank (2 * g.px) g.idx.off
  let vb ← (if g.hasVal then coreBank s d g.val.bank (planeBytes g.fmt g.px) g.val.off else .ok ib)
  let fb ← (if g.hasFlg then coreBank s d g.flg.bank (ceilDiv g.px 8) g.flg.off else .ok ib)
  let pl := bankPlane s ib g.inp.off
  let vp := bankPlane s vb g.val.off
  let xp := bankPlane s xb g.idx.off
  let fp := bankPlane s fb g.flg.off
  return .done (argStore (argMeets s g ib xb vb fb) d g ((List.range g.px).map (argPick g pl vp xp fp)))
    (12 + ceilDiv g.px 256 * (g.c + 4)) (if argBad g pl vp xp fp then 2 else 0)

def execArgmaxCh (p : PartId) (q : Nat) (s : State) : Result :=
  runEngine s p q 3 0x0305 winHandover (fun d s => (argmaxSteps d s).out)

end Sys2Proof.Machine
end

