-- ==== Sys2Proof/Machine/CommandChecks.lean ====
section
/-! DEFINITION. What the loader checks of one command (result code 0x40): the record's fields (02 R47) and the operands of
each opcode (03 R80, R88; 04 R109; 05 R141; 06 R168, R172, R173, R178, R183; 07 R185, R193, R196; 09 R258; 10 R281, R283; 12
R332). -/

namespace Sys2Proof.Machine

/-- Where a command stands: the image, its layout, its queue and the die of each logical cluster. -/
structure Site where
  img : Image
  lay : Layout
  desc : QueueDesc
  die : Nat → Nat

/-- The channel of a number in a layout. -/
def Site.chan (t : Site) (c : Nat) : Option Channel := t.lay.channels.find? (fun h => h.chan == c)

/-! ## Fields of the record (R47) -/

/-- Byte offset of the handover descriptor of an opcode, where its operands give it one (05 R131). -/
def handoverPlace (op : Nat) : Option Nat :=
  if op = 0x0100 || op = 0x0101 || op = 0x0200 then some 53
  else if 0x0300 ≤ op && op ≤ 0x0305 then some 56
  else if [0x0500, 0x0501, 0x0502, 0x0510, 0x0511, 0x0512, 0x0513, 0x0601, 0x0602, 0x0700, 0x0701].contains op then some 40
  else none

/-- Opcodes with a random site at bytes 56–59 that may have RANDOM set. -/
def randomAllowed (op : Nat) : Bool := [0x0100, 0x0101, 0x0300, 0x0301, 0x0302, 0x0303, 0x0304].contains op

/-- The UNIT values that go with an owner code: a port, a die, or 0 (05 R130). -/
def unitOk (owner unit : Nat) : Bool := if owner == 6 || owner == 7 then unit < 16 else if owner == 8 then unit < 2 else unit == 0

/-- A handover descriptor names a bank, an owner and a unit (05 R130, R131). -/
def handoverOk (w : Nat) : Bool :=
  bitsOf w 5 0 ≤ 35 && 1 ≤ bitsOf w 9 6 && bitsOf w 9 6 ≤ 8 && unitOk (bitsOf w 9 6) (bitsOf w 13 10) && bitsOf w 23 14 == 0

/-- Bytes `off` to `off + n - 1` of a record are zero. -/
def recZero (r : CmdRecord) (off n : Nat) : Bool := recField r off n == 0

/-- A class has an instance of a number in a partition of `k` clusters (02 R41). -/
def instanceOk (cls inst k : Nat) : Bool :=
  if 1 ≤ cls && cls ≤ 4 then inst < 8 * k else if cls = 5 then inst < k else if cls = 6 then inst < 2 else cls == 7 && inst < 1024

/-- A vector command, whose operand layout the manual does not give. DESIGN CHOICE, log entry 16. -/
def vectorOp (cls op : Nat) : Bool := cls == 4 && op < 0xFF00

/-- The fields that every command has. The random site and the handover descriptor of a vector command are not in the manual:
its RANDOM is held to its queue alone. DESIGN CHOICE, log entry 16. -/
def headerOk (t : Site) (r : CmdRecord) : Bool :=
  let op := recOpcode r
  recClass r == t.desc.cls && recZero r 3 1 && recFlags r < 32 && waitTally r < 16384 && sigTally r < 16384 &&
  (!sigEn r || 1 ≤ sigInc r) && instanceOk t.desc.cls t.desc.inst t.img.clusters &&
  (!randomEn r || ((randomAllowed op || vectorOp t.desc.cls op) && t.desc.random)) &&
  (vectorOp t.desc.cls op ||
    (match handoverPlace op with
     | some off => if handoverEn r then handoverOk (recField r off 3) else off == 56 || recZero r off 3
     | none => !handoverEn r))

/-! ## References -/

/-- A tensor reference to a bank region of `n` bytes, or to a channel whose items `n` is a multiple of; `out` says that the
command writes it (04 R103, R109). -/
def trefOk (t : Site) (w n : Nat) (chanAllowed out : Bool) : Bool :=
  let r := trefOf w
  w < 2 ^ 25 &&
  (match r.kind with
   | 0 => r.off % 64 == 0 && r.off + n ≤ bankSize
   | 1 => chanAllowed && r.off < 4096 && r.bank == 0 &&
          (match t.chan r.off with
           | some c => n % c.item == 0 && (if out then c.writer == ⟨t.desc.cls, t.desc.inst⟩ else c.reader == ⟨t.desc.cls, t.desc.inst⟩)
           | none => false)
   | _ => false)

/-- The byte count of an operand or result of `n` bytes: in a channel a block-scaled one ends with zeros up to a multiple
of 64 (04 R104). -/
def chanBytes (fmt w n : Nat) : Nat := if (trefOf w).kind = 1 && isBlock fmt then round64 n else n

/-- Two bank regions meet. -/
def trefMeets (a : Nat) (n : Nat) (b : Nat) (m : Nat) : Bool :=
  let x := trefOf a
  let y := trefOf b
  x.kind == 0 && y.kind == 0 && x.bank == y.bank && meets x.off n y.off m

/-- A bank reference of `n` bytes (05 R141). -/
def bankRefOk (w n : Nat) (observerAllowed : Bool) : Bool :=
  w < 2 ^ 28 && bitsOf w 26 21 ≤ 35 && bitsOf w 20 0 % 64 == 0 && bitsOf w 20 0 + n ≤ bankSize && (observerAllowed || !bitOf w 27)

/-- A video bank reference of `n` bytes; `wraps` allows a region past cluster bank 3 (09 R256; 10 R281, R283). -/
def vrefOk (t : Site) (w n : Nat) (wraps : Bool) : Bool :=
  w < 2 ^ 26 && bitsOf w 20 0 % 64 == 0 && bitsOf w 25 23 < t.img.clusters && (wraps || !vrefPast (vrefOf w) n)

/-! ## Tables (03 R73, R91; 04 R109) -/

/-- A codebook entry: zero, or a normal BF16 value of magnitude 2^-16 to below 2^8 (R73). -/
def codeEntryOk (v : Nat) : Bool := v % 32768 == 0 || (111 ≤ bitsOf v 14 7 && bitsOf v 14 7 ≤ 134)

/-- The codebook that a command names, once, with the entries of its format. -/
def codebookOk (img : Image) (fmt id : Nat) : Bool :=
  if fmt = 19 || fmt = 20 then
    match img.tables.filter (fun b => b.kind == 1 && b.id == id) with
    | [b] => b.count == (if fmt = 19 then 16 else 64) && b.entries.all codeEntryOk
    | _ => false
  else id == 0

/-- Entries of a curve table (03 R92). -/
def curvePoints (id : Nat) : Nat := if id = 3 then 2050 else 1025

/-- A curve record: the ENTRIES of its curve, no NaN and no infinity, one record per curve (R91). -/
def curveOk (img : Image) (id : Nat) : Bool :=
  match img.tables.filter (fun b => b.kind == 2 && b.id == id) with
  | [] => true
  | [b] => b.count == curvePoints id && b.entries.length == b.count && b.entries.all (fun e => bitsOf e 30 23 != 255)
  | _ => false

/-! ## Write-out -/

/-- A write-out descriptor with its RANDOM flag (R80, R88). -/
def wdescFits (r : CmdRecord) (w : Wdesc) : Bool := wdescOk w && (w.rnd != 2 || randomEn r)

/-- MX formats as results: the elements come in blocks of 32 (04 R109). -/
def mxOut (w : Wdesc) (n : Nat) : Bool := !(9 ≤ w.fmt && w.fmt ≤ 12) || n % 32 == 0

/-! ## Tensor class (04 R105–R109) -/

def inputFormat (f : Nat) : Bool := (1 ≤ f && f ≤ 17) || f == 19 || f == 20

/-- MATMUL (`groups` none) and GROUPED_MATMUL. -/
def matOk (t : Site) (r : CmdRecord) (groups : Option Nat) : Bool :=
  let g := matArgs r
  let gs := groups.getD 1
  let each := fun (n : Nat) => if gs = 1 then n else (gs - 1) * round64 n + n
  let na := each (extent g.aFmt (g.m * g.k))
  let nb := each (extent g.bFmt (g.n * g.k))
  let nc := each (lanesExtent g.w (g.m * g.n))
  inputFormat g.aFmt && inputFormat g.bFmt && 1 ≤ g.m && 1 ≤ g.n && g.k ≤ 16777216 && (1 ≤ g.k || g.partialIn) &&
  codebookOk t.img g.aFmt g.aTab && codebookOk t.img g.bFmt g.bTab && recField r 52 1 < 2 &&
  (!isBlock g.aFmt || g.k % 32 == 0) && (!isBlock g.bFmt || g.k % 32 == 0) &&
  wdescFits r g.w && mxOut g.w g.n && (handoverEn r || recZero r 53 3) && (randomEn r || recZero r 56 4) &&
  trefOk t (recField r 24 4) (chanBytes g.aFmt (recField r 24 4) na) true false && trefOk t (recField r 28 4) (chanBytes g.bFmt (recField r 28 4) nb) true false &&
  trefOk t (recField r 32 4) (chanBytes g.w.fmt (recField r 32 4) nc) true true &&
  !trefMeets (recField r 32 4) nc (recField r 24 4) na && !trefMeets (recField r 32 4) nc (recField r 28 4) nb &&
  (match groups with
   | some n => !g.partialIn && 1 ≤ n && recField r 62 2 == 0
   | none =>
     if g.partialIn then trefOk t g.tail (96 * g.m * g.n) true false && !trefMeets (recField r 32 4) nc g.tail (96 * g.m * g.n)
     else g.tail == 0)

def reduceOk (t : Site) (r : CmdRecord) : Bool :=
  let w := wdescOf (recField r 28 4)
  let n := bitsOf (recField r 32 4) 23 0
  let k := bitsOf (recField r 32 4) 26 24
  let nc := lanesExtent w n
  1 ≤ n && 2 ≤ k && bitsOf (recField r 32 4) 31 27 == 0 && wdescOk w && w.rnd != 2 && mxOut w n &&
  trefOk t (recField r 24 4) (chanBytes w.fmt (recField r 24 4) nc) true true &&
  (List.range 7).all (fun i =>
    let a := recField r (36 + 4 * i) 4
    if i < k then trefOk t a (96 * n) true false && !trefMeets (recField r 24 4) nc a (96 * n) else a == 0)

/-! ## Attention class (07 R185, R193, R196) -/

def attnOk (t : Site) (r : CmdRecord) : Bool :=
  let a := attnArgs r
  let rows := a.g * a.npos
  let tr := 2 * halfBytes a.kvFmt a.d
  let nq := planeBytes a.qFmt (rows * a.d)
  let no := if a.finish then lanesExtent a.w (rows * a.d) else rows * stateBytes a.d
  let nkv := ceilDiv a.nk (max 1 a.tpp) * 65536
  let nx := 64 + (if a.stateIn then rows * stateBytes a.d else 0)
  1 ≤ a.nk && 1 ≤ a.g && a.g ≤ 16 && 1 ≤ a.npos && a.npos ≤ 4096 && 16 ≤ a.d && a.d ≤ 256 && recField r 47 1 < 16 && recField r 47 1 % 4 != 3 &&
  16 ≤ a.tpp && a.tpp % 16 == 0 && a.tpp ≤ 65536 / tr / 16 * 16 && recField r 50 2 < 16 && recZero r 52 1 && !randomEn r &&
  a.g * a.d ≤ 2048 && (!isBlock a.kvFmt || a.d % 32 == 0) && (a.finish || a.nk % 16 == 0) &&
  bitsOf (recField r 56 4) 30 23 != 255 &&
  (if a.finish then wdescOk a.w && 1 ≤ a.w.fmt && a.w.fmt ≤ 5 && a.w.rnd != 2 else recZero r 36 4) && curveOk t.img 0 &&
  trefOk t (recField r 24 4) nq true false && trefOk t (recField r 28 4) nkv false false && trefOk t (recField r 32 4) no true true &&
  trefOk t (recField r 60 4) nx false false &&
  !trefMeets (recField r 32 4) no (recField r 24 4) nq && !trefMeets (recField r 32 4) no (recField r 28 4) nkv &&
  !trefMeets (recField r 32 4) no (recField r 60 4) nx

/-! ## Window class (06 R168, R172, R173, R178, R183) -/

/-- The formats of window operands. -/
def windowFormat (f : Nat) : Bool := (1 ≤ f && f ≤ 8) || (13 ≤ f && f ≤ 17)

/-- A halo channel of a set in a layout, with its halo rows. -/
def Site.haloRows (t : Site) (c : Option Nat) : Int := ((c.bind t.chan).bind (fun h => h.halo)).getD 0

/-- The halo channels that a command uses have at most 4,094 halo rows (R172). -/
def haloFits (t : Site) (g : Geo) (h : Option HaloSet) : Bool :=
  let ok := fun (c : Option Nat) => decide (t.haloRows c ≤ 4094)
  (!g.haloIn || (ok (h.bind (fun s => s.topIn)) && ok (h.bind (fun s => s.bottomIn)))) &&
  (!g.haloOut || (ok (h.bind (fun s => s.topOut)) && ok (h.bind (fun s => s.bottomOut))))

/-- The taps stay within the halo rows (R168). -/
def haloReach (t : Site) (g : Geo) (h : Option HaloSet) : Bool :=
  let topIn := if g.haloIn then h.bind (fun s => s.topIn) else none
  let botIn := if g.haloIn then h.bind (fun s => s.bottomIn) else none
  let lo : Int := -g.top
  let hi : Int := ((g.orows : Int) - 1) * g.sy - g.top + ((g.kh : Int) - 1) * g.dy
  let first : Int := -(t.haloRows topIn) * g.upsy
  let last : Int := ((g.rows : Int) - 1 + t.haloRows botIn) * g.upsy
  (topIn.isNone || first ≤ lo) && (botIn.isNone || hi ≤ last) &&
  (g.mode != 3 ||
    ((!(topIn.isNone && botIn.isSome) || g.top ≤ last) &&
     (!(topIn.isSome && botIn.isNone) || first ≤ 2 * ((g.rows : Int) - 1) * g.upsy - hi)))

/-- DWCONV, WGATHER, POOL_MAX and POOL_MIN. -/
def windowOk (t : Site) (r : CmdRecord) (op : Nat) : Bool :=
  let g := geoOf r
  let dw := op == 0x0300
  let gather := op == 0x0301
  let nt := g.kh * g.kw
  let ni := planeBytes g.inFmt (g.c * g.rows * g.width)
  let no := if gather then round64 (planeBytes g.inFmt (g.orows * g.ow * g.c * nt)) else lanesExtent g.w (g.c * g.orows * g.ow)
  let nw := planeBytes g.wFmt (g.c * nt)
  let h := t.lay.haloSets.find? (fun s => s.core == t.desc.inst && s.set == g.set)
  let item := haloItem g.c g.ow (if gather then g.inFmt else g.w.fmt)
  let recs := if g.partialIn then 96 * (g.c * g.orows * g.ow) else 0
  let outOk := fun (c : Option Nat) => match c.bind t.chan with | some k => k.item == item | none => true
  windowFormat g.inFmt && (if dw then windowFormat g.wFmt else recField r 32 4 == 0 && g.wFmt == 0 && !g.partialIn) &&
  g.kh ≤ 15 && g.kw ≤ 15 && g.sy ≤ 15 && g.sx ≤ 15 && g.dy ≤ 255 && g.dx ≤ 255 && (g.mode == 1 || g.padc == 0) && g.padc < 2 ^ (min 16 (fmtBits g.inFmt)) &&
  (if gather then recZero r 36 4 else wdescFits r g.w && g.w.fmt ≤ 31 && !(9 ≤ g.w.fmt && g.w.fmt ≤ 12) && (dw || g.w.fmt != 31)) &&
  !(handoverEn r && randomEn r) && (handoverEn r || randomEn r || recZero r 56 4) && (!handoverEn r || recZero r 59 1) &&
  ((!g.haloIn && !g.haloOut) || h.isSome) && haloFits t g h && haloReach t g h &&
  (!g.haloOut || (outOk (h.bind (fun s => s.topOut)) && outOk (h.bind (fun s => s.bottomOut)))) &&
  trefOk t (recField r 24 4) ni false false && trefOk t (recField r 28 4) no gather true &&
  trefOk t (recField r 28 4) recs gather true && (!dw || trefOk t (recField r 32 4) nw false false) &&
  !trefMeets (recField r 28 4) no (recField r 24 4) ni && (!dw || !trefMeets (recField r 28 4) no (recField r 32 4) nw)

def globalAvgOk (t : Site) (r : CmdRecord) : Bool :=
  let w := wdescOf (recField r 36 4)
  let p := recField r 40 4
  let dv := recField r 44 4
  let c := recField r 48 2 + 1
  let fmt := recField r 50 1
  let ns := recField r 51 1
  let ni := planeBytes fmt (c * p)
  let no := lanesExtent w c
  windowFormat fmt && 1 ≤ p && p ≤ 16777216 && dv ≤ 16777216 && (if w.fmt = 31 then dv == 0 else dv != 0) && c ≤ 4096 && ns ≤ 7 &&
  recZero r 52 4 && recZero r 60 4 && wdescFits r w && !(9 ≤ w.fmt && w.fmt ≤ 12) && !(handoverEn r && randomEn r) &&
  (handoverEn r || randomEn r || recZero r 56 4) && (!handoverEn r || recZero r 59 1) &&
  trefOk t (recField r 24 4) ni false false && trefOk t (recField r 28 4) no false true &&
  (if ns = 0 then recZero r 32 4 else trefOk t (recField r 32 4) (96 * c * ns) false false && !trefMeets (recField r 28 4) no (recField r 32 4) (96 * c * ns)) &&
  !trefMeets (recField r 28 4) no (recField r 24 4) ni

def argmaxOk (t : Site) (r : CmdRecord) : Bool :=
  let p := recField r 40 4
  let c := recField r 44 2 + 1
  let fmt := recField r 48 1
  let ni := planeBytes fmt (c * p)
  let outs := [(recField r 28 4, 2 * p)] ++ (if recZero r 32 4 then [] else [(recField r 32 4, planeBytes fmt p)]) ++
    (if recZero r 36 4 then [] else [(recField r 36 4, ceilDiv p 8)])
  windowFormat fmt && 1 ≤ p && p ≤ 16777216 && recField r 46 2 + c ≤ 65536 && recField r 49 1 < 2 && recZero r 50 6 && recZero r 60 4 && !randomEn r &&
  (handoverEn r || recZero r 56 4) && (!handoverEn r || recZero r 59 1) && (recField r 49 1 == 0 || !recZero r 32 4) &&
  trefOk t (recField r 24 4) ni false false && outs.all (fun o => trefOk t o.1 o.2 false true && !trefMeets o.1 o.2 (recField r 24 4) ni) &&
  (recField r 49 1 == 0 || outs.Pairwise (fun a b => !trefMeets a.1 a.2 b.1 b.2))

/-! ## Transfer, video and stream classes -/

def lengthOk (n low high unit_ : Nat) : Bool := low ≤ n && n ≤ high && n % unit_ == 0

def transferOk (t : Site) (r : CmdRecord) (op : Nat) : Bool :=
  !randomEn r &&
  (match op with
   | 0x0500 => lengthOk (recField r 36 4) 64 2097152 64 && bankRefOk (recField r 24 4) (recField r 36 4) false && recField r 28 8 % 64 == 0 &&
      recField r 28 8 + recField r 36 4 ≤ partSpace && recZero r 43 21
   | 0x0501 => lengthOk (recField r 36 4) 64 2097152 64 && bankRefOk (recField r 24 4) (recField r 36 4) true && recField r 28 8 % 64 == 0 &&
      recField r 28 8 + recField r 36 4 ≤ partSpace && recZero r 43 21
   | 0x0502 =>
      let n := recField r 32 4
      let a := bankRefOf (recField r 24 4)
      let b := bankRefOf (recField r 28 4)
      lengthOk n 64 2097152 64 && bankRefOk (recField r 24 4) n true && bankRefOk (recField r 28 4) n false && recZero r 36 4 && recZero r 43 21 &&
      !(a.bank == b.bank && meets a.off n b.off n)
   | 0x0503 => recZero r 24 4 && recField r 28 8 % 32768 == 0 && lengthOk (recField r 36 4) 32768 1073741824 32768 &&
      recField r 28 8 + recField r 36 4 ≤ partSpace && recZero r 40 24
   | 0x0510 => bankRefOk (recField r 24 4) (recField r 28 4) true && recZero r 35 5 && recZero r 43 21 &&
      t.img.rings.any (fun g => g.ring == recField r 34 1 && lengthOk (recField r 28 4) 64 g.slotSize 64)
   | 0x0511 => bankRefOk (recField r 24 4) (recField r 28 4) false && lengthOk (recField r 28 4) 64 2097152 64 && recZero r 35 5 && recZero r 43 21 &&
      t.img.rings.any (fun g => g.ring == recField r 34 1 && g.peer == recField r 32 2)
   | 0x0512 => bankRefOk (recField r 24 4) (recField r 28 4) false && lengthOk (recField r 28 4) 65536 2097152 65536 && recZero r 43 21
   | 0x0513 => bankRefOk (recField r 24 4) (recField r 28 4) true && lengthOk (recField r 28 4) 65536 2097152 65536 && recZero r 43 21
   | 0xFF01 =>
      let core := bitOf (recField r 29 1) 0
      recField r 24 4 % 64 == 0 && recField r 24 4 + 512 ≤ bankSize && recField r 28 1 ≤ 3 && recField r 29 1 < 2 && recZero r 32 32 &&
      (if core then recField r 30 2 / 8 == t.desc.inst else recZero r 30 2)
   | _ => false)

def videoOk (t : Site) (r : CmdRecord) (op : Nat) : Bool :=
  let here := fun (w : Nat) => t.die (bitsOf w 25 23) == t.desc.inst
  !randomEn r && recField r 43 1 < ((t.img.video[t.desc.inst]?).map (fun v => v.contexts)).getD 0 &&
  (match op with
   | 0x0600 => vrefOk t (recField r 24 4) 64 true && here (recField r 24 4) && recZero r 28 15 && recZero r 44 20
   | 0x0601 => [24, 28, 32].all (fun o => vrefOk t (recField r o 4) 0 true && here (recField r o 4)) && recZero r 36 4 && recField r 44 1 < 4 &&
      recZero r 45 3 && recZero r 52 12
   | 0x0602 => [24, 28, 32].all (fun o => vrefOk t (recField r o 4) 0 true && here (recField r o 4)) && recZero r 36 4 &&
      (recField r 44 1 == 0 || recField r 44 1 == 4) && recZero r 45 19
   | _ => false)

/-- A declared stream of a direction. -/
def declares (img : Image) (stream : Nat) (transmit : Bool) : Bool := img.streams.any (fun d => d.stream == stream && d.transmit == transmit)

def streamOk (t : Site) (r : CmdRecord) (op : Nat) : Bool :=
  !randomEn r &&
  (match op with
   | 0x0700 => lengthOk (recField r 32 4) 64 8388608 64 && vrefOk t (recField r 24 4) (recField r 32 4) false && vrefOk t (recField r 28 4) 64 false &&
      recZero r 38 2 && recZero r 43 21 && t.img.streams.any (fun d => d.stream == recField r 36 2)
   | 0x0701 => lengthOk (recField r 28 4) 1 8388608 1 && vrefOk t (recField r 24 4) (recField r 28 4) false && recZero r 34 6 && recZero r 43 21 &&
      t.img.streams.any (fun d => d.stream == recField r 32 2)
   | _ => false)

/-- A command passes its checks of result code 0x40. The vector class has no operand layout in the manual: its contract
fields are checked, and the curve tables, each of which any of its commands may use (DESIGN CHOICE, log entry 16). -/
def commandOk (t : Site) (r : CmdRecord) : Bool :=
  let op := recOpcode r
  headerOk t r &&
  (if op = 0xFF00 then recZero r 24 40
   else match t.desc.cls with
    | 1 => (match op with
        | 0x0100 => matOk t r none
        | 0x0101 => matOk t r (some (recField r 60 2))
        | 0x0102 => !randomEn r && reduceOk t r
        | _ => false)
    | 2 => op == 0x0200 && attnOk t r
    | 3 => if 0x0300 ≤ op && op ≤ 0x0303 then windowOk t r op else if op = 0x0304 then globalAvgOk t r else op == 0x0305 && argmaxOk t r
    | 4 => 0x0400 ≤ op && op ≤ 0x0FFF && (List.range 7).all (fun c => curveOk t.img c)
    | 5 => transferOk t r op
    | 6 => videoOk t r op
    | 7 => streamOk t r op
    | _ => false)

/-- A walk record (07 R206). DESIGN CHOICE, log entry 149. -/
def walkOk (img : Image) (r : WalkRecord) : Bool :=
  let kind := walkField r 0 1
  let count := walkField r 8 1
  let hr := walkField r 30 2
  let n := if kind = 1 then count * pageSize else count * 2 * hr
  (kind == 1 || kind == 2) && walkField r 1 1 < 4 && walkField r 2 2 < 16384 && 1 ≤ count && (kind == 2 || count ≤ 32) &&
  (kind == 1 || walkField r 6 2 == 0) && walkField r 9 1 < 8 && walkField r 10 2 < 16384 && walkField r 24 2 < 16384 &&
  bankRefOk (walkField r 12 4) n false && (if bitOf (walkField r 9 1) 2 then handoverOk (walkField r 26 3) else walkField r 26 3 == 0) &&
  (match img.kv with | some k => walkField r 29 1 * 16 == k.tpp && walkField r 4 2 < k.lists | none => false)

end Sys2Proof.Machine
end

