-- ==== Sys2Proof/Machine/BankOrder.lean ====
section
/-! DEFINITION. The loader's ownership checks within a step (05 R128, R134, R141, R486; 02 R485; 09 R258; 10 R281, R283): what each
command and walk record of a step kind addresses, which of them the turn lists and tally waits put before which, and who owns
a bank at a command's point. -/

namespace Sys2Proof.Machine

/-! ## Masters and handovers -/

/-- The partition has slots of a video engine: those that its image declares or those that it holds (09 R246, R248). -/
def engineSlots (s : State) (p : PartId) (img : Image) (d : DieId) : Bool :=
  ((img.video[d.val]?).any (fun v => 1 ≤ v.minSlots)) || (s.engine d).owners.toList.contains (some p)

/-- A bank may be owned by a master (05 R128, R130): a CSI-2 port only where it carries a stream of the partition in its direction, a
video engine only on its die and where the partition has slots of it. A partition that takes ingress copies may give banks to gather under
any UNIT (DESIGN CHOICE, log entry 145). -/
def ownerAllowed (s : State) (p : PartId) (img : Image) (bank owner unit_ : Nat) (die : Option DieId) : Bool :=
  if bank < 32 then owner ≤ 5 && unit_ == 0
  else match owner with
    | 0 => unit_ == 0
    | 5 => unit_ == 0
    | 6 => s.csi.bindings.any (fun b => b.part == p && !b.transmit && b.port.val == unit_) || (unit_ < 16 && s.csi.streams.any (fun r => r.part == p && r.copyFrom.isSome))
    | 7 => s.csi.bindings.any (fun b => b.part == p && b.transmit && b.port.val == unit_)
    | 8 => (match die with | some d => unit_ == d.val && engineSlots s p img d | none => false)
    | _ => false

/-- A bank of a logical cluster. -/
structure BankKey where
  cluster : Nat
  bank    : Nat
  deriving DecidableEq, Repr

/-- A master: owner code and unit. -/
structure Master where
  owner : Nat
  unit  : Nat
  deriving DecidableEq, Repr

/-- Bytes of a bank. -/
structure Region where
  key : BankKey
  off : Nat
  n   : Nat
  deriving DecidableEq, Repr

def Region.meets (a b : Region) : Bool := a.key == b.key && Machine.meets a.off a.n b.off b.n

/-- A bank handed over to a master. -/
structure Gift where
  key : BankKey
  taker  : Master
  deriving DecidableEq, Repr

/-- The handover descriptor of 24 bits in a logical cluster (05 R131). -/
def giftOf (lc w : Nat) : Gift := { key := ⟨lc, bitsOf w 5 0⟩, taker := ⟨bitsOf w 9 6, bitsOf w 13 10⟩ }

/-- The logical cluster of a command's handover (05 R131). -/
def giftCluster (d : QueueDesc) (r : CmdRecord) : Nat :=
  match d.cls with
  | 5 => d.inst
  | 6 => bitsOf (recField r 28 4) 25 23
  | 7 => bitsOf (recField r 24 4) 25 23
  | _ => d.inst / 8

/-- What a command hands over. -/
def giftFor (d : QueueDesc) (r : CmdRecord) : Option Gift :=
  if handoverEn r then (handoverPlace (recOpcode r)).map (fun off => giftOf (giftCluster d r) (recField r off 3)) else none

/-! ## What a command addresses -/

/-- The tensor references that a core's command reads. -/
def readRefs (r : CmdRecord) : List Nat :=
  let f := fun (o : Nat) => recField r o 4
  let unlessZero := fun (o : Nat) => if recZero r o 4 then [] else [f o]
  match recOpcode r with
  | 0x0100 => [f 24, f 28] ++ (if bitOf (recField r 52 1) 0 then [f 60] else [])
  | 0x0101 => [f 24, f 28]
  | 0x0102 => (List.range (bitsOf (f 32) 26 24)).map (fun i => f (36 + 4 * i))
  | 0x0200 => [f 24, f 28, f 60]
  | 0x0300 => [f 24, f 32]
  | 0x0304 => f 24 :: (if recZero r 51 1 then [] else [f 32])
  | 0x0305 => [f 24]
  | op => if 0x0301 ≤ op && op ≤ 0x0303 then f 24 :: unlessZero 32 else []

/-- The tensor references that it writes, each with its bytes. -/
def writeRefs (r : CmdRecord) : List (Nat × Nat) :=
  let f := fun (o : Nat) => recField r o 4
  match recOpcode r with
  | 0x0100 => [(f 32, lanesExtent (matArgs r).w ((matArgs r).m * (matArgs r).n))]
  | 0x0101 =>
    let n := lanesExtent (matArgs r).w ((matArgs r).m * (matArgs r).n)
    [(f 32, (recField r 60 2 - 1) * round64 n + n)]
  | 0x0102 => [(f 24, lanesExtent (wdescOf (f 28)) (bitsOf (f 32) 23 0))]
  | 0x0200 =>
    let a := attnArgs r
    [(f 32, if a.finish then lanesExtent a.w (a.g * a.npos * a.d) else a.g * a.npos * stateBytes a.d)]
  | 0x0304 => [(f 28, lanesExtent (wdescOf (f 36)) (recField r 48 2 + 1))]
  | 0x0305 =>
    let p := f 40
    [(f 28, 2 * p)] ++ (if recZero r 32 4 then [] else [(f 32, planeBytes (recField r 48 1) p)]) ++
      (if recZero r 36 4 then [] else [(f 36, ceilDiv p 8)])
  | op =>
    if 0x0300 ≤ op && op ≤ 0x0303 then
      let g := geoOf r
      [(f 28, if op = 0x0301 then round64 (planeBytes g.inFmt (g.orows * g.ow * g.c * (g.kh * g.kw))) else lanesExtent g.w (g.c * g.orows * g.ow))]
    else []

/-- The bank of a tensor reference of a logical core; none for a channel (04 R103). -/
def trefBank (j w : Nat) : Option BankKey :=
  if (trefOf w).kind = 0 then some ⟨j / 8, 4 * (j % 8) + (trefOf w).bank⟩ else none

/-- The bank references of a transfer command: place of the reference, bytes, and whether it is written (05 R141; 12 R332). -/
def transferRefs (r : CmdRecord) : List (Nat × Nat × Bool) :=
  match recOpcode r with
  | 0x0500 => [(recField r 24 4, recField r 36 4, true)]
  | 0x0501 => [(recField r 24 4, recField r 36 4, false)]
  | 0x0502 => [(recField r 24 4, recField r 32 4, false), (recField r 28 4, recField r 32 4, true)]
  | 0x0510 => [(recField r 24 4, recField r 28 4, false)]
  | 0x0511 => [(recField r 24 4, recField r 28 4, true)]
  | 0x0512 => [(recField r 24 4, recField r 28 4, true)]
  | 0x0513 => [(recField r 24 4, recField r 28 4, false)]
  | _ => []

def bankRegion (lc w n : Nat) : Region := { key := ⟨lc, (bankRefOf w).bank⟩, off := (bankRefOf w).off, n := n }

/-- The region that SIZE_COPY writes (02 R47). -/
def sizeRegion (lc : Nat) (r : CmdRecord) : Region :=
  { key := ⟨lc, if bitOf (recField r 29 1) 0 then 4 * (recField r 30 2 % 8) + recField r 28 1 % 4 else 32 + recField r 28 1 % 4⟩
    off := recField r 24 4, n := 512 }

/-- What a run of bytes from an offset of a cluster bank covers of the cluster's four banks (09 R256). -/
def spanRegions (lc bank off n : Nat) : List Region :=
  let start := bank * bankSize + off
  (List.range 4).filterMap (fun b =>
    let lo := max start (b * bankSize)
    let hi := min (start + max 1 n) ((b + 1) * bankSize)
    if lo < hi then some { key := ⟨lc, 32 + b⟩, off := lo - b * bankSize, n := hi - lo } else none)

/-- What a region from a video bank reference covers. -/
def videoRegions (w n : Nat) : List Region := spanRegions (bitsOf w 25 23) (bitsOf w 22 21) (bitsOf w 20 0) n

/-- What a frame command writes at the least, whatever its context: the head of a payload or the smallest picture, and the result record
(09 R250, R257, R264, R265). DEDUCED, log entry 23. -/
def videoWrites (r : CmdRecord) : List Region :=
  let out := if recOpcode r = 0x0601 then 64 else 6144
  if recOpcode r = 0x0601 || recOpcode r = 0x0602 then videoRegions (recField r 28 4) out ++ videoRegions (recField r 32 4) 64 else []

/-- What a frame command may write, whatever its context: a payload of the largest access unit (09 R250, R265), and pictures and statistics
planes up to the end of cluster bank 3 (09 R256). DEDUCED, log entry 23. -/
def videoReach (r : CmdRecord) : List Region :=
  let all := 4 * bankSize
  if recOpcode r = 0x0601 || recOpcode r = 0x0602 then
    videoRegions (recField r 28 4) (if recOpcode r = 0x0601 then 4194368 else all) ++ videoRegions (recField r 32 4) all
  else []

/-- A command or walk record of a step kind as the checks see it. `owned` are the banks that its master must own at its first
work beat, `seen` what it reads through an observer port, `reach` what it may write besides `writes` where it owns the bank, `kept` the
destination of a GATHER, `turn` the logical cluster of the transfer engine that takes it. `code` is the owner code of its master
(0: none), also where no binding gives the master's port. -/
structure Act where
  queue  : Nat
  index  : Nat
  waits  : Option (Nat × Nat)
  adds   : Option (Nat × Nat)
  gift   : Option Gift
  code   : Nat
  master : Option Master
  owned  : List BankKey
  seen   : List Region
  writes : List Region
  reach  : List Region
  kept   : List BankKey
  turn   : Option Nat
  deriving DecidableEq, Repr

/-- A command. The port of a stream comes from its binding, the engine of a video queue from its instance; the vector class
has no operand layout in the manual. DEDUCED, log entry 23. -/
def actOf (s : State) (p : PartId) (d : QueueDesc) (i : Nat) (r : CmdRecord) : Act :=
  let base : Act :=
    { queue := d.queue, index := i, waits := if waitEn r then some (waitTally r, waitValue r) else none,
      adds := if sigEn r then some (sigTally r, sigInc r) else none, gift := giftFor d r,
      code := 0, master := none, owned := [], seen := [], writes := [], reach := [], kept := [], turn := if d.cls = 5 then some d.inst else none }
  let port := fun (o : Nat) (t : Bool) => (bindingOf s p (recField r o 2) t).map (fun b => b.port.val)
  match d.cls with
  | 5 =>
    if recOpcode r = 0xFF01 then
      { base with code := 5, master := some ⟨5, 0⟩, owned := [(sizeRegion d.inst r).key], writes := [sizeRegion d.inst r] }
    else
      let refs := transferRefs r
      { base with
        code := 5
        master := some ⟨5, 0⟩
        owned := (refs.filter (fun a => a.2.2 || !(bankRefOf a.1).observer)).map (fun a => (bankRegion d.inst a.1 a.2.1).key)
        seen := (refs.filter (fun a => !a.2.2 && (bankRefOf a.1).observer)).map (fun a => bankRegion d.inst a.1 a.2.1)
        writes := (refs.filter (fun a => a.2.2)).map (fun a => bankRegion d.inst a.1 a.2.1) }
  | 6 =>
    let refs := if recOpcode r = 0x0600 then [recField r 24 4] else if recOpcode r = 0xFF00 then [] else [recField r 24 4, recField r 28 4, recField r 32 4]
    { base with
      code := 8
      master := some ⟨8, d.inst⟩
      owned := refs.map (fun w => ⟨bitsOf w 25 23, 32 + bitsOf w 22 21⟩)
      writes := videoWrites r
      reach := videoReach r }
  | 7 =>
    match recOpcode r with
    | 0x0700 =>
      let ds := videoRegions (recField r 24 4) (recField r 32 4)
      let rs := videoRegions (recField r 28 4) 64
      { base with code := 6, master := (port 36 false).map (fun u => ⟨6, u⟩), owned := (ds ++ rs).map (fun g => g.key), writes := ds ++ rs, kept := ds.map (fun g => g.key) }
    | 0x0701 => { base with
        code := 7
        master := (port 32 true).map (fun u => ⟨7, u⟩)
        owned := (videoRegions (recField r 24 4) (recField r 28 4)).map (fun g => g.key) }
    | _ => base
  | 4 => { base with code := 4, master := some ⟨4, 0⟩ }
  | c => { base with
      code := c
      master := some ⟨c, 0⟩
      owned := (readRefs r ++ (writeRefs r).map (fun a => a.1)).filterMap (trefBank d.inst)
      writes := (writeRefs r).filterMap (fun a => (trefBank d.inst a.1).map (fun k => { key := k, off := (trefOf a.1).off, n := a.2 })) }

/-- Walk lists stand behind the queues, by logical cluster and number. -/
def walkQueue (lc i : Nat) : Nat := 65536 * (lc + 1) + i

/-- A walk record (07 R206). DEDUCED, log entry 23. -/
def actOfWalk (lc list i : Nat) (r : WalkRecord) : Act :=
  let stage := walkField r 0 1 == 1
  let n := if stage then walkField r 8 1 * pageSize else walkField r 8 1 * (2 * walkField r 30 2)
  let g := bankRegion lc (walkField r 12 4) n
  { queue := walkQueue lc list, index := i, waits := if bitOf (walkField r 9 1) 0 then some (walkField r 10 2, walkField r 16 8) else none,
    adds := if bitOf (walkField r 9 1) 1 then some (walkField r 24 2, 1) else none,
    gift := if bitOf (walkField r 9 1) 2 then some (giftOf lc (walkField r 26 3)) else none,
    code := 5, master := some ⟨5, 0⟩, owned := [g.key], seen := [], writes := if stage then [g] else [], reach := [], kept := [], turn := some lc }

/-- Queue descriptors in ascending number, each number once. -/
def queuesInOrder (img : Image) : List QueueDesc :=
  img.queues.foldr (fun d ds => (ds.takeWhile (fun e => e.queue < d.queue)) ++ d :: (ds.dropWhile (fun e => e.queue < d.queue)).filter (fun e => e.queue != d.queue)) []


/-- The commands of a kind in ascending queue and index (02 R61), then its walk records. -/
def actsOf (s : State) (p : PartId) (img : Image) (k : KindPlan) : List Act :=
  (queuesInOrder img).flatMap (fun d => (((k.lists.find? (fun l => l.queue == d.queue)).map (fun l => l.cmds)).getD []).mapIdx (actOf s p d)) ++
  (List.range 8).flatMap (fun lc => ((planWalks k lc).mapIdx (fun i rs => rs.mapIdx (actOfWalk lc i))).flatten)

/-! ## Order (05 R486) -/

/-- Take the turns of an instance from position `pos`: `left` holds what each queue or walk list has issued and how many it has; an
exhausted one is passed over (02 R44), a KV turn takes all its records (07 R206). -/
def issueOrder (queues : List Nat) : Nat → Nat → List (Nat × Nat × Nat) → List (Nat × Nat)
  | 0, _, _ => []
  | fuel + 1, pos, left =>
    let slots := (List.range queues.length).map (fun i => (pos + i) % queues.length)
    let open_ := fun (q : Nat) => (left.find? (fun e => e.1 == q)).any (fun e => e.2.1 < e.2.2)
    match slots.find? (fun i => open_ (queues.getD i 0)) with
    | none => []
    | some i =>
      let q := queues.getD i 0
      let at_ := ((left.find? (fun e => e.1 == q)).map (fun e => e.2)).getD (0, 0)
      let n := if (kvTurn q).isSome then at_.2 - at_.1 else 1
      (List.range n).map (fun j => (q, at_.1 + j)) ++
        issueOrder queues fuel (i + 1) (left.map (fun e => if e.1 == q then (q, at_.1 + n, e.2.2) else e))

/-- The issue order of every instance of a kind; walk records stand at their KV turns (07 R206). -/
def threads (k : KindPlan) : List (List (Nat × Nat)) :=
  k.turns.map (fun t =>
    let count := fun (e : Nat) => match kvTurn e with
      | some i => if t.cls = 5 then ((planWalks k t.inst).getD i []).length else 0
      | none => ((k.lists.find? (fun l => l.queue == e)).map (fun l => l.cmds.length)).getD 0
    (issueOrder t.queues ((t.queues.eraseDups.map count).sum) 0 (t.queues.eraseDups.map (fun e => (e, 0, count e)))).map
      (fun a => match kvTurn a.1 with | some i => (walkQueue t.inst i, a.2) | none => a))

/-- The positions in `acts` that are issued directly before an act. -/
def issuedBefore (k : KindPlan) (acts : List Act) (a : Act) : List Nat :=
  let at_ := fun (b : Act) (q i : Nat) => b.queue == q && b.index == i
  let issued := (threads k).filterMap (fun th => ((th.zip th.tail).find? (fun e => at_ a e.2.1 e.2.2)).map (fun e => e.1))
  (List.range acts.length).filter (fun j => (acts[j]?).any (fun b => issued.any (fun e => at_ b e.1 e.2)))

/-- The acts on whose signal act `i` must have waited, under an order known so far: without act `j`, those that come after it and those
that come after `i`, the adds of the step do not reach the amount. -/
def waitedFor (acts : List Act) (before : List (List Nat)) (i : Nat) : List Nat :=
  match (acts[i]?).bind (fun a => a.waits) with
  | none => []
  | some (t, v) =>
    let adds := ((List.range acts.length).zip acts).filterMap (fun e => match e.2.adds with
      | some (u, n) => if u = t && e.1 != i && !(before.getD e.1 []).contains i then some (e.1, n) else none
      | none => none)
    (adds.filter (fun j => ((adds.filter (fun e => e.1 != j.1 && !(before.getD e.1 []).contains j.1)).map (fun e => e.2)).sum < v)).map (fun j => j.1)

/-- One round of closing a relation: what comes before something that comes before. -/
def closeOnce (bs : List (List Nat)) : List (List Nat) := bs.map (fun b => (b ++ b.flatMap (fun j => bs.getD j [])).eraseDups)

/-- The transitive closure: each round doubles the length of the chains covered. -/
def closeRel : Nat → List (List Nat) → List (List Nat)
  | 0, bs => bs
  | n + 1, bs => closeRel n (closeOnce bs)

/-- Add what the tally waits order, until nothing is added. -/
def growOrder (acts : List Act) : Nat → List (List Nat) → List (List Nat)
  | 0, bs => bs
  | n + 1, bs =>
    let cs := closeRel (Nat.log2 acts.length + 1) (((List.range acts.length).zip bs).map (fun e => (e.2 ++ waitedFor acts bs e.1).eraseDups))
    if (cs.map List.length).sum ≤ (bs.map List.length).sum then bs else growOrder acts n cs

/-- For each act of a kind, the positions of those ordered before it (05 R486). DEDUCED, log entry 23. -/
def orderOf (k : KindPlan) (acts : List Act) : List (List Nat) :=
  growOrder acts (acts.length * acts.length) (closeRel (Nat.log2 acts.length + 1) (acts.map (issuedBefore k acts)))

/-- For each act, the positions of those that a tally wait orders before it (05 R134): act `i`, or one before it, waits for their signal
or for that of one after them. -/
def tallyOrder (acts : List Act) (before : List (List Nat)) : List (List Nat) :=
  (List.range acts.length).map (fun i =>
    ((i :: before.getD i []).flatMap (fun a => (waitedFor acts before a).flatMap (fun b => b :: before.getD b []))).eraseDups)

/-- The master that the plan gives a bank at the start of a step, and the observer; a bank that the plan does not name is as after
start (05 R130). DEDUCED, log entry 49. -/
def plannedMaster (k : KindPlan) (b : BankKey) : Master × Nat :=
  match k.banks.find? (fun e => e.cluster == b.cluster && e.bank == b.bank) with
  | some e => (⟨e.owner, e.unit⟩, e.observer)
  | none => (⟨5, 0⟩, 1)

/-- The master of a bank at act `i`: the plan's, changed by the handovers ordered before it; none when their own order is open. -/
def masterAt (k : KindPlan) (acts : List Act) (before : List (List Nat)) (i : Nat) (b : BankKey) : Option Master :=
  let hs := (before.getD i []).filter (fun j => ((acts[j]?).bind (fun a => a.gift)).any (fun g => g.key == b))
  match hs.filter (fun j => hs.all (fun h => h == j || !(before.getD h []).contains j)) with
  | [] => some (plannedMaster k b).1
  | [j] => ((acts[j]?).bind (fun a => a.gift)).map (fun g => g.taker)
  | _ => none

/-! ## Breaches (05 R134, R141, R486) -/

/-- An act's master has the bank that `m` masters; a master whose port no binding gives is held to its owner code. -/
def Act.hasBank (a : Act) (m : Option Master) : Bool :=
  match a.master with
  | some x => m == some x
  | none => a.code == 0 || m.any (fun y => y.owner == a.code)

/-- What an act may write: `writes`, and of `reach` what lies in banks that its master has at its point. -/
def mayWrite (k : KindPlan) (acts : List Act) (before : List (List Nat)) (i : Nat) (a : Act) : List Region :=
  a.writes ++ a.reach.filter (fun g => a.hasBank (masterAt k acts before i g.key))

/-- Banks that an act addresses, that of its handover included. -/
def Act.addresses (a : Act) : List BankKey := a.owned ++ a.seen.map (fun g => g.key) ++ (a.gift.map (fun g => g.key)).toList

/-- The bank of the first breach at act `i`: a handover of a bank it addresses that is ordered neither way, a handover or an owner
port of a bank that its master does not own there, an observer port that the plan does not give, an observer read that no tally
wait orders against a write (`tallied`), and one of a region that arriving frames or messages may be written to (`landing`). -/
def actBreach (k : KindPlan) (acts : List Act) (before tallied : List (List Nat)) (landing : List Region) (i : Nat) (a : Act) : Option BankKey :=
  let apart := fun (r : List (List Nat)) (j : Nat) => j != i && !(r.getD i []).contains j && !(r.getD j []).contains i
  let others := ((List.range acts.length).zip acts).filter (fun e => apart before e.1)
  let untallied := ((List.range acts.length).zip acts).filter (fun e => apart tallied e.1)
  (a.addresses.find? (fun b => others.any (fun e => e.2.gift.any (fun g => g.key == b)))).orElse (fun _ =>
  ((a.owned ++ (a.gift.map (fun g => g.key)).toList).find? (fun b => !a.hasBank (masterAt k acts before i b))).orElse (fun _ =>
  ((a.seen.find? (fun g => (plannedMaster k g.key).2 != 1)).map (fun g => g.key)).orElse (fun _ =>
  (a.seen.find? (fun g => landing.any (fun h => g.meets h) || untallied.any (fun e => (mayWrite k acts before e.1 e.2).any (fun h => g.meets h)))).map (fun g => g.key))))

/-- A GATHER's destination keeps its master until the house turn of the next step has read it (R134, R144, R281): it is handed over in
no act that may follow the GATHER in its step, no plan gives it at the start of a step to a master that may write it before the house turn
has read it, and no act of any step kind hands it to one (`gifts`). -/
def keptBreach (plans : List KindPlan) (gifts : List Gift) (acts : List Act) (before : List (List Nat)) (i : Nat) (a : Act) : Option BankKey :=
  let writer := fun (m : Master) => some m != a.master && m.owner != 0 && m.owner != 5
  a.kept.find? (fun b =>
    ((List.range acts.length).zip acts).any (fun e => !(before.getD i []).contains e.1 && e.2.gift.any (fun g => g.key == b && some g.taker != a.master)) ||
    plans.any (fun k => writer (plannedMaster k b).1) || gifts.any (fun g => g.key == b && writer g.taker))

/-- What the acts of a step kind may hand over before the house turn of their step has come: no transfer command or walk record of the bank's
cluster, which come after it (R144), stands before them. -/
def earlyGifts (acts : List Act) (before : List (List Nat)) : List Gift :=
  let turned := fun (j : Nat) (b : BankKey) => (acts[j]?).any (fun a => a.turn == some b.cluster)
  ((List.range acts.length).zip acts).filterMap (fun e => e.2.gift.bind (fun g =>
    if (e.1 :: before.getD e.1 []).any (fun j => turned j g.key) then none else some g))

/-- Those of every step kind of an image, where a command of it gathers. -/
def imageGifts (s : State) (p : PartId) (img : Image) : List Gift :=
  let kinds := img.layouts.flatMap (fun l => l.kinds)
  if kinds.any (fun k => (actsOf s p img k).any (fun a => !a.kept.isEmpty)) then
    kinds.flatMap (fun k => earlyGifts (actsOf s p img k) (orderOf k (actsOf s p img k)))
  else []

/-- The regions that arriving frames and messages are written to (10 R275; 12 R332). -/
def landingRegions (img : Image) : List Region :=
  img.streams.flatMap (fun d => (d.landing.map (fun g => spanRegions g.cluster g.bank g.offset (g.size * g.count))).getD []) ++
  img.rings.flatMap (fun g => spanRegions g.cluster g.bank g.offset (g.slotSize * g.slots))

/-- The first breach of a kind; `gifts` are those of `imageGifts`. -/
def orderBreach (s : State) (p : PartId) (img : Image) (gifts : List Gift) (k : KindPlan) : Option BankKey :=
  let acts := actsOf s p img k
  let before := orderOf k acts
  let tallied := tallyOrder acts before
  ((List.range acts.length).zip acts).findSome? (fun e =>
    (actBreach k acts before tallied (landingRegions img) e.1 e.2).orElse (fun _ => keptBreach (img.layouts.flatMap (fun l => l.kinds)) gifts acts before e.1 e.2))

end Sys2Proof.Machine
end

