-- ==== Sys2Proof/Machine/Chains.lean ====
section
/-! DEFINITION. The loader's count of accumulation chains (03 R76; 04 R109; 06 R175, R178): how many products a lane sums between two
write-outs, the exact partial records that carry a chain from one command of a step kind to another included. Records that no command
of the kind has written hold no products of it (DESIGN CHOICE, log entry 37). -/

namespace Sys2Proof.Machine

/-- Bytes of an area that can carry exact partial records: a bank, a stack, or a step's stream of a channel. -/
structure Span where
  area : Nat
  off  : Nat
  n    : Nat
  deriving DecidableEq, Repr

def Span.meets (a b : Span) : Bool := a.area == b.area && Machine.meets a.off a.n b.off b.n

/-- `a` lies over all of `b`. -/
def Span.covers (a b : Span) : Bool := a.area == b.area && a.off ≤ b.off && b.off + b.n ≤ a.off + a.n

/-- The areas: banks, partition spaces, channels. -/
def bankArea (k : BankKey) : Nat := 64 * k.cluster + k.bank
def stackArea (lc : Nat) : Nat := 4096 + lc
def chanArea (c : Nat) : Nat := 8192 + c

/-- What one command, or the relay of a channel that it reads, does with records: the products it adds to each lane, how many of them are
elements of GLOBAL_AVG, the records it reads, what it writes, and whether that holds records. -/
structure Flow where
  act     : Nat
  own     : Nat
  elems   : Nat := 0
  reads   : List Span
  writes  : List Span
  records : Bool
  deriving DecidableEq, Repr

/-- A tensor reference of a logical core; in a channel the offset follows from the stream (`placeStream`). -/
def refSpan (j w n : Nat) : Span :=
  match trefBank j w with
  | some k => { area := bankArea k, off := (trefOf w).off, n := n }
  | none => { area := chanArea ((trefOf w).off % 4096), off := 0, n := round64 n }

/-- The records that a command reads, each with its bytes (04 R106, R107; 06 R175, R178), those inside a state record included (07 R193).
DESIGN CHOICE, log entry 37. -/
def recordRefs (r : CmdRecord) : List (Nat × Nat) :=
  let f := fun (o : Nat) => recField r o 4
  match recOpcode r with
  | 0x0100 => if (matArgs r).partialIn then [(f 60, 96 * (matArgs r).m * (matArgs r).n)] else []
  | 0x0102 => (List.range (bitsOf (f 32) 26 24)).map (fun i => (f (36 + 4 * i), 96 * bitsOf (f 32) 23 0))
  | 0x0300 => let g := geoOf r; if g.partialIn then [(f 28, 96 * g.c * g.orows * g.ow)] else []
  | 0x0200 => let a := attnArgs r; if a.stateIn then [(f 60 + 64, a.g * a.npos * stateBytes a.d)] else []
  | 0x0304 =>
    let w := f 32
    let n := 96 * (recField r 48 2 + 1)
    (List.range (recField r 51 1)).map (fun i => (w + n * i, n))
  | _ => []

/-- Products that a command adds to each of its lanes. DESIGN CHOICE, log entry 37. -/
def ownProducts (r : CmdRecord) : Nat :=
  match recOpcode r with
  | 0x0100 => (matArgs r).k
  | 0x0101 => (matArgs r).k
  | 0x0200 => (attnArgs r).nk
  | 0x0300 => (geoOf r).kh * (geoOf r).kw
  | 0x0304 => recField r 40 4
  | _ => 0

/-- Elements that a command adds to each channel for GLOBAL_AVG (06 R178). -/
def ownElements (r : CmdRecord) : Nat := if recOpcode r = 0x0304 then ownProducts r else 0

/-- A command's result holds exact partial records (03 R79). -/
def writesRecords (r : CmdRecord) : Bool :=
  match recOpcode r with
  | 0x0100 => (matArgs r).w.fmt == 31
  | 0x0101 => (matArgs r).w.fmt == 31
  | 0x0102 => bitsOf (recField r 28 4) 4 0 == 31
  | 0x0200 => !(attnArgs r).finish
  | 0x0300 => (geoOf r).w.fmt == 31
  | 0x0304 => bitsOf (recField r 36 4) 4 0 == 31
  | _ => false

/-- The flows of a command: those of the relays that its channel reads feed, and its own. -/
def flowsOf (l : Layout) (d : QueueDesc) (i : Nat) (r : CmdRecord) : List Flow :=
  let lc := d.inst
  let bank := fun (w n : Nat) => ({ area := bankArea ⟨lc, (bankRefOf w).bank⟩, off := (bankRefOf w).off, n := n } : Span)
  if d.cls = 5 then
    let n := recField r 36 4
    let hbm : Span := { area := stackArea lc, off := recField r 28 8, n := n }
    match recOpcode r with
    | 0x0500 => [{ act := i, own := 0, reads := [hbm], writes := [bank (recField r 24 4) n], records := true }]
    | 0x0501 => [{ act := i, own := 0, reads := [bank (recField r 24 4) n], writes := [hbm], records := true }]
    | 0x0502 =>
      let m := recField r 32 4
      [{ act := i, own := 0, reads := [bank (recField r 24 4) m], writes := [bank (recField r 28 4) m], records := true }]
    | _ => []
  else
    let reads := (recordRefs r).map (fun a => refSpan d.inst a.1 a.2)
    let relays := reads.flatMap (fun a => (l.channels.filter (fun c => chanArea c.chan == a.area)).filterMap (fun c =>
      c.relay.map (fun next => ({ act := i, own := 0, reads := [a], writes := [{ a with area := chanArea next }], records := true } : Flow))))
    relays ++ [{ act := i, own := ownProducts r, elems := ownElements r, reads := reads, writes := (writeRefs r).map (fun a => refSpan d.inst a.1 a.2), records := writesRecords r }]

/-- Give the spans of channels their places in the streams of a step: `at_` is what each has carried so far. -/
def placeSpans : List (Nat × Nat) → List Span → List (Nat × Nat) × List Span
  | at_, [] => (at_, [])
  | at_, a :: rest =>
    if a.area < 8192 then
      let r := placeSpans at_ rest
      (r.1, a :: r.2)
    else
      let o := (assocGet a.area at_).getD 0
      let r := placeSpans (assocSet a.area (o + a.n) at_) rest
      (r.1, { a with off := o } :: r.2)

/-- Place the streams of one instance's flows in issue order. A relay's read is the read of its command. -/
def placeStream : List (Nat × Nat) → List (Nat × Nat) → List Flow → List Flow
  | _, _, [] => []
  | ins, outs, f :: fs =>
    let r := placeSpans ins f.reads
    let w := placeSpans outs f.writes
    let relay := f.own == 0 && f.writes.all (fun a => 8192 ≤ a.area) && fs.any (fun g => g.act == f.act)
    { f with reads := r.2, writes := w.2 } :: placeStream (if relay then ins else r.1) w.1 fs

/-- The flows of a step kind, instance by instance in issue order; `act` is the position among the acts. -/
def flowsIn (img : Image) (l : Layout) (k : KindPlan) (acts : List Act) : List Flow :=
  (threads k).flatMap (fun th => placeStream [] [] (th.flatMap (fun e =>
    match img.queues.find? (fun d => d.queue == e.1), (k.lists.find? (fun y => y.queue == e.1)).bind (fun y => y.cmds[e.2]?) with
    | some d, some r =>
      let i := acts.findIdx (fun a => a.queue == e.1 && a.index == e.2)
      flowsOf l d i r
    | _, _ => [])))

/-- The flows whose records a read of a flow finds: writers of the same stream, and writers of the region that come before and that
no later one covers. -/
def sourcesOf (fs : List Flow) (before : List (List Nat)) (f : Flow) (a : Span) : List Nat :=
  let meeting := ((List.range fs.length).zip fs).filter (fun e => e.2.writes.any (fun w => w.meets a))
  if 8192 ≤ a.area then (meeting.filter (fun e => e.2.records)).map (fun e => e.1)
  else
    let past := meeting.filter (fun e => (before.getD f.act []).contains e.2.act)
    (past.filter (fun e => e.2.records && !past.any (fun h => (before.getD h.2.act []).contains e.2.act && h.2.writes.any (fun w => w.covers a)))).map
      (fun e => e.1)

/-- One round of counting: what a flow adds itself and, for each of its reads, the most that a source holds. -/
def countRound (own : List Nat) (srcs : List (List (List Nat))) (ns : List Nat) : List Nat :=
  (own.zip srcs).map (fun e => e.1 + (e.2.map (fun l => l.foldl (fun m j => max m (ns.getD j 0)) 0)).sum)

def countRounds : Nat → List Nat → List (List (List Nat)) → List Nat → List Nat
  | 0, _, _, ns => ns
  | n + 1, own, srcs, ns => countRounds n own srcs (countRound own srcs ns)

/-- Queue and index of the commands of a step kind that bring a chain past its limit: 2^40 products (R76), 16,777,216 elements of
GLOBAL_AVG, whatever ends the chain (06 R172, R178). DESIGN CHOICE, log entry 37. -/
def longChains (s : State) (p : PartId) (img : Image) (l : Layout) (k : KindPlan) : List (Nat × Nat) :=
  let carries := fun (r : CmdRecord) => recClass r != 5 && !(recordRefs r).isEmpty
  if !k.lists.any (fun y => y.cmds.any carries) then [] else
  let acts := actsOf s p img k
  let before := orderOf k acts
  let fs := flowsIn img l k acts
  let srcs := fs.map (fun f => f.reads.map (sourcesOf fs before f))
  let count := fun (own : List Nat) => countRounds fs.length own srcs own
  (fs.zip ((count (fs.map (fun f => f.own))).zip (count (fs.map (fun f => f.elems))))).filterMap (fun e => match acts[e.1.act]? with
    | some a =>
      let avg := ((k.lists.find? (fun y => y.queue == a.queue)).bind (fun y => y.cmds[a.index]?)).any (fun r => recOpcode r == 0x0304)
      if (if avg then 16777216 else 2 ^ 40) < e.2.1 || 16777216 < e.2.2 then some (a.queue, a.index) else none
    | none => none)

end Sys2Proof.Machine
end

