-- ==== Sys2Proof/Machine/Loader.lean ====
section
/-! DEFINITION. The loader's checks of a Sniok image, in the order of 02 R61, and the arm-time checks (15 R429). -/

namespace Sys2Proof.Machine

/-- A loader result: code, detail, and the location of bytes 8–15 of the response. DEDUCED, log entry 119. -/
structure LoadResult where
  code   : Nat
  detail : Nat
  place  : Bytes
  deriving DecidableEq, Repr

/-- No single command is concerned. -/
def noPlace : Bytes := List.replicate 8 255

/-- A result with its detail when a condition holds. -/
def failIf (b : Bool) (code detail : Nat) : Option LoadResult := if b then some { code := code, detail := detail, place := noPlace } else none

/-- The first failure of a list of checks. -/
def firstFail (cs : List (Option LoadResult)) : Option LoadResult := cs.findSome? (fun c => c)

/-! ## 0x10 to 0x31 (R61) -/

/-- A requirement of a kind is not met (02 R62): entries of kind — can never be, the format mask is compared bit by bit. -/
def requirementFails (s : State) (r : Requirement) : Bool :=
  r.entry == 0 || r.entry == 1 || r.entry == 38 || 60 ≤ r.entry ||
  (match r.kind with
   | .minimum => if r.entry = 17 then Nat.land r.value (sizeEntry s 17) != r.value else sizeEntry s r.entry < r.value
   | .exact => r.value != sizeEntry s r.entry)

def requirementCheck (s : State) (img : Image) (k : ReqKind) (code : Nat) : Option LoadResult :=
  (img.requirements.find? (fun r => r.kind == k && requirementFails s r)).bind (fun r => failIf true code r.entry)

/-- Sequences declared by the other loaded partitions (07 R203). -/
def otherSequences (s : State) (p : PartId) : Nat :=
  ((List.finRange 8).map (fun q => if q = p then 0 else match (s.part q).image with | some i => (i.kv.map (fun k => k.sequences)).getD 0 | none => 0)).sum

/-- Queues declared: the highest number, plus 1. -/
def queuesDeclared (img : Image) : Nat := img.queues.foldl (fun n d => max n (d.queue + 1)) 0

/-- Every kind of every layout with its numbers. -/
def allKinds (img : Image) : List (Nat × Nat × KindPlan) :=
  ((List.range img.layouts.length).zip img.layouts).flatMap (fun l => ((List.range l.2.kinds.length).zip l.2.kinds).map (fun k => (l.1, k.1, k.2)))

/-- Tallies that a kind names, plus 1. -/
def talliesNamed (k : KindPlan) : Nat :=
  let cmds := k.lists.flatMap (fun l => l.cmds)
  let recs := k.walks.flatMap (fun w => w.records)
  let ns := cmds.flatMap (fun r => (if waitEn r then [waitTally r] else []) ++ (if sigEn r then [sigTally r] else [])) ++
    recs.flatMap (fun r => (if bitOf (walkField r 9 1) 0 then [walkField r 10 2] else []) ++ (if bitOf (walkField r 9 1) 1 then [walkField r 24 2] else [])) ++
    k.declared.map (fun d => d.1)
  ns.foldl (fun n t => max n (t + 1)) 0

def talliesDeclared (img : Image) : Nat := (allKinds img).foldl (fun n k => max n (talliesNamed k.2.2)) img.tallies

/-- MiB of the partition space of a cluster (05 R140). -/
def spaceMib : Nat := partSpace / 1048576

/-- KV pages of a partition's pools (07 R200). -/
def poolPages (img : Image) : Nat := (img.kv.map (fun k => k.pools.sum)).getD 0

/-- MiB that an image needs: its manifest chunks, its checkpoint area and tables, its journal, its KV pools of 64 KiB pages (07 R200). -/
def mibNeeded (img : Image) : Nat :=
  ceilDiv ((img.chunks.map (fun c => c.length)).sum) 1048576 + img.hbmMib + img.journalMib + ceilDiv (poolPages img) 16

/-- Pages of the partition space of a stack (05 R140). -/
def partPages : Nat := 1044480

/-- A chunk leaves the partition space of a logical cluster (15 R424). -/
def chunkOutside (img : Image) (c : Chunk) : Bool := img.clusters ≤ c.cluster || partSpace < c.offset + c.length

/-- A KV pool, or the count table of its pages, leaves the partition space (05 R140; 07 R200, R204). -/
def poolOutside (img : Image) : Bool :=
  match img.kv with
  | none => false
  | some k => (List.range k.pools.length).any (fun lc => k.pools.getD lc 0 != 0 &&
      (img.clusters ≤ lc || partPages < k.poolFirst + k.pools.getD lc 0 || partSpace < k.countOffset + 2 * (k.poolFirst + k.pools.getD lc 0)))

/-- A KV declaration outside its range: a pool of 2 to 1,044,480 pages (07 R200), a page table within its bank (R202), a copy allowance of
at most 4,096 (R212). -/
def kvBad (img : Image) : Bool :=
  match img.kv with
  | none => false
  | some k => k.pools.any (fun n => n == 1 || partPages < n) || 4096 < k.copyAllowance || 3 < k.ptBank

/-- Two chunks of a cluster overlap, or one breaks its layout. -/
def chunksBad (img : Image) : Bool :=
  img.chunks.any (fun c => !lengthOk c.length 64 1048576 64 || c.offset % 64 != 0) ||
  ((List.range img.chunks.length).zip img.chunks).any (fun a => (img.chunks.take a.1).any (fun b => b.cluster == a.2.cluster && meets b.offset b.length a.2.offset a.2.length))

/-- The partition's module count: the total members of its job table, 1 without one (R61, check 0x26).
DESIGN CHOICE, log entry 36. -/
def modulesOf (x : Part) : Nat := (x.job.map (fun j => j.total)).getD 1

/-- The first declared stream without a binding of its direction: a stream-bind order, for a receive stream LINK_INGRESS too (12 R336). -/
def unboundStream (s : State) (p : PartId) (img : Image) : Option StreamDecl :=
  img.streams.find? (fun d => (bindingOf s p d.stream d.transmit).isNone && (d.transmit || !copyBound s p d.stream))

/-- Power of the loaded partitions, with an image's in place of the partition's own, and the module base (R61). -/
def powerTotal (s : State) (p : PartId) (img : Image) : Nat :=
  120 + img.power + ((List.finRange 8).map (fun q =>
    if q = p then 0 else if (s.part q).state = .loaded || (s.part q).state = .armed || (s.part q).state = .running then ((s.part q).image.map (fun i => i.power)).getD 0 else 0)).sum

/-- Wall bounds exist for the ordering code, one per step kind; paced mode needs latest starts (15 R433). -/
def wallOk (s : State) (img : Image) (paced : Bool) : Bool :=
  ((if s.fuses.codeSB then img.wallSB else img.wallSA).any (fun l => l.length == img.stepKinds)) && (!paced || img.latestStarts.isSome)

/-! ## 0x40 to 0x44 -/

/-- A physical name in an endpoint: a core-resident class on a vacant core. -/
def vacantEnd (l : Layout) (e : Endpoint) : Bool := 1 ≤ e.cls && e.cls ≤ 4 && vacantCore l e.inst

/-- The first command that fails its checks, or that brings a chain past its limit (03 R76), in the order of R61.
DEDUCED, log entry 119. -/
def commandFail (s : State) (p : PartId) (img : Image) : Option LoadResult :=
  let x := s.part p
  (allKinds img).findSome? (fun k =>
    match img.layouts[k.1]? with
    | none => none
    | some lay =>
      let long := longChains s p img lay k.2.2
      (queuesInOrder img).findSome? (fun d =>
        (k.2.2.lists.find? (fun l => l.queue == d.queue)).bind (fun l =>
          ((List.range l.cmds.length).zip l.cmds).findSome? (fun c =>
            if commandOk { img := img, lay := lay, desc := d, die := fun lc => ((physCluster x lc).map (fun k => k.val / 4)).getD 2 } c.2 && !long.contains (d.queue, c.1) then none
            else some { code := 0x40, detail := k.2.1 * 65536 + d.queue,
                        place := leBytes 2 d.queue ++ leBytes 1 k.2.1 ++ leBytes 1 k.1 ++ leBytes 2 c.1 ++ zeros 2 }))))

/-- Line-buffer bytes of a logical core in a kind (06 R171). -/
def lineBuffer (l : Layout) (k : KindPlan) (img : Image) (j : Nat) : Nat :=
  let halo := ((((l.haloSets.filter (fun h => h.core == j)).flatMap (fun h => [h.topIn, h.bottomIn])).filterMap id).eraseDups).filterMap
    (fun n => (l.channels.find? (fun h => h.chan == n)).map (fun h => h.depth * h.item))
  let taps := (img.queues.filter (fun d => d.cls == 3 && d.inst == j)).flatMap (fun d =>
    (k.lists.filter (fun c => c.queue == d.queue)).flatMap (fun c => (c.cmds.filter (fun r => recOpcode r < 0x0304)).map (fun r =>
      let g := geoOf r
      2 * g.kh * (ceilDiv (g.width * fmtBits g.inFmt) 512 * 64))))
  halo.sum + taps.foldl max 0

/-- The format-tables section breaks its layout (03 R72, R90, R91): a table of another kind, a codebook identifier or entry count that no
codebook has, two codebooks of one identifier, more than 256, or a bad curve table. -/
def tablesBad (img : Image) : Bool :=
  let books := img.tables.filter (fun b => b.kind == 1)
  img.tables.any (fun b => b.kind != 1 && (b.kind != 2 || 6 < b.id)) || (List.range 7).any (fun c => !curveOk img c) || 256 < books.length ||
  books.any (fun b => 255 < b.id || (b.count != 16 && b.count != 64) || b.entries.length != b.count || 1 < (books.filter (fun c => c.id == b.id)).length)

/-- A queue descriptor in use keeps its layout (02 R41, queue descriptor): an instance of its class, a ring of 16 to 4,096 entries, a
power of two. DESIGN CHOICE, log entry 123. -/
def queueOk (img : Image) (d : QueueDesc) : Bool :=
  !d.inUse || (instanceOk d.cls d.inst img.clusters && [16, 32, 64, 128, 256, 512, 1024, 2048, 4096].contains d.ringEntries)

/-- A receive stream without its 2 to 16 landing buffers (10 R274). -/
def landingBad (img : Image) : Bool :=
  img.streams.any (fun d => !d.transmit && (match d.landing with | some g => g.count < 2 || 16 < g.count | none => true))

/-- Receive rings outside R332 of 12: more than 256, two of one number, a slot size of no 64 bytes to 2 MiB in multiples of 64, no 2 to 64
slots. -/
def ringsBad (img : Image) : Bool :=
  256 < img.rings.length || img.rings.any (fun g => 1 < (img.rings.filter (fun h => h.ring == g.ring)).length || !lengthOk g.slotSize 64 2097152 64 || g.slots < 2 || 64 < g.slots)

/-- Image-wide conditions of code 0x40: walk records, tables, queue descriptors, line buffers, the manifest, landing buffers, receive
rings, KV declarations, the house allowance (05 R144). DEDUCED, log entry 119. DESIGN CHOICE, log entry 123. -/
def imageFail (img : Image) : Option LoadResult :=
  firstFail [
    failIf ((allKinds img).any (fun k => k.2.2.walks.any (fun w => w.records.any (fun r => !walkOk img r)))) 0x40 0xFFFF,
    failIf (tablesBad img) 0x40 0xFFFF,
    failIf (img.queues.any (fun d => !queueOk img d)) 0x40 0xFFFF,
    failIf ((allKinds img).any (fun k => match img.layouts[k.1]? with
      | some l => (List.range (8 * img.clusters)).any (fun j => 524288 < lineBuffer l k.2.2 img j)
      | none => false)) 0x40 0xFFFF,
    failIf (chunksBad img) 0x40 0xFFFF,
    failIf (landingBad img || ringsBad img) 0x40 0xFFFF,
    failIf (kvBad img || img.houseMib < 1 || 1024 < img.houseMib) 0x40 0xFFFF ]

/-- A list that is not empty ends with its one STEP_END command (02 R47). -/
def stepEnds (l : CmdList) : Bool := l.cmds.isEmpty || ((l.cmds.filter stepEnd).length == 1 && l.cmds.getLast?.any stepEnd)

/-- A video queue has its one video turn, in one transfer instance's turn list and before any KV turn there (09 R254). -/
def videoPlaced (k : KindPlan) (q : Nat) : Bool :=
  let ts := k.turns.filter (fun t => t.cls == 5 && t.queues.any (fun e => videoTurn e == some q))
  ts.length == 1 && ts.all (fun t => (t.queues.takeWhile (fun e => videoTurn e != some q)).all (fun e => (kvTurn e).isNone))

/-- Turn lists, KV turns, video turns and STEP_END (code 0x41): a walk list that no KV turn names would never run, nor would the frames of a
video queue without its video turn. DESIGN CHOICE, log entry 123. -/
def turnFail (img : Image) : Option LoadResult :=
  (allKinds img).findSome? (fun k =>
    let desc := fun (q : Nat) => img.queues.find? (fun d => d.queue == q && d.inUse)
    let wrong := fun (t : TurnList) => t.queues.isEmpty || 4096 < t.queues.length || t.queues.any (fun e => match kvTurn e, videoTurn e with
      | some i, _ => t.cls != 5 || (planWalks k.2.2 t.inst).length ≤ i
      | none, some q => t.cls != 5 || (match desc q with | some d => d.cls != 6 | none => true)
      | none, none => match desc e with | some d => d.cls != t.cls || d.inst != t.inst | none => true)
    let idle := (List.range 8).find? (fun lc => ((List.range (planWalks k.2.2 lc).length).zip (planWalks k.2.2 lc)).any (fun w =>
      !w.2.isEmpty && !k.2.2.turns.any (fun t => t.cls == 5 && t.inst == lc && t.queues.any (fun e => kvTurn e == some w.1))))
    match (k.2.2.turns.find? wrong).map (fun t => t.inst), idle with
    | some n, _ => failIf true 0x41 n
    | none, some lc => failIf true 0x41 lc
    | none, none => k.2.2.lists.findSome? (fun l =>
        match desc l.queue with
        | none => failIf (!l.cmds.isEmpty) 0x41 0
        | some d =>
          let vacant := match img.layouts[k.1]? with | some y => 1 ≤ d.cls && d.cls ≤ 4 && vacantCore y d.inst | none => false
          failIf (!l.cmds.isEmpty && (vacant || (d.cls == 6 && l.cmds.any isFrame && !videoPlaced k.2.2 l.queue) || !stepEnds l || !k.2.2.turns.any (fun t => t.cls == d.cls && t.inst == d.inst && t.queues.contains l.queue))) 0x41 d.inst))

/-- The adds of a kind to a tally. -/
def addsTo (k : KindPlan) (t : Nat) : Nat :=
  ((k.lists.flatMap (fun l => l.cmds)).map (fun r => if sigEn r && sigTally r = t then sigInc r else 0)).sum +
  ((k.walks.flatMap (fun w => w.records)).map (fun r => if bitOf (walkField r 9 1) 1 && walkField r 24 2 = t then 1 else 0)).sum

/-- Waits and declared amounts (code 0x42, R55). -/
def tallyFail (img : Image) : Option LoadResult :=
  (allKinds img).findSome? (fun k =>
    let amount := fun (t : Nat) => (assocGet t k.2.2.declared).getD 0
    ((List.range (talliesDeclared img)).find? (fun t =>
      addsTo k.2.2 t != amount t || 2 ^ 40 < amount t ||
      (k.2.2.lists.any (fun l => l.cmds.any (fun r => waitEn r && waitTally r == t && amount t < waitValue r))) ||
      (k.2.2.walks.any (fun w => w.records.any (fun r => bitOf (walkField r 9 1) 0 && walkField r 10 2 == t && amount t < walkField r 16 8))))).bind
      (fun t => failIf true 0x42 t))

/-- A channel keeps the limits of 04 R100 and 06 R166. -/
def channelOk (l : Layout) (c : Channel) : Bool :=
  c.chan < 4096 && lengthOk c.item 64 65536 64 && 2 ≤ c.depth && c.depth ≤ 4096 && !vacantEnd l c.writer && !vacantEnd l c.reader &&
  (match c.halo with | some h => 1 ≤ h && h ≤ 4094 && c.depth == h + 2 | none => true) &&
  (match c.relay with | some r => (l.channels.find? (fun d => d.chan == r)).any (fun d => d.writer == c.reader) | none => true) &&
  (l.channels.filter (fun d => d.chan == c.chan)).length == 1

/-- Endpoint counts and channel buffer of a logical core (04 R100, R101). -/
def coreChannelsOk (l : Layout) (j : Nat) : Bool :=
  let inb := l.channels.filter (fun c => 1 ≤ c.reader.cls && c.reader.cls ≤ 4 && c.reader.inst == j)
  let outb := l.channels.filter (fun c => 1 ≤ c.writer.cls && c.writer.cls ≤ 4 && c.writer.inst == j)
  inb.length ≤ 32 && outb.length ≤ 32 && (inb.map (fun c => if c.halo.isSome then 0 else c.depth * c.item)).sum ≤ 131072

/-- Halo rows that the commands of a kind send on and take from a channel through their halo sets (06 R169). -/
def haloRowsMoved (l : Layout) (k : KindPlan) (img : Image) (c : Channel) : Nat × Nat :=
  let rows := c.halo.getD 0
  (img.queues.filter (fun d => d.cls == 3)).foldl (fun acc d =>
    ((k.lists.filter (fun y => y.queue == d.queue)).flatMap (fun y => y.cmds.filter (fun r => recOpcode r < 0x0304))).foldl (fun acc r =>
      let g := geoOf r
      match l.haloSets.find? (fun h => h.core == d.inst && h.set == g.set) with
      | some h =>
        (acc.1 + (if g.haloOut then rows * (bit (h.topOut == some c.chan) + bit (h.bottomOut == some c.chan)) else 0),
         acc.2 + (if g.haloIn then rows * (bit (h.topIn == some c.chan) + bit (h.bottomIn == some c.chan)) else 0))
      | none => acc) acc) (0, 0)

/-- The tensor references that a command may give a channel to read from, each with its bytes (04 R104, R105, R107; 07 R185). -/
def streamReads (r : CmdRecord) : List (Nat × Nat) :=
  let f := fun (o : Nat) => recField r o 4
  match recOpcode r with
  | 0x0200 => let a := attnArgs r; [(f 24, planeBytes a.qFmt (a.g * a.npos * a.d))]
  | 0x0102 => recordRefs r
  | op =>
    if op = 0x0100 || op = 0x0101 then
      let g := matArgs r
      let gs := if op = 0x0101 then f 60 % 65536 else 1
      let each := fun (n : Nat) => (gs - 1) * round64 n + n
      [(f 24, each (extent g.aFmt (g.m * g.k))), (f 28, each (extent g.bFmt (g.n * g.k)))] ++ recordRefs r
    else []

/-- Items that references of KIND 1 move on a channel. -/
def itemsOf (c : Channel) (refs : List (Nat × Nat)) : Nat :=
  ((refs.filter (fun a => (trefOf a.1).kind == 1 && (trefOf a.1).off == c.chan)).map (fun a => round64 a.2 / max 1 c.item)).sum

/-- The commands of a kind that core-resident units take. -/
def coreCommands (k : KindPlan) : List CmdRecord := (k.lists.flatMap (fun l => l.cmds)).filter (fun r => recClass r < 5)

/-- Items read from a channel in a kind. -/
def itemsRead (l : Layout) (k : KindPlan) (img : Image) (c : Channel) : Nat :=
  (haloRowsMoved l k img c).2 + ((coreCommands k).map (fun r => itemsOf c (streamReads r))).sum

/-- Items written to and read from a channel in a kind (06 R170), those of the relays that feed it included (04 R101). -/
def haloTraffic (l : Layout) (k : KindPlan) (img : Image) (c : Channel) : Nat × Nat :=
  ((haloRowsMoved l k img c).1 + ((coreCommands k).map (fun r => itemsOf c (writeRefs r))).sum +
     ((l.channels.filter (fun d => d.relay == some c.chan)).map (itemsRead l k img)).sum,
   itemsRead l k img c)

/-- Commands of an opcode that name a ring (12 R334). -/
def ringUses (k : KindPlan) (op ring : Nat) : Nat :=
  ((k.lists.flatMap (fun l => l.cmds)).filter (fun r => recOpcode r == op && recClass r == 5 && recField r 34 1 == ring)).length

/-- The number of the first channel of a list, 0 when it has none. -/
def firstChan (cs : List Channel) : Nat := (cs.head?.map (fun c => c.chan)).getD 0

/-- A channel has an endpoint on a logical core. -/
def touchesCore (j : Nat) (c : Channel) : Bool :=
  (1 ≤ c.reader.cls && c.reader.cls ≤ 4 && c.reader.inst == j) || (1 ≤ c.writer.cls && c.writer.cls ≤ 4 && c.writer.inst == j)

/-- Channels, halo sets and rings (code 0x43). -/
def channelFail (img : Image) : Option LoadResult :=
  (img.layouts.findSome? (fun l =>
    firstFail [
      failIf (!l.certified) 0x43 (firstChan l.channels),
      (l.channels.find? (fun c => !channelOk l c)).bind (fun c => failIf true 0x43 c.chan),
      ((List.range (8 * img.clusters)).find? (fun j => !coreChannelsOk l j)).bind (fun j => failIf true 0x43 (firstChan (l.channels.filter (touchesCore j)))),
      failIf (l.haloSets.any (fun h => vacantCore l h.core || 7 < h.set)) 0x43 0,
      l.kinds.findSome? (fun k => (l.channels.find? (fun c => c.halo.isSome && (haloTraffic l k img c).1 != (haloTraffic l k img c).2)).bind
        (fun c => failIf true 0x43 c.chan)) ])).orElse (fun _ =>
  (allKinds img).findSome? (fun k => (img.rings.find? (fun g => ringUses k.2.2 0x0510 g.ring != ringUses k.2.2 0x0511 g.ring)).bind (fun g => failIf true 0x43 g.ring)))

/-- Handovers of a kind. -/
def handoversOf (img : Image) (k : KindPlan) : List Gift :=
  (k.lists.flatMap (fun l => match img.queues.find? (fun d => d.queue == l.queue) with
    | some d => l.cmds.filterMap (giftFor d)
    | none => [])) ++
  k.walks.flatMap (fun w => (w.records.filter (fun r => bitOf (walkField r 9 1) 2)).map (fun r => giftOf w.cluster (walkField r 26 3)))

/-- Cluster banks that a region of `n` bytes from an offset of a cluster bank touches. -/
def touched (bank off n : Nat) : List Nat := (List.range 4).filter (fun b => meets (b * bankSize) bankSize (bank * bankSize + off) (max 1 n))

/-- A cluster bank stays with a master throughout a kind; without a UNIT, with one of any. -/
def keepsOwner (img : Image) (k : KindPlan) (lc b owner : Nat) (unit_ : Option Nat) : Bool :=
  k.banks.any (fun p => p.cluster == lc && p.bank == 32 + b && p.owner == owner && unit_.all (fun u => p.unit == u)) &&
  !(handoversOf img k).any (fun h => h.key == ⟨lc, 32 + b⟩)

/-- A page table leaves the transfer engine, or is written by a command or a walk record (07 R202): the bank. -/
def tableBreach (img : Image) (k : KindPlan) (written : List Region) : Option BankKey :=
  img.kv.bind (fun kd =>
    ((List.range kd.pools.length).filter (fun lc => kd.pools.getD lc 0 != 0)).findSome? (fun lc =>
      let b : BankKey := ⟨lc, 32 + kd.ptBank⟩
      if (plannedMaster k b).1 != ⟨5, 0⟩ || (handoversOf img k).any (fun h => h.key == b) || written.any (fun w => w.key == b) then some b else none))

/-- A whole bank of a logical cluster. -/
def wholeBank (lc b : Nat) : Region := { key := ⟨lc, b⟩, off := 0, n := bankSize }

/-- What a bank plan has written besides commands: the banks carried across steps, which a layout's copies and a restoration write whole (04
R121; 01 R36), and the adapter intake banks (15 R427). DEDUCED, log entry 23. -/
def planWrites (img : Image) (lay : Layout) : List Region :=
  lay.carried.map (fun c => wholeBank c.cluster c.bank) ++
  (if img.adapterSlots = 0 then [] else (List.range img.clusters).map (fun lc => wholeBank lc (32 + img.intakeBanks.getD lc 0)))

/-- Regions that hold lists and rings: cluster, bank number, offset, bytes (02 R485). -/
def listRegions (img : Image) : List (Nat × Nat × Nat × Nat) :=
  (allKinds img).flatMap (fun k => k.2.2.lists.map (fun l => (l.cluster, 32 + l.bank, l.offset, 64 * l.cmds.length)) ++
    k.2.2.walks.map (fun w => (w.cluster, 32 + w.bank, w.offset, 32 * w.records.length))) ++
  (img.queues.filter (fun d => d.inUse)).map (fun d => (d.ringCluster, 32 + d.ringBank, d.ringOffset, 16 * d.ringEntries))

/-- The first place of a list or a ring that is none (02 R485): a cluster bank 32 to 35 of a logical cluster of the image, an offset
that is a multiple of 64, a region within its bank. -/
def placeFail (img : Image) : Option LoadResult :=
  ((listRegions img).find? (fun r => img.clusters ≤ r.1 || 35 < r.2.1 || r.2.2.1 % 64 != 0 || bankSize < r.2.2.1 + r.2.2.2)).bind
    (fun r => failIf true 0x44 (r.1 % 256 * 256 + r.2.1 % 256))

/-- Banks of a kind (code 0x44): two owners, a master not allowed, a vacant core's bank, landing and ring banks that leave
their master, lists and rings written over, and the ownership checks within the step (R134, R485, R486; 09 R258; 10 R274; 15
R427). DESIGN CHOICE, log entry 123. -/
def bankFail (s : State) (p : PartId) (img : Image) : Option LoadResult :=
  let x := s.part p
  let where_ := fun (lc b : Nat) => lc * 256 + b
  let gifts := imageGifts s p img
  (allKinds img).findSome? (fun k =>
    match img.layouts[k.1]? with
    | none => none
    | some lay =>
      let die := fun (lc : Nat) => (physCluster x lc).map dieOf
      let twice := k.2.2.banks.find? (fun b => 1 < (k.2.2.banks.filter (fun c => c.cluster == b.cluster && c.bank == b.bank)).length)
      let bad := k.2.2.banks.find? (fun b => 35 < b.bank || img.clusters ≤ b.cluster || !ownerAllowed s p img b.bank b.owner b.unit (die b.cluster) || 2 < b.observer ||
        (b.bank < 32 && vacantCore lay (8 * b.cluster + b.bank / 4)))
      let astray := lay.carried.find? (fun c => 35 < c.bank || img.clusters ≤ c.cluster || (c.bank < 32 && vacantCore lay (8 * c.cluster + c.bank / 4)))
      let hand := (handoversOf img k.2.2).find? (fun h => !ownerAllowed s p img h.key.bank h.taker.owner h.taker.unit (die h.key.cluster) || (h.key.bank < 32 && vacantCore lay (8 * h.key.cluster + h.key.bank / 4)))
      let land := img.streams.findSome? (fun d => d.landing.bind (fun g =>
        let unit_ := (bindingOf s p d.stream false).map (fun b => b.port.val)
        if img.clusters ≤ g.cluster || 4 * bankSize < g.bank * bankSize + g.offset + g.size * g.count then some (where_ (g.cluster % 256) 35) else
        ((touched g.bank g.offset (g.size * g.count)).find? (fun b => !keepsOwner img k.2.2 g.cluster b 6 unit_)).map (fun b => where_ g.cluster (32 + b))))
      let ring := img.rings.findSome? (fun g =>
        if img.clusters ≤ g.cluster || 4 * bankSize < g.bank * bankSize + g.offset + g.slotSize * g.slots then some (where_ (g.cluster % 256) 35) else
        ((touched g.bank g.offset (g.slotSize * g.slots)).find? (fun b => !keepsOwner img k.2.2 g.cluster b 5 (some 0))).map (fun b => where_ g.cluster (32 + b)))
      let intake := if img.adapterSlots = 0 then none else
        ((List.range img.clusters).find? (fun lc => !k.2.2.banks.any (fun b => b.cluster == lc && b.bank == 32 + img.intakeBanks.getD lc 4 && b.owner == 5 && b.observer == 2) ||
          (handoversOf img k.2.2).any (fun h => h.key == ⟨lc, 32 + img.intakeBanks.getD lc 4⟩))).map (fun lc => where_ lc (32 + img.intakeBanks.getD lc 0))
      let written := landingRegions img ++ (actsOf s p img k.2.2).flatMap (fun a => a.writes)
      let overwritten := (planWrites img lay ++ written).find? (fun w => (listRegions img).any (fun r => w.meets { key := ⟨r.1, r.2.1⟩, off := r.2.2.1, n := r.2.2.2 }))
      (firstFail [
        twice.bind (fun b => failIf true 0x44 (where_ b.cluster b.bank)), bad.bind (fun b => failIf true 0x44 (where_ b.cluster b.bank)),
        astray.bind (fun c => failIf true 0x44 (where_ (c.cluster % 256) (min c.bank 255))),
        hand.bind (fun h => failIf true 0x44 (where_ h.key.cluster h.key.bank)), land.bind (fun n => failIf true 0x44 n), ring.bind (fun n => failIf true 0x44 n),
        intake.bind (fun n => failIf true 0x44 n), overwritten.bind (fun w => failIf true 0x44 (where_ w.key.cluster w.key.bank)),
        (tableBreach img k.2.2 written).bind (fun b => failIf true 0x44 (where_ b.cluster b.bank)),
        (orderBreach s p img gifts k.2.2).bind (fun b => failIf true 0x44 (where_ b.cluster b.bank)) ]))

/-! ## The load order -/

/-- The first check that an image fails (R61), none when it is accepted. -/
def loadFail (s : State) (p : PartId) (img : Image) : Option LoadResult :=
  let x := s.part p
  firstFail [
    failIf (img.magic != 0x534E4B49 || img.formatVersion != 1) 0x10 img.formatVersion,
    failIf (1 < img.contractGen) 0x11 img.contractGen,
    requirementCheck s img .minimum 0x20,
    failIf (16384 < otherSequences s p + ((img.kv.map (fun k => k.sequences)).getD 0)) 0x20 26,
    requirementCheck s img .exact 0x21,
    failIf (img.clusters != x.clusters.length) 0x22 img.clusters,
    failIf (x.nQ * 128 < queuesDeclared img) 0x23 (queuesDeclared img),
    failIf (x.nT * 64 < talliesDeclared img) 0x24 (talliesDeclared img),
    failIf (x.clusters.length * spaceMib < mibNeeded img || img.chunks.any (chunkOutside img) || poolOutside img) 0x25 (mibNeeded img),
    failIf (img.modules != modulesOf x && (x.job.isSome || img.modules ≤ 1)) 0x26 img.modules,
    (unboundStream s p img).bind (fun d => failIf true 0x27 d.streamId),
    failIf (capNow s < powerTotal s p img) 0x30 (powerTotal s p img),
    failIf (!wallOk s img false) 0x31 (bit s.fuses.codeSB),
    commandFail s p img, imageFail img, turnFail img, tallyFail img, channelFail img, placeFail img, bankFail s p img ]

/-! ## Arm-time checks (15 R429; 13 R369; 10 R274, R281, R283) -/

/-- MiB that the ingress journal of a paired partition needs (13 R369). -/
def journalNeeded (s : State) (p : PartId) : Nat :=
  ceilDiv (60 * ((s.csi.bindings.filter (fun b => b.part == p && !b.transmit)).map (fun b => b.quota * (b.maxBytes + 32))).sum) 1048576

/-- The commands of an opcode of the stream class. -/
def streamCommands (img : Image) (op : Nat) : List CmdRecord :=
  (allKinds img).flatMap (fun k => k.2.2.lists.flatMap (fun l => l.cmds.filter (fun r => recClass r == 7 && recOpcode r == op)))

/-- The stream that the arm-time form of check 0x27 names. -/
def streamFail (s : State) (p : PartId) (img : Image) : Option Nat :=
  let idOf := fun (n : Nat) => ((img.streams.find? (fun d => d.stream == n)).map (fun d => d.streamId)).getD n
  let maxOf := fun (n : Nat) (t : Bool) => (bindingOf s p n t).map (fun b => b.maxBytes)
  match unboundStream s p img with
  | some d => some d.streamId
  | none =>
    match img.streams.find? (fun d => match d.landing, maxOf d.stream false with | some g, some m => !d.transmit && g.size < m | _, _ => false) with
    | some d => some d.streamId
    | none =>
      match (streamCommands img 0x0700).find? (fun r => match maxOf (recField r 36 2) false with
          | some m => !declares img (recField r 36 2) false || recField r 32 4 < m
          | none => !declares img (recField r 36 2) false || !copyBound s p (recField r 36 2)) with
      | some r => some (idOf (recField r 36 2))
      | none => ((streamCommands img 0x0701).find? (fun r => match maxOf (recField r 32 2) true with
          | some m => !declares img (recField r 32 2) true || m < recField r 28 4 | none => true)).map (fun r => idOf (recField r 32 2))

/-- The arm-time loader checks, in ascending code. -/
def armFail (s : State) (p : PartId) (img : Image) (paced : Bool) : Option LoadResult :=
  let x := s.part p
  firstFail [
    failIf (x.claim.paired && img.journalMib < journalNeeded s p) 0x25 (journalNeeded s p),
    failIf (img.modules != modulesOf x) 0x26 img.modules,
    (streamFail s p img).bind (fun n => failIf true 0x27 n),
    failIf (capNow s < powerTotal s p img) 0x30 (powerTotal s p img),
    failIf (!wallOk s img paced) 0x31 (bit s.fuses.codeSB) ]

end Sys2Proof.Machine
end

