-- ==== Sys2Proof/Machine/Steps.lean ====
section
/-! DEFINITION. What happens to a partition between its boundaries: checkpoint exports, the export of records and journal, the
stall of a step, hard stops and the glory hole (01 R31–R34, 02 R56, 04 R117, R122–R125). -/

namespace Sys2Proof.Machine

/-- CHECKPOINT_COMPLETE (R33, R34), once the store has answered the checkpoint's last block; until then the export goes on and waits (15 R422).
The references of the older checkpoint go at the next boundary. -/
def execCheckpointComplete (p : PartId) (s : State) : Result :=
  match (s.part p).ckptNew with
  | none => .next s
  | some c =>
    if exportRuns s p 1 then .next (waits (pumpExport p s) p 5 0) else
    let s := s.modPart p (fun x => { x with
      ckpt := some c
      ckptNew := none
      ckptDrop := x.ckptDrop ++ ((x.ckpt.map (fun o => o.pages)).getD []) })
    .next (settleModule (stopHeld (s.event srcGaffer 0x0205 p.val (leBytes 8 c.step)) p))


/-- Held time of the current step, in ns: it does not count towards a stall (R56). -/
def heldNow (s : State) (x : Part) : Nat := (settleHold s true x.hold).step.toList.sum

/-- STEP_STALL (R56): once per step, when its time outside holds passes 4 times its wall bound; the partition waits on. -/
def execStepStall (p : PartId) (s : State) : Result :=
  let x := s.part p
  let w := wallBound s x x.kind
  if x.state = .running && x.released && !x.stalled && !partHeld s p then
    let s := s.reach (x.releaseAt + 4 * w + heldNow s x + 1)
    .next ((s.modPart p (fun x => { x with stalled := true })).event srcGaffer 0x0201 p.val (leBytes 8 x.step ++ leBytes 8 w))
  else .next s

/-- A core holds an issued command of the running step. -/
def holdsCommand (s : State) (p : PartId) (c : CoreId) : Bool :=
  (s.part p).inflight.any (fun e => 1 ≤ e.cls && e.cls ≤ 4 && !e.walk && physCore s (s.part p) e.inst == some c)

/-- HARD_STOP (R117, R122): a core that has been silent for 1 ms while it holds a command and its tokens are not withheld.
DESIGN CHOICE, log entry 39. -/
def execHardStop (c : CoreId) (s : State) : Result :=
  match partOfCore s c with
  | some p => if stepping s p && holdsCommand s p c then .next (hardStop s p c) else .next s
  | none => .next s

/-! ## The glory hole (R124, R125) -/

/-- Zero the four banks of a core. -/
def zeroCoreBanks (s : State) (c : CoreId) : State :=
  (List.range 4).foldl (fun s b => bankZero s (bankAddr (36 * (c.val / 8) + 4 * (c.val % 8) + b) 0) bankSize) s

/-- A partition held for want of a layout takes a core whose receipt succeeds (R124) at once, at the held boundary (R125); every change of the fenced set
since gets its entry once a layout covers it (R119). -/
def rejoinHeld (s : State) (p : PartId) (c : CoreId) : State :=
  let r := readmit p (fun t => pickLayout t (t.part p)) 1 s [c]
  if r.2.isEmpty then r.1 else
  let s := r.1
  let changes := (s.part p).unsettled ++ [none]
  match pickLayout s (s.part p) with
  | none => fenceEvent (s.modPart p (fun x => { x with unsettled := changes })) c 0 (s.part p).layout
  | some n =>
    let held := (s.part p).restored
    let s := s.modPart p (fun x => { x with layout := n, holdAt := none, unsettled := if held then changes else [] })
    let s := if held then s else layoutEntries s p n changes
    let s := fenceEvent s c 0 n
    if held then
      match (s.part p).ckpt with
      | some k => releaseRestored (putCarried s p k) p
      | none => releaseRestored s p
    else
      let stamp := ((s.part p).records.head?.map (fun r => r.boundary)).getD s.stamp
      let seen := match sourceOf s (s.part p) with
        | some src => if src.given.isNone then fun (e : JEntry) => decide (e.arrived < stamp) else src.seen
        | none => fun (e : JEntry) => decide (e.arrived < stamp)
      finishBoundary s p stamp seen

/-- A readmitted core of an ARMED partition that runs no step: when its receipt succeeds (R124) it enters service and the layout is selected
again (R126). -/
def rejoinArmed (s : State) (p : PartId) (c : CoreId) : State :=
  let r := readmit p (fun t => pickLayout t (t.part p)) 1 s [c]
  if r.2.isEmpty then r.1 else
  let s := r.1
  let s := match pickLayout s (s.part p) with
    | some n => moveOrStop (s.modPart p (fun x => { x with layout := n })) p
    | none => s
  fenceEvent s c 0 (s.part p).layout

/-- GLORY_HOLE_PASS (R124): the self-check and the zeroing end; a failure at a stage fences the core again. -/
def execGloryHolePass (c : CoreId) (failStage : Option Nat) (s : State) : Result :=
  if (s.core c).state ≠ .gloryHole then .next s
  else match failStage with
    | some g =>
      .next ((s.modCore c (fun k => { k with state := .fenced })).event c.val 0x0105 0xFF (leBytes 1 g))
    | none =>
      let s := zeroCoreBanks (s.modCore c (fun k => { k with state := .rejoinPending, causeAt := s.stamp })) c
      match partOfCore s c with
      | none => .next (fenceEvent (s.modCore c (fun k => { k with state := .inService, cause := .none })) c 0 0)
      | some p =>
        let x := s.part p
        if x.state = .running then
          if x.holdAt = some .noLayout then .next (rejoinHeld s p c) else .next s
        else if x.state = .armed then .next (rejoinArmed s p c)
        else .next (fenceEvent (s.modCore c (fun k => { k with state := .inService, cause := .none })) c 0 0)

end Sys2Proof.Machine
end

