-- ==== Sys2Proof/Machine/Partitions.lean ====
section
/-! DEFINITION. The partition orders (02 R59–R61, 15 R429): assign, load, arm, start, stop, unload, release. -/

namespace Sys2Proof.Machine

/-- The oldest due PART_ORDER with an ACTION. -/
def onPart (s : State) (action : Nat) (f : Taken → PartId → State → State) : Result :=
  onDue s 0x20 (fun m => m.field 1 1 == action) (fun t s => f t (t.part 0) s)

/-- Answer a load, arm or start order: bytes 4, 5 and 8–15 of the response (11 R300). -/
def answerPart (s : State) (t : Taken) (status code cond : Nat) (place : Bytes) : State :=
  answer s t status (zeros 3 ++ leBytes 1 code ++ leBytes 1 cond ++ zeros 2 ++ place)

/-- Assign and load fall in DRAIN and QUENCH, arm and start in DRAIN (14 R380, R381; 11 R303).
DESIGN CHOICE, log entry 36. -/
def takesNew (s : State) : Bool := s.power.state != .drain && s.power.state != .quench

/-- Two runs of `n` and `m` blocks meet. -/
def blocksMeet (a n b m : Nat) : Bool := 0 < n && 0 < m && a < b + m && b < a + n

/-! ## Assign and release -/

/-- The clusters that a CLUSTERS byte names, in ascending number (02 R42). -/
def clustersOf (mask : Nat) : List ClusterId := (List.finRange 8).filter (fun k => bitOf mask k.val)

/-- An assignment would share a cluster, a queue block or a tally block (R60), or take a cluster outside the free set: its stack failed
training (16 R438). -/
def assignConflict (s : State) (p : PartId) (ks : List ClusterId) (fq nq ft nt : Nat) : Bool :=
  ks.any (fun k => !(s.cluster k).trained) ||
  (List.finRange 8).any (fun o => o != p && (s.part o).state != .free &&
    ((s.part o).clusters.any (fun k => ks.contains k) || blocksMeet fq nq (s.part o).firstQ (s.part o).nQ ||
     blocksMeet ft nt (s.part o).firstT (s.part o).nT))

/-- PART_ASSIGN (R59, R60; 05 R154). -/
def execPartAssign (s : State) : Result :=
  onPart s 1 (fun t p s =>
    let ks := clustersOf (t.field 3 1)
    if !takesNew s || (s.part p).state ≠ .free then answerBare s t 0x10
    else if assignConflict s p ks (t.field 4 1) (t.field 6 2) (t.field 8 1) (t.field 10 2) then answerBare s t 0x03
    else
      let s := s.modPart p (fun x => { x with
        clusters := ks, firstQ := t.field 4 1, nQ := t.field 6 2, firstT := t.field 8 1, nT := t.field 10 2 })
      answerBare (enterClearing s p) t 0x00)

/-- PART_RELEASE: the clusters return to the free set with their clean marks. -/
def execPartRelease (s : State) : Result :=
  onPart s 7 (fun t p s =>
    if (s.part p).state ≠ .clear then answerBare s t 0x10
    else answerBare (s.modPart p (fun x => { x with state := .free, clusters := [], firstQ := 0, nQ := 0, firstT := 0, nT := 0 })) t 0x00)

/-! ## Load -/

/-- Note a loader result in PART_p_LOADRES. -/
def setLoad (s : State) (p : PartId) (code detail : Nat) : State := s.modPart p (fun x => { x with loadCode := code, loadDetail := detail })

/-- PART_LOAD (R61): an accepted image enters LOADED and its clusters' clean marks go (05 R154).
DESIGN CHOICE, log entry 35. DESIGN CHOICE, log entry 36. -/
def execPartLoad (img : Image) (s : State) : Result :=
  onPart s 2 (fun t p s =>
    if !takesNew s || (s.part p).state ≠ .clear then answerBare s t 0x10
    else match loadFail s p img with
      | some r => answerPart (setLoad s p r.code r.detail) t 0x10 r.code 0 r.place
      | none =>
        let s := (s.part p).clusters.foldl (fun s k => s.modCluster k (fun c => { c with clean := false })) (setLoad s p 1 0)
        let s := s.modPart p (fun x => { x with state := .loaded, image := some img, seedSet := false, seedGen := 0, seedNext := [], adapters := [] })
        answerPart s t 0x00 0x01 0 noPlace)

/-! ## Arm -/

/-- The arming condition that fails (R429), 0 when none does. DESIGN CHOICE, log entry 61. -/
def armCondition (x : Part) (img : Image) (flags : Nat) : Nat :=
  let unchecked := (List.range img.chunks.length).filter (fun n => !x.keys.checked.contains n)
  if unchecked.any (fun n => !x.keys.failedChunks.contains n) then 1
  else if !unchecked.isEmpty then 2
  else if !img.chunks.isEmpty && x.keys.model.isNone then 3
  else if x.keys.store.isNone && (bitOf flags 2 || bitOf flags 0 || img.checkpoint != 0 || img.spill != 0 || x.claim.paired) then 4
  else if !x.seedSet then 5
  else 0

/-- An engine's slots and context blocks of a partition reach what its image declares (09 R248). -/
def videoEnough (v : VidEngine) (p : PartId) (d : VideoDecl) : Bool :=
  d.minSlots ≤ ((v.ownersNext.getD v.owners).toList.filter (fun o => o == some p)).length && d.contexts ≤ 16 * v.ctxBlocks.get p

/-- Both engines hold the slots and contexts that the image of a partition declares. -/
def videoHeld (s : State) (p : PartId) (img : Image) : Bool :=
  (List.finRange 2).all (fun d => match img.video[d.val]? with | some v => videoEnough (s.engine d) p v | none => true)

/-- The job table is complete, and keys are live with every member of a compute job that the exchange graph links (12 R330). -/
def jobReady (x : Part) : Bool :=
  match x.job with
  | some j => j.mirror || (j.members.length == j.total && j.members.all (fun m => m.1 == j.own || m.2.keys.live ||
      !((x.image.map (fun i => i.links)).getD []).any (fun l => (l.1 == j.own && l.2 == m.1) || (l.2 == j.own && l.1 == m.1))))
  | none => true

/-- A partition as arming leaves it, before its memory is written: step 0 ready, every count at 0 (R52, R59). An arm order without EXPORT and
REPLAY carries no locator (11 R300): its region has no bound (DESIGN CHOICE, log entry 129). -/
def armedPart (x : Part) (img : Image) (flags layout : Nat) (spill : Nat × Nat × Nat) (length : Nat) : Part :=
  { x with
    state := .armed
    loadCode := 1
    loadDetail := 0
    replay := bitOf flags 0
    paced := bitOf flags 1
    exporting := bitOf flags 2
    spill := spill
    exportAt := img.spill
    exportRest := []
    exportPaid := 0
    spillLength := length
    houseMoved := []
    step := 0
    kind := 0
    layout := layout
    epoch := 0
    boundary := 0
    released := false
    releaseAt := 0
    history := []
    stalled := false
    tallySat := false
    holdAt := none
    seedGen := 0
    seedNext := []
    seeds := [(0, x.seed)]
    tallies := List.replicate (64 * x.nT) 0
    bases := List.replicate (64 * x.nT) 0
    queues := (img.queues.filter (fun d => d.inUse)).map (fun d => { queue := d.queue, head := 0, tail := 0, issued := 0, count := 0, step := 0 })
    turns := []
    inflight := []
    chans := []
    journal := []
    nextSeq := 0
    firstSeq := 0
    records := []
    supplied := []
    exported := 0
    exportLag := false
    stepWork := 0
    emitted := []
    emits := []
    stopWanted := none
    unloadWanted := false
    rotateWanted := none
    settingsNext := []
    serving := Serving.init
    seqs := []
    nextSeqNo := 1
    cancels := []
    status := []
    batch := []
    admitted := 0
    rejected := 0
    cancelled := 0
    period := 0
    lastMove := none
    calm := 0
    pausedStack := []
    entered := 0
    ckpt := none
    ckptNew := none
    ckptPages := []
    ckptDrop := []
    restored := false
    catchUp := none
    rings := img.rings.map (fun g => { ring := g.ring, slot := 0, full := [], arriving := none })
    credits := []
    tables := img.tables
    frames := 0
    decErrors := 0
    encErrors := 0
    walkDone := []
    unsettled := []
    houseTodo := []
    houseUsed := []
    houseOwed := 0
    houseSeen := (0, 0)
    videoMoved := []
    sent := []
    claim := { x.claim with raises := 0, demotions := 0 } }

/-- Put a partition at step 0 of its image (R59; 02 R485; 05 R133; 07 R200, R204; 09 R249): its fields, lists, page tables,
closed contexts, and the owners of its banks. -/
def armNow (s : State) (p : PartId) (img : Image) (flags layout : Nat) (spill : Nat × Nat × Nat) (length : Nat) : State :=
  let s := (settleHolds s).modPart p (fun x => armedPart x img flags layout spill length)
  let s := closeContexts (armKv (writeLists s p) p) p
  let s := s.modPart p (fun x => { x with kind := selectKind x (fun _ => false), places := carriedPlaces s x })
  writeOwners s p

/-- The checkpoint from which a replay starts: the one served, when it lies at or before the first step asked for (01 R36). -/
def replayStart (x : Part) (u : ReplaySupply) : Option Checkpoint :=
  u.checkpoint.bind (fun c => if c.step ≤ (x.replaySet.map (fun r => r.first)).getD 0 then some c else none)

/-- A replay stands at the checkpoint that the store tray serves, or at step 0, with the supplied journal and records, and holds claim
number 0 (01 R35, R36).
That checkpoint is its newest complete one (R34), and exports go on from its step. -/
def armReplay (s : State) (p : PartId) (layout : Nat) (u : ReplaySupply) : State :=
  let start := replayStart (s.part p) u
  let s := (setClaim s p 0).modPart p (fun x => { x with
    supplied := u.records
    journal := u.journal.map (fun e => { e with buffer := none })
    entered := (start.map (fun c => c.step)).getD 0
    exported := (start.map (fun c => c.step)).getD 0
    ckpt := start })
  match start with
  | some c => restore s p c layout
  | none => s

/-- PART_ARM (R429): the tests in their order, then the partition is ARMED. DESIGN CHOICE, log entry 61. -/
def execPartArm (supply : ReplaySupply) (s : State) : Result :=
  onPart s 3 (fun t p s =>
    let flags := t.field 2 1
    match (s.part p).image with
    | none => answerBare s t 0x10
    | some img =>
      if s.power.state = .drain || (s.part p).state ≠ .loaded || (bitOf flags 0 && (s.part p).replaySet.isNone) then answerBare s t 0x10
      else if s.power.latch then answerBare s t 0x01
      else match armFail s p img (bitOf flags 1) with
        | some r => answerPart (setLoad s p r.code r.detail) t 0x10 r.code 0 []
        | none =>
          let c := armCondition (s.part p) img flags
          if c ≠ 0 then answerPart s t 0x10 0x01 c []
          else if !videoHeld s p img then answerBare s t 0x08
          else match pickLayout s (s.part p) with
            | none => answerBare s t 0x06
            | some n =>
              if !jobReady (s.part p) then answerBare s t 0x01
              else
                let s := armNow s p img flags n (t.field 16 2, t.field 18 2, t.field 24 8)
                  (if bitOf flags 0 || bitOf flags 2 then t.field 32 8 else 2 ^ 64)
                answerPart (if bitOf flags 0 then armReplay s p n supply else s) t 0x00 0x01 0 [])

/-! ## Start, stop, unload -/

/-- A partition begins to run: the module leaves READY for RUN (14 R379). -/
def beginRun (s : State) (p : PartId) : State :=
  let s := (settleHolds s).modPart p (fun x => { x with state := .running, stopWanted := none, unloadWanted := false, entered := x.step, history := [], lastMove := none, calm := 0, claim := { x.claim with beatAt := none } })
  if s.power.state = .ready then s.modPower (fun w => { w with state := .run }) else s

/-- PART_START (R429): the check 0x27 against the bindings in force. DESIGN CHOICE, log entry 61. -/
def execPartStart (s : State) : Result :=
  onPart s 4 (fun t p s =>
    match (s.part p).image with
    | none => answerBare s t 0x10
    | some img =>
      if s.power.state = .drain || (s.part p).state ≠ .armed then answerBare s t 0x10
      else if s.power.latch then answerBare s t 0x01
      else match streamFail s p img with
        | some n => answerPart (setLoad s p 0x27 n) t 0x10 0x27 0 []
        | none => answerPart (beginRun s p) t 0x00 0x01 0 [])

/-- Note a stop or unload order with the instant of its acceptance: it takes effect at the first boundary whose stamp is later (01
R21), at once when the partition is held at one. -/
def wantStop (s : State) (p : PartId) (unload : Bool) : State :=
  let s := s.modPart p (fun x => { x with stopWanted := some (x.stopWanted.getD s.stamp), unloadWanted := x.unloadWanted || unload })
  if (s.part p).holdAt.isSome && !(s.part p).released then stopBoundary s p else s

/-- PART_STOP. -/
def execPartStop (s : State) : Result :=
  onPart s 5 (fun t p s => if (s.part p).state = .running then answerBare (wantStop s p false) t 0x00 else answerBare s t 0x10)

/-- PART_UNLOAD: a RUNNING partition stops first. -/
def execPartUnload (s : State) : Result :=
  onPart s 6 (fun t p s =>
    match (s.part p).state with
    | .running => answerBare (wantStop s p true) t 0x00
    | .armed => answerBare (enterClearing s p) t 0x00
    | .loaded => answerBare (enterClearing s p) t 0x00
    | _ => answerBare s t 0x10)

end Sys2Proof.Machine
end

