-- ==== Sys2Proof/Machine/Claims.lean ====
section
/-! DEFINITION. Claims, heartbeats, following and re-entry (13 R353–R373). -/

namespace Sys2Proof.Machine

/-! ## Ranks and detection (R355, R363) -/

/-- A claim ranks above another: it is higher, or equal and from the lower place (R355). -/
def outranks (c place d other : Nat) : Bool := d < c || (c == d && place < other)

/-- Pm in ns (R363). -/
def holderPeriod (c : Claim) : Ns :=
  match c.beats.head?, c.beats[16]? with
  | some a, some b => (a.2 - b.2) / 16
  | _, _ => ms c.detectMin

/-- DETECT in ns (R363). -/
def detectTime (c : Claim) : Ns := max (c.detectSteps * holderPeriod c) (ms c.detectMin)

/-! ## Raising, demoting, re-entering (R364–R366, R370) -/

/-- A claim that no module ever uses (R355). -/
def topClaim : Nat := 0xFFFFFFFF

/-- Raise the claim to a value above HIGHEST; a raise that would reach the top is not made (R355, R365), and a partition in replay mode
never raises (01 R35). DESIGN CHOICE, log entry 116. -/
def raiseTo (s : State) (p : PartId) (v : Nat) : State :=
  let c := (s.part p).claim
  if (s.part p).replay then s
  else if topClaim ≤ v then s.event srcGaffer 0x0213 p.val (leBytes 4 c.highest.toNat)
  else
    let s := s.event srcGaffer 0x0211 p.val (leBytes 4 c.claim.toNat ++ leBytes 4 v)
    setClaim (s.modClaim p (fun c => { c with raises := satAdd 8 c.raises 1, role := .holder, leader := true, lost := false, waitPart := none })) p (BitVec.ofNat 32 v)

/-- The frames that the old leader never journaled take the sequence numbers after its last, in the order of their arrival (R364). -/
def assignSeqs : Nat → List JEntry → List JEntry
  | _, [] => []
  | n, e :: es => if e.paired then e :: assignSeqs n es else { e with seq := n, paired := true } :: assignSeqs (n + 1) es

/-- Lead: number the frames that are still unpaired, and drop what waits for a leader. DESIGN CHOICE, log entry 116. -/
def takeLead (s : State) (p : PartId) : State :=
  s.modPart p (fun x =>
    let n := (x.journal.filter (fun e => !e.paired)).length
    { x with
      journal := assignSeqs x.nextSeq x.journal
      nextSeq := x.nextSeq + n
      claim := { x.claim with sentSeq := x.nextSeq, unmatched := [], holderOcrc := [] } })

/-- Raise and lead, unless the raise is not made (R364). -/
def raiseClaim (s : State) (p : PartId) (v : Nat) : State :=
  if topClaim ≤ v || (s.part p).replay then raiseTo s p v else takeLead (raiseTo s p v) p

/-- Give up the place in the pair: claim 0, GLORY_HOLE, nothing led (R366, R370). DESIGN CHOICE, log entry 115. -/
def enterGlory (s : State) (p : PartId) : State :=
  let s := s.modPart p (fun x => { x with
    released := false
    restored := false
    inflight := []
    emits := []
    chans := []
    holdAt := if x.state = .running then some .gloryHole else x.holdAt
    claim := { x.claim with good := 0, sections := [], parts := [], unmatched := [], snapshot := none, holderOcrc := [], waitPart := none, wanted := false } })
  yieldClaim s p

/-- Ask the leader for a snapshot (R370). -/
def askReentry (s : State) (p : PartId) : State :=
  sendPart (s.modClaim p (fun c => { c with wanted := true })) p 4 (s.part p).claim.pacePct (s.part p).step 0 []

/-- Leave for GLORY_HOLE and start re-entry. -/
def startReentry (s : State) (p : PartId) : State := askReentry (enterGlory s p) p

/-- A leader that observes a claim ranking above its own (R366). -/
def demote (s : State) (p : PartId) (c place : Nat) : State :=
  let s := (s.modClaim p (fun d => { d with demotions := satAdd 8 d.demotions 1 })).event srcGaffer 0x0212 p.val (leBytes 4 c ++ leBytes 2 place)
  startReentry s p

/-- A claim that is observed on a heartbeat or in a decision part (R358, R366). -/
def observe (s : State) (p : PartId) (c place : Nat) : State :=
  let s := s.modClaim p (fun d => { d with highest := if d.highest.toNat < c then BitVec.ofNat 32 c else d.highest })
  if (s.part p).claim.leader && outranks c place (s.part p).claim.claim.toNat s.place then demote s p c place else s

/-- The holder is lost (R363): a STANDBY raises; a re-entry fails; another member in GLORY_HOLE holds its partition, at its next boundary when
a step runs (R372). -/
def loseHolder (s : State) (p : PartId) : State :=
  let c := (s.part p).claim
  if c.role = .standby then raiseClaim s p (c.highest.toNat + 1)
  else if reentryOpen c && !c.lost then reentryFail (s.modClaim p (fun c => { c with lost := true })) p 3
  else s.modPart p (fun x => { x with
    holdAt := if c.role = .gloryHole && x.state = .running && !x.released then some .gloryHole else x.holdAt
    claim := { x.claim with lost := true } })

/-! ## Heartbeats (R357, R358) -/

/-- HEARTBEAT_TIMER: 500 µs without a boundary or a change of claim. -/
def execHeartbeatTimer (p : PartId) (s : State) : Result :=
  if (s.part p).claim.paired then .next (sendBeat (s.reach ((s.part p).claim.lastSent + us 500)) p) else .next s

/-- The paired partition that a record concerns. -/
def beatPart (s : State) (h : Heartbeat) : Option PartId :=
  (List.finRange 8).find? (fun p =>
    let c := (s.part p).claim
    c.paired && c.partner == h.place && c.serial == h.serial && c.group == h.group)

/-- What an accepted record tells of the partner: its boundary, its OCRC, and whether its re-entry has ended. -/
def noteBeat (s : State) (p : PartId) (h : Heartbeat) : State :=
  s.modClaim p (fun c =>
    let newStep := match c.beats.head? with | some b => b.1 != h.step | none => true
    { c with
      lastBeat := some s.now
      lost := c.lost && (h.claim == 0 || bitOf h.bflags 3)
      beats := if newStep then ((h.step, h.time) :: c.beats).take 17 else c.beats
      holderOcrc := if newStep && h.step != 0 && !c.leader then c.holderOcrc ++ [(h.step, BitVec.ofNat 32 h.ocrc)] else c.holderOcrc
      snapshot := if c.leader && !bitOf h.bflags 1 then none else c.snapshot
      pacePct := if c.leader && !bitOf h.bflags 1 && !c.wanted then 0 else c.pacePct })

/-- HEARTBEAT_RECEIVE (R358, R363, R366): a partner's record of a group that is in no pair here concerns no partition. During a lane test
no record is received. -/
def execHeartbeatReceive (h : Heartbeat) (s : State) : Result :=
  if s.power.state = .off || s.lanes.testing then .next s else
  let discardBeat := fun (s : State) => s.modLanes (fun l => { l with discards := satAdd 16 l.discards 1 })
  if h.rcrc ≠ crc32c (beatBytes h) then .next (discardBeat s)
  else
    let to_ := if h.cabinet = s.plan.cabinet then beatPart s h else none
    let mine := s.parts.toList.any (fun x => x.claim.paired && x.claim.partner == h.place && x.claim.serial == h.serial)
    let s := s.modLanes (fun l => { l with far := some (h.place, mine) })
    match to_ with
    | none => .next (if mine && h.cabinet = s.plan.cabinet then s else discardBeat s)
    | some p =>
      let s := observe (noteBeat s p h) p h.claim h.place
      .next (if h.claim = 0 || bitOf h.bflags 3 then (if (s.part p).claim.leader then s else loseHolder s p) else s)

/-- HOLDER_LOST (R363): no heartbeat for DETECT. -/
def execHolderLost (p : PartId) (s : State) : Result :=
  let c := (s.part p).claim
  match c.lastBeat with
  | some t => if c.paired && !c.lost then .next (loseHolder (s.reach (t + detectTime c)) p) else .next s
  | none => .next s

/-- PEER_RX_SYNC_LOST and PEER_RX_SYNC_GAINED (R374). -/
def execPeerRxSyncLost (s : State) : Result := .next (s.modLanes (fun l => { l with rxSync := false }))
def execPeerRxSyncGained (s : State) : Result := .next (s.modLanes (fun l => { l with rxSync := true }))

/-! ## Parts over the mirror set (R359, R370) -/

def partKind (bs : Bytes) : Nat := if fieldAt bs 0 4 = 0x54524150 then fieldAt bs 4 1 else 0
def partPace (bs : Bytes) : Nat := fieldAt bs 6 1
def partStep (bs : Bytes) : Nat := fieldAt bs 8 8
def partClaim (bs : Bytes) : Nat := fieldAt bs 16 4
def partSection (bs : Bytes) : Nat := fieldAt bs 20 4
def partBody (bs : Bytes) : Bytes := slice bs 64 (fieldAt bs 24 8)

/-- Take the next SNAPSHOT frame when its message is of the row's KIND, or of none (others are discarded); the last frame of a message
goes on with its bytes. -/
def onPartFrame (s : State) (kind : Nat) (f : PartId → Bytes → State → State) : Result :=
  match takeInbox s (fun e => e.2.typ == 0x12 && firstOfSender s e) with
  | none => .next s
  | some (e, t) =>
    match openJob t e.1 e.2 with
    | (none, t) => .next t
    | (some (p, _, pt), t) =>
      match joinPiece (s.part p).partIn e.2 pt with
      | none => .next t
      | some bs =>
        let k := partKind bs
        if within k 1 4 && k ≠ kind then .next s
        else if !bitOf e.2.fflags 0 then .next (t.modPart p (fun x => { x with partIn := some (e.2.msg, bs) }))
        else
          let t := t.modPart p (fun x => { x with partIn := none })
          .next (if k = kind && (t.part p).claim.paired then f p bs t else t)

/-- A block of 16 bytes is a decision entry. DEDUCED, log entry 22. -/
def decisionLike (bs : Bytes) : Bool := within (fieldAt bs 0 1) 1 13 && zeroAt bs 1 1

/-- Blocks of 32 bytes are journal entries of consecutive SEQ, the first not after `next`. DEDUCED, log entry 22. -/
def journalLike (next : Nat) (bs : Bytes) : Bool :=
  let n := bs.length / 32
  let q := fieldAt bs 0 8
  bs.length % 32 == 0 && (n == 0 || q ≤ next) && (List.range n).all (fun i => fieldAt bs (32 * i) 8 == q + i && zeroAt bs (32 * i + 30) 2)

/-- A decision part's body: decision entries, then journal entries. The manual marks no border between them; it is the first that lets
both sides read as what they are (DEDUCED, log entry 22). -/
def splitPart (next : Nat) (body : Bytes) : List Decision × List JEntry :=
  let n := body.length / 16
  let ok := fun (a : Nat) => (List.range a).all (fun i => decisionLike (slice body (16 * i) 16)) && journalLike next (body.drop (16 * a))
  let a := ((List.range (n + 1)).find? ok).getD n
  ((List.range a).map (fun i => decisionOf (slice body (16 * i) 16)),
   (List.range ((body.length - 16 * a) / 32)).map (fun i => journalOf (slice body (16 * a + 32 * i) 32)))

/-- The receive stream of a leader's entry: the stream of its type bound here to its PORT and VC, else the first of its type that lands copies,
else the first of its type. DESIGN CHOICE, log entry 113. -/
def entryStream (s : State) (p : PartId) (e : JEntry) : Nat :=
  let mine := (((s.part p).image.map (fun g => g.streams)).getD []).filter (fun d => !d.transmit && d.dt == e.dt)
  let bound := mine.find? (fun d => s.csi.bindings.any (fun b => b.part == p && !b.transmit && b.stream == d.stream && b.port.val == e.port && b.vc == e.vc))
  (((bound.orElse (fun _ => mine.find? (fun d => copyBound s p d.stream))).orElse (fun _ => mine.head?)).map (fun d => d.stream)).getD 0

/-- The journal after a part's entries, and the SEQ after the last. -/
def takePartEntries (x : Part) (es : List JEntry) (now : Ns) : Part :=
  let x := es.foldl (fun x e => takeEntry x e now) x
  { x with nextSeq := match es.getLast? with | some e => max x.nextSeq (e.seq + 1) | none => x.nextSeq }

/-- A follower takes a decision part. DESIGN CHOICE, log entry 113. -/
def takeDecisions (s : State) (p : PartId) (bs : Bytes) : State :=
  s.modPart p (fun x =>
    let d := splitPart x.nextSeq (partBody bs)
    let x := takePartEntries x (d.2.map (fun e => { e with stream := entryStream s p e })) s.now
    { x with claim := { x.claim with parts := x.claim.parts.filter (fun e => e.1 != partStep bs) ++ [(partStep bs, x.nextSeq, d.1)] } })

/-- DECISION_PART (R359): its CLAIM is observed, and a follower keeps the part for its boundary. -/
def execDecisionPart (s : State) : Result :=
  onPartFrame s 1 (fun p bs s =>
    let s := observe s p (partClaim bs) (s.part p).claim.partner
    if follows (s.part p) then takeDecisions s p bs else s)

/-- Sections of a snapshot. DESIGN CHOICE, log entry 38. -/
def sectionCount : Nat := 6

/-- A LOADED member takes the state of an armed and started one, from which the snapshot is restored.
DESIGN CHOICE, log entry 115. -/
def standUp (s : State) (p : PartId) : State :=
  match (s.part p).image with
  | some img =>
    if (s.part p).state = .loaded then
      match pickLayout s (s.part p) with
      | some n => beginRun (armNow s p img 0 n (0, 0, 0) (2 ^ 64)) p
      | none => s
    else if (s.part p).state = .armed then beginRun s p
    else s
  | none => s

/-- Restore a snapshot (R370): the member runs from its step under the parts. DESIGN CHOICE, log entry 115. -/
def restoreSnapshot (s : State) (p : PartId) (c : Checkpoint) : State :=
  let s := standUp s p
  if (s.part p).state ≠ .running then s
  else match pickLayout s (s.part p) with
    | none => s
    | some n =>
      let s := restore s p c n
      s.modPart p (fun x => { x with
        holdAt := none
        records := []
        exported := c.step
        entered := c.step
        history := []
        calm := 0
        lastMove := none
        nextSeq := max x.nextSeq c.nextSeq
        ckpt := none
        ckptNew := none
        claim := { x.claim with sections := [], snapshot := some c.step, good := 0 } })

/-- SNAPSHOT_SECTION (R370): the last section restores the snapshot. -/
def execSnapshotSection (s : State) : Result :=
  onPartFrame s 2 (fun p bs s =>
    if (s.part p).claim.role ≠ .gloryHole then s
    else
      let s := s.modClaim p (fun c => { c with
        parts := if c.sections.isEmpty then c.parts.filter (fun e => partStep bs ≤ e.1) else c.parts
        sections := assocSet (partSection bs) (partBody bs) c.sections })
      let held := (s.part p).claim.sections
      if held.length < sectionCount then s
      else match Config.sectionsRead held with
        | some c => restoreSnapshot s p c
        | none => s.modClaim p (fun c => { c with sections := [] }))

/-- A journal entry with its payload joins the re-entering member's journal, in place of a frame that it landed itself.
DESIGN CHOICE, log entry 113. -/
def addKept (s : State) (p : PartId) (e : JEntry) (data : Bytes) : State :=
  let e := { e with
    stream := entryStream s p e
    payload := if bitOf e.flags 3 then none else some data
    marks := List.replicate (data.length / 64) false }
  s.modPart p (fun x =>
    if x.journal.any (fun j => j.paired && j.seq == e.seq) then x
    else { x with journal := journalInsert e (match partnerOf x.journal e with | some j => x.journal.erase j | none => x.journal), nextSeq := max x.nextSeq (e.seq + 1) })

/-- SNAPSHOT_JOURNAL (R370, R372): a payload that has left the leader's journal fails the re-entry. -/
def execSnapshotJournal (s : State) : Result :=
  onPartFrame s 3 (fun p bs s =>
    if (s.part p).claim.role ≠ .gloryHole then s
    else
      let e := journalOf ((partBody bs).take 32)
      let data := (partBody bs).drop 32
      if !bitOf e.flags 3 && data.length ≠ e.length then reentryFail s p 1 else addKept s p e data)

/-- REENTRY_REQUEST (R370): the leader takes a snapshot at its next boundary without a running export. -/
def execReentryRequest (s : State) : Result :=
  onPartFrame s 4 (fun p bs s =>
    if (s.part p).claim.leader then s.modClaim p (fun c => { c with wanted := true, pacePct := partPace bs }) else s)

/-- FOLLOWER_UNMATCHED (R360): an entry unmatched for FE_TIMEOUT, or a wait of DETECT for a part. -/
def execFollowerUnmatched (p : PartId) (s : State) : Result :=
  let c := (s.part p).claim
  if !follows (s.part p) then .next s
  else match c.unmatched.head?, c.waitPart with
    | some u, _ =>
      let s := s.reach (u.2 + us s.csi.timeout)
      .next (if c.role = .standby then startReentry s p else if reentryOpen c then reentryFail s p 1 else s)
    | none, some t =>
      if c.role = .standby && !c.lost then .next (startReentry (s.reach (t + detectTime c)) p) else .next s
    | none, none => .next s

/-! ## Orders (R353, R373) -/

/-- The partner is the other member of the partition's mirror set. DESIGN CHOICE, log entry 114. -/
def mirrorMember (x : Part) (place serial : Nat) : Bool :=
  match x.job with
  | some j => j.mirror && j.members.any (fun m => m.1 != j.own && m.2.place == place && m.2.serial == serial)
  | none => false

/-- CLAIM_PAIR (R353, R355). DESIGN CHOICE, log entry 114. DESIGN CHOICE, log entry 138. -/
def execClaimPair (s : State) : Result :=
  onDue s 0x38 (fun _ => true) (fun t s =>
    let p := t.part 0
    let place := t.field 4 2
    let serial := t.field 8 8
    let other := (List.finRange 8).any (fun q => q != p && (s.part q).claim.paired &&
      ((s.part q).claim.partner != place || (s.part q).claim.serial != serial))
    if place / 32 = s.fuses.tray || !mirrorMember (s.part p) place serial || other then answerBare s t 0x03
    else if (s.part p).state = .running then answerBare s t 0x10
    else
      let holder := t.field 1 1 == 1
      let v : BitVec 32 := if (s.part p).replay then 0 else if holder then 2 else 1
      let c : Claim := { Claim.init with
        role := if holder then .holder else .standby
        paired := true
        group := t.field 2 2
        partner := place
        serial := serial
        detectSteps := if t.field 6 1 = 0 then 2 else t.field 6 1
        detectMin := if t.field 7 1 = 0 then 2 else t.field 7 1
        claim := v
        highest := v
        leader := holder
        lastBeat := some s.now
        raises := (s.part p).claim.raises
        demotions := (s.part p).claim.demotions }
      answerBare (sendBeat (s.modClaim p (fun _ => c)) p) t 0x00)

/-- The partition may take a CLAIM_SET order (R373). -/
def mayClaim (x : Part) : Bool := x.claim.paired && x.claim.role != .gloryHole

/-- CLAIM_SET with VALUE 0. -/
def execClaimYield (s : State) : Result :=
  onDue s 0x39 (fun m => m.field 4 4 == 0) (fun t s =>
    if mayClaim (s.part (t.part 0)) then answerBare (yieldClaim s (t.part 0)) t 0x00 else answerBare s t 0x10)

/-- CLAIM_SET with a raise: the partition leads (R365, R366); one in replay mode never raises (01 R35). DESIGN CHOICE, log entry 116. -/
def execClaimRaise (s : State) : Result :=
  onDue s 0x39 (fun m => m.field 4 4 != 0) (fun t s =>
    let p := t.part 0
    let v := t.field 4 4
    if !mayClaim (s.part p) || (s.part p).replay then answerBare s t 0x10
    else if v ≤ (s.part p).claim.highest.toNat then answerBare s t 0x04
    else if topClaim ≤ v then answerBare (raiseTo s p v) t 0x04
    else answerBare (if (s.part p).claim.leader then raiseTo s p v else raiseClaim s p v) t 0x00)

/-- CLAIM_UNPAIR (R373). -/
def execClaimUnpair (s : State) : Result :=
  onDue s 0x3A (fun _ => true) (fun t s =>
    let p := t.part 0
    if (s.part p).state = .running then answerBare s t 0x10
    else answerBare (s.modPart p (fun x => { x with holdAt := if x.holdAt = some .gloryHole then none else x.holdAt, claim := Claim.init })) t 0x00)

/-- CLAIM_REENTER (R370, R373). DESIGN CHOICE, log entry 114. -/
def execClaimReenter (s : State) : Result :=
  onDue s 0x3B (fun _ => true) (fun t s =>
    let p := t.part 0
    let x := s.part p
    if !x.claim.paired || (x.state ≠ .loaded && x.claim.role ≠ .gloryHole) then answerBare s t 0x10
    else
      let pace := if t.field 1 1 = 0xFF then 10 else t.field 1 1
      let s := s.modClaim p (fun c => { c with pacePct := pace, tries := 0, lost := false })
      answerBare (startReentry s p) t 0x00)

end Sys2Proof.Machine
end

