-- ==== Sys2Proof/Machine/Maintenance.lean ====
section
/-! DEFINITION. The maintenance pairs of a stack: scrub and key sweep (05 R148–R151, R157–R159). -/

namespace Sys2Proof.Machine

/-- Bytes of half a page, and 64-byte units in it. -/
def halfPage : Nat := 32768
def halfUnits : Nat := 512

/-- Pages of a partition space (R140). -/
def spacePages : Nat := 1044480

/-- An uncorrectable unit of a stack: the poison pattern is written into it, and the first finding makes a record (R158, R159). -/
def poisonUnit (s : State) (k : ClusterId) (off : Nat) : State :=
  let w := stackAddr k off / 64
  if s.mem.stackFlips.contains w then foundUnit s w
  else if s.mem.stackPoison.contains w then s
  else foundUnit (stackMark s w) w

/-- A unit that the scrub corrects and writes back; one corrected in the pass before too is weak. DESIGN CHOICE, log entry 57. -/
def correctUnit (s : State) (k : ClusterId) (u : Nat) : State :=
  let s := { s with mem := { s.mem with stackSingles := markClear s.mem.stackSingles (stackAddr k (64 * u) / 64) 1 } }
  let s := s.modCluster k (fun c => { c with corrected := c.corrected ++ [u], correctable := c.correctable + 1 })
  if (s.cluster k).lastPass.contains u then s.event (srcCluster k) 0x0302 0xFF (leBytes 1 k.val ++ zeros 7 ++ leBytes 8 (64 * u)) else s

/-- The scrub of a stack moves on by half a page; at the end of the stack its pass ends, with a record when it corrected more
than 1,000 units. DESIGN CHOICE, log entry 70. -/
def advanceScrub (s : State) (k : ClusterId) : State :=
  let c := s.cluster k
  if c.scrubAt + halfPage < stackSize then s.modCluster k (fun c => { c with scrubAt := c.scrubAt + halfPage })
  else
    let s := if 1000 < c.corrected.length then s.event (srcCluster k) 0x0303 0xFF (leBytes 1 k.val ++ zeros 3 ++ leBytes 4 c.corrected.length) else s
    s.modCluster k (fun c => { c with scrubAt := 0, scrubPass := c.scrubPass + 1, lastPass := c.corrected, corrected := [] })

/-- The units of the half page at a unit in rising order that a list names, or where a bit error waits for a read. -/
def unitsIn (l waiting : List Nat) (first : Nat) : List Nat := (List.range halfUnits).filter (fun u => l.contains u || waiting.contains (first + u))

/-- HBM_SCRUB (R158, R159): one half page; `corrected` and `uncorrectable` name its units by number.
DESIGN CHOICE, log entry 57. -/
def execHbmScrub (k : ClusterId) (corrected uncorrectable : List Nat) (s : State) : Result :=
  let c := s.cluster k
  if !c.trained || c.selfRefresh then .next s
  else
    let first := stackAddr k c.scrubAt / 64
    let bad := unitsIn uncorrectable s.mem.stackFlips first
    let s := (unitsIn corrected s.mem.stackSingles first).foldl (fun s u => if bad.contains u then s else correctUnit s k (c.scrubAt / 64 + u)) s
    let s := bad.foldl (fun s u => poisonUnit s k (c.scrubAt + 64 * u)) s
    .next (advanceScrub s k)

/-- A sweep has ended in every stack of a partition: the previous keys are zeroed (R150). DESIGN CHOICE, log entry 70. -/
def sweepDone (s : State) (k : ClusterId) : State :=
  match partOfCluster s k with
  | none => s.modCluster k (fun c => { c with prev := none })
  | some p =>
    if sweeping s (s.part p) then s else
    ((s.part p).clusters.foldl (fun s k => s.modCluster k (fun c => { c with prev := none })) s).event (srcCluster k) 0x0305 p.val (leBytes 4 (s.part p).keys.memGen)

/-- KEY_SWEEP (R148–R151): one half of the page under sweep is read under the previous key and rewritten under the current one, which
from then on is its key (`unitKey`).
DESIGN CHOICE, log entry 57. -/
def execKeySweep (k : ClusterId) (uncorrectable : List Nat) (s : State) : Result :=
  let c := s.cluster k
  match c.sweep with
  | none => .next s
  | some g =>
    if c.selfRefresh then .next s else
    let off := g * 65536 + (if c.halfDone then halfPage else 0)
    let first := stackAddr k off / 64
    let bad := unitsIn uncorrectable s.mem.stackFlips first
    let s := meetStack s (stackAddr k off) halfPage
    let s := { s with mem := { s.mem with stackSingles := markClear s.mem.stackSingles first halfUnits } }
    let s := bad.foldl (fun s u => poisonUnit s k (off + 64 * u)) s
    if !c.halfDone then .next (s.modCluster k (fun c => { c with halfDone := true }))
    else if g + 1 < spacePages then .next (s.modCluster k (fun c => { c with sweep := some (g + 1), halfDone := false }))
    else .next (sweepDone (s.modCluster k (fun c => { c with sweep := none, halfDone := false })) k)

end Sys2Proof.Machine
end

