-- ==== Sys2Proof/Machine/Power.lean ====
section
/-! DEFINITION. Module states, supply levels, caps, QUENCH and the presence contact (14 R379–R396, R409; 17 R456–R461). -/

namespace Sys2Proof.Machine

/-! ## QUENCH and emergency descent (R381, R401) -/

/-- The module is supplied and past its start. -/
def powered (s : State) : Bool := s.power.state != .off && s.power.state != .boot

/-- The teaser runs, from step 5 of the start on (16 R437). -/
def teaserRuns (s : State) : Bool := s.power.state != .off && 5 ≤ s.fw.startStep

/-- The state that partitions give a module outside its other states (R379). -/
def standingState (s : State) : ModState := if s.parts.toList.any (fun x => x.state == .running) then .run else .ready

/-- Put every trained stack in self-refresh, or take them out of it (R381, R393, R394). -/
def setSelfRefresh (s : State) (b : Bool) : State :=
  forClusters (fun k s => s.modCluster k (fun c => { c with selfRefresh := b && c.trained })) s

/-- A QUENCH cause is present (R381). In QUENCH the cause recorded first stays (17 R459). R379 lets no BOOT go to QUENCH: there a cause that
only a new start clears is recorded, and QUENCH follows at the entry into HOLD. DESIGN CHOICE, log entry 77.
DESIGN CHOICE, log entry 80. -/
def enterQuench (s : State) (cause : Nat) : State :=
  let s := s.modPower (fun w => { w with quenchAt := s.now })
  if s.power.state = .boot && (cause == 4 || cause == 6) && s.power.quenchCause = 0 then s.modPower (fun w => { w with quenchCause := cause }) else
  if !powered s || s.power.state = .quench then s else
  let s := (settleHolds s).modPower (fun w => { w with
    state := .quench
    quenchFrom := w.state
    quenchCause := cause
    latch := true
    quenches := satAdd 8 w.quenches 1 })
  let s := s.modThermal (fun h => { h with ballast := false })
  let s := s.event srcTeaser 0x0404 0xFF (leBytes 1 cause)
  let s := forParts (fun p s => if (s.part p).claim.paired then yieldClaim s p else s) s
  setSelfRefresh s true

/-- QUENCH clears: unpaired partitions resume, paired ones wait in GLORY_HOLE (R381). DESIGN CHOICE, log entry 80. -/
def leaveQuench (s : State) : State :=
  let s := settleHolds s
  let goal := if s.power.quenchFrom = .hold || s.power.quenchFrom = .drain then s.power.quenchFrom else standingState s
  let s := s.modPower (fun w => { w with state := goal, quenchCause := 0 })
  let s := forParts (fun p s => if (s.part p).claim.paired && (s.part p).state == .running then
      s.modPart p (fun x => { x with holdAt := some .gloryHole }) else s) s
  settleModule (if s.power.supplyHeld then s else setSelfRefresh s false)

/-- Unsigned whole °C of m°C, halves up, saturating at 0 and 255 ("The THM registers"). -/
def wholeC (m : Int) : Nat := min 255 ((m + 500) / 1000).toNat

/-- The event of a descent that begins or ends: kind, index, reading (19 R476). DESIGN CHOICE, log entry 76. -/
def descentEvent (s : State) (kind idx : Nat) (reading : Int) (ended : Bool) : State :=
  s.event srcTeaser 0x0403 0xFF (leBytes 1 kind ++ leBytes 1 idx ++ leBytes 1 (wholeC reading) ++ zeros 4 ++ leBytes 1 (128 * bit ended))

/-- An emergency descent begins (R401). -/
def beginDescent (s : State) (kind idx : Nat) (reading : Int) : State :=
  if s.thermal.descent.isSome then s else
  let s := (settleHolds s).modThermal (fun h => { h with descent := some (kind, idx, none), ballast := false })
  let s := s.modPower (fun w => { w with latch := true, thermGate := 0, descents := satAdd 8 w.descents 1 })
  descentEvent s kind idx reading false

/-! ## Supply levels (R391–R395) -/

/-- The supply level changes (R391), with its event. -/
def setLevel (s : State) (l : SupplyLevel) (mv : Nat) : State :=
  let code := match l with | .normal => 0 | .warning => 1 | .hold => 2
  let s := s.modPower (fun w => { w with level := l, supplyMv := mv })
  if teaserRuns s then s.event srcTeaser 0x0402 0xFF (leBytes 1 code ++ zeros 1 ++ leBytes 2 mv) else s

/-- SUPPLY_WARNING (R391, R392). -/
def execSupplyWarning (mv : Nat) (s : State) : Result :=
  if s.power.state = .off || 44000 ≤ mv || s.power.level ≠ .normal then .next s
  else .next (setLevel (s.modPower (fun w => { w with above45 := none })) .warning mv)

/-- SUPPLY_WARNING_END (R391): the count of R394 starts. -/
def execSupplyWarningEnd (mv : Nat) (s : State) : Result :=
  if s.power.state = .off || mv ≤ 45000 || s.power.level = .normal then .next s
  else .next (setLevel (s.modPower (fun w => { w with above45 := some s.now })) .normal mv)

/-- HOLD_LEVEL_LEFT (R391). -/
def execHoldLevelLeft (mv : Nat) (s : State) : Result :=
  if s.power.state = .off || mv ≤ 42000 || s.power.level ≠ .hold then .next s else .next (setLevel s .warning mv)

/-- The supply hold begins (R393); before step 5 of the start it pauses the start (16 R438). DESIGN CHOICE, log entry 77. -/
def beginSupplyHold (s : State) : State :=
  if s.power.supplyHeld then s
  else if !teaserRuns s then s.modPower (fun w => { w with supplyHeld := true })
  else
  ((settleHolds s).modPower (fun w => { w with supplyHeld := true, latch := true, supplyHolds := satAdd 8 w.supplyHolds 1 })).modThermal
    (fun h => { h with ballast := false })

/-- SUPPLY_HOLD (R391, R393). -/
def execSupplyHold (mv : Nat) (s : State) : Result :=
  if s.power.state = .off || 41000 ≤ mv || s.power.level = .hold then .next s
  else .next (beginSupplyHold (setLevel (s.modPower (fun w => { w with above45 := none })) .hold mv))

/-- STACK_SELF_REFRESH (R393). -/
def execStackSelfRefresh (s : State) : Result :=
  if s.power.supplyHeld then .next (setSelfRefresh s true) else .next s

/-- The module in OFF: only what is fused, the straps, the contacts and the supply outside it remain (R395; 00 R6). -/
def offState (s : State) : State :=
  { State.reset with
    pending := s.pending
    now := s.now
    fresh := s.fresh
    out := s.out
    fuses := s.fuses
    time := { TimeRt.init with base := -(s.now : Int) }
    security := { Security.init with
      moduleKey := none
      identity := s.security.identity
      extTamper := s.security.extTamper }
    clusters := Vector.replicate 8 { Cluster.init with trained := false }
    links := Vector.replicate 16 { Link.init with state := .down }
    events := { Events.init with openRing := false }
    fw := { Firmware.init with startStep := 0, hbm := 0, powerAt := s.now }
    power := { Power.init with
      state := .off
      supplyMv := s.power.supplyMv
      prsnt := s.power.prsnt
      cycleAt := s.now } }

/-- SUPPLY_RESET (R395). -/
def execSupplyReset (s : State) : Result :=
  if s.power.state = .off then .next s else .next (offState (s.reach (s.now + us 50)))

/-- OVER_VOLTAGE (17 R461): 10 ms above 58 V. -/
def execOverVoltage (mv : Nat) (s : State) : Result :=
  if !teaserRuns s || mv ≤ 58000 then .next s
  else .next ((s.modPower (fun w => { w with supplyMv := mv })).event srcTeaser 0x0409 0xFF (leBytes 2 mv))

/-- REGULATOR_FAULT (R381): a rail more than 50 mV out of regulation; `deviation` is in mV. -/
def execRegulatorFault (rail : Nat) (deviation : Int) (s : State) : Result :=
  if !teaserRuns s || deviation.natAbs ≤ 50 then .next s
  else
    let s := s.event srcTeaser 0x040A 0xFF (leBytes 1 rail ++ zeros 1 ++ leBytes 2 (twosNat 16 deviation))
    .next (enterQuench (s.modPower (fun w => { w with regFault := true })) 4)

/-! ## The presence contact (17 R456–R460) -/

/-- The PULLED heartbeat of every paired partition, with CLAIM 0; then the lanes carry idles (R458, 13 R368). -/
def sendPulled (s : State) : State :=
  let s := forParts (fun p s => if (s.part p).claim.paired then
      sendBeatAs (s.modClaim p (fun c => { c with claim := 0, role := .gloryHole, leader := false })) p true else s) s
  s.modLanes (fun l => { l with idleOnly := true })

/-- Every CSI-2 transmit port stops at once; a frame in progress is cut without frame end and is no frame sent. -/
def cutTransmit (s : State) : State :=
  forPorts (fun n s => if s.now < (s.csi.tx.get n).endAt then (s.emit (.csiCut n)).modTx n (fun t => { t with endAt := s.now, frames := t.frames - 1 }) else s)
    (s.modCsi (fun c => { c with stopped := true }))

/-- PRSNT_LOSS (R458, R459). -/
def execPrsntLoss (s : State) : Result :=
  let s := s.modPower (fun w => { w with prsnt := false })
  if s.power.state = .off || s.power.prsntLost || s.fw.startStep = 0 then .next s else
  let wasDrained := s.power.drained
  let s := enterQuench (sendPulled (s.modPower (fun w => { w with prsntLost := true }))) 6
  let s := cutTransmit s
  let s := forParts (fun p s => s.modPart p (fun x => { x with job := x.job.map wipeJob })) s
  .next (s.event srcTeaser 0x040B 0xFF (leBytes 1 (bit wasDrained)))

/-! ## Caps (R383–R387) -/

/-- PWR_ESTIMATE.TOTAL. -/
def estimateTotal (s : State) : Nat :=
  120 + (s.parts.toList.map (fun x =>
    if x.state = .loaded || x.state = .armed || x.state = .running then (x.image.map (fun i => i.power)).getD 0 else 0)).sum

/-- 500 · k(V) at a 10 mV step (R385). -/
def capFactor (mv : Nat) : Nat :=
  let ks := [44, 59, 78, 100, 123, 148]
  let j := (mv - 600) / 50
  let a := ks.getD j 148
  5 * a + (ks.getD (j + 1) a - a) * ((mv - 600) % 50 / 10)

/-- The cap voltage, in mV (R385). -/
def capVoltage (s : State) : Nat :=
  let e := estimateTotal s
  if e ≤ 300 then 850 else
  (((List.range 26).map (fun i => 850 - 10 * i)).find? (fun v =>
    300000 * 500 + (e - 300) * 1000 * capFactor v ≤ (capMw s - 20000) * 500)).getD 600

/-- A cap order takes effect (R383). -/
def setCap (s : State) (target ramp : Nat) : State :=
  let c := capMw s
  if c ≤ 1000 * target then s.modPower (fun w => { w with target := target, rampFrom := (1000 * target, s.now), rampNs := 0 })
  else if c - 1000 * target ≤ 100000 * ramp then
    s.modPower (fun w => { w with target := target, rampFrom := (c, s.now), rampNs := ms ramp })
  else
    (settleHolds s).modPower (fun w => { w with
      target := target
      rampFrom := (1000 * target, s.now)
      rampNs := 0
      shed := true
      shedAt := if w.shed then w.shedAt else s.now
      sheds := satAdd 8 w.sheds 1 })

/-- PWR_CAP (R383, R409). -/
def execPwrCap (s : State) : Result :=
  onDue s 0x30 (fun _ => true) (fun t s => answerBare (setCap s (t.field 0 2) (t.field 2 2)) t 0x00)

/-! ## Drain and QUENCH orders (R380, R381, R409) -/

/-- PWR_DRAIN with ACTION 1. -/
def execPwrDrainEnter (s : State) : Result :=
  onDue s 0x31 (fun m => m.field 0 1 == 1) (fun t s =>
    if s.power.state = .hold || s.power.state = .quench then answerBare s t 0x10
    else answerBare (settleModule (forParts (fun p s => stopHeld s p) (s.modPower (fun w => { w with state := .drain })))) t 0x00)

/-- PWR_DRAIN with ACTION 2. -/
def execPwrDrainLeave (s : State) : Result :=
  onDue s 0x31 (fun m => m.field 0 1 == 2) (fun t s =>
    if s.power.state ≠ .drain then answerBare s t 0x10
    else answerBare (s.modPower (fun w => { w with state := standingState s, drained := false })) t 0x00)

/-- PWR_QUENCH with ACTION 1. -/
def execPwrQuench (s : State) : Result :=
  onDue s 0x32 (fun m => m.field 0 1 == 1) (fun t s => answerBare (enterQuench s 5) t 0x00)

/-- PWR_QUENCH with ACTION 2. DESIGN CHOICE, log entry 80. -/
def execPwrQuenchClear (s : State) : Result :=
  onDue s 0x32 (fun m => m.field 0 1 == 2) (fun t s =>
    if s.power.state ≠ .quench || s.power.regFault || s.power.prsntLost then answerBare s t 0x10
    else if s.now < s.power.quenchAt + sec 10 then answerBare s t 0x01
    else answerBare (leaveQuench s) t 0x00)

/-- THM_COOLANT (R408, R409). -/
def execThmCoolant (s : State) : Result :=
  onDue s 0x33 (fun _ => true) (fun t s => answerBare (s.modThermal (fun h => { h with cv := t.field 0 2, flowMin := t.field 2 2 })) t 0x00)

/-- The pair of a core is evaluated afresh (R398). -/
def clearPair (s : State) (c : CoreId) : State :=
  s.modCore c (fun k => { k with diodeDoubted := false, delayDoubted := false, suspect := false, disagree := 0 })

/-- THM_SENSOR_CLEAR (R398, R409). -/
def execThmSensorClear (s : State) : Result :=
  onDue s 0x34 (fun _ => true) (fun t s =>
    answerBare (forCores (fun c s => if t.field 0 1 = 0xFF || t.field 0 1 = c.val then clearPair s c else s) s) t 0x00)

end Sys2Proof.Machine
end

