-- ==== Sys2Proof/Machine/Start.lean ====
section
/-! DEFINITION. The vault wipe (15 R415), the start sequence and restarts (16 R437, R438, R449; 17 R456). -/

namespace Sys2Proof.Machine

/-! ## Vault wipe (15 R413, R415, R416) -/

/-- The identity key may be unwrapped: the tamper fuse is whole, and the module is neither BLANK nor RETIRED. -/
def identityUsable (f : Fuses) : Bool := !f.tampered && f.lifecycle != 0 && f.lifecycle != 4

/-- The keys of a partition are zeroed; what intake has checked lies in the stacks and stays.
DESIGN CHOICE, log entry 99. -/
def wipeKeys (s : State) (p : PartId) : State :=
  let s := s.modKeys p (fun k => { k with model := none, store := none, storePrev := none, storeSeals := 0, streams := [], highest := [],
                                          ephemeral := [], applied := [] })
  s.modPart p (fun x => { x with job := x.job.map wipeJob })

/-- A vault wipe (R415): causes 1 TAMPER_N, 2 uncorrectable vault word, 3 lid, 4 mesh. DESIGN CHOICE, log entry 97.
DESIGN CHOICE, log entry 99. -/
def wipeVault (s : State) (cause : Nat) : State :=
  let s := s.modSecurity (fun v => { v with
    identity := false
    reports := 0
    wipes := satAdd 8 v.wipes 1
    lastCause := if cause ≤ 2 then cause else v.lastCause })
  let s := forClusters (fun k s => s.modCluster k (fun c => { c with key := none, prev := none, clean := false })) s
  let s := forParts (fun p s => wipeKeys s p) s
  let s := forParts (fun p s => if (s.part p).claim.paired then yieldClaim s p else s) s
  let s := forParts (fun p s => if (s.part p).state = .free then s else enterClearing s p) s
  let s := settleModule (s.event srcSecurity 0x0501 0xFF (leBytes 1 cause))
  s.modSecurity (fun v => { v with identity := identityUsable s.fuses })

/-! ## The start sequence (R437, R438) -/

/-- What a restart finds when no start has told it. -/
def StartIn.good (s : State) : StartIn :=
  { tray := s.fuses.tray, slot := s.fuses.slot, selfTest := true, hbm := Vector.replicate 8 true, cores := Vector.replicate 64 true,
    refclk := s.time.ref, lidOpen := false, meshOpen := false, tamperLow := s.security.extTamper, supplyMv := s.power.supplyMv }

/-- Step 2: the boot ROM tests itself, reads the fuses and looks at the lid and the mesh (15 R416).
DESIGN CHOICE, log entry 97. -/
def bootRom (s : State) (i : StartIn) : State :=
  if !i.selfTest then s.modFw (fun f => { f with startStep := 1, startFail := 1 })
  else
    let s := s.modFw (fun f => { f with startStep := 2 })
    let s := if i.lidOpen || i.meshOpen then
        wipeVault { s with fuses := { s.fuses with tampered := true } } (if i.lidOpen then 3 else 4)
      else s
    s.modSecurity (fun v => { v with identity := identityUsable s.fuses })

/-- Steps 1 and 2, which PRSNT_N holds up (17 R455, R456), and which a supply hold pauses (R438). -/
def runBoot (s : State) : State :=
  match s.fw.startIn with
  | some i =>
    if s.power.prsnt && s.fw.startStep = 0 && !s.power.supplyHeld then
      bootRom { s with fuses := { s.fuses with tray := i.tray % 64, slot := i.slot % 32 } } i
    else s
  | none => s

/-- START (R437): the supply has stayed above 45.0 V for 10 ms. A tamper loop that is open then wipes the vault (15 R415).
DESIGN CHOICE, log entry 96. -/
def execStart (i : StartIn) (s : State) : Result :=
  if s.power.state ≠ .off || i.supplyMv ≤ 45000 then .next s
  else
    let s := (offState s).modPower (fun w => { w with state := .boot, supplyMv := i.supplyMv, level := .normal })
    let s := s.modFw (fun f => { f with startIn := some i, powerAt := s.now })
    let s := (s.modTime (fun t => { t with ref := i.refclk })).modSecurity (fun v => { v with extTamper := i.tamperLow })
    .next (runBoot (if i.tamperLow then wipeVault s 1 else s))

/-- PRSNT_MATE (R456, R460): it lets step 1 end and ends no QUENCH. -/
def execPrsntMate (s : State) : Result :=
  let s := s.modPower (fun w => { w with prsnt := true })
  if s.power.state = .boot then .next (runBoot s) else .next s

/-- Step 6: stacks trained, module-area key, ring open, banks zeroed, cores checked. Without stack 0 the start stops. -/
def trainStacks (s : State) (i : StartIn) : State :=
  let s := { s with mem := Mem.init, owners := Vector.replicate 288 BankOwner.init,
                    clusters := Vector.ofFn (fun k => { Cluster.init with trained := i.hbm.get k }) }
  let s := s.modFw (fun f => { f with hbm := maskOf (fun k => i.hbm.get k) })
  if !i.hbm.get 0 then s.modFw (fun f => { f with startFail := 2 })
  else
    let k := newMemoryKey s
    let s := (k.2.modSecurity (fun v => { v with moduleKey := some k.1 })).modEvents (fun v => { v with openRing := true })
    let s := forClusters (fun k s => if i.hbm.get k then s else s.event (srcCluster k) 0x0306 0xFF (leBytes 1 k.val)) s
    let s := forCores (fun c s => if i.cores.get c then s else fenceFor s c .selfCheck) s
    s.modFw (fun f => { f with startStep := 6 })

/-- Steps 5 to 7: the firmware cores run, the stacks train, and every Carloth port that is not UP trains.
DESIGN CHOICE, log entry 96. -/
def runFirmware (s : State) (i : StartIn) : State :=
  let s := s.modFw (fun f => { f with startStep := 5, step5At := s.now })
  let s := trainStacks (s.modPower (fun w => { w with cycleAt := s.now })) i
  if s.fw.startStep < 6 then s
  else forPorts (fun n s => if (s.link n).state = .up then s else startTraining s n) s

/-- The counters and records of the register window that run while the module is in BOOT stand at their after-start values when
it enters HOLD (00 R12; R437, step 9). DESIGN CHOICE, log entry 140. -/
def clearCounts (s : State) : State :=
  let s := forI3c (fun x s => s.modPort x (fun q => { q with posted := 0, malformed := 0, overrun := 0, cursor := 0, mwl := 4098, mrl := 4096 })) s
  let s := s.modOrders (fun o => { o with accepted := 0, superseded := 0, refused := 0, lastEff := 0 })
  let s := s.modTime (fun t => { t with annBad := 0, missed := 0, losses := 0, far := 0 })
  let s := s.modPower (fun w => { w with sheds := 0, supplyHolds := 0, descents := 0, quenches := 0 })
  let s := s.modSecurity (fun v => { v with wipes := 0, lastCause := 0, reports := 0, releases := 0, rejects := 0 })
  let s := s.modCsi (fun c => { c with unbound := 0, rx := c.rx.map (fun r => { RxPort.init with sync := r.sync, lost := r.lost }) })
  let s := forPorts (fun n s => s.modLink n (fun l => { l with naks := 0, fecUncorr := 0, discards := 0, gcmFail := 0, retrains := [] })) s
  let s := s.modLanes (fun l => { l with discards := 0, far := none })
  let s := s.modEvents (fun v => { v with copied := 0, takenUpTo := [], overwritten := 0 })
  s.modFw (fun f => { f with loadPort := 0, result := 0, crcFail := 0, activations := 0, deferrals := 0 })

/-- Entry into HOLD (step 9); a QUENCH cause that came in BOOT, which only a new start clears, takes the module on to QUENCH (R379, R381).
DESIGN CHOICE, log entry 140. DESIGN CHOICE, log entry 80. -/
def enterHold (s : State) : State :=
  let s := clearCounts s
  let n := (s.now - s.fw.powerAt) / 1000000
  let s := s.modPower (fun w => { w with state := .hold })
  let s := s.modFw (fun f => { f with startStep := 9, ports := if f.startStep < 7 then portsUp s else f.ports, startMs := n,
                                      loadState := if f.loadState = 6 then 0 else f.loadState,
                                      locked := s.time.state == .locked })
  let s := s.event srcSecurity 0x0504 0xFF (leBytes 4 n)
  if s.power.quenchCause = 0 then s else enterQuench s s.power.quenchCause

/-- Step 7 ends in its time, and step 8 when the time is locked. DESIGN CHOICE, log entry 96. -/
def settleStart (s : State) : State :=
  if s.power.state ≠ .boot then s
  else
    let s := endStep7 s
    if s.fw.startStep = 7 && s.time.state = .locked then enterHold s else s

/-- START_TIME_LOCK_TIMEOUT (R437). -/
def execStartTimeLockTimeout (s : State) : Result :=
  if s.power.state = .boot && 6 ≤ s.fw.startStep then
    let s := settleStart (s.reach (s.fw.step5At + sec 3))
    .next (if s.power.state = .boot then enterHold s else s)
  else .next s

/-! ## Restarts (15 R412, R416; 16 R449) -/

/-- What a port keeps: its bus state, its mailbox words and its responses. DESIGN CHOICE, log entry 100. -/
def keepPort (q : I3cPort) : I3cPort :=
  { I3cPort.init with
    dynAddr := q.dynAddr
    mode := q.mode
    protoErr := q.protoErr
    mwl := q.mwl
    mrl := q.mrl
    recoverAt := q.recoverAt
    pointer := q.pointer
    pointerAt := q.pointerAt
    cmd := q.cmd
    bulk := q.bulk
    cmdFull := q.cmdFull
    bulkFull := q.bulkFull
    responses := q.responses
    rspAt := q.rspAt
    posted := q.posted
    session := q.session }

/-- The module in BOOT after a restart: settings and registers at their after-start values, both sessions ended and not clean,
the job keys wiped; what lies outside the module, the fuses, the time counter and the ports' bus state stay.
DESIGN CHOICE, log entry 100. -/
def restartBase (s : State) : State :=
  let t := offState s
  let t := { t with
    i3c := s.i3c.map keepPort
    orders := { Orders.init with nextSession := s.orders.nextSession }
    time := { TimeRt.init with base := (s.stamp : Int) - s.now, ref := s.time.ref, lastEdge := s.time.lastEdge }
    fw := { t.fw with powerAt := s.fw.powerAt, startIn := s.fw.startIn }
    lanes := { t.lanes with rxSync := s.lanes.rxSync }
    csi := { t.csi with rx := s.csi.rx.map (fun r => { RxPort.init with sync := r.sync }) }
    power := { t.power with
      state := .boot
      level := s.power.level
      supplyHeld := s.power.supplyHeld
      above45 := s.power.above45 } }
  forI3c (fun x t => if (t.port x).session.live then endSession t x 3 else t) t

/-- The posts that wait on the ports are taken as far as there is room for their responses (11 R296). -/
def retakePosts (s : State) : State := forI3c (fun x s => takeWaiting s x) s

/-- The start input of a restart. DESIGN CHOICE, log entry 100. -/
def restartIn (s : State) : StartIn := s.fw.startIn.getD (StartIn.good s)

/-- Restart into the boot ROM, which waits for a firmware load. -/
def restartRom (s : State) : State :=
  let t := restartBase s
  let t := t.modFw (fun f => { f with startStep := 2 })
  retakePosts (t.modSecurity (fun v => { v with identity := identityUsable t.fuses }))

/-- Restart with a verified image: steps 5 to 11 (16 R449); LOAD reads 6 until HOLD (R452). -/
def restartWith (s : State) (h : FwHeader) : State :=
  let i := restartIn s
  let t := restartBase s
  let t := t.modSecurity (fun v => { v with identity := identityUsable t.fuses })
  retakePosts (runFirmware (t.modFw (fun f => { f with running := h, startStep := 4, pulled := h.pulled, loadState := 6 })) i)

/-! ## Tamper (15 R415, R416) -/

/-- TAMPER_LOOP_OPEN: TAMPER_N has fallen, and has been low for 100 µs (R415; 17 R464). DESIGN CHOICE, log entry 98. -/
def execTamperLoopOpen (s : State) : Result :=
  if s.power.state = .off then .next s
  else .next (wipeVault (s.modSecurity (fun v => { v with extTamper := true })) 1)

/-- LID_TAMPER: a wipe, the tamper fuse, and a restart into the boot ROM. DESIGN CHOICE, log entry 97. -/
def execLidTamper (mesh : Bool) (s : State) : Result :=
  if s.power.state = .off then .next s
  else
    let cause := if mesh then 4 else 3
    let s := wipeVault { s with fuses := { s.fuses with tampered := true } } cause
    .next ((restartRom s).event srcSecurity 0x0501 0xFF (leBytes 1 cause))

end Sys2Proof.Machine
end

