-- ==== Sys2Proof/Machine/Stores.lean ====
section
/-! DEFINITION. Store trays (12 R315, R332, R337–R340): requests and their answers, sealed blocks, STORE_READ and STORE_WRITE. -/

namespace Sys2Proof.Machine

/-- The open request that a frame answers. -/
def answered (s : State) (f : Frame) (write : Bool) : Option StoreReq :=
  s.requests.find? (fun r => r.tag == f.msg && r.store == f.src && reqOpen r && r.use.writes == write)

/-- Data at the next offset of a read request; the last completes it. -/
def addData (r : StoreReq) (f : Frame) : StoreReq :=
  if f.offset ≠ r.got.length then r else
  let got := (r.got ++ f.payload).take r.length
  { r with got := got, done := got.length == r.length }


/-! ## Sealed blocks (R339) -/

/-- Sealed blocks in one read request. DESIGN CHOICE, log entry 93. -/
def blocksPerRequest : Nat := 15

/-- Open a sealed block under one key. -/
def openBlockWith (key : Bytes) (block : Nat) (bs : Bytes) : Option Bytes :=
  let t := bs.drop blockBytes
  if fieldAt t 0 8 = block then gcmOpen key (slice t 16 12) (t.take 16) (bs.take blockBytes) (slice t 32 16) else none

/-- Open a sealed block under the current store key, else under the previous one (15 R422). -/
def openBlock (x : Part) (block : Nat) (bs : Bytes) : Option Bytes :=
  match x.keys.store.bind (fun k => openBlockWith k.2 block bs) with
  | some pt => some pt
  | none => x.keys.storePrev.bind (fun k => openBlockWith k.2 block bs)

/-- The requests of a command. -/
def requestsOf (s : State) (p : PartId) (q : Nat) (use : StoreUse) : List StoreReq :=
  s.requests.filter (fun r => r.part == p.val && r.queue == q && r.use == use)

/-- Send the read requests of `n` blocks. DESIGN CHOICE, log entry 93. -/
def requestBlocks (s : State) (p : PartId) (q block n : Nat) : State :=
  let x := s.part p
  (List.range (ceilDiv n blocksPerRequest)).foldl (fun s i =>
    let m := min blocksPerRequest (n - i * blocksPerRequest)
    let at_ := spillAt x (block + i * blocksPerRequest)
    if inRegion x (block + i * blocksPerRequest) m then openRequest s .read p.val q x.spill.1 x.spill.2.1 at_ (m * sealedBytes) []
    else failRequest s .read p.val q x.spill.1 x.spill.2.1 at_ (m * sealedBytes)) s

/-- Write the blocks that arrived; a block that does not open, or never arrived, poisons its destination. Gives the error (R340).
DESIGN CHOICE, log entry 94. -/
def landBlocks (s : State) (p : PartId) (addr block n : Nat) (rs : List StoreReq) : State × Nat :=
  (List.range n).foldl (fun (a : State × Nat) i =>
    let goal := addr + i * blockBytes
    let poison := fun (s : State) => (List.range 1024).foldl (fun s j => bankMark s (goal / 64 + j)) s
    match rs[i / blocksPerRequest]? with
    | some r =>
      if r.failed then (poison a.1, 5)
      else match openBlock (a.1.part p) (block + i) (slice r.got (i % blocksPerRequest * sealedBytes) sealedBytes) with
        | some pt => (bankWrite a.1 goal pt, a.2)
        | none => (poison a.1, if a.2 = 5 then 5 else 6)
    | none => (poison a.1, 5)) (s, 0)

/-- What an attempt at a store command gives: it waits in a new state, or has run. -/
inductive StoreOut where
  | wait (t : State)
  | bad (address : Nat)
  | done (t : State) (beats : Nat) (err : Nat)

/-- STORE_READ (R332, R339, R340): requests first, then the blocks once all are answered or failed.
DESIGN CHOICE, log entry 94. -/
def storeReadTry (d : Due) (s : State) : StoreOut :=
  let r := d.record
  let ref := bankRefOf (recField r 24 4)
  let n := recField r 28 4
  let block := recField r 32 8
  match transferBank s d { ref with observer := false } n with
  | .error (.bad a) => .bad a
  | .error _ => .wait s
  | .ok b =>
    let rs := requestsOf s d.p d.desc.queue .read
    if rs.isEmpty then
      if requestRoom s d.p.val < ceilDiv (n / blockBytes) blocksPerRequest then .wait s else .wait (requestBlocks s d.p d.desc.queue block (n / blockBytes))
    else if rs.any reqOpen then .wait s
    else
      let g := landBlocks (dropRequests s (fun r => rs.contains r)) d.p (bankAddr b ref.off) block (n / blockBytes) rs
      .done g.1 (moveBeats n) g.2

/-- The blocks of a STORE_WRITE. DESIGN CHOICE, log entry 93. -/
def writeBlocks (s : State) (p : PartId) (q block n : Nat) (data : Bytes) : State := sealBlocks s .write p q block n data

/-- STORE_WRITE (R332, R339, R340): its blocks are sealed and sent in order, as requests are free and the key may seal (15 R422); what is left
waits for a later key. -/
def storeWriteTry (d : Due) (s : State) : StoreOut :=
  let r := d.record
  let ref := bankRefOf (recField r 24 4)
  let n := recField r 28 4
  let blocks := n / blockBytes
  match transferBank s d ref n with
  | .error (.bad a) => .bad a
  | .error _ => .wait s
  | .ok b =>
    let rs := requestsOf s d.p d.desc.queue .write
    let marks := marksRead s.mem.bankPoison (bankAddr b ref.off / 64) (n / 64)
    if rs.length < blocks then
      let m := min (blocks - rs.length) (min (requestRoom s d.p.val) (sealsLeft (s.part d.p)))
      let a := bankAddr b ref.off + rs.length * blockBytes
      .wait (writeBlocks (meetBank s a (m * blockBytes)) d.p d.desc.queue (recField r 32 8 + rs.length) m (bankRead s a (m * blockBytes)))
    else if rs.any reqOpen then .wait s
    else .done (dropRequests s (fun r => rs.contains r)) (moveBeats n) (if marks.any (fun m => m) then 2 else if rs.any (fun r => r.failed) then 5 else 0)

/-- Take the due store command of a queue through an attempt. -/
def runStore (s : State) (p : PartId) (q opcode : Nat) (op : Due → State → StoreOut) : Result :=
  match dueCommand s p q 5 opcode with
  | none => .next s
  | some d =>
    if tallyReady (s.part p) d.record && !headPending (s.part p) d.desc.inst then
      match op d s with
      | .wait t => .next (waits t p 5 d.desc.inst)
      | .bad a => .fault (.noSuchAddress a)
      | .done t n e => .next (issue t d n e (handoverAt d.record 40 d.desc.inst))
    else .next (waits s p 5 d.desc.inst)

def execStoreRead (p : PartId) (q : Nat) (s : State) : Result := runStore s p q 0x0512 storeReadTry
def execStoreWrite (p : PartId) (q : Nat) (s : State) : Result := runStore s p q 0x0513 storeWriteTry

/-! ## Exports (01 R31) -/

/-- Exports whose requests are answered, or have failed, are forgotten, and what waited follows. DESIGN CHOICE, log entry 129. -/
def continueExports (s : State) : State :=
  forParts pumpExport { s with requests := s.requests.filter (fun r => !(r.use == .exports && !reqOpen r)) }

/-- STORE_WR_ACK (R338). -/
def execStoreWrAck (s : State) : Result :=
  onFrame s 0x23 (fun _ f s =>
    match answered s f true with
    | some r => if fieldAt f.payload 0 4 = r.data.length then continueExports (modRequest s r.tag (fun r => { r with done := true })) else s
    | none => s)

/-- A journal entry as exported: its 32 bytes and its payload. -/
def exportedEntry (e : JEntry) : Bytes := journalBytes e ++ e.payload.getD []

/-- The bytes that a step exports: its record, then its journal entries with their payloads. DESIGN CHOICE, log entry 129. -/
def exportBytes (x : Part) (r : StepRecord) : Bytes :=
  recordBytes r ++ (x.journal.filter (fun e => r.firstSeq ≤ e.seq && e.seq < r.firstSeq + r.ngather && e.paired)).flatMap exportedEntry

/-- STEP_EXPORT (01 R31): the oldest record not yet exported, of a step that has ended, leaves with its journal entries for the place
that the arm order's locator names, after the spill region (R337), as sealed blocks (R339), once a house turn has moved its bytes (05 R144); a
lag of more than 60 s is recorded once and the oldest payloads go. While an earlier export still waits for a house turn, a request or a seal,
it waits too. DESIGN CHOICE, log entry 129. -/
def execStepExport (p : PartId) (s : State) : Result :=
  let x := s.part p
  match recordAt x.records x.exported with
  | some r =>
    if !x.exporting || x.step ≤ r.step then .next s
    else if !x.exportRest.isEmpty then .next (waits (pumpExport p s) p 5 0)
    else
      let late := r.boundary + sec 60 < s.stamp
      let s := if late && !x.exportLag then s.event srcGaffer 0x0207 p.val (leBytes 8 r.step) else s
      .next (queueExport (s.modPart p (fun x => { x with exported := x.exported + 1, exportLag := late })) p 0 (exportBytes x r))
  | none => .next s

end Sys2Proof.Machine
end

