-- ==== Sys2Proof/Machine/Firmware.lean ====
section
/-! DEFINITION. Firmware load and activation (16 R439–R451), and the partner identity that a pull waits for (12 R341). -/

namespace Sys2Proof.Machine

/-! ## Answers and the load (R442) -/

/-- Answer a firmware message with a cause and what follows it; cause 0 goes with STATUS 0x00 unless `status` says otherwise. -/
def answerFw (s : State) (t : Taken) (status cause : Nat) (tail : Bytes) : State :=
  answer (s.modFw (fun f => { f with result := cause })) t status (zeros 3 ++ leBytes 1 cause ++ tail)

/-- Answer with a cause and STATUS 0x10, or 0x00 for cause 0. -/
def answerCause (s : State) (t : Taken) (cause : Nat) (tail : Bytes) : State :=
  answerFw s t (if cause = 0 then 0x00 else 0x10) cause tail

/-- The oldest firmware message that waits is one of a port and type: they are applied in the order taken (R442). -/
def fwFirst (s : State) (x : I3cId) (typ : Nat) (ok : Msg → Bool) : Bool :=
  (s.orders.taken.find? (fun t => isFirmware t.msg.typ)).any (fun t => t.port == x && t.msg.typ == typ && ok t.msg)

/-- The other port holds the load. -/
def otherLoad (s : State) (x : I3cId) : Bool := match s.fw.load with | some l => l.port != x | none => false

/-- A firmware message of a port: none is handled while the start pauses (R438) or before one taken earlier; the other port's are busy
(R442); a message on the load's port keeps the load. DESIGN CHOICE, log entry 98. -/
def onFw (s : State) (x : I3cId) (typ : Nat) (ok : Msg → Bool) (f : Taken → State → State) : Result :=
  if startPaused s || !fwFirst s x typ ok then .next s
  else onTaken s x typ ok (fun t s =>
    if otherLoad s x then answerBare s t 0x01
    else f t (s.modFw (fun v => { v with load := v.load.map (fun l => { l with lastAt := s.now }) })))

/-- Bytes covered at least once. -/
def covered (l : FwLoad) : Nat := (l.covered.map (fun r => r.2 - r.1)).sum

/-- Write bytes into the staging area. -/
def stage (l : FwLoad) (off : Nat) (bs : Bytes) : FwLoad :=
  { l with cells := cellsWrite l.cells off bs, covered := rangeAdd l.covered off (off + bs.length) }

/-- Bytes of the staging area. -/
def staged (l : FwLoad) (off n : Nat) : Bytes := cellsRead l.cells off n

/-- Discard the load, with the requests of a pull; an order that still waits for its pull fails with cause 8 (R444). -/
def dropLoad (s : State) (loadState : Nat) : State :=
  let s := match s.fw.load with
    | some l => match l.asked with | some t => answerCause s t 8 [] | none => s
    | none => s
  (dropRequests s (fun r => r.use == .pull)).modFw (fun f => { f with load := none, loadState := loadState })

/-- A pull fails (R444). DESIGN CHOICE, log entry 104. -/
def failPull (s : State) (cause : Nat) : State := (dropLoad s 7).modFw (fun f => { f with result := cause })

/-! ## FW_BEGIN and FW_BLOCK (R442–R445) -/

/-- Open a load, in place of an earlier one of the port; a staged image goes (R445). DESIGN CHOICE, log entry 101. -/
def openLoad (s : State) (l : FwLoad) : State :=
  (dropLoad s 0).modFw (fun f => { f with load := some l, staged := none, loadState := if l.pull then 2 else 1, loadPort := l.port.val })

/-- FW_BEGIN with MODE 0. -/
def execFwBeginBlocks (x : I3cId) (s : State) : Result :=
  onFw s x 0x50 (fun m => m.field 0 1 == 0) (fun t s =>
    if s.fw.deferred.isSome then answerCause s t 12 []
    else
      let l : FwLoad := { port := x, pull := false, size := t.field 4 4, cells := [], covered := [], lastAt := s.now, linkPort := 0,
                          locator := (0, 0, 0, 0), cabinet := 0, asked := none, ahead := 0 }
      answerCause (openLoad s l) t 0 [])

/-- The far end that a pull accepts (R444). -/
def pullAccepts (s : State) (l : FwLoad) : Bool :=
  let p := s.link ⟨l.linkPort % 16, by omega⟩
  p.state == .up && (match p.far with | some f => f.claimsStore && f.cabinet == l.cabinet && f.place == l.locator.1 | none => false)

/-- Request a range of the image. -/
def pullRange (s : State) (l : FwLoad) (off n : Nat) : State :=
  openRequest s .pull 8 0 l.locator.1 l.locator.2.1 (l.locator.2.2.1 + off) n []

/-- The pull starts: its order is answered and the header is read. -/
def beginPull (s : State) (l : FwLoad) : State :=
  let s := match l.asked with | some t => answerCause s t 0 [] | none => s
  pullRange (s.modFw (fun f => { f with load := some { l with asked := none, ahead := 4096 } })) l 0 4096

/-- Start a pull whose port is ready. -/
def settlePull (s : State) : State :=
  match s.fw.load with
  | some l => if l.pull && l.ahead = 0 && pullAccepts s l then beginPull s l else s
  | none => s

/-- FW_BEGIN with MODE 1: in BOOT the port trains first (R444). DESIGN CHOICE, log entry 104. -/
def execFwBeginPull (x : I3cId) (s : State) : Result :=
  onFw s x 0x50 (fun m => m.field 0 1 == 1) (fun t s =>
    if s.fw.deferred.isSome then answerCause s t 12 []
    else
      let n : PortId := ⟨t.field 1 1 % 16, by omega⟩
      let l : FwLoad := { port := x, pull := true, size := 0, cells := [], covered := [], lastAt := s.now, linkPort := n.val,
                          locator := (t.field 16 2, t.field 18 2, t.field 24 8, t.field 32 8), cabinet := t.field 8 4, asked := some t, ahead := 0 }
      let boot := s.power.state == .boot && (s.link n).state != .up
      let s := openLoad s l
      if l.locator.2.2.2 < 4096 || (!boot && !pullAccepts s l) then failPull s 8
      else if boot then (if s.fw.startStep < 6 && (s.link n).trainStep = 0 then startTraining s n else s)
      else beginPull s l)

/-- Bytes of an image, at least and at most (R439). -/
def imageSizeOk (n : Nat) : Bool := within n 4096 33554432 && n % 16 == 0

/-- Put the pull's answered requests in the staging area. -/
def takePulled (s : State) : State :=
  (s.requests.filter (fun r => r.use == .pull && r.done)).foldl (fun s r =>
    let s := s.modFw (fun f => { f with load := f.load.map (fun l => stage l (r.offset - l.locator.2.2.1) r.got) })
    dropRequests s (fun q => q == r)) s

/-- Open further requests of 1 MiB, at most 16 at a time. -/
def pullRequests : Nat → State → State
  | 0, s => s
  | n + 1, s =>
    match s.fw.load with
    | some l =>
      if l.ahead < l.size && 0 < requestRoom s 8 then
        let m := min 1048576 (l.size - l.ahead)
        pullRequests n ((pullRange s l l.ahead m).modFw (fun f => { f with load := some { l with ahead := l.ahead + m } }))
      else s
    | none => s

/-- A pull goes on after an answer, and after a pause of the start (R438): LENGTH comes from the header (R444). DESIGN CHOICE, log entry 104. -/
def continuePull (s : State) : State :=
  if startPaused s then s
  else if s.requests.any (fun r => r.use == .pull && r.failed) then failPull s 8 else
  let s := takePulled s
  match s.fw.load with
  | some l =>
    if !l.pull then s
    else if l.size ≠ 0 then pullRequests 16 s
    else if 4096 ≤ covered l then
      let n := leNat (staged l 20 4)
      if !imageSizeOk n then failPull s 4
      else if l.locator.2.2.2 < n then failPull s 8
      else pullRequests 16 (s.modFw (fun f => { f with load := some { l with size := n } }))
    else s
  | none => s

/-- FW_BLOCK (R443). -/
def execFwBlock (x : I3cId) (s : State) : Result :=
  onFw s x 0x51 (fun _ => true) (fun t s =>
    match s.fw.load with
    | none => answerCause s t 2 (zeros 3 ++ leBytes 4 0)
    | some l =>
      let off := t.field 0 4
      let data := padTo (t.field 4 2) (slice t.msg.body 16 (t.field 4 2))
      if l.size < off + data.length then answerBare s t 0x04
      else if crc32c data ≠ t.field 8 4 then
        answerCause (s.modFw (fun f => { f with crcFail := satAdd 8 f.crcFail 1 })) t 1 (zeros 3 ++ leBytes 4 (covered l))
      else
        let l := stage l off data
        answerCause (s.modFw (fun f => { f with load := some l })) t 0 (zeros 3 ++ leBytes 4 (covered l)))

/-! ## FW_END (R439–R441, R445) -/

/-- The header fields of a staging area. -/
def headerOf (l : FwLoad) : FwHeader :=
  let h := staged l 0 64
  { version := fieldAt h 8 4, iface := fieldAt h 12 2, secver := fieldAt h 6 1, major := fieldAt h 14 1, minor := fieldAt h 15 1,
    digest := BitVec.ofNat 384 (beNat (sha384 (staged l 0 l.size))), pulled := l.pull, cells := l.cells }

/-- The header of an image (R439, R440). -/
def fwHeaderOk (l : FwLoad) : Bool :=
  let h := staged l 0 64
  fieldAt h 0 4 == 0x57464C5A && fieldAt h 4 2 == 1 && zeroAt h 7 1 && fieldAt h 16 2 == 0x7648 && zeroAt h 18 2 &&
  fieldAt h 20 4 == l.size && imageSizeOk l.size && zeroAt h 24 40

/-- The cause of the first check of R440 that fails. -/
def imageCause (s : State) (l : FwLoad) : Nat :=
  let cert := staged l (l.size - 336) 240
  if l.size = 0 || covered l < l.size then 3
  else if !fwHeaderOk l then 4
  else if !certOk cert 3 0 s.fuses.rootKey then 5
  else if !ecdsaVerify (certKey cert) (staged l 0 (l.size - 96)) (staged l (l.size - 96) 96) then 6
  else if (headerOf l).secver < s.fuses.secver then 7
  else 0

/-- The fused security version rises to an image's (R441). -/
def burn (s : State) (h : FwHeader) : State := { s with fuses := { s.fuses with secver := max s.fuses.secver h.secver } }

/-- The start waits for its image. DESIGN CHOICE, log entry 101. -/
def awaitsImage (s : State) : Bool := s.power.state == .boot && s.fw.startStep == 2

/-- FW_END (R445): the start goes on with the image, or the image is staged. DESIGN CHOICE, log entry 101. -/
def execFwEnd (x : I3cId) (s : State) : Result :=
  onFw s x 0x52 (fun _ => true) (fun t s =>
    match s.fw.load with
    | none => answerCause s t 2 (zeros 3 ++ zeros 5)
    | some l =>
      let h := headerOf l
      let cause := imageCause s l
      let s := answerCause (dropLoad s 7) t cause (zeros 3 ++ leBytes 4 h.version ++ leBytes 1 h.secver)
      if cause ≠ 0 then s
      else if awaitsImage s then
        let s := burn s h
        runFirmware (s.modFw (fun f => { f with running := h, loadState := 0, startStep := 4, pulled := h.pulled })) (restartIn s)
      else s.modFw (fun f => { f with staged := some h, loadState := 4 }))

/-- FW_LOAD_TIMEOUT (R442). -/
def execFwLoadTimeout (s : State) : Result :=
  match s.fw.load with
  | some l => if startPaused s then .next s else .next (dropLoad (s.reach (l.lastAt + sec 10)) 0)
  | none => .next s

/-! ## Activation (R446–R451) -/

/-- Ephemeral keys end with an activation (15 R418, R435). -/
def dropEphemeral (s : State) : State := forParts (fun p s => s.modKeys p (fun k => { k with ephemeral := [] })) s

/-- The switch of R447: sessions of another interface generation end (R451). DESIGN CHOICE, log entry 102. -/
def switchTo (s : State) (h : FwHeader) : State :=
  let old := s.fw.running.version
  let s := dropEphemeral (burn s h)
  let s := forParts (fun p s => if (s.part p).state ≠ .free then s.modPart p (fun x => { x with fwEntry := some h.version }) else s) s
  let s := s.modFw (fun f => { f with
    running := h
    staged := none
    deferred := none
    loadState := 0
    windowEnd := some (s.now + ms 1)
    activations := satAdd 8 f.activations 1 })
  let s := s.event srcSecurity 0x0505 0xFF (leBytes 4 old ++ leBytes 4 h.version)
  forI3c (fun x s => if (s.port x).session.live && (s.port x).session.iface ≠ h.iface then endSession s x 3 else s) s

/-- What an activation does when it proceeds: a cause, a switch or a restart (R446). -/
inductive Activation where
  | fails (cause : Nat)
  | switch (h : FwHeader)
  | restart (h : FwHeader)
  deriving DecidableEq, Repr

/-- The test of R446. DESIGN CHOICE, log entry 102. -/
def activationOf (s : State) (mode : Nat) : Activation :=
  match s.fw.staged with
  | none => .fails 11
  | some h =>
    if s.power.state = .hold then .restart h
    else if mode = 1 then (if s.parts.toList.all (fun x => x.state == .free) then .restart h else .fails 10)
    else if (s.power.state = .run || s.power.state = .drain) && h.major ≠ s.fw.running.major then .fails 9
    else .switch h

/-- Answer, then activate; a restart keeps the response in its mailbox. DESIGN CHOICE, log entry 102. -/
def activate (s : State) (t : Taken) (mode : Nat) : State :=
  if s.fw.deferred.isSome then answerCause s t 12 []
  else if s.fw.staged.isNone then answerCause s t 11 []
  else if s.power.latch || s.power.state = .quench then
    answerFw (s.modFw (fun f => { f with deferred := some (t.port, mode), loadState := 5, deferrals := satAdd 8 f.deferrals 1 })) t 0x0B 0 []
  else match activationOf s mode with
    | .fails c => answerCause s t c []
    | .switch h => switchTo (answerCause s t 0 []) h
    | .restart h => restartWith (burn (answerCause s t 0 []) h) h

/-- FW_ACTIVATE with MODE 0 and MODE 1. -/
def execFwActivateBoundary (x : I3cId) (s : State) : Result := onFw s x 0x53 (fun m => m.field 0 1 == 0) (fun t s => activate s t 0)
def execFwActivateRestart (x : I3cId) (s : State) : Result := onFw s x 0x53 (fun m => m.field 0 1 == 1) (fun t s => activate s t 1)

/-- DEFERRED_ACTIVATION (R450): the latch is clear and the lehr calm. -/
def execDeferredActivation (s : State) : Result :=
  match s.fw.deferred with
  | some (_, mode) =>
    if s.power.latch || s.power.state = .quench || !s.thermal.calm then .next s
    else match activationOf s mode with
      | .fails c => .next ((s.modFw (fun f => { f with deferred := none, result := c, loadState := if f.staged.isSome then 4 else 0 })).event
          srcSecurity 0x0506 0xFF (leBytes 1 c))
      | .switch h => .next (switchTo s h)
      | .restart h => .next (restartWith (burn s h) h)
  | none => .next s

/-- FW_WITHDRAW with ACTION 1. DESIGN CHOICE, log entry 103. -/
def execFwWithdrawDeferred (x : I3cId) (s : State) : Result :=
  onFw s x 0x54 (fun m => m.field 0 1 == 1) (fun t s =>
    answerCause (if s.fw.deferred.isSome then s.modFw (fun f => { f with deferred := none, loadState := 4 }) else s) t 0 [])

/-- FW_WITHDRAW with ACTION 2, of either port (R442). DESIGN CHOICE, log entry 103. -/
def execFwWithdrawLoad (x : I3cId) (s : State) : Result :=
  if startPaused s || !fwFirst s x 0x54 (fun m => m.field 0 1 == 2) then .next s
  else onTaken s x 0x54 (fun m => m.field 0 1 == 2) (fun t s =>
    answerCause ((dropLoad s 0).modFw (fun f => { f with staged := none, deferred := none })) t 0 [])

/-! ## The partner's identity (12 R341, R344) -/

/-- PARTNER_IDENTITY: the port is UP, FAILED or MISWIRED; a pull that waits for it starts or fails, and step 7 may end. -/
def execPartnerIdentity (n : PortId) (i : PartnerId) (s : State) : Result :=
  let l := s.link n
  if mayTrain s n && inTraining l.state && l.trainStep = 2 then
    let s := settlePull (takeIdentity (settleStart s) n i)
    let waits := match s.fw.load with | some f => f.pull && f.linkPort == n.val && f.ahead == 0 | none => false
    .next (settleStart (if waits then failPull s 8 else s))
  else .next s

/-! ## The end of a supply hold (14 R394) -/

/-- SUPPLY_HOLD_END (R394): 10 ms above 45.0 V. In QUENCH the stacks stay in self-refresh (R381). A start that paused resumes (16 R438). -/
def execSupplyHoldEnd (s : State) : Result :=
  match s.power.above45 with
  | some t =>
    if !s.power.supplyHeld || s.power.level ≠ .normal then .next s
    else
      let s := (settleHolds (s.reach (t + ms 10))).modPower (fun w => { w with supplyHeld := false })
      let s := if s.power.state = .boot then continuePull (runBoot s) else s
      .next (if s.power.state = .quench then s else setSelfRefresh s false)
  | none => .next s

end Sys2Proof.Machine
end

