-- ==== Sys2Proof/Machine/Heat.lean ====
section
/-! DEFINITION. The teaser's cycle (14 R375–R408; 01 R18): sensors, pair readings, thresholds, caps, die voltages, floor misses, the
lehr and the coolant flags. Temperatures are in m°C. -/

namespace Sys2Proof.Machine

/-- The cycle of the teaser (R375). -/
def teaserPeriod : Ns := us 100

/-! ## Sensors (R397–R400) -/

/-- A reading in the range of the core, stack and regulator sensors (R397). -/
def hotRange (m : Int) : Bool := decide (-20000 ≤ m ∧ m ≤ 150000)

/-- A reading in the range of the coolant sensors. -/
def coolRange (m : Int) : Bool := decide (0 ≤ m ∧ m ≤ 100000)

/-- Mean of a list of readings, rounded down to 1 m°C. DESIGN CHOICE, log entry 72. -/
def meanOf (l : List Int) : Int := l.sum / (l.length : Int)

/-- Power of a core in mW, by its curve and its work-beat rate over the cycle (R399). -/
def corePowerOf (s : State) (c : CoreId) : Int :=
  let mv := (s.power.dies.get (dieOf (clusterOf c))).mv
  (Config.corePower (s.core c).workRate mv (Config.curveRate c.val mv false) (Config.curveRate c.val mv true) : Nat)

/-- The cores over which the estimate of a core takes its mean (R399). DESIGN CHOICE, log entry 72. -/
def estimatePeers (s : State) (c : CoreId) : List CoreId :=
  let near := (coresOf (clusterOf c)).filter (fun d => d != c && !(s.core d).suspect)
  if near.isEmpty then (List.finRange 64).filter (fun d => dieOf (clusterOf d) == dieOf (clusterOf c) && !(s.core d).suspect) else near

/-- The estimate of a core (R399); 0.08 °C/W is 0.08 m°C/mW. With no core to take the mean over it is a free value.
DESIGN CHOICE, log entry 72. -/
def estimateCore (s : State) (c : CoreId) : Int × State :=
  let ps := estimatePeers s c
  if ps.isEmpty then (Config.unknownReading s.draw.1, s.draw.2)
  else (meanOf (ps.map (fun d => max (s.core d).diode (s.core d).delay)) +
      8 * (corePowerOf s c - meanOf (ps.map (corePowerOf s))) / 100, s)

/-- Which sensors of a pair are doubted, as event 0x0406 codes them (19 R476). -/
def doubtCode (k : Core) : Nat := if k.diodeDoubted && k.delayDoubted then 2 else if k.delayDoubted then 1 else 0

/-- The two sensors and the rate of a core are read, and its work-beat rate over the cycle taken (R399); an invalid sensor is doubted from this cycle on (R397).
DESIGN CHOICE, log entry 74. -/
def readCore (s : State) (r : Readings) (c : CoreId) : State :=
  let k := s.core c
  let k := { k with
    diode := r.diode.get c
    delay := r.delay.get c
    rate := BitVec.ofNat 16 (r.rate.get c)
    workSeen := k.work
    workRate := (k.work - k.workSeen).toNat / 100
    diodeDoubted := k.diodeDoubted || !hotRange (r.diode.get c)
    delayDoubted := k.delayDoubted || !hotRange (r.delay.get c) }
  let doubt := k.diodeDoubted || k.delayDoubted
  let s' := s.setCore c { k with suspect := k.suspect || doubt }
  if doubt && !k.suspect then s'.event srcTeaser 0x0406 0xFF (leBytes 1 c.val ++ leBytes 1 (doubtCode k)) else s'

/-- The pair reading of a core (R398), and how long it has disagreed and been hot. DESIGN CHOICE, log entry 75. -/
def pairCore (s : State) (c : CoreId) : State :=
  let e := estimateCore s c
  e.2.modCore c (fun k =>
    let pair := if k.diodeDoubted && k.delayDoubted then e.1 + 5000 else if k.diodeDoubted then max k.delay e.1
      else if k.delayDoubted then max k.diode e.1 else max k.diode k.delay
    let apart := !k.diodeDoubted && !k.delayDoubted && decide (5000 < (k.diode - k.delay).natAbs)
    { k with
      estimate := e.1
      estimateUsed := k.diodeDoubted || k.delayDoubted
      pair := pair
      disagree := if apart then k.disagree + 1 else 0
      hot := if 101000 ≤ pair then k.hot + 1 else 0 })

/-- Highest of a list of readings with its index; the first of equals. DESIGN CHOICE, log entry 30. -/
def hottest : List Int → Nat × Int
  | [] => (0, 0)
  | [a] => (0, a)
  | a :: b :: l => let h := hottest (b :: l); if h.2 ≤ a then (0, a) else (h.1 + 1, h.2)

/-- The stack read-outs: an invalid one is replaced by the highest valid one plus 5 °C (R399).
DESIGN CHOICE, log entry 73. -/
def readStacks (s : State) (r : Readings) : State :=
  let bad := Vector.ofFn (fun k : Fin 8 => s.thermal.hbmBad.get k || !hotRange (r.hbm.get k))
  let valid := (List.finRange 8).filter (fun k => !bad.get k)
  let top := (hottest (valid.map (fun k => r.hbm.get k))).2 + 5000
  let d := s.draw
  let s := if valid.isEmpty then d.2 else s
  s.modThermal (fun h => { h with
    hbmBad := bad
    hbm := Vector.ofFn (fun k : Fin 8 => if bad.get k then (if valid.isEmpty then Config.unknownReading d.1 else top) else r.hbm.get k) })

/-- The regulator and coolant sensors and the supplied flow. DESIGN CHOICE, log entry 73. -/
def readCoolant (s : State) (r : Readings) : State :=
  s.modThermal (fun h => { h with
    regBad := Vector.ofFn (fun k : Fin 8 => h.regBad.get k || !hotRange (r.reg.get k))
    reg := r.reg
    inletBad := h.inletBad || !coolRange r.inlet
    outletBad := h.outletBad || !coolRange r.outlet
    inlet := r.inlet
    outlet := r.outlet
    supplied := r.suppliedFlow })

/-- Suspect pairs of a cluster. -/
def suspectCount (s : State) (k : ClusterId) : Nat := ((coresOf k).filter (fun c => (s.core c).suspect)).length

/-- A cluster is speed-capped while two or more of its pairs are suspect (R400). -/
def capCluster (s : State) (k : ClusterId) : State :=
  let n := suspectCount s k
  let on := decide (2 ≤ n)
  if on = s.thermal.capped.get k then s
  else (s.modThermal (fun h => { h with capped := h.capped.set k.val on k.isLt })).event srcTeaser 0x0407 0xFF
    (leBytes 1 k.val ++ leBytes 1 n ++ leBytes 1 (bit (!on)))

/-- Pair readings of the 64 cores. -/
def pairsOf (s : State) : Vector Int 64 := s.cores.map (fun k => k.pair)

/-- Cycles in 1 s and in 10 s. -/
def secondCycles : Nat := 10000
def calmCycles : Nat := 100000

/-- The count of R394 runs while the supply reads above 45.0 V, and begins anew once it has read less, also above the warning level. -/
def countAbove (s : State) (mv : Nat) (w : Power) : Power :=
  if !w.supplyHeld || w.level != .normal then w
  else { w with above45 := if mv ≤ 45000 then none else some (w.above45.getD s.now) }

/-- Read every sensor and keep the readings of the last 10 s (R375, R404, R406), and the level of TAMPER_N (DESIGN CHOICE, log entry 98). -/
def readAll (s : State) (r : Readings) : State :=
  let s := match r.tamperLow with | some b => s.modSecurity (fun v => { v with extTamper := b }) | none => s
  let s := forCores (fun c s => readCore s r c) (r.bitErrors.foldl addBitError s)
  let s := forCores (fun c s => pairCore s c) s
  let s := readCoolant (readStacks s r) r
  let s := forClusters (fun k s => capCluster s k) s
  let s := s.modThermal (fun h => { h with history := ((pairsOf s, h.hbm, h.reg) :: h.history).take (calmCycles + 1) })
  s.modPower (fun w => { countAbove s r.supply w with p100 := r.p100, p1s := r.p1s, supplyMv := r.supply, currentUnits := r.current })

/-- The readings 1 s ago, or the oldest kept. -/
def secondAgo (s : State) : Vector Int 64 × Vector Int 8 × Vector Int 8 :=
  (s.thermal.history[secondCycles]?).getD ((s.thermal.history.getLast?).getD (pairsOf s, s.thermal.hbm, s.thermal.reg))

/-- The ramp of a core, in m°C/s (R404). -/
def rampOf (s : State) (c : CoreId) : Int := (s.core c).pair - (secondAgo s).1.get c

/-- PAIR_SUSPECT (R398): a pair that has disagreed in every cycle for 500 ms; the sensor further from the estimate is doubted. -/
def execPairSuspect (c : CoreId) (s : State) : Result :=
  let k := s.core c
  if k.suspect || k.disagree < 5000 then .next s else
  let a := (k.diode - k.estimate).natAbs
  let b := (k.delay - k.estimate).natAbs
  let d := s.draw
  let first := if a = b then Config.tieDiode d.1 else decide (b < a)
  let s := (if a = b then d.2 else s).modCore c (fun k => { k with suspect := true, diodeDoubted := first, delayDoubted := !first, disagree := 0 })
  .next (s.event srcTeaser 0x0406 0xFF (leBytes 1 c.val ++ leBytes 1 (bit (!first))))

/-! ## Thresholds (R401, R403) -/

/-- Valid regulator readings, by sensor; a doubted one counts as the lowest. DESIGN CHOICE, log entry 73. -/
def regReadings (s : State) : List Int := (List.finRange 8).map (fun k => if s.thermal.regBad.get k then -20000 else s.thermal.reg.get k)

/-- The readings of a sensor kind: core pairs, stacks, regulators. -/
def kindReadings (s : State) (kind : Nat) : List Int :=
  if kind = 0 then (pairsOf s).toList else if kind = 1 then s.thermal.hbm.toList else regReadings s

/-- The readings of a kind 1 s ago. -/
def kindPast (s : State) (kind : Nat) : List Int :=
  let o := secondAgo s
  if kind = 0 then o.1.toList else if kind = 1 then o.2.1.toList else o.2.2.toList

/-- The QUENCH thresholds. -/
def quenchHeat (s : State) : State :=
  let c := (hottest (kindReadings s 0)).2
  let h := (hottest (kindReadings s 1)).2
  let r := (hottest (kindReadings s 2)).2
  if 105000 ≤ c then enterQuench s 1 else if 95000 ≤ h then enterQuench s 2 else if 125000 ≤ r then enterQuench s 3 else s

/-- The descents that begin at one reading. -/
def descentHeat (s : State) : State :=
  let h := hottest (kindReadings s 1)
  let r := hottest (kindReadings s 2)
  if 92000 ≤ h.2 then beginDescent s 1 h.1 h.2 else if 115000 ≤ r.2 then beginDescent s 2 r.1 r.2 else s

/-- Every reading is within the end limits of R403. -/
def descentOver (s : State) : Bool :=
  (kindReadings s 0).all (· ≤ 90000) && (kindReadings s 1).all (· ≤ 85000) && (kindReadings s 2).all (· ≤ 100000)

/-- In a descent: since when the end condition is met, and the gating value by the ramp of the hottest reading (R401).
DESIGN CHOICE, log entry 76. -/
def trackDescent (s : State) : State :=
  match s.thermal.descent with
  | none => s
  | some (kind, idx, since) =>
    let h := hottest (kindReadings s kind)
    let ramp := h.2 - (kindPast s kind).getD h.1 h.2
    let s := s.modThermal (fun t => { t with descent := some (kind, idx, if descentOver s then some (since.getD s.now) else none) })
    s.modPower (fun w => { w with thermGate := if -5000 < ramp then min 10 (w.thermGate + 1) else if ramp < -10000 then w.thermGate - 1 else w.thermGate })

/-- CORE_HOT_DESCENT (R401): a pair at or above 101 °C for 10 ms, 100 cycles after the first. -/
def execCoreHotDescent (c : CoreId) (s : State) : Result :=
  if !teaserRuns s || (s.core c).hot ≤ 100 then .next s else .next (beginDescent s 0 c.val (s.core c).pair)

/-- DESCENT_END (R403). DESIGN CHOICE, log entry 76. -/
def execDescentEnd (s : State) : Result :=
  match s.thermal.descent with
  | some (kind, idx, some t) =>
    let s := (settleHolds (s.reach (t + sec 1))).modThermal (fun h => { h with descent := none })
    .next (descentEvent (s.modPower (fun w => { w with thermGate := 0 })) kind idx ((kindReadings s kind).getD idx 0) true)
  | _ => .next s

/-! ## Caps in a cycle (R384, R386, R387) -/

/-- The cap ceiling of a die: a shed walks it down to the cap voltage, else R384. -/
def ceilDie (s : State) (d : Die) : Die :=
  let c := capMw s
  let p := s.power.p100
  if s.power.shed then { d with ceiling := min d.ceiling (max (capVoltage s) (d.mv - 10)) }
  else if c < p + 20000 then { d with ceiling := max 600 (d.mv - 10) }
  else if p + 60000 < c && d.ceiling < 850 && (match d.ceilRise with | some t => t + ms 100 ≤ s.now | none => true) then
    { d with ceiling := d.ceiling + 10, ceilRise := some s.now }
  else d

/-- The token gating value G of R386. -/
def gateStep (s : State) : Nat :=
  let c := capMw s
  let p := s.power.p100
  if s.power.shed then s.power.gate
  else if s.power.dies.toList.all (fun d => d.mv == 600) && c < p + 20000 then min 10 (s.power.gate + 1)
  else if p + 60000 < c then s.power.gate - 1
  else s.power.gate

def capCycle (s : State) : State :=
  s.modPower (fun w => { w with gate := gateStep s, dies := w.dies.map (ceilDie s) })

/-- A shed ends in the cycle in which both dies are at or below the cap voltage (R387), with its event (19 R476).
DESIGN CHOICE, log entry 77. -/
def endShed (s : State) : State :=
  if s.power.shed && s.power.dies.toList.all (fun d => d.mv ≤ capVoltage s) then
    ((settleHolds s).modPower (fun w => { w with shed := false })).event srcTeaser 0x0401 0xFF
      (leBytes 2 (capNow s) ++ zeros 2 ++ leBytes 4 ((s.now - s.power.shedAt) / 1000))
  else s

/-! ## Voltage (R377, R378; 01 R18) -/

/-- The inlet is within the range of the ordering code (00 R2). DESIGN CHOICE, log entry 75. -/
def inletInRange (s : State) : Bool := decide (15000 ≤ s.thermal.inlet ∧ s.thermal.inlet ≤ (if s.fuses.codeSB then 40000 else 45000))

/-- The conditions of 00 R7. While the inlet sensor is doubted (INLET_BAD) they are judged by the raw reading, for which the manual gives
no rule (DESIGN CHOICE, log entry 75). -/
def floorBinds (s : State) : Bool :=
  s.power.state == .run && capMw s == 1000000 && within s.power.supplyMv 46000 58000 && s.power.level == .normal &&
  inletInRange s && 360 ≤ s.thermal.supplied && s.thermal.capped.toList.all (fun b => !b) && !s.power.latch

/-- The fused speed floor in Mbeat/s (01 R16). -/
def speedFloor (s : State) : Nat := if s.fuses.codeSB then 1100 else 1000

/-- A core that runs beats: in service, in a RUNNING partition that is not held. DESIGN CHOICE, log entry 78. -/
def coreRuns (s : State) (c : CoreId) : Bool :=
  (s.core c).state.serves && (match partOfCore s c with | some p => (s.part p).state == .running && !partHeld s p | none => false)

/-- A core samples below the floor. DESIGN CHOICE, log entry 78. -/
def coreLow (s : State) (c : CoreId) : Bool := coreRuns s c && (s.core c).rate.toNat < speedFloor s

def coresOfDie (d : DieId) : List CoreId := (List.finRange 64).filter (fun c => dieOf (clusterOf c) == d)

/-- A RUNNING partition has a cluster on the die. -/
def dieRuns (s : State) (d : DieId) : Bool :=
  s.parts.toList.any (fun x => x.state == .running && x.clusters.any (fun k => dieOf k == d))

/-- A core of the die ramps above +3 °C/s (R404). -/
def dieHeats (s : State) (d : DieId) : Bool := (coresOfDie d).any (fun c => 3000 < rampOf s c)

/-- 100 ms have passed since a lehr step (R404). -/
def paceOpen (s : State) (t : Option Ns) : Bool := match t with | some t => decide (t + ms 100 ≤ s.now) | none => true

/-- A die steps down: the next fall at the lehr pace counts from here (R404). -/
def dieFall (s : State) (v : Die) (gov : Nat) : Die := { v with mv := v.mv - 10, gov := gov, lastFall := some s.now }

/-- One die's voltage in a cycle: at most one step, by the first entry of R377 that applies. DESIGN CHOICE, log entry 78. -/
def moveDie (s : State) (d : DieId) : Die :=
  let v := s.power.dies.get d
  let economy := s.power.level != .normal
  let top := min v.ceiling (if economy then 650 else 850)
  let goal := if dieRuns s d then 750 else 600
  let target := min top goal
  if s.power.state = .quench || s.thermal.descent.isSome then (if 610 ≤ v.mv then dieFall s v 1 else { v with mv := 600, gov := 1 })
  else if economy && 650 < v.mv then dieFall s v 2
  else if v.ceiling < v.mv then dieFall s v 3
  else if floorBinds s && (coresOfDie d).any (coreLow s) then
    if v.mv < 850 && top < v.mv + 10 then { v with gov := if economy && 650 < v.mv + 10 then 2 else 3 }
    else { v with mv := min 850 (v.mv + 10), gov := 4, demand := some (min 850 (v.mv + 10)) }
  else if (coresOfDie d).any (fun c => 98000 ≤ (s.core c).pair) then
    (if max 600 (v.demand.getD 600) + 10 ≤ v.mv then dieFall s v 5 else { v with gov := 5 })
  else if v.mv < target then
    if paceOpen s v.lastRise && !dieHeats s d then { v with mv := v.mv + 10, gov := 6, lastRise := some s.now } else { v with gov := 6 }
  else if target < v.mv then
    if paceOpen s v.lastFall then dieFall s v 6 else { v with gov := 6 }
  else { v with gov := if goal ≤ top then 0 else if economy && 650 ≤ v.ceiling then 2 else 3 }

/-- Count the samples below the floor at 0.85 V while a floor demand governs (01 R18, R378), by the voltages before this cycle's
step, for a core whose fence is not decided yet. DESIGN CHOICE, log entry 78. -/
def countLow (s : State) (before : Vector Die 2) (c : CoreId) : State :=
  let d := dieOf (clusterOf c)
  let counts := (before.get d).mv == 850 && (s.power.dies.get d).gov == 4 && (s.core c).state == .inService && coreLow s c
  s.modCore c (fun k => { k with subFloor := if counts then k.subFloor + 1 else 0 })

def voltageCycle (s : State) : State :=
  let before := s.power.dies
  let s := s.modPower (fun w => { w with dies := Vector.ofFn (fun d : DieId => moveDie s d) })
  forCores (fun c s => countLow s before c) s

/-- FLOOR_MISS (01 R18): ten samples; the core is fenced at the next boundary (04 R117). -/
def execFloorMiss (c : CoreId) (s : State) : Result :=
  let k := s.core c
  if k.subFloor < 10 then .next s else
  let s := (s.modCore c (fun k => { k with subFloor := 0 })).event c.val 0x0101 ((partOfCore s c).map (fun p => p.val) |>.getD 0xFF)
    (leBytes 2 k.rate.toNat ++ leBytes 2 (s.power.dies.get (dieOf (clusterOf c))).mv)
  .next (fenceFor s c .floorMiss)

/-! ## The lehr (R404–R406) -/

/-- An idle core: in service with no RUNNING partition (R405). -/
def coreIdle (s : State) (c : CoreId) : Bool :=
  (s.core c).state.serves && (match partOfCore s c with | some p => (s.part p).state != .running | none => true)

/-- Ballast can run on a die, and R384 allows more power than the module takes (R405). DESIGN CHOICE, log entry 79. -/
def ballastCan (s : State) (d : DieId) : Bool :=
  (coresOfDie d).any (coreIdle s) && s.power.p100 + 20000 < capMw s && s.thermal.descent.isNone && !s.power.supplyHeld && s.power.state != .quench

/-- Ramp events of a core: once at each onset (R405). Whether ballast holds a falling core at −3 °C/s is a free value.
DESIGN CHOICE, log entry 79. -/
def rampCore (s : State) (c : CoreId) : State :=
  let r := rampOf s c
  let k := s.core c
  let note := fun (s : State) => s.event srcTeaser 0x0405 0xFF (leBytes 1 c.val ++ zeros 1 ++ leBytes 2 (twosNat 16 ((r + 50) / 100)))
  if 3000 < r then if k.rampUp then s else note (s.modCore c (fun k => { k with rampUp := true }))
  else if r < -3000 then
    if k.rampDown then s
    else if ballastCan s (dieOf (clusterOf c)) then
      let d := s.draw
      if Config.ballastHolds d.1 then d.2 else note (d.2.modCore c (fun k => { k with rampDown := true }))
    else note (s.modCore c (fun k => { k with rampDown := true }))
  else s.modCore c (fun k => { k with rampUp := false, rampDown := false })

/-- No pair reading of the last 10 s lies more than 2 °C from another of the same core (R406). -/
def steady (s : State) : Bool :=
  (List.finRange 64).all (fun c =>
    let l := s.thermal.history.map (fun h => h.1.get c)
    decide ((hottest l).2 + (hottest (l.map (fun m => -m))).2 ≤ 2000))

def lehrCycle (s : State) : State :=
  let falling := fun (d : DieId) => (coresOfDie d).any (fun c => rampOf s c < -3000)
  let ballast := (List.finRange 2).any (fun d => falling d && ballastCan s d)
  let s := forCores (fun c s => rampCore s c) s
  s.modThermal (fun h => { h with ballast := ballast, calm := h.descent.isNone && !ballast && steady s })

/-! ## Coolant (R408) -/

/-- The flow estimate, in 0.01 L/min: m°C and mW cancel. -/
def flowCycle (s : State) : State :=
  s.modThermal (fun h =>
    if !h.inletBad && !h.outletBad && 200000 ≤ s.power.p1s && 1000 ≤ h.outlet - h.inlet then
      { h with flow := min 65535 (6000 * s.power.p1s / (h.cv * (h.outlet - h.inlet).toNat)) }
    else h)

/-- Since when the two conditions are met and absent; an invalid inlet sensor moves neither count of INLET_OUT. -/
def coolantCycle (s : State) : State :=
  s.modThermal (fun h =>
    let low := h.flow != 0 && h.flow < h.flowMin
    let h := { h with
      flowBadSince := if low then some (h.flowBadSince.getD s.now) else none
      flowOkSince := if low then none else some (h.flowOkSince.getD s.now) }
    if h.inletBad then h
    else if inletInRange s then { h with inletBadSince := none, inletOkSince := some (h.inletOkSince.getD s.now) }
    else { h with inletBadSince := some (h.inletBadSince.getD s.now), inletOkSince := none })

/-- The event of a coolant flag. DESIGN CHOICE, log entry 75. -/
def coolantEvent (s : State) (flag : Nat) (cleared : Bool) : State :=
  let v := if flag = 1 then s.thermal.flow else twosNat 16 ((s.thermal.inlet + 50) / 100)
  s.event srcTeaser 0x0408 0xFF (leBytes 1 flag ++ leBytes 1 (bit cleared) ++ leBytes 2 v)

/-- FLOW_LOW (R408). -/
def execFlowLow (s : State) : Result :=
  match s.thermal.flowBadSince with
  | some t => if s.thermal.flowLow then .next s else .next (coolantEvent ((s.reach (t + sec 10)).modThermal (fun h => { h with flowLow := true })) 1 false)
  | none => .next s

/-- INLET_OUT (R408). -/
def execInletOut (s : State) : Result :=
  match s.thermal.inletBadSince with
  | some t => if s.thermal.inletOut then .next s else .next (coolantEvent ((s.reach (t + sec 10)).modThermal (fun h => { h with inletOut := true })) 2 false)
  | none => .next s

/-- When FLOW_LOW, and INLET_OUT, is due to clear. -/
def flowClearAt (h : Thermal) : Option Ns := if h.flowLow then h.flowOkSince else none
def inletClearAt (h : Thermal) : Option Ns := if h.inletOut then h.inletOkSince else none

/-- Clear one coolant flag. -/
def clearCoolant (s : State) (t : Ns) (flag : Nat) : State :=
  coolantEvent ((s.reach (t + sec 10)).modThermal (fun h =>
    if flag = 1 then { h with flowLow := false } else { h with inletOut := false })) flag true

/-- COOLANT_FLAG_CLEAR (R408): the flag whose condition has been absent longer. -/
def execCoolantFlagClear (s : State) : Result :=
  match flowClearAt s.thermal, inletClearAt s.thermal with
  | some a, some b => if a ≤ b then .next (clearCoolant s a 1) else .next (clearCoolant s b 2)
  | some a, none => .next (clearCoolant s a 1)
  | none, some b => .next (clearCoolant s b 2)
  | none, none => .next s

/-! ## The cycle (R375, R396) -/

/-- The emergency latch is clear at the first cycle with none of its causes (R396). -/
def latchCycle (s : State) : State :=
  s.modPower (fun w => { w with latch := w.state == .quench || w.supplyHeld || s.thermal.descent.isSome })

/-- The thermal throttle is in force on a die (R401). -/
def throttleCycle (s : State) : State :=
  s.modThermal (fun h => { h with throttle := s.cores.toList.any (fun k => 98000 ≤ k.pair) })

/-- TEASER_CYCLE. -/
def execTeaserCycle (r : Readings) (s : State) : Result :=
  if !teaserRuns s then .next s else
  let s := settleHolds (s.reach (s.power.cycleAt + teaserPeriod))
  let s := readAll (s.modPower (fun w => { w with cycleAt := s.now })) r
  let s := trackDescent (descentHeat (quenchHeat s))
  let s := coolantCycle (flowCycle s)
  let s := endShed (voltageCycle (capCycle s))
  .next (settleStart (throttleCycle (latchCycle (lehrCycle s))))

end Sys2Proof.Machine
end

