-- ==== Sys2Proof/Machine/PartOrders.lean ====
section
/-! DEFINITION. Orders about a partition's seed, video slots, serving, adapters, cores and replay (11 R300, R304). -/

namespace Sys2Proof.Machine

/-- SEED_SET (01 R27): before arming the seed is set, later it changes at the first boundary whose stamp is later (R21), with the next
generation. The orders that one boundary takes make one change, to the seed of the last. DESIGN CHOICE, log entry 63. -/
def execSeedSet (s : State) : Result :=
  onDue s 0x21 (fun _ => true) (fun t s =>
    let p := t.part 0
    let x := s.part p
    let v := BitVec.ofNat 128 (t.field 8 16)
    if x.state = .armed || x.state = .running then
      answer (s.modPart p (fun x => { x with seedNext := x.seedNext ++ [(s.stamp, v)] })) t 0x00 (zeros 3 ++ leBytes 4 (x.seedGen + 1))
    else answer (s.modPart p (fun x => { x with seed := v, seedSet := x.seedSet || x.state == .loaded })) t 0x00 (zeros 3 ++ leBytes 4 0))

/-! ## Video slots (09 R248) -/

/-- The slot owners of an engine once an order that is in force takes effect. DESIGN CHOICE, log entry 64. -/
def slotOwners (v : VidEngine) : Vector (Option PartId) 64 := v.ownersNext.getD v.owners

/-- A video-slot order would give one slot, context block or pool block to two partitions. -/
def videoConflict (v : VidEngine) (p : PartId) (fc nc fp np mask : Nat) : Bool :=
  (List.finRange 64).any (fun i => bitOf mask i.val && (match (slotOwners v).get i with | some o => o != p | none => false)) ||
  (List.finRange 8).any (fun o => o != p && (blocksMeet fc nc (v.ctxFirst.get o) (v.ctxBlocks.get o) || blocksMeet fp np (v.poolFirst.get o) (v.poolBlocks.get o)))

/-- An engine after a video-slot order: slots at the next slot 0, blocks at once. DESIGN CHOICE, log entry 64. -/
def videoAllot (v : VidEngine) (p : PartId) (fc nc fp np mask : Nat) : VidEngine :=
  { v with
    ownersNext := some (Vector.ofFn (fun i : Fin 64 =>
      if bitOf mask i.val then some p else if (slotOwners v).get i = some p then none else (slotOwners v).get i))
    ctxFirst := v.ctxFirst.set p.val fc p.isLt
    ctxBlocks := v.ctxBlocks.set p.val nc p.isLt
    poolFirst := v.poolFirst.set p.val fp p.isLt
    poolBlocks := v.poolBlocks.set p.val np p.isLt }

/-- VIDEO_SLOT (R248). DESIGN CHOICE, log entry 64. -/
def execVideoSlot (s : State) : Result :=
  onDue s 0x24 (fun _ => true) (fun t s =>
    let p := t.part 0
    let d := dieOfInst (t.field 1 1)
    let v := s.engine d
    let w := videoAllot v p (t.field 2 1) (t.field 3 1) (t.field 4 1) (t.field 5 1) (t.field 8 8)
    let live := (s.part p).state == .armed || (s.part p).state == .running
    let short := match (s.part p).image.bind (fun i => i.video[d.val]?) with | some g => !videoEnough w p g | none => false
    if videoConflict v p (t.field 2 1) (t.field 3 1) (t.field 4 1) (t.field 5 1) (t.field 8 8) then answerBare s t 0x03
    else if live && short then answerBare s t 0x08
    else answerBare (s.setEngine d w) t 0x00)

/-! ## Serving (08) -/

/-- SERVING_SETTINGS: at action 1 of the next boundary, or at once while the partition runs no step ("The SRV registers"). -/
def execServingSettings (s : State) : Result :=
  onDue s 0x25 (fun _ => true) (fun t s =>
    let p := t.part 0
    let b := t.field 1 1
    let v : Serving := { cancelMode := bitOf b 0, rebind := bitOf b 1, admitClosed := bitOf b 2, quantum := t.field 2 1, riskPct := t.field 3 1,
                         resumePct := t.field 4 1, targets := Vector.ofFn (fun c : Fin 4 => t.field (8 + 4 * c.val) 3) }
    let s := s.modPart p (fun x => if x.state = .running then { x with settingsNext := x.settingsNext ++ [(s.stamp, v)] } else { x with serving := v, settingsNext := [] })
    answerBare s t 0x00)

/-- A cancel order is already known to its partition. -/
def cancelKnown (s : State) (t : Taken) : Bool :=
  (s.part (t.part 0)).cancels.any (fun c => c.answer == some (t.port.val, t.msg.seq, t.eff))

/-- CANCEL (11 R304): the order waits for the pending set, and its answer for the boundary that applies it.
DESIGN CHOICE, log entry 62. -/
def execCancel (s : State) : Result :=
  match s.orders.taken.find? (fun t => t.msg.typ == 0x26 && !cancelKnown s t) with
  | none => .next s
  | some t =>
    let p := t.part 0
    if (s.part p).state = .armed || (s.part p).state = .running then
      .next (s.modPart p (fun x => { x with cancels := x.cancels ++ [
        { byClient := t.field 1 1 == 1, target := t.field 8 8, stamp := t.eff, source := t.msg.issuer, frameSeq := 0,
          answer := some (t.port.val, t.msg.seq, t.eff), entered := false, stream := 0 }] }))
    else .next (answerBare (s.modOrders (fun o => { o with taken := o.taken.erase t })) t 0x10)

/-- The cancel that enters the pending set next, with its partition. -/
def nextCancel (s : State) : Option (PartId × CancelReq) :=
  (List.finRange 8).foldl (fun best p => (s.part p).cancels.foldl (fun best c =>
    if c.entered then best else
    match best with
    | some (q, b) => if c.stamp < b.stamp then some (p, c) else some (q, b)
    | none => some (p, c)) best) none

/-- CANCEL_PENDING_ENTRY (11 R304): 20 µs after its eff. -/
def execCancelPendingEntry (s : State) : Result :=
  match nextCancel s with
  | none => .next s
  | some (p, c) =>
    .next ((s.reachStamp (c.stamp + us 20)).modPart p (fun x => { x with cancels := updFirst (fun d => d == c) (fun d => { d with entered := true }) x.cancels }))

/-- ADAPTER_LOAD (R236): the lowest free slot waits for the body of a version above the current one.
DESIGN CHOICE, log entry 63. -/
def execAdapterLoad (s : State) : Result :=
  onDue s 0x27 (fun _ => true) (fun t s =>
    let p := t.part 0
    let x := s.part p
    let stale := match currentAdapter x (t.field 2 2) with | some a => decide (t.field 8 8 ≤ a.version) | none => false
    match x.image with
    | none => answerBare s t 0x10
    | some i =>
      if stale then answerBare s t 0x09
      else match (List.range i.adapterSlots).find? (fun n => !x.adapters.any (fun a => a.slot == n)) with
        | none => answerBare s t 0x0A
        | some n =>
          let a : Adapter := { slot := n, ident := t.field 2 2, version := t.field 8 8, digest := BitVec.ofNat 384 (beNat (slice t.msg.body 16 48)),
                               state := .awaiting, bound := 0, loadedAt := 0 }
          answer (s.modPart p (fun x => { x with adapters := x.adapters ++ [a] })) t 0x00 (leBytes 1 n))

/-! ## Cores (04 R117, R124) -/

/-- The core that a CORE_ORDER names. -/
def Taken.core (t : Taken) : CoreId := ⟨t.field 1 1 % 64, by omega⟩

/-- CORE_ORDER with ACTION 1 (R117). -/
def execCoreFence (s : State) : Result :=
  onDue s 0x28 (fun m => m.field 0 1 == 1) (fun t s => answerBare (fenceFor s t.core .order) t 0x00)

/-- CORE_ORDER with ACTION 2 (R124; 14 R396). -/
def execCoreReadmit (s : State) : Result :=
  onDue s 0x28 (fun m => m.field 0 1 == 2) (fun t s =>
    if s.power.latch then answerBare s t 0x01
    else if (s.core t.core).state ≠ .fenced then answerBare s t 0x07
    else answerBare (s.modCore t.core (fun k => { k with state := .gloryHole })) t 0x00)

/-! ## Replay (01 R36) -/

/-- Dump point `k` of a REPLAY_SET body. -/
def dumpOf (t : Taken) (k : Nat) : DumpPoint :=
  let o := 32 + 32 * k
  { kind := t.field o 1, atTally := t.field (o + 1) 1 == 1, cluster := t.field (o + 2) 1, bank := t.field (o + 3) 1, tally := t.field (o + 4) 2,
    count := t.field (o + 6) 2, step := t.field (o + 8) 8, value := t.field (o + 16) 8, page := t.field (o + 24) 4 }

/-- REPLAY_SET. -/
def execReplaySet (s : State) : Result :=
  onDue s 0x29 (fun _ => true) (fun t s =>
    let r : ReplaySet := { first := t.field 8 8, last := t.field 16 8, dumps := (List.range (t.field 24 1)).map (dumpOf t) }
    answerBare (s.modPart (t.part 0) (fun x => { x with replaySet := some r })) t 0x00)

end Sys2Proof.Machine
end

