-- ==== Sys2Proof/Machine/Security.lean ====
section
/-! DEFINITION. The security core (15 R411–R430): attestation, key release, intake, rotation, returns. Store answers stand here, for they
carry a pull on (12 R338; 16 R444). -/

namespace Sys2Proof.Machine

/-! ## Attestation (R417, R418) -/

/-- Count a signed report. DESIGN CHOICE, log entry 109. -/
def countReport (s : State) : State :=
  s.modSecurity (fun v => { v with reports := if v.identity then (v.reports + 1) % 65536 else v.reports })

/-- The fall-back report of 288 bytes: its 192 signed bytes and the signature. -/
def fallback (s : State) (t : Taken) (r : Bytes) : State :=
  let g := signIdentity s r
  answer (countReport g.2) t 0x00 (zeros 3 ++ r ++ g.1)

/-- The main report of 608 bytes, with a fresh ephemeral key; a fifth destroys the oldest (R418).
DESIGN CHOICE, log entry 139. -/
def mainReport (s : State) (t : Taken) (r : Bytes) : State :=
  let d := s.draw
  let priv := Config.randomScalar d.1
  let r := splice r 400 (padTo 97 (pubKey (privKey priv.toNat)))
  let g := signIdentity d.2 r
  let e : Ephemeral := { nonce := slice r 160 32, priv := priv, report := r ++ g.1, madeAt := s.now }
  let s := if holdsImage (s.part (t.part 0)) then
      g.2.modKeys (t.part 0) (fun k => { k with ephemeral := (k.ephemeral ++ [e]).drop (k.ephemeral.length - 3) })
    else g.2
  answer (countReport s) t 0x00 (zeros 3 ++ r ++ g.1)

/-- An uncorrectable vault word that a read meets wipes the vault (R415). -/
def readVault (s : State) (bad : Bool) : State := if bad then wipeVault s 2 else s

/-- ATTESTATION (R417): the report of the state in which the query was taken, with the time of the signature; with an uncorrectable vault
word, a fall-back report of the state after the wipe. DESIGN CHOICE, log entry 139. -/
def execAttestation (x : I3cId) (vaultBad : Bool) (s : State) : Result :=
  onTaken s x 0x09 (fun _ => true) (fun t s =>
    let s := readVault s vaultBad
    let r := if vaultBad then reportHead s 2 (slice t.msg.body 8 32) else (seenAnswer s t).2
    let r := splice r 152 (leBytes 8 s.stamp)
    if !vaultBad && fieldAt r 6 1 == 1 then mainReport s t r else fallback s t r)

/-- The earliest instant of a list of ephemeral keys. -/
def firstMade (es : List Ephemeral) : Option Ns := (es.head?).map (fun e => e.madeAt)

/-- EPHEMERAL_KEY_EXPIRY (R418): 60 s after the report. -/
def execEphemeralKeyExpiry (p : PartId) (s : State) : Result :=
  match firstMade (s.part p).keys.ephemeral with
  | some t =>
    let s := s.reach (t + sec 60)
    .next (s.modKeys p (fun k => { k with ephemeral := k.ephemeral.filter (fun e => s.now < e.madeAt + sec 60) }))
  | none => .next s

/-! ## Key release (R420–R422) -/

/-- The wrapping key and IV of a release (R420). -/
def wrapKey (s : State) (t : Taken) (e : Ephemeral) : Bytes :=
  let info := "ZL7648-KEY-RELEASE-1".toList.map (fun c => BitVec.ofNat 8 c.toNat)
  hkdf384 (ecdh (privKey e.priv.toNat) (pointOf (slice t.msg.body 40 97))) (slice t.msg.body 8 32)
    (info ++ leBytes 8 s.fuses.serial ++ slice t.msg.body 0 8) 44

/-- The key and salt that a release wraps. -/
def unwrap (s : State) (t : Taken) (e : Ephemeral) : Option Bytes :=
  if (pointOf (slice t.msg.body 40 97)).isNone then none
  else
    let w := wrapKey s t e
    gcmOpen (w.take 32) (w.drop 32) (sha384 e.report) (slice t.msg.body 144 36) (slice t.msg.body 180 16)

/-- Highest generation installed for a stream or store key. -/
def highestGen (k : PKeys) (kind stream : Nat) : Option Nat := (k.highest.find? (fun h => h.1 == kind && h.2.1 == stream)).map (fun h => h.2.2)

/-- Keep the two highest generations of a stream. -/
def addStreamKey (ks : List StreamKey) (k : StreamKey) : List StreamKey :=
  let mine := ks.filter (fun j => j.stream == k.stream)
  let low := (mine.map (fun j => j.gen)).foldl min k.gen
  if 2 ≤ mine.length then k :: ks.filter (fun j => !(j.stream == k.stream && j.gen == low)) else k :: ks

/-- Install a released key (R422). -/
def installKey (k : PKeys) (kind stream gen : Nat) (plain : Bytes) : PKeys :=
  let key := plain.take 32
  let k := { k with highest := if kind = 1 then k.highest else (kind, stream, gen) :: k.highest.filter (fun h => !(h.1 == kind && h.2.1 == stream)) }
  if kind = 1 then { k with model := some key }
  else if kind = 2 then { k with streams := addStreamKey k.streams { stream := stream, gen := gen, key := key, salt := plain.drop 32, high := 0 } }
  else { k with storePrev := k.store, store := some (gen, key), storeSeals := 0 }

/-- The cause for which a release fails, or the key (R421). A partition without an image has no ephemeral key, so cause 3 goes first (R423).
DEDUCED, log entry 105. -/
def releaseTest (s : State) (t : Taken) : Except Nat Bytes :=
  let x := s.part (t.part 0)
  let kind := t.field 1 1
  let stream := t.field 2 2
  let gen := t.field 4 4
  if !holdsImage x then .error 3 else
  match x.keys.ephemeral.find? (fun e => e.nonce == padTo 32 (slice t.msg.body 8 32)) with
  | none => .error 1
  | some e =>
    match unwrap s t e with
    | none => .error 2
    | some plain =>
      if kind ≠ 1 && (match highestGen x.keys kind stream with | some h => decide (gen ≤ h) | none => false) then .error 4
      else if x.keys.applied.contains (e.nonce, kind, stream, gen) then .error 5
      else if kind = 2 && (rxDecl x stream).isNone then .error 6
      else if s.security.extTamper then .error 7
      else .ok plain

/-- SEC_KEY_RELEASE (R420, R421). -/
def execSecKeyRelease (vaultBad : Bool) (s : State) : Result :=
  onDue s 0x40 (fun _ => true) (fun t s =>
    let s := readVault s vaultBad
    match releaseTest s t with
    | .ok plain =>
      let s := s.modKeys (t.part 0) (fun k => { installKey k (t.field 1 1) (t.field 2 2) (t.field 4 4) plain with
        applied := (padTo 32 (slice t.msg.body 8 32), t.field 1 1, t.field 2 2, t.field 4 4) :: k.applied })
      answer (s.modSecurity (fun v => { v with releases := satAdd 8 v.releases 1 })) t 0x00 (zeros 4)
    | .error c =>
      let s := (s.modSecurity (fun v => { v with rejects := satAdd 8 v.rejects 1 })).event srcSecurity 0x0502 0xFF (leBytes 1 c ++ leBytes 1 (t.field 1 1))
      answer s t 0x10 (zeros 3 ++ leBytes 1 c))

/-! ## Intake (R424–R428) -/

/-- The adapter slot that awaits the body of an identifier and version (R236). -/
def awaitingSlot (x : Part) (ident version : Nat) : Option Nat :=
  (x.adapters.find? (fun a => a.ident == ident && a.version == version && a.state == .awaiting)).map (fun a => a.slot)

/-- The intake that an order names, or the status of its refusal (R426). One intake runs at a time in a partition.
DESIGN CHOICE, log entry 106. -/
def intakeOf (x : Part) (t : Taken) : Except Nat Intake :=
  match x.image with
  | none => .error 0x10
  | some img =>
    let region := (t.field 24 2, t.field 26 2, t.field 32 8)
    let first := t.field 4 4
    let count := t.field 8 4
    let len := t.field 12 4
    let i : Intake := { target := t.field 1 1, next := first, stop := first + count, length := 0, ident := 0, version := 0, slot := 0,
                        region := region, body := [] }
    if x.keys.model.isNone then .error 0x10
    else if t.field 1 1 = 1 then
      if x.state ≠ .loaded then .error 0x10
      else if x.keys.intake.isSome then .error 0x01
      else if count = 0 || img.chunks.length < first + count then .error 0x04
      else .ok i
    else
      match awaitingSlot x (t.field 2 2) (t.field 16 8) with
      | none => .error 0x10
      | some n =>
        if x.state ≠ .armed && x.state ≠ .running then .error 0x10
        else if x.keys.intake.isSome then .error 0x01
        else if len = 0 || img.adapterSize < len || 256 * 1048576 < len then .error 0x04
        else .ok { i with next := 0, stop := ceilDiv len 1048576, length := len, ident := t.field 2 2, version := t.field 16 8, slot := n }

/-- The intake banks of a LOADED partition are observed by the digest walkers of its clusters (R427; 05 R136). -/
def observeIntake (s : State) (p : PartId) (i : Intake) : State :=
  if i.target ≠ 1 then s else
  (List.range (s.part p).clusters.length).foldl (fun s lc => [32, 33].foldl (fun s b => match physBank s (s.part p) lc b with
    | some n => s.setOwner n { s.owner n with observer := 2 }
    | none => s) s) s

/-- SEC_INTAKE (R426). -/
def execSecIntake (s : State) : Result :=
  onDue s 0x41 (fun _ => true) (fun t s =>
    match intakeOf (s.part (t.part 0)) t with
    | .ok i => answerBare (observeIntake (s.modKeys (t.part 0) (fun k => { k with intake := some i, result := 1 })) (t.part 0) i) t 0x00
    | .error st => answerBare s t st)

/-- A chunk of an intake: its length, nonce and additional data, its logical cluster, offset and the digest it must have (R424, R425). -/
structure ChunkJob where
  length  : Nat
  nonce   : Bytes
  aad     : Bytes
  cluster : Nat
  offset  : Nat
  digest  : Option Nat

/-- The chunk that an intake takes next. DESIGN CHOICE, log entry 108. -/
def chunkJob (x : Part) (img : Image) (i : Intake) : Option ChunkJob :=
  if i.target = 1 then
    (img.chunks[i.next]?).map (fun c =>
      { length := c.length, nonce := leBytes 1 1 ++ leBytes 3 img.salt.toNat ++ leBytes 8 i.next, aad := chunkEntry c, cluster := c.cluster,
        offset := c.offset, digest := some c.digest.toNat })
  else
    let n := min 1048576 (i.length - i.next * 1048576)
    let at_ := Config.adapterPlace i.slot i.next
    some { length := n, nonce := leBytes 1 2 ++ leBytes 1 i.next ++ leBytes 2 i.ident ++ leBytes 8 i.version,
           aad := leBytes 2 i.ident ++ leBytes 8 i.version ++ leBytes 1 i.next ++ leBytes 4 i.length,
           cluster := at_.1 % max 1 x.clusters.length, offset := 64 * (at_.2 % ((partSpace - n) / 64 + 1)), digest := none }

/-- Tags of a region, and where the chunks begin after them (R425). DESIGN CHOICE, log entry 107. -/
def tagBase (img : Image) (i : Intake) : Nat := 4096 * ceilDiv (16 * (if i.target = 1 then img.chunks.length else i.stop)) 4096

/-- Request a chunk and the page of the tag table that holds its tag. DESIGN CHOICE, log entry 107. -/
def requestChunk (s : State) (p : PartId) (img : Image) (i : Intake) (c : ChunkJob) : State :=
  let r := i.region
  let s := openRequest s .intake p.val 0 r.1 r.2.1 (r.2.2 + 16 * i.next / 4096 * 4096) 4096 []
  openRequest s .intake p.val 0 r.1 r.2.1 (r.2.2 + tagBase img i + i.next * 1048576) c.length []

/-- The chunk fails and the intake stops (R428); a failed adapter frees its slot. -/
def failChunk (s : State) (p : PartId) (i : Intake) (result : Nat) : State :=
  let s := s.modKeys p (fun k => { k with
    intake := none
    result := result
    checked := if i.target = 1 then k.checked.filter (fun n => n != i.next) else k.checked
    failedChunks := if i.target = 1 && !k.failedChunks.contains i.next then i.next :: k.failedChunks else k.failedChunks })
  let s := if i.target = 2 then s.modPart p (fun x => { x with adapters := x.adapters.filter (fun a => a.slot != i.slot) }) else s
  s.event srcSecurity 0x0503 p.val (leBytes 4 i.next ++ leBytes 1 result)

/-- The intake bank of a chunk (R427): while LOADED the chunks of a cluster alternate between its banks 32 and 33. DESIGN CHOICE, log entry
107. -/
def intakeBank (img : Image) (i : Intake) (lc : Nat) : Nat :=
  32 + (if i.target = 1 then ((img.chunks.take i.next).filter (fun c => c.cluster == lc)).length % 2 else img.intakeBanks.getD lc 0)

/-- A chunk can pass: its intake bank is the transfer engine's, its observer the digest walker (R427; 05 R136), and an adapter's chunk fits
what is left of the step's house allowance while steps run (05 R144). -/
def intakeServes (s : State) (p : PartId) (img : Image) (i : Intake) (c : ChunkJob) : Bool :=
  let x := s.part p
  (match physBank s x c.cluster (intakeBank img i c.cluster) with
   | some b => (s.owner b).owner == 5 && (s.owner b).observer == 2
   | none => false) &&
  (i.target = 1 || x.state ≠ .running || (assocGet c.cluster x.houseUsed).getD 0 + c.length ≤ img.houseMib * 2 ^ 20)

/-- The work beats of an INTAKE_CHUNK (R427), whatever it ends with (02 R50). -/
def chunkBeats (s : State) (c : ChunkJob) (k : ClusterId) : State :=
  s.modCluster k (fun q => { q with beats := q.beats + BitVec.ofNat 64 (8 + 2 * ceilDiv c.length 2048) })

/-- Step 2: the opened chunk stands in its intake bank (R427). -/
def chunkOpened (s : State) (p : PartId) (img : Image) (i : Intake) (c : ChunkJob) (plain : Bytes) : State :=
  match physBank s (s.part p) c.cluster (intakeBank img i c.cluster) with | some b => bankWrite s (bankAddr b 0) plain | none => s

/-- Write a chunk that passed, and go on or end. -/
def passChunk (s : State) (p : PartId) (i : Intake) (c : ChunkJob) (k : ClusterId) (plain : Bytes) : State :=
  let s := stackWrite s (stackAddr k c.offset) plain
  let s := if i.target = 2 then s.modPart p (fun x => { x with
      houseUsed := assocSet c.cluster ((assocGet c.cluster x.houseUsed).getD 0 + c.length) x.houseUsed }) else s
  let last := i.next + 1 == i.stop
  let s := if last && i.target = 2 then
      s.modPart p (fun x => { x with adapters := updFirst (fun a => a.slot == i.slot) (fun a => { a with state := .loaded, loadedAt := s.stamp }) x.adapters })
    else s
  s.modKeys p (fun q => { q with
    intake := if last then none else some { i with next := i.next + 1, body := if i.target = 2 then i.body ++ plain else [] }
    result := if last then 2 else 1
    checked := if i.target = 1 && !q.checked.contains i.next then i.next :: q.checked else q.checked
    failedChunks := if i.target = 1 then q.failedChunks.filter (fun n => n != i.next) else q.failedChunks })

/-- The digest that a chunk completes is right: its own, or that of the adapter body at its last chunk.
DESIGN CHOICE, log entry 108. -/
def digestOk (x : Part) (i : Intake) (c : ChunkJob) (plain : Bytes) : Bool :=
  match c.digest with
  | some d => beNat (sha384 plain) == d
  | none => i.next + 1 < i.stop || x.adapters.any (fun a => a.slot == i.slot && beNat (sha384 (i.body ++ plain)) == a.digest.toNat)

/-- Take an answered chunk: open, digest, write. -/
def takeChunk (s : State) (p : PartId) (img : Image) (i : Intake) (c : ChunkJob) (k : ClusterId) (rs : List StoreReq) : State :=
  let x := s.part p
  let s := chunkBeats (dropRequests s (fun r => rs.contains r)) c k
  match rs with
  | [tags, data] =>
    if tags.failed || data.failed then failChunk s p i 0x12
    else match x.keys.model.bind (fun key => gcmOpen key c.nonce c.aad data.got (slice tags.got (16 * i.next % 4096) 16)) with
      | none => failChunk s p i 0x10
      | some plain =>
        let s := chunkOpened s p img i c plain
        if digestOk x i c plain then passChunk s p i c k plain else failChunk s p i 0x11
  | _ => s

/-- INTAKE_CHUNK (R427): it requests its chunk, waits for the store, and takes it; a hold of a RUNNING partition stops it (14 R388).
DESIGN CHOICE, log entry 107. -/
def execIntakeChunk (p : PartId) (s : State) : Result :=
  let x := s.part p
  match x.image, x.keys.intake with
  | some img, some i =>
    match chunkJob x img i with
    | none => .next s
    | some c =>
      match x.clusters[c.cluster]? with
      | none => .next s
      | some k =>
        let rs := requestsOf s p 0 .intake
        if rs.isEmpty then (if requestRoom s p.val < 2 then .next s else .next (requestChunk s p img i c))
        else if rs.any reqOpen || (s.cluster k).selfRefresh || (x.state == .running && partHeld s p) || !intakeServes s p img i c then .next s
        else .next (takeChunk s p img i c k rs)
  | _, _ => .next s

/-! ## Store answers (12 R338) -/

/-- STORE_RD_DATA: the data joins its request; a pull goes on. -/
def execStoreRdData (s : State) : Result :=
  onFrame s 0x21 (fun _ f s =>
    match answered s f false with
    | some r => continuePull (modRequest s r.tag (fun r => addData r f))
    | none => s)

/-- STORE_ERR: the request fails. -/
def execStoreErr (s : State) : Result :=
  onFrame s 0x24 (fun _ f s =>
    match s.requests.find? (fun r => r.tag == f.msg && r.store == f.src && reqOpen r) with
    | some r => continueExports (continuePull (modRequest s r.tag (fun r => { r with failed := true })))
    | none => s)

/-- STORE_REQUEST_TIMEOUT: the oldest request goes again, or fails. -/
def execStoreRequestTimeout (s : State) : Result :=
  match oldestRequest s.requests with
  | some r => .next (continueExports (continuePull (timeoutRequest s r)))
  | none => .next s

/-! ## Rotation and returns (R412, R430) -/

/-- SEC_ROTATE (R430). DESIGN CHOICE, log entry 70. -/
def execSecRotate (s : State) : Result :=
  onDue s 0x42 (fun _ => true) (fun t s =>
    let p := t.part 0
    let x := s.part p
    if !holdsImage x then answerBare s t 0x10
    else if sweeping s x then answerBare s t 0x01
    else if x.state = .running then answerBare (s.modPart p (fun x => { x with rotateWanted := some (x.rotateWanted.getD s.stamp) })) t 0x00
    else answerBare (advanceKeys s p) t 0x00)

/-- Every partition is FREE. -/
def allFree (s : State) : Bool := s.parts.toList.all (fun x => x.state == .free)

/-- SEC_RETURN with ACTION 1. -/
def execSecReturnBegin (s : State) : Result :=
  onDue s 0x43 (fun m => m.field 0 1 == 1) (fun t s =>
    if !allFree s then answerBare s t 0x10
    else answerBare (s.modSecurity (fun v => { v with returning := some (t.port.val, s.now) })) t 0x00)

/-- SEC_RETURN with ACTION 2 and the serial number: within 10 s of ACTION 1 on the same port the module becomes RETURNED; else the
procedure starts again. DESIGN CHOICE, log entry 109. -/
def execSecReturnConfirm (s : State) : Result :=
  onDue s 0x43 (fun m => m.field 0 1 == 2) (fun t s =>
    let ready := match s.security.returning with | some (p, at_) => p == t.port.val && s.now ≤ at_ + sec 10 | none => false
    if !allFree s then answerBare s t 0x10
    else if t.field 8 8 ≠ s.fuses.serial then answerBare s t 0x04
    else if !ready then answerBare (s.modSecurity (fun v => { v with returning := none })) t 0x10
    else
      let s := wipeVault (answerBare s t 0x00) 0
      restartRom { s with fuses := { s.fuses with lifecycle := 3 } })

end Sys2Proof.Machine
end

