-- ==== Sys2Proof/Machine/Sessions.lean ====
section
/-! DEFINITION. Session messages, leases and the plain queries (11 R300, R306–R311; 02 R57, R58, R62; 15 R414). -/

namespace Sys2Proof.Machine

/-- What both answers to SESSION_OPEN carry (R306, R308). -/
def openTail (s : State) (number : Nat) : Bytes :=
  zeros 1 ++ leBytes 2 s.fw.running.iface ++ leBytes 4 s.fw.running.version ++ leBytes 4 number

/-- Open a session on a port, ending the one it holds (R306), clear REFUSED (R308) and leave HOLD (R309).
DESIGN CHOICE, log entry 141. -/
def openSession (s : State) (t : Taken) : State :=
  let s := if sessionLive s t.port then endSession s t.port 2 else s
  let n := s.orders.nextSession
  let e := if t.field 2 2 = 0 then 5 else t.field 2 2
  let s := s.modPort t.port (fun q => { q with session := { q.session with live := true, number := n, iface := t.field 0 2, expiry := e, renewed := s.stamp } })
  let s := s.modOrders (fun o => { o with nextSession := n + 1, refusedFlag := false })
  let s := if s.power.state = .hold then (s.modPower (fun w => { w with state := .ready })).modFw (fun f => { f with startStep := 11 }) else s
  answer s t 0x00 (openTail s n)

/-- SESSION_OPEN (R306, R308, R309), step 10 of the start (16 R437). -/
def execSessionOpen (x : I3cId) (s : State) : Result :=
  onTaken s x 0x01 (fun _ => true) (fun t s =>
    let s := expireSession s x
    if t.field 0 2 = s.fw.running.iface then openSession s t
    else
      let s := if s.power.state = .hold then (s.modOrders (fun o => { o with refusedFlag := true })).modFw (fun f => { f with startStep := 10 }) else s
      answer s t 0x0F (openTail s 0))

/-- LEASE_RENEW: taking it renewed the lease (R307). -/
def execLeaseRenew (x : I3cId) (s : State) : Result :=
  onTaken s x 0x02 (fun _ => true) (fun t s => answer s t 0x00 (zeros 3 ++ leBytes 4 (leaseLeft s x)))

/-- DETACH (R311). -/
def execDetach (x : I3cId) (s : State) : Result :=
  onTaken s x 0x03 (fun _ => true) (fun t s => answerBare (if (s.port x).session.live then endSession s x 0 else s) t 0x00)

/-- LEASE_EXPIRY (R307). -/
def execLeaseExpiry (x : I3cId) (s : State) : Result :=
  if (s.port x).session.live then .next (endSession (s.reachStamp (leaseEnd s x)) x 1) else .next s

/-- Answer a query as its state was when it was taken (R300). DESIGN CHOICE, log entry 139. -/
def deliver (s : State) (t : Taken) : State :=
  answer s t (seenAnswer s t).1 (seenAnswer s t).2

/-- IDENTITY (15 R411, R414). -/
def execIdentity (x : I3cId) (s : State) : Result := onTaken s x 0x08 (fun _ => true) (fun t s => deliver s t)

/-- TALLY_READ (02 R57). -/
def execTallyRead (x : I3cId) (s : State) : Result := onTaken s x 0x10 (fun _ => true) (fun t s => deliver s t)

/-- SIZE_READ (02 R62). -/
def execSizeRead (x : I3cId) (s : State) : Result := onTaken s x 0x11 (fun _ => true) (fun t s => deliver s t)

/-- CORE_STATUS (R300). -/
def execCoreStatus (x : I3cId) (s : State) : Result := onTaken s x 0x12 (fun _ => true) (fun t s => deliver s t)

end Sys2Proof.Machine
end

