-- ==== Sys2Proof/Machine/Time.lean ====
section
/-! DEFINITION. Time (12 R345–R352): TIME_SYNC edges, holdover, identity bursts, the trim. -/

namespace Sys2Proof.Machine

/-- Local source of the time events (19 R476). DESIGN CHOICE, log entry 111. -/
def srcTime : Nat := srcGaffer

/-- The commits for the next edge, port A first. -/
def commitsOf (s : State) : List Nat := (s.i3c.toList.map (fun q => q.commit)).filterMap (fun c => c)

/-- The value on which the commits of an edge agree. -/
def agreedOf : List Nat → Option Nat
  | [] => none
  | v :: vs => if vs.all (fun u => u == v) then some v else none

/-- The counter reads `v` from now on: forward at once, backward by slewing 1 ns per 1,000 ns (R349).
DESIGN CHOICE, log entry 110. -/
def correctTo (s : State) (v : Int) : State :=
  let c : Int := s.stamp
  let forward := decide (c ≤ v)
  s.modTime (fun t => { t with
    base := (if forward then v else c) - s.now
    slew := if forward then 0 else (c - v).toNat
    slewAt := s.now })

/-- HOLDOVER begins (R349): causes 1 REFCLK, 2 edge missing, 3 edge off count. -/
def enterHoldover (s : State) (cause : Nat) : State :=
  if s.time.state ≠ .locked then s else
  (s.modTime (fun t => { t with
    state := .holdover
    unsure := true
    heldSince := some s.now
    disagree := 0
    losses := satAdd 8 t.losses 1 })).event srcTime 0x0220 0xFF (leBytes 1 cause)

/-- Lock, or lock again after a holdover (R347, R349). -/
def lockAt (s : State) (v : Nat) : State :=
  let target : Int := v + s.time.trim
  let off := target - s.stamp
  let lock := fun (s : State) => s.modTime (fun t => { t with state := .locked, unsure := t.slew != 0, heldSince := none, disagree := 0, lastValue := some v })
  if s.time.state = .acquiring then
    lock (s.modTime (fun t => { t with base := target - s.now, slew := 0 }))
  else (lock (correctTo s target)).event srcTime 0x0221 0xFF (leBytes 8 (twosNat 64 off))

/-- The offset by which every commit of an edge disagrees with the value expected. -/
def commonOffset (cs : List Nat) (expected : Nat) : Option Int :=
  match agreedOf cs with
  | some v => if v = expected then none else some ((v : Int) - expected)
  | none => none

/-- An edge on count in LOCKED (R348): commits that disagree are counted; the third edge with one common offset adopts it.
DESIGN CHOICE, log entry 110. -/
def lockedEdge (s : State) (cs : List Nat) : State :=
  let settle := fun (s : State) => s.modTime (fun t => { t with unsure := t.unsure && t.slew != 0 })
  match s.time.lastValue with
  | none => s
  | some u =>
    let expected := u + 1000000000
    let bad := (cs.filter (fun v => v != expected)).length
    let s := s.modTime (fun t => { t with annBad := satAdd 8 t.annBad bad, lastValue := some expected })
    match commonOffset cs expected with
    | none => settle (correctTo (s.modTime (fun t => { t with disagree := 0 })) (expected + s.time.trim))
    | some o =>
      let n := if s.time.disagree != 0 && s.time.offset = o then s.time.disagree + 1 else 1
      if n < 3 then settle (correctTo (s.modTime (fun t => { t with disagree := n, offset := o })) (expected + s.time.trim))
      else
        let s := correctTo s (expected + o + s.time.trim)
        (s.modTime (fun t => { t with disagree := 0, lastValue := some (expected + o).toNat, unsure := t.slew != 0 })).event srcTime
          0x0222 0xFF (leBytes 8 (twosNat 64 o))

/-- The edge is within 2 reference cycles of its count. DESIGN CHOICE, log entry 110. -/
def onCount (s : State) (cycles : Nat) : Bool := s.time.ref && s.time.lastEdge.isSome && within cycles 156249998 156250002

/-- TIME_SYNC_EDGE (R347–R349): the edge arrives at `reading`, `cycles` reference cycles after the last. A lock may end the start (16 R437). -/
def execTimeSyncEdge (reading : Ns) (cycles : Nat) (s : State) : Result :=
  if s.power.state = .off then .next s else
  let s := s.reach reading
  let cs := commitsOf s
  let ok := onCount s cycles
  let first := s.time.lastEdge.isNone
  let s := forI3c (fun x s => s.modPort x (fun q => { q with commit := none })) s
  let s := if ok || first then s else s.modTime (fun t => { t with missed := satAdd 8 t.missed 1 })
  let s :=
    if s.time.state = .locked then
      if ok then lockedEdge s cs else (enterHoldover s 3).modTime (fun t => { t with lastValue := agreedOf cs })
    else match s.time.lastValue, agreedOf cs with
      | some u, some v => if ok && v = u + 1000000000 then lockAt s v else s.modTime (fun t => { t with lastValue := some v })
      | _, a => s.modTime (fun t => { t with lastValue := a })
  .next (settleStart (quotaEdge (s.modTime (fun t => { t with lastEdge := some s.now }))))

/-- EDGE_MISSING (R349): no edge within 1.0001 s of the last. DESIGN CHOICE, log entry 111. -/
def execEdgeMissing (s : State) : Result :=
  match s.time.lastEdge with
  | some e =>
    let s := (s.reach (e + 1000100000)).modTime (fun t => { t with missed := satAdd 8 t.missed 1, lastEdge := none })
    .next ((enterHoldover s 2).modTime (fun t => { t with lastValue := none }))
  | none => .next s

/-- REFCLK_LOSS (R345, R349): absent for 1 µs. -/
def execRefclkLoss (s : State) : Result :=
  if s.power.state = .off || !s.time.ref then .next s
  else .next (enterHoldover (s.modTime (fun t => { t with ref := false })) 1)

/-- REFCLK_RETURN (R345). -/
def execRefclkReturn (s : State) : Result :=
  if s.power.state = .off then .next s else .next (s.modTime (fun t => { t with ref := true }))

/-- SLEW_COMPLETE (R349): the backward offset is out. -/
def execSlewComplete (s : State) : Result :=
  if s.time.slew = 0 then .next s
  else
    let s := s.reach (s.time.slewAt + 1000 * s.time.slew)
    let c : Int := s.stamp
    .next (s.modTime (fun t => { t with base := c - s.now, slew := 0, unsure := if t.state = .locked then false else t.unsure }))

/-- IDENTITY_BURST (R350): 96 bits, the first received the most significant, from 10 µs to 100 µs after an edge.
DESIGN CHOICE, log entry 111. -/
def execIdentityBurst (bits : BitVec 96) (s : State) : Result :=
  match s.time.lastEdge with
  | some e =>
    let s := s.reach (e + us 10)
    let v := bits.toNat
    let source := bitsOf v 79 48
    if s.now ≤ e + us 100 && bitsOf v 95 80 = 0xA5C3 && crc32c (leBytes 4 source ++ leBytes 2 (bitsOf v 47 32)) = bitsOf v 31 0 then
      .next (s.modTime (fun t => { t with far := BitVec.ofNat 32 source }))
    else .next s
  | none => .next s

/-- TIME_TRIM (R347, R352). -/
def execTimeTrim (s : State) : Result :=
  onDue s 0x6D (fun _ => true) (fun t s => answerBare (s.modTime (fun v => { v with trim := signedOf 16 (t.field 0 2) })) t 0x00)

/-- HOLD_ERR in ns: 20 ns and 50 ppm of the time in holdover (R349). -/
def holdErr (s : State) : Nat := match s.time.heldSince with | some t => 20 + (s.now - t) / 20000 | none => 0

end Sys2Proof.Machine
end

