-- ==== Sys2Proof/Machine/Vector.lean ====
section
/-! DEFINITION. Vector-class commands: one exact result per element, rounded once (03 R89, R92). The manual has no vector
chapter, so the operation and its operands come with the row (DESIGN CHOICE, log entry 16). -/

namespace Sys2Proof.Machine

/-- Number of an operation, for the free work-beat count. -/
def vecOpNo (o : VecOp) : Nat :=
  match o with
  | .copy => 0 | .neg => 1 | .abs => 2 | .add => 3 | .sub => 4 | .mul => 5 | .mulAdd => 6 | .max => 7 | .min => 8
  | .cmpLt => 9 | .cmpLe => 10 | .cmpEq => 11 | .exp2 => 12 | .log2 => 13 | .recip => 14 | .rsqrt => 15 | .gelu => 16
  | .silu => 17 | .tanh => 18

/-- The negation of a value. -/
def Num.negate (a : Num) : Num :=
  match a with
  | .nan => .nan
  | .inf s => .inf (!s)
  | .fin s m e => .fin (!s) m e

/-- The magnitude of a value. -/
def Num.absolute (a : Num) : Num :=
  match a with
  | .nan => .nan
  | .inf _ => .inf false
  | .fin _ m e => .fin false m e

/-- A truth value as an exact number. -/
def truth (b : Bool) : Option OutVal := some (.num false (bit b) 1)

/-- The exact result of an operation; none where the manual states no result (an ordering of a NaN; DESIGN CHOICE, log entry 16). -/
def vecResult (tabs : List FormatTable) (o : VecOp) (a b c : Num) : Option OutVal :=
  let anyNan := a == .nan || b == .nan
  match o with
  | .copy => some a.value
  | .neg => some a.negate.value
  | .abs => some a.absolute.value
  | .add => some ((Lane.start.add a).add b).value
  | .sub => some ((Lane.start.add a).add b.negate).value
  | .mul => some (Lane.start.mulAdd a b).value
  | .mulAdd => some ((Lane.start.mulAdd a b).add c).value
  | .max => if anyNan then none else some (if numLt a b then b else a).value
  | .min => if anyNan then none else some (if numLt b a then b else a).value
  | .cmpLt => if anyNan then none else truth (numLt a b)
  | .cmpLe => if anyNan then none else truth (!numLt b a)
  | .cmpEq => if anyNan then none else truth (!numLt a b && !numLt b a)
  | .exp2 => some (curve tabs 0 a)
  | .log2 => some (curve tabs 1 a)
  | .recip => some (curve tabs 2 a)
  | .rsqrt => some (curve tabs 3 a)
  | .gelu => some (curve tabs 4 a)
  | .silu => some (curve tabs 5 a)
  | .tanh => some (curve tabs 6 a)

/-- How many operands an operation reads. -/
def vecArity (o : VecOp) : Nat :=
  match o with
  | .mulAdd => 3
  | .add => 2 | .sub => 2 | .mul => 2 | .max => 2 | .min => 2 | .cmpLt => 2 | .cmpLe => 2 | .cmpEq => 2
  | _ => 1

/-- The code of one element: the rounded result, −0 where a curve names it, or a free value of the operation, the formats and the operand
codes `codes`. -/
def vecCode (tabs : List FormatTable) (v : VecArgs) (r : Nat) (codes : List Nat) (bad : Bool) (a b c : Num) : Nat :=
  let w := wdescOf v.wdesc
  let open_ := (Config.freeWord (vecOpNo v.op :: v.fmt :: v.wdesc :: codes)).toNat % 2 ^ fmtBits w.fmt
  if bad then open_
  else if v.op == .recip && curveNegZero 2 a then
    (match floatFmt w.fmt with | some f => signCode f.bits true 0 | none => 0)
  else match vecResult tabs v.op a b c with
    | some o => writeScalar w r o
    | none => open_

/-- An element of an operand. -/
def vecElem (v : VecArgs) (pl : Plane) (e : Nat) : Num := elemNum [] v.fmt (elemRaw pl.rd v.fmt e)

/-- The operand codes of element `e`. -/
def vecRaws (v : VecArgs) (pa pb pc : Plane) (e : Nat) : List Nat := [elemRaw pa.rd v.fmt e, elemRaw pb.rd v.fmt e, elemRaw pc.rd v.fmt e]

/-- Element `e` meets a poisoned word. -/
def vecBad (v : VecArgs) (pa pb pc : Plane) (e : Nat) : Bool := elemBad pa v.fmt 0 e || elemBad pb v.fmt 0 e || elemBad pc v.fmt 0 e

/-- The codes of the elements in order; `rand` gives their random words. -/
def vecCodes (tabs : List FormatTable) (v : VecArgs) (rand : Nat → Nat) (pa pb pc : Plane) : List Nat :=
  (List.range v.count).map (fun e =>
    vecCode tabs v (rand e) (vecRaws v pa pb pc e) (vecBad v pa pb pc e) (vecElem v pa e) (vecElem v pb e) (vecElem v pc e))

/-- The bit errors that the reads of the operands meet. -/
def vecMeets (s : State) (v : VecArgs) (ab bb cb : Fin 288) : State :=
  let n := planeBytes v.fmt v.count
  let s := meetBank s (bankAddr ab v.a.2) n
  let s := if 2 ≤ vecArity v.op then meetBank s (bankAddr bb v.b.2) n else s
  if 3 ≤ vecArity v.op then meetBank s (bankAddr cb v.c.2) n else s

/-- Vector operation over `count` elements (R89, R92); an operand that the operation does not read is its first. A poisoned operand word
gives a free result and error 0x02. DESIGN CHOICE, log entry 16. -/
def vectorSteps (v : VecArgs) (d : Due) (s : State) : Engine EngineOut := do
  let x := s.part d.p
  let w := wdescOf v.wdesc
  let n := planeBytes v.fmt v.count
  let ob ← coreBank s d v.out.1 (planeBytes w.fmt v.count) v.out.2
  let ab ← coreBank s d v.a.1 n v.a.2
  let bb ← (if 2 ≤ vecArity v.op then coreBank s d v.b.1 n v.b.2 else .ok ab)
  let cb ← (if 3 ≤ vecArity v.op then coreBank s d v.c.1 n v.c.2 else .ok ab)
  let pa := bankPlane s ab v.a.2
  let pb := if 2 ≤ vecArity v.op then bankPlane s bb v.b.2 else pa
  let pc := if 3 ≤ vecArity v.op then bankPlane s cb v.c.2 else pa
  let t := bankWrite (vecMeets s v ab bb cb) (bankAddr ob v.out.2) (packPlane w.fmt (vecCodes x.tables v (elemRandom x d.record) pa pb pc))
  return .done t (Config.vectorBeats (vecOpNo v.op) v.fmt v.count)
    (if (List.range v.count).any (vecBad v pa pb pc) then 2 else 0)

/-- An operation that evaluates a curve table (R92). -/
def curveOp (o : VecOp) : Bool := o == .exp2 || o == .log2 || o == .recip || o == .rsqrt || o == .gelu || o == .silu || o == .tanh

/-- The operands of a vector command that the loader lets through: BF16 or FP32 in (R89), a scalar format out (R80, R81, R86), FP32
or BF16 out of a curve (R92), stochastic rounding only with RANDOM set (R88). DESIGN CHOICE, log entry 16. -/
def vecOk (v : VecArgs) (r : CmdRecord) : Bool :=
  let w := wdescOf v.wdesc
  (v.fmt == 1 || v.fmt == 3) && v.wdesc < 2 ^ 32 && wdescOk w && w.fmt ≤ 18 && !isBlock w.fmt && (w.rnd != 2 || randomEn r) &&
  (!curveOp v.op || w.fmt == 1 || w.fmt == 3)

/-- What a vector command hands over. DESIGN CHOICE, log entry 16. -/
def vecHand (v : VecArgs) (d : Due) : Option Handover :=
  v.hand.map (fun h => { cluster := d.desc.inst / 8, bank := h.1, owner := h.2.1, unit := h.2.2 })

/-- VECTOR_COMMAND: operands that the loader refuses are those of no command of a list. DESIGN CHOICE, log entry 16. -/
def execVectorCommand (p : PartId) (q : Nat) (v : VecArgs) (s : State) : Result :=
  match dueAt s p q with
  | some d =>
    if recOpcode d.record < 0xFF00 && vecOk v d.record then
      runEngine s p q 4 (recOpcode d.record) (vecHand v) (fun d s => (vectorSteps v d s).out)
    else .next s
  | none => .next s

end Sys2Proof.Machine
end

