-- ==== Sys2Proof/Machine/Bitstream.lean ====
section
/-! DEFINITION. Access units in the Annex B byte-stream format of ITU-T H.265 and H.264, and the levels of both standards (09 R242, R250,
R265). The manual names the standards; their formats are PRESUMED, log entry 134. -/

namespace Sys2Proof.Machine

/-! ## NAL units -/

/-- The type of a NAL unit (codec 0 HEVC, 1 AVC). -/
def nalType (codec : Nat) (nal : Bytes) : Nat := if codec = 0 then fieldAt nal 0 1 / 2 % 64 else fieldAt nal 0 1 % 32

/-- Emulation prevention: no two zero bytes are followed by a byte of 3 or less. -/
def escaped : Nat → Bytes → Bytes
  | _, [] => []
  | z, b :: bs =>
    let next := if b = 0 then 1 else 0
    if z = 2 && b.toNat ≤ 3 then 3 :: b :: escaped next bs else b :: escaped (if b = 0 then z + 1 else 0) bs

/-- The bytes without emulation prevention. -/
def unescaped : Nat → Bytes → Bytes
  | _, [] => []
  | z, b :: bs => if z = 2 && b = 3 then unescaped 0 bs else b :: unescaped (if b = 0 then min 2 (z + 1) else 0) bs

/-- Parameter sets, whose start codes have the leading zero byte, as the first of an access unit has. -/
def isParameterSet (codec : Nat) (nal : Bytes) : Bool :=
  if codec = 0 then 32 ≤ nalType codec nal && nalType codec nal ≤ 34 else nalType codec nal = 7 || nalType codec nal = 8

/-- An access unit of NAL units, each behind its start code. PRESUMED, log entry 134. -/
def annexB (codec : Nat) (nals : List Bytes) : Bytes :=
  ((List.range nals.length).zip nals).flatMap (fun n =>
    (if n.1 = 0 || isParameterSet codec n.2 then [0] else []) ++ [0, 0, 1] ++ escaped 0 n.2)

/-- A NAL unit, gathered in reverse, without the zero bytes that trail it. -/
def endNal (cur : Option Bytes) : List Bytes := (cur.map (fun b => unescaped 0 (b.dropWhile (fun x => x == 0)).reverse)).toList

/-- The NAL units of an access unit: `cur` is the one being read, in reverse, and `z` the zero bytes just before.
PRESUMED, log entry 134. -/
def nalUnits (cur : Option Bytes) : Nat → Bytes → List Bytes
  | _, [] => endNal cur
  | z, b :: bs =>
    if 2 ≤ z && b = 1 then endNal cur ++ nalUnits (some []) 0 bs
    else nalUnits (cur.map (fun c => b :: c)) (if b = 0 then z + 1 else 0) bs

/-- Slices of an intra random-access point: AVC's IDR, HEVC's types 16 to 23. -/
def irapUnit (codec : Nat) (nals : List Bytes) : Bool :=
  nals.any (fun n => if codec = 0 then 16 ≤ nalType 0 n && nalType 0 n ≤ 23 else nalType codec n == 5)

/-- The access unit begins a coded video sequence: an IDR or BLA picture, or a CRA picture that is the first. -/
def beginsSequence (codec : Nat) (nals : List Bytes) (first : Bool) : Bool :=
  nals.any (fun n => if codec = 0 then (16 ≤ nalType 0 n && nalType 0 n ≤ 20) || (first && nalType 0 n == 21) else nalType codec n == 5)

/-- An IDR picture: nothing before it stays a reference. -/
def idrUnit (codec : Nat) (nals : List Bytes) : Bool :=
  nals.any (fun n => if codec = 0 then nalType 0 n == 19 || nalType 0 n == 20 else nalType codec n == 5)

/-- The decoded picture is kept as a reference: always in HEVC, by nal_ref_idc in AVC. -/
def keptAsReference (codec : Nat) (nals : List Bytes) : Bool :=
  codec = 0 || nals.any (fun n => 1 ≤ nalType codec n && nalType codec n ≤ 5 && fieldAt n 0 1 / 32 % 4 != 0)

/-! ## Slice data -/

/-- Bits as bytes, the first bit of each the most significant. -/
def packBits : Nat → List Bool → Bytes
  | 0, _ => []
  | n + 1, bs => if bs.isEmpty then [] else
    BitVec.ofNat 8 (((List.range 8).map (fun i => if bs.getD i false then 2 ^ (7 - i) else 0)).sum) :: packBits n (bs.drop 8)

/-- A slice's payload: header, coded blocks, the stop bit and zeros up to a byte. -/
def slicePayload (bits : List Bool) : Bytes := packBits (bits.length + 1) (bits ++ [true])

/-! ## Levels (R250) -/

/-- The most luma samples of a picture at an HEVC level × 10, 0 for a level that the standard lacks. -/
def hevcSamples (level : Nat) : Nat :=
  match level with
  | 10 => 36864 | 20 => 122880 | 21 => 245760 | 30 => 552960 | 31 => 983040 | 40 => 2228224 | 41 => 2228224 | 50 => 8912896 | 51 => 8912896
  | _ => 0

/-- The most macroblocks of a picture at an AVC level × 10, 0 for a level that the standard lacks. -/
def avcBlocks (level : Nat) : Nat :=
  match level with
  | 10 => 99 | 11 => 396 | 12 => 396 | 13 => 396 | 20 => 396 | 21 => 792 | 22 => 1620 | 30 => 1620 | 31 => 3600 | 32 => 5120 | 40 => 8192
  | 41 => 8192 | 42 => 8704 | 50 => 22080 | 51 => 36864
  | _ => 0

/-- A picture size lies within a level: its area, and each side at most the square root of 8 times the largest area.
PRESUMED, log entry 134. -/
def withinLevel (codec level width height : Nat) : Bool :=
  if codec = 0 then
    let n := hevcSamples level
    width * height ≤ n && width * width ≤ 8 * n && height * height ≤ 8 * n
  else
    let n := avcBlocks level
    let w := ceilDiv width 16
    let h := ceilDiv height 16
    w * h ≤ n && w * w ≤ 8 * n && h * h ≤ 8 * n

end Sys2Proof.Machine
end

