-- ==== Sys2Proof/Machine/Motion.lean ====
section
/-! DEFINITION. The encoder's motion search (09 R259, R260). Motion vectors are in quarter samples. -/

namespace Sys2Proof.Machine

abbrev Mv := Int × Int

/-- A picture of planar samples: bytes, width, height, samples per stored row, 16-bit samples or not. -/
structure Picture where
  codec  : Nat
  data   : Bytes
  width  : Nat
  height : Nat
  stride : Nat
  wide   : Bool

/-- `v` within 0 to `n - 1`. -/
def clampIdx (v : Int) (n : Nat) : Nat := min v.toNat (n - 1)

/-- A luma sample; outside the picture its nearest edge sample. -/
def Picture.luma (g : Picture) (x y : Int) : Nat :=
  let i := clampIdx y g.height * g.stride + clampIdx x g.width
  if g.wide then fieldAt g.data (2 * i) 2 % 1024 else fieldAt g.data i 1

/-- Absolute difference. -/
def absDiff (a b : Nat) : Nat := (a - b) + (b - a)

/-- The 256 places of a 16 × 16 block. -/
def blockPlaces : List (Int × Int) := (List.range 256).map (fun (i : Nat) => (((i % 16 : Nat) : Int), ((i / 16 : Nat) : Int)))

/-- SAD of the block at (x, y) against a reference moved by an integer vector. -/
def sadOf (src ref : Picture) (x y : Int) (v : Mv) : Nat :=
  (blockPlaces.map (fun q => absDiff (src.luma (x + q.1) (y + q.2)) (ref.luma (x + q.1 + v.1 / 4) (y + q.2 + v.2 / 4)))).sum

/-! ### Fractional samples: the codec's own luma interpolation filter (R259). PRESUMED, log entry 134. -/

/-- A number held to the samples of a bit depth. -/
def clipSample (depth : Nat) (v : Int) : Nat := min v.toNat (2 ^ depth - 1)

/-- HEVC's 8 luma taps at a quarter-sample phase. -/
def hevcTaps : Nat → List Int
  | 1 => [-1, 4, -10, 58, 17, -5, 1, 0]
  | 2 => [-1, 4, -11, 40, 40, -11, 4, -1]
  | 3 => [0, 1, -5, 17, 58, -10, 4, -1]
  | _ => [0, 0, 0, 64, 0, 0, 0, 0]

/-- Taps against the values at successive places. -/
def tapSum (taps : List Int) (f : Int → Int) : Int :=
  (((List.range taps.length).zip taps).map (fun t => t.2 * f t.1)).sum

/-- HEVC: rows filtered to 14 bits, then columns, then rounded to the bit depth. -/
def hevcLuma (g : Picture) (x y : Int) : Nat :=
  let depth := if g.wide then 10 else 8
  let row := fun (j : Int) => tapSum (hevcTaps (x % 4).toNat) (fun k => g.luma (x / 4 + k - 3) j) / 2 ^ (depth - 8)
  let v := tapSum (hevcTaps (y % 4).toNat) (fun k => row (y / 4 + k - 3)) / 64
  clipSample depth ((v + 2 ^ (13 - depth)) / 2 ^ (14 - depth))

/-- AVC: half samples by six taps, quarter samples as means of two neighbours. -/
def avcLuma (g : Picture) (x y : Int) : Nat :=
  let taps : List Int := [1, -5, 20, 20, -5, 1]
  let across := fun (i j : Int) => tapSum taps (fun k => g.luma (i + k - 2) j)
  let half := fun (v : Int) => clipSample 8 ((v + 16) / 32)
  let full := fun (dx dy : Int) => g.luma (x / 4 + dx) (y / 4 + dy)
  let b := fun (dy : Int) => half (across (x / 4) (y / 4 + dy))
  let h := fun (dx : Int) => half (tapSum taps (fun k => g.luma (x / 4 + dx) (y / 4 + k - 2)))
  let j := clipSample 8 ((tapSum taps (fun k => across (x / 4) (y / 4 + k - 2)) + 512) / 1024)
  let mean := fun (u v : Nat) => (u + v + 1) / 2
  match (x % 4).toNat, (y % 4).toNat with
  | 0, 0 => full 0 0
  | 1, 0 => mean (full 0 0) (b 0)
  | 2, 0 => b 0
  | 3, 0 => mean (b 0) (full 1 0)
  | 0, 1 => mean (full 0 0) (h 0)
  | 0, 2 => h 0
  | 0, 3 => mean (h 0) (full 0 1)
  | 1, 1 => mean (b 0) (h 0)
  | 2, 1 => mean (b 0) j
  | 3, 1 => mean (b 0) (h 1)
  | 1, 2 => mean (h 0) j
  | 2, 2 => j
  | 3, 2 => mean j (h 1)
  | 1, 3 => mean (h 0) (b 1)
  | 2, 3 => mean j (b 1)
  | _, _ => mean (b 1) (h 1)

/-- A luma sample of a reference at a position in quarter samples. -/
def fracSample (g : Picture) (x y : Int) : Nat := if g.codec = 0 then hevcLuma g x y else avcLuma g x y

/-- One 4-point Hadamard transform. -/
def hadamard4 (v : Nat → Int) : Nat → Int
  | 0 => v 0 + v 1 + v 2 + v 3
  | 1 => v 0 + v 1 - v 2 - v 3
  | 2 => v 0 - v 1 - v 2 + v 3
  | _ => v 0 - v 1 + v 2 - v 3

/-- The sum of the absolute 4 × 4 Hadamard coefficients of 16 differences, as they are. DESIGN CHOICE, log entry 68. -/
def hadamard (d : Nat → Nat → Int) : Nat :=
  ((List.range 4).flatMap (fun i => (List.range 4).map (fun j => (hadamard4 (fun y => hadamard4 (d y) i) j).natAbs))).sum

/-- SATD of the block over its sixteen 4 × 4 Hadamard blocks. -/
def satdOf (src ref : Picture) (x y : Int) (v : Mv) : Nat :=
  ((List.range 16).map (fun b => hadamard (fun i j =>
    let q : Int × Int := ((4 * (b % 4) + j : Nat), (4 * (b / 4) + i : Nat))
    (src.luma (x + q.1) (y + q.2) : Int) - (fracSample ref (4 * (x + q.1) + v.1) (4 * (y + q.2) + v.2) : Int)))).sum

/-- J = D + λ (|mvx − pmx| + |mvy − pmy|) (R260). -/
def mvCost (d lam : Nat) (v pm : Mv) : Nat := d + lam * ((v.1 - pm.1).natAbs + (v.2 - pm.2).natAbs)

/-- The vector of the lowest cost; a tie goes to the earlier one. -/
def cheapest (cost : Mv → Nat) : List Mv → Option (Mv × Nat)
  | [] => none
  | v :: vs => match cheapest cost vs with
    | some (w, c) => if c < cost v then some (w, c) else some (v, cost v)
    | none => some (v, cost v)

/-- The tie order of refinement (R260): the smaller |dx| + |dy|, then the lower dy, then the lower dx. -/
def tieLe (a b : Mv) : Bool :=
  let m := fun (v : Mv) => v.1.natAbs + v.2.natAbs
  m a < m b || (m a == m b && (a.2 < b.2 || (a.2 == b.2 && a.1 ≤ b.1)))

def tieInsert (a : Mv) : List Mv → List Mv
  | [] => [a]
  | b :: bs => if tieLe a b then a :: b :: bs else b :: tieInsert a bs

/-- The positions within ±n steps around a centre, in tie order. -/
def around (n : Nat) (step : Int) : List Mv :=
  ((List.range (2 * n + 1)).flatMap (fun (i : Nat) => (List.range (2 * n + 1)).map (fun (j : Nat) => ((((i : Int) - n) * step, ((j : Int) - n) * step) : Mv)))).foldl
    (fun l v => tieInsert v l) []

/-- A position clamped so that the block stays within the reference extended by 64 samples on each side (R259). -/
def clampMv (ref : Picture) (x y : Int) (v : Mv) : Mv :=
  (max (4 * (-64 - x)) (min (4 * ((ref.width : Int) + 48 - x)) v.1), max (4 * (-64 - y)) (min (4 * ((ref.height : Int) + 48 - y)) v.2))

/-- One refinement around a centre. -/
def refineMv (ref : Picture) (x y : Int) (n : Nat) (step : Int) (cost : Mv → Nat) (c : Mv) : Mv × Nat :=
  (cheapest cost ((around n step).map (fun d => clampMv ref x y (c.1 + d.1, c.2 + d.2)))).getD (c, cost c)

/-- The search of one block in one reference (R259, steps 1 to 4). -/
def searchRef (src ref : Picture) (x y : Int) (lam : Nat) (pm : Mv) (cands : List Mv) : Mv × Nat :=
  let sad := fun v => mvCost (sadOf src ref x y v) lam v pm
  let satd := fun v => mvCost (satdOf src ref x y v) lam v pm
  let start := (cheapest sad (cands.map (fun v => clampMv ref x y (v.1 / 4 * 4, v.2 / 4 * 4)))).getD ((0, 0), 0)
  let whole := refineMv ref x y 8 4 sad start.1
  let half := refineMv ref x y 1 2 satd whole.1
  refineMv ref x y 1 1 satd half.1

/-- The reference of the lowest final cost; a tie goes to the more recent one. -/
def searchBlock (src : Picture) (x y : Int) (lam : Nat) (pm : Mv) (cands : List Mv) : List Picture → Option (Mv × Nat)
  | [] => none
  | r :: rs =>
    let a := searchRef src r x y lam pm cands
    match searchBlock src x y lam pm cands rs with
    | some b => if b.2 < a.2 then some b else some a
    | none => some a

/-- The median of three numbers. -/
def median3 (a b c : Int) : Int := max (min a b) (min (max a b) c)

/-- A block of a picture as searched: its vector and how it is coded (0 intra, 1 inter, 2 skipped). -/
abbrev BlockMv := Mv × Nat

/-- The vector of block `i`, when it is available: inside the picture and not intra. -/
def availableMv (done : List BlockMv) (i : Option Nat) : Option Mv :=
  (i.bind (fun n => done[n]?)).bind (fun b => if b.2 = 0 then none else some b.1)

/-- The motion search of `n` further blocks of a P picture (R259), after the blocks `done`, in raster order over `w` columns. `lam` is λ of
their row, `prev` gives the co-located vectors of the context's previous picture, `mode` how a block is coded given its winning vector and
that vector's cost. -/
def motionSearch (src : Picture) (refs : List Picture) (w n lam : Nat) (gmv : Mv) (prev : Nat → Option Mv) (mode : Nat → Mv → Nat → Nat) (done : List BlockMv) : List BlockMv :=
  (List.range n).foldl (fun done _ =>
    let i := done.length
    let left := availableMv done (if i % w = 0 then none else some (i - 1))
    let above := availableMv done (if i < w then none else some (i - w))
    let right := availableMv done (if i < w || i % w + 1 = w then none else some (i + 1 - w))
    let zero : Mv := (0, 0)
    let pm : Mv := (median3 (left.getD zero).1 (above.getD zero).1 (right.getD zero).1, median3 (left.getD zero).2 (above.getD zero).2 (right.getD zero).2)
    let cands := [some gmv, left, above, right, prev i, some zero].filterMap id
    let v := (searchBlock src ((16 * (i % w) : Nat) : Int) ((16 * (i / w) : Nat) : Int) lam pm cands refs).getD (zero, 0)
    done ++ [(v.1, mode i v.1 v.2)]) done

/-- Insertion in rising order. -/
def intInsert (a : Int) : List Int → List Int
  | [] => [a]
  | b :: bs => if a ≤ b then a :: b :: bs else b :: intInsert a bs

/-- The lower median, 0 of no numbers. DESIGN CHOICE, log entry 68. -/
def lowerMedian (l : List Int) : Int := (l.foldl (fun s v => intInsert v s) []).getD ((l.length - 1) / 2) 0

/-- The global vector with AUTO_GLOBAL set (R260): the component-wise lower median of the previous picture's inter vectors.
DESIGN CHOICE, log entry 68. -/
def globalMv (vs : List Mv) : Mv := (lowerMedian (vs.map (fun v => v.1)), lowerMedian (vs.map (fun v => v.2)))

/-- λ at a row QP (R260). -/
def lambdaOf (qp : Nat) : Nat := max 1 ((qp - 8) / 4)

end Sys2Proof.Machine
end

