-- ==== Sys2Proof/Machine/Video.lean ====
section
/-! DEFINITION. Video commands (09 R245–R268): slots, contexts, encoding with rate control, decoding with concealment. A frame command is
coded when its video turn brings it its pictures (R254), with its reads and writes in the banks; one that outlasts its partition's slot
completes in a later one, and a frame command not before its video turn. -/

namespace Sys2Proof.Machine

/-! ## Slots (R246, R247) -/

/-- Work beats of a slot: 65,536 beats less the 512 switch beats. DESIGN CHOICE, log entry 65. -/
def slotWork : Nat := 65024

/-- A command of a partition is under way on an engine. -/
def engineBusy (s : State) (p : PartId) (d : DieId) : Bool :=
  ((s.engine d).running.toList ++ (s.engine d).suspended).any (fun r => r.1 == p.val) ||
  (s.part p).inflight.any (fun e => e.cls == 6 && dieOfInst e.inst == d && e.awaiting)

/-- The engine may begin a command of a partition: its slot is in progress and none of its commands is under way. -/
def engineFree (s : State) (p : PartId) (d : DieId) : Bool :=
  let v := s.engine d
  v.owners.toList[v.slot]? == some (some p) && v.running.isNone && !engineBusy s p d

/-- Run `n` work beats of a command in the slot in progress, as far as the slot reaches. DESIGN CHOICE, log entry 65. -/
def useSlot (v : VidEngine) (p : PartId) (q n : Nat) : VidEngine :=
  let room := slotWork - v.slotUsed
  if n ≤ room then { v with slotUsed := v.slotUsed + n } else { v with slotUsed := slotWork, running := some (p.val, q, n - room) }

/-- A command of a queue is still under way on an engine. -/
def underWay (v : VidEngine) (p : PartId) (q : Nat) : Bool := (v.running.toList ++ v.suspended).any (fun r => r.1 == p.val && r.2.1 == q)

/-- Frame commands of a queue's list up to a place. -/
def framesTo (x : Part) (q n : Nat) : Nat := (((listOf x q).take n).filter isFrame).length

/-- A command of a queue that has issued has still to run or, a frame, to pass its video turn (R254). -/
def videoWaits (s : State) (p : PartId) (e : InFlight) : Bool :=
  let x := s.part p
  (e.index + 1 = issuedOf x e.queue && underWay (s.engine (dieOfInst e.inst)) p e.queue) ||
  (((listOf x e.queue)[e.index]?).any isFrame && videoTaken x e.queue < framesTo x e.queue (e.index + 1))

/-- The frame that a context codes is complete: its pool entries get their marks (R253). -/
def settleContext (v : VidEngine) (p : PartId) (c : VidContext) : VidContext :=
  if c.part = p.val && !c.later.isEmpty && !(v.running.toList ++ v.suspended).any (fun r => r.1 == p.val)
  then { c with pool := c.later, later := [] } else c

/-- Which commands of a video queue still wait for their slots or their video turn, and the frames that are complete. -/
def awaitVideo (s : State) (p : PartId) (q : Nat) : State :=
  let s := s.modPart p (fun x => { x with inflight := x.inflight.map (fun e => if e.cls = 6 && e.queue = q && !e.walk then { e with awaiting := videoWaits s p e } else e) })
  match descOf (s.part p) q with
  | some d => s.modEngine (dieOfInst d.inst) (fun v => { v with contexts := v.contexts.map (settleContext v p) })
  | none => s

/-- VIDEO_SLOT_BOUNDARY (R246–R248): the slot ends, a command under way is suspended, and the next slot's owner takes the
engine; its suspended command resumes unless the partition is held. A suspended command counts the 65,536 beats of each slot that is not its
partition's as waiting beats (R247). -/
def execVideoSlotBoundary (d : DieId) (s : State) : Result :=
  let v := s.engine d
  let away := v.suspended.filter (fun r => (v.owners.toList[v.slot]?.join).map (fun p => p.val) != some r.1)
  let v := { v with
    suspended := v.suspended ++ v.running.toList
    running := none
    slotUsed := 0
    slot := (v.slot + 1) % 64
    waiting := v.waiting + BitVec.ofNat 64 (65536 * away.length) }
  let v := if v.slot = 0 then { v with owners := v.ownersNext.getD v.owners, ownersNext := none } else v
  match v.owners.toList[v.slot]? with
  | some (some p) =>
    if partHeld s p then .next (s.setEngine d v) else
    match v.suspended.find? (fun r => r.1 == p.val) with
    | some r =>
      let s := s.setEngine d (useSlot { v with suspended := v.suspended.filter (fun e => e.1 != p.val) } p r.2.1 r.2.2)
      .next (awaitVideo s p r.2.1)
    | none => .next (s.setEngine d v)
  | _ => .next (s.setEngine d v)

/-! ## Contexts (R249, R250) -/

/-- The engine context of a partition-local context. -/
def engineCtx (s : State) (p : PartId) (d : DieId) (c : Nat) : Nat := 16 * (s.engine d).ctxFirst.get p + c

def openContext (s : State) (p : PartId) (d : DieId) (c : Nat) : Option VidContext :=
  (s.engine d).contexts.find? (fun v => v.ctx == engineCtx s p d c && v.part == p.val)

/-- The descriptor keeps the Meaning column of R250. DESIGN CHOICE, log entry 69. -/
def descFields (b : Bytes) : Bool :=
  let f := fun (off n : Nat) => fieldAt b off n
  let enc := f 1 1 == 0
  f 0 1 ≤ 1 && f 1 1 ≤ 1 && (if f 0 1 = 0 then f 2 1 ≤ 1 else f 2 1 == 2) && within (f 3 1) 10 51 && within (f 4 2) 64 4096 && f 4 2 % 8 == 0 &&
  within (f 6 2) 64 2304 && f 6 2 % 8 == 0 && withinLevel (f 0 1) (f 3 1) (f 4 2) (f 6 2) && within (f 8 1) 1 (if enc then 4 else 16) &&
  f 9 1 ≤ 1 && (enc || f 9 1 == 0) && f 12 1 ≤ 51 && f 11 1 ≤ f 10 1 && f 10 1 ≤ f 12 1 && (enc || f 14 2 == 0) &&
  (if f 9 1 = 0 then f 16 4 == 0 else within (f 16 4) 1 400000) && 1 ≤ f 20 2 && 1 ≤ f 22 2 && within (f 24 4) 4096 4194304 && f 24 4 % 64 == 0 &&
  (if enc then f 30 2 == f 8 1 + 1 else within (f 30 2) (f 8 1 + 1) 17) && f 40 8 % 32768 == 0

/-- The descriptor's pool and buffers lie within the partition's allotment and space, apart from its other open contexts. -/
def descPlaces (s : State) (p : PartId) (d : DieId) (n : Nat) (b : Bytes) : Bool :=
  let f := fun (off n : Nat) => fieldAt b off n
  let fb := bufferBytes (f 4 2) (f 6 2) (f 2 1)
  (match physCluster (s.part p) (f 32 1) with | some k => dieOf k == d | none => false) && f 28 2 + f 30 2 ≤ 64 * (s.engine d).poolBlocks.get p &&
  f 40 8 + f 30 2 * fb ≤ partSpace &&
  !(s.engine d).contexts.any (fun c => c.part == p.val && c.ctx != n &&
    (meets (f 28 2) (f 30 2) (c.field 28 2) (c.field 30 2) ||
     (c.field 32 1 == f 32 1 && meets (f 40 8) (f 30 2 * fb) (c.field 40 8) (c.field 30 2 * c.bufferBytes))))

/-- A context as opened by its descriptor. DESIGN CHOICE, log entry 69. -/
def newContext (n : Nat) (p : PartId) (b : Bytes) : VidContext :=
  { ctx := n, part := p.val, desc := b, frameNo := 0, balance := 0, basePrev := fieldAt b 10 1, needIdr := true, hasPrev := false, mvs := [], modes := [],
    complex := [], units := [], era := 0, later := []
    pool := (List.range (fieldAt b 30 2)).map (fun i =>
      { entry := fieldAt b 28 2 + i, mark := .free, pending := false, damaged := false, frameNo := 0, poc := 0, era := 0 }) }

/-- VCTX_SET (R250): a refused descriptor leaves the context closed. -/
def vctxSteps (d : Due) (s : State) : Engine EngineOut := do
  let ref := vrefOf (recField d.record 24 4)
  let die := dieOfInst d.desc.inst
  let n := engineCtx s d.p die (recField d.record 43 1)
  match vrefAddr (s.part d.p) ref with
  | none => .error .wait
  | some a =>
    if !vrefOwned s d.p ref 64 8 die.val || !engineFree s d.p die then .error .wait else
    let b := bankRead s a 64
    let s := (meetBank s a 64).modEngine die (fun v => useSlot { v with contexts := v.contexts.filter (fun c => c.ctx != n) } d.p d.desc.queue 256)
    if bankPoisoned s a 64 then return .done s 256 0x02
    else if fieldAt b 0 1 = 0xFF then return .done s 256 0
    else if descFields b && descPlaces s d.p die n b then
      return .done (s.modEngine die (fun v => { v with contexts := v.contexts ++ [newContext n d.p b] })) 256 0
    else return .done s 256 0x12

/-- A video command: afterwards the command waits for its slots and, a frame, for its video turn. -/
def runVideo (s : State) (p : PartId) (q opcode : Nat) (hand : Due → Option Handover) (op : Due → State → Engine EngineOut) : Result :=
  match runEngine s p q 6 opcode hand (fun d s => (op d s).out) with
  | .next t => .next (awaitVideo t p q)
  | r => r

def execVctxSet (p : PartId) (q : Nat) (s : State) : Result := runVideo s p q 0x0600 (fun _ => none) vctxSteps

/-! ## Pictures (R252, R257) -/

def VidContext.wide (c : VidContext) : Bool := c.field 2 1 == 1
def VidContext.width (c : VidContext) : Nat := c.field 4 2
def VidContext.height (c : VidContext) : Nat := c.field 6 2

/-- Bytes of a planar picture. -/
def VidContext.pictureBytes (c : VidContext) : Nat := c.width * c.height * 3 / 2 * (if c.wide then 2 else 1)

/-- Width and height rounded up to 64, as a frame buffer holds them. -/
def VidContext.width64 (c : VidContext) : Nat := 64 * ceilDiv c.width 64
def VidContext.height64 (c : VidContext) : Nat := 64 * ceilDiv c.height 64

/-- Byte `i` of a sample of value 1 << (bit depth − 1). -/
def greyByte (wide : Bool) (i : Nat) : Byte := if wide then (if i % 2 = 0 then 0 else 2) else 0x80

/-- Bytes with the poisoned words replaced by grey samples, and whether there was one (R267). -/
def greyed (wide : Bool) (bs : Bytes) (marks : List Bool) : Bytes × Bool :=
  (((List.range bs.length).zip bs).map (fun b => if marks.getD (b.1 / 64) false then greyByte wide b.1 else b.2), marks.any (fun m => m))

/-- A planar picture of a CSI-2 YUV422 source in byte order U, Y, V, Y (R257). -/
def fromPacked (w h : Nat) (bs : Bytes) : Bytes :=
  let at_ := fun (y i : Nat) => fieldAt bs (y * 2 * w + i) 1
  let luma := (List.range h).flatMap (fun y => (List.range w).map (fun x => BitVec.ofNat 8 (at_ y (4 * (x / 2) + 1 + 2 * (x % 2)))))
  let chroma := fun (off : Nat) => (List.range (h / 2)).flatMap (fun y => (List.range (w / 2)).map (fun x =>
    BitVec.ofNat 8 ((at_ (2 * y) (4 * x + off) + at_ (2 * y + 1) (4 * x + off) + 1) / 2)))
  luma ++ chroma 0 ++ chroma 2

/-- The source picture of an encode: planar, bits [15:10] of a Main 10 sample cleared. -/
def sourcePicture (s : State) (c : VidContext) (a : Nat) (packed : Bool) : Bytes × Bool :=
  let n := if packed then 2 * c.width * c.height else c.pictureBytes
  let g := greyed c.wide (bankRead s a n) (marksRead s.mem.bankPoison (a / 64) (ceilDiv n 64))
  (if packed then fromPacked c.width c.height g.1
   else if c.wide then ((List.range g.1.length).zip g.1).map (fun b => if b.1 % 2 = 1 then b.2 &&& 3 else b.2) else g.1, g.2)

/-- A frame buffer's bytes and whether one of its words is poisoned. -/
def bufferPicture (s : State) (p : PartId) (c : VidContext) (e : PoolEntry) : Bytes × Bool :=
  match physCluster (s.part p) (c.field 32 1), vidBufferAddr (s.part p) c e.entry with
  | some k, some a => greyed c.wide (stackPlain s k (a - stackAddr k 0) c.bufferBytes) (marksRead s.mem.stackPoison (a / 64) (c.bufferBytes / 64))
  | _, _ => ([], false)

/-- Write a coded picture to the frame buffer of its entry. -/
def writeBuffer (s : State) (p : PartId) (c : VidContext) (picture : Option (Nat × Bytes)) : State :=
  match picture.bind (fun e => (vidBufferAddr (s.part p) c e.1).map (fun a => (a, e.2))) with
  | some (a, bs) => stackWrite s a (padTo c.bufferBytes bs)
  | none => s

/-- The stack of a context's frame buffers serves transfers. -/
def buffersServe (s : State) (p : PartId) (c : VidContext) : Bool :=
  match physCluster (s.part p) (c.field 32 1) with | some k => !(s.cluster k).selfRefresh | none => false

/-- Order of decode, the most recent first. -/
def recentInsert (e : PoolEntry) : List PoolEntry → List PoolEntry
  | [] => [e]
  | f :: fs => if f.frameNo ≤ e.frameNo then e :: f :: fs else f :: recentInsert e fs

/-- The references of a context, the most recent first. -/
def VidContext.refs (c : VidContext) : List PoolEntry :=
  (c.pool.filter (fun e => e.mark == .short || e.mark == .long)).foldl (fun l e => recentInsert e l) []

/-- The lowest FREE entry. DESIGN CHOICE, log entry 65. -/
def VidContext.freeEntry (c : VidContext) : Option Nat := (c.pool.find? (fun e => e.mark == .free && !e.pending)).map (fun e => e.entry)

def VidContext.modEntry (c : VidContext) (n : Nat) (f : PoolEntry → PoolEntry) : VidContext := { c with pool := updFirst (fun e => e.entry == n) f c.pool }

/-- U of R245 for a context, 0 for a closed one. -/
def unitsOf (c : Option VidContext) : Nat := match c with | some c => ceilDiv c.width 16 * ceilDiv c.height 16 | none => 0

/-! ## Result records and planes (R264) -/

/-- A plane padded to a multiple of 64 bytes. -/
def paddedPlane (bs : Bytes) : Bytes := padTo (round64 bs.length) bs

/-- Bytes of a result record with its planes. DESIGN CHOICE, log entry 59. -/
def resultBytes (c : Option VidContext) : Nat :=
  match c with
  | some c => 64 + (if bitOf (c.field 13 1) 1 then 2 * round64 (2 * unitsOf (some c)) + 2 * round64 (4 * (ceilDiv c.width 64 * ceilDiv c.height 64)) else 0)
  | none => 64

/-- The 64 bytes of a result record. -/
def resultRecord (c : Option VidContext) (codec dir rflags err frameNo auBytes qpf : Nat) (poc : Int) : Bytes :=
  let w := (c.map (fun c => c.width)).getD 0
  let h := (c.map (fun c => c.height)).getD 0
  leBytes 4 0x56535441 ++ leBytes 1 codec ++ leBytes 1 dir ++ leBytes 1 rflags ++ leBytes 1 err ++ leBytes 8 frameNo ++ leBytes 4 auBytes ++ leBytes 1 qpf ++ zeros 3 ++
  leBytes 2 (ceilDiv w 16) ++ leBytes 2 (ceilDiv h 16) ++ leBytes 2 (ceilDiv w 64) ++ leBytes 2 (ceilDiv h 64) ++ leBytes 4 (twosNat 32 poc) ++ zeros 28

/-- The statistics planes, when the context asks for them: MVX, MVY, SATD, BITS. -/
def statPlanes (c : VidContext) (mv : Nat → Mv) (satd bits : Nat → Nat) : Bytes :=
  if bitOf (c.field 13 1) 1 then
    let n := unitsOf (some c)
    let m := ceilDiv c.width 64 * ceilDiv c.height 64
    paddedPlane ((List.range n).flatMap (fun i => leBytes 2 (twosNat 16 (mv i).1))) ++ paddedPlane ((List.range n).flatMap (fun i => leBytes 2 (twosNat 16 (mv i).2))) ++
    paddedPlane ((List.range m).flatMap (fun i => leBytes 4 (satd i))) ++ paddedPlane ((List.range m).flatMap (fun i => leBytes 4 (bits i)))
  else []

/-- RFLAGS (R264). -/
def rflagsOf (irap damaged truncated out planes : Bool) : Nat := bit irap + 2 * bit damaged + 4 * bit truncated + 8 * bit out + 16 * bit planes

/-- A bitstream payload: header, access unit, padding (R265). -/
def unitPayload (codec bflags frameNo : Nat) (au : Bytes) : Bytes :=
  paddedPlane (leBytes 4 0x56425354 ++ leBytes 1 codec ++ leBytes 1 bflags ++ zeros 2 ++ leBytes 8 frameNo ++ leBytes 4 au.length ++ leBytes 4 (crc32c au) ++ zeros 8 ++ au)

/-! ## Rate control (R261–R263) -/

/-- A picture's QP and target (R261). -/
structure RatePlan where
  idr  : Bool
  base : Nat
  qpf  : Nat
  tbf  : Nat

def ratePlan (c : VidContext) (force : Bool) : RatePlan :=
  let per := c.field 14 2
  let idr := c.needIdr || force || (if per = 0 then c.frameNo == 0 else c.frameNo % per == 0)
  let tb := c.field 16 4 * 1000 * c.field 22 2 / c.field 20 2
  let d : Int := if c.balance > 2 * tb then 2 else if c.balance > (tb / 2 : Nat) then 1 else if c.balance < -(2 * tb : Nat) then -2 else if c.balance < -((tb / 2 : Nat) : Int) then -1 else 0
  let prev := if c.frameNo = 0 then c.field 10 1 else c.basePrev
  let base := if c.field 9 1 = 0 then c.field 10 1 else (max (c.field 11 1 : Int) (min (c.field 12 1 : Int) (prev + d))).toNat
  { idr := idr, base := base, qpf := if idr then max (c.field 11 1) (base - 3) else base, tbf := if idr then 3 * tb else tb }

/-- Row QP change by k (R262). -/
def rowChange (k : Nat) : Int := if k ≤ 8 then -3 else if k ≤ 11 then -2 else if k ≤ 14 then -1 else if k ≤ 17 then 0 else if k ≤ 19 then 1 else if k ≤ 23 then 2 else 3

/-- The allotment of a row. -/
def rowAllot (c : VidContext) (tbf rows r : Nat) : Nat :=
  let sum := c.complex.sum
  if !c.hasPrev || sum = 0 then tbf / rows else tbf * c.complex.getD r 0 / sum

/-- A picture being coded, row by row: the rows' QPs and bits, the blocks so far, and whether R263 has cut the rest to QP 51. -/
structure Coding where
  qps    : List Nat
  bits   : List Nat
  blocks : List BlockMv
  cut    : Bool

/-- QP of the next row (R262): from the bits written and the allotment of the rows before it. -/
def rowQp (c : VidContext) (g : RatePlan) (k : Coding) : Nat :=
  let rows := ceilDiv c.height 64
  let r := k.qps.length
  let ac := ((List.range r).map (rowAllot c g.tbf rows)).sum
  let dr := if r = 0 || ac = 0 then 0 else rowChange (k.bits.sum * 16 / ac)
  let lo : Int := max (c.field 11 1) ((g.qpf : Int) - 3)
  let hi : Int := min (c.field 12 1) ((g.qpf : Int) + 3)
  if k.cut then 51 else if c.field 9 1 = 0 then g.qpf else (max lo (min hi ((g.qpf : Int) + dr))).toNat

/-- Code the next row: `search` finds the vectors of its blocks at its QP, `code` gives the bits of its blocks; after it the check of R263,
`head` bits standing before the rows. -/
def codeRow (c : VidContext) (g : RatePlan) (head : Nat) (search : Nat → List BlockMv → List BlockMv) (code : List Nat → List BlockMv → Nat → Nat) (k : Coding) : Coding :=
  let r := k.qps.length
  let qps := k.qps ++ [rowQp c g k]
  let blocks := search (rowQp c g k) k.blocks
  let bits := k.bits ++ [code qps blocks r]
  let left := (ceilDiv c.height 64 - r - 1) * ceilDiv c.width 64 * 32
  { qps := qps, bits := bits, blocks := blocks, cut := k.cut || c.field 24 4 - 1024 < ceilDiv (head + bits.sum) 8 + left }

/-! ## Encoding -/

/-- A size as coded: AVC codes whole macroblocks (R242). -/
def VidContext.coded (c : VidContext) (n : Nat) : Nat := if c.field 0 1 = 1 then 16 * ceilDiv n 16 else n

/-- What AVC's frame cropping cuts from the coded size, on the right and below, in chroma samples (R242). -/
def VidContext.cropping (c : VidContext) : Nat × Nat := ((c.coded c.width - c.width) / 2, (c.coded c.height - c.height) / 2)

/-- A plane of `w` × `h` samples of `z` bytes with its last column and row repeated up to `w'` × `h'`. -/
def repeatedEdges (plane : Bytes) (z w h w' h' : Nat) : Bytes :=
  (List.range h').flatMap (fun y => (List.range w').flatMap (fun x => slice plane ((min y (h - 1) * w + min x (w - 1)) * z) z))

/-- The source picture as coded: padded to whole macroblocks in AVC (R242). -/
def codedPicture (c : VidContext) (src : Bytes) : Bytes :=
  let z := if c.wide then 2 else 1
  let n := c.width * c.height * z
  let plane := fun (off d : Nat) => repeatedEdges (src.drop off) z (c.width / d) (c.height / d) (c.coded c.width / d) (c.coded c.height / d)
  if c.field 0 1 = 1 then plane 0 1 ++ plane n 2 ++ plane (n + n / 4) 2 else src

/-- The engine's input as bytes: source, references, global and previous vectors; what the encoder decides is a function of
it, of the descriptor, the frame number, the row QPs and the winning vectors (R243, R260). -/
def encoderInput (src : Bytes) (refs : List Bytes) (gmv : Mv) (mvs : List Mv) : Bytes :=
  src ++ refs.flatMap id ++ (gmv :: mvs).flatMap (fun v => leBytes 2 (twosNat 16 v.1) ++ leBytes 2 (twosNat 16 v.2))

/-- The blocks of a row at its QP: intra throughout for an IDR picture, else searched (R259, R260). -/
def rowSearch (c : VidContext) (g : RatePlan) (src : Bytes) (refs : List Bytes) (gmv : Mv) (input : Bytes) (qp : Nat) (done : List BlockMv) : List BlockMv :=
  let w := ceilDiv c.width 16
  let n := min (4 * w) (unitsOf (some c) - done.length)
  if g.idr || refs.isEmpty then done ++ List.replicate n ((0, 0), 0) else
  let pic : Picture := { codec := c.field 0 1, data := src, width := c.width, height := c.height, stride := c.width, wide := c.wide }
  motionSearch pic (refs.map (fun b => { pic with data := b, stride := c.width64 })) w n (lambdaOf qp) gmv
    (fun i => if c.modes.getD i 0 = 0 then none else c.mvs[i]?) (fun i v cost => Config.blockMode input c.desc c.frameNo qp i v cost) done

/-- The bits of a 64 × 64 block at the row QPs and vectors so far. -/
def ctuBits (c : VidContext) (input : Bytes) (qps : List Nat) (blocks : List BlockMv) (i : Nat) : List Bool :=
  Config.ctuCode input c.desc c.frameNo qps (blocks.map (fun b => b.1)) i

/-- Code a picture's rows. -/
def codePicture (c : VidContext) (g : RatePlan) (src : Bytes) (refs : List Bytes) (gmv : Mv) (input : Bytes) (head : Nat) : Coding :=
  let w64 := ceilDiv c.width 64
  (List.range (ceilDiv c.height 64)).foldl (fun k _ => codeRow c g head (rowSearch c g src refs gmv input)
    (fun qps blocks r => ((List.range w64).map (fun i => (ctuBits c input qps blocks (r * w64 + i)).length)).sum) k)
    { qps := [], bits := [], blocks := [], cut := false }

/-- The vectors and row QPs that stand when a CTU is coded. -/
def ctuBitsIn (c : VidContext) (input : Bytes) (k : Coding) (i : Nat) : List Bool :=
  let r := i / ceilDiv c.width 64
  ctuBits c input (k.qps.take (r + 1)) (k.blocks.take (4 * (r + 1) * ceilDiv c.width 16)) i

/-- The access unit in the Annex B format (R265): one slice (R242), whose payload is its header and the bits of its rows in order. -/
def accessUnit (c : VidContext) (g : RatePlan) (input : Bytes) (k : Coding) : Bytes :=
  let n := ceilDiv c.width 64 * ceilDiv c.height 64
  annexB (c.field 0 1) (Config.leadingUnits c.desc c.frameNo g.idr c.cropping ++ [Config.sliceUnit c.desc c.frameNo g.idr ++
    slicePayload (Config.sliceHeader c.desc c.frameNo g.idr g.qpf ++ (List.range n).flatMap (ctuBitsIn c input k))])

/-- Bits that stand before the rows of a picture. -/
def headBits (c : VidContext) (g : RatePlan) : Nat :=
  8 * (annexB (c.field 0 1) (Config.leadingUnits c.desc c.frameNo g.idr c.cropping ++ [Config.sliceUnit c.desc c.frameNo g.idr])).length +
  (Config.sliceHeader c.desc c.frameNo g.idr g.qpf).length

/-- What an encode leaves: the access unit, the context, the reconstructed picture with its entry, and the statistics. -/
structure Encoded where
  au     : Bytes
  excess : Bool
  ctx    : VidContext
  picture : Option (Nat × Bytes)
  plan   : RatePlan
  damaged : Bool
  planes : Bytes

/-- The pool of an encode at its completion (R253): the new entry SHORT, the oldest beyond NREF freed; the entry freed when the access unit
did not fit (R263). -/
def encodedPool (c : VidContext) (entry : Option Nat) (damaged excess : Bool) : List PoolEntry :=
  let c := match entry with
    | some e => if excess then c else
        c.modEntry e (fun _ => { entry := e, mark := .short, pending := false, damaged := damaged, frameNo := c.frameNo, poc := 0, era := 0 })
    | none => c
  let keep := (c.refs.take (c.field 8 1)).map (fun e => e.entry)
  c.pool.map (fun e => if e.mark == .short && !keep.contains e.entry then { e with mark := .free } else e)

/-- The context while and after a picture is coded: its entry is marked RECON until it completes (R253). -/
def encodedContext (c : VidContext) (g : RatePlan) (entry : Option Nat) (damaged excess : Bool) (bits : Nat) (k : Coding) (complex : List Nat) : VidContext :=
  { c with
    pool := (match entry with
      | some e => c.modEntry e (fun _ => { entry := e, mark := .recon, pending := false, damaged := damaged, frameNo := c.frameNo, poc := 0, era := 0 })
      | none => c).pool
    later := encodedPool c entry damaged excess
    frameNo := c.frameNo + 1
    balance := c.balance + bits - g.tbf
    basePrev := g.base
    needIdr := excess
    hasPrev := true
    mvs := k.blocks.map (fun b => b.1)
    modes := k.blocks.map (fun b => b.2)
    complex := complex }

/-- Encode one picture (R253, R259–R264). -/
def encodePicture (s : State) (p : PartId) (c : VidContext) (src : Bytes) (srcBad : Bool) (force : Bool) (gmvOperand : Mv) : Encoded × Bool :=
  let g := ratePlan c force
  let c := if g.idr then { c with pool := c.pool.map (fun e => { e with mark := .free }) } else c
  let refs := c.refs.map (fun e => (e, bufferPicture s p c e))
  let gmv := if bitOf (c.field 13 1) 0 then globalMv (((c.mvs.zip c.modes).filter (fun m => m.2 == 1)).map (fun m => m.1)) else gmvOperand
  let input := encoderInput (codedPicture c src) (refs.map (fun r => r.2.1)) gmv c.mvs
  let w64 := ceilDiv c.width 64
  let k := codePicture c g src (refs.map (fun r => r.2.1)) gmv input (headBits c g)
  let au := accessUnit c g input k
  let excess := c.field 24 4 < au.length
  let poisoned := srcBad || refs.any (fun r => r.2.2)
  let damaged := poisoned || refs.any (fun r => r.1.damaged && Config.refUsed input c.desc c.frameNo k.qps r.1.entry)
  let complex := (List.range k.qps.length).map (fun r => ((List.range w64).map (fun i => Config.ctuComplexity input c.desc c.frameNo k.qps (r * w64 + i))).sum)
  let bits := if excess then c.field 24 4 * 8 else au.length * 8
  let mv := fun (i : Nat) => match k.blocks[i]? with | some b => if b.2 = 1 then b.1 else (-32768, -32768) | none => (-32768, -32768)
  ({ au := if excess then [] else au, excess := excess, plan := g, damaged := damaged,
     ctx := encodedContext c g c.freeEntry damaged excess bits k complex
     picture := if excess then none else c.freeEntry.map (fun e => (e, Config.reconPicture input c.desc c.frameNo k.qps (k.blocks.map (fun b => b.1))))
     planes := statPlanes c mv (fun i => Config.blockSatd input c.desc c.frameNo k.qps i) (fun i => (ctuBitsIn c input k i).length) }, poisoned)

/-- The bit errors that the reads of references of a context meet (05 R157). -/
def meetRefs (s : State) (p : PartId) (c : VidContext) (refs : List PoolEntry) : State :=
  refs.foldl (fun s e => match vidBufferAddr (s.part p) c e.entry with | some a => meetStack s a c.bufferBytes | none => s) s

/-- A region that ends before the end of cluster bank 3 and whose banks the engine owns; one that passes it is not touched. -/
def regionOwned (s : State) (p : PartId) (r : VRef) (n : Nat) (d : DieId) : Bool := vrefPast r n || vrefOwned s p r n 8 d.val

/-- Write at a reference, unless the region passes cluster bank 3. -/
def writeRegion (s : State) (p : PartId) (r : VRef) (room : Nat) (bs : Bytes) : State :=
  if vrefPast r room then s else match vrefAddr (s.part p) r with | some a => bankWrite s a bs | none => s

/-- The statistics planes of a command that codes nothing: the manual gives no vectors, and for an encode no SATD, of such a picture, so they are
free bytes, of the descriptor and the frame number; no bits are coded. DESIGN CHOICE, log entry 66. -/
def refusedPlanes (c : VidContext) (encode : Bool) : Bytes :=
  let free := fun (at_ n : Nat) => (List.range n).map (fun i => Config.freeByte [leNat c.desc, c.frameNo, bit encode, at_ + i])
  if bitOf (c.field 13 1) 1 then
    let n := 2 * unitsOf (some c)
    let m := 4 * (ceilDiv c.width 64 * ceilDiv c.height 64)
    paddedPlane (free 0 n) ++ paddedPlane (free n n) ++ paddedPlane (if encode then free (2 * n) m else zeros m) ++ paddedPlane (zeros m)
  else []

/-- The result of a command that ends with error 0x12 and codes nothing; planes follow when the context is open and asks for them (R264). -/
def refusedResult (s : State) (d : Due) (c : Option VidContext) (dir rflags no : Nat) : State :=
  let planes := match c with | some c => refusedPlanes c (dir == 0) | none => []
  let asks := match c with | some c => bitOf (c.field 13 1) 1 | none => false
  writeRegion s d.p (vrefOf (recField d.record 32 4)) (resultBytes c)
    (resultRecord c ((c.map (fun c => c.field 0 1)).getD 0) dir (rflags + 16 * bit asks) 0x12 no 0 0 0 ++ planes)

/-- A command that ends with error 0x12 in an encode: no access unit, AU_BYTES 0 (R267). DESIGN CHOICE, log entry 66. -/
def encodeRefused (s : State) (d : Due) (c : Option VidContext) : State :=
  let no := (c.map (fun c => c.frameNo)).getD 0
  let s := writeRegion s d.p (vrefOf (recField d.record 28 4)) 64 (unitPayload ((c.map (fun c => c.field 0 1)).getD 0) 0 no [])
  refusedResult s d c 0 0 no

/-- Bytes of an encode's source. -/
def sourceBytes (c : VidContext) (packed : Bool) : Nat := if packed then 2 * c.width * c.height else c.pictureBytes

/-- The encode of an open context's command with its source at `a`. -/
def encodeOf (s : State) (d : Due) (c : VidContext) (a : Nat) : Encoded × Bool :=
  let pic := sourcePicture s c a (bitOf (recField d.record 44 1) 1)
  encodePicture s d.p c pic.1 pic.2 (bitOf (recField d.record 44 1) 0) (signedOf 16 (recField d.record 48 2), signedOf 16 (recField d.record 50 2))

/-- The error of an encode (R263, R267). -/
def encodeErr (e : Encoded × Bool) : Nat := if e.2 then 0x02 else if e.1.excess then 0x14 else 0

/-- What an encode writes: its payload, its result record with the planes, its picture and its context (R253, R264, R265). -/
def encodeStore (s : State) (d : Due) (c : VidContext) (a : Nat) (e : Encoded × Bool) : State :=
  let flags := bit e.1.plan.idr + 2 * bit e.1.damaged + 4 * bit e.1.excess
  let s := meetRefs (meetBank s a (sourceBytes c (bitOf (recField d.record 44 1) 1))) d.p c (if e.1.plan.idr then [] else c.refs)
  let s := writeRegion s d.p (vrefOf (recField d.record 28 4)) (round64 (32 + c.field 24 4)) (unitPayload (c.field 0 1) flags c.frameNo e.1.au)
  let s := writeRegion s d.p (vrefOf (recField d.record 32 4)) (resultBytes (some c))
    (resultRecord (some c) (c.field 0 1) 0 (flags + 16 * bit (bitOf (c.field 13 1) 1)) (encodeErr e) c.frameNo e.1.au.length e.1.plan.qpf 0 ++ e.1.planes)
  modContext (writeBuffer s d.p c e.1.picture) (dieOfInst d.desc.inst) c.ctx (fun _ => e.1.ctx)

/-- An encode that an open context refuses: it decodes, its source does not fit it, or a region passes cluster bank 3 (R267). -/
def encodeBarred (r : CmdRecord) (c : VidContext) : Bool :=
  let packed := bitOf (recField r 44 1) 1
  c.field 1 1 != 0 || (packed && c.wide) || vrefPast (vrefOf (recField r 24 4)) (sourceBytes c packed) ||
  vrefPast (vrefOf (recField r 28 4)) (round64 (32 + c.field 24 4)) || vrefPast (vrefOf (recField r 32 4)) (resultBytes (some c))

/-- VENC_FRAME: an open context's picture is coded at its video turn (`codeFrame`). -/
def vencSteps (d : Due) (s : State) : Engine EngineOut := do
  let r := d.record
  let die := dieOfInst d.desc.inst
  let c := openContext s d.p die (recField r 43 1)
  let beats := 1024 + 128 * unitsOf c
  let packed := bitOf (recField r 44 1) 1
  let src := vrefOf (recField r 24 4)
  let out := vrefOf (recField r 28 4)
  let res := vrefOf (recField r 32 4)
  if !engineFree s d.p die then .error .wait else
  let used := s.modEngine die (fun v => useSlot v d.p d.desc.queue beats)
  let refused : Engine EngineOut :=
    if regionOwned s d.p out 64 die && regionOwned s d.p res (resultBytes c) die then .ok (.done (encodeRefused used d c) beats 0x12) else .error .wait
  match c with
  | none => refused
  | some c =>
    if encodeBarred r c then refused else
    if !vrefOwned s d.p src (sourceBytes c packed) 8 die.val || !vrefOwned s d.p out (round64 (32 + c.field 24 4)) 8 die.val ||
      !vrefOwned s d.p res (resultBytes (some c)) 8 die.val || (vrefAddr (s.part d.p) src).isNone then .error .wait
    else return .done used beats 0

/-- The handover of a frame command: for the logical cluster of OUT_REF (05 R131). -/
def frameHandover (d : Due) : Option Handover := handoverAt d.record 40 (vrefOf (recField d.record 28 4)).lc

def execVencFrame (p : PartId) (q : Nat) (s : State) : Result := runVideo s p q 0x0601 frameHandover vencSteps

/-! ## Decoding (R265–R268) -/

/-- The CTU of a byte of a frame buffer, of 64 × 64 luma samples, in raster order. -/
def ctuOfByte (c : VidContext) (i : Nat) : Nat :=
  let n := i / (if c.wide then 2 else 1)
  let y := c.width64 * c.height64
  let w := c.width64 / 64
  if n < y then n / c.width64 / 64 * w + n % c.width64 / 64
  else let m := (n - y) % (y / 4); m / (c.width64 / 2) / 32 * w + m % (c.width64 / 2) / 32

/-- A byte of the concealment source: the picture `source`, or grey without one (R268). -/
def concealByte (c : VidContext) (source : Option Bytes) (i : Nat) : Byte :=
  match source with | some g => g.getD i 0 | none => greyByte c.wide i

/-- Conceal ranges of CTUs with the co-located samples of the source (R268). DESIGN CHOICE, log entry 66. -/
def conceal (c : VidContext) (source : Option Bytes) (ranges : List (Nat × Nat)) (pic : Bytes) : Bytes :=
  ((List.range pic.length).zip pic).map (fun e =>
    let t := ctuOfByte c e.1
    if ranges.any (fun r => r.1 ≤ t && t < r.2) then concealByte c source e.1 else e.2)

/-- A 4:0:0 picture as stored: its chroma samples are grey (R266). -/
def greyChroma (c : VidContext) (grey : Bool) (pic : Bytes) : Bytes :=
  if grey then ((List.range pic.length).zip pic).map (fun e =>
    if c.width64 * c.height64 * (if c.wide then 2 else 1) ≤ e.1 then greyByte c.wide e.1 else e.2) else pic

/-- A stored picture cropped to WIDTH × HEIGHT. -/
def cropped (c : VidContext) (pic : Bytes) : Bytes :=
  let z := if c.wide then 2 else 1
  let plane := fun (base stride w h : Nat) => (List.range h).flatMap (fun y => slice pic ((base + y * stride) * z) (w * z))
  let y := c.width64 * c.height64
  plane 0 c.width64 c.width c.height ++ plane y (c.width64 / 2) (c.width / 2) (c.height / 2) ++ plane (y + y / 4) (c.width64 / 2) (c.width / 2) (c.height / 2)

/-- An access unit as parsed in its context; `fresh`: its picture begins another output order, pictures before it going out first. -/
structure Parsed where
  head  : UnitHeader
  irap  : Bool
  starts : Bool
  fresh : Bool
  idr   : Bool
  kept  : Bool

/-- Parse an access unit: its NAL units, and what its syntax gives; one without a NAL unit has a header fault. -/
def parseUnit (c : VidContext) (au : Bytes) : Parsed :=
  let nals := nalUnits none 0 au
  let codec := c.field 0 1
  let h := Config.readUnit c.desc c.units au
  let starts := beginsSequence codec nals c.units.isEmpty
  { head := { h with broken := h.broken || nals.isEmpty }, irap := irapUnit codec nals, starts := starts
    fresh := starts || (codec = 1 && h.adaptive && h.ops.any (fun o => o.1 == 5)), idr := idrUnit codec nals, kept := keptAsReference codec nals }

/-- The marks that hold while the picture is decoded (R253): none survives an IDR; HEVC keeps its reference picture set; AVC marks after the
picture. Pictures of earlier sequences are no longer pending when the stream discards them. -/
def poolBefore (c : VidContext) (u : Parsed) : List PoolEntry :=
  c.pool.map (fun e =>
    let mark : PoolMark :=
      if e.mark == .free || u.idr then .free
      else if c.field 0 1 = 0 then (match u.head.refSet.find? (fun r => r.1 == e.frameNo) with | some r => if r.2 then .long else .short | none => .free)
      else e.mark
    { e with mark := mark, pending := e.pending && !(u.starts && u.head.dropPrior) })

/-- A long-term index goes to another picture: the one that held it is no longer a reference. -/
def freeIndex (i : Nat) (e : PoolEntry) : PoolEntry := if e.mark == .long && e.longIndex == i then { e with mark := .free } else e

/-- One memory-management operation of AVC, with a picture and a long-term index, on the marks: 1 and 2 unmark a short-term or long-term
picture, 3 makes one long-term, 4 unmarks the long-term pictures from an index on, 5 unmarks all. PRESUMED, log entry 134. -/
def markOperation (pool : List PoolEntry) (op : Nat × Nat × Nat) : List PoolEntry :=
  pool.map (fun e =>
    let named := e.frameNo == op.2.1
    match op.1 with
    | 1 => if named && e.mark == .short then { e with mark := .free } else e
    | 2 => if named && e.mark == .long then { e with mark := .free } else e
    | 3 => if named && e.mark != .free then { e with mark := .long, longIndex := op.2.2 } else freeIndex op.2.2 e
    | 4 => if e.mark == .long && op.2.2 ≤ e.longIndex then { e with mark := .free } else e
    | 5 => { e with mark := .free }
    | _ => e)

/-- AVC's marking before its picture is stored: the operations, the last of which can give the picture itself a long-term index, or the
sliding window, which frees the oldest short-term picture. -/
def avcMarking (c : VidContext) (u : Parsed) (pool : List PoolEntry) : List PoolEntry :=
  if c.field 0 1 = 0 || u.idr || !u.kept then pool
  else if u.head.adaptive then
    let pool := u.head.ops.foldl markOperation pool
    match u.head.longSelf with | some i => pool.map (freeIndex i) | none => pool
  else if (pool.filter (fun e => e.mark == .short || e.mark == .long)).length < max 1 u.head.refFrames then pool
  else match (pool.filter (fun e => e.mark == .short)).foldl (fun best e => match best with | some b => if e.frameNo < b then some e.frameNo else some b | none => some e.frameNo) none with
    | some n => pool.map (fun e => if e.mark == .short && e.frameNo == n then { e with mark := .free } else e)
    | none => pool

/-! ### The output process (R266) -/

/-- Output order: coded video sequence, then order count. -/
def outBefore (a b : PoolEntry) : Bool := a.era < b.era || (a.era == b.era && a.poc < b.poc)

/-- The first of some pictures in output order. -/
def firstOut (l : List PoolEntry) : Option PoolEntry :=
  l.foldl (fun best e => match best with | some b => if outBefore e b then some e else some b | none => some e) none

/-- The pending picture that is first in output order. -/
def nextPending (pool : List PoolEntry) : Option PoolEntry := firstOut (pool.filter (fun e => e.pending))

/-- The picture of an entry no longer waits for output. -/
def wentOut (n : Nat) (pool : List PoolEntry) : List PoolEntry := updFirst (fun e => e.entry == n) (fun e => { e with pending := false }) pool

/-- Release up to `n` pictures in output order while a condition holds: the pictures, and the pool without them. -/
def bumpWhile (more : List PoolEntry → Bool) : Nat → List PoolEntry → List PoolEntry × List PoolEntry
  | 0, pool => ([], pool)
  | n + 1, pool =>
    match nextPending pool with
    | some e => if more pool then ((e :: (bumpWhile more n (wentOut e.entry pool)).1), (bumpWhile more n (wentOut e.entry pool)).2) else ([], pool)
    | none => ([], pool)

/-- The decoded picture buffer is full: references and pictures that wait fill the stream's number of frames. -/
def bufferFull (h : UnitHeader) (pool : List PoolEntry) : Bool := h.dpbSize ≤ (pool.filter (fun e => e.mark != .free || e.pending)).length

/-- HEVC releases a picture: more wait than may be reordered, or one has waited for the greatest latency. -/
def mustBump (h : UnitHeader) (pool : List PoolEntry) : Bool :=
  let waiting := pool.filter (fun e => e.pending)
  h.reorder < waiting.length || (0 < h.latencyMax && waiting.any (fun e => h.latencyMax ≤ e.latency))

/-- The pool with a decoded picture in its entry: HEVC's latency count of the pictures that wait and follow it in output order rises. -/
def joined (cur : PoolEntry) (pool : List PoolEntry) : List PoolEntry :=
  pool.map (fun e => if e.entry == cur.entry then cur else if cur.pending && e.pending && outBefore cur e then { e with latency := e.latency + 1 } else e)

/-- The pictures that the output process releases with an access unit, from the pool as marked before its picture is stored: HEVC bumps before
the picture for a new sequence, its limits or a full buffer, and after it for its limits; AVC bumps for a new sequence or until a frame buffer
is empty, and outputs a non-reference picture directly when none is and it is first in output order. PRESUMED, log entry 134. -/
def outputProcess (c : VidContext) (u : Parsed) (pool : List PoolEntry) (cur : Option PoolEntry) : List PoolEntry :=
  let n := pool.length
  if c.field 0 1 = 0 then
    let r := bumpWhile (fun l => u.fresh || mustBump u.head l || bufferFull u.head l) n pool
    r.1 ++ (match cur with | some e => (bumpWhile (mustBump u.head) n (joined e r.2)).1 | none => [])
  else if u.fresh then (bumpWhile (fun _ => true) n pool).1
  else if u.kept then (bumpWhile (bufferFull u.head) n pool).1
  else match cur with
    | some e =>
      let r := bumpWhile (fun l => e.pending && bufferFull u.head l && l.any (fun f => f.pending && outBefore f e)) n pool
      r.1 ++ (if e.pending && bufferFull u.head r.2 then [e] else [])
    | none => []

/-! ### One access unit -/

/-- A decoded picture: the context while it is coded and its pool afterwards, the picture with its entry, the pictures that the output process
releases, the references read, the error and the flags IRAP and DAMAGED. -/
structure Decoded where
  ctx     : VidContext
  picture : Option (Nat × Bytes)
  out     : List PoolEntry
  read    : List PoolEntry
  err     : Nat
  irap    : Bool
  damaged : Bool

/-- The samples of a picture that an access unit names: the concealment source where it is missing (R267). -/
def namedPicture (c : VidContext) (refs : List (PoolEntry × Bytes × Bool)) (source : Option Bytes) (n : Nat) : Nat × Bytes :=
  (n, match refs.find? (fun r => r.1.frameNo == n) with | some r => r.2.1 | none => (List.range c.bufferBytes).map (concealByte c source))

/-- Offsets of the poisoned 64-byte words among `marks`. -/
def markedWords (marks : List Bool) : List Nat := (List.range marks.length).filter (fun i => marks.getD i false)

/-- The ranges of CTUs that are concealed (R267): the whole picture, the CTUs to the picture's end from the first that a poisoned word affects or
from the one at which the bin budget ran out, and those from a syntax error to the end of its slice. -/
def concealed (c : VidContext) (u : Parsed) (au : Bytes) (whole : Bool) (words : List Nat) (bad : List (Nat × Nat)) : List (Nat × Nat) :=
  let n := c.width64 * c.height64 / 4096
  if whole then [(0, n)] else
  (if words.isEmpty && bad.isEmpty then [] else [(Config.firstAffected c.desc c.units au words bad, n)]) ++
  (match (List.range n).find? (fun i => 256 * unitsOf (some c) < Config.binsTo c.desc c.units au i) with | some i => [(i, n)] | none => []) ++ u.head.faults

/-- The stream uses a tool outside R242: samples other than the profile's, in HEVC an extension, in AVC field pictures or MBAFF. -/
def unsupportedTool (c : VidContext) (h : UnitHeader) : Bool :=
  match c.field 2 1 with
  | 0 => h.chroma != 1 || h.depth != 8 || h.extensions
  | 1 => h.chroma != 1 || !within h.depth 8 10 || h.extensions
  | _ => 1 < h.chroma || h.depth != 8 || h.fields || h.mbaff

/-- The profile number of a context's PROFILE in its standard. PRESUMED, log entry 134. -/
def profileNumber (profile : Nat) : Nat := match profile with | 0 => 1 | 1 => 2 | _ => 100

/-- Luma samples left of a coded size by frame cropping in chroma samples (R242). -/
def croppedSize (h : UnitHeader) : Nat × Nat :=
  let z := if h.chroma = 0 then 1 else 2
  (h.codedWidth - z * (h.crop.1 + h.crop.2.1), h.codedHeight - z * (h.crop.2.2.1 + h.crop.2.2.2))

/-- The stream's profile or size is not the context's, or it uses an unsupported tool (R267). -/
def otherStream (c : VidContext) (u : Parsed) : Bool :=
  unsupportedTool c u.head || u.head.profileIdc != profileNumber (c.field 2 1) || croppedSize u.head != (c.width, c.height)

/-- Poisoned words of the references that an access unit names, by picture number. -/
def badRefWords (s : State) (p : PartId) (c : VidContext) (names : List Nat) : List (Nat × Nat) :=
  (c.refs.filter (fun e => names.contains e.frameNo)).flatMap (fun e => match vidBufferAddr (s.part p) c e.entry with
    | some a => (markedWords (marksRead s.mem.stackPoison (a / 64) (c.bufferBytes / 64))).map (fun w => (e.frameNo, w))
    | none => [])

/-- Decode one access unit; `fault` is an error that conceals the whole picture (0 none), `words` are the poisoned words of its payload. -/
def decodeUnit (s : State) (p : PartId) (c : VidContext) (au : Bytes) (fault : Nat) (words : List Nat) : Decoded :=
  let u := parseUnit c au
  let unread := fault != 0 || u.head.broken
  let whole := unread || otherStream c u
  let era := c.era + bit (u.fresh && !unread)
  let before := if unread then c.pool else poolBefore c u
  let d := { c with pool := before }
  let refs := d.refs.map (fun e => (e, bufferPicture s p c e))
  let missing := !whole && u.head.names.any (fun n => !refs.any (fun r => r.1.frameNo == n))
  let kept := (c.refs.find? (fun e => !e.damaged)).map (bufferPicture s p c)
  let source := kept.map (fun b => b.1)
  let bad := badRefWords s p d u.head.names
  let ranges := concealed c u au whole words (if whole then [] else bad)
  let bins := !whole && (List.range (c.width64 * c.height64 / 4096)).any (fun i => 256 * unitsOf (some c) < Config.binsTo c.desc c.units au i)
  let hidden := !ranges.isEmpty && kept.any (fun b => b.2)
  let err := joinErr fault (joinErr (if (!words.isEmpty || hidden || (!whole && !bad.isEmpty)) then 0x02 else 0)
    (joinErr (if fault = 0 && u.head.broken then 0x10 else 0) (joinErr (if !unread && otherStream c u then 0x12 else 0)
      (joinErr (if !whole && !u.head.faults.isEmpty then 0x10 else 0) (joinErr (if missing then 0x11 else 0) (if bins then 0x13 else 0))))))
  let predicts := !u.irap && refs.any (fun r => r.1.damaged && u.head.uses.contains r.1.frameNo)
  let damaged := !ranges.isEmpty || missing || predicts
  let c := { c with frameNo := c.frameNo + 1, units := c.units ++ [au], era := era }
  let marked := if unread then before else avcMarking c u before
  let u := { u with fresh := u.fresh && !unread }
  let read := d.refs.filter (fun e => u.head.names.contains e.frameNo)
  match d.freeEntry with
  | none => { ctx := { c with pool := before }, picture := none, out := outputProcess c u before none, read := read, err := joinErr err 0x15, irap := false, damaged := true }
  | some e =>
    let pic := greyChroma c (u.head.chroma = 0) (padTo c.bufferBytes (Config.decodePicture c.desc d.units au (u.head.names.map (namedPicture c refs source))))
    let entry : PoolEntry := { entry := e, mark := .recon, pending := unread || u.head.output, damaged := damaged, frameNo := d.frameNo, poc := u.head.poc, era := era }
    let long := c.field 0 1 = 1 && u.head.longSelf.isSome
    let mark : PoolMark := if !u.kept then .free else if long then .long else .short
    let cur := { entry with mark := mark, longIndex := if long then u.head.longSelf.getD 0 else 0 }
    { ctx := { c with pool := ({ c with pool := before }.modEntry e (fun _ => entry)).pool, later := joined cur marked }, picture := some (e, conceal c source ranges pic),
      out := outputProcess c u marked (some cur), read := read, err := err, irap := !whole && u.irap, damaged := damaged }

/-- A stored picture as it goes out, cropped, and whether a word of it is poisoned: it is then concealed from the first CTU affected on
(R267, R268). DESIGN CHOICE, log entry 66. -/
def outputPicture (s : State) (p : PartId) (c : VidContext) (e : PoolEntry) : Bytes × Bool :=
  let b := bufferPicture s p c e
  let words := match vidBufferAddr (s.part p) c e.entry with
    | some a => markedWords (marksRead s.mem.stackPoison (a / 64) (c.bufferBytes / 64))
    | none => []
  let first := (words.flatMap (fun w => (List.range 64).map (fun i => ctuOfByte c (64 * w + i)))).foldl min (c.width64 * c.height64)
  let source := ((c.refs.find? (fun f => !f.damaged && f.entry != e.entry)).map (bufferPicture s p c)).map (fun b => b.1)
  (cropped c (if words.isEmpty then b.1 else conceal c source [(first, c.width64 * c.height64)] b.1), !words.isEmpty)

/-- Write a picture to OUT_REF, its entry no longer waiting for output: the state, the context, and whether the picture is poisoned, which
makes it DAMAGED. -/
def outputEntry (s : State) (d : Due) (c : VidContext) (e : PoolEntry) : State × VidContext × Bool :=
  let o := outputPicture s d.p c e
  let done := fun (l : List PoolEntry) => updFirst (fun (f : PoolEntry) => f.entry == e.entry) (fun f => { f with pending := false, damaged := f.damaged || o.2 }) l
  (writeRegion (meetRefs s d.p c [e]) d.p (vrefOf (recField d.record 28 4)) c.pictureBytes o.1, { c with pool := done c.pool, later := done c.later }, o.2)

/-- The vector that a decode reports for block `i`: of the prediction unit that covers its top-left sample, list 0's, else list 1's (R264). -/
def decodeVector (c : VidContext) (au : Bytes) (i : Nat) : Mv :=
  let w := ceilDiv c.width 16
  let m := Config.unitMotion c.desc c.units au (16 * (i % w)) (16 * (i / w))
  (m.1.orElse (fun _ => m.2)).getD (-32768, -32768)

/-- Statistics planes of a decode: vectors and bits of the access unit, SATD 0. -/
def decodePlanes (c : VidContext) (au : Bytes) : Bytes :=
  statPlanes c (decodeVector c au) (fun _ => 0) (fun i => Config.decodeBits c.desc c.units au i)

/-- What a decode takes in: whether a region passes cluster bank 3, the access unit, whether the command is a flush, the fault that
conceals the whole picture (0 none), and the poisoned words of the payload (R265–R267). -/
structure DecodeIn where
  past  : Bool
  au    : Bytes
  flush : Bool
  fault : Nat
  words : List Nat
  deriving DecidableEq, Repr

def decodeIn (s : State) (d : Due) (c : VidContext) (a : Nat) : DecodeIn :=
  let inp := vrefOf (recField d.record 24 4)
  let room := round64 (32 + c.field 24 4)
  let past := vrefPast inp room || vrefPast (vrefOf (recField d.record 28 4)) c.pictureBytes || vrefPast (vrefOf (recField d.record 32 4)) (resultBytes (some c))
  let hdr := if vrefPast inp room then zeros 32 else bankRead s a 32
  let n := fieldAt hdr 16 4
  let au := if n ≤ c.field 24 4 && !vrefPast inp room then bankRead s (a + 32) n else []
  { past := past, au := au, flush := bitOf (recField d.record 44 1) 2 && n = 0 && !past
    fault := joinErr (if past || fieldAt hdr 4 1 != c.field 0 1 then 0x12 else 0)
      (if !vrefPast inp room && (fieldAt hdr 0 4 != 0x56425354 || c.field 24 4 < n || (fieldAt hdr 20 4 != 0 && crc32c au != fieldAt hdr 20 4)) then 0x10 else 0)
    words := if vrefPast inp room then [] else markedWords (marksRead s.mem.bankPoison (a / 64) (ceilDiv (32 + au.length) 64)) }

/-- The decode of what came in; a flush decodes nothing. -/
def decodeOf (s : State) (p : PartId) (c : VidContext) (i : DecodeIn) : Decoded :=
  if i.flush then
    { ctx := c, picture := none, out := (nextPending c.pool).toList, read := [], err := joinErr i.fault (if i.words.isEmpty then 0 else 0x02), irap := false, damaged := false }
  else decodeUnit s p c i.au i.fault i.words

/-- The picture that goes out with the command (R266). -/
def decodeOut (i : DecodeIn) (t : Decoded) : Option PoolEntry := if i.past then none else firstOut t.out

/-- What a decode writes: its picture, the picture that goes out, its result record with the planes, and its context (R253, R264, R266); and
its error (R267). -/
def decodeStore (s : State) (d : Due) (c : VidContext) (a : Nat) (i : DecodeIn) (t : Decoded) : State × Nat :=
  let rel := decodeOut i t
  let s := if i.past then s else meetRefs (meetBank s a (32 + i.au.length)) d.p c t.read
  let s := writeBuffer s d.p c t.picture
  let o := match rel with | some e => outputEntry s d t.ctx e | none => (s, t.ctx, false)
  let err := joinErr t.err (if o.2.2 then 0x02 else 0)
  let flags := rflagsOf t.irap (t.damaged || o.2.2 || (i.flush && rel.any (fun e => e.damaged))) false rel.isSome (bitOf (c.field 13 1) 1)
  let s := writeRegion o.1 d.p (vrefOf (recField d.record 32 4)) (resultBytes (some c))
    (resultRecord (some c) (c.field 0 1) 1 flags err c.frameNo i.au.length 0 ((rel.map (fun e => e.poc)).getD 0) ++ decodePlanes c i.au)
  (modContext s (dieOfInst d.desc.inst) c.ctx (fun _ => o.2.1), err)

/-- VDEC_FRAME: an open context's access unit is decoded at its video turn (`codeFrame`). DESIGN CHOICE, log entry 66. -/
def vdecSteps (d : Due) (s : State) : Engine EngineOut := do
  let r := d.record
  let die := dieOfInst d.desc.inst
  let c := openContext s d.p die (recField r 43 1)
  let beats := 1024 + 128 * unitsOf c
  let inp := vrefOf (recField r 24 4)
  let out := vrefOf (recField r 28 4)
  let res := vrefOf (recField r 32 4)
  if !engineFree s d.p die then .error .wait else
  let used := s.modEngine die (fun v => useSlot v d.p d.desc.queue beats)
  let refused : Engine EngineOut :=
    if regionOwned s d.p res (resultBytes c) die then .ok (.done (refusedResult used d c 1 2 ((c.map (fun c => c.frameNo)).getD 0)) beats 0x12)
    else .error .wait
  match c with
  | none => refused
  | some c =>
    if c.field 1 1 ≠ 1 then refused else
    let room := round64 (32 + c.field 24 4)
    if !regionOwned s d.p inp room die || !regionOwned s d.p out c.pictureBytes die || !regionOwned s d.p res (resultBytes (some c)) die ||
      (vrefAddr (s.part d.p) inp).isNone then .error .wait
    else return .done used beats 0

def execVdecFrame (p : PartId) (q : Nat) (s : State) : Result := runVideo s p q 0x0602 frameHandover vdecSteps

/-! ## The video turn (R254) -/

/-- The frame command of a queue whose video turn is next, with its place in the list, once it has issued. -/
def turnCommand (x : Part) (q : Nat) : Option (Nat × CmdRecord) :=
  (((List.range (issuedOf x q)).zip (listOf x q)).filter (fun r => isFrame r.2))[videoTaken x q]?

/-- The transfer instance and place of a queue's video turn, when its turn has come there, after the house turn and the copy phase (R254). -/
def videoDue (s : State) (p : PartId) (q : Nat) : Option (Nat × Nat) :=
  let x := s.part p
  if !stepping s p then none else
  (List.range 8).findSome? (fun lc =>
    match nextTurn x lc (turnsOf x 5 lc) (turnPos x 5 lc) with
    | some (pos, e) => if videoTurn e = some q && !headPending x lc then some (lc, pos) else none
    | none => none)

/-- Code the picture of a frame command in its open context, whose pictures its video turn brings: the state, and the error. A command that its
context refuses has written its result at its issue. -/
def codeFrame (s : State) (d : Due) (c : VidContext) : State × Nat :=
  match vrefAddr (s.part d.p) (vrefOf (recField d.record 24 4)) with
  | none => (s, 0)
  | some a =>
    if recOpcode d.record = 0x0601 then
      if encodeBarred d.record c then (s, 0) else (encodeStore s d c a (encodeOf s d c a), encodeErr (encodeOf s d c a))
    else if c.field 1 1 ≠ 1 then (s, 0)
    else decodeStore s d c a (decodeIn s d c a) (decodeOf s d.p c (decodeIn s d c a))

/-- Join an error to that of a command of a video queue that has not completed. -/
def frameError (x : Part) (q index err : Nat) : Part :=
  { x with inflight := x.inflight.map (fun e => if e.cls = 6 && e.queue = q && e.index = index && !e.walk then { e with error := joinErr e.error err } else e) }

/-- The video turn of a queue has passed for one more frame command; it ends with the queue's last. -/
def turnPassed (x : Part) (q lc pos : Nat) : Part :=
  let last := ((listOf x q).filter isFrame).length ≤ videoTaken x q + 1
  let y := { x with videoMoved := assocSet q (videoTaken x q + 1) x.videoMoved }
  setTurn y 5 lc (if last then (pos + 1) % (turnsOf x 5 lc).length else pos)

/-- Work beats of the pictures of a frame command on the transfer engine (R254). -/
def pictureBeats (c : VidContext) (r : CmdRecord) : Nat := (c.field 8 1 + (if recOpcode r = 0x0601 then 1 else 2)) * (4 + c.bufferBytes / 2048)

/-- VIDEO_TURN (R254): the pictures of the next frame command of a queue pass between the stack and the engine, in the work beats of the
transfer engine of POOL_CLUSTER, and the command is coded: references read, the coded picture written, the output picture read. A command
whose context is closed has no frame buffer, and its pictures take no beats. DESIGN CHOICE, log entry 67. -/
def execVideoTurn (p : PartId) (q : Nat) (s : State) : Result :=
  match descOf (s.part p) q, videoDue s p q, turnCommand (s.part p) q with
  | some d, some (lc, pos), some (i, r) =>
    if d.cls ≠ 6 then .next s else
    match openContext s p (dieOfInst d.inst) (recField r 43 1) with
    | none => .next (awaitVideo (s.modPart p (fun x => turnPassed x q lc pos)) p q)
    | some c =>
      if !buffersServe s p c then .next (waits s p 5 lc) else
      let t := codeFrame (countBeats (s.modPart p (fun x => turnPassed x q lc pos)) p 5 (c.field 32 1) (pictureBeats c r) 0)
        { p := p, desc := d, record := r, index := i, next := pos } c
      .next (awaitVideo (t.1.modPart p (fun x => frameError x q i t.2)) p q)
  | _, _, _ => .next s

end Sys2Proof.Machine
end

