-- ==== Sys2Proof/Machine/Window.lean ====
section
/-! DEFINITION. The register window and private reads (18 R469–R472; 11 R290–R294): the field maps of every block, the latches
of the _LO and _HI pairs, the registers that a read clears, and the data registers. -/

namespace Sys2Proof.Machine

/-- A register from its fields, each as lowest bit, width and value. -/
def pack (fs : List (Nat × Nat × Nat)) : Nat := (fs.map (fun f => f.2.2 % 2 ^ f.2.1 * 2 ^ f.1)).sum

/-- A value that saturates in a field of `w` bits. -/
def sat (w v : Nat) : Nat := min v (2 ^ w - 1)

/-- Bits [31:0] and [63:32] of a 64-bit value. -/
def lo32 (v : Nat) : Nat := v % 2 ^ 32
def hi32 (v : Nat) : Nat := v / 2 ^ 32 % 2 ^ 32

/-- A partition by the low three bits of an index; likewise a port, a core, a die, an I3C port. -/
def partIx (n : Nat) : PartId := ⟨n % 8, by omega⟩
def portIx (n : Nat) : PortId := ⟨n % 16, by omega⟩
def coreIx (n : Nat) : CoreId := ⟨n % 64, by omega⟩
def dieIx (n : Nat) : DieId := ⟨n % 2, by omega⟩

/-- Mask over the partitions. -/
def partMask (s : State) (f : Part → Bool) : Nat := maskOf (fun p : PartId => f (s.part p))

/-! ## ID and MBX (11) -/

def idReg (s : State) (x : I3cId) (off : Nat) : Nat :=
  match off with
  | 0x0000 => pack [(0, 16, 0x7648), (16, 1, bit s.fuses.codeSB), (17, 11, speedFloor s)]
  | 0x0004 => pack [(0, 6, s.fuses.tray), (6, 5, s.fuses.slot), (11, 11, s.place), (22, 1, x.val)]
  | 0x0008 => lo32 s.fuses.serial
  | 0x000C => hi32 s.fuses.serial
  | 0x0010 => pack [(0, 16, s.fw.running.iface), (16, 8, 1), (24, 1, 1), (25, 1, 1)]
  | 0x0014 => lo32 s.fw.running.version
  | 0x0018 => idState s
  | _ => 0

/-- The head response of a port and its log message. -/
def headResponse (q : I3cPort) : Bytes := q.responses.headD []
def logBytes (q : I3cPort) : Bytes := (q.log.map (fun l => l.2.2.2)).getD []

def mbxReg (s : State) (x : I3cId) (off : Nat) : Nat :=
  let q := s.port x
  match off with
  | 0x0200 => pack [(0, 1, bit q.cmdFull), (1, 1, bit q.bulkFull), (2, 1, bit (!q.responses.isEmpty)), (3, 1, bit q.log.isSome),
      (4, 4, q.responses.length), (8, 8, fieldAt (headResponse q) 1 1), (16, 13, (headResponse q).length)]
  | 0x0218 => fieldAt (headResponse q) (4 * q.rspAt) 4
  | 0x021C => fieldAt (logBytes q) (4 * q.logAt) 4
  | 0x0220 => pack [(0, 16, q.posted.toNat), (16, 8, q.malformed), (24, 8, q.overrun)]
  | _ => 0

/-! ## ORD (11) and TIME (12) -/

/-- ORD_SESSION_x: a session whose lease has run out is ended and not clean (R307, R311). DESIGN CHOICE, log entry 32. -/
def sessionReg (s : State) (x : I3cId) : Nat :=
  let q := (s.port x).session
  let live := sessionLive s x
  pack [(0, 1, bit live), (1, 1, bit (q.clean && q.live == live)), (16, 16, if live then sat 16 (leaseLeft s x) else 0)]

def ordReg (s : State) (off : Nat) : Nat :=
  let o := s.orders
  match off with
  | 0x0400 => sat 7 (windowsHeld o.windows)
  | 0x0404 => pack [(0, 16, 10), (16, 16, 20)]
  | 0x0408 => o.accepted.toNat
  | 0x040C => o.superseded.toNat
  | 0x0410 => o.refused.toNat
  | 0x0414 => lo32 o.lastEff
  | 0x0418 => hi32 o.lastEff
  | 0x041C => sessionReg s 0
  | 0x0420 => sessionReg s 1
  | _ => 0

def TimeState.code : TimeState → Nat
  | .acquiring => 0 | .locked => 1 | .holdover => 2

/-- A backward offset is being slewed (R349). -/
def slewing (s : State) : Bool := (s.now - s.time.slewAt) / 1000 < s.time.slew

def timeReg (s : State) (off : Nat) : Nat :=
  let t := s.time
  match off with
  | 0x0600 => pack [(0, 2, t.state.code), (2, 1, bit t.unsure), (3, 1, bit (slewing s)), (4, 1, bit t.ref), (16, 16, sat 16 (holdErr s / 1000))]
  | 0x0604 => lo32 s.stamp
  | 0x0608 => hi32 s.stamp
  | 0x060C => twosNat 16 t.trim
  | 0x0618 => t.far.toNat
  | 0x061C => pack [(0, 8, t.annBad), (8, 8, t.missed), (16, 8, t.losses)]
  | _ => 0

/-! ## PWR and THM (14) -/

def SupplyLevel.code : SupplyLevel → Nat
  | .normal => 0 | .warning => 1 | .hold => 2

/-- The cap in force is ramping (R383). -/
def ramping (s : State) : Bool := s.power.rampNs != 0 && s.now < s.power.rampFrom.2 + s.power.rampNs

/-- LEVEL and cause bits of the latest complete 1 s window (R390). -/
def holdReg (s : State) (p : PartId) : Nat :=
  let h := settleHold s ((s.part p).state == .running) (s.part p).hold
  pack [(0, 3, h.level), (3, 3, h.bits)]

def pwrReg (s : State) (off : Nat) : Nat :=
  let w := s.power
  match off with
  | 0x0800 => pack [(0, 1, bit w.latch), (1, 1, bit (w.state == .quench)), (2, 1, bit w.supplyHeld), (3, 1, bit s.thermal.descent.isSome),
      (4, 1, bit (w.shed || w.gate != 0)), (5, 1, bit (w.level != .normal)), (6, 1, bit w.drained), (8, 2, w.level.code),
      (10, 1, bit w.regFault), (12, 4, w.quenchCause)]
  | 0x0804 => pack [(0, 11, capNow s), (16, 11, w.target), (27, 1, bit (ramping s))]
  | 0x0808 => pack [(0, 11, sat 11 (w.p100 / 1000)), (16, 11, sat 11 (w.p1s / 1000))]
  | 0x080C => pack [(0, 16, sat 16 w.supplyMv), (16, 16, sat 16 w.currentUnits)]
  | 0x0810 => pack [(0, 10, w.dies[0].mv), (10, 3, w.dies[0].gov), (16, 10, w.dies[1].mv), (26, 3, w.dies[1].gov)]
  | 0x0814 => pack [(0, 11, sat 11 (estimateTotal s)), (16, 10, capVoltage s)]
  | 0x0818 => pack [(0, 8, w.sheds), (8, 8, w.supplyHolds), (16, 8, w.descents), (24, 8, w.quenches)]
  | _ => if within off 0x0840 0x085F then holdReg s (partIx ((off - 0x0840) / 4)) else 0

/-- A temperature as the THM registers show it: a doubted sensor reads 0. DEDUCED, log entry 29. -/
def shownC (bad : Bool) (m : Int) : Nat := if bad then 0 else wholeC m

/-- A coolant temperature in units of 0.1 °C. DEDUCED, log entry 29. -/
def shownTenth (bad : Bool) (m : Int) : Nat := if bad then 0 else min 4095 ((m + 50) / 100).toNat

/-- Four sensors of a vector from sensor `j`. -/
def fourC (t : Vector Int 8) (bad : Vector Bool 8) (j : Nat) : Nat :=
  pack ((List.range 4).map (fun i => (8 * i, 8, shownC (bad.toList.getD (j + i) true) (t.toList.getD (j + i) 0))))

/-- MODE of THM_STATUS. -/
def thermalMode (s : State) : Nat :=
  if s.power.state = .quench then 3 else if s.thermal.descent.isSome then 2 else if s.thermal.throttle then 1 else 0

def coreReg (k : Core) : Nat :=
  pack [(0, 8, shownC k.diodeDoubted k.diode), (8, 8, shownC k.delayDoubted k.delay), (16, 8, wholeC k.pair), (24, 1, bit k.suspect),
    (25, 1, bit k.diodeDoubted), (26, 1, bit k.delayDoubted), (27, 1, bit k.estimateUsed)]

/-- Mask of the suspect pairs among 32 cores from core `c`. -/
def suspectMask (s : State) (c : Nat) : Nat := maskOf (fun i : Fin 32 => (s.core (coreIx (c + i.val))).suspect)

/-- DEDUCED, log entry 29. DESIGN CHOICE, log entry 30. -/
def thmReg (s : State) (off : Nat) : Nat :=
  let h := s.thermal
  match off with
  | 0x0A00 => pack [(0, 2, thermalMode s), (2, 1, bit h.calm), (3, 1, bit h.ballast), (4, 1, bit h.flowLow), (5, 1, bit h.inletOut),
      (6, 8, maskOf (fun k : Fin 8 => h.capped.get k)), (14, 7, (s.cores.toList.filter (fun k => k.suspect)).length)]
  | 0x0A04 =>
    let c := hottest (s.cores.toList.map (fun k => k.pair))
    let b := hottest ((h.hbm.toList.zip h.hbmBad.toList).map (fun e => if e.2 then -1000000 else e.1))
    pack [(0, 8, wholeC c.2), (8, 6, c.1), (16, 8, wholeC b.2), (24, 3, b.1)]
  | 0x0A08 => pack [(0, 12, shownTenth h.inletBad h.inlet), (16, 12, shownTenth h.outletBad h.outlet), (28, 1, bit h.inletBad),
      (29, 1, bit h.outletBad)]
  | 0x0A0C => pack [(0, 16, sat 16 h.flow), (16, 12, h.cv)]
  | 0x0A10 => suspectMask s 0
  | 0x0A14 => suspectMask s 32
  | 0x0A18 => fourC h.hbm h.hbmBad 0
  | 0x0A1C => fourC h.hbm h.hbmBad 4
  | 0x0A20 => fourC h.reg h.regBad 0
  | 0x0A24 => fourC h.reg h.regBad 4
  | _ => if within off 0x0A40 0x0B3F then coreReg (s.core (coreIx ((off - 0x0A40) / 4))) else 0

/-! ## PART (02) and SRV (08) -/

/-- Bytes 0–3 of the loaded image's digest, byte 0 lowest. -/
def imageWord (x : Part) : Nat := (x.image.map (fun i => fieldAt (beBytes 48 i.digest.toNat) 0 4)).getD 0

/-- Fenced cores of a partition. DESIGN CHOICE, log entry 31. -/
def fencedCores (s : State) (p : PartId) : Nat :=
  ((List.finRange 64).filter (fun c => (s.core c).state == .fenced && partOfCluster s (clusterOf c) == some p)).length

/-- DESIGN CHOICE, log entry 31. -/
def partReg (s : State) (off : Nat) : Nat :=
  if off = 0x0C00 then
    pack [(0, 8, partMask s (fun x => x.state != .free)), (8, 8, partMask s (fun x => x.state == .running)),
      (16, 8, maskOf (fun k : Fin 8 => (partOfCluster s k).isNone && (s.cluster k).trained))]
  else if within off 0x0C40 0x0D3F then
    let p := partIx ((off - 0x0C40) / 0x20)
    let x := s.part p
    match (off - 0x0C40) % 0x20 with
    | 0x00 => pack [(0, 8, clusterMask x), (8, 3, x.state.code), (11, 1, bit x.replay), (12, 1, bit x.paced)]
    | 0x04 => pack [(0, 8, x.firstQ), (8, 9, x.nQ)]
    | 0x08 => pack [(0, 8, x.firstT), (8, 9, x.nT)]
    | 0x0C => lo32 x.step
    | 0x10 => hi32 x.step
    | 0x14 => imageWord x
    | 0x18 => pack [(0, 4, x.layout), (4, 7, fencedCores s p), (11, 1, bit x.stalled), (12, 1, bit (partHeld s p)), (13, 1, bit x.tallySat),
        (14, 8, x.kind)]
    | 0x1C => pack [(0, 8, x.loadCode), (8, 24, x.loadDetail)]
    | _ => 0
  else 0

/-- A partition serves: its image has a request stream and it is ARMED or RUNNING. -/
def serving (x : Part) : Bool :=
  (x.state == .armed || x.state == .running) && (x.image.map (fun i => i.streams.any (fun d => requestStream x d.stream))).getD false

/-- Sequences of a partition in any of the given states. -/
def seqCount (x : Part) (f : SeqState → Bool) : Nat := (x.seqs.filter (fun q => f q.state)).length

/-- The shortest cullet list. -/
def leastCullet (x : Part) : Nat := (x.kv.map (fun k => k.cullet.length)).min?.getD 0

def srvReg (s : State) (off : Nat) : Nat :=
  if off = 0x0E00 then
    pack [(0, 8, partMask s serving), (8, 8, partMask s (fun x => 0 < seqCount x (fun q => q == .paused || q == .resuming))),
      (16, 1, bit (s.power.level != .normal))]
  else if within off 0x0E40 0x0FBF then
    let x := s.part (partIx ((off - 0x0E40) / 0x30))
    let v := x.serving
    match (off - 0x0E40) % 0x30 with
    | 0x00 => pack [(0, 1, bit v.cancelMode), (1, 1, bit v.rebind), (2, 1, bit v.admitClosed), (8, 8, v.quantum), (16, 7, v.riskPct),
        (23, 7, v.resumePct)]
    | 0x04 => pack [(0, 24, v.targets[0])]
    | 0x08 => pack [(0, 24, v.targets[1])]
    | 0x0C => pack [(0, 24, v.targets[2])]
    | 0x10 => pack [(0, 24, v.targets[3])]
    | 0x14 => pack [(0, 16, seqCount x (fun q => q == .active || q == .runOut)),
        (16, 16, seqCount x (fun q => q == .heldOver || q == .paused || q == .resuming))]
    | 0x18 => sat 13 (seqCount x (fun q => q == .queued))
    | 0x1C => pack [(0, 24, x.period)]
    | 0x20 => sat 21 (leastCullet x)
    | 0x24 => lo32 x.admitted
    | 0x28 => lo32 x.rejected
    | 0x2C => lo32 x.cancelled
    | _ => 0
  else 0

/-! ## CSI (10) -/

/-- The bindings of a port in a direction. -/
def portBindings (s : State) (n : PortId) (transmit : Bool) : List Binding :=
  s.csi.bindings.filter (fun b => b.port == n && b.transmit == transmit)

/-- The mirror's binding, when it holds transmit port `n` (R272). -/
def mirrorAt (s : State) (n : PortId) : Option Mirror := s.events.mirror.filter (fun m => m.port == n)

def csiRxReg (s : State) (n : PortId) (off : Nat) : Nat :=
  let r := s.csi.rx.get n
  let bs := portBindings s n false
  match off with
  | 0x0 => pack ([(3, 1, bit r.sync), (8, 6, (bs.filter (fun b => b.opened.isSome)).length)] ++
      (match bs with
       | b :: _ => [(0, 3, b.lanes), (4, 3, b.part.val), (7, 1, 1), (16, 13, b.laneMbps)]
       | [] => []))
  | 0x4 => r.frames.toNat
  | 0x8 => pack [(0, 16, r.noBuffer), (16, 16, r.overQuota)]
  | 0xC => pack [(0, 8, r.hdrDiscard), (8, 8, r.badLine), (16, 8, r.timeout), (24, 8, r.tagFail)]
  | _ => 0

/-- DESIGN CHOICE, log entry 32. -/
def csiTxReg (s : State) (n : PortId) (off : Nat) : Nat :=
  let t := s.csi.tx.get n
  match off with
  | 0x0 => pack ([(3, 1, bit (s.now < t.endAt))] ++
      (match portBindings s n true, mirrorAt s n with
       | b :: _, _ => [(0, 3, b.lanes), (4, 3, b.part.val), (7, 1, 1), (16, 13, b.laneMbps)]
       | [], some m => [(0, 3, m.lanes), (7, 1, 1), (8, 1, 1), (16, 13, m.laneMbps)]
       | [], none => []))
  | 0x4 => t.frames.toNat
  | _ => 0

def csiReg (s : State) (off : Nat) : Nat :=
  match off with
  | 0x1000 => pack [(0, 16, maskOf (fun n : PortId => (s.csi.rx.get n).sync)),
      (16, 16, maskOf (fun n : PortId => !(portBindings s n true).isEmpty || (mirrorAt s n).isSome))]
  | 0x1004 => pack [(0, 20, s.csi.timeout)]
  | 0x1008 => lo32 s.csi.unbound
  | _ =>
    if within off 0x1040 0x113F then csiRxReg s (portIx ((off - 0x1040) / 0x10)) ((off - 0x1040) % 0x10)
    else if within off 0x1140 0x11BF then csiTxReg s (portIx ((off - 0x1140) / 8)) ((off - 0x1140) % 8)
    else 0

/-! ## LNK (12) and CLM (13) -/

/-- Keys are live with every linked member of a complete job table. -/
def keyed (x : Part) : Bool :=
  jobComplete x && (match x.job with | some j => j.members.all (fun m => !linkedMember x m.1 || m.2.keys.live) | none => false)

/-- A key agreement of the partition has failed (R331). -/
def keyFailed (x : Part) : Bool := match x.job with | some j => j.members.any (fun m => m.2.keys.failed) | none => false

/-- Turns in the relay pool. -/
def relayTurns (l : Link) : Nat := (l.owners.toList.filter (fun o => o == .relay)).length

def lnkPortReg (s : State) (n : PortId) (off : Nat) : Nat :=
  let l := s.link n
  match off with
  | 0x0 => pack [(0, 3, l.state.code), (3, 1, bit l.stalled), (4, 4, sat 4 (recentRetrains s n).length), (8, 6, relayTurns l)]
  | 0x4 =>
    match l.far with
    | some f => pack [(0, 11, f.place), (11, 4, f.port), (15, 1, 1), (16, 1, bit f.store), (17, 1, bit f.auth), (18, 1, bit f.agrees)]
    | none => 0
  | 0x8 => pack [(0, 8, l.naks), (8, 8, l.fecUncorr), (16, 8, l.discards), (24, 8, l.gcmFail)]
  | 0xC => pack [(0, 24, l.ber), (24, 8, l.berSeconds)]
  | _ => 0

def lnkReg (s : State) (off : Nat) : Nat :=
  match off with
  | 0x1200 => pack [(0, 16, portsUp s), (16, 16, maskOf (fun n : PortId => (s.link n).state == .failed || (s.link n).state == .miswired))]
  | 0x1204 => if s.plan.inForce then lo32 s.plan.version else 0
  | 0x1208 => if s.plan.inForce then lo32 s.plan.cabinet else 0
  | 0x120C => pack [(0, 8, partMask s jobComplete), (8, 8, partMask s keyed), (16, 8, partMask s keyFailed)]
  | _ => if within off 0x1240 0x133F then lnkPortReg s (portIx ((off - 0x1240) / 0x10)) ((off - 0x1240) % 0x10) else 0

def Role.code : Role → Nat
  | .unpaired => 0 | .holder => 1 | .standby => 2 | .gloryHole => 3

/-- PM in µs, 0 while the partition is not paired. DESIGN CHOICE, log entry 32. -/
def pmOf (c : Claim) : Nat := if c.paired then sat 16 (holderPeriod c / 1000) else 0

/-- The partner's heartbeat has been absent for DETECT, whether or not a loss has been acted on (13 R374). -/
def partnerAbsent (s : State) (c : Claim) : Bool := c.paired && c.lastBeat.any (fun t => t + detectTime c ≤ s.now)

def clmPartReg (s : State) (c : Claim) (off : Nat) : Nat :=
  match off with
  | 0x00 => pack [(0, 16, c.group), (16, 11, c.partner), (27, 3, c.detectSteps), (30, 1, bit c.paired)]
  | 0x04 => pack [(0, 7, c.detectMin), (8, 8, c.pacePct), (16, 16, pmOf c)]
  | 0x08 => c.claim.toNat
  | 0x0C => c.highest.toNat
  | 0x10 => pack [(0, 2, c.role.code), (2, 1, bit c.leader), (3, 1, bit (partnerAbsent s c)), (8, 2, c.tries)]
  | 0x14 => sat 16 c.backlog
  | 0x18 => pack [(0, 8, c.raises), (8, 8, c.demotions), (16, 8, c.mismatches), (24, 8, c.reentries)]
  | _ => 0

def clmReg (s : State) (off : Nat) : Nat :=
  match off with
  | 0x1400 => pack [(0, 8, partMask s (fun x => x.claim.paired)), (8, 8, partMask s (fun x => x.claim.role == .holder)),
      (16, 8, partMask s (fun x => x.claim.role == .gloryHole))]
  | 0x1404 => pack [(0, 1, bit s.lanes.rxSync), (1, 1, bit s.lanes.testing), (16, 16, s.lanes.discards)]
  | 0x1408 => pack [(0, 24, s.lanes.ber), (24, 8, s.lanes.berSeconds)]
  | 0x140C =>
    match s.lanes.far with
    | some f => pack [(0, 11, f.1), (11, 1, 1), (12, 1, bit f.2)]
    | none => 0
  | _ => if within off 0x1440 0x153F then clmPartReg s (s.part (partIx ((off - 0x1440) / 0x20))).claim ((off - 0x1440) % 0x20) else 0

/-! ## VID (09) -/

/-- Mask of the slots `i` to `i + 31` that a partition owns on an engine. -/
def slotMask (v : VidEngine) (p : PartId) (i : Nat) : Nat := maskOf (fun j : Fin 32 => v.owners.toList.getD (i + j.val) none == some p)

def vidStatus (v : VidEngine) : Nat :=
  pack ([(0, 6, v.slot), (10, 9, v.contexts.length)] ++
    (match v.owners.toList.getD v.slot none with
     | some p => [(6, 3, p.val), (9, 1, 1)]
     | none => []))

def usingMask (v : VidEngine) : Nat := maskOf (fun p : PartId => v.owners.toList.contains (some p))
def freeSlots (v : VidEngine) : Nat := (v.owners.toList.filter (fun o => o == none)).length

def vidReg (s : State) (off : Nat) : Nat :=
  let a := s.engine 0
  let b := s.engine 1
  match off with
  | 0x1600 => pack [(0, 8, usingMask a), (8, 8, usingMask b), (16, 7, freeSlots a), (23, 7, freeSlots b)]
  | 0x1604 => vidStatus a
  | 0x1608 => vidStatus b
  | _ =>
    if within off 0x1640 0x16BF then
      let v := s.engine (dieIx ((off - 0x1640) / 0x40))
      slotMask v (partIx ((off - 0x1640) % 0x40 / 8)) (if (off - 0x1640) % 8 = 0 then 0 else 32)
    else if within off 0x1700 0x177F then
      let p := partIx ((off - 0x1700) / 0x10)
      let x := s.part p
      match (off - 0x1700) % 0x10 with
      | 0x0 => pack [(0, 4, a.ctxFirst.get p), (4, 5, a.ctxBlocks.get p), (16, 4, b.ctxFirst.get p), (20, 5, b.ctxBlocks.get p)]
      | 0x4 => pack [(0, 6, a.poolFirst.get p), (6, 7, a.poolBlocks.get p), (16, 6, b.poolFirst.get p), (22, 7, b.poolBlocks.get p)]
      | 0x8 => lo32 x.frames
      | 0xC => pack [(0, 16, sat 16 x.decErrors), (16, 16, sat 16 x.encErrors)]
      | _ => 0
    else 0

/-! ## SEC (15), FW (16) and EVT (19) -/

/-- Streams of a partition with a live key. -/
def keyedStreams (k : PKeys) : Nat := ((k.streams.map (fun e => e.stream)).eraseDups).length

/-- The most pages still under the previous generation on any of a partition's stacks. -/
def pagesLeft (s : State) (x : Part) : Nat :=
  (x.clusters.map (fun k => match (s.cluster k).sweep with | some g => spacePages - g | none => 0)).foldl max 0

def secReg (s : State) (off : Nat) : Nat :=
  let v := s.security
  match off with
  | 0x1800 => pack [(0, 3, s.fuses.lifecycle), (3, 1, bit s.fuses.testClosed), (4, 1, bit s.fuses.debugClosed), (5, 1, bit s.fuses.tampered),
      (6, 1, bit v.extTamper), (8, 8, s.fw.running.secver), (16, 2, s.fuses.reprov)]
  | 0x1804 => pack [(0, 8, v.wipes), (8, 2, v.lastCause)]
  | 0x1808 => pack [(0, 16, v.reports), (16, 8, v.releases), (24, 8, v.rejects)]
  | _ =>
    if within off 0x1840 0x18BF then
      let x := s.part (partIx ((off - 0x1840) / 0x10))
      let k := x.keys
      match (off - 0x1840) % 0x10 with
      | 0x0 => pack [(0, 1, bit k.model.isSome), (1, 1, bit k.store.isSome), (2, 1, bit k.storePrev.isSome), (3, 1, bit (sweeping s x)),
          (4, 11, keyedStreams k), (15, 3, k.ephemeral.length)]
      | 0x4 => lo32 k.memGen
      | 0x8 => pack [(0, 24, k.checked.length), (24, 8, k.result)]
      | 0xC => sat 20 (pagesLeft s x)
      | _ => 0
    else 0

def fwReg (s : State) (off : Nat) : Nat :=
  let f := (endStep7 s).fw
  match off with
  | 0x1A00 => pack [(0, 3, if switching s then 6 else f.loadState), (3, 1, f.loadPort), (8, 8, f.result), (16, 4, f.startStep), (24, 8, f.startFail)]
  | 0x1A04 => (f.load.map (fun l => lo32 (covered l))).getD 0
  | 0x1A08 => (f.load.map (fun l => lo32 l.size)).getD 0
  | 0x1A0C => (f.staged.map (fun h => lo32 h.version)).getD 0
  | 0x1A10 => pack [(0, 8, s.fuses.secver), (8, 8, f.running.secver), (16, 8, (f.staged.map (fun h => h.secver)).getD 0)]
  | 0x1A14 => pack [(0, 8, f.running.major), (8, 8, f.running.minor), (16, 8, (f.staged.map (fun h => h.major)).getD 0),
      (24, 8, (f.staged.map (fun h => h.minor)).getD 0)]
  | 0x1A18 => pack [(0, 8, f.hbm), (8, 16, f.ports), (24, 1, bit f.locked), (25, 1, bit f.pulled)]
  | 0x1A1C => lo32 f.startMs
  | 0x1A20 => pack [(0, 8, f.crcFail), (8, 8, f.activations), (16, 8, f.deferrals)]
  | _ => 0

def evtReg (s : State) (off : Nat) : Nat :=
  let v := s.events
  match off with
  | 0x1C00 => pack [(0, 1, bit v.openRing), (1, 1, bit (s.port 0).copyOn), (2, 1, bit (s.port 1).copyOn), (3, 1, bit v.mirror.isSome),
      (16, 16, sat 16 (untaken v.takenUpTo 0 v.written))]
  | 0x1C04 => lo32 v.written
  | 0x1C08 => hi32 v.written
  | 0x1C0C => lo32 v.copied
  | 0x1C10 => hi32 v.copied
  | 0x1C14 => lo32 v.overwritten
  | 0x1C18 => pack ([(16, 16, sat 16 v.mirrorFrames)] ++ (match v.mirror with | some m => [(0, 4, m.port.val), (4, 5, m.vc)] | none => []))
  | _ => 0

/-- The SIZE registers: entries 0–39 and the twenty shapes (02 R62). -/
def sizeReg (s : State) (off : Nat) : Nat := if within off 0x1E00 0x1EEF then lo32 (sizeEntry s ((off - 0x1E00) / 4)) else 0

/-! ## Reads (R471, R472; 11 R291–R294) -/

/-- The live value of a register; a WO register, a reserved offset and an offset from 0x2000 upward read as 0 (R469). Before
the firmware runs only ID and MBX are served (11 R294). -/
def regLive (s : State) (x : I3cId) (off : Nat) : Nat :=
  if romServes s && 0x0400 ≤ off then 0
  else match off / 0x200 with
    | 0x0 => idReg s x off
    | 0x1 => mbxReg s x off
    | 0x2 => ordReg s off
    | 0x3 => timeReg s off
    | 0x4 => pwrReg s off
    | 0x5 => thmReg s off
    | 0x6 => partReg s off
    | 0x7 => srvReg s off
    | 0x8 => csiReg s off
    | 0x9 => lnkReg s off
    | 0xA => clmReg s off
    | 0xB => vidReg s off
    | 0xC => secReg s off
    | 0xD => fwReg s off
    | 0xE => evtReg s off
    | 0xF => sizeReg s off
    | _ => 0

/-- The _LO register of a pair that holds a latch (R472). -/
def isLo (off : Nat) : Bool :=
  [0x0008, 0x0414, 0x0604, 0x0A10, 0x0A18, 0x0A20, 0x1C04, 0x1C0C].contains off ||
  (within off 0x0C40 0x0D3F && (off - 0x0C40) % 0x20 == 0x0C) || (within off 0x1640 0x16BF && (off - 0x1640) % 8 == 0)

/-- A data register, past which the pointer does not advance. -/
def isData (off : Nat) : Bool := off == 0x0218 || off == 0x021C

/-- The RC registers are cleared for both ports (R293, R470). -/
def clearOnRead (s : State) (off : Nat) : State :=
  if romServes s then s
  else if off = 0x0818 then s.modPower (fun w => { w with sheds := 0, supplyHolds := 0, descents := 0, quenches := 0 })
  else if within off 0x1040 0x113F && (off - 0x1040) % 0x10 = 0xC then
    s.modRx (portIx ((off - 0x1040) / 0x10)) (fun r => { r with hdrDiscard := 0, badLine := 0, timeout := 0, tagFail := 0 })
  else if within off 0x1240 0x133F && (off - 0x1240) % 0x10 = 0x8 then
    s.modLink (portIx ((off - 0x1240) / 0x10)) (fun l => { l with naks := 0, fecUncorr := 0, discards := 0, gcmFail := 0 })
  else s

/-- What a read of a register returns: a _HI register returns the port's latch, once there is one (R472). -/
def regValue (s : State) (x : I3cId) (off : Nat) : Nat :=
  if 4 ≤ off && isLo (off - 4) then
    match assocGet (off - 4) (s.port x).latches with
    | some v => v.toNat
    | none => regLive s x off
  else regLive s x off

/-- The marks that a read leaves on the port: a latch loaded, a data register's next word. -/
def notePort (s : State) (x : I3cId) (off : Nat) : State :=
  if isLo off then s.modPort x (fun q => { q with latches := assocSet off (BitVec.ofNat 32 (regLive s x (off + 4))) q.latches })
  else if off = 0x0218 then s.modPort x (fun q => { q with rspAt := if q.responses.isEmpty then 0 else q.rspAt + 1 })
  else if off = 0x021C then s.modPort x (fun q => { q with logAt := if q.log.isNone then 0 else q.logAt + 1 })
  else s

/-- What reading one register leaves. DESIGN CHOICE, log entry 28. -/
def regAfter (s : State) (x : I3cId) (off : Nat) : State := clearOnRead (notePort s x off) off

/-- The offset after a register. DESIGN CHOICE, log entry 28. -/
def nextOff (off : Nat) : Nat := if isData off then off else (off + 4) % 65536

/-- Read `n` registers upward from an offset: their bytes and what the reads leave, the pointer after the last (R291).
DESIGN CHOICE, log entry 28. -/
def readRegs : Nat → State → I3cId → Nat → Bytes × State
  | 0, s, x, off => ([], s.modPort x (fun q => { q with pointer := off }))
  | n + 1, s, x, off =>
    let r := readRegs n (regAfter s x off) x (nextOff off)
    (leBytes 4 (regValue s x off) ++ r.1, r.2)

/-- 20 µs have passed since the write that set the read pointer (R291). -/
def pointerReady (s : State) (x : I3cId) : Bool := match (s.port x).pointerAt with | some t => t + us 20 ≤ s.now | none => true

/-- A private read of `bytes` from the read pointer: not acknowledged within 20 µs of the write that set the pointer, and
ended at the maximum read length (R289, R291). DESIGN CHOICE, log entry 27. -/
def privateRead (s : State) (x : I3cId) (bytes : Nat) : Result :=
  if portAcks s x && pointerReady s x then
    let n := min bytes (s.port x).mrl
    let r := readRegs (ceilDiv n 4) s x (s.port x).pointer
    .next (r.2.emit (.i3cData x (r.1.take n)))
  else .next (s.emit (.i3cNack x))

/-! The read rows: each is the private read that its name says; the port's pointer names the registers. -/

def execRspDataRead (x : I3cId) (bytes : Nat) (s : State) : Result := privateRead s x bytes
/-- DESIGN CHOICE, log entry 27. -/
def execLogDataRead (x : I3cId) (bytes : Nat) (s : State) : Result := privateRead s x bytes
def execLoRegisterRead (x : I3cId) (bytes : Nat) (s : State) : Result := privateRead s x bytes
def execPwrCountsRead (x : I3cId) (bytes : Nat) (s : State) : Result := privateRead s x bytes
def execCsiRxFaultsRead (x : I3cId) (bytes : Nat) (s : State) : Result := privateRead s x bytes
def execLnkErrorsRead (x : I3cId) (bytes : Nat) (s : State) : Result := privateRead s x bytes

end Sys2Proof.Machine
end

