-- ==== Sys2Proof/Machine/Dispatch.lean ====
section
/-! DEFINITION. The dispatch of the commands: one arm per constructor of `Instr`, each one call of its meaning. -/

namespace Sys2Proof.Machine

def exec (i : Instr) (s : State) : Host.Outcome State Fault Refusal :=
  match i with
  | .nop p q => Sys2Proof.Machine.execNop p q s
  | .sizeCopy p q => Sys2Proof.Machine.execSizeCopy p q s
  | .matmul p q => Sys2Proof.Machine.execMatmul p q s
  | .groupedMatmul p q => Sys2Proof.Machine.execGroupedMatmul p q s
  | .reduce p q => Sys2Proof.Machine.execReduce p q s
  | .attn p q => Sys2Proof.Machine.execAttn p q s
  | .dwconv p q => Sys2Proof.Machine.execDwconv p q s
  | .wgather p q => Sys2Proof.Machine.execWgather p q s
  | .poolMax p q => Sys2Proof.Machine.execPoolMax p q s
  | .poolMin p q => Sys2Proof.Machine.execPoolMin p q s
  | .globalAvg p q => Sys2Proof.Machine.execGlobalAvg p q s
  | .argmaxCh p q => Sys2Proof.Machine.execArgmaxCh p q s
  | .hbmRead p q => Sys2Proof.Machine.execHbmRead p q s
  | .hbmWrite p q => Sys2Proof.Machine.execHbmWrite p q s
  | .bankCopy p q => Sys2Proof.Machine.execBankCopy p q s
  | .hbmZero p q => Sys2Proof.Machine.execHbmZero p q s
  | .linkSend p q => Sys2Proof.Machine.execLinkSend p q s
  | .linkRecv p q => Sys2Proof.Machine.execLinkRecv p q s
  | .storeRead p q => Sys2Proof.Machine.execStoreRead p q s
  | .storeWrite p q => Sys2Proof.Machine.execStoreWrite p q s
  | .intakeChunk p => Sys2Proof.Machine.execIntakeChunk p s
  | .vctxSet p q => Sys2Proof.Machine.execVctxSet p q s
  | .vencFrame p q => Sys2Proof.Machine.execVencFrame p q s
  | .vdecFrame p q => Sys2Proof.Machine.execVdecFrame p q s
  | .gather p q => Sys2Proof.Machine.execGather p q s
  | .emit p q tokens => Sys2Proof.Machine.execEmit p q tokens s
  | .walkStage p cluster => Sys2Proof.Machine.execWalkStage p cluster s
  | .walkAppend p cluster => Sys2Proof.Machine.execWalkAppend p cluster s
  | .commandCompletion p cls inst => Sys2Proof.Machine.execCommandCompletion p cls inst s
  | .stepBoundary p inp => Sys2Proof.Machine.execStepBoundary p inp s
  | .checkpointComplete p => Sys2Proof.Machine.execCheckpointComplete p s
  | .stepExport p => Sys2Proof.Machine.execStepExport p s
  | .stepStall p => Sys2Proof.Machine.execStepStall p s
  | .hardStop c => Sys2Proof.Machine.execHardStop c s
  | .houseTurn p cluster => Sys2Proof.Machine.execHouseTurn p cluster s
  | .copyPhase p cluster => Sys2Proof.Machine.execCopyPhase p cluster s
  | .videoTurn p q => Sys2Proof.Machine.execVideoTurn p q s
  | .videoSlotBoundary d => Sys2Proof.Machine.execVideoSlotBoundary d s
  | .hbmScrub k corrected uncorrectable => Sys2Proof.Machine.execHbmScrub k corrected uncorrectable s
  | .keySweep k uncorrectable => Sys2Proof.Machine.execKeySweep k uncorrectable s
  | .clearComplete p => Sys2Proof.Machine.execClearComplete p s
  | .gloryHolePass c failStage => Sys2Proof.Machine.execGloryHolePass c failStage s
  | .teaserCycle r => Sys2Proof.Machine.execTeaserCycle r s
  | .floorMiss c => Sys2Proof.Machine.execFloorMiss c s
  | .coreHotDescent c => Sys2Proof.Machine.execCoreHotDescent c s
  | .descentEnd => Sys2Proof.Machine.execDescentEnd s
  | .pairSuspect c => Sys2Proof.Machine.execPairSuspect c s
  | .flowLow => Sys2Proof.Machine.execFlowLow s
  | .inletOut => Sys2Proof.Machine.execInletOut s
  | .coolantFlagClear => Sys2Proof.Machine.execCoolantFlagClear s
  | .overVoltage mv => Sys2Proof.Machine.execOverVoltage mv s
  | .regulatorFault rail deviation => Sys2Proof.Machine.execRegulatorFault rail deviation s
  | .supplyWarning mv => Sys2Proof.Machine.execSupplyWarning mv s
  | .supplyWarningEnd mv => Sys2Proof.Machine.execSupplyWarningEnd mv s
  | .supplyHold mv => Sys2Proof.Machine.execSupplyHold mv s
  | .stackSelfRefresh => Sys2Proof.Machine.execStackSelfRefresh s
  | .supplyHoldEnd => Sys2Proof.Machine.execSupplyHoldEnd s
  | .supplyReset => Sys2Proof.Machine.execSupplyReset s
  | .start inp => Sys2Proof.Machine.execStart inp s
  | .startTimeLockTimeout => Sys2Proof.Machine.execStartTimeLockTimeout s
  | .prsntLoss => Sys2Proof.Machine.execPrsntLoss s
  | .tamperLoopOpen => Sys2Proof.Machine.execTamperLoopOpen s
  | .lidTamper mesh => Sys2Proof.Machine.execLidTamper mesh s
  | .ephemeralKeyExpiry p => Sys2Proof.Machine.execEphemeralKeyExpiry p s
  | .timeSyncEdge reading cycles => Sys2Proof.Machine.execTimeSyncEdge reading cycles s
  | .quotaWindowTimeout port vc => Sys2Proof.Machine.execQuotaWindowTimeout port vc s
  | .identityBurst bits => Sys2Proof.Machine.execIdentityBurst bits s
  | .refclkLoss => Sys2Proof.Machine.execRefclkLoss s
  | .edgeMissing => Sys2Proof.Machine.execEdgeMissing s
  | .slewComplete => Sys2Proof.Machine.execSlewComplete s
  | .setdasa x static addr => Sys2Proof.Machine.execSetdasa x static addr s
  | .rstdaa x => Sys2Proof.Machine.execRstdaa x s
  | .getpid x => Sys2Proof.Machine.execGetpid x s
  | .getbcr x => Sys2Proof.Machine.execGetbcr x s
  | .getdcr x => Sys2Proof.Machine.execGetdcr x s
  | .getstatus x => Sys2Proof.Machine.execGetstatus x s
  | .setmwl f v => Sys2Proof.Machine.execSetmwl f v s
  | .getmwl x => Sys2Proof.Machine.execGetmwl x s
  | .setmrl f v => Sys2Proof.Machine.execSetmrl f v s
  | .getmrl x => Sys2Proof.Machine.execGetmrl x s
  | .getmxds x => Sys2Proof.Machine.execGetmxds x s
  | .rstactNoReset f => Sys2Proof.Machine.execRstactNoReset f s
  | .rstactPortReset f => Sys2Proof.Machine.execRstactPortReset f s
  | .rstactRecoveryEnd x => Sys2Proof.Machine.execRstactRecoveryEnd x s
  | .enec f => Sys2Proof.Machine.execEnec f s
  | .disec f => Sys2Proof.Machine.execDisec f s
  | .enthdr0 x => Sys2Proof.Machine.execEnthdr0 x s
  | .enthdr3 x => Sys2Proof.Machine.execEnthdr3 x s
  | .enthdrUnsupported x => Sys2Proof.Machine.execEnthdrUnsupported x s
  | .hdrExit x => Sys2Proof.Machine.execHdrExit x s
  | .readPointerSet x offset => Sys2Proof.Machine.execReadPointerSet x offset s
  | .registerWrite x offset data damaged => Sys2Proof.Machine.execRegisterWrite x offset data damaged s
  | .mbxCmdDataWrite x data => Sys2Proof.Machine.execMbxCmdDataWrite x data s
  | .mbxBulkDataWrite x data => Sys2Proof.Machine.execMbxBulkDataWrite x data s
  | .mbxPostCmd x => Sys2Proof.Machine.execMbxPostCmd x s
  | .mbxPostBulk x => Sys2Proof.Machine.execMbxPostBulk x s
  | .mbxTakeRsp x => Sys2Proof.Machine.execMbxTakeRsp x s
  | .mbxTakeLog x => Sys2Proof.Machine.execMbxTakeLog x s
  | .mbxAbortCmd x => Sys2Proof.Machine.execMbxAbortCmd x s
  | .mbxAbortBulk x => Sys2Proof.Machine.execMbxAbortBulk x s
  | .rspDataRead x bytes => Sys2Proof.Machine.execRspDataRead x bytes s
  | .logDataRead x bytes => Sys2Proof.Machine.execLogDataRead x bytes s
  | .dataRegisterRewind x offset => Sys2Proof.Machine.execDataRegisterRewind x offset s
  | .loRegisterRead x bytes => Sys2Proof.Machine.execLoRegisterRead x bytes s
  | .pwrCountsRead x bytes => Sys2Proof.Machine.execPwrCountsRead x bytes s
  | .csiRxFaultsRead x bytes => Sys2Proof.Machine.execCsiRxFaultsRead x bytes s
  | .lnkErrorsRead x bytes => Sys2Proof.Machine.execLnkErrorsRead x bytes s
  | .timeNextHiWrite x v => Sys2Proof.Machine.execTimeNextHiWrite x v s
  | .sessionOpen x => Sys2Proof.Machine.execSessionOpen x s
  | .leaseRenew x => Sys2Proof.Machine.execLeaseRenew x s
  | .detach x => Sys2Proof.Machine.execDetach x s
  | .leaseExpiry x => Sys2Proof.Machine.execLeaseExpiry x s
  | .identity x => Sys2Proof.Machine.execIdentity x s
  | .attestation x vaultBad => Sys2Proof.Machine.execAttestation x vaultBad s
  | .tallyRead x => Sys2Proof.Machine.execTallyRead x s
  | .sizeRead x => Sys2Proof.Machine.execSizeRead x s
  | .coreStatus x => Sys2Proof.Machine.execCoreStatus x s
  | .orderWindowResolve => Sys2Proof.Machine.execOrderWindowResolve s
  | .partAssign => Sys2Proof.Machine.execPartAssign s
  | .partLoad img => Sys2Proof.Machine.execPartLoad img s
  | .partArm supply => Sys2Proof.Machine.execPartArm supply s
  | .partStart => Sys2Proof.Machine.execPartStart s
  | .partStop => Sys2Proof.Machine.execPartStop s
  | .partUnload => Sys2Proof.Machine.execPartUnload s
  | .partRelease => Sys2Proof.Machine.execPartRelease s
  | .seedSet => Sys2Proof.Machine.execSeedSet s
  | .streamBind => Sys2Proof.Machine.execStreamBind s
  | .csiTimeout => Sys2Proof.Machine.execCsiTimeout s
  | .videoSlot => Sys2Proof.Machine.execVideoSlot s
  | .servingSettings => Sys2Proof.Machine.execServingSettings s
  | .cancel => Sys2Proof.Machine.execCancel s
  | .cancelPendingEntry => Sys2Proof.Machine.execCancelPendingEntry s
  | .adapterLoad => Sys2Proof.Machine.execAdapterLoad s
  | .coreFence => Sys2Proof.Machine.execCoreFence s
  | .coreReadmit => Sys2Proof.Machine.execCoreReadmit s
  | .replaySet => Sys2Proof.Machine.execReplaySet s
  | .pwrCap => Sys2Proof.Machine.execPwrCap s
  | .pwrDrainEnter => Sys2Proof.Machine.execPwrDrainEnter s
  | .pwrDrainLeave => Sys2Proof.Machine.execPwrDrainLeave s
  | .pwrQuench => Sys2Proof.Machine.execPwrQuench s
  | .pwrQuenchClear => Sys2Proof.Machine.execPwrQuenchClear s
  | .thmCoolant => Sys2Proof.Machine.execThmCoolant s
  | .thmSensorClear => Sys2Proof.Machine.execThmSensorClear s
  | .claimPair => Sys2Proof.Machine.execClaimPair s
  | .claimYield => Sys2Proof.Machine.execClaimYield s
  | .claimRaise => Sys2Proof.Machine.execClaimRaise s
  | .claimUnpair => Sys2Proof.Machine.execClaimUnpair s
  | .claimReenter => Sys2Proof.Machine.execClaimReenter s
  | .secKeyRelease vaultBad => Sys2Proof.Machine.execSecKeyRelease vaultBad s
  | .secIntake => Sys2Proof.Machine.execSecIntake s
  | .secRotate => Sys2Proof.Machine.execSecRotate s
  | .secReturnBegin => Sys2Proof.Machine.execSecReturnBegin s
  | .secReturnConfirm => Sys2Proof.Machine.execSecReturnConfirm s
  | .fwBeginBlocks x => Sys2Proof.Machine.execFwBeginBlocks x s
  | .fwBeginPull x => Sys2Proof.Machine.execFwBeginPull x s
  | .fwBlock x => Sys2Proof.Machine.execFwBlock x s
  | .fwEnd x => Sys2Proof.Machine.execFwEnd x s
  | .fwLoadTimeout => Sys2Proof.Machine.execFwLoadTimeout s
  | .fwActivateBoundary x => Sys2Proof.Machine.execFwActivateBoundary x s
  | .fwActivateRestart x => Sys2Proof.Machine.execFwActivateRestart x s
  | .deferredActivation => Sys2Proof.Machine.execDeferredActivation s
  | .fwWithdrawDeferred x => Sys2Proof.Machine.execFwWithdrawDeferred x s
  | .fwWithdrawLoad x => Sys2Proof.Machine.execFwWithdrawLoad x s
  | .evtCopy => Sys2Proof.Machine.execEvtCopy s
  | .evtCopyStop => Sys2Proof.Machine.execEvtCopyStop s
  | .evtMirror => Sys2Proof.Machine.execEvtMirror s
  | .logMessageFill x => Sys2Proof.Machine.execLogMessageFill x s
  | .mirrorFrame => Sys2Proof.Machine.execMirrorFrame s
  | .linkPlan => Sys2Proof.Machine.execLinkPlan s
  | .linkShare => Sys2Proof.Machine.execLinkShare s
  | .linkJob => Sys2Proof.Machine.execLinkJob s
  | .linkPortDisable => Sys2Proof.Machine.execLinkPortDisable s
  | .linkPortEnable => Sys2Proof.Machine.execLinkPortEnable s
  | .linkPortTest => Sys2Proof.Machine.execLinkPortTest s
  | .linkTestEnd port bitErrors laneErrors => Sys2Proof.Machine.execLinkTestEnd port bitErrors laneErrors s
  | .intervalTest port => Sys2Proof.Machine.execIntervalTest port s
  | .linkIngressCopy => Sys2Proof.Machine.execLinkIngressCopy s
  | .linkIngressBind => Sys2Proof.Machine.execLinkIngressBind s
  | .linkIngressRemove => Sys2Proof.Machine.execLinkIngressRemove s
  | .timeTrim => Sys2Proof.Machine.execTimeTrim s
  | .csiFrameStart port vc frame => Sys2Proof.Machine.execCsiFrameStart port vc frame s
  | .csiLongPacket port vc dt data crcOk hdrErrors => Sys2Proof.Machine.execCsiLongPacket port vc dt data crcOk hdrErrors s
  | .csiFrameEnd port vc frame => Sys2Proof.Machine.execCsiFrameEnd port vc frame s
  | .csiFrameTimeout port vc => Sys2Proof.Machine.execCsiFrameTimeout port vc s
  | .csiLaneSyncLoss port => Sys2Proof.Machine.execCsiLaneSyncLoss port s
  | .csiLaneSyncRegained port => Sys2Proof.Machine.execCsiLaneSyncRegained port s
  | .csiGenericShortPacket port dt => Sys2Proof.Machine.execCsiGenericShortPacket port dt s
  | .emitFrameSend p stream => Sys2Proof.Machine.execEmitFrameSend p stream s
  | .envelopeReceive port e => Sys2Proof.Machine.execEnvelopeReceive port e s
  | .calendarTurn port => Sys2Proof.Machine.execCalendarTurn port s
  | .keyAgreementStart p => Sys2Proof.Machine.execKeyAgreementStart p s
  | .kaHello => Sys2Proof.Machine.execKaHello s
  | .kaReply => Sys2Proof.Machine.execKaReply s
  | .kaConfirm => Sys2Proof.Machine.execKaConfirm s
  | .kaRetryTimeout p peer => Sys2Proof.Machine.execKaRetryTimeout p peer s
  | .kaRetryInterval p peer => Sys2Proof.Machine.execKaRetryInterval p peer s
  | .jobKeyRekey p peer => Sys2Proof.Machine.execJobKeyRekey p peer s
  | .oldKeyidExpiry p peer => Sys2Proof.Machine.execOldKeyidExpiry p peer s
  | .gcmFailTeardown p peer => Sys2Proof.Machine.execGcmFailTeardown p peer s
  | .ringCredit => Sys2Proof.Machine.execRingCredit s
  | .jobData => Sys2Proof.Machine.execJobData s
  | .ingressCopy => Sys2Proof.Machine.execIngressCopy s
  | .decisionPart => Sys2Proof.Machine.execDecisionPart s
  | .snapshotSection => Sys2Proof.Machine.execSnapshotSection s
  | .snapshotJournal => Sys2Proof.Machine.execSnapshotJournal s
  | .reentryRequest => Sys2Proof.Machine.execReentryRequest s
  | .storeRdData => Sys2Proof.Machine.execStoreRdData s
  | .storeWrAck => Sys2Proof.Machine.execStoreWrAck s
  | .storeErr => Sys2Proof.Machine.execStoreErr s
  | .storeRequestTimeout => Sys2Proof.Machine.execStoreRequestTimeout s
  | .trainingRetry port => Sys2Proof.Machine.execTrainingRetry port s
  | .trainingTimeout port => Sys2Proof.Machine.execTrainingTimeout port s
  | .partnerIdentity port inp => Sys2Proof.Machine.execPartnerIdentity port inp s
  | .slowPartner port => Sys2Proof.Machine.execSlowPartner port s
  | .slowPartnerRetrain port => Sys2Proof.Machine.execSlowPartnerRetrain port s
  | .faultyPartner port => Sys2Proof.Machine.execFaultyPartner port s
  | .heartbeatTimer p => Sys2Proof.Machine.execHeartbeatTimer p s
  | .heartbeatReceive h => Sys2Proof.Machine.execHeartbeatReceive h s
  | .holderLost p => Sys2Proof.Machine.execHolderLost p s
  | .followerUnmatched p => Sys2Proof.Machine.execFollowerUnmatched p s
  | .vectorCommand p q v => Sys2Proof.Machine.execVectorCommand p q v s
  | .signalDetect port => Sys2Proof.Machine.execSignalDetect port s
  | .fecLock port challenge => Sys2Proof.Machine.execFecLock port challenge s
  | .refclkReturn => Sys2Proof.Machine.execRefclkReturn s
  | .prsntMate => Sys2Proof.Machine.execPrsntMate s
  | .holdLevelLeft mv => Sys2Proof.Machine.execHoldLevelLeft mv s
  | .peerRxSyncLost => Sys2Proof.Machine.execPeerRxSyncLost s
  | .peerRxSyncGained => Sys2Proof.Machine.execPeerRxSyncGained s

end Sys2Proof.Machine
end

