-- ==== Sys2Proof/Machine/Step.lean ====
section
/-! DEFINITION. One step of the block: the command at the front of the queue, or, on an empty queue, one nanosecond of
time (DESIGN CHOICE, log entry 1). -/

namespace Sys2Proof.Machine

/-- One step. DESIGN CHOICE, log entry 1. DESIGN CHOICE, log entry 118. DESIGN CHOICE, log entry 124. -/
def step (s : State) : Host.Outcome State Fault Refusal :=
  match s.pending with
  | [] => .next { s with now := s.now + 1 }
  | i :: rest => exec i { s with pending := rest }

/-- `s` with the command that a table word spells at the front of its queue. DESIGN CHOICE, log entry 117. -/
def State.withFetchWord (s : State) (nbits w : Nat) : State :=
  match decodeTableWord nbits w with
  | some i => { s with pending := i :: s.pending }
  | none => s

end Sys2Proof.Machine
end

