-- ==== Sys2Proof/Safety.lean ====
section
/-! DEFINITION. What claims speak of: the outcome of a command, the message or order that a row acts on, and the invariant of memory.
A run is safe when no step of it faults or is refused. -/

namespace Sys2Proof.Machine

/-- The outcome is a next state. -/
def runs (o : Result) : Prop := ∃ t, o = .next t

/-- The block's invariant: its memory has the canonical form (Machine/Ops.lean). -/
def memoryInv (s : State) : Prop := memWf s.mem = true

/-- `t` is the oldest order of the block that waits to take effect, and it is of type `typ`; `rest` are those behind it (11 R302, R303). -/
def firstDue (s : State) (typ : Nat) (t : Taken) (rest : List Taken) : Prop := s.orders.due = t :: rest ∧ t.msg.typ = typ

/-- `t` is the oldest message taken that waits for its row, from port `x` and of type `typ`; `rest` are those behind it (11 R296). -/
def firstTaken (s : State) (x : I3cId) (typ : Nat) (t : Taken) (rest : List Taken) : Prop :=
  s.orders.taken = t :: rest ∧ t.port = x ∧ t.msg.typ = typ

/-- `s` once the order or the message that a row acts on has left its list. -/
def State.withDue (s : State) (rest : List Taken) : State := s.modOrders (fun o => { o with due := rest })
def State.withTaken (s : State) (rest : List Taken) : State := s.modOrders (fun o => { o with taken := rest })

/-- No logical stream is bound twice in one direction (10 R270). -/
def bindingsOnce (s : State) : Prop :=
  s.csi.bindings.Pairwise (fun a b => ¬(a.part = b.part ∧ a.stream = b.stream ∧ a.transmit = b.transmit))

/-! ## Engine commands -/

/-- The due command `d` of queue `q` starts: its turn has come in a running step, its tally condition holds, no house turn and no ordered
copy of its cluster waits, and what its instance wrote to channels has been accepted (02 R44, R48; 04 R100; 05 R144; 07 R212). -/
def engineStarts (s : State) (p : PartId) (q cls opcode : Nat) (d : Due) : Prop :=
  dueCommand s p q cls opcode = some d ∧ tallyReady (s.part p) d.record = true ∧
  (cls = 5 → headPending (s.part p) d.desc.inst = false) ∧ chanBlocked (s.part p) cls d.desc.inst = false

/-- `b` is the bank of the command's logical core that an operand of `bytes` bytes at `off` lies in, whole, and the command's master
owns it (02 R48, 04 R103, 05 R128). -/
def coreBankServes (s : State) (d : Due) (bank bytes off : Nat) (b : Fin 288) : Prop :=
  physBank s (s.part d.p) (d.desc.inst / 8) (4 * (d.desc.inst % 8) + bank) = some b ∧ off + bytes ≤ bankSize ∧
  ownedBy s d.p b d.desc.cls 0 = true

/-- An operand of `bytes` bytes is there: in a bank that serves, or on a channel that holds its whole items; `pl` is what is read and
`t` the state once it is taken, or once the bit errors that its read met are found (04 R100, R103; 05 R155). -/
def sourceServes (s : State) (d : Due) (r : TRef) (bytes : Nat) (pl : Plane) (t : State) : Prop :=
  (r.kind = 0 ∧ (∃ b, coreBankServes s d r.bank bytes r.off b ∧ pl = bankPlane s b r.off ∧ t = meetBank s (bankAddr b r.off) bytes)) ∨
  (r.kind ≠ 0 ∧ chanReady (s.part d.p) (r.off % 4096) (round64 bytes) = true ∧
    pl = bytesPlane ((chanRt (s.part d.p) (r.off % 4096)).bytes.take (round64 bytes))
          ((chanRt (s.part d.p) (r.off % 4096)).poison.take (round64 bytes / 64)) ∧
    t = s.setPart d.p (chanTake (s.part d.p) (r.off % 4096) (round64 bytes)))

/-- A result of `bytes` bytes has its place: a bank that serves, or room on its channel (04 R100, R103). -/
def sinkServes (s : State) (d : Due) (r : TRef) (bytes : Nat) : Prop :=
  (r.kind = 0 ∧ ∃ b, coreBankServes s d r.bank bytes r.off b) ∨ (r.kind ≠ 0 ∧ chanRoom (s.part d.p) (r.off % 4096) = true)

/-- All that a command reads is there: its banks serve, and what it reads from channels has come in whole (04 R100, R103). -/
def readsServe (s : State) (d : Due) (rs : List (TRef × Nat)) : Prop := gatherReads s d rs = .ok ()

/-- `b` is the bank that a transfer reference names, whole, and the command reaches it: as its owner, or through the observer port where
the reference says so (05 R136, R141). -/
def transferServes (s : State) (d : Due) (r : BankRef) (bytes : Nat) (b : Fin 288) : Prop :=
  physBank s (s.part d.p) d.desc.inst r.bank = some b ∧ r.off + bytes ≤ bankSize ∧
  (if r.observer then (s.owner b).observer = 1 else ownedBy s d.p b 5 0 = true)

/-- `k` is the cluster of a transfer command, its stack awake and the range inside the partition's space (05 R140, 14 R393). -/
def stackServes (s : State) (d : Due) (off bytes : Nat) (k : ClusterId) : Prop :=
  physCluster (s.part d.p) d.desc.inst = some k ∧ off + bytes ≤ partSpace ∧ (s.cluster k).selfRefresh = false

/-! ## Boundaries -/

/-- A live boundary of an unpaired partition that serves no sequence: nothing waits to be decided but seeds, firmware versions, the checkpoint
and the epoch, no core is to be fenced, checked or readmitted, and nothing stops or holds it (01 R21; 04 R126). -/
def quietBoundary (s : State) (p : PartId) (img : Image) (l : Layout) : Prop :=
  let x := s.part p
  x.released = false ∧ x.restored = false ∧ x.replay = false ∧ x.catchUp = none ∧ x.claim.paired = false ∧ x.claim.leader = false ∧
  x.claim.role ≠ .gloryHole ∧ stopDue s x = false ∧ x.tallySat = false ∧ x.paced = false ∧
  x.image = some img ∧ img.kv = none ∧ img.layouts[x.layout]? = some l ∧ l.carried = [] ∧
  x.seqs = [] ∧ x.cancels = [] ∧ x.journal = [] ∧ x.adapters = [] ∧ x.pausedStack = [] ∧ x.settingsNext = [] ∧ x.rotateWanted = none ∧
  ∀ c ∈ partCores x, (s.core c).state = .inService ∧ (s.core c).checkDue = false

/-- Nothing stops or holds the boundary that a partition comes to, and no end of a replay or of a catch-up: it decides it, or waits for a part of
its leader's (01 R21; 13 R359). -/
def decidesNext (s : State) (p : PartId) : Prop :=
  let x := s.part p
  x.released = false ∧ x.restored = false ∧ stopDue s x = false ∧ s.power.state ≠ .drain ∧ x.tallySat = false ∧ x.paced = false ∧
  leaderGone x.claim = false ∧ (∀ t, x.catchUp = some t → x.step ≤ t) ∧ (∀ r, x.replaySet = some r → x.replay = true → x.step ≤ r.last)

end Sys2Proof.Machine
end

