-- ==== Sys2Proof/Certificates/Slice0/Obligations.lean ====
section
/-! DEFINITION. The statements about the model. Each docstring gives the rules of spec/ that its statement formalises; a clause that is
the model's choice names its log entry. -/

open Sys2Proof Sys2Proof.Machine

/-- O1. For every command c, every list of waiting commands and every state s, the step of s with c at the front of its queue is exec of c on
s with the queue's rest; and the step of a state whose queue is empty answers that state with its time one nanosecond later. The queue,
and that an idle step is one nanosecond of the time that the counter of R345 counts, are the model's form of a block that takes commands
(DESIGN CHOICE, log entry 1). [derived: spec/opcode_table.json, 00_scope.md, R345] -/
def Obligations.StepRunsFrontCommand : Prop :=
  (∀ (c : Instr) (rest : List Instr) (s : State), step { s with pending := c :: rest } = exec c { s with pending := rest }) ∧
  (∀ (s : State), s.pending = [] → step s = .next { s with now := s.now + 1 })

/-- O2. For every port x and state s in which the port acknowledges (it hears its bus, no recovery runs, it has a dynamic address), GETPID,
GETBCR, GETDCR, GETMWL, GETMRL, GETMXDS and GETSTATUS answer the state that differs from s in the bytes driven, and for GETSTATUS in the
cleared protocol-error bit. The PID is the manufacturer 0x01D3, part 0x7648, instance x and the place number; lengths go most significant
byte first. Every register, flag and byte of memory else is unchanged. A port that does not acknowledge drives nothing on GETPID,
GETSTATUS, a read-pointer write and a private read: everything but the missing acknowledgement is as it was. [derived:
11_i3c_control_plane.md, R288, R289] -/
def Obligations.I3cGetsDriveTheirBytes : Prop :=
  ∀ (x : I3cId) (s : State), (portAcks s x = true →
    exec (.getpid x) s = .next { s with out := s.out ++ [.i3cData x (beBytes 6 (0x01D3 * 2 ^ 33 + 0x7648 * 2 ^ 16 + x.val * 2 ^ 12 + s.place))] } ∧
    exec (.getbcr x) s = .next { s with out := s.out ++ [.i3cData x [0x01]] } ∧
    exec (.getdcr x) s = .next { s with out := s.out ++ [.i3cData x [0x00]] } ∧
    exec (.getmwl x) s = .next { s with out := s.out ++ [.i3cData x (beBytes 2 (s.port x).mwl)] } ∧
    exec (.getmrl x) s = .next { s with out := s.out ++ [.i3cData x (beBytes 2 (s.port x).mrl)] } ∧
    exec (.getmxds x) s = .next { s with out := s.out ++ [.i3cData x [0x00, 0x00, 0x14, 0x00, 0x00]] } ∧
    exec (.getstatus x) s = .next { s.setPort x { s.port x with protoErr := false } with
      out := s.out ++ [.i3cData x [BitVec.ofNat 8 (idState s), BitVec.ofNat 8 (32 * bit (s.port x).protoErr)]] }) ∧
    (∀ (offset bytes : Nat), portAcks s x = false →
      exec (.getpid x) s = .next { s with out := s.out ++ [.i3cNack x] } ∧
      exec (.getstatus x) s = .next { s with out := s.out ++ [.i3cNack x] } ∧
      exec (.readPointerSet x offset) s = .next { s with out := s.out ++ [.i3cNack x] } ∧
      exec (.pwrCountsRead x bytes) s = .next { s with out := s.out ++ [.i3cNack x] })

/-- O3. For every port x that hears its bus: SETDASA at the static address 0x08 + SLOT_ID with a 7-bit address other than 0 gives the dynamic
address to a port that has none and is not in recovery, and is not acknowledged by one that has an address or is in recovery; RSTDAA takes
the address away. SETMWL with a value of 6 to 4,098 and SETMRL with a value of 4 to 4,096 set the length, and any other value leaves the
state as it was, as a broadcast, and as a direct CCC where the port acknowledges; a direct one to a port that does not acknowledge drives
only the missing acknowledgement. Only the field named and the acknowledgement driven change. [derived: 11_i3c_control_plane.md, R288,
R289] -/
def Obligations.I3cAddressAndLengths : Prop :=
  ∀ (x : I3cId) (s : State) (addr v : Nat), portHears s x = true →
    (recovering s x = false → (s.port x).dynAddr = none → 0 < addr → addr < 128 →
      exec (.setdasa x (0x08 + s.fuses.slot) addr) s =
        .next { s.setPort x { s.port x with dynAddr := some addr } with out := s.out ++ [.i3cAck x] }) ∧
    (recovering s x = true ∨ (s.port x).dynAddr ≠ none →
      exec (.setdasa x (0x08 + s.fuses.slot) addr) s = .next { s with out := s.out ++ [.i3cNack x] }) ∧
    exec (.rstdaa x) s = .next (s.setPort x { s.port x with dynAddr := none }) ∧
    (∀ f : CccForm, f.port = x → (f.direct = true → portAcks s x = true) →
      (6 ≤ v → v ≤ 4098 → exec (.setmwl f v) s = .next (s.setPort x { s.port x with mwl := v })) ∧
      (4 ≤ v → v ≤ 4096 → exec (.setmrl f v) s = .next (s.setPort x { s.port x with mrl := v })) ∧
      (v < 6 ∨ 4098 < v → exec (.setmwl f v) s = .next s) ∧
      (v < 4 ∨ 4096 < v → exec (.setmrl f v) s = .next s)) ∧
    (∀ f : CccForm, f.port = x → f.direct = true → portAcks s x = false →
      exec (.setmwl f v) s = .next { s with out := s.out ++ [.i3cNack x] } ∧ exec (.setmrl f v) s = .next { s with out := s.out ++ [.i3cNack x] })

/-- O4. For every port x that hears its bus: as broadcasts, and as direct CCCs where the port acknowledges, RSTACT 0x00, ENEC and DISEC are
acknowledged and change nothing, and RSTACT 0x01 discards unposted words, rewinds the read pointer and both data registers and begins a
recovery of 1 ms; RSTACT with any other defining byte, and a direct form of any of the four to a port that does not acknowledge, drive
only the missing acknowledgement. ENTHDR0 and ENTHDR3 enter HDR-DDR and HDR-BT; another ENTHDR silences the port. The HDR exit pattern
returns any port of a powered module to SDR, a silenced one too, and the end of the recovery, at its instant, lets the port listen again.
[derived: 11_i3c_control_plane.md, R289] -/
def Obligations.I3cModesAndPortReset : Prop :=
  ∀ (x : I3cId) (s : State), portHears s x = true →
    (∀ f : CccForm, f.port = x → (f.direct = true → portAcks s x = true) →
      exec (.rstactNoReset { port := x, direct := f.direct, defining := 0 }) s = .next { s with out := s.out ++ [.i3cAck x] } ∧
      exec (.enec f) s = .next { s with out := s.out ++ [.i3cAck x] } ∧
      exec (.disec f) s = .next { s with out := s.out ++ [.i3cAck x] } ∧
      exec (.rstactPortReset f) s = .next { s.setPort x { s.port x with
        cmd := if (s.port x).cmdFull then (s.port x).cmd else []
        bulk := if (s.port x).bulkFull then (s.port x).bulk else []
        pointer := 0
        rspAt := 0
        logAt := 0
        recoverAt := some (s.now + 1000000) } with out := s.out ++ [.i3cAck x] }) ∧
    (∀ f : CccForm, f.port = x → f.direct = true → portAcks s x = false →
      exec (.rstactNoReset { port := x, direct := true, defining := 0 }) s = .next { s with out := s.out ++ [.i3cNack x] } ∧
      exec (.enec f) s = .next { s with out := s.out ++ [.i3cNack x] } ∧
      exec (.disec f) s = .next { s with out := s.out ++ [.i3cNack x] } ∧
      exec (.rstactPortReset f) s = .next { s with out := s.out ++ [.i3cNack x] }) ∧
    (∀ f : RstactForm, f.port = x → f.defining ≠ 0 → exec (.rstactNoReset f) s = .next { s with out := s.out ++ [.i3cNack x] }) ∧
    exec (.enthdr0 x) s = .next (s.setPort x { s.port x with mode := .hdrDdr }) ∧
    exec (.enthdr3 x) s = .next (s.setPort x { s.port x with mode := .hdrBt }) ∧
    exec (.enthdrUnsupported x) s = .next (s.setPort x { s.port x with mode := .silent }) ∧
    (∀ u : State, u.power.state ≠ .off → exec (.hdrExit x) u = .next (u.setPort x { u.port x with mode := .sdr })) ∧
    (∀ (u : State) (at_ : Ns), (u.port x).recoverAt = some at_ →
      exec (.rstactRecoveryEnd x) u = .next ({ u with now := max u.now at_ }.setPort x { u.port x with recoverAt := none }))

/-- O5. For every port x that acknowledges: a write of an aligned offset alone, not of a data register, sets the read pointer and its instant;
a misaligned write is counted malformed and does nothing else; a damaged write sets the protocol-error bit alone; one word to TIME_NEXT_LO
is kept for the commit; the whole words of a write to the command or bulk buffer, empty or not posted, join it while they fit 4,096 bytes,
and one word too many or to a posted buffer is counted as an overrun alone; ABORT empties an unposted buffer; TAKE removes the head
response when no post waits, frees an urgent log message, and for a copied one also moves the cursor past its records and counts them
taken; a rewind of RSP_DATA or LOG_DATA returns it to its first word; a write of TIME_NEXT_HI between 100 ms and 900 ms after an edge
commits it with NEXT_LO, and at another time is only counted. A port that does not acknowledge only drives the missing acknowledgement.
The next state named is all that changes. [derived: 11_i3c_control_plane.md, R290, R292, R296, R299, R346] -/
def Obligations.RegisterWritesReachTheirRegisters : Prop :=
  ∀ (x : I3cId) (s : State) (offset : Nat) (data : Bytes) (b0 b1 b2 b3 : Byte) (v : BitVec 32),
    (portAcks s x = true →
      (offset < 65536 → offset % 4 = 0 → offset ≠ 0x0218 → offset ≠ 0x021C →
        exec (.readPointerSet x offset) s = .next (s.setPort x { s.port x with pointer := offset, pointerAt := some s.now })) ∧
      (offset < 65536 → offset % 4 ≠ 0 →
        exec (.registerWrite x offset data false) s =
          .next (s.setPort x { s.port x with malformed := min ((s.port x).malformed + 1) 255 })) ∧
      exec (.registerWrite x offset data true) s = .next (s.setPort x { s.port x with protoErr := true }) ∧
      (5 ≤ s.fw.startStep → exec (.registerWrite x 0x0610 [b0, b1, b2, b3] false) s =
        .next (s.setPort x { s.port x with nextLo := BitVec.ofNat 32 (leNat [b0, b1, b2, b3]) })) ∧
      exec (.dataRegisterRewind x 0x0218) s =
        .next (s.setPort x { s.port x with pointer := 0x0218, pointerAt := some s.now, rspAt := 0 }) ∧
      exec (.dataRegisterRewind x 0x021C) s =
        .next (s.setPort x { s.port x with pointer := 0x021C, pointerAt := some s.now, logAt := 0 }) ∧
      (data ≠ [] → (s.port x).cmdFull = false → (s.port x).cmd.length + data.length ≤ 4096 →
        exec (.mbxCmdDataWrite x data) s =
          .next (s.setPort x { s.port x with cmd := (s.port x).cmd ++ data.take (4 * (data.length / 4)) })) ∧
      (data ≠ [] → (s.port x).bulkFull = false → (s.port x).bulk.length + data.length ≤ 4096 →
        exec (.mbxBulkDataWrite x data) s =
          .next (s.setPort x { s.port x with bulk := (s.port x).bulk ++ data.take (4 * (data.length / 4)) })) ∧
      ((s.port x).cmdFull = true ∨ 4092 < (s.port x).cmd.length → exec (.mbxCmdDataWrite x [b0, b1, b2, b3]) s =
        .next (s.setPort x { s.port x with overrun := min ((s.port x).overrun + 1) 255 })) ∧
      ((s.port x).bulkFull = true ∨ 4092 < (s.port x).bulk.length → exec (.mbxBulkDataWrite x [b0, b1, b2, b3]) s =
        .next (s.setPort x { s.port x with overrun := min ((s.port x).overrun + 1) 255 })) ∧
      ((s.port x).cmdFull = false → exec (.mbxAbortCmd x) s = .next (s.setPort x { s.port x with cmd := [] })) ∧
      ((s.port x).bulkFull = false → exec (.mbxAbortBulk x) s = .next (s.setPort x { s.port x with bulk := [] })) ∧
      (∀ r rs, (s.port x).responses = r :: rs → (s.port x).cmdFull = false → (s.port x).bulkFull = false →
        exec (.mbxTakeRsp x) s = .next (s.setPort x { s.port x with responses := rs, rspAt := 0 })) ∧
      (∀ first n bytes, (s.port x).log = some (true, first, n, bytes) →
        exec (.mbxTakeLog x) s = .next (s.setPort x { s.port x with log := none, logAt := 0 })) ∧
      (∀ first n bytes, (s.port x).log = some (false, first, n, bytes) →
        exec (.mbxTakeLog x) s = .next ((s.setPort x { s.port x with log := none, logAt := 0, cursor := first + n }).modEvents (fun e => { e with
          takenUpTo := rangeAdd e.takenUpTo first (first + n)
          copied := max e.copied (first + n) }))) ∧
      (5 ≤ s.fw.startStep → commitValid s = true →
        exec (.timeNextHiWrite x v) s =
          .next (s.setPort x { s.port x with commit := some (v.toNat * 2 ^ 32 + (s.port x).nextLo.toNat) })) ∧
      (5 ≤ s.fw.startStep → commitValid s = false →
        exec (.timeNextHiWrite x v) s = .next { s with time := { s.time with annBad := min (s.time.annBad + 1) 255 } })) ∧
    (portAcks s x = false → ∀ c ∈ [Instr.readPointerSet x offset, .registerWrite x offset data false, .registerWrite x offset data true,
      .dataRegisterRewind x 0x0218, .dataRegisterRewind x 0x021C, .mbxCmdDataWrite x data, .mbxBulkDataWrite x data, .mbxAbortCmd x, .mbxAbortBulk x,
      .mbxTakeRsp x, .mbxTakeLog x, .timeNextHiWrite x v], exec c s = .next { s with out := s.out ++ [.i3cNack x] })

/-- O6. For every port x that acknowledges, with the other mailbox not posted: a post of the command or the bulk buffer is taken at once, or
at the end of a switch window that is open, while fewer than 15 responses are queued or owed: the next state is that of takePost, in which
the buffer is empty and not posted, POSTED counts one more, and no partition and no byte of memory has changed; with 15 or more queued or
owed the post waits, the buffer posted, and nothing else but the time that the window takes changes. A port that does not acknowledge only
drives the missing acknowledgement. That the module takes a post at once is the model's choice (DESIGN CHOICE, log entry 33). [derived:
11_i3c_control_plane.md, 16_start_and_firmware.md, R296, R297, R447] -/
def Obligations.PostsAreTakenOrWait : Prop :=
  ∀ (x : I3cId) (s w : State), w = (match s.fw.windowEnd with | some e => { s with now := max s.now e } | none => s) →
    (portAcks s x = true →
      ((s.port x).bulkFull = false → (s.port x).responses.length + (s.port x).owed < 15 →
        ∃ t, exec (.mbxPostCmd x) s = .next t ∧ t = takePost (w.setPort x { s.port x with cmdFull := true }) x false ∧
          (t.port x).cmdFull = false ∧ (t.port x).cmd = [] ∧ (t.port x).posted = (s.port x).posted + 1 ∧ t.mem = s.mem ∧ t.parts = s.parts) ∧
      ((s.port x).cmdFull = false → (s.port x).responses.length + (s.port x).owed < 15 →
        ∃ t, exec (.mbxPostBulk x) s = .next t ∧ t = takePost (w.setPort x { s.port x with bulkFull := true }) x true ∧
          (t.port x).bulkFull = false ∧ (t.port x).bulk = [] ∧ (t.port x).posted = (s.port x).posted + 1 ∧ t.mem = s.mem ∧ t.parts = s.parts) ∧
      (15 ≤ (s.port x).responses.length + (s.port x).owed →
        exec (.mbxPostCmd x) s = .next (w.setPort x { s.port x with cmdFull := true }) ∧
        exec (.mbxPostBulk x) s = .next (w.setPort x { s.port x with bulkFull := true }))) ∧
    (portAcks s x = false → exec (.mbxPostCmd x) s = .next { s with out := s.out ++ [.i3cNack x] } ∧
      exec (.mbxPostBulk x) s = .next { s with out := s.out ++ [.i3cNack x] })

/-- O7. For every port x: a read row whose port acknowledges, 20 µs after its pointer was set, drives the bytes of the registers from the
pointer on, up to the maximum read length, and leaves what readRegs leaves; one whose port does not acknowledge, or sooner, drives only
the missing acknowledgement. With the firmware running and a maximum read length of at least 4, a read of 4 bytes returns the little-
endian value of the register at the pointer and moves the pointer past it: at PWR_COUNTS, CSI_RX_n_FAULTS and LNK_n_ERRORS the counts are
cleared in the block that both ports read; at a LO register the port's latch takes the HI value; at RSP_DATA and LOG_DATA the next word of
the message comes and the pointer stays. The next states named are all that changes. That a row of one name reads whatever register the
pointer names is the model's form (DESIGN CHOICE, log entry 27), and that a read of part of a register counts as a read of it is its
choice (DESIGN CHOICE, log entry 28). [derived: 18_register_window_index.md, R289, R291, R293, R470, R472] -/
def Obligations.ReadsReturnAndClear : Prop :=
  ∀ (x : I3cId) (s : State),
    (∀ (bytes n : Nat) (r : Bytes × State), n = min bytes (s.port x).mrl → r = readRegs (ceilDiv n 4) s x (s.port x).pointer →
      ∀ c ∈ [Instr.rspDataRead x bytes, .logDataRead x bytes, .loRegisterRead x bytes, .pwrCountsRead x bytes, .csiRxFaultsRead x bytes, .lnkErrorsRead x bytes],
        (portAcks s x = true → pointerReady s x = true → exec c s = .next (r.2.emit (.i3cData x (r.1.take n)))) ∧
        (portAcks s x = false ∨ pointerReady s x = false → exec c s = .next { s with out := s.out ++ [.i3cNack x] })) ∧
    (portAcks s x = true → pointerReady s x = true → 5 ≤ s.fw.startStep → 4 ≤ (s.port x).mrl →
    ((s.port x).pointer = 0x0818 →
      exec (.pwrCountsRead x 4) s = .next (({ s with power := { s.power with sheds := 0, supplyHolds := 0, descents := 0, quenches := 0 } }.setPort x
        { s.port x with pointer := 0x081C }).emit (.i3cData x (leBytes 4 (regLive s x 0x0818))))) ∧
    (∀ n : PortId, (s.port x).pointer = 0x104C + 0x10 * n.val →
      exec (.csiRxFaultsRead x 4) s = .next (((s.modRx n (fun r => { r with hdrDiscard := 0, badLine := 0, timeout := 0, tagFail := 0 })).setPort x
        { s.port x with pointer := 0x1050 + 0x10 * n.val }).emit (.i3cData x (leBytes 4 (regLive s x (0x104C + 0x10 * n.val)))))) ∧
    (∀ n : PortId, (s.port x).pointer = 0x1248 + 0x10 * n.val →
      exec (.lnkErrorsRead x 4) s = .next (((s.modLink n (fun l => { l with naks := 0, fecUncorr := 0, discards := 0, gcmFail := 0 })).setPort x
        { s.port x with pointer := 0x124C + 0x10 * n.val }).emit (.i3cData x (leBytes 4 (regLive s x (0x1248 + 0x10 * n.val)))))) ∧
    (∀ off, (s.port x).pointer = off → isLo off = true →
      exec (.loRegisterRead x 4) s = .next ((s.setPort x { s.port x with
        latches := assocSet off (BitVec.ofNat 32 (regLive s x (off + 4))) (s.port x).latches
        pointer := off + 4 }).emit (.i3cData x (leBytes 4 (regLive s x off))))) ∧
    ((s.port x).pointer = 0x0218 → (s.port x).responses ≠ [] →
      exec (.rspDataRead x 4) s = .next ((s.setPort x { s.port x with rspAt := (s.port x).rspAt + 1 }).emit
        (.i3cData x (leBytes 4 (fieldAt (headResponse (s.port x)) (4 * (s.port x).rspAt) 4))))) ∧
    ((s.port x).pointer = 0x021C → (s.port x).log ≠ none →
      exec (.logDataRead x 4) s = .next ((s.setPort x { s.port x with logAt := (s.port x).logAt + 1 }).emit
        (.i3cData x (leBytes 4 (fieldAt (logBytes (s.port x)) (4 * (s.port x).logAt) 4))))))

/-- O8. For every port x and partition p and every state s in which the port acknowledges with the firmware running, its pointer at
PART_p_STEP_LO and set 20 µs before: the read of 4 bytes returns bits 31:0 of the partition's step number and answers a state u; and in
every state v whose port x still has the latches of u, whatever the partition's step number is by then, a read of PART_p_STEP_HI from port
x returns bits 63:32 of the step number at the read of LO. The two reads together give the 64-bit step number of the first. [stated: R64] -/
def Obligations.StepNumberReadsWhole : Prop :=
  ∀ (x : I3cId) (p : PartId) (s : State), portAcks s x = true → pointerReady s x = true → 5 ≤ s.fw.startStep → 4 ≤ (s.port x).mrl →
    (s.port x).pointer = 0x0C4C + 0x20 * p.val → (s.part p).step < 2 ^ 64 →
    ∃ u, exec (.loRegisterRead x 4) s = .next u ∧ u.out = s.out ++ [.i3cData x (leBytes 4 ((s.part p).step % 2 ^ 32))] ∧
      ∀ v : State, portAcks v x = true → pointerReady v x = true → 5 ≤ v.fw.startStep → 4 ≤ (v.port x).mrl →
        (v.port x).pointer = 0x0C50 + 0x20 * p.val → (v.port x).latches = (u.port x).latches →
        ∃ w, exec (.loRegisterRead x 4) v = .next w ∧ w.out = v.out ++ [.i3cData x (leBytes 4 ((s.part p).step / 2 ^ 32))]

/-- O9. For every port x and state s: every offset from 0x2000 upward, the reserved offsets between two blocks' registers named here, and the
write-only registers of MBX and TIME read as zero; and a write of one word to an aligned offset from 0x2000 upward, to a reserved offset
or to a register that is read-only leaves the state as it was. [derived: 18_register_window_index.md, R469] -/
def Obligations.ReservedOffsetsReadZero : Prop :=
  ∀ (x : I3cId) (s : State) (off v : Nat),
    (0x2000 ≤ off → regLive s x off = 0 ∧ regWrite s x off v = s) ∧
    (off ∈ [0x001C, 0x0204, 0x0208, 0x020C, 0x0210, 0x0214, 0x0224, 0x0424, 0x0610, 0x0614, 0x0620, 0x081C, 0x0A28, 0x0C04, 0x0E04, 0x100C, 0x1210, 0x1410, 0x145C,
      0x160C, 0x180C, 0x1A24, 0x1C1C, 0x1EF0] → regLive s x off = 0) ∧
    (off ∈ [0x0000, 0x0018, 0x0200, 0x0218, 0x0400, 0x0600, 0x0800, 0x0818, 0x0A00, 0x0C40, 0x0E40, 0x1004, 0x104C, 0x1204, 0x1248, 0x1440, 0x1600, 0x1800, 0x1A00,
      0x1C00, 0x1E00, 0x001C, 0x1EF0] → regWrite s x off v = s)

/-- O10. For every port x whose oldest waiting message is of the type named: SESSION_OPEN with the running interface generation opens a
session with the next number and the lease asked for (5 s for 0), clears REFUSED, leaves HOLD for READY and is answered 0x00 with the
number; with another generation it is answered 0x0F, opens nothing, and in HOLD sets REFUSED and ends step 10 of the start. LEASE_RENEW is
answered 0x00 with the lease left. DETACH ends a live session, marked clean, and is answered 0x00. The end of a live lease comes at its
instant and marks the session not clean. No partition and no byte of memory changes. [derived: 11_i3c_control_plane.md, R306, R307, R308,
R309, R311] -/
def Obligations.SessionsOpenRenewAndEnd : Prop :=
  ∀ (x : I3cId) (s : State) (t : Taken) (rest : List Taken),
    (firstTaken s x 0x01 t rest → t.field 0 2 = s.fw.running.iface →
      ∃ u, exec (.sessionOpen x) s = .next (answer u t 0x00 (openTail s s.orders.nextSession)) ∧
        (u.port x).session = { (u.port x).session with live := true, number := s.orders.nextSession, iface := t.field 0 2, expiry := (if t.field 2 2 = 0 then 5 else t.field 2 2), renewed := s.stamp } ∧
        u.orders.nextSession = s.orders.nextSession + 1 ∧ u.orders.refusedFlag = false ∧
        u.power.state = (if s.power.state = .hold then .ready else s.power.state) ∧ u.now = s.now ∧ u.mem = s.mem ∧ u.parts = s.parts) ∧
    (firstTaken s x 0x01 t rest → t.field 0 2 ≠ s.fw.running.iface →
      ∃ u, exec (.sessionOpen x) s = .next (answer u t 0x0F (openTail s 0)) ∧ (u.port x).session.live = sessionLive s x ∧
        u.orders.nextSession = s.orders.nextSession ∧ u.orders.refusedFlag = (if s.power.state = .hold then true else s.orders.refusedFlag) ∧
        u.fw.startStep = (if s.power.state = .hold then 10 else s.fw.startStep) ∧ u.power = s.power ∧ u.mem = s.mem ∧ u.parts = s.parts) ∧
    (firstTaken s x 0x02 t rest →
      exec (.leaseRenew x) s = .next (answer (s.withTaken rest) t 0x00 (zeros 3 ++ leBytes 4 (leaseLeft s x)))) ∧
    (firstTaken s x 0x03 t rest → (s.port x).session.live = true →
      ∃ u, exec (.detach x) s = .next (answerBare u t 0x00) ∧ u = endSession (s.withTaken rest) x 0 ∧ (u.port x).session.live = false ∧
        (u.port x).session.clean = true ∧ u.mem = s.mem ∧ u.parts = s.parts) ∧
    (firstTaken s x 0x03 t rest → (s.port x).session.live = false → exec (.detach x) s = .next (answerBare (s.withTaken rest) t 0x00)) ∧
    ((s.port x).session.live = true →
      ∃ u, exec (.leaseExpiry x) s = .next u ∧ u = endSession (s.reachStamp (leaseEnd s x)) x 1 ∧ (u.port x).session.live = false ∧
        (u.port x).session.clean = false ∧ u.mem = s.mem ∧ u.parts = s.parts)

/-- O11. For every port x whose oldest waiting message is of the type named: IDENTITY of a module that is not BLANK is answered with the
480-byte certificate and of a BLANK one 0x10; SIZE_READ with the 512-byte size table; CORE_STATUS with one byte for each of the 64 cores;
TALLY_READ of an ARMED or RUNNING partition within its allotted tallies with the live values (MODE 0) or the step bases with the step
number, beyond them 0x04, and of a partition in another state 0x10; each answer is the only change. A query taken from a post gives the
answer that the same rules gave in the state at the instant it was taken. ATTESTATION with the vault readable is answered with the report
of the state at its take, the time of the signature put in: a main report, with a fresh ephemeral key, where the byte named a partition
that held an image in a state in which main reports are given, and else the fall-back report, whose 192 bytes are those named; with an
uncorrectable vault word, the fall-back report follows the wiping of the vault. The ephemeral keys of a partition that are 60 s old go at
that instant, and nothing else changes. The refusals 0x10 and 0x04 of TALLY_READ are the model's choice (DESIGN CHOICE, log entry 53), and
so is what ATTESTATION does at its row: the key is made and the report signed there, and the fall-back report follows the wipe (DESIGN
CHOICE, log entry 139). The model's own too (DESIGN CHOICE): a row brings the time to its deadline (log entry 10). [derived:
11_i3c_control_plane.md, 15_keys_tenants_attestation.md, R57, R62, R300, R411, R414, R417, R418] -/
def Obligations.QueriesAnswerAndChangeNothing : Prop :=
  ∀ (x : I3cId) (s : State) (t : Taken) (rest : List Taken),
    (firstTaken s x 0x08 t rest → t.seen = none → s.fuses.lifecycle ≠ 0 →
      exec (.identity x) s = .next (answer (s.withTaken rest) t 0x00 (zeros 3 ++ padTo 480 s.fuses.cert))) ∧
    (firstTaken s x 0x08 t rest → t.seen = none → s.fuses.lifecycle = 0 → exec (.identity x) s = .next (answerBare (s.withTaken rest) t 0x10)) ∧
    (firstTaken s x 0x11 t rest → t.seen = none → exec (.sizeRead x) s = .next (answer (s.withTaken rest) t 0x00 (zeros 3 ++ sizeTable s))) ∧
    (firstTaken s x 0x12 t rest → t.seen = none →
      exec (.coreStatus x) s =
        .next (answer (s.withTaken rest) t 0x00 (zeros 3 ++ (List.finRange 64).map (fun c => BitVec.ofNat 8 (coreByte (s.core c)))))) ∧
    (firstTaken s x 0x10 t rest → t.seen = none → (s.part (t.part 0)).state = .armed ∨ (s.part (t.part 0)).state = .running →
      (t.field 2 2 + t.field 4 2 ≤ 64 * (s.part (t.part 0)).nT →
        exec (.tallyRead x) s = .next (answer (s.withTaken rest) t 0x00 (leBytes 1 (t.field 1 1) ++ leBytes 2 (t.field 4 2) ++ zeros 4 ++
          leBytes 8 (if t.field 1 1 = 0 then 0 else (s.part (t.part 0)).step) ++
          ((List.range (t.field 4 2)).map (fun i =>
            if t.field 1 1 = 0 then tallyOf (s.part (t.part 0)) (t.field 2 2 + i) else baseOf (s.part (t.part 0)) (t.field 2 2 + i))).flatMap (leBytes 8)))) ∧
      (64 * (s.part (t.part 0)).nT < t.field 2 2 + t.field 4 2 → exec (.tallyRead x) s = .next (answerBare (s.withTaken rest) t 0x04))) ∧
    (firstTaken s x 0x10 t rest → t.seen = none → (s.part (t.part 0)).state ≠ .armed → (s.part (t.part 0)).state ≠ .running →
      exec (.tallyRead x) s = .next (answerBare (s.withTaken rest) t 0x10)) ∧
    (∀ a, t.seen = some a → ∀ c ∈ [(0x08, Instr.identity x), (0x10, .tallyRead x), (0x11, .sizeRead x), (0x12, .coreStatus x)],
      firstTaken s x c.1 t rest → exec c.2 s = .next (answer (s.withTaken rest) t a.1 a.2)) ∧
    (∀ (bulk : Bool) (m : Msg), m.typ ∈ [0x08, 0x09, 0x11, 0x12] → ∃ a, queryAnswer s m = some a ∧
      admitMsg s x bulk m = s.modOrders (fun o => { o with taken := o.taken ++ [{ port := x, bulk := bulk, msg := m, eff := s.stamp, seen := some a }] })) ∧
    (∀ (bulk : Bool) (m : Msg), m.typ = 0x10 → (tallyRate s x).1 = true → ∃ a, queryAnswer s m = some a ∧
      admitMsg s x bulk m = (tallyRate s x).2.modOrders (fun o => { o with taken := o.taken ++ [{ port := x, bulk := bulk, msg := m, eff := s.stamp, seen := some a }] })) ∧
    (∀ r, firstTaken s x 0x09 t rest → r = (match t.seen with | some a => a.2 | none => reportOf s t.msg) → fieldAt r 6 1 = 1 → 152 ≤ r.length →
      ∃ u, exec (.attestation x false) s = .next u ∧ u = mainReport (s.withTaken rest) t (splice r 152 (leBytes 8 s.stamp)) ∧ u.mem = s.mem ∧
        (holdsImage (s.part (t.part 0)) = true →
          ∃ e, (u.part (t.part 0)).keys.ephemeral = ((s.part (t.part 0)).keys.ephemeral ++ [e]).drop ((s.part (t.part 0)).keys.ephemeral.length - 3) ∧
            e.madeAt = s.now) ∧ (∀ q, q ≠ t.part 0 → u.part q = s.part q)) ∧
    (∀ img, (s.part (t.part 0)).image = some img → t.field 0 1 < 8 → reportsMain s = true → holdsImage (s.part (t.part 0)) = true →
      reportOf s t.msg = reportHead s 1 (slice t.msg.body 8 32) ++ reportMain (s.part (t.part 0)) (t.part 0) img (zeros 97)) ∧
    ((s.part (t.part 0)).image = none ∨ 8 ≤ t.field 0 1 ∨ reportsMain s = false ∨ holdsImage (s.part (t.part 0)) = false →
      reportOf s t.msg = reportHead s 2 (slice t.msg.body 8 32)) ∧
    (∀ r, firstTaken s x 0x09 t rest → r = (match t.seen with | some a => a.2 | none => reportOf s t.msg) → fieldAt r 6 1 ≠ 1 → 152 ≤ r.length →
      ∃ sig v, exec (.attestation x false) s = .next (answer v t 0x00 (zeros 3 ++ splice r 152 (leBytes 8 s.stamp) ++ sig)) ∧
        v.security = (if s.security.identity then { s.security with reports := (s.security.reports + 1) % 65536 } else s.security) ∧
        v.mem = s.mem ∧ v.parts = s.parts) ∧
    (∀ w, firstTaken s x 0x09 t rest → w = wipeVault (s.withTaken rest) 2 →
      ∃ sig v, exec (.attestation x true) s = .next (answer v t 0x00 (zeros 3 ++ splice (reportHead w 2 (slice t.msg.body 8 32)) 152 (leBytes 8 w.stamp) ++ sig)) ∧
        v.security = (if w.security.identity then { w.security with reports := (w.security.reports + 1) % 65536 } else w.security) ∧
        v.mem = w.mem ∧ v.parts = w.parts) ∧
    (∀ p made, firstMade (s.part p).keys.ephemeral = some made →
      exec (.ephemeralKeyExpiry p) s = .next ({ s with now := max s.now (made + 60000000000) }.modKeys p (fun k => { k with
        ephemeral := k.ephemeral.filter (fun e => decide (max s.now (made + 60000000000) < e.madeAt + 60000000000)) })))

/-- O12. For every state s, first window w and winner win of it: w has the least W of all windows and, where every window holds an order, of
those with the same W the winner that is first in serial order; win is one of its orders: of cap orders the last in serial order of those
with the lowest TARGET, of the stops and starts of a partition the last stop-kind order if there is one and else the last order, of the
claim orders of a group the last of those with the highest VALUE, else the last in serial order. The row's step lets the time counter
reach W + 20 µs at least, removes the window, puts the winner at the end of the orders that wait to take effect, answers every other order
of the window 0x02 and counts it, and, when there is any, makes the event record of the winner and one for each of them. No partition and
no byte of memory changes. [derived: 11_i3c_control_plane.md, R301, R302, R303] -/
def Obligations.WindowsResolveToOneWinner : Prop :=
  ∀ (s v : State) (w : Window) (win : Taken), firstWindow s.orders.windows = some w → winnerOf w = some win →
    v = (losersOf w win).foldl (fun s t => answerBare s t 0x02) ((s.reachStamp (w.w + 20000)).modOrders (fun o => { o with
      windows := o.windows.erase w
      due := o.due ++ [win] })) →
    (∀ x ∈ s.orders.windows, w.w ≤ x.w) ∧ win ∈ w.orders ∧
    ((∀ x ∈ s.orders.windows, x.orders ≠ []) → ∀ x ∈ s.orders.windows, x.w = w.w → ∀ b, winnerOf x = some b → serialLe win b = true) ∧
    (w.key = .cap → ∀ t ∈ w.orders, win.field 0 2 ≤ t.field 0 2 ∧ (t.field 0 2 = win.field 0 2 → serialLe t win = true)) ∧
    (∀ p, w.key = .stopStart p →
      ((∃ t ∈ w.orders, stopKind t = true) → stopKind win = true ∧ ∀ t ∈ w.orders, stopKind t = true → serialLe t win = true) ∧
      ((∀ t ∈ w.orders, stopKind t = false) → ∀ t ∈ w.orders, serialLe t win = true)) ∧
    (∀ g, w.key = .group g → ∀ t ∈ w.orders, t.field 4 4 ≤ win.field 4 4 ∧ (t.field 4 4 = win.field 4 4 → serialLe t win = true)) ∧
    (∀ a b c, w.key = .other a b c → ∀ t ∈ w.orders, serialLe t win = true) ∧
    ∃ u, exec .orderWindowResolve s = .next u ∧ u.mem = s.mem ∧ u.parts = s.parts ∧ u.now = v.now ∧
      u = (if losersOf w win = [] then v else (losersOf w win).foldl (fun s t => s.event (srcI3c t.port) 0x0904 0xFF (leBytes 4 t.msg.issuer ++ leBytes 8 t.eff ++
            leBytes 1 t.port.val)) (v.event (srcI3c win.port) 0x0903 0xFF (leBytes 4 win.msg.issuer ++ leBytes 8 win.eff ++ leBytes 1 win.port.val ++
            leBytes 1 (losersOf w win).length ++ leBytes 1 win.msg.typ))) ∧
      u.orders.windows = s.orders.windows.erase w ∧ u.orders.due = s.orders.due ++ [win] ∧
      ((∀ t ∈ w.orders, isOrder t.msg.typ = true) → u.orders.superseded = s.orders.superseded + BitVec.ofNat 32 (losersOf w win).length)

/-- O13. For every state s: a due assign order for a FREE partition, outside DRAIN and QUENCH, that shares no cluster and no block with
another partition and names no cluster whose stack failed training gives the partition the clusters of its mask and its blocks, makes it
CLEARING without image and is answered 0x00; one in DRAIN or QUENCH, or for a partition that is not FREE, is answered 0x10; neither
changes a byte of memory or another partition. CLEAR_COMPLETE of a CLEARING partition whose stacks are out of self-refresh makes it CLEAR:
every byte of its clusters' banks, and of the partition space of the stacks that are to be cleared, reads 0, its clusters carry the clean
mark, and every other byte of the banks and stacks and every other partition is as before. A release order for a CLEAR partition leaves it
FREE without clusters or blocks and changes nothing else; in another state it is answered 0x10. [derived: 02_turieno_contract.md, R59,
R60, R153, R154] -/
def Obligations.AssignClearReleaseCycle : Prop :=
  ∀ (s : State) (t : Taken) (rest : List Taken),
    (firstDue s 0x20 t rest → t.field 1 1 = 1 → takesNew s = true → (s.part (t.part 0)).state = .free →
      assignConflict s (t.part 0) (clustersOf (t.field 3 1)) (t.field 4 1) (t.field 6 2) (t.field 8 1) (t.field 10 2) = false →
      ∃ u, exec .partAssign s = .next (answerBare u t 0x00) ∧ (u.part (t.part 0)).state = .clearing ∧
        (u.part (t.part 0)).clusters = clustersOf (t.field 3 1) ∧ (u.part (t.part 0)).firstQ = t.field 4 1 ∧ (u.part (t.part 0)).nQ = t.field 6 2 ∧
        (u.part (t.part 0)).firstT = t.field 8 1 ∧ (u.part (t.part 0)).nT = t.field 10 2 ∧ (u.part (t.part 0)).image = none ∧
        u.mem = s.mem ∧ (∀ q, q ≠ t.part 0 → u.part q = s.part q)) ∧
    (firstDue s 0x20 t rest → t.field 1 1 = 1 → (takesNew s = false ∨ (s.part (t.part 0)).state ≠ .free) →
      exec .partAssign s = .next (answerBare (s.withDue rest) t 0x10)) ∧
    (∀ p : PartId, memoryInv s → (s.part p).state = .clearing → (s.part p).clusters.Nodup →
      (∀ k ∈ (s.part p).clusters, (s.cluster k).fullClear = true → (s.cluster k).selfRefresh = false) →
      ∃ u, exec (.clearComplete p) s = .next u ∧ (u.part p).state = .clear ∧
        (∀ k ∈ (s.part p).clusters, (u.cluster k).clean = true ∧ (∀ a, a < 36 * bankSize → cellRead u.mem.banks (bankAddr (36 * k.val) a) = 0) ∧
          ((s.cluster k).fullClear = true → ∀ a, a < partSpace → cellRead u.mem.hbm (stackAddr k a) = 0)) ∧
        (∀ a, (∀ k ∈ (s.part p).clusters, a / (36 * bankSize) ≠ k.val) → cellRead u.mem.banks a = cellRead s.mem.banks a) ∧
        (∀ a, (∀ k ∈ (s.part p).clusters, (s.cluster k).fullClear = true → a < stackAddr k 0 ∨ stackAddr k partSpace ≤ a) →
          cellRead u.mem.hbm a = cellRead s.mem.hbm a) ∧
        (∀ q, q ≠ p → u.part q = s.part q)) ∧
    (firstDue s 0x20 t rest → t.field 1 1 = 7 → (s.part (t.part 0)).state = .clear →
      exec .partRelease s = .next (answerBare ((s.withDue rest).modPart (t.part 0) (fun x => { x with
        state := .free
        clusters := []
        firstQ := 0
        nQ := 0
        firstT := 0
        nT := 0 })) t 0x00)) ∧
    (firstDue s 0x20 t rest → t.field 1 1 = 7 → (s.part (t.part 0)).state ≠ .clear → exec .partRelease s = .next (answerBare (s.withDue rest) t 0x10))

/-- O14. For every state s: a due load order with an image that fails no check, for a CLEAR partition outside DRAIN and QUENCH, leaves the
partition LOADED with that image, no seed set and loader code 0x01, its clusters' clean marks gone and its memory and the other partitions
as they were; one whose image fails is answered 0x10 with the failure's code, which the partition's loader result keeps, and changes
nothing else; in another state it is answered 0x10. A due arm order for a LOADED partition that meets every condition of R429 leaves the
state of armNow, ARMED, and in replay mode, after a REPLAY_SET, of armReplay after it; with a condition that fails it is answered 0x10
with its number, with the latch set 0x01, without a layout 0x06, and with a job whose keys are not live with every linked member or whose
table is not complete 0x01 (the order of the tests of an arm, and an arm without a locator: log entries 61, 129). A due start order for an
ARMED partition whose streams are bound, the latch clear and the module not draining, leaves the state of beginRun: the partition RUNNING,
and the module in RUN when it was READY; with a stream not bound as declared it is answered 0x10 with code 0x27. An accepted one is
answered 0x00 with code 0x01. [derived: 02_turieno_contract.md, 01_beats_steps_and_replay.md, R36, R59, R61, R429] -/
def Obligations.LoadArmStart : Prop :=
  ∀ (s : State) (t : Taken) (rest : List Taken) (p : PartId) (img : Image) (supply : Machine.ReplaySupply), p = t.part 0 →
    (firstDue s 0x20 t rest → t.field 1 1 = 2 → takesNew s = true → (s.part p).state = .clear → loadFail (s.withDue rest) p img = none →
      ∃ u, exec (.partLoad img) s = .next (answerPart u t 0x00 0x01 0 noPlace) ∧ (u.part p).state = .loaded ∧
        (u.part p).image = some img ∧ (u.part p).seedSet = false ∧ (u.part p).loadCode = 1 ∧ (∀ k ∈ (s.part p).clusters, (u.cluster k).clean = false) ∧
        (∀ o, o ≠ p → u.part o = s.part o) ∧ u.mem = s.mem ∧ u.owners = s.owners) ∧
    (∀ r, firstDue s 0x20 t rest → t.field 1 1 = 2 → takesNew s = true → (s.part p).state = .clear → loadFail (s.withDue rest) p img = some r →
      exec (.partLoad img) s = .next (answerPart ((s.withDue rest).modPart p (fun x => { x with loadCode := r.code, loadDetail := r.detail })) t 0x10 r.code 0 r.place)) ∧
    (firstDue s 0x20 t rest → t.field 1 1 = 2 → (takesNew s = false ∨ (s.part p).state ≠ .clear) →
      exec (.partLoad img) s = .next (answerBare (s.withDue rest) t 0x10)) ∧
    (firstDue s 0x20 t rest → t.field 1 1 = 3 → (s.part p).image = some img → s.power.state ≠ .drain → (s.part p).state = .loaded →
      (bitOf (t.field 2 1) 0 = true → (s.part p).replaySet.isSome = true) →
      (s.power.latch = true → exec (.partArm supply) s = .next (answerBare (s.withDue rest) t 0x01)) ∧
      (s.power.latch = false → armFail (s.withDue rest) p img (bitOf (t.field 2 1) 1) = none →
        (armCondition (s.part p) img (t.field 2 1) ≠ 0 →
          exec (.partArm supply) s = .next (answerPart (s.withDue rest) t 0x10 0x01 (armCondition (s.part p) img (t.field 2 1)) [])) ∧
        (armCondition (s.part p) img (t.field 2 1) = 0 → videoHeld (s.withDue rest) p img = true →
          ∀ n a, pickLayout (s.withDue rest) (s.part p) = some n → jobReady (s.part p) = true →
            a = armNow (s.withDue rest) p img (t.field 2 1) n (t.field 16 2, t.field 18 2, t.field 24 8)
              (if bitOf (t.field 2 1) 0 || bitOf (t.field 2 1) 2 then t.field 32 8 else 2 ^ 64) →
            exec (.partArm supply) s = .next (answerPart (if bitOf (t.field 2 1) 0 then armReplay a p n supply else a) t 0x00 0x01 0 []) ∧
            (a.part p).state = .armed ∧ (a.part p).step = 0) ∧
        (armCondition (s.part p) img (t.field 2 1) = 0 → videoHeld (s.withDue rest) p img = true →
          ((pickLayout (s.withDue rest) (s.part p)).isSome = true → jobReady (s.part p) = false → exec (.partArm supply) s = .next (answerBare (s.withDue rest) t 0x01)) ∧
          (pickLayout (s.withDue rest) (s.part p) = none → exec (.partArm supply) s = .next (answerBare (s.withDue rest) t 0x06))))) ∧
    (firstDue s 0x20 t rest → t.field 1 1 = 4 → (s.part p).image = some img → s.power.state ≠ .drain → (s.part p).state = .armed →
      (s.power.latch = true → exec .partStart s = .next (answerBare (s.withDue rest) t 0x01)) ∧
      (∀ n, s.power.latch = false → streamFail (s.withDue rest) p img = some n →
        exec .partStart s = .next (answerPart ((s.withDue rest).modPart p (fun x => { x with loadCode := 0x27, loadDetail := n })) t 0x10 0x27 0 [])) ∧
      (s.power.latch = false → streamFail (s.withDue rest) p img = none →
        ∃ u, exec .partStart s = .next (answerPart u t 0x00 0x01 0 []) ∧ u = beginRun (s.withDue rest) p ∧ (u.part p).state = .running ∧
          (u.part p).step = (s.part p).step ∧ (s.power.state = .ready → u.power.state = .run) ∧ u.mem = s.mem))

/-- O15. For every state s: a due stop order for a RUNNING partition notes the instant of its acceptance, or keeps that of an earlier one, for
the first boundary with a later stamp, and is answered 0x00; where the partition is held at a boundary it stops at once. A due unload
order for a LOADED or ARMED partition makes it CLEARING without image and with its clusters, and is answered 0x00; for a RUNNING partition
it marks it to stop and unload in the same way. A stop of a partition that is not RUNNING, and an unload of one that is neither LOADED,
ARMED nor RUNNING, is answered 0x10. A due seed order sets the seed at once while the partition is neither ARMED nor RUNNING, and
otherwise waits, with its instant, for the generation that it answers (orders of one boundary make one change: DESIGN CHOICE, log entry
63). A due serving-settings order gives its fields to the settings of a partition that is not RUNNING, and to those that wait for a
boundary of one that is. A due replay-set order keeps its step range and dump points. Nothing else of the state changes. [derived:
02_turieno_contract.md, 01_beats_steps_and_replay.md, 08_step_serving.md, R21, R27, R36, R59] -/
def Obligations.StopUnloadSeedAndSettings : Prop :=
  ∀ (s : State) (t : Taken) (rest : List Taken) (p : PartId) (w : Bool → State), p = t.part 0 →
    w = (fun b => (s.withDue rest).modPart p (fun x => { x with stopWanted := some (x.stopWanted.getD s.stamp), unloadWanted := x.unloadWanted || b })) →
    (firstDue s 0x20 t rest → t.field 1 1 = 5 → (s.part p).state = .running →
      ((s.part p).holdAt = none ∨ (s.part p).released = true → exec .partStop s = .next (answerBare (w false) t 0x00)) ∧
      ((s.part p).holdAt.isSome = true → (s.part p).released = false → exec .partStop s = .next (answerBare (stopBoundary (w false) p) t 0x00))) ∧
    (firstDue s 0x20 t rest → t.field 1 1 = 5 → (s.part p).state ≠ .running → exec .partStop s = .next (answerBare (s.withDue rest) t 0x10)) ∧
    (firstDue s 0x20 t rest → t.field 1 1 = 6 → (s.part p).state = .loaded ∨ (s.part p).state = .armed →
      ∃ u, exec .partUnload s = .next (answerBare u t 0x00) ∧ u = enterClearing (s.withDue rest) p ∧ (u.part p).state = .clearing ∧ (u.part p).image = none ∧
        (u.part p).clusters = (s.part p).clusters ∧ u.mem = s.mem ∧ (∀ q, q ≠ p → u.part q = s.part q)) ∧
    (firstDue s 0x20 t rest → t.field 1 1 = 6 → (s.part p).state = .running →
      ((s.part p).holdAt = none ∨ (s.part p).released = true → exec .partUnload s = .next (answerBare (w true) t 0x00)) ∧
      ((s.part p).holdAt.isSome = true → (s.part p).released = false → exec .partUnload s = .next (answerBare (stopBoundary (w true) p) t 0x00))) ∧
    (firstDue s 0x20 t rest → t.field 1 1 = 6 → ((s.part p).state = .free ∨ (s.part p).state = .clearing ∨ (s.part p).state = .clear) →
      exec .partUnload s = .next (answerBare (s.withDue rest) t 0x10)) ∧
    (firstDue s 0x21 t rest → (s.part p).state ≠ .armed → (s.part p).state ≠ .running →
      exec .seedSet s = .next (answer ((s.withDue rest).modPart p (fun x => { x with seed := BitVec.ofNat 128 (t.field 8 16), seedSet := x.seedSet || x.state == .loaded })) t 0x00
        (zeros 3 ++ leBytes 4 0))) ∧
    (firstDue s 0x21 t rest → (s.part p).state = .armed ∨ (s.part p).state = .running →
      exec .seedSet s = .next (answer ((s.withDue rest).modPart p (fun x => { x with seedNext := x.seedNext ++ [(s.stamp, BitVec.ofNat 128 (t.field 8 16))] })) t 0x00
        (zeros 3 ++ leBytes 4 ((s.part p).seedGen + 1)))) ∧
    (∀ v : Serving, v.cancelMode = bitOf (t.field 1 1) 0 → v.rebind = bitOf (t.field 1 1) 1 → v.admitClosed = bitOf (t.field 1 1) 2 → v.quantum = t.field 2 1 →
      v.riskPct = t.field 3 1 → v.resumePct = t.field 4 1 → (∀ c : Fin 4, v.targets.get c = t.field (8 + 4 * c.val) 3) → firstDue s 0x25 t rest →
      ((s.part p).state ≠ .running →
        exec .servingSettings s = .next (answerBare ((s.withDue rest).modPart p (fun x => { x with serving := v, settingsNext := [] })) t 0x00)) ∧
      ((s.part p).state = .running →
        exec .servingSettings s = .next (answerBare ((s.withDue rest).modPart p (fun x => { x with settingsNext := x.settingsNext ++ [(s.stamp, v)] })) t 0x00))) ∧
    (firstDue s 0x29 t rest →
      exec .replaySet s = .next (answerBare ((s.withDue rest).modPart p (fun x => { x with
        replaySet := some { first := t.field 8 8, last := t.field 16 8, dumps := (List.range (t.field 24 1)).map (dumpOf t) } })) t 0x00))

/-- O16. For every state s: a due readmit order for a FENCED core, the latch clear, makes it GLORY_HOLE; for a core that is not FENCED it is
answered 0x07 and changes nothing; with the latch set it is answered 0x01. A due fence order is answered 0x00 and leaves the state of
fenceFor: a core in service of no partition, or of one that is neither ARMED nor RUNNING, is FENCED with the cause order; of a RUNNING
partition its fence is pending with that cause; and a core that is not in service is left as it is (DESIGN CHOICE, log entry 136). A taken
cancel for an ARMED or RUNNING partition joins the partition's waiting cancels with its target, its stamp and its issuer, and for another
partition is answered 0x10 (DESIGN CHOICE, log entry 62); the first waiting cancel enters the pending set at its stamp plus 20 µs. No byte
of memory changes, but for an ARMED partition's fence. [derived: 04_spatial_pipelines.md, 11_i3c_control_plane.md, R117, R124, R230, R304,
R396] -/
def Obligations.CoreAndCancelOrders : Prop :=
  ∀ (s : State) (t : Taken) (rest : List Taken),
    (firstDue s 0x28 t rest → t.field 0 1 = 2 → s.power.latch = false → (s.core t.core).state = .fenced →
      exec .coreReadmit s = .next (answerBare ((s.withDue rest).modCore t.core (fun k => { k with state := .gloryHole })) t 0x00)) ∧
    (firstDue s 0x28 t rest → t.field 0 1 = 2 → s.power.latch = false → (s.core t.core).state ≠ .fenced →
      exec .coreReadmit s = .next (answerBare (s.withDue rest) t 0x07)) ∧
    (firstDue s 0x28 t rest → t.field 0 1 = 2 → s.power.latch = true → exec .coreReadmit s = .next (answerBare (s.withDue rest) t 0x01)) ∧
    (∀ u, u = fenceFor (s.withDue rest) t.core .order → firstDue s 0x28 t rest → t.field 0 1 = 1 →
      exec .coreFence s = .next (answerBare u t 0x00) ∧
      ((s.core t.core).state ≠ .inService → u = s.withDue rest) ∧
      (∀ p, (s.core t.core).state = .inService → partOfCore s t.core = some p → (s.part p).state = .running →
        u = (s.withDue rest).modCore t.core (fun k => { k with state := .fencePending, cause := .order, causeAt := s.stamp })) ∧
      ((s.core t.core).state = .inService → (∀ p, partOfCore s t.core = some p → (s.part p).state ≠ .running ∧ (s.part p).state ≠ .armed) →
        (u.core t.core).state = .fenced ∧ (u.core t.core).cause = .order ∧ (∀ c, c ≠ t.core → u.core c = s.core c) ∧ u.mem = s.mem ∧ u.parts = s.parts)) ∧
    (s.orders.taken.find? (fun t => t.msg.typ == 0x26 && !cancelKnown s t) = some t →
      ((s.part (t.part 0)).state = .armed ∨ (s.part (t.part 0)).state = .running →
        exec .cancel s = .next (s.modPart (t.part 0) (fun x => { x with cancels := x.cancels ++ [
          { byClient := t.field 1 1 == 1, target := t.field 8 8, stamp := t.eff, source := t.msg.issuer, frameSeq := 0,
            answer := some (t.port.val, t.msg.seq, t.eff), entered := false, stream := 0 }] }))) ∧
      ((s.part (t.part 0)).state ≠ .armed → (s.part (t.part 0)).state ≠ .running →
        exec .cancel s = .next (answerBare (s.modOrders (fun o => { o with taken := o.taken.erase t })) t 0x10))) ∧
    (∀ p c, nextCancel s = some (p, c) →
      exec .cancelPendingEntry s = .next ((s.reachStamp (c.stamp + 20000)).modPart p (fun x => { x with
        cancels := updFirst (fun d => d == c) (fun d => { d with entered := true }) x.cancels })))

/-- O17. For every state s: a due adapter-load order for a partition with an image, naming a version above the current one of its adapter if
there is one, puts an entry that awaits its body in the lowest free slot and is answered 0x00 with that slot; with no slot free it is
answered 0x0A, with a version not above the current one 0x09, and without an image 0x10 (DESIGN CHOICE, log entry 63). A due video-slot
order that gives a slot or block to two partitions is answered 0x03; one that leaves an ARMED or RUNNING partition's image less than it
declares, 0x08; any other leaves the engine of videoAllot: the new owners from its next slot 0, the context and pool blocks at once
(DESIGN CHOICE, log entry 64). Nothing else changes. [derived: 08_step_serving.md, 09_video_engine.md, R236, R248] -/
def Obligations.AdapterAndVideoSlotOrders : Prop :=
  ∀ (s : State) (t : Taken) (rest : List Taken) (p : PartId), p = t.part 0 →
    (firstDue s 0x27 t rest → (s.part p).image = none → exec .adapterLoad s = .next (answerBare (s.withDue rest) t 0x10)) ∧
    (∀ img : Image, firstDue s 0x27 t rest → (s.part p).image = some img →
      (∀ a, currentAdapter (s.part p) (t.field 2 2) = some a → t.field 8 8 ≤ a.version → exec .adapterLoad s = .next (answerBare (s.withDue rest) t 0x09)) ∧
      ((∀ a, currentAdapter (s.part p) (t.field 2 2) = some a → a.version < t.field 8 8) →
        (∀ n, (List.range img.adapterSlots).find? (fun n => !(s.part p).adapters.any (fun a => a.slot == n)) = some n →
          exec .adapterLoad s = .next (answer ((s.withDue rest).modPart p (fun x => { x with adapters := x.adapters ++ [
            { slot := n, ident := t.field 2 2, version := t.field 8 8, digest := BitVec.ofNat 384 (beNat (slice t.msg.body 16 48)), state := .awaiting, bound := 0,
              loadedAt := 0 }] })) t 0x00 (leBytes 1 n))) ∧
        ((List.range img.adapterSlots).find? (fun n => !(s.part p).adapters.any (fun a => a.slot == n)) = none →
          exec .adapterLoad s = .next (answerBare (s.withDue rest) t 0x0A)))) ∧
    (∀ (d : DieId) (w : VidEngine), firstDue s 0x24 t rest → d = dieOfInst (t.field 1 1) →
      w = videoAllot (s.engine d) p (t.field 2 1) (t.field 3 1) (t.field 4 1) (t.field 5 1) (t.field 8 8) →
      (videoConflict (s.engine d) p (t.field 2 1) (t.field 3 1) (t.field 4 1) (t.field 5 1) (t.field 8 8) = true →
        exec .videoSlot s = .next (answerBare (s.withDue rest) t 0x03)) ∧
      (videoConflict (s.engine d) p (t.field 2 1) (t.field 3 1) (t.field 4 1) (t.field 5 1) (t.field 8 8) = false →
        (∀ img g, ((s.part p).state = .armed ∨ (s.part p).state = .running) → (s.part p).image = some img → img.video[d.val]? = some g → videoEnough w p g = false →
          exec .videoSlot s = .next (answerBare (s.withDue rest) t 0x08)) ∧
        ((((s.part p).state ≠ .armed ∧ (s.part p).state ≠ .running) ∨ (s.part p).image = none ∨
            (∀ img, (s.part p).image = some img → ∀ g, img.video[d.val]? = some g → videoEnough w p g = true)) →
          exec .videoSlot s = .next (answerBare ((s.withDue rest).setEngine d w) t 0x00))))

/-- O18. For every state s of a module that is not OFF: below 44.0 V a normal level becomes warning and the count above 45.0 V ends; above
45.0 V a level that is not normal becomes normal and the count begins; above 42.0 V the hold level becomes warning; each with its event
while the teaser runs, and nothing else changes. Below 41.0 V a level that is not hold becomes hold; a supply hold that does not yet run
begins, with the latch set, one more supply hold counted and the flow ballast off while the teaser runs. In a supply hold
STACK_SELF_REFRESH puts exactly the trained stacks in self-refresh. 10 ms after the supply rose above 45.0 V, at the normal level, the
hold ends, and outside QUENCH no stack is in self-refresh; a start that paused resumes. While the teaser runs, over-voltage above 58 V
only notes the reading and makes its event, and a regulator more than 50 mV out of regulation notes the fault and, outside QUENCH in a
module past its start, enters QUENCH with cause 4; in BOOT the cause is recorded (DESIGN CHOICE, log entry 80). No byte of memory changes.
The model's own too (DESIGN CHOICE): a supply hold takes effect at once (log entry 77); a row brings the time to its deadline (log entry
10). [derived: 14_power_and_heat.md, 17_connector_and_enclosure.md, R381, R391, R393, R394, R461] -/
def Obligations.SupplyLevelsAndHold : Prop :=
  ∀ (s : State) (mv rail : Nat) (dev : Int) (level : SupplyLevel → Nat → Option Ns → State),
    level = (fun l code above => (if teaserRuns s then ({ s with power := { s.power with above45 := above, level := l, supplyMv := mv } } : State).event srcTeaser 0x0402 0xFF
      (leBytes 1 code ++ zeros 1 ++ leBytes 2 mv) else { s with power := { s.power with above45 := above, level := l, supplyMv := mv } })) →
    s.power.state ≠ .off →
    (mv < 44000 → s.power.level = .normal → exec (.supplyWarning mv) s = .next (level .warning 1 none)) ∧
    (45000 < mv → s.power.level ≠ .normal → exec (.supplyWarningEnd mv) s = .next (level .normal 0 (some s.now))) ∧
    (42000 < mv → s.power.level = .hold → exec (.holdLevelLeft mv) s = .next (level .warning 1 s.power.above45)) ∧
    (mv < 41000 → s.power.level ≠ .hold →
      ∃ u, exec (.supplyHold mv) s = .next u ∧ u = beginSupplyHold (level .hold 2 none) ∧ u.power.level = .hold ∧ u.power.supplyMv = mv ∧ u.power.above45 = none ∧
        u.power.supplyHeld = true ∧ u.mem = s.mem ∧
        (s.power.supplyHeld = false → teaserRuns s = true → u.power.latch = true ∧ u.power.supplyHolds = min (s.power.supplyHolds + 1) 255 ∧ u.thermal.ballast = false)) ∧
    (s.power.supplyHeld = true →
      ∃ u, exec .stackSelfRefresh s = .next u ∧ (∀ k, u.cluster k = { s.cluster k with selfRefresh := (s.cluster k).trained }) ∧ u.mem = s.mem ∧ u.parts = s.parts) ∧
    (∀ since, s.power.above45 = some since → s.power.supplyHeld = true → s.power.level = .normal →
      ∃ u, exec .supplyHoldEnd s = .next u ∧ u.now = max s.now (since + 10000000) ∧ u.power.supplyHeld = false ∧
        (s.power.state ≠ .quench → ∀ k, (u.cluster k).selfRefresh = false) ∧ (s.power.state = .quench → ∀ k, u.cluster k = s.cluster k) ∧ u.mem = s.mem) ∧
    (58000 < mv → teaserRuns s = true →
      exec (.overVoltage mv) s = .next (({ s with power := { s.power with supplyMv := mv } } : State).event srcTeaser 0x0409 0xFF (leBytes 2 mv))) ∧
    (50 < dev.natAbs → teaserRuns s = true →
      ∃ u, exec (.regulatorFault rail dev) s = .next u ∧ u.power.regFault = true ∧ u.mem = s.mem ∧
        (powered s = true → s.power.state ≠ .quench → u.power.state = .quench ∧ u.power.quenchCause = 4 ∧ u.power.quenchFrom = s.power.state ∧ u.power.latch = true) ∧
        (s.power.state = .boot → s.power.quenchCause = 0 → u.power.state = .boot ∧ u.power.quenchCause = 4) ∧
        (s.power.state = .quench → u.power.quenchCause = s.power.quenchCause ∧ u.parts = s.parts))

/-- O19. For every state s: a due cap order whose TARGET is at or above the cap in force puts it in force at once; one below it with a ramp of
at least 1 ms for each 100 W or part of it ramps from the cap in force; one that asks for more sheds, is counted, has its TARGET in force
at once and holds the module. A drain order in HOLD or QUENCH is answered 0x10 and else enters DRAIN, where each partition that is held at
a boundary and may stop stops (stopHeld); with none held nothing else changes, and the module is drained when no partition runs and no
checkpoint is open; its second action is answered 0x10 outside DRAIN and else returns to RUN or READY with the drained bit clear. A QUENCH
order of a powered module not in QUENCH enters it with cause 5, the latch set and every trained stack in self-refresh; its second action
is answered 0x10 outside QUENCH or with a regulator fault or a loss of PRSNT_N, 0x01 less than 10 s after the last cause, and else returns
to the state that leaveQuench gives, with no cause and, without a supply hold, no stack in self-refresh. A coolant order sets the heat
capacity and the minimum flow. A sensor clear evaluates the named core's pair, or with 0xFF every core's, afresh. Each other is answered
0x00 and, but for a partition that a drain stops, no byte of memory changes. That QUENCH_CAUSE reads 0 after the clear is the model's
choice (DESIGN CHOICE, log entry 80). The model's own too (DESIGN CHOICE): a shed and a QUENCH take effect at once (log entry 77).
[derived: 14_power_and_heat.md, R379, R380, R381, R383, R386, R398, R408, R409] -/
def Obligations.PowerOrders : Prop :=
  ∀ (s : State) (t : Taken) (rest : List Taken),
    (firstDue s 0x30 t rest → capMw s ≤ 1000 * t.field 0 2 →
      exec .pwrCap s = .next (answerBare ((s.withDue rest).modPower (fun w => { w with target := t.field 0 2, rampFrom := (1000 * t.field 0 2, s.now), rampNs := 0 })) t 0x00)) ∧
    (firstDue s 0x30 t rest → 1000 * t.field 0 2 < capMw s → capMw s - 1000 * t.field 0 2 ≤ 100000 * t.field 2 2 →
      exec .pwrCap s = .next (answerBare ((s.withDue rest).modPower (fun w => { w with
        target := t.field 0 2
        rampFrom := (capMw s, s.now)
        rampNs := 1000000 * t.field 2 2 })) t 0x00)) ∧
    (firstDue s 0x30 t rest → 1000 * t.field 0 2 + 100000 * t.field 2 2 < capMw s →
      ∃ u, exec .pwrCap s = .next (answerBare u t 0x00) ∧ u.power.shed = true ∧ u.power.target = t.field 0 2 ∧ u.power.sheds = min (s.power.sheds + 1) 255 ∧
        capMw u = 1000 * t.field 0 2 ∧ moduleHeld u = true ∧ u.mem = s.mem) ∧
    (firstDue s 0x31 t rest → t.field 0 1 = 1 →
      ((s.power.state = .hold ∨ s.power.state = .quench) → exec .pwrDrainEnter s = .next (answerBare (s.withDue rest) t 0x10)) ∧
      (s.power.state ≠ .hold → s.power.state ≠ .quench →
        ∃ u, exec .pwrDrainEnter s = .next (answerBare u t 0x00) ∧
          u = settleModule (forParts (fun p v => stopHeld v p) ((s.withDue rest).modPower (fun w => { w with state := .drain }))) ∧
          ((∀ p, (s.part p).state = .running → (s.part p).holdAt = none ∨ (s.part p).released = true) →
            u.power.state = .drain ∧ u.mem = s.mem ∧ u.parts = s.parts ∧
            ((∀ p, (s.part p).state ≠ .running ∧ (s.part p).ckptNew = none) → u.power.drained = true) ∧
            ((∃ p, (s.part p).state = .running ∨ (s.part p).ckptNew ≠ none) → u.power.drained = s.power.drained)))) ∧
    (firstDue s 0x31 t rest → t.field 0 1 = 2 →
      (s.power.state ≠ .drain → exec .pwrDrainLeave s = .next (answerBare (s.withDue rest) t 0x10)) ∧
      (s.power.state = .drain → exec .pwrDrainLeave s = .next (answerBare ((s.withDue rest).modPower (fun w => { w with
        state := if ∃ p, (s.part p).state = .running then .run else .ready
        drained := false })) t 0x00))) ∧
    (firstDue s 0x32 t rest → t.field 0 1 = 1 → powered s = true → s.power.state ≠ .quench →
      ∃ u, exec .pwrQuench s = .next (answerBare u t 0x00) ∧ u.power.state = .quench ∧ u.power.quenchCause = 5 ∧ u.power.quenchFrom = s.power.state ∧
        u.power.latch = true ∧ u.power.quenches = min (s.power.quenches + 1) 255 ∧ (∀ k, (u.cluster k).selfRefresh = (s.cluster k).trained) ∧ u.mem = s.mem) ∧
    (firstDue s 0x32 t rest → t.field 0 1 = 2 →
      ((s.power.state ≠ .quench ∨ s.power.regFault = true ∨ s.power.prsntLost = true) → exec .pwrQuenchClear s = .next (answerBare (s.withDue rest) t 0x10)) ∧
      (s.power.state = .quench → s.power.regFault = false → s.power.prsntLost = false →
        (s.now < s.power.quenchAt + 10000000000 → exec .pwrQuenchClear s = .next (answerBare (s.withDue rest) t 0x01)) ∧
        (s.power.quenchAt + 10000000000 ≤ s.now →
          ∃ u, exec .pwrQuenchClear s = .next (answerBare u t 0x00) ∧ u = leaveQuench (s.withDue rest) ∧ u.power.quenchCause = 0 ∧ u.mem = s.mem ∧
            ((s.power.quenchFrom = .hold ∨ s.power.quenchFrom = .drain) → u.power.state = s.power.quenchFrom) ∧
            (s.power.quenchFrom ≠ .hold → s.power.quenchFrom ≠ .drain →
              u.power.state = (if ∃ p, (s.part p).state = .running then .run else .ready)) ∧
            (s.power.supplyHeld = false → ∀ k, (u.cluster k).selfRefresh = false)))) ∧
    (firstDue s 0x33 t rest →
      exec .thmCoolant s = .next (answerBare ((s.withDue rest).modThermal (fun h => { h with cv := t.field 0 2, flowMin := t.field 2 2 })) t 0x00)) ∧
    (firstDue s 0x34 t rest →
      ∃ u, exec .thmSensorClear s = .next (answerBare u t 0x00) ∧ u.mem = s.mem ∧ u.parts = s.parts ∧
        ∀ c : CoreId, u.core c = (if t.field 0 1 = 0xFF ∨ t.field 0 1 = c.val then
          { s.core c with diodeDoubted := false, delayDoubted := false, suspect := false, disagree := 0 } else s.core c))

/-- O20. For every state s: SUPPLY_RESET of a module that is not OFF leaves it OFF 50 µs later, every bank and stack byte 0, no image, no
session, no key, its fuses as they were. START of an OFF module above 45.0 V leaves it in BOOT with empty memory: while PRSNT_N is high at
start step 0 with the straps unread; with PRSNT_N low with the straps read, at step 1 with failure 1 when the self-test fails, else at
step 2 waiting for an image; an open lid or mesh has burnt the tamper fuse, and a closed one has left the fuses but for the straps.
PRSNT_MATE notes the contact and in BOOT at step 0, outside a supply hold, lets the start go on in the same way; elsewhere, and in a
supply hold, it changes nothing else. START_TIME_LOCK_TIMEOUT of a module in BOOT past step 6 leaves it in HOLD with start step 9, at 3 s
after step 5 at the earliest, and in QUENCH where a cause of it came in BOOT (DESIGN CHOICE, log entry 80). That a stack byte reads 0
before its first write is the model's choice (DESIGN CHOICE, log entry 9). The model's own too (DESIGN CHOICE): a row brings the time to
its deadline (log entry 10). [derived: 14_power_and_heat.md, 15_keys_tenants_attestation.md, 16_start_and_firmware.md,
17_connector_and_enclosure.md, R6, R395, R416, R437, R455, R456] -/
def Obligations.SupplyLossAndStart : Prop :=
  ∀ (s : State) (i : StartIn),
    (s.power.state ≠ .off →
      ∃ u, exec .supplyReset s = .next u ∧ u.power.state = .off ∧ u.now = s.now + 50000 ∧ u.mem = Mem.init ∧ (∀ p, (u.part p).state = .free ∧ (u.part p).image = none ∧
          (u.part p).keys = PKeys.init) ∧
        (∀ x, (u.port x).session.live = false) ∧ u.security.moduleKey = none ∧ (∀ k, (u.cluster k).key = none) ∧ u.fuses = s.fuses ∧ u.pending = s.pending) ∧
    (s.power.state = .off → 45000 < i.supplyMv →
      ∃ u, exec (.start i) s = .next u ∧ u.power.state = .boot ∧ u.power.supplyMv = i.supplyMv ∧ u.fw.startIn = some i ∧ u.fuses.serial = s.fuses.serial ∧ u.mem = Mem.init ∧
        (s.power.prsnt = false → u.fw.startStep = 0 ∧ u.fuses = s.fuses) ∧
        (s.power.prsnt = true → u.fuses.tray = i.tray % 64 ∧ u.fuses.slot = i.slot % 32 ∧
          (i.selfTest = false → u.fw.startStep = 1 ∧ u.fw.startFail = 1) ∧
          (i.selfTest = true → u.fw.startStep = 2 ∧ u.security.identity = identityUsable u.fuses ∧
            u.fuses = { s.fuses with tray := i.tray % 64, slot := i.slot % 32, tampered := s.fuses.tampered || i.lidOpen || i.meshOpen }))) ∧
    (s.power.state ≠ .boot ∨ s.fw.startStep ≠ 0 ∨ s.fw.startIn = none ∨ s.power.supplyHeld = true → exec .prsntMate s = .next { s with power := { s.power with prsnt := true } }) ∧
    (s.power.state = .boot → s.power.supplyHeld = false → s.fw.startStep = 0 → s.fw.startIn = some i → i.selfTest = true →
      ∃ u, exec .prsntMate s = .next u ∧ u.power.prsnt = true ∧ u.power.state = .boot ∧ u.fw.startStep = 2 ∧ u.security.identity = identityUsable u.fuses ∧
        u.fuses = { s.fuses with tray := i.tray % 64, slot := i.slot % 32, tampered := s.fuses.tampered || i.lidOpen || i.meshOpen }) ∧
    (s.power.state = .boot → 6 ≤ s.fw.startStep →
      ∃ u, exec .startTimeLockTimeout s = .next u ∧ u.fw.startStep = 9 ∧ u.now = max s.now (s.fw.step5At + 3000000000) ∧ u.mem = s.mem ∧
        (s.power.quenchCause = 0 → u.power.state = .hold ∧ u.parts = s.parts) ∧
        (s.power.quenchCause ≠ 0 → u.power.state = .quench ∧ u.power.quenchCause = s.power.quenchCause))

/-- O21. For every state s of a module past its start: PRSNT_LOSS with its contact, not in QUENCH, leaves it in QUENCH with cause 6, the latch
set, the contact lost, every CSI-2 transmit port stopped with no frame under way, and the claim lanes idle, with memory unchanged; in
QUENCH the cause stays. TAMPER_LOOP_OPEN, each time, leaves every cluster key and partition key gone, no partition that was not FREE with
an image, the identity key usable where the fuses allow it, one more wipe counted with cause 1 and no byte of memory changed. LID_TAMPER
burns the tamper fuse, so that the identity key is not usable, and leaves the module in BOOT at start step 2 with empty memory (DESIGN
CHOICE, log entry 100). The model's own too (DESIGN CHOICE): a QUENCH takes effect at once (log entry 77). [derived:
17_connector_and_enclosure.md, 15_keys_tenants_attestation.md, R381, R415, R416, R458, R459] -/
def Obligations.PresenceAndTamper : Prop :=
  ∀ (s : State), powered s = true →
    (s.power.prsntLost = false → s.fw.startStep ≠ 0 →
      ∃ u, exec .prsntLoss s = .next u ∧ u.power.state = .quench ∧ u.power.latch = (if s.power.state = .quench then s.power.latch else true) ∧
        u.power.quenchCause = (if s.power.state = .quench then s.power.quenchCause else 6) ∧ u.power.prsntLost = true ∧ u.power.prsnt = false ∧
        u.csi.stopped = true ∧ (∀ n, (u.csi.tx.get n).endAt ≤ u.now) ∧ u.lanes.idleOnly = true ∧ u.mem = s.mem) ∧
    (∃ u, exec .tamperLoopOpen s = .next u ∧ u.security.extTamper = true ∧ u.security.wipes = min (s.security.wipes + 1) 255 ∧ u.security.lastCause = 1 ∧
        u.security.reports = 0 ∧ u.security.identity = identityUsable s.fuses ∧ u.mem = s.mem ∧
        (∀ p, ((s.part p).state ≠ .free → (u.part p).image = none) ∧ (u.part p).keys.model = none ∧ (u.part p).keys.store = none ∧ (u.part p).keys.streams = [] ∧ (u.part p).keys.ephemeral = []) ∧
        ((∀ p, (s.part p).state = .free) → ∀ k, (u.cluster k).key = none ∧ (u.cluster k).prev = none ∧ (u.cluster k).clean = false)) ∧
    (∀ mesh, ∃ u, exec (.lidTamper mesh) s = .next u ∧ u.fuses = { s.fuses with tampered := true } ∧ u.security.identity = false ∧ u.power.state = .boot ∧ u.fw.startStep = 2 ∧
        u.mem = Mem.init)

/-- O22. For every state s in which the teaser runs and every set of readings: the cycle answers a next state, not earlier than 100 µs after
the last cycle, that holds the readings of both sensors and the rate of every core, of every regulator, of the inlet and the outlet, of
the input power, the supply and its current, and the supplied flow, and the level of TAMPER_N where the row gives it (DESIGN CHOICE, log
entry 98); the latch is set in it exactly when the module is in QUENCH, in a supply hold or in an emergency descent; no byte of the banks
or the stacks changes, and of memory nothing but what the bit errors of the row leave. When a core's two sensors are trusted and agree at
or above 105 °C in their range, the module is in QUENCH after the cycle. In every other module state the row changes nothing. That a row
carries the bit errors that arise is DESIGN CHOICE, log entry 130. The model's own too (DESIGN CHOICE): a row brings the time to its
deadline (log entry 10); a row without an occasion changes nothing (log entry 26). [derived: 14_power_and_heat.md, R375, R391, R396, R397,
R398, 05_banks_stacks_and_page_keys.md] -/
def Obligations.TeaserCycleRuns : Prop :=
  ∀ (s : State) (r : Readings),
    (teaserRuns s = false → exec (.teaserCycle r) s = .next s) ∧
    (teaserRuns s = true →
      ∃ u, exec (.teaserCycle r) s = .next u ∧ u.now = max s.now (s.power.cycleAt + 100000) ∧ u.power.cycleAt = u.now ∧ u.power.p100 = r.p100 ∧
        u.power.p1s = r.p1s ∧ u.power.supplyMv = r.supply ∧ u.power.currentUnits = r.current ∧ u.thermal.supplied = r.suppliedFlow ∧
        u.security.extTamper = r.tamperLow.getD s.security.extTamper ∧ u.thermal.reg = r.reg ∧ u.thermal.inlet = r.inlet ∧ u.thermal.outlet = r.outlet ∧
        (∀ c : CoreId, (u.core c).diode = r.diode.get c ∧ (u.core c).delay = r.delay.get c ∧ (u.core c).rate = BitVec.ofNat 16 (r.rate.get c)) ∧
        u.power.latch = (u.power.state == .quench || u.power.supplyHeld || u.thermal.descent.isSome) ∧
        u.mem = (r.bitErrors.foldl addBitError s).mem ∧ u.mem.banks = s.mem.banks ∧ u.mem.hbm = s.mem.hbm ∧
        (∀ c : CoreId, (s.core c).diodeDoubted = false → (s.core c).delayDoubted = false → r.diode.get c = r.delay.get c →
          105000 ≤ r.diode.get c → r.diode.get c ≤ 150000 → powered s = true → u.power.state = .quench))

/-- O23. For every state s in which every die's voltage and cap ceiling is a step of 10 mV from 600 to 850 mV, and every set of readings, a
teaser cycle's next state has the same property, and each die's voltage differs from before by 0 or 10 mV. [derived: 14_power_and_heat.md,
R377] -/
def Obligations.DieVoltageMovesOneStep : Prop :=
  ∀ (s t : State) (r : Readings),
    (∀ d : DieId, 600 ≤ (s.power.dies.get d).mv ∧ (s.power.dies.get d).mv ≤ 850 ∧ (s.power.dies.get d).mv % 10 = 0 ∧
      600 ≤ (s.power.dies.get d).ceiling ∧ (s.power.dies.get d).ceiling ≤ 850 ∧ (s.power.dies.get d).ceiling % 10 = 0) →
    exec (.teaserCycle r) s = .next t →
    ∀ d : DieId, 600 ≤ (t.power.dies.get d).mv ∧ (t.power.dies.get d).mv ≤ 850 ∧ (t.power.dies.get d).mv % 10 = 0 ∧
      600 ≤ (t.power.dies.get d).ceiling ∧ (t.power.dies.get d).ceiling ≤ 850 ∧ (t.power.dies.get d).ceiling % 10 = 0 ∧
      (t.power.dies.get d).mv ≤ (s.power.dies.get d).mv + 10 ∧ (s.power.dies.get d).mv ≤ (t.power.dies.get d).mv + 10

/-- O24. For every state s: with the teaser running, a core pair that has been hot for 10 ms begins an emergency descent that names it, with
the latch set and one more descent counted, unless one is in force; a descent whose end condition has held since an instant is over 1 s
after it; a pair that has disagreed for 5,000 cycles is marked suspect with exactly one of its sensors doubted, the one further from the
estimate; ten samples below the floor begin the count of their core anew and order its fence: pending in a RUNNING partition, done at once
in no partition (in a partition that runs no step its carried data moves, and the statement says only that the row runs); FLOW_LOW and
INLET_OUT are set 10 s after their conditions began and clear 10 s after they ended, the longer absent first. But for that move no byte of
memory changes, and a row whose condition is not met changes nothing. That a tie between the two sensors is decided by a free value is
DESIGN CHOICE, log entry 2, and the counts of cycles, more than 100 hot ones and 5,000 of disagreement, are the model's choice (DESIGN
CHOICE, log entry 75). The model's own too (DESIGN CHOICE): a row brings the time to its deadline (log entry 10); a row without an
occasion changes nothing (log entry 26). [derived: 14_power_and_heat.md, R398, R401, R403, R408, 01_beats_steps_and_replay.md, R18,
04_spatial_pipelines.md, R117] -/
def Obligations.HeatRowsAct : Prop :=
  ∀ (s : State) (c : CoreId),
    (exec (.coreHotDescent c) s = .next (if teaserRuns s = true ∧ 100 < (s.core c).hot then beginDescent s 0 c.val (s.core c).pair else s)) ∧
    (∀ kind idx reading, s.thermal.descent = none →
      (beginDescent s kind idx reading).thermal.descent = some (kind, idx, none) ∧ (beginDescent s kind idx reading).power.latch = true ∧
      (beginDescent s kind idx reading).power.thermGate = 0 ∧ (beginDescent s kind idx reading).thermal.ballast = false ∧
      (beginDescent s kind idx reading).power.descents = min (s.power.descents + 1) 255 ∧ (beginDescent s kind idx reading).mem = s.mem) ∧
    (∀ kind idx reading, s.thermal.descent ≠ none → beginDescent s kind idx reading = s) ∧
    (∀ kind idx since, s.thermal.descent = some (kind, idx, some since) →
      ∃ u, exec .descentEnd s = .next u ∧ u.thermal.descent = none ∧ u.power.thermGate = 0 ∧ u.now = max s.now (since + 1000000000) ∧ u.mem = s.mem) ∧
    ((∀ kind idx since, s.thermal.descent ≠ some (kind, idx, some since)) → exec .descentEnd s = .next s) ∧
    ((s.core c).suspect = false → 5000 ≤ (s.core c).disagree →
      ∃ u, exec (.pairSuspect c) s = .next u ∧ (u.core c).suspect = true ∧ (u.core c).disagree = 0 ∧
        (u.core c).diodeDoubted = !(u.core c).delayDoubted ∧
        (((s.core c).diode - (s.core c).estimate).natAbs ≠ ((s.core c).delay - (s.core c).estimate).natAbs →
          (u.core c).diodeDoubted = decide (((s.core c).delay - (s.core c).estimate).natAbs < ((s.core c).diode - (s.core c).estimate).natAbs)) ∧
        (∀ d, d ≠ c → u.core d = s.core d) ∧ u.mem = s.mem ∧ u.parts = s.parts) ∧
    (((s.core c).suspect = true ∨ (s.core c).disagree < 5000) → exec (.pairSuspect c) s = .next s) ∧
    (10 ≤ (s.core c).subFloor → (s.core c).state = .inService →
      ∃ u, exec (.floorMiss c) s = .next u ∧
        (partOfCore s c = none → (u.core c).state = .fenced ∧ (u.core c).subFloor = 0 ∧ (u.core c).cause = .floorMiss ∧ u.mem = s.mem) ∧
        (∀ p, partOfCore s c = some p → (s.part p).state = .running →
          (u.core c).state = .fencePending ∧ (u.core c).subFloor = 0 ∧ (u.core c).cause = .floorMiss ∧ u.mem = s.mem ∧ u.parts = s.parts)) ∧
    ((s.core c).subFloor < 10 → exec (.floorMiss c) s = .next s) ∧
    (∀ since, s.thermal.flowBadSince = some since → s.thermal.flowLow = false →
      ∃ u, exec .flowLow s = .next u ∧ u.thermal.flowLow = true ∧ u.now = max s.now (since + 10000000000) ∧ u.mem = s.mem ∧ u.parts = s.parts) ∧
    ((s.thermal.flowBadSince = none ∨ s.thermal.flowLow = true) → exec .flowLow s = .next s) ∧
    (∀ since, s.thermal.inletBadSince = some since → s.thermal.inletOut = false →
      ∃ u, exec .inletOut s = .next u ∧ u.thermal.inletOut = true ∧ u.now = max s.now (since + 10000000000) ∧ u.mem = s.mem ∧ u.parts = s.parts) ∧
    ((s.thermal.inletBadSince = none ∨ s.thermal.inletOut = true) → exec .inletOut s = .next s) ∧
    (∀ a, flowClearAt s.thermal = some a → (∀ b, inletClearAt s.thermal = some b → a ≤ b) →
      ∃ u, exec .coolantFlagClear s = .next u ∧ u.thermal.flowLow = false ∧ u.thermal.inletOut = s.thermal.inletOut ∧
        u.now = max s.now (a + 10000000000) ∧ u.mem = s.mem ∧ u.parts = s.parts) ∧
    (∀ b, inletClearAt s.thermal = some b → (∀ a, flowClearAt s.thermal = some a → b < a) →
      ∃ u, exec .coolantFlagClear s = .next u ∧ u.thermal.inletOut = false ∧ u.thermal.flowLow = s.thermal.flowLow ∧
        u.now = max s.now (b + 10000000000) ∧ u.mem = s.mem ∧ u.parts = s.parts) ∧
    (flowClearAt s.thermal = none → inletClearAt s.thermal = none → exec .coolantFlagClear s = .next s)

/-- O25. For every state s and every due NOP that may start, exec answers the next state in which it is issued with one work beat, no error
and no handover. Issuing a command with a number of work beats, an error and a handover descriptor changes no byte of memory, no owner
register, no other partition, no tally and no channel; it counts the work beats on the unit of its instance (a core, a cluster's transfer
engine, a video engine, or the gather or emit block of its stream's port) and on no other, and in WORK exactly for classes 1 to 4; the
issued count of its queue is one past the command's index; the position of its instance's turn list is one past the turn it took,
cyclically; and the command stands last among those that have not completed, with its signal, its handover and its STEP_END flag as its
record has them. The model's own too (DESIGN CHOICE): a command has its effect when it is issued (log entry 34). [derived:
02_turieno_contract.md, R44, R47, R48, 01_beats_steps_and_replay.md, R14, R15] -/
def Obligations.IssueEffect : Prop :=
  ∀ (s : State) (p : PartId) (q : Nat) (d : Due),
    (∀ qd : QueueDesc, descOf (s.part p) q = some qd → engineStarts s p q qd.cls 0xFF00 d → exec (.nop p q) s = .next (issue s d 1 0 none)) ∧
    (∀ (beats err : Nat) (hand : Option Handover) (t : State), dueAt s p q = some d → t = issue s d beats err hand →
      t.mem = s.mem ∧ t.owners = s.owners ∧ t.now = s.now ∧ d.p = p ∧ descOf (s.part p) q = some d.desc ∧
      (∀ p', p' ≠ p → t.part p' = s.part p') ∧ (t.part p).tallies = (s.part p).tallies ∧ (t.part p).chans = (s.part p).chans ∧
      (t.part p).stepWork = (s.part p).stepWork + (if 1 ≤ d.desc.cls ∧ d.desc.cls ≤ 4 then beats else 0) ∧
      ((s.part p).queues.any (fun r => r.queue == q) → issuedOf (t.part p) q = d.index + 1) ∧ d.index = issuedOf (s.part p) q ∧
      turnPos (t.part p) d.desc.cls d.desc.inst = d.next ∧
      (∀ pos e, nextTurn (s.part p) d.desc.inst (turnsOf (s.part p) d.desc.cls d.desc.inst) (turnPos (s.part p) d.desc.cls d.desc.inst) = some (pos, e) →
        e = q ∧ d.next = (pos + 1) % (turnsOf (s.part p) d.desc.cls d.desc.inst).length) ∧
      (t.part p).inflight = (s.part p).inflight ++
        [{ cls := d.desc.cls, inst := d.desc.inst, queue := q, index := d.index, stepEnd := stepEnd d.record,
           handover := if handoverEn d.record then hand else none,
           signal := if sigEn d.record then some (sigTally d.record, sigInc d.record) else none,
           error := err, walk := false, awaiting := false, ticket := 0 }] ∧
      (∀ c, 1 ≤ d.desc.cls → d.desc.cls ≤ 4 → physCore s (s.part p) d.desc.inst = some c →
        (t.core c).work = (s.core c).work + BitVec.ofNat 64 beats ∧ (∀ c', c' ≠ c → t.core c' = s.core c') ∧ t.clusters = s.clusters) ∧
      (∀ k, d.desc.cls = 5 → physCluster (s.part p) d.desc.inst = some k →
        (t.cluster k).beats = (s.cluster k).beats + BitVec.ofNat 64 beats ∧ (∀ k', k' ≠ k → t.cluster k' = s.cluster k') ∧ t.cores = s.cores) ∧
      (∀ e : DieId, d.desc.cls = 6 → e.val = d.desc.inst % 2 →
        (t.engine e).beats = (s.engine e).beats + BitVec.ofNat 64 beats ∧ (∀ e', e' ≠ e → t.engine e' = s.engine e') ∧ t.cores = s.cores) ∧
      (∀ b, d.desc.cls = 7 → s.csi.bindings.find? (fun b => b.part == p && b.stream == d.desc.inst) = some b →
        (if b.transmit then (t.csi.tx.get b.port).beats = (s.csi.tx.get b.port).beats + BitVec.ofNat 64 beats
         else (t.csi.rx.get b.port).beats = (s.csi.rx.get b.port).beats + BitVec.ofNat 64 beats) ∧
        t.cores = s.cores ∧ t.clusters = s.clusters ∧ t.video = s.video))

/-- O26. For every state s and due transfer command that may start: when its banks serve (as owner, or through the observer port where the
reference says so) and its stack is awake with the range inside the partition's space, exec answers the next state in which the bytes and
their poison marks are moved, the bit errors that the read met are found, and the command is issued with 4 + ceil(bytes / 2048) work beats
(4 for HBM_ZERO, 8 for SIZE_COPY) and with error 0x02 exactly when a word moved is poisoned. HBM_ZERO zeroes the range, and SIZE_COPY
writes the 512 bytes of the size table. A stack without a key delivers free bytes (DESIGN CHOICE, log entry 13). The model's own too
(DESIGN CHOICE): a command has its effect when it is issued (log entry 34). [derived: 05_banks_stacks_and_page_keys.md, R141, R142, R143,
R145, R136, 02_turieno_contract.md, R47, R48] -/
def Obligations.TransfersComplete : Prop :=
  ∀ (s : State) (p : PartId) (q : Nat) (d : Due) (k : ClusterId) (a b : Fin 288),
    (engineStarts s p q 5 0x0500 d → transferServes s d { bankRefOf (recField d.record 24 4) with observer := false } (recField d.record 36 4) b →
      stackServes s d (recField d.record 28 8) (recField d.record 36 4) k →
      exec (.hbmRead p q) s = .next (issue
        (moveToBank (meetStack s (stackAddr k (recField d.record 28 8)) (recField d.record 36 4))
          (bankAddr b (bankRefOf (recField d.record 24 4)).off) (stackPlain s k (recField d.record 28 8) (recField d.record 36 4))
          (marksRead s.mem.stackPoison (stackAddr k (recField d.record 28 8) / 64) (recField d.record 36 4 / 64)))
        d (4 + ceilDiv (recField d.record 36 4) 2048)
        (if (marksRead s.mem.stackPoison (stackAddr k (recField d.record 28 8) / 64) (recField d.record 36 4 / 64)).any (fun m => m) then 2 else 0)
        (handoverAt d.record 40 d.desc.inst))) ∧
    (engineStarts s p q 5 0x0501 d → transferServes s d (bankRefOf (recField d.record 24 4)) (recField d.record 36 4) b →
      stackServes s d (recField d.record 28 8) (recField d.record 36 4) k →
      exec (.hbmWrite p q) s = .next (issue
        (moveToStack (meetBank s (bankAddr b (bankRefOf (recField d.record 24 4)).off) (recField d.record 36 4)) (stackAddr k (recField d.record 28 8))
          (bankRead s (bankAddr b (bankRefOf (recField d.record 24 4)).off) (recField d.record 36 4))
          (marksRead s.mem.bankPoison (bankAddr b (bankRefOf (recField d.record 24 4)).off / 64) (recField d.record 36 4 / 64)))
        d (4 + ceilDiv (recField d.record 36 4) 2048)
        (if (marksRead s.mem.bankPoison (bankAddr b (bankRefOf (recField d.record 24 4)).off / 64) (recField d.record 36 4 / 64)).any (fun m => m)
          then 2 else 0)
        (handoverAt d.record 40 d.desc.inst))) ∧
    (engineStarts s p q 5 0x0502 d → transferServes s d (bankRefOf (recField d.record 24 4)) (recField d.record 32 4) a →
      transferServes s d { bankRefOf (recField d.record 28 4) with observer := false } (recField d.record 32 4) b →
      exec (.bankCopy p q) s = .next (issue
        (moveToBank (meetBank s (bankAddr a (bankRefOf (recField d.record 24 4)).off) (recField d.record 32 4))
          (bankAddr b (bankRefOf (recField d.record 28 4)).off)
          (bankRead s (bankAddr a (bankRefOf (recField d.record 24 4)).off) (recField d.record 32 4))
          (marksRead s.mem.bankPoison (bankAddr a (bankRefOf (recField d.record 24 4)).off / 64) (recField d.record 32 4 / 64)))
        d (4 + ceilDiv (recField d.record 32 4) 2048)
        (if (marksRead s.mem.bankPoison (bankAddr a (bankRefOf (recField d.record 24 4)).off / 64) (recField d.record 32 4 / 64)).any (fun m => m)
          then 2 else 0)
        (handoverAt d.record 40 d.desc.inst))) ∧
    (engineStarts s p q 5 0x0503 d → stackServes s d (recField d.record 28 8) (recField d.record 36 4) k →
      exec (.hbmZero p q) s = .next (issue (stackZero s (stackAddr k (recField d.record 28 8)) (recField d.record 36 4)) d 4 0 none)) ∧
    (engineStarts s p q 5 0xFF01 d → recField d.record 24 4 + 512 ≤ bankSize → ownedBy s p b 5 0 = true →
      physBank s (s.part p) d.desc.inst
        (if bitOf (recField d.record 29 1) 0 then 4 * (recField d.record 30 2 % 8) + recField d.record 28 1 % 4 else 32 + recField d.record 28 1 % 4) = some b →
      exec (.sizeCopy p q) s = .next (issue (bankWrite s (bankAddr b (recField d.record 24 4)) (sizeTable s)) d 8 0 none))

/-- O27. For every state s whose memory has its canonical form and every due command that may start and whose banks and stack serve: after a
BANK_COPY the destination holds the source's bytes and every byte of the banks outside it, and every byte of the stacks, is as before;
after an HBM_WRITE the stack's range holds the bank's bytes, with every other byte as before; after an HBM_READ of a stack that has a key
the bank's range holds the stack's bytes, with every other byte as before; after an HBM_ZERO the range reads zero and every other byte is
as before. [derived: 05_banks_stacks_and_page_keys.md, R141, R156, R140] -/
def Obligations.TransferBytes : Prop :=
  ∀ (s u : State) (p : PartId) (q : Nat) (d : Due) (k : ClusterId) (a b : Fin 288), memWf s.mem = true →
    (engineStarts s p q 5 0x0502 d → transferServes s d (bankRefOf (recField d.record 24 4)) (recField d.record 32 4) a →
      transferServes s d { bankRefOf (recField d.record 28 4) with observer := false } (recField d.record 32 4) b →
      exec (.bankCopy p q) s = .next u →
      bankRead u (bankAddr b (bankRefOf (recField d.record 28 4)).off) (recField d.record 32 4) =
        bankRead s (bankAddr a (bankRefOf (recField d.record 24 4)).off) (recField d.record 32 4) ∧
      u.mem.hbm = s.mem.hbm ∧
      ∀ x, x < bankAddr b (bankRefOf (recField d.record 28 4)).off ∨
          bankAddr b (bankRefOf (recField d.record 28 4)).off + recField d.record 32 4 ≤ x → cellRead u.mem.banks x = cellRead s.mem.banks x) ∧
    (engineStarts s p q 5 0x0501 d → transferServes s d (bankRefOf (recField d.record 24 4)) (recField d.record 36 4) b →
      stackServes s d (recField d.record 28 8) (recField d.record 36 4) k → exec (.hbmWrite p q) s = .next u →
      stackRead u (stackAddr k (recField d.record 28 8)) (recField d.record 36 4) =
        bankRead s (bankAddr b (bankRefOf (recField d.record 24 4)).off) (recField d.record 36 4) ∧
      u.mem.banks = s.mem.banks ∧
      ∀ x, x < stackAddr k (recField d.record 28 8) ∨ stackAddr k (recField d.record 28 8) + recField d.record 36 4 ≤ x →
        cellRead u.mem.hbm x = cellRead s.mem.hbm x) ∧
    (engineStarts s p q 5 0x0500 d → transferServes s d { bankRefOf (recField d.record 24 4) with observer := false } (recField d.record 36 4) b →
      stackServes s d (recField d.record 28 8) (recField d.record 36 4) k → (unitKey s k (recField d.record 28 8 / 64)).isSome = true →
      (unitKey s k ((recField d.record 28 8 + recField d.record 36 4 - 1) / 64)).isSome = true → exec (.hbmRead p q) s = .next u →
      bankRead u (bankAddr b (bankRefOf (recField d.record 24 4)).off) (recField d.record 36 4) =
        stackRead s (stackAddr k (recField d.record 28 8)) (recField d.record 36 4) ∧
      u.mem.hbm = s.mem.hbm ∧
      ∀ x, x < bankAddr b (bankRefOf (recField d.record 24 4)).off ∨
          bankAddr b (bankRefOf (recField d.record 24 4)).off + recField d.record 36 4 ≤ x → cellRead u.mem.banks x = cellRead s.mem.banks x) ∧
    (engineStarts s p q 5 0x0503 d → stackServes s d (recField d.record 28 8) (recField d.record 36 4) k → exec (.hbmZero p q) s = .next u →
      (∀ x, stackAddr k (recField d.record 28 8) ≤ x → x < stackAddr k (recField d.record 28 8) + recField d.record 36 4 →
        cellRead u.mem.hbm x = 0) ∧
      u.mem.banks = s.mem.banks ∧
      ∀ x, x < stackAddr k (recField d.record 28 8) ∨ stackAddr k (recField d.record 28 8) + recField d.record 36 4 ≤ x →
        cellRead u.mem.hbm x = cellRead s.mem.hbm x)

/-- O28. For every state s and due tensor command that may start: when the result's place serves (a bank of the logical core that the tensor
array owns and that holds it whole, or a channel with room) and the operands are there one after the other (in such a bank, or as whole
items of a channel), MATMUL answers the next state that stores the lanes of A × B transposed, joined with the exact partial records where
PARTIAL_IN is set, written once under WDESC, issued with the beats of R106 and the error of R110; REDUCE does the same for the sum of its
sources' records, with the beats of R108; GROUPED_MATMUL takes its groups in turn, with the beats of R107; with operands and result in
banks it always runs, changes no stack, no partition and no owner register, and for one group writes what MATMUL writes. The model's own
too (DESIGN CHOICE): a command has its effect when it is issued (log entry 34). [derived: 04_spatial_pipelines.md, R103, R104, R105, R106,
R107, R108, R110, 03_number_formats_and_exact_accumulation.md, R79, R81] -/
def Obligations.TensorCommandsComplete : Prop :=
  ∀ (s : State) (p : PartId) (q : Nat) (d : Due),
    (∀ (g : MatArgs) (pa pb pp : Plane) (s1 s2 s3 : State) (lanes : List Lane) (recs : List (Lane × Nat)), engineStarts s p q 1 0x0100 d →
      g = matArgs d.record → sinkServes s d g.c (lanesExtent g.w (g.m * g.n)) →
      readsServe s d ([(g.a, extent g.aFmt (g.m * g.k)), (g.b, extent g.bFmt (g.n * g.k))] ++
        (if g.partialIn then [(trefOf g.tail, 96 * (g.m * g.n))] else [])) →
      sourceServes s d g.a (extent g.aFmt (g.m * g.k)) pa s1 → sourceServes s1 d g.b (extent g.bFmt (g.n * g.k)) pb s2 →
      (if g.partialIn then sourceServes s2 d (trefOf g.tail) (96 * (g.m * g.n)) pp s3 else s3 = s2) →
      recs = (if g.partialIn then (List.range (g.m * g.n)).map (planeRecord pp) else []) →
      lanes = (matLanes (s.part p) g pa pb).mapIdx (fun i l => l.join (recs.getD i (Lane.start, 0)).1) →
      exec (.matmul p q) s = .next (issue (storeResult s3 d g.c 0 (writeLanes g.w (elemRandom (s.part p) d.record) lanes)) d (matBeats g 1)
        (joinErr (if planeBad pa g.aFmt (g.m * g.k) || planeBad pb g.bFmt (g.n * g.k) then 2 else 0) (recs.foldl (fun e r => joinErr e r.2) 0))
        (handoverAt d.record 53 (d.desc.inst / 8)))) ∧
    (∀ (g : MatArgs) (t : State) (e : Nat), engineStarts s p q 1 0x0101 d → g = matArgs d.record →
      sinkServes s d g.c (g.tail % 65536 * round64 (lanesExtent g.w (g.m * g.n))) →
      readsServe s d [(g.a, g.tail % 65536 * round64 (extent g.aFmt (g.m * g.k))), (g.b, g.tail % 65536 * round64 (extent g.bFmt (g.n * g.k)))] →
      (List.range (g.tail % 65536)).foldlM (fun acc grp => groupedOne d g grp acc) (s, 0) = .ok (t, e) →
      exec (.groupedMatmul p q) s = .next (issue t d (matBeats g (g.tail % 65536)) e (handoverAt d.record 53 (d.desc.inst / 8)))) ∧
    (∀ (g : MatArgs) (groups : Nat) (ba bb bc : Fin 288), engineStarts s p q 1 0x0101 d → g = matArgs d.record → groups = g.tail % 65536 →
      g.a.kind = 0 → g.b.kind = 0 → g.c.kind = 0 →
      coreBankServes s d g.a.bank (groups * round64 (extent g.aFmt (g.m * g.k))) g.a.off ba →
      coreBankServes s d g.b.bank (groups * round64 (extent g.bFmt (g.n * g.k))) g.b.off bb →
      coreBankServes s d g.c.bank (groups * round64 (lanesExtent g.w (g.m * g.n))) g.c.off bc →
      ∃ t e, exec (.groupedMatmul p q) s = .next (issue t d (matBeats g groups) e (handoverAt d.record 53 (d.desc.inst / 8))) ∧
        t.mem.hbm = s.mem.hbm ∧ t.parts = s.parts ∧ t.owners = s.owners ∧ (e = 0 ∨ e = 2) ∧
        (groups = 1 → e = (if planeBad (bankPlane s ba g.a.off) g.aFmt (g.m * g.k) || planeBad (bankPlane s bb g.b.off) g.bFmt (g.n * g.k) then 2 else 0) ∧
          t = bankWrite (meetBank (meetBank s (bankAddr ba g.a.off) (extent g.aFmt (g.m * g.k))) (bankAddr bb g.b.off) (extent g.bFmt (g.n * g.k)))
            (bankAddr bc g.c.off) (writeLanes g.w (elemRandom (s.part p) d.record)
            (matLanes (s.part p) g (bankPlane s ba g.a.off) (bankPlane s bb g.b.off))))) ∧
    (∀ (pls : List Plane) (t : State) (r : CmdRecord) (count nsrc : Nat) (ls : List (Lane × Nat)), engineStarts s p q 1 0x0102 d → r = d.record →
      count = bitsOf (recField r 32 4) 23 0 → nsrc = bitsOf (recField r 32 4) 26 24 →
      sinkServes s d (trefOf (recField r 24 4)) (lanesExtent (wdescOf (recField r 28 4)) count) →
      readsServe s d ((List.range nsrc).map (fun i => (trefOf (recField r (36 + 4 * i) 4), 96 * count))) →
      reduceSources d count ((List.range nsrc).map (fun i => trefOf (recField r (36 + 4 * i) 4))) s = .ok (pls, t) →
      ls = (List.range count).map (reduceLane pls) →
      exec (.reduce p q) s = .next (issue
        (storeResult t d (trefOf (recField r 24 4)) 0 (writeLanes (wdescOf (recField r 28 4)) (fun _ => 0) (ls.map (fun l => l.1)))) d
        (12 + ceilDiv count 256 * (6 * nsrc + (if (wdescOf (recField r 28 4)).fmt = 31 then 6 else 1)))
        (ls.foldl (fun e l => joinErr e l.2) 0) none))

/-- O29. For every state s and due window command that may start: when its banks serve, its outbound halo channels have room, its inbound halo
rows are there and its outbound rows can be sent, exec answers the next state that stores the command's result: the exact sums of the
windows written under WDESC (DWCONV), the patch rows of the input with their poison marks, in a bank or on a channel (WGATHER), or the
selected sample of every window (POOL_MAX, POOL_MIN), issued with the work beats of R174, R176 and R177 and with error 0x02 when a tap, a
halo item or a weight is poisoned (a carried record gives 0x02 when it is poisoned and 0x01 when it is no record). A command without halo
flags needs no channel: its input rows are read from its bank alone and nothing is sent. How a command that writes many items shares time
with its reader is DESIGN CHOICE, log entry 12, what bytes a WGATHER sends on a halo channel, log entry 50, and what an item holds for a
row that the result lacks, log entry 142. The model's own too (DESIGN CHOICE): a command has its effect when it is issued (log entry 34).
[derived: 06_window_engine.md, R162, R166, R169, R173, R174, R176, R177, R182] -/
def Obligations.WindowCommandsComplete : Prop :=
  ∀ (s s1 s2 s3 s4 : State) (p : PartId) (q : Nat) (d : Due) (g : Geo) (i : WinIn) (hin hout : Nat) (ob wb : Fin 288), g = geoOf d.record →
    (∀ (lanes : List Lane) (recs : List (Lane × Nat)), engineStarts s p q 3 0x0300 d →
      coreBankServes s d g.out.bank (max (lanesExtent g.w (g.c * g.orows * g.ow)) (if g.partialIn then 96 * (g.c * g.orows * g.ow) else 0))
        g.out.off ob →
      coreBankServes s d g.wgt.bank (planeBytes g.wFmt (g.c * g.kh * g.kw)) g.wgt.off wb →
      haloRoom d g s = .ok () → haloRead d g s = .ok (i, hin, s1) →
      recs = (if g.partialIn then (List.range (g.c * g.orows * g.ow)).map (planeRecord (bankPlane s ob g.out.off)) else []) →
      lanes = ((positions g).map (dwLane g i (bankPlane s wb g.wgt.off))).mapIdx (fun e l => l.join (recs.getD e (Lane.start, 0)).1) →
      haloWrite d g (fun r =>
        (if g.w.fmt = 31 then ((List.range g.c).flatMap (fun c => (List.range g.ow).flatMap (fun ox =>
            (lanes.getD ((c * g.orows + r) * g.ow + ox) Lane.start).record)))
         else resultRow g g.w.fmt (fun e => (lanes.mapIdx (fun e l => writeScalar g.w (elemRandom (s.part p) d.record e) l.value)).getD e 0) r, false)) s1
        = .ok (hout, s2) →
      s3 = meetBank s2 (bankAddr wb g.wgt.off) (planeBytes g.wFmt (g.c * g.kh * g.kw)) →
      s4 = (if g.partialIn then meetBank s3 (bankAddr ob g.out.off) (96 * (g.c * g.orows * g.ow)) else s3) →
      exec (.dwconv p q) s = .next (issue (storeResult s4 d g.out 0 (writeLanes g.w (elemRandom (s.part p) d.record) lanes)) d
        (12 + g.c * g.orows * ceilDiv g.ow 256 * (g.kh * g.kw * fp32Rate g + outBeats g.w + (if g.partialIn then 6 else 0)) + hin + hout)
        (joinErr (if tapsBad g i || planeBad (bankPlane s wb g.wgt.off) g.wFmt (g.c * g.kh * g.kw) then 2 else 0) (recs.foldl (fun e r => joinErr e r.2) 0))
        (handoverAt d.record 56 (d.desc.inst / 8)))) ∧
    (engineStarts s p q 3 0x0301 d → sinkServes s d g.out (patchBytes g) → haloRoom d g s = .ok () → haloRead d g s = .ok (i, hin, s1) →
      haloWrite d g (fun r => (gatherHalo d g i (s.part p).step r, false)) s1 = .ok (hout, s2) →
      exec (.wgather p q) s = .next (issue (patchStore s2 d g (patchSamples g i)) d
        (12 + g.orows * ceilDiv (g.ow * (g.c * g.kh * g.kw) * fmtBits g.inFmt) 32768 + hin + hout)
        (if haloBad i || (patchSamples g i).any (fun a => a.bad) then 2 else 0) (handoverAt d.record 56 (d.desc.inst / 8)))) ∧
    (∀ (isMax : Bool) (codes : List Nat), engineStarts s p q 3 (if isMax then 0x0302 else 0x0303) d →
      coreBankServes s d g.out.bank (planeBytes g.w.fmt (g.c * g.orows * g.ow)) g.out.off ob →
      haloRoom d g s = .ok () → haloRead d g s = .ok (i, hin, s1) →
      codes = ((positions g).map (fun q => poolPick isMax g.inFmt ((taps g).map (fun t => tapSample g i q.1 q.2.1 q.2.2 t.1 t.2)))).mapIdx
        (fun e a => poolCode g (elemRandom (s.part p) d.record e) a) →
      haloWrite d g (fun r => (resultRow g g.w.fmt (fun e => codes.getD e 0) r, false)) s1 = .ok (hout, s2) →
      (if isMax then exec (.poolMax p q) s else exec (.poolMin p q) s) = .next (issue (storeResult s2 d g.out 0 (packPlane g.w.fmt codes)) d
        (12 + g.c * g.orows * ceilDiv g.ow 256 * (g.kh * g.kw + 1) + hin + hout) (if tapsBad g i then 2 else 0)
        (handoverAt d.record 56 (d.desc.inst / 8)))) ∧
    (g.haloIn = false → coreBankServes s d g.inp.bank (planeBytes g.inFmt (g.c * g.rows * g.width)) g.inp.off ob →
      ∃ j, haloRead d g s = .ok (j, 0, meetBank s (bankAddr ob g.inp.off) (planeBytes g.inFmt (g.c * g.rows * g.width))) ∧ j.pl = bankPlane s ob g.inp.off ∧ j.ht = 0 ∧ j.hb = 0) ∧
    (g.haloOut = false → haloRoom d g s = .ok () ∧ ∀ row, haloWrite d g row s1 = .ok (0, s1))

/-- O30. For every window geometry without halo rows and every virtual position: a position inside the virtual input whose row and column are
multiples of the insertion factors reads the element at the quotients; any other position inside reads an inserted zero; a position
outside in row or column reads 0 in padding mode 0 and the code PAD in mode 1; in mode 2 it reads what the nearest position inside reads.
[derived: 06_window_engine.md, R162, R163, R164] -/
def Obligations.SamplesAtTheEdges : Prop :=
  ∀ (g : Geo) (i : WinIn) (c y x : Nat), i.ht = 0 → i.hb = 0 → 1 ≤ g.upsy → 1 ≤ g.upsx → 1 ≤ g.rows → 1 ≤ g.width →
    (y < g.rows → x < g.width →
      winSample g i c ((y * g.upsy : Nat) : Int) ((x * g.upsx : Nat) : Int) = rawSample i.pl g.inFmt ((c * g.rows + y) * g.width + x)) ∧
    (∀ vy vx : Int, 0 ≤ vy → vy ≤ (g.rows : Int) * g.upsy - g.upsy → 0 ≤ vx → vx ≤ (g.width : Int) * g.upsx - g.upsx →
      (vy % g.upsy ≠ 0 ∨ vx % g.upsx ≠ 0) → winSample g i c vy vx = { raw := 0, bad := false }) ∧
    (∀ vy vx : Int, (vy < 0 ∨ (g.rows : Int) * g.upsy - g.upsy < vy ∨ vx < 0 ∨ (g.width : Int) * g.upsx - g.upsx < vx) →
      (g.mode = 0 → winSample g i c vy vx = { raw := 0, bad := false }) ∧
      (g.mode = 1 → winSample g i c vy vx = { raw := g.padc, bad := false }) ∧
      (g.mode = 2 → winSample g i c vy vx =
        winSample g i c (max 0 (min vy ((g.rows : Int) * g.upsy - g.upsy))) (max 0 (min vx ((g.width : Int) * g.upsx - g.upsx)))))

/-- O31. For every state s and due command that may start and whose banks serve: GLOBAL_AVG answers the next state that stores, per channel,
the exact sum of its elements joined with its sources' records, as exact partial records for OUT_FMT 31 and else divided exactly by
DIVISOR (not divided where it is 0) and written once, issued with the work beats of R178 and with error 0x02 when an element or a record
is poisoned, else 0x01 when a record is no record; ARGMAX_CH stores the index of the channel that ranks first at each pixel (among the
planes' choices and its channels in a chain), and where they are named the value plane and the NaN flag plane, issued with the work beats
of R180 and with error 0x02 exactly when it read a poisoned word. The choice of a pixel without a chain is one of the command's channels,
the first whose sample is a NaN where there is one. The model's own too (DESIGN CHOICE): a command has its effect when it is issued (log
entry 34). [derived: 06_window_engine.md, R173, R178, R179, R180, R182] -/
def Obligations.GlobalAvgAndArgmaxComplete : Prop :=
  ∀ (s : State) (p : PartId) (q : Nat) (d : Due) (r : CmdRecord) (ib ob pb vb fb : Fin 288), r = d.record →
    (∀ (w : Wdesc) (n c nsrc fmt : Nat) (lanes : List Lane) (recs : Nat → List (Lane × Nat)) (t : State), engineStarts s p q 3 0x0304 d →
      w = wdescOf (recField r 36 4) → n = recField r 40 4 → c = recField r 48 2 + 1 → fmt = recField r 50 1 → nsrc = recField r 51 1 →
      coreBankServes s d (trefOf (recField r 24 4)).bank (planeBytes fmt (c * n)) (trefOf (recField r 24 4)).off ib →
      coreBankServes s d (trefOf (recField r 28 4)).bank (lanesExtent w c) (trefOf (recField r 28 4)).off ob →
      (nsrc = 0 ∨ coreBankServes s d (trefOf (recField r 32 4)).bank (96 * c * nsrc) (trefOf (recField r 32 4)).off pb) →
      recs = (fun ch => (List.range nsrc).map (fun i => planeRecord (bankPlane s pb (trefOf (recField r 32 4)).off) (i * c + ch))) →
      lanes = (List.range c).map (fun ch => (recs ch).foldl (fun l a => l.join a.1)
        ((List.range n).foldl (fun l e => l.add ((rawSample (bankPlane s ib (trefOf (recField r 24 4)).off) fmt (ch * n + e)).num fmt)) Lane.start)) →
      t = meetBank (if nsrc = 0 then s else meetBank s (bankAddr pb (trefOf (recField r 32 4)).off) (96 * c * nsrc))
        (bankAddr ib (trefOf (recField r 24 4)).off) (planeBytes fmt (c * n)) →
      ∃ e, exec (.globalAvg p q) s = .next (issue (storeResult t d (trefOf (recField r 28 4)) 0
          (if w.fmt = 31 then lanes.flatMap Lane.record
           else planeOut (writeOut w (elemRandom (s.part p) r) (lanes.map (fun l => divideBy (recField r 44 4) l.value))))) d
          (12 + c * ceilDiv n 256 + ceilDiv c 256 * (6 * nsrc + outBeats w + (if recField r 44 4 = 0 then 0 else 4))) e
          (handoverAt r 56 (d.desc.inst / 8))) ∧
        e = joinErr (if (List.range (c * n)).any (fun e => (rawSample (bankPlane s ib (trefOf (recField r 24 4)).off) fmt e).bad) then 2 else 0)
          ((List.range c).foldl (fun e ch => (recs ch).foldl (fun e a => joinErr e a.2) e) 0)) ∧
    (∀ (g : ArgArgs) (pl vp xp fp : Plane), engineStarts s p q 3 0x0305 d → g = argArgs r →
      coreBankServes s d g.inp.bank (planeBytes g.fmt (g.c * g.px)) g.inp.off ib → coreBankServes s d g.idx.bank (2 * g.px) g.idx.off ob →
      (if g.hasVal then coreBankServes s d g.val.bank (planeBytes g.fmt g.px) g.val.off vb else vb = ib) →
      (if g.hasFlg then coreBankServes s d g.flg.bank (ceilDiv g.px 8) g.flg.off fb else fb = ib) →
      pl = bankPlane s ib g.inp.off → vp = bankPlane s vb g.val.off → xp = bankPlane s ob g.idx.off → fp = bankPlane s fb g.flg.off →
      exec (.argmaxCh p q) s = .next (issue (argStore (argMeets s g ib ob vb fb) d g ((List.range g.px).map (argPick g pl vp xp fp))) d
          (12 + ceilDiv g.px 256 * (g.c + 4)) (if argBad g pl vp xp fp then 2 else 0) (handoverAt r 56 (d.desc.inst / 8)))) ∧
    (∀ (g : ArgArgs) (pl vp xp fp : Plane) (px : Nat), g = argArgs r → g.chain = false →
      ∃ ch, ch < g.c ∧ argPick g pl vp xp fp px =
          { idx := g.cbase + ch, val := rawSample pl g.fmt (ch * g.px + px), nan := (rawSample pl g.fmt (ch * g.px + px)).num g.fmt == .nan } ∧
        (∀ c, c < g.c → (rawSample pl g.fmt (ch * g.px + px)).num g.fmt ≠ .nan → (rawSample pl g.fmt (c * g.px + px)).num g.fmt ≠ .nan) ∧
        (∀ c, c < ch → (rawSample pl g.fmt (ch * g.px + px)).num g.fmt = .nan → (rawSample pl g.fmt (c * g.px + px)).num g.fmt ≠ .nan))

/-- O32. For every state s and due command that may start and whose banks, query operand and result place serve: ATTN answers the next state
that stores, with FINISH set, the finished codes of its rows (a quotient whose denominator is zero or no finite number is a free value,
DESIGN CHOICE, log entry 15) and otherwise their state records with the counts of keys advanced by NKEY, issued with the work beats of
R187 and with error 0x02 when the query, a token record, the block of R186 or a state record read is poisoned, else 0x01 when a state
record is none. A vector command whose operands the loader lets through (BF16 or FP32 in; the descriptor of R80; a curve writes FP32 or
BF16) stores one code per element, its exact result of one, two or three operands rounded once (an ordering of a NaN and a poisoned
operand give free values, DESIGN CHOICE, log entry 16), with error 0x02 exactly when an operand is poisoned and a work-beat count that the
spec does not state. The model's own too (DESIGN CHOICE): a command has its effect when it is issued (log entry 34). [derived:
07_attention_and_kv_pages.md, R185, R187, R189, R193, R197, 03_number_formats_and_exact_accumulation.md, R80, R88, R89, R92] -/
def Obligations.AttentionAndVectorComplete : Prop :=
  ∀ (s : State) (p : PartId) (q : Nat) (d : Due),
    (∀ (a : AttnArgs) (kb ab : Fin 288) (qp : Plane) (s1 : State) (rs : List RowState), engineStarts s p q 2 0x0200 d → a = attnArgs d.record →
      coreBankServes s d a.kv.bank (ceilDiv a.nk a.tpp * 65536) a.kv.off kb →
      coreBankServes s d a.aux.bank (64 + (if a.stateIn then a.npos * a.g * stateBytes a.d else 0)) a.aux.off ab →
      sinkServes s d a.o (if a.finish then planeBytes a.w.fmt (a.npos * a.g * a.d) else a.npos * a.g * stateBytes a.d) →
      readsServe s d [(a.q, planeBytes a.qFmt (a.npos * a.g * a.d))] →
      sourceServes (meetBank (meetKeys s a kb) (bankAddr ab a.aux.off) a.auxBytes) d a.q
        (planeBytes a.qFmt (a.npos * a.g * a.d)) qp s1 →
      rs = (List.range (a.npos * a.g)).map (attnRow (s.part p).tables a qp (bankPlane s kb a.kv.off) (bankPlane s ab a.aux.off)) →
      exec (.attn p q) s = .next (issue (storeResult s1 d a.o 0 (if a.finish then packPlane a.w.fmt (finishCodes a.w rs)
          else rs.flatMap (fun r => writeState r ((r.keys + a.nk) % 2 ^ 32)))) d (attnBeats a)
          (attnErr a qp (bankPlane s kb a.kv.off) (bankPlane s ab a.aux.off)) (handoverAt d.record 53 (d.desc.inst / 8))) ∧
        (attnErr a qp (bankPlane s kb a.kv.off) (bankPlane s ab a.aux.off) = 2 ↔
          (bankPlane s ab a.aux.off).bad 0 = true ∨ qp.anyBad 0 (planeBytes a.qFmt (a.npos * a.g * a.d)) = true ∨
          (∃ j, j < a.nk ∧ (bankPlane s kb a.kv.off).anyBad (tokenAt a j) (2 * halfBytes a.kvFmt a.d) = true) ∨
          (a.stateIn = true ∧ (bankPlane s ab a.aux.off).anyBad 64 (a.npos * a.g * stateBytes a.d) = true))) ∧
    (∀ (v : VecArgs) (ob ab bb cb : Fin 288) (pa pb pc : Plane) (codes : List Nat) (o : Nat), o = recOpcode d.record → o < 0xFF00 →
      vecOk v d.record = true → engineStarts s p q 4 o d →
      coreBankServes s d v.out.1 (planeBytes (wdescOf v.wdesc).fmt v.count) v.out.2 ob →
      coreBankServes s d v.a.1 (planeBytes v.fmt v.count) v.a.2 ab →
      (if 2 ≤ vecArity v.op then coreBankServes s d v.b.1 (planeBytes v.fmt v.count) v.b.2 bb else bb = ab) →
      (if 3 ≤ vecArity v.op then coreBankServes s d v.c.1 (planeBytes v.fmt v.count) v.c.2 cb else cb = ab) →
      pa = bankPlane s ab v.a.2 → pb = (if 2 ≤ vecArity v.op then bankPlane s bb v.b.2 else pa) →
      pc = (if 3 ≤ vecArity v.op then bankPlane s cb v.c.2 else pa) →
      codes = vecCodes (s.part p).tables v (elemRandom (s.part p) d.record) pa pb pc →
      exec (.vectorCommand p q v) s = .next (issue
          (bankWrite (vecMeets s v ab bb cb) (bankAddr ob v.out.2) (packPlane (wdescOf v.wdesc).fmt codes)) d
          (Config.vectorBeats (vecOpNo v.op) v.fmt v.count) (if (List.range v.count).any (vecBad v pa pb pc) then 2 else 0) (vecHand v d)) ∧
        codes.length = v.count ∧
        (∀ n x, n < v.count → vecBad v pa pb pc n = false → (v.op = .recip → curveNegZero 2 (vecElem v pa n) = false) →
          vecResult (s.part p).tables v.op (vecElem v pa n) (vecElem v pb n) (vecElem v pc n) = some x →
          codes[n]? = some (writeScalar (wdescOf v.wdesc) (elemRandom (s.part p) d.record n) x)))

/-- O33. For every state s: a stage record whose KV turn has come and which is ready, whose run of pages fits a bank that the transfer engine
owns and whose stack is awake, answers the next state that has read its pages one after the other into the bank, issued with 4 + 32 ×
COUNT work beats and with the error that naming and reading them met; an append record whose slot is empty, or whose entries meet an error
of R210 (of an entry beyond CAP, and of a word that cannot be read: DESIGN CHOICE, log entry 146), changes no byte of memory, takes its
beats and carries that error; one that meets none has stored its token records; the copy phase of an awake stack, after its house turn,
copies the ordered pages in order and ends the list, without beats; the house turn of an awake stack marks the frames it has read in full
within its allowance, keeps how much it has read of one it has begun, takes its cluster off those that wait for it, and changes no byte of
memory. That the turn list names walk lists by entries from 65536 on is DESIGN CHOICE, log entry 137, what else a house turn moves, log
entry 133. The model's own too (DESIGN CHOICE): a command has its effect when it is issued (log entry 34). [derived:
07_attention_and_kv_pages.md, R206, R207, R208, R210, R212, 05_banks_stacks_and_page_keys.md, R144] -/
def Obligations.WalkAndCopyComplete : Prop :=
  ∀ (s : State) (p : PartId) (lc : Nat) (k : ClusterId),
    (∀ (w : WalkDue) (a : Nat) (r : State × Nat), walkDue s p lc 1 = some w → walkReady (s.part p) w.record = true → headPending (s.part p) lc = false →
      walkBank s p w.lc (walkField w.record 12 4) (walkField w.record 8 1 * 65536) = .ok a → physCluster (s.part p) w.lc = some k →
      (s.cluster k).selfRefresh = false →
      r = stagePages s (s.part p) w k a (walkField w.record 6 2) (walkField w.record 8 1) →
      exec (.walkStage p lc) s = .next (issueWalk r.1 p w (4 + 32 * walkField w.record 8 1) r.2) ∧ r.1.mem.hbm = s.mem.hbm ∧
        r.1.parts = s.parts ∧ r.1.owners = s.owners ∧
        (memWf s.mem = true → ∀ i, i < walkField w.record 8 1 → bankRead r.1 (a + i * 65536) 65536 =
          stackPlain s k ((stageTarget s (s.part p) w (walkField w.record 6 2 + i)).1 % 2 ^ 20 * 65536) 65536)) ∧
    (∀ (w : WalkDue) (a n tr : Nat), walkDue s p lc 2 = some w → walkReady (s.part p) w.record = true → headPending (s.part p) lc = false →
      n = walkField w.record 8 1 → tr = 2 * walkField w.record 30 2 →
      walkBank s p w.lc (walkField w.record 12 4) (n * tr) = .ok a → physCluster (s.part p) w.lc = some k →
      (seqInSlot (s.part p) (walkField w.record 2 2) = none →
        exec (.walkAppend p lc) s = .next (issueWalk s p w (4 + ceilDiv (n * tr) 2048) 0)) ∧
      (∀ sq e m t, seqInSlot (s.part p) (walkField w.record 2 2) = some sq → (s.cluster k).selfRefresh = false →
        e = (appendEntries (16 * walkField w.record 29 1) sq.len n).foldl (fun acc x => joinErr acc (appendError s (s.part p) w x)) 0 →
        m = (appendEntries (16 * walkField w.record 29 1) sq.len n).foldl (fun t x => appendMeet t (s.part p) w x) s →
        t = (if e = 0 then appendRecords m (s.part p) w k sq a tr (16 * walkField w.record 29 1) n else m) →
        exec (.walkAppend p lc) s = .next (issueWalk t p w (4 + ceilDiv (n * tr) 2048) e) ∧ t.mem.banks = s.mem.banks ∧ t.parts = s.parts ∧
          m.mem.hbm = s.mem.hbm)) ∧
    (∀ kc, (s.part p).kv[lc]? = some kc → physCluster (s.part p) lc = some k → stepping s p = true → (s.cluster k).selfRefresh = false →
      (s.part p).houseTodo.contains lc = false →
      ∃ u, exec (.copyPhase p lc) s = .next u ∧ copiesPending (u.part p) lc = false ∧ u.mem = (kc.copies.foldl (fun s c => copyPage s k c.1 c.2) s).mem ∧
        u.mem.banks = s.mem.banks ∧ (∀ c, (u.core c).work = (s.core c).work) ∧ (∀ c, (u.cluster c).beats = (s.cluster c).beats) ∧
        (∀ p', p' ≠ p → u.part p' = s.part p')) ∧
    (∀ (i : Image) (room : Nat) (r : HouseRun), physCluster (s.part p) lc = some k → (s.part p).image = some i → stepping s p = true →
      (s.cluster k).selfRefresh = false → room = i.houseMib * 2 ^ 20 - (assocGet lc (s.part p).houseUsed).getD 0 →
      r = houseEntries s k (s.part p).step room (s.part p).houseMoved (s.part p).journal →
      ∃ u, exec (.houseTurn p lc) s = .next u ∧ (u.part p).journal = r.entries ∧ (u.part p).houseMoved = r.moved ∧
        (u.part p).houseTodo.contains lc = false ∧ u.mem.banks = s.mem.banks ∧ u.mem.hbm = s.mem.hbm ∧ u.owners = s.owners ∧
        (∀ p', p' ≠ p → u.part p' = s.part p'))

/-- O34. For every state s and the command of an engine instance that completes next in a partition whose step runs: exec answers the next
state after its completion, whatever error the command carries. The command no longer stands among those not complete; its signal's
increment has been added to its tally, and to no other, up to the saturation of R52; its handover has written OWNER and UNIT of its bank
and left OBSERVER, PART and PART_VALID, and no other owner register has changed; a frame command of a video engine has been counted; no
byte of memory has changed, and outside replay no other partition. An EMIT completes no earlier than its frame's end (DESIGN CHOICE, log
entry 147). Where commands of the instance have not completed and none can, only waiting beats are counted; where there is none, or the
step does not run, the row changes nothing. The model's own too (DESIGN CHOICE): a row without an occasion changes nothing (log entry 26).
[derived: 02_turieno_contract.md, R49, R52, R54, 05_banks_stacks_and_page_keys.md, R131, R132, R136, 09_video_engine.md] -/
def Obligations.CompletionSignals : Prop :=
  ∀ (s : State) (p : PartId) (cls inst : Nat),
    ((stepping s p = false ∨ ∀ e ∈ (s.part p).inflight, ¬(e.cls = cls ∧ e.inst = inst)) → exec (.commandCompletion p cls inst) s = .next s) ∧
    (stepping s p = true → oldest (s.part p) cls inst = none → (∃ e ∈ (s.part p).inflight, e.cls = cls ∧ e.inst = inst) →
      ∃ u, exec (.commandCompletion p cls inst) s = .next u ∧ u = waits s p cls inst ∧ u.mem = s.mem ∧ u.owners = s.owners ∧ u.parts = s.parts) ∧
    (∀ e : InFlight, stepping s p = true → oldest (s.part p) cls inst = some e →
      ∃ u, exec (.commandCompletion p cls inst) s = .next u ∧ (u.part p).inflight = (s.part p).inflight.erase e ∧ u.mem = s.mem ∧
        (e.cls = 7 → e.ticket ≤ u.now) ∧ ((s.part p).replay = false → ∀ p', p' ≠ p → u.part p' = s.part p') ∧
        (∀ t inc, e.signal = some (t, inc) → t < (s.part p).tallies.length →
          tallyOf (u.part p) t = min (tallyOf (s.part p) t + inc) (2 ^ 64 - 1) ∧ ∀ t', t' ≠ t → tallyOf (u.part p) t' = tallyOf (s.part p) t') ∧
        (e.signal = none → (u.part p).tallies = (s.part p).tallies) ∧
        (∀ h b, e.handover = some h → physBank s (s.part p) h.cluster h.bank = some b →
          u.owner b = { s.owner b with owner := h.owner, unit := h.unit } ∧ ∀ c, c ≠ b → u.owner c = s.owner c) ∧
        (e.handover = none → u.owners = s.owners) ∧
        (e.cls = 6 → e.walk = false → (opcodeAt (s.part p) e.queue e.index = 0x0601 ∨ opcodeAt (s.part p) e.queue e.index = 0x0602) →
          (u.part p).frames = ((s.part p).frames + 1) % 2 ^ 32) ∧
        (e.cls ≠ 6 → (u.part p).frames = (s.part p).frames))

/-- O35. For every block-scaled format, every data plane, scale plane and codebook and every element whose block's scale byte is 0xFF: adding
the product of that element with any value, on either side, to any lane sets the lane's NaN flag and changes nothing else of the lane.
[stated: R71] -/
def Obligations.NanScaleMakesNanProducts : Prop :=
  ∀ (rd sc : Nat → Nat) (tab : List Nat) (code i : Nat), isBlock code = true → sc (i / 32) = 0xFF →
    ∀ (l : Lane) (b : Sys2Proof.Machine.Num), l.mulAdd (readElem rd sc tab code i) b = { l with nan := true } ∧
      l.mulAdd b (readElem rd sc tab code i) = { l with nan := true }

/-- O36. For every list of products and every way of dividing them, in any order, into groups: accumulating each group in a lane of its own
and then joining the lanes gives the lane that accumulates them all in the given order. So the value and the bits written under any
descriptor with any random word are equal. [stated: R78] -/
def Obligations.LaneIsOrderFree : Prop :=
  ∀ (products : List (Sys2Proof.Machine.Num × Sys2Proof.Machine.Num)) (groups : List (List (Sys2Proof.Machine.Num × Sys2Proof.Machine.Num))), groups.flatten.Perm products →
    (groups.map (fun g => g.foldl (fun l p => l.mulAdd p.1 p.2) Lane.start)).foldl Lane.join Lane.start =
      products.foldl (fun l p => l.mulAdd p.1 p.2) Lane.start ∧
    ∀ (w : Wdesc) (r : Nat),
      writeScalar w r ((groups.map (fun g => g.foldl (fun l p => l.mulAdd p.1 p.2) Lane.start)).foldl Lane.join Lane.start).value =
        writeScalar w r (products.foldl (fun l p => l.mulAdd p.1 p.2) Lane.start).value

/-- O37. For every write-out descriptor of a scalar format or element of a block format and every random word: an exact value of zero writes
the code 0; a nonzero value whose rounded magnitude code is 0 writes, in the floating-point formats and the floating-point elements of
block formats, the code whose only set bit is the sign bit when the value is negative, and 0 when it is positive. [stated: R84] -/
def Obligations.ZerosKeepTheirSign : Prop :=
  (∀ (d : Wdesc) (r : Nat) (neg : Bool) (den : Nat), writeScalar d r (.num neg 0 den) = 0) ∧
  (∀ (d : Wdesc) (f : FloatFmt) (r n den : Nat) (neg : Bool), floatFmt d.fmt = some f → n ≠ 0 →
    floatCode f (shiftRatio n den d.shift).1 (shiftRatio n den d.shift).2 d.rnd r = 0 →
    writeScalar d r (.num neg n den) = (if neg then 2 ^ (f.bits - 1) else 0)) ∧
  (∀ (fmt rnd r den : Nat) (neg : Bool), 9 ≤ fmt → fmt ≤ 12 → mxElem fmt rnd r neg 0 den = 0) ∧
  (∀ (fmt rnd r n den : Nat) (f : FloatFmt) (neg : Bool), 9 ≤ fmt → fmt ≤ 11 → floatFmt (mxElement fmt) = some f → n ≠ 0 →
    floatCode f n den rnd r = 0 → mxElem fmt rnd r neg n den = (if neg then 2 ^ (f.bits - 1) else 0))

/-- O38. For every lane whose value lies in the accumulator's range of R75, its 96 bytes are a valid exact partial record and reading them
back gives the same lane, value and flags. [derived: 03_number_formats_and_exact_accumulation.md, R75, R79] -/
def Obligations.ExactRecordRoundTrip : Prop :=
  ∀ l : Lane, -(2 ^ 639) ≤ l.acc → l.acc < 2 ^ 639 → l.record.length = 96 ∧ recordOk l.record = true ∧ laneOfRecord l.record = l

/-- O39. For every state s and due command that may start and whose bank serves: with a credit for the ring and live keys with the peer, in a
job that is no mirror set, LINK_SEND answers the next state that has sent the bank's bytes as one message to the ring for one credit, with
no byte of the banks and stacks changed, and is issued with the beats of R142 and error 0x02 exactly when a word sent is poisoned, to
complete when the first hop has acknowledged its last frame; without a credit, without keys, or in a mirror set (DESIGN CHOICE, log entry
145), it waits. With a complete message in the ring, LINK_RECV answers the next state in which the destination holds the message's bytes,
cut or padded with zeros to the length of the command, every other byte of the banks and all stacks are as before, the message has left
the ring and its credit is returned, and it is issued with the beats of R142 and with error 0x02 when a word taken is poisoned, else 0x07
exactly when the lengths differ; without a message it waits. The model's own too (DESIGN CHOICE): a command has its effect when it is
issued (log entry 34). [derived: 12_carloth_links_and_time.md, R325, R332, R333, R340, R142, 02_turieno_contract.md, R48, R50] -/
def Obligations.LinkCommandsComplete : Prop :=
  ∀ (s : State) (p : PartId) (q : Nat) (d : Due) (b : Fin 288) (ref : BankRef) (n i ring : Nat), ref = bankRefOf (recField d.record 24 4) →
    n = recField d.record 28 4 → i = recField d.record 32 2 → ring = recField d.record 34 1 →
    (∀ t : State, engineStarts s p q 5 0x0510 d → transferServes s d ref n b → creditOf (s.part p) i ring ≠ 0 → peerLive (s.part p) i = true →
      isMirror (s.part p) = false →
      t = linkSent (meetBank s (bankAddr b ref.off) n) p i ring (bankRead s (bankAddr b ref.off) n) →
      exec (.linkSend p q) s = .next (awaitHop s (issue t d (4 + ceilDiv n 2048)
          (if (marksRead s.mem.bankPoison (bankAddr b ref.off / 64) (n / 64)).any (fun m => m) then 2 else 0) (handoverAt d.record 40 d.desc.inst)) p q) ∧
        t.mem.banks = s.mem.banks ∧ t.mem.hbm = s.mem.hbm ∧ creditOf (t.part p) i ring = creditOf (s.part p) i ring - 1 ∧
        (∀ p', p' ≠ p → t.part p' = s.part p')) ∧
    (engineStarts s p q 5 0x0510 d → transferServes s d ref n b → (creditOf (s.part p) i ring = 0 ∨ peerLive (s.part p) i = false ∨
      isMirror (s.part p) = true) →
      exec (.linkSend p q) s = .next (waits s p 5 d.desc.inst)) ∧
    (∀ (g : RingDecl) (rt : RingRt) (e : Nat × Nat) (rest : List (Nat × Nat)) (a m : Nat) (marks : List Bool) (t : State), memWf s.mem = true →
      engineStarts s p q 5 0x0511 d → transferServes s d { ref with observer := false } n b → ringOf (s.part p) i ring = some g →
      (s.part p).rings.find? (fun g => g.ring == ring) = some rt → rt.full = e :: rest → slotAddr (s.part p) g e.1 = some a →
      m = min n e.2 → marks = marksRead s.mem.bankPoison (a / 64) (m / 64) →
      t = slotFreed (moveToBank (meetBank s a m) (bankAddr b ref.off) (padTo n (bankRead s a m)) marks) p i ring rest →
      exec (.linkRecv p q) s = .next (issue t d (4 + ceilDiv n 2048) (if marks.any (fun m => m) then 2 else if n ≠ e.2 then 7 else 0)
          (handoverAt d.record 40 d.desc.inst)) ∧
        bankRead t (bankAddr b ref.off) n = padTo n (bankRead s a m) ∧ t.mem.hbm = s.mem.hbm ∧
        (∀ x, x < bankAddr b ref.off ∨ bankAddr b ref.off + n ≤ x → cellRead t.mem.banks x = cellRead s.mem.banks x) ∧
        (t.part p).rings.find? (fun g => g.ring == ring) = some { rt with full := rest }) ∧
    (∀ (rt : RingRt), engineStarts s p q 5 0x0511 d → transferServes s d { ref with observer := false } n b →
      (s.part p).rings.find? (fun g => g.ring == ring) = some rt → rt.full = [] → exec (.linkRecv p q) s = .next (waits s p 5 d.desc.inst))

/-- O40. For every state s and due store command that may start and whose bank serves: a read with no request outstanding and room for its
requests, of 15 blocks each (DESIGN CHOICE, log entry 93), sends them and waits, without the room it waits; a write seals and sends, one
request a block (log entry 93), as many of its next blocks as requests are free and seals are left, and waits; no byte of the banks and
stacks changes. While a request is open the command waits. Once all are answered or failed it is issued with the beats of R142: a write
changes no memory and has error 0x02 when a word was poisoned, else 0x05 when a request failed; a read has every block that arrived and
opens at its place in the bank and the words of every other block poisoned (log entry 94), and ends without error exactly when every block
opened. An INTAKE_CHUNK with no request outstanding and room for two sends two, one for its tag's page (DESIGN CHOICE, log entry 107).
Once both are answered, on an awake stack, its partition not held while it runs and its intake bank serving, the chunk takes its beats
whatever it ends with: one that opens stands in its intake bank; one whose digest is right too stands in the stack, and the result
register reads 2 after the last chunk and 1 before; a wrong digest stops the intake with result 0x11, a chunk that does not open with
0x10, a failed request with 0x12: the stack is as before, and with the last two the banks too. The model's own too (DESIGN CHOICE): a
command has its effect when it is issued (log entry 34). [derived: 12_carloth_links_and_time.md, 15_keys_tenants_attestation.md, R332,
R338, R339, R340, R422, R425, R427, R428] -/
def Obligations.StoreCommandsAndIntake : Prop :=
  ∀ (s : State) (p : PartId) (q : Nat) (d : Due) (b : Fin 288) (ref : BankRef) (n blk : Nat), ref = bankRefOf (recField d.record 24 4) →
    n = recField d.record 28 4 → blk = recField d.record 32 8 →
    (engineStarts s p q 5 0x0512 d → transferServes s d { ref with observer := false } n b →
      (requestsOf s p d.desc.queue .read = [] → exec (.storeRead p q) s = .next (waits
        (if ceilDiv (n / 65536) 15 ≤ requestRoom s p.val then requestBlocks s p d.desc.queue blk (n / 65536) else s) p 5 d.desc.inst) ∧
        (requestBlocks s p d.desc.queue blk (n / 65536)).mem = s.mem) ∧
      ((requestsOf s p d.desc.queue .read).any reqOpen = true → exec (.storeRead p q) s = .next (waits s p 5 d.desc.inst)) ∧
      (∀ rs g, rs = requestsOf s p d.desc.queue .read → rs ≠ [] → rs.any reqOpen = false →
        g = landBlocks (dropRequests s (fun r => rs.contains r)) p (bankAddr b ref.off) blk (n / 65536) rs →
        exec (.storeRead p q) s = .next (issue g.1 d (4 + ceilDiv n 2048) g.2 (handoverAt d.record 40 d.desc.inst)) ∧ g.1.mem.hbm = s.mem.hbm ∧
          g.1.requests = s.requests.filter (fun r => !rs.contains r) ∧ (g.2 = 0 ∨ g.2 = 5 ∨ g.2 = 6) ∧
          (g.2 = 0 ↔ ∀ i, i < n / 65536 → ∃ r pt, rs[i / 15]? = some r ∧ r.failed = false ∧
            openBlock (s.part p) (blk + i) (slice r.got (i % 15 * 65600) 65600) = some pt) ∧
          (memWf s.mem = true → ∀ i r pt, i < n / 65536 → rs[i / 15]? = some r → r.failed = false →
            openBlock (s.part p) (blk + i) (slice r.got (i % 15 * 65600) 65600) = some pt → pt.length = 65536 →
            bankRead g.1 (bankAddr b ref.off + i * 65536) 65536 = pt) ∧
          (ref.off % 64 = 0 → ∀ i j, i < n / 65536 → j < 1024 →
            (∀ r pt, rs[i / 15]? = some r → r.failed = false → openBlock (s.part p) (blk + i) (slice r.got (i % 15 * 65600) 65600) ≠ some pt) →
            (bankAddr b ref.off + i * 65536) / 64 + j ∈ g.1.mem.bankPoison))) ∧
    (engineStarts s p q 5 0x0513 d → transferServes s d ref n b →
      (∀ (sent m a : Nat) (t : State), sent = (requestsOf s p d.desc.queue .write).length → sent < n / 65536 →
        m = min (n / 65536 - sent) (min (requestRoom s p.val) (sealsLeft (s.part p))) → a = bankAddr b ref.off + 65536 * sent →
        t = writeBlocks (meetBank s a (65536 * m)) p d.desc.queue (blk + sent) m (bankRead s a (65536 * m)) →
        exec (.storeWrite p q) s = .next (waits t p 5 d.desc.inst) ∧ t.mem.banks = s.mem.banks ∧ t.mem.hbm = s.mem.hbm ∧
          t.requests.length = s.requests.length + m ∧
          (inRegion (s.part p) (blk + sent) m = true → (t.part p).keys.storeSeals = (s.part p).keys.storeSeals + m)) ∧
      (n / 65536 ≤ (requestsOf s p d.desc.queue .write).length → (requestsOf s p d.desc.queue .write).any reqOpen = true →
        exec (.storeWrite p q) s = .next (waits s p 5 d.desc.inst)) ∧
      (∀ rs, rs = requestsOf s p d.desc.queue .write → n / 65536 ≤ rs.length → rs.any reqOpen = false →
        exec (.storeWrite p q) s = .next (issue (dropRequests s (fun r => rs.contains r)) d (4 + ceilDiv n 2048)
          (if (marksRead s.mem.bankPoison (bankAddr b ref.off / 64) (n / 64)).any (fun m => m) then 2 else if rs.any (fun r => r.failed) then 5 else 0)
          (handoverAt d.record 40 d.desc.inst)))) ∧
    (∀ (img : Image) (i : Intake) (c : ChunkJob) (k : ClusterId), (s.part p).image = some img → (s.part p).keys.intake = some i →
      chunkJob (s.part p) img i = some c → (s.part p).clusters[c.cluster]? = some k →
      (requestsOf s p 0 .intake = [] → exec (.intakeChunk p) s = .next (if 2 ≤ requestRoom s p.val then requestChunk s p img i c else s) ∧
        (requestChunk s p img i c).requests.length = s.requests.length + 2) ∧
      (∀ (tags data : StoreReq), requestsOf s p 0 .intake = [tags, data] → reqOpen tags = false → reqOpen data = false →
        (s.cluster k).selfRefresh = false → ((s.part p).state = .running → partHeld s p = false) → intakeServes s p img i c = true →
        ((tags.failed = true ∨ data.failed = true) →
          ∃ u, exec (.intakeChunk p) s = .next u ∧ u.mem = s.mem ∧ (u.part p).keys.result = 0x12 ∧ (u.part p).keys.intake = none ∧
            (u.cluster k).beats = (s.cluster k).beats + BitVec.ofNat 64 (8 + 2 * ceilDiv c.length 2048)) ∧
        (∀ key, tags.failed = false → data.failed = false → (s.part p).keys.model = some key →
          (∀ plain b, gcmOpen key c.nonce c.aad data.got (slice tags.got (16 * i.next % 4096) 16) = some plain → memWf s.mem = true →
            physBank s (s.part p) c.cluster (intakeBank img i c.cluster) = some b →
            ∃ u, exec (.intakeChunk p) s = .next u ∧ bankRead u (bankAddr b 0) plain.length = plain ∧
              (u.cluster k).beats = (s.cluster k).beats + BitVec.ofNat 64 (8 + 2 * ceilDiv c.length 2048) ∧
              (digestOk (s.part p) i c plain = true → stackRead u (stackAddr k c.offset) plain.length = plain ∧
                (u.part p).keys.result = (if i.next + 1 = i.stop then 2 else 1)) ∧
              (digestOk (s.part p) i c plain = false → u.mem.hbm = s.mem.hbm ∧ (u.part p).keys.result = 0x11 ∧ (u.part p).keys.intake = none)) ∧
          (gcmOpen key c.nonce c.aad data.got (slice tags.got (16 * i.next % 4096) 16) = none →
            ∃ u, exec (.intakeChunk p) s = .next u ∧ u.mem = s.mem ∧ (u.part p).keys.result = 0x10 ∧ (u.part p).keys.intake = none ∧
              (u.cluster k).beats = (s.cluster k).beats + BitVec.ofNat 64 (8 + 2 * ceilDiv c.length 2048)))))

/-- O41. For every state s and due video command that may start, whose partition's slot is in progress with none of its commands under way:
VCTX_SET of a descriptor in an owned bank closes any former context of that number and opens one, without history (DESIGN CHOICE, log
entry 69), exactly when the descriptor is not poisoned, is no close and its fields and places are legal (log entry 69), in 256 work beats,
with error 0x02 when it is poisoned and 0x12 when it is refused. A frame command of a closed context, and an encode that its open context
or its regions refuse or a decode in an encode's context, with owned output regions, ends with error 0x12 after its beats and writes its
result, whose AU_BYTES is 0 and whose planes are free (DESIGN CHOICE, log entry 66). An encode or a decode of an open context of its
direction, whose regions are owned and, for an encode, lie within, is issued with 1,024 + 128 × U beats, to be coded at its video turn
(DESIGN CHOICE, log entry 67). Coding an encode writes its payload, its picture and its result record, with error 0, 0x02 or 0x14; coding
a decode writes its picture, the picture that goes out and its result record (log entry 66); both hold their context as the picture leaves
it, one frame further (a flush none) and of the same descriptor, and change no other context. What the codec decides inside the standards'
syntax is free (DESIGN CHOICE, log entry 67); the parts of the standards that the model holds are PRESUMED, log entry 134. The model's own
too (DESIGN CHOICE): a command has its effect when it is issued (log entry 34). [derived: 09_video_engine.md, R245, R246, R249, R250,
R253, R256, R264, R265, R266, R267] -/
def Obligations.VideoCommandsComplete : Prop :=
  ∀ (s : State) (p : PartId) (q : Nat) (d : Due) (die : DieId) (oc : Option VidContext) (packed : Bool) (out res : VRef), die = dieOfInst d.desc.inst →
    engineFree s p die = true → oc = openContext s p die (recField d.record 43 1) → packed = bitOf (recField d.record 44 1) 1 →
    out = vrefOf (recField d.record 28 4) → res = vrefOf (recField d.record 32 4) →
    (∀ (a n : Nat) (b : Bytes) (base : State) (legal : Bool), engineStarts s p q 6 0x0600 d → vrefAddr (s.part p) (vrefOf (recField d.record 24 4)) = some a →
      vrefOwned s p (vrefOf (recField d.record 24 4)) 64 8 die.val = true → b = bankRead s a 64 → n = engineCtx s p die (recField d.record 43 1) →
      base = (meetBank s a 64).modEngine die (fun v => useSlot { v with contexts := v.contexts.filter (fun c => c.ctx != n) } p d.desc.queue 256) →
      legal = (descFields b && descPlaces base p die n b) →
      exec (.vctxSet p q) s = .next (awaitVideo (issue
        (if bankPoisoned base a 64 = false ∧ fieldAt b 0 1 ≠ 0xFF ∧ legal = true then
           base.modEngine die (fun v => { v with contexts := v.contexts ++ [newContext n p b] }) else base) d 256
        (if bankPoisoned base a 64 then 0x02 else if fieldAt b 0 1 = 0xFF ∨ legal = true then 0 else 0x12) none) p q)) ∧
    (engineStarts s p q 6 0x0601 d →
      (∀ c, oc = some c → encodeBarred d.record c = true) →
      regionOwned s p out 64 die = true → regionOwned s p res (resultBytes oc) die = true →
      ∃ u, exec (.vencFrame p q) s = .next u ∧ u = awaitVideo (issue
          (encodeRefused (s.modEngine die (fun v => useSlot v p d.desc.queue (1024 + 128 * unitsOf oc))) d oc) d (1024 + 128 * unitsOf oc) 0x12 (frameHandover d)) p q ∧
        u.mem.hbm = s.mem.hbm ∧
        (∀ a, memWf s.mem = true → oc = none → vrefPast res 64 = false → vrefAddr (s.part p) res = some a →
          bankRead u a 64 = resultRecord none 0 0 0 0x12 0 0 0 0)) ∧
    (engineStarts s p q 6 0x0602 d → (∀ c, oc = some c → c.field 1 1 ≠ 1) → regionOwned s p res (resultBytes oc) die = true →
      ∃ u, exec (.vdecFrame p q) s = .next u ∧ u = awaitVideo (issue (refusedResult (s.modEngine die (fun v => useSlot v p d.desc.queue (1024 + 128 * unitsOf oc))) d oc
          1 2 ((oc.map (fun c => c.frameNo)).getD 0)) d (1024 + 128 * unitsOf oc) 0x12 (frameHandover d)) p q ∧ u.mem.hbm = s.mem.hbm) ∧
    (∀ (c : VidContext) (a : Nat), engineStarts s p q 6 0x0601 d → oc = some c → encodeBarred d.record c = false →
      vrefOwned s p (vrefOf (recField d.record 24 4)) (sourceBytes c packed) 8 die.val = true →
      vrefOwned s p out (round64 (32 + c.field 24 4)) 8 die.val = true → vrefOwned s p res (resultBytes oc) 8 die.val = true →
      vrefAddr (s.part p) (vrefOf (recField d.record 24 4)) = some a →
      exec (.vencFrame p q) s = .next (awaitVideo (issue (s.modEngine die (fun v => useSlot v p d.desc.queue (1024 + 128 * unitsOf oc)))
        d (1024 + 128 * unitsOf oc) 0 (frameHandover d)) p q)) ∧
    (∀ (c : VidContext) (a : Nat), engineStarts s p q 6 0x0602 d → oc = some c → c.field 1 1 = 1 →
      regionOwned s p (vrefOf (recField d.record 24 4)) (round64 (32 + c.field 24 4)) die = true → regionOwned s p out c.pictureBytes die = true →
      regionOwned s p res (resultBytes oc) die = true → vrefAddr (s.part p) (vrefOf (recField d.record 24 4)) = some a →
      exec (.vdecFrame p q) s = .next (awaitVideo (issue (s.modEngine die (fun v => useSlot v p d.desc.queue (1024 + 128 * unitsOf oc)))
        d (1024 + 128 * unitsOf oc) 0 (frameHandover d)) p q)) ∧
    (∀ (c : VidContext) (a : Nat) (e : Encoded × Bool), d.p = p → vrefAddr (s.part p) (vrefOf (recField d.record 24 4)) = some a →
      recOpcode d.record = 0x0601 → encodeBarred d.record c = false → e = encodeOf s d c a →
      codeFrame s d c = (encodeStore s d c a e, encodeErr e) ∧ (encodeErr e = 0 ∨ encodeErr e = 2 ∨ encodeErr e = 0x14) ∧
        e.1.ctx.frameNo = c.frameNo + 1 ∧ e.1.ctx.desc = c.desc ∧ e.1.ctx.ctx = c.ctx ∧
        ((encodeStore s d c a e).engine die).contexts = updFirst (fun x => x.ctx == c.ctx) (fun _ => e.1.ctx) (s.engine die).contexts) ∧
    (∀ (c : VidContext) (a : Nat) (i : DecodeIn) (t : Decoded), d.p = p → vrefAddr (s.part p) (vrefOf (recField d.record 24 4)) = some a →
      recOpcode d.record = 0x0602 → c.field 1 1 = 1 → i = decodeIn s d c a → t = decodeOf s p c i →
      codeFrame s d c = decodeStore s d c a i t ∧ t.ctx.frameNo = c.frameNo + (if i.flush then 0 else 1) ∧ t.ctx.desc = c.desc ∧ t.ctx.ctx = c.ctx ∧
        ∃ c', c'.desc = c.desc ∧ c'.frameNo = t.ctx.frameNo ∧
          ((codeFrame s d c).1.engine die).contexts = updFirst (fun x => x.ctx == c.ctx) (fun _ => c') (s.engine die).contexts)

/-- O42. For every state s: a slot boundary of an engine answers a next state in which the engine is in the next of its 64 slots, the command
that was under way is suspended unless its own partition's slot begins, the owners of the next plan are in force after slot 63, every
suspended command of another partition than the ended slot's has counted that slot's 65,536 waiting beats, and no byte of memory and no
slot, owner or command of the other engine has changed. A video turn of a video queue, when it has come in a turn list, the next frame
command has issued, its context is open and its stack serves, answers a next state that has counted it, has taken the beats of R254 on the
transfer engine of POOL_CLUSTER, has coded the command's picture in its context and joined its error to the command's, and has changed no
other partition; the turn of a closed context passes with no byte of memory changed and no beats; without the stack the turn waits (the
last two DESIGN CHOICE, log entry 67). The row of a queue whose turn has not come, or whose next frame command has not issued, changes
nothing. That a turn list names video turns by entries from 131,072 on is DESIGN CHOICE, log entry 137. The model's own too (DESIGN
CHOICE): a row without an occasion changes nothing (log entry 26). [derived: 09_video_engine.md, R246, R247, R248, R254] -/
def Obligations.VideoSlotsAndTurns : Prop :=
  ∀ (s : State) (d : DieId) (p : PartId) (q : Nat),
    (∃ u, exec (.videoSlotBoundary d) s = .next u ∧ (u.engine d).slot = ((s.engine d).slot + 1) % 64 ∧ u.mem = s.mem ∧
      (∀ d', d' ≠ d → (u.engine d').slot = (s.engine d').slot ∧ (u.engine d').owners = (s.engine d').owners ∧ (u.engine d').running = (s.engine d').running ∧
        (u.engine d').suspended = (s.engine d').suspended ∧ (u.engine d').waiting = (s.engine d').waiting) ∧
      (((s.engine d).slot + 1) % 64 = 0 → (u.engine d).owners = (s.engine d).ownersNext.getD (s.engine d).owners ∧ (u.engine d).ownersNext = none) ∧
      (((s.engine d).slot + 1) % 64 ≠ 0 → (u.engine d).owners = (s.engine d).owners) ∧
      (u.engine d).waiting = (s.engine d).waiting + BitVec.ofNat 64 (65536 *
        ((s.engine d).suspended.filter (fun r => (((s.engine d).owners.toList[(s.engine d).slot]?).join).map (fun p => p.val) != some r.1)).length) ∧
      (∀ r, (s.engine d).running = some r → (∀ p' : PartId, (u.engine d).owners.toList[(u.engine d).slot]? = some (some p') → p'.val ≠ r.1) →
        r ∈ (u.engine d).suspended)) ∧
    ((videoDue s p q = none ∨ turnCommand (s.part p) q = none) → exec (.videoTurn p q) s = .next s) ∧
    (∀ (qd : QueueDesc) (lc pos i : Nat) (r : CmdRecord) (c : VidContext) (k : ClusterId) (t : State × Nat), descOf (s.part p) q = some qd → qd.cls = 6 →
      videoDue s p q = some (lc, pos) → turnCommand (s.part p) q = some (i, r) →
      openContext s p (dieOfInst qd.inst) (recField r 43 1) = some c → physCluster (s.part p) (c.field 32 1) = some k →
      (buffersServe s p c = false → exec (.videoTurn p q) s = .next (waits s p 5 lc)) ∧
      (buffersServe s p c = true →
        t = codeFrame (countBeats (s.modPart p (fun x => turnPassed x q lc pos)) p 5 (c.field 32 1) (pictureBeats c r) 0)
          { p := p, desc := qd, record := r, index := i, next := pos } c →
        ∃ u, exec (.videoTurn p q) s = .next u ∧ u = awaitVideo (t.1.modPart p (fun x => frameError x q i t.2)) p q ∧
          videoTaken (u.part p) q = videoTaken (s.part p) q + 1 ∧ u.mem = t.1.mem ∧
          (u.cluster k).beats = (s.cluster k).beats +
            BitVec.ofNat 64 ((c.field 8 1 + (if recOpcode r = 0x0601 then 1 else 2)) * (4 + c.bufferBytes / 2048)) ∧
          (∀ p', p' ≠ p → u.part p' = s.part p'))) ∧
    (∀ (qd : QueueDesc) (lc pos i : Nat) (r : CmdRecord), descOf (s.part p) q = some qd → qd.cls = 6 → videoDue s p q = some (lc, pos) →
      turnCommand (s.part p) q = some (i, r) → openContext s p (dieOfInst qd.inst) (recField r 43 1) = none →
      ∃ u, exec (.videoTurn p q) s = .next u ∧ u = awaitVideo (s.modPart p (fun x => turnPassed x q lc pos)) p q ∧
        videoTaken (u.part p) q = videoTaken (s.part p) q + 1 ∧ u.mem = s.mem)

/-- O43. For every state s: a due GATHER that may start, whose stream has a landed frame not yet taken, whose place in the journal is settled,
whose regions lie within, apart and owned by the stream's port and whose destination awaits no house turn, answers the next state that
holds the frame's bytes, read from its landing buffer, cut or padded with zeros to MAX_BYTES, and the 64-byte record of R281 (DESIGN
CHOICE, log entry 56), counts the frame in the journal as taken, and is issued with 16 + ceil(MAX_BYTES / 4096) work beats. A due EMIT
that may start and whose source is owned answers the next state with one frame more to send on its stream (its payload the source's words,
poisoned ones as zeros, or the step-batch frame, log entry 21), no byte of the banks and stacks changed, and the command waiting for its
frame; a second EMIT on a step-batch stream in one step sends nothing (DEDUCED, log entry 21). EMIT_FRAME_SEND of a frame of a bound
stream of an unheld partition that is no replay and not in catch-up (log entry 40), with no lower virtual channel ready, drives the frame
out whole once the port's frame before it has ended, with the next frame number of its virtual channel and the frame header of R285, ends
the wait of its command and occupies the port for the frame's time on the wire (DESIGN CHOICE, log entry 147); a replay puts header and
payload among the exports to the store tray (log entry 129); held, unbound or behind a lower virtual channel it waits; once the module has
lost PRSNT_N, or where the stream's type is none that the module sends, it drives nothing (DEDUCED, log entry 20). The model's own too
(DESIGN CHOICE): a row brings the time to its deadline (log entry 10); a row without an occasion changes nothing (log entry 26); a command
has its effect when it is issued (log entry 34). [derived: 10_csi2_streams.md, R273, R280, R281, R283, R284, R285, R286,
08_step_serving.md, R225, 01_beats_steps_and_replay.md, R35] -/
def Obligations.StreamCommandsComplete : Prop :=
  ∀ (s : State) (p : PartId) (q : Nat) (d : Due),
    (∀ (a c skipped : Nat) (e : JEntry) (unitNo maxB stream : Nat) (f : State × Bytes × List Bool) (t : State), memWf s.mem = true →
      engineStarts s p q 7 0x0700 d →
      maxB = recField d.record 32 4 → stream = recField d.record 36 2 →
      unitNo = gatherUnit s p stream (vrefOf (recField d.record 24 4)) →
      vrefAddr (s.part p) (vrefOf (recField d.record 24 4)) = some a → vrefAddr (s.part p) (vrefOf (recField d.record 28 4)) = some c →
      nextLanded stream (s.part p).journal = some (e, skipped) → vrefPast (vrefOf (recField d.record 24 4)) maxB = false →
      vrefPast (vrefOf (recField d.record 28 4)) 64 = false → vrefOwned s p (vrefOf (recField d.record 24 4)) maxB 6 unitNo = true →
      vrefOwned s p (vrefOf (recField d.record 28 4)) 64 6 unitNo = true → destHeld (s.part p) a maxB = false →
      seqSettled s p e = true → f = landedBytes s p e (min e.length maxB) →
      t = (bankWrite (moveToBank f.1 a (padTo maxB f.2.1) f.2.2) c
        (gatherRecord stream e skipped (min e.length maxB))).modPart p (fun x => { x with journal := takeEntries e (a, maxB, x.step) x.journal }) →
      exec (.gather p q) s = .next (issue t d (16 + ceilDiv maxB 4096) 0 (handoverAt d.record 40 (vrefOf (recField d.record 24 4)).lc)) ∧
        bankRead t c 64 = gatherRecord stream e skipped (min e.length maxB) ∧
        ((a + maxB ≤ c ∨ c + 64 ≤ a) → bankRead t a maxB = padTo maxB f.2.1) ∧
        (∀ i l b, e.buffer = some i → landingOf (s.part p) e.stream = some l → bufferAddr (s.part p) l i = some b →
          f.2.1 = bankRead s b (min e.length maxB)) ∧
        (t.part p).journal = takeEntries e (a, maxB, (s.part p).step) (s.part p).journal ∧ t.mem.hbm = s.mem.hbm) ∧
    (∀ (tokens : List TokenOut) (a unitNo n stream : Nat) (t : State), engineStarts s p q 7 0x0701 d → vrefAddr (s.part p) (vrefOf (recField d.record 24 4)) = some a →
      n = recField d.record 28 4 → stream = recField d.record 32 2 →
      unitNo = (match bindingOf s p stream true with | some b => b.port.val | none => 0) →
      vrefPast (vrefOf (recField d.record 24 4)) n = false → vrefOwned s p (vrefOf (recField d.record 24 4)) n 7 unitNo = true →
      (secondBatch (s.part p) stream = true → t = s) →
      (secondBatch (s.part p) stream = false →
        t = (if ((txDecl (s.part p) stream).map (fun t => t.dt != 0x34)).getD false then meetBank s a n else s).setPart p
          { (emitPayload s p stream a n tokens).2.2 with emits := (s.part p).emits ++
              [{ stream := stream, payload := (emitPayload s p stream a n tokens).1, poison := (emitPayload s p stream a n tokens).2.1,
                 step := (s.part p).step, queue := d.desc.queue, index := d.index }] }) →
      exec (.emit p q tokens) s = .next (awaitFrame (issue t d (16 + ceilDiv n 4096) 0 (handoverAt d.record 40 (vrefOf (recField d.record 24 4)).lc)) p q) ∧
        t.mem.banks = s.mem.banks ∧ t.mem.hbm = s.mem.hbm ∧ (t.part p).inflight = (s.part p).inflight) ∧
    (∀ (stream : Nat) (m : EmitReq), (s.part p).emits.find? (fun e => e.stream == stream) = some m →
      ((s.part p).replay = true → exec (.emitFrameSend p stream) s = .next (frameSent (storeFrame s p m) p m) ∧
        storeFrame s p m = queueExport s p 3 (emitHeader s p (((bindingOf s p m.stream true).map (fun b => b.port.val)).getD 0) m ++ m.payload)) ∧
      ((s.part p).replay = false → catchUpSent (s.part p) m = true → exec (.emitFrameSend p stream) s = .next (frameSent (dropSent s p m) p m)) ∧
      ((s.part p).replay = false → catchUpSent (s.part p) m = false → (s.csi.stopped = true ∨ sendable (s.part p) stream = false) →
        ∃ u, exec (.emitFrameSend p stream) s = .next u ∧ u.out = s.out ∧ (u.part p).emits = (s.part p).emits.erase m) ∧
      ((s.part p).replay = false → catchUpSent (s.part p) m = false → s.csi.stopped = false → sendable (s.part p) stream = true →
        ((partHeld s p = true ∨ bindingOf s p stream true = none) → exec (.emitFrameSend p stream) s = .next s) ∧
        (∀ (b : Binding) (t : Nat), partHeld s p = false → bindingOf s p stream true = some b →
          t = max (max s.now (s.csi.tx.get b.port).endAt) (max (intervalEnd s p b) (latestStart (s.part p) m)) →
          (lowerReady s b t = true → exec (.emitFrameSend p stream) s = .next s) ∧
          (lowerReady s b t = false →
            ∃ u, exec (.emitFrameSend p stream) s = .next u ∧ u.now = t ∧
              u.out = s.out ++ [.csiFrame b.port b.vc ((s.csi.tx.get b.port).numbers.get ⟨b.vc % 32, by omega⟩) u.stamp (emitHeader (s.reach t) p b.port.val m)
                (((txDecl (s.part p) stream).map (fun d => d.dt)).getD 0) (payloadLines b.lineBytes m.payload)] ∧
              (emitHeader (s.reach t) p b.port.val m).length = 64 ∧ (u.part p).emits = (s.part p).emits.erase m ∧ u.mem = s.mem ∧
              (∀ p', p' ≠ p → u.part p' = s.part p') ∧
              (u.csi.tx.get b.port).numbers.get ⟨b.vc % 32, by omega⟩ = nextNumber ((s.csi.tx.get b.port).numbers.get ⟨b.vc % 32, by omega⟩) ∧
              (u.csi.tx.get b.port).endAt = t + wireTime b.lanes b.laneMbps b.lineBytes m.payload.length))))

/-- O44. For every state s in which no stream is bound twice, receive port and virtual channel: a packet marks its port in sync; one that no
open frame of a partition that takes frames takes, of an unbound channel, without a frame or of another type, is only counted in
CSI_UNBOUND; a frame start closes a frame still open as by timeout and opens a frame, dropped and counted when the quota is met or no
buffer is free, else in the lowest free buffer; a line of the stream's type is written, converted, at the next multiple of 64 bytes;
embedded data is held as the frame's last packet; a header with two errors is discarded and marks the frame; a frame end with the frame's
number, or with another, or a timeout at its instant, closes the frame: the journal has one more entry, after every one that closed
earlier, with the frame's length, lines, flags and number. A loss of lane sync marks the port, its return clears the mark; a generic short
packet is counted; a quota window that times out by the time counter opens the next, with no frame counted. That frames of one nanosecond
are numbered by port is DEDUCED, log entry 19. The model's own too (DESIGN CHOICE): a row without an occasion changes nothing (log entry
26). [derived: 10_csi2_streams.md, R269, R270, R273, R275, R276, R277, 01_beats_steps_and_replay.md, R29] -/
def Obligations.CsiRowsLandFrames : Prop :=
  ∀ (s n : State) (port : PortId) (vc : Nat), bindingsOnce s → n = noteSync s port →
    (n.mem = s.mem ∧ n.parts = s.parts ∧ n.csi.bindings = s.csi.bindings ∧ (n.csi.rx.get port).sync = true ∧ (n.csi.rx.get port).lost = false) ∧
    (∀ frame, (∀ b, rxBinding s port vc = some b → takesFrames s b.part = false ∨ landingOf (s.part b.part) b.stream = none) →
      exec (.csiFrameStart port vc frame) s = .next (countUnbound n) ∧ (countUnbound n).csi.unbound = satAdd 32 s.csi.unbound 1 ∧
        (countUnbound n).mem = s.mem ∧ (countUnbound n).parts = s.parts) ∧
    (∀ (b : Binding) (frame : Nat), rxBinding s port vc = some b → takesFrames s b.part = true → (landingOf (s.part b.part) b.stream).isSome = true →
      ∃ b', rxBinding (closeFrame n b 2) port vc = some b' ∧ exec (.csiFrameStart port vc frame) s = .next (openFrame (closeFrame n b 2) b' (frame % 65536)) ∧
        (b.opened = none → closeFrame n b 2 = n ∧ b' = b)) ∧
    (∀ (b : Binding) (frame : Nat), rxBinding s port vc = some b →
      ∃ b', rxBinding (openFrame s b frame) port vc = some b' ∧ b'.counted = b.counted + 1 ∧ (openFrame s b frame).mem = s.mem ∧ (openFrame s b frame).parts = s.parts ∧
        (b.quota ≤ b.counted → ∃ f, b'.opened = some f ∧ f.drop = true ∧ f.buffer = none ∧
          ((openFrame s b frame).csi.rx.get port).overQuota = satAdd 16 (s.csi.rx.get port).overQuota 1) ∧
        (b.counted < b.quota → ∃ f, b'.opened = some f ∧ f.buffer = freeBuffer (s.part b.part) b.stream none ∧ f.drop = f.buffer.isNone ∧
          f.frame = frame ∧ f.written = 0 ∧ (f.buffer = none → ((openFrame s b frame).csi.rx.get port).noBuffer = satAdd 16 (s.csi.rx.get port).noBuffer 1))) ∧
    (∀ (dt : Nat) (data : Bytes) (crcOk : Bool), (∀ b, rxBinding s port vc = some b → b.opened = none ∨ takesFrames s b.part = false) →
      exec (.csiLongPacket port vc dt data crcOk 0) s = .next (countUnbound n)) ∧
    (∀ (dt : Nat) (data : Bytes) (crcOk : Bool) (e : Nat), 2 ≤ e →
      ∃ u, exec (.csiLongPacket port vc dt data crcOk e) s = .next u ∧ (u.csi.rx.get port).hdrDiscard = satAdd 8 (s.csi.rx.get port).hdrDiscard 1 ∧
        u.mem = s.mem ∧ u.parts = s.parts ∧
        (∀ b f, rxBinding s port vc = some b → b.opened = some f →
          rxBinding u port vc = some { b with opened := some { f with flags := f.flags ||| 1 } })) ∧
    (∀ (b : Binding) (f : OpenFrame) (dcl : StreamDecl) (data line : Bytes) (a : Nat), memWf s.mem = true → rxBinding s port vc = some b → b.opened = some f →
      rxDecl (s.part b.part) b.stream = some dcl → takesFrames s b.part = true → receives dcl.dt = true → f.tail = none → f.drop = false →
      frameAddr s b f = some a → data.length = b.lineBytes → line = convertLine dcl.dt data → f.written + line.length ≤ b.maxBytes →
      ∃ u b' f', exec (.csiLongPacket port vc dcl.dt data true 0) s = .next u ∧ rxBinding u port vc = some b' ∧ b'.opened = some f' ∧
        bankRead u (a + f.written) line.length = line ∧ f'.written = f.written + 64 * ceilDiv line.length 64 ∧ f'.lines = f.lines + 1 ∧ f'.bad = f.bad ∧
        f'.flags = f.flags ∧ u.mem.hbm = s.mem.hbm ∧ u.parts = s.parts) ∧
    (∀ (b : Binding) (f : OpenFrame) (dcl : StreamDecl) (dt : Nat) (data : Bytes) (ok : Bool), rxBinding s port vc = some b → b.opened = some f →
      rxDecl (s.part b.part) b.stream = some dcl → takesFrames s b.part = true →
      (dt = 0x12 → f.tail = none → ∃ u, exec (.csiLongPacket port vc dt data ok 0) s = .next u ∧ u.mem = s.mem ∧
        rxBinding u port vc = some { b with opened := some { f with lastAt := s.now, tail := some (data, ok) } }) ∧
      (dt ≠ 0x12 → (dt ≠ dcl.dt ∨ receives dt = false) → ∃ u, exec (.csiLongPacket port vc dt data ok 0) s = .next u ∧ u.mem = s.mem ∧
        u.csi.unbound = satAdd 32 s.csi.unbound 1 ∧ rxBinding u port vc = some { b with opened := some { f with lastAt := s.now } })) ∧
    (∀ frame, (∀ b, rxBinding s port vc = some b → b.opened = none ∨ takesFrames s b.part = false) →
      exec (.csiFrameEnd port vc frame) s = .next (countUnbound n)) ∧
    (∀ (b : Binding) (f : OpenFrame) (frame : Nat), rxBinding s port vc = some b → b.opened = some f → takesFrames s b.part = true →
      exec (.csiFrameEnd port vc frame) s = .next (if f.frame = frame % 65536 then closeFrame n b 0 else closeFrame (countBadLine n port) b 1)) ∧
    (∀ (b : Binding) (f : OpenFrame), rxBinding s port vc = some b → b.opened = some f →
      exec (.csiFrameTimeout port vc) s = .next (closeFrame (s.reach (f.lastAt + 1000 * f.timeout)) b 2)) ∧
    ((∀ b, rxBinding s port vc = some b → b.opened = none) → exec (.csiFrameTimeout port vc) s = .next s) ∧
    (∀ (b : Binding) (f : OpenFrame) (bits k : Nat), rxBinding s port vc = some b → b.opened = some f → tagsOf b = false → f.tail = none → bits < 8 →
      follows (s.part b.part) = false → k = laterCount (comesLater (s.part b.part) s.stamp b.port.val) (s.part b.part).journal →
      ∃ b' e u, rxBinding (closeFrame s b bits) port vc = some b' ∧ b'.opened = none ∧ closeFrame s b bits = copyOut u b.part ∧
        (u.part b.part).journal = enterJournal (s.part b.part).journal e k ∧ e.seq = (s.part b.part).nextSeq - k ∧
        (u.part b.part).nextSeq = (s.part b.part).nextSeq + 1 ∧ e.length = (if f.drop then 0 else f.written) ∧ e.lines = f.lines ∧
        e.flags = (f.flags ||| bits) + 16 * bit s.time.unsure ∧ e.stream = b.stream ∧ e.frame = f.frame ∧ e.arrived = s.stamp ∧
        (closeFrame s b bits).mem = s.mem) ∧
    ((s.csi.rx.get port).sync = true → ∃ u, exec (.csiLaneSyncLoss port) s = .next u ∧ (u.csi.rx.get port).sync = false ∧ (u.csi.rx.get port).lost = true) ∧
    ((s.csi.rx.get port).sync = false → exec (.csiLaneSyncLoss port) s = .next s) ∧
    ((s.csi.rx.get port).sync = false → ∃ u, exec (.csiLaneSyncRegained port) s = .next u ∧ (u.csi.rx.get port).sync = true ∧
      (u.csi.rx.get port).lost = false ∧ u.mem = s.mem ∧ u.parts = s.parts) ∧
    ((s.csi.rx.get port).sync = true → exec (.csiLaneSyncRegained port) s = .next s) ∧
    (∀ dt, exec (.csiGenericShortPacket port dt) s = .next (if 0x08 ≤ dt ∧ dt ≤ 0x0F then countUnbound n else s)) ∧
    (∀ b : Binding, rxBinding s port vc = some b → ∃ u b', exec (.quotaWindowTimeout port vc) s = .next u ∧ rxBinding u port vc = some b' ∧
      u = openWindow (s.reachStamp b.windowDue) b ((s.reachStamp b.windowDue).stamp + 1000000000) ∧
      b'.windowAt = some u.now ∧ b'.windowDue = u.stamp + 1000000000 ∧ b'.counted = 0 ∧ u.mem = s.mem ∧ u.parts = s.parts) ∧
    (rxBinding s port vc = none → exec (.quotaWindowTimeout port vc) s = .next s)

/-- O45. For every state s and partition p: a boundary row of a partition that is not RUNNING or is held changes nothing. Of one that is
RUNNING and not held, with no switch window open: a step that has not drained changes nothing; a drained step with a stop order before the
boundary ends with the partition ARMED, its step number one higher and kept, its tallies as bases, and WORK and OCRC in its record; a
saturated tally holds it. A live boundary with nothing waiting (quietBoundary) writes its record, with the hold and change entries and, at
an epoch's begin, entry 0x0A, flag bit 4 and the new epoch; a checkpoint due is taken (flag bit 0), or skipped while one is exported (bit
5); the step is released. Who decides: in a replay and a catch-up the record of the step with its stamp, for a follower the leader's part,
which it waits for, else the module's own stamp; a leader sends its entries and journal as a part. What is decided: a request message is
queued, refused with its status, or kept as a cancel; frames consumed are taken; a cancel of an ACTIVE sequence writes 0x02 and makes it
RUN_OUT, or 0x03 and makes it leave; a higher loaded adapter version becomes current and supersedes the other, a stale one goes; an
admission writes 0x01; while the supply is low or the module drains none is admitted; a pause writes 0x04; recorded entries that cannot be
applied mark the boundary, and a marked boundary holds its partition in divergence, or its catch-up as impossible. A second cancel of a
target and versions completing together follow log entries 47 and 152 (DESIGN CHOICE). The model's own too (DESIGN CHOICE): a row without
an occasion changes nothing (log entry 26). [derived: 01_beats_steps_and_replay.md, 02_turieno_contract.md, 08_step_serving.md, R20, R21,
R30, R32, R59, R122, R219, R240, R359] -/
def Obligations.BoundariesReleaseOrStop : Prop :=
  ∀ (s : State) (p : PartId) (i : BoundaryIn),
    (((s.part p).state ≠ .running ∨ partHeld s p = true) → exec (.stepBoundary p i) s = .next s) ∧
    ((s.part p).state = .running → partHeld s p = false → s.fw.windowEnd = none →
      ((s.part p).released = true → drained (s.part p) = false → exec (.stepBoundary p i) s = .next s) ∧
      (∀ t, (s.part p).released = true → drained (s.part p) = true → (s.part p).stopWanted = some t → t < s.stamp → (s.part p).unloadWanted = false →
        (s.part p).replay = false → (s.part p).catchUp = none → (s.part p).claim.paired = false →
        (∀ c ∈ partCores (s.part p), (s.core c).state ≠ .fencePending ∧ (s.core c).state ≠ .rejoinPending) →
        ∃ u, exec (.stepBoundary p i) s = .next u ∧ (u.part p).state = .armed ∧ (u.part p).step = (s.part p).step + 1 ∧ (u.part p).stopWanted = none ∧
          (u.part p).released = false ∧ (u.part p).tallies = (s.part p).tallies ∧ (u.part p).bases = (s.part p).tallies ∧ u.mem = s.mem ∧
          ∀ r rs, (s.part p).records = r :: rs → ∃ n, (u.part p).records = { r with work := (s.part p).stepWork, ocrc := stepOcrc (s.part p), ngather := n } :: rs) ∧
      ((s.part p).released = false → stopDue s (s.part p) = false → (s.part p).tallySat = true →
        ∃ u, exec (.stepBoundary p i) s = .next u ∧ (u.part p).holdAt = some .tallyOverflow ∧ (u.part p).released = false ∧
          (u.part p).step = (s.part p).step ∧ (u.part p).records = (s.part p).records ∧ u.mem = s.mem) ∧
      (∀ (img : Image) (l : Layout) (turn due : Bool), quietBoundary s p img l →
        ((s.part p).step = 0 ∨ (s.part p).step % 4096 ≠ 0 ∨ i.checkFail = []) →
        turn = ((s.part p).step != 0 && img.epochLength != 0 && (s.part p).step % img.epochLength == 0) →
        due = (img.checkpoint != 0 && (s.part p).step % img.checkpoint == 0) →
        ∃ u r, exec (.stepBoundary p i) s = .next u ∧ (u.part p).released = true ∧ (u.part p).step = (s.part p).step ∧ (u.part p).holdAt = none ∧
          (u.part p).records = r :: (s.part p).records.filter (fun r => r.step != (s.part p).step) ∧ r.step = (s.part p).step ∧ r.boundary = s.stamp ∧
          r.layout = (s.part p).layout ∧
          r.entries = holdEntries (s.part p) ++ (dueChanges (s.part p) none s.stamp).1 ++
            (if turn then [{ kind := 0x0A, a := 0, b := (s.part p).step / img.epochLength, c := 0 }] else []) ∧
          (u.part p).epoch = (if turn then (s.part p).step / img.epochLength else (s.part p).epoch) ∧ r.epoch = (u.part p).epoch ∧ bitOf r.flags 4 = turn ∧
          (due = true → (s.part p).ckptNew = none → bitOf r.flags 0 = true ∧
            ∃ c, (u.part p).ckptNew = some c ∧ c.step = (s.part p).step ∧ c.tallies = (s.part p).tallies) ∧
          (due = true → (s.part p).ckptNew ≠ none → bitOf r.flags 5 = true ∧ (u.part p).ckptNew = (s.part p).ckptNew) ∧
          (due = false → bitOf r.flags 0 = false ∧ (u.part p).ckptNew = (s.part p).ckptNew) ∧
          (u.part p).bases = (s.part p).tallies ∧ (u.part p).tallies = (s.part p).tallies ∧ u.now = s.now ∧ (∀ p', p' ≠ p → u.part p' = s.part p')) ∧
      (decidesNext s p →
        (∀ src, sourceOf s (s.part p) = some src →
          exec (.stepBoundary p i) s = .next (boundaryBeat (takeBoundary (s.modClaim p (fun c => { c with waitPart := none })) p src i.checkFail) p)) ∧
        (sourceOf s (s.part p) = none → (s.part p).replay = false →
          exec (.stepBoundary p i) s = .next (boundaryBeat (awaitPart s p) p) ∧ ((awaitPart s p).part p).claim.waitPart.isSome = true ∧
            ((awaitPart s p).part p).released = false ∧ ((awaitPart s p).part p).records = (s.part p).records) ∧
        (∀ r, (s.part p).replay = true → recordAt (s.part p).supplied (s.part p).step = some r →
          ∃ src, sourceOf s (s.part p) = some src ∧ src.ts = r.boundary ∧ src.given = some r.entries) ∧
        (∀ r, (s.part p).replay = false → (s.part p).catchUp.isSome = true → recordAt (s.part p).supplied (s.part p).step = some r →
          ∃ src, sourceOf s (s.part p) = some src ∧ src.ts = r.boundary ∧ src.given = some r.entries) ∧
        ((s.part p).replay = false → (s.part p).catchUp = none →
          (∀ e, partFor (s.part p) = some e → ∃ src, sourceOf s (s.part p) = some src ∧ src.given = some e.2 ∧ ∀ j, src.seen j = decide (j.seq < e.1)) ∧
          (partFor (s.part p) = none → follows (s.part p) = true → sourceOf s (s.part p) = none) ∧
          (partFor (s.part p) = none → follows (s.part p) = false → ∃ src, sourceOf s (s.part p) = some src ∧ src.given = none ∧ src.ts = s.stamp)))) ∧
    (∀ (step : Nat) (stamp : Ns) (es : List Decision) (js : List JEntry), (s.part p).claim.paired = true → (s.part p).claim.leader = true →
      js = (s.part p).journal.filter (fun e => (s.part p).claim.sentSeq ≤ e.seq && e.arrived < stamp) →
      sendDecisions s p step stamp es = sendPart (s.modClaim p (fun c => { c with sentSeq := c.sentSeq + js.length })) p 1 0 step 0
        (es.flatMap decisionBytes ++ js.flatMap journalBytes)) ∧
    (∀ (src : Source) (fail : List CoreId), (decideBoundary s p src).1.bad = true →
      ((takeBoundary s p src fail).part p).holdAt = some (if (s.part p).catchUp.isSome then .catchUpImpossible else .divergence)) ∧
    (∀ (b : Bd) (kd : KvDecl) (e : JEntry) (m : ReqMsg), kvDecl b.x = some kd →
      (∀ st, rejection b.x kd m = some st → (b.message e m).x.seqs = b.x.seqs ∧ (b.message e m).x.cancels = b.x.cancels ∧
        (b.message e m).x.status = b.x.status ++ [(batchStream b.x (m.field 6 2),
          { client := m.field 8 8, seq := 0, token := 0xFFFFFFFF, pos := 0, status := st, cls := m.field 5 1 % 4, prob := 0 })]) ∧
      (rejection b.x kd m = none → m.field 4 1 = 1 → ∃ q, (b.message e m).x.seqs = b.x.seqs ++ [q] ∧ q.state = .queued ∧ q.client = m.field 8 8 ∧
        q.cls = m.field 5 1 ∧ q.promptEnd = m.field 16 4 ∧ q.maxNew = m.field 20 2 ∧ q.len = 0 ∧ q.frameSeq = e.seq) ∧
      (rejection b.x kd m = none → m.field 4 1 ≠ 1 → ∃ c, (b.message e m).x.cancels = b.x.cancels ++ [c] ∧ c.byClient = true ∧ c.target = m.field 8 8 ∧
        c.stamp = e.arrived ∧ (b.message e m).x.seqs = b.x.seqs)) ∧
    (∀ (b : Bd) (f : JEntry → Bool) (es : List JEntry),
      es = b.x.journal.filter (fun e => !e.taken && e.paired && requestStream b.x e.stream && f e) →
      (b.consume f).x.journal = b.x.journal.map (fun j => if es.any (fun e => e.seq == j.seq) && j.paired then { j with taken := true, buffer := none } else j)) ∧
    (∀ (b : Bd) (c : CancelReq), (cancelTarget b.x c = none → ∀ m, (b.cancel c m).es = b.es ∧ (b.cancel c m).x.seqs = b.x.seqs) ∧
      (∀ q, cancelTarget b.x c = some q → b.cut.contains q.seq = false → q.done = false → q.state = .active →
        (b.cancel c false).es = b.es ++ [{ kind := 0x02, a := 0, b := q.seq, c := c.frameSeq }] ∧
        (b.cancel c false).x.seqs = updFirst (fun r => r.seq == q.seq) (fun r => { r with state := .runOut, cancelled := true }) b.x.seqs ∧
        (b.cancel c true).es = b.es ++ [{ kind := 0x03, a := 0, b := q.seq, c := c.frameSeq }] ∧ (b.cancel c true).x.seqs = b.x.seqs ∧
        q.seq ∈ (b.cancel c true).gone)) ∧
    (∀ (b : Bd) (a d : Adapter), b.x.replay = false →
      ((∀ c, currentAdapter b.x a.ident = some c → c.version < a.version) → d ∈ (b.adapter a).x.adapters →
        (d.slot = a.slot → d.state = .current) ∧ (d.slot ≠ a.slot → d.ident = a.ident → d.state ≠ .current)) ∧
      ((∃ c, currentAdapter b.x a.ident = some c ∧ a.version ≤ c.version) → d ∈ (b.adapter a).x.adapters → d.slot ≠ a.slot)) ∧
    (∀ (b : Bd) (kd : KvDecl) (q : Seq) (n r : Nat), freeSlot b.x kd = some n → freeRange b.x kd = some r →
      (b.letIn kd q none).es = b.es ++ [{ kind := 0x01, a := q.cls, b := q.seq, c := q.frameSeq }] ∧
      ∀ a : Adapter, (b.letIn kd q (some a)).es = b.es ++ [{ kind := 0x01, a := q.cls, b := q.seq, c := q.frameSeq },
        { kind := 0x07, a := a.slot, b := q.seq, c := a.version }]) ∧
    (∀ (b : Bd) (kd : KvDecl) (qs : List Seq) (n : Nat), admitsNothing b.s = true → b.admitLive kd qs n = b) ∧
    (∀ (b : Bd) (q : Seq), (b.pause q).es = b.es ++ [{ kind := 0x04, a := 0, b := q.seq, c := 0 }] ∧ (b.pause q).x.pausedStack = q.seq :: b.x.pausedStack ∧
      (b.resume q).es = b.es ++ [{ kind := 0x05, a := 0, b := q.seq, c := 0 }] ∧ (b.resume q).x.pausedStack = b.x.pausedStack.erase q.seq) ∧
    (∀ (b : Bd) (c : Option CancelReq) (d : Decision), b.x.seqs.find? (fun q => q.seq == d.b) = none →
      (b.cancelEntry c d).bad = true ∧ (b.moveRecorded d).bad = true ∧ ∀ kd ds, (b.admitRecorded kd (d :: ds)).bad = true)

/-- O46. For every state s (its memory in canonical form where bytes are compared): a checkpoint whose export no longer runs becomes the
newest complete one and leaves the older one's pages to drop, and a partition held at a boundary that waited for it stops there; while the
export runs it goes on; the oldest record not exported of an ended step, with no export before it unsent, joins the partition's exports
with its journal entries, and is counted; of the exports one block more is sealed and sent when a request and a seal are free and its
bytes are moved, and none without a seal; a released step that stalls is marked once, at its instant; a hard stop of a core that holds a
command fences it with its cause, and holds a partition that has no checkpoint, no interval or no payloads for it, or else restores the
newest checkpoint and catches up, by its records up to the abandoned step; a core that fails in the glory hole is FENCED, one of no
partition that passes is in service with its four banks zero, one of a RUNNING partition that is not held waits for the epoch boundary,
one of a partition held for want of a layout or of an ARMED one is readmitted at once, when its receipt succeeds; a scrub row of a trained
stack that is awake moves on by half a page, poisons the units named and loses no byte; a sweep row moves on by half a page and loses no
byte. A row whose condition is not met changes nothing. The layout of an export is DESIGN CHOICE, log entry 129. The model's own too
(DESIGN CHOICE): a row brings the time to its deadline (log entry 10); a row without an occasion changes nothing (log entry 26). [derived:
01_beats_steps_and_replay.md, 02_turieno_contract.md, 04_spatial_pipelines.md, 05_banks_stacks_and_page_keys.md, R31, R33, R34, R56, R117,
R122, R123, R124] -/
def Obligations.StepRowsAct : Prop :=
  ∀ (s : State) (p : PartId) (c : CoreId) (k : ClusterId),
    (∀ n, (s.part p).ckptNew = some n → exportRuns s p 1 = false → ∃ t, exec (.checkpointComplete p) s = .next (settleModule (stopHeld t p)) ∧
      (t.part p).ckpt = some n ∧ (t.part p).ckptNew = none ∧
      (t.part p).ckptDrop = (s.part p).ckptDrop ++ (((s.part p).ckpt.map (fun o => o.pages)).getD []) ∧ t.mem = s.mem ∧
      (((s.part p).holdAt = none ∨ (s.part p).released = true) → stopHeld t p = t)) ∧
    ((s.part p).ckptNew ≠ none → exportRuns s p 1 = true → exec (.checkpointComplete p) s = .next (waits (pumpExport p s) p 5 0)) ∧
    ((s.part p).ckptNew = none → exec (.checkpointComplete p) s = .next s) ∧
    (∀ r, recordAt (s.part p).records (s.part p).exported = some r → (s.part p).exporting = true → r.step < (s.part p).step → (s.part p).exportRest = [] →
      ∃ t, exec (.stepExport p) s = .next (queueExport t p 0 (recordBytes r ++
          ((s.part p).journal.filter (fun e => r.firstSeq ≤ e.seq && e.seq < r.firstSeq + r.ngather && e.paired)).flatMap exportedEntry)) ∧
        (t.part p).exported = (s.part p).exported + 1 ∧ (t.part p).exportRest = [] ∧ t.mem = s.mem ∧ t.requests = s.requests ∧ t.out = s.out) ∧
    (∀ (e : Nat × Bytes) (rest : List (Nat × Bytes)) (n : Nat), (s.part p).exportRest = e :: rest → n = min 65536 e.2.length →
      (requestRoom s p.val ≠ 0 → sealsLeft (s.part p) ≠ 0 → (houseKind e.1 = true → stepsRun (s.part p) = true → n ≤ (s.part p).exportPaid) →
        ((pumpOne p s).part p).exportAt = (s.part p).exportAt + 1 ∧ (pumpOne p s).requests.length = s.requests.length + 1 ∧
        ((pumpOne p s).part p).exportRest = (if e.2.length ≤ 65536 then rest else (e.1, e.2.drop 65536) :: rest) ∧ (pumpOne p s).mem = s.mem) ∧
      ((requestRoom s p.val = 0 ∨ sealsLeft (s.part p) = 0) → pumpOne p s = s)) ∧
    ((s.part p).exporting = false → exec (.stepExport p) s = .next s) ∧
    ((s.part p).state = .running → (s.part p).released = true → (s.part p).stalled = false → partHeld s p = false →
      ∃ u, exec (.stepStall p) s = .next u ∧ (u.part p).stalled = true ∧ u.mem = s.mem ∧
        u.now = max s.now ((s.part p).releaseAt + 4 * wallBound s (s.part p) (s.part p).kind + heldNow s (s.part p) + 1)) ∧
    (((s.part p).state ≠ .running ∨ (s.part p).released = false ∨ (s.part p).stalled = true ∨ partHeld s p = true) → exec (.stepStall p) s = .next s) ∧
    (partOfCore s c = some p → stepping s p = true → holdsCommand s p c = true →
      ∃ u, exec (.hardStop c) s = .next u ∧ (u.core c).state = .fenced ∧ (u.core c).cause = .hardStop ∧ (∀ d, d ≠ c → u.core d = s.core d) ∧
        ((s.part p).ckpt = none → (u.part p).holdAt = some .catchUpImpossible ∧ (u.part p).released = false ∧ u.mem = s.mem) ∧
        (∀ n img, (s.part p).ckpt = some n → (s.part p).image = some img → (img.checkpoint = 0 ∨ payloadsHeld (s.part p) n = false) →
          (u.part p).holdAt = some .catchUpImpossible ∧ (u.part p).released = false ∧ u.mem = s.mem) ∧
        (∀ n img, (s.part p).ckpt = some n → (s.part p).image = some img → img.checkpoint ≠ 0 → payloadsHeld (s.part p) n = true →
          (u.part p).step = n.step ∧ (u.part p).tallies = n.tallies ∧ (u.part p).bases = n.tallies ∧ (u.part p).released = false ∧ (u.part p).inflight = [] ∧
          (u.part p).catchUp = some (max (s.part p).step ((s.part p).catchUp.getD 0)) ∧ (u.part p).supplied = keptRecords (s.part p))) ∧
    ((∀ p', partOfCore s c = some p' → stepping s p' = false ∨ holdsCommand s p' c = false) → exec (.hardStop c) s = .next s) ∧
    ((s.core c).state ≠ .gloryHole → ∀ g, exec (.gloryHolePass c g) s = .next s) ∧
    ((s.core c).state = .gloryHole →
      (∀ g, ∃ u, exec (.gloryHolePass c (some g)) s = .next u ∧ (u.core c).state = .fenced ∧ u.mem = s.mem) ∧
      (partOfCore s c = none → memWf s.mem = true → ∃ u, exec (.gloryHolePass c none) s = .next u ∧ (u.core c).state = .inService ∧ (u.core c).cause = .none ∧
        (∀ a, bankAddr (36 * (c.val / 8) + 4 * (c.val % 8)) 0 ≤ a → a < bankAddr (36 * (c.val / 8) + 4 * (c.val % 8) + 4) 0 → cellRead u.mem.banks a = 0) ∧
        (∀ a, a < bankAddr (36 * (c.val / 8) + 4 * (c.val % 8)) 0 ∨ bankAddr (36 * (c.val / 8) + 4 * (c.val % 8) + 4) 0 ≤ a →
          cellRead u.mem.banks a = cellRead s.mem.banks a) ∧ u.mem.hbm = s.mem.hbm) ∧
      (partOfCore s c = some p → (s.part p).state = .running → (s.part p).holdAt = none →
        ∃ u, exec (.gloryHolePass c none) s = .next u ∧ (u.core c).state = .rejoinPending ∧ u.parts = s.parts) ∧
      (∀ z, z = zeroCoreBanks (s.modCore c (fun k => { k with state := .rejoinPending, causeAt := s.stamp })) c → partOfCore s c = some p →
        ((s.part p).state = .running → (s.part p).holdAt = some .noLayout → exec (.gloryHolePass c none) s = .next (rejoinHeld z p c)) ∧
        ((s.part p).state = .armed → exec (.gloryHolePass c none) s = .next (rejoinArmed z p c)))) ∧
    (∀ corrected uncorrectable : List Nat, (s.cluster k).trained = true → (s.cluster k).selfRefresh = false → (∀ w ∈ s.mem.stackFlips, w ∈ s.mem.stackPoison) →
      ∃ u, exec (.hbmScrub k corrected uncorrectable) s = .next u ∧ u.mem.hbm = s.mem.hbm ∧ u.mem.banks = s.mem.banks ∧
        (u.cluster k).scrubAt = (if (s.cluster k).scrubAt + 32768 < 2 ^ 36 then (s.cluster k).scrubAt + 32768 else 0) ∧
        (∀ n, n < 512 → n ∈ uncorrectable → (stackAddr k ((s.cluster k).scrubAt + 64 * n)) / 64 ∈ u.mem.stackPoison)) ∧
    (∀ corrected uncorrectable : List Nat, ((s.cluster k).trained = false ∨ (s.cluster k).selfRefresh = true) →
      exec (.hbmScrub k corrected uncorrectable) s = .next s) ∧
    (∀ (uncorrectable : List Nat) (g : Nat), (s.cluster k).sweep = some g → (s.cluster k).selfRefresh = false →
      ((s.cluster k).halfDone = false → ∃ u, exec (.keySweep k uncorrectable) s = .next u ∧ (u.cluster k).halfDone = true ∧ (u.cluster k).sweep = some g ∧
        u.mem.hbm = s.mem.hbm) ∧
      ((s.cluster k).halfDone = true → ∃ u, exec (.keySweep k uncorrectable) s = .next u ∧ (u.cluster k).halfDone = false ∧
        (u.cluster k).sweep = (if g + 1 < 1044480 then some (g + 1) else none) ∧ u.mem.hbm = s.mem.hbm)) ∧
    (∀ uncorrectable : List Nat, ((s.cluster k).sweep = none ∨ (s.cluster k).selfRefresh = true) → exec (.keySweep k uncorrectable) s = .next s)

/-- O47. For every state s of a module that has started: in LOCKED an edge on count at which no commit disagrees keeps the state LOCKED and
makes the expected value the last one; the third edge in a row at which all commits disagree by one offset takes the offset into the last
value; an edge off count, or without an edge before it, begins HOLDOVER with one more loss, and the former with one more missed edge.
While not LOCKED, an edge on count whose commits agree on the last value plus 10^9 locks the counter at that value plus the trim, in
ACQUIRING at once; any other edge keeps the state and takes the commits' common value, if they have one, as the last. A missing edge and a
lost reference clock begin HOLDOVER from LOCKED, at their instants. The return of the clock sets its bit alone. A valid identity burst
within 100 µs after an edge gives its source and changes nothing else but time; an invalid one changes only time. A slew that completes
leaves no slew, with the counter where it stood. A due TIME_TRIM order sets the trim to its signed field. No byte of memory changes. The
model's own too (DESIGN CHOICE): what an edge in LOCKED does and what an offset without a commit does to a run (log entry 110), and that a
missing edge forgets the last one (log entry 111); a row brings the time to its deadline (log entry 10); a row without an occasion changes
nothing (log entry 26). [derived: 12_carloth_links_and_time.md, R345, R347, R348, R349, R350, R352] -/
def Obligations.TimeRowsAct : Prop :=
  ∀ (s : State), s.power.state ≠ .off → s.power.state ≠ .boot →
    (∀ (reading : Ns) (cycles u : Nat), s.time.state = .locked → s.time.ref = true → s.time.lastEdge.isSome = true → 156249998 ≤ cycles → cycles ≤ 156250002 →
      s.time.lastValue = some u →
      ((∀ v ∈ commitsOf s, v = u + 1000000000) →
        ∃ w, exec (.timeSyncEdge reading cycles) s = .next w ∧ w.now = max s.now reading ∧ w.time.state = .locked ∧ w.time.lastValue = some (u + 1000000000) ∧
          w.time.disagree = 0 ∧ w.time.annBad = satAdd 8 s.time.annBad 0 ∧ w.time.lastEdge = some w.now ∧ commitsOf w = [] ∧ w.mem = s.mem) ∧
      (∀ v, agreedOf (commitsOf s) = some v → v ≠ u + 1000000000 → s.time.disagree = 2 → s.time.offset = (v : Int) - (u + 1000000000 : Nat) →
        ∃ w, exec (.timeSyncEdge reading cycles) s = .next w ∧ w.time.state = .locked ∧ w.time.lastValue = some v ∧ w.time.disagree = 0 ∧ w.mem = s.mem)) ∧
    (∀ (reading : Ns) (cycles : Nat), s.time.state = .locked →
      (s.time.lastEdge = none ∨ s.time.ref = false ∨ cycles < 156249998 ∨ 156250002 < cycles) →
      ∃ w, exec (.timeSyncEdge reading cycles) s = .next w ∧ w.time.state = .holdover ∧ w.time.unsure = true ∧ w.time.heldSince = some w.now ∧
        w.time.missed = (if s.time.lastEdge = none then s.time.missed else satAdd 8 s.time.missed 1) ∧ w.time.losses = satAdd 8 s.time.losses 1 ∧ w.mem = s.mem) ∧
    (∀ (reading : Ns) (cycles u : Nat), s.time.state ≠ .locked → s.time.ref = true → s.time.lastEdge.isSome = true → 156249998 ≤ cycles → cycles ≤ 156250002 →
      s.time.lastValue = some u → agreedOf (commitsOf s) = some (u + 1000000000) →
      ∃ w, exec (.timeSyncEdge reading cycles) s = .next w ∧ w.time.state = .locked ∧ w.time.lastValue = some (u + 1000000000) ∧
        (s.time.state = .acquiring → 0 ≤ (u : Int) + 1000000000 + s.time.trim → (w.stamp : Int) = u + 1000000000 + s.time.trim) ∧ w.mem = s.mem) ∧
    (∀ (reading : Ns) (cycles : Nat), s.time.state ≠ .locked →
      (s.time.lastEdge = none ∨ s.time.ref = false ∨ cycles < 156249998 ∨ 156250002 < cycles ∨ s.time.lastValue = none ∨
        agreedOf (commitsOf s) ≠ s.time.lastValue.map (fun u => u + 1000000000)) →
      ∃ w, exec (.timeSyncEdge reading cycles) s = .next w ∧ w.time.state = s.time.state ∧ w.time.lastValue = agreedOf (commitsOf s) ∧
        w.time.lastEdge = some w.now ∧ w.mem = s.mem) ∧
    (∀ e, s.time.lastEdge = some e → s.time.state = .locked →
      ∃ w, exec .edgeMissing s = .next w ∧ w.now = max s.now (e + 1000100000) ∧ w.time.state = .holdover ∧ w.time.lastEdge = none ∧
        w.time.missed = satAdd 8 s.time.missed 1 ∧ w.mem = s.mem ∧ w.parts = s.parts) ∧
    (s.time.lastEdge = none → exec .edgeMissing s = .next s) ∧
    (s.time.ref = true → s.time.state = .locked → ∃ w, exec .refclkLoss s = .next w ∧ w.time.ref = false ∧ w.time.state = .holdover ∧
      w.time.losses = satAdd 8 s.time.losses 1 ∧ w.mem = s.mem ∧ w.parts = s.parts) ∧
    (s.time.ref = true → s.time.state ≠ .locked → exec .refclkLoss s = .next (s.modTime (fun t => { t with ref := false }))) ∧
    exec .refclkReturn s = .next (s.modTime (fun t => { t with ref := true })) ∧
    (∀ (e : Ns) (bits : BitVec 96), s.time.lastEdge = some e →
      (s.now ≤ e + 100000 → bitsOf bits.toNat 95 80 = 0xA5C3 →
        crc32c (leBytes 4 (bitsOf bits.toNat 79 48) ++ leBytes 2 (bitsOf bits.toNat 47 32)) = bitsOf bits.toNat 31 0 →
        exec (.identityBurst bits) s = .next ((s.reach (e + 10000)).modTime (fun t => { t with far := BitVec.ofNat 32 (bitsOf bits.toNat 79 48) }))) ∧
      ((e + 100000 < s.now ∨ bitsOf bits.toNat 95 80 ≠ 0xA5C3 ∨
        crc32c (leBytes 4 (bitsOf bits.toNat 79 48) ++ leBytes 2 (bitsOf bits.toNat 47 32)) ≠ bitsOf bits.toNat 31 0) →
        exec (.identityBurst bits) s = .next (s.reach (e + 10000)))) ∧
    (s.time.slew ≠ 0 → s.time.slewAt + 1000 * s.time.slew ≤ s.now →
      ∃ w, exec .slewComplete s = .next w ∧ w.time.slew = 0 ∧ w.stamp = s.stamp ∧ w.now = s.now ∧ (s.time.state = .locked → w.time.unsure = false) ∧ w.mem = s.mem) ∧
    (s.time.slew = 0 → exec .slewComplete s = .next s) ∧
    (∀ (t : Taken) (rest : List Taken), firstDue s 0x6D t rest →
      exec .timeTrim s = .next (answerBare ((s.withDue rest).modTime (fun v => { v with trim := signedOf 16 (t.field 0 2) })) t 0x00))

/-- O48. For every state s: a due EVT_COPY with ACTION 1 turns the port's copy on from FROM, or from the oldest record held; with ACTION 2 it
turns it off. A port whose copy is on, whose log mailbox is empty and which has new records takes, once the ring is in memory, up to 127
of them from its cursor; any other port takes none. A due mirror order unbinds the mirror, is refused 0x03 on a port that carries a stream
and 0x05 above the port's rate, and else binds it. A mirror frame sends up to as many new records as MAX_BYTES allows, behind the frame's
header line and in lines of LINE_BYTES, no earlier than MIN_INTERVAL after the last nor before the port's frame before it has ended,
occupies the port for its time on the wire (DESIGN CHOICE, log entry 147) and moves the cursor past them; with no mirror, no new record,
or no port running it changes nothing. A due STREAM_BIND is refused 0x01 while its partition is RUNNING; with DIR 0xFF it unbinds the
stream; else it is refused 0x03 for a conflict of R270 and 0x05 above the rate of R271, and else binds the stream in place of any former
binding of it. A due CSI_TIMEOUT sets the timeout. A row with no order due changes nothing. The model's own too (DESIGN CHOICE): a row
brings the time to its deadline (log entry 10); a row without an occasion changes nothing (log entry 26). [derived:
19_event_codes_and_returns.md, 10_csi2_streams.md, R270, R271, R272, R477, R478, R479, R480, R481] -/
def Obligations.EventAndBindOrdersAct : Prop :=
  ∀ (s : State),
    (∀ (t : Taken) (rest : List Taken), firstDue s 0x60 t rest → t.field 0 1 = 1 →
      exec .evtCopy s = .next (answerBare ((s.withDue rest).modPort t.port (fun q => { q with
        copyOn := true
        cursor := max (t.field 8 8) (s.events.written - s.events.records.length)
        log := match q.log with | some (true, a, n, bs) => some (true, a, n, bs) | _ => none
        logAt := 0 })) t 0x00)) ∧
    (∀ (t : Taken) (rest : List Taken), firstDue s 0x60 t rest → t.field 0 1 = 2 →
      exec .evtCopyStop s = .next (answerBare ((s.withDue rest).modPort t.port (fun q => { q with copyOn := false })) t 0x00)) ∧
    (∀ x : I3cId, s.events.openRing = true → (s.port x).copyOn = true → (s.port x).log = none → max (s.port x).cursor (oldestHeld s.events) < s.events.written →
      ∃ u first es, exec (.logMessageFill x) s = .next u ∧ first = max (s.port x).cursor (oldestHeld s.events) ∧ es = recordsFrom s.events first 127 ∧
        (u.port x).log = some (false, first, es.length, logMessage (s.source (srcI3c x)) s.stamp (first + es.length < s.events.written) first es) ∧
        (u.port x).cursor = first ∧ (u.port x).logAt = 0 ∧ u.events = s.events ∧ u.mem = s.mem ∧ u.out = s.out ∧ u.parts = s.parts ∧
        (∀ y, y ≠ x → u.port y = s.port y)) ∧
    (∀ x : I3cId, (s.events.openRing = false ∨ (s.port x).copyOn = false ∨ (s.port x).log.isSome = true ∨ s.events.written ≤ max (s.port x).cursor (oldestHeld s.events)) →
      exec (.logMessageFill x) s = .next s) ∧
    (∀ (t : Taken) (rest : List Taken), firstDue s 0x61 t rest → t.field 1 1 = 0xFF →
      exec .evtMirror s = .next (answerBare ((s.withDue rest).modEvents (fun v => { v with mirror := none })) t 0x00)) ∧
    (∀ (t : Taken) (rest : List Taken), firstDue s 0x61 t rest → t.field 1 1 ≠ 0xFF →
      (s.csi.bindings.any (fun c => c.transmit && c.port.val == t.field 4 1 % 16) = true → exec .evtMirror s = .next (answerBare (s.withDue rest) t 0x03)) ∧
      (s.csi.bindings.any (fun c => c.transmit && c.port.val == t.field 4 1 % 16) = false →
        (rateExceeded (t.field 6 1) (t.field 8 2) [(t.field 12 4, t.field 10 2, t.field 20 4)] = true → exec .evtMirror s = .next (answerBare (s.withDue rest) t 0x05)) ∧
        (rateExceeded (t.field 6 1) (t.field 8 2) [(t.field 12 4, t.field 10 2, t.field 20 4)] = false →
          ∀ (k : Fin 16) (m : Mirror), k.val = t.field 4 1 % 16 →
            m = Mirror.mk k (t.field 5 1) (t.field 6 1) (t.field 8 2) (t.field 10 2) (t.field 12 4) (t.field 20 4) 0 none →
            exec .evtMirror s = .next (answerBare ((s.withDue rest).modEvents (fun v => { v with mirror := some m })) t 0x00)))) ∧
    (s.events.mirror = none → exec .mirrorFrame s = .next s) ∧
    (∀ m es, s.events.mirror = some m → es = recordsFrom s.events (max m.cursor (oldestHeld s.events)) ((m.maxBytes - 32) / 32) →
      (es = [] ∨ s.csi.stopped = true ∨ s.power.state = .off) → exec .mirrorFrame s = .next s) ∧
    (∀ m es body, s.events.mirror = some m → es = recordsFrom s.events (max m.cursor (oldestHeld s.events)) ((m.maxBytes - 32) / 32) → es ≠ [] →
      s.csi.stopped = false → s.power.state ≠ .off →
      body = leBytes 4 0x524D5645 ++ leBytes 4 es.length ++ leBytes 8 (max m.cursor (oldestHeld s.events)) ++ zeros 16 ++ es.flatMap eventBytes →
      ∃ u m' n, exec .mirrorFrame s = .next u ∧ u.now = max s.now (max (s.csi.tx.get m.port).endAt (match m.lastStart with | some l => l + 1000 * m.minInterval | none => 0)) ∧
        (u.csi.tx.get m.port).endAt = u.now + wireTime m.lanes m.laneMbps m.lineBytes body.length ∧
        u.events.mirror = some m' ∧ m'.cursor = max m.cursor (oldestHeld s.events) + es.length ∧ m'.lastStart = some u.now ∧
        u.events.records = s.events.records ∧
        u.out = s.out ++ [.csiFrame m.port m.vc n u.stamp
          (headerLine 0xFF (bit s.time.unsure) 0 0x36 0 0 u.stamp (s.source (0x60 + m.port.val)) body.length (crc32c body) 0) 0x36 (payloadLines m.lineBytes body)] ∧
        u.mem = s.mem ∧ u.parts = s.parts) ∧
    (∀ (t : Taken) (rest : List Taken), firstDue s 0x22 t rest → (s.part (t.part 0)).state = .running →
      exec .streamBind s = .next (answerBare (s.withDue rest) t 0x01)) ∧
    (∀ (t : Taken) (rest : List Taken), firstDue s 0x22 t rest → (s.part (t.part 0)).state ≠ .running → t.field 1 1 = 0xFF →
      exec .streamBind s = .next (answerBare (unbind (s.withDue rest) (t.part 0) (t.field 2 2) (fun _ => true)) t 0x00)) ∧
    (∀ (t : Taken) (rest : List Taken) (b : Binding), firstDue s 0x22 t rest → (s.part (t.part 0)).state ≠ .running → t.field 1 1 ≠ 0xFF →
      b = bindingFrom s t (t.part 0) →
      (bindConflict s b = true → exec .streamBind s = .next (answerBare (s.withDue rest) t 0x03)) ∧
      (bindConflict s b = false → b.transmit = true → rateExceeded b.lanes b.laneMbps (portStreams s b) = true →
        exec .streamBind s = .next (answerBare (s.withDue rest) t 0x05)) ∧
      (bindConflict s b = false → (b.transmit = false ∨ rateExceeded b.lanes b.laneMbps (portStreams s b) = false) →
        exec .streamBind s = .next (answerBare ((unbind (s.withDue rest) b.part b.stream (fun c => c.transmit == b.transmit)).modCsi
          (fun c => { c with bindings := c.bindings ++ [b] })) t 0x00))) ∧
    (∀ (t : Taken) (rest : List Taken), firstDue s 0x23 t rest →
      exec .csiTimeout s = .next (answerBare ((s.withDue rest).modCsi (fun c => { c with timeout := t.field 0 4 })) t 0x00)) ∧
    ((∀ t ∈ s.orders.due, t.msg.typ ≠ 0x60) → exec .evtCopy s = .next s ∧ exec .evtCopyStop s = .next s) ∧
    ((∀ t ∈ s.orders.due, t.msg.typ ≠ 0x61) → exec .evtMirror s = .next s) ∧
    ((∀ t ∈ s.orders.due, t.msg.typ ≠ 0x22) → exec .streamBind s = .next s) ∧
    ((∀ t ∈ s.orders.due, t.msg.typ ≠ 0x23) → exec .csiTimeout s = .next s)

/-- O49. For every state s and the due claim order t of partition p: CLAIM_PAIR with the partner on the own tray, with a place that is not the
other member of the mirror set, or while another partition is paired with another partner, is refused 0x03; else it is refused 0x10 while
RUNNING, and else pairs p as the holder that leads, with claim 2, or as the standby, with claim 1 (0 in replay), HIGHEST at the same
value, and answers 0x00. CLAIM_SET is refused 0x10 in GLORY_HOLE or unpaired, and with a VALUE other than 0 in replay; with VALUE 0 the
claim falls to 0 and p enters GLORY_HOLE; a VALUE not above HIGHEST is answered 0x04, and VALUE 0xFFFFFFFF too, with the claim as it was;
a VALUE above HIGHEST becomes the claim and HIGHEST, p is the holder and leads. CLAIM_UNPAIR is refused 0x10 while RUNNING and else leaves
p unpaired. CLAIM_REENTER is refused 0x10 unless p is paired and is LOADED or in GLORY_HOLE, and else puts p in GLORY_HOLE with claim 0,
asking for a snapshot at the pace ordered. A row with no such order due changes nothing. That a re-entry of an unpaired partition is
refused (log entry 114), that VALUE 0xFFFFFFFF answers 0x04 and that a raise in replay answers 0x10 (log entry 116) are the model's choice
(DESIGN CHOICE). The model's own too (DESIGN CHOICE): a row without an occasion changes nothing (log entry 26). [derived:
13_claims_and_standby.md, R353, R354, R355, R364, R365, R366, R370, R373] -/
def Obligations.ClaimOrdersAct : Prop :=
  ∀ (s : State) (p : PartId),
    (∀ (t : Taken) (rest : List Taken), firstDue s 0x38 t rest → t.part 0 = p →
      ((t.field 4 2 / 32 = s.fuses.tray ∨ mirrorMember (s.part p) (t.field 4 2) (t.field 8 8) = false ∨
        (∃ q, q ≠ p ∧ (s.part q).claim.paired = true ∧ ((s.part q).claim.partner ≠ t.field 4 2 ∨ (s.part q).claim.serial ≠ t.field 8 8))) →
        exec .claimPair s = .next (answerBare (s.withDue rest) t 0x03)) ∧
      (t.field 4 2 / 32 ≠ s.fuses.tray → mirrorMember (s.part p) (t.field 4 2) (t.field 8 8) = true →
        (∀ q, q ≠ p → (s.part q).claim.paired = true → (s.part q).claim.partner = t.field 4 2 ∧ (s.part q).claim.serial = t.field 8 8) →
        ((s.part p).state = .running → exec .claimPair s = .next (answerBare (s.withDue rest) t 0x10)) ∧
        ((s.part p).state ≠ .running →
          ∃ u v, exec .claimPair s = .next u ∧ u = answerBare v t 0x00 ∧ (u.part p).claim.paired = true ∧ (u.part p).claim.group = t.field 2 2 ∧
            (u.part p).claim.partner = t.field 4 2 ∧ (u.part p).claim.serial = t.field 8 8 ∧
            (u.part p).claim.detectSteps = (if t.field 6 1 = 0 then 2 else t.field 6 1) ∧
            (u.part p).claim.detectMin = (if t.field 7 1 = 0 then 2 else t.field 7 1) ∧ (u.part p).claim.claim = (u.part p).claim.highest ∧
            (t.field 1 1 = 1 → (u.part p).claim.role = .holder ∧ (u.part p).claim.leader = true) ∧
            (t.field 1 1 ≠ 1 → (u.part p).claim.role = .standby ∧ (u.part p).claim.leader = false) ∧
            (u.part p).claim.claim = (if (s.part p).replay = true then 0 else if t.field 1 1 = 1 then 2 else 1) ∧
            u.mem = s.mem ∧ (∀ q, q ≠ p → u.part q = s.part q)))) ∧
    (∀ (t : Taken) (rest : List Taken), firstDue s 0x39 t rest → t.part 0 = p →
      (((s.part p).claim.paired = false ∨ (s.part p).claim.role = .gloryHole) → t.field 4 4 = 0 →
        exec .claimYield s = .next (answerBare (s.withDue rest) t 0x10)) ∧
      (((s.part p).claim.paired = false ∨ (s.part p).claim.role = .gloryHole ∨ (s.part p).replay = true) → t.field 4 4 ≠ 0 →
        exec .claimRaise s = .next (answerBare (s.withDue rest) t 0x10)) ∧
      ((s.part p).claim.paired = true → (s.part p).claim.role ≠ .gloryHole → t.field 4 4 = 0 → ∃ u v, exec .claimYield s = .next u ∧ u = answerBare v t 0x00 ∧ (u.part p).claim.claim = 0 ∧ (u.part p).claim.role = .gloryHole ∧
          (u.part p).claim.leader = false ∧ (u.part p).claim.highest = (s.part p).claim.highest ∧ u.mem = s.mem ∧ (∀ q, q ≠ p → u.part q = s.part q)) ∧
      ((s.part p).claim.paired = true → (s.part p).claim.role ≠ .gloryHole → (s.part p).replay = false →
        (t.field 4 4 ≠ 0 → t.field 4 4 ≤ (s.part p).claim.highest.toNat → exec .claimRaise s = .next (answerBare (s.withDue rest) t 0x04)) ∧
        (t.field 4 4 = 0xFFFFFFFF → ∃ u v, exec .claimRaise s = .next u ∧ u = answerBare v t 0x04 ∧ (u.part p).claim = (s.part p).claim ∧ u.mem = s.mem ∧
          (∀ q, q ≠ p → u.part q = s.part q)) ∧
        ((s.part p).claim.highest.toNat < t.field 4 4 → t.field 4 4 ≠ 0xFFFFFFFF →
          ∃ u v, exec .claimRaise s = .next u ∧ u = answerBare v t 0x00 ∧ (u.part p).claim.claim.toNat = t.field 4 4 ∧
            (u.part p).claim.highest.toNat = t.field 4 4 ∧ (u.part p).claim.role = .holder ∧ (u.part p).claim.leader = true ∧
            (u.part p).claim.raises = satAdd 8 (s.part p).claim.raises 1 ∧ u.mem = s.mem ∧ (∀ q, q ≠ p → u.part q = s.part q)))) ∧
    (∀ (t : Taken) (rest : List Taken), firstDue s 0x3A t rest → t.part 0 = p →
      ((s.part p).state = .running → exec .claimUnpair s = .next (answerBare (s.withDue rest) t 0x10)) ∧
      ((s.part p).state ≠ .running → ∃ u v, exec .claimUnpair s = .next u ∧ u = answerBare v t 0x00 ∧ (u.part p).claim = Claim.init ∧
        (u.part p).step = (s.part p).step ∧ u.mem = s.mem ∧ (∀ q, q ≠ p → u.part q = s.part q))) ∧
    (∀ (t : Taken) (rest : List Taken), firstDue s 0x3B t rest → t.part 0 = p →
      (((s.part p).claim.paired = false ∨ (s.part p).state ≠ .loaded ∧ (s.part p).claim.role ≠ .gloryHole) →
        exec .claimReenter s = .next (answerBare (s.withDue rest) t 0x10)) ∧
      ((s.part p).claim.paired = true → ((s.part p).state = .loaded ∨ (s.part p).claim.role = .gloryHole) →
        ∃ u v, exec .claimReenter s = .next u ∧ u = answerBare v t 0x00 ∧ (u.part p).claim.role = .gloryHole ∧ (u.part p).claim.claim = 0 ∧
          (u.part p).claim.leader = false ∧ (u.part p).claim.wanted = true ∧ (u.part p).claim.tries = 0 ∧
          (u.part p).claim.pacePct = (if t.field 1 1 = 0xFF then 10 else t.field 1 1) ∧
          (u.part p).claim.highest = (s.part p).claim.highest ∧ u.mem = s.mem ∧ (∀ q, q ≠ p → u.part q = s.part q))) ∧
    ((∀ t ∈ s.orders.due, t.msg.typ ≠ 0x38) → exec .claimPair s = .next s) ∧
    ((∀ t ∈ s.orders.due, t.msg.typ ≠ 0x39) → exec .claimYield s = .next s ∧ exec .claimRaise s = .next s) ∧
    ((∀ t ∈ s.orders.due, t.msg.typ ≠ 0x3A) → exec .claimUnpair s = .next s) ∧
    ((∀ t ∈ s.orders.due, t.msg.typ ≠ 0x3B) → exec .claimReenter s = .next s)

/-- O50. For every state s and partition p: the timer of 500 µs of a paired partition sends one heartbeat on lanes that carry records, and
none on lanes that carry idles or a test pattern or for an unpaired one. A record whose RCRC fails, of another cabinet or of a place and
serial that is no partner here is discarded and counted, and it and a partner's record of an unpaired group change no partition; no record
arrives during a lane test or off. An accepted record that does not outrank a leader's claim raises HIGHEST when it is higher and changes
no role of a leader, nor of any member unless it carries CLAIM 0 or PULLED. CLAIM 0 or PULLED at a STANDBY not in replay, or no heartbeat
for DETECT, sets the claim to HIGHEST + 1, and p leads. A record that outranks a leader drops p to claim 0 and GLORY_HOLE, asking for a
snapshot, and counts a demotion. DETECT without a heartbeat at a leader only marks the partner lost, and fails a re-entry in progress,
which asks for a new snapshot until its third failure, and holds a member that left the claim with no re-entry open. A follower with an
entry unmatched for FE_TIMEOUT, or that has waited DETECT for a part, leaves STANDBY for GLORY_HOLE; with neither, or leading or unpaired,
it changes nothing. Sync of CLAIM_PEER_RX follows its events. The model's own too (DESIGN CHOICE): what a member of GLORY_HOLE without an
open re-entry does (log entry 115); a row brings the time to its deadline (log entry 10); a row without an occasion changes nothing (log
entry 26). [derived: 13_claims_and_standby.md, R356, R357, R358, R360, R363, R364, R365, R366, R374] -/
def Obligations.ClaimLanesAct : Prop :=
  ∀ (s : State) (p : PartId),
    ((s.part p).claim.paired = false → exec (.heartbeatTimer p) s = .next s) ∧
    ((s.part p).claim.paired = true → (s.lanes.idleOnly = true ∨ s.lanes.testing = true) →
      exec (.heartbeatTimer p) s = .next (s.reach ((s.part p).claim.lastSent + 500000))) ∧
    ((s.part p).claim.paired = true → s.lanes.idleOnly = false → s.lanes.testing = false → ∃ u, exec (.heartbeatTimer p) s = .next u ∧
      u.now = max s.now ((s.part p).claim.lastSent + 500000) ∧ (u.part p).claim.lastSent = u.now ∧ (u.part p).claim.claim = (s.part p).claim.claim ∧
      u.out = s.out ++ [.heartbeat (heartbeatOf { s with now := u.now } p false)] ∧ u.mem = s.mem ∧ (∀ q, q ≠ p → u.part q = s.part q)) ∧
    (∀ h, (s.power.state = .off ∨ s.lanes.testing = true) → exec (.heartbeatReceive h) s = .next s) ∧
    (∀ h : Heartbeat, s.power.state ≠ .off → s.lanes.testing = false →
      (h.rcrc ≠ crc32c (beatBytes h) → exec (.heartbeatReceive h) s = .next (s.modLanes (fun l => { l with discards := satAdd 16 l.discards 1 }))) ∧
      (h.rcrc = crc32c (beatBytes h) → (h.cabinet ≠ s.plan.cabinet ∨ beatPart s h = none) → ∃ u, exec (.heartbeatReceive h) s = .next u ∧
        u.lanes.discards = (if h.cabinet = s.plan.cabinet ∧ (∃ q, (s.part q).claim.paired = true ∧ (s.part q).claim.partner = h.place ∧ (s.part q).claim.serial = h.serial)
          then s.lanes.discards else satAdd 16 s.lanes.discards 1) ∧ u.parts = s.parts ∧ u.mem = s.mem ∧ u.events = s.events) ∧
      (h.rcrc = crc32c (beatBytes h) → h.cabinet = s.plan.cabinet → beatPart s h = some p → h.claim < 2 ^ 32 →
        ((s.part p).claim.leader = true ∧ outranks h.claim h.place (s.part p).claim.claim.toNat s.place = false ∨
          (s.part p).claim.leader = false ∧ h.claim ≠ 0 ∧ bitOf h.bflags 3 = false →
          ∃ u, exec (.heartbeatReceive h) s = .next u ∧ (u.part p).claim.highest.toNat = max (s.part p).claim.highest.toNat h.claim ∧
            (u.part p).claim.claim = (s.part p).claim.claim ∧ (u.part p).claim.role = (s.part p).claim.role ∧ (u.part p).claim.leader = (s.part p).claim.leader ∧
            (u.part p).claim.lastBeat = some s.now ∧ (h.claim ≠ 0 → bitOf h.bflags 3 = false → (u.part p).claim.lost = false) ∧
            u.mem = s.mem ∧ (∀ q, q ≠ p → u.part q = s.part q)) ∧
        ((h.claim = 0 ∨ bitOf h.bflags 3 = true) → (s.part p).claim.leader = false → (s.part p).claim.role = .standby → (s.part p).replay = false →
          max (s.part p).claim.highest.toNat h.claim + 1 < 0xFFFFFFFF →
          ∃ u, exec (.heartbeatReceive h) s = .next u ∧ (u.part p).claim.claim.toNat = max (s.part p).claim.highest.toNat h.claim + 1 ∧
            (u.part p).claim.role = .holder ∧ (u.part p).claim.leader = true ∧ u.mem = s.mem ∧ (∀ q, q ≠ p → u.part q = s.part q)) ∧
        (h.claim ≠ 0 → bitOf h.bflags 3 = false → (s.part p).claim.leader = true → outranks h.claim h.place (s.part p).claim.claim.toNat s.place = true →
          ∃ u, exec (.heartbeatReceive h) s = .next u ∧ (u.part p).claim.claim = 0 ∧ (u.part p).claim.role = .gloryHole ∧ (u.part p).claim.leader = false ∧
            (u.part p).claim.wanted = true ∧ (u.part p).claim.demotions = satAdd 8 (s.part p).claim.demotions 1 ∧
            (u.part p).inflight = [] ∧ (u.part p).emits = [] ∧ u.mem = s.mem ∧ (∀ q, q ≠ p → u.part q = s.part q)))) ∧
    (((s.part p).claim.paired = false ∨ (s.part p).claim.lost = true ∨ (s.part p).claim.lastBeat = none) → exec (.holderLost p) s = .next s) ∧
    (∀ b, (s.part p).claim.paired = true → (s.part p).claim.lastBeat = some b → (s.part p).claim.lost = false →
      ((s.part p).claim.role = .standby → (s.part p).replay = false → (s.part p).claim.highest.toNat + 1 < 0xFFFFFFFF →
        ∃ u, exec (.holderLost p) s = .next u ∧ u.now = max s.now (b + detectTime (s.part p).claim) ∧ (u.part p).claim.leader = true ∧
          (u.part p).claim.role = .holder ∧ (u.part p).claim.claim.toNat = (s.part p).claim.highest.toNat + 1 ∧ u.mem = s.mem) ∧
      ((s.part p).claim.role = .holder → ∃ u, exec (.holderLost p) s = .next u ∧ u.now = max s.now (b + detectTime (s.part p).claim) ∧
        (u.part p).claim.lost = true ∧ (u.part p).claim.claim = (s.part p).claim.claim ∧ u.mem = s.mem) ∧
      ((s.part p).claim.role = .gloryHole → (s.part p).claim.leader = false → (s.part p).claim.wanted = true → ∃ u, exec (.holderLost p) s = .next u ∧ (u.part p).claim.lost = true ∧
        (u.part p).claim.wanted = decide ((s.part p).claim.tries < 2) ∧ (u.part p).claim.tries = min 3 ((s.part p).claim.tries + 1) ∧
        (u.part p).claim.claim = (s.part p).claim.claim ∧ u.mem = s.mem) ∧
      ((s.part p).claim.role = .gloryHole → (s.part p).claim.wanted = false → ∃ u, exec (.holderLost p) s = .next u ∧ (u.part p).claim.lost = true ∧
        ((s.part p).state = .running → (s.part p).released = false → (u.part p).holdAt = some .gloryHole) ∧ u.mem = s.mem)) ∧
    (((s.part p).claim.paired = false ∨ (s.part p).claim.leader = true ∨ (s.part p).claim.unmatched = [] ∧ (s.part p).claim.waitPart = none) →
      exec (.followerUnmatched p) s = .next s) ∧
    ((s.part p).claim.paired = true → (s.part p).claim.leader = false → (s.part p).claim.role = .standby →
      (∀ e us, (s.part p).claim.unmatched = e :: us → ∃ u, exec (.followerUnmatched p) s = .next u ∧ u.now = max s.now (e.2 + 1000 * s.csi.timeout) ∧
        (u.part p).claim.role = .gloryHole ∧ (u.part p).claim.claim = 0 ∧ (u.part p).claim.wanted = true ∧ u.mem = s.mem) ∧
      (∀ b, (s.part p).claim.unmatched = [] → (s.part p).claim.waitPart = some b → (s.part p).claim.lost = false →
        ∃ u, exec (.followerUnmatched p) s = .next u ∧ u.now = max s.now (b + detectTime (s.part p).claim) ∧
          (u.part p).claim.role = .gloryHole ∧ (u.part p).claim.claim = 0 ∧ (u.part p).claim.wanted = true ∧ u.mem = s.mem)) ∧
    exec .peerRxSyncLost s = .next (s.modLanes (fun l => { l with rxSync := false })) ∧
    exec .peerRxSyncGained s = .next (s.modLanes (fun l => { l with rxSync := true }))

/-- O51. For every state s and the due security order t of partition p: a release that meets an uncorrectable vault word wipes the vault, so
that no partition holds an image or a key, and is answered 0x10 with cause 3. With the vault readable, a release for a partition that
holds no image is answered 0x10 with cause 3; one whose NONCE names no ephemeral key, cause 1; one that does not open, cause 2; and one
that opens, above the highest generation, not applied before, for a declared stream and with TAMPER_N high, installs a model, stream or
store key and counts one release. An intake without an image or a model key is refused 0x10; one of weight chunks is refused 0x10 unless p
is LOADED, 0x01 while one runs and 0x04 beyond CHUNKS, and else starts; one of an adapter is refused 0x10 unless a slot awaits that
version and p is ARMED or RUNNING, 0x01 while one runs and 0x04 for a LENGTH out of range, and else starts (the statuses: DESIGN CHOICE,
log entry 106). A rotation is refused 0x10 without an image, 0x01 while a sweep runs; in a RUNNING partition it waits for the boundary,
else every cluster of p has one new key, its former key as previous key and its sweep at page 0, and the generation is one higher.
SEC_RETURN is refused 0x10 unless every partition is FREE; ACTION 2 with another serial is answered 0x04, without ACTION 1 within 10 s on
its port 0x10, and else leaves the module RETURNED and in BOOT with nothing in memory. A row with no such order due changes nothing. That
cause 3 is tested first is DEDUCED (log entry 105); the ends of a rotation and of the two orders of a return are the model's choice
(DESIGN CHOICE, log entries 70, 100 and 109). The model's own too (DESIGN CHOICE): a row without an occasion changes nothing (log entry
26). [derived: 15_keys_tenants_attestation.md, R412, R415, R420, R421, R422, R423, R426, R430] -/
def Obligations.SecurityOrdersAct : Prop :=
  ∀ (s : State) (p : PartId),
    (∀ (t : Taken) (rest : List Taken), firstDue s 0x40 t rest → t.part 0 = p →
      (∃ u v, exec (.secKeyRelease true) s = .next u ∧ u = answer v t 0x10 (zeros 3 ++ leBytes 1 3) ∧ u.security.wipes = satAdd 8 s.security.wipes 1 ∧
        (∀ q, holdsImage (u.part q) = false ∧ (u.part q).keys.model = none)) ∧
      (holdsImage (s.part p) = false → ∃ u v, exec (.secKeyRelease false) s = .next u ∧ u = answer v t 0x10 (zeros 3 ++ leBytes 1 3) ∧
        u.parts = s.parts ∧ u.security.rejects = satAdd 8 s.security.rejects 1 ∧ u.mem = s.mem) ∧
      (holdsImage (s.part p) = true → (∀ e ∈ (s.part p).keys.ephemeral, e.nonce ≠ padTo 32 (slice t.msg.body 8 32)) →
        ∃ u v, exec (.secKeyRelease false) s = .next u ∧ u = answer v t 0x10 (zeros 3 ++ leBytes 1 1) ∧ u.parts = s.parts ∧
          u.security.rejects = satAdd 8 s.security.rejects 1 ∧ u.mem = s.mem) ∧
      (∀ e : Ephemeral, holdsImage (s.part p) = true →
        (s.part p).keys.ephemeral.find? (fun e => e.nonce == padTo 32 (slice t.msg.body 8 32)) = some e →
        (unwrap s t e = none → ∃ u v, exec (.secKeyRelease false) s = .next u ∧ u = answer v t 0x10 (zeros 3 ++ leBytes 1 2) ∧ u.parts = s.parts ∧
          u.security.rejects = satAdd 8 s.security.rejects 1 ∧ u.mem = s.mem) ∧
        (∀ plain : Bytes, unwrap s t e = some plain →
          (t.field 1 1 ≠ 1 → ∀ n, highestGen (s.part p).keys (t.field 1 1) (t.field 2 2) = some n → n < t.field 4 4) →
          (s.part p).keys.applied.contains (e.nonce, t.field 1 1, t.field 2 2, t.field 4 4) = false →
          (t.field 1 1 = 2 → (rxDecl (s.part p) (t.field 2 2)).isSome = true) → s.security.extTamper = false →
          ∃ u v, exec (.secKeyRelease false) s = .next u ∧ u = answer v t 0x00 (zeros 4) ∧ u.security.releases = satAdd 8 s.security.releases 1 ∧ u.mem = s.mem ∧
            (t.field 1 1 = 1 → (u.part p).keys.model = some (plain.take 32) ∧ (u.part p).keys.store = (s.part p).keys.store) ∧
            (t.field 1 1 = 2 → (u.part p).keys.model = (s.part p).keys.model ∧ (u.part p).keys.store = (s.part p).keys.store ∧
              ∃ k ∈ (u.part p).keys.streams, k.stream = t.field 2 2 ∧ k.gen = t.field 4 4 ∧ k.key = plain.take 32 ∧ k.salt = plain.drop 32) ∧
            (t.field 1 1 = 3 → (u.part p).keys.store = some (t.field 4 4, plain.take 32) ∧ (u.part p).keys.storePrev = (s.part p).keys.store) ∧
            (∀ q, q ≠ p → u.part q = s.part q)))) ∧
    (∀ (t : Taken) (rest : List Taken), firstDue s 0x41 t rest → t.part 0 = p →
      (((s.part p).image = none ∨ (s.part p).keys.model = none) → exec .secIntake s = .next (answerBare (s.withDue rest) t 0x10)) ∧
      (∀ img, (s.part p).image = some img → (s.part p).keys.model.isSome = true → t.field 1 1 = 1 →
        ((s.part p).state ≠ .loaded → exec .secIntake s = .next (answerBare (s.withDue rest) t 0x10)) ∧
        ((s.part p).state = .loaded → (s.part p).keys.intake.isSome = true → exec .secIntake s = .next (answerBare (s.withDue rest) t 0x01)) ∧
        ((s.part p).state = .loaded → (s.part p).keys.intake = none → (t.field 8 4 = 0 ∨ img.chunks.length < t.field 4 4 + t.field 8 4) →
          exec .secIntake s = .next (answerBare (s.withDue rest) t 0x04)) ∧
        ((s.part p).state = .loaded → (s.part p).keys.intake = none → t.field 8 4 ≠ 0 → t.field 4 4 + t.field 8 4 ≤ img.chunks.length →
          ∃ u v i, exec .secIntake s = .next u ∧ u = answerBare v t 0x00 ∧ (u.part p).keys.intake = some i ∧ i.target = 1 ∧ i.next = t.field 4 4 ∧
            i.stop = t.field 4 4 + t.field 8 4 ∧ (u.part p).keys.result = 1 ∧ u.mem = s.mem ∧ (∀ q, q ≠ p → u.part q = s.part q))) ∧
      ((s.part p).image.isSome = true → (s.part p).keys.model.isSome = true → t.field 1 1 ≠ 1 →
        (awaitingSlot (s.part p) (t.field 2 2) (t.field 16 8) = none ∨ (s.part p).state ≠ .armed ∧ (s.part p).state ≠ .running) →
        exec .secIntake s = .next (answerBare (s.withDue rest) t 0x10)) ∧
      (∀ img n, (s.part p).image = some img → (s.part p).keys.model.isSome = true → t.field 1 1 ≠ 1 →
        awaitingSlot (s.part p) (t.field 2 2) (t.field 16 8) = some n → ((s.part p).state = .armed ∨ (s.part p).state = .running) →
        ((s.part p).keys.intake.isSome = true → exec .secIntake s = .next (answerBare (s.withDue rest) t 0x01)) ∧
        ((s.part p).keys.intake = none → (t.field 12 4 = 0 ∨ img.adapterSize < t.field 12 4 ∨ 268435456 < t.field 12 4) →
          exec .secIntake s = .next (answerBare (s.withDue rest) t 0x04)) ∧
        ((s.part p).keys.intake = none → t.field 12 4 ≠ 0 → t.field 12 4 ≤ img.adapterSize → t.field 12 4 ≤ 268435456 → t.field 1 1 = 2 →
          ∃ u v i, exec .secIntake s = .next u ∧ u = answerBare v t 0x00 ∧ (u.part p).keys.intake = some i ∧ i.target = 2 ∧ i.next = 0 ∧
            i.stop = ceilDiv (t.field 12 4) 1048576 ∧ i.slot = n ∧ (u.part p).keys.result = 1 ∧ u.mem = s.mem ∧ (∀ q, q ≠ p → u.part q = s.part q)))) ∧
    (∀ (t : Taken) (rest : List Taken), firstDue s 0x42 t rest → t.part 0 = p →
      (holdsImage (s.part p) = false → exec .secRotate s = .next (answerBare (s.withDue rest) t 0x10)) ∧
      (holdsImage (s.part p) = true → (∃ k ∈ (s.part p).clusters, (s.cluster k).sweep.isSome = true) →
        exec .secRotate s = .next (answerBare (s.withDue rest) t 0x01)) ∧
      (holdsImage (s.part p) = true → (∀ k ∈ (s.part p).clusters, (s.cluster k).sweep = none) →
        ((s.part p).state = .running → exec .secRotate s = .next (answerBare ((s.withDue rest).modPart p
          (fun x => { x with rotateWanted := some (x.rotateWanted.getD s.stamp) })) t 0x00)) ∧
        ((s.part p).state ≠ .running → (s.part p).clusters.Nodup → ∃ u v, exec .secRotate s = .next u ∧ u = answerBare v t 0x00 ∧
          (u.part p).keys.memGen = ((s.part p).keys.memGen + 1) % 2 ^ 32 ∧ u.mem = s.mem ∧
          (∃ key, ∀ k ∈ (s.part p).clusters, (u.cluster k).sweep = some 0 ∧ (u.cluster k).prev = (s.cluster k).key ∧ (u.cluster k).key = some key) ∧
          (∀ k, k ∉ (s.part p).clusters → u.cluster k = s.cluster k)))) ∧
    (∀ (t : Taken) (rest : List Taken), firstDue s 0x43 t rest → t.field 0 1 = 1 →
      (allFree s = false → exec .secReturnBegin s = .next (answerBare (s.withDue rest) t 0x10)) ∧
      (allFree s = true → exec .secReturnBegin s = .next (answerBare ((s.withDue rest).modSecurity (fun v => { v with returning := some (t.port.val, s.now) })) t 0x00))) ∧
    (∀ (t : Taken) (rest : List Taken), firstDue s 0x43 t rest → t.field 0 1 = 2 →
      (allFree s = false → exec .secReturnConfirm s = .next (answerBare (s.withDue rest) t 0x10)) ∧
      (allFree s = true → t.field 8 8 ≠ s.fuses.serial → exec .secReturnConfirm s = .next (answerBare (s.withDue rest) t 0x04)) ∧
      (allFree s = true → t.field 8 8 = s.fuses.serial → (∀ n, s.security.returning = some (t.port.val, n) → n + 10000000000 < s.now) →
        exec .secReturnConfirm s = .next (answerBare ((s.withDue rest).modSecurity (fun v => { v with returning := none })) t 0x10)) ∧
      (∀ n, allFree s = true → t.field 8 8 = s.fuses.serial → s.security.returning = some (t.port.val, n) → s.now ≤ n + 10000000000 →
        ∃ u, exec .secReturnConfirm s = .next u ∧ u.fuses.lifecycle = 3 ∧ u.power.state = .boot ∧ u.fw.startStep = 2 ∧ u.mem = Mem.init ∧
          (∀ q, (u.part q).image = none ∧ (u.part q).keys.model = none) ∧ (∀ x, (u.port x).session.live = false))) ∧
    ((∀ t ∈ s.orders.due, t.msg.typ ≠ 0x40) → ∀ b, exec (.secKeyRelease b) s = .next s) ∧
    ((∀ t ∈ s.orders.due, t.msg.typ ≠ 0x41) → exec .secIntake s = .next s) ∧
    ((∀ t ∈ s.orders.due, t.msg.typ ≠ 0x42) → exec .secRotate s = .next s) ∧
    ((∀ t ∈ s.orders.due, t.msg.typ ≠ 0x43) → exec .secReturnBegin s = .next s ∧ exec .secReturnConfirm s = .next s)

/-- O52. While the start pauses no firmware message is handled and no load discarded, and one on the port that does not hold the load is
answered 0x01 busy. For every port x and state s whose start does not pause and whose load is not the other port's: FW_BEGIN with an
activation deferred gives cause 12 and else opens an empty load in place of a staged image; a pull outside BOOT whose port is UP with the
store named starts, and one whose port is not fails with cause 8. FW_BLOCK without a load gives cause 2, past SIZE 0x04, with another CRC
cause 1 and one more failed block, and else writes its bytes alone. FW_END discards the load; a failed check gives its cause, success
stages the image outside BOOT, and in BOOT the start goes on with it. FW_ACTIVATE gives causes 12 and 11, defers under the latch or in
QUENCH, switches with equal SETTINGS_MAJOR (or outside RUN and DRAIN) keeping memory and every key but the ephemeral ones, and fails with
cause 9 otherwise; from HOLD, and with MODE 1 and every partition FREE, it restarts, and MODE 1 with one not FREE gives cause 10. A
deferred activation waits for the latch, QUENCH and the calm and then switches. FW_WITHDRAW drops the deferral, or the load and the image.
A load 10 s without a message is discarded. A row with no such message changes nothing. What the model chooses here (DESIGN CHOICE): log
entries 98 (the pause), 101, 102 (settings kept, a window of 1 ms, the deferred answer), 103 and 104 (LOAD 7). The model's own too (DESIGN
CHOICE): a row brings the time to its deadline (log entry 10); a row without an occasion changes nothing (log entry 26). [derived:
16_start_and_firmware.md, R440, R441, R442, R443, R444, R445, R446, R447, R449, R450] -/
def Obligations.FirmwareMessagesAct : Prop :=
  (∀ (s : State) (x : I3cId), startPaused s = true → exec (.fwBeginBlocks x) s = .next s ∧ exec (.fwBeginPull x) s = .next s ∧ exec (.fwBlock x) s = .next s ∧
    exec (.fwEnd x) s = .next s ∧ exec (.fwActivateBoundary x) s = .next s ∧ exec (.fwActivateRestart x) s = .next s ∧
    exec (.fwWithdrawDeferred x) s = .next s ∧ exec (.fwWithdrawLoad x) s = .next s ∧ exec .fwLoadTimeout s = .next s) ∧
  (∀ (s : State) (x : I3cId) (t : Taken) (rest : List Taken) (l : FwLoad), startPaused s = false → s.fw.load = some l → l.port ≠ x →
    (firstTaken s x 0x50 t rest → t.field 0 1 = 0 → exec (.fwBeginBlocks x) s = .next (answerBare (s.withTaken rest) t 0x01)) ∧
    (firstTaken s x 0x50 t rest → t.field 0 1 = 1 → exec (.fwBeginPull x) s = .next (answerBare (s.withTaken rest) t 0x01)) ∧
    (firstTaken s x 0x51 t rest → exec (.fwBlock x) s = .next (answerBare (s.withTaken rest) t 0x01)) ∧
    (firstTaken s x 0x52 t rest → exec (.fwEnd x) s = .next (answerBare (s.withTaken rest) t 0x01)) ∧
    (firstTaken s x 0x53 t rest → t.field 0 1 = 0 → exec (.fwActivateBoundary x) s = .next (answerBare (s.withTaken rest) t 0x01)) ∧
    (firstTaken s x 0x53 t rest → t.field 0 1 = 1 → exec (.fwActivateRestart x) s = .next (answerBare (s.withTaken rest) t 0x01)) ∧
    (firstTaken s x 0x54 t rest → t.field 0 1 = 1 → exec (.fwWithdrawDeferred x) s = .next (answerBare (s.withTaken rest) t 0x01))) ∧
  (∀ (s : State) (x : I3cId), (∀ t ∈ s.orders.taken, t.port = x → t.msg.typ < 0x50 ∨ 0x54 < t.msg.typ) →
    exec (.fwBeginBlocks x) s = .next s ∧ exec (.fwBeginPull x) s = .next s ∧ exec (.fwBlock x) s = .next s ∧ exec (.fwEnd x) s = .next s ∧
    exec (.fwActivateBoundary x) s = .next s ∧ exec (.fwActivateRestart x) s = .next s ∧ exec (.fwWithdrawDeferred x) s = .next s ∧
    exec (.fwWithdrawLoad x) s = .next s) ∧
  (∀ s : State, (s.fw.load = none → exec .fwLoadTimeout s = .next s) ∧ (s.fw.deferred = none → exec .deferredActivation s = .next s)) ∧
  ∀ (s : State) (x : I3cId) (t : Taken) (rest : List Taken), startPaused s = false → (∀ l, s.fw.load = some l → l.port = x) →
    (firstTaken s x 0x50 t rest →
      (s.fw.deferred.isSome = true →
        (t.field 0 1 = 0 → ∃ u v, exec (.fwBeginBlocks x) s = .next u ∧ u = answer v t 0x10 (zeros 3 ++ leBytes 1 12) ∧
          u.fw.result = 12 ∧ u.fw.staged = s.fw.staged ∧ u.mem = s.mem) ∧
        (t.field 0 1 = 1 → ∃ u v, exec (.fwBeginPull x) s = .next u ∧ u = answer v t 0x10 (zeros 3 ++ leBytes 1 12) ∧
          u.fw.result = 12 ∧ u.fw.staged = s.fw.staged ∧ u.mem = s.mem)) ∧
      (s.fw.deferred = none → t.field 0 1 = 0 → ∃ u l, exec (.fwBeginBlocks x) s = .next u ∧ u.fw.load = some l ∧ l.port = x ∧ l.pull = false ∧
        l.size = t.field 4 4 ∧ l.cells = [] ∧ l.covered = [] ∧ u.fw.staged = none ∧ u.fw.loadState = 1 ∧ u.fw.loadPort = x.val ∧ u.fw.result = 0 ∧
        u.mem = s.mem ∧ u.parts = s.parts) ∧
      (∀ n : PortId, s.fw.deferred = none → t.field 0 1 = 1 → n.val = t.field 1 1 % 16 → s.power.state ≠ .boot →
        (∀ f, (s.link n).state = .up → (s.link n).far = some f → f.claimsStore = true → f.cabinet = t.field 8 4 → f.place = t.field 16 2 → 4096 ≤ t.field 32 8 →
          ∃ u l, exec (.fwBeginPull x) s = .next u ∧ u.fw.load = some l ∧ l.pull = true ∧ l.size = 0 ∧ l.ahead = 4096 ∧ u.fw.loadState = 2 ∧ u.fw.result = 0 ∧
            u.requests.length = (s.requests.filter (fun r => r.use ≠ .pull)).length + 1 ∧ u.mem = s.mem) ∧
        (((s.link n).state ≠ .up ∨ (s.link n).far = none) →
          ∃ u, exec (.fwBeginPull x) s = .next u ∧ u.fw.load = none ∧ u.fw.loadState = 7 ∧ u.fw.result = 8 ∧ u.mem = s.mem))) ∧
    (firstTaken s x 0x51 t rest →
      (s.fw.load = none → ∃ u, exec (.fwBlock x) s = .next u ∧ u.fw.result = 2 ∧ u.fw.load = none ∧ u.mem = s.mem) ∧
      (∀ l data, s.fw.load = some l → data = padTo (t.field 4 2) (slice t.msg.body 16 (t.field 4 2)) →
        (l.size < t.field 0 4 + data.length → ∃ u, exec (.fwBlock x) s = .next (answerBare u t 0x04) ∧ u.fw.load = some { l with lastAt := s.now } ∧
          u.fw.crcFail = s.fw.crcFail) ∧
        (t.field 0 4 + data.length ≤ l.size → crc32c data ≠ t.field 8 4 → ∃ u, exec (.fwBlock x) s = .next u ∧
          u.fw.load = some { l with lastAt := s.now } ∧ u.fw.result = 1 ∧ u.fw.crcFail = satAdd 8 s.fw.crcFail 1) ∧
        (t.field 0 4 + data.length ≤ l.size → crc32c data = t.field 8 4 → cellsWf l.cells = true →
          ∃ u m, exec (.fwBlock x) s = .next u ∧ u.fw.load = some m ∧ u.fw.result = 0 ∧ cellsRead m.cells (t.field 0 4) data.length = data ∧
            (∀ a, a < t.field 0 4 ∨ t.field 0 4 + data.length ≤ a → cellRead m.cells a = cellRead l.cells a) ∧ m.size = l.size ∧ u.mem = s.mem))) ∧
    (firstTaken s x 0x52 t rest →
      (s.fw.load = none → ∃ u, exec (.fwEnd x) s = .next u ∧ u.fw.result = 2 ∧ u.fw.staged = s.fw.staged ∧ u.mem = s.mem) ∧
      (∀ l, s.fw.load = some l →
        (imageCause s l ≠ 0 → ∃ u, exec (.fwEnd x) s = .next u ∧ u.fw.result = imageCause s l ∧ u.fw.load = none ∧ u.fw.loadState = 7 ∧
          u.fw.running = s.fw.running ∧ u.fuses = s.fuses ∧ u.mem = s.mem) ∧
        (imageCause s l = 0 → awaitsImage s = false → ∃ u, exec (.fwEnd x) s = .next u ∧ u.fw.result = 0 ∧ u.fw.load = none ∧ u.fw.loadState = 4 ∧
          u.fw.staged = some (headerOf l) ∧ u.fw.running = s.fw.running ∧ u.fuses = s.fuses ∧ u.mem = s.mem) ∧
        (imageCause s l = 0 → awaitsImage s = true → ∃ u, exec (.fwEnd x) s = .next u ∧ u.fw.running = headerOf l ∧
          u.fuses.secver = max s.fuses.secver (headerOf l).secver ∧ 5 ≤ u.fw.startStep ∧ u.power.state = .boot))) ∧
    (∀ l, s.fw.load = some l → ∃ u, exec .fwLoadTimeout s = .next u ∧ u.now = max s.now (l.lastAt + 10000000000) ∧ u.fw.load = none ∧ u.fw.loadState = 0 ∧
      u.fw.staged = s.fw.staged ∧ u.mem = s.mem) ∧
    (firstTaken s x 0x53 t rest → t.field 0 1 = 0 →
      (s.fw.deferred.isSome = true → ∃ u, exec (.fwActivateBoundary x) s = .next u ∧ u.fw.result = 12 ∧ u.fw.deferred = s.fw.deferred ∧ u.mem = s.mem) ∧
      (s.fw.deferred = none → s.fw.staged = none → ∃ u, exec (.fwActivateBoundary x) s = .next u ∧ u.fw.result = 11 ∧ u.fw.running = s.fw.running ∧ u.mem = s.mem) ∧
      (∀ h, s.fw.deferred = none → s.fw.staged = some h →
        ((s.power.latch = true ∨ s.power.state = .quench) → ∃ u v, exec (.fwActivateBoundary x) s = .next u ∧ u = answer v t 0x0B (zeros 4) ∧
          u.fw.deferred = some (x, 0) ∧ u.fw.loadState = 5 ∧ u.fw.deferrals = satAdd 8 s.fw.deferrals 1 ∧ u.fw.running = s.fw.running) ∧
        (s.power.latch = false → s.power.state ≠ .hold → s.power.state ≠ .quench →
          (h.major = s.fw.running.major ∨ s.power.state ≠ .run ∧ s.power.state ≠ .drain) →
          ∃ u, exec (.fwActivateBoundary x) s = .next u ∧ u.fw.running = h ∧ u.fw.staged = none ∧ u.fw.windowEnd = some (s.now + 1000000) ∧
            u.fuses.secver = max s.fuses.secver h.secver ∧ u.mem = s.mem ∧ u.power = s.power ∧
            (∀ p, (u.part p).keys = { (s.part p).keys with ephemeral := [] } ∧ (u.part p).step = (s.part p).step ∧ (u.part p).state = (s.part p).state)) ∧
        (s.power.latch = false → h.major ≠ s.fw.running.major → (s.power.state = .run ∨ s.power.state = .drain) →
          ∃ u, exec (.fwActivateBoundary x) s = .next u ∧ u.fw.result = 9 ∧ u.fw.running = s.fw.running ∧ u.fw.staged = some h ∧ u.mem = s.mem) ∧
        (s.power.latch = false → s.power.state = .hold → ∃ u, exec (.fwActivateBoundary x) s = .next u ∧ u.fw.running = h ∧ u.power.state = .boot ∧
          u.fuses.secver = max s.fuses.secver h.secver ∧ (∀ y, (u.port y).session.live = false)))) ∧
    (firstTaken s x 0x53 t rest → t.field 0 1 = 1 →
      (s.fw.deferred.isSome = true → ∃ u, exec (.fwActivateRestart x) s = .next u ∧ u.fw.result = 12 ∧ u.fw.deferred = s.fw.deferred ∧ u.mem = s.mem) ∧
      (s.fw.deferred = none → s.fw.staged = none → ∃ u, exec (.fwActivateRestart x) s = .next u ∧ u.fw.result = 11 ∧ u.fw.running = s.fw.running ∧ u.mem = s.mem) ∧
      (∀ h, s.fw.deferred = none → s.fw.staged = some h →
        ((s.power.latch = true ∨ s.power.state = .quench) → ∃ u v, exec (.fwActivateRestart x) s = .next u ∧ u = answer v t 0x0B (zeros 4) ∧
          u.fw.deferred = some (x, 1) ∧ u.fw.loadState = 5 ∧ u.fw.running = s.fw.running) ∧
        (s.power.latch = false → s.power.state ≠ .quench → (s.power.state = .hold ∨ ∀ p, (s.part p).state = .free) →
          ∃ u, exec (.fwActivateRestart x) s = .next u ∧ u.fw.running = h ∧ u.power.state = .boot ∧
            u.fuses.secver = max s.fuses.secver h.secver ∧ u.orders.refusedFlag = false ∧ (∀ y, (u.port y).session.live = false)) ∧
        (s.power.latch = false → s.power.state ≠ .quench → s.power.state ≠ .hold → (∃ p, (s.part p).state ≠ .free) →
          ∃ u, exec (.fwActivateRestart x) s = .next u ∧ u.fw.result = 10 ∧ u.fw.running = s.fw.running ∧ u.mem = s.mem))) ∧
    (∀ y h, s.fw.deferred = some (y, 0) → s.fw.staged = some h →
      ((s.power.latch = true ∨ s.power.state = .quench ∨ s.thermal.calm = false) → exec .deferredActivation s = .next s) ∧
      (s.power.latch = false → s.power.state ≠ .quench → s.thermal.calm = true → s.power.state ≠ .hold →
        (h.major = s.fw.running.major ∨ s.power.state ≠ .run ∧ s.power.state ≠ .drain) →
        ∃ u, exec .deferredActivation s = .next u ∧ u.fw.running = h ∧ u.fw.deferred = none ∧ u.mem = s.mem)) ∧
    (firstTaken s x 0x54 t rest →
      (t.field 0 1 = 1 → ∃ u, exec (.fwWithdrawDeferred x) s = .next u ∧ u.fw.deferred = none ∧ u.fw.result = 0 ∧ u.fw.staged = s.fw.staged ∧
        (s.fw.deferred.isSome = true → u.fw.loadState = 4) ∧ u.mem = s.mem) ∧
      (t.field 0 1 = 2 → ∃ u, exec (.fwWithdrawLoad x) s = .next u ∧ u.fw.load = none ∧ u.fw.staged = none ∧ u.fw.deferred = none ∧ u.fw.loadState = 0 ∧
        u.fw.result = 0 ∧ u.mem = s.mem))

/-- O53. For every state s and the due link order t: LINK_PLAN and LINK_JOB are answered 0x01 while a compute job runs; else the plan of the
body is in force, a port that is UP becomes MISWIRED exactly when its far end is of another cabinet or not the one expected, a MISWIRED
port trains and one under test goes on, and the job table of p has the kind, job, size and own index of the body and holds the members
named; a table of other values starts anew, with no keys, and one of the same values keeps its other members. LINK_SHARE is answered 0x01
when it takes a turn from a RUNNING partition and else gives turns 4 to 63 of the ports named to their owners, and no other turn.
LINK_PORT disables a port and empties its queues, except that a FAILED or MISWIRED port stays so, enables it into training with its
retrains still counted (each ends a test of it without a result), or tests it with the claim lanes, a FAILED or MISWIRED port staying so;
of the other ports it changes at most the credit that they owe. LINK_INGRESS sets the copy target or the copy source of its stream alone,
or removes both. A test ends at its time with its errors kept, and a port in TESTING is back in its former state, or MISWIRED where that
was UP and the far end is not the one of the plan; an interval test is skipped with an event when the port has carried a frame in the last
10 s, and else tests the port; a port without a test or an interval changes nothing, nor does a row with no such order due. That a test
returns the port to its former state is the model's choice (log entry 89), what is checked before a plan and how ports lose their queues
(log entries 84, 88). No byte of memory changes. The model's own too (DESIGN CHOICE): a row brings the time to its deadline (log entry
10); a row without an occasion changes nothing (log entry 26). [derived: 12_carloth_links_and_time.md, R320, R323, R325, R336, R341, R342,
R343, R352] -/
def Obligations.LinkOrdersAct : Prop :=
  ∀ (s : State) (t : Taken) (rest : List Taken) (p : PartId) (n : PortId), t.part 0 = p →
    (firstDue s 0x68 t rest →
      (computeRuns s = true → exec .linkPlan s = .next (answerBare (s.withDue rest) t 0x01)) ∧
      (computeRuns s = false → ∃ u, exec .linkPlan s = .next u ∧ u.plan = planOfBody t.msg ∧ u.parts = s.parts ∧ u.mem = s.mem ∧
        ((s.link n).far = none → u.link n = { s.link n with owedCredit := (u.link n).owedCredit }) ∧
        (∀ f, (s.link n).far = some f → (s.link n).state = .up →
          ((u.link n).state = .miswired ↔ f.cabinet ≠ t.field 0 4 ∨
            (bitOf (t.field (8 + 4 * n.val) 2) 15 = true ∧
              (bitsOf (t.field (8 + 4 * n.val) 2) 10 0 ≠ f.place ∨ bitsOf (t.field (8 + 4 * n.val) 2) 14 11 ≠ f.port)))) ∧
        (∀ f, (s.link n).far = some f → (s.link n).state = .miswired → (u.link n).state = .training) ∧
        ((s.link n).state = .testing → (u.link n).state = .testing))) ∧
    (firstDue s 0x69 t rest →
      ((∃ m : PortId, bitOf (t.field 0 2) m.val = true ∧ shareTakes s t.msg (s.link m) = true) → exec .linkShare s = .next (answerBare (s.withDue rest) t 0x01)) ∧
      ((∀ m : PortId, bitOf (t.field 0 2) m.val = true → shareTakes s t.msg (s.link m) = false) → ∃ u, exec .linkShare s = .next u ∧
        (∀ i : Fin 64, (u.link n).owners.get i =
          (if bitOf (t.field 0 2) n.val = true ∧ 4 ≤ i.val then shareOwner (t.field (8 + i.val) 1) else (s.link n).owners.get i)) ∧
        (u.link n).state = (s.link n).state ∧ (u.link n).jobs = (s.link n).jobs ∧ u.parts = s.parts ∧ u.mem = s.mem)) ∧
    (firstDue s 0x6A t rest →
      (computeRuns s = true → exec .linkJob s = .next (answerBare (s.withDue rest) t 0x01)) ∧
      (computeRuns s = false → ∃ u j, exec .linkJob s = .next u ∧ (u.part p).job = some j ∧ j.mirror = (t.field 1 1 == 1) ∧
        j.job = t.field 8 4 ∧ j.total = t.field 6 2 ∧ j.own = t.field 12 2 ∧
        (∀ i, i < t.field 4 2 → ∃ m, memberOf (u.part p) (t.field 2 2 + i) = some m ∧ m.place = t.field (16 + 16 * i) 2 ∧ m.serial = t.field (24 + 16 * i) 8 ∧
          ((∀ o, (s.part p).job = some o → ¬(o.mirror = j.mirror ∧ o.job = j.job ∧ o.total = j.total ∧ o.own = j.own)) → m.keys = PeerKeys.init)) ∧
        (∀ o, (s.part p).job = some o → o.mirror = j.mirror → o.job = j.job → o.total = j.total → o.own = j.own →
          ∀ i, (i < t.field 2 2 ∨ t.field 2 2 + t.field 4 2 ≤ i) → memberOf (u.part p) i = memberOf (s.part p) i) ∧
        (∀ q, q ≠ p → u.part q = s.part q) ∧ u.mem = s.mem)) ∧
    (firstDue s 0x6B t rest → portField t = n →
      (t.field 1 1 = 1 → ∃ u, exec .linkPortDisable s = .next u ∧ (u.link n).state = disabledAs (s.link n) ∧ (u.link n).testUntil = none ∧
        u.lanes = { s.lanes with testing := (List.finRange 16).any (fun m => m != n && (s.link m).testUntil.isSome) } ∧
        (disabledAs (s.link n) = .disabled → (s.link n).state ≠ .disabled → (u.link n).house = [] ∧ (u.link n).jobs = [] ∧ (u.link n).relay = [] ∧ (u.link n).unacked = []) ∧
        (∀ m, m ≠ n → u.link m = { s.link m with owedCredit := (u.link m).owedCredit }) ∧ u.parts = s.parts ∧ u.mem = s.mem) ∧
      (t.field 1 1 = 2 → ∃ u, exec .linkPortEnable s = .next u ∧ (u.link n).state = (if (s.link n).state = .up then .retraining else .training) ∧
        (u.link n).trainStep = 0 ∧ (u.link n).retrains = (s.link n).retrains ∧ (u.link n).testUntil = none ∧
        u.lanes = { s.lanes with testing := (List.finRange 16).any (fun m => m != n && (s.link m).testUntil.isSome) } ∧ u.out = s.out ++ [.trainingPattern n] ∧ (∀ m, m ≠ n → u.link m = { s.link m with owedCredit := (u.link m).owedCredit }) ∧ u.mem = s.mem) ∧
      (t.field 1 1 = 3 → ∃ u, exec .linkPortTest s = .next u ∧ (u.link n).state = (if stuckState (s.link n).state then (s.link n).state else .testing) ∧
        (u.link n).testUntil = some (s.now + 1000000000 * t.field 2 1) ∧ (u.link n).testHours = t.field 4 2 ∧ u.lanes.testing = true ∧
        (∀ m, m ≠ n → u.link m = s.link m) ∧ u.mem = s.mem)) ∧
    (∀ (bitErrors laneErrors : Nat) (e : Ns), (s.link n).testUntil = some e → ∃ u, exec (.linkTestEnd n bitErrors laneErrors) s = .next u ∧ u.now = max s.now e ∧
      ((s.link n).state ≠ .testing → (u.link n).state = (s.link n).state) ∧
      ((s.link n).state = .testing → (u.link n).state = (match (s.link n).testFrom, (s.link n).far with
        | .up, some f => if wiredWrong s n f.place f.port f.cabinet then .miswired else .up
        | st, _ => st)) ∧ (u.link n).testUntil = none ∧ (u.link n).ber = min bitErrors 16777215 ∧
      (u.link n).berSeconds = (s.link n).testSeconds ∧ u.lanes.ber = min laneErrors 16777215 ∧ u.mem = s.mem ∧
      ((∀ m, m ≠ n → (s.link m).testUntil = none) → u.lanes.testing = false)) ∧
    (∀ e, (s.link n).testAt = some e → (s.link n).testHours ≠ 0 → (s.link n).testUntil = none → ∃ u, exec (.intervalTest n) s = .next u ∧
      u.now = max s.now (e + 3600000000000 * (s.link n).testHours) ∧ (u.link n).testAt = some u.now ∧ u.mem = s.mem ∧
      (∀ f, (s.link n).lastFrame = some f → u.now < f + 10000000000 → (u.link n).state = (s.link n).state ∧ u.lanes = s.lanes) ∧
      ((∀ f, (s.link n).lastFrame = some f → f + 10000000000 ≤ u.now) → (u.link n).state = (if stuckState (s.link n).state then (s.link n).state else .testing) ∧ u.lanes.testing = true)) ∧
    ((s.link n).testUntil = none → ∀ b l, exec (.linkTestEnd n b l) s = .next s) ∧
    (((s.link n).testAt = none ∨ (s.link n).testHours = 0 ∨ (s.link n).testUntil.isSome = true) → exec (.intervalTest n) s = .next s) ∧
    ((∀ d ∈ s.orders.due, d.msg.typ < 0x68 ∨ 0x6C < d.msg.typ) → exec .linkPlan s = .next s ∧ exec .linkShare s = .next s ∧ exec .linkJob s = .next s ∧
      exec .linkPortDisable s = .next s ∧ exec .linkPortEnable s = .next s ∧ exec .linkPortTest s = .next s ∧
      exec .linkIngressCopy s = .next s ∧ exec .linkIngressBind s = .next s ∧ exec .linkIngressRemove s = .next s) ∧
    (firstDue s 0x6C t rest → ∀ find : State → PartId → Nat → Option RxStream,
      (∀ v p m, find v p m = v.csi.streams.find? (fun r => r.part == p && r.stream == m)) →
      (t.field 1 1 = 1 → ∃ u r, exec .linkIngressCopy s = .next u ∧ find u p (t.field 2 2) = some r ∧ r.copyTo = some (t.field 4 2, t.field 6 2) ∧
        r.copyFrom = (find s p (t.field 2 2)).bind (fun o => o.copyFrom) ∧
        (∀ q m, (q ≠ p ∨ m ≠ t.field 2 2) → find u q m = find s q m) ∧ u.mem = s.mem) ∧
      (t.field 1 1 = 2 → ∃ u r, exec .linkIngressBind s = .next u ∧ find u p (t.field 2 2) = some r ∧ r.copyFrom = some (t.field 4 2, t.field 6 2) ∧
        r.copyTo = (find s p (t.field 2 2)).bind (fun o => o.copyTo) ∧
        (∀ q m, (q ≠ p ∨ m ≠ t.field 2 2) → find u q m = find s q m) ∧ u.mem = s.mem) ∧
      (t.field 1 1 = 0xFF → ∃ u, exec .linkIngressRemove s = .next u ∧ find u p (t.field 2 2) = none ∧
        (∀ q m, (q ≠ p ∨ m ≠ t.field 2 2) → find u q m = find s q m) ∧ u.mem = s.mem))

/-- O54. For every port n that may train (with no firmware load, at its identity): a signal moves it to the step before FEC lock; lock sends
its identity; without a signal it tries again after 1 s; a training timeout retrains it, or makes it FAILED after three retrains in 60 s;
an identity that verifies, or a store's without a signature, and that is not wired wrong makes it UP with full credits, one that does not
verify FAILED, one that is wired wrong MISWIRED; in any other state or step of training these rows change nothing. A partner without
credit for 10 ms is marked slow, for 1 s retrained; a faulty one is retrained. Each turn of an UP port moves the calendar on and sends
exactly one envelope, with its CRC-32C: again an envelope to resend, in its owner's turn or without a frame, else one without a frame that
takes no LSEQ; with none to resend the owner's ready frame when it has credit, which it spends, or none; with 512 KiB unacknowledged, the
oldest again. A partition's turn first queues the copies of its landed frames. A received envelope counts its uncorrectable codewords; one
with a bad CRC, or ahead of the LSEQ expected with no NAK out, only asks for a resend, and any other out of order does not; one in order
raises LACK, returns credit and delivers a local frame that passes R324 (a request or write for a store is dropped and frees its buffer),
relays one for another place, and discards and counts a frame that fails R324, whose first opens the second of its event. The sixty-fifth
NAK in 1 ms retrains the port. On a port that is not UP these rows change nothing. The model's own: the timeouts of 200 and 50 ms (log
entry 87), what NAK and resending do (log entry 85), credit returned and the second of the discard event (log entry 86), retrains and
fresh ports (log entry 88), identities (log entries 83, 84), held turns (log entry 95), the pause of the start (log entry 98) and when a
copied frame's place is settled (log entry 19). The model's own too (DESIGN CHOICE): a row brings the time to its deadline (log entry 10);
a row without an occasion changes nothing (log entry 26). [derived: 12_carloth_links_and_time.md, R317, R318, R319, R320, R324, R341,
R342] -/
def Obligations.PortRowsAct : Prop :=
  ∀ (s : State) (n : PortId) (l : Link), l = s.link n →
    (mayTrain s n = true → inTraining l.state = true →
      (l.trainStep = 0 → ∃ u, exec (.signalDetect n) s = .next u ∧ (u.link n).trainStep = 1 ∧ (u.link n).trainAt = s.now ∧
        (u.link n).state = (if l.state = .down then .training else l.state) ∧ u.mem = s.mem ∧ u.parts = s.parts) ∧
      (∀ challenge, l.trainStep = 1 → ∃ u own sig, exec (.fecLock n challenge) s = .next u ∧ (u.link n).trainStep = 2 ∧ (u.link n).challenge = own ∧
        u.out = s.out ++ [.trainingIdentity n s.place n.val s.plan.cabinet s.fuses.serial own sig] ∧ own.length = 32 ∧ u.mem = s.mem ∧ u.parts = s.parts) ∧
      (l.trainStep = 0 → ∃ u, exec (.trainingRetry n) s = .next u ∧ u.now = max s.now (l.trainAt + 1000000000) ∧ (u.link n).state = .down ∧
        (u.link n).trainStep = 0 ∧ (u.link n).trainAt = u.now ∧ u.out = s.out ++ [.trainingPattern n] ∧ u.mem = s.mem) ∧
      (l.trainStep ≠ 0 → ∃ u, exec (.trainingTimeout n) s = .next u ∧ u.now = max s.now (l.trainAt + (if l.trainStep = 1 then 200000000 else 50000000)) ∧
        (u.link n).state = (if 3 ≤ (l.retrains.filter (fun r => u.now < r + 60000000000)).length then .failed else .retraining) ∧ u.mem = s.mem) ∧
      (∀ i : PartnerId, l.trainStep = 2 → s.fw.load = none →
        ((identityOk s n i = true ∨ isStore s i = true ∧ i.sig = []) → wiredWrong s n i.place i.port i.cabinet = false → ∃ u, exec (.partnerIdentity n i) s = .next u ∧
          (u.link n).state = .up ∧ (u.link n).trainStep = 0 ∧ (l.state ≠ .retraining → (u.link n).credits = bufferUnits ∧ (u.link n).txSeq = 0 ∧ (u.link n).rxNext = 0) ∧
          (l.state = .retraining → (u.link n).resend = l.unacked.length ∧ (u.link n).txSeq = l.txSeq) ∧ u.mem = s.mem) ∧
        ((identityOk s n i = true ∨ isStore s i = true ∧ i.sig = []) → wiredWrong s n i.place i.port i.cabinet = true → ∃ u, exec (.partnerIdentity n i) s = .next u ∧ (u.link n).state = .miswired) ∧
        (identityOk s n i = false → (isStore s i = false ∨ i.sig ≠ []) → ∃ u, exec (.partnerIdentity n i) s = .next u ∧ (u.link n).state = .failed))) ∧
    ((mayTrain s n = false ∨ inTraining l.state = false ∨ l.trainStep ≠ 0) → exec (.signalDetect n) s = .next s ∧ exec (.trainingRetry n) s = .next s) ∧
    ((mayTrain s n = false ∨ inTraining l.state = false ∨ l.trainStep ≠ 1) → ∀ c, exec (.fecLock n c) s = .next s) ∧
    ((mayTrain s n = false ∨ inTraining l.state = false ∨ l.trainStep = 0) → exec (.trainingTimeout n) s = .next s) ∧
    ((mayTrain s n = false ∨ inTraining l.state = false ∨ l.trainStep ≠ 2) → ∀ i, exec (.partnerIdentity n i) s = .next s) ∧
    ((l.state ≠ .up ∨ waitingSince l = none ∨ l.stalled = true) → exec (.slowPartner n) s = .next s) ∧
    ((l.state ≠ .up ∨ waitingSince l = none ∨ l.stalled = false) → exec (.slowPartnerRetrain n) s = .next s) ∧
    (l.state ≠ .up → exec (.faultyPartner n) s = .next s ∧ exec (.calendarTurn n) s = .next s ∧ ∀ e, exec (.envelopeReceive n e) s = .next s) ∧
    (l.state = .up →
      (∀ w, waitingSince l = some w → l.stalled = false → ∃ u, exec (.slowPartner n) s = .next u ∧ u.now = max s.now (w + 10000000) ∧
        (u.link n).stalled = true ∧ (u.link n).state = .up ∧ u.mem = s.mem) ∧
      (∀ w, waitingSince l = some w → l.stalled = true → ∃ u, exec (.slowPartnerRetrain n) s = .next u ∧ u.now = max s.now (w + 1000000000) ∧
        (u.link n).state = (if 3 ≤ (l.retrains.filter (fun r => u.now < r + 60000000000)).length then .failed else .retraining) ∧ u.mem = s.mem) ∧
      (∃ u, exec (.faultyPartner n) s = .next u ∧
        (u.link n).state = (if 3 ≤ (l.retrains.filter (fun r => s.now < r + 60000000000)).length then .failed else .retraining) ∧ u.mem = s.mem) ∧
      (∀ (w : State) (k : Link) (fr : Option Frame) (again : Nat), w = (match turnOwner l with | .part p => copyOut s p | _ => s) → k = w.link n →
        (∀ f, turnFrame w k = some f → (fr = some f ↔ frameUnits f ≤ k.credits.get (classIx f.typ) ∧ s.power.prsntLost = false)) →
        (∀ f, fr = some f → turnFrame w k = some f) →
        again = (if k.resend = 0 ∧ 524288 < (k.unacked.map (fun e => envBytes e.frame)).sum + envBytes fr then k.unacked.length else k.resend) →
        ∃ u v, exec (.calendarTurn n) s = .next u ∧ u.out = w.out ++ [.envelope n v] ∧ v.nak = k.nakDue ∧ v.lack = (k.rxNext + 65535) % 65536 ∧
          v.crc = envelopeCrc v ∧ (u.link n).turn = (k.turn + 1) % 64 ∧ (u.link n).nakDue = false ∧ u.mem = w.mem ∧ u.parts = w.parts ∧
          (∀ e, k.unacked[k.unacked.length - again]? = some e → (u.link n).txSeq = k.txSeq ∧ (u.link n).unacked = k.unacked ∧ (u.link n).credits = k.credits ∧
            ((e.frame = none ∨ e.owner = turnOwner k ∧ s.power.prsntLost = false) → v.lseq = e.lseq ∧ v.frame = e.frame ∧ (u.link n).resend = again - 1) ∧
            (¬(e.frame = none ∨ e.owner = turnOwner k ∧ s.power.prsntLost = false) → v.lseq = (e.lseq + 65535) % 65536 ∧ v.frame = none ∧ (u.link n).resend = again)) ∧
          (k.unacked[k.unacked.length - again]? = none → v.lseq = k.txSeq ∧ v.frame = fr ∧ (u.link n).txSeq = (k.txSeq + 1) % 65536 ∧
            (u.link n).unacked.length = k.unacked.length + 1 ∧
            (∀ f, fr = some f → (u.link n).credits.get (classIx f.typ) = k.credits.get (classIx f.typ) - frameUnits f))) ∧
      (∀ (e : Envelope) (naks : Nat), naks = (if e.nak then 1 + (l.nakTimes.filter (fun x => s.now < x + 1000000)).length else l.nakTimes.length) →
        (e.crc ≠ envelopeCrc e → ∃ u, exec (.envelopeReceive n e) s = .next u ∧
          u.link n = { l with fecUncorr := satAdd 8 l.fecUncorr e.uncorr, nakDue := true, nakSent := true } ∧
          u.inbox = s.inbox ∧ u.mem = s.mem ∧ u.parts = s.parts ∧ (∀ m, m ≠ n → u.link m = s.link m)) ∧
        (e.crc = envelopeCrc e → e.lseq ≠ l.rxNext → ∃ u, exec (.envelopeReceive n e) s = .next u ∧
          u.link n = { l with fecUncorr := satAdd 8 l.fecUncorr e.uncorr, nakDue := l.nakDue || !(l.nakSent || lseqBehind l e.lseq),
                              nakSent := l.nakSent || !lseqBehind l e.lseq } ∧
          u.inbox = s.inbox ∧ u.mem = s.mem ∧ u.parts = s.parts ∧ (∀ m, m ≠ n → u.link m = s.link m)) ∧
        (e.crc = envelopeCrc e → e.lseq = l.rxNext → 64 < naks → ∃ u, exec (.envelopeReceive n e) s = .next u ∧
          (u.link n).state = (if 3 ≤ (l.retrains.filter (fun r => s.now < r + 60000000000)).length then .failed else .retraining) ∧ u.mem = s.mem) ∧
        (e.crc = envelopeCrc e → e.lseq = l.rxNext → naks ≤ 64 →
          (e.frame = none → ∃ u, exec (.envelopeReceive n e) s = .next u ∧ (u.link n).rxNext = (l.rxNext + 1) % 65536 ∧ (u.link n).nakSent = false ∧
            (u.link n).credits = Vector.zipWith min bufferUnits (Vector.zipWith (· + ·) l.credits #v[e.credit.1, e.credit.2.1, e.credit.2.2]) ∧
            (e.nak = true → (u.link n).resend = (u.link n).unacked.length) ∧ u.inbox = s.inbox ∧ u.mem = s.mem) ∧
          (∀ f, e.frame = some f → frameOk s n f = true → ((routeOf s f.dst).loc = true ∨ pullFrame s n f = true) → ∃ u, exec (.envelopeReceive n e) s = .next u ∧
            (u.link n).rxNext = (l.rxNext + 1) % 65536 ∧ u.mem = s.mem ∧
            (f.typ ≠ 0x20 → f.typ ≠ 0x22 → u.inbox = s.inbox ++ [(n, f)] ∧ (u.link n).owedCredit = l.owedCredit) ∧
            ((f.typ = 0x20 ∨ f.typ = 0x22) → u.inbox = s.inbox ∧
              (u.link n).owedCredit.get (classIx f.typ) = l.owedCredit.get (classIx f.typ) + frameUnits f)) ∧
          (∀ f, e.frame = some f → frameOk s n f = true → (routeOf s f.dst).loc = false → pullFrame s n f = false →
            (s.link (routePort (routeOf s f.dst))).state = .up → ∃ u, exec (.envelopeReceive n e) s = .next u ∧
            (u.link n).rxNext = (l.rxNext + 1) % 65536 ∧ (u.link (routePort (routeOf s f.dst))).relay =
              relayInsert (s.now, n, f) (s.link (routePort (routeOf s f.dst))).relay ∧ u.inbox = s.inbox ∧ u.mem = s.mem) ∧
          (∀ f, e.frame = some f → frameOk s n f = true → (routeOf s f.dst).loc = false → pullFrame s n f = false →
            (s.link (routePort (routeOf s f.dst))).state ≠ .up → ∃ u, exec (.envelopeReceive n e) s = .next u ∧
            (u.link n).rxNext = (l.rxNext + 1) % 65536 ∧ (u.link (routePort (routeOf s f.dst))).discards =
              satAdd 8 (s.link (routePort (routeOf s f.dst))).discards 1 ∧
            (u.link n).owedCredit.get (classIx f.typ) = l.owedCredit.get (classIx f.typ) + frameUnits f ∧ u.inbox = s.inbox ∧ u.mem = s.mem) ∧
          (∀ f, e.frame = some f → frameOk s n f = false → ∃ u, exec (.envelopeReceive n e) s = .next u ∧ (u.link n).rxNext = (l.rxNext + 1) % 65536 ∧
            (u.link n).discards = satAdd 8 l.discards 1 ∧ (u.link n).owedCredit.get (classIx f.typ) = l.owedCredit.get (classIx f.typ) + frameUnits f ∧
            (l.discardAt = none → (u.link n).discardAt = some s.now ∧ (u.link n).dropped = l.dropped + 1 ∧ u.events = s.events) ∧
            u.inbox = s.inbox ∧ u.mem = s.mem))))

/-- O55. For every state s, partition p and member m of index i: an agreement that is due sends its hello once and waits; a hello at the head
of the inbox with a good certificate and a point of the curve is answered with a reply, one with a bad certificate fails the agreement
with a retry in 10 s, and one of no member only leaves the inbox; a reply that verifies makes new keys live under its KEYID with the first
counter 1 and the former receiving key kept, one that does not fails; a confirm that verifies does so at the responder, and one that does
not fails; the starter's sending key and salt are the responder's receiving ones and the reverse. An unanswered message goes again up to
three times 100 ms apart and then fails; a failed agreement starts again at its time; a direction at 2^36 frames starts a new one; an old
receiving key ends at its time; 16 failed frames within 1 s tear the keys down and, where the table is complete, start a new agreement. A
row whose occasion is not there changes nothing. No byte of memory changes. The model's own: the layout of the messages (log entry 24),
KEYIDs, who starts again after a teardown and when the keys go live (log entry 90), that of several frames of a type the oldest goes first
(log entry 26). The model's own too (DESIGN CHOICE): a row brings the time to its deadline (log entry 10); a row without an occasion
changes nothing (log entry 26). [derived: 12_carloth_links_and_time.md, R326, R327, R329, R331] -/
def Obligations.KeyAgreementActs : Prop :=
  (∀ s : State,
    ((∀ e ∈ s.inbox, e.2.typ ≠ 0x01) → exec .kaHello s = .next s) ∧ ((∀ e ∈ s.inbox, e.2.typ ≠ 0x02) → exec .kaReply s = .next s) ∧
    ((∀ e ∈ s.inbox, e.2.typ ≠ 0x03) → exec .kaConfirm s = .next s) ∧
    (∀ (n : PortId) (f : Frame) (rest : List (PortId × Frame)), s.inbox = (n, f) :: rest →
      (f.typ = 0x01 → helloMember s f = none → ∃ u, exec .kaHello s = .next u ∧ u.inbox = rest ∧ u.parts = s.parts ∧ u.mem = s.mem) ∧
      (f.typ = 0x02 → replyMember s f = none → ∃ u, exec .kaReply s = .next u ∧ u.inbox = rest ∧ u.parts = s.parts ∧ u.mem = s.mem) ∧
      (f.typ = 0x03 → findMember s (fun _ m => m.2.place == f.src && m.2.keys.stage == 2) = none →
        ∃ u, exec .kaConfirm s = .next u ∧ u.inbox = rest ∧ u.parts = s.parts ∧ u.mem = s.mem)) ∧
    (∀ p, (agreesKeys (s.part p) = false ∨ helloDue s (s.part p) = none) → exec (.keyAgreementStart p) s = .next s) ∧
    (∀ p i, memberOf (s.part p) i = none → exec (.kaRetryTimeout p i) s = .next s ∧ exec (.kaRetryInterval p i) s = .next s ∧
      exec (.jobKeyRekey p i) s = .next s ∧ exec (.oldKeyidExpiry p i) s = .next s ∧ exec (.gcmFailTeardown p i) s = .next s)) ∧
  ∀ (s : State) (p : PartId) (i : Nat) (m : Member), memberOf (s.part p) i = some m →
    (m.keys.stage = 0 → exec (.kaRetryTimeout p i) s = .next s) ∧ (m.keys.retryAt = none → exec (.kaRetryInterval p i) s = .next s) ∧
    (m.keys.oldUntil = none → exec (.oldKeyidExpiry p i) s = .next s) ∧
    ((m.keys.live = false ∨ m.keys.stage ≠ 0 ∨ starts s m = false) → exec (.jobKeyRekey p i) s = .next s) ∧
    ((m.keys.fails.filter (fun e => s.now < e + 1000000000)).length < 16 → exec (.gcmFailTeardown p i) s = .next s) ∧
    (∀ (k k' : PeerKeys) (id : Nat) (x : Bytes), (newKeys k id x true).txKey = (newKeys k' id x false).rxKey ∧ (newKeys k id x true).txSalt = (newKeys k' id x false).rxSalt ∧
      (newKeys k id x true).rxKey = (newKeys k' id x false).txKey ∧ (newKeys k id x true).rxSalt = (newKeys k' id x false).txSalt) ∧
    (agreesKeys (s.part p) = true → helloDue s (s.part p) = some i →
      ∃ u m', exec (.keyAgreementStart p) s = .next u ∧ memberOf (u.part p) i = some m' ∧ m'.place = m.place ∧ m'.keys.stage = 1 ∧ m'.keys.attempts = 1 ∧
        m'.keys.sentAt = s.now ∧ kaKeyid m'.keys.hello = m.keys.keyid % 255 + 1 ∧ m'.keys.live = m.keys.live ∧ u.mem = s.mem ∧ (∀ q, q ≠ p → u.part q = s.part q)) ∧
    (∀ (n : PortId) (f : Frame) (rest : List (PortId × Frame)), s.inbox = (n, f) :: rest → f.typ = 0x01 → helloMember s f = some (p, i) →
      (certFault s m (kaCert f.payload) = 0 → (pointOf (kaPub f.payload)).isSome = true → ∃ u m', exec .kaHello s = .next u ∧ u.inbox = rest ∧
        memberOf (u.part p) i = some m' ∧ m'.keys.stage = 2 ∧ m'.keys.hello = f.payload ∧ kaKeyid m'.keys.reply = kaKeyid f.payload ∧ m'.keys.live = m.keys.live ∧
        u.mem = s.mem ∧ (∀ q, q ≠ p → u.part q = s.part q)) ∧
      ((certFault s m (kaCert f.payload) ≠ 0 ∨ pointOf (kaPub f.payload) = none) → ∃ u m', exec .kaHello s = .next u ∧ u.inbox = rest ∧
        memberOf (u.part p) i = some m' ∧ m'.keys.stage = 0 ∧ m'.keys.failed = true ∧ m'.keys.retryAt = some (s.now + 10000000000) ∧ u.mem = s.mem)) ∧
    (∀ (n : PortId) (f : Frame) (rest : List (PortId × Frame)), s.inbox = (n, f) :: rest → f.typ = 0x02 → replyMember s f = some (p, i) →
      (certFault s m (kaCert f.payload) = 0 → (pointOf (kaPub f.payload)).isSome = true →
       ecdsaVerify (certKey (kaCert f.payload)) (m.keys.hello ++ f.payload.take kaSize) (slice f.payload kaSize 96) = true → ∃ u m', exec .kaReply s = .next u ∧
        u.inbox = rest ∧ memberOf (u.part p) i = some m' ∧ m'.keys.live = true ∧ m'.keys.keyid = kaKeyid f.payload ∧ m'.keys.stage = 0 ∧ m'.keys.txCount = 1 ∧
        m'.keys.rxHigh = 0 ∧ m'.keys.failed = false ∧ m'.keys.old = (if m.keys.live then some (m.keys.keyid, m.keys.rxKey, m.keys.rxSalt, m.keys.rxHigh) else none) ∧
        u.mem = s.mem ∧ (∀ q, q ≠ p → u.part q = s.part q)) ∧
      ((certFault s m (kaCert f.payload) ≠ 0 ∨ pointOf (kaPub f.payload) = none ∨
        ecdsaVerify (certKey (kaCert f.payload)) (m.keys.hello ++ f.payload.take kaSize) (slice f.payload kaSize 96) = false) → ∃ u m', exec .kaReply s = .next u ∧
        u.inbox = rest ∧ memberOf (u.part p) i = some m' ∧ m'.keys.failed = true ∧ m'.keys.live = m.keys.live ∧ m'.keys.retryAt = some (s.now + 10000000000) ∧ u.mem = s.mem)) ∧
    (∀ (n : PortId) (f : Frame) (rest : List (PortId × Frame)), s.inbox = (n, f) :: rest → f.typ = 0x03 → confirmMember s f = some (p, i) →
      ∃ u m', exec .kaConfirm s = .next u ∧ u.inbox = rest ∧ memberOf (u.part p) i = some m' ∧ m'.keys.live = true ∧ m'.keys.keyid = kaKeyid m.keys.hello ∧
        m'.keys.stage = 0 ∧ m'.keys.txCount = 1 ∧ m'.keys.rxHigh = 0 ∧ u.mem = s.mem ∧ (∀ q, q ≠ p → u.part q = s.part q)) ∧
    (∀ (n : PortId) (f : Frame) (rest : List (PortId × Frame)), s.inbox = (n, f) :: rest → f.typ = 0x03 → confirmMember s f = none →
      findMember s (fun _ m => m.2.place == f.src && m.2.keys.stage == 2) = some (p, i) →
      ∃ u m', exec .kaConfirm s = .next u ∧ memberOf (u.part p) i = some m' ∧ m'.keys.failed = true ∧ m'.keys.stage = 0 ∧ m'.keys.live = m.keys.live ∧
        m'.keys.retryAt = some (s.now + 10000000000) ∧ u.mem = s.mem) ∧
    (m.keys.stage ≠ 0 → ∃ u m', exec (.kaRetryTimeout p i) s = .next u ∧ u.now = max s.now (m.keys.sentAt + 100000000) ∧ memberOf (u.part p) i = some m' ∧
      (m.keys.attempts < 3 → m'.keys.attempts = m.keys.attempts + 1 ∧ m'.keys.sentAt = u.now ∧ m'.keys.stage = m.keys.stage) ∧
      (3 ≤ m.keys.attempts → m'.keys.stage = 0 ∧ m'.keys.failed = true ∧ m'.keys.retryAt = some (u.now + 10000000000)) ∧ u.mem = s.mem) ∧
    (∀ e, m.keys.retryAt = some e → ∃ u m', exec (.kaRetryInterval p i) s = .next u ∧ u.now = max s.now e ∧ memberOf (u.part p) i = some m' ∧
      m'.keys.retryAt = none ∧ (startsAgain s m = true → agreesKeys (s.part p) = true → m'.keys.stage = 1 ∧ m'.keys.attempts = 1) ∧
      ((startsAgain s m = false ∨ agreesKeys (s.part p) = false) → m'.keys = { m.keys with retryAt := none }) ∧ u.mem = s.mem) ∧
    (m.keys.live = true → m.keys.stage = 0 → starts s m = true →
      ((2 ^ 36 ≤ m.keys.txCount ∨ 2 ^ 36 ≤ m.keys.rxHigh) → ∃ u m', exec (.jobKeyRekey p i) s = .next u ∧ memberOf (u.part p) i = some m' ∧ m'.keys.stage = 1 ∧
        m'.keys.live = true ∧ kaKeyid m'.keys.hello = m.keys.keyid % 255 + 1 ∧ u.mem = s.mem) ∧
      (m.keys.txCount < 2 ^ 36 → m.keys.rxHigh < 2 ^ 36 → exec (.jobKeyRekey p i) s = .next s)) ∧
    (∀ e, m.keys.oldUntil = some e → ∃ u m', exec (.oldKeyidExpiry p i) s = .next u ∧ u.now = max s.now e ∧ memberOf (u.part p) i = some m' ∧
      m'.keys = { m.keys with old := none, oldUntil := none } ∧ u.mem = s.mem) ∧
    (16 ≤ (m.keys.fails.filter (fun e => s.now < e + 1000000000)).length → ∃ u m', exec (.gcmFailTeardown p i) s = .next u ∧ memberOf (u.part p) i = some m' ∧
      m'.keys.live = false ∧ m'.keys.old = none ∧ m'.keys.keyid = m.keys.keyid ∧ (agreesKeys (s.part p) = true → m'.keys.stage = 1 ∧ m'.keys.attempts = 1) ∧ u.mem = s.mem)

/-- O56. For every state s with frame f of port n at the head of its inbox: RING_CREDIT adds its slots to the sender's credit. A job frame
that does not open is counted and its bytes go nowhere; one that opens raises the counter accepted: JOB_DATA lands in the slot that its
message takes and completes it with LAST, except on a mirror set, where it goes nowhere; INGRESS_COPY and a part keep a message that goes
on; the last frame of an INGRESS_COPY appends the frame bound to its sender to the journal; a whole decision part gives a follower its
entries for the boundary; a snapshot section is kept, or the sixth restores the step of the snapshot at a RUNNING member; a KIND 3 part
joins the journal, and one whose payload is missing fails the re-entry; a request part makes the leader take a snapshot at the pace asked;
a part of an unpaired partition only leaves. STORE_RD_DATA at the next offset joins its request; STORE_WR_ACK of all bytes completes its
own; STORE_ERR fails it; a request unanswered for 200 ms goes again, and fails after the third attempt; an answer to no request changes
nothing else. A pull and what waited to be exported then go on. Each frame leaves the inbox; a row whose frame is not there changes
nothing. The model's own: whose credit a frame is (log entry 25), the oldest frame of a type first (log entry 26), the six sections (log
entry 38), landing copies (log entry 56), pieces and slots (log entries 91, 92), a mirror's JOB_DATA (log entry 145), pairing and
restoring (log entries 112, 113, 115) and exports (log entry 129). The model's own too (DESIGN CHOICE): a row brings the time to its
deadline (log entry 10); a row without an occasion changes nothing (log entry 26). [derived: 12_carloth_links_and_time.md,
13_claims_and_standby.md, R324, R328, R329, R332, R333, R336, R338, R359, R370, R372] -/
def Obligations.JobFramesAreTaken : Prop :=
  (∀ s : State,
    ((∀ e ∈ s.inbox, e.2.typ ≠ 0x05) → exec .ringCredit s = .next s) ∧ ((∀ e ∈ s.inbox, e.2.typ ≠ 0x10) → exec .jobData s = .next s) ∧
    ((∀ e ∈ s.inbox, e.2.typ ≠ 0x11) → exec .ingressCopy s = .next s) ∧
    ((∀ e ∈ s.inbox, e.2.typ ≠ 0x12) → exec .decisionPart s = .next s ∧ exec .snapshotSection s = .next s ∧ exec .snapshotJournal s = .next s ∧
      exec .reentryRequest s = .next s) ∧
    ((∀ e ∈ s.inbox, e.2.typ ≠ 0x21) → exec .storeRdData s = .next s) ∧ ((∀ e ∈ s.inbox, e.2.typ ≠ 0x23) → exec .storeWrAck s = .next s) ∧
    ((∀ e ∈ s.inbox, e.2.typ ≠ 0x24) → exec .storeErr s = .next s) ∧ (oldestRequest s.requests = none → exec .storeRequestTimeout s = .next s) ∧
    (∀ r : StoreReq, oldestRequest s.requests = some r → ∃ u t, exec .storeRequestTimeout s = .next u ∧ u = continueExports (continuePull t) ∧
      t.now = max s.now (r.sentAt + 200000000) ∧
      (3 ≤ r.attempts → t.requests = updFirst (fun q => q.tag == r.tag) (fun q => { q with failed := true }) s.requests) ∧
      (r.attempts < 3 → t.requests = updFirst (fun q => q.tag == r.tag) (fun q => { q with attempts := q.attempts + 1, sentAt := t.now, got := [] }) s.requests) ∧
      t.parts = s.parts ∧ t.mem = s.mem ∧ u.mem = s.mem)) ∧
  ∀ (s : State) (n : PortId) (f : Frame) (rest : List (PortId × Frame)), s.inbox = (n, f) :: rest →
    (f.typ = 0x05 → creditedMember s f = none → ∃ u, exec .ringCredit s = .next u ∧ u.inbox = rest ∧ u.parts = s.parts ∧ u.mem = s.mem) ∧
    (∀ p i, f.typ = 0x05 → creditedMember s f = some (p, i) → ∃ u, exec .ringCredit s = .next u ∧ u.inbox = rest ∧
      creditOf (u.part p) i f.ring = creditOf (s.part p) i f.ring + fieldAt f.payload 0 4 ∧ u.mem = s.mem ∧ (∀ q, q ≠ p → u.part q = s.part q)) ∧
    ((senderOf s f = none ∨ (∃ p i, senderOf s f = some (p, i) ∧ ∀ k, (memberOf (s.part p) i).bind (fun m => rxKeyOf m.keys f.keyid) = some k →
        (f.counter ≤ k.2.2 ∨ gcmOpen k.1 (jobNonce k.2.1 f.counter) (frameHeader f) f.payload f.tag = none))) →
      (f.typ = 0x10 → ∃ u, exec .jobData s = .next u ∧ u.inbox = rest ∧ (u.link n).gcmFail = satAdd 8 (s.link n).gcmFail 1 ∧
        (∀ p, (u.part p).rings = (s.part p).rings ∧ (u.part p).journal = (s.part p).journal) ∧ u.mem = s.mem) ∧
      (f.typ = 0x11 → ∃ u, exec .ingressCopy s = .next u ∧ u.inbox = rest ∧ (u.link n).gcmFail = satAdd 8 (s.link n).gcmFail 1 ∧
        (∀ p, (u.part p).copyIn = (s.part p).copyIn ∧ (u.part p).journal = (s.part p).journal) ∧ u.mem = s.mem) ∧
      (f.typ = 0x12 → ∀ c, (c = .decisionPart ∨ c = .snapshotSection ∨ c = .snapshotJournal ∨ c = .reentryRequest) →
        ∃ u, exec c s = .next u ∧ u.inbox = rest ∧ (u.link n).gcmFail = satAdd 8 (s.link n).gcmFail 1 ∧
          (∀ p, (u.part p).claim = (s.part p).claim ∧ (u.part p).journal = (s.part p).journal) ∧ u.mem = s.mem)) ∧
    (∀ (p : PartId) (i : Nat) (k : Bytes × Bytes × Nat) (pt : Bytes), senderOf s f = some (p, i) →
      (memberOf (s.part p) i).bind (fun m => rxKeyOf m.keys f.keyid) = some k → k.2.2 < f.counter →
      gcmOpen k.1 (jobNonce k.2.1 f.counter) (frameHeader f) f.payload f.tag = some pt →
      (∀ (r : RingDecl) (g : RingRt) (a : Nat), f.typ = 0x10 → isMirror (s.part p) = false → memWf s.mem = true → ringOf (s.part p) i f.ring = some r →
        (s.part p).rings.find? (fun g => g.ring == r.ring) = some g → slotAddr (s.part p) r g.slot = some a → f.offset + pt.length ≤ r.slotSize →
        (g.arriving = some (f.msg, f.offset) ∨ g.arriving = none ∧ f.offset = 0 ∧ g.full.length < r.slots) →
        ∃ u g', exec .jobData s = .next u ∧ u.inbox = rest ∧ bankRead u (a + f.offset) pt.length = pt ∧
          (∀ x, x < a + f.offset ∨ a + f.offset + pt.length ≤ x → cellRead u.mem.banks x = cellRead s.mem.banks x) ∧ u.mem.hbm = s.mem.hbm ∧
          (u.part p).rings.find? (fun g => g.ring == r.ring) = some g' ∧
          (bitOf f.fflags 0 = true → g.ring = r.ring → g'.full = g.full ++ [(g.slot, f.offset + pt.length)] ∧ g'.arriving = none ∧ g'.slot = (g.slot + 1) % r.slots) ∧
          (bitOf f.fflags 0 = false → g'.full = g.full ∧ g'.arriving = some (f.msg, f.offset + pt.length) ∧ g'.slot = g.slot)) ∧
      (f.typ = 0x10 → isMirror (s.part p) = true → ∃ u, exec .jobData s = .next u ∧ u.inbox = rest ∧ (u.part p).rings = (s.part p).rings ∧ u.mem = s.mem) ∧
      (∀ bs : Bytes, f.typ = 0x11 → joinPiece (s.part p).copyIn f pt = some bs → bitOf f.fflags 0 = false →
        ∃ u, exec .ingressCopy s = .next u ∧ u.inbox = rest ∧ (u.part p).copyIn = some (f.msg, bs) ∧ (u.part p).journal = (s.part p).journal ∧ u.mem = s.mem) ∧
      (∀ (bs : Bytes) (r : RxStream), f.typ = 0x11 → joinPiece (s.part p).copyIn f pt = some bs → bitOf f.fflags 0 = true → s.csi.streams.find? (fun r => r.part == p && r.copyFrom == some (f.src, fieldAt bs 32 2)) = some r →
        takesFrames s p = true → follows (s.part p) = false → ∃ u e, exec .ingressCopy s = .next u ∧ u.inbox = rest ∧
          (u.part p).journal = (s.part p).journal ++ [e] ∧ e.seq = (s.part p).nextSeq ∧ e.stream = r.stream ∧ e.port = 16 + n.val ∧
          (u.part p).nextSeq = (s.part p).nextSeq + 1 ∧ (e.buffer = none ↔ bitOf (fieldAt bs 19 1) 3 = true ∨ (landingOf (s.part p) r.stream).any (fun l => l.size < fieldAt bs 20 4) = true ∨
            freeBuffer (s.part p) r.stream none = none) ∧
          u.mem.hbm = s.mem.hbm) ∧
      (∀ (bs : Bytes) (c : Instr), f.typ = 0x12 → joinPiece (s.part p).partIn f pt = some bs →
        (c = .decisionPart ∧ partKind bs = 1 ∨ c = .snapshotSection ∧ partKind bs = 2 ∨ c = .snapshotJournal ∧ partKind bs = 3 ∨ c = .reentryRequest ∧ partKind bs = 4) →
        (bitOf f.fflags 0 = false → ∃ u, exec c s = .next u ∧ u.inbox = rest ∧ (u.part p).partIn = some (f.msg, bs) ∧ (u.part p).claim = (s.part p).claim ∧ u.mem = s.mem) ∧
        (bitOf f.fflags 0 = true → (s.part p).claim.paired = false → ∃ u, exec c s = .next u ∧ u.inbox = rest ∧ (u.part p).partIn = none ∧
          (u.part p).claim = (s.part p).claim ∧ u.mem = s.mem)) ∧
      (∀ bs : Bytes, f.typ = 0x12 → joinPiece (s.part p).partIn f pt = some bs → bitOf f.fflags 0 = true → (s.part p).claim.paired = true →
        (partKind bs = 1 → (s.part p).claim.leader = false → ∃ u ds, exec .decisionPart s = .next u ∧ u.inbox = rest ∧
          (partStep bs, (u.part p).nextSeq, ds) ∈ (u.part p).claim.parts ∧
          (u.part p).claim.highest.toNat = max (s.part p).claim.highest.toNat (partClaim bs) ∧ (u.part p).claim.claim = (s.part p).claim.claim ∧ u.mem = s.mem) ∧
        (partKind bs = 2 → (s.part p).claim.role = .gloryHole → (assocSet (partSection bs) (partBody bs) (s.part p).claim.sections).length < 6 →
          ∃ u, exec .snapshotSection s = .next u ∧ u.inbox = rest ∧
            (u.part p).claim.sections = assocSet (partSection bs) (partBody bs) (s.part p).claim.sections ∧ u.mem = s.mem) ∧
        (∀ l : Nat, partKind bs = 2 → (s.part p).claim.role = .gloryHole → 6 ≤ (assocSet (partSection bs) (partBody bs) (s.part p).claim.sections).length →
          (s.part p).image.isSome = true → (s.part p).state = .running → pickLayout s (s.part p) = some l →
          ∃ u, exec .snapshotSection s = .next u ∧ (u.part p).claim.sections = [] ∧ (u.part p).claim.role = .gloryHole ∧
            (∀ c, Config.sectionsRead (assocSet (partSection bs) (partBody bs) (s.part p).claim.sections) = some c →
              (u.part p).step = c.step ∧ (u.part p).claim.snapshot = some c.step ∧ (u.part p).holdAt = none ∧ (u.part p).entered = c.step) ∧
            (Config.sectionsRead (assocSet (partSection bs) (partBody bs) (s.part p).claim.sections) = none → (u.part p).step = (s.part p).step)) ∧
        (partKind bs = 3 → (s.part p).claim.role = .gloryHole → bitOf (journalOf ((partBody bs).take 32)).flags 3 = false →
          ((partBody bs).drop 32).length ≠ (journalOf ((partBody bs).take 32)).length →
          ∃ u, exec .snapshotJournal s = .next u ∧ u.inbox = rest ∧ (u.part p).claim.tries = min 3 ((s.part p).claim.tries + 1) ∧ (u.part p).claim.sections = [] ∧ u.mem = s.mem) ∧
        (partKind bs = 3 → (s.part p).claim.role = .gloryHole →
          (bitOf (journalOf ((partBody bs).take 32)).flags 3 = true ∨ ((partBody bs).drop 32).length = (journalOf ((partBody bs).take 32)).length) →
          (∀ j ∈ (s.part p).journal, j.paired = false ∨ j.seq ≠ (journalOf ((partBody bs).take 32)).seq) →
          ∃ u e, exec .snapshotJournal s = .next u ∧ u.inbox = rest ∧ e ∈ (u.part p).journal ∧ e.seq = (journalOf ((partBody bs).take 32)).seq ∧ e.paired = true ∧
            e.payload = (if bitOf e.flags 3 then none else some ((partBody bs).drop 32)) ∧ u.mem = s.mem) ∧
        (partKind bs = 4 → (s.part p).claim.leader = true → ∃ u, exec .reentryRequest s = .next u ∧ u.inbox = rest ∧ (u.part p).claim.wanted = true ∧
          (u.part p).claim.pacePct = partPace bs ∧ u.mem = s.mem ∧ (∀ q, q ≠ p → u.part q = s.part q)))) ∧
    (f.typ = 0x21 → answered s f false = none → ∃ u, exec .storeRdData s = .next u ∧ u.inbox = rest ∧ u.requests = s.requests ∧ u.parts = s.parts ∧ u.mem = s.mem) ∧
    (f.typ = 0x23 → answered s f true = none → ∃ u, exec .storeWrAck s = .next u ∧ u.inbox = rest ∧ u.requests = s.requests ∧ u.parts = s.parts ∧ u.mem = s.mem) ∧
    (f.typ = 0x24 → s.requests.find? (fun q => q.tag == f.msg && q.store == f.src && reqOpen q) = none → ∃ u, exec .storeErr s = .next u ∧ u.inbox = rest ∧
      u.requests = s.requests ∧ u.parts = s.parts ∧ u.mem = s.mem) ∧
    (∀ r : StoreReq,
      (f.typ = 0x21 → answered s f false = some r → ∃ u t, exec .storeRdData s = .next u ∧ u = continuePull t ∧ t.inbox = rest ∧
        t.requests = updFirst (fun q => q.tag == r.tag) (fun q => addData q f) s.requests ∧
        (f.offset = r.got.length → (addData r f).got = (r.got ++ f.payload).take r.length) ∧ (f.offset ≠ r.got.length → addData r f = r) ∧
        t.mem = s.mem ∧ t.parts = s.parts ∧ u.mem = s.mem) ∧
      (f.typ = 0x23 → answered s f true = some r →
        (fieldAt f.payload 0 4 = r.data.length → ∃ u t, exec .storeWrAck s = .next u ∧ u = continueExports t ∧ t.inbox = rest ∧
          t.requests = updFirst (fun q => q.tag == r.tag) (fun q => { q with done := true }) s.requests ∧ t.mem = s.mem ∧ t.parts = s.parts ∧ u.mem = s.mem) ∧
        (fieldAt f.payload 0 4 ≠ r.data.length → ∃ u, exec .storeWrAck s = .next u ∧ u.inbox = rest ∧ u.requests = s.requests ∧ u.parts = s.parts ∧ u.mem = s.mem)) ∧
      (f.typ = 0x24 → s.requests.find? (fun q => q.tag == f.msg && q.store == f.src && reqOpen q) = some r → ∃ u t, exec .storeErr s = .next u ∧
        u = continueExports (continuePull t) ∧ t.inbox = rest ∧
        t.requests = updFirst (fun q => q.tag == r.tag) (fun q => { q with failed := true }) s.requests ∧ t.mem = s.mem ∧ t.parts = s.parts ∧ u.mem = s.mem))

/-- O57. For every state s and every partition o that is not FREE: a due assign order for another, FREE partition, outside DRAIN and QUENCH,
whose mask names a cluster of o, or whose queue blocks or tally blocks hold a block of o, is answered 0x03; and a due stream-bind order
for another partition that is not RUNNING, which binds a port and virtual channel that carries a stream of o in that direction, is
answered 0x03. The answer to the order is all that changes: no partition, cluster, core, bank owner, binding, engine, port or byte of
memory does. [stated: R60] -/
def Obligations.ConflictsAreRefused : Prop :=
  ∀ (s : State) (p o : PartId) (t : Taken) (rest : List Taken), o ≠ p → t.part 0 = p →
    (∀ u, u = answerBare (s.withDue rest) t 0x03 → u.parts = s.parts ∧ u.clusters = s.clusters ∧ u.cores = s.cores ∧ u.owners = s.owners ∧ u.csi = s.csi ∧
      u.video = s.video ∧ u.links = s.links ∧ u.mem = s.mem) ∧
    (firstDue s 0x20 t rest → t.field 1 1 = 1 → takesNew s = true → (s.part p).state = .free → (s.part o).state ≠ .free →
      ((∃ k : ClusterId, k ∈ (s.part o).clusters ∧ bitOf (t.field 3 1) k.val = true) ∨
        (∃ b, t.field 4 1 ≤ b ∧ b < t.field 4 1 + t.field 6 2 ∧ (s.part o).firstQ ≤ b ∧ b < (s.part o).firstQ + (s.part o).nQ) ∨
        (∃ b, t.field 8 1 ≤ b ∧ b < t.field 8 1 + t.field 10 2 ∧ (s.part o).firstT ≤ b ∧ b < (s.part o).firstT + (s.part o).nT)) →
      exec .partAssign s = .next (answerBare (s.withDue rest) t 0x03)) ∧
    (∀ c ∈ s.csi.bindings, firstDue s 0x22 t rest → (s.part p).state ≠ .running → t.field 1 1 ≠ 0xFF → c.part = o → c.transmit = (t.field 1 1 == 1) →
      c.port.val = t.field 4 1 % 16 → c.vc = t.field 5 1 → exec .streamBind s = .next (answerBare (s.withDue rest) t 0x03))

/-- O58. The state after reset has an empty queue, is in HOLD with REFUSED clear and no session; every partition is FREE without clusters,
image or claim, every core in service, every bank owned by code 5 with observer 1, every turn 0 to 3 of a Carloth port the house's and
every other the relay's; no event has been made, no order waits. Read through either port, ID_STATE, the order window, the cap, the die
voltages, the rated totals, the sensors' fluid capacity, the free clusters, the serving settings, the frame-end timeout, the relay turns,
the free video slots, the life cycle and the start step have the values that their tables give after start. Its memory has the canonical
form and lists nothing, and no stream is bound twice. Values that the tables do not give (log entries 4 to 8) are not claimed. [derived:
00_scope.md, 02_turieno_contract.md, 11_i3c_control_plane.md, 14_power_and_heat.md, 18_register_window_index.md, R12, R130, R320, R380] -/
def Obligations.ResetHolds : Prop :=
  State.reset.pending = [] ∧ State.reset.power.state = .hold ∧ State.reset.orders.refusedFlag = false ∧ State.reset.orders.due = [] ∧
  State.reset.orders.taken = [] ∧ State.reset.events.written = 0 ∧ State.reset.events.openRing = true ∧ memoryInv State.reset ∧ State.reset.mem.banks = [] ∧ State.reset.mem.hbm = [] ∧
  bindingsOnce State.reset ∧
  (∀ p, (State.reset.part p).state = .free ∧ (State.reset.part p).clusters = [] ∧ (State.reset.part p).image = none ∧ (State.reset.part p).claim.role = .unpaired ∧
    (State.reset.part p).claim.claim = 0 ∧ (State.reset.part p).keys.model = none) ∧
  (∀ c, (State.reset.core c).state = .inService ∧ (State.reset.core c).cause = .none) ∧
  (∀ b : Fin 288, State.reset.owner b = { owner := 5, observer := 1, unit := 0, part := 0, partValid := false }) ∧
  (∀ (n : PortId) (i : Fin 64), (State.reset.link n).owners.get i = (if i.val < 4 then .house else .relay)) ∧
  (∀ x, (State.reset.port x).session.live = false ∧ (State.reset.port x).copyOn = true ∧ regLive State.reset x 0x0018 = 2 ∧ regLive State.reset x 0x0404 = 0x0014000A ∧
    regLive State.reset x 0x0804 = 0x03E803E8 ∧ regLive State.reset x 0x0810 = 0x02580258 ∧ regLive State.reset x 0x0814 = 0x03520078 ∧
    regLive State.reset x 0x0A0C / 65536 = 1700 ∧ regLive State.reset x 0x0C00 = 0x00FF0000 ∧ regLive State.reset x 0x1004 = 50000 ∧
    regLive State.reset x 0x1600 = 0x20400000 ∧ bitsOf (regLive State.reset x 0x1800) 4 0 = 0x1A ∧ regLive State.reset x 0x1A00 = 0x00090000 ∧
    (∀ p : PartId, regLive State.reset x (0x0E40 + 0x30 * p.val) = 0x25DA0800) ∧
    (∀ n : PortId, bitsOf (regLive State.reset x (0x1240 + 0x10 * n.val)) 13 8 = 60))

/-- O59. For every state s whose memory has the canonical form (each byte and each poison mark listed once, in rising order, no byte listed
that an unlisted address reads as) and in which no logical stream is bound twice in one direction: if step answers a next state, that
state has both, whatever the command at the front of the queue. That an unlisted byte reads as 0 is the model's choice (DESIGN CHOICE, log
entry 9). [derived: 05_banks_stacks_and_page_keys.md, 10_csi2_streams.md, R127, R140, R156, R270] -/
def Obligations.StepKeepsInvariant : Prop :=
  ∀ s t : State, memoryInv s → bindingsOnce s → step s = .next t → memoryInv t ∧ bindingsOnce t

/-- O60. For every command c and states s and t, if exec of c on s answers next t, the queue of t is that of s; the time of t is not before
that of s; what the block had driven outward in s still stands first in t; and the serial number, the product code, the reprovisioning
count, the certificate and the root and identity keys of t are those of s. The fused security version never falls. [derived:
11_i3c_control_plane.md, 17_connector_and_enclosure.md, R6, R312, R437] -/
def Obligations.ExecLeavesQueueAndPart : Prop :=
  ∀ (c : Instr) (s t : State), exec c s = .next t → t.pending = s.pending ∧ s.now ≤ t.now ∧ s.out <+: t.out ∧ t.fuses.serial = s.fuses.serial ∧
    t.fuses.codeSB = s.fuses.codeSB ∧ t.fuses.reprov = s.fuses.reprov ∧ t.fuses.cert = s.fuses.cert ∧ t.fuses.rootKey = s.fuses.rootKey ∧
    t.fuses.identityKey = s.fuses.identityKey ∧ s.fuses.secver ≤ t.fuses.secver
end

