-- ==== Sys2Proof/Laws/Bits.lean ====
section
/-! SUPPORT. Laws of byte order and lists by key. -/

namespace Sys2Proof.Machine

@[simp] theorem leBytes_length (n v : Nat) : (leBytes n v).length = n := by
  induction n generalizing v with
  | zero => rfl
  | succ n ih => simp [leBytes, ih]

@[simp] theorem beBytes_length (n v : Nat) : (beBytes n v).length = n := by simp [beBytes]

theorem ofNat_byte (b : Byte) (n : Nat) : BitVec.ofNat 8 (b.toNat + 256 * n) = b := by
  apply BitVec.eq_of_toNat_eq
  have := b.isLt
  simp [BitVec.toNat_ofNat]
  omega

/-- Bytes read as a number and written again are the bytes. -/
theorem leBytes_leNat (bs : Bytes) : leBytes bs.length (leNat bs) = bs := by
  induction bs with
  | nil => rfl
  | cons b bs ih =>
    have hb := b.isLt
    show BitVec.ofNat 8 (b.toNat + 256 * leNat bs) :: leBytes bs.length ((b.toNat + 256 * leNat bs) / 256) = b :: bs
    rw [ofNat_byte, show (b.toNat + 256 * leNat bs) / 256 = leNat bs by omega, ih]

/-- A number written and read again is the number, modulo its width. -/
theorem leNat_leBytes (n v : Nat) : leNat (leBytes n v) = v % 256 ^ n := by
  induction n generalizing v with
  | zero => simp [leBytes, leNat, Nat.mod_one]
  | succ n ih =>
    show (BitVec.ofNat 8 v).toNat + 256 * leNat (leBytes n (v / 256)) = v % 256 ^ (n + 1)
    rw [ih, BitVec.toNat_ofNat, show (256 : Nat) ^ (n + 1) = 256 * 256 ^ n from by rw [Nat.pow_succ, Nat.mul_comm], Nat.mod_mul]

@[simp] theorem padTo_length (n : Nat) (bs : Bytes) : (padTo n bs).length = n := by simp [padTo]; omega
@[simp] theorem zeros_length (n : Nat) : (zeros n).length = n := by simp [zeros]

theorem assocGet_assocSet {α : Type} (k : Nat) (v : α) (as : List (Nat × α)) : assocGet k (assocSet k v as) = some v := by
  induction as with
  | nil => simp [assocSet, assocGet]
  | cons a as ih =>
    obtain ⟨k', w⟩ := a
    unfold assocSet
    split
    · simp [assocGet]
    · rename_i h
      simp only [assocGet, List.find?, beq_eq_false_iff_ne.mpr h] at ih ⊢
      exact ih

end Sys2Proof.Machine
end

