-- ==== Sys2Proof/Laws/State.lean ====
section
/-! SUPPORT. What each update of the state leaves alone: one lemma per field per update, true by `rfl`, and the reads of the
unit that an update wrote. No later proof need unfold a record update. -/

namespace Sys2Proof.Machine

variable (s : State) (p p' : PartId) (x : Part) (pf : Part → Part) (cf : Claim → Claim) (kf : PKeys → PKeys) (c c' : CoreId) (k : Core)
  (kk : Core → Core) (g g' : ClusterId) (cl : Cluster) (gf : Cluster → Cluster) (i i' : I3cId) (q : I3cPort) (qf : I3cPort → I3cPort)
  (n n' : PortId) (l : Link) (lf : Link → Link) (d d' : DieId) (v : VidEngine) (vf : VidEngine → VidEngine) (rf : RxPort → RxPort)
  (tf : TxPort → TxPort) (wf : Power → Power) (hf : Thermal → Thermal) (uf : TimeRt → TimeRt) (orf : Orders → Orders)
  (sf : Security → Security) (ff : Firmware → Firmware) (ef : Events → Events) (csf : Csi → Csi) (laf : Lanes → Lanes) (o : Output) (u : Ns)

/-! `setPart` -/
@[simp] theorem State.setPart_pending : (s.setPart p x).pending = s.pending := rfl
@[simp] theorem State.setPart_now : (s.setPart p x).now = s.now := rfl
@[simp] theorem State.setPart_fresh : (s.setPart p x).fresh = s.fresh := rfl
@[simp] theorem State.setPart_out : (s.setPart p x).out = s.out := rfl
@[simp] theorem State.setPart_mem : (s.setPart p x).mem = s.mem := rfl
@[simp] theorem State.setPart_owners : (s.setPart p x).owners = s.owners := rfl
@[simp] theorem State.setPart_clusters : (s.setPart p x).clusters = s.clusters := rfl
@[simp] theorem State.setPart_cores : (s.setPart p x).cores = s.cores := rfl
@[simp] theorem State.setPart_video : (s.setPart p x).video = s.video := rfl
@[simp] theorem State.setPart_csi : (s.setPart p x).csi = s.csi := rfl
@[simp] theorem State.setPart_i3c : (s.setPart p x).i3c = s.i3c := rfl
@[simp] theorem State.setPart_orders : (s.setPart p x).orders = s.orders := rfl
@[simp] theorem State.setPart_links : (s.setPart p x).links = s.links := rfl
@[simp] theorem State.setPart_inbox : (s.setPart p x).inbox = s.inbox := rfl
@[simp] theorem State.setPart_plan : (s.setPart p x).plan = s.plan := rfl
@[simp] theorem State.setPart_requests : (s.setPart p x).requests = s.requests := rfl
@[simp] theorem State.setPart_nextTag : (s.setPart p x).nextTag = s.nextTag := rfl
@[simp] theorem State.setPart_lanes : (s.setPart p x).lanes = s.lanes := rfl
@[simp] theorem State.setPart_time : (s.setPart p x).time = s.time := rfl
@[simp] theorem State.setPart_power : (s.setPart p x).power = s.power := rfl
@[simp] theorem State.setPart_thermal : (s.setPart p x).thermal = s.thermal := rfl
@[simp] theorem State.setPart_fuses : (s.setPart p x).fuses = s.fuses := rfl
@[simp] theorem State.setPart_security : (s.setPart p x).security = s.security := rfl
@[simp] theorem State.setPart_fw : (s.setPart p x).fw = s.fw := rfl
@[simp] theorem State.setPart_events : (s.setPart p x).events = s.events := rfl

/-! `modPart` -/
@[simp] theorem State.modPart_pending : (s.modPart p pf).pending = s.pending := rfl
@[simp] theorem State.modPart_now : (s.modPart p pf).now = s.now := rfl
@[simp] theorem State.modPart_fresh : (s.modPart p pf).fresh = s.fresh := rfl
@[simp] theorem State.modPart_out : (s.modPart p pf).out = s.out := rfl
@[simp] theorem State.modPart_mem : (s.modPart p pf).mem = s.mem := rfl
@[simp] theorem State.modPart_owners : (s.modPart p pf).owners = s.owners := rfl
@[simp] theorem State.modPart_clusters : (s.modPart p pf).clusters = s.clusters := rfl
@[simp] theorem State.modPart_cores : (s.modPart p pf).cores = s.cores := rfl
@[simp] theorem State.modPart_video : (s.modPart p pf).video = s.video := rfl
@[simp] theorem State.modPart_csi : (s.modPart p pf).csi = s.csi := rfl
@[simp] theorem State.modPart_i3c : (s.modPart p pf).i3c = s.i3c := rfl
@[simp] theorem State.modPart_orders : (s.modPart p pf).orders = s.orders := rfl
@[simp] theorem State.modPart_links : (s.modPart p pf).links = s.links := rfl
@[simp] theorem State.modPart_inbox : (s.modPart p pf).inbox = s.inbox := rfl
@[simp] theorem State.modPart_plan : (s.modPart p pf).plan = s.plan := rfl
@[simp] theorem State.modPart_requests : (s.modPart p pf).requests = s.requests := rfl
@[simp] theorem State.modPart_nextTag : (s.modPart p pf).nextTag = s.nextTag := rfl
@[simp] theorem State.modPart_lanes : (s.modPart p pf).lanes = s.lanes := rfl
@[simp] theorem State.modPart_time : (s.modPart p pf).time = s.time := rfl
@[simp] theorem State.modPart_power : (s.modPart p pf).power = s.power := rfl
@[simp] theorem State.modPart_thermal : (s.modPart p pf).thermal = s.thermal := rfl
@[simp] theorem State.modPart_fuses : (s.modPart p pf).fuses = s.fuses := rfl
@[simp] theorem State.modPart_security : (s.modPart p pf).security = s.security := rfl
@[simp] theorem State.modPart_fw : (s.modPart p pf).fw = s.fw := rfl
@[simp] theorem State.modPart_events : (s.modPart p pf).events = s.events := rfl

/-! `modClaim` -/
@[simp] theorem State.modClaim_pending : (s.modClaim p cf).pending = s.pending := rfl
@[simp] theorem State.modClaim_now : (s.modClaim p cf).now = s.now := rfl
@[simp] theorem State.modClaim_fresh : (s.modClaim p cf).fresh = s.fresh := rfl
@[simp] theorem State.modClaim_out : (s.modClaim p cf).out = s.out := rfl
@[simp] theorem State.modClaim_mem : (s.modClaim p cf).mem = s.mem := rfl
@[simp] theorem State.modClaim_owners : (s.modClaim p cf).owners = s.owners := rfl
@[simp] theorem State.modClaim_clusters : (s.modClaim p cf).clusters = s.clusters := rfl
@[simp] theorem State.modClaim_cores : (s.modClaim p cf).cores = s.cores := rfl
@[simp] theorem State.modClaim_video : (s.modClaim p cf).video = s.video := rfl
@[simp] theorem State.modClaim_csi : (s.modClaim p cf).csi = s.csi := rfl
@[simp] theorem State.modClaim_i3c : (s.modClaim p cf).i3c = s.i3c := rfl
@[simp] theorem State.modClaim_orders : (s.modClaim p cf).orders = s.orders := rfl
@[simp] theorem State.modClaim_links : (s.modClaim p cf).links = s.links := rfl
@[simp] theorem State.modClaim_inbox : (s.modClaim p cf).inbox = s.inbox := rfl
@[simp] theorem State.modClaim_plan : (s.modClaim p cf).plan = s.plan := rfl
@[simp] theorem State.modClaim_requests : (s.modClaim p cf).requests = s.requests := rfl
@[simp] theorem State.modClaim_nextTag : (s.modClaim p cf).nextTag = s.nextTag := rfl
@[simp] theorem State.modClaim_lanes : (s.modClaim p cf).lanes = s.lanes := rfl
@[simp] theorem State.modClaim_time : (s.modClaim p cf).time = s.time := rfl
@[simp] theorem State.modClaim_power : (s.modClaim p cf).power = s.power := rfl
@[simp] theorem State.modClaim_thermal : (s.modClaim p cf).thermal = s.thermal := rfl
@[simp] theorem State.modClaim_fuses : (s.modClaim p cf).fuses = s.fuses := rfl
@[simp] theorem State.modClaim_security : (s.modClaim p cf).security = s.security := rfl
@[simp] theorem State.modClaim_fw : (s.modClaim p cf).fw = s.fw := rfl
@[simp] theorem State.modClaim_events : (s.modClaim p cf).events = s.events := rfl

/-! `modKeys` -/
@[simp] theorem State.modKeys_pending : (s.modKeys p kf).pending = s.pending := rfl
@[simp] theorem State.modKeys_now : (s.modKeys p kf).now = s.now := rfl
@[simp] theorem State.modKeys_fresh : (s.modKeys p kf).fresh = s.fresh := rfl
@[simp] theorem State.modKeys_out : (s.modKeys p kf).out = s.out := rfl
@[simp] theorem State.modKeys_mem : (s.modKeys p kf).mem = s.mem := rfl
@[simp] theorem State.modKeys_owners : (s.modKeys p kf).owners = s.owners := rfl
@[simp] theorem State.modKeys_clusters : (s.modKeys p kf).clusters = s.clusters := rfl
@[simp] theorem State.modKeys_cores : (s.modKeys p kf).cores = s.cores := rfl
@[simp] theorem State.modKeys_video : (s.modKeys p kf).video = s.video := rfl
@[simp] theorem State.modKeys_csi : (s.modKeys p kf).csi = s.csi := rfl
@[simp] theorem State.modKeys_i3c : (s.modKeys p kf).i3c = s.i3c := rfl
@[simp] theorem State.modKeys_orders : (s.modKeys p kf).orders = s.orders := rfl
@[simp] theorem State.modKeys_links : (s.modKeys p kf).links = s.links := rfl
@[simp] theorem State.modKeys_inbox : (s.modKeys p kf).inbox = s.inbox := rfl
@[simp] theorem State.modKeys_plan : (s.modKeys p kf).plan = s.plan := rfl
@[simp] theorem State.modKeys_requests : (s.modKeys p kf).requests = s.requests := rfl
@[simp] theorem State.modKeys_nextTag : (s.modKeys p kf).nextTag = s.nextTag := rfl
@[simp] theorem State.modKeys_lanes : (s.modKeys p kf).lanes = s.lanes := rfl
@[simp] theorem State.modKeys_time : (s.modKeys p kf).time = s.time := rfl
@[simp] theorem State.modKeys_power : (s.modKeys p kf).power = s.power := rfl
@[simp] theorem State.modKeys_thermal : (s.modKeys p kf).thermal = s.thermal := rfl
@[simp] theorem State.modKeys_fuses : (s.modKeys p kf).fuses = s.fuses := rfl
@[simp] theorem State.modKeys_security : (s.modKeys p kf).security = s.security := rfl
@[simp] theorem State.modKeys_fw : (s.modKeys p kf).fw = s.fw := rfl
@[simp] theorem State.modKeys_events : (s.modKeys p kf).events = s.events := rfl

/-! `setCore` -/
@[simp] theorem State.setCore_pending : (s.setCore c k).pending = s.pending := rfl
@[simp] theorem State.setCore_now : (s.setCore c k).now = s.now := rfl
@[simp] theorem State.setCore_fresh : (s.setCore c k).fresh = s.fresh := rfl
@[simp] theorem State.setCore_out : (s.setCore c k).out = s.out := rfl
@[simp] theorem State.setCore_mem : (s.setCore c k).mem = s.mem := rfl
@[simp] theorem State.setCore_owners : (s.setCore c k).owners = s.owners := rfl
@[simp] theorem State.setCore_clusters : (s.setCore c k).clusters = s.clusters := rfl
@[simp] theorem State.setCore_parts : (s.setCore c k).parts = s.parts := rfl
@[simp] theorem State.setCore_video : (s.setCore c k).video = s.video := rfl
@[simp] theorem State.setCore_csi : (s.setCore c k).csi = s.csi := rfl
@[simp] theorem State.setCore_i3c : (s.setCore c k).i3c = s.i3c := rfl
@[simp] theorem State.setCore_orders : (s.setCore c k).orders = s.orders := rfl
@[simp] theorem State.setCore_links : (s.setCore c k).links = s.links := rfl
@[simp] theorem State.setCore_inbox : (s.setCore c k).inbox = s.inbox := rfl
@[simp] theorem State.setCore_plan : (s.setCore c k).plan = s.plan := rfl
@[simp] theorem State.setCore_requests : (s.setCore c k).requests = s.requests := rfl
@[simp] theorem State.setCore_nextTag : (s.setCore c k).nextTag = s.nextTag := rfl
@[simp] theorem State.setCore_lanes : (s.setCore c k).lanes = s.lanes := rfl
@[simp] theorem State.setCore_time : (s.setCore c k).time = s.time := rfl
@[simp] theorem State.setCore_power : (s.setCore c k).power = s.power := rfl
@[simp] theorem State.setCore_thermal : (s.setCore c k).thermal = s.thermal := rfl
@[simp] theorem State.setCore_fuses : (s.setCore c k).fuses = s.fuses := rfl
@[simp] theorem State.setCore_security : (s.setCore c k).security = s.security := rfl
@[simp] theorem State.setCore_fw : (s.setCore c k).fw = s.fw := rfl
@[simp] theorem State.setCore_events : (s.setCore c k).events = s.events := rfl

/-! `modCore` -/
@[simp] theorem State.modCore_pending : (s.modCore c kk).pending = s.pending := rfl
@[simp] theorem State.modCore_now : (s.modCore c kk).now = s.now := rfl
@[simp] theorem State.modCore_fresh : (s.modCore c kk).fresh = s.fresh := rfl
@[simp] theorem State.modCore_out : (s.modCore c kk).out = s.out := rfl
@[simp] theorem State.modCore_mem : (s.modCore c kk).mem = s.mem := rfl
@[simp] theorem State.modCore_owners : (s.modCore c kk).owners = s.owners := rfl
@[simp] theorem State.modCore_clusters : (s.modCore c kk).clusters = s.clusters := rfl
@[simp] theorem State.modCore_parts : (s.modCore c kk).parts = s.parts := rfl
@[simp] theorem State.modCore_video : (s.modCore c kk).video = s.video := rfl
@[simp] theorem State.modCore_csi : (s.modCore c kk).csi = s.csi := rfl
@[simp] theorem State.modCore_i3c : (s.modCore c kk).i3c = s.i3c := rfl
@[simp] theorem State.modCore_orders : (s.modCore c kk).orders = s.orders := rfl
@[simp] theorem State.modCore_links : (s.modCore c kk).links = s.links := rfl
@[simp] theorem State.modCore_inbox : (s.modCore c kk).inbox = s.inbox := rfl
@[simp] theorem State.modCore_plan : (s.modCore c kk).plan = s.plan := rfl
@[simp] theorem State.modCore_requests : (s.modCore c kk).requests = s.requests := rfl
@[simp] theorem State.modCore_nextTag : (s.modCore c kk).nextTag = s.nextTag := rfl
@[simp] theorem State.modCore_lanes : (s.modCore c kk).lanes = s.lanes := rfl
@[simp] theorem State.modCore_time : (s.modCore c kk).time = s.time := rfl
@[simp] theorem State.modCore_power : (s.modCore c kk).power = s.power := rfl
@[simp] theorem State.modCore_thermal : (s.modCore c kk).thermal = s.thermal := rfl
@[simp] theorem State.modCore_fuses : (s.modCore c kk).fuses = s.fuses := rfl
@[simp] theorem State.modCore_security : (s.modCore c kk).security = s.security := rfl
@[simp] theorem State.modCore_fw : (s.modCore c kk).fw = s.fw := rfl
@[simp] theorem State.modCore_events : (s.modCore c kk).events = s.events := rfl

/-! `setCluster` -/
@[simp] theorem State.setCluster_pending : (s.setCluster g cl).pending = s.pending := rfl
@[simp] theorem State.setCluster_now : (s.setCluster g cl).now = s.now := rfl
@[simp] theorem State.setCluster_fresh : (s.setCluster g cl).fresh = s.fresh := rfl
@[simp] theorem State.setCluster_out : (s.setCluster g cl).out = s.out := rfl
@[simp] theorem State.setCluster_mem : (s.setCluster g cl).mem = s.mem := rfl
@[simp] theorem State.setCluster_owners : (s.setCluster g cl).owners = s.owners := rfl
@[simp] theorem State.setCluster_cores : (s.setCluster g cl).cores = s.cores := rfl
@[simp] theorem State.setCluster_parts : (s.setCluster g cl).parts = s.parts := rfl
@[simp] theorem State.setCluster_video : (s.setCluster g cl).video = s.video := rfl
@[simp] theorem State.setCluster_csi : (s.setCluster g cl).csi = s.csi := rfl
@[simp] theorem State.setCluster_i3c : (s.setCluster g cl).i3c = s.i3c := rfl
@[simp] theorem State.setCluster_orders : (s.setCluster g cl).orders = s.orders := rfl
@[simp] theorem State.setCluster_links : (s.setCluster g cl).links = s.links := rfl
@[simp] theorem State.setCluster_inbox : (s.setCluster g cl).inbox = s.inbox := rfl
@[simp] theorem State.setCluster_plan : (s.setCluster g cl).plan = s.plan := rfl
@[simp] theorem State.setCluster_requests : (s.setCluster g cl).requests = s.requests := rfl
@[simp] theorem State.setCluster_nextTag : (s.setCluster g cl).nextTag = s.nextTag := rfl
@[simp] theorem State.setCluster_lanes : (s.setCluster g cl).lanes = s.lanes := rfl
@[simp] theorem State.setCluster_time : (s.setCluster g cl).time = s.time := rfl
@[simp] theorem State.setCluster_power : (s.setCluster g cl).power = s.power := rfl
@[simp] theorem State.setCluster_thermal : (s.setCluster g cl).thermal = s.thermal := rfl
@[simp] theorem State.setCluster_fuses : (s.setCluster g cl).fuses = s.fuses := rfl
@[simp] theorem State.setCluster_security : (s.setCluster g cl).security = s.security := rfl
@[simp] theorem State.setCluster_fw : (s.setCluster g cl).fw = s.fw := rfl
@[simp] theorem State.setCluster_events : (s.setCluster g cl).events = s.events := rfl

/-! `modCluster` -/
@[simp] theorem State.modCluster_pending : (s.modCluster g gf).pending = s.pending := rfl
@[simp] theorem State.modCluster_now : (s.modCluster g gf).now = s.now := rfl
@[simp] theorem State.modCluster_fresh : (s.modCluster g gf).fresh = s.fresh := rfl
@[simp] theorem State.modCluster_out : (s.modCluster g gf).out = s.out := rfl
@[simp] theorem State.modCluster_mem : (s.modCluster g gf).mem = s.mem := rfl
@[simp] theorem State.modCluster_owners : (s.modCluster g gf).owners = s.owners := rfl
@[simp] theorem State.modCluster_cores : (s.modCluster g gf).cores = s.cores := rfl
@[simp] theorem State.modCluster_parts : (s.modCluster g gf).parts = s.parts := rfl
@[simp] theorem State.modCluster_video : (s.modCluster g gf).video = s.video := rfl
@[simp] theorem State.modCluster_csi : (s.modCluster g gf).csi = s.csi := rfl
@[simp] theorem State.modCluster_i3c : (s.modCluster g gf).i3c = s.i3c := rfl
@[simp] theorem State.modCluster_orders : (s.modCluster g gf).orders = s.orders := rfl
@[simp] theorem State.modCluster_links : (s.modCluster g gf).links = s.links := rfl
@[simp] theorem State.modCluster_inbox : (s.modCluster g gf).inbox = s.inbox := rfl
@[simp] theorem State.modCluster_plan : (s.modCluster g gf).plan = s.plan := rfl
@[simp] theorem State.modCluster_requests : (s.modCluster g gf).requests = s.requests := rfl
@[simp] theorem State.modCluster_nextTag : (s.modCluster g gf).nextTag = s.nextTag := rfl
@[simp] theorem State.modCluster_lanes : (s.modCluster g gf).lanes = s.lanes := rfl
@[simp] theorem State.modCluster_time : (s.modCluster g gf).time = s.time := rfl
@[simp] theorem State.modCluster_power : (s.modCluster g gf).power = s.power := rfl
@[simp] theorem State.modCluster_thermal : (s.modCluster g gf).thermal = s.thermal := rfl
@[simp] theorem State.modCluster_fuses : (s.modCluster g gf).fuses = s.fuses := rfl
@[simp] theorem State.modCluster_security : (s.modCluster g gf).security = s.security := rfl
@[simp] theorem State.modCluster_fw : (s.modCluster g gf).fw = s.fw := rfl
@[simp] theorem State.modCluster_events : (s.modCluster g gf).events = s.events := rfl

/-! `setPort` -/
@[simp] theorem State.setPort_pending : (s.setPort i q).pending = s.pending := rfl
@[simp] theorem State.setPort_now : (s.setPort i q).now = s.now := rfl
@[simp] theorem State.setPort_fresh : (s.setPort i q).fresh = s.fresh := rfl
@[simp] theorem State.setPort_out : (s.setPort i q).out = s.out := rfl
@[simp] theorem State.setPort_mem : (s.setPort i q).mem = s.mem := rfl
@[simp] theorem State.setPort_owners : (s.setPort i q).owners = s.owners := rfl
@[simp] theorem State.setPort_clusters : (s.setPort i q).clusters = s.clusters := rfl
@[simp] theorem State.setPort_cores : (s.setPort i q).cores = s.cores := rfl
@[simp] theorem State.setPort_parts : (s.setPort i q).parts = s.parts := rfl
@[simp] theorem State.setPort_video : (s.setPort i q).video = s.video := rfl
@[simp] theorem State.setPort_csi : (s.setPort i q).csi = s.csi := rfl
@[simp] theorem State.setPort_orders : (s.setPort i q).orders = s.orders := rfl
@[simp] theorem State.setPort_links : (s.setPort i q).links = s.links := rfl
@[simp] theorem State.setPort_inbox : (s.setPort i q).inbox = s.inbox := rfl
@[simp] theorem State.setPort_plan : (s.setPort i q).plan = s.plan := rfl
@[simp] theorem State.setPort_requests : (s.setPort i q).requests = s.requests := rfl
@[simp] theorem State.setPort_nextTag : (s.setPort i q).nextTag = s.nextTag := rfl
@[simp] theorem State.setPort_lanes : (s.setPort i q).lanes = s.lanes := rfl
@[simp] theorem State.setPort_time : (s.setPort i q).time = s.time := rfl
@[simp] theorem State.setPort_power : (s.setPort i q).power = s.power := rfl
@[simp] theorem State.setPort_thermal : (s.setPort i q).thermal = s.thermal := rfl
@[simp] theorem State.setPort_fuses : (s.setPort i q).fuses = s.fuses := rfl
@[simp] theorem State.setPort_security : (s.setPort i q).security = s.security := rfl
@[simp] theorem State.setPort_fw : (s.setPort i q).fw = s.fw := rfl
@[simp] theorem State.setPort_events : (s.setPort i q).events = s.events := rfl

/-! `modPort` -/
@[simp] theorem State.modPort_pending : (s.modPort i qf).pending = s.pending := rfl
@[simp] theorem State.modPort_now : (s.modPort i qf).now = s.now := rfl
@[simp] theorem State.modPort_fresh : (s.modPort i qf).fresh = s.fresh := rfl
@[simp] theorem State.modPort_out : (s.modPort i qf).out = s.out := rfl
@[simp] theorem State.modPort_mem : (s.modPort i qf).mem = s.mem := rfl
@[simp] theorem State.modPort_owners : (s.modPort i qf).owners = s.owners := rfl
@[simp] theorem State.modPort_clusters : (s.modPort i qf).clusters = s.clusters := rfl
@[simp] theorem State.modPort_cores : (s.modPort i qf).cores = s.cores := rfl
@[simp] theorem State.modPort_parts : (s.modPort i qf).parts = s.parts := rfl
@[simp] theorem State.modPort_video : (s.modPort i qf).video = s.video := rfl
@[simp] theorem State.modPort_csi : (s.modPort i qf).csi = s.csi := rfl
@[simp] theorem State.modPort_orders : (s.modPort i qf).orders = s.orders := rfl
@[simp] theorem State.modPort_links : (s.modPort i qf).links = s.links := rfl
@[simp] theorem State.modPort_inbox : (s.modPort i qf).inbox = s.inbox := rfl
@[simp] theorem State.modPort_plan : (s.modPort i qf).plan = s.plan := rfl
@[simp] theorem State.modPort_requests : (s.modPort i qf).requests = s.requests := rfl
@[simp] theorem State.modPort_nextTag : (s.modPort i qf).nextTag = s.nextTag := rfl
@[simp] theorem State.modPort_lanes : (s.modPort i qf).lanes = s.lanes := rfl
@[simp] theorem State.modPort_time : (s.modPort i qf).time = s.time := rfl
@[simp] theorem State.modPort_power : (s.modPort i qf).power = s.power := rfl
@[simp] theorem State.modPort_thermal : (s.modPort i qf).thermal = s.thermal := rfl
@[simp] theorem State.modPort_fuses : (s.modPort i qf).fuses = s.fuses := rfl
@[simp] theorem State.modPort_security : (s.modPort i qf).security = s.security := rfl
@[simp] theorem State.modPort_fw : (s.modPort i qf).fw = s.fw := rfl
@[simp] theorem State.modPort_events : (s.modPort i qf).events = s.events := rfl

/-! `setLink` -/
@[simp] theorem State.setLink_pending : (s.setLink n l).pending = s.pending := rfl
@[simp] theorem State.setLink_now : (s.setLink n l).now = s.now := rfl
@[simp] theorem State.setLink_fresh : (s.setLink n l).fresh = s.fresh := rfl
@[simp] theorem State.setLink_out : (s.setLink n l).out = s.out := rfl
@[simp] theorem State.setLink_mem : (s.setLink n l).mem = s.mem := rfl
@[simp] theorem State.setLink_owners : (s.setLink n l).owners = s.owners := rfl
@[simp] theorem State.setLink_clusters : (s.setLink n l).clusters = s.clusters := rfl
@[simp] theorem State.setLink_cores : (s.setLink n l).cores = s.cores := rfl
@[simp] theorem State.setLink_parts : (s.setLink n l).parts = s.parts := rfl
@[simp] theorem State.setLink_video : (s.setLink n l).video = s.video := rfl
@[simp] theorem State.setLink_csi : (s.setLink n l).csi = s.csi := rfl
@[simp] theorem State.setLink_i3c : (s.setLink n l).i3c = s.i3c := rfl
@[simp] theorem State.setLink_orders : (s.setLink n l).orders = s.orders := rfl
@[simp] theorem State.setLink_inbox : (s.setLink n l).inbox = s.inbox := rfl
@[simp] theorem State.setLink_plan : (s.setLink n l).plan = s.plan := rfl
@[simp] theorem State.setLink_requests : (s.setLink n l).requests = s.requests := rfl
@[simp] theorem State.setLink_nextTag : (s.setLink n l).nextTag = s.nextTag := rfl
@[simp] theorem State.setLink_lanes : (s.setLink n l).lanes = s.lanes := rfl
@[simp] theorem State.setLink_time : (s.setLink n l).time = s.time := rfl
@[simp] theorem State.setLink_power : (s.setLink n l).power = s.power := rfl
@[simp] theorem State.setLink_thermal : (s.setLink n l).thermal = s.thermal := rfl
@[simp] theorem State.setLink_fuses : (s.setLink n l).fuses = s.fuses := rfl
@[simp] theorem State.setLink_security : (s.setLink n l).security = s.security := rfl
@[simp] theorem State.setLink_fw : (s.setLink n l).fw = s.fw := rfl
@[simp] theorem State.setLink_events : (s.setLink n l).events = s.events := rfl

/-! `modLink` -/
@[simp] theorem State.modLink_pending : (s.modLink n lf).pending = s.pending := rfl
@[simp] theorem State.modLink_now : (s.modLink n lf).now = s.now := rfl
@[simp] theorem State.modLink_fresh : (s.modLink n lf).fresh = s.fresh := rfl
@[simp] theorem State.modLink_out : (s.modLink n lf).out = s.out := rfl
@[simp] theorem State.modLink_mem : (s.modLink n lf).mem = s.mem := rfl
@[simp] theorem State.modLink_owners : (s.modLink n lf).owners = s.owners := rfl
@[simp] theorem State.modLink_clusters : (s.modLink n lf).clusters = s.clusters := rfl
@[simp] theorem State.modLink_cores : (s.modLink n lf).cores = s.cores := rfl
@[simp] theorem State.modLink_parts : (s.modLink n lf).parts = s.parts := rfl
@[simp] theorem State.modLink_video : (s.modLink n lf).video = s.video := rfl
@[simp] theorem State.modLink_csi : (s.modLink n lf).csi = s.csi := rfl
@[simp] theorem State.modLink_i3c : (s.modLink n lf).i3c = s.i3c := rfl
@[simp] theorem State.modLink_orders : (s.modLink n lf).orders = s.orders := rfl
@[simp] theorem State.modLink_inbox : (s.modLink n lf).inbox = s.inbox := rfl
@[simp] theorem State.modLink_plan : (s.modLink n lf).plan = s.plan := rfl
@[simp] theorem State.modLink_requests : (s.modLink n lf).requests = s.requests := rfl
@[simp] theorem State.modLink_nextTag : (s.modLink n lf).nextTag = s.nextTag := rfl
@[simp] theorem State.modLink_lanes : (s.modLink n lf).lanes = s.lanes := rfl
@[simp] theorem State.modLink_time : (s.modLink n lf).time = s.time := rfl
@[simp] theorem State.modLink_power : (s.modLink n lf).power = s.power := rfl
@[simp] theorem State.modLink_thermal : (s.modLink n lf).thermal = s.thermal := rfl
@[simp] theorem State.modLink_fuses : (s.modLink n lf).fuses = s.fuses := rfl
@[simp] theorem State.modLink_security : (s.modLink n lf).security = s.security := rfl
@[simp] theorem State.modLink_fw : (s.modLink n lf).fw = s.fw := rfl
@[simp] theorem State.modLink_events : (s.modLink n lf).events = s.events := rfl

/-! `setEngine` -/
@[simp] theorem State.setEngine_pending : (s.setEngine d v).pending = s.pending := rfl
@[simp] theorem State.setEngine_now : (s.setEngine d v).now = s.now := rfl
@[simp] theorem State.setEngine_fresh : (s.setEngine d v).fresh = s.fresh := rfl
@[simp] theorem State.setEngine_out : (s.setEngine d v).out = s.out := rfl
@[simp] theorem State.setEngine_mem : (s.setEngine d v).mem = s.mem := rfl
@[simp] theorem State.setEngine_owners : (s.setEngine d v).owners = s.owners := rfl
@[simp] theorem State.setEngine_clusters : (s.setEngine d v).clusters = s.clusters := rfl
@[simp] theorem State.setEngine_cores : (s.setEngine d v).cores = s.cores := rfl
@[simp] theorem State.setEngine_parts : (s.setEngine d v).parts = s.parts := rfl
@[simp] theorem State.setEngine_csi : (s.setEngine d v).csi = s.csi := rfl
@[simp] theorem State.setEngine_i3c : (s.setEngine d v).i3c = s.i3c := rfl
@[simp] theorem State.setEngine_orders : (s.setEngine d v).orders = s.orders := rfl
@[simp] theorem State.setEngine_links : (s.setEngine d v).links = s.links := rfl
@[simp] theorem State.setEngine_inbox : (s.setEngine d v).inbox = s.inbox := rfl
@[simp] theorem State.setEngine_plan : (s.setEngine d v).plan = s.plan := rfl
@[simp] theorem State.setEngine_requests : (s.setEngine d v).requests = s.requests := rfl
@[simp] theorem State.setEngine_nextTag : (s.setEngine d v).nextTag = s.nextTag := rfl
@[simp] theorem State.setEngine_lanes : (s.setEngine d v).lanes = s.lanes := rfl
@[simp] theorem State.setEngine_time : (s.setEngine d v).time = s.time := rfl
@[simp] theorem State.setEngine_power : (s.setEngine d v).power = s.power := rfl
@[simp] theorem State.setEngine_thermal : (s.setEngine d v).thermal = s.thermal := rfl
@[simp] theorem State.setEngine_fuses : (s.setEngine d v).fuses = s.fuses := rfl
@[simp] theorem State.setEngine_security : (s.setEngine d v).security = s.security := rfl
@[simp] theorem State.setEngine_fw : (s.setEngine d v).fw = s.fw := rfl
@[simp] theorem State.setEngine_events : (s.setEngine d v).events = s.events := rfl

/-! `modEngine` -/
@[simp] theorem State.modEngine_pending : (s.modEngine d vf).pending = s.pending := rfl
@[simp] theorem State.modEngine_now : (s.modEngine d vf).now = s.now := rfl
@[simp] theorem State.modEngine_fresh : (s.modEngine d vf).fresh = s.fresh := rfl
@[simp] theorem State.modEngine_out : (s.modEngine d vf).out = s.out := rfl
@[simp] theorem State.modEngine_mem : (s.modEngine d vf).mem = s.mem := rfl
@[simp] theorem State.modEngine_owners : (s.modEngine d vf).owners = s.owners := rfl
@[simp] theorem State.modEngine_clusters : (s.modEngine d vf).clusters = s.clusters := rfl
@[simp] theorem State.modEngine_cores : (s.modEngine d vf).cores = s.cores := rfl
@[simp] theorem State.modEngine_parts : (s.modEngine d vf).parts = s.parts := rfl
@[simp] theorem State.modEngine_csi : (s.modEngine d vf).csi = s.csi := rfl
@[simp] theorem State.modEngine_i3c : (s.modEngine d vf).i3c = s.i3c := rfl
@[simp] theorem State.modEngine_orders : (s.modEngine d vf).orders = s.orders := rfl
@[simp] theorem State.modEngine_links : (s.modEngine d vf).links = s.links := rfl
@[simp] theorem State.modEngine_inbox : (s.modEngine d vf).inbox = s.inbox := rfl
@[simp] theorem State.modEngine_plan : (s.modEngine d vf).plan = s.plan := rfl
@[simp] theorem State.modEngine_requests : (s.modEngine d vf).requests = s.requests := rfl
@[simp] theorem State.modEngine_nextTag : (s.modEngine d vf).nextTag = s.nextTag := rfl
@[simp] theorem State.modEngine_lanes : (s.modEngine d vf).lanes = s.lanes := rfl
@[simp] theorem State.modEngine_time : (s.modEngine d vf).time = s.time := rfl
@[simp] theorem State.modEngine_power : (s.modEngine d vf).power = s.power := rfl
@[simp] theorem State.modEngine_thermal : (s.modEngine d vf).thermal = s.thermal := rfl
@[simp] theorem State.modEngine_fuses : (s.modEngine d vf).fuses = s.fuses := rfl
@[simp] theorem State.modEngine_security : (s.modEngine d vf).security = s.security := rfl
@[simp] theorem State.modEngine_fw : (s.modEngine d vf).fw = s.fw := rfl
@[simp] theorem State.modEngine_events : (s.modEngine d vf).events = s.events := rfl

/-! `modRx` -/
@[simp] theorem State.modRx_pending : (s.modRx n rf).pending = s.pending := rfl
@[simp] theorem State.modRx_now : (s.modRx n rf).now = s.now := rfl
@[simp] theorem State.modRx_fresh : (s.modRx n rf).fresh = s.fresh := rfl
@[simp] theorem State.modRx_out : (s.modRx n rf).out = s.out := rfl
@[simp] theorem State.modRx_mem : (s.modRx n rf).mem = s.mem := rfl
@[simp] theorem State.modRx_owners : (s.modRx n rf).owners = s.owners := rfl
@[simp] theorem State.modRx_clusters : (s.modRx n rf).clusters = s.clusters := rfl
@[simp] theorem State.modRx_cores : (s.modRx n rf).cores = s.cores := rfl
@[simp] theorem State.modRx_parts : (s.modRx n rf).parts = s.parts := rfl
@[simp] theorem State.modRx_video : (s.modRx n rf).video = s.video := rfl
@[simp] theorem State.modRx_i3c : (s.modRx n rf).i3c = s.i3c := rfl
@[simp] theorem State.modRx_orders : (s.modRx n rf).orders = s.orders := rfl
@[simp] theorem State.modRx_links : (s.modRx n rf).links = s.links := rfl
@[simp] theorem State.modRx_inbox : (s.modRx n rf).inbox = s.inbox := rfl
@[simp] theorem State.modRx_plan : (s.modRx n rf).plan = s.plan := rfl
@[simp] theorem State.modRx_requests : (s.modRx n rf).requests = s.requests := rfl
@[simp] theorem State.modRx_nextTag : (s.modRx n rf).nextTag = s.nextTag := rfl
@[simp] theorem State.modRx_lanes : (s.modRx n rf).lanes = s.lanes := rfl
@[simp] theorem State.modRx_time : (s.modRx n rf).time = s.time := rfl
@[simp] theorem State.modRx_power : (s.modRx n rf).power = s.power := rfl
@[simp] theorem State.modRx_thermal : (s.modRx n rf).thermal = s.thermal := rfl
@[simp] theorem State.modRx_fuses : (s.modRx n rf).fuses = s.fuses := rfl
@[simp] theorem State.modRx_security : (s.modRx n rf).security = s.security := rfl
@[simp] theorem State.modRx_fw : (s.modRx n rf).fw = s.fw := rfl
@[simp] theorem State.modRx_events : (s.modRx n rf).events = s.events := rfl

/-! `modTx` -/
@[simp] theorem State.modTx_pending : (s.modTx n tf).pending = s.pending := rfl
@[simp] theorem State.modTx_now : (s.modTx n tf).now = s.now := rfl
@[simp] theorem State.modTx_fresh : (s.modTx n tf).fresh = s.fresh := rfl
@[simp] theorem State.modTx_out : (s.modTx n tf).out = s.out := rfl
@[simp] theorem State.modTx_mem : (s.modTx n tf).mem = s.mem := rfl
@[simp] theorem State.modTx_owners : (s.modTx n tf).owners = s.owners := rfl
@[simp] theorem State.modTx_clusters : (s.modTx n tf).clusters = s.clusters := rfl
@[simp] theorem State.modTx_cores : (s.modTx n tf).cores = s.cores := rfl
@[simp] theorem State.modTx_parts : (s.modTx n tf).parts = s.parts := rfl
@[simp] theorem State.modTx_video : (s.modTx n tf).video = s.video := rfl
@[simp] theorem State.modTx_i3c : (s.modTx n tf).i3c = s.i3c := rfl
@[simp] theorem State.modTx_orders : (s.modTx n tf).orders = s.orders := rfl
@[simp] theorem State.modTx_links : (s.modTx n tf).links = s.links := rfl
@[simp] theorem State.modTx_inbox : (s.modTx n tf).inbox = s.inbox := rfl
@[simp] theorem State.modTx_plan : (s.modTx n tf).plan = s.plan := rfl
@[simp] theorem State.modTx_requests : (s.modTx n tf).requests = s.requests := rfl
@[simp] theorem State.modTx_nextTag : (s.modTx n tf).nextTag = s.nextTag := rfl
@[simp] theorem State.modTx_lanes : (s.modTx n tf).lanes = s.lanes := rfl
@[simp] theorem State.modTx_time : (s.modTx n tf).time = s.time := rfl
@[simp] theorem State.modTx_power : (s.modTx n tf).power = s.power := rfl
@[simp] theorem State.modTx_thermal : (s.modTx n tf).thermal = s.thermal := rfl
@[simp] theorem State.modTx_fuses : (s.modTx n tf).fuses = s.fuses := rfl
@[simp] theorem State.modTx_security : (s.modTx n tf).security = s.security := rfl
@[simp] theorem State.modTx_fw : (s.modTx n tf).fw = s.fw := rfl
@[simp] theorem State.modTx_events : (s.modTx n tf).events = s.events := rfl

/-! `modPower` -/
@[simp] theorem State.modPower_pending : (s.modPower wf).pending = s.pending := rfl
@[simp] theorem State.modPower_now : (s.modPower wf).now = s.now := rfl
@[simp] theorem State.modPower_fresh : (s.modPower wf).fresh = s.fresh := rfl
@[simp] theorem State.modPower_out : (s.modPower wf).out = s.out := rfl
@[simp] theorem State.modPower_mem : (s.modPower wf).mem = s.mem := rfl
@[simp] theorem State.modPower_owners : (s.modPower wf).owners = s.owners := rfl
@[simp] theorem State.modPower_clusters : (s.modPower wf).clusters = s.clusters := rfl
@[simp] theorem State.modPower_cores : (s.modPower wf).cores = s.cores := rfl
@[simp] theorem State.modPower_parts : (s.modPower wf).parts = s.parts := rfl
@[simp] theorem State.modPower_video : (s.modPower wf).video = s.video := rfl
@[simp] theorem State.modPower_csi : (s.modPower wf).csi = s.csi := rfl
@[simp] theorem State.modPower_i3c : (s.modPower wf).i3c = s.i3c := rfl
@[simp] theorem State.modPower_orders : (s.modPower wf).orders = s.orders := rfl
@[simp] theorem State.modPower_links : (s.modPower wf).links = s.links := rfl
@[simp] theorem State.modPower_inbox : (s.modPower wf).inbox = s.inbox := rfl
@[simp] theorem State.modPower_plan : (s.modPower wf).plan = s.plan := rfl
@[simp] theorem State.modPower_requests : (s.modPower wf).requests = s.requests := rfl
@[simp] theorem State.modPower_nextTag : (s.modPower wf).nextTag = s.nextTag := rfl
@[simp] theorem State.modPower_lanes : (s.modPower wf).lanes = s.lanes := rfl
@[simp] theorem State.modPower_time : (s.modPower wf).time = s.time := rfl
@[simp] theorem State.modPower_power : (s.modPower wf).power = wf s.power := rfl
@[simp] theorem State.modPower_thermal : (s.modPower wf).thermal = s.thermal := rfl
@[simp] theorem State.modPower_fuses : (s.modPower wf).fuses = s.fuses := rfl
@[simp] theorem State.modPower_security : (s.modPower wf).security = s.security := rfl
@[simp] theorem State.modPower_fw : (s.modPower wf).fw = s.fw := rfl
@[simp] theorem State.modPower_events : (s.modPower wf).events = s.events := rfl

/-! `modThermal` -/
@[simp] theorem State.modThermal_pending : (s.modThermal hf).pending = s.pending := rfl
@[simp] theorem State.modThermal_now : (s.modThermal hf).now = s.now := rfl
@[simp] theorem State.modThermal_fresh : (s.modThermal hf).fresh = s.fresh := rfl
@[simp] theorem State.modThermal_out : (s.modThermal hf).out = s.out := rfl
@[simp] theorem State.modThermal_mem : (s.modThermal hf).mem = s.mem := rfl
@[simp] theorem State.modThermal_owners : (s.modThermal hf).owners = s.owners := rfl
@[simp] theorem State.modThermal_clusters : (s.modThermal hf).clusters = s.clusters := rfl
@[simp] theorem State.modThermal_cores : (s.modThermal hf).cores = s.cores := rfl
@[simp] theorem State.modThermal_parts : (s.modThermal hf).parts = s.parts := rfl
@[simp] theorem State.modThermal_video : (s.modThermal hf).video = s.video := rfl
@[simp] theorem State.modThermal_csi : (s.modThermal hf).csi = s.csi := rfl
@[simp] theorem State.modThermal_i3c : (s.modThermal hf).i3c = s.i3c := rfl
@[simp] theorem State.modThermal_orders : (s.modThermal hf).orders = s.orders := rfl
@[simp] theorem State.modThermal_links : (s.modThermal hf).links = s.links := rfl
@[simp] theorem State.modThermal_inbox : (s.modThermal hf).inbox = s.inbox := rfl
@[simp] theorem State.modThermal_plan : (s.modThermal hf).plan = s.plan := rfl
@[simp] theorem State.modThermal_requests : (s.modThermal hf).requests = s.requests := rfl
@[simp] theorem State.modThermal_nextTag : (s.modThermal hf).nextTag = s.nextTag := rfl
@[simp] theorem State.modThermal_lanes : (s.modThermal hf).lanes = s.lanes := rfl
@[simp] theorem State.modThermal_time : (s.modThermal hf).time = s.time := rfl
@[simp] theorem State.modThermal_power : (s.modThermal hf).power = s.power := rfl
@[simp] theorem State.modThermal_thermal : (s.modThermal hf).thermal = hf s.thermal := rfl
@[simp] theorem State.modThermal_fuses : (s.modThermal hf).fuses = s.fuses := rfl
@[simp] theorem State.modThermal_security : (s.modThermal hf).security = s.security := rfl
@[simp] theorem State.modThermal_fw : (s.modThermal hf).fw = s.fw := rfl
@[simp] theorem State.modThermal_events : (s.modThermal hf).events = s.events := rfl

/-! `modTime` -/
@[simp] theorem State.modTime_pending : (s.modTime uf).pending = s.pending := rfl
@[simp] theorem State.modTime_now : (s.modTime uf).now = s.now := rfl
@[simp] theorem State.modTime_fresh : (s.modTime uf).fresh = s.fresh := rfl
@[simp] theorem State.modTime_out : (s.modTime uf).out = s.out := rfl
@[simp] theorem State.modTime_mem : (s.modTime uf).mem = s.mem := rfl
@[simp] theorem State.modTime_owners : (s.modTime uf).owners = s.owners := rfl
@[simp] theorem State.modTime_clusters : (s.modTime uf).clusters = s.clusters := rfl
@[simp] theorem State.modTime_cores : (s.modTime uf).cores = s.cores := rfl
@[simp] theorem State.modTime_parts : (s.modTime uf).parts = s.parts := rfl
@[simp] theorem State.modTime_video : (s.modTime uf).video = s.video := rfl
@[simp] theorem State.modTime_csi : (s.modTime uf).csi = s.csi := rfl
@[simp] theorem State.modTime_i3c : (s.modTime uf).i3c = s.i3c := rfl
@[simp] theorem State.modTime_orders : (s.modTime uf).orders = s.orders := rfl
@[simp] theorem State.modTime_links : (s.modTime uf).links = s.links := rfl
@[simp] theorem State.modTime_inbox : (s.modTime uf).inbox = s.inbox := rfl
@[simp] theorem State.modTime_plan : (s.modTime uf).plan = s.plan := rfl
@[simp] theorem State.modTime_requests : (s.modTime uf).requests = s.requests := rfl
@[simp] theorem State.modTime_nextTag : (s.modTime uf).nextTag = s.nextTag := rfl
@[simp] theorem State.modTime_lanes : (s.modTime uf).lanes = s.lanes := rfl
@[simp] theorem State.modTime_time : (s.modTime uf).time = uf s.time := rfl
@[simp] theorem State.modTime_power : (s.modTime uf).power = s.power := rfl
@[simp] theorem State.modTime_thermal : (s.modTime uf).thermal = s.thermal := rfl
@[simp] theorem State.modTime_fuses : (s.modTime uf).fuses = s.fuses := rfl
@[simp] theorem State.modTime_security : (s.modTime uf).security = s.security := rfl
@[simp] theorem State.modTime_fw : (s.modTime uf).fw = s.fw := rfl
@[simp] theorem State.modTime_events : (s.modTime uf).events = s.events := rfl

/-! `modOrders` -/
@[simp] theorem State.modOrders_pending : (s.modOrders orf).pending = s.pending := rfl
@[simp] theorem State.modOrders_now : (s.modOrders orf).now = s.now := rfl
@[simp] theorem State.modOrders_fresh : (s.modOrders orf).fresh = s.fresh := rfl
@[simp] theorem State.modOrders_out : (s.modOrders orf).out = s.out := rfl
@[simp] theorem State.modOrders_mem : (s.modOrders orf).mem = s.mem := rfl
@[simp] theorem State.modOrders_owners : (s.modOrders orf).owners = s.owners := rfl
@[simp] theorem State.modOrders_clusters : (s.modOrders orf).clusters = s.clusters := rfl
@[simp] theorem State.modOrders_cores : (s.modOrders orf).cores = s.cores := rfl
@[simp] theorem State.modOrders_parts : (s.modOrders orf).parts = s.parts := rfl
@[simp] theorem State.modOrders_video : (s.modOrders orf).video = s.video := rfl
@[simp] theorem State.modOrders_csi : (s.modOrders orf).csi = s.csi := rfl
@[simp] theorem State.modOrders_i3c : (s.modOrders orf).i3c = s.i3c := rfl
@[simp] theorem State.modOrders_orders : (s.modOrders orf).orders = orf s.orders := rfl
@[simp] theorem State.modOrders_links : (s.modOrders orf).links = s.links := rfl
@[simp] theorem State.modOrders_inbox : (s.modOrders orf).inbox = s.inbox := rfl
@[simp] theorem State.modOrders_plan : (s.modOrders orf).plan = s.plan := rfl
@[simp] theorem State.modOrders_requests : (s.modOrders orf).requests = s.requests := rfl
@[simp] theorem State.modOrders_nextTag : (s.modOrders orf).nextTag = s.nextTag := rfl
@[simp] theorem State.modOrders_lanes : (s.modOrders orf).lanes = s.lanes := rfl
@[simp] theorem State.modOrders_time : (s.modOrders orf).time = s.time := rfl
@[simp] theorem State.modOrders_power : (s.modOrders orf).power = s.power := rfl
@[simp] theorem State.modOrders_thermal : (s.modOrders orf).thermal = s.thermal := rfl
@[simp] theorem State.modOrders_fuses : (s.modOrders orf).fuses = s.fuses := rfl
@[simp] theorem State.modOrders_security : (s.modOrders orf).security = s.security := rfl
@[simp] theorem State.modOrders_fw : (s.modOrders orf).fw = s.fw := rfl
@[simp] theorem State.modOrders_events : (s.modOrders orf).events = s.events := rfl

/-! `modSecurity` -/
@[simp] theorem State.modSecurity_pending : (s.modSecurity sf).pending = s.pending := rfl
@[simp] theorem State.modSecurity_now : (s.modSecurity sf).now = s.now := rfl
@[simp] theorem State.modSecurity_fresh : (s.modSecurity sf).fresh = s.fresh := rfl
@[simp] theorem State.modSecurity_out : (s.modSecurity sf).out = s.out := rfl
@[simp] theorem State.modSecurity_mem : (s.modSecurity sf).mem = s.mem := rfl
@[simp] theorem State.modSecurity_owners : (s.modSecurity sf).owners = s.owners := rfl
@[simp] theorem State.modSecurity_clusters : (s.modSecurity sf).clusters = s.clusters := rfl
@[simp] theorem State.modSecurity_cores : (s.modSecurity sf).cores = s.cores := rfl
@[simp] theorem State.modSecurity_parts : (s.modSecurity sf).parts = s.parts := rfl
@[simp] theorem State.modSecurity_video : (s.modSecurity sf).video = s.video := rfl
@[simp] theorem State.modSecurity_csi : (s.modSecurity sf).csi = s.csi := rfl
@[simp] theorem State.modSecurity_i3c : (s.modSecurity sf).i3c = s.i3c := rfl
@[simp] theorem State.modSecurity_orders : (s.modSecurity sf).orders = s.orders := rfl
@[simp] theorem State.modSecurity_links : (s.modSecurity sf).links = s.links := rfl
@[simp] theorem State.modSecurity_inbox : (s.modSecurity sf).inbox = s.inbox := rfl
@[simp] theorem State.modSecurity_plan : (s.modSecurity sf).plan = s.plan := rfl
@[simp] theorem State.modSecurity_requests : (s.modSecurity sf).requests = s.requests := rfl
@[simp] theorem State.modSecurity_nextTag : (s.modSecurity sf).nextTag = s.nextTag := rfl
@[simp] theorem State.modSecurity_lanes : (s.modSecurity sf).lanes = s.lanes := rfl
@[simp] theorem State.modSecurity_time : (s.modSecurity sf).time = s.time := rfl
@[simp] theorem State.modSecurity_power : (s.modSecurity sf).power = s.power := rfl
@[simp] theorem State.modSecurity_thermal : (s.modSecurity sf).thermal = s.thermal := rfl
@[simp] theorem State.modSecurity_fuses : (s.modSecurity sf).fuses = s.fuses := rfl
@[simp] theorem State.modSecurity_security : (s.modSecurity sf).security = sf s.security := rfl
@[simp] theorem State.modSecurity_fw : (s.modSecurity sf).fw = s.fw := rfl
@[simp] theorem State.modSecurity_events : (s.modSecurity sf).events = s.events := rfl

/-! `modFw` -/
@[simp] theorem State.modFw_pending : (s.modFw ff).pending = s.pending := rfl
@[simp] theorem State.modFw_now : (s.modFw ff).now = s.now := rfl
@[simp] theorem State.modFw_fresh : (s.modFw ff).fresh = s.fresh := rfl
@[simp] theorem State.modFw_out : (s.modFw ff).out = s.out := rfl
@[simp] theorem State.modFw_mem : (s.modFw ff).mem = s.mem := rfl
@[simp] theorem State.modFw_owners : (s.modFw ff).owners = s.owners := rfl
@[simp] theorem State.modFw_clusters : (s.modFw ff).clusters = s.clusters := rfl
@[simp] theorem State.modFw_cores : (s.modFw ff).cores = s.cores := rfl
@[simp] theorem State.modFw_parts : (s.modFw ff).parts = s.parts := rfl
@[simp] theorem State.modFw_video : (s.modFw ff).video = s.video := rfl
@[simp] theorem State.modFw_csi : (s.modFw ff).csi = s.csi := rfl
@[simp] theorem State.modFw_i3c : (s.modFw ff).i3c = s.i3c := rfl
@[simp] theorem State.modFw_orders : (s.modFw ff).orders = s.orders := rfl
@[simp] theorem State.modFw_links : (s.modFw ff).links = s.links := rfl
@[simp] theorem State.modFw_inbox : (s.modFw ff).inbox = s.inbox := rfl
@[simp] theorem State.modFw_plan : (s.modFw ff).plan = s.plan := rfl
@[simp] theorem State.modFw_requests : (s.modFw ff).requests = s.requests := rfl
@[simp] theorem State.modFw_nextTag : (s.modFw ff).nextTag = s.nextTag := rfl
@[simp] theorem State.modFw_lanes : (s.modFw ff).lanes = s.lanes := rfl
@[simp] theorem State.modFw_time : (s.modFw ff).time = s.time := rfl
@[simp] theorem State.modFw_power : (s.modFw ff).power = s.power := rfl
@[simp] theorem State.modFw_thermal : (s.modFw ff).thermal = s.thermal := rfl
@[simp] theorem State.modFw_fuses : (s.modFw ff).fuses = s.fuses := rfl
@[simp] theorem State.modFw_security : (s.modFw ff).security = s.security := rfl
@[simp] theorem State.modFw_fw : (s.modFw ff).fw = ff s.fw := rfl
@[simp] theorem State.modFw_events : (s.modFw ff).events = s.events := rfl

/-! `modEvents` -/
@[simp] theorem State.modEvents_pending : (s.modEvents ef).pending = s.pending := rfl
@[simp] theorem State.modEvents_now : (s.modEvents ef).now = s.now := rfl
@[simp] theorem State.modEvents_fresh : (s.modEvents ef).fresh = s.fresh := rfl
@[simp] theorem State.modEvents_out : (s.modEvents ef).out = s.out := rfl
@[simp] theorem State.modEvents_mem : (s.modEvents ef).mem = s.mem := rfl
@[simp] theorem State.modEvents_owners : (s.modEvents ef).owners = s.owners := rfl
@[simp] theorem State.modEvents_clusters : (s.modEvents ef).clusters = s.clusters := rfl
@[simp] theorem State.modEvents_cores : (s.modEvents ef).cores = s.cores := rfl
@[simp] theorem State.modEvents_parts : (s.modEvents ef).parts = s.parts := rfl
@[simp] theorem State.modEvents_video : (s.modEvents ef).video = s.video := rfl
@[simp] theorem State.modEvents_csi : (s.modEvents ef).csi = s.csi := rfl
@[simp] theorem State.modEvents_i3c : (s.modEvents ef).i3c = s.i3c := rfl
@[simp] theorem State.modEvents_orders : (s.modEvents ef).orders = s.orders := rfl
@[simp] theorem State.modEvents_links : (s.modEvents ef).links = s.links := rfl
@[simp] theorem State.modEvents_inbox : (s.modEvents ef).inbox = s.inbox := rfl
@[simp] theorem State.modEvents_plan : (s.modEvents ef).plan = s.plan := rfl
@[simp] theorem State.modEvents_requests : (s.modEvents ef).requests = s.requests := rfl
@[simp] theorem State.modEvents_nextTag : (s.modEvents ef).nextTag = s.nextTag := rfl
@[simp] theorem State.modEvents_lanes : (s.modEvents ef).lanes = s.lanes := rfl
@[simp] theorem State.modEvents_time : (s.modEvents ef).time = s.time := rfl
@[simp] theorem State.modEvents_power : (s.modEvents ef).power = s.power := rfl
@[simp] theorem State.modEvents_thermal : (s.modEvents ef).thermal = s.thermal := rfl
@[simp] theorem State.modEvents_fuses : (s.modEvents ef).fuses = s.fuses := rfl
@[simp] theorem State.modEvents_security : (s.modEvents ef).security = s.security := rfl
@[simp] theorem State.modEvents_fw : (s.modEvents ef).fw = s.fw := rfl
@[simp] theorem State.modEvents_events : (s.modEvents ef).events = ef s.events := rfl

/-! `modCsi` -/
@[simp] theorem State.modCsi_pending : (s.modCsi csf).pending = s.pending := rfl
@[simp] theorem State.modCsi_now : (s.modCsi csf).now = s.now := rfl
@[simp] theorem State.modCsi_fresh : (s.modCsi csf).fresh = s.fresh := rfl
@[simp] theorem State.modCsi_out : (s.modCsi csf).out = s.out := rfl
@[simp] theorem State.modCsi_mem : (s.modCsi csf).mem = s.mem := rfl
@[simp] theorem State.modCsi_owners : (s.modCsi csf).owners = s.owners := rfl
@[simp] theorem State.modCsi_clusters : (s.modCsi csf).clusters = s.clusters := rfl
@[simp] theorem State.modCsi_cores : (s.modCsi csf).cores = s.cores := rfl
@[simp] theorem State.modCsi_parts : (s.modCsi csf).parts = s.parts := rfl
@[simp] theorem State.modCsi_video : (s.modCsi csf).video = s.video := rfl
@[simp] theorem State.modCsi_csi : (s.modCsi csf).csi = csf s.csi := rfl
@[simp] theorem State.modCsi_i3c : (s.modCsi csf).i3c = s.i3c := rfl
@[simp] theorem State.modCsi_orders : (s.modCsi csf).orders = s.orders := rfl
@[simp] theorem State.modCsi_links : (s.modCsi csf).links = s.links := rfl
@[simp] theorem State.modCsi_inbox : (s.modCsi csf).inbox = s.inbox := rfl
@[simp] theorem State.modCsi_plan : (s.modCsi csf).plan = s.plan := rfl
@[simp] theorem State.modCsi_requests : (s.modCsi csf).requests = s.requests := rfl
@[simp] theorem State.modCsi_nextTag : (s.modCsi csf).nextTag = s.nextTag := rfl
@[simp] theorem State.modCsi_lanes : (s.modCsi csf).lanes = s.lanes := rfl
@[simp] theorem State.modCsi_time : (s.modCsi csf).time = s.time := rfl
@[simp] theorem State.modCsi_power : (s.modCsi csf).power = s.power := rfl
@[simp] theorem State.modCsi_thermal : (s.modCsi csf).thermal = s.thermal := rfl
@[simp] theorem State.modCsi_fuses : (s.modCsi csf).fuses = s.fuses := rfl
@[simp] theorem State.modCsi_security : (s.modCsi csf).security = s.security := rfl
@[simp] theorem State.modCsi_fw : (s.modCsi csf).fw = s.fw := rfl
@[simp] theorem State.modCsi_events : (s.modCsi csf).events = s.events := rfl

/-! `modLanes` -/
@[simp] theorem State.modLanes_pending : (s.modLanes laf).pending = s.pending := rfl
@[simp] theorem State.modLanes_now : (s.modLanes laf).now = s.now := rfl
@[simp] theorem State.modLanes_fresh : (s.modLanes laf).fresh = s.fresh := rfl
@[simp] theorem State.modLanes_out : (s.modLanes laf).out = s.out := rfl
@[simp] theorem State.modLanes_mem : (s.modLanes laf).mem = s.mem := rfl
@[simp] theorem State.modLanes_owners : (s.modLanes laf).owners = s.owners := rfl
@[simp] theorem State.modLanes_clusters : (s.modLanes laf).clusters = s.clusters := rfl
@[simp] theorem State.modLanes_cores : (s.modLanes laf).cores = s.cores := rfl
@[simp] theorem State.modLanes_parts : (s.modLanes laf).parts = s.parts := rfl
@[simp] theorem State.modLanes_video : (s.modLanes laf).video = s.video := rfl
@[simp] theorem State.modLanes_csi : (s.modLanes laf).csi = s.csi := rfl
@[simp] theorem State.modLanes_i3c : (s.modLanes laf).i3c = s.i3c := rfl
@[simp] theorem State.modLanes_orders : (s.modLanes laf).orders = s.orders := rfl
@[simp] theorem State.modLanes_links : (s.modLanes laf).links = s.links := rfl
@[simp] theorem State.modLanes_inbox : (s.modLanes laf).inbox = s.inbox := rfl
@[simp] theorem State.modLanes_plan : (s.modLanes laf).plan = s.plan := rfl
@[simp] theorem State.modLanes_requests : (s.modLanes laf).requests = s.requests := rfl
@[simp] theorem State.modLanes_nextTag : (s.modLanes laf).nextTag = s.nextTag := rfl
@[simp] theorem State.modLanes_lanes : (s.modLanes laf).lanes = laf s.lanes := rfl
@[simp] theorem State.modLanes_time : (s.modLanes laf).time = s.time := rfl
@[simp] theorem State.modLanes_power : (s.modLanes laf).power = s.power := rfl
@[simp] theorem State.modLanes_thermal : (s.modLanes laf).thermal = s.thermal := rfl
@[simp] theorem State.modLanes_fuses : (s.modLanes laf).fuses = s.fuses := rfl
@[simp] theorem State.modLanes_security : (s.modLanes laf).security = s.security := rfl
@[simp] theorem State.modLanes_fw : (s.modLanes laf).fw = s.fw := rfl
@[simp] theorem State.modLanes_events : (s.modLanes laf).events = s.events := rfl

/-! `emit` -/
@[simp] theorem State.emit_pending : (s.emit o).pending = s.pending := rfl
@[simp] theorem State.emit_now : (s.emit o).now = s.now := rfl
@[simp] theorem State.emit_fresh : (s.emit o).fresh = s.fresh := rfl
@[simp] theorem State.emit_out : (s.emit o).out = s.out ++ [o] := rfl
@[simp] theorem State.emit_mem : (s.emit o).mem = s.mem := rfl
@[simp] theorem State.emit_owners : (s.emit o).owners = s.owners := rfl
@[simp] theorem State.emit_clusters : (s.emit o).clusters = s.clusters := rfl
@[simp] theorem State.emit_cores : (s.emit o).cores = s.cores := rfl
@[simp] theorem State.emit_parts : (s.emit o).parts = s.parts := rfl
@[simp] theorem State.emit_video : (s.emit o).video = s.video := rfl
@[simp] theorem State.emit_csi : (s.emit o).csi = s.csi := rfl
@[simp] theorem State.emit_i3c : (s.emit o).i3c = s.i3c := rfl
@[simp] theorem State.emit_orders : (s.emit o).orders = s.orders := rfl
@[simp] theorem State.emit_links : (s.emit o).links = s.links := rfl
@[simp] theorem State.emit_inbox : (s.emit o).inbox = s.inbox := rfl
@[simp] theorem State.emit_plan : (s.emit o).plan = s.plan := rfl
@[simp] theorem State.emit_requests : (s.emit o).requests = s.requests := rfl
@[simp] theorem State.emit_nextTag : (s.emit o).nextTag = s.nextTag := rfl
@[simp] theorem State.emit_lanes : (s.emit o).lanes = s.lanes := rfl
@[simp] theorem State.emit_time : (s.emit o).time = s.time := rfl
@[simp] theorem State.emit_power : (s.emit o).power = s.power := rfl
@[simp] theorem State.emit_thermal : (s.emit o).thermal = s.thermal := rfl
@[simp] theorem State.emit_fuses : (s.emit o).fuses = s.fuses := rfl
@[simp] theorem State.emit_security : (s.emit o).security = s.security := rfl
@[simp] theorem State.emit_fw : (s.emit o).fw = s.fw := rfl
@[simp] theorem State.emit_events : (s.emit o).events = s.events := rfl

/-! `reach` -/
@[simp] theorem State.reach_pending : (s.reach u).pending = s.pending := rfl
@[simp] theorem State.reach_now : (s.reach u).now = max s.now u := rfl
@[simp] theorem State.reach_fresh : (s.reach u).fresh = s.fresh := rfl
@[simp] theorem State.reach_out : (s.reach u).out = s.out := rfl
@[simp] theorem State.reach_mem : (s.reach u).mem = s.mem := rfl
@[simp] theorem State.reach_owners : (s.reach u).owners = s.owners := rfl
@[simp] theorem State.reach_clusters : (s.reach u).clusters = s.clusters := rfl
@[simp] theorem State.reach_cores : (s.reach u).cores = s.cores := rfl
@[simp] theorem State.reach_parts : (s.reach u).parts = s.parts := rfl
@[simp] theorem State.reach_video : (s.reach u).video = s.video := rfl
@[simp] theorem State.reach_csi : (s.reach u).csi = s.csi := rfl
@[simp] theorem State.reach_i3c : (s.reach u).i3c = s.i3c := rfl
@[simp] theorem State.reach_orders : (s.reach u).orders = s.orders := rfl
@[simp] theorem State.reach_links : (s.reach u).links = s.links := rfl
@[simp] theorem State.reach_inbox : (s.reach u).inbox = s.inbox := rfl
@[simp] theorem State.reach_plan : (s.reach u).plan = s.plan := rfl
@[simp] theorem State.reach_requests : (s.reach u).requests = s.requests := rfl
@[simp] theorem State.reach_nextTag : (s.reach u).nextTag = s.nextTag := rfl
@[simp] theorem State.reach_lanes : (s.reach u).lanes = s.lanes := rfl
@[simp] theorem State.reach_time : (s.reach u).time = s.time := rfl
@[simp] theorem State.reach_power : (s.reach u).power = s.power := rfl
@[simp] theorem State.reach_thermal : (s.reach u).thermal = s.thermal := rfl
@[simp] theorem State.reach_fuses : (s.reach u).fuses = s.fuses := rfl
@[simp] theorem State.reach_security : (s.reach u).security = s.security := rfl
@[simp] theorem State.reach_fw : (s.reach u).fw = s.fw := rfl
@[simp] theorem State.reach_events : (s.reach u).events = s.events := rfl

/-! `reachStamp` -/
@[simp] theorem State.reachStamp_pending : (s.reachStamp u).pending = s.pending := rfl
@[simp] theorem State.reachStamp_fresh : (s.reachStamp u).fresh = s.fresh := rfl
@[simp] theorem State.reachStamp_out : (s.reachStamp u).out = s.out := rfl
@[simp] theorem State.reachStamp_mem : (s.reachStamp u).mem = s.mem := rfl
@[simp] theorem State.reachStamp_owners : (s.reachStamp u).owners = s.owners := rfl
@[simp] theorem State.reachStamp_clusters : (s.reachStamp u).clusters = s.clusters := rfl
@[simp] theorem State.reachStamp_cores : (s.reachStamp u).cores = s.cores := rfl
@[simp] theorem State.reachStamp_parts : (s.reachStamp u).parts = s.parts := rfl
@[simp] theorem State.reachStamp_video : (s.reachStamp u).video = s.video := rfl
@[simp] theorem State.reachStamp_csi : (s.reachStamp u).csi = s.csi := rfl
@[simp] theorem State.reachStamp_i3c : (s.reachStamp u).i3c = s.i3c := rfl
@[simp] theorem State.reachStamp_orders : (s.reachStamp u).orders = s.orders := rfl
@[simp] theorem State.reachStamp_links : (s.reachStamp u).links = s.links := rfl
@[simp] theorem State.reachStamp_inbox : (s.reachStamp u).inbox = s.inbox := rfl
@[simp] theorem State.reachStamp_plan : (s.reachStamp u).plan = s.plan := rfl
@[simp] theorem State.reachStamp_requests : (s.reachStamp u).requests = s.requests := rfl
@[simp] theorem State.reachStamp_nextTag : (s.reachStamp u).nextTag = s.nextTag := rfl
@[simp] theorem State.reachStamp_lanes : (s.reachStamp u).lanes = s.lanes := rfl
@[simp] theorem State.reachStamp_time : (s.reachStamp u).time = s.time := rfl
@[simp] theorem State.reachStamp_power : (s.reachStamp u).power = s.power := rfl
@[simp] theorem State.reachStamp_thermal : (s.reachStamp u).thermal = s.thermal := rfl
@[simp] theorem State.reachStamp_fuses : (s.reachStamp u).fuses = s.fuses := rfl
@[simp] theorem State.reachStamp_security : (s.reachStamp u).security = s.security := rfl
@[simp] theorem State.reachStamp_fw : (s.reachStamp u).fw = s.fw := rfl
@[simp] theorem State.reachStamp_events : (s.reachStamp u).events = s.events := rfl

/-! `draw` -/
@[simp] theorem State.draw_pending : (s.draw.2).pending = s.pending := rfl
@[simp] theorem State.draw_now : (s.draw.2).now = s.now := rfl
@[simp] theorem State.draw_fresh : s.draw.2.fresh = s.fresh + 1 := rfl
@[simp] theorem State.draw_out : (s.draw.2).out = s.out := rfl
@[simp] theorem State.draw_mem : (s.draw.2).mem = s.mem := rfl
@[simp] theorem State.draw_owners : (s.draw.2).owners = s.owners := rfl
@[simp] theorem State.draw_clusters : (s.draw.2).clusters = s.clusters := rfl
@[simp] theorem State.draw_cores : (s.draw.2).cores = s.cores := rfl
@[simp] theorem State.draw_parts : (s.draw.2).parts = s.parts := rfl
@[simp] theorem State.draw_video : (s.draw.2).video = s.video := rfl
@[simp] theorem State.draw_csi : (s.draw.2).csi = s.csi := rfl
@[simp] theorem State.draw_i3c : (s.draw.2).i3c = s.i3c := rfl
@[simp] theorem State.draw_orders : (s.draw.2).orders = s.orders := rfl
@[simp] theorem State.draw_links : (s.draw.2).links = s.links := rfl
@[simp] theorem State.draw_inbox : (s.draw.2).inbox = s.inbox := rfl
@[simp] theorem State.draw_plan : (s.draw.2).plan = s.plan := rfl
@[simp] theorem State.draw_requests : (s.draw.2).requests = s.requests := rfl
@[simp] theorem State.draw_nextTag : (s.draw.2).nextTag = s.nextTag := rfl
@[simp] theorem State.draw_lanes : (s.draw.2).lanes = s.lanes := rfl
@[simp] theorem State.draw_time : (s.draw.2).time = s.time := rfl
@[simp] theorem State.draw_power : (s.draw.2).power = s.power := rfl
@[simp] theorem State.draw_thermal : (s.draw.2).thermal = s.thermal := rfl
@[simp] theorem State.draw_fuses : (s.draw.2).fuses = s.fuses := rfl
@[simp] theorem State.draw_security : (s.draw.2).security = s.security := rfl
@[simp] theorem State.draw_fw : (s.draw.2).fw = s.fw := rfl
@[simp] theorem State.draw_events : (s.draw.2).events = s.events := rfl

/-! Reading a vector that was written -/
theorem vget_set_self {α : Type} {m : Nat} (a : Vector α m) (j : Fin m) (y : α) : (a.set j.val y j.isLt).get j = y := by
  rw [show (a.set j.val y j.isLt).get j = (a.set j.val y j.isLt)[j.val] from rfl]; simp
theorem vget_set_ne {α : Type} {m : Nat} (a : Vector α m) (j j' : Fin m) (y : α) (h : j ≠ j') :
    (a.set j.val y j.isLt).get j' = a.get j' := by
  rw [show (a.set j.val y j.isLt).get j' = (a.set j.val y j.isLt)[j'.val] from rfl, show a.get j' = a[j'.val] from rfl]
  simp [show j.val ≠ j'.val from fun e => h (Fin.ext e)]

/-! Reads of the unit written -/
@[simp] theorem State.setPart_part : (s.setPart p x).part p = x := vget_set_self _ _ _
theorem State.setPart_part_ne (h : p ≠ p') : (s.setPart p x).part p' = s.part p' := vget_set_ne _ _ _ _ h
@[simp] theorem State.modPart_part : (s.modPart p pf).part p = pf (s.part p) := State.setPart_part s p _
theorem State.modPart_part_ne (h : p ≠ p') : (s.modPart p pf).part p' = s.part p' := State.setPart_part_ne s p p' _ h
@[simp] theorem State.setCore_core : (s.setCore c k).core c = k := vget_set_self _ _ _
theorem State.setCore_core_ne (h : c ≠ c') : (s.setCore c k).core c' = s.core c' := vget_set_ne _ _ _ _ h
@[simp] theorem State.modCore_core : (s.modCore c kk).core c = kk (s.core c) := State.setCore_core s c _
theorem State.modCore_core_ne (h : c ≠ c') : (s.modCore c kk).core c' = s.core c' := State.setCore_core_ne s c c' _ h
@[simp] theorem State.setCluster_cluster : (s.setCluster g cl).cluster g = cl := vget_set_self _ _ _
theorem State.setCluster_cluster_ne (h : g ≠ g') : (s.setCluster g cl).cluster g' = s.cluster g' := vget_set_ne _ _ _ _ h
@[simp] theorem State.modCluster_cluster : (s.modCluster g gf).cluster g = gf (s.cluster g) := State.setCluster_cluster s g _
theorem State.modCluster_cluster_ne (h : g ≠ g') : (s.modCluster g gf).cluster g' = s.cluster g' := State.setCluster_cluster_ne s g g' _ h
@[simp] theorem State.setPort_port : (s.setPort i q).port i = q := vget_set_self _ _ _
theorem State.setPort_port_ne (h : i ≠ i') : (s.setPort i q).port i' = s.port i' := vget_set_ne _ _ _ _ h
@[simp] theorem State.modPort_port : (s.modPort i qf).port i = qf (s.port i) := State.setPort_port s i _
theorem State.modPort_port_ne (h : i ≠ i') : (s.modPort i qf).port i' = s.port i' := State.setPort_port_ne s i i' _ h
@[simp] theorem State.setLink_link : (s.setLink n l).link n = l := vget_set_self _ _ _
theorem State.setLink_link_ne (h : n ≠ n') : (s.setLink n l).link n' = s.link n' := vget_set_ne _ _ _ _ h
@[simp] theorem State.modLink_link : (s.modLink n lf).link n = lf (s.link n) := State.setLink_link s n _
theorem State.modLink_link_ne (h : n ≠ n') : (s.modLink n lf).link n' = s.link n' := State.setLink_link_ne s n n' _ h
@[simp] theorem State.setEngine_engine : (s.setEngine d v).engine d = v := vget_set_self _ _ _
theorem State.setEngine_engine_ne (h : d ≠ d') : (s.setEngine d v).engine d' = s.engine d' := vget_set_ne _ _ _ _ h
@[simp] theorem State.modEngine_engine : (s.modEngine d vf).engine d = vf (s.engine d) := State.setEngine_engine s d _
theorem State.modEngine_engine_ne (h : d ≠ d') : (s.modEngine d vf).engine d' = s.engine d' := State.setEngine_engine_ne s d d' _ h

/-! A unit written twice holds the later value; a unit written with itself is unchanged -/
@[simp] theorem State.setPart_setPart (y : _) : (s.setPart p y).setPart p x = s.setPart p x := by simp [State.setPart]
@[simp] theorem State.setPart_self : s.setPart p (s.part p) = s := by
  unfold State.setPart State.part
  rw [show s.parts.set p.val (s.parts.get p) p.isLt = s.parts from Vector.ext fun j hj => by
    by_cases e : p.val = j
    · subst e; simp; rfl
    · simp [e]]
@[simp] theorem State.setCore_setCore (y : _) : (s.setCore c y).setCore c k = s.setCore c k := by simp [State.setCore]
@[simp] theorem State.setCore_self : s.setCore c (s.core c) = s := by
  unfold State.setCore State.core
  rw [show s.cores.set c.val (s.cores.get c) c.isLt = s.cores from Vector.ext fun j hj => by
    by_cases e : c.val = j
    · subst e; simp; rfl
    · simp [e]]
@[simp] theorem State.setCluster_setCluster (y : _) : (s.setCluster g y).setCluster g cl = s.setCluster g cl := by simp [State.setCluster]
@[simp] theorem State.setCluster_self : s.setCluster g (s.cluster g) = s := by
  unfold State.setCluster State.cluster
  rw [show s.clusters.set g.val (s.clusters.get g) g.isLt = s.clusters from Vector.ext fun j hj => by
    by_cases e : g.val = j
    · subst e; simp; rfl
    · simp [e]]
@[simp] theorem State.setPort_setPort (y : _) : (s.setPort i y).setPort i q = s.setPort i q := by simp [State.setPort]
@[simp] theorem State.setPort_self : s.setPort i (s.port i) = s := by
  unfold State.setPort State.port
  rw [show s.i3c.set i.val (s.i3c.get i) i.isLt = s.i3c from Vector.ext fun j hj => by
    by_cases e : i.val = j
    · subst e; simp; rfl
    · simp [e]]
@[simp] theorem State.setLink_setLink (y : _) : (s.setLink n y).setLink n l = s.setLink n l := by simp [State.setLink]
@[simp] theorem State.setLink_self : s.setLink n (s.link n) = s := by
  unfold State.setLink State.link
  rw [show s.links.set n.val (s.links.get n) n.isLt = s.links from Vector.ext fun j hj => by
    by_cases e : n.val = j
    · subst e; simp; rfl
    · simp [e]]
@[simp] theorem State.setEngine_setEngine (y : _) : (s.setEngine d y).setEngine d v = s.setEngine d v := by simp [State.setEngine]
@[simp] theorem State.setEngine_self : s.setEngine d (s.engine d) = s := by
  unfold State.setEngine State.engine
  rw [show s.video.set d.val (s.video.get d) d.isLt = s.video from Vector.ext fun j hj => by
    by_cases e : d.val = j
    · subst e; simp; rfl
    · simp [e]]

/-! Reads of the other units -/
@[simp] theorem State.setPart_core' : (s.setPart p x).core c' = s.core c' := rfl
@[simp] theorem State.setPart_cluster' : (s.setPart p x).cluster g' = s.cluster g' := rfl
@[simp] theorem State.setPart_port' : (s.setPart p x).port i' = s.port i' := rfl
@[simp] theorem State.setPart_link' : (s.setPart p x).link n' = s.link n' := rfl
@[simp] theorem State.setPart_engine' : (s.setPart p x).engine d' = s.engine d' := rfl
@[simp] theorem State.modPart_core' : (s.modPart p pf).core c' = s.core c' := rfl
@[simp] theorem State.modPart_cluster' : (s.modPart p pf).cluster g' = s.cluster g' := rfl
@[simp] theorem State.modPart_port' : (s.modPart p pf).port i' = s.port i' := rfl
@[simp] theorem State.modPart_link' : (s.modPart p pf).link n' = s.link n' := rfl
@[simp] theorem State.modPart_engine' : (s.modPart p pf).engine d' = s.engine d' := rfl
@[simp] theorem State.modClaim_core' : (s.modClaim p cf).core c' = s.core c' := rfl
@[simp] theorem State.modClaim_cluster' : (s.modClaim p cf).cluster g' = s.cluster g' := rfl
@[simp] theorem State.modClaim_port' : (s.modClaim p cf).port i' = s.port i' := rfl
@[simp] theorem State.modClaim_link' : (s.modClaim p cf).link n' = s.link n' := rfl
@[simp] theorem State.modClaim_engine' : (s.modClaim p cf).engine d' = s.engine d' := rfl
@[simp] theorem State.modKeys_core' : (s.modKeys p kf).core c' = s.core c' := rfl
@[simp] theorem State.modKeys_cluster' : (s.modKeys p kf).cluster g' = s.cluster g' := rfl
@[simp] theorem State.modKeys_port' : (s.modKeys p kf).port i' = s.port i' := rfl
@[simp] theorem State.modKeys_link' : (s.modKeys p kf).link n' = s.link n' := rfl
@[simp] theorem State.modKeys_engine' : (s.modKeys p kf).engine d' = s.engine d' := rfl
@[simp] theorem State.setCore_part' : (s.setCore c k).part p' = s.part p' := rfl
@[simp] theorem State.setCore_cluster' : (s.setCore c k).cluster g' = s.cluster g' := rfl
@[simp] theorem State.setCore_port' : (s.setCore c k).port i' = s.port i' := rfl
@[simp] theorem State.setCore_link' : (s.setCore c k).link n' = s.link n' := rfl
@[simp] theorem State.setCore_engine' : (s.setCore c k).engine d' = s.engine d' := rfl
@[simp] theorem State.modCore_part' : (s.modCore c kk).part p' = s.part p' := rfl
@[simp] theorem State.modCore_cluster' : (s.modCore c kk).cluster g' = s.cluster g' := rfl
@[simp] theorem State.modCore_port' : (s.modCore c kk).port i' = s.port i' := rfl
@[simp] theorem State.modCore_link' : (s.modCore c kk).link n' = s.link n' := rfl
@[simp] theorem State.modCore_engine' : (s.modCore c kk).engine d' = s.engine d' := rfl
@[simp] theorem State.setCluster_part' : (s.setCluster g cl).part p' = s.part p' := rfl
@[simp] theorem State.setCluster_core' : (s.setCluster g cl).core c' = s.core c' := rfl
@[simp] theorem State.setCluster_port' : (s.setCluster g cl).port i' = s.port i' := rfl
@[simp] theorem State.setCluster_link' : (s.setCluster g cl).link n' = s.link n' := rfl
@[simp] theorem State.setCluster_engine' : (s.setCluster g cl).engine d' = s.engine d' := rfl
@[simp] theorem State.modCluster_part' : (s.modCluster g gf).part p' = s.part p' := rfl
@[simp] theorem State.modCluster_core' : (s.modCluster g gf).core c' = s.core c' := rfl
@[simp] theorem State.modCluster_port' : (s.modCluster g gf).port i' = s.port i' := rfl
@[simp] theorem State.modCluster_link' : (s.modCluster g gf).link n' = s.link n' := rfl
@[simp] theorem State.modCluster_engine' : (s.modCluster g gf).engine d' = s.engine d' := rfl
@[simp] theorem State.setPort_part' : (s.setPort i q).part p' = s.part p' := rfl
@[simp] theorem State.setPort_core' : (s.setPort i q).core c' = s.core c' := rfl
@[simp] theorem State.setPort_cluster' : (s.setPort i q).cluster g' = s.cluster g' := rfl
@[simp] theorem State.setPort_link' : (s.setPort i q).link n' = s.link n' := rfl
@[simp] theorem State.setPort_engine' : (s.setPort i q).engine d' = s.engine d' := rfl
@[simp] theorem State.modPort_part' : (s.modPort i qf).part p' = s.part p' := rfl
@[simp] theorem State.modPort_core' : (s.modPort i qf).core c' = s.core c' := rfl
@[simp] theorem State.modPort_cluster' : (s.modPort i qf).cluster g' = s.cluster g' := rfl
@[simp] theorem State.modPort_link' : (s.modPort i qf).link n' = s.link n' := rfl
@[simp] theorem State.modPort_engine' : (s.modPort i qf).engine d' = s.engine d' := rfl
@[simp] theorem State.setLink_part' : (s.setLink n l).part p' = s.part p' := rfl
@[simp] theorem State.setLink_core' : (s.setLink n l).core c' = s.core c' := rfl
@[simp] theorem State.setLink_cluster' : (s.setLink n l).cluster g' = s.cluster g' := rfl
@[simp] theorem State.setLink_port' : (s.setLink n l).port i' = s.port i' := rfl
@[simp] theorem State.setLink_engine' : (s.setLink n l).engine d' = s.engine d' := rfl
@[simp] theorem State.modLink_part' : (s.modLink n lf).part p' = s.part p' := rfl
@[simp] theorem State.modLink_core' : (s.modLink n lf).core c' = s.core c' := rfl
@[simp] theorem State.modLink_cluster' : (s.modLink n lf).cluster g' = s.cluster g' := rfl
@[simp] theorem State.modLink_port' : (s.modLink n lf).port i' = s.port i' := rfl
@[simp] theorem State.modLink_engine' : (s.modLink n lf).engine d' = s.engine d' := rfl
@[simp] theorem State.setEngine_part' : (s.setEngine d v).part p' = s.part p' := rfl
@[simp] theorem State.setEngine_core' : (s.setEngine d v).core c' = s.core c' := rfl
@[simp] theorem State.setEngine_cluster' : (s.setEngine d v).cluster g' = s.cluster g' := rfl
@[simp] theorem State.setEngine_port' : (s.setEngine d v).port i' = s.port i' := rfl
@[simp] theorem State.setEngine_link' : (s.setEngine d v).link n' = s.link n' := rfl
@[simp] theorem State.modEngine_part' : (s.modEngine d vf).part p' = s.part p' := rfl
@[simp] theorem State.modEngine_core' : (s.modEngine d vf).core c' = s.core c' := rfl
@[simp] theorem State.modEngine_cluster' : (s.modEngine d vf).cluster g' = s.cluster g' := rfl
@[simp] theorem State.modEngine_port' : (s.modEngine d vf).port i' = s.port i' := rfl
@[simp] theorem State.modEngine_link' : (s.modEngine d vf).link n' = s.link n' := rfl
@[simp] theorem State.modRx_part' : (s.modRx n rf).part p' = s.part p' := rfl
@[simp] theorem State.modRx_core' : (s.modRx n rf).core c' = s.core c' := rfl
@[simp] theorem State.modRx_cluster' : (s.modRx n rf).cluster g' = s.cluster g' := rfl
@[simp] theorem State.modRx_port' : (s.modRx n rf).port i' = s.port i' := rfl
@[simp] theorem State.modRx_link' : (s.modRx n rf).link n' = s.link n' := rfl
@[simp] theorem State.modRx_engine' : (s.modRx n rf).engine d' = s.engine d' := rfl
@[simp] theorem State.modTx_part' : (s.modTx n tf).part p' = s.part p' := rfl
@[simp] theorem State.modTx_core' : (s.modTx n tf).core c' = s.core c' := rfl
@[simp] theorem State.modTx_cluster' : (s.modTx n tf).cluster g' = s.cluster g' := rfl
@[simp] theorem State.modTx_port' : (s.modTx n tf).port i' = s.port i' := rfl
@[simp] theorem State.modTx_link' : (s.modTx n tf).link n' = s.link n' := rfl
@[simp] theorem State.modTx_engine' : (s.modTx n tf).engine d' = s.engine d' := rfl
@[simp] theorem State.modPower_part' : (s.modPower wf).part p' = s.part p' := rfl
@[simp] theorem State.modPower_core' : (s.modPower wf).core c' = s.core c' := rfl
@[simp] theorem State.modPower_cluster' : (s.modPower wf).cluster g' = s.cluster g' := rfl
@[simp] theorem State.modPower_port' : (s.modPower wf).port i' = s.port i' := rfl
@[simp] theorem State.modPower_link' : (s.modPower wf).link n' = s.link n' := rfl
@[simp] theorem State.modPower_engine' : (s.modPower wf).engine d' = s.engine d' := rfl
@[simp] theorem State.modThermal_part' : (s.modThermal hf).part p' = s.part p' := rfl
@[simp] theorem State.modThermal_core' : (s.modThermal hf).core c' = s.core c' := rfl
@[simp] theorem State.modThermal_cluster' : (s.modThermal hf).cluster g' = s.cluster g' := rfl
@[simp] theorem State.modThermal_port' : (s.modThermal hf).port i' = s.port i' := rfl
@[simp] theorem State.modThermal_link' : (s.modThermal hf).link n' = s.link n' := rfl
@[simp] theorem State.modThermal_engine' : (s.modThermal hf).engine d' = s.engine d' := rfl
@[simp] theorem State.modTime_part' : (s.modTime uf).part p' = s.part p' := rfl
@[simp] theorem State.modTime_core' : (s.modTime uf).core c' = s.core c' := rfl
@[simp] theorem State.modTime_cluster' : (s.modTime uf).cluster g' = s.cluster g' := rfl
@[simp] theorem State.modTime_port' : (s.modTime uf).port i' = s.port i' := rfl
@[simp] theorem State.modTime_link' : (s.modTime uf).link n' = s.link n' := rfl
@[simp] theorem State.modTime_engine' : (s.modTime uf).engine d' = s.engine d' := rfl
@[simp] theorem State.modOrders_part' : (s.modOrders orf).part p' = s.part p' := rfl
@[simp] theorem State.modOrders_core' : (s.modOrders orf).core c' = s.core c' := rfl
@[simp] theorem State.modOrders_cluster' : (s.modOrders orf).cluster g' = s.cluster g' := rfl
@[simp] theorem State.modOrders_port' : (s.modOrders orf).port i' = s.port i' := rfl
@[simp] theorem State.modOrders_link' : (s.modOrders orf).link n' = s.link n' := rfl
@[simp] theorem State.modOrders_engine' : (s.modOrders orf).engine d' = s.engine d' := rfl
@[simp] theorem State.modSecurity_part' : (s.modSecurity sf).part p' = s.part p' := rfl
@[simp] theorem State.modSecurity_core' : (s.modSecurity sf).core c' = s.core c' := rfl
@[simp] theorem State.modSecurity_cluster' : (s.modSecurity sf).cluster g' = s.cluster g' := rfl
@[simp] theorem State.modSecurity_port' : (s.modSecurity sf).port i' = s.port i' := rfl
@[simp] theorem State.modSecurity_link' : (s.modSecurity sf).link n' = s.link n' := rfl
@[simp] theorem State.modSecurity_engine' : (s.modSecurity sf).engine d' = s.engine d' := rfl
@[simp] theorem State.modFw_part' : (s.modFw ff).part p' = s.part p' := rfl
@[simp] theorem State.modFw_core' : (s.modFw ff).core c' = s.core c' := rfl
@[simp] theorem State.modFw_cluster' : (s.modFw ff).cluster g' = s.cluster g' := rfl
@[simp] theorem State.modFw_port' : (s.modFw ff).port i' = s.port i' := rfl
@[simp] theorem State.modFw_link' : (s.modFw ff).link n' = s.link n' := rfl
@[simp] theorem State.modFw_engine' : (s.modFw ff).engine d' = s.engine d' := rfl
@[simp] theorem State.modEvents_part' : (s.modEvents ef).part p' = s.part p' := rfl
@[simp] theorem State.modEvents_core' : (s.modEvents ef).core c' = s.core c' := rfl
@[simp] theorem State.modEvents_cluster' : (s.modEvents ef).cluster g' = s.cluster g' := rfl
@[simp] theorem State.modEvents_port' : (s.modEvents ef).port i' = s.port i' := rfl
@[simp] theorem State.modEvents_link' : (s.modEvents ef).link n' = s.link n' := rfl
@[simp] theorem State.modEvents_engine' : (s.modEvents ef).engine d' = s.engine d' := rfl
@[simp] theorem State.modCsi_part' : (s.modCsi csf).part p' = s.part p' := rfl
@[simp] theorem State.modCsi_core' : (s.modCsi csf).core c' = s.core c' := rfl
@[simp] theorem State.modCsi_cluster' : (s.modCsi csf).cluster g' = s.cluster g' := rfl
@[simp] theorem State.modCsi_port' : (s.modCsi csf).port i' = s.port i' := rfl
@[simp] theorem State.modCsi_link' : (s.modCsi csf).link n' = s.link n' := rfl
@[simp] theorem State.modCsi_engine' : (s.modCsi csf).engine d' = s.engine d' := rfl
@[simp] theorem State.modLanes_part' : (s.modLanes laf).part p' = s.part p' := rfl
@[simp] theorem State.modLanes_core' : (s.modLanes laf).core c' = s.core c' := rfl
@[simp] theorem State.modLanes_cluster' : (s.modLanes laf).cluster g' = s.cluster g' := rfl
@[simp] theorem State.modLanes_port' : (s.modLanes laf).port i' = s.port i' := rfl
@[simp] theorem State.modLanes_link' : (s.modLanes laf).link n' = s.link n' := rfl
@[simp] theorem State.modLanes_engine' : (s.modLanes laf).engine d' = s.engine d' := rfl
@[simp] theorem State.emit_part' : (s.emit o).part p' = s.part p' := rfl
@[simp] theorem State.emit_core' : (s.emit o).core c' = s.core c' := rfl
@[simp] theorem State.emit_cluster' : (s.emit o).cluster g' = s.cluster g' := rfl
@[simp] theorem State.emit_port' : (s.emit o).port i' = s.port i' := rfl
@[simp] theorem State.emit_link' : (s.emit o).link n' = s.link n' := rfl
@[simp] theorem State.emit_engine' : (s.emit o).engine d' = s.engine d' := rfl
@[simp] theorem State.reach_part' : (s.reach u).part p' = s.part p' := rfl
@[simp] theorem State.reach_core' : (s.reach u).core c' = s.core c' := rfl
@[simp] theorem State.reach_cluster' : (s.reach u).cluster g' = s.cluster g' := rfl
@[simp] theorem State.reach_port' : (s.reach u).port i' = s.port i' := rfl
@[simp] theorem State.reach_link' : (s.reach u).link n' = s.link n' := rfl
@[simp] theorem State.reach_engine' : (s.reach u).engine d' = s.engine d' := rfl
@[simp] theorem State.reachStamp_part' : (s.reachStamp u).part p' = s.part p' := rfl
@[simp] theorem State.reachStamp_core' : (s.reachStamp u).core c' = s.core c' := rfl
@[simp] theorem State.reachStamp_cluster' : (s.reachStamp u).cluster g' = s.cluster g' := rfl
@[simp] theorem State.reachStamp_port' : (s.reachStamp u).port i' = s.port i' := rfl
@[simp] theorem State.reachStamp_link' : (s.reachStamp u).link n' = s.link n' := rfl
@[simp] theorem State.reachStamp_engine' : (s.reachStamp u).engine d' = s.engine d' := rfl
@[simp] theorem State.draw_part' : (s.draw.2).part p' = s.part p' := rfl
@[simp] theorem State.draw_core' : (s.draw.2).core c' = s.core c' := rfl
@[simp] theorem State.draw_cluster' : (s.draw.2).cluster g' = s.cluster g' := rfl
@[simp] theorem State.draw_port' : (s.draw.2).port i' = s.port i' := rfl
@[simp] theorem State.draw_link' : (s.draw.2).link n' = s.link n' := rfl
@[simp] theorem State.draw_engine' : (s.draw.2).engine d' = s.engine d' := rfl

end Sys2Proof.Machine
end

