-- ==== Sys2Proof/Laws/Engines.lean ====
section
/-! SUPPORT. What the shared operations of the engines answer: a command whose conditions hold, an operand or a result that is there, and
what issuing a command leaves alone (02 R44–R48; 04 R100, R103; 05 R140, R141). -/

namespace Sys2Proof.Machine

variable {s t : State} {d : Due} {p : PartId}

/-- A command that starts and whose operation runs is issued with what the operation gives. -/
theorem runEngine_done {q cls opcode n e : Nat} {hand : Due → Option Handover} {op : Due → State → EngineOut}
    (h : engineStarts s p q cls opcode d) (ho : op d s = .done t n e) : runEngine s p q cls opcode hand op = .next (issue t d n e (hand d)) := by
  obtain ⟨h1, h2, h3⟩ := h
  unfold runEngine
  rw [h1]
  by_cases hc : cls = 5
  · subst hc
    simp [h2, h3.1 rfl, h3.2, ho]
  · simp [h2, h3.2, hc, ho]

/-- The due command of a queue is one of its partition and its descriptor. -/
theorem dueAt_spec {q : Nat} (h : dueAt s p q = some d) : d.p = p ∧ descOf (s.part p) q = some d.desc := by
  unfold dueAt at h
  simp only [] at h
  repeat' (first | split at h | (simp at h; done))
  all_goals simp_all
  all_goals (subst h; simp_all)

/-- The due command of a queue is of the class and the opcode asked for. -/
theorem dueCommand_spec {q cls opcode : Nat} (h : dueCommand s p q cls opcode = some d) :
    d.p = p ∧ descOf (s.part p) q = some d.desc ∧ d.desc.cls = cls ∧ recOpcode d.record = opcode := by
  unfold dueCommand at h
  cases hd : dueAt s p q with
  | none => simp [hd] at h
  | some e =>
    simp only [hd] at h
    split at h
    · rename_i hc
      injection h with h
      subst h
      have := dueAt_spec hd
      simp_all
    · simp at h

theorem descOf_queue {x : Part} {q : Nat} {g : QueueDesc} (h : descOf x q = some g) : g.queue = q := by
  unfold descOf at h
  cases hi : x.image <;> simp [hi] at h
  have := List.find?_some h
  simp_all

theorem transferBank_ok {r : BankRef} {n : Nat} {b : Fin 288} (h : transferServes s d r n b) : transferBank s d r n = .ok b := by
  obtain ⟨h1, h2, h3⟩ := h
  unfold transferBank
  rw [h1]
  split at h3 <;> simp_all

theorem transferStack_ok {off n : Nat} {k : ClusterId} (h : stackServes s d off n k) : transferStack s d off n = .ok k := by
  obtain ⟨h1, h2, h3⟩ := h
  unfold transferStack
  rw [h1]
  simp [h3]
  omega

theorem coreBank_ok {bank n off : Nat} {b : Fin 288} (h : coreBankServes s d bank n off b) : coreBank s d bank n off = .ok b := by
  obtain ⟨h1, h2, h3⟩ := h
  unfold coreBank
  rw [h1]
  simp only []
  rw [if_neg (by omega), if_pos h3]

theorem sink_ok {r : TRef} {n : Nat} (h : sinkServes s d r n) : sinkReady s d r n = .ok () := by
  unfold sinkReady
  rcases h with ⟨h, b, hb⟩ | ⟨h, hb⟩
  · simp [h, coreBank_ok hb, bind, Except.bind, pure, Except.pure]
  · simp [h, hb]

theorem fetch_ok {r : TRef} {n : Nat} {pl : Plane} (h : sourceServes s d r n pl t) : fetch s d r n = .ok (pl, t) := by
  unfold fetch
  rcases h with ⟨h, b, hb, hp, ht⟩ | ⟨h, hb, hp, ht⟩
  · simp [h, coreBank_ok hb, bind, Except.bind, pure, Except.pure, hp, ht]
  · simp [h, hb, hp, ht]

/-- Counting beats and issuing touch no byte of memory. -/
@[simp] theorem countBeats_mem (p : PartId) (cls inst w : Nat) (v : Nat) : (countBeats s p cls inst w v).mem = s.mem := by
  unfold countBeats
  simp only []
  repeat' split
  all_goals simp

@[simp] theorem issue_mem (n e : Nat) (h : Option Handover) : (issue s d n e h).mem = s.mem := by simp [issue, State.modPart]

end Sys2Proof.Machine
end

