-- ==== Sys2Proof/Laws/Memory.lean ====
section
/-! SUPPORT. Laws of byte memory: what a write changes, what it leaves, and that every memory operation keeps the canonical
form. -/

namespace Sys2Proof.Machine

/-! ## Cells -/

/-- Every address listed lies above `a`. -/
def above (a : Nat) (cs : List Host.Cell) : Prop := ∀ c ∈ cs, a < c.1

theorem cellsWf_cons (c : Host.Cell) (cs : List Host.Cell) :
    cellsWf (c :: cs) = true ↔ c.2 ≠ 0 ∧ above c.1 cs ∧ cellsWf cs = true := by
  induction cs generalizing c with
  | nil => simp [cellsWf, above]
  | cons d ds ih =>
    simp only [cellsWf, Bool.and_eq_true, bne_iff_ne, decide_eq_true_eq]
    constructor
    · rintro ⟨⟨h1, h2⟩, h3⟩
      refine ⟨h1, ?_, h3⟩
      intro e he
      rcases List.mem_cons.mp he with rfl | he
      · exact h2
      · exact Nat.lt_trans h2 ((ih d).mp h3 |>.2.1 e he)
    · rintro ⟨h1, h2, h3⟩
      exact ⟨⟨h1, h2 d (by simp)⟩, h3⟩

theorem cellRead_above {a : Nat} {cs : List Host.Cell} (h : above a cs) : cellRead cs a = 0 := by
  cases cs with
  | nil => rfl
  | cons c cs =>
    have := h c (by simp)
    simp [cellRead, Nat.ne_of_gt this, this]

theorem above_cellWrite {b a : Nat} {v : Byte} {cs : List Host.Cell} (hb : b < a) (h : above b cs) : above b (cellWrite cs a v) := by
  induction cs with
  | nil => unfold cellWrite; split <;> intro e he <;> simp_all
  | cons c cs ih =>
    have hc : b < c.1 := h c (by simp)
    have ht : above b cs := fun e he => h e (by simp [he])
    unfold cellWrite
    split
    · split
      · exact ht
      · intro e he; rcases List.mem_cons.mp he with rfl | he
        · exact hb
        · exact ht e he
    · split
      · split
        · exact h
        · intro e he; rcases List.mem_cons.mp he with rfl | he
          · exact hb
          · exact h e he
      · intro e he; rcases List.mem_cons.mp he with rfl | he
        · exact hc
        · exact ih ht e he

/-- A byte write keeps the canonical form. -/
theorem cellWrite_wf {a : Nat} {v : Byte} {cs : List Host.Cell} (h : cellsWf cs = true) : cellsWf (cellWrite cs a v) = true := by
  induction cs with
  | nil => unfold cellWrite; split <;> simp_all [cellsWf]
  | cons c cs ih =>
    obtain ⟨h1, h2, h3⟩ := (cellsWf_cons c cs).mp h
    unfold cellWrite
    split
    · rename_i hk
      split
      · exact h3
      · exact (cellsWf_cons _ _).mpr ⟨by simpa using ‹_›, by rw [← hk]; exact h2, h3⟩
    · split
      · split
        · exact h
        · refine (cellsWf_cons _ _).mpr ⟨by simpa using ‹_›, ?_, h⟩
          intro e he
          rcases List.mem_cons.mp he with rfl | he
          · assumption
          · exact Nat.lt_trans ‹_› (h2 e he)
      · refine (cellsWf_cons _ _).mpr ⟨h1, above_cellWrite ?_ h2, ih h3⟩
        have := Nat.lt_or_gt_of_ne ‹¬c.1 = a›
        omega

/-- The byte just written reads back. -/
theorem cellRead_cellWrite_self (a : Nat) (v : Byte) (cs : List Host.Cell) (h : cellsWf cs = true) : cellRead (cellWrite cs a v) a = v := by
  induction cs with
  | nil => unfold cellWrite; split <;> simp_all [cellRead]
  | cons c cs ih =>
    obtain ⟨h1, h2, h3⟩ := (cellsWf_cons c cs).mp h
    unfold cellWrite
    split
    · rename_i hk
      split
      · rename_i hv; rw [hv]; exact cellRead_above (hk ▸ h2)
      · simp [cellRead]
    · split
      · split
        · rename_i hlt hv; rw [hv]
          exact cellRead_above (fun e he => by
            rcases List.mem_cons.mp he with rfl | he
            · exact hlt
            · exact Nat.lt_trans hlt (h2 e he))
        · simp [cellRead]
      · rename_i hne hlt
        simp [cellRead, hne, hlt, ih h3]

/-- Every other byte reads as before. -/
theorem cellRead_cellWrite_ne (a b : Nat) (v : Byte) (cs : List Host.Cell) (h : cellsWf cs = true) (hb : b ≠ a) :
    cellRead (cellWrite cs a v) b = cellRead cs b := by
  induction cs with
  | nil =>
    unfold cellWrite
    split
    · rfl
    · simp [cellRead, Ne.symm hb]
  | cons c cs ih =>
    obtain ⟨h1, h2, h3⟩ := (cellsWf_cons c cs).mp h
    have hz : b < a → (∀ e ∈ c :: cs, a < e.1) → cellRead (c :: cs) b = 0 := fun hba hall =>
      cellRead_above (fun e he => Nat.lt_trans hba (hall e he))
    unfold cellWrite
    split
    · rename_i hk
      have hcb : ¬ c.1 = b := fun e => hb (e ▸ hk)
      split
      · by_cases hlt : b < c.1
        · have : cellRead cs b = 0 := cellRead_above (fun e he => Nat.lt_trans hlt (h2 e he))
          simp [cellRead, hcb, hlt, this]
        · simp [cellRead, hcb, hlt]
      · simp [cellRead, hk, Ne.symm hb]
    · split
      · rename_i hlt
        split
        · rfl
        · have hall : ∀ e ∈ c :: cs, a < e.1 := fun e he => by
            rcases List.mem_cons.mp he with rfl | he
            · exact hlt
            · exact Nat.lt_trans hlt (h2 e he)
          rw [show cellRead ((a, v) :: c :: cs) b = if a = b then v else if b < a then 0 else cellRead (c :: cs) b from rfl]
          rw [if_neg (Ne.symm hb)]
          split
          · rename_i hba; exact (hz hba hall).symm
          · rfl
      · simp only [cellRead, ih h3]

/-- Writing bytes keeps the canonical form. -/
theorem cellsWrite_wf {a : Nat} {bs : Bytes} {cs : List Host.Cell} (h : cellsWf cs = true) : cellsWf (cellsWrite cs a bs) = true := by
  induction bs generalizing a cs with
  | nil => exact h
  | cons b bs ih => exact ih (cellWrite_wf h)

/-- A byte outside the bytes written reads as before. -/
theorem cellRead_cellsWrite_out (cs : List Host.Cell) (a b : Nat) (bs : Bytes) (h : cellsWf cs = true)
    (hb : b < a ∨ a + bs.length ≤ b) : cellRead (cellsWrite cs a bs) b = cellRead cs b := by
  induction bs generalizing a cs with
  | nil => rfl
  | cons v bs ih =>
    have hl : (v :: bs).length = bs.length + 1 := rfl
    rw [hl] at hb
    show cellRead (cellsWrite (cellWrite cs a v) (a + 1) bs) b = _
    rw [ih (cellWrite cs a v) (a + 1) (cellWrite_wf h) (by omega), cellRead_cellWrite_ne a b v cs h (by omega)]

/-- A byte written reads as written. -/
theorem cellRead_cellsWrite_in (cs : List Host.Cell) (a i : Nat) (bs : Bytes) (h : cellsWf cs = true) (hi : i < bs.length) :
    cellRead (cellsWrite cs a bs) (a + i) = bs[i] := by
  induction bs generalizing a i cs with
  | nil => simp at hi
  | cons v bs ih =>
    show cellRead (cellsWrite (cellWrite cs a v) (a + 1) bs) (a + i) = _
    cases i with
    | zero =>
      rw [cellRead_cellsWrite_out _ _ _ _ (cellWrite_wf h) (by omega)]
      simpa using cellRead_cellWrite_self a v cs h
    | succ j =>
      have := ih (cellWrite cs a v) (a + 1) j (cellWrite_wf h) (by simpa using hi)
      rw [show a + (j + 1) = a + 1 + j by omega, this]
      rfl

/-- The bytes just written read back. -/
theorem cellsRead_cellsWrite (cs : List Host.Cell) (a : Nat) (bs : Bytes) (h : cellsWf cs = true) :
    cellsRead (cellsWrite cs a bs) a bs.length = bs := by
  refine List.ext_getElem (by simp [cellsRead]) ?_
  intro i h1 h2
  simp only [cellsRead, List.getElem_map, List.getElem_range]
  exact cellRead_cellsWrite_in cs a i bs h h2

/-- Dropping cells keeps the canonical form. -/
theorem cellsWf_filter {cs : List Host.Cell} (f : Host.Cell → Bool) (h : cellsWf cs = true) : cellsWf (cs.filter f) = true := by
  induction cs with
  | nil => rfl
  | cons c cs ih =>
    obtain ⟨h1, h2, h3⟩ := (cellsWf_cons c cs).mp h
    simp only [List.filter]
    split
    · exact (cellsWf_cons _ _).mpr ⟨h1, fun e he => h2 e (List.mem_filter.mp he).1, ih h3⟩
    · exact ih h3

theorem cellsZero_wf {cs : List Host.Cell} {a n : Nat} (h : cellsWf cs = true) : cellsWf (cellsZero cs a n) = true := cellsWf_filter _ h
theorem cellsIn_wf {cs : List Host.Cell} {a n : Nat} (h : cellsWf cs = true) : cellsWf (cellsIn cs a n) = true := cellsWf_filter _ h

/-! ## Marks -/

theorem marksWf_cons (v : Nat) (vs : List Nat) : marksWf (v :: vs) = true ↔ (∀ w ∈ vs, v < w) ∧ marksWf vs = true := by
  induction vs generalizing v with
  | nil => simp [marksWf]
  | cons w ws ih =>
    simp only [marksWf, Bool.and_eq_true, decide_eq_true_eq]
    constructor
    · rintro ⟨h1, h2⟩
      refine ⟨fun e he => ?_, h2⟩
      rcases List.mem_cons.mp he with rfl | he
      · exact h1
      · exact Nat.lt_trans h1 ((ih w).mp h2 |>.1 e he)
    · rintro ⟨h1, h2⟩
      exact ⟨h1 w (by simp), h2⟩

theorem mem_markSet {w e : Nat} {vs : List Nat} : e ∈ markSet vs w ↔ e = w ∨ e ∈ vs := by
  induction vs with
  | nil => simp [markSet]
  | cons v vs ih =>
    unfold markSet
    split
    · rename_i h; subst h; simp
    · split
      · simp
      · simp only [List.mem_cons, ih]
        constructor <;> (rintro (h | h | h) <;> simp [h])

theorem markSet_wf {w : Nat} {vs : List Nat} (h : marksWf vs = true) : marksWf (markSet vs w) = true := by
  induction vs with
  | nil => rfl
  | cons v vs ih =>
    obtain ⟨h1, h2⟩ := (marksWf_cons v vs).mp h
    unfold markSet
    split
    · exact h
    · split
      · rename_i hlt
        refine (marksWf_cons _ _).mpr ⟨fun e he => ?_, h⟩
        rcases List.mem_cons.mp he with rfl | he
        · exact hlt
        · exact Nat.lt_trans hlt (h1 e he)
      · rename_i hne hlt
        refine (marksWf_cons _ _).mpr ⟨fun e he => ?_, ih h2⟩
        rcases mem_markSet.mp he with rfl | he
        · omega
        · exact h1 e he

theorem marksWf_filter {vs : List Nat} (f : Nat → Bool) (h : marksWf vs = true) : marksWf (vs.filter f) = true := by
  induction vs with
  | nil => rfl
  | cons v vs ih =>
    obtain ⟨h1, h2⟩ := (marksWf_cons v vs).mp h
    simp only [List.filter]
    split
    · exact (marksWf_cons _ _).mpr ⟨fun e he => h1 e (List.mem_filter.mp he).1, ih h2⟩
    · exact ih h2

theorem markClear_wf {vs : List Nat} {w n : Nat} (h : marksWf vs = true) : marksWf (markClear vs w n) = true := marksWf_filter _ h

theorem marksWrite_wf {vs : List Nat} {w : Nat} {bs : List Bool} (h : marksWf vs = true) : marksWf (marksWrite vs w bs) = true := by
  induction bs generalizing vs w with
  | nil => exact h
  | cons b bs ih =>
    refine ih ?_
    split
    · exact markSet_wf h
    · exact h

/-! ## The memory of a state -/

theorem memWf_iff (m : Mem) :
    memWf m = true ↔ cellsWf m.banks = true ∧ cellsWf m.hbm = true ∧ marksWf m.bankPoison = true ∧ marksWf m.stackPoison = true ∧
      marksWf m.bankFlips = true ∧ marksWf m.stackFlips = true ∧ marksWf m.bankSingles = true ∧ marksWf m.stackSingles = true := by
  simp [memWf, and_assoc]

theorem bankWrite_wf {s : State} {a : Nat} {bs : Bytes} (h : memWf s.mem = true) : memWf (bankWrite s a bs).mem = true := by
  obtain ⟨h1, h2, h3, h4, h5, h6, h7, h8⟩ := (memWf_iff _).mp h
  exact (memWf_iff _).mpr ⟨cellsWrite_wf h1, h2, markClear_wf h3, h4, markClear_wf h5, h6, markClear_wf h7, h8⟩
theorem bankMark_wf {s : State} {w : Nat} (h : memWf s.mem = true) : memWf (bankMark s w).mem = true := by
  obtain ⟨h1, h2, h3, h4⟩ := (memWf_iff _).mp h
  exact (memWf_iff _).mpr ⟨h1, h2, markSet_wf h3, h4⟩
theorem bankZero_wf {s : State} {a n : Nat} (h : memWf s.mem = true) : memWf (bankZero s a n).mem = true := by
  obtain ⟨h1, h2, h3, h4, h5, h6, h7, h8⟩ := (memWf_iff _).mp h
  exact (memWf_iff _).mpr ⟨cellsZero_wf h1, h2, markClear_wf h3, h4, markClear_wf h5, h6, markClear_wf h7, h8⟩
theorem stackWrite_wf {s : State} {a : Nat} {bs : Bytes} (h : memWf s.mem = true) : memWf (stackWrite s a bs).mem = true := by
  obtain ⟨h1, h2, h3, h4, h5, h6, h7, h8⟩ := (memWf_iff _).mp h
  exact (memWf_iff _).mpr ⟨h1, cellsWrite_wf h2, h3, markClear_wf h4, h5, markClear_wf h6, h7, markClear_wf h8⟩
theorem stackMark_wf {s : State} {w : Nat} (h : memWf s.mem = true) : memWf (stackMark s w).mem = true := by
  obtain ⟨h1, h2, h3, h4, h5⟩ := (memWf_iff _).mp h
  exact (memWf_iff _).mpr ⟨h1, h2, h3, markSet_wf h4, h5⟩
theorem stackZero_wf {s : State} {a n : Nat} (h : memWf s.mem = true) : memWf (stackZero s a n).mem = true := by
  obtain ⟨h1, h2, h3, h4, h5, h6, h7, h8⟩ := (memWf_iff _).mp h
  exact (memWf_iff _).mpr ⟨h1, cellsZero_wf h2, h3, markClear_wf h4, h5, markClear_wf h6, h7, markClear_wf h8⟩

/-- A bank byte outside a bank write reads as before. -/
theorem bankWrite_frame (s : State) (a b : Nat) (bs : Bytes) (h : memWf s.mem = true) (hb : b < a ∨ a + bs.length ≤ b) :
    cellRead (bankWrite s a bs).mem.banks b = cellRead s.mem.banks b :=
  cellRead_cellsWrite_out _ _ _ _ ((memWf_iff _).mp h).1 hb

/-- The bytes of a bank write read back, and carry no mark (05 R156). -/
theorem bankRead_bankWrite (s : State) (a : Nat) (bs : Bytes) (h : memWf s.mem = true) : bankRead (bankWrite s a bs) a bs.length = bs :=
  cellsRead_cellsWrite _ _ _ ((memWf_iff _).mp h).1

theorem bankPoisoned_bankWrite (s : State) (a : Nat) (bs : Bytes) : bankPoisoned (bankWrite s a bs) a bs.length = false := by
  simp only [bankPoisoned, bankWrite, bankClean, markAny, markClear, List.any_eq_false, List.mem_filter]
  rintro v ⟨_, hv⟩
  simp at hv ⊢
  omega

/-- The memory right after reset has the canonical form. -/
theorem reset_memWf : memWf State.reset.mem = true := rfl

end Sys2Proof.Machine
end

