-- ==== Sys2Proof/Laws/Shared.lean ====
section
/-! SUPPORT. What the operations shared by the meanings leave alone: an event touches the ring and the log mailboxes, an answer the
port and the order counts, a session's end the port and the ring. -/

namespace Sys2Proof.Machine

/-! An event record -/
@[simp] theorem State.event_pending (s : State) (u c p : Nat) (d : Bytes) : (s.event u c p d).pending = s.pending := by
  unfold State.event; simp only []; repeat' split
  all_goals rfl
@[simp] theorem State.event_now (s : State) (u c p : Nat) (d : Bytes) : (s.event u c p d).now = s.now := by
  unfold State.event; simp only []; repeat' split
  all_goals rfl
@[simp] theorem State.event_fresh (s : State) (u c p : Nat) (d : Bytes) : (s.event u c p d).fresh = s.fresh := by
  unfold State.event; simp only []; repeat' split
  all_goals rfl
@[simp] theorem State.event_out (s : State) (u c p : Nat) (d : Bytes) : (s.event u c p d).out = s.out := by
  unfold State.event; simp only []; repeat' split
  all_goals rfl
@[simp] theorem State.event_mem (s : State) (u c p : Nat) (d : Bytes) : (s.event u c p d).mem = s.mem := by
  unfold State.event; simp only []; repeat' split
  all_goals rfl
@[simp] theorem State.event_owners (s : State) (u c p : Nat) (d : Bytes) : (s.event u c p d).owners = s.owners := by
  unfold State.event; simp only []; repeat' split
  all_goals rfl
@[simp] theorem State.event_clusters (s : State) (u c p : Nat) (d : Bytes) : (s.event u c p d).clusters = s.clusters := by
  unfold State.event; simp only []; repeat' split
  all_goals rfl
@[simp] theorem State.event_cores (s : State) (u c p : Nat) (d : Bytes) : (s.event u c p d).cores = s.cores := by
  unfold State.event; simp only []; repeat' split
  all_goals rfl
@[simp] theorem State.event_parts (s : State) (u c p : Nat) (d : Bytes) : (s.event u c p d).parts = s.parts := by
  unfold State.event; simp only []; repeat' split
  all_goals rfl
@[simp] theorem State.event_video (s : State) (u c p : Nat) (d : Bytes) : (s.event u c p d).video = s.video := by
  unfold State.event; simp only []; repeat' split
  all_goals rfl
@[simp] theorem State.event_csi (s : State) (u c p : Nat) (d : Bytes) : (s.event u c p d).csi = s.csi := by
  unfold State.event; simp only []; repeat' split
  all_goals rfl
@[simp] theorem State.event_orders (s : State) (u c p : Nat) (d : Bytes) : (s.event u c p d).orders = s.orders := by
  unfold State.event; simp only []; repeat' split
  all_goals rfl
@[simp] theorem State.event_links (s : State) (u c p : Nat) (d : Bytes) : (s.event u c p d).links = s.links := by
  unfold State.event; simp only []; repeat' split
  all_goals rfl
@[simp] theorem State.event_inbox (s : State) (u c p : Nat) (d : Bytes) : (s.event u c p d).inbox = s.inbox := by
  unfold State.event; simp only []; repeat' split
  all_goals rfl
@[simp] theorem State.event_plan (s : State) (u c p : Nat) (d : Bytes) : (s.event u c p d).plan = s.plan := by
  unfold State.event; simp only []; repeat' split
  all_goals rfl
@[simp] theorem State.event_requests (s : State) (u c p : Nat) (d : Bytes) : (s.event u c p d).requests = s.requests := by
  unfold State.event; simp only []; repeat' split
  all_goals rfl
@[simp] theorem State.event_nextTag (s : State) (u c p : Nat) (d : Bytes) : (s.event u c p d).nextTag = s.nextTag := by
  unfold State.event; simp only []; repeat' split
  all_goals rfl
@[simp] theorem State.event_lanes (s : State) (u c p : Nat) (d : Bytes) : (s.event u c p d).lanes = s.lanes := by
  unfold State.event; simp only []; repeat' split
  all_goals rfl
@[simp] theorem State.event_time (s : State) (u c p : Nat) (d : Bytes) : (s.event u c p d).time = s.time := by
  unfold State.event; simp only []; repeat' split
  all_goals rfl
@[simp] theorem State.event_power (s : State) (u c p : Nat) (d : Bytes) : (s.event u c p d).power = s.power := by
  unfold State.event; simp only []; repeat' split
  all_goals rfl
@[simp] theorem State.event_thermal (s : State) (u c p : Nat) (d : Bytes) : (s.event u c p d).thermal = s.thermal := by
  unfold State.event; simp only []; repeat' split
  all_goals rfl
@[simp] theorem State.event_fuses (s : State) (u c p : Nat) (d : Bytes) : (s.event u c p d).fuses = s.fuses := by
  unfold State.event; simp only []; repeat' split
  all_goals rfl
@[simp] theorem State.event_security (s : State) (u c p : Nat) (d : Bytes) : (s.event u c p d).security = s.security := by
  unfold State.event; simp only []; repeat' split
  all_goals rfl
@[simp] theorem State.event_fw (s : State) (u c p : Nat) (d : Bytes) : (s.event u c p d).fw = s.fw := by
  unfold State.event; simp only []; repeat' split
  all_goals rfl

/-! An answer -/
@[simp] theorem answer_pending (s : State) (t : Taken) (st : Nat) (tail : Bytes) : (answer s t st tail).pending = s.pending := by
  unfold answer; simp only []; split <;> rfl
@[simp] theorem answer_now (s : State) (t : Taken) (st : Nat) (tail : Bytes) : (answer s t st tail).now = s.now := by
  unfold answer; simp only []; split <;> rfl
@[simp] theorem answer_fresh (s : State) (t : Taken) (st : Nat) (tail : Bytes) : (answer s t st tail).fresh = s.fresh := by
  unfold answer; simp only []; split <;> rfl
@[simp] theorem answer_out (s : State) (t : Taken) (st : Nat) (tail : Bytes) : (answer s t st tail).out = s.out := by
  unfold answer; simp only []; split <;> rfl
@[simp] theorem answer_mem (s : State) (t : Taken) (st : Nat) (tail : Bytes) : (answer s t st tail).mem = s.mem := by
  unfold answer; simp only []; split <;> rfl
@[simp] theorem answer_owners (s : State) (t : Taken) (st : Nat) (tail : Bytes) : (answer s t st tail).owners = s.owners := by
  unfold answer; simp only []; split <;> rfl
@[simp] theorem answer_clusters (s : State) (t : Taken) (st : Nat) (tail : Bytes) : (answer s t st tail).clusters = s.clusters := by
  unfold answer; simp only []; split <;> rfl
@[simp] theorem answer_cores (s : State) (t : Taken) (st : Nat) (tail : Bytes) : (answer s t st tail).cores = s.cores := by
  unfold answer; simp only []; split <;> rfl
@[simp] theorem answer_parts (s : State) (t : Taken) (st : Nat) (tail : Bytes) : (answer s t st tail).parts = s.parts := by
  unfold answer; simp only []; split <;> rfl
@[simp] theorem answer_video (s : State) (t : Taken) (st : Nat) (tail : Bytes) : (answer s t st tail).video = s.video := by
  unfold answer; simp only []; split <;> rfl
@[simp] theorem answer_csi (s : State) (t : Taken) (st : Nat) (tail : Bytes) : (answer s t st tail).csi = s.csi := by
  unfold answer; simp only []; split <;> rfl
@[simp] theorem answer_links (s : State) (t : Taken) (st : Nat) (tail : Bytes) : (answer s t st tail).links = s.links := by
  unfold answer; simp only []; split <;> rfl
@[simp] theorem answer_inbox (s : State) (t : Taken) (st : Nat) (tail : Bytes) : (answer s t st tail).inbox = s.inbox := by
  unfold answer; simp only []; split <;> rfl
@[simp] theorem answer_plan (s : State) (t : Taken) (st : Nat) (tail : Bytes) : (answer s t st tail).plan = s.plan := by
  unfold answer; simp only []; split <;> rfl
@[simp] theorem answer_requests (s : State) (t : Taken) (st : Nat) (tail : Bytes) : (answer s t st tail).requests = s.requests := by
  unfold answer; simp only []; split <;> rfl
@[simp] theorem answer_nextTag (s : State) (t : Taken) (st : Nat) (tail : Bytes) : (answer s t st tail).nextTag = s.nextTag := by
  unfold answer; simp only []; split <;> rfl
@[simp] theorem answer_lanes (s : State) (t : Taken) (st : Nat) (tail : Bytes) : (answer s t st tail).lanes = s.lanes := by
  unfold answer; simp only []; split <;> rfl
@[simp] theorem answer_time (s : State) (t : Taken) (st : Nat) (tail : Bytes) : (answer s t st tail).time = s.time := by
  unfold answer; simp only []; split <;> rfl
@[simp] theorem answer_power (s : State) (t : Taken) (st : Nat) (tail : Bytes) : (answer s t st tail).power = s.power := by
  unfold answer; simp only []; split <;> rfl
@[simp] theorem answer_thermal (s : State) (t : Taken) (st : Nat) (tail : Bytes) : (answer s t st tail).thermal = s.thermal := by
  unfold answer; simp only []; split <;> rfl
@[simp] theorem answer_fuses (s : State) (t : Taken) (st : Nat) (tail : Bytes) : (answer s t st tail).fuses = s.fuses := by
  unfold answer; simp only []; split <;> rfl
@[simp] theorem answer_security (s : State) (t : Taken) (st : Nat) (tail : Bytes) : (answer s t st tail).security = s.security := by
  unfold answer; simp only []; split <;> rfl
@[simp] theorem answer_fw (s : State) (t : Taken) (st : Nat) (tail : Bytes) : (answer s t st tail).fw = s.fw := by
  unfold answer; simp only []; split <;> rfl
@[simp] theorem answer_events (s : State) (t : Taken) (st : Nat) (tail : Bytes) : (answer s t st tail).events = s.events := by
  unfold answer; simp only []; split <;> rfl

/-! The end of a session -/
@[simp] theorem endSession_pending (s : State) (x : I3cId) (k : Nat) : (endSession s x k).pending = s.pending := by
  unfold endSession; simp only []; split <;> simp
@[simp] theorem endSession_now (s : State) (x : I3cId) (k : Nat) : (endSession s x k).now = s.now := by
  unfold endSession; simp only []; split <;> simp
@[simp] theorem endSession_fresh (s : State) (x : I3cId) (k : Nat) : (endSession s x k).fresh = s.fresh := by
  unfold endSession; simp only []; split <;> simp
@[simp] theorem endSession_out (s : State) (x : I3cId) (k : Nat) : (endSession s x k).out = s.out := by
  unfold endSession; simp only []; split <;> simp
@[simp] theorem endSession_mem (s : State) (x : I3cId) (k : Nat) : (endSession s x k).mem = s.mem := by
  unfold endSession; simp only []; split <;> simp
@[simp] theorem endSession_owners (s : State) (x : I3cId) (k : Nat) : (endSession s x k).owners = s.owners := by
  unfold endSession; simp only []; split <;> simp
@[simp] theorem endSession_clusters (s : State) (x : I3cId) (k : Nat) : (endSession s x k).clusters = s.clusters := by
  unfold endSession; simp only []; split <;> simp
@[simp] theorem endSession_cores (s : State) (x : I3cId) (k : Nat) : (endSession s x k).cores = s.cores := by
  unfold endSession; simp only []; split <;> simp
@[simp] theorem endSession_parts (s : State) (x : I3cId) (k : Nat) : (endSession s x k).parts = s.parts := by
  unfold endSession; simp only []; split <;> simp
@[simp] theorem endSession_video (s : State) (x : I3cId) (k : Nat) : (endSession s x k).video = s.video := by
  unfold endSession; simp only []; split <;> simp
@[simp] theorem endSession_csi (s : State) (x : I3cId) (k : Nat) : (endSession s x k).csi = s.csi := by
  unfold endSession; simp only []; split <;> simp
@[simp] theorem endSession_orders (s : State) (x : I3cId) (k : Nat) : (endSession s x k).orders = s.orders := by
  unfold endSession; simp only []; split <;> simp
@[simp] theorem endSession_links (s : State) (x : I3cId) (k : Nat) : (endSession s x k).links = s.links := by
  unfold endSession; simp only []; split <;> simp
@[simp] theorem endSession_inbox (s : State) (x : I3cId) (k : Nat) : (endSession s x k).inbox = s.inbox := by
  unfold endSession; simp only []; split <;> simp
@[simp] theorem endSession_plan (s : State) (x : I3cId) (k : Nat) : (endSession s x k).plan = s.plan := by
  unfold endSession; simp only []; split <;> simp
@[simp] theorem endSession_requests (s : State) (x : I3cId) (k : Nat) : (endSession s x k).requests = s.requests := by
  unfold endSession; simp only []; split <;> simp
@[simp] theorem endSession_nextTag (s : State) (x : I3cId) (k : Nat) : (endSession s x k).nextTag = s.nextTag := by
  unfold endSession; simp only []; split <;> simp
@[simp] theorem endSession_lanes (s : State) (x : I3cId) (k : Nat) : (endSession s x k).lanes = s.lanes := by
  unfold endSession; simp only []; split <;> simp
@[simp] theorem endSession_time (s : State) (x : I3cId) (k : Nat) : (endSession s x k).time = s.time := by
  unfold endSession; simp only []; split <;> simp
@[simp] theorem endSession_power (s : State) (x : I3cId) (k : Nat) : (endSession s x k).power = s.power := by
  unfold endSession; simp only []; split <;> simp
@[simp] theorem endSession_thermal (s : State) (x : I3cId) (k : Nat) : (endSession s x k).thermal = s.thermal := by
  unfold endSession; simp only []; split <;> simp
@[simp] theorem endSession_fuses (s : State) (x : I3cId) (k : Nat) : (endSession s x k).fuses = s.fuses := by
  unfold endSession; simp only []; split <;> simp
@[simp] theorem endSession_security (s : State) (x : I3cId) (k : Nat) : (endSession s x k).security = s.security := by
  unfold endSession; simp only []; split <;> simp
@[simp] theorem endSession_fw (s : State) (x : I3cId) (k : Nat) : (endSession s x k).fw = s.fw := by
  unfold endSession; simp only []; split <;> simp

/-! The end of a lease -/
@[simp] theorem expireSession_pending (s : State) (x : I3cId) : (expireSession s x).pending = s.pending := by
  unfold expireSession; split <;> simp
@[simp] theorem expireSession_now (s : State) (x : I3cId) : (expireSession s x).now = s.now := by
  unfold expireSession; split <;> simp
@[simp] theorem expireSession_fresh (s : State) (x : I3cId) : (expireSession s x).fresh = s.fresh := by
  unfold expireSession; split <;> simp
@[simp] theorem expireSession_out (s : State) (x : I3cId) : (expireSession s x).out = s.out := by
  unfold expireSession; split <;> simp
@[simp] theorem expireSession_mem (s : State) (x : I3cId) : (expireSession s x).mem = s.mem := by
  unfold expireSession; split <;> simp
@[simp] theorem expireSession_owners (s : State) (x : I3cId) : (expireSession s x).owners = s.owners := by
  unfold expireSession; split <;> simp
@[simp] theorem expireSession_clusters (s : State) (x : I3cId) : (expireSession s x).clusters = s.clusters := by
  unfold expireSession; split <;> simp
@[simp] theorem expireSession_cores (s : State) (x : I3cId) : (expireSession s x).cores = s.cores := by
  unfold expireSession; split <;> simp
@[simp] theorem expireSession_parts (s : State) (x : I3cId) : (expireSession s x).parts = s.parts := by
  unfold expireSession; split <;> simp
@[simp] theorem expireSession_video (s : State) (x : I3cId) : (expireSession s x).video = s.video := by
  unfold expireSession; split <;> simp
@[simp] theorem expireSession_csi (s : State) (x : I3cId) : (expireSession s x).csi = s.csi := by
  unfold expireSession; split <;> simp
@[simp] theorem expireSession_orders (s : State) (x : I3cId) : (expireSession s x).orders = s.orders := by
  unfold expireSession; split <;> simp
@[simp] theorem expireSession_links (s : State) (x : I3cId) : (expireSession s x).links = s.links := by
  unfold expireSession; split <;> simp
@[simp] theorem expireSession_inbox (s : State) (x : I3cId) : (expireSession s x).inbox = s.inbox := by
  unfold expireSession; split <;> simp
@[simp] theorem expireSession_plan (s : State) (x : I3cId) : (expireSession s x).plan = s.plan := by
  unfold expireSession; split <;> simp
@[simp] theorem expireSession_requests (s : State) (x : I3cId) : (expireSession s x).requests = s.requests := by
  unfold expireSession; split <;> simp
@[simp] theorem expireSession_nextTag (s : State) (x : I3cId) : (expireSession s x).nextTag = s.nextTag := by
  unfold expireSession; split <;> simp
@[simp] theorem expireSession_lanes (s : State) (x : I3cId) : (expireSession s x).lanes = s.lanes := by
  unfold expireSession; split <;> simp
@[simp] theorem expireSession_time (s : State) (x : I3cId) : (expireSession s x).time = s.time := by
  unfold expireSession; split <;> simp
@[simp] theorem expireSession_power (s : State) (x : I3cId) : (expireSession s x).power = s.power := by
  unfold expireSession; split <;> simp
@[simp] theorem expireSession_thermal (s : State) (x : I3cId) : (expireSession s x).thermal = s.thermal := by
  unfold expireSession; split <;> simp
@[simp] theorem expireSession_fuses (s : State) (x : I3cId) : (expireSession s x).fuses = s.fuses := by
  unfold expireSession; split <;> simp
@[simp] theorem expireSession_security (s : State) (x : I3cId) : (expireSession s x).security = s.security := by
  unfold expireSession; split <;> simp
@[simp] theorem expireSession_fw (s : State) (x : I3cId) : (expireSession s x).fw = s.fw := by
  unfold expireSession; split <;> simp

end Sys2Proof.Machine
end

