-- ==== Sys2Proof/Laws/MemErrors.lean ====
section
/-! SUPPORT. What a read that meets bit errors leaves alone (05 R155, R157, R159): the bytes, the poison marks, the owners and the
partitions; and that it keeps the canonical form of memory. -/

namespace Sys2Proof.Machine

/-- Two states agree in all that a read for bit errors may not change. -/
structure SameBytes (s t : State) : Prop where
  banks : t.mem.banks = s.mem.banks
  hbm : t.mem.hbm = s.mem.hbm
  bankPoison : t.mem.bankPoison = s.mem.bankPoison
  stackPoison : t.mem.stackPoison = s.mem.stackPoison
  owners : t.owners = s.owners
  parts : t.parts = s.parts
  pending : t.pending = s.pending
  now : t.now = s.now
  out : t.out = s.out
  wf : memWf s.mem = true → memWf t.mem = true

theorem SameBytes.refl (s : State) : SameBytes s s := by constructor <;> simp

theorem SameBytes.trans {s t u : State} (h : SameBytes s t) (g : SameBytes t u) : SameBytes s u := by
  constructor
  · rw [g.banks, h.banks]
  · rw [g.hbm, h.hbm]
  · rw [g.bankPoison, h.bankPoison]
  · rw [g.stackPoison, h.stackPoison]
  · rw [g.owners, h.owners]
  · rw [g.parts, h.parts]
  · rw [g.pending, h.pending]
  · rw [g.now, h.now]
  · rw [g.out, h.out]
  · exact fun w => g.wf (h.wf w)

theorem SameBytes.foldl {α : Type} {f : State → α → State} (hf : ∀ s a, SameBytes s (f s a)) (as : List α) (s : State) :
    SameBytes s (as.foldl f s) := by
  induction as generalizing s with
  | nil => exact .refl s
  | cons a as ih => exact (hf s a).trans (ih _)

theorem foundBank_same (s : State) (w : Nat) : SameBytes s (foundBank s w) := by
  unfold foundBank
  simp only []
  split <;> constructor <;> simp_all [memWf_iff, markClear_wf]

theorem foundUnit_same (s : State) (w : Nat) : SameBytes s (foundUnit s w) := by
  unfold foundUnit
  simp only []
  split <;> constructor <;> simp_all [memWf_iff, markClear_wf]

/-- A read of the banks that meets errors. -/
theorem meetBank_same (s : State) (a n : Nat) : SameBytes s (meetBank s a n) := by
  unfold meetBank
  refine SameBytes.trans ?_ (SameBytes.foldl foundBank_same _ _)
  constructor <;> simp [memWf_iff]

/-- A read of the stacks that meets errors. -/
theorem meetStack_same (s : State) (a n : Nat) : SameBytes s (meetStack s a n) := by
  unfold meetStack
  refine SameBytes.trans (SameBytes.foldl (fun s w => ?_) _ _) (SameBytes.foldl foundUnit_same _ _)
  constructor <;> simp

/-- A read of banks that hold no error finds none. -/
theorem meetBank_clean {s : State} (a n : Nat) (hf : s.mem.bankFlips = []) (hs : s.mem.bankSingles = []) : meetBank s a n = s := by
  unfold meetBank marksIn
  rw [hf, hs]
  rfl

@[simp] theorem meetBank_banks (s : State) (a n : Nat) : (meetBank s a n).mem.banks = s.mem.banks := (meetBank_same s a n).banks
@[simp] theorem meetBank_hbm (s : State) (a n : Nat) : (meetBank s a n).mem.hbm = s.mem.hbm := (meetBank_same s a n).hbm
@[simp] theorem meetBank_bankPoison (s : State) (a n : Nat) : (meetBank s a n).mem.bankPoison = s.mem.bankPoison := (meetBank_same s a n).bankPoison
@[simp] theorem meetBank_owners (s : State) (a n : Nat) : (meetBank s a n).owners = s.owners := (meetBank_same s a n).owners
@[simp] theorem meetBank_parts (s : State) (a n : Nat) : (meetBank s a n).parts = s.parts := (meetBank_same s a n).parts
@[simp] theorem meetStack_banks (s : State) (a n : Nat) : (meetStack s a n).mem.banks = s.mem.banks := (meetStack_same s a n).banks
@[simp] theorem meetStack_hbm (s : State) (a n : Nat) : (meetStack s a n).mem.hbm = s.mem.hbm := (meetStack_same s a n).hbm
@[simp] theorem meetStack_stackPoison (s : State) (a n : Nat) : (meetStack s a n).mem.stackPoison = s.mem.stackPoison := (meetStack_same s a n).stackPoison
@[simp] theorem meetStack_owners (s : State) (a n : Nat) : (meetStack s a n).owners = s.owners := (meetStack_same s a n).owners
@[simp] theorem meetStack_parts (s : State) (a n : Nat) : (meetStack s a n).parts = s.parts := (meetStack_same s a n).parts

/-- A bit error that arises keeps the canonical form and changes no byte. -/
theorem addBitError_wf {s : State} (e : BitError) (h : memWf s.mem = true) : memWf (addBitError s e).mem = true := by
  unfold addBitError
  simp only []
  split <;> split <;> simp_all [memWf_iff, markSet_wf, markClear_wf]

theorem addBitError_banks (s : State) (e : BitError) : (addBitError s e).mem.banks = s.mem.banks ∧ (addBitError s e).mem.hbm = s.mem.hbm := by
  unfold addBitError
  simp only []
  split <;> split <;> simp

end Sys2Proof.Machine
end

