-- ==== Sys2Proof/Laws/Orders.lean ====
section
/-! SUPPORT. How a row that acts on a message or an order finds it: the oldest of its list. -/

namespace Sys2Proof.Machine

theorem onTaken_first {s : State} {x : I3cId} {typ : Nat} {ok : Msg → Bool} {f : Taken → State → State} {t : Taken} {rest : List Taken}
    (h : firstTaken s x typ t rest) (hok : ok t.msg = true) : onTaken s x typ ok f = .next (f t (s.withTaken rest)) := by
  obtain ⟨h1, h2, h3⟩ := h
  simp [onTaken, h1, takeFirst, h2, h3, hok, State.withTaken]

theorem onDue_first {s : State} {typ : Nat} {ok : Msg → Bool} {f : Taken → State → State} {t : Taken} {rest : List Taken}
    (h : firstDue s typ t rest) (hok : ok t.msg = true) : onDue s typ ok f = .next (f t (s.withDue rest)) := by
  obtain ⟨h1, h2⟩ := h
  simp [onDue, h1, takeFirst, h2, hok, State.withDue]

/-- A row without its message changes nothing. -/
theorem onTaken_none {s : State} {x : I3cId} {typ : Nat} {ok : Msg → Bool} {f : Taken → State → State} (h : s.orders.taken = []) :
    onTaken s x typ ok f = .next s := by simp [onTaken, h, takeFirst]
theorem onDue_none {s : State} {typ : Nat} {ok : Msg → Bool} {f : Taken → State → State} (h : s.orders.due = []) :
    onDue s typ ok f = .next s := by simp [onDue, h, takeFirst]

/-- What these rows can do: go on with a message of their list, or nothing. -/
theorem onTaken_cases (s : State) (x : I3cId) (typ : Nat) (ok : Msg → Bool) (f : Taken → State → State) :
    (∃ t rest, onTaken s x typ ok f = .next (f t (s.withTaken rest))) ∨ onTaken s x typ ok f = .next s := by
  unfold onTaken
  split
  · rename_i t rest _; exact .inl ⟨t, rest, rfl⟩
  · exact .inr rfl
theorem onDue_cases (s : State) (typ : Nat) (ok : Msg → Bool) (f : Taken → State → State) :
    (∃ t rest, onDue s typ ok f = .next (f t (s.withDue rest))) ∨ onDue s typ ok f = .next s := by
  unfold onDue
  split
  · rename_i t rest _; exact .inl ⟨t, rest, rfl⟩
  · exact .inr rfl

/-- The response that an answer queues is the last of the port's responses but for repeats owed. -/
theorem answer_port (s : State) (t : Taken) (st : Nat) (tail : Bytes) (y : I3cId) (h : t.port ≠ y) : (answer s t st tail).port y = s.port y := by
  unfold answer
  simp only []
  split
  · exact State.setPort_port_ne _ _ _ _ h
  · exact State.setPort_port_ne _ _ _ _ h

theorem answer_session (s : State) (t : Taken) (st : Nat) (tail : Bytes) (y : I3cId) :
    ((answer s t st tail).port y).session = (s.port y).session := by
  by_cases h : t.port = y
  · subst h; unfold answer; simp only []; split
    · simp only [State.modOrders_port', State.setPort_port]
    · simp only [State.setPort_port]
  · rw [answer_port _ _ _ _ _ h]

/-- What an answer does to the order counts (11, ORD registers). -/
theorem answer_orders (s : State) (t : Taken) (st : Nat) (tail : Bytes) :
    (answer s t st tail).orders = (if isOrder t.msg.typ then
      (if st = 0 then { s.orders with accepted := s.orders.accepted + 1, lastEff := t.eff }
       else if st = 2 then { s.orders with superseded := s.orders.superseded + 1 }
       else { s.orders with refused := s.orders.refused + 1 }) else s.orders) := by
  unfold answer
  simp only []
  split
  · simp only [State.modOrders_orders, State.setPort_orders]
  · rfl

/-! What is left when the message or order of a row has left its list -/
variable (s : State) (rest : List Taken) (p : PartId) (c : CoreId) (g : ClusterId) (x : I3cId) (n : PortId) (d : DieId)

@[simp] theorem State.withTaken_pending : (s.withTaken rest).pending = s.pending := rfl
@[simp] theorem State.withTaken_now : (s.withTaken rest).now = s.now := rfl
@[simp] theorem State.withTaken_fresh : (s.withTaken rest).fresh = s.fresh := rfl
@[simp] theorem State.withTaken_out : (s.withTaken rest).out = s.out := rfl
@[simp] theorem State.withTaken_mem : (s.withTaken rest).mem = s.mem := rfl
@[simp] theorem State.withTaken_owners : (s.withTaken rest).owners = s.owners := rfl
@[simp] theorem State.withTaken_clusters : (s.withTaken rest).clusters = s.clusters := rfl
@[simp] theorem State.withTaken_cores : (s.withTaken rest).cores = s.cores := rfl
@[simp] theorem State.withTaken_parts : (s.withTaken rest).parts = s.parts := rfl
@[simp] theorem State.withTaken_video : (s.withTaken rest).video = s.video := rfl
@[simp] theorem State.withTaken_csi : (s.withTaken rest).csi = s.csi := rfl
@[simp] theorem State.withTaken_i3c : (s.withTaken rest).i3c = s.i3c := rfl
@[simp] theorem State.withTaken_links : (s.withTaken rest).links = s.links := rfl
@[simp] theorem State.withTaken_inbox : (s.withTaken rest).inbox = s.inbox := rfl
@[simp] theorem State.withTaken_plan : (s.withTaken rest).plan = s.plan := rfl
@[simp] theorem State.withTaken_requests : (s.withTaken rest).requests = s.requests := rfl
@[simp] theorem State.withTaken_nextTag : (s.withTaken rest).nextTag = s.nextTag := rfl
@[simp] theorem State.withTaken_lanes : (s.withTaken rest).lanes = s.lanes := rfl
@[simp] theorem State.withTaken_time : (s.withTaken rest).time = s.time := rfl
@[simp] theorem State.withTaken_power : (s.withTaken rest).power = s.power := rfl
@[simp] theorem State.withTaken_thermal : (s.withTaken rest).thermal = s.thermal := rfl
@[simp] theorem State.withTaken_fuses : (s.withTaken rest).fuses = s.fuses := rfl
@[simp] theorem State.withTaken_security : (s.withTaken rest).security = s.security := rfl
@[simp] theorem State.withTaken_fw : (s.withTaken rest).fw = s.fw := rfl
@[simp] theorem State.withTaken_events : (s.withTaken rest).events = s.events := rfl
@[simp] theorem State.withTaken_part : (s.withTaken rest).part p = s.part p := rfl
@[simp] theorem State.withTaken_core : (s.withTaken rest).core c = s.core c := rfl
@[simp] theorem State.withTaken_cluster : (s.withTaken rest).cluster g = s.cluster g := rfl
@[simp] theorem State.withTaken_port : (s.withTaken rest).port x = s.port x := rfl
@[simp] theorem State.withTaken_link : (s.withTaken rest).link n = s.link n := rfl
@[simp] theorem State.withTaken_engine : (s.withTaken rest).engine d = s.engine d := rfl
@[simp] theorem State.withDue_pending : (s.withDue rest).pending = s.pending := rfl
@[simp] theorem State.withDue_now : (s.withDue rest).now = s.now := rfl
@[simp] theorem State.withDue_fresh : (s.withDue rest).fresh = s.fresh := rfl
@[simp] theorem State.withDue_out : (s.withDue rest).out = s.out := rfl
@[simp] theorem State.withDue_mem : (s.withDue rest).mem = s.mem := rfl
@[simp] theorem State.withDue_owners : (s.withDue rest).owners = s.owners := rfl
@[simp] theorem State.withDue_clusters : (s.withDue rest).clusters = s.clusters := rfl
@[simp] theorem State.withDue_cores : (s.withDue rest).cores = s.cores := rfl
@[simp] theorem State.withDue_parts : (s.withDue rest).parts = s.parts := rfl
@[simp] theorem State.withDue_video : (s.withDue rest).video = s.video := rfl
@[simp] theorem State.withDue_csi : (s.withDue rest).csi = s.csi := rfl
@[simp] theorem State.withDue_i3c : (s.withDue rest).i3c = s.i3c := rfl
@[simp] theorem State.withDue_links : (s.withDue rest).links = s.links := rfl
@[simp] theorem State.withDue_inbox : (s.withDue rest).inbox = s.inbox := rfl
@[simp] theorem State.withDue_plan : (s.withDue rest).plan = s.plan := rfl
@[simp] theorem State.withDue_requests : (s.withDue rest).requests = s.requests := rfl
@[simp] theorem State.withDue_nextTag : (s.withDue rest).nextTag = s.nextTag := rfl
@[simp] theorem State.withDue_lanes : (s.withDue rest).lanes = s.lanes := rfl
@[simp] theorem State.withDue_time : (s.withDue rest).time = s.time := rfl
@[simp] theorem State.withDue_power : (s.withDue rest).power = s.power := rfl
@[simp] theorem State.withDue_thermal : (s.withDue rest).thermal = s.thermal := rfl
@[simp] theorem State.withDue_fuses : (s.withDue rest).fuses = s.fuses := rfl
@[simp] theorem State.withDue_security : (s.withDue rest).security = s.security := rfl
@[simp] theorem State.withDue_fw : (s.withDue rest).fw = s.fw := rfl
@[simp] theorem State.withDue_events : (s.withDue rest).events = s.events := rfl
@[simp] theorem State.withDue_part : (s.withDue rest).part p = s.part p := rfl
@[simp] theorem State.withDue_core : (s.withDue rest).core c = s.core c := rfl
@[simp] theorem State.withDue_cluster : (s.withDue rest).cluster g = s.cluster g := rfl
@[simp] theorem State.withDue_port : (s.withDue rest).port x = s.port x := rfl
@[simp] theorem State.withDue_link : (s.withDue rest).link n = s.link n := rfl
@[simp] theorem State.withDue_engine : (s.withDue rest).engine d = s.engine d := rfl
@[simp] theorem State.withTaken_orders : (s.withTaken rest).orders = { s.orders with taken := rest } := rfl
@[simp] theorem State.withDue_orders : (s.withDue rest).orders = { s.orders with due := rest } := rfl

end Sys2Proof.Machine
end

