-- ==== Sys2Proof/WellFormed.lean ====
section
/-! DEFINITION. Well-formed commands: every operand fits the field of the bus, frame or record that carries it. The machine
does not rest on it: a meaning is total on ill-formed operands too. -/

namespace Sys2Proof

/-- A queue number within a partition: at most 256 blocks of 128 queues (02 R43; PART_p_QUEUES). -/
def queueFits (q : Nat) : Bool := decide (q < 32768)

/-- A logical cluster of a partition (00 R4). -/
def clusterFits (c : Nat) : Bool := decide (c < 8)

/-- A 7-bit I3C address (11 R288). -/
def addressFits (a : Nat) : Bool := decide (a < 128)

/-- A 16-bit value: a register offset (11 R290), a maximum length (R289), a frame number (10 R274), a supply voltage in mV. -/
def halfFits (v : Nat) : Bool := decide (v < 65536)

/-- The data of a private write (11 R290). -/
def dataFits (d : Bytes) : Bool := decide (d.length ≤ 4096)

/-- The length of a private read. -/
def readFits (n : Nat) : Bool := decide (n ≤ 4096)

/-- A virtual channel 0–31 and a data type of 6 bits (10). -/
def channelFits (vc : Nat) : Bool := decide (vc < 32)
def typeFits (dt : Nat) : Bool := decide (dt < 64)

/-- A long packet: at most 65,535 bytes; 0, 1 or 2 bit errors in its header are told apart (10 R274). -/
def packetFits (d : Bytes) (hdrErrors : Nat) : Bool := decide (d.length ≤ 65535) && decide (hdrErrors ≤ 2)

/-- A place of the address space of 2,048 places (01 R38). -/
def placeFits (p : Nat) : Bool := decide (p < 2048)

/-- A frame's header fields fit; its payload is 0 to 4,096 bytes in multiples of 64 and its tag 16 bytes (12 R322). Its LEN may be another. -/
def frameFits (f : Frame) : Bool :=
  placeFits f.dst && placeFits f.src && decide (f.typ < 256) && decide (f.job < 2 ^ 32) && decide (f.keyid < 256) &&
  decide (f.msg < 2 ^ 32) && decide (f.counter < 2 ^ 64) && decide (f.offset < 2 ^ 32) && decide (f.payload.length ≤ 4096) &&
  decide (f.payload.length % 64 = 0) && decide (f.tag.length = 16) && halfFits f.len && decide (f.spare.length = 11)

/-- An envelope's counters are 8-bit or 16-bit fields, and its frame fits (12 R317). -/
def envelopeFits (e : Envelope) : Bool :=
  halfFits e.lseq && halfFits e.lack && decide (e.credit.1 < 256) && decide (e.credit.2.1 < 256) && decide (e.credit.2.2 < 256) &&
  (match e.frame with | some f => frameFits f | none => true) && decide (e.crc < 2 ^ 32)

/-- A heartbeat's fields fit the record of 13 R357. -/
def heartbeatFits (h : Heartbeat) : Bool :=
  placeFits h.place && decide (h.part < 8) && halfFits h.group && decide (h.claim < 2 ^ 32) && decide (h.highest < 2 ^ 32) &&
  decide (h.step < 2 ^ 64) && decide (h.ocrc < 2 ^ 32) && decide (h.serial < 2 ^ 64) && decide (h.bflags < 256) &&
  decide (h.cabinet < 2 ^ 32) && decide (h.time < 2 ^ 64) && decide (h.rcrc < 2 ^ 32)

/-- A partner's identity: place, port of 16, and a key of 97 bytes with a signature of 96 when it can be verified. -/
def partnerFits (i : PartnerId) : Bool :=
  placeFits i.place && decide (i.port < 16) && decide (i.pubKey.length ≤ 97) && decide (i.sig.length ≤ 96)

/-- Straps: tray 0–63, slot 0–31 (11 R312). -/
def startFits (i : StartIn) : Bool := decide (i.tray < 64) && decide (i.slot < 32)

/-- The operands of a command fit their fields. -/
def Instr.wf : Instr → Bool
  | .nop _ q | .sizeCopy _ q | .matmul _ q | .groupedMatmul _ q | .reduce _ q | .attn _ q | .dwconv _ q | .wgather _ q
  | .poolMax _ q | .poolMin _ q | .globalAvg _ q | .argmaxCh _ q | .hbmRead _ q | .hbmWrite _ q | .bankCopy _ q | .hbmZero _ q
  | .linkSend _ q | .linkRecv _ q | .storeRead _ q | .storeWrite _ q | .vctxSet _ q | .vencFrame _ q | .vdecFrame _ q
  | .gather _ q | .emit _ q _ | .videoTurn _ q | .vectorCommand _ q _ => queueFits q
  | .walkStage _ c | .walkAppend _ c | .houseTurn _ c | .copyPhase _ c => clusterFits c
  | .setdasa _ a b => addressFits a && addressFits b
  | .setmwl _ v | .setmrl _ v => halfFits v
  | .readPointerSet _ o | .dataRegisterRewind _ o => halfFits o
  | .registerWrite _ o d _ => halfFits o && dataFits d
  | .mbxCmdDataWrite _ d | .mbxBulkDataWrite _ d => dataFits d
  | .rspDataRead _ n | .logDataRead _ n | .loRegisterRead _ n | .pwrCountsRead _ n | .csiRxFaultsRead _ n | .lnkErrorsRead _ n => readFits n
  | .quotaWindowTimeout _ vc | .csiFrameTimeout _ vc => channelFits vc
  | .csiFrameStart _ vc f | .csiFrameEnd _ vc f => channelFits vc && halfFits f
  | .csiLongPacket _ vc dt d _ e => channelFits vc && typeFits dt && packetFits d e
  | .csiGenericShortPacket _ dt => typeFits dt
  | .overVoltage mv | .supplyWarning mv | .supplyWarningEnd mv | .supplyHold mv | .holdLevelLeft mv => halfFits mv
  | .envelopeReceive _ e => envelopeFits e
  | .heartbeatReceive h => heartbeatFits h
  | .partnerIdentity _ i => partnerFits i
  | .kaRetryTimeout _ m | .kaRetryInterval _ m | .jobKeyRekey _ m | .oldKeyidExpiry _ m | .gcmFailTeardown _ m => placeFits m
  | .emitFrameSend _ n => decide (n < 1024)
  | .start i => startFits i
  | .fecLock _ c => decide (c.length ≤ 32)
  | .commandCompletion _ cls inst => decide (cls < 16) && decide (inst < 64)
  | .intakeChunk _ | .stepBoundary _ _ | .checkpointComplete _ | .stepExport _ | .stepStall _ | .hardStop _ | .videoSlotBoundary _
  | .hbmScrub _ _ _ | .keySweep _ _ | .clearComplete _ | .gloryHolePass _ _ | .teaserCycle _ | .floorMiss _ | .coreHotDescent _ | .descentEnd
  | .pairSuspect _ | .flowLow | .inletOut | .coolantFlagClear | .regulatorFault _ _ | .stackSelfRefresh | .supplyHoldEnd | .supplyReset
  | .startTimeLockTimeout | .prsntLoss | .tamperLoopOpen | .lidTamper _ | .ephemeralKeyExpiry _ | .timeSyncEdge _ _ | .identityBurst _
  | .refclkLoss | .edgeMissing | .slewComplete | .rstdaa _ | .getpid _ | .getbcr _ | .getdcr _ | .getstatus _ | .getmwl _ | .getmrl _
  | .getmxds _ | .rstactNoReset _ | .rstactPortReset _ | .rstactRecoveryEnd _ | .enec _ | .disec _ | .enthdr0 _ | .enthdr3 _
  | .enthdrUnsupported _ | .hdrExit _ | .mbxPostCmd _ | .mbxPostBulk _ | .mbxTakeRsp _ | .mbxTakeLog _ | .mbxAbortCmd _ | .mbxAbortBulk _
  | .timeNextHiWrite _ _ | .sessionOpen _ | .leaseRenew _ | .detach _ | .leaseExpiry _ | .identity _ | .attestation _ _ | .tallyRead _
  | .sizeRead _ | .coreStatus _ | .orderWindowResolve | .partAssign | .partLoad _ | .partArm _ | .partStart | .partStop | .partUnload
  | .partRelease | .seedSet | .streamBind | .csiTimeout | .videoSlot | .servingSettings | .cancel | .cancelPendingEntry | .adapterLoad
  | .coreFence | .coreReadmit | .replaySet | .pwrCap | .pwrDrainEnter | .pwrDrainLeave | .pwrQuench | .pwrQuenchClear | .thmCoolant
  | .thmSensorClear | .claimPair | .claimYield | .claimRaise | .claimUnpair | .claimReenter | .secKeyRelease _ | .secIntake | .secRotate
  | .secReturnBegin | .secReturnConfirm | .fwBeginBlocks _ | .fwBeginPull _ | .fwBlock _ | .fwEnd _ | .fwLoadTimeout | .fwActivateBoundary _
  | .fwActivateRestart _ | .deferredActivation | .fwWithdrawDeferred _ | .fwWithdrawLoad _ | .evtCopy | .evtCopyStop | .evtMirror
  | .logMessageFill _ | .mirrorFrame | .linkPlan | .linkShare | .linkJob | .linkPortDisable | .linkPortEnable | .linkPortTest
  | .linkTestEnd _ _ _ | .intervalTest _ | .linkIngressCopy | .linkIngressBind | .linkIngressRemove | .timeTrim | .csiLaneSyncLoss _
  | .csiLaneSyncRegained _ | .calendarTurn _ | .keyAgreementStart _ | .kaHello | .kaReply | .kaConfirm | .ringCredit | .jobData | .ingressCopy
  | .decisionPart | .snapshotSection | .snapshotJournal | .reentryRequest | .storeRdData | .storeWrAck | .storeErr | .storeRequestTimeout
  | .trainingRetry _ | .trainingTimeout _ | .slowPartner _ | .slowPartnerRetrain _ | .faultyPartner _ | .heartbeatTimer _ | .holderLost _
  | .followerUnmatched _ | .signalDetect _ | .refclkReturn | .prsntMate | .peerRxSyncLost | .peerRxSyncGained => true

end Sys2Proof
end

