-- ==== Sys2Proof/Tests/Slice0.lean ====
section
/-! SUPPORT. The model's own tests: an ill-formed command for each check of WellFormed, and for each statement a state and operands that
meet the hypotheses of each of its clauses, with what the command then does. Expected values come from spec/, at the rule named. -/

namespace Sys2Proof.Machine

set_option Elab.async false

/-- The outcome is a next state that satisfies `f`. -/
def okay (o : Result) (f : State → Bool) : Bool := match o with | .next t => f t | _ => false

/-- An order of type `typ` with a body, taken on port A. -/
def orderMsg (typ : Nat) (body : Bytes) : Taken :=
  { port := 0, bulk := false, msg := { typ := typ, seq := 1, issuer := 5, issued := 0, body := body }, eff := 0 }

/-- `s` with that order due. -/
def due (s : State) (typ : Nat) (body : Bytes) : State := s.modOrders (fun o => { o with due := [orderMsg typ body] })
/-- The last answer on port A carries that status. -/
def statusIs (st : Byte) (u : State) : Bool := (u.port 0).responses.getLast?.map (fun r => r.getD 16 0xFF) == some st

/-- `s` with that message taken. -/
def took (s : State) (typ : Nat) (body : Bytes) : State := s.modOrders (fun o => { o with taken := [orderMsg typ body] })

/-- A member of a partition's mirror set: place 40, serial 7. -/
def mirrorJob : Job := { mirror := true, job := 3, total := 2, own := 0, members := [(0, { place := 0, serial := 1, keys := PeerKeys.init }), (1, { place := 40, serial := 7, keys := PeerKeys.init })] }

/-- Partition 0 in a mirror set, unpaired. -/
def pairable : State := State.reset.modPart 0 (fun x => { x with state := .loaded, job := some mirrorJob })

/-- Partition 0 paired with place 40 in a role. -/
def paired (role : Role) (leader : Bool) (claim : BitVec 32) : State :=
  pairable.modClaim 0 (fun c => { c with role := role, paired := true, group := 65, partner := 40, serial := 7, detectSteps := 2, detectMin := 2,
                                         claim := claim, highest := claim, leader := leader, lastBeat := some 0 })
/-! ## Well-formedness: one ill-formed command for each check -/

/-- A frame of 64 bytes of zeros. -/
def zeroFrame : Frame :=
  { magic := 0x4C43, version := 1, typ := 0x10, dst := 0, src := 40, cabinet := 0, job := 3, keyid := 0, fflags := 1, msg := 0, counter := 1, offset := 0,
    ring := 0, payload := zeros 64, tag := zeros 16 }

/-- An envelope with its CRC. -/
def sealEnv (e : Envelope) : Envelope := { e with crc := envelopeCrc e }

/-- An envelope with a frame. -/
def env (f : Option Frame) : Envelope := sealEnv { lseq := 0, lack := 65535, nak := false, credit := (1, 2, 3), frame := f, crc := 0, uncorr := 0 }

/-- A heartbeat of place 40. -/
def beat : Heartbeat :=
  sealBeat { place := 40, part := 0, bflags := 4, group := 65, claim := 7, highest := 7, step := 100, ocrc := 0, time := 5, serial := 7, cabinet := 0, rcrc := 0 }

/-- A store tray's identity without a signature. -/
def storeId : PartnerId := { place := 2040, port := 3, cabinet := 0, serial := 9, store := true, pubKey := [], sig := [] }

/-- A good start at tray 3, slot 17. -/
def goodStart : StartIn := { StartIn.good State.reset with tray := 3, slot := 17 }

theorem test_wf_queue : Instr.wf (.nop 0 32767) = true ∧ Instr.wf (.nop 0 32768) = false := by decide
theorem test_wf_cluster : Instr.wf (.walkStage 0 7) = true ∧ Instr.wf (.walkStage 0 8) = false := by decide
theorem test_wf_address : Instr.wf (.setdasa 0 8 127) = true ∧ Instr.wf (.setdasa 0 8 128) = false := by decide
theorem test_wf_half : Instr.wf (.setmwl ⟨0, false⟩ 65535) = true ∧ Instr.wf (.setmwl ⟨0, false⟩ 65536) = false := by decide
theorem test_wf_data : Instr.wf (.mbxCmdDataWrite 0 (zeros 4096)) = true ∧ Instr.wf (.mbxCmdDataWrite 0 (zeros 4097)) = false := by decide +kernel
theorem test_wf_read : Instr.wf (.rspDataRead 0 4096) = true ∧ Instr.wf (.rspDataRead 0 4097) = false := by decide
theorem test_wf_channel : Instr.wf (.quotaWindowTimeout 0 31) = true ∧ Instr.wf (.quotaWindowTimeout 0 32) = false := by decide
theorem test_wf_type : Instr.wf (.csiGenericShortPacket 0 63) = true ∧ Instr.wf (.csiGenericShortPacket 0 64) = false := by decide
theorem test_wf_packet : Instr.wf (.csiLongPacket 0 0 0x2A [1] true 2) = true ∧ Instr.wf (.csiLongPacket 0 0 0x2A [1] true 3) = false := by decide
theorem test_wf_place : Instr.wf (.gcmFailTeardown 0 2047) = true ∧ Instr.wf (.gcmFailTeardown 0 2048) = false := by decide
theorem test_wf_frame : Instr.wf (.envelopeReceive 0 (env (some zeroFrame))) = true ∧
    Instr.wf (.envelopeReceive 0 (env (some { zeroFrame with payload := zeros 65 }))) = false := by decide +kernel
theorem test_wf_envelope : Instr.wf (.envelopeReceive 0 { env none with lseq := 65536 }) = false := by decide +kernel
theorem test_wf_heartbeat : Instr.wf (.heartbeatReceive beat) = true ∧ Instr.wf (.heartbeatReceive { beat with claim := 2 ^ 32 }) = false := by decide +kernel
theorem test_wf_partner : Instr.wf (.partnerIdentity 0 storeId) = true ∧ Instr.wf (.partnerIdentity 0 { storeId with port := 16 }) = false := by decide
theorem test_wf_start : Instr.wf (.start goodStart) = true ∧ Instr.wf (.start { goodStart with slot := 32 }) = false := by decide +kernel
theorem test_wf_stream : Instr.wf (.emitFrameSend 0 1023) = true ∧ Instr.wf (.emitFrameSend 0 1024) = false := by decide
theorem test_wf_unit : Instr.wf (.commandCompletion 0 5 63) = true ∧ Instr.wf (.commandCompletion 0 5 64) = false := by decide
theorem test_wf_challenge : Instr.wf (.fecLock 0 (zeros 32)) = true ∧ Instr.wf (.fecLock 0 (zeros 33)) = false := by decide

/-! ## I3C targets (11 R287–R293) -/

/-- Port `x` with a dynamic address. -/
def addressed (x : I3cId) : State := State.reset.modPort x (fun q => { q with dynAddr := some 0x19 })

theorem test_step_idle : okay (step State.reset) (fun u => u.now == 1) = true := by decide +kernel
theorem test_step_front : okay (step { State.reset with pending := [.prsntMate, .refclkReturn] }) (fun u => u.pending == [.refclkReturn]) = true := by decide +kernel
theorem test_gets : portAcks (addressed 1) 1 = true ∧
    okay (exec (.getpid 1) (addressed 1)) (fun u => u.out == [.i3cData 1 [0x03, 0xA6, 0x76, 0x48, 0x10, 0x00]]) = true ∧
    okay (exec (.getstatus 1) ((addressed 1).modPort 1 (fun q => { q with protoErr := true })))
      (fun u => u.out == [.i3cData 1 [2, 32]] && !(u.port 1).protoErr) = true := by decide +kernel
theorem test_gets_silent : portAcks State.reset 0 = false ∧ okay (exec (.getpid 0) State.reset) (fun u => u.out == [.i3cNack 0]) = true := by decide +kernel
theorem test_setdasa : portHears State.reset 0 = true ∧ recovering State.reset 0 = false ∧ (State.reset.port 0).dynAddr = none ∧
    okay (exec (.setdasa 0 8 127) State.reset) (fun u => (u.port 0).dynAddr == some 127) = true := by decide +kernel
theorem test_lengths : okay (exec (.setmwl ⟨0, false⟩ 4098) State.reset) (fun u => (u.port 0).mwl == 4098) = true ∧
    okay (exec (.setmwl ⟨0, false⟩ 5) State.reset) (fun u => (u.port 0).mwl == 4098) = true ∧
    okay (exec (.setmrl ⟨1, false⟩ 4) State.reset) (fun u => (u.port 1).mrl == 4) = true ∧
    okay (exec (.setmrl ⟨1, false⟩ 4097) State.reset) (fun u => (u.port 1).mrl == 4096) = true := by decide +kernel
theorem test_ccc_direct : portHears (addressed 0) 0 = true ∧ portAcks (addressed 0) 0 = true ∧ portAcks State.reset 0 = false ∧
    okay (exec (.setmwl ⟨0, true⟩ 6) (addressed 0)) (fun u => (u.port 0).mwl == 6) = true ∧
    okay (exec (.setmrl ⟨0, true⟩ 6) State.reset) (fun u => u.out == [.i3cNack 0] && (u.port 0).mrl == 4096) = true ∧
    okay (exec (.setdasa 0 8 9) (addressed 0)) (fun u => u.out == [.i3cNack 0] && (u.port 0).dynAddr == some 0x19) = true := by decide +kernel
theorem test_rstact_forms : okay (exec (.rstactNoReset ⟨0, true, 0⟩) (addressed 0)) (fun u => u.out == [.i3cAck 0]) = true ∧
    okay (exec (.rstactNoReset ⟨0, false, 2⟩) State.reset) (fun u => u.out == [.i3cNack 0]) = true ∧
    okay (exec (.enec ⟨0, true⟩) State.reset) (fun u => u.out == [.i3cNack 0]) = true := by decide +kernel
theorem test_port_reset : okay (exec (.rstactPortReset ⟨0, true⟩) ((addressed 0).modPort 0 (fun q => { q with cmd := [1], pointer := 8 })))
    (fun u => (u.port 0).cmd == [] && (u.port 0).pointer == 0 && (u.port 0).recoverAt == some 1000000) = true := by decide +kernel
theorem test_recovery_end : okay (exec (.rstactRecoveryEnd 0) (State.reset.modPort 0 (fun q => { q with recoverAt := some 9 })))
    (fun u => u.now == 9 && (u.port 0).recoverAt == none) = true := by decide +kernel
theorem test_modes : okay (exec (.enthdrUnsupported 0) State.reset) (fun u => (u.port 0).mode == .silent && !portHears u 0) = true ∧
    okay (exec (.hdrExit 0) (State.reset.modPort 0 (fun q => { q with mode := .silent }))) (fun u => portHears u 0) = true := by decide +kernel
theorem test_pointer : okay (exec (.readPointerSet 0 0xFFFC) (addressed 0)) (fun u => (u.port 0).pointer == 0xFFFC) = true ∧
    okay (exec (.registerWrite 0 2 [1, 2, 3, 4] false) (addressed 0)) (fun u => (u.port 0).malformed == 1) = true ∧
    okay (exec (.registerWrite 0 0 [] true) (addressed 0)) (fun u => (u.port 0).protoErr) = true := by decide +kernel
theorem test_rewind : okay (exec (.dataRegisterRewind 0 0x0218) ((addressed 0).modPort 0 (fun q => { q with rspAt := 3 })))
    (fun u => (u.port 0).rspAt == 0 && (u.port 0).pointer == 0x0218) = true := by decide +kernel
theorem test_data_words : okay (exec (.mbxCmdDataWrite 0 [1, 2, 3, 4]) ((addressed 0).modPort 0 (fun q => { q with cmd := zeros 4092 })))
    (fun u => (u.port 0).cmd.length == 4096 && (u.port 0).overrun == 0) = true ∧
    okay (exec (.mbxBulkDataWrite 0 [1, 2, 3, 4]) (addressed 0)) (fun u => (u.port 0).bulk == [1, 2, 3, 4]) = true := by decide +kernel
theorem test_data_overrun : okay (exec (.mbxCmdDataWrite 0 [1, 2, 3, 4]) ((addressed 0).modPort 0 (fun q => { q with cmd := zeros 4093 })))
    (fun u => (u.port 0).cmd.length == 4093 && (u.port 0).overrun == 1) = true ∧
    okay (exec (.mbxBulkDataWrite 0 [1, 2, 3, 4]) ((addressed 0).modPort 0 (fun q => { q with bulkFull := true }))) (fun u => (u.port 0).overrun == 1) = true ∧
    okay (exec (.mbxTakeRsp 1) State.reset) (fun u => u.out == [.i3cNack 1]) = true := by decide +kernel
theorem test_abort : okay (exec (.mbxAbortCmd 0) ((addressed 0).modPort 0 (fun q => { q with cmd := [1] }))) (fun u => (u.port 0).cmd == []) = true ∧
    okay (exec (.mbxAbortBulk 0) ((addressed 0).modPort 0 (fun q => { q with bulk := [1] }))) (fun u => (u.port 0).bulk == []) = true := by decide +kernel
theorem test_takes : okay (exec (.mbxTakeRsp 0) ((addressed 0).modPort 0 (fun q => { q with responses := [[1], [2]] }))) (fun u => (u.port 0).responses == [[2]]) = true ∧
    okay (exec (.mbxTakeLog 0) ((addressed 0).modPort 0 (fun q => { q with log := some (true, 0, 1, [1]) }))) (fun u => (u.port 0).log == none) = true := by decide +kernel
theorem test_take_copied : okay (exec (.mbxTakeLog 0) ((addressed 0).modPort 0 (fun q => { q with log := some (false, 5, 2, [1]), cursor := 5 })))
    (fun u => (u.port 0).cursor == 7 && u.events.copied == 7) = true := by decide +kernel

/-- 200 ms after a TIME_SYNC edge. -/
def afterEdge : State := { (addressed 0).modTime (fun t => { t with lastEdge := some 0 }) with now := 200000000 }

theorem test_time_next : commitValid afterEdge = true ∧ okay (exec (.timeNextHiWrite 0 1) (afterEdge.modPort 0 (fun q => { q with nextLo := 5 })))
    (fun u => (u.port 0).commit == some (2 ^ 32 + 5)) = true := by decide +kernel
theorem test_time_next_early : commitValid { afterEdge with now := 99999999 } = false ∧
    okay (exec (.timeNextHiWrite 0 1) { afterEdge with now := 99999999 }) (fun u => u.time.annBad == 1 && (u.port 0).commit == none) = true := by decide +kernel

/-- A LEASE_RENEW message of 16 bytes. -/
def renewMsg : Bytes := [2, 1, 0, 0, 0, 0, 0, 0] ++ zeros 8

theorem test_post : okay (exec (.mbxPostCmd 0) ((addressed 0).modPort 0 (fun q => { q with cmd := renewMsg })))
    (fun u => (u.port 0).posted == 1 && (u.port 0).cmd == [] && !(u.port 0).cmdFull) = true ∧
    okay (exec (.mbxPostBulk 0) ((addressed 0).modPort 0 (fun q => { q with bulk := renewMsg }))) (fun u => (u.port 0).posted == 1 && !(u.port 0).bulkFull) = true := by decide +kernel
theorem test_post_waits : okay (exec (.mbxPostCmd 0) ((addressed 0).modPort 0 (fun q => { q with cmd := renewMsg, owed := 15 })))
    (fun u => (u.port 0).cmdFull && (u.port 0).posted == 0) = true := by decide +kernel

/-- Port 0 with its pointer at an offset. -/
def pointed (off : Nat) : State := (addressed 0).modPort 0 (fun q => { q with pointer := off })

theorem test_read_counts : pointerReady (pointed 0x0818) 0 = true ∧ okay (exec (.pwrCountsRead 0 4) ((pointed 0x0818).modPower (fun w => { w with sheds := 3 })))
    (fun u => u.power.sheds == 0 && u.out == [.i3cData 0 [3, 0, 0, 0]] && (u.port 0).pointer == 0x081C) = true := by decide +kernel
theorem test_read_faults : okay (exec (.csiRxFaultsRead 0 4) ((pointed 0x113C).modRx 15 (fun r => { r with badLine := 2 })))
    (fun u => (u.csi.rx.get 15).badLine == 0 && (u.port 0).pointer == 0x1140) = true := by decide +kernel
theorem test_read_errors : okay (exec (.lnkErrorsRead 0 4) ((pointed 0x1338).modLink 15 (fun l => { l with naks := 2 })))
    (fun u => (u.link 15).naks == 0 && u.out == [.i3cData 0 [2, 0, 0, 0]]) = true := by decide +kernel
theorem test_read_lo_hi :
    let s := (pointed 0x0D2C).modPart 7 (fun x => { x with step := 5 * 2 ^ 32 + 6 })
    (s.port 0).pointer = 0x0C4C + 0x20 * (7 : PartId).val ∧
    (match exec (.loRegisterRead 0 4) s with
     | .next u => okay (exec (.loRegisterRead 0 4) (u.modPart 7 (fun x => { x with step := 9 * 2 ^ 32 })))
        (fun w => w.out == [.i3cData 0 [6, 0, 0, 0], .i3cData 0 [5, 0, 0, 0]])
     | _ => false) = true := by decide +kernel
theorem test_read_data : okay (exec (.rspDataRead 0 4) ((pointed 0x0218).modPort 0 (fun q => { q with responses := [[1, 2, 3, 4, 5, 6, 7, 8]], rspAt := 1 })))
    (fun u => u.out == [.i3cData 0 [5, 6, 7, 8]] && (u.port 0).rspAt == 2 && (u.port 0).pointer == 0x0218) = true ∧
    okay (exec (.logDataRead 0 4) ((pointed 0x021C).modPort 0 (fun q => { q with log := some (false, 0, 1, [9, 8, 7, 6]) })))
    (fun u => u.out == [.i3cData 0 [9, 8, 7, 6]] && (u.port 0).logAt == 1) = true := by decide +kernel
theorem test_reserved : regLive State.reset 0 0x2000 = 0 ∧ regLive State.reset 0 0x1EF0 = 0 := by decide +kernel

/-! ## Sessions and queries (11 R300–R311) -/

theorem test_session_open : firstTaken (took State.reset 1 (leBytes 2 0 ++ zeros 6)) 0 1 (orderMsg 1 (leBytes 2 0 ++ zeros 6)) [] ∧
    okay (exec (.sessionOpen 0) (took State.reset 1 (leBytes 2 0 ++ zeros 6)))
      (fun u => u.power.state == .ready && (u.port 0).session.live && (u.port 0).session.expiry == 5 && (u.port 0).session.number == 1) = true := by
  unfold firstTaken; decide +kernel
theorem test_session_mismatch : okay (exec (.sessionOpen 0) (took State.reset 1 (leBytes 2 2 ++ zeros 6)))
    (fun u => u.power.state == .hold && u.orders.refusedFlag && !(u.port 0).session.live) = true := by decide +kernel

/-- Port 0 with a live session of 5 s. -/
def inSession : State := State.reset.modPort 0 (fun q => { q with session := { live := true, number := 1, iface := 1, expiry := 5, renewed := 0, clean := false } })

theorem test_lease_renew : okay (exec (.leaseRenew 0) (took inSession 2 []))
    (fun u => (u.port 0).responses.map (fun r => (r.drop 16).take 8) == [[0, 0, 0, 0] ++ leBytes 4 5000]) = true := by decide +kernel
theorem test_detach : okay (exec (.detach 0) (took inSession 3 [])) (fun u => !(u.port 0).session.live && (u.port 0).session.clean) = true := by decide +kernel
theorem test_lease_expiry : okay (exec (.leaseExpiry 0) inSession) (fun u => u.now == 5000000000 && !(u.port 0).session.live && !(u.port 0).session.clean) = true := by
  decide +kernel
theorem test_identity : okay (exec (.identity 0) (took State.reset 8 [])) (fun u => (u.port 0).responses.map (fun r => r.length) == [16 + 484]) = true := by decide +kernel
theorem test_size_read : okay (exec (.sizeRead 0) (took State.reset 0x11 [])) (fun u => (u.port 0).responses.map (fun r => r.length) == [16 + 516]) = true := by
  decide +kernel
theorem test_core_status : okay (exec (.coreStatus 0) (took State.reset 0x12 [])) (fun u => (u.port 0).responses.map (fun r => r.length) == [16 + 68]) = true := by
  decide +kernel
theorem test_tally_read :
    let s := State.reset.modPart 1 (fun x => { x with state := .running, nT := 1, tallies := [3, 4], bases := [1, 2], step := 9 })
    okay (exec (.tallyRead 0) (took s 0x10 ([1, 1] ++ leBytes 2 62 ++ leBytes 2 2))) (fun u => (u.port 0).responses.map (fun r => (r.drop 24).take 8) == [leBytes 8 9]) = true ∧
    okay (exec (.tallyRead 0) (took s 0x10 ([1, 0] ++ leBytes 2 1 ++ leBytes 2 1))) (fun u => (u.port 0).responses.map (fun r => (r.drop 32).take 8) == [leBytes 8 4]) = true := by
  decide +kernel
theorem test_tally_refused :
    let s := State.reset.modPart 1 (fun x => { x with state := .armed, nT := 1 })
    okay (exec (.tallyRead 0) (took s 0x10 ([1, 1] ++ leBytes 2 63 ++ leBytes 2 2))) (statusIs 0x04) = true ∧
    okay (exec (.tallyRead 0) (took State.reset 0x10 ([1, 1] ++ leBytes 2 62 ++ leBytes 2 2))) (statusIs 0x10) = true ∧
    okay (exec (.identity 0) (took { State.reset with fuses := { State.reset.fuses with lifecycle := 0 } } 8 [])) (statusIs 0x10) = true := by decide +kernel
theorem test_ephemeral_expiry :
    okay (exec (.ephemeralKeyExpiry 0) (State.reset.modKeys 0 (fun k => { k with ephemeral := [{ nonce := zeros 32, priv := 1, report := [], madeAt := 7 }] })))
      (fun u => u.now == 60000000007 && (u.part 0).keys.ephemeral == []) = true := by decide +kernel

/-- Two cap orders in one window that opened at 0. -/
def capWindow : Window := { key := .cap, w := 0, orders := [orderMsg 0x30 (leBytes 2 600), orderMsg 0x30 (leBytes 2 500)] }

theorem test_window_resolve : firstWindow [capWindow] = some capWindow ∧ (winnerOf capWindow).isSome = true ∧
    okay (exec .orderWindowResolve (State.reset.modOrders (fun o => { o with windows := [capWindow] })))
      (fun u => u.stamp == 20000 && u.orders.windows == [] && u.orders.due.length == 1 && u.orders.superseded == 1) = true := by decide +kernel
/-- An order with its eff, and a window of such orders. -/
def orderAt (typ : Nat) (body : Bytes) (eff : Nat) : Taken := { orderMsg typ body with eff := eff }
def windowOf (key : OrderKey) (orders : List Taken) : Window := { key := key, w := 0, orders := orders }
def winnerAt (key : OrderKey) (orders : List Taken) : Option Nat := (winnerOf (windowOf key orders)).map (fun t => t.eff)

theorem test_window_winners :
    winnerAt .cap [orderAt 0x30 (leBytes 2 500) 1, orderAt 0x30 (leBytes 2 500) 3, orderAt 0x30 (leBytes 2 600) 5] = some 3 ∧
    winnerAt (.stopStart 1) [orderAt 0x20 [1, 5] 1, orderAt 0x20 [1, 5] 2, orderAt 0x20 [1, 4] 3] = some 2 ∧
    winnerAt (.stopStart 1) [orderAt 0x20 [1, 4] 2, orderAt 0x20 [1, 4] 1] = some 2 ∧
    winnerAt (.group 65) [orderAt 0x39 (zeros 4 ++ leBytes 4 7) 1, orderAt 0x39 (zeros 4 ++ leBytes 4 7) 2, orderAt 0x39 (zeros 4 ++ leBytes 4 5) 3] = some 2 ∧
    winnerAt (.other 0x31 0 0) [orderAt 0x31 [1] 2, orderAt 0x31 [2] 1] = some 2 := by decide +kernel
theorem test_window_ties : firstWindow [windowOf .cap [orderAt 0x30 (leBytes 2 500) 5], windowOf (.group 65) [orderAt 0x39 (zeros 8) 3]] =
    some (windowOf (.group 65) [orderAt 0x39 (zeros 8) 3]) := by decide +kernel
/-! ## Partitions (02 R59–R61, 15 R429, 01 R27, R36, 04 R117, R124, 08 R236, 09 R248) -/

theorem due_first (s : State) (typ : Nat) (body : Bytes) : firstDue (due s typ body) typ (orderMsg typ body) [] := ⟨rfl, rfl⟩
theorem took_first (s : State) (typ : Nat) (body : Bytes) : firstTaken (took s typ body) 0 typ (orderMsg typ body) [] := ⟨rfl, rfl, rfl⟩

/-- A layout without lists: one logical cluster, no core vacant. -/
def bareLayout : Layout :=
  { placement := (List.range 8).map (fun j => (j, j)), absent := [0], groups := [], channels := [], haloSets := [], carried := [], certified := true,
    kinds := [{ lists := [], turns := [], declared := [], banks := [{ cluster := 0, bank := 32, owner := 5, unit := 0, observer := 2 }], walks := [] }] }

/-- An image of one cluster that asks for nothing. -/
def bareImage : Image :=
  { magic := 0x534E4B49, formatVersion := 1, contractGen := 1, modules := 1, clusters := 1, digest := 1, requirements := [], power := 100,
    wallSA := some [1000], wallSB := some [1000], latestStarts := none, epochLength := 0, checkpoint := 0, layouts := [bareLayout], stepKinds := 1, selector := [],
    queues := [], tallies := 0, streams := [], tables := [], chunks := [], salt := 0, kv := none, video := [], adapterSlots := 2, adapterSize := 4096,
    intakeBanks := [0], rings := [], links := [], transport := 0, houseMib := 1, hbmMib := 0, journalMib := 0, spill := 0 }

/-- Partition 1 in a state with cluster 4, its image and its allotments. -/
def held (x : PState) : State := State.reset.modPart 1 (fun q => { q with
  state := x
  clusters := [4]
  firstQ := 1
  nQ := 1
  nT := 1
  image := some bareImage
  seedSet := true })

/-- Partition 1 in a state without an image. -/
def bare (x : PState) : State := (held x).modPart 1 (fun q => { q with image := none })

/-- A PART_ORDER body for partition 1. -/
def poBody (action flags : Nat) : Bytes := [1, BitVec.ofNat 8 action, BitVec.ofNat 8 flags] ++ zeros 29

/-- An assignment of cluster 0, 2 queue blocks from 4, 3 tally blocks from 5, to partition 1. -/
def assignBody : Bytes := [1, 1, 0, 1, 4, 0] ++ leBytes 2 2 ++ [5, 0] ++ leBytes 2 3 ++ zeros 20

theorem test_assign : takesNew (due State.reset 0x20 assignBody) = true ∧
    assignConflict (due State.reset 0x20 assignBody) 1 (clustersOf 1) 4 2 5 3 = false ∧
    okay (exec .partAssign (due State.reset 0x20 assignBody)) (fun u => (u.part 1).state == .clearing && (u.part 1).clusters == [0] && (u.part 1).nT == 3) = true := by
  decide +kernel
theorem test_assign_conflict : okay (exec .partAssign (due ((bare .clear).modPart 0 (fun x => { x with state := .clear, clusters := [0] }) |>.modPart 1
      (fun x => { x with state := .free, clusters := [] })) 0x20 assignBody))
    (fun u => (u.part 1).state == .free && u.orders.refused == 1) = true := by decide +kernel
theorem test_clear_complete : (∀ k ∈ ((bare .clearing).part 1).clusters, ((bare .clearing).cluster k).fullClear = true → ((bare .clearing).cluster k).selfRefresh = false) ∧
    okay (exec (.clearComplete 1) { bare .clearing with mem := { Mem.init with banks := [(36 * 4 * bankSize, 7), (36 * 5 * bankSize, 9)] } })
      (fun u => (u.part 1).state == .clear && u.mem.banks == [(36 * 5 * bankSize, 9)]) = true := by decide +kernel
theorem test_release : okay (exec .partRelease (due (bare .clear) 0x20 (poBody 7 0))) (fun u => (u.part 1).state == .free && (u.part 1).clusters == []) = true := by
  decide +kernel
theorem test_load : loadFail ((due (bare .clear) 0x20 (poBody 2 0)).withDue []) 1 bareImage = none ∧
    okay (exec (.partLoad bareImage) (due (bare .clear) 0x20 (poBody 2 0)))
      (fun u => (u.part 1).state == .loaded && (u.part 1).image == some bareImage && (u.part 1).loadCode == 1) = true := by decide +kernel
theorem test_load_power : okay (exec (.partLoad { bareImage with power := 5000 }) (due (bare .clear) 0x20 (poBody 2 0)))
      (fun u => (u.part 1).state == .clear && (u.part 1).loadCode == 0x30 && (u.part 1).loadDetail == 5120) = true := by decide +kernel
theorem test_arm : armFail ((due (held .loaded) 0x20 (poBody 3 0)).withDue []) 1 bareImage false = none ∧
    armCondition ((held .loaded).part 1) bareImage 0 = 0 ∧ videoHeld ((due (held .loaded) 0x20 (poBody 3 0)).withDue []) 1 bareImage = true ∧
    pickLayout ((due (held .loaded) 0x20 (poBody 3 0)).withDue []) ((due (held .loaded) 0x20 (poBody 3 0)).part 1) = some 0 ∧
    jobReady ((held .loaded).part 1) = true := by decide +kernel
theorem test_arm_next : okay (exec (.partArm { checkpoint := none, journal := [], records := [] }) (due (held .loaded) 0x20 (poBody 3 0)))
      (fun u => (u.part 1).state == .armed && (u.part 1).step == 0 && (u.part 1).tallies.length == 64) = true := by decide +kernel
theorem test_start : streamFail ((due (held .armed) 0x20 (poBody 4 0)).withDue []) 1 bareImage = none ∧
    okay (exec .partStart ((due (held .armed) 0x20 (poBody 4 0)).modPower (fun w => { w with state := .ready })))
      (fun u => (u.part 1).state == .running && u.power.state == .run) = true := by decide +kernel
theorem test_stop : ((held .running).part 1).holdAt = none ∧
    okay (exec .partStop (due (held .running) 0x20 (poBody 5 0))) (fun u => (u.part 1).stopWanted == some 0 && (u.part 1).state == .running) = true := by decide +kernel
theorem test_unload : okay (exec .partUnload (due (held .loaded) 0x20 (poBody 6 0))) (fun u => (u.part 1).state == .clearing && (u.part 1).image == none) = true ∧
    okay (exec .partUnload (due (held .running) 0x20 (poBody 6 0))) (fun u => (u.part 1).stopWanted == some 0 && (u.part 1).unloadWanted) = true := by decide +kernel
theorem test_seed : okay (exec .seedSet (due (held .loaded) 0x21 ([1] ++ zeros 7 ++ leBytes 16 9))) (fun u => (u.part 1).seed == 9 && (u.part 1).seedSet) = true ∧
    okay (exec .seedSet (due (held .armed) 0x21 ([1] ++ zeros 7 ++ leBytes 16 9))) (fun u => (u.part 1).seedNext == [(0, 9)] && (u.part 1).seed == 0) = true := by decide +kernel
theorem test_settings : okay (exec .servingSettings (due (held .loaded) 0x25 ([1, 5, 7, 100, 90] ++ zeros 3 ++ leBytes 4 1000 ++ zeros 12)))
      (fun u => (u.part 1).serving.cancelMode && (u.part 1).serving.admitClosed && (u.part 1).serving.targets.get 0 == 1000) = true ∧
    okay (exec .servingSettings (due (held .running) 0x25 ([1, 0, 7, 100, 90] ++ zeros 19))) (fun u => (u.part 1).settingsNext.map (fun v => v.2.quantum) == [7]) = true := by
  decide +kernel
theorem test_replay_set : okay (exec .replaySet (due (held .loaded) 0x29 ([1] ++ zeros 7 ++ leBytes 8 3 ++ leBytes 8 9 ++ [1] ++ zeros 7 ++ [2, 1, 4, 5] ++ zeros 28)))
    (fun u => (u.part 1).replaySet.map (fun r => (r.first, r.last, r.dumps.map (fun d => (d.kind, d.atTally, d.cluster, d.bank)))) == some (3, 9, [(2, true, 4, 5)])) = true := by
  decide +kernel

theorem test_readmit : okay (exec .coreReadmit (due (State.reset.modCore 63 (fun k => { k with state := .fenced })) 0x28 [2, 63])) (fun u => (u.core 63).state == .gloryHole) = true ∧
    okay (exec .coreReadmit (due State.reset 0x28 [2, 63])) (fun u => (u.core 63).state == .inService) = true ∧
    okay (exec .coreReadmit ((due State.reset 0x28 [2, 63]).modPower (fun w => { w with latch := true }))) (fun u => u.orders.due == []) = true := by decide +kernel
theorem test_fence : (State.reset.core 63).state = .inService ∧ partOfCore State.reset 63 = none ∧
    okay (exec .coreFence (due State.reset 0x28 [1, 63])) (fun u => (u.core 63).state == .fenced && (u.core 63).cause == .order) = true := by decide +kernel
theorem test_cancel : okay (exec .cancel (took (held .armed) 0x26 ([1, 1] ++ zeros 6 ++ leBytes 8 77)))
    (fun u => (u.part 1).cancels.map (fun c => (c.target, c.byClient, c.entered)) == [(77, true, false)]) = true := by decide +kernel

/-- Partition 1 with a cancel that waits, stamped 5. -/
def cancelWaits : State := (held .running).modPart 1 (fun x => { x with cancels := [{ byClient := true, target := 77, stamp := 5, source := 0, frameSeq := 0,
                                                                                      answer := none, entered := false, stream := 0 }] })

theorem test_cancel_enters : (nextCancel cancelWaits).map (fun c => c.1) = some 1 ∧
    okay (exec .cancelPendingEntry cancelWaits) (fun u => u.stamp == 20005 && (u.part 1).cancels.all (fun c => c.entered)) = true := by decide +kernel

/-- An ADAPTER_LOAD of adapter 3, version 5, for partition 1. -/
def adapterBody : Bytes := [1, 0] ++ leBytes 2 3 ++ zeros 4 ++ leBytes 8 5 ++ zeros 48

/-- An adapter in a slot. -/
def adapterAt (slot : Nat) : Adapter := { slot := slot, ident := 9, version := 1, digest := 0, state := .current, bound := 0, loadedAt := 0 }

theorem test_adapter : okay (exec .adapterLoad (due (held .loaded) 0x27 adapterBody)) (fun u => (u.part 1).adapters.map (fun a => (a.slot, a.ident, a.version)) == [(0, 3, 5)]) = true ∧
    okay (exec .adapterLoad (due ((held .loaded).modPart 1 (fun x => { x with adapters := [adapterAt 0, adapterAt 1] })) 0x27 adapterBody))
      (fun u => (u.part 1).adapters.length == 2) = true := by decide +kernel
theorem test_video_slot : videoConflict (State.reset.engine 1) 1 2 3 4 5 6 = false ∧
    okay (exec .videoSlot (due (bare .clear) 0x24 ([1, 1, 2, 3, 4, 5, 0, 0] ++ leBytes 8 6)))
      (fun u => (u.engine 1).ctxBlocks.get 1 == 3 && (slotOwners (u.engine 1)).get 1 == some 1 && (u.engine 1).owners.get 1 == none) = true := by decide +kernel
theorem test_orders_refused :
    okay (exec .partAssign (due (State.reset.modPower (fun w => { w with state := .drain })) 0x20 assignBody)) (statusIs 0x10) = true ∧
    okay (exec .partAssign (due (bare .clear) 0x20 assignBody)) (statusIs 0x10) = true ∧
    okay (exec .partRelease (due (held .loaded) 0x20 (poBody 7 0))) (statusIs 0x10) = true ∧
    okay (exec (.partLoad bareImage) (due (held .loaded) 0x20 (poBody 2 0))) (statusIs 0x10) = true ∧
    okay (exec .partStop (due (held .armed) 0x20 (poBody 5 0))) (statusIs 0x10) = true ∧
    okay (exec .partUnload (due (bare .clear) 0x20 (poBody 6 0))) (statusIs 0x10) = true := by decide +kernel
theorem test_arm_refused :
    let s := due (held .loaded) 0x20 (poBody 3 0)
    let a := { checkpoint := none, journal := [], records := [] }
    okay (exec (.partArm a) (s.modPower (fun w => { w with latch := true }))) (statusIs 0x01) = true ∧
    okay (exec (.partArm a) (s.modPart 1 (fun x => { x with seedSet := false }))) (fun u => statusIs 0x10 u && (u.part 1).state == .loaded) = true ∧
    ((s.modPart 1 (fun x => { x with replaySet := some { first := 3, last := 9, dumps := [] } })).part 1).replaySet.isSome = true := by decide +kernel
theorem test_start_refused :
    let s := due ((held .armed).modPart 1 (fun x => { x with image := some { bareImage with streams :=
      [{ stream := 4, transmit := true, dt := 0x30, streamId := 9, landing := none, limit := 0, room := 0 }] } })) 0x20 (poBody 4 0)
    okay (exec .partStart (s.modPower (fun w => { w with latch := true }))) (statusIs 0x01) = true ∧
    okay (exec .partStart s) (fun u => statusIs 0x10 u && (u.part 1).loadCode == 0x27 && (u.part 1).loadDetail == 9) = true := by decide +kernel
theorem test_held_stops :
    let s := (held .running).modPart 1 (fun x => { x with holdAt := some .tallyOverflow, step := 7 })
    okay (exec .partStop (due s 0x20 (poBody 5 0))) (fun u => (u.part 1).state == .armed && (u.part 1).step == 7) = true ∧
    okay (exec .partUnload (due s 0x20 (poBody 6 0))) (fun u => (u.part 1).state == .clearing) = true := by decide +kernel
theorem test_fence_running : partOfCore (held .running) 33 = some 1 ∧
    okay (exec .coreFence (due (held .running) 0x28 [1, 33])) (fun u => (u.core 33).state == .fencePending) = true ∧
    okay (exec .coreFence (due (State.reset.modCore 33 (fun k => { k with state := .gloryHole })) 0x28 [1, 33])) (fun u => statusIs 0x00 u && (u.core 33).state == .gloryHole) = true ∧
    okay (exec .cancel (took (held .loaded) 0x26 ([1, 1] ++ zeros 6 ++ leBytes 8 77))) (statusIs 0x10) = true := by decide +kernel
theorem test_slots_refused :
    okay (exec .adapterLoad (due (bare .clear) 0x27 adapterBody)) (statusIs 0x10) = true ∧
    okay (exec .adapterLoad (due ((held .loaded).modPart 1 (fun x => { x with adapters := [{ adapterAt 0 with ident := 3, version := 5 }] })) 0x27 adapterBody)) (statusIs 0x09) = true ∧
    okay (exec .videoSlot (due ((bare .clear).modEngine 1 (fun v => { v with owners := v.owners.set 1 (some 2) })) 0x24 ([1, 1, 2, 3, 4, 5, 0, 0] ++ leBytes 8 6))) (statusIs 0x03) = true ∧
    okay (exec .videoSlot (due ((held .armed).modPart 1 (fun x => { x with image := some { bareImage with video :=
        [{ minSlots := 3, contexts := 0 }, { minSlots := 3, contexts := 0 }] } })) 0x24 ([1, 1, 2, 3, 4, 5, 0, 0] ++ leBytes 8 6))) (statusIs 0x08) = true := by decide +kernel
theorem test_attestation_main :
    let s := (took (held .loaded) 9 (1 :: zeros 39)).modPower (fun w => { w with state := .ready })
    firstTaken s 0 9 (orderMsg 9 (1 :: zeros 39)) [] ∧ (s.part 1).image = some bareImage ∧ reportsMain s = true ∧ holdsImage (s.part 1) = true ∧
    fieldAt (reportOf s (orderMsg 9 (1 :: zeros 39)).msg) 6 1 = 1 := by
  unfold firstTaken; decide +kernel
theorem test_query_as_taken :
    okay (exec (.coreStatus 0) (State.reset.modOrders (fun o => { o with taken := [{ orderMsg 0x12 [] with seen := some (0x10, []) }] }))) (statusIs 0x10) = true := by
  decide +kernel
theorem test_attestation : okay (exec (.attestation 0 false) (took State.reset 9 (0xFF :: zeros 39)))
    (fun u => u.security.reports == 1 && (u.port 0).responses.length == 1) = true := by decide +kernel
/-! ## Power (14 R379–R396, 16 R437, 17 R455–R461) -/

/-- The supply at a level, 5 s after reset. -/
def supplied (l : SupplyLevel) (holding : Bool) : State :=
  State.reset.modPower (fun w => { w with level := l, supplyHeld := holding, above45 := if holding then some 7 else none })

/-- A module with a partition in RUN. -/
def inRun : State := State.reset.modPower (fun w => { w with state := .run })

theorem test_supply_warning : teaserRuns (supplied .normal false) = true ∧
    okay (exec (.supplyWarning 43999) (supplied .normal false)) (fun u => u.power.level == .warning) = true ∧
    okay (exec (.supplyWarningEnd 45001) (supplied .warning false)) (fun u => u.power.level == .normal && u.power.above45 == some 0) = true := by decide +kernel
theorem test_supply_hold : teaserRuns (supplied .hold true) = true ∧
    okay (exec (.supplyHold 40999) (supplied .warning false)) (fun u => u.power.supplyHeld && u.power.latch && u.power.supplyHolds == 1) = true ∧
    okay (exec (.holdLevelLeft 42001) (supplied .hold true)) (fun u => u.power.level == .warning && u.power.supplyHeld) = true ∧
    okay (exec .stackSelfRefresh (supplied .hold true)) (fun u => (u.cluster 7).selfRefresh) = true := by decide +kernel
theorem test_supply_hold_end : (supplied .normal true).power.state ≠ .quench ∧
    okay (exec .supplyHoldEnd (supplied .normal true)) (fun u => u.now == 10000007 && !u.power.supplyHeld) = true := by decide +kernel
theorem test_over_voltage : okay (exec (.overVoltage 58001) State.reset) (fun u => u.power.supplyMv == 58001 && u.power.state == .hold) = true := by decide +kernel
theorem test_regulator : powered State.reset = true ∧ State.reset.power.state ≠ .quench ∧
    okay (exec (.regulatorFault 3 (-51)) State.reset) (fun u => u.power.state == .quench && u.power.quenchCause == 4 && u.power.regFault) = true := by decide +kernel

/-- A cap of 800 W reached over a ramp of `ms` ms. -/
def capBody (w ramp : Nat) : Bytes := leBytes 2 w ++ leBytes 2 ramp

theorem test_cap_up : capMw (due State.reset 0x30 (capBody 1000 0)) = 1000 * 1000 ∧
    okay (exec .pwrCap (due State.reset 0x30 (capBody 1000 0))) (fun u => u.power.target == 1000 && !u.power.shed) = true := by decide +kernel
theorem test_cap_down :
    okay (exec .pwrCap (due State.reset 0x30 (capBody 800 2))) (fun u => u.power.target == 800 && u.power.rampFrom == (1000000, 0) && u.power.rampNs == 2000000) = true ∧
    okay (exec .pwrCap (due State.reset 0x30 (capBody 799 2))) (fun u => u.power.shed && u.power.sheds == 1 && capMw u == 799000) = true := by decide +kernel
theorem test_drain : (State.reset.modPower (fun w => { w with state := .ready })).power.state = .ready ∧
    okay (exec .pwrDrainEnter (due (State.reset.modPower (fun w => { w with state := .ready })) 0x31 [1])) (fun u => u.power.state == .drain && u.power.drained) = true ∧
    okay (exec .pwrDrainLeave (due (State.reset.modPower (fun w => { w with state := .drain, drained := true })) 0x31 [2]))
      (fun u => u.power.state == .ready && !u.power.drained) = true := by decide +kernel
theorem test_quench : okay (exec .pwrQuench (due inRun 0x32 [1])) (fun u => u.power.state == .quench && u.power.quenchCause == 5 && u.power.quenchFrom == .run && u.power.latch) = true := by
  decide +kernel

/-- In QUENCH from HOLD since 0, 10 s on. -/
def quenched : State := { State.reset.modPower (fun w => { w with state := .quench, quenchCause := 5, latch := true }) with now := 10000000000 }

theorem test_quench_clear : okay (exec .pwrQuenchClear (due quenched 0x32 [2])) (fun u => u.power.state == .hold && u.power.quenchCause == 0) = true ∧
    okay (exec .pwrQuenchClear (due { quenched with now := 9999999999 } 0x32 [2])) (fun u => u.power.state == .quench) = true := by decide +kernel
theorem test_coolant : okay (exec .thmCoolant (due State.reset 0x33 (leBytes 2 1800 ++ leBytes 2 900))) (fun u => u.thermal.cv == 1800 && u.thermal.flowMin == 900) = true := by
  decide +kernel
theorem test_sensor_clear : okay (exec .thmSensorClear (due (State.reset.modCore 63 (fun k => { k with suspect := true, delayDoubted := true })) 0x34 [63]))
    (fun u => !(u.core 63).suspect && !(u.core 63).delayDoubted) = true := by decide +kernel

theorem test_supply_reset : State.reset.power.state ≠ .off ∧
    okay (exec .supplyReset { State.reset with mem := { Mem.init with banks := [(3, 4)] } }) (fun u => u.power.state == .off && u.now == 50000 && u.mem == Mem.init) = true := by
  decide +kernel
theorem test_start_runs : okay (exec (.start goodStart) (offState State.reset)) (fun u => u.power.state == .boot && u.fw.startStep == 2 && u.fuses.tray == 3 && u.fuses.slot == 17) = true ∧
    (offState State.reset).power.prsnt = true ∧ (offState State.reset).power.state = .off ∧ 45000 < goodStart.supplyMv := by decide +kernel
theorem test_prsnt_mate : okay (exec .prsntMate (State.reset.modPower (fun w => { w with prsnt := false }))) (fun u => u.power.prsnt) = true := by decide +kernel
theorem test_time_lock : okay (exec .startTimeLockTimeout ((State.reset.modPower (fun w => { w with state := .boot })).modFw (fun f => { f with startStep := 6, step5At := 8 })))
    (fun u => u.power.state == .hold && u.fw.startStep == 9 && u.now == 3000000008) = true := by decide +kernel
theorem test_prsnt_loss : State.reset.fw.startStep ≠ 0 ∧ State.reset.power.prsntLost = false ∧
    okay (exec .prsntLoss inRun) (fun u => u.power.state == .quench && u.power.quenchCause == 6 && u.lanes.idleOnly && u.csi.stopped) = true := by decide +kernel
theorem test_tamper_loop : State.reset.security.extTamper = false ∧
    okay (exec .tamperLoopOpen State.reset) (fun u => u.security.wipes == 1 && u.security.lastCause == 1 && (u.cluster 0).key == none) = true := by decide +kernel
theorem test_lid : okay (exec (.lidTamper false) State.reset) (fun u => u.fuses.tampered && !u.security.identity && u.power.state == .boot) = true := by decide +kernel
theorem test_power_refused :
    okay (exec .pwrDrainEnter (due State.reset 0x31 [1])) (statusIs 0x10) = true ∧ okay (exec .pwrDrainLeave (due State.reset 0x31 [2])) (statusIs 0x10) = true ∧
    okay (exec .pwrDrainEnter (due ((held .running).modPower (fun w => { w with state := .run })) 0x31 [1])) (fun u => u.power.state == .drain && !u.power.drained) = true ∧
    okay (exec .pwrQuenchClear (due State.reset 0x32 [2])) (statusIs 0x10) = true ∧
    okay (exec .pwrQuenchClear (due (quenched.modPower (fun w => { w with regFault := true })) 0x32 [2])) (statusIs 0x10) = true ∧
    okay (exec .pwrQuenchClear (due (quenched.modPower (fun w => { w with quenchFrom := .run })) 0x32 [2])) (fun u => u.power.state == .ready) = true := by decide +kernel
theorem test_start_waits : okay (exec (.start goodStart) ((offState State.reset).modPower (fun w => { w with prsnt := false }))) (fun u => u.fw.startStep == 0) = true ∧
    okay (exec (.start { goodStart with selfTest := false }) (offState State.reset)) (fun u => u.fw.startStep == 1 && u.fw.startFail == 1) = true ∧
    okay (exec .prsntMate (((offState State.reset).modPower (fun w => { w with state := .boot, prsnt := false })).modFw (fun f => { f with startIn := some goodStart })))
      (fun u => u.fw.startStep == 2 && u.fuses.slot == 17) = true := by decide +kernel
theorem test_presence_else : powered quenched = true ∧ okay (exec .prsntLoss quenched) (fun u => u.power.quenchCause == 5 && u.power.prsntLost) = true ∧
    okay (exec .tamperLoopOpen (State.reset.modSecurity (fun v => { v with extTamper := true }))) (fun u => u.security.wipes == 1) = true ∧
    okay (exec (.regulatorFault 3 51) quenched) (fun u => u.power.regFault && u.power.quenchCause == 5) = true := by decide +kernel
/-- A drain stops a partition that is held at a boundary; a cause of QUENCH that came in BOOT takes the start on to QUENCH. -/
theorem test_drain_held :
    let s := ((held .running).modPower (fun w => { w with state := .run })).modPart 1 (fun x => { x with holdAt := some .noLayout })
    okay (exec .pwrDrainEnter (due s 0x31 [1])) (fun u => (u.part 1).state == .armed && u.power.drained) = true := by decide +kernel
theorem test_quench_after_boot :
    let s := (State.reset.modPower (fun w => { w with state := .boot })).modFw (fun f => { f with startStep := 6, step5At := 8 })
    teaserRuns s = true ∧ okay (exec (.regulatorFault 3 (-51)) s) (fun u => u.power.state == .boot && u.power.quenchCause == 4) = true ∧
    okay (exec .startTimeLockTimeout (s.modPower (fun w => { w with quenchCause := 4 }))) (fun u => u.power.state == .quench && u.power.quenchCause == 4) = true := by decide +kernel

/-! ## Heat (14 R375–R377, R396–R408) -/

/-- Readings of a cool module with core 5 at a temperature. -/
def readings (t : Int) : Readings :=
  { diode := (Vector.replicate 64 40000).set 5 t, delay := (Vector.replicate 64 40000).set 5 t, rate := Vector.replicate 64 400, hbm := Vector.replicate 8 40000,
    reg := Vector.replicate 8 40000, inlet := 30000, outlet := 35000, p100 := 321, p1s := 322, supply := 54000, current := 6, suppliedFlow := 60 }

theorem test_cycle : okay (exec (.teaserCycle (readings 40000)) State.reset)
    (fun u => u.now == 100000 && u.power.p100 == 321 && u.power.state == .hold && !u.power.latch && u.mem == Mem.init) = true := by decide +kernel
theorem test_cycle_quench : okay (exec (.teaserCycle (readings 105000)) State.reset) (fun u => u.power.state == .quench && u.power.latch) = true ∧
    okay (exec (.teaserCycle (readings 104999)) State.reset) (fun u => u.power.state == .hold) = true := by decide +kernel
theorem test_cycle_steps : (∀ d : DieId, 600 ≤ (State.reset.power.dies.get d).mv ∧ (State.reset.power.dies.get d).mv ≤ 850 ∧ (State.reset.power.dies.get d).mv % 10 = 0 ∧
      600 ≤ (State.reset.power.dies.get d).ceiling ∧ (State.reset.power.dies.get d).ceiling ≤ 850 ∧ (State.reset.power.dies.get d).ceiling % 10 = 0) := by decide +kernel
theorem test_descent : okay (exec (.coreHotDescent 63) (State.reset.modCore 63 (fun k => { k with hot := 101 })))
      (fun u => u.thermal.descent == some (0, 63, none) && u.power.latch && u.power.descents == 1) = true ∧
    okay (exec .descentEnd (State.reset.modThermal (fun h => { h with descent := some (0, 63, some 9) }))) (fun u => u.thermal.descent == none && u.now == 1000000009) = true := by
  decide +kernel
theorem test_suspect : okay (exec (.pairSuspect 63) (State.reset.modCore 63 (fun k => { k with disagree := 5000 })))
      (fun u => (u.core 63).suspect) = true := by decide +kernel
theorem test_floor : partOfCore State.reset 63 = none ∧ okay (exec (.floorMiss 63) (State.reset.modCore 63 (fun k => { k with subFloor := 10 })))
      (fun u => (u.core 63).state == .fenced && (u.core 63).cause == .floorMiss && (u.core 63).subFloor == 0) = true := by decide +kernel
theorem test_coolant_flags : okay (exec .flowLow (State.reset.modThermal (fun h => { h with flowBadSince := some 1 }))) (fun u => u.thermal.flowLow && u.now == 10000000001) = true ∧
    okay (exec .inletOut (State.reset.modThermal (fun h => { h with inletBadSince := some 1 }))) (fun u => u.thermal.inletOut) = true ∧
    okay (exec .coolantFlagClear (State.reset.modThermal (fun h => { h with flowLow := true, flowOkSince := some 1 }))) (fun u => !u.thermal.flowLow) = true := by decide +kernel
theorem test_heat_else : okay (exec (.pairSuspect 63) (State.reset.modCore 63 (fun k => { k with disagree := 4999 }))) (fun u => !(u.core 63).suspect) = true ∧
    okay (exec (.floorMiss 33) ((held .running).modCore 33 (fun k => { k with subFloor := 10 }))) (fun u => (u.core 33).state == .fencePending && (u.core 33).subFloor == 0) = true ∧
    okay (exec (.floorMiss 33) ((held .running).modCore 33 (fun k => { k with subFloor := 9 }))) (fun u => (u.core 33).state == .inService) = true ∧
    okay (exec .coolantFlagClear (State.reset.modThermal (fun h => { h with inletOut := true, inletOkSince := some 1, flowLow := true, flowOkSince := some 2 })))
      (fun u => !u.thermal.inletOut && u.thermal.flowLow) = true := by decide +kernel
theorem test_cycle_bit_errors : okay (exec (.teaserCycle { readings 40000 with bitErrors := [{ stack := false, word := 5, double := true }] }) State.reset)
    (fun u => u.mem.bankPoison == [5] && u.mem.banks == []) = true := by decide +kernel
/-! ## Engine commands (02 R44–R54; 03; 04 R103–R110; 05 R141–R145; 06; 07) -/

/-- A command record from its fields as byte offset and value. -/
def rec (fields : List (Nat × Nat)) : CmdRecord := BitVec.ofNat 512 ((fields.map (fun f => f.2 * 2 ^ (8 * f.1))).sum)

/-- The image of one queue with one command of an opcode. -/
def oneCommand (cls inst op : Nat) (fields : List (Nat × Nat)) : Image :=
  { bareImage with
    queues := [{ queue := 0, cls := cls, inUse := true, random := false, inst := inst, ringEntries := 1, ringCluster := 0, ringBank := 0, ringOffset := 0 }]
    layouts := [{ bareLayout with kinds := [{ lists := [{ queue := 0, cluster := 0, bank := 0, offset := 64, cmds := [rec ([(0, op), (2, cls)] ++ fields)] }],
                                              turns := [{ cls := cls, inst := inst, queues := [0] }], declared := [], banks := [], walks := [] }] }] }

/-- Partition 1 running a step of that image on cluster 4; every bank of the cluster is a master's, and they hold `data`. -/
def turnBy (owner cls inst op : Nat) (fields : List (Nat × Nat)) (data : List Host.Cell) : State :=
  let s := (held .running).modPart 1 (fun x => { x with
    released := true
    image := some (oneCommand cls inst op fields)
    tallies := [7, 8]
    bases := [0, 0]
    queues := [{ queue := 0, head := 0, tail := 1, issued := 0, count := 1, step := 0 }] })
  { s with
    owners := ((List.range 36).map (fun b => 144 + b)).foldl (fun o b => o.set! b { owner := owner, observer := 0, unit := 0, part := 1, partValid := true }) s.owners
    mem := { Mem.init with banks := data.map (fun c => (144 * bankSize + c.1, c.2)) } }

/-- With the master of the command's own class. -/
def turnOf (cls inst op : Nat) (fields : List (Nat × Nat)) (data : List Host.Cell) : State := turnBy cls cls inst op fields data

/-- The due command of that state. -/
def turnDue (cls inst op : Nat) (fields : List (Nat × Nat)) : Due :=
  { p := 1
    desc := { queue := 0, cls := cls, inUse := true, random := false, inst := inst, ringEntries := 1, ringCluster := 0, ringBank := 0, ringOffset := 0 }
    record := rec ([(0, op), (2, cls)] ++ fields), index := 0, next := 0 }

/-- Bytes of a bank of core 32, from core bank 0 on. -/
def coreBytes (u : State) (off n : Nat) : Bytes := bankRead u (144 * bankSize + off) n

theorem test_nop : engineStarts (turnOf 2 0 0xFF00 [(4, 6), (10, 1), (12, 5)] []) 1 0 2 0xFF00 (turnDue 2 0 0xFF00 [(4, 6), (10, 1), (12, 5)]) := by
  unfold engineStarts; decide +kernel
theorem test_nop_next : okay (exec (.nop 1 0) (turnOf 2 0 0xFF00 [(4, 6), (10, 1), (12, 5)] []))
    (fun u => issuedOf (u.part 1) 0 == 1 && (u.part 1).stepWork == 1 && (u.core 32).work == 1 &&
      (u.part 1).inflight.map (fun e => (e.stepEnd, e.signal, e.error)) == [(true, some (1, 5), 0)]) = true := by decide +kernel
theorem test_nop_waits : okay (exec (.nop 1 0) (turnOf 2 0 0xFF00 [(4, 1), (8, 1), (16, 9)] [])) (fun u => issuedOf (u.part 1) 0 == 0) = true := by decide +kernel

/-- Operands of a transfer: cluster bank 0 at 128, stack offset 65536, 64 bytes. -/
def moveFields : List (Nat × Nat) := [(24, 32 * 2 ^ 21 + 128), (28, 65536), (36, 64)]

/-- That state with a key in its stack and one byte there. -/
def moveFrom (op : Nat) : State :=
  let s := (turnOf 5 0 op moveFields [(32 * bankSize + 130, 9)]).modCluster 4 (fun c => { c with key := some 5 })
  { s with mem := { s.mem with hbm := [(stackAddr 4 65540, 3)] } }

theorem test_transfers_start : engineStarts (moveFrom 0x0500) 1 0 5 0x0500 (turnDue 5 0 0x0500 moveFields) ∧
    engineStarts (moveFrom 0x0501) 1 0 5 0x0501 (turnDue 5 0 0x0501 moveFields) ∧
    engineStarts (moveFrom 0x0503) 1 0 5 0x0503 (turnDue 5 0 0x0503 moveFields) := by unfold engineStarts; decide +kernel
theorem test_transfers_serve : transferServes (moveFrom 0x0501) (turnDue 5 0 0x0501 moveFields) (bankRefOf (32 * 2 ^ 21 + 128)) 64 176 ∧
    stackServes (moveFrom 0x0501) (turnDue 5 0 0x0501 moveFields) 65536 64 4 := by unfold transferServes stackServes; decide +kernel
theorem test_read : okay (exec (.hbmRead 1 0) (moveFrom 0x0500))
    (fun u => coreBytes u (32 * bankSize + 128) 8 == [0, 0, 0, 0, 3, 0, 0, 0] && (u.cluster 4).beats == 5) = true := by decide +kernel
theorem test_write : okay (exec (.hbmWrite 1 0) (moveFrom 0x0501)) (fun u => u.mem.hbm == [(stackAddr 4 65538, 9)]) = true := by decide +kernel
theorem test_zero : okay (exec (.hbmZero 1 0) (moveFrom 0x0503)) (fun u => u.mem.hbm == [] && (u.cluster 4).beats == 4) = true := by decide +kernel

/-- BANK_COPY of 64 bytes from core bank 1 at 0 to cluster bank 0 at 128, its source word poisoned. -/
def copyFields : List (Nat × Nat) := [(24, 1 * 2 ^ 21), (28, 32 * 2 ^ 21 + 128), (32, 64)]
def copyFrom : State := let s := turnOf 5 0 0x0502 copyFields [(bankSize + 1, 6)]; { s with mem := { s.mem with bankPoison := [(145 * bankSize) / 64] } }

theorem test_copy_serves : engineStarts copyFrom 1 0 5 0x0502 (turnDue 5 0 0x0502 copyFields) ∧
    transferServes copyFrom (turnDue 5 0 0x0502 copyFields) (bankRefOf (1 * 2 ^ 21)) 64 145 ∧
    transferServes copyFrom (turnDue 5 0 0x0502 copyFields) (bankRefOf (32 * 2 ^ 21 + 128)) 64 176 := by unfold engineStarts transferServes; decide +kernel
theorem test_copy : okay (exec (.bankCopy 1 0) copyFrom) (fun u => coreBytes u (32 * bankSize + 128) 2 == [0, 6] &&
    u.mem.bankPoison.contains ((176 * bankSize + 128) / 64) && (u.part 1).inflight.map (fun e => e.error) == [2]) = true := by decide +kernel

/-- SIZE_COPY to the end of cluster bank 0. -/
def sizeFields : List (Nat × Nat) := [(24, bankSize - 512)]

theorem test_size_copy_starts : engineStarts (turnOf 5 0 0xFF01 sizeFields []) 1 0 5 0xFF01 (turnDue 5 0 0xFF01 sizeFields) ∧
    physBank (turnOf 5 0 0xFF01 sizeFields []) ((turnOf 5 0 0xFF01 sizeFields []).part 1) 0 32 = some 176 ∧
    ownedBy (turnOf 5 0 0xFF01 sizeFields []) 1 176 5 0 = true := by unfold engineStarts; decide +kernel
theorem test_size_copy : okay (exec (.sizeCopy 1 0) (turnOf 5 0 0xFF01 sizeFields []))
    (fun u => coreBytes u (33 * bankSize - 512) 16 == leBytes 4 1 ++ leBytes 4 60 ++ leBytes 4 2 ++ leBytes 4 8) = true := by decide +kernel

/-- MATMUL of [2 3] and [4 5] in INT8 to core bank 2. -/
def matFields : List (Nat × Nat) := [(24, 0), (28, 2 ^ 21), (32, 2 * 2 ^ 21), (36, 14), (40, 1), (42, 1), (44, 2), (48, 14), (49, 14), (60, 1)]
def matFrom (op : Nat) : State := turnOf 1 0 op matFields [(0, 2), (1, 3), (bankSize, 4), (bankSize + 1, 5)]

theorem test_matmul_starts : engineStarts (matFrom 0x0100) 1 0 1 0x0100 (turnDue 1 0 0x0100 matFields) ∧
    engineStarts (matFrom 0x0101) 1 0 1 0x0101 (turnDue 1 0 0x0101 matFields) := by unfold engineStarts; decide +kernel
theorem test_matmul_operands : coreBankServes (matFrom 0x0100) (turnDue 1 0 0x0100 matFields) 0 2 0 144 ∧
    coreBankServes (matFrom 0x0100) (turnDue 1 0 0x0100 matFields) 1 2 0 145 ∧ (matArgs (rec matFields)).partialIn = false ∧
    extent 14 2 = 2 ∧ lanesExtent (wdescOf 14) 1 = 1 := by unfold coreBankServes; decide +kernel
theorem served {s : State} {d : Due} {rs : List (TRef × Nat)} (h : (match gatherReads s d rs with | .ok _ => true | .error _ => false) = true) :
    readsServe s d rs := by
  unfold readsServe
  cases e : gatherReads s d rs <;> simp_all
theorem test_matmul_serves : readsServe (matFrom 0x0100) (turnDue 1 0 0x0100 matFields) [(trefOf 0, 2), (trefOf (2 ^ 21), 2)] ∧ sinkServes (matFrom 0x0100) (turnDue 1 0 0x0100 matFields) (trefOf (2 * 2 ^ 21)) 1 ∧
    sourceServes (matFrom 0x0100) (turnDue 1 0 0x0100 matFields) (trefOf 0) 2 (bankPlane (matFrom 0x0100) 144 0) (matFrom 0x0100) ∧
    sourceServes (matFrom 0x0100) (turnDue 1 0 0x0100 matFields) (trefOf (2 ^ 21)) 2 (bankPlane (matFrom 0x0100) 145 0) (matFrom 0x0100) := by
  refine ⟨served (by decide +kernel), Or.inl ⟨rfl, 146, by unfold coreBankServes; decide +kernel⟩, Or.inl ⟨rfl, 144, by unfold coreBankServes; decide +kernel, rfl, (meetBank_clean _ _ rfl rfl).symm⟩,
    Or.inl ⟨rfl, 145, by unfold coreBankServes; decide +kernel, rfl, (meetBank_clean _ _ rfl rfl).symm⟩⟩
theorem test_matmul : okay (exec (.matmul 1 0) (matFrom 0x0100)) (fun u => coreBytes u (2 * bankSize) 2 == [23, 0] && (u.part 1).stepWork == 14) = true := by decide +kernel

/-- GROUPED_MATMUL of one group, from banks with room for it. -/
theorem test_grouped_serves : coreBankServes (matFrom 0x0101) (turnDue 1 0 0x0101 matFields) 0 66 0 144 ∧
    coreBankServes (matFrom 0x0101) (turnDue 1 0 0x0101 matFields) 1 66 0 145 ∧ coreBankServes (matFrom 0x0101) (turnDue 1 0 0x0101 matFields) 2 64 0 146 := by
  unfold coreBankServes; decide +kernel
theorem test_grouped : okay (exec (.groupedMatmul 1 0) (matFrom 0x0101)) (fun u => coreBytes u (2 * bankSize) 2 == [23, 0]) = true := by decide +kernel

/-- REDUCE of one source record, written in INT8 to core bank 2. -/
def reduceFields : List (Nat × Nat) := [(24, 2 * 2 ^ 21), (28, 14), (32, 2 ^ 24 + 1), (36, 0)]
def reduceFrom : State := turnOf 1 0 0x0102 reduceFields ((List.range 96).zip (Lane.start.add (.fin false 23 0)).record)

theorem test_reduce_starts : engineStarts reduceFrom 1 0 1 0x0102 (turnDue 1 0 0x0102 reduceFields) := by unfold engineStarts; decide +kernel
theorem test_reduce_sources : sinkServes reduceFrom (turnDue 1 0 0x0102 reduceFields) (trefOf (2 * 2 ^ 21)) 1 ∧
    reduceSources (turnDue 1 0 0x0102 reduceFields) 1 [trefOf 0] reduceFrom = .ok ([bankPlane reduceFrom 144 0], reduceFrom) := by
  refine ⟨Or.inl ⟨rfl, 146, by unfold coreBankServes; decide +kernel⟩, ?_⟩
  have h : fetch reduceFrom (turnDue 1 0 0x0102 reduceFields) (trefOf 0) (96 * 1) = .ok (bankPlane reduceFrom 144 0, reduceFrom) :=
    fetch_ok (Or.inl ⟨rfl, 144, by unfold coreBankServes; decide +kernel, rfl, (meetBank_clean _ _ rfl rfl).symm⟩)
  simp only [reduceSources, h, bind, Except.bind, pure, Except.pure]
theorem test_reduce : okay (exec (.reduce 1 0) reduceFrom) (fun u => coreBytes u (2 * bankSize) 2 == [23, 0] && (u.part 1).stepWork == 19) = true := by decide +kernel
/-! ## Window, attention, vector and walk commands (06; 03 R89; 07) -/

/-- A window of 1 × 2 over two INT8 samples 3 and 4 of one channel, weights 5 and 6: core banks 0, 1 and 2. -/
def winFields : List (Nat × Nat) :=
  [(24, 0), (28, 2 * 2 ^ 21), (32, 2 ^ 21), (36, 14), (40, 1), (48, 1 * 2 ^ 4), (60, 14 + 14 * 2 ^ 5)]
def winFrom (op : Nat) : State := turnOf 3 0 op winFields [(0, 3), (1, 4), (bankSize, 5), (bankSize + 1, 6)]

theorem test_window_starts : (∀ op, op = 0x0300 ∨ op = 0x0301 ∨ op = 0x0302 ∨ op = 0x0303 → engineStarts (winFrom op) 1 0 3 op (turnDue 3 0 op winFields)) := by
  rintro op (rfl | rfl | rfl | rfl) <;> (unfold engineStarts; decide +kernel)
theorem test_window_serves : coreBankServes (winFrom 0x0300) (turnDue 3 0 0x0300 winFields) 2 1 0 146 ∧
    coreBankServes (winFrom 0x0300) (turnDue 3 0 0x0300 winFields) 1 2 0 145 ∧ coreBankServes (winFrom 0x0300) (turnDue 3 0 0x0300 winFields) 0 2 0 144 ∧
    (geoOf (rec winFields)).haloIn = false ∧ (geoOf (rec winFields)).haloOut = false ∧ (geoOf (rec winFields)).out.kind = 0 := by
  unfold coreBankServes; decide +kernel
theorem test_dwconv : okay (exec (.dwconv 1 0) (winFrom 0x0300)) (fun u => coreBytes u (2 * bankSize) 2 == [39, 0] && (u.part 1).stepWork == 15) = true := by decide +kernel
theorem test_wgather : okay (exec (.wgather 1 0) (winFrom 0x0301)) (fun u => coreBytes u (2 * bankSize) 3 == [3, 4, 0] && (u.part 1).stepWork == 13) = true := by decide +kernel
theorem test_pools : okay (exec (.poolMax 1 0) (winFrom 0x0302)) (fun u => coreBytes u (2 * bankSize) 2 == [4, 0] && (u.part 1).stepWork == 15) = true ∧
    okay (exec (.poolMin 1 0) (winFrom 0x0303)) (fun u => coreBytes u (2 * bankSize) 2 == [3, 0]) = true := by decide +kernel

/-- GLOBAL_AVG of one channel of two INT8 samples by 2. -/
def avgFields : List (Nat × Nat) := [(24, 0), (28, 2 * 2 ^ 21), (36, 14), (40, 2), (44, 2), (50, 14)]
def avgFrom : State := turnOf 3 0 0x0304 avgFields [(0, 3), (1, 5)]

theorem test_avg_serves : engineStarts avgFrom 1 0 3 0x0304 (turnDue 3 0 0x0304 avgFields) ∧ coreBankServes avgFrom (turnDue 3 0 0x0304 avgFields) 0 2 0 144 ∧
    coreBankServes avgFrom (turnDue 3 0 0x0304 avgFields) 2 1 0 146 := by unfold engineStarts coreBankServes; decide +kernel
theorem test_avg : okay (exec (.globalAvg 1 0) avgFrom) (fun u => coreBytes u (2 * bankSize) 2 == [4, 0] && (u.part 1).stepWork == 18) = true := by decide +kernel

/-- ARGMAX_CH over two channels at one pixel, from base 7. -/
def argFields : List (Nat × Nat) := [(24, 0), (28, 2 * 2 ^ 21), (40, 1), (44, 1), (46, 7), (48, 14)]
def argFrom : State := turnOf 3 0 0x0305 argFields [(0, 3), (1, 5)]

theorem test_arg_serves : engineStarts argFrom 1 0 3 0x0305 (turnDue 3 0 0x0305 argFields) ∧ coreBankServes argFrom (turnDue 3 0 0x0305 argFields) 0 2 0 144 ∧
    coreBankServes argFrom (turnDue 3 0 0x0305 argFields) 2 2 0 146 := by unfold engineStarts coreBankServes; decide +kernel
theorem test_arg : okay (exec (.argmaxCh 1 0) argFrom) (fun u => coreBytes u (2 * bankSize) 2 == [8, 0] && (u.part 1).stepWork == 18) = true := by decide +kernel

/-- ATTN with one row of 16 FP16 elements over one key, state kept: query in bank 0, page in bank 1, tile lengths in bank 3, state to bank 2. -/
def attnFields : List (Nat × Nat) :=
  [(24, 0), (28, 2 ^ 21), (32, 2 * 2 ^ 21), (36, 31), (40, 1), (43, 1), (44, 1), (46, 1), (47, 0), (48, 64), (56, 0x3F800000), (60, 3 * 2 ^ 21)]
def attnFrom : State := turnOf 2 0 0x0200 attnFields []

theorem test_attn_starts : engineStarts attnFrom 1 0 2 0x0200 (turnDue 2 0 0x0200 attnFields) := by unfold engineStarts; decide +kernel
theorem test_attn_serves : coreBankServes attnFrom (turnDue 2 0 0x0200 attnFields) 1 65536 0 145 ∧ coreBankServes attnFrom (turnDue 2 0 0x0200 attnFields) 3 64 0 147 ∧
    sinkServes attnFrom (turnDue 2 0 0x0200 attnFields) (trefOf (2 * 2 ^ 21)) 1696 ∧
    sourceServes attnFrom (turnDue 2 0 0x0200 attnFields) (trefOf 0) 32 (bankPlane attnFrom 144 0) attnFrom := by
  refine ⟨by unfold coreBankServes; decide +kernel, by unfold coreBankServes; decide +kernel, Or.inl ⟨rfl, 146, by unfold coreBankServes; decide +kernel⟩,
    Or.inl ⟨rfl, 144, by unfold coreBankServes; decide +kernel, rfl, (meetBank_clean _ _ rfl rfl).symm⟩⟩
theorem test_attn : okay (exec (.attn 1 0) attnFrom) (fun u => issuedOf (u.part 1) 0 == 1) = true := by decide +kernel

/-- A vector negation of one FP32 element, from core bank 0 to core bank 2. -/
def vecArgs : VecArgs := { op := .neg, fmt := 1, count := 1, a := (0, 0), b := (0, 0), c := (0, 0), out := (2, 0), wdesc := 1 }
def vecFrom : State := turnOf 4 0 0x0400 [] [(2, 0x40), (3, 0x40)]

theorem test_vector_serves : engineStarts vecFrom 1 0 4 0x0400 (turnDue 4 0 0x0400 []) ∧ dueAt vecFrom 1 0 = some (turnDue 4 0 0x0400 []) ∧
    coreBankServes vecFrom (turnDue 4 0 0x0400 []) 0 4 0 144 ∧ coreBankServes vecFrom (turnDue 4 0 0x0400 []) 2 4 0 146 ∧
    vecOk vecArgs (rec [(0, 0x0400), (2, 4)]) = true := by
  unfold engineStarts coreBankServes; decide +kernel
theorem test_vector : okay (exec (.vectorCommand 1 0 vecArgs) vecFrom) (fun u => coreBytes u (2 * bankSize) 4 == [0, 0, 0x40, 0xC0]) = true := by decide +kernel

/-! ### The walker -/

/-- A walk record of a kind: batch slot 0, list 0, one page or record, cluster bank 0. -/
def walkRec (kind fmt n : Nat) : WalkRecord :=
  BitVec.ofNat 256 (kind + fmt * 2 ^ 8 + n * 2 ^ 64 + 32 * 2 ^ 21 * 2 ^ 96 + 1 * 2 ^ 232 + 32 * 2 ^ 240)

/-- KV declarations of one pool. -/
def kvOne : KvDecl :=
  { pools := [16], poolFirst := 4, ptBank := 1, countOffset := 0, lists := 1, cap := 4, tpp := 16, fmt := 0, sequences := 4, slots := 1, copyAllowance := 1,
    promptMax := 8, prefillChunk := 4, admitLimit := 1, samplings := 1 }

/-- Partition 1 running a step whose walk list holds one record. -/
def walkFrom (kind fmt n : Nat) : State :=
  let s := (turnOf 5 0 0xFF00 [] []).modPart 1 (fun x => { x with
    image := some { oneCommand 5 0 0xFF00 [] with
      kv := some kvOne
      houseMib := 1
      layouts := [{ bareLayout with kinds := [{ lists := [], turns := [{ cls := 5, inst := 0, queues := [65536] }], declared := [], banks := [],
                                                walks := [{ cluster := 0, bank := 0, offset := 0, records := [walkRec kind fmt n] }] }] }] }
    kv := [{ cullet := [], zeroed := [], copies := [], marks := [] }] })
  s.modCluster 4 (fun c => { c with key := some 5 })

/-- A sequence in batch slot 0, with length 3. -/
def seqOne : Seq :=
  { seq := 1, len := 3, ptBase := 0, slot := some 0, state := .active, cls := 0, shared := false, adapterSlot := none, promptEnd := 8, tokensOut := 0, maxNew := 4,
    stream := 0, client := 0, stopToken := 0, sampling := 0, adapter := 0, prefixSeq := 0, prefixLen := 0, prompt := [], frameSeq := 0, admitted := 0,
    lastToken := none, done := false, reclaim := false, cancelled := false }

/-- With that sequence, whose page 5 of format 0 is counted once, and a record 7, 8 in the bank. -/
def appendFrom (fmt : Nat) : State :=
  let s := (walkFrom 2 fmt 1).modPart 1 (fun x => { x with seqs := [seqOne] })
  let s := bankWrite (bankWrite s (bankAddr 176 0) [7, 8]) (bankAddr 177 0) (leBytes 8 (ptEntry 5 0 false false))
  stackWrite s (stackAddr 4 10) [1]

theorem test_walk_due : (walkDue (walkFrom 1 0 1) 1 0 1).map (fun w => w.record) = some (walkRec 1 0 1) ∧ walkReady ((walkFrom 1 0 1).part 1) (walkRec 1 0 1) = true ∧
    headPending ((walkFrom 1 0 1).part 1) 0 = false ∧ headPending ((walkFrom 2 0 1).part 1) 0 = false ∧ headPending ((appendFrom 0).part 1) 0 = false ∧
    physCluster ((walkFrom 1 0 1).part 1) 0 = some 4 ∧
    (walkDue (walkFrom 2 0 1) 1 0 2).isSome = true ∧ seqInSlot ((walkFrom 2 0 1).part 1) 0 = none ∧
    (walkDue (appendFrom 0) 1 0 2).isSome = true ∧ (seqInSlot ((appendFrom 0).part 1) 0).isSome = true := by decide +kernel
theorem test_walk_bank : walkBank (walkFrom 1 0 1) 1 0 (walkField (walkRec 1 0 1) 12 4) 65536 = .ok (bankAddr 176 0) ∧
    walkBank (appendFrom 0) 1 0 (walkField (walkRec 2 0 1) 12 4) 64 = .ok (bankAddr 176 0) := by
  have h : physBank (walkFrom 1 0 1) ((walkFrom 1 0 1).part 1) 0 32 = some 176 ∧ ownedBy (walkFrom 1 0 1) 1 176 5 0 = true ∧
      physBank (appendFrom 0) ((appendFrom 0).part 1) 0 32 = some 176 ∧ ownedBy (appendFrom 0) 1 176 5 0 = true ∧
      bankRefOf (walkField (walkRec 1 0 1) 12 4) = { off := 0, bank := 32, observer := false } ∧
      bankRefOf (walkField (walkRec 2 0 1) 12 4) = { off := 0, bank := 32, observer := false } := by decide +kernel
  obtain ⟨h1, h2, h3, h4, h5, h6⟩ := h
  unfold walkBank
  rw [h5, h6]
  simp only [h1, h2, h3, h4, bankSize]
  constructor <;> rfl
theorem test_walk_stage : okay (exec (.walkStage 1 0) (walkFrom 1 0 1)) (fun u => u.part 1 |>.inflight.map (fun e => (e.walk, e.error)) |> (· == [(true, 0)])) = true := by
  decide +kernel
theorem test_walk_append : okay (exec (.walkAppend 1 0) (walkFrom 2 0 1)) (fun u => u.mem == (walkFrom 2 0 1).mem && (u.part 1).inflight.map (fun e => e.error) == [0]) = true ∧
    okay (exec (.walkAppend 1 0) (appendFrom 0)) (fun u => stackRead u (stackAddr 4 (5 * pageSize + 3 * 64)) 2 == [7, 8] && (u.part 1).inflight.map (fun e => e.error) == [0]) = true ∧
    okay (exec (.walkAppend 1 0) (appendFrom 1)) (fun u => (u.part 1).inflight.map (fun e => e.error) == [3]) = true := by decide +kernel
theorem test_copy_phase : okay (exec (.copyPhase 1 0) ((walkFrom 1 0 1).modPart 1 (fun x => { x with kv := [{ cullet := [], zeroed := [], copies := [(5, 6)], marks := [] }] })))
    (fun u => !copiesPending (u.part 1) 0) = true := by decide +kernel
theorem test_house_turn : stepping (walkFrom 1 0 1) 1 = true ∧ ((walkFrom 1 0 1).cluster 4).selfRefresh = false ∧
    okay (exec (.houseTurn 1 0) (walkFrom 1 0 1)) (fun u => u.mem == (walkFrom 1 0 1).mem) = true := by decide +kernel

/-- A walk record before its turn, and a command of a class with nothing to complete, wait. -/
theorem test_turns_wait : okay (exec (.walkStage 1 0) (walkFrom 2 0 1)) (fun u => (u.part 1).inflight == []) = true ∧
    oldest ((walkFrom 2 0 1).part 1) 5 0 = none ∧ okay (exec (.commandCompletion 1 5 0) (walkFrom 2 0 1)) (fun u => (u.part 1).inflight == []) = true := by decide +kernel

/-- A command of core class 1 that has run: it signals tally 1 by 5 and hands core bank 2 over to the vector unit. -/
def doneEntry : InFlight :=
  { cls := 1, inst := 0, queue := 0, index := 0, stepEnd := false, handover := some { cluster := 0, bank := 2, owner := 4, unit := 0 }, signal := some (1, 5), error := 0,
    walk := false, awaiting := false, ticket := 0 }

theorem test_completion : oldest (((turnOf 1 0 0xFF00 [] []).modPart 1 (fun x => { x with inflight := [doneEntry] })).part 1) 1 0 = some doneEntry ∧
    okay (exec (.commandCompletion 1 1 0) ((turnOf 1 0 0xFF00 [] []).modPart 1 (fun x => { x with inflight := [doneEntry] })))
      (fun u => (u.part 1).inflight == [] && (u.part 1).tallies == [7, 13] && (u.owner 146).owner == 4 && (u.owner 145).owner == 1) = true := by decide +kernel
/-! ## Number formats (03 R71, R84) -/

theorem test_nan_scale : isBlock 12 = true ∧ (Lane.start.mulAdd (readElem (fun _ => 1) (fun _ => 0xFF) [] 12 0) (.fin false 1 0)).nan = true := by decide +kernel
theorem test_zero_sign : (match floatFmt 5 with | some f => decide (floatCode f 1 (2 ^ 60) 0 0 = 0 ∧ f.bits = 8) | none => false) = true ∧
    writeScalar (wdescOf 5) 0 (.num true 1 (2 ^ 60)) = 0x80 ∧ writeScalar (wdescOf 5) 0 (.num true 0 1) = 0 ∧
    (match floatFmt (mxElement 11) with | some f => decide (floatCode f 1 (2 ^ 60) 0 0 = 0 ∧ f.bits = 4) | none => false) = true ∧ mxElem 11 0 0 true 1 (2 ^ 60) = 8 := by decide +kernel
theorem test_record : -(2 ^ 639) ≤ (Lane.start.add (.fin true 5 0)).acc ∧ laneOfRecord (Lane.start.add (.fin true 5 0)).record = Lane.start.add (.fin true 5 0) := by decide +kernel
theorem test_order_free : ([[(Num.fin false 3 0, Num.fin true 5 0)], [(.fin false 1 0, .fin false 1 0)]] : List (List (Num × Num))).flatten.Perm
    [(.fin false 1 0, .fin false 1 0), (.fin false 3 0, .fin true 5 0)] := by decide +kernel
/-! ## Links, stores and intake (12 R332–R340, 15 R425–R428) -/

/-- Partition 1's compute job: itself as member 0, place 40 as member 1 with live keys. -/
def computeJob (live : Bool) : Job :=
  { mirror := false, job := 3, total := 2, own := 0,
    members := [(0, { place := 0, serial := 1, keys := PeerKeys.init }),
                (1, { place := 40, serial := 7, keys := { PeerKeys.init with live := live, keyid := 1, txKey := zeros 32, txSalt := zeros 4, rxKey := zeros 32, rxSalt := zeros 4 } })] }

/-- The command of a link or store, with ring 2 of 4 slots from member 1 at cluster bank 3 and the job's keys live. -/
def linkFrom (op : Nat) (fields : List (Nat × Nat)) : State :=
  (turnOf 5 0 op fields []).modPart 1 (fun x => { x with
    job := some (computeJob true)
    image := some { oneCommand 5 0 op fields with rings := [{ ring := 2, peer := 1, peerRing := 2, slotSize := 128, slots := 4, cluster := 0, bank := 3, offset := 64 }] }
    rings := [{ ring := 2, slot := 2, full := [(1, 64), (2, 128)], arriving := none }] })

/-- 64 bytes at cluster bank 0, ring 2 of member 1. -/
def linkFields : List (Nat × Nat) := [(24, 32 * 2 ^ 21), (28, 64), (32, 1), (34, 2)]

theorem test_link_serves : (∀ op, op = 0x0510 ∨ op = 0x0511 → engineStarts (linkFrom op linkFields) 1 0 5 op (turnDue 5 0 op linkFields) ∧
    transferServes (linkFrom op linkFields) (turnDue 5 0 op linkFields) (bankRefOf (32 * 2 ^ 21)) 64 176) := by
  rintro op (rfl | rfl) <;> (unfold engineStarts transferServes; decide +kernel)
theorem test_link_ready : creditOf ((linkFrom 0x0510 linkFields).part 1) 1 2 = 4 ∧ peerLive ((linkFrom 0x0510 linkFields).part 1) 1 = true ∧
    (ringOf ((linkFrom 0x0511 linkFields).part 1) 1 2).isSome = true ∧
    slotAddr ((linkFrom 0x0511 linkFields).part 1) { ring := 2, peer := 1, peerRing := 2, slotSize := 128, slots := 4, cluster := 0, bank := 3, offset := 64 } 1 =
      some (bankAddr 179 192) := by decide +kernel
theorem test_link_send : okay (exec (.linkSend 1 0) (linkFrom 0x0510 linkFields)) (fun u => creditOf (u.part 1) 1 2 == 3 && (u.part 1).inflight.length == 1) = true := by
  decide +kernel
theorem test_link_recv : okay (exec (.linkRecv 1 0) (bankWrite (linkFrom 0x0511 linkFields) (bankAddr 179 192) [9]))
    (fun u => bankRead u (bankAddr 176 0) 2 == [9, 0] && (u.part 1).rings.map (fun g => g.full) == [[(2, 128)]] && (u.part 1).inflight.map (fun f => f.error) == [0]) = true := by
  decide +kernel
theorem test_link_waits : creditOf ((linkFrom 0x0510 linkFields).part 1) 1 2 = 4 ∧
    peerLive (((linkFrom 0x0510 linkFields).modPart 1 (fun x => { x with job := some (computeJob false) })).part 1) 1 = false ∧
    okay (exec (.linkSend 1 0) ((linkFrom 0x0510 linkFields).modPart 1 (fun x => { x with job := some (computeJob false) }))) (fun u => issuedOf (u.part 1) 0 == 0) = true ∧
    okay (exec (.linkRecv 1 0) ((linkFrom 0x0511 linkFields).modPart 1 (fun x => { x with rings := [{ ring := 2, slot := 2, full := [], arriving := none }] })))
      (fun u => issuedOf (u.part 1) 0 == 0) = true := by decide +kernel
theorem test_link_mirror :
    let s := (linkFrom 0x0510 linkFields).modPart 1 (fun x => { x with job := some mirrorJob })
    isMirror (s.part 1) = true ∧ isMirror ((linkFrom 0x0510 linkFields).part 1) = false ∧ okay (exec (.linkSend 1 0) s) (fun u => issuedOf (u.part 1) 0 == 0) = true := by decide +kernel

/-- A store command of one block at cluster bank 0, volume offset 0, with a store key. -/
def storeFields : List (Nat × Nat) := [(24, 32 * 2 ^ 21), (28, 65536), (32, 0)]
def storeFrom (op : Nat) (reqs : List StoreReq) : State :=
  { (turnOf 5 0 op storeFields []).modKeys 1 (fun k => { k with store := some (1, zeros 32) }) with requests := reqs }

/-- A request of partition 1 that its store has answered with an error. -/
def refused (use : StoreUse) : StoreReq :=
  { tag := 1, use := use, part := 1, queue := 0, store := 2040, volume := 1, offset := 0, length := 65536, got := [], data := [], sentAt := 0, attempts := 1,
    done := false, failed := true }

theorem test_store_serves : (∀ op, op = 0x0512 ∨ op = 0x0513 → engineStarts (storeFrom op []) 1 0 5 op (turnDue 5 0 op storeFields) ∧
    transferServes (storeFrom op []) (turnDue 5 0 op storeFields) (bankRefOf (32 * 2 ^ 21)) 65536 176) := by
  rintro op (rfl | rfl) <;> (unfold engineStarts transferServes; decide +kernel)
theorem test_store_room : requestsOf (storeFrom 0x0512 []) 1 0 .read = [] ∧ ceilDiv (65536 / 65536) 15 ≤ requestRoom (storeFrom 0x0512 []) 1 ∧
    65536 / 65536 ≤ requestRoom (storeFrom 0x0513 []) 1 ∧ 1 ≤ sealsLeft ((storeFrom 0x0513 []).part 1) ∧
    requestsOf (storeFrom 0x0512 [refused .read]) 1 0 .read ≠ [] ∧ (requestsOf (storeFrom 0x0512 [refused .read]) 1 0 .read).any reqOpen = false ∧
    (requestsOf (storeFrom 0x0513 [refused .write]) 1 0 .write).any reqOpen = false := by decide +kernel
theorem test_store_read : okay (exec (.storeRead 1 0) (storeFrom 0x0512 [])) (fun u => u.requests.length == 1 && issuedOf (u.part 1) 0 == 0) = true ∧
    okay (exec (.storeRead 1 0) (storeFrom 0x0512 [refused .read])) (fun u => u.requests == [] && (u.part 1).inflight.map (fun f => f.error) == [5]) = true := by decide +kernel
theorem test_store_write : okay (exec (.storeWrite 1 0) (storeFrom 0x0513 [refused .write])) (fun u => (u.part 1).inflight.map (fun f => f.error) == [5]) = true := by decide +kernel
theorem test_store_waits : sealsLeft ((turnOf 5 0 0x0513 storeFields []).part 1) = 0 ∧
    okay (exec (.storeWrite 1 0) (turnOf 5 0 0x0513 storeFields [])) (fun u => u.requests == [] && issuedOf (u.part 1) 0 == 0) = true ∧
    okay (exec (.storeRead 1 0) (storeFrom 0x0512 [{ refused .read with failed := false }])) (fun u => u.requests.length == 1 && issuedOf (u.part 1) 0 == 0) = true ∧
    okay (exec (.storeWrite 1 0) (storeFrom 0x0513 [{ refused .write with failed := false }])) (fun u => u.requests.length == 1 && issuedOf (u.part 1) 0 == 0) = true := by decide +kernel

/-- A chunk of 64 bytes of ones at offset 128 of logical cluster 0. -/
def onesChunk : Chunk := { digest := BitVec.ofNat 384 (beNat (sha384 (List.replicate 64 1))), length := 64, cluster := 0, offset := 128 }

/-- An intake of that one chunk. -/
def onesIntake : Intake := { target := 1, next := 0, stop := 1, length := 64, ident := 0, version := 0, slot := 0, region := (2040, 1, 0), body := [] }
def onesNonce : Bytes := leBytes 1 1 ++ leBytes 3 0 ++ leBytes 8 0

/-- Partition 1 taking it, with its tag page and data answered; `flip` spoils the tag. -/
def intakeFrom (flip : Byte) : State :=
  let sealed_ := gcmSeal (zeros 32) onesNonce (chunkEntry onesChunk) (List.replicate 64 1)
  let s := (held .loaded).modPart 1 (fun x => { x with image := some { bareImage with chunks := [onesChunk] } })
  let s := s.modKeys 1 (fun k => { k with model := some (zeros 32), intake := some onesIntake, result := 1 })
  { s with
    owners := (s.owners.set! 176 { s.owner 176 with owner := 5, observer := 2 }).set! 177 { s.owner 177 with owner := 5, observer := 2 }
    requests := [{ refused .intake with done := true, failed := false, got := sealed_.2.map (fun b => b ^^^ flip) },
                 { refused .intake with tag := 2, done := true, failed := false, got := sealed_.1 }] }

theorem test_intake_open : gcmOpen (zeros 32) onesNonce (chunkEntry onesChunk) (gcmSeal (zeros 32) onesNonce (chunkEntry onesChunk) (List.replicate 64 1)).1
      (gcmSeal (zeros 32) onesNonce (chunkEntry onesChunk) (List.replicate 64 1)).2 = some (List.replicate 64 1) := by decide +kernel
theorem test_intake_state : (requestsOf (intakeFrom 0) 1 0 .intake).length = 2 ∧ (requestsOf (intakeFrom 0) 1 0 .intake).any reqOpen = false ∧
    (chunkJob ((intakeFrom 0).part 1) { bareImage with chunks := [onesChunk] } onesIntake).map
      (intakeServes (intakeFrom 0) 1 { bareImage with chunks := [onesChunk] } onesIntake) = some true ∧
    ((intakeFrom 0).cluster 4).selfRefresh = false ∧ ((intakeFrom 0).part 1).clusters[0]? = some 4 ∧
    (chunkJob ((intakeFrom 0).part 1) { bareImage with chunks := [onesChunk] } onesIntake).map (fun c => (c.length, c.offset)) = some (64, 128) ∧
    requestsOf (held .loaded) 1 0 .intake = [] ∧ 2 ≤ requestRoom (held .loaded) 1 := by decide +kernel
theorem test_intake : okay (exec (.intakeChunk 1) (intakeFrom 0)) (fun u => stackRead u (stackAddr 4 128) 2 == [1, 1] && (u.part 1).keys.result == 2) = true ∧
    okay (exec (.intakeChunk 1) (intakeFrom 1)) (fun u => u.mem == Mem.init && (u.part 1).keys.result == 0x10) = true := by decide +kernel
theorem test_intake_failed :
    let s := intakeFrom 0
    okay (exec (.intakeChunk 1) { s with requests := s.requests.map (fun r => { r with done := false, failed := true }) })
      (fun u => u.mem == Mem.init && (u.part 1).keys.result == 0x12 && (u.part 1).keys.intake == none) = true := by decide +kernel
/-- That chunk with a digest of another text, sealed as such. -/
def wrongChunk : Chunk := { onesChunk with digest := 0 }
def wrongFrom : State :=
  let sealed_ := gcmSeal (zeros 32) onesNonce (chunkEntry wrongChunk) (List.replicate 64 1)
  { (intakeFrom 0).modPart 1 (fun x => { x with image := some { bareImage with chunks := [wrongChunk] } }) with
    requests := [{ refused .intake with done := true, failed := false, got := sealed_.2 }, { refused .intake with tag := 2, done := true, failed := false, got := sealed_.1 }] }

theorem test_intake_digest : memWf wrongFrom.mem = true ∧ physBank wrongFrom (wrongFrom.part 1) 0 (intakeBank { bareImage with chunks := [wrongChunk] } onesIntake 0) = some 176 ∧
    okay (exec (.intakeChunk 1) wrongFrom) (fun u => u.mem.hbm == [] && bankRead u (bankAddr 176 0) 2 == [1, 1] && (u.part 1).keys.result == 0x11) = true := by decide +kernel
/-! ## Video (09) and CSI-2 streams (10) -/

/-- A context of an encoder or decoder: 64 × 64, access-unit region 4,096 bytes, one reference, buffers in logical cluster 0. -/
def vidDesc (decoder : Nat) : Bytes :=
  [0, BitVec.ofNat 8 decoder, 0, 10] ++ leBytes 2 64 ++ leBytes 2 64 ++ [1, 0, 20, 10, 51, 0] ++ leBytes 2 0 ++ leBytes 4 0 ++ leBytes 2 30 ++ leBytes 2 1 ++
  leBytes 4 4096 ++ leBytes 2 0 ++ leBytes 2 2 ++ zeros 32
def vidContext (decoder : Nat) : VidContext := newContext 3 1 (vidDesc decoder)

/-- A video command of context 3: regions at 0, 65536 and 131072 of cluster bank 0. -/
def vidFields : List (Nat × Nat) := [(24, 0), (28, 65536), (32, 131072), (43, 3)]

/-- Partition 1's slot on die 0's engine, with open contexts; its banks are the engine's. -/
def vidFrom (op : Nat) (cs : List VidContext) : State :=
  bankWrite ((turnBy 8 6 0 op vidFields []).modEngine 0 (fun v => { v with owners := v.owners.set 0 (some 1), contexts := cs })) (bankAddr 176 0) (vidDesc 0)

theorem test_video_starts : (∀ op, op = 0x0600 ∨ op = 0x0601 ∨ op = 0x0602 → engineStarts (vidFrom op []) 1 0 6 op (turnDue 6 0 op vidFields) ∧
    engineFree (vidFrom op []) 1 0 = true ∧ openContext (vidFrom op []) 1 0 3 = none) := by
  rintro op (rfl | rfl | rfl) <;> (unfold engineStarts; decide +kernel)
theorem test_vctx_place : vrefAddr ((vidFrom 0x0600 []).part 1) (vrefOf 0) = some (bankAddr 176 0) ∧ vrefOwned (vidFrom 0x0600 []) 1 (vrefOf 0) 64 8 0 = true ∧
    bankPoisoned (vidFrom 0x0600 []) (bankAddr 176 0) 64 = false ∧ fieldAt (bankRead (vidFrom 0x0600 []) (bankAddr 176 0) 64) 0 1 ≠ 0xFF := by decide +kernel
theorem test_vctx_close : okay (exec (.vctxSet 1 0) (bankWrite (vidFrom 0x0600 [vidContext 0]) (bankAddr 176 0) [0xFF]))
    (fun u => (u.engine 0).contexts == [] && (u.engine 0).beats == 256) = true := by decide +kernel
theorem test_closed_context : regionOwned (vidFrom 0x0601 []) 1 (vrefOf 65536) 64 0 = true ∧ regionOwned (vidFrom 0x0601 []) 1 (vrefOf 131072) 64 0 = true ∧
    okay (exec (.vencFrame 1 0) (vidFrom 0x0601 [])) (fun u => (u.part 1).inflight.map (fun f => f.error) == [0x12] && (u.engine 0).beats == 1024) = true ∧
    okay (exec (.vdecFrame 1 0) (vidFrom 0x0602 [])) (fun u => (u.part 1).inflight.map (fun f => f.error) == [0x12]) = true := by decide +kernel

/-- The regions of a command on an open context lie within, are owned, and the stack serves. -/
def vidRegions (s : State) (c : VidContext) : Bool :=
  !vrefPast (vrefOf 0) 6144 && !vrefPast (vrefOf 65536) (round64 (32 + c.field 24 4)) && !vrefPast (vrefOf 131072) (resultBytes (some c)) &&
  vrefOwned s 1 (vrefOf 0) 6144 8 0 && vrefOwned s 1 (vrefOf 65536) (round64 (32 + c.field 24 4)) 8 0 && vrefOwned s 1 (vrefOf 131072) (resultBytes (some c)) 8 0 &&
  buffersServe s 1 c

theorem test_venc_serves : engineStarts (vidFrom 0x0601 [vidContext 0]) 1 0 6 0x0601 (turnDue 6 0 0x0601 vidFields) ∧
    openContext (vidFrom 0x0601 [vidContext 0]) 1 0 3 = some (vidContext 0) ∧ (vidContext 0).field 1 1 = 0 ∧ (vidContext 0).pictureBytes = 6144 ∧
    vidRegions (vidFrom 0x0601 [vidContext 0]) (vidContext 0) = true := by unfold engineStarts; decide +kernel
theorem test_vdec_serves : engineStarts (vidFrom 0x0602 [vidContext 1]) 1 0 6 0x0602 (turnDue 6 0 0x0602 vidFields) ∧
    openContext (vidFrom 0x0602 [vidContext 1]) 1 0 3 = some (vidContext 1) ∧ (vidContext 1).field 1 1 = 1 ∧
    regionOwned (vidFrom 0x0602 [vidContext 1]) 1 (vrefOf 0) (round64 (32 + (vidContext 1).field 24 4)) 0 = true ∧
    regionOwned (vidFrom 0x0602 [vidContext 1]) 1 (vrefOf 65536) (vidContext 1).pictureBytes 0 = true ∧ vidRegions (vidFrom 0x0602 [vidContext 1]) (vidContext 1) = true := by
  unfold engineStarts; decide +kernel

/-- An engine in a slot with a command of partition 1 under way. -/
def slotFrom (slot : Nat) : State := State.reset.modEngine 1 (fun v => { v with slot := slot, running := some (1, 0, 500), ownersNext := some (Vector.replicate 64 (some 2)) })

theorem test_slot_boundary : okay (exec (.videoSlotBoundary 1) (slotFrom 62)) (fun u => (u.engine 1).slot == 63 && (u.engine 1).suspended == [(1, 0, 500)] && (u.engine 1).ownersNext.isSome) = true ∧
    okay (exec (.videoSlotBoundary 1) (slotFrom 63)) (fun u => (u.engine 1).slot == 0 && (u.engine 1).owners.get 5 == some 2 && (u.engine 1).ownersNext == none) = true := by decide +kernel

/-- That state once the encode has issued, with the video turn of its queue in the turn list of transfer engine 0. -/
def vidTurnFrom (cs : List VidContext) : State := (vidFrom 0x0601 cs).modPart 1 (fun x => { x with
  queues := [{ queue := 0, head := 0, tail := 1, issued := 1, count := 1, step := 0 }]
  image := x.image.map (fun i => { i with layouts := i.layouts.map (fun l => { l with kinds := l.kinds.map (fun k => { k with
    turns := k.turns ++ [{ cls := 5, inst := 0, queues := [131072] }] }) }) }) })

theorem test_video_turn : videoDue (vidTurnFrom []) 1 0 = some (0, 0) ∧ (turnCommand ((vidTurnFrom []).part 1) 0).map (fun c => (c.1, recOpcode c.2)) = some (0, 0x0601) ∧
    okay (exec (.videoTurn 1 0) (vidTurnFrom [])) (fun u => assocGet 0 (u.part 1).videoMoved == some 1 && (u.cluster 4).beats == 0) = true ∧
    openContext (vidTurnFrom [(vidContext 0)]) 1 0 3 = some (vidContext 0) ∧ buffersServe (vidTurnFrom [(vidContext 0)]) 1 (vidContext 0) = true ∧
    (descOf ((vidTurnFrom []).part 1) 0).map (fun d => d.cls) = some 6 ∧
    okay (exec (.videoTurn 1 0) (vidTurnFrom [(vidContext 1)])) (fun u => assocGet 0 (u.part 1).videoMoved == some 1 &&
      (u.cluster 4).beats == BitVec.ofNat 64 (2 * (4 + (vidContext 1).bufferBytes / 2048))) = true ∧
    videoDue (vidFrom 0x0601 []) 1 0 = none := by decide +kernel
theorem test_video_codes : encodeBarred (turnDue 6 0 0x0601 vidFields).record (vidContext 0) = false ∧ encodeBarred (turnDue 6 0 0x0601 vidFields).record (vidContext 1) = true ∧
    (vidContext 0).field 1 1 ≠ 1 ∧ recOpcode (turnDue 6 0 0x0601 vidFields).record = 0x0601 ∧ recOpcode (turnDue 6 0 0x0602 vidFields).record = 0x0602 ∧
    vrefAddr ((vidFrom 0x0601 [vidContext 0]).part 1) (vrefOf (recField (turnDue 6 0 0x0601 vidFields).record 24 4)) = some (bankAddr 176 0) ∧
    okay (exec (.vencFrame 1 0) (vidFrom 0x0601 [vidContext 1])) (fun u => (u.part 1).inflight.map (fun f => f.error) == [0x12]) = true ∧
    okay (exec (.vdecFrame 1 0) (vidFrom 0x0602 [vidContext 0])) (fun u => (u.part 1).inflight.map (fun f => f.error) == [0x12]) = true := by decide +kernel

/-- Partition 1's binding of stream 4 to a port's virtual channel 5, lines of 100 bytes. -/
def binding (transmit : Bool) (opened : Option OpenFrame) : Binding :=
  { part := 1, transmit := transmit, stream := 4, port := 0, vc := 5, lanes := 4, sflags := 0, laneMbps := 2500, lineBytes := 100, maxBytes := 4096, quota := 1,
    minInterval := 1000, boundAt := 0, windowAt := none, windowDue := 77, counted := 0, opened := opened }

/-- An image's stream 4, received with data type 0x30 and sent with 0x33, landing in two buffers of cluster bank 1. -/
def stream4 (transmit : Bool) : StreamDecl :=
  { stream := 4, transmit := transmit, dt := if transmit then 0x33 else 0x30, streamId := 9, landing := if transmit then none else some { cluster := 0, bank := 1, offset := 0, size := 8192, count := 2 },
    limit := 0, room := 0 }

/-- Partition 1 with a stream bound, and a command of the stream class; `owner` has its banks. -/
def csiFrom (owner op : Nat) (fields : List (Nat × Nat)) (b : Binding) : State :=
  ((turnBy owner 7 0 op fields []).modPart 1 (fun x => { x with image := some { oneCommand 7 0 op fields with streams := [stream4 b.transmit] } })).modCsi
    (fun c => { c with bindings := [b] })

/-- A frame of number 12 open in buffer 1 after one line. -/
def openOne : OpenFrame :=
  { buffer := some 1, frame := 12, written := 128, flags := 0, lines := 1, bad := 0, received := [], tail := none, started := true, drop := false, openedAt := 0, lastAt := 3,
    timeout := 1000 }

theorem test_frame_start : rxBinding (csiFrom 6 0xFF00 [] (binding false none)) 0 5 = some (binding false none) ∧
    takesFrames (csiFrom 6 0xFF00 [] (binding false none)) 1 = true ∧ (landingOf ((csiFrom 6 0xFF00 [] (binding false none)).part 1) 4).isSome = true ∧
    okay (exec (.csiFrameStart 0 5 65548) (csiFrom 6 0xFF00 [] (binding false none)))
      (fun u => (rxBinding u 0 5).map (fun b => (b.counted, b.opened.map (fun f => (f.frame, f.buffer, f.drop)))) == some (1, some (12, some 0, false))) = true := by decide +kernel
theorem test_frame_quota : okay (exec (.csiFrameStart 0 5 12) (csiFrom 6 0xFF00 [] { binding false none with counted := 1 }))
      (fun u => (rxBinding u 0 5).map (fun b => b.opened.map (fun f => (f.buffer, f.drop))) == some (some (none, true)) && (u.csi.rx.get 0).overQuota == 1) = true ∧
    okay (exec (.csiFrameStart 3 5 12) (csiFrom 6 0xFF00 [] (binding false none))) (fun u => u.csi.unbound == 1) = true := by decide +kernel
theorem test_line : frameAddr (csiFrom 6 0xFF00 [] (binding false (some openOne))) (binding false (some openOne)) openOne = some (bankAddr 177 8192) ∧
    okay (exec (.csiLongPacket 0 5 0x30 (List.replicate 100 7) true 0) (csiFrom 6 0xFF00 [] (binding false (some openOne))))
      (fun u => bankRead u (bankAddr 177 (8192 + 128 + 99)) 2 == [7, 0] &&
        (rxBinding u 0 5).map (fun b => b.opened.map (fun f => (f.written, f.lines))) == some (some (256, 2))) = true ∧
    okay (exec (.csiLongPacket 2 5 0x30 [1] true 0) State.reset) (fun u => u.csi.unbound == 1) = true := by decide +kernel
theorem test_frame_end : follows ((csiFrom 6 0xFF00 [] (binding false (some openOne))).part 1) = false ∧
    okay (exec (.csiFrameEnd 0 5 12) (csiFrom 6 0xFF00 [] (binding false (some openOne))))
      (fun u => (u.part 1).journal.map (fun e => (e.seq, e.length, e.frame, e.stream)) == [(0, 128, 12, 4)] && (u.part 1).nextSeq == 1 &&
        (rxBinding u 0 5).map (fun b => b.opened) == some none) = true := by decide +kernel
theorem test_frame_timeout : okay (exec (.csiFrameTimeout 0 5) (csiFrom 6 0xFF00 [] (binding false (some openOne))))
    (fun u => u.now == 1000003 && (u.part 1).journal.map (fun e => e.flags % 16) == [2]) = true := by decide +kernel
theorem test_sync : okay (exec (.csiLaneSyncLoss 15) (State.reset.modRx 15 (fun r => { r with sync := true }))) (fun u => !(u.csi.rx.get 15).sync && (u.csi.rx.get 15).lost) = true ∧
    okay (exec (.csiLaneSyncRegained 15) State.reset) (fun u => (u.csi.rx.get 15).sync) = true ∧
    okay (exec (.csiGenericShortPacket 15 0x0F) State.reset) (fun u => u.csi.unbound == 1) = true ∧
    okay (exec (.csiGenericShortPacket 15 0x08) State.reset) (fun u => u.csi.unbound == 1) = true := by decide +kernel
theorem test_quota_window : okay (exec (.quotaWindowTimeout 0 5) (csiFrom 6 0xFF00 [] { binding false none with counted := 9 }))
    (fun u => u.now == 77 && (rxBinding u 0 5).map (fun b => (b.windowAt, b.counted)) == some (some 77, 0)) = true := by decide +kernel
theorem test_packets_else : okay (exec (.csiLongPacket 0 5 0x12 [9] true 0) (csiFrom 6 0xFF00 [] (binding false (some openOne))))
      (fun u => u.mem == (csiFrom 6 0xFF00 [] (binding false none)).mem && (rxBinding u 0 5).map (fun b => b.opened.map (fun f => f.tail)) == some (some (some ([9], true)))) = true ∧
    okay (exec (.csiLongPacket 0 5 0x24 [9] true 0) (csiFrom 6 0xFF00 [] (binding false (some openOne)))) (fun u => u.csi.unbound == 1) = true ∧
    okay (exec (.csiLongPacket 0 5 0x30 [9] true 2) (csiFrom 6 0xFF00 [] (binding false (some openOne))))
      (fun u => (u.csi.rx.get 0).hdrDiscard == 1 && (rxBinding u 0 5).map (fun b => b.opened.map (fun f => f.flags)) == some (some 1)) = true ∧
    okay (exec (.csiFrameEnd 0 5 13) (csiFrom 6 0xFF00 [] (binding false (some openOne)))) (fun u => (u.csi.rx.get 0).badLine == 1 && (u.part 1).journal.length == 1) = true ∧
    okay (exec (.csiFrameEnd 0 5 12) ((csiFrom 6 0xFF00 [] (binding false (some openOne))).modPart 1 (fun x => { x with state := .loaded })))
      (fun u => u.csi.unbound == 1 && (u.part 1).journal == []) = true ∧
    okay (exec (.csiFrameTimeout 0 5) (csiFrom 6 0xFF00 [] (binding false none))) (fun u => u.now == 0 && (u.part 1).journal == []) = true ∧
    okay (exec (.quotaWindowTimeout 3 5) State.reset) (fun u => u.now == 0) = true ∧
    okay (exec (.csiLaneSyncRegained 15) (State.reset.modRx 15 (fun r => { r with sync := true }))) (fun u => !(u.csi.rx.get 15).lost) = true := by decide +kernel
theorem test_bound_once : bindingsOnce (csiFrom 6 0xFF00 [] (binding false none)) := by unfold bindingsOnce; decide +kernel

/-- GATHER of up to 128 bytes of stream 4 to cluster bank 0, its record 1,024 bytes on. -/
def gatherFields : List (Nat × Nat) := [(24, 0), (28, 1024), (32, 128), (36, 4)]

/-- A landed frame of stream 4: 64 bytes of sevens. -/
def landed : JEntry :=
  { seq := 0, arrived := 5, port := 0, vc := 5, dt := 0x30, flags := 0, length := 64, pcrc := 0, frame := 12, stream := 4, buffer := some 1, lines := 1, bad := 0,
    payload := some (List.replicate 64 7), marks := [false], taken := false, dest := none, housed := false, paired := true }
def gatherFrom : State :=
  bankWrite ((csiFrom 6 0x0700 gatherFields (binding false none)).modPart 1 (fun x => { x with journal := [landed] })) (bankAddr 177 8192) (List.replicate 64 7)

theorem test_gather_serves : engineStarts gatherFrom 1 0 7 0x0700 (turnDue 7 0 0x0700 gatherFields) ∧ nextLanded 4 (gatherFrom.part 1).journal = some (landed, 0) ∧
    vrefAddr (gatherFrom.part 1) (vrefOf 1024) = some (bankAddr 176 1024) ∧ vrefOwned gatherFrom 1 (vrefOf 0) 128 6 0 = true ∧
    vrefOwned gatherFrom 1 (vrefOf 1024) 64 6 0 = true ∧ destHeld (gatherFrom.part 1) (bankAddr 176 0) 128 = false := by unfold engineStarts; decide +kernel
theorem test_gather : okay (exec (.gather 1 0) gatherFrom)
    (fun u => bankRead u (bankAddr 176 63) 2 == [7, 0] && (u.part 1).journal.map (fun e => e.taken) == [true] && bankRead u (bankAddr 176 1024) 4 != zeros 4) = true := by decide +kernel

/-- EMIT of 128 bytes of cluster bank 0 on stream 4. -/
def emitFields : List (Nat × Nat) := [(24, 0), (28, 128), (32, 4)]

theorem test_emit : engineStarts (csiFrom 7 0x0701 emitFields (binding true none)) 1 0 7 0x0701 (turnDue 7 0 0x0701 emitFields) ∧
    vrefOwned (csiFrom 7 0x0701 emitFields (binding true none)) 1 (vrefOf 0) 128 7 0 = true ∧
    okay (exec (.emit 1 0 []) (csiFrom 7 0x0701 emitFields (binding true none)))
      (fun u => (u.part 1).emits.map (fun e => (e.stream, e.payload.length)) == [(4, 128)] && (u.part 1).inflight.map (fun f => f.awaiting) == [true]) = true := by
  unfold engineStarts; decide +kernel

/-- A frame that waits to leave. -/
def waitingFrame : State := (csiFrom 7 0xFF00 [] (binding true none)).modPart 1 (fun x => { x with emits := [{ stream := 4, payload := zeros 128, poison := 0, step := 0, queue := 0, index := 0 }] })

theorem test_send : catchUpSent (waitingFrame.part 1) { stream := 4, payload := zeros 128, poison := 0, step := 0, queue := 0, index := 0 } = false ∧
    partHeld waitingFrame 1 = false ∧ lowerReady waitingFrame (binding true none) 0 = false ∧
    okay (exec (.emitFrameSend 1 4) waitingFrame) (fun u => u.out.length == 1 && (u.part 1).emits == [] && (u.csi.tx.get 0).numbers.get 5 == 2) = true ∧
    okay (exec (.emitFrameSend 1 4) (waitingFrame.modCsi (fun c => { c with stopped := true }))) (fun u => u.out == [] && (u.part 1).emits == []) = true := by decide +kernel
theorem test_send_else : okay (exec (.emitFrameSend 1 4) (waitingFrame.modPart 1 (fun x => { x with replay := true }))) (fun u => (u.part 1).exportRest.length == 1 && u.out == [] && (u.part 1).emits == []) = true ∧
    partHeld (waitingFrame.modPart 1 (fun x => { x with holdAt := some .dump })) 1 = true ∧
    catchUpSent ((waitingFrame.modPart 1 (fun x => { x with catchUp := some 3 })).part 1) { stream := 4, payload := zeros 128, poison := 0, step := 0, queue := 0, index := 0 } = true ∧
    lowerReady ((waitingFrame.modCsi (fun c => { c with bindings := { binding true none with stream := 5, vc := 4 } :: c.bindings })).modPart 1 (fun x => { x with
      emits := x.emits ++ [{ stream := 5, payload := zeros 128, poison := 0, step := 0, queue := 0, index := 0 }] })) (binding true none) 0 = true := by decide +kernel
theorem test_gather_settled : memWf gatherFrom.mem = true ∧ seqSettled gatherFrom 1 landed = true ∧ vrefPast (vrefOf 0) 128 = false ∧ vrefPast (vrefOf 1024) 64 = false ∧
    gatherUnit gatherFrom 1 4 (vrefOf 0) = 0 ∧ (landedBytes gatherFrom 1 landed 64).2.1 = List.replicate 64 7 := by decide +kernel
theorem test_emit_form : vrefPast (vrefOf 0) 128 = false ∧ secondBatch ((csiFrom 7 0x0701 emitFields (binding true none)).part 1) 4 = false ∧
    sendable (waitingFrame.part 1) 4 = true ∧ waitingFrame.csi.stopped = false := by decide +kernel
/-- Stream 4 as a step-batch stream whose frame of the step is composed. -/
def batched : State := waitingFrame.modPart 1 (fun x => { x with image := x.image.map (fun i => { i with streams := [{ stream4 true with dt := 0x34 }] }) })

theorem test_second_batch : secondBatch (batched.part 1) 4 = true ∧ secondBatch (waitingFrame.part 1) 4 = false ∧
    secondBatch ((batched.modPart 1 (fun x => { x with emits := [] })).part 1) 4 = false := by decide +kernel
/-! ## Steps (01 R20–R34, 02 R53–R59, 04 R117–R124) -/

/-- A step record of partition 1. -/
def recordOf (step : Nat) : StepRecord :=
  { part := 1, flags := 0, step := step, boundary := 5, firstSeq := 0, work := 0, ocrc := 0, epoch := 0, ngather := 0, layout := 0, image := 0, entries := [] }

/-- A checkpoint of partition 1 at a step, with no bank and no page. -/
def ckptAt (step : Nat) : Checkpoint :=
  { step := step, cells := [], marks := [], tallies := [4], queues := [], seqs := [], tables := [], tabMarks := [], kv := [], seedGen := 0, epoch := 0, layout := 0, kind := 0, firstSeq := 0,
    nextSeq := 0, nextSeqNo := 1, paused := [], status := [], adapters := [], pages := [9], pageData := [], pageMarks := [], video := [], older := [], buffers := [], bufMarks := [], taken := [] }

/-- Partition 1 running at step 5, its step released or not. -/
def atStep (released : Bool) : State := (held .running).modPart 1 (fun x => { x with step := 5, released := released, tallies := [7], bases := [6], records := [recordOf 5] })

theorem test_boundary_states : (∀ r, ((atStep r).part 1).state = .running ∧ partHeld (atStep r) 1 = false ∧ (atStep r).fw.windowEnd = none) ∧
    drained ((turnOf 1 0 0xFF00 [] []).part 1) = false := by
  constructor
  · intro r; cases r <;> decide +kernel
  · decide +kernel
theorem test_boundary_waits : okay (exec (.stepBoundary 1 { checkFail := [] }) (turnOf 1 0 0xFF00 [] [])) (fun u => (u.part 1).released && (u.part 1).step == 0) = true := by decide +kernel
theorem test_boundary_stop :
    let s := { (atStep true).modPart 1 (fun x => { x with stopWanted := some 0, bases := [7] }) with now := 1000 }
    0 < s.stamp ∧ drained (s.part 1) = true ∧ (s.part 1).catchUp = none ∧ (s.part 1).claim.paired = false ∧
    (∀ c ∈ partCores (s.part 1), (s.core c).state ≠ .fencePending ∧ (s.core c).state ≠ .rejoinPending) ∧
    okay (exec (.stepBoundary 1 { checkFail := [] }) s) (fun u => (u.part 1).state == .armed && (u.part 1).step == 6) = true := by decide +kernel
theorem test_stop_fences :
    let s := ({ (atStep true).modPart 1 (fun x => { x with stopWanted := some 0, bases := [7] }) with now := 1000 }).modCore 33 (fun k => { k with state := .fencePending, cause := .order })
    okay (exec (.stepBoundary 1 { checkFail := [] }) s) (fun u => (u.part 1).state == .armed && (u.core 33).state == .fenced) = true := by decide +kernel
theorem test_boundary_saturated :
    let s := (atStep false).modPart 1 (fun x => { x with tallySat := true })
    stopDue s (s.part 1) = false ∧ okay (exec (.stepBoundary 1 { checkFail := [] }) s) (fun u => (u.part 1).holdAt == some .tallyOverflow) = true := by decide +kernel
theorem test_boundary_live : (∀ c ∈ partCores ((atStep false).part 1), ((atStep false).core c).state = .inService ∧ ((atStep false).core c).checkDue = false) ∧
    stopDue (atStep false) ((atStep false).part 1) = false ∧ bareImage.layouts[((atStep false).part 1).layout]? = some bareLayout ∧ bareLayout.carried = [] := by decide +kernel
theorem test_boundary_release : okay (exec (.stepBoundary 1 { checkFail := [] }) (atStep false))
    (fun u => (u.part 1).released && (u.part 1).records.map (fun r => r.step) == [5] && (u.part 1).bases == [7]) = true := by decide +kernel
/-- A boundary at which an epoch of five steps begins and a checkpoint is due. -/
def epochFrom : State := (atStep false).modPart 1 (fun x => { x with image := some { bareImage with epochLength := 5, checkpoint := 5 } })

theorem test_boundary_quiet : quietBoundary (atStep false) 1 bareImage bareLayout ∧ quietBoundary epochFrom 1 { bareImage with epochLength := 5, checkpoint := 5 } bareLayout ∧
    quietBoundary (epochFrom.modPart 1 (fun x => { x with ckptNew := some (ckptAt 0) })) 1 { bareImage with epochLength := 5, checkpoint := 5 } bareLayout := by
  unfold quietBoundary; dsimp only; and_intros <;> decide +kernel
theorem test_boundary_epoch : okay (exec (.stepBoundary 1 { checkFail := [] }) epochFrom)
    (fun u => (u.part 1).epoch == 1 && (u.part 1).records.head?.map (fun r => (r.flags, r.epoch, r.entries)) == some (19, 1, [{ kind := 0x0A, a := 0, b := 1, c := 0 }]) &&
      (u.part 1).ckptNew.map (fun c => c.step) == some 5) = true ∧
    okay (exec (.stepBoundary 1 { checkFail := [] }) (epochFrom.modPart 1 (fun x => { x with ckptNew := some (ckptAt 0) })))
      (fun u => (u.part 1).records.head?.map (fun r => r.flags) == some 50 && (u.part 1).ckptNew == some (ckptAt 0)) = true := by decide +kernel

/-- That boundary in a replay and in a catch-up, whose record the module holds. -/
def replayed : State := (atStep false).modPart 1 (fun x => { x with replay := true, supplied := [recordOf 5] })
def caughtUp : State := (atStep false).modPart 1 (fun x => { x with catchUp := some 5, supplied := [recordOf 5] })
/-- A follower's boundary, with the parts that it holds. -/
def following (parts : List (Nat × Nat × List Decision)) : State :=
  (atStep false).modPart 1 (fun x => { x with claim := { x.claim with paired := true, role := .standby, leader := false, parts := parts } })

theorem decides_of (s : State) (p : PartId) (h : (s.part p).released = false ∧ (s.part p).restored = false ∧ stopDue s (s.part p) = false ∧ s.power.state ≠ .drain ∧
    (s.part p).tallySat = false ∧ (s.part p).paced = false ∧ leaderGone (s.part p).claim = false ∧ ((s.part p).catchUp.all (fun t => decide ((s.part p).step ≤ t))) = true ∧
    ((s.part p).replaySet.all (fun r => decide ((s.part p).step ≤ r.last))) = true) : decidesNext s p := by
  obtain ⟨a, b, c, d, e, f, g, i, j⟩ := h
  refine ⟨a, b, c, d, e, f, g, fun t h => ?_, fun r h _ => ?_⟩
  · simpa [h] using i
  · simpa [h] using j
theorem test_boundary_decides : decidesNext (atStep false) 1 ∧ decidesNext replayed 1 ∧ decidesNext caughtUp 1 ∧ decidesNext (following []) 1 ∧
    decidesNext (following [(5, 2, [])]) 1 := by
  refine ⟨?_, ?_, ?_, ?_, ?_⟩ <;> exact decides_of _ _ (by decide +kernel)
theorem test_boundary_source : (sourceOf (atStep false) ((atStep false).part 1)).map (fun c => (c.ts, c.given)) = some ((atStep false).stamp, none) ∧
    (sourceOf replayed (replayed.part 1)).map (fun c => (c.ts, c.given)) = some (5, some []) ∧ (sourceOf caughtUp (caughtUp.part 1)).map (fun c => (c.ts, c.given)) = some (5, some []) ∧
    (sourceOf (following []) ((following []).part 1)).isNone = true ∧ (sourceOf (following [(5, 2, [])]) ((following [(5, 2, [])]).part 1)).map (fun c => c.given) = some (some []) ∧
    okay (exec (.stepBoundary 1 { checkFail := [] }) (following [])) (fun u => (u.part 1).claim.waitPart.isSome && !(u.part 1).released) = true := by decide +kernel

/-- A boundary of partition 1 of `s` as it is decided live. -/
def bdOf (s : State) : Bd := { s := s, p := 1, step := 5, ts := 0, es := [], cut := [], gone := [], given := none, bad := false }

theorem test_boundary_bad : ((bdOf (atStep false)).cancelEntry none { kind := 0x02, a := 0, b := 9, c := 0 }).bad = true ∧
    (decideBoundary replayed 1 (sourceOfRecord { recordOf 5 with entries := [{ kind := 0x02, a := 0, b := 9, c := 0 }] })).1.bad = true ∧
    (decideBoundary caughtUp 1 (sourceOfRecord { recordOf 5 with entries := [{ kind := 0x02, a := 0, b := 9, c := 0 }] })).1.bad = true := by decide +kernel

/-- A request message of a kind, client 77, prompt of `prompt` tokens. -/
def reqMsg (kind prompt max : Nat) : ReqMsg :=
  let h := leBytes 4 0x52514D53 ++ leBytes 2 kind ++ leBytes 2 0 ++ leBytes 8 77 ++ leBytes 4 prompt ++ leBytes 2 max ++ zeros 38
  { hdr := h ++ leBytes 4 (crc32c (h ++ zeros (4 * prompt))), tokens := zeros (4 * prompt), whole := true, bad := false }

theorem test_boundary_message : kvDecl (bdOf (walkFrom 1 0 1)).x = some kvOne ∧ rejection (bdOf (walkFrom 1 0 1)).x kvOne (reqMsg 1 2 1) = none ∧ (reqMsg 1 2 1).field 4 1 = 1 ∧
    rejection (bdOf (walkFrom 1 0 1)).x kvOne (reqMsg 2 0 0) = none ∧ (reqMsg 2 0 0).field 4 1 = 2 ∧ rejection (bdOf (walkFrom 1 0 1)).x kvOne (reqMsg 1 9 1) = some 0x32 ∧
    (((bdOf (walkFrom 1 0 1)).message landed (reqMsg 1 2 1)).x.seqs.map (fun q => (q.state, q.client, q.promptEnd, q.maxNew))) = [(.queued, 77, 2, 1)] := by decide +kernel
theorem test_boundary_consume : (((bdOf gatherFrom).x.journal.filter (fun e => !e.taken && e.paired && requestStream (bdOf gatherFrom).x e.stream)).map (fun e => e.seq)) = [0] ∧
    ((bdOf gatherFrom).consume (fun _ => true)).x.journal.map (fun e => (e.taken, e.buffer)) = [(true, none)] := by decide +kernel

/-- An order's cancel of a sequence. -/
def orderCancel (n : Nat) : CancelReq := { byClient := false, target := n, stamp := 0, source := 0, frameSeq := 0, answer := none, entered := true, stream := 0 }

theorem test_boundary_cancel : cancelTarget (bdOf (appendFrom 0)).x (orderCancel 1) = some seqOne ∧ seqOne.state = .active ∧ cancelTarget (bdOf (appendFrom 0)).x (orderCancel 2) = none ∧
    ((bdOf (appendFrom 0)).cancel (orderCancel 1) false).x.seqs.map (fun q => (q.state, q.cancelled)) = [(.runOut, true)] ∧
    ((bdOf (appendFrom 0)).cancel (orderCancel 1) true).gone = [1] := by decide +kernel

/-- A version of adapter 6 in a slot. -/
def version (slot v : Nat) (st : AdapterState) : Adapter := { slot := slot, ident := 6, version := v, digest := 0, state := st, bound := 0, loadedAt := 0 }
def adapting (old new : Nat) : State := (atStep false).modPart 1 (fun x => { x with adapters := [version 0 old .current, version 1 new .loaded] })

theorem test_boundary_adapter : currentAdapter (bdOf (adapting 1 2)).x 6 = some (version 0 1 .current) ∧
    ((bdOf (adapting 1 2)).adapter (version 1 2 .loaded)).x.adapters.map (fun a => (a.slot, a.state)) = [(0, .superseded), (1, .current)] ∧
    currentAdapter (bdOf (adapting 2 2)).x 6 = some (version 0 2 .current) ∧
    ((bdOf (adapting 2 2)).adapter (version 1 2 .loaded)).x.adapters.map (fun a => (a.slot, a.state)) = [(0, .current)] := by decide +kernel
theorem test_boundary_admits : freeSlot (bdOf (walkFrom 1 0 1)).x kvOne = some 0 ∧ (freeRange (bdOf (walkFrom 1 0 1)).x kvOne).isSome = true ∧
    admitsNothing ((walkFrom 1 0 1).modPower (fun w => { w with state := .drain })) = true ∧
    ((bdOf (walkFrom 1 0 1)).letIn kvOne seqOne none).es = [{ kind := 0x01, a := 0, b := 1, c := 0 }] := by decide +kernel
theorem test_boundary_part_sent :
    let s := (atStep false).modPart 1 (fun x => { x with journal := [landed], claim := { x.claim with paired := true, leader := true } })
    (s.part 1).journal.filter (fun e => (s.part 1).claim.sentSeq ≤ e.seq && e.arrived < 6) = [landed] ∧
    ((sendDecisions s 1 5 6 []).part 1).claim.sentSeq = (s.part 1).claim.sentSeq + 1 := by decide +kernel

theorem test_checkpoint : okay (exec (.checkpointComplete 1) ((atStep true).modPart 1 (fun x => { x with ckpt := some (ckptAt 2), ckptNew := some (ckptAt 4) })))
    (fun u => (u.part 1).ckpt == some (ckptAt 4) && (u.part 1).ckptNew == none && (u.part 1).ckptDrop == [9]) = true := by decide +kernel
theorem test_export : recordAt [recordOf 4] 4 = some (recordOf 4) ∧
    okay (exec (.stepExport 1) ((atStep true).modPart 1 (fun x => { x with exporting := true, exported := 4, records := [recordOf 4] })))
      (fun u => (u.part 1).exported == 5 && (u.part 1).exportRest.map (fun e => e.1) == [0] && u.out == []) = true := by decide +kernel
/-- Partition 1 at step 5 with a store key and an export waiting. -/
def exportFrom (kind n : Nat) : State :=
  ((atStep true).modPart 1 (fun x => { x with exportRest := [(kind, zeros n)], exportPaid := n, ckptNew := some (ckptAt 4), spillLength := 0 })).modKeys 1
    (fun k => { k with store := some (1, zeros 32) })

theorem test_export_runs : exportRuns (exportFrom 1 64) 1 1 = true ∧ exportRuns ((atStep true).modPart 1 (fun x => { x with ckptNew := some (ckptAt 4) })) 1 1 = false ∧
    okay (exec (.checkpointComplete 1) (exportFrom 1 64)) (fun u => (u.part 1).ckptNew == some (ckptAt 4)) = true := by decide +kernel
theorem test_export_pumps : requestRoom (exportFrom 0 64) 1 = 64 ∧ sealsLeft ((exportFrom 0 64).part 1) = 2 ^ 32 ∧ stepsRun ((exportFrom 0 64).part 1) = true ∧
    (pumpOne 1 (exportFrom 0 64)).requests.length = 1 ∧ ((pumpOne 1 (exportFrom 0 64)).part 1).exportRest = [] ∧
    sealsLeft ((atStep true).part 1) = 0 ∧ pumpOne 1 ((atStep true).modPart 1 (fun x => { x with exportRest := [(2, [1])] })) =
      (atStep true).modPart 1 (fun x => { x with exportRest := [(2, [1])] }) := by decide +kernel
theorem test_stall : okay (exec (.stepStall 1) (atStep true)) (fun u => (u.part 1).stalled && u.now == 4 * wallBound (atStep true) ((atStep true).part 1) 0 + 1) = true := by
  decide +kernel

/-- Partition 1 stepping with a command on core 32 under way. -/
def silent : State := (atStep true).modPart 1 (fun x => { x with inflight := [{ doneEntry with handover := none }] })

theorem test_hard_stop : partOfCore silent 32 = some 1 ∧ stepping silent 1 = true ∧ holdsCommand silent 1 32 = true ∧
    okay (exec (.hardStop 32) silent) (fun u => (u.core 32).state == .fenced && (u.core 32).cause == .hardStop && (u.part 1).holdAt == some .catchUpImpossible) = true := by decide +kernel
theorem test_hard_stop_restores :
    let s := silent.modPart 1 (fun x => { x with ckpt := some (ckptAt 3), image := some { bareImage with checkpoint := 1 } })
    payloadsHeld (s.part 1) (ckptAt 3) = true ∧
    okay (exec (.hardStop 32) s) (fun u => (u.part 1).step == 3 && (u.part 1).tallies == [4] && (u.part 1).catchUp == some 5) = true := by decide +kernel

/-- Core `c` in the glory hole. -/
def inHole (s : State) (c : CoreId) : State := s.modCore c (fun k => { k with state := .gloryHole })

theorem test_glory_hole : okay (exec (.gloryHolePass 63 (some 2)) (inHole State.reset 63)) (fun u => (u.core 63).state == .fenced) = true ∧
    partOfCore (inHole State.reset 63) 63 = none ∧
    okay (exec (.gloryHolePass 63 none) { inHole State.reset 63 with mem := { Mem.init with banks := [(bankAddr (36 * 7 + 28) 0, 1), (bankAddr (36 * 7 + 31) (bankSize - 1), 2), (bankAddr (36 * 7 + 32) 0, 3)] } })
      (fun u => (u.core 63).state == .inService && u.mem.banks == [(bankAddr (36 * 7 + 32) 0, 3)]) = true ∧
    partOfCore (inHole (atStep true) 32) 32 = some 1 ∧
    okay (exec (.gloryHolePass 32 none) (inHole (atStep true) 32)) (fun u => (u.core 32).state == .rejoinPending) = true := by decide +kernel
theorem test_scrub : okay (exec (.hbmScrub 7 [] [511]) (State.reset.modCluster 7 (fun c => { c with scrubAt := 2 ^ 36 - 32768 })))
    (fun u => (u.cluster 7).scrubAt == 0 && u.mem.stackPoison == [stackAddr 7 (2 ^ 36 - 64) / 64]) = true := by decide +kernel
theorem test_sweep : okay (exec (.keySweep 7 []) (State.reset.modCluster 7 (fun c => { c with sweep := some 1044479 }))) (fun u => (u.cluster 7).halfDone && (u.cluster 7).sweep == some 1044479) = true ∧
    okay (exec (.keySweep 7 []) (State.reset.modCluster 7 (fun c => { c with sweep := some 1044479, halfDone := true }))) (fun u => !(u.cluster 7).halfDone && (u.cluster 7).sweep == none) = true := by
  decide +kernel
theorem test_step_rows_else : okay (exec (.checkpointComplete 1) State.reset) (fun u => (u.part 1).ckpt == none) = true ∧
    okay (exec (.stepExport 1) State.reset) (fun u => u.out == []) = true ∧ okay (exec (.stepStall 1) State.reset) (fun u => u.now == 0 && !(u.part 1).stalled) = true ∧
    okay (exec (.hardStop 63) State.reset) (fun u => (u.core 63).state == .inService) = true ∧
    okay (exec (.gloryHolePass 63 (some 2)) State.reset) (fun u => (u.core 63).state == .inService) = true ∧
    okay (exec (.hbmScrub 7 [] [5]) (State.reset.modCluster 7 (fun c => { c with trained := false }))) (fun u => u.mem.stackPoison == []) = true ∧
    okay (exec (.keySweep 7 []) State.reset) (fun u => !(u.cluster 7).halfDone) = true := by decide +kernel
theorem test_glory_hole_held :
    let h := (inHole (atStep false) 32).modPart 1 (fun x => { x with holdAt := some .noLayout })
    partOfCore h 32 = some 1 ∧ okay (exec (.gloryHolePass 32 none) h) (fun u => (u.core 32).state == .inService) = true ∧
    partOfCore (inHole (held .armed) 32) 32 = some 1 ∧ ((inHole (held .armed) 32).part 1).state = .armed ∧
    okay (exec (.gloryHolePass 32 none) (inHole (held .armed) 32)) (fun u => (u.core 32).state == .inService) = true := by decide +kernel

/-! ## Time (12 R345–R352) -/

/-- LOCKED at an edge of value 7 × 10^9, 1 s ago, with a commit on port A. -/
def locked (commit : Option Nat) : State :=
  { (State.reset.modTime (fun t => { t with state := .locked, lastEdge := some 0, lastValue := some 7000000000 })).modPort 0 (fun q => { q with commit := commit }) with now := 999999000 }

theorem test_edge_locked : (∀ v ∈ commitsOf (locked (some 8000000000)), v = 7000000000 + 1000000000) ∧
    okay (exec (.timeSyncEdge 1000000000 156249998) (locked (some 8000000000))) (fun u => u.time.state == .locked && u.time.lastValue == some 8000000000 && u.now == 1000000000) = true ∧
    okay (exec (.timeSyncEdge 1000000000 156250002) (locked none)) (fun u => u.time.state == .locked) = true := by decide +kernel
theorem test_edge_off : okay (exec (.timeSyncEdge 1000000000 156249997) (locked none)) (fun u => u.time.state == .holdover && u.time.missed == 1 && u.time.losses == 1) = true ∧
    okay (exec (.timeSyncEdge 1000000000 156250003) (locked none)) (fun u => u.time.state == .holdover && u.time.unsure) = true := by decide +kernel
theorem test_edge_locks :
    let s := (locked (some 8000000000)).modTime (fun t => { t with state := .acquiring, trim := -3 })
    agreedOf (commitsOf s) = some (7000000000 + 1000000000) ∧
    okay (exec (.timeSyncEdge 1000000000 156250000) s) (fun u => u.time.state == .locked && u.stamp == 7999999997) = true := by decide +kernel
theorem test_edge_missing : okay (exec .edgeMissing (locked none)) (fun u => u.now == 1000100000 && u.time.state == .holdover && u.time.lastEdge == none) = true ∧
    okay (exec .refclkLoss (locked none)) (fun u => !u.time.ref && u.time.state == .holdover && u.time.losses == 1) = true ∧
    okay (exec .refclkReturn ((locked none).modTime (fun t => { t with ref := false }))) (fun u => u.time.ref) = true := by decide +kernel

/-- A burst of source 0x01020304 and module tray 5. -/
def burstBits : BitVec 96 := BitVec.ofNat 96 (0xA5C3 * 2 ^ 80 + 0x01020304 * 2 ^ 48 + 5 * 2 ^ 32 + crc32c (leBytes 4 0x01020304 ++ leBytes 2 5))

theorem test_burst : bitsOf burstBits.toNat 95 80 = 0xA5C3 ∧
    crc32c (leBytes 4 (bitsOf burstBits.toNat 79 48) ++ leBytes 2 (bitsOf burstBits.toNat 47 32)) = bitsOf burstBits.toNat 31 0 ∧
    okay (exec (.identityBurst burstBits) { locked none with now := 9 }) (fun u => u.time.far == 0x01020304) = true := by decide +kernel
theorem test_slew : okay (exec .slewComplete ({ State.reset with now := 5000 }.modTime (fun t => { t with slew := 5, slewAt := 0 }))) (fun u => u.time.slew == 0 && u.now == 5000) = true := by
  decide +kernel
theorem test_trim : okay (exec .timeTrim (due State.reset 0x6D (leBytes 2 0xFFFE))) (fun u => u.time.trim == -2) = true := by decide +kernel
theorem test_edge_offset :
    let s := (locked (some 8000000005)).modTime (fun t => { t with disagree := 2, offset := 5 })
    agreedOf (commitsOf s) = some 8000000005 ∧
    okay (exec (.timeSyncEdge 1000000000 156250000) s) (fun u => u.time.state == .locked && u.time.lastValue == some 8000000005 && u.time.disagree == 0) = true ∧
    okay (exec (.timeSyncEdge 1000000000 156250000) ((locked (some 5)).modTime (fun t => { t with state := .acquiring, lastValue := none })))
      (fun u => u.time.state == .acquiring && u.time.lastValue == some 5) = true := by decide +kernel
theorem test_time_else : okay (exec .edgeMissing State.reset) (fun u => u.now == 0) = true ∧
    okay (exec .refclkLoss (State.reset.modTime (fun t => { t with ref := true, state := .acquiring }))) (fun u => !u.time.ref && u.time.state == .acquiring) = true ∧
    okay (exec (.identityBurst 0) { locked none with now := 9 }) (fun u => u.time.far == (locked none).time.far && u.now == 10000) = true ∧
    okay (exec .slewComplete State.reset) (fun u => u.now == 0) = true := by decide +kernel

/-! ## Events and stream bindings (10 R270–R272, 19 R477–R481) -/

/-- A module with one record in its ring. -/
def oneEvent : State := State.reset.modEvents (fun v => { v with records := [{ time := 3, source := 0, code := 0x0101, part := 0xFF, eflags := 0, data := zeros 16 }], written := 6 })

theorem test_copy_on : okay (exec .evtCopy (due oneEvent 0x60 ([1] ++ zeros 7 ++ leBytes 8 2))) (fun u => (u.port 0).copyOn && (u.port 0).cursor == 5) = true ∧
    okay (exec .evtCopyStop (due oneEvent 0x60 [2])) (fun u => !(u.port 0).copyOn) = true := by decide +kernel
theorem test_log_fill : max ((oneEvent.modPort 1 (fun q => { q with copyOn := true, log := none })).port 1).cursor (oldestHeld oneEvent.events) < oneEvent.events.written ∧
    okay (exec (.logMessageFill 1) (oneEvent.modPort 1 (fun q => { q with copyOn := true, log := none }))) (fun u => (u.port 1).log.map (fun l => (l.1, l.2.1, l.2.2.1)) == some (false, 5, 1)) = true := by decide +kernel
theorem test_log_fill_boot :
    okay (exec (.logMessageFill 1) ((oneEvent.modPort 1 (fun q => { q with copyOn := true, log := none })).modEvents (fun v => { v with openRing := false })))
      (fun u => (u.port 1).log == none) = true := by decide +kernel

/-- A mirror order: port 2, 1 lane, 2,500 Mb/s, lines and frames of 256 bytes, an interval in µs. -/
def mirrorBody (chan interval : Nat) : Bytes :=
  [0, BitVec.ofNat 8 chan, 0, 0, 2, 1, 1, 0] ++ leBytes 2 2500 ++ leBytes 2 256 ++ leBytes 4 256 ++ zeros 4 ++ leBytes 4 interval

theorem test_mirror : okay (exec .evtMirror (due oneEvent 0x61 (mirrorBody 0 1000))) (fun u => u.events.mirror.map (fun m => (m.port, m.vc, m.minInterval)) == some (2, 1, 1000)) = true ∧
    rateExceeded 1 2500 [(256, 256, 1)] = true ∧ rateExceeded 1 2500 [(256, 256, 1000)] = false ∧
    okay (exec .evtMirror (due oneEvent 0x61 (mirrorBody 0 1))) (fun u => u.events.mirror == none && u.orders.refused == 1) = true ∧
    okay (exec .evtMirror (due (oneEvent.modEvents (fun v => { v with mirror := some (Mirror.mk 2 1 4 2500 256 256 1000 0 none) })) 0x61 (mirrorBody 0xFF 0))) (fun u => u.events.mirror == none) = true := by
  decide +kernel
theorem test_mirror_frame : okay (exec .mirrorFrame (oneEvent.modEvents (fun v => { v with mirror := some (Mirror.mk 2 1 4 2500 256 256 1000 0 (some 4)) })))
    (fun u => u.now == 1000004 && u.events.mirror.map (fun m => m.cursor) == some 6 && u.out.length == 1) = true := by decide +kernel

/-- A binding order of partition 1's stream 4: direction, port 2, virtual channel 5. -/
def bindBody (transmit interval : Nat) : Bytes :=
  [1, BitVec.ofNat 8 transmit, 4, 0, 2, 5, 4, 0] ++ leBytes 2 2500 ++ leBytes 2 256 ++ leBytes 4 4096 ++ leBytes 2 10 ++ zeros 2 ++ leBytes 4 interval

theorem test_bind : okay (exec .streamBind (due (held .loaded) 0x22 (bindBody 1 1000))) (fun u => u.csi.bindings.map (fun b => (b.part, b.stream, b.port, b.transmit)) == [(1, 4, 2, true)]) = true ∧
    okay (exec .streamBind (due (held .running) 0x22 (bindBody 1 1000))) (fun u => u.csi.bindings == []) = true := by decide +kernel
theorem test_bind_refused : rateExceeded 4 2500 (portStreams (held .loaded) (bindingFrom (held .loaded) (orderMsg 0x22 (bindBody 1 1)) 1)) = true ∧
    okay (exec .streamBind (due (held .loaded) 0x22 (bindBody 1 1))) (fun u => u.csi.bindings == [] && u.orders.refused == 1) = true ∧
    bindConflict ((held .loaded).modCsi (fun c => { c with bindings := [{ binding true none with port := 2, part := 3 }] }))
      (bindingFrom (held .loaded) (orderMsg 0x22 (bindBody 1 1000)) 1) = true := by decide +kernel
theorem test_csi_timeout : okay (exec .csiTimeout (due State.reset 0x23 (leBytes 4 77))) (fun u => u.csi.timeout == 77) = true := by decide +kernel
theorem test_copy_none : (∀ t ∈ oneEvent.orders.due, t.msg.typ ≠ 0x60 ∧ t.msg.typ ≠ 0x61 ∧ t.msg.typ ≠ 0x22 ∧ t.msg.typ ≠ 0x23) ∧ ((oneEvent.modPort 1 (fun q => { q with copyOn := false })).port 1).copyOn = false ∧
    okay (exec (.logMessageFill 1) (oneEvent.modPort 1 (fun q => { q with copyOn := false }))) (fun u => (u.port 1).log == none) = true ∧
    okay (exec .mirrorFrame oneEvent) (fun u => u.out == []) = true ∧
    okay (exec .mirrorFrame (oneEvent.modEvents (fun v => { v with mirror := some (Mirror.mk 2 1 4 2500 256 256 1000 6 none) }))) (fun u => u.out == []) = true := by decide +kernel
theorem test_unbind : okay (exec .streamBind (due ((held .loaded).modCsi (fun c => { c with bindings := [binding true none] })) 0x22 (bindBody 0xFF 0))) (fun u => u.csi.bindings == []) = true ∧
    okay (exec .streamBind (due ((held .loaded).modCsi (fun c => { c with bindings := [{ binding true none with port := 2, part := 3 }] })) 0x22 (bindBody 1 1000)))
      (fun u => u.csi.bindings.length == 1 && statusIs 0x03 u) = true ∧
    okay (exec .evtMirror (due (oneEvent.modCsi (fun c => { c with bindings := [{ binding true none with port := 2 }] })) 0x61 (mirrorBody 0 1000)))
      (fun u => u.events.mirror == none && statusIs 0x03 u) = true := by decide +kernel
/-! ## Claims (13) -/

theorem test_claim_pair_own_tray : okay (exec .claimPair (due pairable 0x38 ([0, 1, 65, 0] ++ leBytes 2 31 ++ [0, 0] ++ leBytes 8 7)))
    (fun u => (u.part 0).claim == Claim.init && u.orders.refused == 1) = true := by decide +kernel
theorem test_claim_pair : mirrorMember (pairable.part 0) 40 7 = true ∧ (∀ q, q ≠ 0 → (pairable.part q).claim.paired = false) ∧
    okay (exec .claimPair (due pairable 0x38 ([0, 1, 65, 0] ++ leBytes 2 40 ++ [0, 0] ++ leBytes 8 7)))
      (fun u => (u.part 0).claim.claim == 2 && u.orders.accepted == 1 && (u.part 0).claim.leader && (u.part 0).claim.detectSteps == 2) = true ∧
    okay (exec .claimPair (due pairable 0x38 ([0, 2, 65, 0] ++ leBytes 2 40 ++ [9, 9] ++ leBytes 8 7)))
      (fun u => (u.part 0).claim.claim == 1 && (u.part 0).claim.role == .standby && (u.part 0).claim.detectMin == 9) = true := by decide +kernel

/-- CLAIM_SET of partition 0 with a value. -/
def claimBody (v : Nat) : Bytes := [0, 0, 0, 0] ++ leBytes 4 v

theorem test_claim_yield : okay (exec .claimYield (due (paired .holder true 7) 0x39 (claimBody 0)))
      (fun u => (u.part 0).claim.claim == 0 && (u.part 0).claim.role == .gloryHole && u.out.length == 1) = true ∧
    okay (exec .claimYield (due (paired .gloryHole false 0) 0x39 (claimBody 0))) (fun u => u.orders.refused == 1) = true := by decide +kernel
theorem test_claim_raise : okay (exec .claimRaise (due (paired .standby false 7) 0x39 (claimBody 8)))
      (fun u => (u.part 0).claim.claim == 8 && (u.part 0).claim.highest == 8 && (u.part 0).claim.leader && (u.part 0).claim.raises == 1) = true ∧
    okay (exec .claimRaise (due (paired .standby false 7) 0x39 (claimBody 7))) (fun u => (u.part 0).claim.claim == 7 && !(u.part 0).claim.leader) = true ∧
    okay (exec .claimRaise (due (paired .standby false 7) 0x39 (claimBody 0xFFFFFFFF))) (fun u => (u.part 0).claim.claim == 7) = true := by decide +kernel
theorem test_claim_unpair : okay (exec .claimUnpair (due (paired .standby false 7) 0x3A [0])) (fun u => (u.part 0).claim == Claim.init) = true ∧
    okay (exec .claimUnpair (due ((paired .standby false 7).modPart 0 (fun x => { x with state := .running })) 0x3A [0])) (fun u => (u.part 0).claim.paired) = true := by decide +kernel
theorem test_claim_reenter : okay (exec .claimReenter (due (paired .gloryHole false 0) 0x3B [0, 0xFF])) (fun u => (u.part 0).claim.wanted && (u.part 0).claim.pacePct == 10) = true ∧
    okay (exec .claimReenter (due pairable 0x3B [0, 5])) (fun u => !(u.part 0).claim.wanted && u.orders.refused == 1) = true := by decide +kernel

/-- A heartbeat of the partner for partition 0 with a claim. -/
def beatOf (claim : Nat) : Heartbeat := sealBeat { beat with claim := claim, highest := claim }

theorem test_heartbeat_sent : okay (exec (.heartbeatTimer 0) (paired .holder true 7)) (fun u => u.now == 500000 && u.out.length == 1) = true := by decide +kernel
theorem test_heartbeat_bad : okay (exec (.heartbeatReceive { beatOf 7 with rcrc := 0 }) (paired .holder true 7)) (fun u => u.lanes.discards == 1) = true ∧
    beatPart (paired .holder true 7) { beatOf 7 with group := 64 } = none ∧
    okay (exec (.heartbeatReceive (sealBeat { beatOf 7 with cabinet := 1 })) (paired .holder true 7)) (fun u => u.lanes.discards == 1) = true := by decide +kernel
theorem test_heartbeat_kept : beatPart (paired .standby false 7) (beatOf 9) = some 0 ∧
    okay (exec (.heartbeatReceive (beatOf 9)) (paired .standby false 7)) (fun u => (u.part 0).claim.highest == 9 && (u.part 0).claim.claim == 7 && (u.part 0).claim.role == .standby) = true ∧
    outranks 7 40 8 (paired .holder true 8).place = false := by decide +kernel
theorem test_heartbeat_yielded : okay (exec (.heartbeatReceive (beatOf 0)) (paired .standby false 7))
    (fun u => (u.part 0).claim.claim == 8 && (u.part 0).claim.role == .holder && (u.part 0).claim.leader) = true := by decide +kernel
theorem test_heartbeat_outranks : outranks 9 40 8 (paired .holder true 8).place = true ∧ okay (exec (.heartbeatReceive (beatOf 9)) (paired .holder true 8))
    (fun u => (u.part 0).claim.claim == 0 && (u.part 0).claim.role == .gloryHole && (u.part 0).claim.demotions == 1) = true := by decide +kernel
theorem test_holder_lost : okay (exec (.holderLost 0) (paired .standby false 7)) (fun u => (u.part 0).claim.claim == 8 && (u.part 0).claim.leader) = true ∧
    okay (exec (.holderLost 0) (paired .holder true 7)) (fun u => (u.part 0).claim.lost && (u.part 0).claim.claim == 7) = true := by decide +kernel
theorem test_unmatched : okay (exec (.followerUnmatched 0) ((paired .standby false 7).modClaim 0 (fun c => { c with unmatched := [(landed, 5)] })))
      (fun u => (u.part 0).claim.role == .gloryHole && (u.part 0).claim.wanted) = true ∧
    okay (exec (.followerUnmatched 0) ((paired .standby false 7).modClaim 0 (fun c => { c with waitPart := some 5 }))) (fun u => (u.part 0).claim.role == .gloryHole) = true := by decide +kernel
theorem test_peer_rx : okay (exec .peerRxSyncGained State.reset) (fun u => u.lanes.rxSync) = true ∧ okay (exec .peerRxSyncLost State.reset) (fun u => !u.lanes.rxSync) = true := by decide +kernel
theorem test_claim_pair_refused :
    okay (exec .claimPair (due pairable 0x38 ([0, 1, 65, 0] ++ leBytes 2 40 ++ [0, 0] ++ leBytes 8 6))) (fun u => statusIs 0x03 u && !(u.part 0).claim.paired) = true ∧
    okay (exec .claimPair (due (pairable.modClaim 2 (fun c => { c with paired := true, partner := 41, serial := 7 })) 0x38 ([0, 1, 65, 0] ++ leBytes 2 40 ++ [0, 0] ++ leBytes 8 7)))
      (fun u => statusIs 0x03 u && !(u.part 0).claim.paired) = true ∧
    okay (exec .claimPair (due (pairable.modPart 0 (fun x => { x with state := .running })) 0x38 ([0, 1, 65, 0] ++ leBytes 2 40 ++ [0, 0] ++ leBytes 8 7)))
      (fun u => statusIs 0x10 u && !(u.part 0).claim.paired) = true := by decide +kernel
theorem test_claim_in_replay :
    let s := (paired .standby false 7).modPart 0 (fun x => { x with replay := true })
    okay (exec .claimRaise (due s 0x39 (claimBody 8))) (fun u => statusIs 0x10 u && (u.part 0).claim.claim == 7) = true ∧
    okay (exec .claimPair (due (pairable.modPart 0 (fun x => { x with replay := true })) 0x38 ([0, 1, 65, 0] ++ leBytes 2 40 ++ [0, 0] ++ leBytes 8 7)))
      (fun u => (u.part 0).claim.claim == 0 && (u.part 0).claim.paired) = true := by decide +kernel
theorem test_claim_yield_in_replay :
    okay (exec .claimYield (due ((paired .standby false 7).modPart 0 (fun x => { x with replay := true })) 0x39 (claimBody 0)))
      (fun u => (u.part 0).claim.claim == 0 && (u.part 0).claim.role == .gloryHole && (u.part 0).claim.highest == 7) = true ∧
    okay (exec .claimRaise (due (paired .gloryHole false 0) 0x39 (claimBody 9))) (fun u => statusIs 0x10 u && (u.part 0).claim.claim == 0) = true := by decide +kernel
theorem test_lost_in_hole :
    let s := ((paired .gloryHole false 7).modPart 0 (fun x => { x with state := .running }))
    (s.part 0).claim.wanted = false ∧ (s.part 0).released = false ∧
    okay (exec (.holderLost 0) s) (fun u => (u.part 0).claim.lost && (u.part 0).holdAt == some .gloryHole) = true ∧
    okay (exec (.holderLost 0) (s.modPart 0 (fun x => { x with released := true }))) (fun u => (u.part 0).claim.lost && (u.part 0).holdAt == none) = true := by decide +kernel
theorem test_claim_none : State.reset.orders.due = [] ∧ (State.reset.part 0).claim.paired = false ∧
    okay (exec (.heartbeatTimer 0) State.reset) (fun u => u.out == []) = true ∧ okay (exec (.holderLost 0) State.reset) (fun u => u.now == 0) = true ∧
    okay (exec (.followerUnmatched 0) State.reset) (fun u => u.now == 0) = true ∧
    okay (exec (.heartbeatTimer 0) ((paired .holder true 7).modLanes (fun l => { l with testing := true }))) (fun u => u.out == [] && u.now == 500000) = true ∧
    okay (exec (.heartbeatReceive (beatOf 9)) ((paired .standby false 7).modLanes (fun l => { l with testing := true }))) (fun u => (u.part 0).claim.highest == 7) = true := by decide +kernel
theorem test_heartbeat_pulled : okay (exec (.heartbeatReceive (sealBeat { beatOf 9 with bflags := 8 })) (paired .standby false 7)) (fun u => (u.part 0).claim.claim == 10 && (u.part 0).claim.leader) = true ∧
    okay (exec (.holderLost 0) ((paired .gloryHole false 7).modClaim 0 (fun c => { c with wanted := true }))) (fun u => (u.part 0).claim.lost && (u.part 0).claim.wanted && (u.part 0).claim.tries == 1) = true ∧
    okay (exec (.heartbeatReceive (beatOf 7)) ((paired .holder true 8).modClaim 0 (fun c => { c with lost := true }))) (fun u => (u.part 0).claim.leader && !(u.part 0).claim.lost) = true := by decide +kernel
/-! ## Carloth ports (12) -/

/-- A plan body: cabinet, and port 3 expecting place 40, port 5. -/
def planBody (cabinet : Nat) : Bytes := leBytes 4 cabinet ++ leBytes 4 1 ++ (List.range 16).flatMap (fun n => leBytes 4 (if n = 3 then 32768 + 5 * 2048 + 40 else 0)) ++ zeros 2048

/-- Port 3 in a state, with place 40 at its far end. -/
def portIn (st : LinkState) : State :=
  State.reset.modLink 3 (fun l => { l with
    state := st
    credits := #v[9, 9, 9]
    far := some { place := 40, port := 5, cabinet := 7, serial := 9, store := false, auth := true, agrees := true } })

/-- Partition 1 RUNNING with a compute job. -/
def computing : State := (held .running).modPart 1 (fun x => { x with job := some (computeJob true) })

theorem test_plan : computeRuns (portIn .up) = false ∧ computeRuns computing = true ∧
    okay (exec .linkPlan (due (portIn .up) 0x68 (planBody 7))) (fun u => u.plan.inForce && u.plan.cabinet == 7 && (u.link 3).state == .up) = true ∧
    okay (exec .linkPlan (due (portIn .up) 0x68 (planBody 8))) (fun u => (u.link 3).state == .miswired) = true ∧
    okay (exec .linkPlan (due (portIn .miswired) 0x68 (planBody 7))) (fun u => (u.link 3).state == .training) = true := by decide +kernel

/-- A share body that gives every turn of port 3 from 4 on to partition 1. -/
def shareBody : Bytes := leBytes 2 8 ++ zeros 6 ++ List.replicate 64 1

theorem test_share : (∀ m : PortId, bitOf 8 m.val = true → shareTakes State.reset (orderMsg 0x69 shareBody).msg (State.reset.link m) = false) ∧
    okay (exec .linkShare (due State.reset 0x69 shareBody)) (fun u => (u.link 3).owners.get 3 == .house && (u.link 3).owners.get 4 == .part 1 && (u.link 2).owners.get 4 == .relay) = true := by
  decide +kernel
theorem test_share_refused :
    let s := computing.modLink 3 (fun l => { l with owners := l.owners.set 9 (.part 1) })
    let body := leBytes 2 8 ++ zeros 6 ++ List.replicate 64 0xFF
    shareTakes s (orderMsg 0x69 body).msg (s.link 3) = true ∧ okay (exec .linkShare (due s 0x69 body)) (fun u => (u.link 3).owners.get 9 == .part 1) = true := by decide +kernel

/-- A job table of partition 1: job 3 of 2 members, itself 0, both members named. -/
def jobBody : Bytes := [1, 0] ++ leBytes 2 0 ++ leBytes 2 2 ++ leBytes 2 2 ++ leBytes 4 3 ++ leBytes 2 0 ++ zeros 2 ++ (leBytes 2 0 ++ zeros 6 ++ leBytes 8 1) ++ (leBytes 2 40 ++ zeros 6 ++ leBytes 8 7)

theorem test_job : okay (exec .linkJob (due (held .loaded) 0x6A jobBody)) (fun u => (memberOf (u.part 1) 1).map (fun m => (m.place, m.serial)) == some (40, 7) &&
      ((u.part 1).job.map (fun j => (j.job, j.total, j.own))) == some (3, 2, 0)) = true ∧
    okay (exec .linkJob (due computing 0x6A jobBody)) (fun u => u.orders.due == []) = true := by decide +kernel
theorem test_port_orders : okay (exec .linkPortDisable (due (portIn .up) 0x6B [3, 1])) (fun u => (u.link 3).state == .disabled) = true ∧
    okay (exec .linkPortDisable (due (portIn .failed) 0x6B [3, 1])) (fun u => (u.link 3).state == .failed) = true ∧
    okay (exec .linkPortEnable (due (portIn .up) 0x6B [3, 2])) (fun u => (u.link 3).state == .retraining && u.out == [.trainingPattern 3]) = true ∧
    okay (exec .linkPortEnable (due (portIn .failed) 0x6B [3, 2])) (fun u => (u.link 3).state == .training) = true ∧
    okay (exec .linkPortTest (due (portIn .up) 0x6B ([3, 3, 10, 0] ++ leBytes 2 24))) (fun u => (u.link 3).state == .testing && (u.link 3).testUntil == some 10000000000 && u.lanes.testing) = true := by
  decide +kernel
theorem test_test_end : okay (exec (.linkTestEnd 3 16777216 5) ((portIn .testing).modLink 3 (fun l => { l with testUntil := some 9, testFrom := .up, testSeconds := 2 })))
    (fun u => (u.link 3).state == .up && (u.link 3).ber == 16777215 && u.lanes.ber == 5 && !u.lanes.testing && u.now == 9) = true := by decide +kernel
theorem test_interval_test : okay (exec (.intervalTest 3) ((portIn .up).modLink 3 (fun l => { l with testAt := some 5, testHours := 1, lastFrame := some 3600000000005 })))
      (fun u => u.now == 3600000000005 && (u.link 3).state == .up && !u.lanes.testing) = true ∧
    okay (exec (.intervalTest 3) ((portIn .up).modLink 3 (fun l => { l with testAt := some 5, testHours := 1 }))) (fun u => (u.link 3).state == .testing) = true := by decide +kernel

/-- An ingress order of partition 1's stream 4: target or source place 40, stream 9. -/
def ingressBody (action : Nat) : Bytes := [1, BitVec.ofNat 8 action] ++ leBytes 2 4 ++ leBytes 2 40 ++ leBytes 2 9

theorem test_ingress : okay (exec .linkIngressCopy (due (held .loaded) 0x6C (ingressBody 1))) (fun u => u.csi.streams.map (fun r => (r.stream, r.copyTo, r.copyFrom)) == [(4, some (40, 9), none)]) = true ∧
    okay (exec .linkIngressBind (due (held .loaded) 0x6C (ingressBody 2))) (fun u => u.csi.streams.map (fun r => (r.stream, r.copyFrom)) == [(4, some (40, 9))]) = true ∧
    okay (exec .linkIngressRemove (due (held .loaded) 0x6C (ingressBody 0xFF))) (fun u => u.csi.streams == []) = true := by decide +kernel

/-- Port 3 training, at a step. -/
def trainingAt (n : Nat) : State := State.reset.modLink 3 (fun l => { l with trainStep := n })

theorem test_training : mayTrain (trainingAt 0) 3 = true ∧ inTraining ((trainingAt 0).link 3).state = true ∧
    okay (exec (.signalDetect 3) (trainingAt 0)) (fun u => (u.link 3).trainStep == 1) = true ∧
    okay (exec (.trainingRetry 3) (trainingAt 0)) (fun u => u.now == 1000000000 && (u.link 3).state == .down) = true ∧
    okay (exec (.trainingTimeout 3) (trainingAt 1)) (fun u => u.now == 200000000 && (u.link 3).state == .retraining) = true ∧
    okay (exec (.trainingTimeout 3) ((trainingAt 2).modLink 3 (fun l => { l with retrains := [1, 2, 3] }))) (fun u => u.now == 50000000 && (u.link 3).state == .failed) = true := by
  decide +kernel
theorem test_fec_lock : okay (exec (.fecLock 3 (zeros 32)) (trainingAt 1)) (fun u => (u.link 3).trainStep == 2 && u.out.length == 1) = true := by decide +kernel
theorem test_identity_store : isStore (trainingAt 2) storeId = true ∧ wiredWrong (trainingAt 2) 3 2040 3 0 = false ∧ (trainingAt 2).fw.load = none ∧
    okay (exec (.partnerIdentity 3 storeId) (trainingAt 2)) (fun u => (u.link 3).state == .up && (u.link 3).credits == bufferUnits) = true := by decide +kernel
theorem test_identity_wrong :
    let s := { trainingAt 2 with plan := { Plan.init with inForce := true, cabinet := 7, routes := [(2040, routeByte 0x60)] } }
    isStore s storeId = true ∧ wiredWrong s 3 2040 3 0 = true ∧ okay (exec (.partnerIdentity 3 storeId) s) (fun u => (u.link 3).state == .miswired) = true := by decide +kernel
theorem test_identity_fails : identityOk (trainingAt 2) 3 { storeId with store := false } = false ∧
    okay (exec (.partnerIdentity 3 { storeId with store := false }) (trainingAt 2)) (fun u => (u.link 3).state == .failed) = true := by decide +kernel
theorem test_slow : waitingSince (((portIn .up).modLink 3 (fun l => { l with waitSince := #v[none, some 5, some 7] })).link 3) = some 5 ∧
    okay (exec (.slowPartnerRetrain 3) ((portIn .up).modLink 3 (fun l => { l with waitSince := #v[none, some 5, some 7], stalled := true })))
      (fun u => (u.link 3).state == .retraining && u.now == 1000000005) = true ∧
    okay (exec (.faultyPartner 3) (portIn .up)) (fun u => (u.link 3).state == .retraining) = true := by decide +kernel

/-- A control frame of 64 bytes to place 40. -/
def ctlFrame : Frame := newFrame (portIn .up) 0x05 40 3 0 0 0 2 (zeros 64)

theorem test_turn : turnFrame ((portIn .up).modLink 3 (fun l => { l with house := [ctlFrame] })) (((portIn .up).modLink 3 (fun l => { l with house := [ctlFrame] })).link 3) = some ctlFrame ∧
    frameUnits ctlFrame ≤ 9 ∧ okay (exec (.calendarTurn 3) ((portIn .up).modLink 3 (fun l => { l with house := [ctlFrame] })))
      (fun u => (u.link 3).txSeq == 1 && (u.link 3).turn == 1 && (u.link 3).unacked.length == 1 && (u.link 3).house == []) = true ∧
    okay (exec (.calendarTurn 3) ((portIn .up).modLink 3 (fun l => { l with turn := 63, txSeq := 65535 }))) (fun u => (u.link 3).txSeq == 0 && (u.link 3).turn == 0) = true := by
  decide +kernel
theorem test_turn_resends :
    let s := (portIn .up).modLink 3 (fun l => { l with unacked := [{ lseq := 4, credit := (0, 0, 0), frame := none }], resend := 1, txSeq := 5 })
    okay (exec (.calendarTurn 3) s) (fun u => (u.link 3).resend == 0 && (u.link 3).txSeq == 5) = true := by decide +kernel
theorem test_receive_empty : okay (exec (.envelopeReceive 3 (env none)) (portIn .up)) (fun u => (u.link 3).rxNext == 1 && (u.link 3).credits == #v[10, 11, 12]) = true ∧
    okay (exec (.envelopeReceive 3 { env none with crc := 0 }) (portIn .up)) (fun u => (u.link 3).nakDue && (u.link 3).rxNext == 0) = true ∧
    okay (exec (.envelopeReceive 3 (sealEnv { env none with lseq := 2 })) (portIn .up)) (fun u => (u.link 3).nakSent && (u.link 3).rxNext == 0) = true := by decide +kernel

/-- Port 3 with a plan of cabinet 0: every place is local, and frames of place 40 may come by it. -/
def planned : State := { portIn .up with plan := { Plan.init with inForce := true, routes := [(0, routeByte 0xB3), (40, routeByte 0xB3)] } }

theorem test_receive_frame : frameOk planned 3 zeroFrame = true ∧ (routeOf planned zeroFrame.dst).loc = true ∧
    okay (exec (.envelopeReceive 3 (env (some zeroFrame))) planned) (fun u => u.inbox == [(3, zeroFrame)] && (u.link 3).rxNext == 1) = true ∧
    frameOk planned 3 { zeroFrame with magic := 0 } = false ∧
    okay (exec (.envelopeReceive 3 (env (some { zeroFrame with magic := 0 }))) planned) (fun u => u.inbox == [] && (u.link 3).discards == 1) = true := by decide +kernel
theorem test_link_job_again :
    let s := (held .loaded).modPart 1 (fun x => { x with job := some (computeJob true) })
    okay (exec .linkJob (due s 0x6A ([1, 0] ++ leBytes 2 1 ++ leBytes 2 0 ++ leBytes 2 2 ++ leBytes 4 3 ++ leBytes 2 0 ++ zeros 2)))
      (fun u => memberOf (u.part 1) 1 == memberOf (s.part 1) 1) = true ∧
    okay (exec .linkJob (due s 0x6A (jobBody.set 8 4))) (fun u => (memberOf (u.part 1) 1).map (fun m => m.keys) == some PeerKeys.init) = true := by decide +kernel
theorem test_arm_waits :
    let a := { checkpoint := none, journal := [], records := [] }
    let s := due ((held .loaded).modPart 1 (fun x => { x with job := some { computeJob false with members := [] }, image := some { bareImage with modules := 2 } })) 0x20 (poBody 3 0)
    jobReady (s.part 1) = false ∧ okay (exec (.partArm a) s) (fun u => statusIs 0x01 u && (u.part 1).state == .loaded) = true ∧
    (let s := due ((held .loaded).modPart 1 (fun x => { x with image := some { bareImage with layouts := [{ bareLayout with absent := [] }] } })) 0x20 (poBody 3 0)
     (pickLayout (s.modCore 32 (fun k => { k with state := .fenced })) (s.part 1)) = none ∧
     okay (exec (.partArm a) (s.modCore 32 (fun k => { k with state := .fenced }))) (fun u => statusIs 0x06 u && (u.part 1).state == .loaded) = true) := by decide +kernel
theorem test_link_tests_end : okay (exec .linkPortDisable (due ((portIn .testing).modLink 3 (fun l => { l with testUntil := some 9 })) 0x6B [3, 1]))
      (fun u => (u.link 3).testUntil == none && !u.lanes.testing && (u.link 3).ber == (State.reset.link 3).ber) = true ∧
    okay (exec (.intervalTest 3) ((portIn .up).modLink 3 (fun l => { l with testAt := some 5, testHours := 1, lastFrame := some 3590000000005 })))
      (fun u => (u.link 3).state == .testing) = true ∧
    okay (exec (.linkTestEnd 3 1 1) (portIn .up)) (fun u => u.now == 0) = true ∧ okay (exec (.intervalTest 3) (portIn .up)) (fun u => u.now == 0) = true := by decide +kernel
theorem test_plan_trained :
    okay (exec .linkPlan (due (portIn .miswired) 0x68 (planBody 8))) (fun u => (u.link 3).state == .training) = true ∧
    okay (exec .linkPlan (due (portIn .testing) 0x68 (planBody 8))) (fun u => (u.link 3).state == .testing) = true := by decide +kernel
theorem test_enable_counts :
    okay (exec .linkPortEnable (due ((portIn .failed).modLink 3 (fun l => { l with retrains := [1, 2, 3] })) 0x6B [3, 2])) (fun u => (u.link 3).retrains == [1, 2, 3]) = true ∧
    okay (exec .linkPortTest (due (portIn .failed) 0x6B ([3, 3, 10, 0] ++ leBytes 2 24))) (fun u => (u.link 3).state == .failed && (u.link 3).testHours == 24) = true := by decide +kernel
theorem test_test_ends :
    okay (exec (.linkTestEnd 3 7 5) ((portIn .failed).modLink 3 (fun l => { l with testUntil := some 9 }))) (fun u => (u.link 3).state == .failed && (u.link 3).ber == 7) = true ∧
    okay (exec (.linkTestEnd 3 7 5) ({ (portIn .testing) with plan := { Plan.init with inForce := true, cabinet := 8 } }.modLink 3 (fun l => { l with testUntil := some 9, testFrom := .up })))
      (fun u => (u.link 3).state == .miswired) = true ∧
    okay (exec (.linkTestEnd 3 7 5) ((portIn .testing).modLink 3 (fun l => { l with testUntil := some 9, testFrom := .down }))) (fun u => (u.link 3).state == .down) = true := by decide +kernel
theorem test_port_else : mayTrain (portIn .up) 3 = true ∧ inTraining ((portIn .up).link 3).state = false ∧ waitingSince ((portIn .up).link 3) = none ∧
    okay (exec (.signalDetect 3) (portIn .up)) (fun u => (u.link 3).trainStep == ((portIn .up).link 3).trainStep) = true ∧
    okay (exec (.slowPartner 3) (portIn .up)) (fun u => !(u.link 3).stalled) = true ∧
    okay (exec (.calendarTurn 3) (portIn .down)) (fun u => u.out == []) = true ∧
    okay (exec (.envelopeReceive 3 (env none)) (portIn .down)) (fun u => (u.link 3).rxNext == 0) = true ∧
    ((portIn .up).link 3).stalled = false ∧ waitingSince (((portIn .up).modLink 3 (fun l => { l with waitSince := #v[none, some 5, none] })).link 3) = some 5 := by decide +kernel

/-- 126 envelopes of 4,160 bytes, all that may stand unacknowledged. -/
def fullWindow : State := (portIn .up).modLink 3 (fun l => { l with
  txSeq := 200
  unacked := (List.range 126).map (fun i => { lseq := i, credit := (0, 0, 0), frame := some { ctlFrame with payload := zeros 4096 } }) })

theorem test_turn_full : (524288 < ((fullWindow.link 3).unacked.map (fun e => envBytes e.frame)).sum + envBytes none) = true ∧
    okay (exec (.calendarTurn 3) fullWindow) (fun u => (u.link 3).resend == 125 && (u.link 3).txSeq == 200 && (u.link 3).turn == 1) = true := by decide +kernel

/-- With another place behind port 5. -/
def relaying : State := ({ planned with plan := { planned.plan with routes := [(0, routeByte 0xB3), (40, routeByte 0xB3), (41, routeByte 0x25)] } }).modLink 5 (fun l => { l with state := .up })

theorem test_receive_relay : frameOk relaying 3 { zeroFrame with dst := 41 } = true ∧ (routeOf relaying 41).loc = false ∧ routePort (routeOf relaying 41) = 5 ∧
    pullFrame relaying 3 { zeroFrame with dst := 41 } = false ∧
    okay (exec (.envelopeReceive 3 (env (some { zeroFrame with dst := 41 }))) relaying) (fun u => u.inbox == [] && (u.link 5).relay == [(0, 3, { zeroFrame with dst := 41 })]) = true := by
  decide +kernel
/-- An envelope with a control frame of the house waits to be sent again; the port's turn is one of the relay. -/
def resending (turn : Nat) : State := (portIn .up).modLink 3 (fun l => { l with
  turn := turn, resend := 1, txSeq := 5, unacked := [{ lseq := 4, credit := (0, 0, 0), frame := some ctlFrame, owner := .house }] })

/-- The envelope that a state's only output is. -/
def sentIn (s : State) : Option Envelope := match s.out with | [.envelope _ v] => some v | _ => none

theorem test_turn_owner : turnOwner ((resending 0).link 3) = .house ∧ turnOwner ((resending 4).link 3) = .relay ∧
    okay (exec (.calendarTurn 3) (resending 0)) (fun u => (sentIn u).map (fun v => (v.lseq, v.frame.isSome)) == some (4, true) && (u.link 3).resend == 0) = true ∧
    okay (exec (.calendarTurn 3) (resending 4)) (fun u => (sentIn u).map (fun v => (v.lseq, v.frame)) == some (3, none) && (u.link 3).resend == 1) = true ∧
    okay (exec (.calendarTurn 3) ((resending 0).modPower (fun w => { w with prsntLost := true })))
      (fun u => (sentIn u).map (fun v => (v.lseq, v.frame)) == some (3, none) && (u.link 3).resend == 1) = true := by decide +kernel
theorem test_turn_part : turnOwner (((portIn .up).modLink 3 (fun l => { l with turn := 4, owners := l.owners.set 4 (.part 1) })).link 3) = .part 1 ∧
    okay (exec (.calendarTurn 3) ((portIn .up).modLink 3 (fun l => { l with turn := 4, owners := l.owners.set 4 (.part 1) })))
      (fun u => (sentIn u).map (fun v => (v.lseq, v.frame)) == some (0, none) && (u.link 3).turn == 5) = true := by decide +kernel
theorem test_receive_order : lseqBehind ((portIn .up).link 3) 65535 = true ∧ lseqBehind ((portIn .up).link 3) 2 = false ∧
    okay (exec (.envelopeReceive 3 (sealEnv { env none with lseq := 65535, uncorr := 2 })) (portIn .up)) (fun u => !(u.link 3).nakDue && (u.link 3).fecUncorr == 2) = true ∧
    okay (exec (.envelopeReceive 3 (sealEnv { env none with lseq := 2 })) ((portIn .up).modLink 3 (fun l => { l with nakSent := true }))) (fun u => !(u.link 3).nakDue) = true := by decide +kernel
theorem test_receive_naks :
    okay (exec (.envelopeReceive 3 (sealEnv { env none with nak := true })) ((portIn .up).modLink 3 (fun l => { l with nakTimes := List.replicate 64 0 }))) (fun u => (u.link 3).state == .retraining) = true ∧
    okay (exec (.envelopeReceive 3 (sealEnv { env none with nak := true })) ((portIn .up).modLink 3 (fun l => { l with nakTimes := List.replicate 63 0 }))) (fun u => (u.link 3).state == .up) = true := by decide +kernel
/-- With place 40 as a store. -/
def storePlan : State := { planned with plan := { planned.plan with routes := [(0, routeByte 0xB3), (40, routeByte 0xF3)] } }

theorem test_receive_store_frames : frameOk storePlan 3 { zeroFrame with typ := 0x20 } = true ∧
    okay (exec (.envelopeReceive 3 (env (some { zeroFrame with typ := 0x20 }))) storePlan) (fun u => u.inbox == [] && (u.link 3).rxNext == 1 &&
      (u.link 3).discards == 0 && (u.link 3).owedCredit.get (classIx 0x20) == frameUnits zeroFrame) = true := by decide +kernel
theorem test_receive_no_way : ((relaying.modLink 5 (fun l => { l with state := .down })).link 5).state ≠ .up ∧
    okay (exec (.envelopeReceive 3 (env (some { zeroFrame with dst := 41 }))) (relaying.modLink 5 (fun l => { l with state := .down })))
      (fun u => u.inbox == [] && (u.link 5).relay == [] && (u.link 5).discards == 1 && (u.link 3).owedCredit.get (classIx 0x10) == frameUnits zeroFrame) = true := by decide +kernel
theorem test_receive_window :
    okay (exec (.envelopeReceive 3 (env (some { zeroFrame with magic := 0 }))) planned) (fun u => (u.link 3).discardAt == some 0 && (u.link 3).dropped == 1 && u.events.records.length == planned.events.records.length) = true ∧
    (planned.link 3).discardAt = none := by decide +kernel

/-! ## Keys, returns and firmware (15, 16) -/

/-- An ephemeral key of partition 1: private key 1, an empty report, NONCE of zeros. -/
def ephOne : Ephemeral := { nonce := zeros 32, priv := 0, report := [], madeAt := 0 }

/-- Partition 1 LOADED with that key and receive stream 4. -/
def keyedPart : State := ((held .loaded).modPart 1 (fun x => { x with image := some { bareImage with streams := [stream4 false] } })).modKeys 1 (fun k => { k with ephemeral := [ephOne] })

/-- The clear part of a release of a kind: PART 1, STREAM 4 for a stream key, KEY_GEN 2, NONCE, and the curve's base point as the public key. -/
def releaseHead (kind : Nat) : Bytes :=
  [1, BitVec.ofNat 8 kind] ++ leBytes 2 (if kind = 2 then 4 else 0) ++ leBytes 4 (if kind = 1 then 0 else 2) ++ zeros 32 ++ pointBytes (some ecG) ++ zeros 7

/-- A release of 36 bytes of threes. -/
def releaseBody (kind : Nat) : Bytes :=
  let w := wrapKey keyedPart (orderMsg 0x40 (releaseHead kind)) ephOne
  let g := gcmSeal (w.take 32) (w.drop 32) (sha384 []) (List.replicate 36 3)
  releaseHead kind ++ g.1 ++ g.2

theorem test_release_one : unwrap keyedPart (orderMsg 0x40 (releaseBody 1)) ephOne = some (List.replicate 36 3) := by decide +kernel
theorem test_release_two : unwrap keyedPart (orderMsg 0x40 (releaseBody 2)) ephOne = some (List.replicate 36 3) := by decide +kernel
theorem test_release_three : unwrap keyedPart (orderMsg 0x40 (releaseBody 3)) ephOne = some (List.replicate 36 3) := by decide +kernel
theorem test_release_state : holdsImage (keyedPart.part 1) = true ∧ (keyedPart.part 1).keys.ephemeral.find? (fun e => e.nonce == padTo 32 (slice (releaseHead 2) 8 32)) = some ephOne ∧
    highestGen (keyedPart.part 1).keys 2 4 = none ∧ (keyedPart.part 1).keys.applied = [] ∧ (rxDecl (keyedPart.part 1) 4).isSome = true ∧ keyedPart.security.extTamper = false := by decide +kernel
theorem test_key_release : okay (exec (.secKeyRelease false) (due keyedPart 0x40 (releaseBody 3))) (fun u => (u.part 1).keys.store == some (2, List.replicate 32 3) && u.security.releases == 1) = true := by
  decide +kernel
theorem test_release_refused : holdsImage ((held .clear).part 1) = false ∧
    okay (exec (.secKeyRelease false) (due (held .clear) 0x40 (releaseHead 1))) (fun u => u.security.rejects == 1) = true ∧
    okay (exec (.secKeyRelease false) (due (held .loaded) 0x40 (releaseHead 1))) (fun u => u.security.rejects == 1 && u.orders.due == []) = true := by decide +kernel
theorem test_release_vault : okay (exec (.secKeyRelease true) (due (keyedPart.modKeys 1 (fun k => { k with model := some [1] })) 0x40 (releaseHead 3)))
      (fun u => statusIs 0x10 u && u.security.wipes == 1 && (u.part 1).keys.model == none && !holdsImage (u.part 1)) = true ∧
    unwrap keyedPart (orderMsg 0x40 (releaseHead 3)) ephOne = none ∧
    okay (exec (.secKeyRelease false) (due keyedPart 0x40 (releaseHead 3))) (fun u => statusIs 0x10 u && u.security.rejects == 1 && (u.part 1).keys.store == none) = true := by decide +kernel

/-- An intake order of weight chunks from 0 on. -/
def intakeBody (count : Nat) : Bytes := [1, 1, 0, 0] ++ leBytes 4 0 ++ leBytes 4 count ++ zeros 28

/-- Partition 1 with one chunk and a model key. -/
def chunked (st : PState) : State := ((held st).modPart 1 (fun x => { x with image := some { bareImage with chunks := [onesChunk] } })).modKeys 1 (fun k => { k with model := some (zeros 32) })

theorem test_intake_order : okay (exec .secIntake (due (held .loaded) 0x41 (intakeBody 1))) (fun u => (u.part 1).keys.result == 0) = true ∧
    okay (exec .secIntake (due (chunked .clear) 0x41 (intakeBody 1))) (fun u => (u.part 1).keys.result == 0) = true ∧
    okay (exec .secIntake (due (chunked .loaded) 0x41 (intakeBody 2))) (fun u => (u.part 1).keys.result == 0) = true ∧
    okay (exec .secIntake (due (chunked .loaded) 0x41 (intakeBody 1))) (fun u => (u.part 1).keys.result == 1) = true := by decide +kernel
theorem test_intake_else : okay (exec .secIntake (due ((chunked .loaded).modKeys 1 (fun k => { k with intake := some onesIntake })) 0x41 (intakeBody 1))) (statusIs 0x01) = true ∧
    okay (exec .secIntake (due (chunked .loaded) 0x41 (intakeBody 2))) (statusIs 0x04) = true ∧ okay (exec .secIntake (due (chunked .armed) 0x41 (intakeBody 1))) (statusIs 0x10) = true ∧
    awaitingSlot ((chunked .armed).part 1) 0 0 = none ∧
    okay (exec .secIntake (due (chunked .armed) 0x41 ([1, 2, 0, 0] ++ zeros 36))) (fun u => statusIs 0x10 u && (u.part 1).keys.intake == none) = true := by decide +kernel
/-- The intake order of version 3 of adapter 6 to partition 1, with a length. -/
def bodyOrder (length : Nat) : Bytes := [1, 2] ++ leBytes 2 6 ++ zeros 8 ++ leBytes 4 length ++ leBytes 8 3 ++ zeros 16

/-- An ARMED partition 1 with that version waiting for its body in slot 1. -/
def awaits : State := (chunked .armed).modPart 1 (fun x => { x with adapters := [version 1 3 .awaiting] })

theorem test_intake_adapter : awaitingSlot (awaits.part 1) 6 3 = some 1 ∧ awaitingSlot (awaits.part 1) 6 4 = none ∧
    okay (exec .secIntake (due awaits 0x41 (bodyOrder 4096))) (fun u => statusIs 0 u &&
      (u.part 1).keys.intake.map (fun i => (i.target, i.next, i.stop, i.slot)) == some (2, 0, 1, 1)) = true ∧
    okay (exec .secIntake (due awaits 0x41 (bodyOrder 0))) (fun u => statusIs 4 u && (u.part 1).keys.intake == none) = true ∧
    okay (exec .secIntake (due awaits 0x41 (bodyOrder 4097))) (statusIs 4) = true ∧
    okay (exec .secIntake (due (awaits.modKeys 1 (fun k => { k with intake := some onesIntake })) 0x41 (bodyOrder 4096))) (statusIs 1) = true ∧
    okay (exec .secIntake (due (awaits.modPart 1 (fun x => { x with state := .loaded })) 0x41 (bodyOrder 4096))) (statusIs 0x10) = true := by decide +kernel
theorem test_rotate : okay (exec .secRotate (due (held .clear) 0x42 [1, 1])) (fun u => (u.part 1).keys.memGen == 0) = true ∧
    okay (exec .secRotate (due ((held .loaded).modCluster 4 (fun c => { c with sweep := some 9 })) 0x42 [1, 1])) (fun u => (u.cluster 4).sweep == some 9) = true ∧
    okay (exec .secRotate (due (held .running) 0x42 [1, 1])) (fun u => (u.part 1).rotateWanted == some 0) = true ∧
    okay (exec .secRotate (due (held .loaded) 0x42 [1, 1])) (fun u => (u.cluster 4).sweep == some 0 && (u.part 1).keys.memGen == 1) = true := by decide +kernel

/-- SEC_RETURN's second order. -/
def returnBody (serial : Nat) : Bytes := [2] ++ zeros 7 ++ leBytes 8 serial

theorem test_return_begin : allFree (held .loaded) = false ∧ allFree State.reset = true ∧
    okay (exec .secReturnBegin (due (held .loaded) 0x43 [1])) (fun u => u.security.returning == none) = true ∧
    okay (exec .secReturnBegin (due State.reset 0x43 [1])) (fun u => u.security.returning == some (0, 0)) = true := by decide +kernel
theorem test_return_confirm : State.reset.fuses.serial = 0 ∧
    okay (exec .secReturnConfirm (due State.reset 0x43 (returnBody 9))) (fun u => u.fuses.lifecycle == State.reset.fuses.lifecycle) = true ∧
    okay (exec .secReturnConfirm (due (State.reset.modSecurity (fun v => { v with returning := some (0, 0) })) 0x43 (returnBody 0))) (fun u => u.fuses.lifecycle == 3 && u.power.state == .boot) = true := by
  decide +kernel
theorem test_return_late : okay (exec .secReturnConfirm (due (held .loaded) 0x43 (returnBody 0))) (statusIs 0x10) = true ∧
    okay (exec .secReturnConfirm (due State.reset 0x43 (returnBody 0))) (fun u => statusIs 0x10 u && u.fuses.lifecycle == State.reset.fuses.lifecycle) = true ∧
    okay (exec .secReturnConfirm (due { State.reset.modSecurity (fun v => { v with returning := some (0, 0) }) with now := 10000000001 } 0x43 (returnBody 0)))
      (fun u => statusIs 0x10 u && u.security.returning == none) = true := by decide +kernel

/-- A firmware header of a settings version. -/
def headerV (major : Nat) : FwHeader := { version := 9, iface := 1, secver := 5, major := major, minor := 0, digest := 0 }

/-- A module in a state, with that image staged. -/
def fwIn (st : ModState) (major : Nat) : State :=
  (State.reset.modPower (fun w => { w with state := st })).modFw (fun f => { f with staged := some (headerV major), running := headerV 1, startStep := 11 })

/-- Blocks of a load of 4,096 bytes on port A. -/
def blockLoad (cells : List Host.Cell) (cov : List (Nat × Nat)) : FwLoad :=
  { port := 0, pull := false, size := 4096, cells := cells, covered := cov, lastAt := 0, linkPort := 0, locator := (0, 0, 0, 0), cabinet := 0, asked := none, ahead := 0 }

/-- A module with a load open. -/
def loadingFw (l : FwLoad) : State := (State.reset.modPower (fun w => { w with state := .ready })).modFw (fun f => { f with load := some l, startStep := 11 })

theorem test_fw_states : startPaused (fwIn .ready 1) = false ∧ startPaused State.reset = false ∧ startPaused (loadingFw (blockLoad [] [])) = false := by decide +kernel
theorem test_fw_begin : okay (exec (.fwBeginBlocks 0) (took (fwIn .ready 1) 0x50 ([0, 0, 0, 0] ++ leBytes 4 4096))) (fun u => u.fw.load.isSome && u.fw.staged == none && u.fw.loadState == 1) = true ∧
    okay (exec (.fwBeginBlocks 0) (took ((fwIn .ready 1).modFw (fun f => { f with deferred := some (0, 0) })) 0x50 ([0, 0, 0, 0] ++ leBytes 4 4096))) (fun u => u.fw.result == 12) = true := by decide +kernel

/-- A pull from store 2040 of cabinet 7 through port 3. -/
def pullBody : Bytes := [1, 3, 0, 0] ++ leBytes 4 0 ++ leBytes 4 7 ++ zeros 4 ++ leBytes 2 2040 ++ leBytes 2 1 ++ zeros 4 ++ leBytes 8 0 ++ leBytes 8 4096 ++ zeros 8

/-- The module with that store behind port 3. -/
def storeBehind : State := (fwIn .ready 1).modLink 3 (fun l => { l with
  state := .up
  far := some { place := 2040, port := 0, cabinet := 7, serial := 1, store := true, auth := true, agrees := true } })

theorem test_fw_pull : okay (exec (.fwBeginPull 0) (took storeBehind 0x50 pullBody)) (fun u => u.fw.loadState == 2 && u.requests.length == 1) = true ∧
    okay (exec (.fwBeginPull 0) (took (fwIn .ready 1) 0x50 pullBody)) (fun u => u.fw.result == 8 && u.fw.loadState == 7) = true := by decide +kernel

/-- A block of 16 ones at an offset, with its CRC or another. -/
def blockBody (off : Nat) (off1 : Nat) : Bytes := leBytes 4 off ++ leBytes 2 16 ++ zeros 2 ++ leBytes 4 (crc32c (List.replicate 16 1) + off1) ++ zeros 4 ++ List.replicate 16 1

theorem test_fw_block : okay (exec (.fwBlock 0) (took (fwIn .ready 1) 0x51 (blockBody 32 0))) (fun u => u.fw.result == 2) = true ∧
    okay (exec (.fwBlock 0) (took (loadingFw (blockLoad [] [])) 0x51 (blockBody 4096 0))) (fun u => u.fw.crcFail == 0 && u.orders.taken == []) = true ∧
    okay (exec (.fwBlock 0) (took (loadingFw (blockLoad [] [])) 0x51 (blockBody 32 1))) (fun u => u.fw.result == 1 && u.fw.crcFail == 1) = true ∧
    okay (exec (.fwBlock 0) (took (loadingFw (blockLoad [] [])) 0x51 (blockBody 32 0))) (fun u => u.fw.load.map (fun l => (l.covered, cellRead l.cells 47, cellRead l.cells 48)) == some ([(32, 48)], 1, 0)) = true := by
  decide +kernel

/-- The nonzero bytes of a string, as cells from an address. -/
def cellsOf (a : Nat) (bs : Bytes) : List Host.Cell := ((List.range bs.length).zip bs).filterMap (fun p => if p.2 = 0 then none else some (a + p.1, p.2))

/-- A certificate's first 144 bytes, for the base point as its key. -/
def certHead (kind serial issuer : Nat) : Bytes :=
  leBytes 4 0x54434C5A ++ leBytes 2 1 ++ leBytes 2 kind ++ leBytes 8 serial ++ leBytes 2 (if kind = 2 then 0 else 0x7648) ++ zeros 2 ++ leBytes 4 issuer ++ zeros 8 ++
  pointBytes (some ecG) ++ zeros 15

/-- A signature whose r is the base point's x-coordinate, made by hand with private key 1 and nonce 1: s is the digest plus r modulo the order. -/
def sigOf (s : Nat) : Bytes := beBytes 48 ecG.1 ++ beBytes 48 s

/-- An image of 4,096 bytes: header, zeros, signer certificate and signature, with its two signatures made outside the model. -/
def imageLoad : FwLoad :=
  blockLoad
    (cellsOf 0 (leBytes 4 0x57464C5A ++ leBytes 2 1 ++ [5, 0] ++ leBytes 4 9 ++ leBytes 2 1 ++ [1, 0] ++ leBytes 2 0x7648 ++ zeros 2 ++ leBytes 4 4096) ++
     cellsOf 3760 (certHead 3 0 0 ++ sigOf 0x7BB8392151F4DB180D88A99B9595D829FB93DFC6426D012FB28AEDB6FDC30F73BAB32C0B419D9B9F17DF782124139287) ++
     cellsOf 4000 (sigOf 0x17D45436094CC498127F1280A5B6725D1347F7BCECFAE1B18FA98A09E44421646D31465870675D6A7774810FFB2282A0))
    [(0, 4096)]

/-- A module with a root key, whose image is whole. -/
def imageIn : State := let s := loadingFw imageLoad; { s with fuses := { s.fuses with rootKey := pointBytes (some ecG) } }

theorem test_image : imageCause imageIn imageLoad = 0 := by decide +kernel
theorem test_image_short : imageCause (loadingFw (blockLoad [] [])) (blockLoad [] []) = 3 ∧
    okay (exec (.fwEnd 0) (took (loadingFw (blockLoad [] [])) 0x52 [])) (fun u => u.fw.result == 3 && u.fw.loadState == 7) = true ∧
    okay (exec (.fwEnd 0) (took (fwIn .ready 1) 0x52 [])) (fun u => u.fw.result == 2) = true := by decide +kernel
theorem test_image_kind : awaitsImage imageIn = false ∧ awaitsImage ((imageIn.modPower (fun w => { w with state := .boot })).modFw (fun f => { f with startStep := 2 })) = true ∧
    (headerOf imageLoad).secver = 5 ∧ (headerOf imageLoad).version = 9 := by decide +kernel
theorem test_fw_timeout : okay (exec .fwLoadTimeout (loadingFw (blockLoad [] []))) (fun u => u.now == 10000000000 && u.fw.load == none) = true := by decide +kernel
theorem test_activate : okay (exec (.fwActivateBoundary 0) (took ((fwIn .ready 1).modFw (fun f => { f with deferred := some (0, 0) })) 0x53 [0])) (fun u => u.fw.result == 12) = true ∧
    okay (exec (.fwActivateBoundary 0) (took (loadingFw (blockLoad [] [])) 0x53 [0])) (fun u => u.fw.result == 11) = true ∧
    okay (exec (.fwActivateBoundary 0) (took (fwIn .quench 1) 0x53 [0])) (fun u => u.fw.deferred == some (0, 0) && u.fw.deferrals == 1) = true ∧
    okay (exec (.fwActivateBoundary 0) (took (fwIn .run 1) 0x53 [0])) (fun u => u.fw.staged == none && u.fw.windowEnd == some 1000000 && u.fuses.secver == 5) = true ∧
    okay (exec (.fwActivateBoundary 0) (took (fwIn .run 2) 0x53 [0])) (fun u => u.fw.result == 9 && u.fw.staged == some (headerV 2)) = true := by decide +kernel
theorem test_activate_restart : okay (exec (.fwActivateRestart 0) (took (fwIn .hold 2) 0x53 [1])) (fun u => u.fw.running == headerV 2 && u.power.state == .boot) = true ∧
    okay (exec (.fwActivateRestart 0) (took ((fwIn .run 1).modPart 1 (fun x => { x with state := .loaded })) 0x53 [1])) (fun u => u.fw.result == 10) = true := by decide +kernel
theorem test_deferred : okay (exec .deferredActivation (((fwIn .ready 1).modFw (fun f => { f with deferred := some (0, 0) })).modThermal (fun h => { h with calm := true })))
      (fun u => u.fw.running == headerV 1 && u.fw.deferred == none) = true ∧
    okay (exec .deferredActivation (((fwIn .ready 1).modFw (fun f => { f with deferred := some (0, 0) })).modThermal (fun h => { h with calm := false }))) (fun u => u.fw.deferred == some (0, 0)) = true := by decide +kernel
theorem test_withdraw : okay (exec (.fwWithdrawDeferred 0) (took ((fwIn .ready 1).modFw (fun f => { f with deferred := some (0, 0) })) 0x54 [1])) (fun u => u.fw.deferred == none && u.fw.loadState == 4) = true ∧
    okay (exec (.fwWithdrawLoad 0) (took (loadingFw (blockLoad [] [])) 0x54 [2])) (fun u => u.fw.load == none && u.fw.loadState == 0) = true := by decide +kernel
theorem test_fw_paused : startPaused ((State.reset.modPower (fun w => { w with state := .boot, supplyHeld := true })).modFw (fun f => { f with startStep := 4 })) = true ∧
    okay (exec (.fwEnd 0) (took ((State.reset.modPower (fun w => { w with state := .boot, supplyHeld := true })).modFw (fun f => { f with startStep := 4 })) 0x52 []))
      (fun u => u.orders.taken.length == 1) = true := by decide +kernel
theorem test_fw_busy : (∀ t ∈ (took (loadingFw { blockLoad [] [] with port := 1 }) 0x52 []).orders.taken, t.port = 0) ∧
    okay (exec (.fwEnd 0) (took (loadingFw { blockLoad [] [] with port := 1 }) 0x52 [])) (fun u => statusIs 0x01 u && u.fw.load.isSome) = true ∧
    okay (exec (.fwActivateRestart 0) (took (loadingFw { blockLoad [] [] with port := 1 }) 0x53 [1])) (statusIs 0x01) = true ∧
    okay (exec (.fwEnd 0) (fwIn .ready 1)) (fun u => u.fw.result == 0) = true := by decide +kernel
theorem test_fw_none : State.reset.fw.load = none ∧ State.reset.fw.deferred = none ∧ okay (exec .fwLoadTimeout State.reset) (fun u => u.now == 0) = true ∧
    okay (exec .deferredActivation State.reset) (fun u => u.fw.staged == none) = true := by decide +kernel
theorem test_activate_else : okay (exec (.fwActivateBoundary 0) (took (fwIn .hold 2) 0x53 [0])) (fun u => u.fw.running == headerV 2 && u.power.state == .boot) = true ∧
    (∀ p, ((fwIn .run 1).part p).state = .free) ∧ okay (exec (.fwActivateRestart 0) (took (fwIn .run 2) 0x53 [1])) (fun u => u.fw.running == headerV 2 && u.power.state == .boot) = true ∧
    okay (exec (.fwActivateRestart 0) (took (fwIn .quench 1) 0x53 [1])) (fun u => u.fw.deferred == some (0, 1)) = true ∧
    okay (exec (.fwActivateRestart 0) (took (loadingFw (blockLoad [] [])) 0x53 [1])) (fun u => u.fw.result == 11) = true ∧
    okay (exec (.fwActivateRestart 0) (took ((fwIn .ready 1).modFw (fun f => { f with deferred := some (0, 0) })) 0x53 [1])) (fun u => u.fw.result == 12) = true := by decide +kernel

/-! ## Key agreement and job frames (12, 13) -/

/-- Partition 1 LOADED at place 0 or another, in a job with place 40, with the keys of that member. -/
def agreeing (tray : Nat) (k : PeerKeys) : State :=
  let s := (held .loaded).modPart 1 (fun x => { x with
    image := some { bareImage with links := [(0, 1)] }
    job := some { computeJob false with members := [(0, { place := 0, serial := 1, keys := PeerKeys.init }), (1, { place := 40, serial := 7, keys := k })] } })
  { s with fuses := { s.fuses with tray := tray, rootKey := pointBytes (some ecG) } }

/-- The keys of a member, as one asks of them. -/
def keysIn (u : State) (f : PeerKeys → Bool) : Bool := match memberOf (u.part 1) 1 with | some m => f m.keys | none => false

/-- Certificates of module 7 and of device CA 6, whose signatures were made outside the model. -/
def cert480 : Bytes :=
  certHead 1 7 6 ++ sigOf 0x177142619BB9C9998073C724C36BB88F7F97E596B0ABC91CF6336EA594936ACB6075642001848DB2612819DB0943F78 ++
  certHead 2 6 0 ++ sigOf 0x4C50B505A69FB24A3EADAE6F83818941450CF16F1244A823009C11826AF3BFBE8F3F4FF972AF7FB0DAE967A855451994

/-- A key-agreement payload of job 3 and KEYID 1, with the base point and certificates. -/
def kaBody (cert : Bytes) : Bytes := kaFields 3 1 (zeros 32) (pointBytes (some ecG)) cert

/-- A control frame from place 40. -/
def kaFrame (typ : Nat) (payload : Bytes) : Frame := { zeroFrame with typ := typ, src := 40, payload := pad64 payload }

/-- `s` with a frame of port 3 in its inbox. -/
def boxed (s : State) (f : Frame) : State := { s with inbox := [(3, f)] }

theorem test_agreement_start : agreesKeys ((agreeing 0 PeerKeys.init).part 1) = true ∧ helloDue (agreeing 0 PeerKeys.init) ((agreeing 0 PeerKeys.init).part 1) = some 1 ∧
    okay (exec (.keyAgreementStart 1) (agreeing 0 PeerKeys.init)) (fun u => keysIn u (fun k => k.stage == 1 && k.attempts == 1 && !k.live)) = true := by decide +kernel
theorem test_hello_member : helloMember (agreeing 2 PeerKeys.init) (kaFrame 0x01 (kaBody [])) = some (1, 1) ∧ (pointOf (kaPub (kaBody []))).isSome = true := by decide +kernel
theorem test_hello_cert : certFault (agreeing 2 PeerKeys.init) { place := 40, serial := 7, keys := PeerKeys.init } (kaCert (kaFrame 0x01 (kaBody cert480)).payload) = 0 := by decide +kernel
theorem test_hello_bad : okay (exec .kaHello (boxed (agreeing 2 PeerKeys.init) (kaFrame 0x01 (kaBody []))))
    (fun u => u.inbox == [] && keysIn u (fun k => k.failed && k.stage == 0 && k.retryAt == some 10000000000)) = true := by decide +kernel

/-- Keys of an agreement that waits for its reply; its hello is shortened to JOB and KEYID. -/
def waitsReply : PeerKeys := { PeerKeys.init with stage := 1, attempts := 1, hello := zeros 4 ++ [1] }

/-- A reply, with a signature made outside the model over that hello and the reply's fields, or another. -/
def replyFrame (s : Nat) : Frame := kaFrame 0x02 (kaBody cert480 ++ sigOf s)

theorem test_reply_member : replyMember (agreeing 0 waitsReply) (replyFrame 1) = some (1, 1) := by decide +kernel
theorem test_reply_sig : ecdsaVerify (certKey (kaCert (kaBody cert480))) (waitsReply.hello ++ kaBody cert480)
    (sigOf 0x7223AB30FF9B40A2700BE499B650A96D67996C1D376545BB9FCA6961BD9F57BCBD6A7182CEE7451401B2C94ADA08587B) = true := by decide +kernel
theorem test_reply_bad : okay (exec .kaReply (boxed (agreeing 0 waitsReply) (replyFrame 1))) (fun u => keysIn u (fun k => k.failed && !k.live)) = true := by decide +kernel

/-- Keys of an agreement that waits for its confirm. -/
def waitsConfirm : PeerKeys := { PeerKeys.init with stage := 2, attempts := 1, hello := kaBody cert480 }

theorem test_confirm : confirmMember (agreeing 2 waitsConfirm)
      (kaFrame 0x03 (sigOf 0x328A608F0C2D9F518A38053D6F9C03AD367CD816A827C2B0A9BDEB656E470D513CFD013EF11BF95DFE26BED1A3C5E0D8)) = some (1, 1) := by decide +kernel
theorem test_confirm_bad : confirmMember (agreeing 2 waitsConfirm) (kaFrame 0x03 (zeros 96)) = none ∧
    findMember (agreeing 2 waitsConfirm) (fun _ m => m.2.place == 40 && m.2.keys.stage == 2) = some (1, 1) ∧
    okay (exec .kaConfirm (boxed (agreeing 2 waitsConfirm) (kaFrame 0x03 (zeros 96)))) (fun u => keysIn u (fun k => k.failed && k.stage == 0)) = true := by decide +kernel
theorem test_ka_times : okay (exec (.kaRetryTimeout 1 1) (agreeing 0 waitsReply)) (fun u => u.now == 100000000 && keysIn u (fun k => k.attempts == 2 && k.stage == 1)) = true ∧
    okay (exec (.kaRetryTimeout 1 1) (agreeing 0 { waitsReply with attempts := 3 })) (fun u => keysIn u (fun k => k.failed && k.stage == 0)) = true ∧
    okay (exec (.kaRetryInterval 1 1) (agreeing 0 { PeerKeys.init with retryAt := some 5 })) (fun u => u.now == 5 && keysIn u (fun k => k.stage == 1)) = true := by decide +kernel
theorem test_ka_ends : okay (exec (.jobKeyRekey 1 1) (agreeing 0 { PeerKeys.init with live := true, txCount := 2 ^ 36 })) (fun u => keysIn u (fun k => k.stage == 1 && k.live)) = true ∧
    okay (exec (.jobKeyRekey 1 1) (agreeing 0 { PeerKeys.init with live := true, txCount := 2 ^ 36 - 1 })) (fun u => keysIn u (fun k => k.stage == 0)) = true ∧
    okay (exec (.oldKeyidExpiry 1 1) (agreeing 0 { PeerKeys.init with old := some (1, [], [], 0), oldUntil := some 5 })) (fun u => u.now == 5 && keysIn u (fun k => k.old == none)) = true ∧
    okay (exec (.gcmFailTeardown 1 1) (agreeing 0 { PeerKeys.init with live := true, fails := List.replicate 16 0 })) (fun u => keysIn u (fun k => !k.live)) = true := by decide +kernel
theorem test_teardown_agrees : agreesKeys ((agreeing 0 PeerKeys.init).part 1) = true ∧
    okay (exec (.gcmFailTeardown 1 1) (agreeing 0 { PeerKeys.init with live := true, keyid := 3, fails := List.replicate 16 0 }))
      (fun u => keysIn u (fun k => !k.live && k.keyid == 3 && k.stage == 1 && k.attempts == 1)) = true ∧
    okay (exec (.gcmFailTeardown 1 1) (agreeing 0 { PeerKeys.init with live := true, fails := List.replicate 15 0 })) (fun u => keysIn u (fun k => k.live)) = true := by decide +kernel
theorem test_retry_again :
    startsAgain (agreeing 0 PeerKeys.init) { place := 40, serial := 7, keys := PeerKeys.init } = true ∧
    okay (exec (.kaRetryInterval 1 1) (agreeing 0 { PeerKeys.init with retryAt := some 9, failed := true })) (fun u => u.now == 9 && keysIn u (fun k => k.stage == 1)) = true ∧
    startsAgain (agreeing 2 PeerKeys.init) { place := 40, serial := 7, keys := PeerKeys.init } = false ∧
    okay (exec (.kaRetryInterval 1 1) (agreeing 2 { PeerKeys.init with retryAt := some 9, failed := true })) (fun u => u.now == 9 && keysIn u (fun k => k.stage == 0 && k.retryAt == none && k.failed)) = true := by decide +kernel
theorem test_ka_none : (∀ e ∈ State.reset.inbox, e.2.typ ≠ 0x01) ∧ helloMember State.reset (kaFrame 0x01 (kaBody [])) = none ∧ replyMember State.reset (replyFrame 1) = none ∧
    findMember State.reset (fun _ m => m.2.place == 40 && m.2.keys.stage == 2) = none ∧
    okay (exec .kaHello (boxed State.reset (kaFrame 0x01 (kaBody [])))) (fun u => u.inbox == []) = true ∧
    okay (exec .kaReply (boxed State.reset (replyFrame 1))) (fun u => u.inbox == []) = true ∧ okay (exec .kaConfirm (boxed State.reset (kaFrame 0x03 (zeros 96)))) (fun u => u.inbox == []) = true ∧
    agreesKeys (State.reset.part 1) = false ∧ memberOf (State.reset.part 1) 1 = none := by decide +kernel
theorem test_ka_idle : okay (exec (.kaRetryTimeout 1 1) (agreeing 0 PeerKeys.init)) (fun u => u.now == 0) = true ∧ okay (exec (.kaRetryInterval 1 1) (agreeing 0 PeerKeys.init)) (fun u => u.now == 0) = true ∧
    okay (exec (.oldKeyidExpiry 1 1) (agreeing 0 PeerKeys.init)) (fun u => u.now == 0) = true ∧
    okay (exec (.jobKeyRekey 1 1) (agreeing 2 { PeerKeys.init with live := true, txCount := 2 ^ 36 })) (fun u => keysIn u (fun k => k.stage == 0)) = true ∧
    okay (exec (.gcmFailTeardown 1 1) (agreeing 0 { PeerKeys.init with live := true, fails := List.replicate 15 0 })) (fun u => keysIn u (fun k => k.live)) = true := by decide +kernel

/-- A frame of job 3 from place 40 under zero keys, COUNTER 1. -/
def rxFrame (typ flags offset ring : Nat) (pt : Bytes) : Frame :=
  let f := { zeroFrame with typ := typ, src := 40, job := 3, keyid := 1, fflags := flags, counter := 1, offset := offset, ring := ring, payload := pt }
  let g := gcmSeal (zeros 32) (jobNonce (zeros 4) 1) (frameHeader f) pt
  { f with payload := g.1, tag := g.2 }

/-- Partition 1 with ring 2 empty. -/
def emptyRing : State := (linkFrom 0x0510 linkFields).modPart 1 (fun x => { x with rings := [{ ring := 2, slot := 2, full := [], arriving := none }] })

/-- Partition 1 RUNNING in a mirror set with place 40, whose stream 4 takes copies of that place's stream 9. -/
def mirrored (role : Role) (leader : Bool) (image : Image) : State :=
  (((held .running).modPart 1 (fun x => { x with job := some { computeJob true with mirror := true }, image := some image })).modClaim 1 (fun c => { c with
    role := role
    paired := true
    group := 65
    partner := 40
    serial := 7
    claim := 7
    highest := 7
    leader := leader })).modCsi (fun c => { c with streams := [{ part := 1, stream := 4, copyTo := none, copyFrom := some (40, 9) }] })

theorem test_ring_credit : senderOf emptyRing { kaFrame 0x05 (leBytes 4 2) with job := 3, ring := 2 } = some (1, 1) ∧
    okay (exec .ringCredit (boxed emptyRing { kaFrame 0x05 (leBytes 4 2) with job := 3, ring := 2 })) (fun u => creditOf (u.part 1) 1 2 == 6) = true := by decide +kernel
theorem test_job_data_bad : (memberOf (emptyRing.part 1) 1).bind (fun m => rxKeyOf m.keys 9) = none ∧
    okay (exec .jobData (boxed emptyRing { rxFrame 0x10 1 0 2 [] with keyid := 9 })) (fun u => (u.link 3).gcmFail == 1 && (u.part 1).rings == (emptyRing.part 1).rings) = true := by decide +kernel
theorem test_job_data_mirror :
    let s := mirrored .standby false { bareImage with rings := [{ ring := 2, peer := 1, peerRing := 2, slotSize := 128, slots := 4, cluster := 0, bank := 3, offset := 64 }] }
    isMirror (s.part 1) = true ∧ senderOf s (rxFrame 0x10 1 0 2 (List.replicate 64 5)) = some (1, 1) ∧
    okay (exec .jobData (boxed s (rxFrame 0x10 1 0 2 (List.replicate 64 5)))) (fun u => u.inbox == [] && (u.part 1).rings == (s.part 1).rings && u.mem == s.mem) = true := by decide +kernel
theorem test_ring_credit_place :
    creditedMember emptyRing { kaFrame 0x05 (leBytes 4 2) with job := 0, ring := 2 } = some (1, 1) ∧
    okay (exec .ringCredit (boxed emptyRing { kaFrame 0x05 (leBytes 4 2) with job := 0, ring := 2 })) (fun u => creditOf (u.part 1) 1 2 == 6) = true ∧
    creditedMember emptyRing { kaFrame 0x05 (leBytes 4 2) with src := 41, ring := 2 } = none := by decide +kernel
theorem test_job_opens : (memberOf (emptyRing.part 1) 1).bind (fun m => rxKeyOf m.keys 1) = some (zeros 32, zeros 4, 0) ∧
    gcmOpen (zeros 32) (jobNonce (zeros 4) 1) (frameHeader (rxFrame 0x10 1 0 2 (List.replicate 64 5))) (rxFrame 0x10 1 0 2 (List.replicate 64 5)).payload
      (rxFrame 0x10 1 0 2 (List.replicate 64 5)).tag = some (List.replicate 64 5) ∧
    (ringOf (emptyRing.part 1) 1 2).bind (fun r => slotAddr (emptyRing.part 1) r 2) = some (bankAddr 179 320) := by decide +kernel
theorem test_job_data : okay (exec .jobData (boxed emptyRing (rxFrame 0x10 1 0 2 (List.replicate 64 5))))
      (fun u => bankRead u (bankAddr 179 320) 2 == [5, 5] && (u.part 1).rings == [{ ring := 2, slot := 3, full := [(2, 64)], arriving := none }]) = true ∧
    okay (exec .jobData (boxed emptyRing (rxFrame 0x10 0 0 2 (List.replicate 64 5)))) (fun u => (u.part 1).rings == [{ ring := 2, slot := 2, full := [], arriving := some (0, 64) }]) = true := by
  decide +kernel

/-- An INGRESS_COPY message: an entry of 4 bytes, stream 9, and the bytes. -/
def copyMsg : Bytes := pad64 (journalBytes { landed with length := 4 } ++ leBytes 2 9 ++ zeros 30 ++ [7, 7, 7, 7])

theorem test_ingress_copy : takesFrames (mirrored .holder true bareImage) 1 = true ∧
    okay (exec .ingressCopy (boxed (mirrored .holder true bareImage) (rxFrame 0x11 0 0 0 (zeros 64)))) (fun u => (u.part 1).copyIn == some (0, zeros 64)) = true ∧
    okay (exec .ingressCopy (boxed (mirrored .holder true { bareImage with streams := [stream4 false] }) (rxFrame 0x11 1 0 0 copyMsg)))
      (fun u => (u.part 1).journal.map (fun e => (e.seq, e.stream, e.port, e.buffer, e.length)) == [(0, 4, 19, some 0, 4)] && (u.part 1).nextSeq == 1) = true := by decide +kernel

/-- A decision part of a KIND for step 5 with CLAIM 7. -/
def partMsg (kind sect : Nat) (body : Bytes) : Bytes :=
  pad64 (leBytes 4 0x54524150 ++ leBytes 2 kind ++ leBytes 2 25 ++ leBytes 8 5 ++ leBytes 4 7 ++ leBytes 4 sect ++ leBytes 8 body.length ++ zeros 32 ++ body)

theorem test_part_kinds : partKind (partMsg 4 0 []) = 4 ∧ partStep (partMsg 1 0 []) = 5 ∧ partPace (partMsg 4 0 []) = 25 ∧
    (journalOf ((partBody (partMsg 3 0 (journalBytes { landed with length := 4 }))).take 32)).length = 4 := by decide +kernel
theorem test_decision_part : okay (exec .decisionPart (boxed (mirrored .standby false bareImage) (rxFrame 0x12 1 0 0 (partMsg 1 0 [])))) (fun u => (u.part 1).claim.parts == [(5, 0, [])]) = true ∧
    okay (exec .reentryRequest (boxed (mirrored .holder true bareImage) (rxFrame 0x12 1 0 0 (partMsg 4 0 [])))) (fun u => (u.part 1).claim.wanted && (u.part 1).claim.pacePct == 25) = true := by
  decide +kernel
theorem test_snapshot_section : pickLayout (mirrored .gloryHole false bareImage) ((mirrored .gloryHole false bareImage).part 1) = some 0 ∧
    6 ≤ (assocSet 5 ([] : Bytes) [(0, []), (1, []), (2, []), (3, []), (4, [])]).length ∧
    okay (exec .snapshotSection (boxed (mirrored .gloryHole false bareImage) (rxFrame 0x12 1 0 0 (partMsg 2 3 [8])))) (fun u => (u.part 1).claim.sections == [(3, [8])]) = true := by decide +kernel
theorem test_snapshot_journal : okay (exec .snapshotJournal (boxed (mirrored .gloryHole false bareImage) (rxFrame 0x12 1 0 0 (partMsg 3 0 (journalBytes { landed with length := 4 })))))
      (fun u => (u.part 1).claim.tries == 1) = true ∧
    okay (exec .snapshotJournal (boxed (mirrored .gloryHole false bareImage) (rxFrame 0x12 1 0 0 (partMsg 3 0 (journalBytes { landed with length := 4 } ++ [7, 7, 7, 7])))))
      (fun u => (u.part 1).journal.map (fun e => (e.seq, e.paired, e.payload)) == [(0, true, some [7, 7, 7, 7])]) = true := by decide +kernel

/-- A module with one open store request. -/
def asking (r : StoreReq) : State := { State.reset with requests := [{ r with failed := false, length := 64 }] }

/-- A store's answer. -/
def answerFrame (typ : Nat) (payload : Bytes) : Frame := { zeroFrame with typ := typ, src := 2040, msg := 1, payload := payload }

theorem test_store_answers : (answered (asking (refused .read)) (answerFrame 0x21 (zeros 64)) false).isSome = true ∧
    okay (exec .storeRdData (boxed (asking (refused .read)) (answerFrame 0x21 (zeros 64)))) (fun u => u.requests.map (fun r => (r.done, r.got.length)) == [(true, 64)]) = true ∧
    (answered (asking { refused .write with data := [1, 2] }) (answerFrame 0x23 (leBytes 4 2 ++ zeros 60)) true).isSome = true ∧
    okay (exec .storeWrAck (boxed (asking { refused .write with data := [1, 2] }) (answerFrame 0x23 (leBytes 4 2 ++ zeros 60)))) (fun u => u.requests.map (fun r => r.done) == [true]) = true ∧
    okay (exec .storeErr (boxed (asking (refused .read)) (answerFrame 0x24 (zeros 64)))) (fun u => u.requests.map (fun r => r.failed) == [true]) = true := by decide +kernel
theorem test_store_timeout : (oldestRequest (asking (refused .read)).requests).isSome = true ∧
    okay (exec .storeRequestTimeout (asking (refused .read))) (fun u => u.now == 200000000 && u.requests.map (fun r => (r.attempts, r.sentAt)) == [(2, 200000000)]) = true ∧
    okay (exec .storeRequestTimeout (asking { refused .read with attempts := 3 })) (fun u => u.requests.map (fun r => r.failed) == [true]) = true := by decide +kernel
theorem test_frames_none : oldestRequest State.reset.requests = none ∧ okay (exec .storeRequestTimeout State.reset) (fun u => u.now == 0) = true ∧ okay (exec .jobData State.reset) (fun u => u.inbox == []) = true ∧
    senderOf State.reset (kaFrame 0x05 (leBytes 4 2)) = none ∧ okay (exec .ringCredit (boxed State.reset (kaFrame 0x05 (leBytes 4 2)))) (fun u => u.inbox == []) = true ∧
    okay (exec .ingressCopy (boxed State.reset (kaFrame 0x11 []))) (fun u => u.inbox == [] && (u.link 3).gcmFail == 1) = true ∧
    okay (exec .decisionPart (boxed State.reset (kaFrame 0x12 []))) (fun u => u.inbox == [] && (u.link 3).gcmFail == 1) = true ∧
    answered State.reset (answerFrame 0x21 []) false = none ∧ okay (exec .storeRdData (boxed State.reset (answerFrame 0x21 []))) (fun u => u.inbox == []) = true ∧
    okay (exec .storeWrAck (boxed State.reset (answerFrame 0x23 []))) (fun u => u.inbox == []) = true ∧ okay (exec .storeErr (boxed State.reset (answerFrame 0x24 []))) (fun u => u.inbox == []) = true ∧
    okay (exec .storeWrAck (boxed (asking { refused .write with data := [1, 2] }) (answerFrame 0x23 (leBytes 4 3 ++ zeros 60)))) (fun u => u.requests.map (fun r => r.done) == [false]) = true := by
  decide +kernel
theorem test_part_else :
    okay (exec .decisionPart (boxed (mirrored .standby false bareImage) (rxFrame 0x12 0 0 0 (partMsg 1 0 [])))) (fun u => (u.part 1).partIn == some (0, partMsg 1 0 []) && (u.part 1).claim.parts == []) = true ∧
    okay (exec .decisionPart (boxed ((mirrored .standby false bareImage).modClaim 1 (fun c => { c with paired := false })) (rxFrame 0x12 1 0 0 (partMsg 1 0 []))))
      (fun u => (u.part 1).partIn == none && (u.part 1).claim.parts == [] && u.inbox == []) = true := by decide +kernel

/-! ## Invariants, the queue and conflicts (02, 05, 10) -/

theorem reset_inv : memoryInv State.reset ∧ bindingsOnce State.reset := by unfold memoryInv bindingsOnce; decide +kernel
theorem test_idle : okay (step State.reset) (fun u => u.now == 1 && u.pending == []) = true := by decide +kernel
theorem test_front : okay (step { State.reset with pending := [.peerRxSyncGained, .fwLoadTimeout] }) (fun u => u.lanes.rxSync && u.pending == [.fwLoadTimeout]) = true := by decide +kernel

/-- Partition 1 LOADED, with one queue and one tally block; an assign order for partition 2. -/
def assignTwo (mask firstQ firstT : Nat) : Bytes := [2, 1, 0, BitVec.ofNat 8 mask, BitVec.ofNat 8 firstQ, 0] ++ leBytes 2 1 ++ [BitVec.ofNat 8 firstT, 0] ++ leBytes 2 1 ++ zeros 20

theorem test_conflict : takesNew (held .loaded) = true ∧ ((held .loaded).part 2).state = .free ∧ ((held .loaded).part 1).clusters = [4] ∧ ((held .loaded).part 1).firstQ = 1 ∧
    okay (exec .partAssign (due (held .loaded) 0x20 (assignTwo 16 9 9))) (fun u => (u.part 2).state == .free) = true ∧
    okay (exec .partAssign (due (held .loaded) 0x20 (assignTwo 1 1 9))) (fun u => (u.part 2).state == .free) = true ∧
    okay (exec .partAssign (due (held .loaded) 0x20 (assignTwo 1 9 0))) (fun u => (u.part 2).state == .free) = true ∧
    okay (exec .partAssign (due (held .loaded) 0x20 (assignTwo 1 9 9))) (fun u => (u.part 2).state == .free) = false := by decide +kernel
theorem test_bind_conflict : okay (exec .streamBind (due ((held .loaded).modCsi (fun c => { c with bindings := [binding false none] })) 0x22 ([2, 0] ++ leBytes 2 4 ++ [0, 5] ++ zeros 40)))
    (fun u => u.csi.bindings == [binding false none]) = true := by decide +kernel

end Sys2Proof.Machine
end

namespace Sys2Proof.Machine

/-! ## What every command keeps (O60)

`Keeps s₀ s` says that `s` still has the queue and the part of `s₀`, that its time is not before that of `s₀`, and that nothing driven
outward in `s₀` is taken back. It is threaded through the model in the order of the model's files: for each function `F` that yields a
state, `F_keeps` says that `F` keeps what the state it is given keeps, and its proof cites the lemmas of the functions that `F` calls.
Only a few functions touch what is seen: `State.emit`, `State.reach` and `State.reachStamp`, `burn`, and the three updates of fuses. -/

/-- What O60 speaks of: the queue, the time, what has gone outward and the fuses. -/
def State.seen (s : State) : List Instr × Ns × List Output × Fuses := (s.pending, s.now, s.out, s.fuses)

/-- Fuses that differ from `f` only in what the module itself may burn or read at its straps. -/
structure SamePart (f g : Fuses) : Prop where
  serial : g.serial = f.serial
  codeSB : g.codeSB = f.codeSB
  reprov : g.reprov = f.reprov
  cert : g.cert = f.cert
  rootKey : g.rootKey = f.rootKey
  identityKey : g.identityKey = f.identityKey
  secver : f.secver ≤ g.secver

/-- `s` has the queue of `s₀` and the part of `s₀`, its time is not before that of `s₀`, and what had gone outward in `s₀` still stands
first in it. -/
structure Keeps (s₀ s : State) : Prop where
  pending : s.pending = s₀.pending
  now : s₀.now ≤ s.now
  out : s₀.out <+: s.out
  fuses : SamePart s₀.fuses s.fuses

/-- Every next state of an outcome keeps what `s₀` has. -/
def KeepsNext (s₀ : State) : Result → Prop
  | .next t => Keeps s₀ t
  | _ => True

/-- The same of what an engine's datapath answers. -/
def KeepsOut (s₀ : State) : EngineOut → Prop
  | .stall t => Keeps s₀ t
  | .done t _ _ => Keeps s₀ t
  | _ => True

/-- The same of an attempt at a store command. -/
def KeepsStore (s₀ : State) : StoreOut → Prop
  | .wait t => Keeps s₀ t
  | .done t _ _ => Keeps s₀ t
  | _ => True

/-- What an engine's steps end with: a value that satisfies `P`, or an answer that keeps what `s₀` has. -/
def EngineKeeps {α : Type} (s₀ : State) (P : α → Prop) : Engine α → Prop
  | .ok a => P a
  | .error o => KeepsOut s₀ o

section
variable {s₀ s t : State} {b : Bd} {a : Alloc}

theorem SamePart.refl (f : Fuses) : SamePart f f := ⟨rfl, rfl, rfl, rfl, rfl, rfl, Nat.le_refl _⟩

theorem Keeps.refl (s : State) : Keeps s s := ⟨rfl, Nat.le_refl _, List.prefix_rfl, .refl _⟩

/-- A state that differs from `s` in nothing that is seen. -/
theorem Keeps.of_seen (h : Keeps s₀ s) (e : t.seen = s.seen) : Keeps s₀ t := by
  simp only [State.seen, Prod.mk.injEq] at e
  obtain ⟨hp, hn, ho, hf⟩ := e
  exact ⟨hp ▸ h.pending, hn ▸ h.now, ho ▸ h.out, hf ▸ h.fuses⟩

theorem keepsNext_next (h : Keeps s₀ s) : KeepsNext s₀ (.next s) := h

theorem ite_keeps {c : Prop} [Decidable c] (hs : Keeps s₀ s) (ht : Keeps s₀ t) : Keeps s₀ (if c then s else t) := by split <;> assumption
theorem ite_keepsNext {c : Prop} [Decidable c] {o o1 : Result} (ho : KeepsNext s₀ o) (h1 : KeepsNext s₀ o1) :
    KeepsNext s₀ (if c then o else o1) := by
  split <;> assumption
theorem State.setPart_keeps {p x} (h : Keeps s₀ s) : Keeps s₀ (s.setPart p x) := h.of_seen rfl
theorem State.modPart_keeps {p f} (h : Keeps s₀ s) : Keeps s₀ (s.modPart p f) := h.of_seen rfl
theorem State.modClaim_keeps {p f} (h : Keeps s₀ s) : Keeps s₀ (s.modClaim p f) := h.of_seen rfl
theorem State.modKeys_keeps {p f} (h : Keeps s₀ s) : Keeps s₀ (s.modKeys p f) := h.of_seen rfl
theorem State.setCore_keeps {c x} (h : Keeps s₀ s) : Keeps s₀ (s.setCore c x) := h.of_seen rfl
theorem State.modCore_keeps {c f} (h : Keeps s₀ s) : Keeps s₀ (s.modCore c f) := h.of_seen rfl
theorem State.modCluster_keeps {k f} (h : Keeps s₀ s) : Keeps s₀ (s.modCluster k f) := h.of_seen rfl
theorem State.setEngine_keeps {d x} (h : Keeps s₀ s) : Keeps s₀ (s.setEngine d x) := h.of_seen rfl
theorem State.modEngine_keeps {d f} (h : Keeps s₀ s) : Keeps s₀ (s.modEngine d f) := h.of_seen rfl
theorem State.setPort_keeps {y q} (h : Keeps s₀ s) : Keeps s₀ (s.setPort y q) := h.of_seen rfl
theorem State.modPort_keeps {y f} (h : Keeps s₀ s) : Keeps s₀ (s.modPort y f) := h.of_seen rfl
theorem State.modLink_keeps {n f} (h : Keeps s₀ s) : Keeps s₀ (s.modLink n f) := h.of_seen rfl
theorem State.setOwner_keeps {b o} (h : Keeps s₀ s) : Keeps s₀ (s.setOwner b o) := h.of_seen rfl
theorem State.modRx_keeps {n f} (h : Keeps s₀ s) : Keeps s₀ (s.modRx n f) := h.of_seen rfl
theorem State.modTx_keeps {n f} (h : Keeps s₀ s) : Keeps s₀ (s.modTx n f) := h.of_seen rfl
theorem State.modPower_keeps {f} (h : Keeps s₀ s) : Keeps s₀ (s.modPower f) := h.of_seen rfl
theorem State.modThermal_keeps {f} (h : Keeps s₀ s) : Keeps s₀ (s.modThermal f) := h.of_seen rfl
theorem State.modTime_keeps {f} (h : Keeps s₀ s) : Keeps s₀ (s.modTime f) := h.of_seen rfl
theorem State.modOrders_keeps {f} (h : Keeps s₀ s) : Keeps s₀ (s.modOrders f) := h.of_seen rfl
theorem State.modSecurity_keeps {f} (h : Keeps s₀ s) : Keeps s₀ (s.modSecurity f) := h.of_seen rfl
theorem State.modFw_keeps {f} (h : Keeps s₀ s) : Keeps s₀ (s.modFw f) := h.of_seen rfl
theorem State.modEvents_keeps {f} (h : Keeps s₀ s) : Keeps s₀ (s.modEvents f) := h.of_seen rfl
theorem State.modCsi_keeps {f} (h : Keeps s₀ s) : Keeps s₀ (s.modCsi f) := h.of_seen rfl
theorem State.modLanes_keeps {f} (h : Keeps s₀ s) : Keeps s₀ (s.modLanes f) := h.of_seen rfl
theorem State.draw_keeps (h : Keeps s₀ s) : Keeps s₀ s.draw.2 := h.of_seen rfl
theorem bankWrite_keeps {a bs} (h : Keeps s₀ s) : Keeps s₀ (bankWrite s a bs) := h.of_seen rfl
theorem bankMark_keeps {w} (h : Keeps s₀ s) : Keeps s₀ (bankMark s w) := h.of_seen rfl
theorem bankZero_keeps {a n} (h : Keeps s₀ s) : Keeps s₀ (bankZero s a n) := h.of_seen rfl
theorem stackWrite_keeps {a bs} (h : Keeps s₀ s) : Keeps s₀ (stackWrite s a bs) := h.of_seen rfl
theorem stackMark_keeps {w} (h : Keeps s₀ s) : Keeps s₀ (stackMark s w) := h.of_seen rfl
theorem stackZero_keeps {a n} (h : Keeps s₀ s) : Keeps s₀ (stackZero s a n) := h.of_seen rfl
theorem noteRequest_keeps {q} (h : Keeps s₀ s) : Keeps s₀ (noteRequest s q) := h.of_seen rfl
theorem modRequest_keeps {tag f} (h : Keeps s₀ s) : Keeps s₀ (modRequest s tag f) := h.of_seen rfl
theorem dropRequests_keeps {f} (h : Keeps s₀ s) : Keeps s₀ (dropRequests s f) := h.of_seen rfl

/-- An update of fields that are not seen. -/
theorem Keeps.update {fresh mem owners clusters cores parts video csi i3c orders links inbox plan requests nextTag lanes time power thermal
    security fw events} (h : Keeps s₀ s) :
    Keeps s₀ { s with
      fresh := fresh, mem := mem, owners := owners, clusters := clusters, cores := cores, parts := parts, video := video, csi := csi,
      i3c := i3c, orders := orders, links := links, inbox := inbox, plan := plan, requests := requests, nextTag := nextTag, lanes := lanes,
      time := time, power := power, thermal := thermal, security := security, fw := fw, events := events } := h.of_seen rfl

/-- A burn of the tamper fuse (15 R416). -/
theorem Keeps.tamper (h : Keeps s₀ s) : Keeps s₀ { s with fuses := { s.fuses with tampered := true } } :=
  ⟨h.pending, h.now, h.out, { h.fuses with }⟩
/-- The straps are read (17 R455). -/
theorem Keeps.straps {n k} (h : Keeps s₀ s) : Keeps s₀ { s with fuses := { s.fuses with tray := n, slot := k } } :=
  ⟨h.pending, h.now, h.out, { h.fuses with }⟩
/-- The module is returned (15 R411). -/
theorem Keeps.lifecycle {n} (h : Keeps s₀ s) : Keeps s₀ { s with fuses := { s.fuses with lifecycle := n } } :=
  ⟨h.pending, h.now, h.out, { h.fuses with }⟩

theorem State.emit_keeps {o} (h : Keeps s₀ s) : Keeps s₀ (s.emit o) :=
  ⟨h.pending, h.now, h.out.trans (List.prefix_append _ _), h.fuses⟩

/-- Time moves on. -/
theorem Keeps.later {n : Ns} (h : Keeps s₀ s) (hn : s.now ≤ n) : Keeps s₀ { s with now := n } :=
  ⟨h.pending, Nat.le_trans h.now hn, h.out, h.fuses⟩

theorem State.reach_keeps {n} (h : Keeps s₀ s) : Keeps s₀ (s.reach n) := h.later (Nat.le_max_left _ _)

theorem State.reachStamp_keeps {n} (h : Keeps s₀ s) : Keeps s₀ (s.reachStamp n) := by
  refine h.later ?_
  split
  · exact Nat.le_refl _
  · exact Nat.le_max_left _ _

/-- A burn of the fused version, which never falls (16 R441). -/
theorem burn_keeps {x} (h : Keeps s₀ s) : Keeps s₀ (burn s x) :=
  ⟨h.pending, h.now, h.out, { h.fuses with secver := Nat.le_trans h.fuses.secver (Nat.le_max_left _ _) }⟩

theorem addBitError_keeps {e} (h : Keeps s₀ s) : Keeps s₀ (addBitError s e) := by
  unfold addBitError
  dsimp only
  split <;> exact ite_keeps h h.update

/-! The module left off keeps what it is made of (14 R395). -/

theorem offState_keeps (h : Keeps s₀ s) : Keeps s₀ (offState s) := h.of_seen rfl

/-! What is done for each of several -/

theorem foldl_keeps {α : Type} {f : State → α → State} {as : List α} (hf : ∀ u a, Keeps s₀ u → Keeps s₀ (f u a)) (h : Keeps s₀ s) :
    Keeps s₀ (as.foldl f s) := List.foldlRecOn as f h fun _ hu _ _ => hf _ _ hu

theorem foldl_fst_keeps {α β : Type} {f : State × β → α → State × β} {as : List α} {a : State × β}
    (hf : ∀ a x, Keeps s₀ a.1 → Keeps s₀ (f a x).1) (h : Keeps s₀ a.1) : Keeps s₀ (as.foldl f a).1 :=
  List.foldlRecOn (motive := fun a => Keeps s₀ a.1) as f h fun _ hu _ _ => hf _ _ hu

theorem foldl_bd_keeps {α : Type} {f : Bd → α → Bd} {as : List α} {b : Bd} (hf : ∀ b x, Keeps s₀ b.s → Keeps s₀ (f b x).s)
    (h : Keeps s₀ b.s) : Keeps s₀ (as.foldl f b).s :=
  List.foldlRecOn (motive := fun b => Keeps s₀ b.s) as f h fun _ hu _ _ => hf _ _ hu

theorem foldl_alloc_keeps {α : Type} {f : Alloc → α → Alloc} {as : List α} {a : Alloc} (hf : ∀ a x, Keeps s₀ a.s → Keeps s₀ (f a x).s)
    (h : Keeps s₀ a.s) : Keeps s₀ (as.foldl f a).s :=
  List.foldlRecOn (motive := fun a => Keeps s₀ a.s) as f h fun _ hu _ _ => hf _ _ hu

theorem forParts_keeps {f} (hf : ∀ p u, Keeps s₀ u → Keeps s₀ (f p u)) (h : Keeps s₀ s) : Keeps s₀ (forParts f s) :=
  foldl_keeps (fun _ _ => hf _ _) h
theorem forCores_keeps {f} (hf : ∀ c u, Keeps s₀ u → Keeps s₀ (f c u)) (h : Keeps s₀ s) : Keeps s₀ (forCores f s) :=
  foldl_keeps (fun _ _ => hf _ _) h
theorem forClusters_keeps {f} (hf : ∀ k u, Keeps s₀ u → Keeps s₀ (f k u)) (h : Keeps s₀ s) : Keeps s₀ (forClusters f s) :=
  foldl_keeps (fun _ _ => hf _ _) h
theorem forPorts_keeps {f} (hf : ∀ n u, Keeps s₀ u → Keeps s₀ (f n u)) (h : Keeps s₀ s) : Keeps s₀ (forPorts f s) :=
  foldl_keeps (fun _ _ => hf _ _) h
theorem forI3c_keeps {f} (hf : ∀ x u, Keeps s₀ u → Keeps s₀ (f x u)) (h : Keeps s₀ s) : Keeps s₀ (forI3c f s) := hf _ _ (hf _ _ h)

/-! How a row finds its occasion -/

theorem broadcastCcc_keeps {x f} (hf : ∀ u, Keeps s₀ u → Keeps s₀ (f u)) (h : Keeps s₀ s) : KeepsNext s₀ (broadcastCcc s x f) := by
  unfold broadcastCcc
  split
  · exact hf _ h
  · exact h
theorem directCcc_keeps {x f} (hf : ∀ u, Keeps s₀ u → Keeps s₀ (f u)) (h : Keeps s₀ s) : KeepsNext s₀ (directCcc s x f) := by
  unfold directCcc
  split
  · exact hf _ h
  · exact State.emit_keeps h
theorem formCcc_keeps {c f} (hf : ∀ u, Keeps s₀ u → Keeps s₀ (f u)) (h : Keeps s₀ s) : KeepsNext s₀ (formCcc s c f) := by
  unfold formCcc
  split
  · exact directCcc_keeps hf h
  · exact broadcastCcc_keeps hf h
theorem onPrivate_keeps {x f} (hf : ∀ u, Keeps s₀ u → Keeps s₀ (f u)) (h : Keeps s₀ s) : KeepsNext s₀ (onPrivate s x f) := by
  unfold onPrivate
  split
  · exact hf _ h
  · exact State.emit_keeps h

theorem onTaken_keeps {x typ ok f} (hf : ∀ q u, Keeps s₀ u → Keeps s₀ (f q u)) (h : Keeps s₀ s) : KeepsNext s₀ (onTaken s x typ ok f) := by
  obtain ⟨q, rest, e⟩ | e := onTaken_cases s x typ ok f
  · exact e ▸ hf q _ (h.of_seen rfl)
  · exact e ▸ h
theorem onDue_keeps {typ ok f} (hf : ∀ q u, Keeps s₀ u → Keeps s₀ (f q u)) (h : Keeps s₀ s) : KeepsNext s₀ (onDue s typ ok f) := by
  obtain ⟨q, rest, e⟩ | e := onDue_cases s typ ok f
  · exact e ▸ hf q _ (h.of_seen rfl)
  · exact e ▸ h
theorem onPart_keeps {a f} (hf : ∀ q p u, Keeps s₀ u → Keeps s₀ (f q p u)) (h : Keeps s₀ s) : KeepsNext s₀ (onPart s a f) :=
  onDue_keeps (fun _ _ => hf _ _ _) h
theorem EngineKeeps.bind {α β : Type} {P : α → Prop} {Q : β → Prop} {x : Engine α} {f : α → Engine β} (hx : EngineKeeps s₀ P x)
    (hf : ∀ v, P v → EngineKeeps s₀ Q (f v)) : EngineKeeps s₀ Q (x >>= f) := by
  cases x with
  | error o => exact hx
  | ok v => exact hf v hx

theorem EngineKeeps.map {α β : Type} {P : α → Prop} {Q : β → Prop} {x : Engine α} {f : α → β} (hx : EngineKeeps s₀ P x)
    (hf : ∀ v, P v → Q (f v)) : EngineKeeps s₀ Q (x.map f) := by
  cases x with
  | error o => exact hx
  | ok v => exact hf v hx

theorem foldlM_keeps {α β : Type} {P : β → Prop} {f : β → α → Engine β} (hf : ∀ v x, P v → EngineKeeps s₀ P (f v x)) {as : List α} {v : β}
    (hv : P v) : EngineKeeps s₀ P (as.foldlM f v) := by
  induction as generalizing v with
  | nil => exact hv
  | cons x as ih => exact (hf v x hv).bind fun _ hc => ih hc

theorem ite_keepsEngine {α : Type} {P : α → Prop} {c : Prop} [Decidable c] {x y : Engine α} (hx : EngineKeeps s₀ P x)
    (hy : EngineKeeps s₀ P y) : EngineKeeps s₀ P (if c then x else y) := by
  split <;> assumption

theorem wait_keepsOut : KeepsOut s₀ .wait := trivial
theorem bad_keepsOut {n} : KeepsOut s₀ (.bad n) := trivial
theorem done_keepsOut {n e} (h : Keeps s₀ s) : KeepsOut s₀ (.done s n e) := h

theorem wait_keeps {α : Type} {P : α → Prop} : EngineKeeps s₀ P (.error .wait) := trivial
theorem bad_keeps {α : Type} {P : α → Prop} {n} : EngineKeeps s₀ P (.error (.bad n)) := trivial

/-! ### Ops -/

theorem State.event_keeps {unitNo code part data} (h : Keeps s₀ s) : Keeps s₀ (State.event s unitNo code part data) :=
  ite_keeps h (ite_keeps (forI3c_keeps (fun _ _ hu => State.modPort_keeps hu) (State.modEvents_keeps h)) (State.modEvents_keeps h))

/-! ### Contract -/

theorem countBeats_keeps {p cls inst work waiting} (h : Keeps s₀ s) : Keeps s₀ (countBeats s p cls inst work waiting) := by
  unfold countBeats
  grind [State.modCluster_keeps, State.modCore_keeps, State.modEngine_keeps, State.modTx_keeps, State.modRx_keeps]

theorem waits_keeps {p cls inst} (h : Keeps s₀ s) : Keeps s₀ (waits s p cls inst) := countBeats_keeps (State.draw_keeps h)
theorem coresWait_keeps {p} (h : Keeps s₀ s) : Keeps s₀ (coresWait s p) :=
  foldl_keeps (fun _ _ hu => ite_keeps (State.modCore_keeps (State.draw_keeps hu)) hu) h

theorem issue_keeps {d beats err hand} (h : Keeps s₀ s) : Keeps s₀ (issue s d beats err hand) := by
  unfold issue
  grind [State.modPart_keeps, countBeats_keeps]

theorem runEngine_keeps {p q cls opcode hand op} (ho : ∀ d, KeepsOut s₀ (op d s)) (h : Keeps s₀ s) :
    KeepsNext s₀ (runEngine s p q cls opcode hand op) := by
  unfold runEngine
  split
  · exact h
  · next d _ =>
    have hd := ho d
    split
    · split <;> simp_all only [KeepsOut]
      · exact waits_keeps h
      · exact waits_keeps hd
      · trivial
      · exact issue_keeps hd
    · exact waits_keeps h

theorem tallyAdd_keeps {p t inc} (h : Keeps s₀ s) : Keeps s₀ (tallyAdd s p t inc) :=
  ite_keeps (State.setPart_keeps h) (State.event_keeps (State.setPart_keeps h))

theorem takeHandover_keeps {p hd} (h : Keeps s₀ s) : Keeps s₀ (takeHandover s p hd) := by
  unfold takeHandover
  split
  · exact State.setOwner_keeps h
  · exact h

/-! ### MemErrors -/

theorem foundBank_keeps {w} (h : Keeps s₀ s) : Keeps s₀ (foundBank s w) := by
  unfold foundBank
  grind [State.modCore_keeps, State.event_keeps, Keeps.update]

theorem foundUnit_keeps {w} (h : Keeps s₀ s) : Keeps s₀ (foundUnit s w) := ite_keeps (State.event_keeps h.update) (State.event_keeps h.update)
theorem meetBank_keeps {a n} (h : Keeps s₀ s) : Keeps s₀ (meetBank s a n) := foldl_keeps (fun _ _ hu => foundBank_keeps hu) h.update
theorem meetStack_keeps {a n} (h : Keeps s₀ s) : Keeps s₀ (meetStack s a n) :=
  foldl_keeps (fun _ _ hu => foundUnit_keeps hu) (foldl_keeps (fun _ _ hu => State.modCluster_keeps hu) h)

/-! ### Operands -/

theorem moveToBank_keeps {addr bs marks} (h : Keeps s₀ s) : Keeps s₀ (moveToBank s addr bs marks) := (bankWrite_keeps h).update

theorem coreBank_keeps {d bank n off} : EngineKeeps s₀ (fun _ => True) (coreBank s d bank n off) := by
  unfold coreBank
  split
  · trivial
  · exact ite_keepsEngine bad_keeps (ite_keepsEngine trivial wait_keeps)

theorem fetch_keeps {d ref n} (h : Keeps s₀ s) : EngineKeeps s₀ (fun c => Keeps s₀ c.2) (fetch s d ref n) :=
  ite_keepsEngine (coreBank_keeps.bind fun _ _ => meetBank_keeps h) (ite_keepsEngine (State.setPart_keeps h) wait_keeps)
theorem gatherItems_keeps {p needs} (h : Keeps s₀ s) : EngineKeeps s₀ (fun _ => True) (gatherItems s p needs) :=
  ite_keepsEngine trivial (State.setPart_keeps h)

theorem banksReady_keeps {d rs} : EngineKeeps s₀ (fun _ => True) (banksReady s d rs) := by
  induction rs with
  | nil => trivial
  | cons r rs ih =>
    refine EngineKeeps.bind (P := fun _ => True) (ite_keepsEngine ?_ trivial) fun _ _ => ih
    exact coreBank_keeps.map fun _ _ => trivial

theorem gatherReads_keeps {d rs} (h : Keeps s₀ s) : EngineKeeps s₀ (fun _ => True) (gatherReads s d rs) :=
  banksReady_keeps.bind fun _ _ => gatherItems_keeps h
theorem sinkReady_keeps {d ref n} : EngineKeeps s₀ (fun _ => True) (sinkReady s d ref n) :=
  ite_keepsEngine (coreBank_keeps.bind fun _ _ => trivial) (ite_keepsEngine trivial wait_keeps)

theorem storeResult_keeps {d r at_ bs} (h : Keeps s₀ s) : Keeps s₀ (storeResult s d r at_ bs) := by
  unfold storeResult
  grind [State.setPart_keeps, bankWrite_keeps]

theorem Engine.out_keeps {e : Engine EngineOut} (h : EngineKeeps s₀ (KeepsOut s₀) e) : KeepsOut s₀ e.out := by
  cases e <;> exact h

/-! ### Attention -/

theorem meetKeys_keeps {a b} (h : Keeps s₀ s) : Keeps s₀ (meetKeys s a b) := foldl_keeps (fun _ _ hu => meetBank_keeps hu) h

theorem attnSteps_keeps {d} (h : Keeps s₀ s) : EngineKeeps s₀ (KeepsOut s₀) (attnSteps d s) :=
  coreBank_keeps.bind fun _ _ => coreBank_keeps.bind fun _ _ => sinkReady_keeps.bind fun _ _ => (gatherReads_keeps h).bind fun _ _ =>
    (fetch_keeps (meetBank_keeps (meetKeys_keeps h))).bind fun _ ha => storeResult_keeps ha

theorem execAttn_keeps {p q} (h : Keeps s₀ s) : KeepsNext s₀ (execAttn p q s) := runEngine_keeps (fun _ => Engine.out_keeps (attnSteps_keeps h)) h

/-! ### Messages -/

theorem endSession_keeps {x kind} (h : Keeps s₀ s) : Keeps s₀ (endSession s x kind) :=
  State.event_keeps (ite_keeps (State.event_keeps (State.modPort_keeps h)) (State.modPort_keeps h))
theorem expireSession_keeps {x} (h : Keeps s₀ s) : Keeps s₀ (expireSession s x) := ite_keeps (endSession_keeps h) h
theorem answer_keeps {t status tail} (h : Keeps s₀ s) : Keeps s₀ (answer s t status tail) :=
  ite_keeps (State.modOrders_keeps (State.setPort_keeps h)) (State.setPort_keeps h)
theorem answerBare_keeps {t status} (h : Keeps s₀ s) : Keeps s₀ (answerBare s t status) := answer_keeps h

/-! ### JobFrames -/

theorem discard_keeps {n} (h : Keeps s₀ s) : Keeps s₀ (discard s n) := State.modLink_keeps h
theorem queueOn_keeps {n owner f} (h : Keeps s₀ s) : Keeps s₀ (queueOn s n owner f) := ite_keeps (State.modLink_keeps h) (discard_keeps h)
theorem sendFrame_keeps {owner f} (h : Keeps s₀ s) : Keeps s₀ (sendFrame s owner f) := ite_keeps (queueOn_keeps h) h
theorem modKeysOf_keeps {p i f} (h : Keeps s₀ s) : Keeps s₀ (modKeysOf s p i f) := State.modPart_keeps h

theorem sendMessage_keeps {p i typ ring msg payload} (h : Keeps s₀ s) : Keeps s₀ (sendMessage s p i typ ring msg payload) := by
  unfold sendMessage
  grind [modKeysOf_keeps, sendFrame_keeps, foldl_keeps]

theorem sendCopy_keeps {p i sid e} (h : Keeps s₀ s) : Keeps s₀ (sendCopy s p i sid e) := sendMessage_keeps (State.modPart_keeps h)

theorem copyOut_keeps {p} (h : Keeps s₀ s) : Keeps s₀ (copyOut s p) := by
  unfold copyOut
  grind [sendCopy_keeps, foldl_keeps]

/-! ### Exports -/

theorem sendRequest_keeps {r} (h : Keeps s₀ s) : Keeps s₀ (sendRequest s r) := by
  unfold sendRequest
  grind [queueOn_keeps, sendFrame_keeps, foldl_keeps]

theorem openRequest_keeps {use part queue store volume offset length data} (h : Keeps s₀ s) : Keeps s₀ (openRequest s use part queue store volume offset length data) :=
  sendRequest_keeps (noteRequest_keeps h)
theorem failRequest_keeps {use part queue store volume offset length} (h : Keeps s₀ s) : Keeps s₀ (failRequest s use part queue store volume offset length) :=
  noteRequest_keeps h
theorem timeoutRequest_keeps {r} (h : Keeps s₀ s) : Keeps s₀ (timeoutRequest s r) :=
  ite_keeps (modRequest_keeps (State.reach_keeps h)) (sendRequest_keeps (modRequest_keeps (State.reach_keeps h)))

theorem sealBlock_keeps {key block step data} (h : Keeps s₀ s) : Keeps s₀ (sealBlock s key block step data).2 := by
  unfold sealBlock
  grind [State.draw_keeps]

theorem storeBlock_keeps {use p q block data} (h : Keeps s₀ s) : Keeps s₀ (storeBlock s use p q block data) := by
  unfold storeBlock
  grind [sealBlock_keeps, openRequest_keeps, failRequest_keeps, State.modKeys_keeps, State.event_keeps]

theorem sealBlocks_keeps {use p q block n data} (h : Keeps s₀ s) : Keeps s₀ (sealBlocks s use p q block n data) :=
  foldl_keeps (fun _ _ hu => storeBlock_keeps hu) h

theorem pumpOne_keeps {p} (h : Keeps s₀ s) : Keeps s₀ (pumpOne p s) := by
  unfold pumpOne
  grind [State.modPart_keeps, storeBlock_keeps]

theorem pumpExport_keeps {p} (h : Keeps s₀ s) : Keeps s₀ (pumpExport p s) := foldl_keeps (fun _ _ hu => pumpOne_keeps hu) h
theorem queueExport_keeps {p kind bs} (h : Keeps s₀ s) : Keeps s₀ (queueExport s p kind bs) := pumpExport_keeps (State.modPart_keeps h)

/-! ### Holds -/

theorem settleHolds_keeps (h : Keeps s₀ s) : Keeps s₀ (settleHolds s) := forParts_keeps (fun _ _ hu => State.modPart_keeps hu) h

/-! ### Transfer -/

theorem moveToStack_keeps {addr bs marks} (h : Keeps s₀ s) : Keeps s₀ (moveToStack s addr bs marks) := (stackWrite_keeps h).update

theorem transferBank_keeps {d ref n} : EngineKeeps s₀ (fun _ => True) (transferBank s d ref n) := by
  unfold transferBank
  split
  · trivial
  · exact ite_keepsEngine bad_keeps (ite_keepsEngine (ite_keepsEngine trivial wait_keeps) (ite_keepsEngine trivial wait_keeps))

theorem transferStack_keeps {d off n} : EngineKeeps s₀ (fun _ => True) (transferStack s d off n) := by
  unfold transferStack
  split
  · trivial
  · exact ite_keepsEngine bad_keeps (ite_keepsEngine wait_keeps trivial)

theorem hbmReadSteps_keeps {d} (h : Keeps s₀ s) : EngineKeeps s₀ (KeepsOut s₀) (hbmReadSteps d s) :=
  transferBank_keeps.bind fun _ _ => transferStack_keeps.bind fun _ _ => moveToBank_keeps (meetStack_keeps h)
theorem execHbmRead_keeps {p q} (h : Keeps s₀ s) : KeepsNext s₀ (execHbmRead p q s) :=
  runEngine_keeps (fun _ => Engine.out_keeps (hbmReadSteps_keeps h)) h
theorem hbmWriteSteps_keeps {d} (h : Keeps s₀ s) : EngineKeeps s₀ (KeepsOut s₀) (hbmWriteSteps d s) :=
  transferBank_keeps.bind fun _ _ => transferStack_keeps.bind fun _ _ => moveToStack_keeps (meetBank_keeps h)
theorem execHbmWrite_keeps {p q} (h : Keeps s₀ s) : KeepsNext s₀ (execHbmWrite p q s) :=
  runEngine_keeps (fun _ => Engine.out_keeps (hbmWriteSteps_keeps h)) h
theorem bankCopySteps_keeps {d} (h : Keeps s₀ s) : EngineKeeps s₀ (KeepsOut s₀) (bankCopySteps d s) :=
  transferBank_keeps.bind fun _ _ => transferBank_keeps.bind fun _ _ => moveToBank_keeps (meetBank_keeps h)
theorem execBankCopy_keeps {p q} (h : Keeps s₀ s) : KeepsNext s₀ (execBankCopy p q s) :=
  runEngine_keeps (fun _ => Engine.out_keeps (bankCopySteps_keeps h)) h
theorem hbmZeroSteps_keeps {d} (h : Keeps s₀ s) : EngineKeeps s₀ (KeepsOut s₀) (hbmZeroSteps d s) :=
  transferStack_keeps.bind fun _ _ => stackZero_keeps h
theorem execHbmZero_keeps {p q} (h : Keeps s₀ s) : KeepsNext s₀ (execHbmZero p q s) :=
  runEngine_keeps (fun _ => Engine.out_keeps (hbmZeroSteps_keeps h)) h

/-! ### Completion -/

theorem writeDumps_keeps {p f} (h : Keeps s₀ s) : Keeps s₀ (writeDumps s p f) := foldl_keeps (fun _ _ hu => queueExport_keeps hu) h
theorem dumpHold_keeps {p n} (h : Keeps s₀ s) : Keeps s₀ (dumpHold s p n) :=
  settleHolds_keeps (State.modPart_keeps ((settleHolds_keeps h).later (Nat.le_add_right _ _)))
theorem tallySignal_keeps {p t inc} (h : Keeps s₀ s) : Keeps s₀ (tallySignal s p t inc) :=
  ite_keeps (tallyAdd_keeps h) (dumpHold_keeps (State.draw_keeps (writeDumps_keeps (tallyAdd_keeps h))))
theorem errorEvent_keeps {p e} (h : Keeps s₀ s) : Keeps s₀ (errorEvent s p e) := ite_keeps h (ite_keeps (State.event_keeps h) (State.event_keeps h))

theorem complete_keeps {p e} (h : Keeps s₀ s) : Keeps s₀ (complete s p e) := by
  unfold complete
  grind [errorEvent_keeps, takeHandover_keeps, tallySignal_keeps, State.modPart_keeps]

theorem frameOut_keeps {e} (h : Keeps s₀ s) : Keeps s₀ (frameOut s e) := ite_keeps (State.reach_keeps h) h

theorem execCommandCompletion_keeps {p cls inst} (h : Keeps s₀ s) : KeepsNext s₀ (execCommandCompletion p cls inst s) := by
  unfold execCommandCompletion
  grind [frameOut_keeps, complete_keeps, waits_keeps, keepsNext_next]

/-! ### Layouts -/

theorem copyCarried_keeps {old new} (h : Keeps s₀ s) : Keeps s₀ (copyCarried s old new).1 := by
  unfold copyCarried
  grind [meetBank_keeps, bankWrite_keeps, bankZero_keeps, foldl_keeps, Keeps.update]

theorem moveCarried_keeps {p} (h : Keeps s₀ s) : Keeps s₀ (moveCarried s p).1 := by
  unfold moveCarried
  grind [copyCarried_keeps, State.modPart_keeps]

theorem fenceCore_keeps {c} (h : Keeps s₀ s) : Keeps s₀ (fenceCore s c) := State.modCore_keeps h
theorem fenceEvent_keeps {c cause layout} (h : Keeps s₀ s) : Keeps s₀ (fenceEvent s c cause layout) := State.event_keeps h

theorem selfCheck_keeps {p step fail} (h : Keeps s₀ s) : Keeps s₀ (selfCheck s p step fail).1 := by
  unfold selfCheck
  grind [State.modCore_keeps, fenceCore_keeps, State.event_keeps, foldl_keeps]

theorem enterService_keeps {c} (h : Keeps s₀ s) : Keeps s₀ (enterService s c) := State.modCore_keeps h
theorem failReceipt_keeps {b c} (h : Keeps s₀ s) : Keeps s₀ (failReceipt s b c) := State.event_keeps (fenceCore_keeps (meetBank_keeps h))

theorem readmit_keeps {p pick n cs} (h : Keeps s₀ s) : Keeps s₀ (readmit p pick n s cs).1 := by
  induction n generalizing s cs with
  | zero => exact h
  | succ n ih =>
    unfold readmit
    dsimp only
    split
    · exact ih (failReceipt_keeps h)
    · exact foldl_keeps (fun _ _ hu => enterService_keeps hu) h

theorem writeOwners_keeps {p} (h : Keeps s₀ s) : Keeps s₀ (writeOwners s p) := by
  unfold writeOwners
  grind [State.setOwner_keeps, foldl_keeps]

theorem writeRing_keeps {p step d} (h : Keeps s₀ s) : Keeps s₀ (writeRing s p step d) := by
  unfold writeRing
  grind [bankWrite_keeps, State.modPart_keeps]

theorem writeRings_keeps {p step} (h : Keeps s₀ s) : Keeps s₀ (writeRings s p step) := foldl_keeps (fun _ _ hu => writeRing_keeps hu) h

theorem writeLists_keeps {p} (h : Keeps s₀ s) : Keeps s₀ (writeLists s p) := by
  unfold writeLists
  grind [bankWrite_keeps, foldl_keeps]

/-! ### Kv -/

theorem ptWrite_keeps {x kd lc e v} (h : Keeps s₀ s) : Keeps s₀ (ptWrite s x kd lc e v) := by
  unfold ptWrite
  grind [bankWrite_keeps]

theorem setCount_keeps {x kd page v} (h : Keeps s₀ s) : Keeps s₀ (setCount s x kd page v) := by
  unfold setCount
  grind [stackWrite_keeps]

theorem ptMeet_keeps {x kd lc e} (h : Keeps s₀ s) : Keeps s₀ (ptMeet s x kd lc e) := by
  unfold ptMeet
  grind [meetBank_keeps]

theorem countMeet_keeps {x kd page} (h : Keeps s₀ s) : Keeps s₀ (countMeet s x kd page) := by
  unfold countMeet
  grind [meetStack_keeps]

theorem walkBank_keeps {p lc w n} : EngineKeeps s₀ (fun _ => True) (walkBank s p lc w n) := by
  unfold walkBank
  dsimp only
  split
  · trivial
  · exact ite_keepsEngine bad_keeps (ite_keepsEngine trivial wait_keeps)

theorem stagePage_keeps {k addr target} (h : Keeps s₀ s) : Keeps s₀ (stagePage s k addr target).1 := by
  unfold stagePage
  grind [moveToBank_keeps, meetStack_keeps]

theorem walkMeet_keeps {x w e} (h : Keeps s₀ s) : Keeps s₀ (walkMeet s x w e) := by
  unfold walkMeet
  grind [ptMeet_keeps]

theorem stagePages_keeps {x w k a first n} (h : Keeps s₀ s) : Keeps s₀ (stagePages s x w k a first n).1 :=
  foldl_fst_keeps (fun _ _ hc => stagePage_keeps (walkMeet_keeps hc)) h

theorem walkStageSteps_keeps {p w} (h : Keeps s₀ s) : EngineKeeps s₀ (KeepsOut s₀) (walkStageSteps p w s) := by
  refine walkBank_keeps.bind fun _ _ => ?_
  split
  · trivial
  · exact ite_keepsEngine wait_keeps (stagePages_keeps h)

theorem appendMeet_keeps {x w e} (h : Keeps s₀ s) : Keeps s₀ (appendMeet s x w e) := by
  unfold appendMeet
  grind [countMeet_keeps, ptMeet_keeps]

theorem appendBytes_keeps {src dst n} (h : Keeps s₀ s) : Keeps s₀ (appendBytes s src dst n) :=
  foldl_keeps (fun _ _ hu => ite_keeps (stackMark_keeps hu) hu) (stackWrite_keeps (meetBank_keeps h))
theorem appendRecords_keeps {x w k q a tr tpp n} (h : Keeps s₀ s) : Keeps s₀ (appendRecords s x w k q a tr tpp n) :=
  foldl_keeps (fun _ _ hu => appendBytes_keeps hu) h

theorem walkAppendSteps_keeps {p w} (h : Keeps s₀ s) : EngineKeeps s₀ (KeepsOut s₀) (walkAppendSteps p w s) := by
  refine walkBank_keeps.bind fun _ _ => ?_
  dsimp only
  split
  · trivial
  · exact h
  · have ha := fun es => foldl_keeps (as := es) (fun _ e hu => appendMeet_keeps (x := s.part p) (w := w) (e := e) hu) h
    exact ite_keepsEngine wait_keeps (ite_keepsEngine (ha _) (appendRecords_keeps (ha _)))

theorem issueWalk_keeps {p w beats err} (h : Keeps s₀ s) : Keeps s₀ (issueWalk s p w beats err) := by
  unfold issueWalk
  grind [State.modPart_keeps, countBeats_keeps]

theorem runWalk_keeps {p lc kind op} (ho : ∀ w, EngineKeeps s₀ (KeepsOut s₀) (op w s)) (h : Keeps s₀ s) :
    KeepsNext s₀ (runWalk s p lc kind op) := by
  unfold runWalk
  split
  · exact h
  · next w _ =>
    have hw := Engine.out_keeps (ho w)
    split
    · split <;> simp_all only [KeepsOut]
      · exact waits_keeps h
      · exact waits_keeps hw
      · trivial
      · exact issueWalk_keeps hw
    · exact waits_keeps h

theorem execWalkStage_keeps {p cluster} (h : Keeps s₀ s) : KeepsNext s₀ (execWalkStage p cluster s) :=
  runWalk_keeps (fun _ => walkStageSteps_keeps h) h
theorem execWalkAppend_keeps {p cluster} (h : Keeps s₀ s) : KeepsNext s₀ (execWalkAppend p cluster s) :=
  runWalk_keeps (fun _ => walkAppendSteps_keeps h) h
theorem copyPage_keeps {k src dst} (h : Keeps s₀ s) : Keeps s₀ (copyPage s k src dst) := moveToStack_keeps (meetStack_keeps h)

theorem execCopyPhase_keeps {p cluster} (h : Keeps s₀ s) : KeepsNext s₀ (execCopyPhase p cluster s) := by
  unfold execCopyPhase
  grind [copyPage_keeps, State.modPart_keeps, foldl_keeps, keepsNext_next]

theorem execHouseTurn_keeps {p cluster} (h : Keeps s₀ s) : KeepsNext s₀ (execHouseTurn p cluster s) := by
  unfold execHouseTurn
  grind [meetBank_keeps, pumpExport_keeps, State.setPart_keeps, foldl_keeps, keepsNext_next]

/-! ### Pages -/

theorem modSeq_keeps {p n f} (h : Keeps s₀ s) : Keeps s₀ (modSeq s p n f) := State.modPart_keeps h
theorem modKv_keeps {p lc f} (h : Keeps s₀ s) : Keeps s₀ (modKv s p lc f) := State.modPart_keeps h
theorem setSeqEntry_keeps {p kd q lc l e v} (h : Keeps s₀ s) : Keeps s₀ (setSeqEntry s p kd q lc l e v) := ptWrite_keeps h
theorem markCow_keeps {p kd page cow} (h : Keeps s₀ s) : Keeps s₀ (markCow s p kd page cow) :=
  foldl_keeps (fun _ _ hu => foldl_keeps (fun _ _ hv => ite_keeps (setSeqEntry_keeps hv) hv) hu) h

theorem shareEntry_keeps {p kd q src lc l e} (h : Keeps s₀ s) : Keeps s₀ (shareEntry s p kd q src lc l e) := by
  unfold shareEntry
  grind [modKv_keeps, setSeqEntry_keeps, setCount_keeps, markCow_keeps, countMeet_keeps, ptMeet_keeps]

theorem sharePages_keeps {p kd q src n} (h : Keeps s₀ s) : Keeps s₀ (sharePages s p kd q src n) := foldl_keeps (fun _ _ hu => shareEntry_keeps hu) h

theorem takePage_keeps {p lc g} (h : Keeps s₀ s) (ht : takePage s p lc = some (g, t)) : Keeps s₀ t := by
  unfold takePage at ht
  grind [modKv_keeps]

theorem Alloc.holdOver_keeps {q} (h : Keeps s₀ a.s) : Keeps s₀ (Alloc.holdOver a q).s := by
  unfold Alloc.holdOver
  grind

theorem Alloc.give_keeps {p kd q lc l e src} (h : Keeps s₀ a.s) : Keeps s₀ (Alloc.give a p kd q lc l e src).s := by
  unfold Alloc.give
  grind [modKv_keeps, setSeqEntry_keeps, setCount_keeps, Alloc.holdOver_keeps, takePage_keeps]

theorem Alloc.entry_keeps {p kd q lc l e} (h : Keeps s₀ a.s) : Keeps s₀ (Alloc.entry a p kd q lc l e).s := by
  unfold Alloc.entry
  grind [modKv_keeps, setSeqEntry_keeps, Alloc.give_keeps, countMeet_keeps, ptMeet_keeps]

theorem allocCluster_keeps {p kd lc qs} (h : Keeps s₀ a.s) : Keeps s₀ (allocCluster a p kd lc qs).s := by
  unfold allocCluster
  grind [Alloc.entry_keeps, foldl_alloc_keeps]

theorem dropRef_keeps {p kd page} (h : Keeps s₀ s) : Keeps s₀ (dropRef s p kd page) := by
  unfold dropRef
  grind [modKv_keeps, setCount_keeps, markCow_keeps, countMeet_keeps]

theorem releasePages_keeps {p kd q} (h : Keeps s₀ s) : Keeps s₀ (releasePages s p kd q) := by
  unfold releasePages
  grind [setSeqEntry_keeps, dropRef_keeps, State.modPart_keeps, ptMeet_keeps, foldl_keeps]

theorem returnPages_keeps {p old} (h : Keeps s₀ s) : Keeps s₀ (returnPages s p old) := State.modPart_keeps h
theorem holdPages_keeps {p kd pages} (h : Keeps s₀ s) : Keeps s₀ (holdPages s p kd pages) :=
  foldl_keeps (fun _ _ hu => markCow_keeps (setCount_keeps (countMeet_keeps hu))) h

theorem armKv_keeps {p} (h : Keeps s₀ s) : Keeps s₀ (armKv s p) := by
  unfold armKv
  split
  · exact State.modPart_keeps h
  · refine State.modPart_keeps (foldl_keeps (fun u lc hu => ?_) h)
    grind [bankZero_keeps, stackZero_keeps]

/-! ### VideoStore -/

theorem modContext_keeps {d n f} (h : Keeps s₀ s) : Keeps s₀ (modContext s d n f) := by
  unfold modContext
  grind [State.modEngine_keeps]

theorem closeContexts_keeps {p} (h : Keeps s₀ s) : Keeps s₀ (closeContexts s p) := by
  unfold closeContexts
  grind [State.modEngine_keeps, foldl_keeps]

/-! ### Checkpoints -/

theorem meetCapture_keeps {p} (h : Keeps s₀ s) : Keeps s₀ (meetCapture s p) := by
  unfold meetCapture
  grind [meetBank_keeps, meetStack_keeps, foldl_keeps]

theorem putBanks_keeps {cs key n a} (h : Keeps s₀ s) : Keeps s₀ (putBanks s cs key n a) :=
  foldl_keeps (fun _ _ hu => bankWrite_keeps hu) (bankZero_keeps h)
theorem putStacks_keeps {cs key n a} (h : Keeps s₀ s) : Keeps s₀ (putStacks s cs key n a) :=
  foldl_keeps (fun _ _ hu => stackWrite_keeps hu) (stackZero_keeps h)
theorem markBanks_keeps {vs w n to_} (h : Keeps s₀ s) : Keeps s₀ (markBanks s vs w n to_) := foldl_keeps (fun _ _ hu => bankMark_keeps hu) h
theorem markStacks_keeps {vs w n to_} (h : Keeps s₀ s) : Keeps s₀ (markStacks s vs w n to_) := foldl_keeps (fun _ _ hu => stackMark_keeps hu) h

theorem putCarried_keeps {p c} (h : Keeps s₀ s) : Keeps s₀ (putCarried s p c) := by
  unfold putCarried
  grind [markBanks_keeps, putBanks_keeps, State.modPart_keeps, foldl_keeps]

theorem putTables_keeps {p c} (h : Keeps s₀ s) : Keeps s₀ (putTables s p c) := by
  unfold putTables
  split
  · exact h
  · refine foldl_keeps (fun u g hu => ?_) (foldl_keeps (fun u lc hu => ?_) h)
    · split
      · exact markStacks_keeps (putStacks_keeps hu)
      · exact hu
    · grind [markStacks_keeps, putStacks_keeps, markBanks_keeps, putBanks_keeps]

theorem putVideo_keeps {p c} (h : Keeps s₀ s) : Keeps s₀ (putVideo s p c) := by
  unfold putVideo
  grind [closeContexts_keeps, State.modEngine_keeps, markStacks_keeps, putStacks_keeps, foldl_keeps]

theorem restore_keeps {p c layout} (h : Keeps s₀ s) : Keeps s₀ (restore s p c layout) :=
  putVideo_keeps (putTables_keeps (putCarried_keeps (State.modPart_keeps h)))

theorem refreshGen_keeps {p} (h : Keeps s₀ s) : Keeps s₀ (refreshGen s p) := by
  unfold refreshGen
  grind [setSeqEntry_keeps, foldl_keeps]

theorem prepareStep_keeps {p} (h : Keeps s₀ s) : Keeps s₀ (prepareStep s p) := by
  unfold prepareStep
  grind [writeRings_keeps, refreshGen_keeps, writeOwners_keeps, State.modPart_keeps]

theorem releaseStep_keeps {p} (h : Keeps s₀ s) : Keeps s₀ (releaseStep s p) := State.modPart_keeps h
theorem modRec_keeps {p f} (h : Keeps s₀ s) : Keeps s₀ (modRec s p f) := State.modPart_keeps h
theorem recEntry_keeps {p kind a b c} (h : Keeps s₀ s) : Keeps s₀ (recEntry s p kind a b c) := modRec_keeps h
theorem recFlag_keeps {p i} (h : Keeps s₀ s) : Keeps s₀ (recFlag s p i) := modRec_keeps h

theorem noLayout_keeps {p changes} (h : Keeps s₀ s) : Keeps s₀ (noLayout s p changes) := by
  unfold noLayout
  grind [fenceEvent_keeps, State.modPart_keeps, State.event_keeps, foldl_keeps]

theorem catchUpFail_keeps {p cause} (h : Keeps s₀ s) : Keeps s₀ (catchUpFail s p cause) := State.event_keeps (State.modPart_keeps h)

theorem abandonStep_keeps {p} (h : Keeps s₀ s) : Keeps s₀ (abandonStep s p) := by
  unfold abandonStep
  grind [noLayout_keeps, restore_keeps, catchUpFail_keeps, State.modPart_keeps, Keeps.update]

theorem hardStop_keeps {p c} (h : Keeps s₀ s) : Keeps s₀ (hardStop s p c) :=
  fenceEvent_keeps (abandonStep_keeps (State.modPart_keeps (fenceCore_keeps (State.modCore_keeps (State.event_keeps h)))))

theorem moveOrStop_keeps {p} (h : Keeps s₀ s) : Keeps s₀ (moveOrStop s p) := by
  unfold moveOrStop
  grind [hardStop_keeps, moveCarried_keeps]

theorem fenceFor_keeps {c cause} (h : Keeps s₀ s) : Keeps s₀ (fenceFor s c cause) := by
  unfold fenceFor
  grind [moveOrStop_keeps, State.modCore_keeps, fenceEvent_keeps, fenceCore_keeps, State.modPart_keeps]

theorem settleCores_keeps {p} (h : Keeps s₀ s) : Keeps s₀ (settleCores s p) := by
  unfold settleCores
  grind [readmit_keeps, moveOrStop_keeps, fenceEvent_keeps, fenceCore_keeps, State.modPart_keeps, foldl_keeps]

/-! ### Beats -/

theorem sendBeatAs_keeps {p pulled} (h : Keeps s₀ s) : Keeps s₀ (sendBeatAs s p pulled) := ite_keeps (State.modClaim_keeps (State.emit_keeps h)) h
theorem sendBeat_keeps {p} (h : Keeps s₀ s) : Keeps s₀ (sendBeat s p) := sendBeatAs_keeps h
theorem boundaryBeat_keeps {p} (h : Keeps s₀ s) : Keeps s₀ (boundaryBeat s p) := ite_keeps h (sendBeat_keeps (State.modClaim_keeps h))
theorem setClaim_keeps {p n} (h : Keeps s₀ s) : Keeps s₀ (setClaim s p n) :=
  ite_keeps (State.modClaim_keeps h) (sendBeat_keeps (State.modClaim_keeps h))

theorem sendPart_keeps {p kind pace step section_ body} (h : Keeps s₀ s) : Keeps s₀ (sendPart s p kind pace step section_ body) := by
  unfold sendPart
  grind [State.modPart_keeps, sendMessage_keeps]

theorem sendDecisions_keeps {p step stamp entries} (h : Keeps s₀ s) : Keeps s₀ (sendDecisions s p step stamp entries) :=
  ite_keeps (sendPart_keeps (State.modClaim_keeps h)) h

/-! ### Serving -/

theorem Bd.map_keeps {f} (hf : ∀ u, Keeps s₀ u → Keeps s₀ (f u)) (h : Keeps s₀ b.s) : Keeps s₀ (b.map f).s := hf _ h

theorem Bd.mapPart_keeps {f} (h : Keeps s₀ b.s) : Keeps s₀ (Bd.mapPart b f).s := by
  unfold Bd.mapPart
  grind [State.modPart_keeps]

theorem Bd.entry_keeps {kind a n c} (h : Keeps s₀ b.s) : Keeps s₀ (Bd.entry b kind a n c).s := by
  unfold Bd.entry
  grind

theorem Bd.seq_keeps {n f} (h : Keeps s₀ b.s) : Keeps s₀ (Bd.seq b n f).s := by
  unfold Bd.seq
  grind [modSeq_keeps]

theorem Bd.tell_keeps {stream client seq pos cls status} (h : Keeps s₀ b.s) : Keeps s₀ (Bd.tell b stream client seq pos cls status).s :=
  Bd.mapPart_keeps h

theorem Bd.tellSeq_keeps {q status} (h : Keeps s₀ b.s) : Keeps s₀ (Bd.tellSeq b q status).s := by
  unfold Bd.tellSeq
  grind [Bd.tell_keeps]

theorem Bd.settings_keeps (h : Keeps s₀ b.s) : Keeps s₀ (Bd.settings b).s := Bd.mapPart_keeps h

theorem Bd.completions_keeps (h : Keeps s₀ b.s) : Keeps s₀ (Bd.completions b).s := by
  unfold Bd.completions
  grind [Bd.entry_keeps, foldl_bd_keeps]

theorem Bd.message_keeps {e m} (h : Keeps s₀ b.s) : Keeps s₀ (Bd.message b e m).s := by
  unfold Bd.message
  grind [Bd.tell_keeps, Bd.mapPart_keeps]

theorem Bd.consume_keeps {f} (h : Keeps s₀ b.s) : Keeps s₀ (Bd.consume b f).s := by
  unfold Bd.consume
  grind [Bd.message_keeps, Bd.mapPart_keeps, foldl_bd_keeps]

theorem answerCancel_keeps {c status} (h : Keeps s₀ s) : Keeps s₀ (answerCancel s c status) := by
  unfold answerCancel
  grind [answer_keeps, State.modOrders_keeps]

theorem Bd.cancel_keeps {c reclaim} (h : Keeps s₀ b.s) : Keeps s₀ (Bd.cancel b c reclaim).s := by
  unfold Bd.cancel
  grind [Bd.tell_keeps, Bd.seq_keeps, Bd.mapPart_keeps, Bd.map_keeps, answerCancel_keeps, Bd.entry_keeps]

theorem Bd.cancelEntry_keeps {c d} (h : Keeps s₀ b.s) : Keeps s₀ (Bd.cancelEntry b c d).s := by
  unfold Bd.cancelEntry
  grind [Bd.cancel_keeps]

theorem Bd.cancelRecorded_keeps {cs ds} (h : Keeps s₀ b.s) : Keeps s₀ (b.cancelRecorded cs ds).s := by
  induction cs generalizing b ds with
  | nil => exact foldl_bd_keeps (fun _ _ hb => Bd.cancelEntry_keeps hb) h
  | cons c cs ih =>
    unfold Bd.cancelRecorded
    dsimp only
    split
    · exact ih (Bd.cancel_keeps h)
    · split
      · exact ih (Bd.cancel_keeps h)
      · split
        · refine ih ?_
          split
          · exact Bd.mapPart_keeps h
          · exact h
        · have hb := fun ds => foldl_bd_keeps (as := ds) (fun _ d hb => Bd.cancelEntry_keeps (c := none) (d := d) hb) h
          refine ih ?_
          split
          · exact Bd.cancelEntry_keeps (hb _)
          · exact Bd.cancel_keeps (Bd.cancelEntry_keeps (hb _))

theorem Bd.cancels_keeps (h : Keeps s₀ b.s) : Keeps s₀ (Bd.cancels b).s := by
  unfold Bd.cancels
  grind [Bd.cancel_keeps, Bd.mapPart_keeps, Bd.cancelRecorded_keeps, foldl_bd_keeps]

theorem Bd.adapter_keeps {a} (h : Keeps s₀ b.s) : Keeps s₀ (Bd.adapter b a).s := by
  unfold Bd.adapter
  grind [Bd.mapPart_keeps, Bd.entry_keeps]

theorem Bd.adaptersCurrent_keeps (h : Keeps s₀ b.s) : Keeps s₀ (Bd.adaptersCurrent b).s := by
  unfold Bd.adaptersCurrent
  grind [Bd.adapter_keeps, Bd.mapPart_keeps, Bd.entry_keeps, foldl_bd_keeps]

theorem Bd.rejoin_keeps (h : Keeps s₀ b.s) : Keeps s₀ (Bd.rejoin b).s := Bd.mapPart_keeps h

theorem Bd.letIn_keeps {kd q ad} (h : Keeps s₀ b.s) : Keeps s₀ (Bd.letIn b kd q ad).s := by
  unfold Bd.letIn
  split
  · refine Bd.tellSeq_keeps ?_
    split
    · refine Bd.entry_keeps (Bd.mapPart_keeps (Bd.entry_keeps ?_))
      split
      · exact Bd.map_keeps (fun _ hu => sharePages_keeps hu) (Bd.mapPart_keeps (Bd.seq_keeps h))
      · exact Bd.mapPart_keeps (Bd.seq_keeps h)
    · refine Bd.entry_keeps ?_
      split
      · exact Bd.map_keeps (fun _ hu => sharePages_keeps hu) (Bd.mapPart_keeps (Bd.seq_keeps h))
      · exact Bd.mapPart_keeps (Bd.seq_keeps h)
  · exact h

theorem Bd.admitLive_keeps {kd qs n} (h : Keeps s₀ b.s) : Keeps s₀ (b.admitLive kd qs n).s := by
  induction qs generalizing b n with
  | nil => exact h
  | cons q qs ih =>
    unfold Bd.admitLive
    split
    · exact h
    · exact ih h
    · exact ih (Bd.letIn_keeps h)

theorem Bd.admitRecorded_keeps {kd} : ∀ {ds} {b : Bd}, Keeps s₀ b.s → Keeps s₀ (b.admitRecorded kd ds).s
  | [], _, h => h
  | [d], b, h => by
    unfold Bd.admitRecorded
    split
    · exact h
    · split
      · exact h
      · split
        · exact Bd.letIn_keeps h
        · exact h
  | d :: e :: es, b, h => by
    unfold Bd.admitRecorded
    split
    · exact h
    · split
      · exact h
      · split
        · exact Bd.admitRecorded_keeps (Bd.letIn_keeps h)
        · dsimp only
          split
          · split
            · exact Bd.admitRecorded_keeps (Bd.letIn_keeps h)
            · exact h
          · exact h

theorem Bd.admissions_keeps (h : Keeps s₀ b.s) : Keeps s₀ (Bd.admissions b).s := by
  unfold Bd.admissions
  grind [Bd.admitRecorded_keeps, Bd.rejoin_keeps, Bd.admitLive_keeps]

theorem Bd.allocations_keeps (h : Keeps s₀ b.s) : Keeps s₀ (Bd.allocations b).1.s := by
  unfold Bd.allocations
  split
  · exact h
  · refine foldl_bd_keeps (fun c q hc => ?_) (foldl_alloc_keeps (fun _ _ ha => allocCluster_keeps ha) h)
    split
    · exact Bd.tellSeq_keeps (Bd.seq_keeps hc)
    · exact Bd.seq_keeps hc

theorem Bd.releases_keeps {drops} (h : Keeps s₀ b.s) : Keeps s₀ (Bd.releases b drops).s := by
  refine Bd.mapPart_keeps ?_
  split
  · refine Bd.map_keeps (fun u hu => ?_) h
    exact foldl_keeps (fun _ _ hv => dropRef_keeps hv) (foldl_keeps (fun _ _ hv => releasePages_keeps hv) (foldl_keeps (fun _ _ hv => dropRef_keeps hv) hu))
  · exact h

theorem Bd.pause_keeps {q} (h : Keeps s₀ b.s) : Keeps s₀ (Bd.pause b q).s := Bd.tellSeq_keeps (Bd.entry_keeps (Bd.mapPart_keeps (Bd.seq_keeps h)))
theorem Bd.resume_keeps {q} (h : Keeps s₀ b.s) : Keeps s₀ (Bd.resume b q).s := Bd.tellSeq_keeps (Bd.entry_keeps (Bd.mapPart_keeps (Bd.seq_keeps h)))
theorem Bd.moved_keeps {pause} (h : Keeps s₀ b.s) : Keeps s₀ (Bd.moved b pause).s := Bd.mapPart_keeps h

theorem Bd.moveRecorded_keeps {d} (h : Keeps s₀ b.s) : Keeps s₀ (Bd.moveRecorded b d).s := by
  unfold Bd.moveRecorded
  grind [Bd.resume_keeps, Bd.pause_keeps, Bd.moved_keeps]

theorem Bd.measure_keeps {stamp} (h : Keeps s₀ b.s) : Keeps s₀ (Bd.measure b stamp).s := Bd.mapPart_keeps h

theorem Bd.decideMoves_keeps {p16} (h : Keeps s₀ b.s) : Keeps s₀ (Bd.decideMoves b p16).s := by
  unfold Bd.decideMoves
  grind [Bd.resume_keeps, Bd.pause_keeps, Bd.moved_keeps, foldl_bd_keeps]

theorem Bd.policy_keeps {stamp} (h : Keeps s₀ b.s) : Keeps s₀ (Bd.policy b stamp).s := by
  unfold Bd.policy
  grind [Bd.decideMoves_keeps, Bd.measure_keeps, Bd.moveRecorded_keeps, foldl_bd_keeps]

theorem Bd.decide_keeps {named} (h : Keeps s₀ b.s) : Keeps s₀ (Bd.decide b named).s := by
  unfold Bd.decide
  grind [Bd.consume_keeps, Bd.settings_keeps, Bd.admissions_keeps, Bd.cancels_keeps, Bd.completions_keeps, Bd.adaptersCurrent_keeps]

theorem Bd.settle_keeps {old stamp} (h : Keeps s₀ b.s) : Keeps s₀ (Bd.settle b old stamp).s :=
  Bd.policy_keeps (Bd.map_keeps (fun _ hu => returnPages_keeps hu) (Bd.releases_keeps (Bd.allocations_keeps h)))

/-! ### Clearing -/

theorem newMemoryKey_keeps (h : Keeps s₀ s) : Keeps s₀ (newMemoryKey s).2 := by
  unfold newMemoryKey
  grind [State.draw_keeps]

theorem advanceKeys_keeps {p} (h : Keeps s₀ s) : Keeps s₀ (advanceKeys s p) := by
  unfold advanceKeys
  grind [State.modCluster_keeps, newMemoryKey_keeps, State.modPart_keeps, foldl_keeps]

theorem eraseCluster_keeps {key k} (h : Keeps s₀ s) : Keeps s₀ (eraseCluster key s k) :=
  ite_keeps (State.modCluster_keeps h) (State.modCluster_keeps h)

theorem enterClearing_keeps {p} (h : Keeps s₀ s) : Keeps s₀ (enterClearing s p) := by
  unfold enterClearing
  grind [closeContexts_keeps, newMemoryKey_keeps, eraseCluster_keeps, State.modCsi_keeps, answerCancel_keeps, State.modPart_keeps, foldl_keeps,
    Keeps.update]

theorem zeroBanks_keeps {k} (h : Keeps s₀ s) : Keeps s₀ (zeroBanks s k) :=
  foldl_keeps (fun _ _ hu => ite_keeps (State.setOwner_keeps hu) hu) (bankZero_keeps h)

theorem clearCluster_keeps {k} (h : Keeps s₀ s) : Keeps s₀ (clearCluster s k) := by
  unfold clearCluster
  grind [State.modCluster_keeps, zeroBanks_keeps, stackZero_keeps]

theorem execClearComplete_keeps {p} (h : Keeps s₀ s) : KeepsNext s₀ (execClearComplete p s) :=
  ite_keepsNext (keepsNext_next h) (keepsNext_next (State.modPart_keeps (foldl_keeps (fun _ _ hu => clearCluster_keeps hu) h)))

/-! ### Csi -/

theorem modBinding_keeps {p stream transmit f} (h : Keeps s₀ s) : Keeps s₀ (modBinding s p stream transmit f) := State.modCsi_keeps h
theorem countUnbound_keeps (h : Keeps s₀ s) : Keeps s₀ (countUnbound s) := State.modCsi_keeps h
theorem noteSync_keeps {port} (h : Keeps s₀ s) : Keeps s₀ (noteSync s port) :=
  ite_keeps (State.event_keeps (State.modRx_keeps h)) (State.modRx_keeps h)
theorem putMarked_keeps {a bs bad} (h : Keeps s₀ s) : Keeps s₀ (putMarked s a bs bad) :=
  ite_keeps (foldl_keeps (fun _ _ hu => bankMark_keeps hu) (bankWrite_keeps h)) (bankWrite_keeps h)
theorem countBadLine_keeps {port} (h : Keeps s₀ s) : Keeps s₀ (countBadLine s port) := State.modRx_keeps h

theorem putLine_keeps {b f line bad} (h : Keeps s₀ s) : Keeps s₀ (putLine s b f line bad).1 := by
  unfold putLine
  grind [countBadLine_keeps, putMarked_keeps]

theorem noteBad_keeps {b f ok} (h : Keeps s₀ s) : Keeps s₀ (noteBad s b f ok).1 := by
  unfold noteBad
  grind [countBadLine_keeps]

theorem flushTail_keeps {b f} (h : Keeps s₀ s) : Keeps s₀ (flushTail s b f).1 := by
  unfold flushTail
  grind [noteBad_keeps, putLine_keeps]

theorem closeTail_keeps {b f} (h : Keeps s₀ s) : Keeps s₀ (closeTail s b f).1 := by
  unfold closeTail
  grind [noteBad_keeps, flushTail_keeps]

theorem payloadLine_keeps {b f dt data ok} (h : Keeps s₀ s) : Keeps s₀ (payloadLine s b f dt data ok).1 := by
  unfold payloadLine
  grind [putLine_keeps, flushTail_keeps]

theorem checkTag_keeps {b f dt} (h : Keeps s₀ s) : Keeps s₀ (checkTag s b f dt).1 := by
  unfold checkTag
  grind [State.modRx_keeps, State.modKeys_keeps]

theorem closeFrame_keeps {b bits} (h : Keeps s₀ s) : Keeps s₀ (closeFrame s b bits) := by
  unfold closeFrame
  split
  · exact h
  · refine copyOut_keeps (State.modPart_keeps (modBinding_keeps (State.modRx_keeps (State.setPart_keeps (checkTag_keeps (closeTail_keeps ?_))))))
    exact ite_keeps (State.modRx_keeps h) h

theorem openFrame_keeps {b frame} (h : Keeps s₀ s) : Keeps s₀ (openFrame s b frame) :=
  modBinding_keeps (ite_keeps (State.modRx_keeps h) (ite_keeps (State.modRx_keeps h) h))

theorem execCsiFrameStart_keeps {port vc frame} (h : Keeps s₀ s) : KeepsNext s₀ (execCsiFrameStart port vc frame s) := by
  unfold execCsiFrameStart
  grind [noteSync_keeps, openFrame_keeps, countUnbound_keeps, closeFrame_keeps, keepsNext_next]

theorem execCsiLongPacket_keeps {port vc dt data crcOk hdrErrors} (h : Keeps s₀ s) :
    KeepsNext s₀ (execCsiLongPacket port vc dt data crcOk hdrErrors s) := by
  have hn : Keeps s₀ (noteSync s port) := noteSync_keeps h
  unfold execCsiLongPacket
  dsimp only
  split
  · split
    · exact modBinding_keeps (State.modRx_keeps hn)
    · exact State.modRx_keeps hn
  · have hc := ite_keeps (c := hdrErrors = 1) (State.modRx_keeps (n := port) (f := fun r => { r with hdrCorrected := r.hdrCorrected + 1 }) hn) hn
    grind [countUnbound_keeps, modBinding_keeps, flushTail_keeps, payloadLine_keeps, keepsNext_next]

theorem execCsiFrameEnd_keeps {port vc frame} (h : Keeps s₀ s) : KeepsNext s₀ (execCsiFrameEnd port vc frame s) := by
  unfold execCsiFrameEnd
  grind [noteSync_keeps, countBadLine_keeps, countUnbound_keeps, closeFrame_keeps, keepsNext_next]

theorem execCsiFrameTimeout_keeps {port vc} (h : Keeps s₀ s) : KeepsNext s₀ (execCsiFrameTimeout port vc s) := by
  unfold execCsiFrameTimeout
  grind [State.reach_keeps, closeFrame_keeps, keepsNext_next]

theorem closeAll_keeps {port} (h : Keeps s₀ s) : Keeps s₀ (closeAll s port) := foldl_keeps (fun _ _ hu => closeFrame_keeps hu) h
theorem execCsiLaneSyncLoss_keeps {port} (h : Keeps s₀ s) : KeepsNext s₀ (execCsiLaneSyncLoss port s) :=
  ite_keepsNext (keepsNext_next (closeAll_keeps (State.event_keeps (State.modRx_keeps h)))) (keepsNext_next h)
theorem execCsiLaneSyncRegained_keeps {port} (h : Keeps s₀ s) : KeepsNext s₀ (execCsiLaneSyncRegained port s) :=
  ite_keepsNext (keepsNext_next h) (keepsNext_next (State.event_keeps (State.modRx_keeps h)))
theorem execCsiGenericShortPacket_keeps {port dt} (h : Keeps s₀ s) : KeepsNext s₀ (execCsiGenericShortPacket port dt s) :=
  ite_keepsNext (keepsNext_next (countUnbound_keeps (noteSync_keeps h))) (keepsNext_next h)
theorem openWindow_keeps {b due} (h : Keeps s₀ s) : Keeps s₀ (openWindow s b due) := modBinding_keeps h

theorem quotaEdge_keeps (h : Keeps s₀ s) : Keeps s₀ (quotaEdge s) := by
  refine foldl_keeps (fun u b hu => ?_) h
  split
  · exact ite_keeps (openWindow_keeps hu) hu
  · exact openWindow_keeps hu

theorem execQuotaWindowTimeout_keeps {port vc} (h : Keeps s₀ s) : KeepsNext s₀ (execQuotaWindowTimeout port vc s) := by
  unfold execQuotaWindowTimeout
  grind [State.reachStamp_keeps, openWindow_keeps, keepsNext_next]

/-! ### Streams -/

theorem landedBytes_keeps {p e n} (h : Keeps s₀ s) : Keeps s₀ (landedBytes s p e n).1 := by
  unfold landedBytes
  grind [meetBank_keeps]

theorem gatherSteps_keeps {d} (h : Keeps s₀ s) : EngineKeeps s₀ (KeepsOut s₀) (gatherSteps d s) := by
  unfold gatherSteps
  dsimp only
  split
  · exact ite_keepsEngine bad_keeps (ite_keepsEngine bad_keeps (ite_keepsEngine wait_keeps
      (State.modPart_keeps (bankWrite_keeps (moveToBank_keeps (landedBytes_keeps h))))))
  · trivial

theorem execGather_keeps {p q} (h : Keeps s₀ s) : KeepsNext s₀ (execGather p q s) :=
  runEngine_keeps (fun _ => Engine.out_keeps (gatherSteps_keeps h)) h
theorem gafferFrames_keeps {p} (h : Keeps s₀ s) : Keeps s₀ (gafferFrames s p) := ite_keeps h (foldl_keeps (fun _ _ hu => State.setPart_keeps hu) h)

theorem emitSteps_keeps {d tokens} (h : Keeps s₀ s) : EngineKeeps s₀ (KeepsOut s₀) (emitSteps d tokens s) := by
  unfold emitSteps
  dsimp only
  split
  · exact ite_keepsEngine bad_keeps (ite_keepsEngine wait_keeps (ite_keepsEngine h (State.setPart_keeps (ite_keeps (meetBank_keeps h) h))))
  · trivial

theorem awaitFrame_keeps {p q} (h : Keeps s₀ s) : Keeps s₀ (awaitFrame s p q) := State.modPart_keeps h

theorem execEmit_keeps {p q tokens} (h : Keeps s₀ s) : KeepsNext s₀ (execEmit p q tokens s) := by
  have hr : KeepsNext s₀ (runEngine s p q 7 0x0701 (fun d => handoverAt d.record 40 (vrefOf (recField d.record 24 4)).lc) (fun d s => (emitSteps d tokens s).out)) :=
    runEngine_keeps (fun _ => Engine.out_keeps (emitSteps_keeps h)) h
  unfold execEmit
  split
  · next t ht => exact awaitFrame_keeps (show KeepsNext s₀ (.next t) from ht ▸ hr)
  · exact hr

theorem noteStart_keeps {p stream} (h : Keeps s₀ s) : Keeps s₀ (noteStart s p stream) := State.modCsi_keeps h
theorem frameSent_keeps {p e done} (h : Keeps s₀ s) : Keeps s₀ (frameSent s p e done) := State.modPart_keeps h
theorem storeFrame_keeps {p e} (h : Keeps s₀ s) : Keeps s₀ (storeFrame s p e) := queueExport_keeps h
theorem sendFrameOut_keeps {p b e} (h : Keeps s₀ s) : Keeps s₀ (sendFrameOut s p b e) :=
  frameSent_keeps (noteStart_keeps (State.modTx_keeps (State.emit_keeps h)))
theorem dropSent_keeps {p e} (h : Keeps s₀ s) : Keeps s₀ (dropSent s p e) := State.modPart_keeps h

theorem execEmitFrameSend_keeps {p stream} (h : Keeps s₀ s) : KeepsNext s₀ (execEmitFrameSend p stream s) := by
  unfold execEmitFrameSend
  grind [sendFrameOut_keeps, storeFrame_keeps, frameSent_keeps, State.reach_keeps, dropSent_keeps, keepsNext_next]

theorem unbind_keeps {p stream f} (h : Keeps s₀ s) : Keeps s₀ (unbind s p stream f) :=
  foldl_keeps (fun _ _ hu => State.modCsi_keeps (ite_keeps hu (closeFrame_keeps hu))) h

theorem execStreamBind_keeps (h : Keeps s₀ s) : KeepsNext s₀ (execStreamBind s) := by
  unfold execStreamBind
  grind [answerBare_keeps, unbind_keeps, onDue_keeps, State.modCsi_keeps, keepsNext_next]

theorem execCsiTimeout_keeps (h : Keeps s₀ s) : KeepsNext s₀ (execCsiTimeout s) :=
  onDue_keeps (fun _ _ hu => answerBare_keeps (State.modCsi_keeps hu)) h

theorem execEvtMirror_keeps (h : Keeps s₀ s) : KeepsNext s₀ (execEvtMirror s) := by
  unfold execEvtMirror
  grind [answerBare_keeps, onDue_keeps, State.modEvents_keeps, keepsNext_next]

theorem execMirrorFrame_keeps (h : Keeps s₀ s) : KeepsNext s₀ (execMirrorFrame s) := by
  unfold execMirrorFrame
  grind [State.modTx_keeps, State.reach_keeps, State.modEvents_keeps, State.emit_keeps, keepsNext_next]

theorem execEvtCopy_keeps (h : Keeps s₀ s) : KeepsNext s₀ (execEvtCopy s) := onDue_keeps (fun _ _ hu => answerBare_keeps (State.modPort_keeps hu)) h
theorem execEvtCopyStop_keeps (h : Keeps s₀ s) : KeepsNext s₀ (execEvtCopyStop s) :=
  onDue_keeps (fun _ _ hu => answerBare_keeps (State.modPort_keeps hu)) h
theorem execLogMessageFill_keeps {x} (h : Keeps s₀ s) : KeepsNext s₀ (execLogMessageFill x s) :=
  ite_keepsNext (keepsNext_next (State.modPort_keeps h)) (keepsNext_next h)

/-! ### Boundary -/

theorem closeStep_keeps {p} (h : Keeps s₀ s) : Keeps s₀ (closeStep s p) := State.modPart_keeps (settleHolds_keeps h)
theorem diverge_keeps {p step mask} (h : Keeps s₀ s) : Keeps s₀ (diverge s p step mask) := State.event_keeps (State.modPart_keeps h)

theorem compareSupplied_keeps {p} (h : Keeps s₀ s) : Keeps s₀ (compareSupplied s p) := by
  unfold compareSupplied
  grind [diverge_keeps, catchUpFail_keeps]

theorem reentryFail_keeps {p cause} (h : Keeps s₀ s) : Keeps s₀ (reentryFail s p cause) :=
  ite_keeps (State.modPart_keeps (State.event_keeps h)) (sendPart_keeps (State.modPart_keeps (State.event_keeps h)))

theorem compareHolder_keeps {p} (h : Keeps s₀ s) : Keeps s₀ (compareHolder s p) := by
  unfold compareHolder
  grind [reentryFail_keeps, State.modClaim_keeps, State.event_keeps, foldl_keeps]

theorem noteBacklog_keeps {p} (h : Keeps s₀ s) : Keeps s₀ (noteBacklog s p) := by
  unfold noteBacklog
  grind [setClaim_keeps, State.modClaim_keeps, State.event_keeps]

theorem settleModule_keeps (h : Keeps s₀ s) : Keeps s₀ (settleModule s) :=
  ite_keeps (State.modPower_keeps (ite_keeps (State.modPower_keeps h) h)) (ite_keeps (State.modPower_keeps h) h)

theorem stopPart_keeps {p} (h : Keeps s₀ s) : Keeps s₀ (stopPart s p) := by
  unfold stopPart
  grind [settleModule_keeps, settleHolds_keeps, settleCores_keeps, State.modPart_keeps]

theorem yieldClaim_keeps {p} (h : Keeps s₀ s) : Keeps s₀ (yieldClaim s p) := setClaim_keeps (State.modClaim_keeps h)
theorem drainYield_keeps {p} (h : Keeps s₀ s) : Keeps s₀ (drainYield s p) := ite_keeps (yieldClaim_keeps h) h
theorem paceBoundary_keeps {p} (h : Keeps s₀ s) : Keeps s₀ (paceBoundary s p) := ite_keeps (State.reachStamp_keeps (coresWait_keeps h)) h

theorem raiseRefs_keeps {p} (h : Keeps s₀ s) : Keeps s₀ (raiseRefs s p) := by
  unfold raiseRefs
  grind [holdPages_keeps, State.modPart_keeps]

theorem sendSnapshot_keeps {p c} (h : Keeps s₀ s) : Keeps s₀ (sendSnapshot s p c) :=
  foldl_keeps (fun _ _ hu => sendPart_keeps hu) (foldl_keeps (fun _ _ hu => sendPart_keeps hu) h)
theorem skipCheckpoint_keeps {p skip} (h : Keeps s₀ s) : Keeps s₀ (skipCheckpoint s p skip) := State.event_keeps (recFlag_keeps h)

theorem takeCheckpoint_keeps {p} (h : Keeps s₀ s) : Keeps s₀ (takeCheckpoint s p) := by
  have hq : ∀ c bs, Keeps s₀ (queueExport ((recFlag (meetCapture s p) p 0).modPart p (fun x => { x with ckptNew := some c })) p 1 bs) :=
    fun _ _ => queueExport_keeps (State.modPart_keeps (recFlag_keeps (meetCapture_keeps h)))
  exact ite_keeps h (ite_keeps (sendSnapshot_keeps (State.modClaim_keeps (hq _ _))) (hq _ _))

theorem beginStep_keeps {p} (h : Keeps s₀ s) : Keeps s₀ (beginStep s p) := releaseStep_keeps (gafferFrames_keeps (State.modPart_keeps h))

theorem finishBoundary_keeps {p stamp seen} (h : Keeps s₀ s) : Keeps s₀ (finishBoundary s p stamp seen) := by
  have hm : Keeps s₀ (moveCarried s p).1 := moveCarried_keeps h
  unfold finishBoundary
  dsimp only
  split
  · exact hardStop_keeps hm
  · refine beginStep_keeps (writeDumps_keeps (State.reach_keeps (boundaryBeat_keeps (sendDecisions_keeps (prepareStep_keeps ?_)))))
    refine State.modPart_keeps (modRec_keeps ?_)
    have hc := fun f => takeCheckpoint_keeps (p := p) (State.modPart_keeps (p := p) (f := f) hm)
    split
    · exact advanceKeys_keeps (hc _)
    · exact hc _

theorem layoutEntries_keeps {p n changes} (h : Keeps s₀ s) : Keeps s₀ (layoutEntries s p n changes) :=
  foldl_keeps (fun _ _ hu => recFlag_keeps (recEntry_keeps hu)) h

theorem settleLayout_keeps {p cs} (h : Keeps s₀ s) (ht : settleLayout s p cs = some t) : Keeps s₀ t := by
  unfold settleLayout at ht
  obtain ⟨n, _, rfl⟩ := Option.map_eq_some_iff.mp ht
  refine foldl_keeps (fun u c hu => ?_) (layoutEntries_keeps (State.modPart_keeps h))
  split
  · exact fenceEvent_keeps hu
  · exact hu

theorem layoutActions_keeps {p stamp fail} (h : Keeps s₀ s) : Keeps s₀ (layoutActions s p stamp fail).1 := by
  unfold layoutActions
  grind [readmit_keeps, fenceEvent_keeps, recEntry_keeps, selfCheck_keeps, fenceCore_keeps, recFlag_keeps, State.modPart_keeps, foldl_keeps]

theorem decideBoundary_keeps {p src} (h : Keeps s₀ s) : Keeps s₀ (decideBoundary s p src).1.s := by
  unfold decideBoundary
  grind [raiseRefs_keeps, State.setPart_keeps, Bd.settle_keeps, Bd.decide_keeps, Bd.mapPart_keeps, Bd.map_keeps]

theorem takeBoundary_keeps {p src fail} (h : Keeps s₀ s) : Keeps s₀ (takeBoundary s p src fail) := by
  have hd : ∀ f, Keeps s₀ ((decideBoundary s p src).1.s.modPart p f) := fun _ => State.modPart_keeps (decideBoundary_keeps h)
  unfold takeBoundary
  dsimp only
  refine ite_keeps (ite_keeps (catchUpFail_keeps ?_) (diverge_keeps ?_)) ?_
  · split
    · exact skipCheckpoint_keeps (hd _)
    · exact hd _
  · split
    · exact skipCheckpoint_keeps (hd _)
    · exact hd _
  · split
    · next ht =>
      refine finishBoundary_keeps (settleLayout_keeps (layoutActions_keeps ?_) ht)
      split
      · exact skipCheckpoint_keeps (hd _)
      · exact hd _
    · refine noLayout_keeps (layoutActions_keeps ?_)
      split
      · exact skipCheckpoint_keeps (hd _)
      · exact hd _

theorem stopBoundary_keeps {p} (h : Keeps s₀ s) : Keeps s₀ (stopBoundary s p) := by
  unfold stopBoundary
  grind [advanceKeys_keeps, stopPart_keeps, enterClearing_keeps, drainYield_keeps]

theorem stopHeld_keeps {p} (h : Keeps s₀ s) : Keeps s₀ (stopHeld s p) := ite_keeps (stopBoundary_keeps h) h
theorem releaseRestored_keeps {p} (h : Keeps s₀ s) : Keeps s₀ (releaseRestored s p) :=
  beginStep_keeps (boundaryBeat_keeps (prepareStep_keeps (State.modPart_keeps (layoutEntries_keeps (State.modPart_keeps h)))))
theorem awaitPart_keeps {p} (h : Keeps s₀ s) : Keeps s₀ (awaitPart s p) := coresWait_keeps (State.modClaim_keeps h)

theorem reachBoundary_keeps {p fail} (h : Keeps s₀ s) : Keeps s₀ (reachBoundary s p fail) := by
  unfold reachBoundary
  grind [takeBoundary_keeps, awaitPart_keeps, drainYield_keeps, paceBoundary_keeps, stopBoundary_keeps, releaseRestored_keeps, State.modClaim_keeps,
    State.modPart_keeps]

theorem execStepBoundary_keeps {p i} (h : Keeps s₀ s) : KeepsNext s₀ (execStepBoundary p i s) := by
  unfold execStepBoundary
  grind [reachBoundary_keeps, noteBacklog_keeps, closeStep_keeps, compareHolder_keeps, State.reach_keeps, boundaryBeat_keeps, compareSupplied_keeps,
    keepsNext_next]

/-! ### Identity -/

theorem signIdentity_keeps {msg} (h : Keeps s₀ s) : Keeps s₀ (signIdentity s msg).2 := by
  unfold signIdentity
  grind [State.draw_keeps]

/-! ### I3c -/

theorem execSetdasa_keeps {x static addr} (h : Keeps s₀ s) : KeepsNext s₀ (execSetdasa x static addr s) :=
  ite_keepsNext (keepsNext_next (State.emit_keeps (State.modPort_keeps h))) (keepsNext_next (State.emit_keeps h))
theorem execRstdaa_keeps {x} (h : Keeps s₀ s) : KeepsNext s₀ (execRstdaa x s) := broadcastCcc_keeps (fun _ hu => State.modPort_keeps hu) h
theorem execGetpid_keeps {x} (h : Keeps s₀ s) : KeepsNext s₀ (execGetpid x s) := directCcc_keeps (fun _ hu => State.emit_keeps hu) h
theorem execGetbcr_keeps {x} (h : Keeps s₀ s) : KeepsNext s₀ (execGetbcr x s) := directCcc_keeps (fun _ hu => State.emit_keeps hu) h
theorem execGetdcr_keeps {x} (h : Keeps s₀ s) : KeepsNext s₀ (execGetdcr x s) := directCcc_keeps (fun _ hu => State.emit_keeps hu) h
theorem execGetstatus_keeps {x} (h : Keeps s₀ s) : KeepsNext s₀ (execGetstatus x s) :=
  directCcc_keeps (fun _ hu => State.emit_keeps (State.modPort_keeps hu)) h
theorem execSetmwl_keeps {f v} (h : Keeps s₀ s) : KeepsNext s₀ (execSetmwl f v s) :=
  formCcc_keeps (fun _ hu => ite_keeps (State.modPort_keeps hu) hu) h
theorem execSetmrl_keeps {f v} (h : Keeps s₀ s) : KeepsNext s₀ (execSetmrl f v s) :=
  formCcc_keeps (fun _ hu => ite_keeps (State.modPort_keeps hu) hu) h
theorem execGetmwl_keeps {x} (h : Keeps s₀ s) : KeepsNext s₀ (execGetmwl x s) := directCcc_keeps (fun _ hu => State.emit_keeps hu) h
theorem execGetmrl_keeps {x} (h : Keeps s₀ s) : KeepsNext s₀ (execGetmrl x s) := directCcc_keeps (fun _ hu => State.emit_keeps hu) h
theorem execGetmxds_keeps {x} (h : Keeps s₀ s) : KeepsNext s₀ (execGetmxds x s) := directCcc_keeps (fun _ hu => State.emit_keeps hu) h
theorem execRstactNoReset_keeps {f} (h : Keeps s₀ s) : KeepsNext s₀ (execRstactNoReset f s) :=
  ite_keepsNext (formCcc_keeps (fun _ hu => State.emit_keeps hu) h) (keepsNext_next (State.emit_keeps h))
theorem execRstactPortReset_keeps {f} (h : Keeps s₀ s) : KeepsNext s₀ (execRstactPortReset f s) :=
  formCcc_keeps (fun _ hu => State.emit_keeps (State.modPort_keeps hu)) h

theorem execRstactRecoveryEnd_keeps {x} (h : Keeps s₀ s) : KeepsNext s₀ (execRstactRecoveryEnd x s) := by
  unfold execRstactRecoveryEnd
  grind [State.modPort_keeps, State.reach_keeps, keepsNext_next]

theorem execEnec_keeps {f} (h : Keeps s₀ s) : KeepsNext s₀ (execEnec f s) := formCcc_keeps (fun _ hu => State.emit_keeps hu) h
theorem execDisec_keeps {f} (h : Keeps s₀ s) : KeepsNext s₀ (execDisec f s) := formCcc_keeps (fun _ hu => State.emit_keeps hu) h
theorem execEnthdr0_keeps {x} (h : Keeps s₀ s) : KeepsNext s₀ (execEnthdr0 x s) := broadcastCcc_keeps (fun _ hu => State.modPort_keeps hu) h
theorem execEnthdr3_keeps {x} (h : Keeps s₀ s) : KeepsNext s₀ (execEnthdr3 x s) := broadcastCcc_keeps (fun _ hu => State.modPort_keeps hu) h
theorem execEnthdrUnsupported_keeps {x} (h : Keeps s₀ s) : KeepsNext s₀ (execEnthdrUnsupported x s) :=
  broadcastCcc_keeps (fun _ hu => State.modPort_keeps hu) h
theorem execHdrExit_keeps {x} (h : Keeps s₀ s) : KeepsNext s₀ (execHdrExit x s) :=
  ite_keepsNext (keepsNext_next h) (keepsNext_next (State.modPort_keeps h))

/-! ### Tensor -/

theorem execNop_keeps {p q} (h : Keeps s₀ s) : KeepsNext s₀ (execNop p q s) := by
  unfold execNop
  split
  · exact runEngine_keeps (fun _ => h) h
  · exact h

theorem sizeCopyOp_keeps {d} (h : Keeps s₀ s) : KeepsOut s₀ (sizeCopyOp d s) := by
  unfold sizeCopyOp
  grind [bankWrite_keeps, wait_keepsOut, bad_keepsOut, done_keepsOut]

theorem execSizeCopy_keeps {p q} (h : Keeps s₀ s) : KeepsNext s₀ (execSizeCopy p q s) := runEngine_keeps (fun _ => sizeCopyOp_keeps h) h

theorem matmulSteps_keeps {d} (h : Keeps s₀ s) : EngineKeeps s₀ (KeepsOut s₀) (matmulSteps d s) := by
  refine sinkReady_keeps.bind fun _ _ => (gatherReads_keeps h).bind fun _ _ => (fetch_keeps h).bind fun _ ha => (fetch_keeps ha).bind fun _ hb => ?_
  exact EngineKeeps.bind (P := fun c : Plane × State => Keeps s₀ c.2) (ite_keepsEngine (fetch_keeps hb) hb) fun _ hc => storeResult_keeps hc

theorem execMatmul_keeps {p q} (h : Keeps s₀ s) : KeepsNext s₀ (execMatmul p q s) :=
  runEngine_keeps (fun _ => Engine.out_keeps (matmulSteps_keeps h)) h
theorem groupedOne_keeps {d g n c} (h : Keeps s₀ c.1) : EngineKeeps s₀ (fun c => Keeps s₀ c.1) (groupedOne d g n c) :=
  (fetch_keeps h).bind fun _ ha => (fetch_keeps ha).bind fun _ hb => storeResult_keeps hb

theorem groupedSteps_keeps {d} (h : Keeps s₀ s) : EngineKeeps s₀ (KeepsOut s₀) (groupedSteps d s) :=
  sinkReady_keeps.bind fun _ _ => (gatherReads_keeps h).bind fun _ _ =>
    (foldlM_keeps (P := fun c : State × Nat => Keeps s₀ c.1) (fun _ _ hc => groupedOne_keeps hc) h).bind fun _ hc => hc

theorem execGroupedMatmul_keeps {p q} (h : Keeps s₀ s) : KeepsNext s₀ (execGroupedMatmul p q s) :=
  runEngine_keeps (fun _ => Engine.out_keeps (groupedSteps_keeps h)) h

theorem reduceSources_keeps {d n rs} (h : Keeps s₀ s) : EngineKeeps s₀ (fun c => Keeps s₀ c.2) (reduceSources d n rs s) := by
  induction rs generalizing s with
  | nil => exact h
  | cons r rs ih => exact (fetch_keeps h).bind fun _ ha => (ih ha).bind fun _ hb => hb

theorem reduceSteps_keeps {d} (h : Keeps s₀ s) : EngineKeeps s₀ (KeepsOut s₀) (reduceSteps d s) :=
  sinkReady_keeps.bind fun _ _ => (gatherReads_keeps h).bind fun _ _ => (reduceSources_keeps h).bind fun _ ha => storeResult_keeps ha
theorem execReduce_keeps {p q} (h : Keeps s₀ s) : KeepsNext s₀ (execReduce p q s) :=
  runEngine_keeps (fun _ => Engine.out_keeps (reduceSteps_keeps h)) h

/-! ### Mailbox -/

theorem enterOrder_keeps {x m} (h : Keeps s₀ s) : Keeps s₀ (enterOrder s x m) :=
  ite_keeps (State.modOrders_keeps h) (ite_keeps (answerBare_keeps h) (State.modOrders_keeps h))

theorem execOrderWindowResolve_keeps (h : Keeps s₀ s) : KeepsNext s₀ (execOrderWindowResolve s) := by
  unfold execOrderWindowResolve
  split
  · exact h
  · next w _ =>
    split
    · exact h
    · next win _ =>
      have hl : ∀ f, Keeps s₀ ((losersOf w win).foldl (fun s t => answerBare s t 0x02) ((s.reachStamp (w.w + us 20)).modOrders f)) :=
        fun _ => foldl_keeps (fun _ _ hu => answerBare_keeps hu) (State.modOrders_keeps (State.reachStamp_keeps h))
      dsimp only
      exact ite_keepsNext (hl _) (foldl_keeps (fun _ _ hu => State.event_keeps hu) (State.event_keeps (hl _)))

theorem tallyRate_keeps {x} (h : Keeps s₀ s) : Keeps s₀ (tallyRate s x).2 := by
  unfold tallyRate
  grind [State.modPort_keeps]

theorem admitMsg_keeps {x bulk m} (h : Keeps s₀ s) : Keeps s₀ (admitMsg s x bulk m) := by
  unfold admitMsg
  grind [answerBare_keeps, enterOrder_keeps, tallyRate_keeps, State.modOrders_keeps]

theorem takePost_keeps {x bulk} (h : Keeps s₀ s) : Keeps s₀ (takePost s x bulk) := by
  unfold takePost
  grind [State.modPort_keeps, expireSession_keeps, State.setPort_keeps, answerBare_keeps, admitMsg_keeps]

theorem takeWaiting_keeps {x} (h : Keeps s₀ s) : Keeps s₀ (takeWaiting s x) :=
  ite_keeps (takePost_keeps (ite_keeps (takePost_keeps h) h)) (ite_keeps (takePost_keeps h) h)
theorem dataWrite_keeps {x bulk v} (h : Keeps s₀ s) : Keeps s₀ (dataWrite s x bulk v) := State.modPort_keeps h

theorem afterWindow_keeps (h : Keeps s₀ s) : Keeps s₀ (afterWindow s) := by
  unfold afterWindow
  grind [State.reach_keeps]

theorem postWrite_keeps {x bulk} (h : Keeps s₀ s) : Keeps s₀ (postWrite s x bulk) := takeWaiting_keeps (State.modPort_keeps (afterWindow_keeps h))
theorem takeRsp_keeps {x} (h : Keeps s₀ s) : Keeps s₀ (takeRsp s x) :=
  ite_keeps h (ite_keeps (takeWaiting_keeps (afterWindow_keeps (State.modPort_keeps h))) (State.modPort_keeps h))

theorem takeLog_keeps {x} (h : Keeps s₀ s) : Keeps s₀ (takeLog s x) := by
  unfold takeLog
  grind [State.modPort_keeps, State.modEvents_keeps]

theorem abortWrite_keeps {x bulk} (h : Keeps s₀ s) : Keeps s₀ (abortWrite s x bulk) := State.modPort_keeps h
theorem nextHiWrite_keeps {x v} (h : Keeps s₀ s) : Keeps s₀ (nextHiWrite s x v) :=
  ite_keeps h (ite_keeps (State.modPort_keeps h) (State.modTime_keeps h))

theorem regWrite_keeps {x off v} (h : Keeps s₀ s) : Keeps s₀ (regWrite s x off v) := by
  unfold regWrite
  grind [dataWrite_keeps, State.modPort_keeps, takeLog_keeps, abortWrite_keeps, takeRsp_keeps, postWrite_keeps, nextHiWrite_keeps]

theorem writeGroups_keeps {x off vs} (h : Keeps s₀ s) : Keeps s₀ (writeGroups s x off vs) := by
  induction vs generalizing s off with
  | nil => exact h
  | cons v vs ih => exact ih (regWrite_keeps h)

theorem privateWrite_keeps {x off data} (h : Keeps s₀ s) : Keeps s₀ (privateWrite s x off data) :=
  ite_keeps (State.modPort_keeps h) (ite_keeps (State.modPort_keeps h) (writeGroups_keeps h))
theorem execReadPointerSet_keeps {x offset} (h : Keeps s₀ s) : KeepsNext s₀ (execReadPointerSet x offset s) :=
  onPrivate_keeps (fun _ hu => privateWrite_keeps hu) h
theorem execRegisterWrite_keeps {x offset data damaged} (h : Keeps s₀ s) : KeepsNext s₀ (execRegisterWrite x offset data damaged s) :=
  onPrivate_keeps (fun _ hu => ite_keeps (State.modPort_keeps hu) (privateWrite_keeps hu)) h
theorem execMbxCmdDataWrite_keeps {x data} (h : Keeps s₀ s) : KeepsNext s₀ (execMbxCmdDataWrite x data s) :=
  onPrivate_keeps (fun _ hu => privateWrite_keeps hu) h
theorem execMbxBulkDataWrite_keeps {x data} (h : Keeps s₀ s) : KeepsNext s₀ (execMbxBulkDataWrite x data s) :=
  onPrivate_keeps (fun _ hu => privateWrite_keeps hu) h
theorem execMbxPostCmd_keeps {x} (h : Keeps s₀ s) : KeepsNext s₀ (execMbxPostCmd x s) := onPrivate_keeps (fun _ hu => regWrite_keeps hu) h
theorem execMbxPostBulk_keeps {x} (h : Keeps s₀ s) : KeepsNext s₀ (execMbxPostBulk x s) := onPrivate_keeps (fun _ hu => regWrite_keeps hu) h
theorem execMbxTakeRsp_keeps {x} (h : Keeps s₀ s) : KeepsNext s₀ (execMbxTakeRsp x s) := onPrivate_keeps (fun _ hu => regWrite_keeps hu) h
theorem execMbxTakeLog_keeps {x} (h : Keeps s₀ s) : KeepsNext s₀ (execMbxTakeLog x s) := onPrivate_keeps (fun _ hu => regWrite_keeps hu) h
theorem execMbxAbortCmd_keeps {x} (h : Keeps s₀ s) : KeepsNext s₀ (execMbxAbortCmd x s) := onPrivate_keeps (fun _ hu => regWrite_keeps hu) h
theorem execMbxAbortBulk_keeps {x} (h : Keeps s₀ s) : KeepsNext s₀ (execMbxAbortBulk x s) := onPrivate_keeps (fun _ hu => regWrite_keeps hu) h
theorem execTimeNextHiWrite_keeps {x v} (h : Keeps s₀ s) : KeepsNext s₀ (execTimeNextHiWrite x v s) :=
  onPrivate_keeps (fun _ hu => regWrite_keeps hu) h
theorem execDataRegisterRewind_keeps {x offset} (h : Keeps s₀ s) : KeepsNext s₀ (execDataRegisterRewind x offset s) :=
  ite_keepsNext (onPrivate_keeps (fun _ hu => privateWrite_keeps hu) h) (keepsNext_next h)

/-! ### Links -/

theorem freeUnits_keeps {n f} (h : Keeps s₀ s) : Keeps s₀ (freeUnits s n f) := by
  unfold freeUnits
  grind [State.modLink_keeps]

theorem endStep7_keeps (h : Keeps s₀ s) : Keeps s₀ (endStep7 s) := ite_keeps (State.modFw_keeps h) h

theorem setLink_keeps {n st} (h : Keeps s₀ s) : Keeps s₀ (setLink s n st) := by
  unfold setLink
  grind [State.modLink_keeps, freeUnits_keeps, endStep7_keeps, State.event_keeps, foldl_keeps]

theorem startTraining_keeps {n} (h : Keeps s₀ s) : Keeps s₀ (startTraining s n) := State.emit_keeps (State.modLink_keeps h)
theorem retrain_keeps {n} (h : Keeps s₀ s) : Keeps s₀ (retrain s n) :=
  ite_keeps (setLink_keeps (State.modLink_keeps h)) (startTraining_keeps (setLink_keeps (State.modLink_keeps h)))
theorem execSignalDetect_keeps {n} (h : Keeps s₀ s) : KeepsNext s₀ (execSignalDetect n s) :=
  ite_keepsNext (keepsNext_next (State.modLink_keeps (ite_keeps (setLink_keeps h) h))) (keepsNext_next h)
theorem execFecLock_keeps {n challenge} (h : Keeps s₀ s) : KeepsNext s₀ (execFecLock n challenge s) :=
  ite_keepsNext (keepsNext_next (State.emit_keeps (State.modLink_keeps (signIdentity_keeps (State.draw_keeps h))))) (keepsNext_next h)
theorem execTrainingRetry_keeps {n} (h : Keeps s₀ s) : KeepsNext s₀ (execTrainingRetry n s) :=
  ite_keepsNext (keepsNext_next (startTraining_keeps (setLink_keeps (State.reach_keeps h)))) (keepsNext_next h)
theorem execTrainingTimeout_keeps {n} (h : Keeps s₀ s) : KeepsNext s₀ (execTrainingTimeout n s) :=
  ite_keepsNext (keepsNext_next (retrain_keeps (State.reach_keeps h))) (keepsNext_next h)

theorem takeIdentity_keeps {n i} (h : Keeps s₀ s) : Keeps s₀ (takeIdentity s n i) := by
  unfold takeIdentity
  grind [State.modLink_keeps, setLink_keeps, State.event_keeps]

theorem execSlowPartner_keeps {n} (h : Keeps s₀ s) : KeepsNext s₀ (execSlowPartner n s) := by
  unfold execSlowPartner
  grind [State.modLink_keeps, State.reach_keeps, State.event_keeps, keepsNext_next]

theorem execSlowPartnerRetrain_keeps {n} (h : Keeps s₀ s) : KeepsNext s₀ (execSlowPartnerRetrain n s) := by
  unfold execSlowPartnerRetrain
  grind [State.reach_keeps, retrain_keeps, keepsNext_next]

theorem execFaultyPartner_keeps {n} (h : Keeps s₀ s) : KeepsNext s₀ (execFaultyPartner n s) :=
  ite_keepsNext (keepsNext_next (retrain_keeps h)) (keepsNext_next h)

theorem dropTurnFrame_keeps {n f} (h : Keeps s₀ s) : Keeps s₀ (dropTurnFrame s n f) := by
  unfold dropTurnFrame
  grind [State.modLink_keeps, freeUnits_keeps]

theorem noteWaiting_keeps {n} (h : Keeps s₀ s) : Keeps s₀ (noteWaiting s n) := State.modLink_keeps h
theorem emitEnvelope_keeps {n e} (h : Keeps s₀ s) : Keeps s₀ (emitEnvelope s n e) := State.emit_keeps (State.modLink_keeps h)

theorem sendNew_keeps {n f} (h : Keeps s₀ s) : Keeps s₀ (sendNew s n f) := by
  unfold sendNew
  grind [State.modLink_keeps, emitEnvelope_keeps, dropTurnFrame_keeps]

theorem turnEnvelope_keeps {n} (h : Keeps s₀ s) : Keeps s₀ (turnEnvelope s n) := by
  unfold turnEnvelope
  grind [State.modLink_keeps, emitEnvelope_keeps, sendNew_keeps]

theorem flushDiscards_keeps {n} (h : Keeps s₀ s) : Keeps s₀ (flushDiscards s n) := by
  unfold flushDiscards
  split
  · exact ite_keeps h (State.event_keeps (State.modLink_keeps h))
  · exact h

theorem execCalendarTurn_keeps {n} (h : Keeps s₀ s) : KeepsNext s₀ (execCalendarTurn n s) := by
  unfold execCalendarTurn
  grind [State.modLink_keeps, noteWaiting_keeps, copyOut_keeps, flushDiscards_keeps, turnEnvelope_keeps, keepsNext_next]

theorem hostile_keeps {n f} (h : Keeps s₀ s) : Keeps s₀ (hostile s n f) := by
  unfold hostile
  grind [State.modLink_keeps, freeUnits_keeps, flushDiscards_keeps, discard_keeps]

theorem takeFrame_keeps {n f} (h : Keeps s₀ s) : Keeps s₀ (takeFrame s n f) := by
  unfold takeFrame
  grind [State.modLink_keeps, freeUnits_keeps, hostile_keeps, discard_keeps, Keeps.update]

theorem ackSend_keeps {e} (h : Keeps s₀ s) : Keeps s₀ (ackSend s e) := by
  unfold ackSend
  grind [forParts_keeps, State.modPart_keeps]

theorem takeAck_keeps {n lack} (h : Keeps s₀ s) : Keeps s₀ (takeAck s n lack) := by
  unfold takeAck
  grind [State.modLink_keeps, ackSend_keeps, foldl_keeps]

theorem takeNak_keeps {n} (h : Keeps s₀ s) : Keeps s₀ (takeNak s n) := State.modLink_keeps h

theorem execEnvelopeReceive_keeps {n e} (h : Keeps s₀ s) : KeepsNext s₀ (execEnvelopeReceive n e s) := by
  unfold execEnvelopeReceive
  grind [State.modLink_keeps, takeNak_keeps, takeFrame_keeps, takeAck_keeps, retrain_keeps, keepsNext_next]

theorem compareFar_keeps {n} (h : Keeps s₀ s) : Keeps s₀ (compareFar s n) := by
  unfold compareFar
  grind [setLink_keeps]

theorem replanPort_keeps {n} (h : Keeps s₀ s) : Keeps s₀ (replanPort s n) := by
  unfold replanPort
  grind [State.modLink_keeps, setLink_keeps, compareFar_keeps, startTraining_keeps]

theorem execLinkPlan_keeps (h : Keeps s₀ s) : KeepsNext s₀ (execLinkPlan s) :=
  onDue_keeps (fun _ _ hu => ite_keeps (answerBare_keeps hu) (answerBare_keeps (forPorts_keeps (fun _ _ hv => replanPort_keeps hv) hu.update))) h
theorem execLinkShare_keeps (h : Keeps s₀ s) : KeepsNext s₀ (execLinkShare s) :=
  onDue_keeps (fun _ _ hu => ite_keeps (answerBare_keeps hu) (answerBare_keeps (foldl_keeps (fun _ _ hv => State.modLink_keeps hv) hu))) h

theorem dropTest_keeps {n} (h : Keeps s₀ s) : Keeps s₀ (dropTest s n) := by
  unfold dropTest
  grind [State.modLink_keeps, State.modLanes_keeps]

theorem execLinkPortDisable_keeps (h : Keeps s₀ s) : KeepsNext s₀ (execLinkPortDisable s) :=
  onDue_keeps (fun _ _ hu => answerBare_keeps (setLink_keeps (dropTest_keeps hu))) h
theorem execLinkPortEnable_keeps (h : Keeps s₀ s) : KeepsNext s₀ (execLinkPortEnable s) :=
  onDue_keeps (fun _ _ hu => answerBare_keeps (startTraining_keeps (setLink_keeps (dropTest_keeps hu)))) h

theorem beginTest_keeps {n seconds} (h : Keeps s₀ s) : Keeps s₀ (beginTest s n seconds) := by
  unfold beginTest
  grind [State.modLink_keeps, State.modLanes_keeps, setLink_keeps]

theorem execLinkPortTest_keeps (h : Keeps s₀ s) : KeepsNext s₀ (execLinkPortTest s) :=
  onDue_keeps (fun _ _ hu => answerBare_keeps (beginTest_keeps (State.modLink_keeps hu))) h

theorem execLinkTestEnd_keeps {n bitErrors laneErrors} (h : Keeps s₀ s) : KeepsNext s₀ (execLinkTestEnd n bitErrors laneErrors s) := by
  unfold execLinkTestEnd
  grind [State.modLink_keeps, State.modLanes_keeps, setLink_keeps, compareFar_keeps, State.reach_keeps, keepsNext_next]

theorem execIntervalTest_keeps {n} (h : Keeps s₀ s) : KeepsNext s₀ (execIntervalTest n s) := by
  unfold execIntervalTest
  grind [State.modLink_keeps, beginTest_keeps, State.reach_keeps, State.event_keeps, keepsNext_next]

/-! ### Jobs -/

theorem execLinkJob_keeps (h : Keeps s₀ s) : KeepsNext s₀ (execLinkJob s) :=
  onDue_keeps (fun _ _ hu => ite_keeps (answerBare_keeps hu) (answerBare_keeps (State.modPart_keeps hu))) h
theorem sendControl_keeps {typ place ring payload} (h : Keeps s₀ s) : Keeps s₀ (sendControl s typ place ring payload) := sendFrame_keeps h

theorem drawPair_keeps (h : Keeps s₀ s) : Keeps s₀ (drawPair s).2.2 := by
  unfold drawPair
  grind [State.draw_keeps]

theorem sendHello_keeps {p i} (h : Keeps s₀ s) : Keeps s₀ (sendHello s p i) := by
  unfold sendHello
  grind [drawPair_keeps, modKeysOf_keeps, sendControl_keeps]

theorem execKeyAgreementStart_keeps {p} (h : Keeps s₀ s) : KeepsNext s₀ (execKeyAgreementStart p s) := by
  unfold execKeyAgreementStart
  grind [sendHello_keeps, keepsNext_next]

theorem agreementFail_keeps {p i cause} (h : Keeps s₀ s) : Keeps s₀ (agreementFail s p i cause) := State.event_keeps (modKeysOf_keeps h)

theorem takeInbox_keeps {f e} (h : Keeps s₀ s) (ht : takeInbox s f = some (e, t)) : Keeps s₀ t := by
  unfold takeInbox at ht
  split at ht
  · obtain ⟨rfl, rfl⟩ : _ ∧ _ := by simpa using ht
    exact freeUnits_keeps h.update
  · cases ht

theorem onFrame_keeps {typ f} (hf : ∀ n g u, Keeps s₀ u → Keeps s₀ (f n g u)) (h : Keeps s₀ s) : KeepsNext s₀ (onFrame s typ f) := by
  unfold onFrame
  split
  · exact hf _ _ _ (takeInbox_keeps h ‹_›)
  · exact h

theorem execKaHello_keeps (h : Keeps s₀ s) : KeepsNext s₀ (execKaHello s) := by
  refine onFrame_keeps (fun n g u hu => ?_) h
  split
  · exact hu
  · split
    · exact hu
    · exact ite_keeps (agreementFail_keeps hu) (ite_keeps (agreementFail_keeps hu)
        (sendControl_keeps (modKeysOf_keeps (signIdentity_keeps (drawPair_keeps hu)))))

theorem execKaReply_keeps (h : Keeps s₀ s) : KeepsNext s₀ (execKaReply s) := by
  unfold execKaReply
  grind [onFrame_keeps, modKeysOf_keeps, signIdentity_keeps, agreementFail_keeps, sendControl_keeps, keepsNext_next]

theorem execKaConfirm_keeps (h : Keeps s₀ s) : KeepsNext s₀ (execKaConfirm s) := by
  unfold execKaConfirm
  grind [onFrame_keeps, modKeysOf_keeps, agreementFail_keeps, keepsNext_next]

theorem execKaRetryTimeout_keeps {p i} (h : Keeps s₀ s) : KeepsNext s₀ (execKaRetryTimeout p i s) := by
  unfold execKaRetryTimeout
  grind [modKeysOf_keeps, agreementFail_keeps, sendControl_keeps, State.reach_keeps, keepsNext_next]

theorem execKaRetryInterval_keeps {p i} (h : Keeps s₀ s) : KeepsNext s₀ (execKaRetryInterval p i s) := by
  unfold execKaRetryInterval
  grind [modKeysOf_keeps, sendHello_keeps, State.reach_keeps, keepsNext_next]

theorem execJobKeyRekey_keeps {p i} (h : Keeps s₀ s) : KeepsNext s₀ (execJobKeyRekey p i s) := by
  unfold execJobKeyRekey
  grind [sendHello_keeps, keepsNext_next]

theorem execOldKeyidExpiry_keeps {p i} (h : Keeps s₀ s) : KeepsNext s₀ (execOldKeyidExpiry p i s) := by
  unfold execOldKeyidExpiry
  grind [modKeysOf_keeps, State.reach_keeps, keepsNext_next]

theorem execGcmFailTeardown_keeps {p i} (h : Keeps s₀ s) : KeepsNext s₀ (execGcmFailTeardown p i s) := by
  unfold execGcmFailTeardown
  grind [modKeysOf_keeps, sendHello_keeps, State.event_keeps, keepsNext_next]

theorem gcmFailed_keeps {n w} (h : Keeps s₀ s) : Keeps s₀ (gcmFailed s n w) := by
  unfold gcmFailed
  grind [State.modLink_keeps, modKeysOf_keeps]

theorem openJob_keeps {n f} (h : Keeps s₀ s) : Keeps s₀ (openJob s n f).2 := by
  unfold openJob
  grind [gcmFailed_keeps, modKeysOf_keeps]

theorem onJobFrame_keeps {typ f} (hf : ∀ n g p i bs u, Keeps s₀ u → Keeps s₀ (f n g p i bs u)) (h : Keeps s₀ s) :
    KeepsNext s₀ (onJobFrame s typ f) := by
  unfold onJobFrame
  split
  · exact h
  · next e t ht =>
    have hu := openJob_keeps (n := e.1) (f := e.2) (takeInbox_keeps h ht)
    split <;> simp_all [KeepsNext]

theorem placeFrame_keeps {p r f pt} (h : Keeps s₀ s) : Keeps s₀ (placeFrame s p r f pt) := by
  unfold placeFrame
  grind [bankWrite_keeps, State.modPart_keeps]

theorem execJobData_keeps (h : Keeps s₀ s) : KeepsNext s₀ (execJobData s) := by
  unfold execJobData
  grind [onJobFrame_keeps, placeFrame_keeps, keepsNext_next]

theorem execRingCredit_keeps (h : Keeps s₀ s) : KeepsNext s₀ (execRingCredit s) := by
  unfold execRingCredit
  grind [onFrame_keeps, State.modPart_keeps, keepsNext_next]

theorem returnCredit_keeps {p i ring} (h : Keeps s₀ s) : Keeps s₀ (returnCredit s p i ring) := by
  unfold returnCredit
  grind [sendFrame_keeps]

theorem linkSent_keeps {p i ring bs} (h : Keeps s₀ s) : Keeps s₀ (linkSent s p i ring bs) := State.modPart_keeps (sendMessage_keeps h)
theorem linkSendSteps_keeps {d} (h : Keeps s₀ s) : EngineKeeps s₀ (KeepsOut s₀) (linkSendSteps d s) :=
  transferBank_keeps.bind fun _ _ => ite_keepsEngine wait_keeps (linkSent_keeps (meetBank_keeps h))
theorem awaitHop_keeps {p q} (h1 : Keeps s₀ t) : Keeps s₀ (awaitHop s t p q) := ite_keeps h1 (State.modPart_keeps h1)

theorem execLinkSend_keeps {p q} (h : Keeps s₀ s) : KeepsNext s₀ (execLinkSend p q s) := by
  have hr : KeepsNext s₀ (runEngine s p q 5 0x0510 (fun d => handoverAt d.record 40 d.desc.inst) (fun d s => (linkSendSteps d s).out)) :=
    runEngine_keeps (fun _ => Engine.out_keeps (linkSendSteps_keeps h)) h
  unfold execLinkSend
  split
  · next t ht => exact awaitHop_keeps (show KeepsNext s₀ (.next t) from ht ▸ hr)
  · exact hr

theorem slotFreed_keeps {p i ring rest} (h : Keeps s₀ s) : Keeps s₀ (slotFreed s p i ring rest) := returnCredit_keeps (State.modPart_keeps h)

theorem linkRecvSteps_keeps {d} (h : Keeps s₀ s) : EngineKeeps s₀ (KeepsOut s₀) (linkRecvSteps d s) := by
  refine transferBank_keeps.bind fun _ _ => ?_
  split
  · split
    · exact slotFreed_keeps (moveToBank_keeps (meetBank_keeps h))
    · trivial
  · trivial

theorem execLinkRecv_keeps {p q} (h : Keeps s₀ s) : KeepsNext s₀ (execLinkRecv p q s) :=
  runEngine_keeps (fun _ => Engine.out_keeps (linkRecvSteps_keeps h)) h

theorem modStream_keeps {p n f} (h : Keeps s₀ s) : Keeps s₀ (modStream s p n f) := by
  unfold modStream
  grind [State.modCsi_keeps]

theorem execLinkIngressCopy_keeps (h : Keeps s₀ s) : KeepsNext s₀ (execLinkIngressCopy s) :=
  onDue_keeps (fun _ _ hu => answerBare_keeps (modStream_keeps hu)) h
theorem execLinkIngressBind_keeps (h : Keeps s₀ s) : KeepsNext s₀ (execLinkIngressBind s) :=
  onDue_keeps (fun _ _ hu => answerBare_keeps (modStream_keeps hu)) h
theorem execLinkIngressRemove_keeps (h : Keeps s₀ s) : KeepsNext s₀ (execLinkIngressRemove s) :=
  onDue_keeps (fun _ _ hu => answerBare_keeps (modStream_keeps hu)) h

theorem landCopy_keeps {p n src bs} (h : Keeps s₀ s) : Keeps s₀ (landCopy s p n src bs) := by
  unfold landCopy
  grind [bankWrite_keeps, State.modPart_keeps]

theorem execIngressCopy_keeps (h : Keeps s₀ s) : KeepsNext s₀ (execIngressCopy s) := by
  unfold execIngressCopy
  grind [onJobFrame_keeps, landCopy_keeps, State.modPart_keeps, keepsNext_next]

/-! ### WindowUnit -/

theorem haloFetch_keeps {p c bytes} (h : Keeps s₀ s) : Keeps s₀ (haloFetch s p c bytes).2 := by
  unfold haloFetch
  grind [State.setPart_keeps]

theorem haloRead_keeps {d g} (h : Keeps s₀ s) : EngineKeeps s₀ (fun c => Keeps s₀ c.2.2) (haloRead d g s) :=
  coreBank_keeps.bind fun _ _ => (gatherItems_keeps h).bind fun _ _ => haloFetch_keeps (haloFetch_keeps (meetBank_keeps h))

theorem haloSend_keeps {p c key f} (h : Keeps s₀ s) : EngineKeeps s₀ (fun c => Keeps s₀ c.2) (haloSend s p c key f) := by
  unfold haloSend
  split
  · exact h
  · dsimp only
    split
    · trivial
    · exact State.setPart_keeps h

theorem haloWrite_keeps {d g row} (h : Keeps s₀ s) : EngineKeeps s₀ (fun c => Keeps s₀ c.2) (haloWrite d g row s) :=
  (haloSend_keeps h).bind fun _ ha => (haloSend_keeps ha).bind fun _ hb => hb

theorem haloRoom_keeps {d g} : EngineKeeps s₀ (fun _ => True) (haloRoom d g s) := by
  unfold haloRoom
  dsimp only
  split
  · trivial
  · exact ite_keepsEngine trivial wait_keeps

theorem dwconvSteps_keeps {d} (h : Keeps s₀ s) : EngineKeeps s₀ (KeepsOut s₀) (dwconvSteps d s) :=
  coreBank_keeps.bind fun _ _ => coreBank_keeps.bind fun _ _ => haloRoom_keeps.bind fun _ _ => (haloRead_keeps h).bind fun _ ha =>
    (haloWrite_keeps ha).bind fun _ hb => storeResult_keeps (ite_keeps (meetBank_keeps (meetBank_keeps hb)) (meetBank_keeps hb))

theorem execDwconv_keeps {p q} (h : Keeps s₀ s) : KeepsNext s₀ (execDwconv p q s) :=
  runEngine_keeps (fun _ => Engine.out_keeps (dwconvSteps_keeps h)) h

theorem patchStore_keeps {d g ss} (h : Keeps s₀ s) : Keeps s₀ (patchStore s d g ss) := by
  unfold patchStore
  grind [moveToBank_keeps, State.setPart_keeps]

theorem wgatherSteps_keeps {d} (h : Keeps s₀ s) : EngineKeeps s₀ (KeepsOut s₀) (wgatherSteps d s) :=
  sinkReady_keeps.bind fun _ _ => haloRoom_keeps.bind fun _ _ => (haloRead_keeps h).bind fun _ ha => (haloWrite_keeps ha).bind fun _ hb =>
    patchStore_keeps hb

theorem execWgather_keeps {p q} (h : Keeps s₀ s) : KeepsNext s₀ (execWgather p q s) :=
  runEngine_keeps (fun _ => Engine.out_keeps (wgatherSteps_keeps h)) h

theorem poolSteps_keeps {isMax d} (h : Keeps s₀ s) : EngineKeeps s₀ (KeepsOut s₀) (poolSteps isMax d s) :=
  coreBank_keeps.bind fun _ _ => haloRoom_keeps.bind fun _ _ => (haloRead_keeps h).bind fun _ ha => (haloWrite_keeps ha).bind fun _ hb =>
    storeResult_keeps hb

theorem execPoolMax_keeps {p q} (h : Keeps s₀ s) : KeepsNext s₀ (execPoolMax p q s) :=
  runEngine_keeps (fun _ => Engine.out_keeps (poolSteps_keeps h)) h
theorem execPoolMin_keeps {p q} (h : Keeps s₀ s) : KeepsNext s₀ (execPoolMin p q s) :=
  runEngine_keeps (fun _ => Engine.out_keeps (poolSteps_keeps h)) h

theorem globalAvgSteps_keeps {d} (h : Keeps s₀ s) : EngineKeeps s₀ (KeepsOut s₀) (globalAvgSteps d s) := by
  refine coreBank_keeps.bind fun _ _ => coreBank_keeps.bind fun _ _ => ?_
  refine EngineKeeps.bind (P := fun c : Plane × State => Keeps s₀ c.2) (ite_keepsEngine h ?_) fun _ ha => storeResult_keeps (meetBank_keeps ha)
  exact coreBank_keeps.bind fun _ _ => meetBank_keeps h

theorem execGlobalAvg_keeps {p q} (h : Keeps s₀ s) : KeepsNext s₀ (execGlobalAvg p q s) :=
  runEngine_keeps (fun _ => Engine.out_keeps (globalAvgSteps_keeps h)) h

theorem argMeets_keeps {g ib xb vb fb} (h : Keeps s₀ s) : Keeps s₀ (argMeets s g ib xb vb fb) := by
  unfold argMeets
  grind [meetBank_keeps]

theorem argStore_keeps {d g picks} (h : Keeps s₀ s) : Keeps s₀ (argStore s d g picks) := by
  unfold argStore
  grind [storeResult_keeps]

theorem argmaxSteps_keeps {d} (h : Keeps s₀ s) : EngineKeeps s₀ (KeepsOut s₀) (argmaxSteps d s) :=
  coreBank_keeps.bind fun _ _ => coreBank_keeps.bind fun _ _ =>
    EngineKeeps.bind (P := fun _ => True) (ite_keepsEngine coreBank_keeps trivial) fun _ _ =>
      EngineKeeps.bind (P := fun _ => True) (ite_keepsEngine coreBank_keeps trivial) fun _ _ => argStore_keeps (argMeets_keeps h)

theorem execArgmaxCh_keeps {p q} (h : Keeps s₀ s) : KeepsNext s₀ (execArgmaxCh p q s) :=
  runEngine_keeps (fun _ => Engine.out_keeps (argmaxSteps_keeps h)) h

/-! ### Steps -/

theorem execCheckpointComplete_keeps {p} (h : Keeps s₀ s) : KeepsNext s₀ (execCheckpointComplete p s) := by
  unfold execCheckpointComplete
  grind [settleModule_keeps, pumpExport_keeps, waits_keeps, State.modPart_keeps, stopHeld_keeps, State.event_keeps, keepsNext_next]

theorem execStepStall_keeps {p} (h : Keeps s₀ s) : KeepsNext s₀ (execStepStall p s) :=
  ite_keepsNext (keepsNext_next (State.event_keeps (State.modPart_keeps (State.reach_keeps h)))) (keepsNext_next h)

theorem execHardStop_keeps {c} (h : Keeps s₀ s) : KeepsNext s₀ (execHardStop c s) := by
  unfold execHardStop
  grind [hardStop_keeps, keepsNext_next]

theorem zeroCoreBanks_keeps {c} (h : Keeps s₀ s) : Keeps s₀ (zeroCoreBanks s c) := foldl_keeps (fun _ _ hu => bankZero_keeps hu) h

theorem rejoinHeld_keeps {p c} (h : Keeps s₀ s) : Keeps s₀ (rejoinHeld s p c) := by
  have hr : Keeps s₀ (readmit p (fun t => pickLayout t (t.part p)) 1 s [c]).1 := readmit_keeps h
  have hm := fun f => State.modPart_keeps (p := p) (f := f) hr
  unfold rejoinHeld
  dsimp only
  refine ite_keeps hr ?_
  split
  · exact fenceEvent_keeps (hm _)
  · refine ite_keeps ?_ (finishBoundary_keeps (fenceEvent_keeps (ite_keeps (hm _) (layoutEntries_keeps (hm _)))))
    split
    · exact releaseRestored_keeps (putCarried_keeps (fenceEvent_keeps (ite_keeps (hm _) (layoutEntries_keeps (hm _)))))
    · exact releaseRestored_keeps (fenceEvent_keeps (ite_keeps (hm _) (layoutEntries_keeps (hm _))))

theorem rejoinArmed_keeps {p c} (h : Keeps s₀ s) : Keeps s₀ (rejoinArmed s p c) := by
  unfold rejoinArmed
  grind [readmit_keeps, moveOrStop_keeps, fenceEvent_keeps, State.modPart_keeps]

theorem execGloryHolePass_keeps {c failStage} (h : Keeps s₀ s) : KeepsNext s₀ (execGloryHolePass c failStage s) := by
  unfold execGloryHolePass
  grind [zeroCoreBanks_keeps, State.modCore_keeps, rejoinArmed_keeps, fenceEvent_keeps, rejoinHeld_keeps, State.event_keeps, keepsNext_next]

/-! ### Partitions -/

theorem answerPart_keeps {t status code cond place} (h : Keeps s₀ s) : Keeps s₀ (answerPart s t status code cond place) := answer_keeps h

theorem execPartAssign_keeps (h : Keeps s₀ s) : KeepsNext s₀ (execPartAssign s) := by
  unfold execPartAssign
  grind [answerBare_keeps, enterClearing_keeps, onPart_keeps, State.modPart_keeps, keepsNext_next]

theorem execPartRelease_keeps (h : Keeps s₀ s) : KeepsNext s₀ (execPartRelease s) :=
  onPart_keeps (fun _ _ _ hu => ite_keeps (answerBare_keeps hu) (answerBare_keeps (State.modPart_keeps hu))) h
theorem setLoad_keeps {p code detail} (h : Keeps s₀ s) : Keeps s₀ (setLoad s p code detail) := State.modPart_keeps h

theorem execPartLoad_keeps {img} (h : Keeps s₀ s) : KeepsNext s₀ (execPartLoad img s) := by
  unfold execPartLoad
  grind [answerPart_keeps, State.modCluster_keeps, answerBare_keeps, setLoad_keeps, onPart_keeps, State.modPart_keeps, foldl_keeps, keepsNext_next]

theorem armNow_keeps {p img flags layout spill length} (h : Keeps s₀ s) : Keeps s₀ (armNow s p img flags layout spill length) := by
  unfold armNow
  grind [closeContexts_keeps, settleHolds_keeps, writeLists_keeps, writeOwners_keeps, State.modPart_keeps, armKv_keeps]

theorem armReplay_keeps {p layout u} (h : Keeps s₀ s) : Keeps s₀ (armReplay s p layout u) := by
  unfold armReplay
  grind [setClaim_keeps, restore_keeps, State.modPart_keeps]

theorem execPartArm_keeps {supply} (h : Keeps s₀ s) : KeepsNext s₀ (execPartArm supply s) := by
  refine onPart_keeps (fun q p u hu => ?_) h
  dsimp only
  split
  · exact answerBare_keeps hu
  · refine ite_keeps (answerBare_keeps hu) (ite_keeps (answerBare_keeps hu) ?_)
    split
    · exact answerPart_keeps (setLoad_keeps hu)
    · refine ite_keeps (answerPart_keeps hu) (ite_keeps (answerBare_keeps hu) ?_)
      split
      · exact answerBare_keeps hu
      · exact ite_keeps (answerBare_keeps hu) (answerPart_keeps (ite_keeps (armReplay_keeps (armNow_keeps hu)) (armNow_keeps hu)))

theorem beginRun_keeps {p} (h : Keeps s₀ s) : Keeps s₀ (beginRun s p) :=
  ite_keeps (State.modPower_keeps (State.modPart_keeps (settleHolds_keeps h))) (State.modPart_keeps (settleHolds_keeps h))

theorem execPartStart_keeps (h : Keeps s₀ s) : KeepsNext s₀ (execPartStart s) := by
  unfold execPartStart
  grind [answerPart_keeps, answerBare_keeps, setLoad_keeps, onPart_keeps, beginRun_keeps, keepsNext_next]

theorem wantStop_keeps {p unload} (h : Keeps s₀ s) : Keeps s₀ (wantStop s p unload) :=
  ite_keeps (stopBoundary_keeps (State.modPart_keeps h)) (State.modPart_keeps h)
theorem execPartStop_keeps (h : Keeps s₀ s) : KeepsNext s₀ (execPartStop s) :=
  onPart_keeps (fun _ _ _ hu => ite_keeps (answerBare_keeps (wantStop_keeps hu)) (answerBare_keeps hu)) h

theorem execPartUnload_keeps (h : Keeps s₀ s) : KeepsNext s₀ (execPartUnload s) := by
  unfold execPartUnload
  grind [answerBare_keeps, enterClearing_keeps, onPart_keeps, wantStop_keeps, keepsNext_next]

/-! ### Claims -/

theorem raiseTo_keeps {p v} (h : Keeps s₀ s) : Keeps s₀ (raiseTo s p v) :=
  ite_keeps h (ite_keeps (State.event_keeps h) (setClaim_keeps (State.modClaim_keeps (State.event_keeps h))))
theorem takeLead_keeps {p} (h : Keeps s₀ s) : Keeps s₀ (takeLead s p) := State.modPart_keeps h
theorem raiseClaim_keeps {p v} (h : Keeps s₀ s) : Keeps s₀ (raiseClaim s p v) := ite_keeps (raiseTo_keeps h) (takeLead_keeps (raiseTo_keeps h))
theorem enterGlory_keeps {p} (h : Keeps s₀ s) : Keeps s₀ (enterGlory s p) := yieldClaim_keeps (State.modPart_keeps h)
theorem askReentry_keeps {p} (h : Keeps s₀ s) : Keeps s₀ (askReentry s p) := sendPart_keeps (State.modClaim_keeps h)
theorem startReentry_keeps {p} (h : Keeps s₀ s) : Keeps s₀ (startReentry s p) := askReentry_keeps (enterGlory_keeps h)
theorem demote_keeps {p c place} (h : Keeps s₀ s) : Keeps s₀ (demote s p c place) := startReentry_keeps (State.event_keeps (State.modClaim_keeps h))
theorem observe_keeps {p c place} (h : Keeps s₀ s) : Keeps s₀ (observe s p c place) :=
  ite_keeps (demote_keeps (State.modClaim_keeps h)) (State.modClaim_keeps h)
theorem loseHolder_keeps {p} (h : Keeps s₀ s) : Keeps s₀ (loseHolder s p) :=
  ite_keeps (raiseClaim_keeps h) (ite_keeps (reentryFail_keeps (State.modClaim_keeps h)) (State.modPart_keeps h))
theorem execHeartbeatTimer_keeps {p} (h : Keeps s₀ s) : KeepsNext s₀ (execHeartbeatTimer p s) :=
  ite_keepsNext (keepsNext_next (sendBeat_keeps (State.reach_keeps h))) (keepsNext_next h)

theorem noteBeat_keeps {p hd} (h : Keeps s₀ s) : Keeps s₀ (noteBeat s p hd) := by
  unfold noteBeat
  grind [State.modClaim_keeps]

theorem execHeartbeatReceive_keeps {hd} (h : Keeps s₀ s) : KeepsNext s₀ (execHeartbeatReceive hd s) := by
  unfold execHeartbeatReceive
  grind [observe_keeps, loseHolder_keeps, noteBeat_keeps, State.modLanes_keeps, keepsNext_next]

theorem execHolderLost_keeps {p} (h : Keeps s₀ s) : KeepsNext s₀ (execHolderLost p s) := by
  unfold execHolderLost
  grind [loseHolder_keeps, State.reach_keeps, keepsNext_next]

theorem execPeerRxSyncLost_keeps (h : Keeps s₀ s) : KeepsNext s₀ (execPeerRxSyncLost s) := keepsNext_next (State.modLanes_keeps h)
theorem execPeerRxSyncGained_keeps (h : Keeps s₀ s) : KeepsNext s₀ (execPeerRxSyncGained s) := keepsNext_next (State.modLanes_keeps h)

theorem onPartFrame_keeps {kind f} (hf : ∀ p bs u, Keeps s₀ u → Keeps s₀ (f p bs u)) (h : Keeps s₀ s) :
    KeepsNext s₀ (onPartFrame s kind f) := by
  unfold onPartFrame
  split
  · exact h
  · next e t ht =>
    have hu := openJob_keeps (n := e.1) (f := e.2) (takeInbox_keeps h ht)
    grind [State.modPart_keeps, keepsNext_next]

theorem takeDecisions_keeps {p bs} (h : Keeps s₀ s) : Keeps s₀ (takeDecisions s p bs) := State.modPart_keeps h
theorem execDecisionPart_keeps (h : Keeps s₀ s) : KeepsNext s₀ (execDecisionPart s) :=
  onPartFrame_keeps (fun _ _ _ hu => ite_keeps (takeDecisions_keeps (observe_keeps hu)) (observe_keeps hu)) h

theorem standUp_keeps {p} (h : Keeps s₀ s) : Keeps s₀ (standUp s p) := by
  unfold standUp
  grind [beginRun_keeps, armNow_keeps]

theorem restoreSnapshot_keeps {p c} (h : Keeps s₀ s) : Keeps s₀ (restoreSnapshot s p c) := by
  unfold restoreSnapshot
  grind [standUp_keeps, restore_keeps, State.modPart_keeps]

theorem execSnapshotSection_keeps (h : Keeps s₀ s) : KeepsNext s₀ (execSnapshotSection s) := by
  unfold execSnapshotSection
  grind [restoreSnapshot_keeps, State.modClaim_keeps, onPartFrame_keeps, keepsNext_next]

theorem addKept_keeps {p e data} (h : Keeps s₀ s) : Keeps s₀ (addKept s p e data) := by
  unfold addKept
  grind [State.modPart_keeps]

theorem execSnapshotJournal_keeps (h : Keeps s₀ s) : KeepsNext s₀ (execSnapshotJournal s) :=
  onPartFrame_keeps (fun _ _ _ hu => ite_keeps hu (ite_keeps (reentryFail_keeps hu) (addKept_keeps hu))) h
theorem execReentryRequest_keeps (h : Keeps s₀ s) : KeepsNext s₀ (execReentryRequest s) :=
  onPartFrame_keeps (fun _ _ _ hu => ite_keeps (State.modClaim_keeps hu) hu) h

theorem execFollowerUnmatched_keeps {p} (h : Keeps s₀ s) : KeepsNext s₀ (execFollowerUnmatched p s) := by
  unfold execFollowerUnmatched
  grind [startReentry_keeps, State.reach_keeps, reentryFail_keeps, keepsNext_next]

theorem execClaimPair_keeps (h : Keeps s₀ s) : KeepsNext s₀ (execClaimPair s) := by
  unfold execClaimPair
  grind [answerBare_keeps, onDue_keeps, sendBeat_keeps, State.modClaim_keeps, keepsNext_next]

theorem execClaimYield_keeps (h : Keeps s₀ s) : KeepsNext s₀ (execClaimYield s) :=
  onDue_keeps (fun _ _ hu => ite_keeps (answerBare_keeps (yieldClaim_keeps hu)) (answerBare_keeps hu)) h

theorem execClaimRaise_keeps (h : Keeps s₀ s) : KeepsNext s₀ (execClaimRaise s) := by
  unfold execClaimRaise
  grind [answerBare_keeps, raiseClaim_keeps, onDue_keeps, raiseTo_keeps, keepsNext_next]

theorem execClaimUnpair_keeps (h : Keeps s₀ s) : KeepsNext s₀ (execClaimUnpair s) :=
  onDue_keeps (fun _ _ hu => ite_keeps (answerBare_keeps hu) (answerBare_keeps (State.modPart_keeps hu))) h
theorem execClaimReenter_keeps (h : Keeps s₀ s) : KeepsNext s₀ (execClaimReenter s) :=
  onDue_keeps (fun _ _ hu => ite_keeps (answerBare_keeps hu) (answerBare_keeps (startReentry_keeps (State.modClaim_keeps hu)))) h

/-! ### Maintenance -/

theorem poisonUnit_keeps {k off} (h : Keeps s₀ s) : Keeps s₀ (poisonUnit s k off) :=
  ite_keeps (foundUnit_keeps h) (ite_keeps h (foundUnit_keeps (stackMark_keeps h)))
theorem correctUnit_keeps {k u} (h : Keeps s₀ s) : Keeps s₀ (correctUnit s k u) :=
  ite_keeps (State.event_keeps (State.modCluster_keeps h.update)) (State.modCluster_keeps h.update)

theorem advanceScrub_keeps {k} (h : Keeps s₀ s) : Keeps s₀ (advanceScrub s k) := by
  unfold advanceScrub
  grind [State.modCluster_keeps, State.event_keeps]

theorem execHbmScrub_keeps {k corrected uncorrectable} (h : Keeps s₀ s) : KeepsNext s₀ (execHbmScrub k corrected uncorrectable s) := by
  unfold execHbmScrub
  grind [advanceScrub_keeps, poisonUnit_keeps, correctUnit_keeps, foldl_keeps, keepsNext_next]

theorem sweepDone_keeps {k} (h : Keeps s₀ s) : Keeps s₀ (sweepDone s k) := by
  unfold sweepDone
  grind [State.modCluster_keeps, State.event_keeps, foldl_keeps]

theorem execKeySweep_keeps {k uncorrectable} (h : Keeps s₀ s) : KeepsNext s₀ (execKeySweep k uncorrectable s) := by
  unfold execKeySweep
  grind [sweepDone_keeps, State.modCluster_keeps, poisonUnit_keeps, meetStack_keeps, foldl_keeps, Keeps.update, keepsNext_next]

/-! ### Power -/

theorem setSelfRefresh_keeps {b} (h : Keeps s₀ s) : Keeps s₀ (setSelfRefresh s b) := forClusters_keeps (fun _ _ hu => State.modCluster_keeps hu) h

theorem enterQuench_keeps {cause} (h : Keeps s₀ s) : Keeps s₀ (enterQuench s cause) := by
  unfold enterQuench
  grind [forParts_keeps, settleHolds_keeps, setSelfRefresh_keeps, yieldClaim_keeps, State.modThermal_keeps, State.modPower_keeps, State.event_keeps]

theorem leaveQuench_keeps (h : Keeps s₀ s) : Keeps s₀ (leaveQuench s) := by
  unfold leaveQuench
  grind [settleModule_keeps, forParts_keeps, settleHolds_keeps, setSelfRefresh_keeps, State.modPart_keeps, State.modPower_keeps]

theorem descentEvent_keeps {kind idx reading ended} (h : Keeps s₀ s) : Keeps s₀ (descentEvent s kind idx reading ended) := State.event_keeps h
theorem beginDescent_keeps {kind idx reading} (h : Keeps s₀ s) : Keeps s₀ (beginDescent s kind idx reading) :=
  ite_keeps h (descentEvent_keeps (State.modPower_keeps (State.modThermal_keeps (settleHolds_keeps h))))
theorem setLevel_keeps {l mv} (h : Keeps s₀ s) : Keeps s₀ (setLevel s l mv) :=
  ite_keeps (State.event_keeps (State.modPower_keeps h)) (State.modPower_keeps h)
theorem execSupplyWarning_keeps {mv} (h : Keeps s₀ s) : KeepsNext s₀ (execSupplyWarning mv s) :=
  ite_keepsNext (keepsNext_next h) (keepsNext_next (setLevel_keeps (State.modPower_keeps h)))
theorem execSupplyWarningEnd_keeps {mv} (h : Keeps s₀ s) : KeepsNext s₀ (execSupplyWarningEnd mv s) :=
  ite_keepsNext (keepsNext_next h) (keepsNext_next (setLevel_keeps (State.modPower_keeps h)))
theorem execHoldLevelLeft_keeps {mv} (h : Keeps s₀ s) : KeepsNext s₀ (execHoldLevelLeft mv s) :=
  ite_keepsNext (keepsNext_next h) (keepsNext_next (setLevel_keeps h))
theorem beginSupplyHold_keeps (h : Keeps s₀ s) : Keeps s₀ (beginSupplyHold s) :=
  ite_keeps h (ite_keeps (State.modPower_keeps h) (State.modThermal_keeps (State.modPower_keeps (settleHolds_keeps h))))
theorem execSupplyHold_keeps {mv} (h : Keeps s₀ s) : KeepsNext s₀ (execSupplyHold mv s) :=
  ite_keepsNext (keepsNext_next h) (keepsNext_next (beginSupplyHold_keeps (setLevel_keeps (State.modPower_keeps h))))
theorem execStackSelfRefresh_keeps (h : Keeps s₀ s) : KeepsNext s₀ (execStackSelfRefresh s) :=
  ite_keepsNext (keepsNext_next (setSelfRefresh_keeps h)) (keepsNext_next h)
theorem execSupplyReset_keeps (h : Keeps s₀ s) : KeepsNext s₀ (execSupplyReset s) :=
  ite_keepsNext (keepsNext_next h) (keepsNext_next (offState_keeps (State.reach_keeps h)))
theorem execOverVoltage_keeps {mv} (h : Keeps s₀ s) : KeepsNext s₀ (execOverVoltage mv s) :=
  ite_keepsNext (keepsNext_next h) (keepsNext_next (State.event_keeps (State.modPower_keeps h)))
theorem execRegulatorFault_keeps {rail deviation} (h : Keeps s₀ s) : KeepsNext s₀ (execRegulatorFault rail deviation s) :=
  ite_keepsNext (keepsNext_next h) (keepsNext_next (enterQuench_keeps (State.modPower_keeps (State.event_keeps h))))

theorem sendPulled_keeps (h : Keeps s₀ s) : Keeps s₀ (sendPulled s) := by
  unfold sendPulled
  grind [State.modLanes_keeps, forParts_keeps, State.modClaim_keeps, sendBeatAs_keeps]

theorem cutTransmit_keeps (h : Keeps s₀ s) : Keeps s₀ (cutTransmit s) :=
  forPorts_keeps (fun _ _ hu => ite_keeps (State.modTx_keeps (State.emit_keeps hu)) hu) (State.modCsi_keeps h)

theorem execPrsntLoss_keeps (h : Keeps s₀ s) : KeepsNext s₀ (execPrsntLoss s) := by
  unfold execPrsntLoss
  grind [enterQuench_keeps, forParts_keeps, sendPulled_keeps, cutTransmit_keeps, State.modPart_keeps, State.modPower_keeps, State.event_keeps,
    keepsNext_next]

theorem setCap_keeps {target ramp} (h : Keeps s₀ s) : Keeps s₀ (setCap s target ramp) :=
  ite_keeps (State.modPower_keeps h) (ite_keeps (State.modPower_keeps h) (State.modPower_keeps (settleHolds_keeps h)))
theorem execPwrCap_keeps (h : Keeps s₀ s) : KeepsNext s₀ (execPwrCap s) := onDue_keeps (fun _ _ hu => answerBare_keeps (setCap_keeps hu)) h

theorem execPwrDrainEnter_keeps (h : Keeps s₀ s) : KeepsNext s₀ (execPwrDrainEnter s) := by
  unfold execPwrDrainEnter
  grind [settleModule_keeps, answerBare_keeps, forParts_keeps, onDue_keeps, stopHeld_keeps, State.modPower_keeps, keepsNext_next]

theorem execPwrDrainLeave_keeps (h : Keeps s₀ s) : KeepsNext s₀ (execPwrDrainLeave s) :=
  onDue_keeps (fun _ _ hu => ite_keeps (answerBare_keeps hu) (answerBare_keeps (State.modPower_keeps hu))) h
theorem execPwrQuench_keeps (h : Keeps s₀ s) : KeepsNext s₀ (execPwrQuench s) := onDue_keeps (fun _ _ hu => answerBare_keeps (enterQuench_keeps hu)) h
theorem execPwrQuenchClear_keeps (h : Keeps s₀ s) : KeepsNext s₀ (execPwrQuenchClear s) :=
  onDue_keeps (fun _ _ hu => ite_keeps (answerBare_keeps hu) (ite_keeps (answerBare_keeps hu) (answerBare_keeps (leaveQuench_keeps hu)))) h
theorem execThmCoolant_keeps (h : Keeps s₀ s) : KeepsNext s₀ (execThmCoolant s) :=
  onDue_keeps (fun _ _ hu => answerBare_keeps (State.modThermal_keeps hu)) h
theorem clearPair_keeps {c} (h : Keeps s₀ s) : Keeps s₀ (clearPair s c) := State.modCore_keeps h
theorem execThmSensorClear_keeps (h : Keeps s₀ s) : KeepsNext s₀ (execThmSensorClear s) :=
  onDue_keeps (fun _ _ hu => answerBare_keeps (forCores_keeps (fun _ _ hv => ite_keeps (clearPair_keeps hv) hv) hu)) h

/-! ### Start -/

theorem wipeKeys_keeps {p} (h : Keeps s₀ s) : Keeps s₀ (wipeKeys s p) := by
  unfold wipeKeys
  grind [State.modPart_keeps, State.modKeys_keeps]

theorem wipeVault_keeps {cause} (h : Keeps s₀ s) : Keeps s₀ (wipeVault s cause) := by
  unfold wipeVault
  grind [settleModule_keeps, State.modCluster_keeps, enterClearing_keeps, forParts_keeps, State.modSecurity_keeps, wipeKeys_keeps, yieldClaim_keeps,
    forClusters_keeps, State.event_keeps]

theorem bootRom_keeps {i} (h : Keeps s₀ s) : Keeps s₀ (bootRom s i) :=
  ite_keeps (State.modFw_keeps h)
    (State.modSecurity_keeps (ite_keeps (wipeVault_keeps (State.modFw_keeps h).tamper) (State.modFw_keeps h)))

theorem runBoot_keeps (h : Keeps s₀ s) : Keeps s₀ (runBoot s) := by
  unfold runBoot
  split
  · exact ite_keeps (bootRom_keeps h.straps) h
  · exact h

theorem execStart_keeps {i} (h : Keeps s₀ s) : KeepsNext s₀ (execStart i s) := by
  have hb : Keeps s₀ ((((offState s).modPower (fun w => { w with state := .boot, supplyMv := i.supplyMv, level := .normal })).modFw
      (fun f => { f with startIn := some i, powerAt := s.now })).modTime (fun t => { t with ref := i.refclk }) |>.modSecurity
        (fun v => { v with extTamper := i.tamperLow })) :=
    State.modSecurity_keeps (State.modTime_keeps (State.modFw_keeps (State.modPower_keeps (offState_keeps h))))
  exact ite_keepsNext h (runBoot_keeps (ite_keeps (wipeVault_keeps hb) hb))

theorem execPrsntMate_keeps (h : Keeps s₀ s) : KeepsNext s₀ (execPrsntMate s) :=
  ite_keepsNext (keepsNext_next (runBoot_keeps (State.modPower_keeps h))) (keepsNext_next (State.modPower_keeps h))

theorem trainStacks_keeps {i} (h : Keeps s₀ s) : Keeps s₀ (trainStacks s i) := by
  unfold trainStacks
  grind [forCores_keeps, State.modSecurity_keeps, fenceFor_keeps, forClusters_keeps, newMemoryKey_keeps, State.modFw_keeps, State.modEvents_keeps,
    State.event_keeps, Keeps.update]

theorem runFirmware_keeps {i} (h : Keeps s₀ s) : Keeps s₀ (runFirmware s i) := by
  unfold runFirmware
  grind [trainStacks_keeps, forPorts_keeps, startTraining_keeps, State.modFw_keeps, State.modPower_keeps]

theorem clearCounts_keeps (h : Keeps s₀ s) : Keeps s₀ (clearCounts s) := by
  unfold clearCounts
  exact State.modFw_keeps (State.modEvents_keeps (State.modLanes_keeps (forPorts_keeps (fun _ _ hu => State.modLink_keeps hu) (State.modCsi_keeps
    (State.modSecurity_keeps (State.modPower_keeps (State.modTime_keeps (State.modOrders_keeps
      (forI3c_keeps (fun _ _ hu => State.modPort_keeps hu) h)))))))))

theorem enterHold_keeps (h : Keeps s₀ s) : Keeps s₀ (enterHold s) := by
  unfold enterHold
  grind [enterQuench_keeps, clearCounts_keeps, State.modFw_keeps, State.modPower_keeps, State.event_keeps]

theorem settleStart_keeps (h : Keeps s₀ s) : Keeps s₀ (settleStart s) :=
  ite_keeps h (ite_keeps (enterHold_keeps (endStep7_keeps h)) (endStep7_keeps h))

theorem execStartTimeLockTimeout_keeps (h : Keeps s₀ s) : KeepsNext s₀ (execStartTimeLockTimeout s) := by
  unfold execStartTimeLockTimeout
  grind [enterHold_keeps, settleStart_keeps, State.reach_keeps, keepsNext_next]

theorem restartBase_keeps (h : Keeps s₀ s) : Keeps s₀ (restartBase s) := by
  have ho := offState_keeps h
  unfold restartBase
  exact forI3c_keeps (fun _ _ hu => ite_keeps (endSession_keeps hu) hu) ho.update

theorem retakePosts_keeps (h : Keeps s₀ s) : Keeps s₀ (retakePosts s) := forI3c_keeps (fun _ _ hu => takeWaiting_keeps hu) h
theorem restartRom_keeps (h : Keeps s₀ s) : Keeps s₀ (restartRom s) :=
  retakePosts_keeps (State.modSecurity_keeps (State.modFw_keeps (restartBase_keeps h)))

theorem restartWith_keeps {hd} (h : Keeps s₀ s) : Keeps s₀ (restartWith s hd) := by
  unfold restartWith
  grind [retakePosts_keeps, State.modSecurity_keeps, restartBase_keeps, State.modFw_keeps, runFirmware_keeps]

theorem execTamperLoopOpen_keeps (h : Keeps s₀ s) : KeepsNext s₀ (execTamperLoopOpen s) :=
  ite_keepsNext (keepsNext_next h) (keepsNext_next (wipeVault_keeps (State.modSecurity_keeps h)))
theorem execLidTamper_keeps {mesh} (h : Keeps s₀ s) : KeepsNext s₀ (execLidTamper mesh s) :=
  ite_keepsNext h (State.event_keeps (restartRom_keeps (wipeVault_keeps h.tamper)))

/-! ### Stores -/

theorem requestBlocks_keeps {p q block n} (h : Keeps s₀ s) : Keeps s₀ (requestBlocks s p q block n) :=
  foldl_keeps (fun _ _ hu => ite_keeps (openRequest_keeps hu) (failRequest_keeps hu)) h

theorem landBlocks_keeps {p addr block n rs} (h : Keeps s₀ s) : Keeps s₀ (landBlocks s p addr block n rs).1 := by
  refine foldl_fst_keeps (fun c i hc => ?_) h
  have hp := foldl_keeps (as := List.range 1024) (fun u j hu => bankMark_keeps (w := (addr + i * blockBytes) / 64 + j) hu) hc
  grind [bankWrite_keeps]

theorem storeReadTry_keeps {d} (h : Keeps s₀ s) : KeepsStore s₀ (storeReadTry d s) := by
  unfold storeReadTry
  dsimp only
  split
  · trivial
  · exact h
  · split
    · split
      · exact h
      · exact requestBlocks_keeps h
    · split
      · exact h
      · exact landBlocks_keeps (dropRequests_keeps h)

theorem writeBlocks_keeps {p q block n data} (h : Keeps s₀ s) : Keeps s₀ (writeBlocks s p q block n data) := sealBlocks_keeps h

theorem storeWriteTry_keeps {d} (h : Keeps s₀ s) : KeepsStore s₀ (storeWriteTry d s) := by
  unfold storeWriteTry
  dsimp only
  split
  · trivial
  · exact h
  · split
    · exact writeBlocks_keeps (meetBank_keeps h)
    · split
      · exact h
      · exact dropRequests_keeps h

theorem runStore_keeps {p q opcode op} (ho : ∀ d, KeepsStore s₀ (op d s)) (h : Keeps s₀ s) : KeepsNext s₀ (runStore s p q opcode op) := by
  unfold runStore
  split
  · exact h
  · next d _ =>
    have hd := ho d
    split
    · split <;> simp_all only [KeepsStore]
      · exact waits_keeps hd
      · trivial
      · exact issue_keeps hd
    · exact waits_keeps h

theorem execStoreRead_keeps {p q} (h : Keeps s₀ s) : KeepsNext s₀ (execStoreRead p q s) := runStore_keeps (fun _ => storeReadTry_keeps h) h
theorem execStoreWrite_keeps {p q} (h : Keeps s₀ s) : KeepsNext s₀ (execStoreWrite p q s) := runStore_keeps (fun _ => storeWriteTry_keeps h) h
theorem continueExports_keeps (h : Keeps s₀ s) : Keeps s₀ (continueExports s) := forParts_keeps (fun _ _ hu => pumpExport_keeps hu) h.update

theorem execStoreWrAck_keeps (h : Keeps s₀ s) : KeepsNext s₀ (execStoreWrAck s) := by
  unfold execStoreWrAck
  grind [onFrame_keeps, continueExports_keeps, modRequest_keeps, keepsNext_next]

theorem execStepExport_keeps {p} (h : Keeps s₀ s) : KeepsNext s₀ (execStepExport p s) := by
  unfold execStepExport
  dsimp only
  split
  · refine ite_keepsNext h (ite_keepsNext (waits_keeps (pumpExport_keeps h)) ?_)
    exact queueExport_keeps (State.modPart_keeps (ite_keeps (State.event_keeps h) h))
  · exact h

/-! ### Firmware -/

theorem answerFw_keeps {t status cause tail} (h : Keeps s₀ s) : Keeps s₀ (answerFw s t status cause tail) := answer_keeps (State.modFw_keeps h)
theorem answerCause_keeps {t cause tail} (h : Keeps s₀ s) : Keeps s₀ (answerCause s t cause tail) := answerFw_keeps h

theorem onFw_keeps {x typ ok f} (hf : ∀ q u, Keeps s₀ u → Keeps s₀ (f q u)) (h : Keeps s₀ s) : KeepsNext s₀ (onFw s x typ ok f) := by
  unfold onFw
  split
  · exact h
  · exact onTaken_keeps (fun _ _ hu => ite_keeps (answerBare_keeps hu) (hf _ _ (State.modFw_keeps hu))) h

theorem dropLoad_keeps {loadState} (h : Keeps s₀ s) : Keeps s₀ (dropLoad s loadState) := by
  unfold dropLoad
  grind [answerCause_keeps, dropRequests_keeps, State.modFw_keeps]

theorem failPull_keeps {cause} (h : Keeps s₀ s) : Keeps s₀ (failPull s cause) := State.modFw_keeps (dropLoad_keeps h)
theorem openLoad_keeps {l} (h : Keeps s₀ s) : Keeps s₀ (openLoad s l) := State.modFw_keeps (dropLoad_keeps h)
theorem execFwBeginBlocks_keeps {x} (h : Keeps s₀ s) : KeepsNext s₀ (execFwBeginBlocks x s) :=
  onFw_keeps (fun _ _ hu => ite_keeps (answerCause_keeps hu) (answerCause_keeps (openLoad_keeps hu))) h
theorem pullRange_keeps {l off n} (h : Keeps s₀ s) : Keeps s₀ (pullRange s l off n) := openRequest_keeps h

theorem beginPull_keeps {l} (h : Keeps s₀ s) : Keeps s₀ (beginPull s l) := by
  unfold beginPull
  grind [answerCause_keeps, State.modFw_keeps, pullRange_keeps]

theorem settlePull_keeps (h : Keeps s₀ s) : Keeps s₀ (settlePull s) := by
  unfold settlePull
  grind [beginPull_keeps]

theorem execFwBeginPull_keeps {x} (h : Keeps s₀ s) : KeepsNext s₀ (execFwBeginPull x s) := by
  unfold execFwBeginPull
  grind [openLoad_keeps, answerCause_keeps, beginPull_keeps, onFw_keeps, failPull_keeps, startTraining_keeps, keepsNext_next]

theorem takePulled_keeps (h : Keeps s₀ s) : Keeps s₀ (takePulled s) := foldl_keeps (fun _ _ hu => dropRequests_keeps (State.modFw_keeps hu)) h

theorem pullRequests_keeps {n} (h : Keeps s₀ s) : Keeps s₀ (pullRequests n s) := by
  induction n generalizing s with
  | zero => exact h
  | succ n ih =>
    unfold pullRequests
    split
    · exact ite_keeps (ih (State.modFw_keeps (pullRange_keeps h))) h
    · exact h

theorem continuePull_keeps (h : Keeps s₀ s) : Keeps s₀ (continuePull s) := by
  unfold continuePull
  grind [takePulled_keeps, failPull_keeps, State.modFw_keeps, pullRequests_keeps]

theorem execFwBlock_keeps {x} (h : Keeps s₀ s) : KeepsNext s₀ (execFwBlock x s) := by
  unfold execFwBlock
  grind [answerCause_keeps, answerBare_keeps, onFw_keeps, State.modFw_keeps, keepsNext_next]

theorem execFwEnd_keeps {x} (h : Keeps s₀ s) : KeepsNext s₀ (execFwEnd x s) := by
  unfold execFwEnd
  grind [answerCause_keeps, burn_keeps, onFw_keeps, State.modFw_keeps, dropLoad_keeps, runFirmware_keeps, keepsNext_next]

theorem execFwLoadTimeout_keeps (h : Keeps s₀ s) : KeepsNext s₀ (execFwLoadTimeout s) := by
  unfold execFwLoadTimeout
  grind [State.reach_keeps, dropLoad_keeps, keepsNext_next]

theorem dropEphemeral_keeps (h : Keeps s₀ s) : Keeps s₀ (dropEphemeral s) := forParts_keeps (fun _ _ hu => State.modKeys_keeps hu) h

theorem switchTo_keeps {hd} (h : Keeps s₀ s) : Keeps s₀ (switchTo s hd) := by
  unfold switchTo
  grind [dropEphemeral_keeps, burn_keeps, forParts_keeps, endSession_keeps, forI3c_keeps, State.modFw_keeps, State.modPart_keeps, State.event_keeps]

theorem activate_keeps {t mode} (h : Keeps s₀ s) : Keeps s₀ (activate s t mode) := by
  unfold activate
  grind [answerCause_keeps, burn_keeps, switchTo_keeps, answerFw_keeps, restartWith_keeps, State.modFw_keeps]

theorem execFwActivateBoundary_keeps {x} (h : Keeps s₀ s) : KeepsNext s₀ (execFwActivateBoundary x s) :=
  onFw_keeps (fun _ _ hu => activate_keeps hu) h
theorem execFwActivateRestart_keeps {x} (h : Keeps s₀ s) : KeepsNext s₀ (execFwActivateRestart x s) := onFw_keeps (fun _ _ hu => activate_keeps hu) h

theorem execDeferredActivation_keeps (h : Keeps s₀ s) : KeepsNext s₀ (execDeferredActivation s) := by
  unfold execDeferredActivation
  grind [burn_keeps, switchTo_keeps, restartWith_keeps, State.modFw_keeps, State.event_keeps, keepsNext_next]

theorem execFwWithdrawDeferred_keeps {x} (h : Keeps s₀ s) : KeepsNext s₀ (execFwWithdrawDeferred x s) :=
  onFw_keeps (fun _ _ hu => answerCause_keeps (ite_keeps (State.modFw_keeps hu) hu)) h
theorem execFwWithdrawLoad_keeps {x} (h : Keeps s₀ s) : KeepsNext s₀ (execFwWithdrawLoad x s) :=
  ite_keepsNext (keepsNext_next h) (onTaken_keeps (fun _ _ hu => answerCause_keeps (State.modFw_keeps (dropLoad_keeps hu))) h)

theorem execPartnerIdentity_keeps {n i} (h : Keeps s₀ s) : KeepsNext s₀ (execPartnerIdentity n i s) := by
  unfold execPartnerIdentity
  grind [settleStart_keeps, takeIdentity_keeps, settlePull_keeps, failPull_keeps, keepsNext_next]

theorem execSupplyHoldEnd_keeps (h : Keeps s₀ s) : KeepsNext s₀ (execSupplyHoldEnd s) := by
  unfold execSupplyHoldEnd
  split
  · next t _ =>
    have hu : Keeps s₀ ((settleHolds (s.reach (t + ms 10))).modPower (fun w => { w with supplyHeld := false })) :=
      State.modPower_keeps (settleHolds_keeps (State.reach_keeps h))
    have hv := ite_keeps (c := ((settleHolds (s.reach (t + ms 10))).modPower (fun w => { w with supplyHeld := false })).power.state = .boot)
      (continuePull_keeps (runBoot_keeps hu)) hu
    exact ite_keepsNext h (ite_keeps hv (setSelfRefresh_keeps hv))
  · exact h

/-! ### Heat -/

theorem estimateCore_keeps {c} (h : Keeps s₀ s) : Keeps s₀ (estimateCore s c).2 := by
  unfold estimateCore
  grind [State.draw_keeps]

theorem readCore_keeps {r c} (h : Keeps s₀ s) : Keeps s₀ (readCore s r c) :=
  ite_keeps (State.event_keeps (State.setCore_keeps h)) (State.setCore_keeps h)

theorem pairCore_keeps {c} (h : Keeps s₀ s) : Keeps s₀ (pairCore s c) := by
  unfold pairCore
  grind [State.modCore_keeps, estimateCore_keeps]

theorem readStacks_keeps {r} (h : Keeps s₀ s) : Keeps s₀ (readStacks s r) := by
  unfold readStacks
  grind [State.draw_keeps, State.modThermal_keeps]

theorem readCoolant_keeps {r} (h : Keeps s₀ s) : Keeps s₀ (readCoolant s r) := State.modThermal_keeps h
theorem capCluster_keeps {k} (h : Keeps s₀ s) : Keeps s₀ (capCluster s k) := ite_keeps h (State.event_keeps (State.modThermal_keeps h))

theorem readAll_keeps {rd} (h : Keeps s₀ s) : Keeps s₀ (readAll s rd) := by
  unfold readAll
  dsimp only
  refine State.modPower_keeps (State.modThermal_keeps (forClusters_keeps (fun _ _ hu => capCluster_keeps hu) (readCoolant_keeps (readStacks_keeps
    (forCores_keeps (fun _ _ hu => pairCore_keeps hu) (forCores_keeps (fun _ _ hu => readCore_keeps hu)
      (foldl_keeps (fun _ _ hu => addBitError_keeps hu) ?_)))))))
  split
  · exact State.modSecurity_keeps h
  · exact h

theorem execPairSuspect_keeps {c} (h : Keeps s₀ s) : KeepsNext s₀ (execPairSuspect c s) :=
  ite_keepsNext (keepsNext_next h) (keepsNext_next (State.event_keeps (State.modCore_keeps (ite_keeps (State.draw_keeps h) h))))
theorem quenchHeat_keeps (h : Keeps s₀ s) : Keeps s₀ (quenchHeat s) :=
  ite_keeps (enterQuench_keeps h) (ite_keeps (enterQuench_keeps h) (ite_keeps (enterQuench_keeps h) h))
theorem descentHeat_keeps (h : Keeps s₀ s) : Keeps s₀ (descentHeat s) := ite_keeps (beginDescent_keeps h) (ite_keeps (beginDescent_keeps h) h)

theorem trackDescent_keeps (h : Keeps s₀ s) : Keeps s₀ (trackDescent s) := by
  unfold trackDescent
  grind [State.modThermal_keeps, State.modPower_keeps]

theorem execCoreHotDescent_keeps {c} (h : Keeps s₀ s) : KeepsNext s₀ (execCoreHotDescent c s) :=
  ite_keepsNext (keepsNext_next h) (keepsNext_next (beginDescent_keeps h))

theorem execDescentEnd_keeps (h : Keeps s₀ s) : KeepsNext s₀ (execDescentEnd s) := by
  unfold execDescentEnd
  grind [descentEvent_keeps, settleHolds_keeps, State.modThermal_keeps, State.reach_keeps, State.modPower_keeps, keepsNext_next]

theorem capCycle_keeps (h : Keeps s₀ s) : Keeps s₀ (capCycle s) := State.modPower_keeps h
theorem endShed_keeps (h : Keeps s₀ s) : Keeps s₀ (endShed s) := ite_keeps (State.event_keeps (State.modPower_keeps (settleHolds_keeps h))) h

theorem countLow_keeps {before c} (h : Keeps s₀ s) : Keeps s₀ (countLow s before c) := by
  unfold countLow
  grind [State.modCore_keeps]

theorem voltageCycle_keeps (h : Keeps s₀ s) : Keeps s₀ (voltageCycle s) := forCores_keeps (fun _ _ hu => countLow_keeps hu) (State.modPower_keeps h)
theorem execFloorMiss_keeps {c} (h : Keeps s₀ s) : KeepsNext s₀ (execFloorMiss c s) :=
  ite_keepsNext (keepsNext_next h) (keepsNext_next (fenceFor_keeps (State.event_keeps (State.modCore_keeps h))))

theorem rampCore_keeps {c} (h : Keeps s₀ s) : Keeps s₀ (rampCore s c) := by
  unfold rampCore
  grind [State.draw_keeps, State.modCore_keeps, State.event_keeps]

theorem lehrCycle_keeps (h : Keeps s₀ s) : Keeps s₀ (lehrCycle s) := by
  unfold lehrCycle
  grind [forCores_keeps, rampCore_keeps, State.modThermal_keeps]

theorem flowCycle_keeps (h : Keeps s₀ s) : Keeps s₀ (flowCycle s) := State.modThermal_keeps h
theorem coolantCycle_keeps (h : Keeps s₀ s) : Keeps s₀ (coolantCycle s) := State.modThermal_keeps h
theorem coolantEvent_keeps {flag cleared} (h : Keeps s₀ s) : Keeps s₀ (coolantEvent s flag cleared) := State.event_keeps h

theorem execFlowLow_keeps (h : Keeps s₀ s) : KeepsNext s₀ (execFlowLow s) := by
  unfold execFlowLow
  grind [State.modThermal_keeps, State.reach_keeps, coolantEvent_keeps, keepsNext_next]

theorem execInletOut_keeps (h : Keeps s₀ s) : KeepsNext s₀ (execInletOut s) := by
  unfold execInletOut
  grind [State.modThermal_keeps, State.reach_keeps, coolantEvent_keeps, keepsNext_next]

theorem clearCoolant_keeps {t flag} (h : Keeps s₀ s) : Keeps s₀ (clearCoolant s t flag) :=
  coolantEvent_keeps (State.modThermal_keeps (State.reach_keeps h))

theorem execCoolantFlagClear_keeps (h : Keeps s₀ s) : KeepsNext s₀ (execCoolantFlagClear s) := by
  unfold execCoolantFlagClear
  grind [clearCoolant_keeps, keepsNext_next]

theorem latchCycle_keeps (h : Keeps s₀ s) : Keeps s₀ (latchCycle s) := State.modPower_keeps h
theorem throttleCycle_keeps (h : Keeps s₀ s) : Keeps s₀ (throttleCycle s) := State.modThermal_keeps h

theorem execTeaserCycle_keeps {rd} (h : Keeps s₀ s) : KeepsNext s₀ (execTeaserCycle rd s) :=
  ite_keepsNext h (settleStart_keeps (throttleCycle_keeps (latchCycle_keeps (lehrCycle_keeps (endShed_keeps (voltageCycle_keeps (capCycle_keeps
    (coolantCycle_keeps (flowCycle_keeps (trackDescent_keeps (descentHeat_keeps (quenchHeat_keeps (readAll_keeps (State.modPower_keeps
      (settleHolds_keeps (State.reach_keeps h))))))))))))))))

/-! ### PartOrders -/

theorem execSeedSet_keeps (h : Keeps s₀ s) : KeepsNext s₀ (execSeedSet s) :=
  onDue_keeps (fun _ _ hu => ite_keeps (answer_keeps (State.modPart_keeps hu)) (answer_keeps (State.modPart_keeps hu))) h

theorem execVideoSlot_keeps (h : Keeps s₀ s) : KeepsNext s₀ (execVideoSlot s) := by
  unfold execVideoSlot
  grind [answerBare_keeps, onDue_keeps, State.setEngine_keeps, keepsNext_next]

theorem execServingSettings_keeps (h : Keeps s₀ s) : KeepsNext s₀ (execServingSettings s) :=
  onDue_keeps (fun _ _ hu => answerBare_keeps (State.modPart_keeps hu)) h

theorem execCancel_keeps (h : Keeps s₀ s) : KeepsNext s₀ (execCancel s) := by
  unfold execCancel
  grind [answerBare_keeps, State.modPart_keeps, State.modOrders_keeps, keepsNext_next]

theorem execCancelPendingEntry_keeps (h : Keeps s₀ s) : KeepsNext s₀ (execCancelPendingEntry s) := by
  unfold execCancelPendingEntry
  grind [State.reachStamp_keeps, State.modPart_keeps, keepsNext_next]

theorem execAdapterLoad_keeps (h : Keeps s₀ s) : KeepsNext s₀ (execAdapterLoad s) := by
  unfold execAdapterLoad
  grind [answerBare_keeps, answer_keeps, onDue_keeps, State.modPart_keeps, keepsNext_next]

theorem execCoreFence_keeps (h : Keeps s₀ s) : KeepsNext s₀ (execCoreFence s) := onDue_keeps (fun _ _ hu => answerBare_keeps (fenceFor_keeps hu)) h
theorem execCoreReadmit_keeps (h : Keeps s₀ s) : KeepsNext s₀ (execCoreReadmit s) :=
  onDue_keeps (fun _ _ hu => ite_keeps (answerBare_keeps hu) (ite_keeps (answerBare_keeps hu) (answerBare_keeps (State.modCore_keeps hu)))) h
theorem execReplaySet_keeps (h : Keeps s₀ s) : KeepsNext s₀ (execReplaySet s) :=
  onDue_keeps (fun _ _ hu => answerBare_keeps (State.modPart_keeps hu)) h

/-! ### Security -/

theorem countReport_keeps (h : Keeps s₀ s) : Keeps s₀ (countReport s) := State.modSecurity_keeps h
theorem fallback_keeps {t r} (h : Keeps s₀ s) : Keeps s₀ (fallback s t r) := answer_keeps (countReport_keeps (signIdentity_keeps h))
theorem mainReport_keeps {t r} (h : Keeps s₀ s) : Keeps s₀ (mainReport s t r) :=
  answer_keeps (countReport_keeps (ite_keeps (State.modKeys_keeps (signIdentity_keeps (State.draw_keeps h))) (signIdentity_keeps (State.draw_keeps h))))
theorem readVault_keeps {bad} (h : Keeps s₀ s) : Keeps s₀ (readVault s bad) := ite_keeps (wipeVault_keeps h) h
theorem execAttestation_keeps {x vaultBad} (h : Keeps s₀ s) : KeepsNext s₀ (execAttestation x vaultBad s) :=
  onTaken_keeps (fun _ _ hu => ite_keeps (mainReport_keeps (readVault_keeps hu)) (fallback_keeps (readVault_keeps hu))) h

theorem execEphemeralKeyExpiry_keeps {p} (h : Keeps s₀ s) : KeepsNext s₀ (execEphemeralKeyExpiry p s) := by
  unfold execEphemeralKeyExpiry
  grind [State.reach_keeps, State.modKeys_keeps, keepsNext_next]

theorem execSecKeyRelease_keeps {vaultBad} (h : Keeps s₀ s) : KeepsNext s₀ (execSecKeyRelease vaultBad s) := by
  unfold execSecKeyRelease
  grind [answer_keeps, State.modSecurity_keeps, onDue_keeps, readVault_keeps, State.modKeys_keeps, State.event_keeps, keepsNext_next]

theorem observeIntake_keeps {p i} (h : Keeps s₀ s) : Keeps s₀ (observeIntake s p i) := by
  unfold observeIntake
  grind [State.setOwner_keeps, foldl_keeps]

theorem execSecIntake_keeps (h : Keeps s₀ s) : KeepsNext s₀ (execSecIntake s) := by
  unfold execSecIntake
  grind [answerBare_keeps, onDue_keeps, observeIntake_keeps, State.modKeys_keeps, keepsNext_next]

theorem requestChunk_keeps {p img i c} (h : Keeps s₀ s) : Keeps s₀ (requestChunk s p img i c) := by
  unfold requestChunk
  grind [openRequest_keeps]

theorem failChunk_keeps {p i result} (h : Keeps s₀ s) : Keeps s₀ (failChunk s p i result) :=
  State.event_keeps (ite_keeps (State.modPart_keeps (State.modKeys_keeps h)) (State.modKeys_keeps h))
theorem chunkBeats_keeps {c k} (h : Keeps s₀ s) : Keeps s₀ (chunkBeats s c k) := State.modCluster_keeps h

theorem chunkOpened_keeps {p img i c plain} (h : Keeps s₀ s) : Keeps s₀ (chunkOpened s p img i c plain) := by
  unfold chunkOpened
  grind [bankWrite_keeps]

theorem passChunk_keeps {p i c k plain} (h : Keeps s₀ s) : Keeps s₀ (passChunk s p i c k plain) := by
  unfold passChunk
  grind [stackWrite_keeps, State.modPart_keeps, State.modKeys_keeps]

theorem takeChunk_keeps {p img i c k rs} (h : Keeps s₀ s) : Keeps s₀ (takeChunk s p img i c k rs) := by
  unfold takeChunk
  grind [failChunk_keeps, passChunk_keeps, chunkOpened_keeps, dropRequests_keeps, chunkBeats_keeps]

theorem execIntakeChunk_keeps {p} (h : Keeps s₀ s) : KeepsNext s₀ (execIntakeChunk p s) := by
  unfold execIntakeChunk
  grind [takeChunk_keeps, requestChunk_keeps, keepsNext_next]

theorem execStoreRdData_keeps (h : Keeps s₀ s) : KeepsNext s₀ (execStoreRdData s) := by
  unfold execStoreRdData
  grind [onFrame_keeps, continuePull_keeps, modRequest_keeps, keepsNext_next]

theorem execStoreErr_keeps (h : Keeps s₀ s) : KeepsNext s₀ (execStoreErr s) := by
  unfold execStoreErr
  grind [onFrame_keeps, continueExports_keeps, continuePull_keeps, modRequest_keeps, keepsNext_next]

theorem execStoreRequestTimeout_keeps (h : Keeps s₀ s) : KeepsNext s₀ (execStoreRequestTimeout s) := by
  unfold execStoreRequestTimeout
  grind [continueExports_keeps, continuePull_keeps, timeoutRequest_keeps, keepsNext_next]

theorem execSecRotate_keeps (h : Keeps s₀ s) : KeepsNext s₀ (execSecRotate s) := by
  unfold execSecRotate
  grind [advanceKeys_keeps, answerBare_keeps, onDue_keeps, State.modPart_keeps, keepsNext_next]

theorem execSecReturnBegin_keeps (h : Keeps s₀ s) : KeepsNext s₀ (execSecReturnBegin s) :=
  onDue_keeps (fun _ _ hu => ite_keeps (answerBare_keeps hu) (answerBare_keeps (State.modSecurity_keeps hu))) h

theorem execSecReturnConfirm_keeps (h : Keeps s₀ s) : KeepsNext s₀ (execSecReturnConfirm s) :=
  onDue_keeps (fun _ _ hu => ite_keeps (answerBare_keeps hu) (ite_keeps (answerBare_keeps hu) (ite_keeps (answerBare_keeps (State.modSecurity_keeps hu))
    (restartRom_keeps (wipeVault_keeps (answerBare_keeps hu)).lifecycle)))) h

/-! ### Sessions -/

theorem openSession_keeps {t} (h : Keeps s₀ s) : Keeps s₀ (openSession s t) := by
  unfold openSession
  grind [State.modPort_keeps, answer_keeps, endSession_keeps, State.modFw_keeps, State.modOrders_keeps, State.modPower_keeps]

theorem execSessionOpen_keeps {x} (h : Keeps s₀ s) : KeepsNext s₀ (execSessionOpen x s) := by
  unfold execSessionOpen
  grind [expireSession_keeps, openSession_keeps, answer_keeps, onTaken_keeps, State.modFw_keeps, State.modOrders_keeps, keepsNext_next]

theorem execLeaseRenew_keeps {x} (h : Keeps s₀ s) : KeepsNext s₀ (execLeaseRenew x s) := onTaken_keeps (fun _ _ hu => answer_keeps hu) h
theorem execDetach_keeps {x} (h : Keeps s₀ s) : KeepsNext s₀ (execDetach x s) :=
  onTaken_keeps (fun _ _ hu => answerBare_keeps (ite_keeps (endSession_keeps hu) hu)) h
theorem execLeaseExpiry_keeps {x} (h : Keeps s₀ s) : KeepsNext s₀ (execLeaseExpiry x s) :=
  ite_keepsNext (keepsNext_next (endSession_keeps (State.reachStamp_keeps h))) (keepsNext_next h)
theorem deliver_keeps {t} (h : Keeps s₀ s) : Keeps s₀ (deliver s t) := answer_keeps h
theorem execIdentity_keeps {x} (h : Keeps s₀ s) : KeepsNext s₀ (execIdentity x s) := onTaken_keeps (fun _ _ hu => deliver_keeps hu) h
theorem execTallyRead_keeps {x} (h : Keeps s₀ s) : KeepsNext s₀ (execTallyRead x s) := onTaken_keeps (fun _ _ hu => deliver_keeps hu) h
theorem execSizeRead_keeps {x} (h : Keeps s₀ s) : KeepsNext s₀ (execSizeRead x s) := onTaken_keeps (fun _ _ hu => deliver_keeps hu) h
theorem execCoreStatus_keeps {x} (h : Keeps s₀ s) : KeepsNext s₀ (execCoreStatus x s) := onTaken_keeps (fun _ _ hu => deliver_keeps hu) h

/-! ### Time -/

theorem correctTo_keeps {v} (h : Keeps s₀ s) : Keeps s₀ (correctTo s v) := by
  unfold correctTo
  grind [State.modTime_keeps]

theorem enterHoldover_keeps {cause} (h : Keeps s₀ s) : Keeps s₀ (enterHoldover s cause) := ite_keeps h (State.event_keeps (State.modTime_keeps h))
theorem lockAt_keeps {v} (h : Keeps s₀ s) : Keeps s₀ (lockAt s v) :=
  ite_keeps (State.modTime_keeps (State.modTime_keeps h)) (State.event_keeps (State.modTime_keeps (correctTo_keeps h)))

theorem lockedEdge_keeps {cs} (h : Keeps s₀ s) : Keeps s₀ (lockedEdge s cs) := by
  unfold lockedEdge
  grind [correctTo_keeps, State.modTime_keeps, State.event_keeps]

theorem execTimeSyncEdge_keeps {reading cycles} (h : Keeps s₀ s) : KeepsNext s₀ (execTimeSyncEdge reading cycles s) := by
  have hr : Keeps s₀ (forI3c (fun x s => s.modPort x (fun q => { q with commit := none })) (s.reach reading)) :=
    forI3c_keeps (fun _ _ hu => State.modPort_keeps hu) (State.reach_keeps h)
  refine ite_keepsNext h (settleStart_keeps (quotaEdge_keeps (State.modTime_keeps ?_)))
  grind [lockedEdge_keeps, enterHoldover_keeps, lockAt_keeps, State.modTime_keeps]

theorem execEdgeMissing_keeps (h : Keeps s₀ s) : KeepsNext s₀ (execEdgeMissing s) := by
  unfold execEdgeMissing
  grind [State.reach_keeps, enterHoldover_keeps, State.modTime_keeps, keepsNext_next]

theorem execRefclkLoss_keeps (h : Keeps s₀ s) : KeepsNext s₀ (execRefclkLoss s) :=
  ite_keepsNext (keepsNext_next h) (keepsNext_next (enterHoldover_keeps (State.modTime_keeps h)))
theorem execRefclkReturn_keeps (h : Keeps s₀ s) : KeepsNext s₀ (execRefclkReturn s) :=
  ite_keepsNext (keepsNext_next h) (keepsNext_next (State.modTime_keeps h))
theorem execSlewComplete_keeps (h : Keeps s₀ s) : KeepsNext s₀ (execSlewComplete s) :=
  ite_keepsNext (keepsNext_next h) (keepsNext_next (State.modTime_keeps (State.reach_keeps h)))

theorem execIdentityBurst_keeps {bits} (h : Keeps s₀ s) : KeepsNext s₀ (execIdentityBurst bits s) := by
  unfold execIdentityBurst
  grind [State.reach_keeps, State.modTime_keeps, keepsNext_next]

theorem execTimeTrim_keeps (h : Keeps s₀ s) : KeepsNext s₀ (execTimeTrim s) := onDue_keeps (fun _ _ hu => answerBare_keeps (State.modTime_keeps hu)) h

/-! ### Vector -/

theorem vecMeets_keeps {v ab bb cb} (h : Keeps s₀ s) : Keeps s₀ (vecMeets s v ab bb cb) := by
  unfold vecMeets
  grind [meetBank_keeps]

theorem vectorSteps_keeps {v d} (h : Keeps s₀ s) : EngineKeeps s₀ (KeepsOut s₀) (vectorSteps v d s) :=
  coreBank_keeps.bind fun _ _ => coreBank_keeps.bind fun _ _ =>
    EngineKeeps.bind (P := fun _ => True) (ite_keepsEngine coreBank_keeps trivial) fun _ _ =>
      EngineKeeps.bind (P := fun _ => True) (ite_keepsEngine coreBank_keeps trivial) fun _ _ => bankWrite_keeps (vecMeets_keeps h)

theorem execVectorCommand_keeps {p q v} (h : Keeps s₀ s) : KeepsNext s₀ (execVectorCommand p q v s) := by
  unfold execVectorCommand
  split
  · exact ite_keepsNext (runEngine_keeps (fun _ => Engine.out_keeps (vectorSteps_keeps h)) h) h
  · exact h

/-! ### Video -/

theorem awaitVideo_keeps {p q} (h : Keeps s₀ s) : Keeps s₀ (awaitVideo s p q) := by
  unfold awaitVideo
  grind [State.modEngine_keeps, State.modPart_keeps]

theorem execVideoSlotBoundary_keeps {d} (h : Keeps s₀ s) : KeepsNext s₀ (execVideoSlotBoundary d s) := by
  unfold execVideoSlotBoundary
  grind [awaitVideo_keeps, State.setEngine_keeps, Keeps.update, keepsNext_next]

theorem vctxSteps_keeps {d} (h : Keeps s₀ s) : EngineKeeps s₀ (KeepsOut s₀) (vctxSteps d s) := by
  unfold vctxSteps
  dsimp only
  split
  · trivial
  · have hm := fun n f => State.modEngine_keeps (d := dieOfInst d.desc.inst) (f := f) (meetBank_keeps (a := n) (n := 64) h)
    exact ite_keepsEngine wait_keeps (ite_keepsEngine (hm _ _) (ite_keepsEngine (hm _ _) (ite_keepsEngine (State.modEngine_keeps (hm _ _)) (hm _ _))))

theorem runVideo_keeps {p q opcode hand op} (ho : ∀ d, EngineKeeps s₀ (KeepsOut s₀) (op d s)) (h : Keeps s₀ s) :
    KeepsNext s₀ (runVideo s p q opcode hand op) := by
  have hr : KeepsNext s₀ (runEngine s p q 6 opcode hand fun d s => (op d s).out) := runEngine_keeps (fun d => Engine.out_keeps (ho d)) h
  unfold runVideo
  split
  · next t ht => exact awaitVideo_keeps (show KeepsNext s₀ (.next t) from ht ▸ hr)
  · exact hr

theorem execVctxSet_keeps {p q} (h : Keeps s₀ s) : KeepsNext s₀ (execVctxSet p q s) := runVideo_keeps (fun _ => vctxSteps_keeps h) h

theorem writeBuffer_keeps {p c picture} (h : Keeps s₀ s) : Keeps s₀ (writeBuffer s p c picture) := by
  unfold writeBuffer
  grind [stackWrite_keeps]

theorem meetRefs_keeps {p c refs} (h : Keeps s₀ s) : Keeps s₀ (meetRefs s p c refs) := by
  unfold meetRefs
  grind [meetStack_keeps, foldl_keeps]

theorem writeRegion_keeps {p ref room bs} (h : Keeps s₀ s) : Keeps s₀ (writeRegion s p ref room bs) := by
  unfold writeRegion
  split
  · exact h
  · split
    · exact bankWrite_keeps h
    · exact h

theorem refusedResult_keeps {d c dir rflags no} (h : Keeps s₀ s) : Keeps s₀ (refusedResult s d c dir rflags no) := writeRegion_keeps h
theorem encodeRefused_keeps {d c} (h : Keeps s₀ s) : Keeps s₀ (encodeRefused s d c) := refusedResult_keeps (writeRegion_keeps h)
theorem encodeStore_keeps {d c a e} (h : Keeps s₀ s) : Keeps s₀ (encodeStore s d c a e) :=
  modContext_keeps (writeBuffer_keeps (writeRegion_keeps (writeRegion_keeps (meetRefs_keeps (meetBank_keeps h)))))

theorem vencSteps_keeps {d} (h : Keeps s₀ s) : EngineKeeps s₀ (KeepsOut s₀) (vencSteps d s) := by
  unfold vencSteps
  dsimp only
  refine ite_keepsEngine wait_keeps ?_
  split
  · exact ite_keepsEngine (encodeRefused_keeps (State.modEngine_keeps h)) wait_keeps
  · exact ite_keepsEngine (ite_keepsEngine (encodeRefused_keeps (State.modEngine_keeps h)) wait_keeps)
      (ite_keepsEngine wait_keeps (State.modEngine_keeps h))

theorem execVencFrame_keeps {p q} (h : Keeps s₀ s) : KeepsNext s₀ (execVencFrame p q s) := runVideo_keeps (fun _ => vencSteps_keeps h) h

theorem outputEntry_keeps {d c e} (h : Keeps s₀ s) : Keeps s₀ (outputEntry s d c e).1 := by
  unfold outputEntry
  grind [writeRegion_keeps, meetRefs_keeps]

theorem decodeStore_keeps {d c a i t} (h : Keeps s₀ s) : Keeps s₀ (decodeStore s d c a i t).1 := by
  unfold decodeStore
  grind [meetBank_keeps, writeRegion_keeps, writeBuffer_keeps, meetRefs_keeps, outputEntry_keeps, modContext_keeps]

theorem vdecSteps_keeps {d} (h : Keeps s₀ s) : EngineKeeps s₀ (KeepsOut s₀) (vdecSteps d s) := by
  unfold vdecSteps
  dsimp only
  refine ite_keepsEngine wait_keeps ?_
  split
  · exact ite_keepsEngine (refusedResult_keeps (State.modEngine_keeps h)) wait_keeps
  · exact ite_keepsEngine (ite_keepsEngine (refusedResult_keeps (State.modEngine_keeps h)) wait_keeps)
      (ite_keepsEngine wait_keeps (State.modEngine_keeps h))

theorem execVdecFrame_keeps {p q} (h : Keeps s₀ s) : KeepsNext s₀ (execVdecFrame p q s) := runVideo_keeps (fun _ => vdecSteps_keeps h) h

theorem codeFrame_keeps {d c} (h : Keeps s₀ s) : Keeps s₀ (codeFrame s d c).1 := by
  unfold codeFrame
  grind [encodeStore_keeps, decodeStore_keeps]

theorem execVideoTurn_keeps {p q} (h : Keeps s₀ s) : KeepsNext s₀ (execVideoTurn p q s) := by
  unfold execVideoTurn
  split
  · refine ite_keepsNext h ?_
    split
    · exact awaitVideo_keeps (State.modPart_keeps h)
    · exact ite_keepsNext (waits_keeps h) (awaitVideo_keeps (State.modPart_keeps (codeFrame_keeps (countBeats_keeps (State.modPart_keeps h)))))
  · exact h

/-! ### Window -/

theorem clearOnRead_keeps {off} (h : Keeps s₀ s) : Keeps s₀ (clearOnRead s off) :=
  ite_keeps h (ite_keeps (State.modPower_keeps h) (ite_keeps (State.modRx_keeps h) (ite_keeps (State.modLink_keeps h) h)))
theorem notePort_keeps {x off} (h : Keeps s₀ s) : Keeps s₀ (notePort s x off) :=
  ite_keeps (State.modPort_keeps h) (ite_keeps (State.modPort_keeps h) (ite_keeps (State.modPort_keeps h) h))
theorem regAfter_keeps {x off} (h : Keeps s₀ s) : Keeps s₀ (regAfter s x off) := clearOnRead_keeps (notePort_keeps h)

theorem readRegs_keeps {n x off} (h : Keeps s₀ s) : Keeps s₀ (readRegs n s x off).2 := by
  induction n generalizing s off with
  | zero => exact h.of_seen rfl
  | succ n ih =>
    unfold readRegs
    exact ih (regAfter_keeps h)

theorem privateRead_keeps {x bytes} (h : Keeps s₀ s) : KeepsNext s₀ (privateRead s x bytes) :=
  ite_keepsNext (keepsNext_next (State.emit_keeps (readRegs_keeps h))) (keepsNext_next (State.emit_keeps h))
theorem execRspDataRead_keeps {x bytes} (h : Keeps s₀ s) : KeepsNext s₀ (execRspDataRead x bytes s) := privateRead_keeps h
theorem execLogDataRead_keeps {x bytes} (h : Keeps s₀ s) : KeepsNext s₀ (execLogDataRead x bytes s) := privateRead_keeps h
theorem execLoRegisterRead_keeps {x bytes} (h : Keeps s₀ s) : KeepsNext s₀ (execLoRegisterRead x bytes s) := privateRead_keeps h
theorem execPwrCountsRead_keeps {x bytes} (h : Keeps s₀ s) : KeepsNext s₀ (execPwrCountsRead x bytes s) := privateRead_keeps h
theorem execCsiRxFaultsRead_keeps {x bytes} (h : Keeps s₀ s) : KeepsNext s₀ (execCsiRxFaultsRead x bytes s) := privateRead_keeps h
theorem execLnkErrorsRead_keeps {x bytes} (h : Keeps s₀ s) : KeepsNext s₀ (execLnkErrorsRead x bytes s) := privateRead_keeps h

/-! ### Dispatch -/

/-- Every command keeps the queue, the part, the time reached and what has gone outward. -/
theorem exec_keeps (s : State) : ∀ c : Instr, KeepsNext s (exec c s)
  | .nop .. => execNop_keeps (.refl s)
  | .sizeCopy .. => execSizeCopy_keeps (.refl s)
  | .matmul .. => execMatmul_keeps (.refl s)
  | .groupedMatmul .. => execGroupedMatmul_keeps (.refl s)
  | .reduce .. => execReduce_keeps (.refl s)
  | .attn .. => execAttn_keeps (.refl s)
  | .dwconv .. => execDwconv_keeps (.refl s)
  | .wgather .. => execWgather_keeps (.refl s)
  | .poolMax .. => execPoolMax_keeps (.refl s)
  | .poolMin .. => execPoolMin_keeps (.refl s)
  | .globalAvg .. => execGlobalAvg_keeps (.refl s)
  | .argmaxCh .. => execArgmaxCh_keeps (.refl s)
  | .hbmRead .. => execHbmRead_keeps (.refl s)
  | .hbmWrite .. => execHbmWrite_keeps (.refl s)
  | .bankCopy .. => execBankCopy_keeps (.refl s)
  | .hbmZero .. => execHbmZero_keeps (.refl s)
  | .linkSend .. => execLinkSend_keeps (.refl s)
  | .linkRecv .. => execLinkRecv_keeps (.refl s)
  | .storeRead .. => execStoreRead_keeps (.refl s)
  | .storeWrite .. => execStoreWrite_keeps (.refl s)
  | .intakeChunk .. => execIntakeChunk_keeps (.refl s)
  | .vctxSet .. => execVctxSet_keeps (.refl s)
  | .vencFrame .. => execVencFrame_keeps (.refl s)
  | .vdecFrame .. => execVdecFrame_keeps (.refl s)
  | .gather .. => execGather_keeps (.refl s)
  | .emit .. => execEmit_keeps (.refl s)
  | .walkStage .. => execWalkStage_keeps (.refl s)
  | .walkAppend .. => execWalkAppend_keeps (.refl s)
  | .commandCompletion .. => execCommandCompletion_keeps (.refl s)
  | .stepBoundary .. => execStepBoundary_keeps (.refl s)
  | .checkpointComplete .. => execCheckpointComplete_keeps (.refl s)
  | .stepExport .. => execStepExport_keeps (.refl s)
  | .stepStall .. => execStepStall_keeps (.refl s)
  | .hardStop .. => execHardStop_keeps (.refl s)
  | .houseTurn .. => execHouseTurn_keeps (.refl s)
  | .copyPhase .. => execCopyPhase_keeps (.refl s)
  | .videoTurn .. => execVideoTurn_keeps (.refl s)
  | .videoSlotBoundary .. => execVideoSlotBoundary_keeps (.refl s)
  | .hbmScrub .. => execHbmScrub_keeps (.refl s)
  | .keySweep .. => execKeySweep_keeps (.refl s)
  | .clearComplete .. => execClearComplete_keeps (.refl s)
  | .gloryHolePass .. => execGloryHolePass_keeps (.refl s)
  | .teaserCycle .. => execTeaserCycle_keeps (.refl s)
  | .floorMiss .. => execFloorMiss_keeps (.refl s)
  | .coreHotDescent .. => execCoreHotDescent_keeps (.refl s)
  | .descentEnd => execDescentEnd_keeps (.refl s)
  | .pairSuspect .. => execPairSuspect_keeps (.refl s)
  | .flowLow => execFlowLow_keeps (.refl s)
  | .inletOut => execInletOut_keeps (.refl s)
  | .coolantFlagClear => execCoolantFlagClear_keeps (.refl s)
  | .overVoltage .. => execOverVoltage_keeps (.refl s)
  | .regulatorFault .. => execRegulatorFault_keeps (.refl s)
  | .supplyWarning .. => execSupplyWarning_keeps (.refl s)
  | .supplyWarningEnd .. => execSupplyWarningEnd_keeps (.refl s)
  | .supplyHold .. => execSupplyHold_keeps (.refl s)
  | .stackSelfRefresh => execStackSelfRefresh_keeps (.refl s)
  | .supplyHoldEnd => execSupplyHoldEnd_keeps (.refl s)
  | .supplyReset => execSupplyReset_keeps (.refl s)
  | .start .. => execStart_keeps (.refl s)
  | .startTimeLockTimeout => execStartTimeLockTimeout_keeps (.refl s)
  | .prsntLoss => execPrsntLoss_keeps (.refl s)
  | .tamperLoopOpen => execTamperLoopOpen_keeps (.refl s)
  | .lidTamper .. => execLidTamper_keeps (.refl s)
  | .ephemeralKeyExpiry .. => execEphemeralKeyExpiry_keeps (.refl s)
  | .timeSyncEdge .. => execTimeSyncEdge_keeps (.refl s)
  | .quotaWindowTimeout .. => execQuotaWindowTimeout_keeps (.refl s)
  | .identityBurst .. => execIdentityBurst_keeps (.refl s)
  | .refclkLoss => execRefclkLoss_keeps (.refl s)
  | .edgeMissing => execEdgeMissing_keeps (.refl s)
  | .slewComplete => execSlewComplete_keeps (.refl s)
  | .setdasa .. => execSetdasa_keeps (.refl s)
  | .rstdaa .. => execRstdaa_keeps (.refl s)
  | .getpid .. => execGetpid_keeps (.refl s)
  | .getbcr .. => execGetbcr_keeps (.refl s)
  | .getdcr .. => execGetdcr_keeps (.refl s)
  | .getstatus .. => execGetstatus_keeps (.refl s)
  | .setmwl .. => execSetmwl_keeps (.refl s)
  | .getmwl .. => execGetmwl_keeps (.refl s)
  | .setmrl .. => execSetmrl_keeps (.refl s)
  | .getmrl .. => execGetmrl_keeps (.refl s)
  | .getmxds .. => execGetmxds_keeps (.refl s)
  | .rstactNoReset .. => execRstactNoReset_keeps (.refl s)
  | .rstactPortReset .. => execRstactPortReset_keeps (.refl s)
  | .rstactRecoveryEnd .. => execRstactRecoveryEnd_keeps (.refl s)
  | .enec .. => execEnec_keeps (.refl s)
  | .disec .. => execDisec_keeps (.refl s)
  | .enthdr0 .. => execEnthdr0_keeps (.refl s)
  | .enthdr3 .. => execEnthdr3_keeps (.refl s)
  | .enthdrUnsupported .. => execEnthdrUnsupported_keeps (.refl s)
  | .hdrExit .. => execHdrExit_keeps (.refl s)
  | .readPointerSet .. => execReadPointerSet_keeps (.refl s)
  | .registerWrite .. => execRegisterWrite_keeps (.refl s)
  | .mbxCmdDataWrite .. => execMbxCmdDataWrite_keeps (.refl s)
  | .mbxBulkDataWrite .. => execMbxBulkDataWrite_keeps (.refl s)
  | .mbxPostCmd .. => execMbxPostCmd_keeps (.refl s)
  | .mbxPostBulk .. => execMbxPostBulk_keeps (.refl s)
  | .mbxTakeRsp .. => execMbxTakeRsp_keeps (.refl s)
  | .mbxTakeLog .. => execMbxTakeLog_keeps (.refl s)
  | .mbxAbortCmd .. => execMbxAbortCmd_keeps (.refl s)
  | .mbxAbortBulk .. => execMbxAbortBulk_keeps (.refl s)
  | .rspDataRead .. => execRspDataRead_keeps (.refl s)
  | .logDataRead .. => execLogDataRead_keeps (.refl s)
  | .dataRegisterRewind .. => execDataRegisterRewind_keeps (.refl s)
  | .loRegisterRead .. => execLoRegisterRead_keeps (.refl s)
  | .pwrCountsRead .. => execPwrCountsRead_keeps (.refl s)
  | .csiRxFaultsRead .. => execCsiRxFaultsRead_keeps (.refl s)
  | .lnkErrorsRead .. => execLnkErrorsRead_keeps (.refl s)
  | .timeNextHiWrite .. => execTimeNextHiWrite_keeps (.refl s)
  | .sessionOpen .. => execSessionOpen_keeps (.refl s)
  | .leaseRenew .. => execLeaseRenew_keeps (.refl s)
  | .detach .. => execDetach_keeps (.refl s)
  | .leaseExpiry .. => execLeaseExpiry_keeps (.refl s)
  | .identity .. => execIdentity_keeps (.refl s)
  | .attestation .. => execAttestation_keeps (.refl s)
  | .tallyRead .. => execTallyRead_keeps (.refl s)
  | .sizeRead .. => execSizeRead_keeps (.refl s)
  | .coreStatus .. => execCoreStatus_keeps (.refl s)
  | .orderWindowResolve => execOrderWindowResolve_keeps (.refl s)
  | .partAssign => execPartAssign_keeps (.refl s)
  | .partLoad .. => execPartLoad_keeps (.refl s)
  | .partArm .. => execPartArm_keeps (.refl s)
  | .partStart => execPartStart_keeps (.refl s)
  | .partStop => execPartStop_keeps (.refl s)
  | .partUnload => execPartUnload_keeps (.refl s)
  | .partRelease => execPartRelease_keeps (.refl s)
  | .seedSet => execSeedSet_keeps (.refl s)
  | .streamBind => execStreamBind_keeps (.refl s)
  | .csiTimeout => execCsiTimeout_keeps (.refl s)
  | .videoSlot => execVideoSlot_keeps (.refl s)
  | .servingSettings => execServingSettings_keeps (.refl s)
  | .cancel => execCancel_keeps (.refl s)
  | .cancelPendingEntry => execCancelPendingEntry_keeps (.refl s)
  | .adapterLoad => execAdapterLoad_keeps (.refl s)
  | .coreFence => execCoreFence_keeps (.refl s)
  | .coreReadmit => execCoreReadmit_keeps (.refl s)
  | .replaySet => execReplaySet_keeps (.refl s)
  | .pwrCap => execPwrCap_keeps (.refl s)
  | .pwrDrainEnter => execPwrDrainEnter_keeps (.refl s)
  | .pwrDrainLeave => execPwrDrainLeave_keeps (.refl s)
  | .pwrQuench => execPwrQuench_keeps (.refl s)
  | .pwrQuenchClear => execPwrQuenchClear_keeps (.refl s)
  | .thmCoolant => execThmCoolant_keeps (.refl s)
  | .thmSensorClear => execThmSensorClear_keeps (.refl s)
  | .claimPair => execClaimPair_keeps (.refl s)
  | .claimYield => execClaimYield_keeps (.refl s)
  | .claimRaise => execClaimRaise_keeps (.refl s)
  | .claimUnpair => execClaimUnpair_keeps (.refl s)
  | .claimReenter => execClaimReenter_keeps (.refl s)
  | .secKeyRelease .. => execSecKeyRelease_keeps (.refl s)
  | .secIntake => execSecIntake_keeps (.refl s)
  | .secRotate => execSecRotate_keeps (.refl s)
  | .secReturnBegin => execSecReturnBegin_keeps (.refl s)
  | .secReturnConfirm => execSecReturnConfirm_keeps (.refl s)
  | .fwBeginBlocks .. => execFwBeginBlocks_keeps (.refl s)
  | .fwBeginPull .. => execFwBeginPull_keeps (.refl s)
  | .fwBlock .. => execFwBlock_keeps (.refl s)
  | .fwEnd .. => execFwEnd_keeps (.refl s)
  | .fwLoadTimeout => execFwLoadTimeout_keeps (.refl s)
  | .fwActivateBoundary .. => execFwActivateBoundary_keeps (.refl s)
  | .fwActivateRestart .. => execFwActivateRestart_keeps (.refl s)
  | .deferredActivation => execDeferredActivation_keeps (.refl s)
  | .fwWithdrawDeferred .. => execFwWithdrawDeferred_keeps (.refl s)
  | .fwWithdrawLoad .. => execFwWithdrawLoad_keeps (.refl s)
  | .evtCopy => execEvtCopy_keeps (.refl s)
  | .evtCopyStop => execEvtCopyStop_keeps (.refl s)
  | .evtMirror => execEvtMirror_keeps (.refl s)
  | .logMessageFill .. => execLogMessageFill_keeps (.refl s)
  | .mirrorFrame => execMirrorFrame_keeps (.refl s)
  | .linkPlan => execLinkPlan_keeps (.refl s)
  | .linkShare => execLinkShare_keeps (.refl s)
  | .linkJob => execLinkJob_keeps (.refl s)
  | .linkPortDisable => execLinkPortDisable_keeps (.refl s)
  | .linkPortEnable => execLinkPortEnable_keeps (.refl s)
  | .linkPortTest => execLinkPortTest_keeps (.refl s)
  | .linkTestEnd .. => execLinkTestEnd_keeps (.refl s)
  | .intervalTest .. => execIntervalTest_keeps (.refl s)
  | .linkIngressCopy => execLinkIngressCopy_keeps (.refl s)
  | .linkIngressBind => execLinkIngressBind_keeps (.refl s)
  | .linkIngressRemove => execLinkIngressRemove_keeps (.refl s)
  | .timeTrim => execTimeTrim_keeps (.refl s)
  | .csiFrameStart .. => execCsiFrameStart_keeps (.refl s)
  | .csiLongPacket .. => execCsiLongPacket_keeps (.refl s)
  | .csiFrameEnd .. => execCsiFrameEnd_keeps (.refl s)
  | .csiFrameTimeout .. => execCsiFrameTimeout_keeps (.refl s)
  | .csiLaneSyncLoss .. => execCsiLaneSyncLoss_keeps (.refl s)
  | .csiLaneSyncRegained .. => execCsiLaneSyncRegained_keeps (.refl s)
  | .csiGenericShortPacket .. => execCsiGenericShortPacket_keeps (.refl s)
  | .emitFrameSend .. => execEmitFrameSend_keeps (.refl s)
  | .envelopeReceive .. => execEnvelopeReceive_keeps (.refl s)
  | .calendarTurn .. => execCalendarTurn_keeps (.refl s)
  | .keyAgreementStart .. => execKeyAgreementStart_keeps (.refl s)
  | .kaHello => execKaHello_keeps (.refl s)
  | .kaReply => execKaReply_keeps (.refl s)
  | .kaConfirm => execKaConfirm_keeps (.refl s)
  | .kaRetryTimeout .. => execKaRetryTimeout_keeps (.refl s)
  | .kaRetryInterval .. => execKaRetryInterval_keeps (.refl s)
  | .jobKeyRekey .. => execJobKeyRekey_keeps (.refl s)
  | .oldKeyidExpiry .. => execOldKeyidExpiry_keeps (.refl s)
  | .gcmFailTeardown .. => execGcmFailTeardown_keeps (.refl s)
  | .ringCredit => execRingCredit_keeps (.refl s)
  | .jobData => execJobData_keeps (.refl s)
  | .ingressCopy => execIngressCopy_keeps (.refl s)
  | .decisionPart => execDecisionPart_keeps (.refl s)
  | .snapshotSection => execSnapshotSection_keeps (.refl s)
  | .snapshotJournal => execSnapshotJournal_keeps (.refl s)
  | .reentryRequest => execReentryRequest_keeps (.refl s)
  | .storeRdData => execStoreRdData_keeps (.refl s)
  | .storeWrAck => execStoreWrAck_keeps (.refl s)
  | .storeErr => execStoreErr_keeps (.refl s)
  | .storeRequestTimeout => execStoreRequestTimeout_keeps (.refl s)
  | .trainingRetry .. => execTrainingRetry_keeps (.refl s)
  | .trainingTimeout .. => execTrainingTimeout_keeps (.refl s)
  | .partnerIdentity .. => execPartnerIdentity_keeps (.refl s)
  | .slowPartner .. => execSlowPartner_keeps (.refl s)
  | .slowPartnerRetrain .. => execSlowPartnerRetrain_keeps (.refl s)
  | .faultyPartner .. => execFaultyPartner_keeps (.refl s)
  | .heartbeatTimer .. => execHeartbeatTimer_keeps (.refl s)
  | .heartbeatReceive .. => execHeartbeatReceive_keeps (.refl s)
  | .holderLost .. => execHolderLost_keeps (.refl s)
  | .followerUnmatched .. => execFollowerUnmatched_keeps (.refl s)
  | .vectorCommand .. => execVectorCommand_keeps (.refl s)
  | .signalDetect .. => execSignalDetect_keeps (.refl s)
  | .fecLock .. => execFecLock_keeps (.refl s)
  | .refclkReturn => execRefclkReturn_keeps (.refl s)
  | .prsntMate => execPrsntMate_keeps (.refl s)
  | .holdLevelLeft .. => execHoldLevelLeft_keeps (.refl s)
  | .peerRxSyncLost => execPeerRxSyncLost_keeps (.refl s)
  | .peerRxSyncGained => execPeerRxSyncGained_keeps (.refl s)

end

/-- Settles O60: every command keeps what its state has (`exec_keeps`), and a next state that keeps it is what the statement asks. -/
theorem execLeavesQueueAndPart : Obligations.ExecLeavesQueueAndPart := by
  unfold Obligations.ExecLeavesQueueAndPart
  intro c s t h
  have hk : KeepsNext s (.next t) := h ▸ exec_keeps s c
  obtain ⟨hp, hn, ho, hf⟩ := hk
  exact ⟨hp, hn, ho, hf.serial, hf.codeSB, hf.reprov, hf.cert, hf.rootKey, hf.identityKey, hf.secver⟩

end Sys2Proof.Machine

namespace Sys2Proof.Machine

/-! ## The state after reset (O58)

Every vector of `State.reset` repeats one element, so what holds of each partition, core, bank and turn holds of that element. A register
is read by evaluating its table on the one closed state. -/

section
variable (p : PartId) (c : CoreId) (b : Fin 288) (n : PortId) (x : I3cId)

theorem reset_part : State.reset.part p = Part.init := Vector.getElem_replicate ..
theorem reset_core : State.reset.core c = Core.init := Vector.getElem_replicate ..
theorem reset_owner : State.reset.owner b = BankOwner.init := Vector.getElem_replicate ..
theorem reset_link : State.reset.link n = Link.init := Vector.getElem_replicate ..
theorem reset_port : State.reset.port x = I3cPort.init := Vector.getElem_replicate ..

theorem reset_linkOwner (i : Fin 64) : (State.reset.link n).owners.get i = if i.val < 4 then .house else .relay := by
  rw [reset_link]
  decide +revert

end

/-- The identity and order windows (18): `ID_STATE`, then the window of 20 µs and the 10 orders that it holds. -/
theorem reset_orderRegs : ∀ x, regLive State.reset x 0x0018 = 2 ∧ regLive State.reset x 0x0404 = 0x0014000A := by decide +kernel

/-- The power registers: the cap, the voltages of the dies and the rated totals (14). -/
theorem reset_powerRegs : ∀ x, regLive State.reset x 0x0804 = 0x03E803E8 ∧ regLive State.reset x 0x0810 = 0x02580258 ∧
    regLive State.reset x 0x0814 = 0x03520078 := by decide +kernel

/-- The fluid capacity, the free clusters, the frame-end timeout, the free video slots, the life cycle and the start step. -/
theorem reset_moduleRegs : ∀ x, regLive State.reset x 0x0A0C / 65536 = 1700 ∧ regLive State.reset x 0x0C00 = 0x00FF0000 ∧
    regLive State.reset x 0x1004 = 50000 ∧ regLive State.reset x 0x1600 = 0x20400000 ∧
    bitsOf (regLive State.reset x 0x1800) 4 0 = 0x1A ∧ regLive State.reset x 0x1A00 = 0x00090000 := by decide +kernel

/-- The serving settings of each partition. -/
theorem reset_servingRegs : ∀ x, ∀ p : PartId, regLive State.reset x (0x0E40 + 0x30 * p.val) = 0x25DA0800 := by decide +kernel

/-- Of the 64 turns of each Carloth port, 60 are the relay's. -/
theorem reset_relayRegs : ∀ x, ∀ n : PortId, bitsOf (regLive State.reset x (0x1240 + 0x10 * n.val)) 13 8 = 60 := by decide +kernel

/-- Settles O58: memory is `reset_memWf`, no stream is bound, the vectors are read by `reset_part` and its companions, and the registers are
those of the lemmas above. -/
theorem resetHolds : Obligations.ResetHolds := by
  unfold Obligations.ResetHolds
  refine ⟨rfl, rfl, rfl, rfl, rfl, rfl, rfl, reset_memWf, rfl, rfl, .nil, fun p => ?_, fun c => ?_, reset_owner, reset_linkOwner, fun x => ?_⟩
  · rw [reset_part]
    exact ⟨rfl, rfl, rfl, rfl, rfl, rfl⟩
  · rw [reset_core]
    exact ⟨rfl, rfl⟩
  · obtain ⟨hstate, hwindow⟩ := reset_orderRegs x
    obtain ⟨hcap, hdies, hrated⟩ := reset_powerRegs x
    obtain ⟨hfluid, hclusters, hframe, hvideo, hlife, hstart⟩ := reset_moduleRegs x
    rw [reset_port]
    exact ⟨rfl, rfl, hstate, hwindow, hcap, hdies, hrated, hfluid, hclusters, hframe, hvideo, hlife, hstart, reset_servingRegs x,
      reset_relayRegs x⟩

end Sys2Proof.Machine

namespace Sys2Proof.Machine

/-! ## Supply loss and start (O20)

`State.base` is what a start reads and what an answer to an order, a heartbeat, an event or the clearing of a partition leaves alone. In
BOOT a vault wipe leaves all of it (`wipeVault_base`), so that the steps of the start can be followed on the base. -/

/-- What the start sequence reads and writes, but for the identity key. -/
structure Base where
  mem : Mem
  now : Ns
  fuses : Fuses
  fw : Firmware
  power : Power

def State.base (s : State) : Base := { mem := s.mem, now := s.now, fuses := s.fuses, fw := s.fw, power := s.power }

section
variable (s : State) (p : PartId)

/-! ### What leaves the base alone -/

@[simp] theorem State.modPort_base (x : I3cId) (f : I3cPort → I3cPort) : (s.modPort x f).base = s.base := rfl
@[simp] theorem State.modLink_base (n : PortId) (f : Link → Link) : (s.modLink n f).base = s.base := rfl
@[simp] theorem State.modOrders_base (f : Orders → Orders) : (s.modOrders f).base = s.base := rfl
@[simp] theorem State.modTime_base (f : TimeRt → TimeRt) : (s.modTime f).base = s.base := rfl
@[simp] theorem State.modThermal_base (f : Thermal → Thermal) : (s.modThermal f).base = s.base := rfl
@[simp] theorem State.modSecurity_base (f : Security → Security) : (s.modSecurity f).base = s.base := rfl
@[simp] theorem State.modCsi_base (f : Csi → Csi) : (s.modCsi f).base = s.base := rfl
@[simp] theorem State.modLanes_base (f : Lanes → Lanes) : (s.modLanes f).base = s.base := rfl
@[simp] theorem State.modEvents_base (f : Events → Events) : (s.modEvents f).base = s.base := rfl
@[simp] theorem State.modPower_base (f : Power → Power) : (s.modPower f).base = { s.base with power := f s.base.power } := rfl
@[simp] theorem State.modFw_base (f : Firmware → Firmware) : (s.modFw f).base = { s.base with fw := f s.base.fw } := rfl

theorem foldl_view {α β : Type} (v : State → β) {f : State → α → State} (hf : ∀ u a, v (f u a) = v u) (as : List α) :
    v (as.foldl f s) = v s :=
  List.foldlRecOn (motive := fun u => v u = v s) as f rfl fun u hu a _ => (hf u a).trans hu

theorem forParts_view {β : Type} (v : State → β) {f : PartId → State → State} (hf : ∀ p u, v (f p u) = v u) : v (forParts f s) = v s :=
  foldl_view s v (fun _ _ => hf _ _) _
theorem forClusters_view {β : Type} (v : State → β) {f : ClusterId → State → State} (hf : ∀ k u, v (f k u) = v u) :
    v (forClusters f s) = v s := foldl_view s v (fun _ _ => hf _ _) _
theorem forPorts_view {β : Type} (v : State → β) {f : PortId → State → State} (hf : ∀ n u, v (f n u) = v u) : v (forPorts f s) = v s :=
  foldl_view s v (fun _ _ => hf _ _) _

@[simp] theorem State.event_base (unitNo code part : Nat) (data : Bytes) : (s.event unitNo code part data).base = s.base := by
  simp [State.base]

@[simp] theorem answer_base (t : Taken) (status : Nat) (tail : Bytes) : (answer s t status tail).base = s.base := by
  unfold answer
  dsimp only
  split <;> rfl

@[simp] theorem answerCancel_base (c : CancelReq) (status : Nat) : (answerCancel s c status).base = s.base := by
  unfold answerCancel
  split
  · rfl
  · split
    · rw [answer_base]
      rfl
    · rfl

@[simp] theorem sendBeatAs_base (pulled : Bool) : (sendBeatAs s p pulled).base = s.base := by
  unfold sendBeatAs
  split <;> rfl

@[simp] theorem setClaim_base (n : BitVec 32) : (setClaim s p n).base = s.base := by
  unfold setClaim
  extract_lets old v u
  split
  · rfl
  · exact sendBeatAs_base _ _ _

@[simp] theorem yieldClaim_base : (yieldClaim s p).base = s.base := setClaim_base _ _ _

@[simp] theorem eraseCluster_base (key : BitVec 512) (k : ClusterId) : (eraseCluster key s k).base = s.base := by
  unfold eraseCluster
  split <;> rfl

@[simp] theorem closeContexts_base : (closeContexts s p).base = s.base := rfl

/-- The drawing of a key moves on only the free values. -/
@[simp] theorem newMemoryKey_base : (newMemoryKey s).2.base = s.base := rfl

@[simp] theorem enterClearing_base : (enterClearing s p).base = s.base := by
  unfold enterClearing
  extract_lets v n w x
  have hv : v.base = s.base := foldl_view (closeContexts s p) State.base (fun _ _ => answerCancel_base _ _ _) _
  clear_value v
  have hw : w.base = n.2.base := foldl_view n.2 State.base (fun _ _ => eraseCluster_base _ _ _) _
  clear_value w
  calc w.base
    _ = n.2.base := hw
    _ = v.base := newMemoryKey_base v
    _ = s.base := hv

@[simp] theorem wipeKeys_base : (wipeKeys s p).base = s.base := rfl

@[simp] theorem settleHolds_base : (settleHolds s).base = s.base := forParts_view s State.base fun _ _ => rfl

@[simp] theorem setSelfRefresh_base (b : Bool) : (setSelfRefresh s b).base = s.base := forClusters_view s State.base fun _ _ => rfl

/-! ### The vault wipe in BOOT -/

/-- Only RUN and DRAIN follow the partitions. -/
theorem settleModule_boot {s : State} (h : s.power.state = .boot) : settleModule s = s := by
  simp [settleModule, h]

theorem wipeVault_base {s : State} (h : s.power.state = .boot) (cause : Nat) : (wipeVault s cause).base = s.base := by
  unfold wipeVault
  dsimp only
  generalize hu : State.event _ srcSecurity 0x0501 0xFF (leBytes 1 cause) = u
  have hb : u.base = s.base := by
    have hyield : ∀ p (u : State), (if (u.part p).claim.paired then yieldClaim u p else u).base = u.base := fun p u => by split <;> simp
    have hclear : ∀ p (u : State), (if (u.part p).state = .free then u else enterClearing u p).base = u.base := fun p u => by split <;> simp
    rw [← hu, State.event_base, forParts_view _ State.base hclear, forParts_view _ State.base hyield,
      forParts_view _ State.base fun p u => wipeKeys_base u p]
    exact forClusters_view _ State.base fun _ _ => rfl
  have hp : u.power.state = .boot := (congrArg (·.power.state) hb).trans h
  rw [settleModule_boot hp]
  exact hb

/-! ### Steps 1 and 2 -/

/-- The fuses after step 2, which burns an open lid or mesh into them (15 R416). -/
def Fuses.seenBy (f : Fuses) (i : StartIn) : Fuses := { f with tampered := f.tampered || i.lidOpen || i.meshOpen }

/-- The fuses with the straps read (17 R455). -/
def Fuses.strapped (f : Fuses) (i : StartIn) : Fuses := { f with tray := i.tray % 64, slot := i.slot % 32 }

theorem bootRom_fails {i : StartIn} (hi : i.selfTest = false) :
    bootRom s i = s.modFw (fun f => { f with startStep := 1, startFail := 1 }) := by
  simp [bootRom, hi]

/-- Step 2 of a module whose self-test passes. -/
theorem bootRom_base {s : State} (h : s.power.state = .boot) {i : StartIn} (hi : i.selfTest = true) :
    (bootRom s i).base = { s.base with fuses := s.fuses.seenBy i, fw := { s.fw with startStep := 2 } } := by
  simp only [bootRom, hi, Bool.not_true, Bool.false_eq_true, if_false]
  by_cases ho : i.lidOpen || i.meshOpen
  · rw [if_pos ho]
    have hf : s.fuses.seenBy i = { s.fuses with tampered := true } := by simp [Fuses.seenBy, Bool.or_assoc, ho]
    rw [hf, State.modSecurity_base]
    exact (wipeVault_base (by exact h) _).trans rfl
  · rw [if_neg ho]
    have hf : s.fuses.seenBy i = s.fuses := by
      simp only [Bool.or_eq_true, not_or, Bool.not_eq_true] at ho
      simp [Fuses.seenBy, ho]
    rw [hf]
    rfl

theorem bootRom_identity {i : StartIn} (hi : i.selfTest = true) :
    (bootRom s i).security.identity = identityUsable (bootRom s i).fuses := by
  simp only [bootRom, hi, Bool.not_true, Bool.false_eq_true, if_false]
  rfl

/-- What holds step 1 up: no start input, a contact not made, a step past it, a supply hold. -/
theorem runBoot_waits {s : State} (h : s.fw.startIn = none ∨ s.power.prsnt = false ∨ s.fw.startStep ≠ 0 ∨ s.power.supplyHeld = true) :
    runBoot s = s := by
  unfold runBoot
  split
  · have hc : ¬ ((s.power.prsnt && s.fw.startStep = 0 && !s.power.supplyHeld) = true) := by
      rcases h with h | h | h | h <;> simp_all
    rw [if_neg hc]
  · rfl

theorem runBoot_runs {s : State} {i : StartIn} (hi : s.fw.startIn = some i) (hp : s.power.prsnt = true) (h0 : s.fw.startStep = 0)
    (hh : s.power.supplyHeld = false) : runBoot s = bootRom { s with fuses := s.fuses.strapped i } i := by
  simp [runBoot, hi, hp, h0, hh, Fuses.strapped]

/-- What START gives the module before step 1: power, the start input and the tamper contact (16 R437). -/
def startedState (s : State) (i : StartIn) : State :=
  let s := (offState s).modPower (fun w => { w with state := .boot, supplyMv := i.supplyMv, level := .normal })
  let s := s.modFw (fun f => { f with startIn := some i, powerAt := s.now })
  let s := (s.modTime (fun t => { t with ref := i.refclk })).modSecurity (fun v => { v with extTamper := i.tamperLow })
  if i.tamperLow then wipeVault s 1 else s

theorem exec_start {s : State} {i : StartIn} (hs : s.power.state = .off) (hi : 45000 < i.supplyMv) :
    exec (.start i) s = .next (runBoot (startedState s i)) := by
  show execStart i s = _
  unfold execStart
  rw [if_neg (by simp [hs, hi])]
  rfl

/-- The base of an OFF module with its power on. -/
theorem startedState_base (i : StartIn) : (startedState s i).base =
    { mem := Mem.init, now := s.now, fuses := s.fuses
      fw := { Firmware.init with startStep := 0, hbm := 0, powerAt := s.now, startIn := some i }
      power := { Power.init with state := .boot, supplyMv := i.supplyMv, prsnt := s.power.prsnt, cycleAt := s.now, level := .normal } } := by
  unfold startedState
  extract_lets u v w
  split
  · exact (wipeVault_base rfl 1).trans rfl
  · rfl

/-- PRSNT_MATE of a module not in BOOT, or whose step 1 waits for something else. -/
theorem exec_prsntMate_notes {s : State}
    (h : s.power.state ≠ .boot ∨ s.fw.startStep ≠ 0 ∨ s.fw.startIn = none ∨ s.power.supplyHeld = true) :
    exec .prsntMate s = .next { s with power := { s.power with prsnt := true } } := by
  show (if s.power.state = .boot then _ else _) = _
  split
  · next hb =>
    refine congrArg _ (runBoot_waits ?_)
    show s.fw.startIn = none ∨ true = false ∨ s.fw.startStep ≠ 0 ∨ s.power.supplyHeld = true
    obtain h | h | h | h := h
    · exact absurd hb h
    · exact .inr (.inr (.inl h))
    · exact .inl h
    · exact .inr (.inr (.inr h))
  · rfl

theorem exec_prsntMate_runs {s : State} {i : StartIn} (hb : s.power.state = .boot) (hh : s.power.supplyHeld = false)
    (h0 : s.fw.startStep = 0) (hi : s.fw.startIn = some i) :
    exec .prsntMate s = .next (bootRom { s with power := { s.power with prsnt := true }, fuses := s.fuses.strapped i } i) := by
  have hr : runBoot (s.modPower fun w => { w with prsnt := true }) = _ := runBoot_runs hi rfl h0 hh
  exact (if_pos hb).trans (congrArg _ hr)

/-! ### Step 9 -/

/-- The counters of an entry into HOLD are no part of memory, time, fuses or the module state (00 R12). -/
theorem clearCounts_base : (clearCounts s).base =
    { s.base with
      power := { s.power with sheds := 0, supplyHolds := 0, descents := 0, quenches := 0 }
      fw := { s.fw with loadPort := 0, result := 0, crcFail := 0, activations := 0, deferrals := 0 } } := by
  simp only [clearCounts, forI3c, State.modFw_base, State.modEvents_base, State.modLanes_base,
    forPorts_view _ State.base fun n u => State.modLink_base u n _, State.modCsi_base, State.modSecurity_base, State.modPower_base,
    State.modTime_base, State.modOrders_base, State.modPort_base]
  rfl

theorem clearCounts_parts : (clearCounts s).parts = s.parts := by
  simp [clearCounts, forI3c, forPorts_view _ State.parts fun n u => State.modLink_parts u n _]

/-- Entry into QUENCH from a powered state other than QUENCH (14 R381). -/
theorem enterQuench_base {s : State} (hp : powered s = true) (hq : s.power.state ≠ .quench) (cause : Nat) :
    (enterQuench s cause).base =
      { s.base with
        power := { s.power with quenchAt := s.now, state := .quench, quenchFrom := s.power.state, quenchCause := cause, latch := true,
                                quenches := satAdd 8 s.power.quenches 1 } } := by
  have hb : s.power.state ≠ .boot := by rintro e; simp [powered, e] at hp
  have hyield : ∀ p (u : State), (if (u.part p).claim.paired then yieldClaim u p else u).base = u.base := fun p u => by split <;> simp
  unfold enterQuench
  dsimp only
  rw [if_neg (by simp [State.modPower, hb]), if_neg (by simpa [State.modPower, powered, hq] using hp)]
  simp only [setSelfRefresh_base, forParts_view _ State.base hyield, State.event_base, State.modThermal_base, State.modPower_base,
    settleHolds_base]
  rfl

/-- The entry into HOLD, before a QUENCH cause that came in BOOT takes the module on to QUENCH. -/
theorem enterHold_eq : ∃ u : State, enterHold s = (if s.power.quenchCause = 0 then u else enterQuench u s.power.quenchCause) ∧
    u.power.state = .hold ∧ u.fw.startStep = 9 ∧ u.now = s.now ∧ u.mem = s.mem ∧ u.parts = s.parts := by
  unfold enterHold
  extract_lets v n w x u
  have hv : v.base = _ := clearCounts_base s
  have hvp : v.parts = s.parts := clearCounts_parts s
  clear_value v
  have hu : u.base = x.base := State.event_base ..
  have hup : u.parts = x.parts := State.event_parts ..
  clear_value u
  have hq : u.power.quenchCause = s.power.quenchCause := (congrArg (·.power.quenchCause) hu).trans (congrArg (·.power.quenchCause) hv)
  refine ⟨u, by rw [hq], congrArg (·.power.state) hu, congrArg (·.fw.startStep) hu, ?_, ?_, hup.trans hvp⟩
  · exact (congrArg Base.now hu).trans (congrArg Base.now hv)
  · exact (congrArg Base.mem hu).trans (congrArg Base.mem hv)

theorem enterHold_holds {s : State} (hq : s.power.quenchCause = 0) :
    (enterHold s).power.state = .hold ∧ (enterHold s).parts = s.parts := by
  obtain ⟨u, hu, hs, -, -, -, hp⟩ := enterHold_eq s
  rw [hu, if_pos hq]
  exact ⟨hs, hp⟩

theorem enterHold_quenches {s : State} (hq : s.power.quenchCause ≠ 0) :
    (enterHold s).power.state = .quench ∧ (enterHold s).power.quenchCause = s.power.quenchCause := by
  obtain ⟨u, hu, hs, -⟩ := enterHold_eq s
  have hb := enterQuench_base (s := u) (by simp [powered, hs]) (by simp [hs]) s.power.quenchCause
  rw [hu, if_neg hq]
  exact ⟨congrArg (·.power.state) hb, congrArg (·.power.quenchCause) hb⟩

/-- In HOLD or in QUENCH, the start is over and memory is as it was. -/
theorem enterHold_base : (enterHold s).fw.startStep = 9 ∧ (enterHold s).now = s.now ∧ (enterHold s).mem = s.mem := by
  obtain ⟨u, hu, hs, hf, hn, hm, -⟩ := enterHold_eq s
  rw [hu]
  split
  · exact ⟨hf, hn, hm⟩
  · have hb := enterQuench_base (s := u) (by simp [powered, hs]) (by simp [hs]) s.power.quenchCause
    exact ⟨(congrArg (·.fw.startStep) hb).trans hf, (congrArg Base.now hb).trans hn, (congrArg Base.mem hb).trans hm⟩

theorem enterHold_leavesBoot : (enterHold s).power.state ≠ .boot := by
  by_cases hq : s.power.quenchCause = 0
  · simp [(enterHold_holds hq).1]
  · simp [(enterHold_quenches hq).1]

/-- The end of step 7 is noted in the firmware's registers. -/
theorem endStep7_modFw : ∃ f, endStep7 s = s.modFw f := by
  unfold endStep7
  split
  · exact ⟨_, rfl⟩
  · exact ⟨id, rfl⟩

/-- The limit of the time lock ends the start, whether step 8 has ended or not. -/
theorem exec_startTimeLockTimeout {s : State} (hb : s.power.state = .boot) (h6 : 6 ≤ s.fw.startStep) :
    exec .startTimeLockTimeout s = .next (enterHold (endStep7 (s.reach (s.fw.step5At + sec 3)))) := by
  obtain ⟨f, hf⟩ := endStep7_modFw (s.reach (s.fw.step5At + sec 3))
  show execStartTimeLockTimeout s = _
  unfold execStartTimeLockTimeout settleStart
  rw [if_pos (by simp [hb, h6]), if_neg (by simp [hb])]
  dsimp only
  split
  · rw [if_neg (enterHold_leavesBoot _)]
  · rw [if_pos (by rw [hf]; exact hb)]

/-! ### The statement, clause by clause -/

/-- SUPPLY_RESET takes 50 µs from the fall of the supply (14 R395). -/
theorem exec_supplyReset {s : State} (hs : s.power.state ≠ .off) : exec .supplyReset s = .next (offState (s.reach (s.now + us 50))) :=
  if_neg hs

theorem offState_part : (offState s).part p = Part.init := reset_part p
theorem offState_port (x : I3cId) : (offState s).port x = I3cPort.init := reset_port x
theorem offState_cluster (k : ClusterId) : (offState s).cluster k = { Cluster.init with trained := false } := Vector.getElem_replicate ..

/-- With PRSNT_N high, step 1 of the start waits. -/
theorem start_waits {s : State} (hp : s.power.prsnt = false) (i : StartIn) : runBoot (startedState s i) = startedState s i := by
  obtain ⟨-, -, -, -, hpower⟩ := Base.mk.inj (startedState_base s i)
  exact runBoot_waits (.inr (.inl (by rw [hpower, hp])))

theorem start_runs {s : State} (hp : s.power.prsnt = true) (i : StartIn) :
    runBoot (startedState s i) = bootRom { startedState s i with fuses := s.fuses.strapped i } i := by
  obtain ⟨-, -, hfuses, hfw, hpower⟩ := Base.mk.inj (startedState_base s i)
  rw [runBoot_runs (by rw [hfw]) (by rw [hpower, hp]) (by rw [hfw]) (by rw [hpower]; rfl), hfuses]

end

/-- Settles O20, clause by clause. -/
theorem supplyLossAndStart : Obligations.SupplyLossAndStart := by
  unfold Obligations.SupplyLossAndStart
  intro s i
  refine ⟨fun hs => ?_, fun hs hi => ?_, exec_prsntMate_notes, fun hb hh h0 hi ht => ?_, fun hb h6 => ?_⟩
  · refine ⟨_, exec_supplyReset hs, rfl, ?_, rfl, fun p => ?_, fun x => ?_, rfl, fun k => ?_, rfl, rfl⟩
    · exact Nat.max_eq_right (Nat.le_add_right _ _)
    · rw [offState_part]
      exact ⟨rfl, rfl, rfl⟩
    · rw [offState_port]
      rfl
    · rw [offState_cluster]
      rfl
  · obtain ⟨hmem, -, hfuses, hfw, hpower⟩ := Base.mk.inj (startedState_base s i)
    refine ⟨_, exec_start hs hi, ?_⟩
    cases hp : s.power.prsnt with
    | false =>
      rw [start_waits hp]
      refine ⟨?_, ?_, ?_, ?_, hmem, fun _ => ⟨?_, hfuses⟩, nofun⟩ <;> simp only [hfw, hpower, hfuses]
    | true =>
      rw [start_runs hp]
      cases ht : i.selfTest with
      | false =>
        rw [bootRom_fails _ ht]
        exact ⟨congrArg Power.state hpower, congrArg Power.supplyMv hpower, congrArg Firmware.startIn hfw, rfl, hmem, nofun,
          fun _ => ⟨rfl, rfl, fun _ => ⟨rfl, rfl⟩, nofun⟩⟩
      | true =>
        have hb := bootRom_base (s := { startedState s i with fuses := s.fuses.strapped i }) (congrArg Power.state hpower) ht
        obtain ⟨hmem', -, hfuses', hfw', hpower'⟩ := Base.mk.inj hb
        refine ⟨?_, ?_, ?_, ?_, hmem'.trans hmem, nofun, fun _ => ⟨?_, ?_, nofun, fun _ => ⟨?_, bootRom_identity _ ht, hfuses'⟩⟩⟩
        · exact congrArg Power.state (hpower'.trans hpower)
        · exact congrArg Power.supplyMv (hpower'.trans hpower)
        · exact (congrArg Firmware.startIn hfw').trans (congrArg Firmware.startIn hfw)
        · rw [hfuses']
          rfl
        · exact congrArg Fuses.tray hfuses'
        · exact congrArg Fuses.slot hfuses'
        · exact congrArg Firmware.startStep hfw'
  · have hu := bootRom_base (s := { s with power := { s.power with prsnt := true }, fuses := s.fuses.strapped i }) hb ht
    obtain ⟨-, -, hfuses, hfw, hpower⟩ := Base.mk.inj hu
    exact ⟨_, exec_prsntMate_runs hb hh h0 hi, congrArg Power.prsnt hpower, (congrArg Power.state hpower).trans hb,
      congrArg Firmware.startStep hfw, bootRom_identity _ ht, hfuses⟩
  · obtain ⟨f, hf⟩ := endStep7_modFw (s.reach (s.fw.step5At + sec 3))
    let v := (s.reach (s.fw.step5At + sec 3)).modFw f
    obtain ⟨hstep, hnow, hmem⟩ := enterHold_base v
    refine ⟨enterHold v, (exec_startTimeLockTimeout hb h6).trans (by rw [hf]), hstep, hnow, hmem, enterHold_holds (s := v),
      enterHold_quenches (s := v)⟩

end Sys2Proof.Machine

namespace Sys2Proof.Machine

/-! ## Number formats and exact accumulation (O35, O36, O37, O38)

Lanes under `Lane.join` form a commutative monoid with unit `Lane.start`, and adding a product joins the lane of that one product
(`Lane.mulAdd_eq_join`): that a lane is order free rests on these two facts. What an exact zero writes and what a record reads back follow
from one lemma per function on the way. -/

/-! ### Joining lanes and adding products (03 R77–R79) -/

section
variable (l m k : Lane)

theorem Lane.join_comm : l.join m = m.join l := by simp [Lane.join, Int.add_comm, Bool.or_comm]
theorem Lane.join_assoc : (l.join m).join k = l.join (m.join k) := by simp [Lane.join, Int.add_assoc, Bool.or_assoc]
@[simp] theorem Lane.start_join : Lane.start.join l = l := by simp [Lane.join, Lane.start]
@[simp] theorem Lane.join_start : l.join Lane.start = l := by rw [Lane.join_comm, Lane.start_join]

theorem Lane.join_right_comm : (l.join m).join k = (l.join k).join m := by
  rw [Lane.join_assoc, Lane.join_comm m, ← Lane.join_assoc]

/-- A NaN factor gives a NaN product, whatever the other factor and on either side. -/
@[simp] theorem Lane.mulAdd_nan_left (b : Num) : l.mulAdd .nan b = { l with nan := true } := rfl
@[simp] theorem Lane.mulAdd_nan_right (a : Num) : l.mulAdd a .nan = { l with nan := true } := by cases a <;> rfl

theorem Lane.setNan_eq_join : { l with nan := true } = l.join { Lane.start with nan := true } := by simp [Lane.join, Lane.start]

theorem Lane.addInf_eq_join (neg : Bool) : l.addInf neg = l.join (Lane.start.addInf neg) := by
  cases neg <;> simp [Lane.addInf, Lane.join, Lane.start]

/-- An infinity times a finite value, in either order of the factors. -/
theorem Lane.infTimes_eq_join (m : Nat) (neg : Bool) : (if m = 0 then { l with nan := true } else l.addInf neg) =
    l.join (if m = 0 then { Lane.start with nan := true } else Lane.start.addInf neg) := by
  split
  · exact l.setNan_eq_join
  · exact l.addInf_eq_join neg

/-- A product adds to every lane what it adds to an empty one. -/
theorem Lane.mulAdd_eq_join (a b : Num) : l.mulAdd a b = l.join (Lane.start.mulAdd a b) := by
  cases a with
  | nan => exact l.setNan_eq_join
  | inf s =>
    cases b with
    | nan => exact l.setNan_eq_join
    | inf t => exact l.addInf_eq_join (s != t)
    | fin t n f => exact l.infTimes_eq_join n (s != t)
  | fin s n e =>
    cases b with
    | nan => exact l.setNan_eq_join
    | inf t => exact l.infTimes_eq_join n (s != t)
    | fin t n' f => simp [Lane.mulAdd, Lane.join, Lane.start]

/-- Two products add alike in either order. -/
theorem Lane.mulAdd_right_comm (p q : Num × Num) : (l.mulAdd p.1 p.2).mulAdd q.1 q.2 = (l.mulAdd q.1 q.2).mulAdd p.1 p.2 := by
  rw [Lane.mulAdd_eq_join, Lane.mulAdd_eq_join l, Lane.join_right_comm, ← Lane.mulAdd_eq_join, ← Lane.mulAdd_eq_join]

end

/-- The lane that accumulates `ps` from the start of a chain. -/
def Lane.ofProducts (ps : List (Num × Num)) : Lane := ps.foldl (fun l p => l.mulAdd p.1 p.2) Lane.start

/-- To accumulate `ps` in `l` is to join to `l` the lane of `ps`. -/
theorem Lane.join_ofProducts (l : Lane) (ps : List (Num × Num)) :
    l.join (Lane.ofProducts ps) = ps.foldl (fun l p => l.mulAdd p.1 p.2) l := by
  induction ps generalizing l with
  | nil => exact l.join_start
  | cons p ps ih =>
    calc l.join (Lane.ofProducts (p :: ps))
      _ = l.join ((Lane.start.mulAdd p.1 p.2).join (Lane.ofProducts ps)) := by rw [ih]; rfl
      _ = (l.mulAdd p.1 p.2).join (Lane.ofProducts ps) := by rw [← Lane.join_assoc, ← Lane.mulAdd_eq_join]
      _ = _ := ih _

/-- Joining the lanes of groups accumulates the groups one after the other. -/
theorem Lane.foldl_join_ofProducts (l : Lane) (groups : List (List (Num × Num))) :
    (groups.map Lane.ofProducts).foldl Lane.join l = groups.flatten.foldl (fun l p => l.mulAdd p.1 p.2) l := by
  induction groups generalizing l with
  | nil => rfl
  | cons g gs ih => rw [List.map_cons, List.foldl_cons, ih, Lane.join_ofProducts, List.flatten_cons, List.foldl_append]

/-! ### A block's scale (03 R70, R71) -/

theorem readElem_nanScale (rd : Nat → Nat) {sc : Nat → Nat} (tab : List Nat) {code i : Nat} (hb : isBlock code = true)
    (hs : sc (i / 32) = 0xFF) : readElem rd sc tab code i = .nan := by
  simp [readElem, hb, hs, scaleNum]

/-! ### Zero at write-out (03 R81–R85) -/

/-- A ratio of zero stays zero when shifted. -/
theorem shiftRatio_zero (d : Nat) (k : Int) : (shiftRatio 0 d k).1 = 0 := by
  unfold shiftRatio
  split <;> simp

/-- Zero is on every grid: no rounding moves it, not even by a random word. -/
theorem roundMag_zero (d : Nat) (k : Int) (rnd r : Nat) : roundMag 0 d k rnd r = 0 := by simp [roundMag]

theorem two_pow_pos_int (n : Nat) : (0 : Int) < 2 ^ n := Int.pow_pos (by decide)

theorem twosNat_zero (w : Nat) : twosNat w 0 = 0 := by rw [twosNat, Int.zero_emod, Int.toNat_zero]

/-- Zero is in the range of every integer format. -/
theorem clampInt_zero (w : Nat) (g : Bool) : clampInt w g 0 = 0 := by
  have hu := two_pow_pos_int w
  have hs := two_pow_pos_int (w - 1)
  have hunsigned : max 0 (min 0 ((2 : Int) ^ w - 1)) = 0 := by omega
  have hsigned : max (-(2 : Int) ^ (w - 1)) (min 0 (2 ^ (w - 1) - 1)) = 0 := by omega
  cases g with
  | false => exact (congrArg (twosNat w) hunsigned).trans (twosNat_zero w)
  | true => exact (congrArg (twosNat w) hsigned).trans (twosNat_zero w)

theorem signed_zero (neg : Bool) : signed neg 0 = 0 := by cases neg <;> rfl

/-- The code of a zero of either sign. -/
theorem signCode_zero (bits : Nat) (neg : Bool) : signCode bits neg 0 = if neg then 2 ^ (bits - 1) else 0 := by
  cases neg <;> simp [signCode, bit]

/-- An exact zero writes +0 in every scalar format. -/
theorem writeScalar_zero (d : Wdesc) (r : Nat) (neg : Bool) (den : Nat) : writeScalar d r (.num neg 0 den) = 0 := by
  unfold writeScalar
  split
  · rfl
  · split
    · simp only [shiftRatio_zero, roundMag_zero, signed_zero, clampInt_zero]
    · rfl

/-- A nonzero value that rounds to zero writes a zero of its sign. -/
theorem writeScalar_roundsToZero {d : Wdesc} {f : FloatFmt} {r n den : Nat} (neg : Bool) (hf : floatFmt d.fmt = some f) (hn : n ≠ 0)
    (h : floatCode f (shiftRatio n den d.shift).1 (shiftRatio n den d.shift).2 d.rnd r = 0) :
    writeScalar d r (.num neg n den) = signCode f.bits neg 0 := by
  simp [writeScalar, hf, hn, h]

/-- An exact zero writes +0 in every element of a block format. -/
theorem mxElem_zero (fmt rnd r : Nat) (neg : Bool) (den : Nat) : mxElem fmt rnd r neg 0 den = 0 := by
  unfold mxElem
  split
  · rw [roundMag_zero, signed_zero, clampInt_zero]
  · split <;> rfl

theorem mxElem_roundsToZero {fmt rnd r n den : Nat} {f : FloatFmt} (neg : Bool) (h12 : fmt ≠ 12) (hf : floatFmt (mxElement fmt) = some f)
    (hn : n ≠ 0) (h : floatCode f n den rnd r = 0) : mxElem fmt rnd r neg n den = signCode f.bits neg 0 := by
  simp [mxElem, h12, hf, hn, h]

/-! ### An exact partial record (03 R79) -/

/-- A signed number in the range of `n + 1` bits, written in them and read again is the number. -/
theorem signedOf_twosNat {n : Nat} {v : Int} (hl : -(2 ^ n) ≤ v) (hu : v < 2 ^ n) : signedOf (n + 1) (twosNat (n + 1) v) = v := by
  have hp : (2 : Int) ^ (n + 1) = 2 * 2 ^ n := by rw [Int.pow_succ, Int.mul_comm]
  have hc : ((2 ^ n : Nat) : Int) = 2 ^ n := Int.natCast_pow 2 n
  simp only [signedOf, twosNat, Nat.add_sub_cancel, hp] 
  generalize (2 : Int) ^ n = M at *
  by_cases hv : 0 ≤ v
  · have hm : v % (2 * M) = v := Int.emod_eq_of_lt hv (by omega)
    rw [hm, if_pos (by omega)]
    omega
  · have hm : v % (2 * M) = v + 2 * M := by rw [← Int.add_emod_right, Int.emod_eq_of_lt (by omega) (by omega)]
    rw [hm, if_neg (by omega)]
    omega

theorem twosNat_lt (w : Nat) (v : Int) : twosNat w v < 2 ^ w := by
  have h := two_pow_pos_int w
  have hlt := Int.emod_lt_of_pos v h
  have hc : ((2 ^ w : Nat) : Int) = 2 ^ w := Int.natCast_pow 2 w
  unfold twosNat
  omega

/-- A signed number of `k` bytes fits them. -/
theorem twosNat_mod_bytes (k : Nat) (v : Int) : twosNat (8 * k) v % 256 ^ k = twosNat (8 * k) v := by
  apply Nat.mod_eq_of_lt
  rw [show (256 : Nat) = 2 ^ 8 from rfl, ← Nat.pow_mul]
  exact twosNat_lt _ v

/-- A field written among other bytes reads back, modulo its width. -/
theorem fieldAt_leBytes (pre post : Bytes) (n v : Nat) : fieldAt (pre ++ (leBytes n v ++ post)) pre.length n = v % 256 ^ n := by
  have h : ((pre ++ (leBytes n v ++ post)).drop pre.length).take n = leBytes n v := by
    rw [List.drop_left, List.take_left' (leBytes_length n v)]
  rw [fieldAt, h, leNat_leBytes]

theorem bit_le_one (b : Bool) : bit b ≤ 1 := by cases b <;> decide

section
variable (l : Lane)

theorem Lane.flags_lt : l.flags < 8 := by
  unfold Lane.flags
  have hnan := bit_le_one l.nan
  have hpinf := bit_le_one l.pinf
  have hminf := bit_le_one l.minf
  omega

theorem Lane.bitOf_flags : bitOf l.flags 0 = l.nan ∧ bitOf l.flags 1 = l.pinf ∧ bitOf l.flags 2 = l.minf := by
  unfold Lane.flags
  generalize l.nan = a
  generalize l.pinf = b
  generalize l.minf = c
  decide +revert

theorem Lane.record_length : l.record.length = 96 := by simp [Lane.record]

theorem Lane.record_acc : fieldAt l.record 0 80 = twosNat 640 l.acc := by
  rw [Lane.record, List.append_assoc]
  exact (fieldAt_leBytes [] _ 80 _).trans (twosNat_mod_bytes 80 l.acc)

theorem Lane.record_flags : fieldAt l.record 80 1 = l.flags := by
  have h := fieldAt_leBytes (leBytes 80 (twosNat 640 l.acc)) (zeros 15) 1 l.flags
  have hf := l.flags_lt
  rw [leBytes_length, Nat.mod_eq_of_lt (by omega)] at h
  rw [Lane.record, List.append_assoc, h]

theorem Lane.record_rest : zeroAt l.record 81 15 = true := by
  have h : l.record.drop 81 = zeros 15 := List.drop_left' (by simp)
  rw [zeroAt, h]
  decide

theorem Lane.recordOk_record : recordOk l.record = true := by
  simp [recordOk, l.record_flags, l.flags_lt, l.record_rest]

end

/-- A lane in the accumulator's range (03 R75) reads back whole. -/
theorem laneOfRecord_record {l : Lane} (hl : -(2 ^ 639) ≤ l.acc) (hu : l.acc < 2 ^ 639) : laneOfRecord l.record = l := by
  obtain ⟨hnan, hpinf, hminf⟩ := l.bitOf_flags
  rw [laneOfRecord, l.record_acc, l.record_flags, hnan, hpinf, hminf, signedOf_twosNat (n := 639) hl hu]

/-! ### The statements -/

/-- Settles O36: the joined groups accumulate one after the other (`Lane.foldl_join_ofProducts`), and two products commute, so any
permutation accumulates alike. -/
theorem laneIsOrderFree : Obligations.LaneIsOrderFree := by
  unfold Obligations.LaneIsOrderFree
  intro products groups hperm
  have h : (groups.map Lane.ofProducts).foldl Lane.join Lane.start = Lane.ofProducts products :=
    (Lane.foldl_join_ofProducts Lane.start groups).trans (hperm.foldl_eq' (fun p _ q _ l => l.mulAdd_right_comm p q) Lane.start)
  exact ⟨h, fun w r => congrArg (fun l => writeScalar w r l.value) h⟩

/-- Settles O37: an exact zero by `writeScalar_zero` and `mxElem_zero`, a magnitude that rounds to the code 0 by `signCode_zero`. -/
theorem zerosKeepTheirSign : Obligations.ZerosKeepTheirSign := by
  unfold Obligations.ZerosKeepTheirSign
  refine ⟨writeScalar_zero, fun d f r n den neg hf hn h => ?_, fun fmt rnd r den neg _ _ => mxElem_zero fmt rnd r neg den,
    fun fmt rnd r n den f neg _ h11 hf hn h => ?_⟩
  · rw [writeScalar_roundsToZero neg hf hn h, signCode_zero]
  · rw [mxElem_roundsToZero neg (by omega) hf hn h, signCode_zero]

/-- Settles O38: the three parts of a record, each read back by its own lemma. -/
theorem exactRecordRoundTrip : Obligations.ExactRecordRoundTrip := by
  unfold Obligations.ExactRecordRoundTrip
  exact fun l hl hu => ⟨l.record_length, l.recordOk_record, laneOfRecord_record hl hu⟩

/-- Settles O35: the element is a NaN (`readElem_nanScale`), and so is every product of it. -/
theorem nanScaleMakesNanProducts : Obligations.NanScaleMakesNanProducts := by
  unfold Obligations.NanScaleMakesNanProducts
  intro rd sc tab code i hb hs l b
  rw [readElem_nanScale rd tab hb hs]
  exact ⟨l.mulAdd_nan_left b, l.mulAdd_nan_right b⟩

end Sys2Proof.Machine

namespace Sys2Proof.Machine

/-! ## Orders about cores, and cancels (O16) -/

section
variable {s : State} {c : CoreId} {cause : FenceCause} {p : PartId}

/-- A core that is not in service is left as it is. -/
theorem fenceFor_notInService (h : (s.core c).state ≠ .inService) : fenceFor s c cause = s := by
  unfold fenceFor
  exact if_pos h

/-- The fence of a RUNNING partition's core is pending, with its cause and instant (04 R117). -/
theorem fenceFor_running (hc : (s.core c).state = .inService) (hp : partOfCore s c = some p) (hr : (s.part p).state = .running) :
    fenceFor s c cause = s.modCore c (fun k => { k with state := .fencePending, cause := cause, causeAt := s.stamp }) := by
  have hp' (f) : partOfCore (s.modCore c f) c = some p := hp
  unfold fenceFor
  simp [hc, hp', hr]

@[simp] theorem State.event_core (s : State) (u code part : Nat) (data : Bytes) (c : CoreId) : (s.event u code part data).core c = s.core c := by
  unfold State.core
  rw [State.event_cores]

@[simp] theorem fenceEvent_core (c' : CoreId) {code layout : Nat} : (fenceEvent s c code layout).core c' = s.core c' := State.event_core ..
@[simp] theorem fenceEvent_mem {code layout : Nat} : (fenceEvent s c code layout).mem = s.mem := State.event_mem ..
@[simp] theorem fenceEvent_parts {code layout : Nat} : (fenceEvent s c code layout).parts = s.parts := State.event_parts ..

/-- Of no partition, or of one that is neither ARMED nor RUNNING, a core is FENCED at once, and only its event is made beside (04 R117). -/
theorem fenceFor_atOnce (hc : (s.core c).state = .inService)
    (hp : ∀ p, partOfCore s c = some p → (s.part p).state ≠ .running ∧ (s.part p).state ≠ .armed) :
    ∃ layout, fenceFor s c cause =
      fenceEvent (s.modCore c (fun k => { k with state := .fenced, cause := cause, causeAt := s.stamp })) c (causeCode cause) layout := by
  have hsame (f) : partOfCore (s.modCore c f) c = partOfCore s c := rfl
  have honce : fenceCore (s.modCore c (fun k => { k with state := .fencePending, cause := cause, causeAt := s.stamp })) c =
      s.modCore c (fun k => { k with state := .fenced, cause := cause, causeAt := s.stamp }) := by
    simp [fenceCore, State.modCore]
  unfold fenceFor
  cases ho : partOfCore s c with
  | none => exact ⟨0, by simp [hc, hsame, ho, honce]⟩
  | some p =>
    obtain ⟨hrun, harm⟩ := hp p ho
    have hpart (f) : (s.modCore c f).part p = s.part p := rfl
    exact ⟨(s.part p).layout, by simp [hc, hsame, ho, hpart, hrun, honce, harm]⟩

end

/-- What a fence order's row does with the oldest order (04 R117). -/
theorem execCoreFence_first {s : State} {t : Taken} {rest : List Taken} (h : firstDue s 0x28 t rest) (ha : t.field 0 1 = 1) :
    execCoreFence s = .next (answerBare (fenceFor (s.withDue rest) t.core .order) t 0x00) :=
  onDue_first h (beq_iff_eq.mpr ha)

/-- What a readmit order's row does with the oldest order (04 R124; 14 R396). -/
theorem execCoreReadmit_first {s : State} {t : Taken} {rest : List Taken} (h : firstDue s 0x28 t rest) (ha : t.field 0 1 = 2) :
    execCoreReadmit s = .next (
      if s.power.latch then answerBare (s.withDue rest) t 0x01
      else if (s.core t.core).state ≠ .fenced then answerBare (s.withDue rest) t 0x07
      else answerBare ((s.withDue rest).modCore t.core (fun k => { k with state := .gloryHole })) t 0x00) :=
  onDue_first h (beq_iff_eq.mpr ha)

/-- The cancel that a row finds, of a partition that runs or is armed, joins its waiting cancels (11 R304). -/
theorem execCancel_found {s : State} {t : Taken} (h : s.orders.taken.find? (fun t => t.msg.typ == 0x26 && !cancelKnown s t) = some t) :
    execCancel s =
      if (s.part (t.part 0)).state = .armed || (s.part (t.part 0)).state = .running then
        .next (s.modPart (t.part 0) (fun x => { x with cancels := x.cancels ++ [
          { byClient := t.field 1 1 == 1, target := t.field 8 8, stamp := t.eff, source := t.msg.issuer, frameSeq := 0,
            answer := some (t.port.val, t.msg.seq, t.eff), entered := false, stream := 0 }] }))
      else .next (answerBare (s.modOrders (fun o => { o with taken := o.taken.erase t })) t 0x10) := by
  unfold execCancel
  rw [h]

/-- The first waiting cancel enters the pending set 20 µs after its stamp (11 R304). -/
theorem execCancelPendingEntry_next {s : State} {p : PartId} {c : CancelReq} (h : nextCancel s = some (p, c)) :
    execCancelPendingEntry s = .next ((s.reachStamp (c.stamp + 20000)).modPart p (fun x => { x with
      cancels := updFirst (fun d => d == c) (fun d => { d with entered := true }) x.cancels })) := by
  unfold execCancelPendingEntry
  rw [h]
  rfl

/-- Settles O16: the rows take the oldest order (`onDue_first`), and a fence order does what `fenceFor` says of its core. That a fence
leaves a core out of service alone is log entry 136, the cancel's refusal log entry 62, and the time of its entry log entry 10. -/
theorem coreAndCancelOrders : Obligations.CoreAndCancelOrders := by
  unfold Obligations.CoreAndCancelOrders
  intro s t rest
  refine ⟨fun h ha hl hc => ?_, fun h ha hl hc => ?_, fun h ha hl => ?_, ?fence, fun h => ⟨fun hp => ?_, fun harm hrun => ?_⟩,
    fun p c h => execCancelPendingEntry_next h⟩
  · exact (execCoreReadmit_first h ha).trans (by simp [hl, hc])
  · exact (execCoreReadmit_first h ha).trans (by simp [hl, hc])
  · exact (execCoreReadmit_first h ha).trans (by simp [hl])
  case fence =>
    intro u hu h ha
    subst hu
    refine ⟨execCoreFence_first h ha, fun hc => fenceFor_notInService hc, fun p hc hp hr => fenceFor_running hc hp hr, fun hc hp => ?_⟩
    obtain ⟨layout, hf⟩ := fenceFor_atOnce (s := s.withDue rest) (cause := .order) hc hp
    rw [hf]
    exact ⟨by simp, by simp, fun c hne => (fenceEvent_core c).trans (State.modCore_core_ne _ _ _ _ hne.symm), by simp, by simp⟩
  · exact (execCancel_found h).trans (if_pos (by simpa using hp))
  · exact (execCancel_found h).trans (if_neg (by simp [harm, hrun]))
end Sys2Proof.Machine

namespace Sys2Proof.Machine

/-! ## Tensor commands (O28) -/

/-! ### MATMUL and REDUCE -/

section
variable {s : State} {p : PartId} {q : Nat} {d : Due}

theorem engineStarts_part {cls opcode : Nat} (h : engineStarts s p q cls opcode d) : d.p = p := by
  obtain ⟨hdue, -⟩ := h
  exact (dueCommand_spec hdue).1

/-- MATMUL whose result's place serves and whose operands are there one after the other (04 R105, R106, R110). -/
theorem execMatmul_serves {g : MatArgs} {pa pb pp : Plane} {s1 s2 s3 : State} {lanes : List Lane} {recs : List (Lane × Nat)}
    (hstart : engineStarts s p q 1 0x0100 d) (hg : g = matArgs d.record) (hsink : sinkServes s d g.c (lanesExtent g.w (g.m * g.n)))
    (hreads : readsServe s d ([(g.a, extent g.aFmt (g.m * g.k)), (g.b, extent g.bFmt (g.n * g.k))] ++
      (if g.partialIn then [(trefOf g.tail, 96 * (g.m * g.n))] else [])))
    (ha : sourceServes s d g.a (extent g.aFmt (g.m * g.k)) pa s1) (hb : sourceServes s1 d g.b (extent g.bFmt (g.n * g.k)) pb s2)
    (hp : if g.partialIn then sourceServes s2 d (trefOf g.tail) (96 * (g.m * g.n)) pp s3 else s3 = s2)
    (hrecs : recs = if g.partialIn then (List.range (g.m * g.n)).map (planeRecord pp) else [])
    (hlanes : lanes = (matLanes (s.part p) g pa pb).mapIdx (fun i l => l.join (recs.getD i (Lane.start, 0)).1)) :
    execMatmul p q s = .next (issue (storeResult s3 d g.c 0 (writeLanes g.w (elemRandom (s.part p) d.record) lanes)) d (matBeats g 1)
      (joinErr (if planeBad pa g.aFmt (g.m * g.k) || planeBad pb g.bFmt (g.n * g.k) then 2 else 0) (recs.foldl (fun e r => joinErr e r.2) 0))
      (handoverAt d.record 53 (d.desc.inst / 8))) := by
  have hpart := engineStarts_part hstart
  have hpartial : ∃ pl, (if g.partialIn then fetch s2 d (trefOf g.tail) (96 * (g.m * g.n)) else .ok (bytesPlane [] [], s2)) = .ok (pl, s3) ∧
      (if g.partialIn then (List.range (g.m * g.n)).map (planeRecord pl) else []) = recs := by
    cases hin : g.partialIn with
    | true => exact ⟨pp, by simpa using fetch_ok (by simpa [hin] using hp), by simp [hrecs, hin]⟩
    | false => exact ⟨bytesPlane [] [], by simp [show s3 = s2 by simpa [hin] using hp], by simp [hrecs, hin]⟩
  obtain ⟨pl, hfetch, hpl⟩ := hpartial
  unfold readsServe at hreads
  refine runEngine_done hstart ?_
  simp only [matmulSteps, ← hg, hpart, sink_ok hsink, hreads, fetch_ok ha, fetch_ok hb, hfetch, hpl, hlanes, bind, Except.bind]
  rfl

/-- REDUCE whose result's place serves and whose sources are there (04 R108, R110). -/
theorem execReduce_serves {pls : List Plane} {t : State} {r : CmdRecord} {count nsrc : Nat} {ls : List (Lane × Nat)}
    (hstart : engineStarts s p q 1 0x0102 d) (hr : r = d.record) (hcount : count = bitsOf (recField r 32 4) 23 0)
    (hnsrc : nsrc = bitsOf (recField r 32 4) 26 24) (hsink : sinkServes s d (trefOf (recField r 24 4)) (lanesExtent (wdescOf (recField r 28 4)) count))
    (hreads : readsServe s d ((List.range nsrc).map (fun i => (trefOf (recField r (36 + 4 * i) 4), 96 * count))))
    (hsrc : reduceSources d count ((List.range nsrc).map (fun i => trefOf (recField r (36 + 4 * i) 4))) s = .ok (pls, t))
    (hls : ls = (List.range count).map (reduceLane pls)) :
    execReduce p q s = .next (issue
      (storeResult t d (trefOf (recField r 24 4)) 0 (writeLanes (wdescOf (recField r 28 4)) (fun _ => 0) (ls.map (fun l => l.1)))) d
      (12 + ceilDiv count 256 * (6 * nsrc + (if (wdescOf (recField r 28 4)).fmt = 31 then 6 else 1)))
      (ls.foldl (fun e l => joinErr e l.2) 0) none) := by
  unfold readsServe at hreads
  refine runEngine_done hstart ?_
  simp only [reduceSteps, ← hr, ← hcount, ← hnsrc, sink_ok hsink, hreads, hsrc, ← hls, bind, Except.bind]
  rfl

/-- GROUPED_MATMUL whose result's place serves and whose groups run in turn (04 R107). -/
theorem execGroupedMatmul_serves {g : MatArgs} {t : State} {e : Nat} (hstart : engineStarts s p q 1 0x0101 d) (hg : g = matArgs d.record)
    (hsink : sinkServes s d g.c (g.tail % 65536 * round64 (lanesExtent g.w (g.m * g.n))))
    (hreads : readsServe s d [(g.a, g.tail % 65536 * round64 (extent g.aFmt (g.m * g.k))), (g.b, g.tail % 65536 * round64 (extent g.bFmt (g.n * g.k)))])
    (hrun : (List.range (g.tail % 65536)).foldlM (fun acc grp => groupedOne d g grp acc) (s, 0) = .ok (t, e)) :
    execGroupedMatmul p q s = .next (issue t d (matBeats g (g.tail % 65536)) e (handoverAt d.record 53 (d.desc.inst / 8))) := by
  unfold readsServe at hreads
  refine runEngine_done hstart ?_
  simp only [groupedSteps, ← hg, sink_ok hsink, hreads, hrun, bind, Except.bind]
  rfl

end

/-! ### Where a command's banks lie -/

/-- Two states whose partitions, owner registers and core states agree, so that a command finds its banks in the same places, and
whose stacks agree. -/
structure SamePlaces (s t : State) : Prop where
  parts : t.parts = s.parts
  owners : t.owners = s.owners
  hbm : t.mem.hbm = s.mem.hbm
  coreState : ∀ c, (t.core c).state = (s.core c).state

namespace SamePlaces
variable {s t u : State} {d : Due}

theorem refl (s : State) : SamePlaces s s := ⟨rfl, rfl, rfl, fun _ => rfl⟩

theorem trans (h : SamePlaces s t) (g : SamePlaces t u) : SamePlaces s u :=
  ⟨g.parts.trans h.parts, g.owners.trans h.owners, g.hbm.trans h.hbm, fun c => (g.coreState c).trans (h.coreState c)⟩

theorem foldl {α : Type} {f : State → α → State} (hf : ∀ s a, SamePlaces s (f s a)) (as : List α) (s : State) :
    SamePlaces s (as.foldl f s) := by
  induction as generalizing s with
  | nil => exact .refl s
  | cons a as ih => exact (hf s a).trans (ih _)

theorem part (h : SamePlaces s t) (p : PartId) : t.part p = s.part p := by unfold State.part; rw [h.parts]

theorem physBank (h : SamePlaces s t) (x : Part) (lc b : Nat) : physBank t x lc b = Machine.physBank s x lc b := by
  have hslots (k) : slotsOf t k = slotsOf s k := by unfold slotsOf; simp only [h.coreState]
  unfold Machine.physBank physCore
  simp only [hslots]

/-- A bank that serves goes on to serve. -/
theorem coreBankServes (h : SamePlaces s t) {bank n off : Nat} {b : Fin 288} (hb : coreBankServes s d bank n off b) :
    Machine.coreBankServes t d bank n off b := by
  obtain ⟨hphys, hfits, howned⟩ := hb
  refine ⟨by rw [h.part, h.physBank, hphys], hfits, ?_⟩
  unfold ownedBy State.owner at howned ⊢
  rwa [h.owners]

end SamePlaces

theorem modCore_core_state {f : Core → Core} (hf : ∀ k, (f k).state = k.state) (s : State) (c c' : CoreId) :
    ((s.modCore c f).core c').state = (s.core c').state := by
  by_cases hc : c = c'
  · subst hc
    rw [State.modCore_core, hf]
  · rw [State.modCore_core_ne _ _ _ _ hc]

theorem foundBank_samePlaces (s : State) (w : Nat) : SamePlaces s (foundBank s w) := by
  have hb := foundBank_same s w
  refine ⟨hb.parts, hb.owners, hb.hbm, fun c => ?_⟩
  unfold foundBank
  simp only [State.event_core]
  split
  · refine modCore_core_state ?_ _ _ c
    exact fun _ => rfl
  · rfl

/-- A read of the banks that meets errors marks cores for a self-check, and moves none. -/
theorem meetBank_samePlaces (s : State) (a n : Nat) : SamePlaces s (meetBank s a n) := by
  unfold meetBank
  refine SamePlaces.trans ?_ (SamePlaces.foldl foundBank_samePlaces _ _)
  exact ⟨rfl, rfl, rfl, fun _ => rfl⟩

theorem bankWrite_samePlaces (s : State) (a : Nat) (bs : Bytes) : SamePlaces s (bankWrite s a bs) := ⟨rfl, rfl, rfl, fun _ => rfl⟩

/-- A bank reads the same after a read that meets errors. -/
theorem bankPlane_meetBank (s : State) (a n : Nat) (b : Fin 288) (off : Nat) : bankPlane (meetBank s a n) b off = bankPlane s b off := by
  unfold bankPlane
  rw [meetBank_banks, meetBank_bankPoison]

/-! ### Operands and results in banks -/

section
variable {s t : State} {d : Due} {r : TRef} {n : Nat} {b : Fin 288}

theorem fetch_bank (hk : r.kind = 0) (h : coreBankServes s d r.bank n r.off b) :
    fetch s d r n = .ok (bankPlane s b r.off, meetBank s (bankAddr b r.off) n) :=
  fetch_ok (.inl ⟨hk, b, h, rfl, rfl⟩)

theorem storeResult_bank {off at_ : Nat} (hk : r.kind = 0) (h : coreBankServes s d r.bank n off b) (bs : Bytes) :
    storeResult s d r at_ bs = bankWrite s (bankAddr b (r.off + at_)) bs := by
  obtain ⟨hphys, -⟩ := h
  unfold storeResult
  rw [if_pos hk, hphys]

/-- A command that reads banks alone, all of which serve, has all that it reads. -/
theorem readsServe_banks {rs : List (TRef × Nat)} (h : ∀ r ∈ rs, r.1.kind = 0 ∧ ∃ b, coreBankServes s d r.1.bank r.2 r.1.off b) :
    readsServe s d rs := by
  have hbanks : banksReady s d rs = .ok () := by
    induction rs with
    | nil => rfl
    | cons r rs ih =>
      obtain ⟨hk, b, hb⟩ := h r List.mem_cons_self
      have hrest := ih fun r hr => h r (List.mem_cons_of_mem _ hr)
      simp [banksReady, hk, coreBank_ok hb, hrest, Except.map, bind, Except.bind]
  have hneeds : chanNeeds rs = [] := by
    have hnone : rs.filter (fun r => r.1.kind != 0) = [] := List.filter_eq_nil_iff.mpr fun r hr => by simp [(h r hr).1]
    simp [chanNeeds, hnone]
  simp [readsServe, gatherReads, hbanks, hneeds, gatherItems, bind, Except.bind]

end

/-! ### GROUPED_MATMUL in banks -/

theorem le_round64 (n : Nat) : n ≤ round64 n := by
  unfold round64 ceilDiv
  omega

/-- One group's part of a bank that serves all of them, each in whole 64-byte words (04 R107). -/
theorem coreBankServes_group {s : State} {d : Due} {bank groups n off grp : Nat} {b : Fin 288}
    (h : coreBankServes s d bank (groups * round64 n) off b) (hgrp : grp < groups) : coreBankServes s d bank n (off + grp * round64 n) b := by
  obtain ⟨hphys, hfits, howned⟩ := h
  refine ⟨hphys, ?_, howned⟩
  have hle := le_round64 n
  have hmul : (grp + 1) * round64 n ≤ groups * round64 n := Nat.mul_le_mul_right _ hgrp
  rw [Nat.succ_mul] at hmul
  omega

/-- The operands and the result of `groups` problems lie in banks that serve. -/
structure GroupsInBanks (s : State) (d : Due) (g : MatArgs) (groups : Nat) (ba bb bc : Fin 288) : Prop where
  aKind : g.a.kind = 0
  bKind : g.b.kind = 0
  cKind : g.c.kind = 0
  a : coreBankServes s d g.a.bank (groups * round64 (extent g.aFmt (g.m * g.k))) g.a.off ba
  b : coreBankServes s d g.b.bank (groups * round64 (extent g.bFmt (g.n * g.k))) g.b.off bb
  c : coreBankServes s d g.c.bank (groups * round64 (lanesExtent g.w (g.m * g.n))) g.c.off bc

/-- The planes of group `grp`. -/
def groupA (s : State) (g : MatArgs) (ba : Fin 288) (grp : Nat) : Plane :=
  bankPlane s ba (g.a.off + grp * round64 (extent g.aFmt (g.m * g.k)))
def groupB (s : State) (g : MatArgs) (bb : Fin 288) (grp : Nat) : Plane :=
  bankPlane s bb (g.b.off + grp * round64 (extent g.bFmt (g.n * g.k)))

/-- The state once group `grp` is read from its banks and its product written. -/
def groupDone (s : State) (d : Due) (g : MatArgs) (ba bb bc : Fin 288) (grp : Nat) : State :=
  let s1 := meetBank s (bankAddr ba (g.a.off + grp * round64 (extent g.aFmt (g.m * g.k)))) (extent g.aFmt (g.m * g.k))
  let s2 := meetBank s1 (bankAddr bb (g.b.off + grp * round64 (extent g.bFmt (g.n * g.k)))) (extent g.bFmt (g.n * g.k))
  bankWrite s2 (bankAddr bc (g.c.off + grp * round64 (lanesExtent g.w (g.m * g.n))))
    (writeLanes g.w (fun e => elemRandom (s.part d.p) d.record (grp * g.m * g.n + e)) (matLanes (s.part d.p) g (groupA s g ba grp) (groupB s g bb grp)))

/-- The error of group `grp` (04 R110). -/
def groupErr (s : State) (g : MatArgs) (ba bb : Fin 288) (grp : Nat) : Nat :=
  poisonErr (planeBad (groupA s g ba grp) g.aFmt (g.m * g.k) || planeBad (groupB s g bb grp) g.bFmt (g.n * g.k))

theorem groupDone_samePlaces (s : State) (d : Due) (g : MatArgs) (ba bb bc : Fin 288) (grp : Nat) : SamePlaces s (groupDone s d g ba bb bc grp) :=
  ((meetBank_samePlaces ..).trans (meetBank_samePlaces ..)).trans (bankWrite_samePlaces ..)

section
variable {s t : State} {d : Due} {g : MatArgs} {groups : Nat} {ba bb bc : Fin 288}

theorem GroupsInBanks.after (h : GroupsInBanks s d g groups ba bb bc) (hst : SamePlaces s t) : GroupsInBanks t d g groups ba bb bc :=
  ⟨h.aKind, h.bKind, h.cKind, hst.coreBankServes h.a, hst.coreBankServes h.b, hst.coreBankServes h.c⟩

theorem groupedOne_banks (h : GroupsInBanks s d g groups ba bb bc) {grp : Nat} (hgrp : grp < groups) (e : Nat) :
    groupedOne d g grp (s, e) = .ok (groupDone s d g ba bb bc grp, joinErr e (groupErr s g ba bb grp)) := by
  have ha := fetch_bank (r := { g.a with off := g.a.off + grp * round64 (extent g.aFmt (g.m * g.k)) }) h.aKind (coreBankServes_group h.a hgrp)
  have h1 := h.after (meetBank_samePlaces s (bankAddr ba (g.a.off + grp * round64 (extent g.aFmt (g.m * g.k)))) (extent g.aFmt (g.m * g.k)))
  have hb := fetch_bank (r := { g.b with off := g.b.off + grp * round64 (extent g.bFmt (g.n * g.k)) }) h1.bKind (coreBankServes_group h1.b hgrp)
  have h2 := h1.after (meetBank_samePlaces _ (bankAddr bb (g.b.off + grp * round64 (extent g.bFmt (g.n * g.k)))) (extent g.bFmt (g.n * g.k)))
  rw [bankPlane_meetBank] at hb
  simp only [groupedOne, if_pos h.aKind, if_pos h.bKind, if_pos h.cKind, ha, hb, storeResult_bank h2.cKind h2.c, bind, Except.bind]
  rfl

theorem joinErr_zero_left (e : Nat) : joinErr 0 e = e := by
  unfold joinErr
  split <;> simp_all

theorem joinErr_poisonErr {e : Nat} (h : e = 0 ∨ e = 2) (b : Bool) : joinErr e (poisonErr b) = 0 ∨ joinErr e (poisonErr b) = 2 := by
  rcases h with rfl | rfl <;> cases b <;> decide

/-- The groups of a list run one after the other, each where the first found its banks. -/
theorem groups_run {grps : List Nat} (hgrps : ∀ grp ∈ grps, grp < groups) {e : Nat} (h : GroupsInBanks s d g groups ba bb bc)
    (he : e = 0 ∨ e = 2) :
    ∃ t e', grps.foldlM (fun acc grp => groupedOne d g grp acc) (s, e) = .ok (t, e') ∧ SamePlaces s t ∧ (e' = 0 ∨ e' = 2) := by
  induction grps generalizing s e with
  | nil => exact ⟨s, e, rfl, .refl s, he⟩
  | cons grp grps ih =>
    have hdone := groupDone_samePlaces s d g ba bb bc grp
    obtain ⟨t, e', hrun, hsame, he'⟩ := ih (fun x hx => hgrps x (List.mem_cons_of_mem _ hx)) (h.after hdone)
      (joinErr_poisonErr he (planeBad (groupA s g ba grp) g.aFmt (g.m * g.k) || planeBad (groupB s g bb grp) g.bFmt (g.n * g.k)))
    refine ⟨t, e', ?_, hdone.trans hsame, he'⟩
    rw [List.foldlM_cons, groupedOne_banks h (hgrps grp List.mem_cons_self)]
    exact hrun

/-- One group runs as one MATMUL does. -/
theorem one_group_run (h : GroupsInBanks s d g 1 ba bb bc) :
    (List.range 1).foldlM (fun acc grp => groupedOne d g grp acc) (s, 0) = .ok (groupDone s d g ba bb bc 0, groupErr s g ba bb 0) := by
  rw [List.range_one, List.foldlM_cons, groupedOne_banks h Nat.one_pos, joinErr_zero_left]
  rfl

theorem GroupsInBanks.sink (h : GroupsInBanks s d g groups ba bb bc) : sinkServes s d g.c (groups * round64 (lanesExtent g.w (g.m * g.n))) :=
  .inl ⟨h.cKind, bc, h.c⟩

theorem GroupsInBanks.reads (h : GroupsInBanks s d g groups ba bb bc) :
    readsServe s d [(g.a, groups * round64 (extent g.aFmt (g.m * g.k))), (g.b, groups * round64 (extent g.bFmt (g.n * g.k)))] := by
  refine readsServe_banks fun r hr => ?_
  simp only [List.mem_cons, List.not_mem_nil, or_false] at hr
  rcases hr with rfl | rfl
  · exact ⟨h.aKind, ba, h.a⟩
  · exact ⟨h.bKind, bb, h.b⟩

end

/-- Settles O28: each command runs by its own lemma (it has its effect when it is issued, log entry 34); in banks the groups run
(`groups_run`), and one group is `groupDone` at the references themselves. -/
theorem tensorCommandsComplete : Obligations.TensorCommandsComplete := by
  unfold Obligations.TensorCommandsComplete
  intro s p q d
  refine ⟨?matmul, ?grouped, ?inBanks, ?reduce⟩
  case matmul =>
    intro g pa pb pp s1 s2 s3 lanes recs hstart hg hsink hreads ha hb hp hrecs hlanes
    exact execMatmul_serves hstart hg hsink hreads ha hb hp hrecs hlanes
  case grouped =>
    intro g t e hstart hg hsink hreads hrun
    exact execGroupedMatmul_serves hstart hg hsink hreads hrun
  case inBanks =>
    intro g groups ba bb bc hstart hg hgroups hak hbk hck ha hb hc
    have hbanks : GroupsInBanks s d g groups ba bb bc := ⟨hak, hbk, hck, ha, hb, hc⟩
    obtain ⟨t, e, hrun, hsame, he⟩ := groups_run (grps := List.range groups) (fun _ => List.mem_range.mp) hbanks (.inl rfl)
    subst hgroups
    refine ⟨t, e, execGroupedMatmul_serves hstart hg hbanks.sink hbanks.reads hrun, hsame.hbm, hsame.parts, hsame.owners, he, fun hone => ?_⟩
    rw [hone] at hrun hbanks
    obtain ⟨rfl, rfl⟩ := Prod.mk.inj (Except.ok.inj (hrun.symm.trans (one_group_run hbanks)))
    simp [groupErr, groupDone, groupA, groupB, poisonErr, engineStarts_part hstart]
  case reduce =>
    intro pls t r count nsrc ls hstart hr hcount hnsrc hsink hreads hsrc hls
    exact execReduce_serves hstart hr hcount hnsrc hsink hreads hsrc hls

end Sys2Proof.Machine

namespace Sys2Proof.Machine

/-! ## Transfer commands (O26, O27) -/

/-! ### What a move writes -/

section
variable {a n x : Nat}

@[simp] theorem cellsRead_length (cs : List Host.Cell) (a n : Nat) : (cellsRead cs a n).length = n := by simp [cellsRead]
@[simp] theorem bankRead_length (s : State) (a n : Nat) : (bankRead s a n).length = n := cellsRead_length ..
@[simp] theorem stackRead_length (s : State) (a n : Nat) : (stackRead s a n).length = n := cellsRead_length ..

@[simp] theorem moveToBank_banks (s : State) (a : Nat) (bs : Bytes) (marks : List Bool) :
    (moveToBank s a bs marks).mem.banks = cellsWrite s.mem.banks a bs := rfl
@[simp] theorem moveToBank_hbm (s : State) (a : Nat) (bs : Bytes) (marks : List Bool) : (moveToBank s a bs marks).mem.hbm = s.mem.hbm := rfl
@[simp] theorem moveToStack_hbm (s : State) (a : Nat) (bs : Bytes) (marks : List Bool) :
    (moveToStack s a bs marks).mem.hbm = cellsWrite s.mem.hbm a bs := rfl
@[simp] theorem moveToStack_banks (s : State) (a : Nat) (bs : Bytes) (marks : List Bool) : (moveToStack s a bs marks).mem.banks = s.mem.banks := rfl
@[simp] theorem stackZero_hbm (s : State) (a n : Nat) : (stackZero s a n).mem.hbm = cellsZero s.mem.hbm a n := rfl
@[simp] theorem stackZero_banks (s : State) (a n : Nat) : (stackZero s a n).mem.banks = s.mem.banks := rfl

/-- No address of a zeroed range is listed. -/
theorem cellRead_unlisted {cs : List Host.Cell} (h : ∀ c ∈ cs, c.1 ≠ x) : cellRead cs x = 0 := by
  induction cs with
  | nil => rfl
  | cons c cs ih =>
    have hc : c.1 ≠ x := h c List.mem_cons_self
    simp [cellRead, hc, ih fun e he => h e (List.mem_cons_of_mem _ he)]

/-- A byte of a zeroed range reads 0. -/
theorem cellRead_cellsZero_in (cs : List Host.Cell) (h : a ≤ x ∧ x < a + n) : cellRead (cellsZero cs a n) x = 0 := by
  refine cellRead_unlisted fun c hc => ?_
  obtain ⟨-, hout⟩ := List.mem_filter.mp hc
  rintro rfl
  simp [h] at hout

/-- A byte outside a zeroed range reads as before. -/
theorem cellRead_cellsZero_out {cs : List Host.Cell} (hwf : cellsWf cs = true) (h : x < a ∨ a + n ≤ x) :
    cellRead (cellsZero cs a n) x = cellRead cs x := by
  induction cs with
  | nil => rfl
  | cons c cs ih =>
    obtain ⟨-, habove, hcs⟩ := (cellsWf_cons c cs).mp hwf
    by_cases hin : a ≤ c.1 ∧ c.1 < a + n
    · have hne : c.1 ≠ x := by omega
      have hdrop : cellsZero (c :: cs) a n = cellsZero cs a n := by simp [cellsZero, hin]
      rw [hdrop, ih hcs]
      by_cases hlt : x < c.1
      · simp [cellRead, hne, hlt, cellRead_above fun e he => Nat.lt_trans hlt (habove e he)]
      · simp [cellRead, hne, hlt]
    · have hkeep : cellsZero (c :: cs) a n = c :: cellsZero cs a n := by
        unfold cellsZero
        exact List.filter_cons_of_pos (by grind)
      simp [hkeep, cellRead, ih hcs]

end

/-! ### The commands run -/

section
variable {s : State} {p : PartId} {q off n : Nat} {d : Due} {k : ClusterId} {a b : Fin 288} {ref dst : BankRef}

/-- The error of a move: 0x02 when a word moved is poisoned (05 R145). -/
def moveErr (marks : List Bool) : Nat := if marks.any (fun m => m) then 2 else 0

/-- HBM_READ whose bank and stack serve (05 R141, R142, R145). -/
theorem execHbmRead_serves (href : ref = bankRefOf (recField d.record 24 4)) (hoff : off = recField d.record 28 8) (hn : n = recField d.record 36 4)
    (hstart : engineStarts s p q 5 0x0500 d) (hb : transferServes s d { ref with observer := false } n b) (hk : stackServes s d off n k) :
    execHbmRead p q s = .next (issue
      (moveToBank (meetStack s (stackAddr k off) n) (bankAddr b ref.off) (stackPlain s k off n)
        (marksRead s.mem.stackPoison (stackAddr k off / 64) (n / 64)))
      d (moveBeats n) (moveErr (marksRead s.mem.stackPoison (stackAddr k off / 64) (n / 64))) (handoverAt d.record 40 d.desc.inst)) := by
  refine runEngine_done hstart ?_
  simp only [hbmReadSteps, ← href, ← hoff, ← hn, transferBank_ok hb, transferStack_ok hk, bind, Except.bind]
  rfl

/-- HBM_WRITE whose bank and stack serve. -/
theorem execHbmWrite_serves (href : ref = bankRefOf (recField d.record 24 4)) (hoff : off = recField d.record 28 8) (hn : n = recField d.record 36 4)
    (hstart : engineStarts s p q 5 0x0501 d) (hb : transferServes s d ref n b) (hk : stackServes s d off n k) :
    execHbmWrite p q s = .next (issue
      (moveToStack (meetBank s (bankAddr b ref.off) n) (stackAddr k off) (bankRead s (bankAddr b ref.off) n)
        (marksRead s.mem.bankPoison (bankAddr b ref.off / 64) (n / 64)))
      d (moveBeats n) (moveErr (marksRead s.mem.bankPoison (bankAddr b ref.off / 64) (n / 64))) (handoverAt d.record 40 d.desc.inst)) := by
  refine runEngine_done hstart ?_
  simp only [hbmWriteSteps, ← href, ← hoff, ← hn, transferBank_ok hb, transferStack_ok hk, bind, Except.bind]
  rfl

/-- BANK_COPY whose two banks serve. -/
theorem execBankCopy_serves (href : ref = bankRefOf (recField d.record 24 4)) (hdst : dst = bankRefOf (recField d.record 28 4))
    (hn : n = recField d.record 32 4) (hstart : engineStarts s p q 5 0x0502 d) (ha : transferServes s d ref n a)
    (hb : transferServes s d { dst with observer := false } n b) :
    execBankCopy p q s = .next (issue
      (moveToBank (meetBank s (bankAddr a ref.off) n) (bankAddr b dst.off) (bankRead s (bankAddr a ref.off) n)
        (marksRead s.mem.bankPoison (bankAddr a ref.off / 64) (n / 64)))
      d (moveBeats n) (moveErr (marksRead s.mem.bankPoison (bankAddr a ref.off / 64) (n / 64))) (handoverAt d.record 40 d.desc.inst)) := by
  refine runEngine_done hstart ?_
  simp only [bankCopySteps, ← href, ← hdst, ← hn, transferBank_ok ha, transferBank_ok hb, bind, Except.bind]
  rfl

/-- HBM_ZERO whose stack serves. -/
theorem execHbmZero_serves (hoff : off = recField d.record 28 8) (hn : n = recField d.record 36 4) (hstart : engineStarts s p q 5 0x0503 d)
    (hk : stackServes s d off n k) : execHbmZero p q s = .next (issue (stackZero s (stackAddr k off) n) d 4 0 none) := by
  refine runEngine_done hstart ?_
  simp only [hbmZeroSteps, ← hoff, ← hn, transferStack_ok hk, bind, Except.bind]
  rfl

/-- The bank that a SIZE_COPY writes: a core bank of a logical core, or a cluster bank (02 R47). -/
def sizeBank (r : CmdRecord) : Nat :=
  if bitOf (recField r 29 1) 0 then 4 * (recField r 30 2 % 8) + recField r 28 1 % 4 else 32 + recField r 28 1 % 4

/-- SIZE_COPY into a bank that the transfer engine owns. -/
theorem execSizeCopy_serves (hstart : engineStarts s p q 5 0xFF01 d) (hfits : recField d.record 24 4 + 512 ≤ bankSize)
    (howned : ownedBy s p b 5 0 = true) (hphys : physBank s (s.part p) d.desc.inst (sizeBank d.record) = some b) :
    execSizeCopy p q s = .next (issue (bankWrite s (bankAddr b (recField d.record 24 4)) (sizeTable s)) d 8 0 none) := by
  obtain rfl := engineStarts_part hstart
  refine runEngine_done hstart ?_
  unfold sizeBank at hphys
  simp only [sizeCopyOp, hphys]
  rw [if_neg (by omega), if_pos howned]

end

/-- Settles O26: each command runs by its own lemma; it has its effect when it is issued (log entry 34), and a stack without a key delivers
what `stackPlain` gives (log entry 13). -/
theorem transfersComplete : Obligations.TransfersComplete := by
  unfold Obligations.TransfersComplete
  intro s p q d k a b
  exact ⟨execHbmRead_serves rfl rfl rfl, execHbmWrite_serves rfl rfl rfl, execBankCopy_serves rfl rfl rfl, execHbmZero_serves rfl rfl,
    execSizeCopy_serves⟩

/-! ### The bytes of a move -/

section
variable {s : State} {k : ClusterId} {n : Nat}

/-- A stack with a key over the whole range delivers the bytes that it holds (05 R146). -/
theorem stackPlain_keyed {off : Nat} (h1 : (unitKey s k (off / 64)).isSome = true) (h2 : (unitKey s k ((off + n - 1) / 64)).isSome = true) :
    stackPlain s k off n = stackRead s (stackAddr k off) n := by
  unfold stackPlain
  simp [h1, h2]

/-- Bytes written over cells read back, and every byte outside them reads as before. -/
theorem cellsWrite_spec {cs : List Host.Cell} (hwf : cellsWf cs = true) (a : Nat) {bs : Bytes} {n : Nat} (hn : bs.length = n) :
    cellsRead (cellsWrite cs a bs) a n = bs ∧ ∀ x, x < a ∨ a + n ≤ x → cellRead (cellsWrite cs a bs) x = cellRead cs x := by
  subst hn
  exact ⟨cellsRead_cellsWrite cs a bs hwf, fun x hx => cellRead_cellsWrite_out cs a x bs hwf hx⟩

end

/-- Settles O27: each command answers what O26's lemma says, and what it writes reads back (`cellsWrite_spec`) or, of a zeroed range, reads 0;
that the bytes stand at the destination once the command is issued is log entry 34. -/
theorem transferBytes : Obligations.TransferBytes := by
  unfold Obligations.TransferBytes
  intro s u p q d k a b hwf
  obtain ⟨hbanks, hhbm, -⟩ := (memWf_iff _).mp hwf
  refine ⟨?bankCopy, ?hbmWrite, ?hbmRead, ?hbmZero⟩
  case bankCopy =>
    intro hstart ha hb hexec
    obtain rfl := Host.Outcome.next.inj ((execBankCopy_serves rfl rfl rfl hstart ha hb).symm.trans hexec)
    obtain ⟨hread, hframe⟩ := cellsWrite_spec hbanks (bankAddr b (bankRefOf (recField d.record 28 4)).off)
      (bankRead_length s (bankAddr a (bankRefOf (recField d.record 24 4)).off) (recField d.record 32 4))
    simpa [bankRead] using ⟨hread, hframe⟩
  case hbmWrite =>
    intro hstart hb hk hexec
    obtain rfl := Host.Outcome.next.inj ((execHbmWrite_serves rfl rfl rfl hstart hb hk).symm.trans hexec)
    obtain ⟨hread, hframe⟩ := cellsWrite_spec hhbm (stackAddr k (recField d.record 28 8))
      (bankRead_length s (bankAddr b (bankRefOf (recField d.record 24 4)).off) (recField d.record 36 4))
    simpa [bankRead, stackRead] using ⟨hread, hframe⟩
  case hbmRead =>
    intro hstart hb hk hfirst hlast hexec
    obtain rfl := Host.Outcome.next.inj ((execHbmRead_serves rfl rfl rfl hstart hb hk).symm.trans hexec)
    obtain ⟨hread, hframe⟩ := cellsWrite_spec hbanks (bankAddr b (bankRefOf (recField d.record 24 4)).off)
      (stackRead_length s (stackAddr k (recField d.record 28 8)) (recField d.record 36 4))
    simpa [bankRead, stackPlain_keyed hfirst hlast] using ⟨hread, hframe⟩
  case hbmZero =>
    intro hstart hk hexec
    obtain rfl := Host.Outcome.next.inj ((execHbmZero_serves rfl rfl hstart hk).symm.trans hexec)
    simp only [issue_mem, stackZero_hbm, stackZero_banks]
    exact ⟨fun x hlo hhi => cellRead_cellsZero_in _ ⟨hlo, hhi⟩, trivial, fun x hx => cellRead_cellsZero_out hhbm hx⟩

end Sys2Proof.Machine

namespace Sys2Proof.Machine
/-! ## What every step keeps (O59)

`Inv s` says that the memory of `s` has its canonical form and that no stream of `s` is bound twice in one direction. It is threaded through
the model in the order of the model's files: for each function `F` that yields a state, `F_inv` says that `F` keeps it, and its proof cites
the lemmas of the functions that `F` calls. Memory is touched by the operations of `Laws/Memory.lean`, by the bit errors that arise, are met
and are corrected, and by the start, which empties it; bindings are touched by `modBinding`, by `enterClearing`, by `unbind` and by
STREAM_BIND, which unbinds a stream before it binds it. An update of any other field leaves what `Inv` reads as it was: `Inv` of the state
before it and `Inv` of the state after it are the same proposition by definition, and such an update needs no mention in a proof term. That
an unlisted byte reads as 0 is log entry 9. -/

/-- What names a logical stream in a direction (10 R270). -/
def Binding.key (b : Binding) : PartId × Nat × Bool := (b.part, b.stream, b.transmit)

/-- The invariant of O59: it reads the memory and the bindings of a state and nothing else. -/
def Inv (s : State) : Prop := memoryInv s ∧ bindingsOnce s

/-- Every next state of an outcome has the invariant. -/
def InvNext : Result → Prop
  | .next t => Inv t
  | _ => True

/-- The same of what an engine's datapath answers. -/
def InvOut : EngineOut → Prop
  | .stall t => Inv t
  | .done t _ _ => Inv t
  | _ => True

/-- The same of an attempt at a store command. -/
def InvStore : StoreOut → Prop
  | .wait t => Inv t
  | .done t _ _ => Inv t
  | _ => True

/-- What an engine's steps end with: a value that satisfies `P`, or an answer that has the invariant. -/
def InvEngine {α : Type} (P : α → Prop) : Engine α → Prop
  | .ok a => P a
  | .error o => InvOut o

section
variable {s t : State} {b : Bd} {a : Alloc}

theorem Inv.memory (h : Inv s) : memoryInv s := h.1
theorem Inv.bindings (h : Inv s) : bindingsOnce s := h.2

/-- A stream is bound once when the names of the bound streams differ. -/
theorem bindingsOnce_iff (s : State) : bindingsOnce s ↔ (s.csi.bindings.map Binding.key).Nodup := by
  simp [bindingsOnce, List.Nodup, List.pairwise_map, Binding.key]

/-- A state that has the memory of `s` and binds what `s` binds. -/
theorem Inv.of_view (h : Inv s) (hm : t.mem = s.mem) (hb : t.csi.bindings = s.csi.bindings) : Inv t := by
  obtain ⟨memory, bindings⟩ := h
  exact ⟨by rwa [memoryInv, hm], by rwa [bindingsOnce, hb]⟩

/-- A state that binds what `s` binds and whose memory has the canonical form. -/
theorem Inv.of_mem (h : Inv s) (hm : memWf t.mem = true) (hb : t.csi.bindings = s.csi.bindings) : Inv t :=
  ⟨hm, by simpa [bindingsOnce, hb] using h.bindings⟩

/-- A state that has the memory of `s` and binds streams of other names than one another. -/
theorem Inv.of_bindings (h : Inv s) (hm : t.mem = s.mem) (hb : (t.csi.bindings.map Binding.key).Nodup) : Inv t :=
  ⟨by simpa [memoryInv, hm] using h.memory, (bindingsOnce_iff t).mpr hb⟩

/-- A state that has the memory of `s` and binds streams of the same names. -/
theorem Inv.rename (h : Inv s) (hm : t.mem = s.mem) (hk : t.csi.bindings.map Binding.key = s.csi.bindings.map Binding.key) : Inv t :=
  h.of_bindings hm (hk ▸ (bindingsOnce_iff s).mp h.bindings)

theorem invNext_next (h : Inv s) : InvNext (.next s) := h

theorem ite_inv {c : Prop} [Decidable c] (hs : Inv s) (ht : Inv t) : Inv (if c then s else t) := by split <;> assumption
theorem ite_invNext {c : Prop} [Decidable c] {o o1 : Result} (ho : InvNext o) (h1 : InvNext o1) : InvNext (if c then o else o1) := by
  split <;> assumption

/-! Updates of other fields -/

theorem State.setPart_inv {p x} (h : Inv s) : Inv (s.setPart p x) := h
theorem State.modPart_inv {p f} (h : Inv s) : Inv (s.modPart p f) := h
theorem State.modClaim_inv {p f} (h : Inv s) : Inv (s.modClaim p f) := h
theorem State.modKeys_inv {p f} (h : Inv s) : Inv (s.modKeys p f) := h
theorem State.modCore_inv {c f} (h : Inv s) : Inv (s.modCore c f) := h
theorem State.modCluster_inv {k f} (h : Inv s) : Inv (s.modCluster k f) := h
theorem State.setEngine_inv {d x} (h : Inv s) : Inv (s.setEngine d x) := h
theorem State.modEngine_inv {d f} (h : Inv s) : Inv (s.modEngine d f) := h
theorem State.setPort_inv {y q} (h : Inv s) : Inv (s.setPort y q) := h
theorem State.modPort_inv {y f} (h : Inv s) : Inv (s.modPort y f) := h
theorem State.modLink_inv {n f} (h : Inv s) : Inv (s.modLink n f) := h
theorem State.setOwner_inv {b o} (h : Inv s) : Inv (s.setOwner b o) := h
theorem State.modRx_inv {n f} (h : Inv s) : Inv (s.modRx n f) := h
theorem State.modTx_inv {n f} (h : Inv s) : Inv (s.modTx n f) := h
theorem State.modPower_inv {f} (h : Inv s) : Inv (s.modPower f) := h
theorem State.modThermal_inv {f} (h : Inv s) : Inv (s.modThermal f) := h
theorem State.modTime_inv {f} (h : Inv s) : Inv (s.modTime f) := h
theorem State.modOrders_inv {f} (h : Inv s) : Inv (s.modOrders f) := h
theorem State.modSecurity_inv {f} (h : Inv s) : Inv (s.modSecurity f) := h
theorem State.modFw_inv {f} (h : Inv s) : Inv (s.modFw f) := h
theorem State.modEvents_inv {f} (h : Inv s) : Inv (s.modEvents f) := h
theorem State.modLanes_inv {f} (h : Inv s) : Inv (s.modLanes f) := h
theorem State.draw_inv (h : Inv s) : Inv s.draw.2 := h
theorem State.emit_inv {o} (h : Inv s) : Inv (s.emit o) := h
theorem State.reach_inv {n} (h : Inv s) : Inv (s.reach n) := h
theorem State.reachStamp_inv {n} (h : Inv s) : Inv (s.reachStamp n) := h
theorem burn_inv {x} (h : Inv s) : Inv (burn s x) := h
theorem modRequest_inv {tag f} (h : Inv s) : Inv (modRequest s tag f) := h
theorem dropRequests_inv {f} (h : Inv s) : Inv (dropRequests s f) := h

/-- An update of the ports that leaves the bindings alone. -/
theorem State.modCsi_inv {f} (hf : (f s.csi).bindings = s.csi.bindings) (h : Inv s) : Inv (s.modCsi f) := h.of_view rfl hf

/-- An update of other fields than memory and the ports' bindings. -/
theorem Inv.update {pending now fresh out owners clusters cores parts video i3c orders links inbox plan requests nextTag lanes time power thermal
    fuses security fw events} (h : Inv s) :
    Inv { s with
      pending := pending, now := now, fresh := fresh, out := out, owners := owners, clusters := clusters, cores := cores, parts := parts,
      video := video, i3c := i3c, orders := orders, links := links, inbox := inbox, plan := plan, requests := requests, nextTag := nextTag,
      lanes := lanes, time := time, power := power, thermal := thermal, fuses := fuses, security := security, fw := fw, events := events } :=
  h

/-! Updates of memory -/

theorem bankWrite_inv {a bs} (h : Inv s) : Inv (bankWrite s a bs) := h.of_mem (bankWrite_wf h.memory) rfl
theorem bankMark_inv {w} (h : Inv s) : Inv (bankMark s w) := h.of_mem (bankMark_wf h.memory) rfl
theorem bankZero_inv {a n} (h : Inv s) : Inv (bankZero s a n) := h.of_mem (bankZero_wf h.memory) rfl
theorem stackWrite_inv {a bs} (h : Inv s) : Inv (stackWrite s a bs) := h.of_mem (stackWrite_wf h.memory) rfl
theorem stackMark_inv {w} (h : Inv s) : Inv (stackMark s w) := h.of_mem (stackMark_wf h.memory) rfl
theorem stackZero_inv {a n} (h : Inv s) : Inv (stackZero s a n) := h.of_mem (stackZero_wf h.memory) rfl

/-- Marks are written over a range of the banks, and over one of the stacks. -/
theorem Inv.bankMarks {w marks} (h : Inv s) : Inv { s with mem := { s.mem with bankPoison := marksWrite s.mem.bankPoison w marks } } := by
  obtain ⟨hb, hh, hbp, hrest⟩ := (memWf_iff _).mp h.memory
  exact h.of_mem ((memWf_iff _).mpr ⟨hb, hh, marksWrite_wf hbp, hrest⟩) rfl
theorem Inv.stackMarks {w marks} (h : Inv s) : Inv { s with mem := { s.mem with stackPoison := marksWrite s.mem.stackPoison w marks } } := by
  obtain ⟨hb, hh, hbp, hsp, hrest⟩ := (memWf_iff _).mp h.memory
  exact h.of_mem ((memWf_iff _).mpr ⟨hb, hh, hbp, marksWrite_wf hsp, hrest⟩) rfl

/-- A correctable error of a stack is corrected. -/
theorem Inv.clearSingles {w n} (h : Inv s) : Inv { s with mem := { s.mem with stackSingles := markClear s.mem.stackSingles w n } } := by
  obtain ⟨hb, hh, hbp, hsp, hbf, hsf, hbs, hss⟩ := (memWf_iff _).mp h.memory
  exact h.of_mem ((memWf_iff _).mpr ⟨hb, hh, hbp, hsp, hbf, hsf, hbs, markClear_wf hss⟩) rfl

theorem addBitError_csi (s : State) (e : BitError) : (addBitError s e).csi = s.csi := by
  unfold addBitError
  dsimp only
  split <;> split <;> rfl

theorem addBitError_inv {e} (h : Inv s) : Inv (addBitError s e) := h.of_mem (addBitError_wf e h.memory) (by rw [addBitError_csi])

/-- An update of a state whose memory is that after reset and that binds no stream: the module left off has one (14 R395). -/
theorem inv_of_init (hm : t.mem = Mem.init) (hb : t.csi.bindings = []) : Inv t :=
  ⟨by rw [memoryInv, hm]; exact reset_memWf, by rw [bindingsOnce, hb]; exact List.Pairwise.nil⟩

theorem offState_inv : Inv (offState s) := inv_of_init rfl rfl

/-! What is done for each of several -/

/-- What each turn of a loop keeps, the loop keeps. -/
theorem foldl_keep {σ α : Type} {P : σ → Prop} {f : σ → α → σ} {as : List α} {c : σ} (hf : ∀ c x, P c → P (f c x)) (h : P c) :
    P (as.foldl f c) := List.foldlRecOn as f h fun _ hc _ _ => hf _ _ hc

theorem foldl_inv {α : Type} {f : State → α → State} {as : List α} (hf : ∀ u x, Inv u → Inv (f u x)) (h : Inv s) : Inv (as.foldl f s) :=
  foldl_keep hf h
theorem foldl_fst_inv {α β : Type} {f : State × β → α → State × β} {as : List α} {a : State × β}
    (hf : ∀ a x, Inv a.1 → Inv (f a x).1) (h : Inv a.1) : Inv (as.foldl f a).1 := foldl_keep (P := fun a : State × β => Inv a.1) (as := as) hf h
theorem foldl_bd_inv {α : Type} {f : Bd → α → Bd} {as : List α} {b : Bd} (hf : ∀ b x, Inv b.s → Inv (f b x).s) (h : Inv b.s) :
    Inv (as.foldl f b).s := foldl_keep (P := fun b : Bd => Inv b.s) (as := as) hf h
theorem foldl_alloc_inv {α : Type} {f : Alloc → α → Alloc} {as : List α} {a : Alloc} (hf : ∀ a x, Inv a.s → Inv (f a x).s) (h : Inv a.s) :
    Inv (as.foldl f a).s := foldl_keep (P := fun a : Alloc => Inv a.s) (as := as) hf h

theorem forParts_inv {f} (hf : ∀ p u, Inv u → Inv (f p u)) (h : Inv s) : Inv (forParts f s) := foldl_inv (fun _ _ => hf _ _) h
theorem forCores_inv {f} (hf : ∀ c u, Inv u → Inv (f c u)) (h : Inv s) : Inv (forCores f s) := foldl_inv (fun _ _ => hf _ _) h
theorem forClusters_inv {f} (hf : ∀ k u, Inv u → Inv (f k u)) (h : Inv s) : Inv (forClusters f s) := foldl_inv (fun _ _ => hf _ _) h
theorem forPorts_inv {f} (hf : ∀ n u, Inv u → Inv (f n u)) (h : Inv s) : Inv (forPorts f s) := foldl_inv (fun _ _ => hf _ _) h
theorem forI3c_inv {f} (hf : ∀ x u, Inv u → Inv (f x u)) (h : Inv s) : Inv (forI3c f s) := hf _ _ (hf _ _ h)

/-! How a row finds its occasion -/

theorem broadcastCcc_inv {x f} (hf : ∀ u, Inv u → Inv (f u)) (h : Inv s) : InvNext (broadcastCcc s x f) := by
  unfold broadcastCcc
  split
  · exact hf _ h
  · exact h
theorem directCcc_inv {x f} (hf : ∀ u, Inv u → Inv (f u)) (h : Inv s) : InvNext (directCcc s x f) := by
  unfold directCcc
  split
  · exact hf _ h
  · exact h
theorem formCcc_inv {c f} (hf : ∀ u, Inv u → Inv (f u)) (h : Inv s) : InvNext (formCcc s c f) := by
  unfold formCcc
  split
  · exact directCcc_inv hf h
  · exact broadcastCcc_inv hf h
theorem onPrivate_inv {x f} (hf : ∀ u, Inv u → Inv (f u)) (h : Inv s) : InvNext (onPrivate s x f) := by
  unfold onPrivate
  split
  · exact hf _ h
  · exact h

theorem onTaken_inv {x typ ok f} (hf : ∀ q u, Inv u → Inv (f q u)) (h : Inv s) : InvNext (onTaken s x typ ok f) := by
  obtain ⟨q, rest, e⟩ | e := onTaken_cases s x typ ok f
  · exact e ▸ hf q _ h
  · exact e ▸ h
theorem onDue_inv {typ ok f} (hf : ∀ q u, Inv u → Inv (f q u)) (h : Inv s) : InvNext (onDue s typ ok f) := by
  obtain ⟨q, rest, e⟩ | e := onDue_cases s typ ok f
  · exact e ▸ hf q _ h
  · exact e ▸ h
theorem onPart_inv {a f} (hf : ∀ q p u, Inv u → Inv (f q p u)) (h : Inv s) : InvNext (onPart s a f) := onDue_inv (fun _ _ => hf _ _ _) h
theorem InvEngine.bind {α β : Type} {P : α → Prop} {Q : β → Prop} {x : Engine α} {f : α → Engine β} (hx : InvEngine P x)
    (hf : ∀ v, P v → InvEngine Q (f v)) : InvEngine Q (x >>= f) := by
  cases x with
  | error o => exact hx
  | ok v => exact hf v hx

theorem InvEngine.map {α β : Type} {P : α → Prop} {Q : β → Prop} {x : Engine α} {f : α → β} (hx : InvEngine P x)
    (hf : ∀ v, P v → Q (f v)) : InvEngine Q (x.map f) := by
  cases x with
  | error o => exact hx
  | ok v => exact hf v hx

theorem foldlM_inv {α β : Type} {P : β → Prop} {f : β → α → Engine β} (hf : ∀ v x, P v → InvEngine P (f v x)) {as : List α} {v : β}
    (hv : P v) : InvEngine P (as.foldlM f v) := by
  induction as generalizing v with
  | nil => exact hv
  | cons x as ih => exact (hf v x hv).bind fun _ hc => ih hc

theorem ite_invEngine {α : Type} {P : α → Prop} {c : Prop} [Decidable c] {x y : Engine α} (hx : InvEngine P x)
    (hy : InvEngine P y) : InvEngine P (if c then x else y) := by
  split <;> assumption

theorem wait_invOut : InvOut .wait := trivial
theorem bad_invOut {n} : InvOut (.bad n) := trivial
theorem done_invOut {n e} (h : Inv s) : InvOut (.done s n e) := h

theorem wait_inv {α : Type} {P : α → Prop} : InvEngine P (.error .wait) := trivial
theorem bad_inv {α : Type} {P : α → Prop} {n} : InvEngine P (.error (.bad n)) := trivial

/-! ### Ops -/

theorem State.event_inv {unitNo code part data} (h : Inv s) : Inv (State.event s unitNo code part data) :=
  ite_inv h (ite_inv (forI3c_inv (fun _ _ hu => hu) h) h)

/-! ### Contract -/

theorem countBeats_inv {p cls inst work waiting} (h : Inv s) : Inv (countBeats s p cls inst work waiting) := by
  unfold countBeats
  grind [State.modCluster_inv, State.modCore_inv, State.modEngine_inv, State.modTx_inv, State.modRx_inv]

theorem waits_inv {p cls inst} (h : Inv s) : Inv (waits s p cls inst) := countBeats_inv h
theorem coresWait_inv {p} (h : Inv s) : Inv (coresWait s p) := foldl_inv (fun _ _ hu => ite_inv hu hu) h

theorem issue_inv {d beats err hand} (h : Inv s) : Inv (issue s d beats err hand) := by
  unfold issue
  grind [State.modPart_inv, countBeats_inv]

theorem runEngine_inv {p q cls opcode hand op} (ho : ∀ d, InvOut (op d s)) (h : Inv s) : InvNext (runEngine s p q cls opcode hand op) := by
  unfold runEngine
  split
  · exact h
  · next d _ =>
    have hd := ho d
    split
    · split <;> simp_all only [InvOut]
      · exact waits_inv h
      · exact waits_inv hd
      · trivial
      · exact issue_inv hd
    · exact waits_inv h

theorem tallyAdd_inv {p t inc} (h : Inv s) : Inv (tallyAdd s p t inc) := ite_inv h (State.event_inv h)

theorem takeHandover_inv {p hd} (h : Inv s) : Inv (takeHandover s p hd) := by
  unfold takeHandover
  split
  · exact h
  · exact h

/-! ### MemErrors -/

theorem foundBank_csi (s : State) (w : Nat) : (foundBank s w).csi = s.csi := by
  unfold foundBank
  dsimp only
  split <;> simp
theorem foundUnit_csi (s : State) (w : Nat) : (foundUnit s w).csi = s.csi := by
  unfold foundUnit
  dsimp only
  split <;> simp

theorem foundBank_inv {w} (h : Inv s) : Inv (foundBank s w) := h.of_mem ((foundBank_same s w).wf h.memory) (by rw [foundBank_csi])
theorem foundUnit_inv {w} (h : Inv s) : Inv (foundUnit s w) := h.of_mem ((foundUnit_same s w).wf h.memory) (by rw [foundUnit_csi])
theorem meetBank_inv {a n} (h : Inv s) : Inv (meetBank s a n) := foldl_inv (fun _ _ hu => foundBank_inv hu) (h.of_mem h.memory rfl)
theorem meetStack_inv {a n} (h : Inv s) : Inv (meetStack s a n) := foldl_inv (fun _ _ hu => foundUnit_inv hu) (foldl_inv (fun _ _ hu => hu) h)

/-! ### Operands -/

theorem moveToBank_inv {addr bs marks} (h : Inv s) : Inv (moveToBank s addr bs marks) := (bankWrite_inv h).bankMarks

theorem coreBank_inv {d bank n off} : InvEngine (fun _ => True) (coreBank s d bank n off) := by
  unfold coreBank
  split
  · trivial
  · exact ite_invEngine bad_inv (ite_invEngine trivial wait_inv)

theorem fetch_inv {d ref n} (h : Inv s) : InvEngine (fun c => Inv c.2) (fetch s d ref n) :=
  ite_invEngine (coreBank_inv.bind fun _ _ => meetBank_inv h) (ite_invEngine h wait_inv)
theorem gatherItems_inv {p needs} (h : Inv s) : InvEngine (fun _ => True) (gatherItems s p needs) := ite_invEngine trivial h

theorem banksReady_inv {d rs} : InvEngine (fun _ => True) (banksReady s d rs) := by
  induction rs with
  | nil => trivial
  | cons r rs ih =>
    refine InvEngine.bind (P := fun _ => True) (ite_invEngine ?_ trivial) fun _ _ => ih
    exact coreBank_inv.map fun _ _ => trivial

theorem gatherReads_inv {d rs} (h : Inv s) : InvEngine (fun _ => True) (gatherReads s d rs) := banksReady_inv.bind fun _ _ => gatherItems_inv h
theorem sinkReady_inv {d ref n} : InvEngine (fun _ => True) (sinkReady s d ref n) :=
  ite_invEngine (coreBank_inv.bind fun _ _ => trivial) (ite_invEngine trivial wait_inv)

theorem storeResult_inv {d r at_ bs} (h : Inv s) : Inv (storeResult s d r at_ bs) := by
  unfold storeResult
  grind [State.setPart_inv, bankWrite_inv]

theorem Engine.out_inv {e : Engine EngineOut} (h : InvEngine (InvOut) e) : InvOut e.out := by
  cases e <;> exact h

/-! ### Attention -/

theorem meetKeys_inv {a b} (h : Inv s) : Inv (meetKeys s a b) := foldl_inv (fun _ _ hu => meetBank_inv hu) h

theorem attnSteps_inv {d} (h : Inv s) : InvEngine (InvOut) (attnSteps d s) :=
  coreBank_inv.bind fun _ _ => coreBank_inv.bind fun _ _ => sinkReady_inv.bind fun _ _ => (gatherReads_inv h).bind fun _ _ =>
    (fetch_inv (meetBank_inv (meetKeys_inv h))).bind fun _ ha => storeResult_inv ha

theorem execAttn_inv {p q} (h : Inv s) : InvNext (execAttn p q s) := runEngine_inv (fun _ => Engine.out_inv (attnSteps_inv h)) h

/-! ### Messages -/

theorem endSession_inv {x kind} (h : Inv s) : Inv (endSession s x kind) := State.event_inv (ite_inv (State.event_inv h) h)
theorem expireSession_inv {x} (h : Inv s) : Inv (expireSession s x) := ite_inv (endSession_inv h) h
theorem answer_inv {t status tail} (h : Inv s) : Inv (answer s t status tail) := ite_inv h h
theorem answerBare_inv {t status} (h : Inv s) : Inv (answerBare s t status) := answer_inv h

/-! ### JobFrames -/

theorem discard_inv {n} (h : Inv s) : Inv (discard s n) := h
theorem queueOn_inv {n owner f} (h : Inv s) : Inv (queueOn s n owner f) := ite_inv h h
theorem sendFrame_inv {owner f} (h : Inv s) : Inv (sendFrame s owner f) := ite_inv (queueOn_inv h) h
theorem modKeysOf_inv {p i f} (h : Inv s) : Inv (modKeysOf s p i f) := h

theorem sendMessage_inv {p i typ ring msg payload} (h : Inv s) : Inv (sendMessage s p i typ ring msg payload) := by
  unfold sendMessage
  grind [modKeysOf_inv, sendFrame_inv, foldl_inv]

theorem sendCopy_inv {p i sid e} (h : Inv s) : Inv (sendCopy s p i sid e) := sendMessage_inv h

theorem copyOut_inv {p} (h : Inv s) : Inv (copyOut s p) := by
  unfold copyOut
  grind [sendCopy_inv, foldl_inv]

/-! ### Exports -/

theorem sendRequest_inv {r} (h : Inv s) : Inv (sendRequest s r) := by
  unfold sendRequest
  grind [queueOn_inv, sendFrame_inv, foldl_inv]

theorem openRequest_inv {use part queue store volume offset length data} (h : Inv s) : Inv (openRequest s use part queue store volume offset length data) :=
  sendRequest_inv h
theorem failRequest_inv {use part queue store volume offset length} (h : Inv s) : Inv (failRequest s use part queue store volume offset length) := h
theorem timeoutRequest_inv {r} (h : Inv s) : Inv (timeoutRequest s r) := ite_inv h (sendRequest_inv h)

theorem sealBlock_inv {key block step data} (h : Inv s) : Inv (sealBlock s key block step data).2 := by
  unfold sealBlock
  grind [State.draw_inv]

theorem storeBlock_inv {use p q block data} (h : Inv s) : Inv (storeBlock s use p q block data) := by
  unfold storeBlock
  grind [sealBlock_inv, openRequest_inv, failRequest_inv, State.modKeys_inv, State.event_inv]

theorem sealBlocks_inv {use p q block n data} (h : Inv s) : Inv (sealBlocks s use p q block n data) := foldl_inv (fun _ _ hu => storeBlock_inv hu) h

theorem pumpOne_inv {p} (h : Inv s) : Inv (pumpOne p s) := by
  unfold pumpOne
  grind [State.modPart_inv, storeBlock_inv]

theorem pumpExport_inv {p} (h : Inv s) : Inv (pumpExport p s) := foldl_inv (fun _ _ hu => pumpOne_inv hu) h
theorem queueExport_inv {p kind bs} (h : Inv s) : Inv (queueExport s p kind bs) := pumpExport_inv h

/-! ### Holds -/

theorem settleHolds_inv (h : Inv s) : Inv (settleHolds s) := forParts_inv (fun _ _ hu => hu) h

/-! ### Transfer -/

theorem moveToStack_inv {addr bs marks} (h : Inv s) : Inv (moveToStack s addr bs marks) := (stackWrite_inv h).stackMarks

theorem transferBank_inv {d ref n} : InvEngine (fun _ => True) (transferBank s d ref n) := by
  unfold transferBank
  split
  · trivial
  · exact ite_invEngine bad_inv (ite_invEngine (ite_invEngine trivial wait_inv) (ite_invEngine trivial wait_inv))

theorem transferStack_inv {d off n} : InvEngine (fun _ => True) (transferStack s d off n) := by
  unfold transferStack
  split
  · trivial
  · exact ite_invEngine bad_inv (ite_invEngine wait_inv trivial)

theorem hbmReadSteps_inv {d} (h : Inv s) : InvEngine (InvOut) (hbmReadSteps d s) :=
  transferBank_inv.bind fun _ _ => transferStack_inv.bind fun _ _ => moveToBank_inv (meetStack_inv h)
theorem execHbmRead_inv {p q} (h : Inv s) : InvNext (execHbmRead p q s) := runEngine_inv (fun _ => Engine.out_inv (hbmReadSteps_inv h)) h
theorem hbmWriteSteps_inv {d} (h : Inv s) : InvEngine (InvOut) (hbmWriteSteps d s) :=
  transferBank_inv.bind fun _ _ => transferStack_inv.bind fun _ _ => moveToStack_inv (meetBank_inv h)
theorem execHbmWrite_inv {p q} (h : Inv s) : InvNext (execHbmWrite p q s) := runEngine_inv (fun _ => Engine.out_inv (hbmWriteSteps_inv h)) h
theorem bankCopySteps_inv {d} (h : Inv s) : InvEngine (InvOut) (bankCopySteps d s) :=
  transferBank_inv.bind fun _ _ => transferBank_inv.bind fun _ _ => moveToBank_inv (meetBank_inv h)
theorem execBankCopy_inv {p q} (h : Inv s) : InvNext (execBankCopy p q s) := runEngine_inv (fun _ => Engine.out_inv (bankCopySteps_inv h)) h
theorem hbmZeroSteps_inv {d} (h : Inv s) : InvEngine (InvOut) (hbmZeroSteps d s) := transferStack_inv.bind fun _ _ => stackZero_inv h
theorem execHbmZero_inv {p q} (h : Inv s) : InvNext (execHbmZero p q s) := runEngine_inv (fun _ => Engine.out_inv (hbmZeroSteps_inv h)) h

/-! ### Completion -/

theorem writeDumps_inv {p f} (h : Inv s) : Inv (writeDumps s p f) := foldl_inv (fun _ _ hu => queueExport_inv hu) h
theorem dumpHold_inv {p n} (h : Inv s) : Inv (dumpHold s p n) := settleHolds_inv ((settleHolds_inv h).update)
theorem tallySignal_inv {p t inc} (h : Inv s) : Inv (tallySignal s p t inc) :=
  ite_inv (tallyAdd_inv h) (dumpHold_inv (writeDumps_inv (tallyAdd_inv h)))
theorem errorEvent_inv {p e} (h : Inv s) : Inv (errorEvent s p e) := ite_inv h (ite_inv (State.event_inv h) (State.event_inv h))

theorem complete_inv {p e} (h : Inv s) : Inv (complete s p e) := by
  unfold complete
  grind [errorEvent_inv, takeHandover_inv, tallySignal_inv, State.modPart_inv]

theorem frameOut_inv {e} (h : Inv s) : Inv (frameOut s e) := ite_inv h h

theorem execCommandCompletion_inv {p cls inst} (h : Inv s) : InvNext (execCommandCompletion p cls inst s) := by
  unfold execCommandCompletion
  grind [frameOut_inv, complete_inv, waits_inv, invNext_next]

/-! ### Layouts -/

theorem copyCarried_inv {old new} (h : Inv s) : Inv (copyCarried s old new).1 := by
  unfold copyCarried
  grind [meetBank_inv, bankWrite_inv, bankZero_inv, foldl_inv, Inv.bankMarks]

theorem moveCarried_inv {p} (h : Inv s) : Inv (moveCarried s p).1 := by
  unfold moveCarried
  grind [copyCarried_inv, State.modPart_inv]

theorem fenceCore_inv {c} (h : Inv s) : Inv (fenceCore s c) := h
theorem fenceEvent_inv {c cause layout} (h : Inv s) : Inv (fenceEvent s c cause layout) := State.event_inv h

theorem selfCheck_inv {p step fail} (h : Inv s) : Inv (selfCheck s p step fail).1 := by
  unfold selfCheck
  grind [State.modCore_inv, fenceCore_inv, State.event_inv, foldl_inv]

theorem failReceipt_inv {b c} (h : Inv s) : Inv (failReceipt s b c) := State.event_inv (meetBank_inv h)

theorem readmit_inv {p pick n cs} (h : Inv s) : Inv (readmit p pick n s cs).1 := by
  induction n generalizing s cs with
  | zero => exact h
  | succ n ih =>
    unfold readmit
    dsimp only
    split
    · exact ih (failReceipt_inv h)
    · exact foldl_inv (fun _ _ hu => hu) h

theorem writeOwners_inv {p} (h : Inv s) : Inv (writeOwners s p) := by
  unfold writeOwners
  grind [State.setOwner_inv, foldl_inv]

theorem writeRing_inv {p step d} (h : Inv s) : Inv (writeRing s p step d) := by
  unfold writeRing
  grind [bankWrite_inv, State.modPart_inv]

theorem writeRings_inv {p step} (h : Inv s) : Inv (writeRings s p step) := foldl_inv (fun _ _ hu => writeRing_inv hu) h

theorem writeLists_inv {p} (h : Inv s) : Inv (writeLists s p) := by
  unfold writeLists
  grind [bankWrite_inv, foldl_inv]

/-! ### Kv -/

theorem ptWrite_inv {x kd lc e v} (h : Inv s) : Inv (ptWrite s x kd lc e v) := by
  unfold ptWrite
  grind [bankWrite_inv]

theorem setCount_inv {x kd page v} (h : Inv s) : Inv (setCount s x kd page v) := by
  unfold setCount
  grind [stackWrite_inv]

theorem ptMeet_inv {x kd lc e} (h : Inv s) : Inv (ptMeet s x kd lc e) := by
  unfold ptMeet
  grind [meetBank_inv]

theorem countMeet_inv {x kd page} (h : Inv s) : Inv (countMeet s x kd page) := by
  unfold countMeet
  grind [meetStack_inv]

theorem walkBank_inv {p lc w n} : InvEngine (fun _ => True) (walkBank s p lc w n) := by
  unfold walkBank
  dsimp only
  split
  · trivial
  · exact ite_invEngine bad_inv (ite_invEngine trivial wait_inv)

theorem stagePage_inv {k addr target} (h : Inv s) : Inv (stagePage s k addr target).1 := by
  unfold stagePage
  grind [moveToBank_inv, meetStack_inv]

theorem walkMeet_inv {x w e} (h : Inv s) : Inv (walkMeet s x w e) := by
  unfold walkMeet
  grind [ptMeet_inv]

theorem stagePages_inv {x w k a first n} (h : Inv s) : Inv (stagePages s x w k a first n).1 :=
  foldl_fst_inv (fun _ _ hc => stagePage_inv (walkMeet_inv hc)) h

theorem walkStageSteps_inv {p w} (h : Inv s) : InvEngine (InvOut) (walkStageSteps p w s) := by
  refine walkBank_inv.bind fun _ _ => ?_
  split
  · trivial
  · exact ite_invEngine wait_inv (stagePages_inv h)

theorem appendMeet_inv {x w e} (h : Inv s) : Inv (appendMeet s x w e) := by
  unfold appendMeet
  grind [countMeet_inv, ptMeet_inv]

theorem appendBytes_inv {src dst n} (h : Inv s) : Inv (appendBytes s src dst n) :=
  foldl_inv (fun _ _ hu => ite_inv (stackMark_inv hu) hu) (stackWrite_inv (meetBank_inv h))
theorem appendRecords_inv {x w k q a tr tpp n} (h : Inv s) : Inv (appendRecords s x w k q a tr tpp n) :=
  foldl_inv (fun _ _ hu => appendBytes_inv hu) h

theorem walkAppendSteps_inv {p w} (h : Inv s) : InvEngine (InvOut) (walkAppendSteps p w s) := by
  refine walkBank_inv.bind fun _ _ => ?_
  dsimp only
  split
  · trivial
  · exact h
  · have ha := fun es => foldl_inv (as := es) (fun _ e hu => appendMeet_inv (x := s.part p) (w := w) (e := e) hu) h
    exact ite_invEngine wait_inv (ite_invEngine (ha _) (appendRecords_inv (ha _)))

theorem issueWalk_inv {p w beats err} (h : Inv s) : Inv (issueWalk s p w beats err) := by
  unfold issueWalk
  grind [State.modPart_inv, countBeats_inv]

theorem runWalk_inv {p lc kind op} (ho : ∀ w, InvEngine (InvOut) (op w s)) (h : Inv s) : InvNext (runWalk s p lc kind op) := by
  unfold runWalk
  split
  · exact h
  · next w _ =>
    have hw := Engine.out_inv (ho w)
    split
    · split <;> simp_all only [InvOut]
      · exact waits_inv h
      · exact waits_inv hw
      · trivial
      · exact issueWalk_inv hw
    · exact waits_inv h

theorem execWalkStage_inv {p cluster} (h : Inv s) : InvNext (execWalkStage p cluster s) := runWalk_inv (fun _ => walkStageSteps_inv h) h
theorem execWalkAppend_inv {p cluster} (h : Inv s) : InvNext (execWalkAppend p cluster s) := runWalk_inv (fun _ => walkAppendSteps_inv h) h
theorem copyPage_inv {k src dst} (h : Inv s) : Inv (copyPage s k src dst) := moveToStack_inv (meetStack_inv h)

theorem execCopyPhase_inv {p cluster} (h : Inv s) : InvNext (execCopyPhase p cluster s) := by
  unfold execCopyPhase
  grind [copyPage_inv, State.modPart_inv, foldl_inv, invNext_next]

theorem execHouseTurn_inv {p cluster} (h : Inv s) : InvNext (execHouseTurn p cluster s) := by
  unfold execHouseTurn
  grind [meetBank_inv, pumpExport_inv, State.setPart_inv, foldl_inv, invNext_next]

/-! ### Pages -/

theorem modSeq_inv {p n f} (h : Inv s) : Inv (modSeq s p n f) := h
theorem modKv_inv {p lc f} (h : Inv s) : Inv (modKv s p lc f) := h
theorem setSeqEntry_inv {p kd q lc l e v} (h : Inv s) : Inv (setSeqEntry s p kd q lc l e v) := ptWrite_inv h
theorem markCow_inv {p kd page cow} (h : Inv s) : Inv (markCow s p kd page cow) :=
  foldl_inv (fun _ _ hu => foldl_inv (fun _ _ hv => ite_inv (setSeqEntry_inv hv) hv) hu) h

theorem shareEntry_inv {p kd q src lc l e} (h : Inv s) : Inv (shareEntry s p kd q src lc l e) := by
  unfold shareEntry
  grind [modKv_inv, setSeqEntry_inv, setCount_inv, markCow_inv, countMeet_inv, ptMeet_inv]

theorem sharePages_inv {p kd q src n} (h : Inv s) : Inv (sharePages s p kd q src n) := foldl_inv (fun _ _ hu => shareEntry_inv hu) h

theorem takePage_inv {p lc g} (h : Inv s) (ht : takePage s p lc = some (g, t)) : Inv t := by
  unfold takePage at ht
  grind [modKv_inv]

theorem Alloc.holdOver_inv {q} (h : Inv a.s) : Inv (Alloc.holdOver a q).s := by
  unfold Alloc.holdOver
  grind

theorem Alloc.give_inv {p kd q lc l e src} (h : Inv a.s) : Inv (Alloc.give a p kd q lc l e src).s := by
  unfold Alloc.give
  grind [modKv_inv, setSeqEntry_inv, setCount_inv, Alloc.holdOver_inv, takePage_inv]

theorem Alloc.entry_inv {p kd q lc l e} (h : Inv a.s) : Inv (Alloc.entry a p kd q lc l e).s := by
  unfold Alloc.entry
  grind [modKv_inv, setSeqEntry_inv, Alloc.give_inv, countMeet_inv, ptMeet_inv]

theorem allocCluster_inv {p kd lc qs} (h : Inv a.s) : Inv (allocCluster a p kd lc qs).s := by
  unfold allocCluster
  grind [Alloc.entry_inv, foldl_alloc_inv]

theorem dropRef_inv {p kd page} (h : Inv s) : Inv (dropRef s p kd page) := by
  unfold dropRef
  grind [modKv_inv, setCount_inv, markCow_inv, countMeet_inv]

theorem releasePages_inv {p kd q} (h : Inv s) : Inv (releasePages s p kd q) := by
  unfold releasePages
  grind [setSeqEntry_inv, dropRef_inv, State.modPart_inv, ptMeet_inv, foldl_inv]

theorem holdPages_inv {p kd pages} (h : Inv s) : Inv (holdPages s p kd pages) :=
  foldl_inv (fun _ _ hu => markCow_inv (setCount_inv (countMeet_inv hu))) h

theorem armKv_inv {p} (h : Inv s) : Inv (armKv s p) := by
  unfold armKv
  split
  · exact h
  · refine (foldl_inv (fun u lc hu => ?_) h)
    grind [bankZero_inv, stackZero_inv]

/-! ### VideoStore -/

theorem modContext_inv {d n f} (h : Inv s) : Inv (modContext s d n f) := by
  unfold modContext
  grind [State.modEngine_inv]

theorem closeContexts_inv {p} (h : Inv s) : Inv (closeContexts s p) := by
  unfold closeContexts
  grind [State.modEngine_inv, foldl_inv]

/-! ### Checkpoints -/

theorem meetCapture_inv {p} (h : Inv s) : Inv (meetCapture s p) := by
  unfold meetCapture
  grind [meetBank_inv, meetStack_inv, foldl_inv]

theorem putBanks_inv {cs key n a} (h : Inv s) : Inv (putBanks s cs key n a) := foldl_inv (fun _ _ hu => bankWrite_inv hu) (bankZero_inv h)
theorem putStacks_inv {cs key n a} (h : Inv s) : Inv (putStacks s cs key n a) := foldl_inv (fun _ _ hu => stackWrite_inv hu) (stackZero_inv h)
theorem markBanks_inv {vs w n to_} (h : Inv s) : Inv (markBanks s vs w n to_) := foldl_inv (fun _ _ hu => bankMark_inv hu) h
theorem markStacks_inv {vs w n to_} (h : Inv s) : Inv (markStacks s vs w n to_) := foldl_inv (fun _ _ hu => stackMark_inv hu) h

theorem putCarried_inv {p c} (h : Inv s) : Inv (putCarried s p c) := by
  unfold putCarried
  grind [markBanks_inv, putBanks_inv, State.modPart_inv, foldl_inv]

theorem putTables_inv {p c} (h : Inv s) : Inv (putTables s p c) := by
  unfold putTables
  split
  · exact h
  · refine foldl_inv (fun u g hu => ?_) (foldl_inv (fun u lc hu => ?_) h)
    · split
      · exact markStacks_inv (putStacks_inv hu)
      · exact hu
    · grind [markStacks_inv, putStacks_inv, markBanks_inv, putBanks_inv]

theorem putVideo_inv {p c} (h : Inv s) : Inv (putVideo s p c) := by
  unfold putVideo
  grind [closeContexts_inv, State.modEngine_inv, markStacks_inv, putStacks_inv, foldl_inv]

theorem restore_inv {p c layout} (h : Inv s) : Inv (restore s p c layout) := putVideo_inv (putTables_inv (putCarried_inv h))

theorem refreshGen_inv {p} (h : Inv s) : Inv (refreshGen s p) := by
  unfold refreshGen
  grind [setSeqEntry_inv, foldl_inv]

theorem prepareStep_inv {p} (h : Inv s) : Inv (prepareStep s p) := by
  unfold prepareStep
  grind [writeRings_inv, refreshGen_inv, writeOwners_inv, State.modPart_inv]

theorem modRec_inv {p f} (h : Inv s) : Inv (modRec s p f) := h
theorem recEntry_inv {p kind a b c} (h : Inv s) : Inv (recEntry s p kind a b c) := h
theorem recFlag_inv {p i} (h : Inv s) : Inv (recFlag s p i) := h

theorem noLayout_inv {p changes} (h : Inv s) : Inv (noLayout s p changes) := by
  unfold noLayout
  grind [fenceEvent_inv, State.modPart_inv, State.event_inv, foldl_inv]

theorem catchUpFail_inv {p cause} (h : Inv s) : Inv (catchUpFail s p cause) := State.event_inv h

theorem abandonStep_inv {p} (h : Inv s) : Inv (abandonStep s p) := by
  unfold abandonStep
  grind [noLayout_inv, restore_inv, catchUpFail_inv, State.modPart_inv, Inv.update]

theorem hardStop_inv {p c} (h : Inv s) : Inv (hardStop s p c) := fenceEvent_inv (abandonStep_inv (State.event_inv h))

theorem moveOrStop_inv {p} (h : Inv s) : Inv (moveOrStop s p) := by
  unfold moveOrStop
  grind [hardStop_inv, moveCarried_inv]

theorem fenceFor_inv {c cause} (h : Inv s) : Inv (fenceFor s c cause) := by
  unfold fenceFor
  grind [moveOrStop_inv, State.modCore_inv, fenceEvent_inv, fenceCore_inv, State.modPart_inv]

theorem settleCores_inv {p} (h : Inv s) : Inv (settleCores s p) := by
  unfold settleCores
  grind [readmit_inv, moveOrStop_inv, fenceEvent_inv, fenceCore_inv, State.modPart_inv, foldl_inv]

/-! ### Beats -/

theorem sendBeatAs_inv {p pulled} (h : Inv s) : Inv (sendBeatAs s p pulled) := ite_inv h h
theorem sendBeat_inv {p} (h : Inv s) : Inv (sendBeat s p) := sendBeatAs_inv h
theorem boundaryBeat_inv {p} (h : Inv s) : Inv (boundaryBeat s p) := ite_inv h (sendBeat_inv h)
theorem setClaim_inv {p n} (h : Inv s) : Inv (setClaim s p n) := ite_inv h (sendBeat_inv h)

theorem sendPart_inv {p kind pace step section_ body} (h : Inv s) : Inv (sendPart s p kind pace step section_ body) := by
  unfold sendPart
  grind [State.modPart_inv, sendMessage_inv]

theorem sendDecisions_inv {p step stamp entries} (h : Inv s) : Inv (sendDecisions s p step stamp entries) := ite_inv (sendPart_inv h) h

/-! ### Serving -/

theorem Bd.map_inv {f} (hf : ∀ u, Inv u → Inv (f u)) (h : Inv b.s) : Inv (b.map f).s := hf _ h

theorem Bd.mapPart_inv {f} (h : Inv b.s) : Inv (Bd.mapPart b f).s := by
  unfold Bd.mapPart
  grind [State.modPart_inv]

theorem Bd.entry_inv {kind a n c} (h : Inv b.s) : Inv (Bd.entry b kind a n c).s := by
  unfold Bd.entry
  grind

theorem Bd.seq_inv {n f} (h : Inv b.s) : Inv (Bd.seq b n f).s := by
  unfold Bd.seq
  grind [modSeq_inv]

theorem Bd.tell_inv {stream client seq pos cls status} (h : Inv b.s) : Inv (Bd.tell b stream client seq pos cls status).s := Bd.mapPart_inv h

theorem Bd.tellSeq_inv {q status} (h : Inv b.s) : Inv (Bd.tellSeq b q status).s := by
  unfold Bd.tellSeq
  grind [Bd.tell_inv]

theorem Bd.settings_inv (h : Inv b.s) : Inv (Bd.settings b).s := Bd.mapPart_inv h

theorem Bd.completions_inv (h : Inv b.s) : Inv (Bd.completions b).s := by
  unfold Bd.completions
  grind [Bd.entry_inv, foldl_bd_inv]

theorem Bd.message_inv {e m} (h : Inv b.s) : Inv (Bd.message b e m).s := by
  unfold Bd.message
  grind [Bd.tell_inv, Bd.mapPart_inv]

theorem Bd.consume_inv {f} (h : Inv b.s) : Inv (Bd.consume b f).s := by
  unfold Bd.consume
  grind [Bd.message_inv, Bd.mapPart_inv, foldl_bd_inv]

theorem answerCancel_inv {c status} (h : Inv s) : Inv (answerCancel s c status) := by
  unfold answerCancel
  grind [answer_inv, State.modOrders_inv]

theorem Bd.cancel_inv {c reclaim} (h : Inv b.s) : Inv (Bd.cancel b c reclaim).s := by
  unfold Bd.cancel
  grind [Bd.tell_inv, Bd.seq_inv, Bd.mapPart_inv, Bd.map_inv, answerCancel_inv, Bd.entry_inv]

theorem Bd.cancelEntry_inv {c d} (h : Inv b.s) : Inv (Bd.cancelEntry b c d).s := by
  unfold Bd.cancelEntry
  grind [Bd.cancel_inv]

theorem Bd.cancelRecorded_inv {cs ds} (h : Inv b.s) : Inv (b.cancelRecorded cs ds).s := by
  induction cs generalizing b ds with
  | nil => exact foldl_bd_inv (fun _ _ hb => Bd.cancelEntry_inv hb) h
  | cons c cs ih =>
    unfold Bd.cancelRecorded
    dsimp only
    split
    · exact ih (Bd.cancel_inv h)
    · split
      · exact ih (Bd.cancel_inv h)
      · split
        · refine ih ?_
          split
          · exact Bd.mapPart_inv h
          · exact h
        · have hb := fun ds => foldl_bd_inv (as := ds) (fun _ d hb => Bd.cancelEntry_inv (c := none) (d := d) hb) h
          refine ih ?_
          split
          · exact Bd.cancelEntry_inv (hb _)
          · exact Bd.cancel_inv (Bd.cancelEntry_inv (hb _))

theorem Bd.cancels_inv (h : Inv b.s) : Inv (Bd.cancels b).s := by
  unfold Bd.cancels
  grind [Bd.cancel_inv, Bd.mapPart_inv, Bd.cancelRecorded_inv, foldl_bd_inv]

theorem Bd.adapter_inv {a} (h : Inv b.s) : Inv (Bd.adapter b a).s := by
  unfold Bd.adapter
  grind [Bd.mapPart_inv, Bd.entry_inv]

theorem Bd.adaptersCurrent_inv (h : Inv b.s) : Inv (Bd.adaptersCurrent b).s := by
  unfold Bd.adaptersCurrent
  grind [Bd.adapter_inv, Bd.mapPart_inv, Bd.entry_inv, foldl_bd_inv]

theorem Bd.rejoin_inv (h : Inv b.s) : Inv (Bd.rejoin b).s := Bd.mapPart_inv h

theorem Bd.letIn_inv {kd q ad} (h : Inv b.s) : Inv (Bd.letIn b kd q ad).s := by
  unfold Bd.letIn
  split
  · refine Bd.tellSeq_inv ?_
    split
    · refine Bd.entry_inv (Bd.mapPart_inv (Bd.entry_inv ?_))
      split
      · exact Bd.map_inv (fun _ hu => sharePages_inv hu) (Bd.mapPart_inv (Bd.seq_inv h))
      · exact Bd.mapPart_inv (Bd.seq_inv h)
    · refine Bd.entry_inv ?_
      split
      · exact Bd.map_inv (fun _ hu => sharePages_inv hu) (Bd.mapPart_inv (Bd.seq_inv h))
      · exact Bd.mapPart_inv (Bd.seq_inv h)
  · exact h

theorem Bd.admitLive_inv {kd qs n} (h : Inv b.s) : Inv (b.admitLive kd qs n).s := by
  induction qs generalizing b n with
  | nil => exact h
  | cons q qs ih =>
    unfold Bd.admitLive
    split
    · exact h
    · exact ih h
    · exact ih (Bd.letIn_inv h)

theorem Bd.admitRecorded_inv {kd} : ∀ {ds} {b : Bd}, Inv b.s → Inv (b.admitRecorded kd ds).s
  | [], _, h => h
  | [d], b, h => by
    unfold Bd.admitRecorded
    split
    · exact h
    · split
      · exact h
      · split
        · exact Bd.letIn_inv h
        · exact h
  | d :: e :: es, b, h => by
    unfold Bd.admitRecorded
    split
    · exact h
    · split
      · exact h
      · split
        · exact Bd.admitRecorded_inv (Bd.letIn_inv h)
        · dsimp only
          split
          · split
            · exact Bd.admitRecorded_inv (Bd.letIn_inv h)
            · exact h
          · exact h

theorem Bd.admissions_inv (h : Inv b.s) : Inv (Bd.admissions b).s := by
  unfold Bd.admissions
  grind [Bd.admitRecorded_inv, Bd.rejoin_inv, Bd.admitLive_inv]

theorem Bd.allocations_inv (h : Inv b.s) : Inv (Bd.allocations b).1.s := by
  unfold Bd.allocations
  split
  · exact h
  · refine foldl_bd_inv (fun c q hc => ?_) (foldl_alloc_inv (fun _ _ ha => allocCluster_inv ha) h)
    split
    · exact Bd.tellSeq_inv (Bd.seq_inv hc)
    · exact Bd.seq_inv hc

theorem Bd.releases_inv {drops} (h : Inv b.s) : Inv (Bd.releases b drops).s := by
  refine Bd.mapPart_inv ?_
  split
  · refine Bd.map_inv (fun u hu => ?_) h
    exact foldl_inv (fun _ _ hv => dropRef_inv hv) (foldl_inv (fun _ _ hv => releasePages_inv hv) (foldl_inv (fun _ _ hv => dropRef_inv hv) hu))
  · exact h

theorem Bd.pause_inv {q} (h : Inv b.s) : Inv (Bd.pause b q).s := Bd.tellSeq_inv (Bd.entry_inv (Bd.mapPart_inv (Bd.seq_inv h)))
theorem Bd.resume_inv {q} (h : Inv b.s) : Inv (Bd.resume b q).s := Bd.tellSeq_inv (Bd.entry_inv (Bd.mapPart_inv (Bd.seq_inv h)))
theorem Bd.moved_inv {pause} (h : Inv b.s) : Inv (Bd.moved b pause).s := Bd.mapPart_inv h

theorem Bd.moveRecorded_inv {d} (h : Inv b.s) : Inv (Bd.moveRecorded b d).s := by
  unfold Bd.moveRecorded
  grind [Bd.resume_inv, Bd.pause_inv, Bd.moved_inv]

theorem Bd.measure_inv {stamp} (h : Inv b.s) : Inv (Bd.measure b stamp).s := Bd.mapPart_inv h

theorem Bd.decideMoves_inv {p16} (h : Inv b.s) : Inv (Bd.decideMoves b p16).s := by
  unfold Bd.decideMoves
  grind [Bd.resume_inv, Bd.pause_inv, Bd.moved_inv, foldl_bd_inv]

theorem Bd.policy_inv {stamp} (h : Inv b.s) : Inv (Bd.policy b stamp).s := by
  unfold Bd.policy
  grind [Bd.decideMoves_inv, Bd.measure_inv, Bd.moveRecorded_inv, foldl_bd_inv]

theorem Bd.decide_inv {named} (h : Inv b.s) : Inv (Bd.decide b named).s := by
  unfold Bd.decide
  grind [Bd.consume_inv, Bd.settings_inv, Bd.admissions_inv, Bd.cancels_inv, Bd.completions_inv, Bd.adaptersCurrent_inv]

theorem Bd.settle_inv {old stamp} (h : Inv b.s) : Inv (Bd.settle b old stamp).s :=
  Bd.policy_inv (Bd.map_inv (fun _ hu => hu) (Bd.releases_inv (Bd.allocations_inv h)))

/-! ### Clearing -/

theorem newMemoryKey_inv (h : Inv s) : Inv (newMemoryKey s).2 := by
  unfold newMemoryKey
  grind [State.draw_inv]

theorem advanceKeys_inv {p} (h : Inv s) : Inv (advanceKeys s p) := by
  unfold advanceKeys
  grind [State.modCluster_inv, newMemoryKey_inv, State.modPart_inv, foldl_inv]

theorem eraseCluster_inv {key k} (h : Inv s) : Inv (eraseCluster key s k) := ite_inv h h

/-- The frames of the bindings are discarded; what is bound stays so. -/
theorem closeFrames_inv {p : PartId} (h : Inv s) :
    Inv (s.modCsi (fun c => { c with bindings := c.bindings.map (fun b => if b.part == p then { b with opened := none } else b) })) := by
  refine h.rename rfl ?_
  rw [State.modCsi_csi, List.map_map]
  refine List.map_congr_left fun b _ => ?_
  simp only [Function.comp_apply]
  split <;> rfl

theorem enterClearing_inv {p} (h : Inv s) : Inv (enterClearing s p) := by
  unfold enterClearing
  dsimp only
  exact (closeFrames_inv (foldl_inv (fun _ _ hu => eraseCluster_inv hu)
    (newMemoryKey_inv (foldl_inv (fun _ _ hu => answerCancel_inv hu) (closeContexts_inv h))))).update

theorem zeroBanks_inv {k} (h : Inv s) : Inv (zeroBanks s k) := foldl_inv (fun _ _ hu => ite_inv hu hu) (bankZero_inv h)

theorem clearCluster_inv {k} (h : Inv s) : Inv (clearCluster s k) := by
  unfold clearCluster
  grind [State.modCluster_inv, zeroBanks_inv, stackZero_inv]

theorem execClearComplete_inv {p} (h : Inv s) : InvNext (execClearComplete p s) :=
  ite_invNext (invNext_next h) (invNext_next (foldl_inv (fun _ _ hu => clearCluster_inv hu) h))

/-! ### Csi -/

theorem map_key_updFirst {f : Binding → Binding} (hf : ∀ b, (f b).key = b.key) (pick : Binding → Bool) (bs : List Binding) :
    (updFirst pick f bs).map Binding.key = bs.map Binding.key := by
  induction bs with
  | nil => rfl
  | cons b bs ih =>
    unfold updFirst
    split
    · simp [hf]
    · simp [ih]

theorem modBinding_inv {p stream transmit f} (hf : ∀ b, (f b).key = b.key) (h : Inv s) : Inv (modBinding s p stream transmit f) :=
  h.rename rfl (map_key_updFirst hf _ _)
theorem countUnbound_inv (h : Inv s) : Inv (countUnbound s) := State.modCsi_inv rfl h
theorem noteSync_inv {port} (h : Inv s) : Inv (noteSync s port) := ite_inv (State.event_inv h) h
theorem putMarked_inv {a bs bad} (h : Inv s) : Inv (putMarked s a bs bad) :=
  ite_inv (foldl_inv (fun _ _ hu => bankMark_inv hu) (bankWrite_inv h)) (bankWrite_inv h)
theorem countBadLine_inv {port} (h : Inv s) : Inv (countBadLine s port) := h

theorem putLine_inv {b f line bad} (h : Inv s) : Inv (putLine s b f line bad).1 := by
  unfold putLine
  grind [countBadLine_inv, putMarked_inv]

theorem noteBad_inv {b f ok} (h : Inv s) : Inv (noteBad s b f ok).1 := by
  unfold noteBad
  grind [countBadLine_inv]

theorem flushTail_inv {b f} (h : Inv s) : Inv (flushTail s b f).1 := by
  unfold flushTail
  grind [noteBad_inv, putLine_inv]

theorem closeTail_inv {b f} (h : Inv s) : Inv (closeTail s b f).1 := by
  unfold closeTail
  grind [noteBad_inv, flushTail_inv]

theorem payloadLine_inv {b f dt data ok} (h : Inv s) : Inv (payloadLine s b f dt data ok).1 := by
  unfold payloadLine
  grind [putLine_inv, flushTail_inv]

theorem checkTag_inv {b f dt} (h : Inv s) : Inv (checkTag s b f dt).1 := by
  unfold checkTag
  grind [State.modRx_inv, State.modKeys_inv]

theorem closeFrame_inv {b bits} (h : Inv s) : Inv (closeFrame s b bits) := by
  unfold closeFrame
  split
  · exact h
  · refine copyOut_inv (State.modPart_inv (modBinding_inv (fun _ => rfl) (checkTag_inv (closeTail_inv ?_))))
    exact ite_inv h h

theorem openFrame_inv {b frame} (h : Inv s) : Inv (openFrame s b frame) := modBinding_inv (fun _ => rfl) (ite_inv h (ite_inv h h))

theorem execCsiFrameStart_inv {port vc frame} (h : Inv s) : InvNext (execCsiFrameStart port vc frame s) := by
  unfold execCsiFrameStart
  grind [noteSync_inv, openFrame_inv, countUnbound_inv, closeFrame_inv, invNext_next]

theorem execCsiLongPacket_inv {port vc dt data crcOk hdrErrors} (h : Inv s) : InvNext (execCsiLongPacket port vc dt data crcOk hdrErrors s) := by
  have hn : Inv (noteSync s port) := noteSync_inv h
  unfold execCsiLongPacket
  dsimp only
  split
  · split
    · exact modBinding_inv (fun _ => rfl) hn
    · exact hn
  · have hc := ite_inv (c := hdrErrors = 1) (State.modRx_inv (n := port) (f := fun r => { r with hdrCorrected := r.hdrCorrected + 1 }) hn) hn
    split
    · exact countUnbound_inv hc
    · split
      · refine ite_invNext (countUnbound_inv hc) (ite_invNext ?_ (ite_invNext ?_ ?_))
        · exact modBinding_inv (fun _ => rfl) (flushTail_inv hc)
        · exact modBinding_inv (fun _ => rfl) (payloadLine_inv hc)
        · exact countUnbound_inv (modBinding_inv (fun _ => rfl) hc)
      · exact countUnbound_inv hc

theorem execCsiFrameEnd_inv {port vc frame} (h : Inv s) : InvNext (execCsiFrameEnd port vc frame s) := by
  unfold execCsiFrameEnd
  grind [noteSync_inv, countBadLine_inv, countUnbound_inv, closeFrame_inv, invNext_next]

theorem execCsiFrameTimeout_inv {port vc} (h : Inv s) : InvNext (execCsiFrameTimeout port vc s) := by
  unfold execCsiFrameTimeout
  grind [State.reach_inv, closeFrame_inv, invNext_next]

theorem closeAll_inv {port} (h : Inv s) : Inv (closeAll s port) := foldl_inv (fun _ _ hu => closeFrame_inv hu) h
theorem execCsiLaneSyncLoss_inv {port} (h : Inv s) : InvNext (execCsiLaneSyncLoss port s) :=
  ite_invNext (invNext_next (closeAll_inv (State.event_inv h))) (invNext_next h)
theorem execCsiLaneSyncRegained_inv {port} (h : Inv s) : InvNext (execCsiLaneSyncRegained port s) :=
  ite_invNext (invNext_next h) (invNext_next (State.event_inv h))
theorem execCsiGenericShortPacket_inv {port dt} (h : Inv s) : InvNext (execCsiGenericShortPacket port dt s) :=
  ite_invNext (invNext_next (countUnbound_inv (noteSync_inv h))) (invNext_next h)
theorem openWindow_inv {b due} (h : Inv s) : Inv (openWindow s b due) := modBinding_inv (fun _ => rfl) h

theorem quotaEdge_inv (h : Inv s) : Inv (quotaEdge s) := by
  refine foldl_inv (fun u b hu => ?_) h
  split
  · exact ite_inv (openWindow_inv hu) hu
  · exact openWindow_inv hu

theorem execQuotaWindowTimeout_inv {port vc} (h : Inv s) : InvNext (execQuotaWindowTimeout port vc s) := by
  unfold execQuotaWindowTimeout
  grind [State.reachStamp_inv, openWindow_inv, invNext_next]

/-! ### Streams -/

theorem landedBytes_inv {p e n} (h : Inv s) : Inv (landedBytes s p e n).1 := by
  unfold landedBytes
  grind [meetBank_inv]

theorem gatherSteps_inv {d} (h : Inv s) : InvEngine (InvOut) (gatherSteps d s) := by
  unfold gatherSteps
  dsimp only
  split
  · exact ite_invEngine bad_inv (ite_invEngine bad_inv (ite_invEngine wait_inv
      (State.modPart_inv (bankWrite_inv (moveToBank_inv (landedBytes_inv h))))))
  · trivial

theorem execGather_inv {p q} (h : Inv s) : InvNext (execGather p q s) := runEngine_inv (fun _ => Engine.out_inv (gatherSteps_inv h)) h
theorem gafferFrames_inv {p} (h : Inv s) : Inv (gafferFrames s p) := ite_inv h (foldl_inv (fun _ _ hu => hu) h)

theorem emitSteps_inv {d tokens} (h : Inv s) : InvEngine (InvOut) (emitSteps d tokens s) := by
  unfold emitSteps
  dsimp only
  split
  · exact ite_invEngine bad_inv (ite_invEngine wait_inv (ite_invEngine h (ite_inv (meetBank_inv h) h)))
  · trivial

theorem execEmit_inv {p q tokens} (h : Inv s) : InvNext (execEmit p q tokens s) := by
  have hr : InvNext (runEngine s p q 7 0x0701 (fun d => handoverAt d.record 40 (vrefOf (recField d.record 24 4)).lc) (fun d s => (emitSteps d tokens s).out)) :=
    runEngine_inv (fun _ => Engine.out_inv (emitSteps_inv h)) h
  unfold execEmit
  split
  · next t ht => exact (show InvNext (.next t) from ht ▸ hr)
  · exact hr

theorem noteStart_inv {p stream} (h : Inv s) : Inv (noteStart s p stream) := State.modCsi_inv rfl h
theorem frameSent_inv {p e done} (h : Inv s) : Inv (frameSent s p e done) := h
theorem storeFrame_inv {p e} (h : Inv s) : Inv (storeFrame s p e) := queueExport_inv h
theorem sendFrameOut_inv {p b e} (h : Inv s) : Inv (sendFrameOut s p b e) := frameSent_inv (noteStart_inv h)
theorem dropSent_inv {p e} (h : Inv s) : Inv (dropSent s p e) := h

theorem execEmitFrameSend_inv {p stream} (h : Inv s) : InvNext (execEmitFrameSend p stream s) := by
  unfold execEmitFrameSend
  grind [sendFrameOut_inv, storeFrame_inv, frameSent_inv, State.reach_inv, dropSent_inv, invNext_next]

/-- A binding that is dropped takes no other's name. -/
theorem dropBindings_inv {keep : Binding → Bool} (h : Inv s) : Inv (s.modCsi (fun c => { c with bindings := c.bindings.filter keep })) := by
  refine h.of_bindings rfl (((bindingsOnce_iff s).mp h.bindings).sublist ?_)
  exact List.filter_sublist.map Binding.key

theorem unbind_inv {p stream f} (h : Inv s) : Inv (unbind s p stream f) :=
  foldl_inv (fun _ _ hu => dropBindings_inv (ite_inv hu (closeFrame_inv hu))) h

/-- Once a stream is unbound in a direction, no binding has its name: either none had it before, or the last one unbound took it away. -/
theorem key_notMem_unbind (s : State) (p : PartId) (stream : Nat) (transmit : Bool) :
    (p, stream, transmit) ∉ (unbind s p stream (fun c => c.transmit == transmit)).csi.bindings.map Binding.key := by
  unfold unbind
  rcases List.eq_nil_or_concat (s.csi.bindings.filter (fun b => b.part == p && b.stream == stream && b.transmit == transmit)) with
    hnone | ⟨init, last, hl⟩
  · rw [hnone]
    simpa [Binding.key, List.filter_eq_nil_iff] using hnone
  · have hlast : last ∈ s.csi.bindings.filter (fun b => b.part == p && b.stream == stream && b.transmit == transmit) := by simp [hl]
    obtain ⟨-, hpick⟩ := List.mem_filter.mp hlast
    have ht : last.transmit = transmit := by simp_all
    rw [hl, List.concat_eq_append, List.foldl_append, List.foldl_cons, List.foldl_nil, ht, State.modCsi_csi]
    simp only [List.mem_map, List.mem_filter, Binding.key, Prod.mk.injEq, not_exists, not_and]
    rintro c ⟨-, hkeep⟩ rfl rfl rfl
    simp at hkeep

/-- A stream that is unbound first is bound once. -/
theorem bindStream_inv {b : Binding} (h : Inv s) :
    Inv ((unbind s b.part b.stream (fun c => c.transmit == b.transmit)).modCsi (fun c => { c with bindings := c.bindings ++ [b] })) := by
  have hu := unbind_inv (p := b.part) (stream := b.stream) (f := fun c => c.transmit == b.transmit) h
  refine hu.of_bindings rfl ?_
  rw [State.modCsi_csi, List.map_append, List.nodup_append]
  refine ⟨(bindingsOnce_iff _).mp hu.bindings, List.pairwise_singleton _ _, fun k hk l hl => ?_⟩
  rintro rfl
  obtain rfl : k = b.key := by simpa using hl
  exact key_notMem_unbind s b.part b.stream b.transmit hk

theorem execStreamBind_inv (h : Inv s) : InvNext (execStreamBind s) := by
  refine onDue_inv (fun t u hu => ?_) h
  refine ite_inv (answerBare_inv hu) (ite_inv (answerBare_inv (unbind_inv hu)) (ite_inv (answerBare_inv hu) (ite_inv (answerBare_inv hu) ?_)))
  exact answerBare_inv (bindStream_inv (b := bindingFrom u t (t.part 0)) hu)

theorem execCsiTimeout_inv (h : Inv s) : InvNext (execCsiTimeout s) := onDue_inv (fun _ _ hu => answerBare_inv (State.modCsi_inv rfl hu)) h

theorem execEvtMirror_inv (h : Inv s) : InvNext (execEvtMirror s) := by
  unfold execEvtMirror
  grind [answerBare_inv, onDue_inv, State.modEvents_inv, invNext_next]

theorem execMirrorFrame_inv (h : Inv s) : InvNext (execMirrorFrame s) := by
  unfold execMirrorFrame
  grind [State.modTx_inv, State.reach_inv, State.modEvents_inv, State.emit_inv, invNext_next]

theorem execEvtCopy_inv (h : Inv s) : InvNext (execEvtCopy s) := onDue_inv (fun _ _ hu => answerBare_inv hu) h
theorem execEvtCopyStop_inv (h : Inv s) : InvNext (execEvtCopyStop s) := onDue_inv (fun _ _ hu => answerBare_inv hu) h
theorem execLogMessageFill_inv {x} (h : Inv s) : InvNext (execLogMessageFill x s) := ite_invNext (invNext_next h) (invNext_next h)

/-! ### Boundary -/

theorem closeStep_inv {p} (h : Inv s) : Inv (closeStep s p) := (settleHolds_inv h)
theorem diverge_inv {p step mask} (h : Inv s) : Inv (diverge s p step mask) := State.event_inv h

theorem compareSupplied_inv {p} (h : Inv s) : Inv (compareSupplied s p) := by
  unfold compareSupplied
  grind [diverge_inv, catchUpFail_inv]

theorem reentryFail_inv {p cause} (h : Inv s) : Inv (reentryFail s p cause) := ite_inv (State.event_inv h) (sendPart_inv (State.event_inv h))

theorem compareHolder_inv {p} (h : Inv s) : Inv (compareHolder s p) := by
  unfold compareHolder
  grind [reentryFail_inv, State.modClaim_inv, State.event_inv, foldl_inv]

theorem noteBacklog_inv {p} (h : Inv s) : Inv (noteBacklog s p) := by
  unfold noteBacklog
  grind [setClaim_inv, State.modClaim_inv, State.event_inv]

theorem settleModule_inv (h : Inv s) : Inv (settleModule s) := ite_inv (ite_inv h h) (ite_inv h h)

theorem stopPart_inv {p} (h : Inv s) : Inv (stopPart s p) := by
  unfold stopPart
  grind [settleModule_inv, settleHolds_inv, settleCores_inv, State.modPart_inv]

theorem yieldClaim_inv {p} (h : Inv s) : Inv (yieldClaim s p) := setClaim_inv h
theorem drainYield_inv {p} (h : Inv s) : Inv (drainYield s p) := ite_inv (yieldClaim_inv h) h
theorem paceBoundary_inv {p} (h : Inv s) : Inv (paceBoundary s p) := ite_inv (coresWait_inv h) h

theorem raiseRefs_inv {p} (h : Inv s) : Inv (raiseRefs s p) := by
  unfold raiseRefs
  grind [holdPages_inv, State.modPart_inv]

theorem sendSnapshot_inv {p c} (h : Inv s) : Inv (sendSnapshot s p c) :=
  foldl_inv (fun _ _ hu => sendPart_inv hu) (foldl_inv (fun _ _ hu => sendPart_inv hu) h)
theorem skipCheckpoint_inv {p skip} (h : Inv s) : Inv (skipCheckpoint s p skip) := State.event_inv h

theorem takeCheckpoint_inv {p} (h : Inv s) : Inv (takeCheckpoint s p) := by
  have hq : ∀ c bs, Inv (queueExport ((recFlag (meetCapture s p) p 0).modPart p (fun x => { x with ckptNew := some c })) p 1 bs) :=
    fun _ _ => queueExport_inv (State.modPart_inv (meetCapture_inv h))
  exact ite_inv h (ite_inv (sendSnapshot_inv (State.modClaim_inv (hq _ _))) (hq _ _))

theorem beginStep_inv {p} (h : Inv s) : Inv (beginStep s p) := (gafferFrames_inv h)

theorem finishBoundary_inv {p stamp seen} (h : Inv s) : Inv (finishBoundary s p stamp seen) := by
  have hm : Inv (moveCarried s p).1 := moveCarried_inv h
  unfold finishBoundary
  dsimp only
  split
  · exact hardStop_inv hm
  · refine beginStep_inv (writeDumps_inv (State.reach_inv (boundaryBeat_inv (sendDecisions_inv (prepareStep_inv ?_)))))
    refine State.modPart_inv (modRec_inv ?_)
    have hc := fun f => takeCheckpoint_inv (p := p) (State.modPart_inv (p := p) (f := f) hm)
    split
    · exact advanceKeys_inv (hc _)
    · exact hc _

theorem layoutEntries_inv {p n changes} (h : Inv s) : Inv (layoutEntries s p n changes) := foldl_inv (fun _ _ hu => hu) h

theorem settleLayout_inv {p cs} (h : Inv s) (ht : settleLayout s p cs = some t) : Inv t := by
  unfold settleLayout at ht
  obtain ⟨n, _, rfl⟩ := Option.map_eq_some_iff.mp ht
  refine foldl_inv (fun u c hu => ?_) (layoutEntries_inv h)
  split
  · exact fenceEvent_inv hu
  · exact hu

theorem layoutActions_inv {p stamp fail} (h : Inv s) : Inv (layoutActions s p stamp fail).1 := by
  unfold layoutActions
  grind [readmit_inv, fenceEvent_inv, recEntry_inv, selfCheck_inv, fenceCore_inv, recFlag_inv, State.modPart_inv, foldl_inv]

theorem decideBoundary_inv {p src} (h : Inv s) : Inv (decideBoundary s p src).1.s := by
  unfold decideBoundary
  grind [raiseRefs_inv, State.setPart_inv, Bd.settle_inv, Bd.decide_inv, Bd.mapPart_inv, Bd.map_inv]

theorem takeBoundary_inv {p src fail} (h : Inv s) : Inv (takeBoundary s p src fail) := by
  have hd : ∀ f, Inv ((decideBoundary s p src).1.s.modPart p f) := fun _ => State.modPart_inv (decideBoundary_inv h)
  unfold takeBoundary
  dsimp only
  refine ite_inv (ite_inv (catchUpFail_inv ?_) (diverge_inv ?_)) ?_
  · split
    · exact skipCheckpoint_inv (hd _)
    · exact hd _
  · split
    · exact skipCheckpoint_inv (hd _)
    · exact hd _
  · split
    · next ht =>
      refine finishBoundary_inv (settleLayout_inv (layoutActions_inv ?_) ht)
      split
      · exact skipCheckpoint_inv (hd _)
      · exact hd _
    · refine noLayout_inv (layoutActions_inv ?_)
      split
      · exact skipCheckpoint_inv (hd _)
      · exact hd _

theorem stopBoundary_inv {p} (h : Inv s) : Inv (stopBoundary s p) := by
  unfold stopBoundary
  grind [advanceKeys_inv, stopPart_inv, enterClearing_inv, drainYield_inv]

theorem stopHeld_inv {p} (h : Inv s) : Inv (stopHeld s p) := ite_inv (stopBoundary_inv h) h
theorem releaseRestored_inv {p} (h : Inv s) : Inv (releaseRestored s p) := beginStep_inv (boundaryBeat_inv (prepareStep_inv (layoutEntries_inv h)))
theorem awaitPart_inv {p} (h : Inv s) : Inv (awaitPart s p) := coresWait_inv h

theorem reachBoundary_inv {p fail} (h : Inv s) : Inv (reachBoundary s p fail) := by
  unfold reachBoundary
  grind [takeBoundary_inv, awaitPart_inv, drainYield_inv, paceBoundary_inv, stopBoundary_inv, releaseRestored_inv, State.modClaim_inv,
    State.modPart_inv]

theorem execStepBoundary_inv {p i} (h : Inv s) : InvNext (execStepBoundary p i s) := by
  unfold execStepBoundary
  grind [reachBoundary_inv, noteBacklog_inv, closeStep_inv, compareHolder_inv, State.reach_inv, boundaryBeat_inv, compareSupplied_inv,
    invNext_next]

/-! ### Identity -/

theorem signIdentity_inv {msg} (h : Inv s) : Inv (signIdentity s msg).2 := by
  unfold signIdentity
  grind [State.draw_inv]

/-! ### I3c -/

theorem execSetdasa_inv {x static addr} (h : Inv s) : InvNext (execSetdasa x static addr s) := ite_invNext (invNext_next h) (invNext_next h)
theorem execRstdaa_inv {x} (h : Inv s) : InvNext (execRstdaa x s) := broadcastCcc_inv (fun _ hu => hu) h
theorem execGetpid_inv {x} (h : Inv s) : InvNext (execGetpid x s) := directCcc_inv (fun _ hu => hu) h
theorem execGetbcr_inv {x} (h : Inv s) : InvNext (execGetbcr x s) := directCcc_inv (fun _ hu => hu) h
theorem execGetdcr_inv {x} (h : Inv s) : InvNext (execGetdcr x s) := directCcc_inv (fun _ hu => hu) h
theorem execGetstatus_inv {x} (h : Inv s) : InvNext (execGetstatus x s) := directCcc_inv (fun _ hu => hu) h
theorem execSetmwl_inv {f v} (h : Inv s) : InvNext (execSetmwl f v s) := formCcc_inv (fun _ hu => ite_inv hu hu) h
theorem execSetmrl_inv {f v} (h : Inv s) : InvNext (execSetmrl f v s) := formCcc_inv (fun _ hu => ite_inv hu hu) h
theorem execGetmwl_inv {x} (h : Inv s) : InvNext (execGetmwl x s) := directCcc_inv (fun _ hu => hu) h
theorem execGetmrl_inv {x} (h : Inv s) : InvNext (execGetmrl x s) := directCcc_inv (fun _ hu => hu) h
theorem execGetmxds_inv {x} (h : Inv s) : InvNext (execGetmxds x s) := directCcc_inv (fun _ hu => hu) h
theorem execRstactNoReset_inv {f} (h : Inv s) : InvNext (execRstactNoReset f s) := ite_invNext (formCcc_inv (fun _ hu => hu) h) (invNext_next h)
theorem execRstactPortReset_inv {f} (h : Inv s) : InvNext (execRstactPortReset f s) := formCcc_inv (fun _ hu => hu) h

theorem execRstactRecoveryEnd_inv {x} (h : Inv s) : InvNext (execRstactRecoveryEnd x s) := by
  unfold execRstactRecoveryEnd
  grind [State.modPort_inv, State.reach_inv, invNext_next]

theorem execEnec_inv {f} (h : Inv s) : InvNext (execEnec f s) := formCcc_inv (fun _ hu => hu) h
theorem execDisec_inv {f} (h : Inv s) : InvNext (execDisec f s) := formCcc_inv (fun _ hu => hu) h
theorem execEnthdr0_inv {x} (h : Inv s) : InvNext (execEnthdr0 x s) := broadcastCcc_inv (fun _ hu => hu) h
theorem execEnthdr3_inv {x} (h : Inv s) : InvNext (execEnthdr3 x s) := broadcastCcc_inv (fun _ hu => hu) h
theorem execEnthdrUnsupported_inv {x} (h : Inv s) : InvNext (execEnthdrUnsupported x s) := broadcastCcc_inv (fun _ hu => hu) h
theorem execHdrExit_inv {x} (h : Inv s) : InvNext (execHdrExit x s) := ite_invNext (invNext_next h) (invNext_next h)

/-! ### Tensor -/

theorem execNop_inv {p q} (h : Inv s) : InvNext (execNop p q s) := by
  unfold execNop
  split
  · exact runEngine_inv (fun _ => h) h
  · exact h

theorem sizeCopyOp_inv {d} (h : Inv s) : InvOut (sizeCopyOp d s) := by
  unfold sizeCopyOp
  grind [bankWrite_inv, wait_invOut, bad_invOut, done_invOut]

theorem execSizeCopy_inv {p q} (h : Inv s) : InvNext (execSizeCopy p q s) := runEngine_inv (fun _ => sizeCopyOp_inv h) h

theorem matmulSteps_inv {d} (h : Inv s) : InvEngine (InvOut) (matmulSteps d s) := by
  refine sinkReady_inv.bind fun _ _ => (gatherReads_inv h).bind fun _ _ => (fetch_inv h).bind fun _ ha => (fetch_inv ha).bind fun _ hb => ?_
  exact InvEngine.bind (P := fun c : Plane × State => Inv c.2) (ite_invEngine (fetch_inv hb) hb) fun _ hc => storeResult_inv hc

theorem execMatmul_inv {p q} (h : Inv s) : InvNext (execMatmul p q s) := runEngine_inv (fun _ => Engine.out_inv (matmulSteps_inv h)) h
theorem groupedOne_inv {d g n c} (h : Inv c.1) : InvEngine (fun c => Inv c.1) (groupedOne d g n c) :=
  (fetch_inv h).bind fun _ ha => (fetch_inv ha).bind fun _ hb => storeResult_inv hb

theorem groupedSteps_inv {d} (h : Inv s) : InvEngine (InvOut) (groupedSteps d s) :=
  sinkReady_inv.bind fun _ _ => (gatherReads_inv h).bind fun _ _ =>
    (foldlM_inv (P := fun c : State × Nat => Inv c.1) (fun _ _ hc => groupedOne_inv hc) h).bind fun _ hc => hc

theorem execGroupedMatmul_inv {p q} (h : Inv s) : InvNext (execGroupedMatmul p q s) := runEngine_inv (fun _ => Engine.out_inv (groupedSteps_inv h)) h

theorem reduceSources_inv {d n rs} (h : Inv s) : InvEngine (fun c => Inv c.2) (reduceSources d n rs s) := by
  induction rs generalizing s with
  | nil => exact h
  | cons r rs ih => exact (fetch_inv h).bind fun _ ha => (ih ha).bind fun _ hb => hb

theorem reduceSteps_inv {d} (h : Inv s) : InvEngine (InvOut) (reduceSteps d s) :=
  sinkReady_inv.bind fun _ _ => (gatherReads_inv h).bind fun _ _ => (reduceSources_inv h).bind fun _ ha => storeResult_inv ha
theorem execReduce_inv {p q} (h : Inv s) : InvNext (execReduce p q s) := runEngine_inv (fun _ => Engine.out_inv (reduceSteps_inv h)) h

/-! ### Mailbox -/

theorem enterOrder_inv {x m} (h : Inv s) : Inv (enterOrder s x m) := ite_inv h (ite_inv (answerBare_inv h) h)

theorem execOrderWindowResolve_inv (h : Inv s) : InvNext (execOrderWindowResolve s) := by
  unfold execOrderWindowResolve
  split
  · exact h
  · next w _ =>
    split
    · exact h
    · next win _ =>
      have hl : ∀ f, Inv ((losersOf w win).foldl (fun s t => answerBare s t 0x02) ((s.reachStamp (w.w + us 20)).modOrders f)) :=
        fun _ => foldl_inv (fun _ _ hu => answerBare_inv hu) h
      dsimp only
      exact ite_invNext (hl _) (foldl_inv (fun _ _ hu => State.event_inv hu) (State.event_inv (hl _)))

theorem tallyRate_inv {x} (h : Inv s) : Inv (tallyRate s x).2 := by
  unfold tallyRate
  grind [State.modPort_inv]

theorem admitMsg_inv {x bulk m} (h : Inv s) : Inv (admitMsg s x bulk m) := by
  unfold admitMsg
  grind [answerBare_inv, enterOrder_inv, tallyRate_inv, State.modOrders_inv]

theorem takePost_inv {x bulk} (h : Inv s) : Inv (takePost s x bulk) := by
  unfold takePost
  grind [State.modPort_inv, expireSession_inv, State.setPort_inv, answerBare_inv, admitMsg_inv]

theorem takeWaiting_inv {x} (h : Inv s) : Inv (takeWaiting s x) := ite_inv (takePost_inv (ite_inv (takePost_inv h) h)) (ite_inv (takePost_inv h) h)
theorem dataWrite_inv {x bulk v} (h : Inv s) : Inv (dataWrite s x bulk v) := h

theorem afterWindow_inv (h : Inv s) : Inv (afterWindow s) := by
  unfold afterWindow
  grind [State.reach_inv]

theorem postWrite_inv {x bulk} (h : Inv s) : Inv (postWrite s x bulk) := takeWaiting_inv (afterWindow_inv h)
theorem takeRsp_inv {x} (h : Inv s) : Inv (takeRsp s x) := ite_inv h (ite_inv (takeWaiting_inv (afterWindow_inv h)) h)

theorem takeLog_inv {x} (h : Inv s) : Inv (takeLog s x) := by
  unfold takeLog
  grind [State.modPort_inv, State.modEvents_inv]

theorem abortWrite_inv {x bulk} (h : Inv s) : Inv (abortWrite s x bulk) := h
theorem nextHiWrite_inv {x v} (h : Inv s) : Inv (nextHiWrite s x v) := ite_inv h (ite_inv h h)

theorem regWrite_inv {x off v} (h : Inv s) : Inv (regWrite s x off v) := by
  unfold regWrite
  grind [dataWrite_inv, State.modPort_inv, takeLog_inv, abortWrite_inv, takeRsp_inv, postWrite_inv, nextHiWrite_inv]

theorem writeGroups_inv {x off vs} (h : Inv s) : Inv (writeGroups s x off vs) := by
  induction vs generalizing s off with
  | nil => exact h
  | cons v vs ih => exact ih (regWrite_inv h)

theorem privateWrite_inv {x off data} (h : Inv s) : Inv (privateWrite s x off data) := ite_inv h (ite_inv h (writeGroups_inv h))
theorem execReadPointerSet_inv {x offset} (h : Inv s) : InvNext (execReadPointerSet x offset s) := onPrivate_inv (fun _ hu => privateWrite_inv hu) h
theorem execRegisterWrite_inv {x offset data damaged} (h : Inv s) : InvNext (execRegisterWrite x offset data damaged s) :=
  onPrivate_inv (fun _ hu => ite_inv hu (privateWrite_inv hu)) h
theorem execMbxCmdDataWrite_inv {x data} (h : Inv s) : InvNext (execMbxCmdDataWrite x data s) := onPrivate_inv (fun _ hu => privateWrite_inv hu) h
theorem execMbxBulkDataWrite_inv {x data} (h : Inv s) : InvNext (execMbxBulkDataWrite x data s) := onPrivate_inv (fun _ hu => privateWrite_inv hu) h
theorem execMbxPostCmd_inv {x} (h : Inv s) : InvNext (execMbxPostCmd x s) := onPrivate_inv (fun _ hu => regWrite_inv hu) h
theorem execMbxPostBulk_inv {x} (h : Inv s) : InvNext (execMbxPostBulk x s) := onPrivate_inv (fun _ hu => regWrite_inv hu) h
theorem execMbxTakeRsp_inv {x} (h : Inv s) : InvNext (execMbxTakeRsp x s) := onPrivate_inv (fun _ hu => regWrite_inv hu) h
theorem execMbxTakeLog_inv {x} (h : Inv s) : InvNext (execMbxTakeLog x s) := onPrivate_inv (fun _ hu => regWrite_inv hu) h
theorem execMbxAbortCmd_inv {x} (h : Inv s) : InvNext (execMbxAbortCmd x s) := onPrivate_inv (fun _ hu => regWrite_inv hu) h
theorem execMbxAbortBulk_inv {x} (h : Inv s) : InvNext (execMbxAbortBulk x s) := onPrivate_inv (fun _ hu => regWrite_inv hu) h
theorem execTimeNextHiWrite_inv {x v} (h : Inv s) : InvNext (execTimeNextHiWrite x v s) := onPrivate_inv (fun _ hu => regWrite_inv hu) h
theorem execDataRegisterRewind_inv {x offset} (h : Inv s) : InvNext (execDataRegisterRewind x offset s) :=
  ite_invNext (onPrivate_inv (fun _ hu => privateWrite_inv hu) h) (invNext_next h)

/-! ### Links -/

theorem freeUnits_inv {n f} (h : Inv s) : Inv (freeUnits s n f) := by
  unfold freeUnits
  grind [State.modLink_inv]

theorem endStep7_inv (h : Inv s) : Inv (endStep7 s) := ite_inv h h

theorem setLink_inv {n st} (h : Inv s) : Inv (setLink s n st) := by
  unfold setLink
  grind [State.modLink_inv, freeUnits_inv, endStep7_inv, State.event_inv, foldl_inv]

theorem startTraining_inv {n} (h : Inv s) : Inv (startTraining s n) := h
theorem retrain_inv {n} (h : Inv s) : Inv (retrain s n) := ite_inv (setLink_inv h) (setLink_inv h)
theorem execSignalDetect_inv {n} (h : Inv s) : InvNext (execSignalDetect n s) :=
  ite_invNext (invNext_next (ite_inv (setLink_inv h) h)) (invNext_next h)
theorem execFecLock_inv {n challenge} (h : Inv s) : InvNext (execFecLock n challenge s) :=
  ite_invNext (invNext_next (signIdentity_inv h)) (invNext_next h)
theorem execTrainingRetry_inv {n} (h : Inv s) : InvNext (execTrainingRetry n s) := ite_invNext (invNext_next (setLink_inv h)) (invNext_next h)
theorem execTrainingTimeout_inv {n} (h : Inv s) : InvNext (execTrainingTimeout n s) := ite_invNext (invNext_next (retrain_inv h)) (invNext_next h)

theorem takeIdentity_inv {n i} (h : Inv s) : Inv (takeIdentity s n i) := by
  unfold takeIdentity
  grind [State.modLink_inv, setLink_inv, State.event_inv]

theorem execSlowPartner_inv {n} (h : Inv s) : InvNext (execSlowPartner n s) := by
  unfold execSlowPartner
  grind [State.modLink_inv, State.reach_inv, State.event_inv, invNext_next]

theorem execSlowPartnerRetrain_inv {n} (h : Inv s) : InvNext (execSlowPartnerRetrain n s) := by
  unfold execSlowPartnerRetrain
  grind [State.reach_inv, retrain_inv, invNext_next]

theorem execFaultyPartner_inv {n} (h : Inv s) : InvNext (execFaultyPartner n s) := ite_invNext (invNext_next (retrain_inv h)) (invNext_next h)

theorem dropTurnFrame_inv {n f} (h : Inv s) : Inv (dropTurnFrame s n f) := by
  unfold dropTurnFrame
  grind [State.modLink_inv, freeUnits_inv]

theorem noteWaiting_inv {n} (h : Inv s) : Inv (noteWaiting s n) := h
theorem emitEnvelope_inv {n e} (h : Inv s) : Inv (emitEnvelope s n e) := h

theorem sendNew_inv {n f} (h : Inv s) : Inv (sendNew s n f) := by
  unfold sendNew
  grind [State.modLink_inv, emitEnvelope_inv, dropTurnFrame_inv]

theorem turnEnvelope_inv {n} (h : Inv s) : Inv (turnEnvelope s n) := by
  unfold turnEnvelope
  grind [State.modLink_inv, emitEnvelope_inv, sendNew_inv]

theorem flushDiscards_inv {n} (h : Inv s) : Inv (flushDiscards s n) := by
  unfold flushDiscards
  split
  · exact ite_inv h (State.event_inv h)
  · exact h

theorem execCalendarTurn_inv {n} (h : Inv s) : InvNext (execCalendarTurn n s) := by
  unfold execCalendarTurn
  grind [State.modLink_inv, noteWaiting_inv, copyOut_inv, flushDiscards_inv, turnEnvelope_inv, invNext_next]

theorem hostile_inv {n f} (h : Inv s) : Inv (hostile s n f) := by
  unfold hostile
  grind [State.modLink_inv, freeUnits_inv, flushDiscards_inv, discard_inv]

theorem takeFrame_inv {n f} (h : Inv s) : Inv (takeFrame s n f) := by
  unfold takeFrame
  grind [State.modLink_inv, freeUnits_inv, hostile_inv, discard_inv, Inv.update]

theorem ackSend_inv {e} (h : Inv s) : Inv (ackSend s e) := by
  unfold ackSend
  grind [forParts_inv, State.modPart_inv]

theorem takeAck_inv {n lack} (h : Inv s) : Inv (takeAck s n lack) := by
  unfold takeAck
  grind [State.modLink_inv, ackSend_inv, foldl_inv]

theorem takeNak_inv {n} (h : Inv s) : Inv (takeNak s n) := h

theorem execEnvelopeReceive_inv {n e} (h : Inv s) : InvNext (execEnvelopeReceive n e s) := by
  unfold execEnvelopeReceive
  grind [State.modLink_inv, takeNak_inv, takeFrame_inv, takeAck_inv, retrain_inv, invNext_next]

theorem compareFar_inv {n} (h : Inv s) : Inv (compareFar s n) := by
  unfold compareFar
  grind [setLink_inv]

theorem replanPort_inv {n} (h : Inv s) : Inv (replanPort s n) := by
  unfold replanPort
  grind [State.modLink_inv, setLink_inv, compareFar_inv, startTraining_inv]

theorem execLinkPlan_inv (h : Inv s) : InvNext (execLinkPlan s) :=
  onDue_inv (fun _ _ hu => ite_inv (answerBare_inv hu) (answerBare_inv (forPorts_inv (fun _ _ hv => replanPort_inv hv) hu.update))) h
theorem execLinkShare_inv (h : Inv s) : InvNext (execLinkShare s) :=
  onDue_inv (fun _ _ hu => ite_inv (answerBare_inv hu) (answerBare_inv (foldl_inv (fun _ _ hv => hv) hu))) h

theorem dropTest_inv {n} (h : Inv s) : Inv (dropTest s n) := by
  unfold dropTest
  grind [State.modLink_inv, State.modLanes_inv]

theorem execLinkPortDisable_inv (h : Inv s) : InvNext (execLinkPortDisable s) :=
  onDue_inv (fun _ _ hu => answerBare_inv (setLink_inv (dropTest_inv hu))) h
theorem execLinkPortEnable_inv (h : Inv s) : InvNext (execLinkPortEnable s) :=
  onDue_inv (fun _ _ hu => answerBare_inv (setLink_inv (dropTest_inv hu))) h

theorem beginTest_inv {n seconds} (h : Inv s) : Inv (beginTest s n seconds) := by
  unfold beginTest
  grind [State.modLink_inv, State.modLanes_inv, setLink_inv]

theorem execLinkPortTest_inv (h : Inv s) : InvNext (execLinkPortTest s) := onDue_inv (fun _ _ hu => answerBare_inv (beginTest_inv hu)) h

theorem execLinkTestEnd_inv {n bitErrors laneErrors} (h : Inv s) : InvNext (execLinkTestEnd n bitErrors laneErrors s) := by
  unfold execLinkTestEnd
  grind [State.modLink_inv, State.modLanes_inv, setLink_inv, compareFar_inv, State.reach_inv, invNext_next]

theorem execIntervalTest_inv {n} (h : Inv s) : InvNext (execIntervalTest n s) := by
  unfold execIntervalTest
  grind [State.modLink_inv, beginTest_inv, State.reach_inv, State.event_inv, invNext_next]

/-! ### Jobs -/

theorem execLinkJob_inv (h : Inv s) : InvNext (execLinkJob s) := onDue_inv (fun _ _ hu => ite_inv (answerBare_inv hu) (answerBare_inv hu)) h
theorem sendControl_inv {typ place ring payload} (h : Inv s) : Inv (sendControl s typ place ring payload) := sendFrame_inv h

theorem drawPair_inv (h : Inv s) : Inv (drawPair s).2.2 := by
  unfold drawPair
  grind [State.draw_inv]

theorem sendHello_inv {p i} (h : Inv s) : Inv (sendHello s p i) := by
  unfold sendHello
  grind [drawPair_inv, modKeysOf_inv, sendControl_inv]

theorem execKeyAgreementStart_inv {p} (h : Inv s) : InvNext (execKeyAgreementStart p s) := by
  unfold execKeyAgreementStart
  grind [sendHello_inv, invNext_next]

theorem agreementFail_inv {p i cause} (h : Inv s) : Inv (agreementFail s p i cause) := State.event_inv h

theorem takeInbox_inv {f e} (h : Inv s) (ht : takeInbox s f = some (e, t)) : Inv t := by
  unfold takeInbox at ht
  split at ht
  · obtain ⟨rfl, rfl⟩ : _ ∧ _ := by simpa using ht
    exact freeUnits_inv h
  · cases ht

theorem onFrame_inv {typ f} (hf : ∀ n g u, Inv u → Inv (f n g u)) (h : Inv s) : InvNext (onFrame s typ f) := by
  unfold onFrame
  split
  · exact hf _ _ _ (takeInbox_inv h ‹_›)
  · exact h

theorem execKaHello_inv (h : Inv s) : InvNext (execKaHello s) := by
  refine onFrame_inv (fun n g u hu => ?_) h
  split
  · exact hu
  · split
    · exact hu
    · exact ite_inv (agreementFail_inv hu) (ite_inv (agreementFail_inv hu)
        (sendControl_inv (signIdentity_inv (drawPair_inv hu))))

theorem execKaReply_inv (h : Inv s) : InvNext (execKaReply s) := by
  unfold execKaReply
  grind [onFrame_inv, modKeysOf_inv, signIdentity_inv, agreementFail_inv, sendControl_inv, invNext_next]

theorem execKaConfirm_inv (h : Inv s) : InvNext (execKaConfirm s) := by
  unfold execKaConfirm
  grind [onFrame_inv, modKeysOf_inv, agreementFail_inv, invNext_next]

theorem execKaRetryTimeout_inv {p i} (h : Inv s) : InvNext (execKaRetryTimeout p i s) := by
  unfold execKaRetryTimeout
  grind [modKeysOf_inv, agreementFail_inv, sendControl_inv, State.reach_inv, invNext_next]

theorem execKaRetryInterval_inv {p i} (h : Inv s) : InvNext (execKaRetryInterval p i s) := by
  unfold execKaRetryInterval
  grind [modKeysOf_inv, sendHello_inv, State.reach_inv, invNext_next]

theorem execJobKeyRekey_inv {p i} (h : Inv s) : InvNext (execJobKeyRekey p i s) := by
  unfold execJobKeyRekey
  grind [sendHello_inv, invNext_next]

theorem execOldKeyidExpiry_inv {p i} (h : Inv s) : InvNext (execOldKeyidExpiry p i s) := by
  unfold execOldKeyidExpiry
  grind [modKeysOf_inv, State.reach_inv, invNext_next]

theorem execGcmFailTeardown_inv {p i} (h : Inv s) : InvNext (execGcmFailTeardown p i s) := by
  unfold execGcmFailTeardown
  grind [modKeysOf_inv, sendHello_inv, State.event_inv, invNext_next]

theorem gcmFailed_inv {n w} (h : Inv s) : Inv (gcmFailed s n w) := by
  unfold gcmFailed
  grind [State.modLink_inv, modKeysOf_inv]

theorem openJob_inv {n f} (h : Inv s) : Inv (openJob s n f).2 := by
  unfold openJob
  grind [gcmFailed_inv, modKeysOf_inv]

theorem onJobFrame_inv {typ f} (hf : ∀ n g p i bs u, Inv u → Inv (f n g p i bs u)) (h : Inv s) : InvNext (onJobFrame s typ f) := by
  unfold onJobFrame
  split
  · exact h
  · next e t ht =>
    have hu := openJob_inv (n := e.1) (f := e.2) (takeInbox_inv h ht)
    split <;> simp_all [InvNext]

theorem placeFrame_inv {p r f pt} (h : Inv s) : Inv (placeFrame s p r f pt) := by
  unfold placeFrame
  grind [bankWrite_inv, State.modPart_inv]

theorem execJobData_inv (h : Inv s) : InvNext (execJobData s) := by
  unfold execJobData
  grind [onJobFrame_inv, placeFrame_inv, invNext_next]

theorem execRingCredit_inv (h : Inv s) : InvNext (execRingCredit s) := by
  unfold execRingCredit
  grind [onFrame_inv, State.modPart_inv, invNext_next]

theorem returnCredit_inv {p i ring} (h : Inv s) : Inv (returnCredit s p i ring) := by
  unfold returnCredit
  grind [sendFrame_inv]

theorem linkSent_inv {p i ring bs} (h : Inv s) : Inv (linkSent s p i ring bs) := (sendMessage_inv h)
theorem linkSendSteps_inv {d} (h : Inv s) : InvEngine (InvOut) (linkSendSteps d s) :=
  transferBank_inv.bind fun _ _ => ite_invEngine wait_inv (linkSent_inv (meetBank_inv h))
theorem awaitHop_inv {p q} (h1 : Inv t) : Inv (awaitHop s t p q) := ite_inv h1 h1

theorem execLinkSend_inv {p q} (h : Inv s) : InvNext (execLinkSend p q s) := by
  have hr : InvNext (runEngine s p q 5 0x0510 (fun d => handoverAt d.record 40 d.desc.inst) (fun d s => (linkSendSteps d s).out)) :=
    runEngine_inv (fun _ => Engine.out_inv (linkSendSteps_inv h)) h
  unfold execLinkSend
  split
  · next t ht => exact awaitHop_inv (show InvNext (.next t) from ht ▸ hr)
  · exact hr

theorem slotFreed_inv {p i ring rest} (h : Inv s) : Inv (slotFreed s p i ring rest) := returnCredit_inv h

theorem linkRecvSteps_inv {d} (h : Inv s) : InvEngine (InvOut) (linkRecvSteps d s) := by
  refine transferBank_inv.bind fun _ _ => ?_
  split
  · split
    · exact slotFreed_inv (moveToBank_inv (meetBank_inv h))
    · trivial
  · trivial

theorem execLinkRecv_inv {p q} (h : Inv s) : InvNext (execLinkRecv p q s) := runEngine_inv (fun _ => Engine.out_inv (linkRecvSteps_inv h)) h

theorem modStream_inv {p n f} (h : Inv s) : Inv (modStream s p n f) := by
  unfold modStream
  grind [State.modCsi_inv]

theorem execLinkIngressCopy_inv (h : Inv s) : InvNext (execLinkIngressCopy s) := onDue_inv (fun _ _ hu => answerBare_inv (modStream_inv hu)) h
theorem execLinkIngressBind_inv (h : Inv s) : InvNext (execLinkIngressBind s) := onDue_inv (fun _ _ hu => answerBare_inv (modStream_inv hu)) h
theorem execLinkIngressRemove_inv (h : Inv s) : InvNext (execLinkIngressRemove s) := onDue_inv (fun _ _ hu => answerBare_inv (modStream_inv hu)) h

theorem landCopy_inv {p n src bs} (h : Inv s) : Inv (landCopy s p n src bs) := by
  unfold landCopy
  grind [bankWrite_inv, State.modPart_inv]

theorem execIngressCopy_inv (h : Inv s) : InvNext (execIngressCopy s) := by
  unfold execIngressCopy
  grind [onJobFrame_inv, landCopy_inv, State.modPart_inv, invNext_next]

/-! ### WindowUnit -/

theorem haloFetch_inv {p c bytes} (h : Inv s) : Inv (haloFetch s p c bytes).2 := by
  unfold haloFetch
  grind [State.setPart_inv]

theorem haloRead_inv {d g} (h : Inv s) : InvEngine (fun c => Inv c.2.2) (haloRead d g s) :=
  coreBank_inv.bind fun _ _ => (gatherItems_inv h).bind fun _ _ => haloFetch_inv (haloFetch_inv (meetBank_inv h))

theorem haloSend_inv {p c key f} (h : Inv s) : InvEngine (fun c => Inv c.2) (haloSend s p c key f) := by
  unfold haloSend
  split
  · exact h
  · dsimp only
    split
    · trivial
    · exact h

theorem haloWrite_inv {d g row} (h : Inv s) : InvEngine (fun c => Inv c.2) (haloWrite d g row s) :=
  (haloSend_inv h).bind fun _ ha => (haloSend_inv ha).bind fun _ hb => hb

theorem haloRoom_inv {d g} : InvEngine (fun _ => True) (haloRoom d g s) := by
  unfold haloRoom
  dsimp only
  split
  · trivial
  · exact ite_invEngine trivial wait_inv

theorem dwconvSteps_inv {d} (h : Inv s) : InvEngine (InvOut) (dwconvSteps d s) :=
  coreBank_inv.bind fun _ _ => coreBank_inv.bind fun _ _ => haloRoom_inv.bind fun _ _ => (haloRead_inv h).bind fun _ ha =>
    (haloWrite_inv ha).bind fun _ hb => storeResult_inv (ite_inv (meetBank_inv (meetBank_inv hb)) (meetBank_inv hb))

theorem execDwconv_inv {p q} (h : Inv s) : InvNext (execDwconv p q s) := runEngine_inv (fun _ => Engine.out_inv (dwconvSteps_inv h)) h

theorem patchStore_inv {d g ss} (h : Inv s) : Inv (patchStore s d g ss) := by
  unfold patchStore
  grind [moveToBank_inv, State.setPart_inv]

theorem wgatherSteps_inv {d} (h : Inv s) : InvEngine (InvOut) (wgatherSteps d s) :=
  sinkReady_inv.bind fun _ _ => haloRoom_inv.bind fun _ _ => (haloRead_inv h).bind fun _ ha => (haloWrite_inv ha).bind fun _ hb =>
    patchStore_inv hb

theorem execWgather_inv {p q} (h : Inv s) : InvNext (execWgather p q s) := runEngine_inv (fun _ => Engine.out_inv (wgatherSteps_inv h)) h

theorem poolSteps_inv {isMax d} (h : Inv s) : InvEngine (InvOut) (poolSteps isMax d s) :=
  coreBank_inv.bind fun _ _ => haloRoom_inv.bind fun _ _ => (haloRead_inv h).bind fun _ ha => (haloWrite_inv ha).bind fun _ hb =>
    storeResult_inv hb

theorem execPoolMax_inv {p q} (h : Inv s) : InvNext (execPoolMax p q s) := runEngine_inv (fun _ => Engine.out_inv (poolSteps_inv h)) h
theorem execPoolMin_inv {p q} (h : Inv s) : InvNext (execPoolMin p q s) := runEngine_inv (fun _ => Engine.out_inv (poolSteps_inv h)) h

theorem globalAvgSteps_inv {d} (h : Inv s) : InvEngine (InvOut) (globalAvgSteps d s) := by
  refine coreBank_inv.bind fun _ _ => coreBank_inv.bind fun _ _ => ?_
  refine InvEngine.bind (P := fun c : Plane × State => Inv c.2) (ite_invEngine h ?_) fun _ ha => storeResult_inv (meetBank_inv ha)
  exact coreBank_inv.bind fun _ _ => meetBank_inv h

theorem execGlobalAvg_inv {p q} (h : Inv s) : InvNext (execGlobalAvg p q s) := runEngine_inv (fun _ => Engine.out_inv (globalAvgSteps_inv h)) h

theorem argMeets_inv {g ib xb vb fb} (h : Inv s) : Inv (argMeets s g ib xb vb fb) := by
  unfold argMeets
  grind [meetBank_inv]

theorem argStore_inv {d g picks} (h : Inv s) : Inv (argStore s d g picks) := by
  unfold argStore
  grind [storeResult_inv]

theorem argmaxSteps_inv {d} (h : Inv s) : InvEngine (InvOut) (argmaxSteps d s) :=
  coreBank_inv.bind fun _ _ => coreBank_inv.bind fun _ _ =>
    InvEngine.bind (P := fun _ => True) (ite_invEngine coreBank_inv trivial) fun _ _ =>
      InvEngine.bind (P := fun _ => True) (ite_invEngine coreBank_inv trivial) fun _ _ => argStore_inv (argMeets_inv h)

theorem execArgmaxCh_inv {p q} (h : Inv s) : InvNext (execArgmaxCh p q s) := runEngine_inv (fun _ => Engine.out_inv (argmaxSteps_inv h)) h

/-! ### Steps -/

theorem execCheckpointComplete_inv {p} (h : Inv s) : InvNext (execCheckpointComplete p s) := by
  unfold execCheckpointComplete
  grind [settleModule_inv, pumpExport_inv, waits_inv, State.modPart_inv, stopHeld_inv, State.event_inv, invNext_next]

theorem execStepStall_inv {p} (h : Inv s) : InvNext (execStepStall p s) := ite_invNext (invNext_next (State.event_inv h)) (invNext_next h)

theorem execHardStop_inv {c} (h : Inv s) : InvNext (execHardStop c s) := by
  unfold execHardStop
  grind [hardStop_inv, invNext_next]

theorem zeroCoreBanks_inv {c} (h : Inv s) : Inv (zeroCoreBanks s c) := foldl_inv (fun _ _ hu => bankZero_inv hu) h

theorem rejoinHeld_inv {p c} (h : Inv s) : Inv (rejoinHeld s p c) := by
  have hr : Inv (readmit p (fun t => pickLayout t (t.part p)) 1 s [c]).1 := readmit_inv h
  have hm := fun f => State.modPart_inv (p := p) (f := f) hr
  unfold rejoinHeld
  dsimp only
  refine ite_inv hr ?_
  split
  · exact fenceEvent_inv (hm _)
  · refine ite_inv ?_ (finishBoundary_inv (fenceEvent_inv (ite_inv (hm _) (layoutEntries_inv (hm _)))))
    split
    · exact releaseRestored_inv (putCarried_inv (fenceEvent_inv (ite_inv (hm _) (layoutEntries_inv (hm _)))))
    · exact releaseRestored_inv (fenceEvent_inv (ite_inv (hm _) (layoutEntries_inv (hm _))))

theorem rejoinArmed_inv {p c} (h : Inv s) : Inv (rejoinArmed s p c) := by
  unfold rejoinArmed
  grind [readmit_inv, moveOrStop_inv, fenceEvent_inv, State.modPart_inv]

theorem execGloryHolePass_inv {c failStage} (h : Inv s) : InvNext (execGloryHolePass c failStage s) := by
  unfold execGloryHolePass
  grind [zeroCoreBanks_inv, State.modCore_inv, rejoinArmed_inv, fenceEvent_inv, rejoinHeld_inv, State.event_inv, invNext_next]

/-! ### Partitions -/

theorem answerPart_inv {t status code cond place} (h : Inv s) : Inv (answerPart s t status code cond place) := answer_inv h

theorem execPartAssign_inv (h : Inv s) : InvNext (execPartAssign s) := by
  unfold execPartAssign
  grind [answerBare_inv, enterClearing_inv, onPart_inv, State.modPart_inv, invNext_next]

theorem execPartRelease_inv (h : Inv s) : InvNext (execPartRelease s) :=
  onPart_inv (fun _ _ _ hu => ite_inv (answerBare_inv hu) (answerBare_inv hu)) h
theorem setLoad_inv {p code detail} (h : Inv s) : Inv (setLoad s p code detail) := h

theorem execPartLoad_inv {img} (h : Inv s) : InvNext (execPartLoad img s) := by
  unfold execPartLoad
  grind [answerPart_inv, State.modCluster_inv, answerBare_inv, setLoad_inv, onPart_inv, State.modPart_inv, foldl_inv, invNext_next]

theorem armNow_inv {p img flags layout spill length} (h : Inv s) : Inv (armNow s p img flags layout spill length) := by
  unfold armNow
  grind [closeContexts_inv, settleHolds_inv, writeLists_inv, writeOwners_inv, State.modPart_inv, armKv_inv]

theorem armReplay_inv {p layout u} (h : Inv s) : Inv (armReplay s p layout u) := by
  unfold armReplay
  grind [setClaim_inv, restore_inv, State.modPart_inv]

theorem execPartArm_inv {supply} (h : Inv s) : InvNext (execPartArm supply s) := by
  refine onPart_inv (fun q p u hu => ?_) h
  dsimp only
  split
  · exact answerBare_inv hu
  · refine ite_inv (answerBare_inv hu) (ite_inv (answerBare_inv hu) ?_)
    split
    · exact answerPart_inv hu
    · refine ite_inv (answerPart_inv hu) (ite_inv (answerBare_inv hu) ?_)
      split
      · exact answerBare_inv hu
      · exact ite_inv (answerBare_inv hu) (answerPart_inv (ite_inv (armReplay_inv (armNow_inv hu)) (armNow_inv hu)))

theorem beginRun_inv {p} (h : Inv s) : Inv (beginRun s p) :=
  ite_inv (State.modPower_inv (settleHolds_inv h)) (settleHolds_inv h)

theorem execPartStart_inv (h : Inv s) : InvNext (execPartStart s) := by
  unfold execPartStart
  grind [answerPart_inv, answerBare_inv, setLoad_inv, onPart_inv, beginRun_inv, invNext_next]

theorem wantStop_inv {p unload} (h : Inv s) : Inv (wantStop s p unload) := ite_inv (stopBoundary_inv h) h
theorem execPartStop_inv (h : Inv s) : InvNext (execPartStop s) :=
  onPart_inv (fun _ _ _ hu => ite_inv (answerBare_inv (wantStop_inv hu)) (answerBare_inv hu)) h

theorem execPartUnload_inv (h : Inv s) : InvNext (execPartUnload s) := by
  unfold execPartUnload
  grind [answerBare_inv, enterClearing_inv, onPart_inv, wantStop_inv, invNext_next]

/-! ### Claims -/

theorem raiseTo_inv {p v} (h : Inv s) : Inv (raiseTo s p v) := ite_inv h (ite_inv (State.event_inv h) (setClaim_inv (State.event_inv h)))
theorem raiseClaim_inv {p v} (h : Inv s) : Inv (raiseClaim s p v) := ite_inv (raiseTo_inv h) (raiseTo_inv h)
theorem enterGlory_inv {p} (h : Inv s) : Inv (enterGlory s p) := yieldClaim_inv h
theorem askReentry_inv {p} (h : Inv s) : Inv (askReentry s p) := sendPart_inv h
theorem startReentry_inv {p} (h : Inv s) : Inv (startReentry s p) := askReentry_inv (enterGlory_inv h)
theorem demote_inv {p c place} (h : Inv s) : Inv (demote s p c place) := startReentry_inv (State.event_inv h)
theorem observe_inv {p c place} (h : Inv s) : Inv (observe s p c place) := ite_inv (demote_inv h) h
theorem loseHolder_inv {p} (h : Inv s) : Inv (loseHolder s p) := ite_inv (raiseClaim_inv h) (ite_inv (reentryFail_inv h) h)
theorem execHeartbeatTimer_inv {p} (h : Inv s) : InvNext (execHeartbeatTimer p s) := ite_invNext (invNext_next (sendBeat_inv h)) (invNext_next h)

theorem noteBeat_inv {p hd} (h : Inv s) : Inv (noteBeat s p hd) := by
  unfold noteBeat
  grind [State.modClaim_inv]

theorem execHeartbeatReceive_inv {hd} (h : Inv s) : InvNext (execHeartbeatReceive hd s) := by
  unfold execHeartbeatReceive
  grind [observe_inv, loseHolder_inv, noteBeat_inv, State.modLanes_inv, invNext_next]

theorem execHolderLost_inv {p} (h : Inv s) : InvNext (execHolderLost p s) := by
  unfold execHolderLost
  grind [loseHolder_inv, State.reach_inv, invNext_next]

theorem execPeerRxSyncLost_inv (h : Inv s) : InvNext (execPeerRxSyncLost s) := invNext_next h
theorem execPeerRxSyncGained_inv (h : Inv s) : InvNext (execPeerRxSyncGained s) := invNext_next h

theorem onPartFrame_inv {kind f} (hf : ∀ p bs u, Inv u → Inv (f p bs u)) (h : Inv s) : InvNext (onPartFrame s kind f) := by
  unfold onPartFrame
  split
  · exact h
  · next e t ht =>
    have hu := openJob_inv (n := e.1) (f := e.2) (takeInbox_inv h ht)
    grind [State.modPart_inv, invNext_next]

theorem execDecisionPart_inv (h : Inv s) : InvNext (execDecisionPart s) :=
  onPartFrame_inv (fun _ _ _ hu => ite_inv (observe_inv hu) (observe_inv hu)) h

theorem standUp_inv {p} (h : Inv s) : Inv (standUp s p) := by
  unfold standUp
  grind [beginRun_inv, armNow_inv]

theorem restoreSnapshot_inv {p c} (h : Inv s) : Inv (restoreSnapshot s p c) := by
  unfold restoreSnapshot
  grind [standUp_inv, restore_inv, State.modPart_inv]

theorem execSnapshotSection_inv (h : Inv s) : InvNext (execSnapshotSection s) := by
  unfold execSnapshotSection
  grind [restoreSnapshot_inv, State.modClaim_inv, onPartFrame_inv, invNext_next]

theorem addKept_inv {p e data} (h : Inv s) : Inv (addKept s p e data) := by
  unfold addKept
  grind [State.modPart_inv]

theorem execSnapshotJournal_inv (h : Inv s) : InvNext (execSnapshotJournal s) :=
  onPartFrame_inv (fun _ _ _ hu => ite_inv hu (ite_inv (reentryFail_inv hu) (addKept_inv hu))) h
theorem execReentryRequest_inv (h : Inv s) : InvNext (execReentryRequest s) := onPartFrame_inv (fun _ _ _ hu => ite_inv hu hu) h

theorem execFollowerUnmatched_inv {p} (h : Inv s) : InvNext (execFollowerUnmatched p s) := by
  unfold execFollowerUnmatched
  grind [startReentry_inv, State.reach_inv, reentryFail_inv, invNext_next]

theorem execClaimPair_inv (h : Inv s) : InvNext (execClaimPair s) := by
  unfold execClaimPair
  grind [answerBare_inv, onDue_inv, sendBeat_inv, State.modClaim_inv, invNext_next]

theorem execClaimYield_inv (h : Inv s) : InvNext (execClaimYield s) :=
  onDue_inv (fun _ _ hu => ite_inv (answerBare_inv (yieldClaim_inv hu)) (answerBare_inv hu)) h

theorem execClaimRaise_inv (h : Inv s) : InvNext (execClaimRaise s) := by
  unfold execClaimRaise
  grind [answerBare_inv, raiseClaim_inv, onDue_inv, raiseTo_inv, invNext_next]

theorem execClaimUnpair_inv (h : Inv s) : InvNext (execClaimUnpair s) := onDue_inv (fun _ _ hu => ite_inv (answerBare_inv hu) (answerBare_inv hu)) h
theorem execClaimReenter_inv (h : Inv s) : InvNext (execClaimReenter s) :=
  onDue_inv (fun _ _ hu => ite_inv (answerBare_inv hu) (answerBare_inv (startReentry_inv hu))) h

/-! ### Maintenance -/

theorem poisonUnit_inv {k off} (h : Inv s) : Inv (poisonUnit s k off) := ite_inv (foundUnit_inv h) (ite_inv h (foundUnit_inv (stackMark_inv h)))
theorem correctUnit_inv {k u} (h : Inv s) : Inv (correctUnit s k u) := ite_inv (State.event_inv h.clearSingles) h.clearSingles

theorem advanceScrub_inv {k} (h : Inv s) : Inv (advanceScrub s k) := by
  unfold advanceScrub
  grind [State.modCluster_inv, State.event_inv]

theorem execHbmScrub_inv {k corrected uncorrectable} (h : Inv s) : InvNext (execHbmScrub k corrected uncorrectable s) := by
  unfold execHbmScrub
  grind [advanceScrub_inv, poisonUnit_inv, correctUnit_inv, foldl_inv, invNext_next]

theorem sweepDone_inv {k} (h : Inv s) : Inv (sweepDone s k) := by
  unfold sweepDone
  grind [State.modCluster_inv, State.event_inv, foldl_inv]

theorem execKeySweep_inv {k uncorrectable} (h : Inv s) : InvNext (execKeySweep k uncorrectable s) := by
  unfold execKeySweep
  grind [sweepDone_inv, State.modCluster_inv, poisonUnit_inv, meetStack_inv, foldl_inv, Inv.clearSingles, invNext_next]

/-! ### Power -/

theorem setSelfRefresh_inv {b} (h : Inv s) : Inv (setSelfRefresh s b) := forClusters_inv (fun _ _ hu => hu) h

theorem enterQuench_inv {cause} (h : Inv s) : Inv (enterQuench s cause) := by
  unfold enterQuench
  grind [forParts_inv, settleHolds_inv, setSelfRefresh_inv, yieldClaim_inv, State.modThermal_inv, State.modPower_inv, State.event_inv]

theorem leaveQuench_inv (h : Inv s) : Inv (leaveQuench s) := by
  unfold leaveQuench
  grind [settleModule_inv, forParts_inv, settleHolds_inv, setSelfRefresh_inv, State.modPart_inv, State.modPower_inv]

theorem descentEvent_inv {kind idx reading ended} (h : Inv s) : Inv (descentEvent s kind idx reading ended) := State.event_inv h
theorem beginDescent_inv {kind idx reading} (h : Inv s) : Inv (beginDescent s kind idx reading) :=
  ite_inv h (descentEvent_inv (State.modPower_inv (settleHolds_inv h)))
theorem setLevel_inv {l mv} (h : Inv s) : Inv (setLevel s l mv) := ite_inv (State.event_inv h) h
theorem execSupplyWarning_inv {mv} (h : Inv s) : InvNext (execSupplyWarning mv s) := ite_invNext (invNext_next h) (invNext_next (setLevel_inv h))
theorem execSupplyWarningEnd_inv {mv} (h : Inv s) : InvNext (execSupplyWarningEnd mv s) :=
  ite_invNext (invNext_next h) (invNext_next (setLevel_inv h))
theorem execHoldLevelLeft_inv {mv} (h : Inv s) : InvNext (execHoldLevelLeft mv s) := ite_invNext (invNext_next h) (invNext_next (setLevel_inv h))
theorem beginSupplyHold_inv (h : Inv s) : Inv (beginSupplyHold s) :=
  ite_inv h (ite_inv h (State.modThermal_inv (settleHolds_inv h)))
theorem execSupplyHold_inv {mv} (h : Inv s) : InvNext (execSupplyHold mv s) :=
  ite_invNext (invNext_next h) (invNext_next (beginSupplyHold_inv (setLevel_inv h)))
theorem execStackSelfRefresh_inv (h : Inv s) : InvNext (execStackSelfRefresh s) := ite_invNext (invNext_next (setSelfRefresh_inv h)) (invNext_next h)
theorem execSupplyReset_inv (h : Inv s) : InvNext (execSupplyReset s) := ite_invNext (invNext_next h) (invNext_next (offState_inv))
theorem execOverVoltage_inv {mv} (h : Inv s) : InvNext (execOverVoltage mv s) := ite_invNext (invNext_next h) (invNext_next (State.event_inv h))
theorem execRegulatorFault_inv {rail deviation} (h : Inv s) : InvNext (execRegulatorFault rail deviation s) :=
  ite_invNext (invNext_next h) (invNext_next (enterQuench_inv (State.event_inv h)))

theorem sendPulled_inv (h : Inv s) : Inv (sendPulled s) := by
  unfold sendPulled
  grind [State.modLanes_inv, forParts_inv, State.modClaim_inv, sendBeatAs_inv]

theorem cutTransmit_inv (h : Inv s) : Inv (cutTransmit s) := forPorts_inv (fun _ _ hu => ite_inv hu hu) (State.modCsi_inv rfl h)

theorem execPrsntLoss_inv (h : Inv s) : InvNext (execPrsntLoss s) := by
  unfold execPrsntLoss
  grind [enterQuench_inv, forParts_inv, sendPulled_inv, cutTransmit_inv, State.modPart_inv, State.modPower_inv, State.event_inv,
    invNext_next]

theorem setCap_inv {target ramp} (h : Inv s) : Inv (setCap s target ramp) := ite_inv h (ite_inv h (settleHolds_inv h))
theorem execPwrCap_inv (h : Inv s) : InvNext (execPwrCap s) := onDue_inv (fun _ _ hu => answerBare_inv (setCap_inv hu)) h

theorem execPwrDrainEnter_inv (h : Inv s) : InvNext (execPwrDrainEnter s) := by
  unfold execPwrDrainEnter
  grind [settleModule_inv, answerBare_inv, forParts_inv, onDue_inv, stopHeld_inv, State.modPower_inv, invNext_next]

theorem execPwrDrainLeave_inv (h : Inv s) : InvNext (execPwrDrainLeave s) :=
  onDue_inv (fun _ _ hu => ite_inv (answerBare_inv hu) (answerBare_inv hu)) h
theorem execPwrQuench_inv (h : Inv s) : InvNext (execPwrQuench s) := onDue_inv (fun _ _ hu => answerBare_inv (enterQuench_inv hu)) h
theorem execPwrQuenchClear_inv (h : Inv s) : InvNext (execPwrQuenchClear s) :=
  onDue_inv (fun _ _ hu => ite_inv (answerBare_inv hu) (ite_inv (answerBare_inv hu) (answerBare_inv (leaveQuench_inv hu)))) h
theorem execThmCoolant_inv (h : Inv s) : InvNext (execThmCoolant s) := onDue_inv (fun _ _ hu => answerBare_inv hu) h
theorem execThmSensorClear_inv (h : Inv s) : InvNext (execThmSensorClear s) :=
  onDue_inv (fun _ _ hu => answerBare_inv (forCores_inv (fun _ _ hv => ite_inv hv hv) hu)) h

/-! ### Start -/

theorem wipeKeys_inv {p} (h : Inv s) : Inv (wipeKeys s p) := by
  unfold wipeKeys
  grind [State.modPart_inv, State.modKeys_inv]

theorem wipeVault_inv {cause} (h : Inv s) : Inv (wipeVault s cause) := by
  unfold wipeVault
  grind [settleModule_inv, State.modCluster_inv, enterClearing_inv, forParts_inv, State.modSecurity_inv, wipeKeys_inv, yieldClaim_inv,
    forClusters_inv, State.event_inv]

theorem bootRom_inv {i} (h : Inv s) : Inv (bootRom s i) :=
  ite_inv h
    (ite_inv (wipeVault_inv h) h)

theorem runBoot_inv (h : Inv s) : Inv (runBoot s) := by
  unfold runBoot
  split
  · exact ite_inv (bootRom_inv h) h
  · exact h

theorem execStart_inv {i} (h : Inv s) : InvNext (execStart i s) := by
  have hb : Inv ((((offState s).modPower (fun w => { w with state := .boot, supplyMv := i.supplyMv, level := .normal })).modFw
      (fun f => { f with startIn := some i, powerAt := s.now })).modTime (fun t => { t with ref := i.refclk }) |>.modSecurity
        (fun v => { v with extTamper := i.tamperLow })) :=
    State.modSecurity_inv (State.modTime_inv (State.modFw_inv (State.modPower_inv offState_inv)))
  exact ite_invNext h (runBoot_inv (ite_inv (wipeVault_inv hb) hb))

theorem execPrsntMate_inv (h : Inv s) : InvNext (execPrsntMate s) := ite_invNext (invNext_next (runBoot_inv h)) (invNext_next h)

/-- The stacks are trained: memory is as after reset (16 R449). -/
theorem Inv.emptied {owners clusters} (h : Inv s) : Inv { s with mem := Mem.init, owners := owners, clusters := clusters } := h.of_mem reset_memWf rfl

theorem trainStacks_inv {i} (h : Inv s) : Inv (trainStacks s i) := by
  unfold trainStacks
  grind [forCores_inv, State.modSecurity_inv, fenceFor_inv, forClusters_inv, newMemoryKey_inv, State.modFw_inv, State.modEvents_inv,
    State.event_inv, Inv.emptied]

theorem runFirmware_inv {i} (h : Inv s) : Inv (runFirmware s i) := by
  unfold runFirmware
  grind [trainStacks_inv, forPorts_inv, startTraining_inv, State.modFw_inv, State.modPower_inv]

theorem clearCounts_inv (h : Inv s) : Inv (clearCounts s) := by
  unfold clearCounts
  exact State.modFw_inv (State.modEvents_inv (State.modLanes_inv (forPorts_inv (fun _ _ hu => hu) (State.modCsi_inv rfl
    (State.modSecurity_inv (State.modPower_inv (State.modTime_inv (State.modOrders_inv
      (forI3c_inv (fun _ _ hu => hu) h)))))))))

theorem enterHold_inv (h : Inv s) : Inv (enterHold s) := by
  unfold enterHold
  grind [enterQuench_inv, clearCounts_inv, State.modFw_inv, State.modPower_inv, State.event_inv]

theorem settleStart_inv (h : Inv s) : Inv (settleStart s) := ite_inv h (ite_inv (enterHold_inv (endStep7_inv h)) (endStep7_inv h))

theorem execStartTimeLockTimeout_inv (h : Inv s) : InvNext (execStartTimeLockTimeout s) := by
  unfold execStartTimeLockTimeout
  grind [enterHold_inv, settleStart_inv, State.reach_inv, invNext_next]

/-! A restart begins from the module left off, whatever came before. -/

theorem restartBase_inv : Inv (restartBase s) := by
  unfold restartBase
  exact forI3c_inv (fun _ _ hu => ite_inv (endSession_inv hu) hu) (inv_of_init rfl rfl)

theorem retakePosts_inv (h : Inv s) : Inv (retakePosts s) := forI3c_inv (fun _ _ hu => takeWaiting_inv hu) h
theorem restartRom_inv : Inv (restartRom s) := retakePosts_inv (State.modSecurity_inv restartBase_inv)

theorem restartWith_inv {hd} : Inv (restartWith s hd) := by
  unfold restartWith
  grind [retakePosts_inv, State.modSecurity_inv, restartBase_inv, State.modFw_inv, runFirmware_inv]

theorem execTamperLoopOpen_inv (h : Inv s) : InvNext (execTamperLoopOpen s) := ite_invNext (invNext_next h) (invNext_next (wipeVault_inv h))
theorem execLidTamper_inv {mesh} (h : Inv s) : InvNext (execLidTamper mesh s) :=
  ite_invNext h (State.event_inv restartRom_inv)

/-! ### Stores -/

theorem requestBlocks_inv {p q block n} (h : Inv s) : Inv (requestBlocks s p q block n) :=
  foldl_inv (fun _ _ hu => ite_inv (openRequest_inv hu) hu) h

theorem landBlocks_inv {p addr block n rs} (h : Inv s) : Inv (landBlocks s p addr block n rs).1 := by
  refine foldl_fst_inv (fun c i hc => ?_) h
  have hp := foldl_inv (as := List.range 1024) (fun u j hu => bankMark_inv (w := (addr + i * blockBytes) / 64 + j) hu) hc
  grind [bankWrite_inv]

theorem storeReadTry_inv {d} (h : Inv s) : InvStore (storeReadTry d s) := by
  unfold storeReadTry
  dsimp only
  split
  · trivial
  · exact h
  · split
    · split
      · exact h
      · exact requestBlocks_inv h
    · split
      · exact h
      · exact landBlocks_inv h

theorem writeBlocks_inv {p q block n data} (h : Inv s) : Inv (writeBlocks s p q block n data) := sealBlocks_inv h

theorem storeWriteTry_inv {d} (h : Inv s) : InvStore (storeWriteTry d s) := by
  unfold storeWriteTry
  dsimp only
  split
  · trivial
  · exact h
  · split
    · exact writeBlocks_inv (meetBank_inv h)
    · split
      · exact h
      · exact h

theorem runStore_inv {p q opcode op} (ho : ∀ d, InvStore (op d s)) (h : Inv s) : InvNext (runStore s p q opcode op) := by
  unfold runStore
  split
  · exact h
  · next d _ =>
    have hd := ho d
    split
    · split <;> simp_all only [InvStore]
      · exact waits_inv hd
      · trivial
      · exact issue_inv hd
    · exact waits_inv h

theorem execStoreRead_inv {p q} (h : Inv s) : InvNext (execStoreRead p q s) := runStore_inv (fun _ => storeReadTry_inv h) h
theorem execStoreWrite_inv {p q} (h : Inv s) : InvNext (execStoreWrite p q s) := runStore_inv (fun _ => storeWriteTry_inv h) h
theorem continueExports_inv (h : Inv s) : Inv (continueExports s) := forParts_inv (fun _ _ hu => pumpExport_inv hu) h

theorem execStoreWrAck_inv (h : Inv s) : InvNext (execStoreWrAck s) := by
  unfold execStoreWrAck
  grind [onFrame_inv, continueExports_inv, modRequest_inv, invNext_next]

theorem execStepExport_inv {p} (h : Inv s) : InvNext (execStepExport p s) := by
  unfold execStepExport
  dsimp only
  split
  · refine ite_invNext h (ite_invNext (waits_inv (pumpExport_inv h)) ?_)
    exact queueExport_inv (State.modPart_inv (ite_inv (State.event_inv h) h))
  · exact h

/-! ### Firmware -/

theorem answerFw_inv {t status cause tail} (h : Inv s) : Inv (answerFw s t status cause tail) := answer_inv h
theorem answerCause_inv {t cause tail} (h : Inv s) : Inv (answerCause s t cause tail) := answerFw_inv h

theorem onFw_inv {x typ ok f} (hf : ∀ q u, Inv u → Inv (f q u)) (h : Inv s) : InvNext (onFw s x typ ok f) := by
  unfold onFw
  split
  · exact h
  · exact onTaken_inv (fun _ _ hu => ite_inv (answerBare_inv hu) (hf _ _ hu)) h

theorem dropLoad_inv {loadState} (h : Inv s) : Inv (dropLoad s loadState) := by
  unfold dropLoad
  grind [answerCause_inv, dropRequests_inv, State.modFw_inv]

theorem failPull_inv {cause} (h : Inv s) : Inv (failPull s cause) := State.modFw_inv (dropLoad_inv h)
theorem openLoad_inv {l} (h : Inv s) : Inv (openLoad s l) := State.modFw_inv (dropLoad_inv h)
theorem execFwBeginBlocks_inv {x} (h : Inv s) : InvNext (execFwBeginBlocks x s) :=
  onFw_inv (fun _ _ hu => ite_inv (answerCause_inv hu) (answerCause_inv (openLoad_inv hu))) h
theorem pullRange_inv {l off n} (h : Inv s) : Inv (pullRange s l off n) := openRequest_inv h

theorem beginPull_inv {l} (h : Inv s) : Inv (beginPull s l) := by
  unfold beginPull
  grind [answerCause_inv, State.modFw_inv, pullRange_inv]

theorem settlePull_inv (h : Inv s) : Inv (settlePull s) := by
  unfold settlePull
  grind [beginPull_inv]

theorem execFwBeginPull_inv {x} (h : Inv s) : InvNext (execFwBeginPull x s) := by
  unfold execFwBeginPull
  grind [openLoad_inv, answerCause_inv, beginPull_inv, onFw_inv, failPull_inv, startTraining_inv, invNext_next]

theorem takePulled_inv (h : Inv s) : Inv (takePulled s) := foldl_inv (fun _ _ hu => hu) h

theorem pullRequests_inv {n} (h : Inv s) : Inv (pullRequests n s) := by
  induction n generalizing s with
  | zero => exact h
  | succ n ih =>
    unfold pullRequests
    split
    · exact ite_inv (ih (pullRange_inv h)) h
    · exact h

theorem continuePull_inv (h : Inv s) : Inv (continuePull s) := by
  unfold continuePull
  grind [takePulled_inv, failPull_inv, State.modFw_inv, pullRequests_inv]

theorem execFwBlock_inv {x} (h : Inv s) : InvNext (execFwBlock x s) := by
  unfold execFwBlock
  grind [answerCause_inv, answerBare_inv, onFw_inv, State.modFw_inv, invNext_next]

theorem execFwEnd_inv {x} (h : Inv s) : InvNext (execFwEnd x s) := by
  unfold execFwEnd
  grind [answerCause_inv, burn_inv, onFw_inv, State.modFw_inv, dropLoad_inv, runFirmware_inv, invNext_next]

theorem execFwLoadTimeout_inv (h : Inv s) : InvNext (execFwLoadTimeout s) := by
  unfold execFwLoadTimeout
  grind [State.reach_inv, dropLoad_inv, invNext_next]

theorem dropEphemeral_inv (h : Inv s) : Inv (dropEphemeral s) := forParts_inv (fun _ _ hu => hu) h

theorem switchTo_inv {hd} (h : Inv s) : Inv (switchTo s hd) := by
  unfold switchTo
  grind [dropEphemeral_inv, burn_inv, forParts_inv, endSession_inv, forI3c_inv, State.modFw_inv, State.modPart_inv, State.event_inv]

theorem activate_inv {t mode} (h : Inv s) : Inv (activate s t mode) := by
  unfold activate
  grind [answerCause_inv, burn_inv, switchTo_inv, answerFw_inv, restartWith_inv, State.modFw_inv]

theorem execFwActivateBoundary_inv {x} (h : Inv s) : InvNext (execFwActivateBoundary x s) := onFw_inv (fun _ _ hu => activate_inv hu) h
theorem execFwActivateRestart_inv {x} (h : Inv s) : InvNext (execFwActivateRestart x s) := onFw_inv (fun _ _ hu => activate_inv hu) h

theorem execDeferredActivation_inv (h : Inv s) : InvNext (execDeferredActivation s) := by
  unfold execDeferredActivation
  grind [burn_inv, switchTo_inv, restartWith_inv, State.modFw_inv, State.event_inv, invNext_next]

theorem execFwWithdrawDeferred_inv {x} (h : Inv s) : InvNext (execFwWithdrawDeferred x s) :=
  onFw_inv (fun _ _ hu => answerCause_inv (ite_inv hu hu)) h
theorem execFwWithdrawLoad_inv {x} (h : Inv s) : InvNext (execFwWithdrawLoad x s) :=
  ite_invNext (invNext_next h) (onTaken_inv (fun _ _ hu => answerCause_inv (State.modFw_inv (dropLoad_inv hu))) h)

theorem execPartnerIdentity_inv {n i} (h : Inv s) : InvNext (execPartnerIdentity n i s) := by
  unfold execPartnerIdentity
  grind [settleStart_inv, takeIdentity_inv, settlePull_inv, failPull_inv, invNext_next]

theorem execSupplyHoldEnd_inv (h : Inv s) : InvNext (execSupplyHoldEnd s) := by
  unfold execSupplyHoldEnd
  split
  · next t _ =>
    have hu : Inv ((settleHolds (s.reach (t + ms 10))).modPower (fun w => { w with supplyHeld := false })) :=
      (settleHolds_inv h)
    have hv := ite_inv (c := ((settleHolds (s.reach (t + ms 10))).modPower (fun w => { w with supplyHeld := false })).power.state = .boot)
      (continuePull_inv (runBoot_inv hu)) hu
    exact ite_invNext h (ite_inv hv (setSelfRefresh_inv hv))
  · exact h

/-! ### Heat -/

theorem estimateCore_inv {c} (h : Inv s) : Inv (estimateCore s c).2 := by
  unfold estimateCore
  grind [State.draw_inv]

theorem readCore_inv {r c} (h : Inv s) : Inv (readCore s r c) := ite_inv (State.event_inv h) h

theorem pairCore_inv {c} (h : Inv s) : Inv (pairCore s c) := by
  unfold pairCore
  grind [State.modCore_inv, estimateCore_inv]

theorem readStacks_inv {r} (h : Inv s) : Inv (readStacks s r) := by
  unfold readStacks
  grind [State.draw_inv, State.modThermal_inv]

theorem readCoolant_inv {r} (h : Inv s) : Inv (readCoolant s r) := h
theorem capCluster_inv {k} (h : Inv s) : Inv (capCluster s k) := ite_inv h (State.event_inv h)

theorem readAll_inv {rd} (h : Inv s) : Inv (readAll s rd) := by
  unfold readAll
  dsimp only
  refine State.modPower_inv (State.modThermal_inv (forClusters_inv (fun _ _ hu => capCluster_inv hu) (readCoolant_inv (readStacks_inv
    (forCores_inv (fun _ _ hu => pairCore_inv hu) (forCores_inv (fun _ _ hu => readCore_inv hu)
      (foldl_inv (fun _ _ hu => addBitError_inv hu) ?_)))))))
  split
  · exact h
  · exact h

theorem execPairSuspect_inv {c} (h : Inv s) : InvNext (execPairSuspect c s) :=
  ite_invNext (invNext_next h) (invNext_next (State.event_inv (ite_inv h h)))
theorem quenchHeat_inv (h : Inv s) : Inv (quenchHeat s) := ite_inv (enterQuench_inv h) (ite_inv (enterQuench_inv h) (ite_inv (enterQuench_inv h) h))
theorem descentHeat_inv (h : Inv s) : Inv (descentHeat s) := ite_inv (beginDescent_inv h) (ite_inv (beginDescent_inv h) h)

theorem trackDescent_inv (h : Inv s) : Inv (trackDescent s) := by
  unfold trackDescent
  grind [State.modThermal_inv, State.modPower_inv]

theorem execCoreHotDescent_inv {c} (h : Inv s) : InvNext (execCoreHotDescent c s) := ite_invNext (invNext_next h) (invNext_next (beginDescent_inv h))

theorem execDescentEnd_inv (h : Inv s) : InvNext (execDescentEnd s) := by
  unfold execDescentEnd
  grind [descentEvent_inv, settleHolds_inv, State.modThermal_inv, State.reach_inv, State.modPower_inv, invNext_next]

theorem capCycle_inv (h : Inv s) : Inv (capCycle s) := h
theorem endShed_inv (h : Inv s) : Inv (endShed s) := ite_inv (State.event_inv (settleHolds_inv h)) h

theorem countLow_inv {before c} (h : Inv s) : Inv (countLow s before c) := by
  unfold countLow
  grind [State.modCore_inv]

theorem voltageCycle_inv (h : Inv s) : Inv (voltageCycle s) := forCores_inv (fun _ _ hu => countLow_inv hu) h
theorem execFloorMiss_inv {c} (h : Inv s) : InvNext (execFloorMiss c s) :=
  ite_invNext (invNext_next h) (invNext_next (fenceFor_inv (State.event_inv h)))

theorem rampCore_inv {c} (h : Inv s) : Inv (rampCore s c) := by
  unfold rampCore
  grind [State.draw_inv, State.modCore_inv, State.event_inv]

theorem lehrCycle_inv (h : Inv s) : Inv (lehrCycle s) := by
  unfold lehrCycle
  grind [forCores_inv, rampCore_inv, State.modThermal_inv]

theorem coolantEvent_inv {flag cleared} (h : Inv s) : Inv (coolantEvent s flag cleared) := State.event_inv h

theorem execFlowLow_inv (h : Inv s) : InvNext (execFlowLow s) := by
  unfold execFlowLow
  grind [State.modThermal_inv, State.reach_inv, coolantEvent_inv, invNext_next]

theorem execInletOut_inv (h : Inv s) : InvNext (execInletOut s) := by
  unfold execInletOut
  grind [State.modThermal_inv, State.reach_inv, coolantEvent_inv, invNext_next]

theorem clearCoolant_inv {t flag} (h : Inv s) : Inv (clearCoolant s t flag) := coolantEvent_inv h

theorem execCoolantFlagClear_inv (h : Inv s) : InvNext (execCoolantFlagClear s) := by
  unfold execCoolantFlagClear
  grind [clearCoolant_inv, invNext_next]

theorem latchCycle_inv (h : Inv s) : Inv (latchCycle s) := h
theorem throttleCycle_inv (h : Inv s) : Inv (throttleCycle s) := h

theorem execTeaserCycle_inv {rd} (h : Inv s) : InvNext (execTeaserCycle rd s) :=
  ite_invNext h (settleStart_inv (throttleCycle_inv (latchCycle_inv (lehrCycle_inv (endShed_inv (voltageCycle_inv (capCycle_inv
    (trackDescent_inv (descentHeat_inv (quenchHeat_inv (readAll_inv (State.modPower_inv
      (settleHolds_inv h)))))))))))))

/-! ### PartOrders -/

theorem execSeedSet_inv (h : Inv s) : InvNext (execSeedSet s) := onDue_inv (fun _ _ hu => ite_inv (answer_inv hu) (answer_inv hu)) h

theorem execVideoSlot_inv (h : Inv s) : InvNext (execVideoSlot s) := by
  unfold execVideoSlot
  grind [answerBare_inv, onDue_inv, State.setEngine_inv, invNext_next]

theorem execServingSettings_inv (h : Inv s) : InvNext (execServingSettings s) := onDue_inv (fun _ _ hu => answerBare_inv hu) h

theorem execCancel_inv (h : Inv s) : InvNext (execCancel s) := by
  unfold execCancel
  grind [answerBare_inv, State.modPart_inv, State.modOrders_inv, invNext_next]

theorem execCancelPendingEntry_inv (h : Inv s) : InvNext (execCancelPendingEntry s) := by
  unfold execCancelPendingEntry
  grind [State.reachStamp_inv, State.modPart_inv, invNext_next]

theorem execAdapterLoad_inv (h : Inv s) : InvNext (execAdapterLoad s) := by
  unfold execAdapterLoad
  grind [answerBare_inv, answer_inv, onDue_inv, State.modPart_inv, invNext_next]

theorem execCoreFence_inv (h : Inv s) : InvNext (execCoreFence s) := onDue_inv (fun _ _ hu => answerBare_inv (fenceFor_inv hu)) h
theorem execCoreReadmit_inv (h : Inv s) : InvNext (execCoreReadmit s) :=
  onDue_inv (fun _ _ hu => ite_inv (answerBare_inv hu) (ite_inv (answerBare_inv hu) (answerBare_inv hu))) h
theorem execReplaySet_inv (h : Inv s) : InvNext (execReplaySet s) := onDue_inv (fun _ _ hu => answerBare_inv hu) h

/-! ### Security -/

theorem fallback_inv {t r} (h : Inv s) : Inv (fallback s t r) := answer_inv (signIdentity_inv h)
theorem mainReport_inv {t r} (h : Inv s) : Inv (mainReport s t r) := answer_inv (ite_inv (signIdentity_inv h) (signIdentity_inv h))
theorem readVault_inv {bad} (h : Inv s) : Inv (readVault s bad) := ite_inv (wipeVault_inv h) h
theorem execAttestation_inv {x vaultBad} (h : Inv s) : InvNext (execAttestation x vaultBad s) :=
  onTaken_inv (fun _ _ hu => ite_inv (mainReport_inv (readVault_inv hu)) (fallback_inv (readVault_inv hu))) h

theorem execEphemeralKeyExpiry_inv {p} (h : Inv s) : InvNext (execEphemeralKeyExpiry p s) := by
  unfold execEphemeralKeyExpiry
  grind [State.reach_inv, State.modKeys_inv, invNext_next]

theorem execSecKeyRelease_inv {vaultBad} (h : Inv s) : InvNext (execSecKeyRelease vaultBad s) := by
  unfold execSecKeyRelease
  grind [answer_inv, State.modSecurity_inv, onDue_inv, readVault_inv, State.modKeys_inv, State.event_inv, invNext_next]

theorem observeIntake_inv {p i} (h : Inv s) : Inv (observeIntake s p i) := by
  unfold observeIntake
  grind [State.setOwner_inv, foldl_inv]

theorem execSecIntake_inv (h : Inv s) : InvNext (execSecIntake s) := by
  unfold execSecIntake
  grind [answerBare_inv, onDue_inv, observeIntake_inv, State.modKeys_inv, invNext_next]

theorem requestChunk_inv {p img i c} (h : Inv s) : Inv (requestChunk s p img i c) := by
  unfold requestChunk
  grind [openRequest_inv]

theorem failChunk_inv {p i result} (h : Inv s) : Inv (failChunk s p i result) := State.event_inv (ite_inv h h)
theorem chunkBeats_inv {c k} (h : Inv s) : Inv (chunkBeats s c k) := h

theorem chunkOpened_inv {p img i c plain} (h : Inv s) : Inv (chunkOpened s p img i c plain) := by
  unfold chunkOpened
  grind [bankWrite_inv]

theorem passChunk_inv {p i c k plain} (h : Inv s) : Inv (passChunk s p i c k plain) := by
  unfold passChunk
  grind [stackWrite_inv, State.modPart_inv, State.modKeys_inv]

theorem takeChunk_inv {p img i c k rs} (h : Inv s) : Inv (takeChunk s p img i c k rs) := by
  unfold takeChunk
  grind [failChunk_inv, passChunk_inv, chunkOpened_inv, dropRequests_inv, chunkBeats_inv]

theorem execIntakeChunk_inv {p} (h : Inv s) : InvNext (execIntakeChunk p s) := by
  unfold execIntakeChunk
  grind [takeChunk_inv, requestChunk_inv, invNext_next]

theorem execStoreRdData_inv (h : Inv s) : InvNext (execStoreRdData s) := by
  unfold execStoreRdData
  grind [onFrame_inv, continuePull_inv, modRequest_inv, invNext_next]

theorem execStoreErr_inv (h : Inv s) : InvNext (execStoreErr s) := by
  unfold execStoreErr
  grind [onFrame_inv, continueExports_inv, continuePull_inv, modRequest_inv, invNext_next]

theorem execStoreRequestTimeout_inv (h : Inv s) : InvNext (execStoreRequestTimeout s) := by
  unfold execStoreRequestTimeout
  grind [continueExports_inv, continuePull_inv, timeoutRequest_inv, invNext_next]

theorem execSecRotate_inv (h : Inv s) : InvNext (execSecRotate s) := by
  unfold execSecRotate
  grind [advanceKeys_inv, answerBare_inv, onDue_inv, State.modPart_inv, invNext_next]

theorem execSecReturnBegin_inv (h : Inv s) : InvNext (execSecReturnBegin s) :=
  onDue_inv (fun _ _ hu => ite_inv (answerBare_inv hu) (answerBare_inv hu)) h

theorem execSecReturnConfirm_inv (h : Inv s) : InvNext (execSecReturnConfirm s) :=
  onDue_inv (fun _ _ hu => ite_inv (answerBare_inv hu) (ite_inv (answerBare_inv hu) (ite_inv (answerBare_inv hu)
    restartRom_inv))) h

/-! ### Sessions -/

theorem openSession_inv {t} (h : Inv s) : Inv (openSession s t) := by
  unfold openSession
  grind [State.modPort_inv, answer_inv, endSession_inv, State.modFw_inv, State.modOrders_inv, State.modPower_inv]

theorem execSessionOpen_inv {x} (h : Inv s) : InvNext (execSessionOpen x s) := by
  unfold execSessionOpen
  grind [expireSession_inv, openSession_inv, answer_inv, onTaken_inv, State.modFw_inv, State.modOrders_inv, invNext_next]

theorem execLeaseRenew_inv {x} (h : Inv s) : InvNext (execLeaseRenew x s) := onTaken_inv (fun _ _ hu => answer_inv hu) h
theorem execDetach_inv {x} (h : Inv s) : InvNext (execDetach x s) := onTaken_inv (fun _ _ hu => answerBare_inv (ite_inv (endSession_inv hu) hu)) h
theorem execLeaseExpiry_inv {x} (h : Inv s) : InvNext (execLeaseExpiry x s) :=
  ite_invNext (invNext_next (endSession_inv (State.reachStamp_inv h))) (invNext_next h)
theorem deliver_inv {t} (h : Inv s) : Inv (deliver s t) := answer_inv h
theorem execIdentity_inv {x} (h : Inv s) : InvNext (execIdentity x s) := onTaken_inv (fun _ _ hu => deliver_inv hu) h
theorem execTallyRead_inv {x} (h : Inv s) : InvNext (execTallyRead x s) := onTaken_inv (fun _ _ hu => deliver_inv hu) h
theorem execSizeRead_inv {x} (h : Inv s) : InvNext (execSizeRead x s) := onTaken_inv (fun _ _ hu => deliver_inv hu) h
theorem execCoreStatus_inv {x} (h : Inv s) : InvNext (execCoreStatus x s) := onTaken_inv (fun _ _ hu => deliver_inv hu) h

/-! ### Time -/

theorem correctTo_inv {v} (h : Inv s) : Inv (correctTo s v) := by
  unfold correctTo
  grind [State.modTime_inv]

theorem enterHoldover_inv {cause} (h : Inv s) : Inv (enterHoldover s cause) := ite_inv h (State.event_inv h)
theorem lockAt_inv {v} (h : Inv s) : Inv (lockAt s v) :=
  ite_inv h (State.event_inv (State.modTime_inv (correctTo_inv h)))

theorem lockedEdge_inv {cs} (h : Inv s) : Inv (lockedEdge s cs) := by
  unfold lockedEdge
  grind [correctTo_inv, State.modTime_inv, State.event_inv]

theorem execTimeSyncEdge_inv {reading cycles} (h : Inv s) : InvNext (execTimeSyncEdge reading cycles s) := by
  have hr : Inv (forI3c (fun x s => s.modPort x (fun q => { q with commit := none })) (s.reach reading)) :=
    forI3c_inv (fun _ _ hu => hu) h
  refine ite_invNext h (settleStart_inv (quotaEdge_inv (State.modTime_inv ?_)))
  grind [lockedEdge_inv, enterHoldover_inv, lockAt_inv, State.modTime_inv]

theorem execEdgeMissing_inv (h : Inv s) : InvNext (execEdgeMissing s) := by
  unfold execEdgeMissing
  grind [State.reach_inv, enterHoldover_inv, State.modTime_inv, invNext_next]

theorem execRefclkLoss_inv (h : Inv s) : InvNext (execRefclkLoss s) := ite_invNext (invNext_next h) (invNext_next (enterHoldover_inv h))
theorem execRefclkReturn_inv (h : Inv s) : InvNext (execRefclkReturn s) := ite_invNext (invNext_next h) (invNext_next h)
theorem execSlewComplete_inv (h : Inv s) : InvNext (execSlewComplete s) := ite_invNext (invNext_next h) (invNext_next h)

theorem execIdentityBurst_inv {bits} (h : Inv s) : InvNext (execIdentityBurst bits s) := by
  unfold execIdentityBurst
  grind [State.reach_inv, State.modTime_inv, invNext_next]

theorem execTimeTrim_inv (h : Inv s) : InvNext (execTimeTrim s) := onDue_inv (fun _ _ hu => answerBare_inv hu) h

/-! ### Vector -/

theorem vecMeets_inv {v ab bb cb} (h : Inv s) : Inv (vecMeets s v ab bb cb) := by
  unfold vecMeets
  grind [meetBank_inv]

theorem vectorSteps_inv {v d} (h : Inv s) : InvEngine (InvOut) (vectorSteps v d s) :=
  coreBank_inv.bind fun _ _ => coreBank_inv.bind fun _ _ =>
    InvEngine.bind (P := fun _ => True) (ite_invEngine coreBank_inv trivial) fun _ _ =>
      InvEngine.bind (P := fun _ => True) (ite_invEngine coreBank_inv trivial) fun _ _ => bankWrite_inv (vecMeets_inv h)

theorem execVectorCommand_inv {p q v} (h : Inv s) : InvNext (execVectorCommand p q v s) := by
  unfold execVectorCommand
  split
  · exact ite_invNext (runEngine_inv (fun _ => Engine.out_inv (vectorSteps_inv h)) h) h
  · exact h

/-! ### Video -/

theorem awaitVideo_inv {p q} (h : Inv s) : Inv (awaitVideo s p q) := by
  unfold awaitVideo
  grind [State.modEngine_inv, State.modPart_inv]

theorem execVideoSlotBoundary_inv {d} (h : Inv s) : InvNext (execVideoSlotBoundary d s) := by
  unfold execVideoSlotBoundary
  grind [awaitVideo_inv, State.setEngine_inv, Inv.update, invNext_next]

theorem vctxSteps_inv {d} (h : Inv s) : InvEngine (InvOut) (vctxSteps d s) := by
  unfold vctxSteps
  dsimp only
  split
  · trivial
  · have hm := fun n f => State.modEngine_inv (d := dieOfInst d.desc.inst) (f := f) (meetBank_inv (a := n) (n := 64) h)
    exact ite_invEngine wait_inv (ite_invEngine (hm _ _) (ite_invEngine (hm _ _) (ite_invEngine (State.modEngine_inv (hm _ _)) (hm _ _))))

theorem runVideo_inv {p q opcode hand op} (ho : ∀ d, InvEngine (InvOut) (op d s)) (h : Inv s) : InvNext (runVideo s p q opcode hand op) := by
  have hr : InvNext (runEngine s p q 6 opcode hand fun d s => (op d s).out) := runEngine_inv (fun d => Engine.out_inv (ho d)) h
  unfold runVideo
  split
  · next t ht => exact awaitVideo_inv (show InvNext (.next t) from ht ▸ hr)
  · exact hr

theorem execVctxSet_inv {p q} (h : Inv s) : InvNext (execVctxSet p q s) := runVideo_inv (fun _ => vctxSteps_inv h) h

theorem writeBuffer_inv {p c picture} (h : Inv s) : Inv (writeBuffer s p c picture) := by
  unfold writeBuffer
  grind [stackWrite_inv]

theorem meetRefs_inv {p c refs} (h : Inv s) : Inv (meetRefs s p c refs) := by
  unfold meetRefs
  grind [meetStack_inv, foldl_inv]

theorem writeRegion_inv {p ref room bs} (h : Inv s) : Inv (writeRegion s p ref room bs) := by
  unfold writeRegion
  split
  · exact h
  · split
    · exact bankWrite_inv h
    · exact h

theorem refusedResult_inv {d c dir rflags no} (h : Inv s) : Inv (refusedResult s d c dir rflags no) := writeRegion_inv h
theorem encodeRefused_inv {d c} (h : Inv s) : Inv (encodeRefused s d c) := refusedResult_inv (writeRegion_inv h)
theorem encodeStore_inv {d c a e} (h : Inv s) : Inv (encodeStore s d c a e) :=
  modContext_inv (writeBuffer_inv (writeRegion_inv (writeRegion_inv (meetRefs_inv (meetBank_inv h)))))

theorem vencSteps_inv {d} (h : Inv s) : InvEngine (InvOut) (vencSteps d s) := by
  unfold vencSteps
  dsimp only
  refine ite_invEngine wait_inv ?_
  split
  · exact ite_invEngine (encodeRefused_inv h) wait_inv
  · exact ite_invEngine (ite_invEngine (encodeRefused_inv h) wait_inv)
      (ite_invEngine wait_inv h)

theorem execVencFrame_inv {p q} (h : Inv s) : InvNext (execVencFrame p q s) := runVideo_inv (fun _ => vencSteps_inv h) h

theorem outputEntry_inv {d c e} (h : Inv s) : Inv (outputEntry s d c e).1 := by
  unfold outputEntry
  grind [writeRegion_inv, meetRefs_inv]

theorem decodeStore_inv {d c a i t} (h : Inv s) : Inv (decodeStore s d c a i t).1 := by
  unfold decodeStore
  grind [meetBank_inv, writeRegion_inv, writeBuffer_inv, meetRefs_inv, outputEntry_inv, modContext_inv]

theorem vdecSteps_inv {d} (h : Inv s) : InvEngine (InvOut) (vdecSteps d s) := by
  unfold vdecSteps
  dsimp only
  refine ite_invEngine wait_inv ?_
  split
  · exact ite_invEngine (refusedResult_inv h) wait_inv
  · exact ite_invEngine (ite_invEngine (refusedResult_inv h) wait_inv)
      (ite_invEngine wait_inv h)

theorem execVdecFrame_inv {p q} (h : Inv s) : InvNext (execVdecFrame p q s) := runVideo_inv (fun _ => vdecSteps_inv h) h

theorem codeFrame_inv {d c} (h : Inv s) : Inv (codeFrame s d c).1 := by
  unfold codeFrame
  grind [encodeStore_inv, decodeStore_inv]

theorem execVideoTurn_inv {p q} (h : Inv s) : InvNext (execVideoTurn p q s) := by
  unfold execVideoTurn
  split
  · refine ite_invNext h ?_
    split
    · exact awaitVideo_inv h
    · exact ite_invNext (waits_inv h) (awaitVideo_inv (codeFrame_inv (countBeats_inv h)))
  · exact h

/-! ### Window -/

theorem clearOnRead_inv {off} (h : Inv s) : Inv (clearOnRead s off) := ite_inv h (ite_inv h (ite_inv h (ite_inv h h)))
theorem notePort_inv {x off} (h : Inv s) : Inv (notePort s x off) := ite_inv h (ite_inv h (ite_inv h h))
theorem regAfter_inv {x off} (h : Inv s) : Inv (regAfter s x off) := clearOnRead_inv (notePort_inv h)

theorem readRegs_inv {n x off} (h : Inv s) : Inv (readRegs n s x off).2 := by
  induction n generalizing s off with
  | zero => exact h.of_view rfl rfl
  | succ n ih =>
    unfold readRegs
    exact ih (regAfter_inv h)

theorem privateRead_inv {x bytes} (h : Inv s) : InvNext (privateRead s x bytes) := ite_invNext (invNext_next (readRegs_inv h)) (invNext_next h)
theorem execRspDataRead_inv {x bytes} (h : Inv s) : InvNext (execRspDataRead x bytes s) := privateRead_inv h
theorem execLogDataRead_inv {x bytes} (h : Inv s) : InvNext (execLogDataRead x bytes s) := privateRead_inv h
theorem execLoRegisterRead_inv {x bytes} (h : Inv s) : InvNext (execLoRegisterRead x bytes s) := privateRead_inv h
theorem execPwrCountsRead_inv {x bytes} (h : Inv s) : InvNext (execPwrCountsRead x bytes s) := privateRead_inv h
theorem execCsiRxFaultsRead_inv {x bytes} (h : Inv s) : InvNext (execCsiRxFaultsRead x bytes s) := privateRead_inv h
theorem execLnkErrorsRead_inv {x bytes} (h : Inv s) : InvNext (execLnkErrorsRead x bytes s) := privateRead_inv h

/-! ### Dispatch -/

/-- Every command keeps the invariant. -/
theorem exec_inv (h : Inv s) : ∀ c : Instr, InvNext (exec c s)
  | .nop .. => execNop_inv h
  | .sizeCopy .. => execSizeCopy_inv h
  | .matmul .. => execMatmul_inv h
  | .groupedMatmul .. => execGroupedMatmul_inv h
  | .reduce .. => execReduce_inv h
  | .attn .. => execAttn_inv h
  | .dwconv .. => execDwconv_inv h
  | .wgather .. => execWgather_inv h
  | .poolMax .. => execPoolMax_inv h
  | .poolMin .. => execPoolMin_inv h
  | .globalAvg .. => execGlobalAvg_inv h
  | .argmaxCh .. => execArgmaxCh_inv h
  | .hbmRead .. => execHbmRead_inv h
  | .hbmWrite .. => execHbmWrite_inv h
  | .bankCopy .. => execBankCopy_inv h
  | .hbmZero .. => execHbmZero_inv h
  | .linkSend .. => execLinkSend_inv h
  | .linkRecv .. => execLinkRecv_inv h
  | .storeRead .. => execStoreRead_inv h
  | .storeWrite .. => execStoreWrite_inv h
  | .intakeChunk .. => execIntakeChunk_inv h
  | .vctxSet .. => execVctxSet_inv h
  | .vencFrame .. => execVencFrame_inv h
  | .vdecFrame .. => execVdecFrame_inv h
  | .gather .. => execGather_inv h
  | .emit .. => execEmit_inv h
  | .walkStage .. => execWalkStage_inv h
  | .walkAppend .. => execWalkAppend_inv h
  | .commandCompletion .. => execCommandCompletion_inv h
  | .stepBoundary .. => execStepBoundary_inv h
  | .checkpointComplete .. => execCheckpointComplete_inv h
  | .stepExport .. => execStepExport_inv h
  | .stepStall .. => execStepStall_inv h
  | .hardStop .. => execHardStop_inv h
  | .houseTurn .. => execHouseTurn_inv h
  | .copyPhase .. => execCopyPhase_inv h
  | .videoTurn .. => execVideoTurn_inv h
  | .videoSlotBoundary .. => execVideoSlotBoundary_inv h
  | .hbmScrub .. => execHbmScrub_inv h
  | .keySweep .. => execKeySweep_inv h
  | .clearComplete .. => execClearComplete_inv h
  | .gloryHolePass .. => execGloryHolePass_inv h
  | .teaserCycle .. => execTeaserCycle_inv h
  | .floorMiss .. => execFloorMiss_inv h
  | .coreHotDescent .. => execCoreHotDescent_inv h
  | .descentEnd => execDescentEnd_inv h
  | .pairSuspect .. => execPairSuspect_inv h
  | .flowLow => execFlowLow_inv h
  | .inletOut => execInletOut_inv h
  | .coolantFlagClear => execCoolantFlagClear_inv h
  | .overVoltage .. => execOverVoltage_inv h
  | .regulatorFault .. => execRegulatorFault_inv h
  | .supplyWarning .. => execSupplyWarning_inv h
  | .supplyWarningEnd .. => execSupplyWarningEnd_inv h
  | .supplyHold .. => execSupplyHold_inv h
  | .stackSelfRefresh => execStackSelfRefresh_inv h
  | .supplyHoldEnd => execSupplyHoldEnd_inv h
  | .supplyReset => execSupplyReset_inv h
  | .start .. => execStart_inv h
  | .startTimeLockTimeout => execStartTimeLockTimeout_inv h
  | .prsntLoss => execPrsntLoss_inv h
  | .tamperLoopOpen => execTamperLoopOpen_inv h
  | .lidTamper .. => execLidTamper_inv h
  | .ephemeralKeyExpiry .. => execEphemeralKeyExpiry_inv h
  | .timeSyncEdge .. => execTimeSyncEdge_inv h
  | .quotaWindowTimeout .. => execQuotaWindowTimeout_inv h
  | .identityBurst .. => execIdentityBurst_inv h
  | .refclkLoss => execRefclkLoss_inv h
  | .edgeMissing => execEdgeMissing_inv h
  | .slewComplete => execSlewComplete_inv h
  | .setdasa .. => execSetdasa_inv h
  | .rstdaa .. => execRstdaa_inv h
  | .getpid .. => execGetpid_inv h
  | .getbcr .. => execGetbcr_inv h
  | .getdcr .. => execGetdcr_inv h
  | .getstatus .. => execGetstatus_inv h
  | .setmwl .. => execSetmwl_inv h
  | .getmwl .. => execGetmwl_inv h
  | .setmrl .. => execSetmrl_inv h
  | .getmrl .. => execGetmrl_inv h
  | .getmxds .. => execGetmxds_inv h
  | .rstactNoReset .. => execRstactNoReset_inv h
  | .rstactPortReset .. => execRstactPortReset_inv h
  | .rstactRecoveryEnd .. => execRstactRecoveryEnd_inv h
  | .enec .. => execEnec_inv h
  | .disec .. => execDisec_inv h
  | .enthdr0 .. => execEnthdr0_inv h
  | .enthdr3 .. => execEnthdr3_inv h
  | .enthdrUnsupported .. => execEnthdrUnsupported_inv h
  | .hdrExit .. => execHdrExit_inv h
  | .readPointerSet .. => execReadPointerSet_inv h
  | .registerWrite .. => execRegisterWrite_inv h
  | .mbxCmdDataWrite .. => execMbxCmdDataWrite_inv h
  | .mbxBulkDataWrite .. => execMbxBulkDataWrite_inv h
  | .mbxPostCmd .. => execMbxPostCmd_inv h
  | .mbxPostBulk .. => execMbxPostBulk_inv h
  | .mbxTakeRsp .. => execMbxTakeRsp_inv h
  | .mbxTakeLog .. => execMbxTakeLog_inv h
  | .mbxAbortCmd .. => execMbxAbortCmd_inv h
  | .mbxAbortBulk .. => execMbxAbortBulk_inv h
  | .rspDataRead .. => execRspDataRead_inv h
  | .logDataRead .. => execLogDataRead_inv h
  | .dataRegisterRewind .. => execDataRegisterRewind_inv h
  | .loRegisterRead .. => execLoRegisterRead_inv h
  | .pwrCountsRead .. => execPwrCountsRead_inv h
  | .csiRxFaultsRead .. => execCsiRxFaultsRead_inv h
  | .lnkErrorsRead .. => execLnkErrorsRead_inv h
  | .timeNextHiWrite .. => execTimeNextHiWrite_inv h
  | .sessionOpen .. => execSessionOpen_inv h
  | .leaseRenew .. => execLeaseRenew_inv h
  | .detach .. => execDetach_inv h
  | .leaseExpiry .. => execLeaseExpiry_inv h
  | .identity .. => execIdentity_inv h
  | .attestation .. => execAttestation_inv h
  | .tallyRead .. => execTallyRead_inv h
  | .sizeRead .. => execSizeRead_inv h
  | .coreStatus .. => execCoreStatus_inv h
  | .orderWindowResolve => execOrderWindowResolve_inv h
  | .partAssign => execPartAssign_inv h
  | .partLoad .. => execPartLoad_inv h
  | .partArm .. => execPartArm_inv h
  | .partStart => execPartStart_inv h
  | .partStop => execPartStop_inv h
  | .partUnload => execPartUnload_inv h
  | .partRelease => execPartRelease_inv h
  | .seedSet => execSeedSet_inv h
  | .streamBind => execStreamBind_inv h
  | .csiTimeout => execCsiTimeout_inv h
  | .videoSlot => execVideoSlot_inv h
  | .servingSettings => execServingSettings_inv h
  | .cancel => execCancel_inv h
  | .cancelPendingEntry => execCancelPendingEntry_inv h
  | .adapterLoad => execAdapterLoad_inv h
  | .coreFence => execCoreFence_inv h
  | .coreReadmit => execCoreReadmit_inv h
  | .replaySet => execReplaySet_inv h
  | .pwrCap => execPwrCap_inv h
  | .pwrDrainEnter => execPwrDrainEnter_inv h
  | .pwrDrainLeave => execPwrDrainLeave_inv h
  | .pwrQuench => execPwrQuench_inv h
  | .pwrQuenchClear => execPwrQuenchClear_inv h
  | .thmCoolant => execThmCoolant_inv h
  | .thmSensorClear => execThmSensorClear_inv h
  | .claimPair => execClaimPair_inv h
  | .claimYield => execClaimYield_inv h
  | .claimRaise => execClaimRaise_inv h
  | .claimUnpair => execClaimUnpair_inv h
  | .claimReenter => execClaimReenter_inv h
  | .secKeyRelease .. => execSecKeyRelease_inv h
  | .secIntake => execSecIntake_inv h
  | .secRotate => execSecRotate_inv h
  | .secReturnBegin => execSecReturnBegin_inv h
  | .secReturnConfirm => execSecReturnConfirm_inv h
  | .fwBeginBlocks .. => execFwBeginBlocks_inv h
  | .fwBeginPull .. => execFwBeginPull_inv h
  | .fwBlock .. => execFwBlock_inv h
  | .fwEnd .. => execFwEnd_inv h
  | .fwLoadTimeout => execFwLoadTimeout_inv h
  | .fwActivateBoundary .. => execFwActivateBoundary_inv h
  | .fwActivateRestart .. => execFwActivateRestart_inv h
  | .deferredActivation => execDeferredActivation_inv h
  | .fwWithdrawDeferred .. => execFwWithdrawDeferred_inv h
  | .fwWithdrawLoad .. => execFwWithdrawLoad_inv h
  | .evtCopy => execEvtCopy_inv h
  | .evtCopyStop => execEvtCopyStop_inv h
  | .evtMirror => execEvtMirror_inv h
  | .logMessageFill .. => execLogMessageFill_inv h
  | .mirrorFrame => execMirrorFrame_inv h
  | .linkPlan => execLinkPlan_inv h
  | .linkShare => execLinkShare_inv h
  | .linkJob => execLinkJob_inv h
  | .linkPortDisable => execLinkPortDisable_inv h
  | .linkPortEnable => execLinkPortEnable_inv h
  | .linkPortTest => execLinkPortTest_inv h
  | .linkTestEnd .. => execLinkTestEnd_inv h
  | .intervalTest .. => execIntervalTest_inv h
  | .linkIngressCopy => execLinkIngressCopy_inv h
  | .linkIngressBind => execLinkIngressBind_inv h
  | .linkIngressRemove => execLinkIngressRemove_inv h
  | .timeTrim => execTimeTrim_inv h
  | .csiFrameStart .. => execCsiFrameStart_inv h
  | .csiLongPacket .. => execCsiLongPacket_inv h
  | .csiFrameEnd .. => execCsiFrameEnd_inv h
  | .csiFrameTimeout .. => execCsiFrameTimeout_inv h
  | .csiLaneSyncLoss .. => execCsiLaneSyncLoss_inv h
  | .csiLaneSyncRegained .. => execCsiLaneSyncRegained_inv h
  | .csiGenericShortPacket .. => execCsiGenericShortPacket_inv h
  | .emitFrameSend .. => execEmitFrameSend_inv h
  | .envelopeReceive .. => execEnvelopeReceive_inv h
  | .calendarTurn .. => execCalendarTurn_inv h
  | .keyAgreementStart .. => execKeyAgreementStart_inv h
  | .kaHello => execKaHello_inv h
  | .kaReply => execKaReply_inv h
  | .kaConfirm => execKaConfirm_inv h
  | .kaRetryTimeout .. => execKaRetryTimeout_inv h
  | .kaRetryInterval .. => execKaRetryInterval_inv h
  | .jobKeyRekey .. => execJobKeyRekey_inv h
  | .oldKeyidExpiry .. => execOldKeyidExpiry_inv h
  | .gcmFailTeardown .. => execGcmFailTeardown_inv h
  | .ringCredit => execRingCredit_inv h
  | .jobData => execJobData_inv h
  | .ingressCopy => execIngressCopy_inv h
  | .decisionPart => execDecisionPart_inv h
  | .snapshotSection => execSnapshotSection_inv h
  | .snapshotJournal => execSnapshotJournal_inv h
  | .reentryRequest => execReentryRequest_inv h
  | .storeRdData => execStoreRdData_inv h
  | .storeWrAck => execStoreWrAck_inv h
  | .storeErr => execStoreErr_inv h
  | .storeRequestTimeout => execStoreRequestTimeout_inv h
  | .trainingRetry .. => execTrainingRetry_inv h
  | .trainingTimeout .. => execTrainingTimeout_inv h
  | .partnerIdentity .. => execPartnerIdentity_inv h
  | .slowPartner .. => execSlowPartner_inv h
  | .slowPartnerRetrain .. => execSlowPartnerRetrain_inv h
  | .faultyPartner .. => execFaultyPartner_inv h
  | .heartbeatTimer .. => execHeartbeatTimer_inv h
  | .heartbeatReceive .. => execHeartbeatReceive_inv h
  | .holderLost .. => execHolderLost_inv h
  | .followerUnmatched .. => execFollowerUnmatched_inv h
  | .vectorCommand .. => execVectorCommand_inv h
  | .signalDetect .. => execSignalDetect_inv h
  | .fecLock .. => execFecLock_inv h
  | .refclkReturn => execRefclkReturn_inv h
  | .prsntMate => execPrsntMate_inv h
  | .holdLevelLeft .. => execHoldLevelLeft_inv h
  | .peerRxSyncLost => execPeerRxSyncLost_inv h
  | .peerRxSyncGained => execPeerRxSyncGained_inv h

end

/-- Settles O59: the command at the front of the queue keeps the invariant (`exec_inv`), and an idle nanosecond changes neither memory nor
bindings. -/
theorem stepKeepsInvariant : Obligations.StepKeepsInvariant := by
  unfold Obligations.StepKeepsInvariant
  intro s t hmem hbindings hstep
  have h : Inv s := ⟨hmem, hbindings⟩
  unfold step at hstep
  split at hstep
  · obtain rfl := Host.Outcome.next.inj hstep
    exact h
  · next c rest _ =>
    have hnext : InvNext (.next t) := hstep ▸ exec_inv (s := { s with pending := rest }) h c
    exact hnext

end Sys2Proof.Machine

namespace Sys2Proof.Machine

/-! ## Samples of a window (O30) -/

/-! ### Where a virtual position reads (06 R163) -/

section
variable {mode ups : Nat} {n lo hi v : Int} {loEdge hiEdge : Bool}

theorem resolve_inside (hlo : lo ≤ v) (hhi : v ≤ hi) : resolve mode ups n lo hi loEdge hiEdge v = spotOf ups v := by
  simp [resolve, hlo, hhi]

theorem resolve_outside (hmode : mode < 2) (hv : v < lo ∨ hi < v) : resolve mode ups n lo hi loEdge hiEdge v = .padding := by
  have hout : ¬(lo ≤ v ∧ v ≤ hi) := by omega
  simp [resolve, hout, hmode]

/-- Padding mode 2 reads every position, inside or outside, at the nearest one inside. -/
theorem resolve_nearest : resolve 2 ups n lo hi loEdge hiEdge v = spotOf ups (max lo (min v hi)) := by
  by_cases hin : lo ≤ v ∧ v ≤ hi
  · obtain ⟨hlo, hhi⟩ := hin
    have hnearest : max lo (min v hi) = v := by omega
    rw [resolve_inside hlo hhi, hnearest]
  · simp [resolve, hin]

/-- So it reads a position as it reads the nearest one inside. -/
theorem resolve_clamp (hle : lo ≤ hi) :
    resolve 2 ups n lo hi loEdge hiEdge v = resolve 2 ups n lo hi loEdge hiEdge (max lo (min v hi)) := by
  rw [resolve_nearest, resolve_inside (by omega) (by omega)]

theorem spotOf_mul (hups : 1 ≤ ups) (y : Nat) : spotOf ups ((y * ups : Nat) : Int) = .real y := by
  have hdiv : ((y * ups : Nat) : Int) / ups = y := by exact_mod_cast Nat.mul_div_cancel y hups
  have hmod : ((y * ups : Nat) : Int) % ups = 0 := by exact_mod_cast Nat.mul_mod_left y ups
  rw [spotOf, if_pos hmod, hdiv]

/-- The element at index `y` of `m`. -/
theorem resolve_mul {m y : Nat} (hups : 1 ≤ ups) (hy : y < m) :
    resolve mode ups n 0 ((m : Int) * ups - ups) loEdge hiEdge ((y * ups : Nat) : Int) = .real y := by
  have hle : y * ups + ups ≤ m * ups := by simpa only [Nat.succ_mul] using Nat.mul_le_mul_right ups hy
  have hcast : ((y * ups : Nat) : Int) + ups ≤ m * ups := by exact_mod_cast hle
  rw [resolve_inside (by omega) (by omega), spotOf_mul hups]

theorem spotOf_inserted (hv : v % ups ≠ 0) : spotOf ups v = .inserted := if_neg hv

theorem spotOf_ne_padding : spotOf ups v ≠ .padding := by
  unfold spotOf
  split <;> exact Spot.noConfusion

end

/-! ### The sample at a row's and a column's place (06 R162, R164) -/

/-- Where virtual row `vy` and virtual column `vx` of a window read. -/
def rowSpot (g : Geo) (i : WinIn) (vy : Int) : Spot :=
  resolve g.mode g.upsy (g.rows * g.upsy - (g.upsy - 1)) (-((i.ht * g.upsy : Nat) : Int)) (((g.rows + i.hb : Nat) - 1 : Int) * g.upsy)
    (i.ht == 0) (i.hb == 0) vy
def colSpot (g : Geo) (vx : Int) : Spot :=
  resolve g.mode g.upsx (g.width * g.upsx - (g.upsx - 1)) 0 (g.width * g.upsx - (g.upsx - 1) - 1) true true vx

section
variable {g : Geo} {i : WinIn} {c : Nat} {vy vx wy wx : Int}

/-- A sample depends on its position through the two places alone. -/
theorem winSample_congr (hrow : rowSpot g i vy = rowSpot g i wy) (hcol : colSpot g vx = colSpot g wx) :
    winSample g i c vy vx = winSample g i c wy wx := by
  unfold rowSpot at hrow
  unfold colSpot at hcol
  simp only [winSample, hrow, hcol]

theorem winSample_padding (h : rowSpot g i vy = .padding ∨ colSpot g vx = .padding) :
    winSample g i c vy vx = { raw := if g.mode = 1 then g.padc else 0, bad := false } := by
  unfold rowSpot colSpot at h
  rcases h with h | h
  · simp only [winSample, h]
  · simp only [winSample, h]
    split <;> simp_all

theorem winSample_inserted (hrow : rowSpot g i vy ≠ .padding) (hcol : colSpot g vx ≠ .padding)
    (h : rowSpot g i vy = .inserted ∨ colSpot g vx = .inserted) : winSample g i c vy vx = { raw := 0, bad := false } := by
  unfold rowSpot at hrow h
  unfold colSpot at hcol h
  simp only [winSample]
  split <;> simp_all

theorem winSample_real {y x : Nat} (hrow : rowSpot g i vy = .real y) (hcol : colSpot g vx = .real x) (hy : y < g.rows) :
    winSample g i c vy vx = rawSample i.pl g.inFmt ((c * g.rows + y) * g.width + x) := by
  unfold rowSpot at hrow
  unfold colSpot at hcol
  have hnonneg : ¬ (y : Int) < 0 := by omega
  have hinside : ¬ g.rows ≤ y := by omega
  simp only [winSample, hrow, hcol, if_neg hnonneg, Int.toNat_natCast, if_neg hinside]

/-! ### Places of a command without halo rows -/

theorem rowSpot_noHalo (hht : i.ht = 0) (hhb : i.hb = 0) :
    rowSpot g i vy = resolve g.mode g.upsy (g.rows * g.upsy - (g.upsy - 1)) 0 ((g.rows : Int) * g.upsy - g.upsy) true true vy := by
  simp [rowSpot, hht, hhb, Int.sub_mul]

theorem colSpot_eq : colSpot g vx =
    resolve g.mode g.upsx (g.width * g.upsx - (g.upsx - 1)) 0 ((g.width : Int) * g.upsx - g.upsx) true true vx := by
  have hlast : (g.width * g.upsx - (g.upsx - 1) - 1 : Int) = g.width * g.upsx - g.upsx := by omega
  rw [colSpot, hlast]

end

/-- The last virtual position of `m` elements is a position. -/
theorem lastVirtual_nonneg {m ups : Nat} (hm : 1 ≤ m) : (0 : Int) ≤ m * ups - ups := by
  have hle : 1 * ups ≤ m * ups := Nat.mul_le_mul_right ups hm
  have hcast : ((1 * ups : Nat) : Int) ≤ m * ups := by exact_mod_cast hle
  omega

/-- Settles O30: without halo rows the two places of a position are `resolve` over the input's own extent, and a sample is decided by
its places (`winSample_real`, `winSample_inserted`, `winSample_padding`, `winSample_congr`). -/
theorem samplesAtTheEdges : Obligations.SamplesAtTheEdges := by
  unfold Obligations.SamplesAtTheEdges
  intro g i c y x hht hhb hupsy hupsx hrows hwidth
  have hrow (v) := rowSpot_noHalo (g := g) (vy := v) hht hhb
  have hcol (v) := colSpot_eq (g := g) (vx := v)
  refine ⟨fun hy hx => ?element, fun vy vx hy0 hy1 hx0 hx1 hoff => ?inserted, fun vy vx hout => ?outside⟩
  case element => exact winSample_real ((hrow _).trans (resolve_mul hupsy hy)) ((hcol _).trans (resolve_mul hupsx hx)) hy
  case inserted =>
    have hrowIn := (hrow _).trans (resolve_inside hy0 hy1)
    have hcolIn := (hcol _).trans (resolve_inside hx0 hx1)
    exact winSample_inserted (hrowIn ▸ spotOf_ne_padding) (hcolIn ▸ spotOf_ne_padding)
      (hoff.imp (fun h => hrowIn.trans (spotOf_inserted h)) fun h => hcolIn.trans (spotOf_inserted h))
  case outside =>
    have hpad (hmode : g.mode < 2) : rowSpot g i vy = .padding ∨ colSpot g vx = .padding := by
      rcases or_assoc.mpr hout with h | h
      · exact .inl ((hrow _).trans (resolve_outside hmode h))
      · exact .inr ((hcol _).trans (resolve_outside hmode h))
    refine ⟨fun h0 => ?_, fun h1 => ?_, fun h2 => winSample_congr ?_ ?_⟩
    · simpa [h0] using winSample_padding (c := c) (hpad (by omega))
    · simpa [h1] using winSample_padding (c := c) (hpad (by omega))
    · rw [hrow, hrow, h2, resolve_clamp (lastVirtual_nonneg hrows)]
    · rw [hcol, hcol, h2, resolve_clamp (lastVirtual_nonneg hwidth)]

end Sys2Proof.Machine

namespace Sys2Proof.Machine

/-! ## Window commands (O29) -/

section
variable {s s1 s2 : State} {d : Due} {g : Geo} {i : WinIn} {hin hout : Nat} {ob wb : Fin 288}

/-! ### Halo channels (06 R166, R169) -/

/-- Without HALO_IN the input is what its bank holds, and reading it takes no beats (R169). -/
theorem haloRead_bank (hhalo : g.haloIn = false) (hb : coreBankServes s d g.inp.bank (planeBytes g.inFmt (g.c * g.rows * g.width)) g.inp.off ob) :
    ∃ j, haloRead d g s = .ok (j, 0, meetBank s (bankAddr ob g.inp.off) (planeBytes g.inFmt (g.c * g.rows * g.width))) ∧
      j.pl = bankPlane s ob g.inp.off ∧ j.ht = 0 ∧ j.hb = 0 := by
  refine ⟨⟨bankPlane s ob g.inp.off, bytesPlane [] [], bytesPlane [] [], 0, 0, 0, 0, [d.record.toNat, (s.part d.p).step]⟩, ?_, rfl, rfl, rfl⟩
  simp [haloRead, coreBank_ok hb, hhalo, gatherItems, haloFetch, haloRows, haloItemOf, bind, Except.bind, pure, Except.pure]

/-- Without HALO_OUT nothing need be accepted before the command. -/
theorem haloRoom_none (hhalo : g.haloOut = false) : haloRoom d g s = .ok () := by simp [haloRoom, hhalo]

/-- Without HALO_OUT no row is sent. -/
theorem haloWrite_none (hhalo : g.haloOut = false) (row : Nat → Bytes × Bool) : haloWrite d g row s = .ok (0, s) := by
  simp only [haloWrite, hhalo, bind, Except.bind]
  rfl

/-! ### What each command's steps answer -/

/-- A window command that starts and whose steps run is issued with what they give and its handover (06 R173). -/
theorem runWindow_done {p : PartId} {q opcode n e : Nat} {steps : Due → State → Engine EngineOut} {t : State}
    (hstart : engineStarts s p q 3 opcode d) (hsteps : steps d s = .ok (.done t n e)) :
    runEngine s p q 3 opcode winHandover (fun d s => (steps d s).out) = .next (issue t d n e (handoverAt d.record 56 (d.desc.inst / 8))) :=
  runEngine_done hstart (congrArg Engine.out hsteps)

/-- DWCONV whose banks serve and whose halo rows pass (06 R174, R182). -/
theorem dwconvSteps_serves {s3 s4 : State} {lanes : List Lane} {recs : List (Lane × Nat)} (hg : g = geoOf d.record)
    (hob : coreBankServes s d g.out.bank (max (lanesExtent g.w (g.c * g.orows * g.ow)) (if g.partialIn then 96 * (g.c * g.orows * g.ow) else 0))
      g.out.off ob)
    (hwb : coreBankServes s d g.wgt.bank (planeBytes g.wFmt (g.c * g.kh * g.kw)) g.wgt.off wb)
    (hroom : haloRoom d g s = .ok ()) (hread : haloRead d g s = .ok (i, hin, s1))
    (hrecs : recs = if g.partialIn then (List.range (g.c * g.orows * g.ow)).map (planeRecord (bankPlane s ob g.out.off)) else [])
    (hlanes : lanes = ((positions g).map (dwLane g i (bankPlane s wb g.wgt.off))).mapIdx (fun e l => l.join (recs.getD e (Lane.start, 0)).1))
    (hwrite : haloWrite d g (fun r =>
      (if g.w.fmt = 31 then (List.range g.c).flatMap (fun c => (List.range g.ow).flatMap (fun ox =>
          (lanes.getD ((c * g.orows + r) * g.ow + ox) Lane.start).record))
       else resultRow g g.w.fmt (fun e => (lanes.mapIdx (fun e l => writeScalar g.w (elemRandom (s.part d.p) d.record e) l.value)).getD e 0) r,
       false)) s1 = .ok (hout, s2))
    (hs3 : s3 = meetBank s2 (bankAddr wb g.wgt.off) (planeBytes g.wFmt (g.c * g.kh * g.kw)))
    (hs4 : s4 = if g.partialIn then meetBank s3 (bankAddr ob g.out.off) (96 * (g.c * g.orows * g.ow)) else s3) :
    dwconvSteps d s = .ok (.done (storeResult s4 d g.out 0 (writeLanes g.w (elemRandom (s.part d.p) d.record) lanes))
      (12 + g.c * g.orows * ceilDiv g.ow 256 * (g.kh * g.kw * fp32Rate g + outBeats g.w + (if g.partialIn then 6 else 0)) + hin + hout)
      (joinErr (if tapsBad g i || planeBad (bankPlane s wb g.wgt.off) g.wFmt (g.c * g.kh * g.kw) then 2 else 0)
        (recs.foldl (fun e r => joinErr e r.2) 0))) := by
  simp only [dwconvSteps, ← hg, coreBank_ok hob, coreBank_ok hwb, hroom, hread, ← hrecs, ← hlanes, hwrite, ← hs3, ← hs4, bind, Except.bind]
  rfl

/-- WGATHER whose result has its place and whose halo rows pass (06 R176, R182). -/
theorem wgatherSteps_serves (hg : g = geoOf d.record) (hsink : sinkServes s d g.out (patchBytes g)) (hroom : haloRoom d g s = .ok ())
    (hread : haloRead d g s = .ok (i, hin, s1))
    (hwrite : haloWrite d g (fun r => (gatherHalo d g i (s.part d.p).step r, false)) s1 = .ok (hout, s2)) :
    wgatherSteps d s = .ok (.done (patchStore s2 d g (patchSamples g i))
      (12 + g.orows * ceilDiv (g.ow * (g.c * g.kh * g.kw) * fmtBits g.inFmt) 32768 + hin + hout)
      (if haloBad i || (patchSamples g i).any (fun a => a.bad) then 2 else 0)) := by
  simp only [wgatherSteps, ← hg, sink_ok hsink, hroom, hread, hwrite, bind, Except.bind]
  rfl

/-- POOL_MAX or POOL_MIN whose bank serves and whose halo rows pass (06 R177, R182). -/
theorem poolSteps_serves {isMax : Bool} {codes : List Nat} (hg : g = geoOf d.record)
    (hob : coreBankServes s d g.out.bank (planeBytes g.w.fmt (g.c * g.orows * g.ow)) g.out.off ob)
    (hroom : haloRoom d g s = .ok ()) (hread : haloRead d g s = .ok (i, hin, s1))
    (hcodes : codes = ((positions g).map (fun q => poolPick isMax g.inFmt ((taps g).map
      (fun t => tapSample g i q.1 q.2.1 q.2.2 t.1 t.2)))).mapIdx (fun e a => poolCode g (elemRandom (s.part d.p) d.record e) a))
    (hwrite : haloWrite d g (fun r => (resultRow g g.w.fmt (fun e => codes.getD e 0) r, false)) s1 = .ok (hout, s2)) :
    poolSteps isMax d s = .ok (.done (storeResult s2 d g.out 0 (packPlane g.w.fmt codes))
      (12 + g.c * g.orows * ceilDiv g.ow 256 * (g.kh * g.kw + 1) + hin + hout) (if tapsBad g i then 2 else 0)) := by
  simp only [poolSteps, ← hg, coreBank_ok hob, hroom, hread, ← hcodes, hwrite, bind, Except.bind]
  rfl

end

/-- Settles O29: each command's steps answer what its lemma says, and a command that starts is issued with it (`runWindow_done`); it has its
effect when it is issued (log entry 34). Without halo flags no channel is asked for. -/
theorem windowCommandsComplete : Obligations.WindowCommandsComplete := by
  unfold Obligations.WindowCommandsComplete
  intro s s1 s2 s3 s4 p q d g i hin hout ob wb hg
  refine ⟨?dwconv, ?wgather, ?pool, ?noHaloIn, ?noHaloOut⟩
  case dwconv =>
    intro lanes recs hstart hob hwb hroom hread hrecs hlanes hwrite hs3 hs4
    obtain rfl := engineStarts_part hstart
    exact runWindow_done hstart (dwconvSteps_serves hg hob hwb hroom hread hrecs hlanes hwrite hs3 hs4)
  case wgather =>
    intro hstart hsink hroom hread hwrite
    obtain rfl := engineStarts_part hstart
    exact runWindow_done hstart (wgatherSteps_serves hg hsink hroom hread hwrite)
  case pool =>
    intro isMax codes hstart hob hroom hread hcodes hwrite
    obtain rfl := engineStarts_part hstart
    have hsteps := poolSteps_serves hg hob hroom hread hcodes hwrite
    cases isMax with
    | true => exact runWindow_done hstart hsteps
    | false => exact runWindow_done hstart hsteps
  case noHaloIn => exact haloRead_bank
  case noHaloOut => exact fun hhalo => ⟨haloRoom_none hhalo, haloWrite_none hhalo⟩

end Sys2Proof.Machine

namespace Sys2Proof.Machine

/-! ## GLOBAL_AVG and ARGMAX_CH (O31) -/

/-! ### What each command's steps answer -/

section
variable {s : State} {d : Due} {ib ob pb vb fb : Fin 288}

/-- Error of GLOBAL_AVG over `c` channels of `n` elements (06 R178, R182): 0x02 of a poisoned element, joined with the errors of the records. -/
def avgErr (pl : Plane) (fmt c n : Nat) (recs : Nat → List (Lane × Nat)) : Nat :=
  joinErr (if (List.range (c * n)).any (fun e => (rawSample pl fmt e).bad) then 2 else 0)
    ((List.range c).foldl (fun e ch => (recs ch).foldl (fun e a => joinErr e a.2) e) 0)

/-- GLOBAL_AVG whose banks serve (06 R178, R182). -/
theorem globalAvgSteps_serves {r : CmdRecord} {w : Wdesc} {n c nsrc fmt : Nat} {lanes : List Lane} {recs : Nat → List (Lane × Nat)} {t : State}
    (hr : r = d.record) (hw : w = wdescOf (recField r 36 4)) (hn : n = recField r 40 4) (hc : c = recField r 48 2 + 1)
    (hfmt : fmt = recField r 50 1) (hnsrc : nsrc = recField r 51 1)
    (hib : coreBankServes s d (trefOf (recField r 24 4)).bank (planeBytes fmt (c * n)) (trefOf (recField r 24 4)).off ib)
    (hob : coreBankServes s d (trefOf (recField r 28 4)).bank (lanesExtent w c) (trefOf (recField r 28 4)).off ob)
    (hpb : nsrc = 0 ∨ coreBankServes s d (trefOf (recField r 32 4)).bank (96 * c * nsrc) (trefOf (recField r 32 4)).off pb)
    (hrecs : recs = fun ch => (List.range nsrc).map (fun i => planeRecord (bankPlane s pb (trefOf (recField r 32 4)).off) (i * c + ch)))
    (hlanes : lanes = (List.range c).map (fun ch => (recs ch).foldl (fun l a => l.join a.1) ((List.range n).foldl
      (fun l e => l.add ((rawSample (bankPlane s ib (trefOf (recField r 24 4)).off) fmt (ch * n + e)).num fmt)) Lane.start)))
    (ht : t = meetBank (if nsrc = 0 then s else meetBank s (bankAddr pb (trefOf (recField r 32 4)).off) (96 * c * nsrc))
      (bankAddr ib (trefOf (recField r 24 4)).off) (planeBytes fmt (c * n))) :
    globalAvgSteps d s = .ok (.done (storeResult t d (trefOf (recField r 28 4)) 0
        (if w.fmt = 31 then lanes.flatMap Lane.record
         else planeOut (writeOut w (elemRandom (s.part d.p) r) (lanes.map (fun l => divideBy (recField r 44 4) l.value)))))
      (12 + c * ceilDiv n 256 + ceilDiv c 256 * (6 * nsrc + outBeats w + (if recField r 44 4 = 0 then 0 else 4)))
      (avgErr (bankPlane s ib (trefOf (recField r 24 4)).off) fmt c n recs)) := by
  have hsources : ∃ pp, (if nsrc = 0 then (.ok (bytesPlane [] [], s) : Engine (Plane × State)) else do
        let b ← coreBank s d (trefOf (recField r 32 4)).bank (96 * c * nsrc) (trefOf (recField r 32 4)).off
        return (bankPlane s b (trefOf (recField r 32 4)).off, meetBank s (bankAddr b (trefOf (recField r 32 4)).off) (96 * c * nsrc))) =
      .ok (pp, if nsrc = 0 then s else meetBank s (bankAddr pb (trefOf (recField r 32 4)).off) (96 * c * nsrc)) ∧
      recs = fun ch => (List.range nsrc).map (fun i => planeRecord pp (i * c + ch)) := by
    by_cases h0 : nsrc = 0
    · exact ⟨bytesPlane [] [], by simp [h0], by simp [hrecs, h0]⟩
    · exact ⟨_, by simp [h0, coreBank_ok (hpb.resolve_left h0), bind, Except.bind, pure, Except.pure], hrecs⟩
  obtain ⟨pp, hfetch, hrecs'⟩ := hsources
  simp only [globalAvgSteps, ← hr, ← hw, ← hn, ← hc, ← hfmt, ← hnsrc, coreBank_ok hib, coreBank_ok hob]
  simp only [bind, Except.bind] at hfetch ⊢
  simp only [hfetch, ← ht]
  rw [hlanes, hrecs']
  rfl

/-- A bank that is asked for where `named` says so. -/
theorem coreBank_named {named : Bool} {bank n off : Nat} {b : Fin 288} (h : if named then coreBankServes s d bank n off b else b = ib) :
    (if named then coreBank s d bank n off else .ok ib) = .ok b := by
  cases named with
  | true => exact coreBank_ok h
  | false => exact congrArg Except.ok (Eq.symm h)

/-- ARGMAX_CH whose banks serve (06 R179, R180, R182). -/
theorem argmaxSteps_serves {g : ArgArgs} {pl vp xp fp : Plane} (hg : g = argArgs d.record)
    (hib : coreBankServes s d g.inp.bank (planeBytes g.fmt (g.c * g.px)) g.inp.off ib)
    (hxb : coreBankServes s d g.idx.bank (2 * g.px) g.idx.off ob)
    (hvb : if g.hasVal then coreBankServes s d g.val.bank (planeBytes g.fmt g.px) g.val.off vb else vb = ib)
    (hfb : if g.hasFlg then coreBankServes s d g.flg.bank (ceilDiv g.px 8) g.flg.off fb else fb = ib)
    (hpl : pl = bankPlane s ib g.inp.off) (hvp : vp = bankPlane s vb g.val.off) (hxp : xp = bankPlane s ob g.idx.off)
    (hfp : fp = bankPlane s fb g.flg.off) :
    argmaxSteps d s = .ok (.done (argStore (argMeets s g ib ob vb fb) d g ((List.range g.px).map (argPick g pl vp xp fp)))
      (12 + ceilDiv g.px 256 * (g.c + 4)) (if argBad g pl vp xp fp then 2 else 0)) := by
  simp only [argmaxSteps, ← hg, coreBank_ok hib, coreBank_ok hxb, coreBank_named hvb, coreBank_named hfb, ← hpl, ← hvp, ← hxp, ← hfp, bind,
    Except.bind]
  rfl

end

/-! ### The channel that ranks first (06 R179) -/

section
variable {g : ArgArgs} {pl : Plane} {px : Nat}

/-- The sample of channel `ch` at pixel `px`, and the choice of it. -/
def argSample (g : ArgArgs) (pl : Plane) (px ch : Nat) : Sample := rawSample pl g.fmt (ch * g.px + px)
def argChoice (g : ArgArgs) (pl : Plane) (px ch : Nat) : Choice :=
  { idx := g.cbase + ch, val := argSample g pl px ch, nan := (argSample g pl px ch).num g.fmt == .nan }

/-- Whether the sample of channel `ch` is a NaN. -/
def argNan (g : ArgArgs) (pl : Plane) (px ch : Nat) : Prop := (argSample g pl px ch).num g.fmt = .nan

/-- Channel `ch` is one of the first `n`, and the first of them that is a NaN where there is one. -/
structure NanFirst (g : ArgArgs) (pl : Plane) (px n ch : Nat) : Prop where
  lt : ch < n
  noNan : ∀ c, c < n → ¬argNan g pl px ch → ¬argNan g pl px c
  firstNan : ∀ c, c < ch → argNan g pl px ch → ¬argNan g pl px c

/-- A later channel takes the place of a choice that is no NaN alone, and does so when it is a NaN itself. -/
theorem argStep_choice (ch c : Nat) :
    (argStep g.fmt (some (argChoice g pl px ch)) (g.cbase + c) (argSample g pl px c) = some (argChoice g pl px ch) ∧
      (¬argNan g pl px ch → ¬argNan g pl px c)) ∨
    (argStep g.fmt (some (argChoice g pl px ch)) (g.cbase + c) (argSample g pl px c) = some (argChoice g pl px c) ∧ ¬argNan g pl px ch) := by
  by_cases htakes : (!(argChoice g pl px ch).nan && ((argSample g pl px c).num g.fmt == .nan ||
      numLt ((argChoice g pl px ch).val.num g.fmt) ((argSample g pl px c).num g.fmt))) = true
  · refine .inr ⟨if_pos htakes, ?_⟩
    simp_all [argChoice, argNan]
  · refine .inl ⟨if_neg htakes, ?_⟩
    simp_all [argChoice, argNan]

/-- The choice among the first `n + 1` channels. -/
theorem argFold_nanFirst (g : ArgArgs) (pl : Plane) (px n : Nat) :
    ∃ ch, NanFirst g pl px (n + 1) ch ∧
      (List.range (n + 1)).foldl (fun a ch => argStep g.fmt a (g.cbase + ch) (argSample g pl px ch)) none = some (argChoice g pl px ch) := by
  induction n with
  | zero => exact ⟨0, ⟨Nat.one_pos, fun c hc => by simp [Nat.lt_one_iff.mp hc], fun c hc => absurd hc (Nat.not_lt_zero c)⟩, rfl⟩
  | succ n ih =>
    obtain ⟨ch, ⟨hlt, hnoNan, hfirst⟩, hfold⟩ := ih
    rw [List.range_succ, List.foldl_append, hfold, List.foldl_cons, List.foldl_nil]
    rcases argStep_choice (g := g) (pl := pl) (px := px) ch (n + 1) with ⟨hstays, hlast⟩ | ⟨htakes, hnum⟩
    · refine ⟨ch, ⟨by omega, fun c hc hch => ?_, hfirst⟩, hstays⟩
      rcases Nat.lt_succ_iff_lt_or_eq.mp hc with hc | rfl
      · exact hnoNan c hc hch
      · exact hlast hch
    · refine ⟨n + 1, ⟨Nat.lt_succ_self _, fun c hc hch => ?_, fun c hc _ => hnoNan c hc hnum⟩, htakes⟩
      rcases Nat.lt_succ_iff_lt_or_eq.mp hc with hc | rfl
      · exact hnoNan c hc hnum
      · exact hch

/-- The choice of a pixel without a chain. -/
theorem argPick_noChain (vp xp fp : Plane) (hchain : g.chain = false) (hc : 1 ≤ g.c) :
    ∃ ch, NanFirst g pl px g.c ch ∧ argPick g pl vp xp fp px = argChoice g pl px ch := by
  obtain ⟨ch, hfirst, hfold⟩ := argFold_nanFirst g pl px (g.c - 1)
  rw [Nat.sub_add_cancel hc] at hfirst hfold
  have hbefore : argBefore g vp xp fp px = none := by simp [argBefore, hchain]
  refine ⟨ch, hfirst, ?_⟩
  unfold argSample at hfold
  rw [argPick, hbefore, hfold, Option.getD_some]

end

/-- Settles O31: each command's steps answer what its lemma says, and a command that starts is issued with it (`runWindow_done`); it has its
effect when it is issued (log entry 34). That a poisoned index or flag word of a chain counts is log entry 144. The choice of a pixel is
followed channel by channel (`argFold_nanFirst`). -/
theorem globalAvgAndArgmaxComplete : Obligations.GlobalAvgAndArgmaxComplete := by
  unfold Obligations.GlobalAvgAndArgmaxComplete
  intro s p q d r ib ob pb vb fb hr
  refine ⟨?globalAvg, ?argmax, ?choice⟩
  case globalAvg =>
    intro w n c nsrc fmt lanes recs t hstart hw hn hc hfmt hnsrc hib hob hpb hrecs hlanes ht
    obtain rfl := engineStarts_part hstart
    have hsteps := globalAvgSteps_serves hr hw hn hc hfmt hnsrc hib hob hpb hrecs hlanes ht
    subst hr
    exact ⟨_, runWindow_done hstart hsteps, rfl⟩
  case argmax =>
    intro g pl vp xp fp hstart hg hib hxb hvb hfb hpl hvp hxp hfp
    subst hr
    exact runWindow_done hstart (argmaxSteps_serves hg hib hxb hvb hfb hpl hvp hxp hfp)
  case choice =>
    intro g pl vp xp fp px hg hchain
    have hc : 1 ≤ g.c := hg ▸ Nat.succ_pos _
    obtain ⟨ch, ⟨hlt, hnoNan, hfirst⟩, hpick⟩ := argPick_noChain (pl := pl) (px := px) vp xp fp hchain hc
    exact ⟨ch, hlt, hpick, hnoNan, hfirst⟩

end Sys2Proof.Machine

namespace Sys2Proof.Machine

/-! ## ATTN and the vector commands (O32) -/

/-! ### ATTN -/

section
variable {s s1 : State} {p : PartId} {q : Nat} {d : Due} {a : AttnArgs} {kb ab : Fin 288} {qp kv ap : Plane} {rs : List RowState}

/-- ATTN whose banks, query operand and result's place serve (07 R185, R187, R197). -/
theorem attnSteps_serves (ha : a = attnArgs d.record) (hkb : coreBankServes s d a.kv.bank a.kvBytes a.kv.off kb)
    (hab : coreBankServes s d a.aux.bank a.auxBytes a.aux.off ab) (hsink : sinkServes s d a.o a.outBytes)
    (hreads : readsServe s d [(a.q, a.qBytes)])
    (hsrc : sourceServes (meetBank (meetKeys s a kb) (bankAddr ab a.aux.off) a.auxBytes) d a.q a.qBytes qp s1)
    (hrs : rs = (List.range (a.npos * a.g)).map
      (attnRow (s.part d.p).tables a qp (bankPlane s kb a.kv.off) (bankPlane s ab a.aux.off))) :
    attnSteps d s = .ok (.done (storeResult s1 d a.o 0 (attnOut a rs)) (attnBeats a)
      (attnErr a qp (bankPlane s kb a.kv.off) (bankPlane s ab a.aux.off))) := by
  unfold readsServe at hreads
  simp only [attnSteps, ← ha, coreBank_ok hkb, coreBank_ok hab, sink_ok hsink, hreads, fetch_ok hsrc, ← hrs, bind, Except.bind]
  rfl

/-- ATTN that starts and whose steps run is issued with what they give and its handover. -/
theorem execAttn_done {n e : Nat} {t : State} (hstart : engineStarts s p q 2 0x0200 d) (hsteps : attnSteps d s = .ok (.done t n e)) :
    execAttn p q s = .next (issue t d n e (handoverAt d.record 53 (d.desc.inst / 8))) :=
  runEngine_done hstart (congrArg Engine.out hsteps)

/-- ATTN ends with 0x02 exactly when a word that it reads is poisoned (07 R197). -/
theorem attnErr_eq_two_iff : attnErr a qp kv ap = 2 ↔
    ap.bad 0 = true ∨ qp.anyBad 0 (planeBytes a.qFmt (a.npos * a.g * a.d)) = true ∨
    (∃ j, j < a.nk ∧ kv.anyBad (tokenAt a j) (2 * halfBytes a.kvFmt a.d) = true) ∨
    (a.stateIn = true ∧ ap.anyBad 64 (a.npos * a.g * stateBytes a.d) = true) := by
  have hpoison : attnErr a qp kv ap = 2 ↔ (ap.bad 0 || qp.anyBad 0 (planeBytes a.qFmt (a.npos * a.g * a.d)) ||
      (List.range a.nk).any (fun j => kv.anyBad (tokenAt a j) (2 * halfBytes a.kvFmt a.d)) ||
      (a.stateIn && ap.anyBad 64 (a.npos * a.g * stateBytes a.d))) = true := by
    unfold attnErr
    split
    · simp_all
    · split <;> simp_all
  simp only [hpoison, Bool.or_eq_true, Bool.and_eq_true, List.any_eq_true, List.mem_range, or_assoc]

end

/-! ### Vector commands -/

section
variable {s : State} {p : PartId} {q : Nat} {d : Due} {v : VecArgs} {ob ab bb cb : Fin 288} {pa pb pc : Plane} {codes : List Nat}

/-- The due command of a class and an opcode is the one whose turn has come. -/
theorem dueAt_of_dueCommand {cls opcode : Nat} (h : dueCommand s p q cls opcode = some d) : dueAt s p q = some d := by
  unfold dueCommand at h
  split at h
  · split at h
    · exact ‹dueAt s p q = some _›.trans h
    · exact nomatch h
  · exact nomatch h

/-- A vector command whose banks serve (03 R89; log entry 16). -/
theorem vectorSteps_serves (hob : coreBankServes s d v.out.1 (planeBytes (wdescOf v.wdesc).fmt v.count) v.out.2 ob)
    (hab : coreBankServes s d v.a.1 (planeBytes v.fmt v.count) v.a.2 ab)
    (hbb : if 2 ≤ vecArity v.op then coreBankServes s d v.b.1 (planeBytes v.fmt v.count) v.b.2 bb else bb = ab)
    (hcb : if 3 ≤ vecArity v.op then coreBankServes s d v.c.1 (planeBytes v.fmt v.count) v.c.2 cb else cb = ab)
    (hpa : pa = bankPlane s ab v.a.2) (hpb : pb = if 2 ≤ vecArity v.op then bankPlane s bb v.b.2 else pa)
    (hpc : pc = if 3 ≤ vecArity v.op then bankPlane s cb v.c.2 else pa)
    (hcodes : codes = vecCodes (s.part d.p).tables v (elemRandom (s.part d.p) d.record) pa pb pc) :
    vectorSteps v d s = .ok (.done
      (bankWrite (vecMeets s v ab bb cb) (bankAddr ob v.out.2) (packPlane (wdescOf v.wdesc).fmt codes))
      (Config.vectorBeats (vecOpNo v.op) v.fmt v.count) (if (List.range v.count).any (vecBad v pa pb pc) then 2 else 0)) := by
  have hsecond := coreBank_named (named := decide (2 ≤ vecArity v.op)) (by simpa using hbb)
  have hthird := coreBank_named (named := decide (3 ≤ vecArity v.op)) (by simpa using hcb)
  simp only [decide_eq_true_eq] at hsecond hthird
  simp only [vectorSteps, coreBank_ok hob, coreBank_ok hab, hsecond, hthird, ← hpa, ← hpb, ← hpc, ← hcodes, bind, Except.bind]
  rfl

/-- A vector command that the loader lets through, that starts and whose steps run is issued with what they give. -/
theorem execVectorCommand_done {n e : Nat} {t : State} (hop : recOpcode d.record < 0xFF00) (hok : vecOk v d.record = true)
    (hstart : engineStarts s p q 4 (recOpcode d.record) d) (hsteps : vectorSteps v d s = .ok (.done t n e)) :
    execVectorCommand p q v s = .next (issue t d n e (vecHand v d)) := by
  have hrun := runEngine_done (hand := vecHand v) (op := fun d s => (vectorSteps v d s).out) hstart (congrArg Engine.out hsteps)
  obtain ⟨hdue, -⟩ := hstart
  simp only [execVectorCommand, dueAt_of_dueCommand hdue, hop, hok, decide_true, Bool.and_self, if_true, hrun]

variable {tabs : List FormatTable}

/-- The code of an element that meets no poisoned word and whose result the manual states: the result rounded once (03 R89). -/
theorem vecCode_rounded {r : Nat} {raws : List Nat} {a b c : Num} {x : OutVal} (hzero : v.op = .recip → curveNegZero 2 a = false)
    (hresult : vecResult tabs v.op a b c = some x) : vecCode tabs v r raws false a b c = writeScalar (wdescOf v.wdesc) r x := by
  have hplain : (v.op == .recip && curveNegZero 2 a) = false := by
    cases hrecip : v.op == .recip with
    | false => rfl
    | true => exact hzero (by simpa using hrecip)
  simp [vecCode, hplain, hresult]

theorem vecCodes_length (rand : Nat → Nat) : (vecCodes tabs v rand pa pb pc).length = v.count := by simp [vecCodes]

theorem vecCodes_getElem? {rand : Nat → Nat} {n : Nat} (hn : n < v.count) : (vecCodes tabs v rand pa pb pc)[n]? =
    some (vecCode tabs v (rand n) (vecRaws v pa pb pc n) (vecBad v pa pb pc n) (vecElem v pa n) (vecElem v pb n) (vecElem v pc n)) := by
  simp [vecCodes, hn]

end

/-- Settles O32: each command's steps answer what its lemma says, and a command that starts is issued with it (`execAttn_done`,
`execVectorCommand_done`); it has its effect when it is issued (log entry 34). A quotient that the manual does not state is log entry 15,
what it leaves open of a vector command log entry 16. -/
theorem attentionAndVectorComplete : Obligations.AttentionAndVectorComplete := by
  unfold Obligations.AttentionAndVectorComplete
  intro s p q d
  refine ⟨?attn, ?vector⟩
  case attn =>
    intro a kb ab qp s1 rs hstart ha hkb hab hsink hreads hsrc hrs
    obtain rfl := engineStarts_part hstart
    exact ⟨execAttn_done hstart (attnSteps_serves ha hkb hab hsink hreads hsrc hrs), attnErr_eq_two_iff⟩
  case vector =>
    intro v ob ab bb cb pa pb pc codes o ho hop hok hstart hob hab hbb hcb hpa hpb hpc hcodes
    subst ho
    obtain rfl := engineStarts_part hstart
    have hsteps := vectorSteps_serves hob hab hbb hcb hpa hpb hpc hcodes
    refine ⟨execVectorCommand_done hop hok hstart hsteps, by rw [hcodes, vecCodes_length], fun n x hn hclean hzero hresult => ?_⟩
    rw [hcodes, vecCodes_getElem? hn, hclean, vecCode_rounded hzero hresult]

end Sys2Proof.Machine

namespace Sys2Proof.Machine

/-! ## Walk records, the copy phase and the house turn (O33) -/

/-! ### What walking and copying leave alone -/

/-- `t` has the partitions, the owner registers, the keys and, but for their counts of correctable errors, the clusters of `s`, and its memory
has the canonical form where that of `s` does. -/
structure SameUnits (s t : State) : Prop where
  parts : t.parts = s.parts
  owners : t.owners = s.owners
  security : t.security = s.security
  clusters : ∀ k, ∃ n, t.cluster k = { s.cluster k with correctable := n }
  wf : memWf s.mem = true → memWf t.mem = true

namespace SameUnits
variable {s t u : State}

theorem refl (s : State) : SameUnits s s := ⟨rfl, rfl, rfl, fun _ => ⟨_, rfl⟩, id⟩

theorem trans (h : SameUnits s t) (g : SameUnits t u) : SameUnits s u := by
  refine ⟨g.parts.trans h.parts, g.owners.trans h.owners, g.security.trans h.security, fun k => ?_, fun hwf => g.wf (h.wf hwf)⟩
  obtain ⟨m, ht⟩ := h.clusters k
  obtain ⟨n, hu⟩ := g.clusters k
  exact ⟨n, by rw [hu, ht]⟩

theorem foldl {α : Type} {f : State → α → State} (hf : ∀ u a, SameUnits u (f u a)) (as : List α) (s : State) : SameUnits s (as.foldl f s) :=
  foldl_keep (P := SameUnits s) (fun _ _ h => h.trans (hf _ _)) (refl s)

theorem part (h : SameUnits s t) (p : PartId) : t.part p = s.part p := by unfold State.part; rw [h.parts]

theorem beats (h : SameUnits s t) (k : ClusterId) : (t.cluster k).beats = (s.cluster k).beats := by
  obtain ⟨n, hk⟩ := h.clusters k
  rw [hk]

/-- The units of a stack are under the same keys. -/
theorem unitKey (h : SameUnits s t) (k : ClusterId) (n : Nat) : Machine.unitKey t k n = Machine.unitKey s k n := by
  obtain ⟨c, hk⟩ := h.clusters k
  simp only [Machine.unitKey, h.security, hk]

/-- A stack that holds the same bytes delivers the same. -/
theorem stackPlain (h : SameUnits s t) (hhbm : t.mem.hbm = s.mem.hbm) (k : ClusterId) (off n : Nat) :
    Machine.stackPlain t k off n = Machine.stackPlain s k off n := by
  simp only [Machine.stackPlain, h.unitKey, stackRead, hhbm]

/-- A read that meets an error and leaves the clusters alone. -/
theorem ofRead (hbytes : SameBytes s t) (hsec : t.security = s.security) (hclusters : t.clusters = s.clusters) : SameUnits s t :=
  ⟨hbytes.parts, hbytes.owners, hsec, fun k => ⟨_, by unfold State.cluster; rw [hclusters]⟩, hbytes.wf⟩

/-- A state whose memory alone differs. -/
theorem ofMem {m : Mem} (h : memWf s.mem = true → memWf m = true) : SameUnits s { s with mem := m } :=
  ⟨rfl, rfl, rfl, fun _ => ⟨_, rfl⟩, h⟩

end SameUnits

section
variable (s : State)

theorem foundBank_view (w : Nat) : ((foundBank s w).security, (foundBank s w).clusters) = (s.security, s.clusters) := by
  unfold foundBank
  dsimp only
  split <;> simp

theorem foundUnit_view (w : Nat) :
    ((foundUnit s w).security, (foundUnit s w).clusters, (foundUnit s w).cores) = (s.security, s.clusters, s.cores) := by
  unfold foundUnit
  dsimp only
  split <;> simp

theorem foundBank_sameUnits (w : Nat) : SameUnits s (foundBank s w) := by
  obtain ⟨hsec, hclusters⟩ := Prod.mk.inj (foundBank_view s w)
  exact .ofRead (foundBank_same s w) hsec hclusters

theorem foundUnit_sameUnits (w : Nat) : SameUnits s (foundUnit s w) := by
  obtain ⟨hsec, hrest⟩ := Prod.mk.inj (foundUnit_view s w)
  obtain ⟨hclusters, -⟩ := Prod.mk.inj hrest
  exact .ofRead (foundUnit_same s w) hsec hclusters

theorem countCorrectable_sameUnits (g : ClusterId) :
    SameUnits s (s.modCluster g (fun c => { c with correctable := c.correctable + 1 })) := by
  refine ⟨rfl, rfl, rfl, fun k => ?_, id⟩
  by_cases h : g = k
  · subst h
    exact ⟨_, State.modCluster_cluster ..⟩
  · exact ⟨_, State.modCluster_cluster_ne _ _ _ _ h⟩

theorem meetBank_sameUnits (a n : Nat) : SameUnits s (meetBank s a n) := by
  unfold meetBank
  refine SameUnits.trans ?_ (.foldl foundBank_sameUnits _ _)
  exact .ofMem fun hwf => hwf

theorem meetStack_sameUnits (a n : Nat) : SameUnits s (meetStack s a n) := by
  unfold meetStack
  exact (SameUnits.foldl (fun u w => countCorrectable_sameUnits u (clusterOfUnit w)) _ _).trans (.foldl foundUnit_sameUnits _ _)

theorem meetStack_cores (a n : Nat) : (meetStack s a n).cores = s.cores := by
  unfold meetStack
  refine (foldl_view _ State.cores (fun u w => ?found) _).trans (foldl_view s State.cores (fun u w => ?counted) _)
  case found => exact congrArg (fun v => v.2.2) (foundUnit_view u w)
  case counted => rfl

theorem moveToBank_sameUnits (a : Nat) (bs : Bytes) (marks : List Bool) : SameUnits s (moveToBank s a bs marks) := by
  refine .ofMem fun hwf => ?_
  obtain ⟨hb, hh, hbp, hrest⟩ := (memWf_iff _).mp (bankWrite_wf (a := a) (bs := bs) hwf)
  exact (memWf_iff _).mpr ⟨hb, hh, marksWrite_wf hbp, hrest⟩

theorem moveToStack_sameUnits (a : Nat) (bs : Bytes) (marks : List Bool) : SameUnits s (moveToStack s a bs marks) := by
  refine .ofMem fun hwf => ?_
  obtain ⟨hb, hh, hbp, hsp, hrest⟩ := (memWf_iff _).mp (stackWrite_wf (a := a) (bs := bs) hwf)
  exact (memWf_iff _).mpr ⟨hb, hh, hbp, marksWrite_wf hsp, hrest⟩

end

/-! ### Walk records -/

/-- A walk record that is due and ready, whose stack's head work is done and whose steps run, is issued with what they give (07 R206). -/
theorem runWalk_done {s t : State} {p : PartId} {lc kind n e : Nat} {w : WalkDue} {op : WalkDue → State → Engine EngineOut}
    (hdue : walkDue s p lc kind = some w) (hready : walkReady (s.part p) w.record = true) (hhead : headPending (s.part p) lc = false)
    (hop : op w s = .ok (.done t n e)) : runWalk s p lc kind op = .next (issueWalk t p w n e) := by
  simp only [runWalk, hdue, hready, hhead, hop, Bool.not_false, Bool.and_self, if_true]
  rfl

section
variable {s : State} {x : Part} {w : WalkDue} {k : ClusterId} {a first n : Nat}

theorem ptMeet_same (s : State) (x : Part) (kd : KvDecl) (lc e : Nat) : SameBytes s (ptMeet s x kd lc e) := by
  unfold ptMeet
  split
  · exact meetBank_same ..
  · exact .refl s

theorem countMeet_same (s : State) (x : Part) (kd : KvDecl) (page : Nat) : SameBytes s (countMeet s x kd page) := by
  unfold countMeet
  split
  · exact meetStack_same ..
  · exact .refl s

theorem walkMeet_same (s : State) (x : Part) (w : WalkDue) (e : Nat) : SameBytes s (walkMeet s x w e) := by
  unfold walkMeet
  split
  · exact ptMeet_same ..
  · exact .refl s

theorem walkMeet_sameUnits (s : State) (x : Part) (w : WalkDue) (e : Nat) : SameUnits s (walkMeet s x w e) := by
  unfold walkMeet ptMeet
  split
  · split
    · exact meetBank_sameUnits ..
    · exact .refl s
  · exact .refl s

/-! #### WALK_STAGE (07 R207) -/

theorem stagePage_sameUnits (s : State) (k : ClusterId) (a : Nat) (target : Nat × Nat) : SameUnits s (stagePage s k a target).1 :=
  (meetStack_sameUnits ..).trans (moveToBank_sameUnits ..)

theorem stagePage_hbm (s : State) (k : ClusterId) (a : Nat) (target : Nat × Nat) : (stagePage s k a target).1.mem.hbm = s.mem.hbm := by
  unfold stagePage
  exact (moveToBank_hbm ..).trans (meetStack_hbm ..)

/-- Page `i` of a stage lands after the pages before it. -/
def stageNext (x : Part) (w : WalkDue) (k : ClusterId) (a first : Nat) (s t : State) (i : Nat) : State :=
  (stagePage (walkMeet t x w (first + i)) k (a + i * pageSize) (stageTarget s x w (first + i))).1

theorem stagePages_succ : (stagePages s x w k a first (n + 1)).1 = stageNext x w k a first s (stagePages s x w k a first n).1 n := by
  simp only [stagePages, List.range_succ, List.foldl_append, List.foldl_cons, List.foldl_nil, stageNext]

theorem stageNext_sameUnits (s t : State) (i : Nat) : SameUnits t (stageNext x w k a first s t i) :=
  (walkMeet_sameUnits ..).trans (stagePage_sameUnits ..)

theorem stageNext_hbm (s t : State) (i : Nat) : (stageNext x w k a first s t i).mem.hbm = t.mem.hbm :=
  (stagePage_hbm ..).trans (walkMeet_same ..).hbm

theorem stageNext_banks (s t : State) (i : Nat) : (stageNext x w k a first s t i).mem.banks =
    cellsWrite t.mem.banks (a + i * pageSize) (stackPlain t k ((stageTarget s x w (first + i)).1 % 2 ^ 20 * pageSize) pageSize) := by
  have hplain := (walkMeet_sameUnits t x w (first + i)).stackPlain (walkMeet_same t x w (first + i)).hbm k
    ((stageTarget s x w (first + i)).1 % 2 ^ 20 * pageSize) pageSize
  simp only [stageNext, stagePage, moveToBank_banks, meetStack_banks, hplain, (walkMeet_same ..).banks]

theorem stagePages_sameUnits : SameUnits s (stagePages s x w k a first n).1 := by
  induction n with
  | zero => exact .refl s
  | succ n ih => rw [stagePages_succ]; exact ih.trans (stageNext_sameUnits ..)

theorem stagePages_hbm : (stagePages s x w k a first n).1.mem.hbm = s.mem.hbm := by
  induction n with
  | zero => rfl
  | succ n ih => rw [stagePages_succ, stageNext_hbm, ih]

@[simp] theorem stackPlain_length (s : State) (k : ClusterId) (off n : Nat) : (stackPlain s k off n).length = n := by
  unfold stackPlain
  split <;> simp

/-- Bytes that a write does not reach read as before. -/
theorem cellsRead_cellsWrite_before {cs : List Host.Cell} (hwf : cellsWf cs = true) {b c : Nat} (bs : Bytes) (h : b + n ≤ c) :
    cellsRead (cellsWrite cs c bs) b n = cellsRead cs b n := by
  unfold cellsRead
  refine List.map_congr_left fun i hi => ?_
  have hi : i < n := List.mem_range.mp hi
  exact cellRead_cellsWrite_out cs c (b + i) bs hwf (.inl (by omega))

/-- Each page of a stage stands in its place in the bank as its stack delivers it (07 R207). -/
theorem stagePages_read (hwf : memWf s.mem = true) {i : Nat} (hi : i < n) :
    bankRead (stagePages s x w k a first n).1 (a + i * pageSize) pageSize =
      stackPlain s k ((stageTarget s x w (first + i)).1 % 2 ^ 20 * pageSize) pageSize := by
  induction n with
  | zero => exact absurd hi (Nat.not_lt_zero i)
  | succ n ih =>
    have hcells : cellsWf (stagePages s x w k a first n).1.mem.banks = true := by
      obtain ⟨hbanks, -⟩ := (memWf_iff _).mp (stagePages_sameUnits.wf hwf)
      exact hbanks
    unfold bankRead at ih ⊢
    rw [stagePages_succ, stageNext_banks, stagePages_sameUnits.stackPlain stagePages_hbm]
    rcases Nat.lt_succ_iff_lt_or_eq.mp hi with hbefore | rfl
    · have hpages : (i + 1) * pageSize ≤ n * pageSize := Nat.mul_le_mul_right _ hbefore
      rw [Nat.succ_mul] at hpages
      rw [cellsRead_cellsWrite_before hcells _ (by omega), ih hbefore]
    · obtain ⟨hread, -⟩ := cellsWrite_spec hcells (a + i * pageSize)
        (stackPlain_length s k ((stageTarget s x w (first + i)).1 % 2 ^ 20 * pageSize) pageSize)
      exact hread

/-- WALK_STAGE whose bank serves and whose stack is awake. -/
theorem walkStageSteps_serves {p : PartId} (hbank : walkBank s p w.lc (walkField w.record 12 4) (walkField w.record 8 1 * pageSize) = .ok a)
    (hk : physCluster (s.part p) w.lc = some k) (hawake : (s.cluster k).selfRefresh = false) :
    walkStageSteps p w s = .ok (.done (stagePages s (s.part p) w k a (walkField w.record 6 2) (walkField w.record 8 1)).1
      (4 + 32 * walkField w.record 8 1) (stagePages s (s.part p) w k a (walkField w.record 6 2) (walkField w.record 8 1)).2) := by
  simp only [walkStageSteps, hbank, hk, hawake, bind, Except.bind]
  rfl

/-! #### WALK_APPEND (07 R208, R210) -/

theorem appendMeet_same (s : State) (x : Part) (w : WalkDue) (e : Nat) : SameBytes s (appendMeet s x w e) := by
  unfold appendMeet
  split
  · exact .refl s
  · dsimp only
    split
    · exact (ptMeet_same ..).trans (countMeet_same ..)
    · exact ptMeet_same ..

/-- A token record goes to a stack: no byte of the banks and no partition changes. -/
theorem appendBytes_view (s : State) (src dst n : Nat) :
    ((appendBytes s src dst n).mem.banks, (appendBytes s src dst n).parts) = (s.mem.banks, s.parts) := by
  have hread := meetBank_same s src n
  unfold appendBytes
  refine (foldl_view _ (fun u => (u.mem.banks, u.parts)) (fun u m => ?_) _).trans (Prod.ext hread.banks hread.parts)
  split <;> rfl

theorem appendRecords_view (s : State) (x : Part) (w : WalkDue) (k : ClusterId) (q : Seq) (a tr tpp n : Nat) :
    ((appendRecords s x w k q a tr tpp n).mem.banks, (appendRecords s x w k q a tr tpp n).parts) = (s.mem.banks, s.parts) :=
  foldl_view s (fun u => (u.mem.banks, u.parts)) (fun _ _ => appendBytes_view ..) _

variable {p : PartId} {tr : Nat}

/-- WALK_APPEND of an empty slot writes nothing and takes its beats (07 R208). -/
theorem walkAppendSteps_empty (hn : n = walkField w.record 8 1) (htr : tr = 2 * walkField w.record 30 2)
    (hbank : walkBank s p w.lc (walkField w.record 12 4) (n * tr) = .ok a) (hk : physCluster (s.part p) w.lc = some k)
    (hslot : seqInSlot (s.part p) (walkField w.record 2 2) = none) :
    walkAppendSteps p w s = .ok (.done s (4 + ceilDiv (n * tr) 2048) 0) := by
  simp only [walkAppendSteps, ← hn, ← htr, hbank, hk, hslot, bind, Except.bind]
  rfl

/-- WALK_APPEND of a sequence whose stack is awake: its records are stored where its entries meet no error (07 R208, R210). -/
theorem walkAppendSteps_serves {sq : Seq} {e : Nat} {m : State} (hn : n = walkField w.record 8 1) (htr : tr = 2 * walkField w.record 30 2)
    (hbank : walkBank s p w.lc (walkField w.record 12 4) (n * tr) = .ok a) (hk : physCluster (s.part p) w.lc = some k)
    (hslot : seqInSlot (s.part p) (walkField w.record 2 2) = some sq) (hawake : (s.cluster k).selfRefresh = false)
    (he : e = (appendEntries (16 * walkField w.record 29 1) sq.len n).foldl (fun acc x => joinErr acc (appendError s (s.part p) w x)) 0)
    (hm : m = (appendEntries (16 * walkField w.record 29 1) sq.len n).foldl (fun t x => appendMeet t (s.part p) w x) s) :
    walkAppendSteps p w s = .ok (.done
      (if e = 0 then appendRecords m (s.part p) w k sq a tr (16 * walkField w.record 29 1) n else m) (4 + ceilDiv (n * tr) 2048) e) := by
  simp only [walkAppendSteps, ← hn, ← htr, hbank, hk, hslot, hawake, ← he, ← hm, bind, Except.bind]
  by_cases h0 : e = 0
  · simp only [h0]
    rfl
  · simp only [if_neg h0, if_pos h0]
    rfl

end

/-! ### The copy phase (07 R212) -/

section
variable {s : State} {p : PartId} {lc : Nat} {k : ClusterId} {kc : KvCluster}

theorem copyPage_sameUnits (s : State) (k : ClusterId) (src dst : Nat) : SameUnits s (copyPage s k src dst) :=
  (meetStack_sameUnits ..).trans (moveToStack_sameUnits ..)

theorem moveToStack_cores (s : State) (a : Nat) (bs : Bytes) (marks : List Bool) : (moveToStack s a bs marks).cores = s.cores := rfl

theorem copyPage_banks (s : State) (k : ClusterId) (src dst : Nat) : (copyPage s k src dst).mem.banks = s.mem.banks := by
  unfold copyPage
  exact (moveToStack_banks ..).trans (meetStack_banks ..)

theorem copyPage_cores (s : State) (k : ClusterId) (src dst : Nat) : (copyPage s k src dst).cores = s.cores := by
  unfold copyPage
  exact (moveToStack_cores ..).trans (meetStack_cores ..)

/-- The ordered copies of a stack, run in order. -/
def copyPages (s : State) (k : ClusterId) (copies : List (Nat × Nat)) : State := copies.foldl (fun s c => copyPage s k c.1 c.2) s

theorem copyPages_sameUnits (copies : List (Nat × Nat)) : SameUnits s (copyPages s k copies) := by
  unfold copyPages
  refine SameUnits.foldl (fun u c => ?_) copies s
  exact copyPage_sameUnits ..

theorem copyPages_banks (copies : List (Nat × Nat)) : (copyPages s k copies).mem.banks = s.mem.banks :=
  foldl_view s (fun u => u.mem.banks) (fun _ _ => copyPage_banks ..) copies

theorem copyPages_cores (copies : List (Nat × Nat)) : (copyPages s k copies).cores = s.cores :=
  foldl_view s State.cores (fun _ _ => copyPage_cores ..) copies

/-- The state once the ordered copies are made and taken off the list. -/
def copiesDone (s : State) (p : PartId) (lc : Nat) (k : ClusterId) (kc : KvCluster) : State :=
  (copyPages s k kc.copies).modPart p (fun x => { x with kv := x.kv.set lc { kc with copies := [] } })

theorem execCopyPhase_serves (hkv : (s.part p).kv[lc]? = some kc) (hk : physCluster (s.part p) lc = some k) (hstep : stepping s p = true)
    (hawake : (s.cluster k).selfRefresh = false) (hhouse : (s.part p).houseTodo.contains lc = false) :
    execCopyPhase p lc s = .next (copiesDone s p lc k kc) := by
  simp only [execCopyPhase, hkv, hk, hstep, hawake, hhouse]
  rfl

theorem copiesDone_noneLeft (hkv : (s.part p).kv[lc]? = some kc) : copiesPending ((copiesDone s p lc k kc).part p) lc = false := by
  have hlt : lc < (s.part p).kv.length := (List.getElem?_eq_some_iff.mp hkv).1
  have hpart := (copyPages_sameUnits (s := s) (k := k) kc.copies).part p
  simp [copiesDone, copiesPending, hpart, hlt]

end

/-! ### The house turn (05 R144) -/

/-- What the exports of partition `p` leave alone: the memory, the owner registers, the other partitions, and of `p` what its house turn
writes. -/
structure ExportKeeps (p : PartId) (s t : State) : Prop where
  mem : t.mem = s.mem
  owners : t.owners = s.owners
  others : ∀ p', p' ≠ p → t.part p' = s.part p'
  journal : (t.part p).journal = (s.part p).journal
  moved : (t.part p).houseMoved = (s.part p).houseMoved
  todo : (t.part p).houseTodo = (s.part p).houseTodo

section
variable {s t u : State} {p : PartId}

namespace ExportKeeps

theorem refl (p : PartId) (s : State) : ExportKeeps p s s := ⟨rfl, rfl, fun _ _ => rfl, rfl, rfl, rfl⟩

theorem trans (h : ExportKeeps p s t) (g : ExportKeeps p t u) : ExportKeeps p s u :=
  ⟨g.mem.trans h.mem, g.owners.trans h.owners, fun q hq => (g.others q hq).trans (h.others q hq), g.journal.trans h.journal,
    g.moved.trans h.moved, g.todo.trans h.todo⟩

/-- A state that has the memory, the owner registers and the partitions of `s`. -/
theorem ofView (h : (t.mem, t.owners, t.parts) = (s.mem, s.owners, s.parts)) : ExportKeeps p s t := by
  simp only [Prod.mk.injEq] at h
  obtain ⟨hmem, howners, hparts⟩ := h
  have hpart (q) : t.part q = s.part q := by unfold State.part; rw [hparts]
  exact ⟨hmem, howners, fun q _ => hpart q, by rw [hpart], by rw [hpart], by rw [hpart]⟩

/-- An update of other fields of the partition. -/
theorem modPart {f : Part → Part} (hj : ∀ x, (f x).journal = x.journal) (hm : ∀ x, (f x).houseMoved = x.houseMoved)
    (ht : ∀ x, (f x).houseTodo = x.houseTodo) : ExportKeeps p s (s.modPart p f) := by
  refine ⟨rfl, rfl, fun q hq => State.modPart_part_ne _ _ _ _ hq.symm, ?_, ?_, ?_⟩
  · rw [State.modPart_part, hj]
  · rw [State.modPart_part, hm]
  · rw [State.modPart_part, ht]

end ExportKeeps

theorem queueOn_view (s : State) (n : PortId) (owner : Option PartId) (f : Frame) :
    ((queueOn s n owner f).mem, (queueOn s n owner f).owners, (queueOn s n owner f).parts) = (s.mem, s.owners, s.parts) := by
  unfold queueOn
  split <;> rfl

theorem sendRequest_exportKeeps (r : StoreReq) : ExportKeeps p s (sendRequest s r) := by
  refine .ofView (foldl_view s (fun u => (u.mem, u.owners, u.parts)) (fun u f => ?_) _)
  split
  · exact queueOn_view ..
  · unfold sendFrame
    dsimp only
    split
    · exact queueOn_view ..
    · rfl

theorem openRequest_exportKeeps {use : StoreUse} {part queue store volume offset length : Nat} {data : Bytes} :
    ExportKeeps p s (openRequest s use part queue store volume offset length data) :=
  ExportKeeps.trans (t := noteRequest s (newRequest s use part queue store volume offset length data)) (.ofView rfl) (sendRequest_exportKeeps _)

theorem sealBlock_exportKeeps {key : Bytes} {block step : Nat} {data : Bytes} : ExportKeeps p s (sealBlock s key block step data).2 := .ofView rfl

theorem storeBlock_exportKeeps {use : StoreUse} {q block : Nat} {data : Bytes} : ExportKeeps p s (storeBlock s use p q block data) := by
  unfold storeBlock
  extract_lets x
  split
  case isTrue => exact .ofView rfl
  case isFalse c sent counted hroom =>
    have hcounted : ExportKeeps p s counted :=
      (sealBlock_exportKeeps.trans openRequest_exportKeeps).trans (.modPart (fun _ => rfl) (fun _ => rfl) fun _ => rfl)
    split
    · exact hcounted.trans (.ofView (by simp))
    · exact hcounted

theorem pumpOne_exportKeeps : ExportKeeps p s (pumpOne p s) := by
  unfold pumpOne
  dsimp only
  split
  · exact .refl p s
  · split
    · exact .refl p s
    · exact storeBlock_exportKeeps.trans (.modPart (fun _ => rfl) (fun _ => rfl) fun _ => rfl)

theorem pumpExport_exportKeeps : ExportKeeps p s (pumpExport p s) :=
  foldl_keep (P := ExportKeeps p s) (fun _ _ h => h.trans pumpOne_exportKeeps) (.refl p s)

/-- The partition after the house turn `r` of logical cluster `lc` (05 R144; log entry 133). -/
def housedPart (x : Part) (lc : Nat) (i : Image) (r : HouseRun) : Part :=
  let paid := if lc = 0 then min x.houseOwed r.room else 0
  let sent := if lc = 0 then min (exportOwed x) (r.room - paid) else 0
  { x with
    journal := r.entries
    houseMoved := r.moved
    houseOwed := x.houseOwed - paid
    exportPaid := x.exportPaid + sent
    houseUsed := assocSet lc (i.houseMib * 2 ^ 20 - (r.room - paid - sent)) x.houseUsed
    houseTodo := x.houseTodo.filter (fun c => c != lc) }

/-- The state once the pieces of a house turn are read and what it has moved is noted, before exports go. -/
def housedState (s : State) (p : PartId) (lc : Nat) (i : Image) (r : HouseRun) : State :=
  (r.pieces.foldl (fun s g => meetBank s g.1 g.2) s).setPart p (housedPart (s.part p) lc i r)

variable {lc : Nat} {k : ClusterId} {i : Image} {r : HouseRun}

theorem execHouseTurn_serves (hk : physCluster (s.part p) lc = some k) (himage : (s.part p).image = some i) (hstep : stepping s p = true)
    (hawake : (s.cluster k).selfRefresh = false)
    (hr : r = houseEntries s k (s.part p).step (i.houseMib * 2 ^ 20 - (assocGet lc (s.part p).houseUsed).getD 0) (s.part p).houseMoved
      (s.part p).journal) :
    execHouseTurn p lc s = .next (pumpExport p (housedState s p lc i r)) := by
  simp only [execHouseTurn, hk, himage, hstep, hawake, ← hr, housedState, housedPart, Bool.not_false, Bool.and_self, if_true]

theorem piecesRead_same (s : State) (pieces : List (Nat × Nat)) : SameBytes s (pieces.foldl (fun s g => meetBank s g.1 g.2) s) :=
  SameBytes.foldl (fun u g => meetBank_same u g.1 g.2) pieces s

theorem housedState_part : (housedState s p lc i r).part p = housedPart (s.part p) lc i r := State.setPart_part ..

theorem housedState_others {p' : PartId} (h : p' ≠ p) : (housedState s p lc i r).part p' = s.part p' := by
  have hparts := (piecesRead_same s r.pieces).parts
  rw [housedState, State.setPart_part_ne _ _ _ _ h.symm]
  unfold State.part
  rw [hparts]

theorem housedPart_todo (x : Part) : (housedPart x lc i r).houseTodo.contains lc = false := by simp [housedPart]

end

/-- Settles O33: the steps of a walk record answer what its lemma says and a record that is due is issued with them (`runWalk_done`);
the pages of a stage are read back one after the other (`stagePages_read`); reads that meet errors, moves and exports leave alone what
`SameUnits`, `SameBytes` and `ExportKeeps` say. Walk lists by entries from 65536 on are log entry 137, words that cannot be read log
entry 146, what else a house turn moves log entry 133, and that a command has its effect when it is issued log entry 34. -/
theorem walkAndCopyComplete : Obligations.WalkAndCopyComplete := by
  unfold Obligations.WalkAndCopyComplete
  intro s p lc k
  refine ⟨?stage, ?append, ?copy, ?house⟩
  case stage =>
    intro w a r hdue hready hhead hbank hk hawake hr
    subst hr
    have hsame : SameUnits s (stagePages s (s.part p) w k a (walkField w.record 6 2) (walkField w.record 8 1)).1 := stagePages_sameUnits
    exact ⟨runWalk_done hdue hready hhead (walkStageSteps_serves hbank hk hawake), stagePages_hbm, hsame.parts, hsame.owners,
      fun hwf i hi => stagePages_read hwf hi⟩
  case append =>
    intro w a n tr hdue hready hhead hn htr hbank hk
    refine ⟨fun hslot => runWalk_done hdue hready hhead (walkAppendSteps_empty hn htr hbank hk hslot), ?_⟩
    intro sq e m t hslot hawake he hm ht
    have hmeet : SameBytes s m := hm ▸ SameBytes.foldl (fun u x => appendMeet_same u (s.part p) w x) _ s
    have hview : (t.mem.banks, t.parts) = (m.mem.banks, m.parts) := by
      rw [ht]
      split
      · exact appendRecords_view ..
      · rfl
    rw [hmeet.banks, hmeet.parts] at hview
    obtain ⟨hbanks, hparts⟩ := Prod.mk.inj hview
    exact ⟨runWalk_done hdue hready hhead (ht ▸ walkAppendSteps_serves hn htr hbank hk hslot hawake he hm), hbanks, hparts, hmeet.hbm⟩
  case copy =>
    intro kc hkv hk hstep hawake hhouse
    have hsame : SameUnits s (copyPages s k kc.copies) := copyPages_sameUnits kc.copies
    refine ⟨copiesDone s p lc k kc, execCopyPhase_serves hkv hk hstep hawake hhouse, copiesDone_noneLeft hkv, rfl,
      copyPages_banks kc.copies, fun c => ?_, hsame.beats, fun p' hp' => ?_⟩
    · exact congrArg (fun cores => (cores.get c).work) (copyPages_cores kc.copies)
    · exact (State.modPart_part_ne _ _ _ _ hp'.symm).trans (hsame.part p')
  case house =>
    intro i room r hk himage hstep hawake hroom hr
    subst hroom
    have hpump : ExportKeeps p (housedState s p lc i r) (pumpExport p (housedState s p lc i r)) := pumpExport_exportKeeps
    have hread := piecesRead_same s r.pieces
    refine ⟨_, execHouseTurn_serves hk himage hstep hawake hr, ?_, ?_, ?_, ?_, ?_, ?_, fun p' hp' => ?_⟩
    · rw [hpump.journal, housedState_part]; rfl
    · rw [hpump.moved, housedState_part]; rfl
    · rw [hpump.todo, housedState_part, housedPart_todo]
    · rw [hpump.mem]; exact hread.banks
    · rw [hpump.mem]; exact hread.hbm
    · rw [hpump.owners]; exact hread.owners
    · rw [hpump.others p' hp', housedState_others hp']

end Sys2Proof.Machine

namespace Sys2Proof.Machine

/-! ## Adapter loads and video slots (O17) -/

/-- The version that an adapter-load order names is not above the current one of its adapter (08 R236). -/
def staleVersion (s : State) (t : Taken) : Bool :=
  match currentAdapter (s.part (t.part 0)) (t.field 2 2) with | some a => decide (t.field 8 8 ≤ a.version) | none => false

/-- The lowest adapter slot of an image that no entry of a partition holds. -/
def freeAdapterSlot (x : Part) (i : Image) : Option Nat := (List.range i.adapterSlots).find? (fun n => !x.adapters.any (fun a => a.slot == n))

/-- The entry of slot `n` that awaits the body an adapter-load order names. -/
def awaitedAdapter (t : Taken) (n : Nat) : Adapter :=
  { slot := n, ident := t.field 2 2, version := t.field 8 8, digest := BitVec.ofNat 384 (beNat (slice t.msg.body 16 48)), state := .awaiting,
    bound := 0, loadedAt := 0 }

/-- A partition's image declares more for the engine of die `d` than `w` gives the partition (09 R248). -/
def videoShort (s : State) (p : PartId) (d : DieId) (w : VidEngine) : Bool :=
  match (s.part p).image.bind (fun i => i.video[d.val]?) with | some g => !videoEnough w p g | none => false

section
variable {s : State} {t : Taken} {rest : List Taken} {i : Image} {p : PartId} {d : DieId} {w : VidEngine}

/-! ### ADAPTER_LOAD -/

theorem staleVersion_of_le {a : Adapter} (ha : currentAdapter (s.part (t.part 0)) (t.field 2 2) = some a) (hle : t.field 8 8 ≤ a.version) :
    staleVersion s t = true := by
  simp [staleVersion, ha, hle]

theorem staleVersion_eq_false (h : ∀ a, currentAdapter (s.part (t.part 0)) (t.field 2 2) = some a → a.version < t.field 8 8) :
    staleVersion s t = false := by
  unfold staleVersion
  split
  next a ha => simpa using h a ha
  next => rfl

/-- An adapter-load order for a partition without an image is refused (log entry 63). -/
theorem execAdapterLoad_noImage (h : firstDue s 0x27 t rest) (hi : (s.part (t.part 0)).image = none) :
    execAdapterLoad s = .next (answerBare (s.withDue rest) t 0x10) := by
  refine (onDue_first h rfl).trans ?_
  simp [hi]

/-- With an image the order is tested for its version first and for a free slot second (08 R236; log entry 63). -/
theorem execAdapterLoad_image (h : firstDue s 0x27 t rest) (hi : (s.part (t.part 0)).image = some i) :
    execAdapterLoad s = .next (
      if staleVersion s t then answerBare (s.withDue rest) t 0x09
      else (freeAdapterSlot (s.part (t.part 0)) i).elim (answerBare (s.withDue rest) t 0x0A) (fun n =>
        answer ((s.withDue rest).modPart (t.part 0) (fun x => { x with adapters := x.adapters ++ [awaitedAdapter t n] })) t 0x00 (leBytes 1 n))) := by
  refine (onDue_first h rfl).trans ?_
  simp only [State.withDue_part, hi, freeAdapterSlot]
  cases (List.range i.adapterSlots).find? (fun n => !(s.part (t.part 0)).adapters.any (fun a => a.slot == n)) <;> rfl

/-! ### VIDEO_SLOT -/

theorem videoShort_of_notEnough {g : VideoDecl} (hi : (s.part p).image = some i) (hg : i.video[d.val]? = some g)
    (hw : videoEnough w p g = false) : videoShort s p d w = true := by
  simp [videoShort, hi, hg, hw]

theorem videoShort_noImage (hi : (s.part p).image = none) : videoShort s p d w = false := by
  simp [videoShort, hi]

theorem videoShort_of_enough (h : ∀ i, (s.part p).image = some i → ∀ g, i.video[d.val]? = some g → videoEnough w p g = true) :
    videoShort s p d w = false := by
  unfold videoShort
  split
  next g hdecl =>
    obtain ⟨i, hi, hg⟩ := Option.bind_eq_some_iff.mp hdecl
    simp [h i hi g hg]
  next => rfl

/-- What a video-slot order's row does with the oldest order: it tests for a conflict first and for a shortage second (09 R248; log
entry 64). -/
theorem execVideoSlot_first (h : firstDue s 0x24 t rest) (hp : p = t.part 0) (hd : d = dieOfInst (t.field 1 1))
    (hw : w = videoAllot (s.engine d) p (t.field 2 1) (t.field 3 1) (t.field 4 1) (t.field 5 1) (t.field 8 8)) :
    execVideoSlot s = .next (
      if videoConflict (s.engine d) p (t.field 2 1) (t.field 3 1) (t.field 4 1) (t.field 5 1) (t.field 8 8) then answerBare (s.withDue rest) t 0x03
      else if ((s.part p).state == .armed || (s.part p).state == .running) && videoShort s p d w then answerBare (s.withDue rest) t 0x08
      else answerBare ((s.withDue rest).setEngine d w) t 0x00) := by
  subst hp hd hw
  exact onDue_first h rfl

end

/-- Settles O17: each row takes the oldest order and tests it in one order of causes (`execAdapterLoad_noImage`, `execAdapterLoad_image`,
`execVideoSlot_first`). The causes of an adapter load and their order are log entry 63, those of a video slot log entry 64. -/
theorem adapterAndVideoSlotOrders : Obligations.AdapterAndVideoSlotOrders := by
  unfold Obligations.AdapterAndVideoSlotOrders
  intro s t rest p hp
  subst hp
  refine ⟨fun h hi => execAdapterLoad_noImage h hi, fun i h hi => ⟨fun a ha hle => ?stale, fun hnew => ⟨fun n hn => ?slot, fun hn => ?full⟩⟩,
    fun d w h hd hw => ⟨fun hc => ?conflict, fun hc => ⟨fun i g hlive hi hg hfew => ?short, fun hok => ?allot⟩⟩⟩
  case stale =>
    exact (execAdapterLoad_image h hi).trans (by rw [staleVersion_of_le ha hle]; rfl)
  case slot =>
    have hfree : freeAdapterSlot (s.part (t.part 0)) i = some n := hn
    exact (execAdapterLoad_image h hi).trans (by rw [staleVersion_eq_false hnew, hfree]; rfl)
  case full =>
    have hfree : freeAdapterSlot (s.part (t.part 0)) i = none := hn
    exact (execAdapterLoad_image h hi).trans (by rw [staleVersion_eq_false hnew, hfree]; rfl)
  case conflict =>
    exact (execVideoSlot_first h rfl hd hw).trans (by rw [if_pos hc])
  case short =>
    have hshort : videoShort s (t.part 0) d w = true := videoShort_of_notEnough hi hg hfew
    exact (execVideoSlot_first h rfl hd hw).trans (by simp [hc, hlive, hshort])
  case allot =>
    refine (execVideoSlot_first h rfl hd hw).trans ?_
    obtain ⟨harm, hrun⟩ | hnone | henough := hok
    · simp [hc, harm, hrun]
    · simp [hc, videoShort_noImage hnone]
    · simp [hc, videoShort_of_enough henough]

end Sys2Proof.Machine

namespace Sys2Proof.Machine

/-! ## Video commands (O41) -/

/-! ### What the wait for slots and video turns changes (09 R246, R254) -/

section
variable {s : State} {p p' : PartId} {q : Nat} (d : DieId)

@[simp] theorem awaitVideo_mem : (awaitVideo s p q).mem = s.mem := by
  unfold awaitVideo
  dsimp only
  split <;> rfl

@[simp] theorem awaitVideo_clusters : (awaitVideo s p q).clusters = s.clusters := by
  unfold awaitVideo
  dsimp only
  split <;> rfl

theorem awaitVideo_part_ne (h : p ≠ p') : (awaitVideo s p q).part p' = s.part p' := by
  unfold awaitVideo
  dsimp only
  split <;> simp [State.modPart_part_ne _ _ _ _ h]

/-- No frame command is taken from the video turn. -/
@[simp] theorem awaitVideo_videoTaken : videoTaken ((awaitVideo s p q).part p) q = videoTaken (s.part p) q := by
  unfold awaitVideo
  dsimp only
  split <;> simp [videoTaken]

/-- Of an engine the contexts alone change. -/
theorem awaitVideo_engine : ∃ cs, (awaitVideo s p q).engine d = { s.engine d with contexts := cs } := by
  unfold awaitVideo
  dsimp only
  split
  next g _ =>
    by_cases hd : dieOfInst g.inst = d
    · subst hd
      exact ⟨_, State.modEngine_engine ..⟩
    · exact ⟨_, State.modEngine_engine_ne _ _ _ _ hd⟩
  next => exact ⟨_, rfl⟩

end

/-! ### What each command's steps answer -/

section
variable {s : State} {d : Due} {oc : Option VidContext} {c : VidContext} {a : Nat}

/-- A video command that starts and whose steps run is issued with what they give, and waits for its slots and its video turn. -/
theorem runVideo_done {p : PartId} {q opcode n e : Nat} {hand : Due → Option Handover} {steps : Due → State → Engine EngineOut} {t : State}
    (hstart : engineStarts s p q 6 opcode d) (hsteps : steps d s = .ok (.done t n e)) :
    runVideo s p q opcode hand steps = .next (awaitVideo (issue t d n e (hand d)) p q) := by
  unfold runVideo
  rw [runEngine_done hstart (op := fun d s => (steps d s).out) (congrArg Engine.out hsteps)]

/-- VCTX_SET of a descriptor in an owned bank (09 R250). -/
theorem vctxSteps_serves {die : DieId} {n : Nat} {b : Bytes} {base : State} {legal : Bool} (hdie : die = dieOfInst d.desc.inst)
    (hfree : engineFree s d.p die = true) (ha : vrefAddr (s.part d.p) (vrefOf (recField d.record 24 4)) = some a)
    (howned : vrefOwned s d.p (vrefOf (recField d.record 24 4)) 64 8 die.val = true) (hb : b = bankRead s a 64)
    (hn : n = engineCtx s d.p die (recField d.record 43 1))
    (hbase : base = (meetBank s a 64).modEngine die
      (fun v => useSlot { v with contexts := v.contexts.filter (fun c => c.ctx != n) } d.p d.desc.queue 256))
    (hlegal : legal = (descFields b && descPlaces base d.p die n b)) :
    vctxSteps d s = .ok (.done
      (if bankPoisoned base a 64 = false ∧ fieldAt b 0 1 ≠ 0xFF ∧ legal = true then
        base.modEngine die (fun v => { v with contexts := v.contexts ++ [newContext n d.p b] }) else base) 256
      (if bankPoisoned base a 64 then 0x02 else if fieldAt b 0 1 = 0xFF ∨ legal = true then 0 else 0x12)) := by
  simp only [vctxSteps, ha, ← hdie, howned, hfree, ← hb, ← hn, ← hbase, ← hlegal]
  by_cases hpoison : bankPoisoned base a 64 = true
  · simp [hpoison, pure, Except.pure]
  by_cases hclose : fieldAt b 0 1 = 0xFF
  · simp [hpoison, hclose, pure, Except.pure]
  · cases legal <;> simp [hpoison, hclose, pure, Except.pure]

/-- The state once a frame command has run its beats in the slot in progress, as far as the slot reaches (09 R245, R246). -/
def frameRun (s : State) (d : Due) (oc : Option VidContext) : State :=
  s.modEngine (dieOfInst d.desc.inst) (fun v => useSlot v d.p d.desc.queue (1024 + 128 * unitsOf oc))

section
variable (hfree : engineFree s d.p (dieOfInst d.desc.inst) = true)
  (hoc : oc = openContext s d.p (dieOfInst d.desc.inst) (recField d.record 43 1))
include hfree hoc

/-- VENC_FRAME of a closed context or of one that refuses it (09 R267). -/
theorem vencSteps_refused (hbarred : ∀ c, oc = some c → encodeBarred d.record c = true)
    (hout : regionOwned s d.p (vrefOf (recField d.record 28 4)) 64 (dieOfInst d.desc.inst) = true)
    (hres : regionOwned s d.p (vrefOf (recField d.record 32 4)) (resultBytes oc) (dieOfInst d.desc.inst) = true) :
    vencSteps d s = .ok (.done (encodeRefused (frameRun s d oc) d oc) (1024 + 128 * unitsOf oc) 0x12) := by
  simp only [vencSteps, ← hoc, hfree, hout, hres]
  cases oc with
  | none => rfl
  | some c =>
    simp only [hbarred c rfl]
    rfl

/-- VENC_FRAME of an open context that takes it: its picture is coded at its video turn. -/
theorem vencSteps_serves (hopen : oc = some c) (hbarred : encodeBarred d.record c = false)
    (hsrc : vrefOwned s d.p (vrefOf (recField d.record 24 4)) (sourceBytes c (bitOf (recField d.record 44 1) 1)) 8 (dieOfInst d.desc.inst).val = true)
    (hout : vrefOwned s d.p (vrefOf (recField d.record 28 4)) (round64 (32 + c.field 24 4)) 8 (dieOfInst d.desc.inst).val = true)
    (hres : vrefOwned s d.p (vrefOf (recField d.record 32 4)) (resultBytes oc) 8 (dieOfInst d.desc.inst).val = true)
    (ha : vrefAddr (s.part d.p) (vrefOf (recField d.record 24 4)) = some a) :
    vencSteps d s = .ok (.done (frameRun s d oc) (1024 + 128 * unitsOf oc) 0) := by
  subst hopen
  simp only [vencSteps, ← hoc, hfree, hbarred, hsrc, hout, hres, ha]
  rfl

/-- VDEC_FRAME of a closed context or of an encode's (09 R267). -/
theorem vdecSteps_refused (hother : ∀ c, oc = some c → c.field 1 1 ≠ 1)
    (hres : regionOwned s d.p (vrefOf (recField d.record 32 4)) (resultBytes oc) (dieOfInst d.desc.inst) = true) :
    vdecSteps d s = .ok (.done (refusedResult (frameRun s d oc) d oc 1 2 ((oc.map (fun c => c.frameNo)).getD 0))
      (1024 + 128 * unitsOf oc) 0x12) := by
  simp only [vdecSteps, ← hoc, hfree, hres]
  cases oc with
  | none => rfl
  | some c =>
    simp only [if_pos (hother c rfl)]
    rfl

/-- VDEC_FRAME of an open decode context: its access unit is decoded at its video turn. -/
theorem vdecSteps_serves (hopen : oc = some c) (hdir : c.field 1 1 = 1)
    (hinp : regionOwned s d.p (vrefOf (recField d.record 24 4)) (round64 (32 + c.field 24 4)) (dieOfInst d.desc.inst) = true)
    (hout : regionOwned s d.p (vrefOf (recField d.record 28 4)) c.pictureBytes (dieOfInst d.desc.inst) = true)
    (hres : regionOwned s d.p (vrefOf (recField d.record 32 4)) (resultBytes oc) (dieOfInst d.desc.inst) = true)
    (ha : vrefAddr (s.part d.p) (vrefOf (recField d.record 24 4)) = some a) :
    vdecSteps d s = .ok (.done (frameRun s d oc) (1024 + 128 * unitsOf oc) 0) := by
  subst hopen
  simp only [vdecSteps, ← hoc, hfree, hdir, hinp, hout, hres, ha]
  rfl

end

end

/-! ### What reading and writing for a picture leaves alone -/

theorem foundBank_video (s : State) (w : Nat) : (foundBank s w).video = s.video := by
  unfold foundBank
  dsimp only
  split <;> simp

theorem foundUnit_video (s : State) (w : Nat) : (foundUnit s w).video = s.video := by
  unfold foundUnit
  dsimp only
  split <;> simp

theorem meetBank_video (s : State) (a n : Nat) : (meetBank s a n).video = s.video := by
  unfold meetBank
  exact foldl_view _ State.video foundBank_video _

theorem meetStack_video (s : State) (a n : Nat) : (meetStack s a n).video = s.video := by
  unfold meetStack
  refine (foldl_view _ State.video foundUnit_video _).trans (foldl_view s State.video (fun u w => ?counted) _)
  case counted => rfl

/-- `t` has the video engines of `s`, and the units as far as `SameUnits` says. -/
structure SameEngines (s t : State) : Prop extends SameUnits s t where
  video : t.video = s.video

namespace SameEngines
variable {s t u : State}

theorem refl (s : State) : SameEngines s s := ⟨.refl s, rfl⟩

theorem trans (h : SameEngines s t) (g : SameEngines t u) : SameEngines s u := ⟨h.toSameUnits.trans g.toSameUnits, g.video.trans h.video⟩

theorem foldl {α : Type} {f : State → α → State} (hf : ∀ u a, SameEngines u (f u a)) (as : List α) (s : State) : SameEngines s (as.foldl f s) :=
  foldl_keep (P := SameEngines s) (fun _ _ h => h.trans (hf _ _)) (refl s)

theorem engine (h : SameEngines s t) (d : DieId) : t.engine d = s.engine d := by unfold State.engine; rw [h.video]

/-- A write in memory. -/
theorem ofMem {m : Mem} (h : memWf s.mem = true → memWf m = true) : SameEngines s { s with mem := m } := ⟨.ofMem h, rfl⟩

end SameEngines

section
variable (s : State) (p : PartId) (c : VidContext)

theorem meetBank_sameEngines (a n : Nat) : SameEngines s (meetBank s a n) := ⟨meetBank_sameUnits .., meetBank_video ..⟩

theorem meetStack_sameEngines (a n : Nat) : SameEngines s (meetStack s a n) := ⟨meetStack_sameUnits .., meetStack_video ..⟩

theorem writeRegion_sameEngines (r : VRef) (room : Nat) (bs : Bytes) : SameEngines s (writeRegion s p r room bs) := by
  unfold writeRegion
  split
  · exact .refl s
  · split
    · exact .ofMem bankWrite_wf
    · exact .refl s

theorem writeBuffer_sameEngines (picture : Option (Nat × Bytes)) : SameEngines s (writeBuffer s p c picture) := by
  unfold writeBuffer
  split
  · exact .ofMem stackWrite_wf
  · exact .refl s

theorem meetRefs_sameEngines (refs : List PoolEntry) : SameEngines s (meetRefs s p c refs) := by
  refine SameEngines.foldl (fun u e => ?_) refs s
  split
  · exact meetStack_sameEngines ..
  · exact .refl u

theorem outputEntry_sameEngines (d : Due) (e : PoolEntry) : SameEngines s (outputEntry s d c e).1 :=
  (meetRefs_sameEngines ..).trans (writeRegion_sameEngines ..)

/-- A region lies in the banks, and writing it changes no stack. -/
@[simp] theorem writeRegion_hbm (r : VRef) (room : Nat) (bs : Bytes) : (writeRegion s p r room bs).mem.hbm = s.mem.hbm := by
  unfold writeRegion
  split
  · rfl
  · split <;> rfl

@[simp] theorem refusedResult_hbm (d : Due) (oc : Option VidContext) (dir rflags no : Nat) :
    (refusedResult s d oc dir rflags no).mem.hbm = s.mem.hbm := writeRegion_hbm ..

@[simp] theorem encodeRefused_hbm (d : Due) (oc : Option VidContext) : (encodeRefused s d oc).mem.hbm = s.mem.hbm :=
  (refusedResult_hbm ..).trans (writeRegion_hbm ..)

/-- A context takes the place of the one with its number. -/
theorem modContext_contexts (die : DieId) (n : Nat) (f : VidContext → VidContext) :
    ((modContext s die n f).engine die).contexts = updFirst (fun x => x.ctx == n) f (s.engine die).contexts :=
  congrArg VidEngine.contexts (State.modEngine_engine ..)

theorem modContext_sameUnits (die : DieId) (n : Nat) (f : VidContext → VidContext) : SameUnits s (modContext s die n f) :=
  ⟨rfl, rfl, rfl, fun _ => ⟨_, rfl⟩, id⟩

end

/-! ### The result of a frame command of a closed context (09 R264, R267) -/

section
variable {s : State} {p : PartId} {d : Due} {r : VRef} {a room : Nat}

theorem writeRegion_reads {bs : Bytes} (hwf : memWf s.mem = true) (hpast : vrefPast r room = false) (ha : vrefAddr (s.part p) r = some a) :
    bankRead (writeRegion s p r room bs) a bs.length = bs := by
  have hwrite : writeRegion s p r room bs = bankWrite s a bs := by simp [writeRegion, hpast, ha]
  rw [hwrite, bankRead_bankWrite s a bs hwf]

theorem resultRecord_length (oc : Option VidContext) (codec dir rflags err frameNo auBytes qpf : Nat) (poc : Int) :
    (resultRecord oc codec dir rflags err frameNo auBytes qpf poc).length = 64 := by
  simp [resultRecord]

theorem encodeRefused_closed_reads (hwf : memWf s.mem = true) (hpast : vrefPast (vrefOf (recField d.record 32 4)) 64 = false)
    (ha : vrefAddr (s.part d.p) (vrefOf (recField d.record 32 4)) = some a) :
    bankRead (encodeRefused s d none) a 64 = resultRecord none 0 0 0 0x12 0 0 0 0 := by
  have hpayload := writeRegion_sameEngines s d.p (vrefOf (recField d.record 28 4)) 64 (unitPayload 0 0 0 [])
  have hreads := writeRegion_reads (bs := resultRecord none 0 0 0 0x12 0 0 0 0) (hpayload.wf hwf) hpast ((hpayload.part d.p).symm ▸ ha)
  rw [resultRecord_length] at hreads
  simpa [encodeRefused, refusedResult, resultBytes, bit] using hreads

end

/-! ### Coding a picture (09 R253, R263–R267) -/

section
variable {s : State} {p : PartId} {d : Due} {c : VidContext} {a : Nat}

/-- `t` is a context of the number and the descriptor of `c`, `n` frames further. -/
structure Further (n : Nat) (c t : VidContext) : Prop where
  frameNo : t.frameNo = c.frameNo + n
  desc : t.desc = c.desc
  ctx : t.ctx = c.ctx

theorem encodePicture_further {src : Bytes} {srcBad force : Bool} {gmv : Mv} :
    Further 1 c (encodePicture s p c src srcBad force gmv).1.ctx := by
  unfold encodePicture encodedContext
  dsimp only
  cases (ratePlan c force).idr <;> exact ⟨rfl, rfl, rfl⟩

theorem encodeErr_cases (e : Encoded × Bool) : encodeErr e = 0 ∨ encodeErr e = 2 ∨ encodeErr e = 0x14 := by
  unfold encodeErr
  split
  · exact .inr (.inl rfl)
  · split
    · exact .inr (.inr rfl)
    · exact .inl rfl

theorem decodeUnit_further {au : Bytes} {fault : Nat} {words : List Nat} : Further 1 c (decodeUnit s p c au fault words).ctx := by
  unfold decodeUnit
  dsimp only
  split <;> exact ⟨rfl, rfl, rfl⟩

/-- A flush decodes no frame (09 R266). -/
theorem decodeOf_further {i : DecodeIn} : Further (if i.flush then 0 else 1) c (decodeOf s p c i).ctx := by
  unfold decodeOf
  split
  · exact ⟨rfl, rfl, rfl⟩
  · exact decodeUnit_further

/-- An encode reads and writes in memory, and its context takes the place of the former. -/
theorem encodeStore_modContext (e : Encoded × Bool) : ∃ x, SameEngines s x ∧
    encodeStore s d c a e = modContext x (dieOfInst d.desc.inst) c.ctx (fun _ => e.1.ctx) :=
  ⟨_, ((((meetBank_sameEngines ..).trans (meetRefs_sameEngines ..)).trans (writeRegion_sameEngines ..)).trans
    (writeRegion_sameEngines ..)).trans (writeBuffer_sameEngines ..), rfl⟩

/-- So does a decode; the picture that goes out leaves the context's number of frames and descriptor alone. -/
theorem decodeStore_modContext (i : DecodeIn) (t : Decoded) : ∃ x c', SameEngines s x ∧ c'.desc = t.ctx.desc ∧ c'.frameNo = t.ctx.frameNo ∧
    (decodeStore s d c a i t).1 = modContext x (dieOfInst d.desc.inst) c.ctx (fun _ => c') := by
  unfold decodeStore
  extract_lets rel s1 s2 o err flags s3
  have hread : SameEngines s s1 := by
    unfold s1
    split
    · exact .refl s
    · exact (meetBank_sameEngines ..).trans (meetRefs_sameEngines ..)
  have hout : SameEngines s2 o.1 ∧ o.2.1.desc = t.ctx.desc ∧ o.2.1.frameNo = t.ctx.frameNo := by
    unfold o
    clear_value rel
    cases rel with
    | none => exact ⟨.refl s2, rfl, rfl⟩
    | some e => exact ⟨outputEntry_sameEngines .., rfl, rfl⟩
  obtain ⟨hsame, hdesc, hframe⟩ := hout
  exact ⟨s3, o.2.1, ((hread.trans (writeBuffer_sameEngines ..)).trans hsame).trans (writeRegion_sameEngines ..), hdesc, hframe, rfl⟩

theorem codeFrame_encode (ha : vrefAddr (s.part d.p) (vrefOf (recField d.record 24 4)) = some a) (hop : recOpcode d.record = 0x0601)
    (hbarred : encodeBarred d.record c = false) : codeFrame s d c = (encodeStore s d c a (encodeOf s d c a), encodeErr (encodeOf s d c a)) := by
  simp [codeFrame, ha, hop, hbarred]

theorem codeFrame_decode (ha : vrefAddr (s.part d.p) (vrefOf (recField d.record 24 4)) = some a) (hop : recOpcode d.record = 0x0602)
    (hdir : c.field 1 1 = 1) : codeFrame s d c = decodeStore s d c a (decodeIn s d c a) (decodeOf s d.p c (decodeIn s d c a)) := by
  simp [codeFrame, ha, hop, hdir]

end

/-- Settles O41: each command's steps answer what its lemma says, and a command that starts is issued with them (`runVideo_done`); it has
its effect when it is issued (log entry 34). What is coded follows from `codeFrame_encode` and `codeFrame_decode`: reads and writes for a
picture leave the engines alone (`SameEngines`), so that the picture's context (`Further`) takes its place among the others. Contexts are
log entry 69, refused commands and decodes log entry 66, the video turn and what is free of the codec log entry 67, what is presumed of
the standards log entry 134. -/
theorem videoCommandsComplete : Obligations.VideoCommandsComplete := by
  unfold Obligations.VideoCommandsComplete
  intro s p q d die oc packed out res hdie hfree hoc hpacked hout hres
  subst hdie hpacked hout hres
  refine ⟨?vctx, ?encodeRefused, ?decodeRefused, ?encode, ?decode, ?codeEncode, ?codeDecode⟩
  case vctx =>
    intro a n b base legal hstart ha howned hb hn hbase hlegal
    obtain rfl := engineStarts_part hstart
    exact runVideo_done hstart (vctxSteps_serves rfl hfree ha howned hb hn hbase hlegal)
  case encodeRefused =>
    intro hstart hbarred hout hres
    obtain rfl := engineStarts_part hstart
    refine ⟨_, runVideo_done hstart (vencSteps_refused hfree hoc hbarred hout hres), rfl, ?_, fun a hwf hclosed hpast ha => ?_⟩
    · simp [frameRun]
    · have hreads := encodeRefused_closed_reads (s := frameRun s d oc) hwf hpast ha
      subst hclosed
      simpa [bankRead] using hreads
  case decodeRefused =>
    intro hstart hother hres
    obtain rfl := engineStarts_part hstart
    exact ⟨_, runVideo_done hstart (vdecSteps_refused hfree hoc hother hres), rfl, by simp [frameRun]⟩
  case encode =>
    intro c a hstart hopen hbarred hsrc hout hres ha
    obtain rfl := engineStarts_part hstart
    exact runVideo_done hstart (vencSteps_serves hfree hoc hopen hbarred hsrc hout hres ha)
  case decode =>
    intro c a hstart hopen hdir hinp hout hres ha
    obtain rfl := engineStarts_part hstart
    exact runVideo_done hstart (vdecSteps_serves hfree hoc hopen hdir hinp hout hres ha)
  case codeEncode =>
    intro c a e hp ha hop hbarred he
    subst hp he
    obtain ⟨hframe, hdesc, hctx⟩ : Further 1 c (encodeOf s d c a).1.ctx := encodePicture_further
    obtain ⟨x, hsame, hstore⟩ := encodeStore_modContext (s := s) (d := d) (c := c) (a := a) (encodeOf s d c a)
    refine ⟨codeFrame_encode ha hop hbarred, encodeErr_cases _, hframe, hdesc, hctx, ?_⟩
    rw [hstore, modContext_contexts, hsame.engine]
  case codeDecode =>
    intro c a i t hp ha hop hdir hi ht
    subst hp hi ht
    obtain ⟨hframe, hdesc, hctx⟩ : Further _ c (decodeOf s d.p c (decodeIn s d c a)).ctx := decodeOf_further
    obtain ⟨x, c', hsame, hdesc', hframe', hstore⟩ :=
      decodeStore_modContext (s := s) (d := d) (c := c) (a := a) (decodeIn s d c a) (decodeOf s d.p c (decodeIn s d c a))
    have hcode := codeFrame_decode ha hop hdir
    refine ⟨hcode, hframe, hdesc, hctx, c', hdesc'.trans hdesc, hframe', ?_⟩
    rw [hcode, hstore, modContext_contexts, hsame.engine]

end Sys2Proof.Machine

namespace Sys2Proof.Machine

/-! ## Slot boundaries and video turns (O42) -/

/-! ### The slot boundary (09 R246–R248) -/

/-- Suspended commands of other partitions than the one whose slot is in progress: they have waited for the whole slot (09 R247). -/
def awayCommands (v : VidEngine) : List (Nat × Nat × Nat) :=
  v.suspended.filter (fun r => (v.owners.toList[v.slot]?.join).map (fun p => p.val) != some r.1)

/-- The engine in its next slot, before the slot's owner takes it up. -/
def slotEntered (v : VidEngine) : VidEngine :=
  { v with
    suspended := v.suspended ++ v.running.toList
    running := none
    slotUsed := 0
    slot := (v.slot + 1) % 64
    waiting := v.waiting + BitVec.ofNat 64 (65536 * (awayCommands v).length) }

/-- The same once the next plan is in force, which begins with slot 0 (09 R248). -/
def slotBegun (v : VidEngine) : VidEngine :=
  if (slotEntered v).slot = 0 then { slotEntered v with owners := v.ownersNext.getD v.owners, ownersNext := none } else slotEntered v

section
variable (v : VidEngine)

theorem slotBegun_slot : (slotBegun v).slot = (v.slot + 1) % 64 := by unfold slotBegun; split <;> rfl
theorem slotBegun_waiting : (slotBegun v).waiting = v.waiting + BitVec.ofNat 64 (65536 * (awayCommands v).length) := by
  unfold slotBegun; split <;> rfl
theorem slotBegun_suspended : (slotBegun v).suspended = v.suspended ++ v.running.toList := by unfold slotBegun; split <;> rfl

theorem slotBegun_newPlan (h : (v.slot + 1) % 64 = 0) :
    (slotBegun v).owners = v.ownersNext.getD v.owners ∧ (slotBegun v).ownersNext = none := by
  have hslot : (slotEntered v).slot = 0 := h
  rw [slotBegun, if_pos hslot]
  exact ⟨rfl, rfl⟩

theorem slotBegun_samePlan (h : (v.slot + 1) % 64 ≠ 0) : (slotBegun v).owners = v.owners := by
  have hslot : (slotEntered v).slot ≠ 0 := h
  rw [slotBegun, if_neg hslot]
  rfl

end

/-- `w` is the engine `v` when the owner of the slot in progress has taken up its suspended command, or has none. -/
structure TakenUp (v w : VidEngine) : Prop where
  slot : w.slot = v.slot
  owners : w.owners = v.owners
  ownersNext : w.ownersNext = v.ownersNext
  waiting : w.waiting = v.waiting
  suspended : ∀ r ∈ v.suspended, (∀ p : PartId, v.owners.toList[v.slot]? = some (some p) → p.val ≠ r.1) → r ∈ w.suspended

namespace TakenUp
variable {v : VidEngine}

theorem refl (v : VidEngine) : TakenUp v v := ⟨rfl, rfl, rfl, rfl, fun _ h _ => h⟩

/-- The contexts are another matter. -/
theorem withContexts {w : VidEngine} (h : TakenUp v w) (cs : List VidContext) : TakenUp v { w with contexts := cs } :=
  ⟨h.slot, h.owners, h.ownersNext, h.waiting, h.suspended⟩

/-- The owner's suspended command resumes (09 R246). -/
theorem resumed {p : PartId} (q n : Nat) (hp : v.owners.toList[v.slot]? = some (some p)) :
    TakenUp v (useSlot { v with suspended := v.suspended.filter (fun e => e.1 != p.val) } p q n) := by
  have hkept : ∀ r ∈ v.suspended, (∀ p : PartId, v.owners.toList[v.slot]? = some (some p) → p.val ≠ r.1) →
      r ∈ v.suspended.filter (fun e => e.1 != p.val) := fun r hr hother =>
    List.mem_filter.mpr ⟨hr, bne_iff_ne.mpr (hother p hp).symm⟩
  unfold useSlot
  dsimp only
  split <;> exact ⟨rfl, rfl, rfl, rfl, hkept⟩

end TakenUp

/-- `u` is `s` after engine `d` has gone on to its next slot: of the other engine, the contexts alone may differ. -/
structure SlotPassed (s u : State) (d : DieId) : Prop where
  mem : u.mem = s.mem
  engine : TakenUp (slotBegun (s.engine d)) (u.engine d)
  others : ∀ d', d' ≠ d → ∃ cs, u.engine d' = { s.engine d' with contexts := cs }

section
variable {s : State} {d : DieId}

theorem setEngine_slotPassed {w : VidEngine} (h : TakenUp (slotBegun (s.engine d)) w) : SlotPassed s (s.setEngine d w) d :=
  ⟨rfl, by rwa [State.setEngine_engine], fun _ hd => ⟨_, State.setEngine_engine_ne _ _ _ _ hd.symm⟩⟩

theorem SlotPassed.awaitVideo {u : State} (h : SlotPassed s u d) (p : PartId) (q : Nat) : SlotPassed s (Machine.awaitVideo u p q) d := by
  refine ⟨awaitVideo_mem.trans h.mem, ?_, fun d' hd => ?_⟩
  · obtain ⟨cs, hcs⟩ := awaitVideo_engine (s := u) (p := p) (q := q) d
    exact hcs ▸ h.engine.withContexts cs
  · obtain ⟨cs, hcs⟩ := awaitVideo_engine (s := u) (p := p) (q := q) d'
    obtain ⟨cs', hcs'⟩ := h.others d' hd
    exact ⟨cs, by rw [hcs, hcs']⟩

/-- The row passes the engine to the next slot, whatever its owner does there. -/
theorem execVideoSlotBoundary_passes : ∃ u, execVideoSlotBoundary d s = .next u ∧ SlotPassed s u d := by
  generalize hexec : execVideoSlotBoundary d s = o
  unfold execVideoSlotBoundary at hexec
  extract_lets v away entered begun at hexec
  have hidle : SlotPassed s (s.setEngine d begun) d := setEngine_slotPassed (.refl _)
  split at hexec
  next p hp =>
    split at hexec
    · exact ⟨_, hexec.symm, hidle⟩
    · split at hexec
      next r _ => exact ⟨_, hexec.symm, (setEngine_slotPassed (.resumed r.2.1 r.2.2 hp)).awaitVideo p r.2.1⟩
      next => exact ⟨_, hexec.symm, hidle⟩
  next => exact ⟨_, hexec.symm, hidle⟩

end

/-! ### The video turn (09 R254) -/

section
variable {s : State} {p : PartId} {q lc pos i : Nat} {r : CmdRecord} {c : VidContext} {qd : QueueDesc}

theorem execVideoTurn_noTurn (h : videoDue s p q = none ∨ turnCommand (s.part p) q = none) : execVideoTurn p q s = .next s := by
  unfold execVideoTurn
  split
  next hdue hturn => simp [hdue, hturn] at h
  next => rfl

section
variable (hdesc : descOf (s.part p) q = some qd) (hcls : qd.cls = 6) (hdue : videoDue s p q = some (lc, pos))
  (hturn : turnCommand (s.part p) q = some (i, r))
include hdesc hcls hdue hturn

theorem execVideoTurn_closed (hclosed : openContext s p (dieOfInst qd.inst) (recField r 43 1) = none) :
    execVideoTurn p q s = .next (awaitVideo (s.modPart p (fun x => turnPassed x q lc pos)) p q) := by
  simp [execVideoTurn, hdesc, hcls, hdue, hturn, hclosed]

variable (hopen : openContext s p (dieOfInst qd.inst) (recField r 43 1) = some c)
include hopen

theorem execVideoTurn_waits (hserve : buffersServe s p c = false) : execVideoTurn p q s = .next (waits s p 5 lc) := by
  simp [execVideoTurn, hdesc, hcls, hdue, hturn, hopen, hserve]

theorem execVideoTurn_codes {t : State × Nat} (hserve : buffersServe s p c = true)
    (ht : t = codeFrame (countBeats (s.modPart p (fun x => turnPassed x q lc pos)) p 5 (c.field 32 1) (pictureBeats c r) 0)
      { p := p, desc := qd, record := r, index := i, next := pos } c) :
    execVideoTurn p q s = .next (awaitVideo (t.1.modPart p (fun x => frameError x q i t.2)) p q) := by
  simp [execVideoTurn, hdesc, hcls, hdue, hturn, hopen, hserve, ht]

end

/-- The turn counts its frame command. -/
theorem turnPassed_videoTaken (x : Part) (q lc pos : Nat) : videoTaken (turnPassed x q lc pos) q = videoTaken x q + 1 := by
  simp [videoTaken, turnPassed, setTurn, assocGet_assocSet]

/-- Work beats of a transfer engine stand in its cluster (01 R15). -/
theorem countBeats_transfer {k : ClusterId} {n w v : Nat} (hk : physCluster (s.part p) n = some k) :
    countBeats s p 5 n w v = s.modCluster k (fun c => { c with beats := c.beats + BitVec.ofNat 64 w, waiting := c.waiting + BitVec.ofNat 64 v }) := by
  simp [countBeats, hk]

/-- The state that a video turn codes its picture in: the turn has passed and the pictures have taken their beats. -/
def turnTaken (s : State) (p : PartId) (q lc pos : Nat) (c : VidContext) (r : CmdRecord) : State :=
  countBeats (s.modPart p (fun x => turnPassed x q lc pos)) p 5 (c.field 32 1) (pictureBeats c r) 0

section
variable {k : ClusterId} (hk : physCluster (s.part p) (c.field 32 1) = some k)
include hk

theorem turnTaken_eq : turnTaken s p q lc pos c r = (s.modPart p (fun x => turnPassed x q lc pos)).modCluster k
    (fun g => { g with beats := g.beats + BitVec.ofNat 64 (pictureBeats c r), waiting := g.waiting + BitVec.ofNat 64 0 }) := by
  refine countBeats_transfer ?_
  rw [State.modPart_part]
  exact hk

theorem turnTaken_beats : ((turnTaken s p q lc pos c r).cluster k).beats = (s.cluster k).beats + BitVec.ofNat 64 (pictureBeats c r) := by
  rw [turnTaken_eq hk, State.modCluster_cluster]
  rfl

theorem turnTaken_videoTaken : videoTaken ((turnTaken s p q lc pos c r).part p) q = videoTaken (s.part p) q + 1 := by
  rw [turnTaken_eq hk, State.modCluster_part', State.modPart_part, turnPassed_videoTaken]

theorem turnTaken_part_ne {p' : PartId} (h : p' ≠ p) : (turnTaken s p q lc pos c r).part p' = s.part p' := by
  rw [turnTaken_eq hk, State.modCluster_part', State.modPart_part_ne _ _ _ _ h.symm]

end

/-- Coding a picture touches the memory and its context, and leaves the partitions and the beats alone. -/
theorem codeFrame_sameUnits (s : State) (d : Due) (c : VidContext) : SameUnits s (codeFrame s d c).1 := by
  unfold codeFrame
  split
  · exact .refl s
  next a _ =>
    split
    · split
      · exact .refl s
      · obtain ⟨x, hsame, hstore⟩ := encodeStore_modContext (s := s) (d := d) (c := c) (a := a) (encodeOf s d c a)
        exact hstore ▸ hsame.toSameUnits.trans (modContext_sameUnits ..)
    · split
      · exact .refl s
      · obtain ⟨x, c', hsame, -, -, hstore⟩ :=
          decodeStore_modContext (s := s) (d := d) (c := c) (a := a) (decodeIn s d c a) (decodeOf s d.p c (decodeIn s d c a))
        exact hstore ▸ hsame.toSameUnits.trans (modContext_sameUnits ..)

end

/-- Settles O42: a slot boundary passes to the next slot (`execVideoSlotBoundary_passes`), which its owner takes up (`TakenUp`); the row of
a video turn answers what its lemma says, and coding the picture leaves the partitions and the beats alone (`codeFrame_sameUnits`). The
turns of a closed context and without the stack are log entry 67, video turns in a turn list log entry 137, and a row without an occasion
log entry 26. -/
theorem videoSlotsAndTurns : Obligations.VideoSlotsAndTurns := by
  unfold Obligations.VideoSlotsAndTurns
  intro s d p q
  refine ⟨?slot, execVideoTurn_noTurn, ?turn, ?closed⟩
  case slot =>
    obtain ⟨u, hexec, hmem, ⟨hslot, howners, hnext, hwaiting, hsuspended⟩, hothers⟩ := execVideoSlotBoundary_passes (s := s) (d := d)
    refine ⟨u, hexec, hslot.trans (slotBegun_slot _), hmem, fun d' hd => ?_, fun h0 => ?_, fun h0 => ?_, hwaiting.trans (slotBegun_waiting _),
      fun r hr hother => ?_⟩
    · obtain ⟨cs, hcs⟩ := hothers d' hd
      rw [hcs]
      exact ⟨rfl, rfl, rfl, rfl, rfl⟩
    · obtain ⟨hplan, hnone⟩ := slotBegun_newPlan (s.engine d) h0
      exact ⟨howners.trans hplan, hnext.trans hnone⟩
    · exact howners.trans (slotBegun_samePlan _ h0)
    · refine hsuspended r ?_ (howners ▸ hslot ▸ hother)
      simp [slotBegun_suspended, hr]
  case turn =>
    intro qd lc pos i r c k t hdesc hcls hdue hturn hopen hk
    refine ⟨execVideoTurn_waits hdesc hcls hdue hturn hopen, fun hserve ht => ?_⟩
    have hsame : SameUnits (turnTaken s p q lc pos c r) t.1 := ht ▸ codeFrame_sameUnits ..
    refine ⟨_, execVideoTurn_codes hdesc hcls hdue hturn hopen hserve ht, rfl, ?_, by simp, ?_, fun p' hp' => ?_⟩
    · have htaken : videoTaken (frameError (t.1.part p) q i t.2) q = videoTaken (t.1.part p) q := rfl
      rw [awaitVideo_videoTaken, State.modPart_part, htaken, hsame.part, turnTaken_videoTaken hk]
    · have hbeats := (hsame.beats k).trans (turnTaken_beats hk)
      simpa [State.cluster, pictureBeats] using hbeats
    · rw [awaitVideo_part_ne hp'.symm, State.modPart_part_ne _ _ _ _ hp'.symm, hsame.part, turnTaken_part_ne hk hp']
  case closed =>
    intro qd lc pos i r hdesc hcls hdue hturn hclosed
    refine ⟨_, execVideoTurn_closed hdesc hcls hdue hturn hclosed, rfl, ?_, by simp⟩
    rw [awaitVideo_videoTaken, State.modPart_part, turnPassed_videoTaken]

end Sys2Proof.Machine

namespace Sys2Proof.Machine

/-! ## Orders about events and stream bindings (O48) -/

section
variable {s : State} {t : Taken} {rest : List Taken} {x : I3cId}

/-! ### A row whose order is not due -/

/-- No taken message of a list is picked. -/
theorem takeFirst_none {f : Taken → Bool} {ts : List Taken} (h : ∀ t ∈ ts, f t = false) : takeFirst f ts = none := by
  induction ts with
  | nil => rfl
  | cons t ts ih => simp [takeFirst, h t List.mem_cons_self, ih fun u hu => h u (List.mem_cons_of_mem _ hu)]

/-- Without a due order of its type a row changes nothing (log entry 26). -/
theorem onDue_noneOfType {typ : Nat} {ok : Msg → Bool} {f : Taken → State → State} (h : ∀ t ∈ s.orders.due, t.msg.typ ≠ typ) :
    onDue s typ ok f = .next s := by
  have hnone : takeFirst (fun t => t.msg.typ == typ && ok t.msg) s.orders.due = none := takeFirst_none fun t ht => by simp [h t ht]
  simp [onDue, hnone]

/-! ### EVT_COPY (19 R477) and CSI_TIMEOUT -/

/-- A copy order turns the port's copy on. -/
theorem execEvtCopy_first (h : firstDue s 0x60 t rest) (ha : t.field 0 1 = 1) :
    execEvtCopy s = .next (answerBare ((s.withDue rest).modPort t.port (fun q => { q with
      copyOn := true
      cursor := max (t.field 8 8) (oldestHeld s.events)
      log := match q.log with | some (true, a, n, bs) => some (true, a, n, bs) | _ => none
      logAt := 0 })) t 0x00) :=
  onDue_first h (beq_iff_eq.mpr ha)

theorem execEvtCopyStop_first (h : firstDue s 0x60 t rest) (ha : t.field 0 1 = 2) :
    execEvtCopyStop s = .next (answerBare ((s.withDue rest).modPort t.port (fun q => { q with copyOn := false })) t 0x00) :=
  onDue_first h (beq_iff_eq.mpr ha)

theorem execCsiTimeout_first (h : firstDue s 0x23 t rest) :
    execCsiTimeout s = .next (answerBare ((s.withDue rest).modCsi (fun c => { c with timeout := t.field 0 4 })) t 0x00) :=
  onDue_first h rfl

/-! ### LOG_MESSAGE_FILL (19 R477–R479) -/

/-- The oldest record that a port's copy has not taken and the ring still holds. -/
def logFirst (s : State) (x : I3cId) : Nat := max (s.port x).cursor (oldestHeld s.events)

/-- A port takes records: its copy is on, its log mailbox is empty, and the ring has records for it. -/
def logFills (s : State) (x : I3cId) : Bool :=
  s.events.openRing && (s.port x).copyOn && (s.port x).log.isNone && decide (logFirst s x < s.events.written)

theorem execLogMessageFill_fills (h : logFills s x = true) :
    execLogMessageFill x s = .next (s.modPort x (fun q => { q with
      cursor := logFirst s x
      logAt := 0
      log := some (false, logFirst s x, (recordsFrom s.events (logFirst s x) 127).length,
        logMessage (s.source (srcI3c x)) s.stamp (logFirst s x + (recordsFrom s.events (logFirst s x) 127).length < s.events.written)
          (logFirst s x) (recordsFrom s.events (logFirst s x) 127)) })) := if_pos h

theorem execLogMessageFill_takesNone (h : logFills s x = false) : execLogMessageFill x s = .next s := if_neg (Bool.not_eq_true _ ▸ h)

/-! ### EVT_MIRROR (10 R272; 19 R480) -/

/-- The mirror on port `k` that a mirror order spells, with its cursor at 0 (log entry 141). -/
def mirrorNamed (t : Taken) (k : PortId) : Mirror :=
  { port := k, vc := t.field 5 1, lanes := t.field 6 1, laneMbps := t.field 8 2, lineBytes := t.field 10 2, maxBytes := t.field 12 4,
    minInterval := t.field 20 4, cursor := 0, lastStart := none }

theorem execEvtMirror_off (h : firstDue s 0x61 t rest) (hoff : t.field 1 1 = 0xFF) :
    execEvtMirror s = .next (answerBare ((s.withDue rest).modEvents (fun v => { v with mirror := none })) t 0x00) := by
  refine (onDue_first h rfl).trans ?_
  simp only [if_pos hoff]

/-- What the row does with a mirror order that names a port: it tests the port's streams first and its rate second. -/
theorem execEvtMirror_names {k : PortId} (h : firstDue s 0x61 t rest) (hon : t.field 1 1 ≠ 0xFF) (hk : k.val = t.field 4 1 % 16) :
    execEvtMirror s = .next (
      if s.csi.bindings.any (fun c => c.transmit && c.port.val == t.field 4 1 % 16) then answerBare (s.withDue rest) t 0x03
      else if rateExceeded (t.field 6 1) (t.field 8 2) [(t.field 12 4, t.field 10 2, t.field 20 4)] then answerBare (s.withDue rest) t 0x05
      else answerBare ((s.withDue rest).modEvents (fun v => { v with mirror := some (mirrorNamed t k) })) t 0x00) := by
  obtain rfl : k = ⟨t.field 4 1 % 16, Nat.mod_lt _ (by decide)⟩ := Fin.ext hk
  refine (onDue_first h rfl).trans ?_
  have hport : (fun c : Binding => c.transmit && c.port == ⟨t.field 4 1 % 16, Nat.mod_lt _ (by decide)⟩) =
      (fun c => c.transmit && c.port.val == t.field 4 1 % 16) := by
    funext c
    rw [Bool.eq_iff_iff]
    simp [Fin.ext_iff]
  simp only [if_neg hon, State.withDue_csi, hport]
  rfl

/-! ### STREAM_BIND (10 R270, R271) -/

theorem execStreamBind_running (h : firstDue s 0x22 t rest) (hrun : (s.part (t.part 0)).state = .running) :
    execStreamBind s = .next (answerBare (s.withDue rest) t 0x01) := by
  refine (onDue_first h rfl).trans ?_
  simp only [State.withDue_part, if_pos hrun]

theorem execStreamBind_off (h : firstDue s 0x22 t rest) (hstopped : (s.part (t.part 0)).state ≠ .running) (hoff : t.field 1 1 = 0xFF) :
    execStreamBind s = .next (answerBare (unbind (s.withDue rest) (t.part 0) (t.field 2 2) (fun _ => true)) t 0x00) := by
  refine (onDue_first h rfl).trans ?_
  simp only [State.withDue_part, if_neg hstopped, if_pos hoff]

/-- What the row does with a stream-bind order of a partition that does not run: it tests for a conflict first and the rate second. -/
theorem execStreamBind_binds {b : Binding} (h : firstDue s 0x22 t rest) (hstopped : (s.part (t.part 0)).state ≠ .running) (hon : t.field 1 1 ≠ 0xFF)
    (hb : b = bindingFrom s t (t.part 0)) :
    execStreamBind s = .next (
      if bindConflict s b then answerBare (s.withDue rest) t 0x03
      else if b.transmit && rateExceeded b.lanes b.laneMbps (portStreams s b) then answerBare (s.withDue rest) t 0x05
      else answerBare ((unbind (s.withDue rest) b.part b.stream (fun c => c.transmit == b.transmit)).modCsi
        (fun c => { c with bindings := c.bindings ++ [b] })) t 0x00) := by
  subst hb
  refine (onDue_first h rfl).trans ?_
  simp only [State.withDue_part, if_neg hstopped, if_neg hon]
  rfl

/-! ### MIRROR_FRAME (19 R480) -/

/-- The first record of the next mirror frame, and the records that it carries. -/
def mirrorFirst (s : State) (m : Mirror) : Nat := max m.cursor (oldestHeld s.events)
def mirrorRecords (s : State) (m : Mirror) : List Event := recordsFrom s.events (mirrorFirst s m) ((m.maxBytes - 32) / 32)

/-- The payload of the next mirror frame. -/
def mirrorPayload (s : State) (m : Mirror) : Bytes :=
  leBytes 4 0x524D5645 ++ leBytes 4 (mirrorRecords s m).length ++ leBytes 8 (mirrorFirst s m) ++ zeros 16 ++ (mirrorRecords s m).flatMap eventBytes

/-- `s` at the start of the next mirror frame. -/
def mirrorStart (s : State) (m : Mirror) : State :=
  s.reach (max (s.csi.tx.get m.port).endAt (match m.lastStart with | some l => l + us m.minInterval | none => 0))

theorem mirrorStart_now (s : State) (m : Mirror) : (mirrorStart s m).now =
    max s.now (max (s.csi.tx.get m.port).endAt (match m.lastStart with | some l => l + 1000 * m.minInterval | none => 0)) := by
  simp only [Nat.mul_comm 1000]
  rfl

@[simp] theorem State.reach_source (u : Ns) (n : Nat) : (s.reach u).source n = s.source n := rfl

theorem execMirrorFrame_idle {m : Mirror} (hm : s.events.mirror = some m)
    (h : mirrorRecords s m = [] ∨ s.csi.stopped = true ∨ s.power.state = .off) : execMirrorFrame s = .next s := by
  unfold execMirrorFrame
  rw [hm]
  refine if_pos ?_
  simpa [mirrorRecords, mirrorFirst, or_assoc] using h

/-- The header line of the next mirror frame (10 R285). -/
def mirrorHeader (s : State) (m : Mirror) : Bytes :=
  headerLine 0xFF (bit s.time.unsure) 0 0x36 0 0 (mirrorStart s m).stamp (s.source (0x60 + m.port.val)) (mirrorPayload s m).length
    (crc32c (mirrorPayload s m)) 0

/-- The number of the next frame on the mirror's virtual channel. -/
def mirrorNumber (s : State) (m : Mirror) : Nat := (s.csi.tx.get m.port).numbers.get ⟨m.vc % 32, by omega⟩

/-- `s` once the next mirror frame has been driven out: the port is taken for its time on the wire (log entry 147), and the cursor stands
past the records sent. -/
def mirrorSent (s : State) (m : Mirror) : State :=
  (((mirrorStart s m).emit (.csiFrame m.port m.vc (mirrorNumber s m) (mirrorStart s m).stamp (mirrorHeader s m) 0x36
      (payloadLines m.lineBytes (mirrorPayload s m)))).modTx m.port (fun t => { t with
        frames := t.frames + 1, numbers := t.numbers.set (m.vc % 32) (nextNumber (mirrorNumber s m)) (by omega)
        endAt := (mirrorStart s m).now + wireTime m.lanes m.laneMbps m.lineBytes (mirrorPayload s m).length })).modEvents (fun v => { v with
          mirrorFrames := satAdd 16 v.mirrorFrames 1
          mirror := some { m with cursor := mirrorFirst s m + (mirrorRecords s m).length, lastStart := some (mirrorStart s m).now } })

theorem execMirrorFrame_sends {m : Mirror} (hm : s.events.mirror = some m) (hnew : mirrorRecords s m ≠ []) (hrun : s.csi.stopped = false)
    (hon : s.power.state ≠ .off) : execMirrorFrame s = .next (mirrorSent s m) := by
  unfold execMirrorFrame
  rw [hm]
  refine (if_neg ?_).trans ?_
  · simpa [hrun, hon, mirrorRecords, mirrorFirst] using hnew
  · unfold mirrorSent mirrorHeader mirrorPayload mirrorRecords mirrorFirst mirrorNumber mirrorStart
    rfl

end

/-- Settles O48: each row takes the oldest order and tests it in one order of causes (`execEvtMirror_names`, `execStreamBind_binds`), a port
takes records where `logFills`, and a mirror frame leaves `mirrorSent`. The cursor of a mirror bound at 0 is log entry 141, its port's time
on the wire log entry 147, the time of a row's deadline log entry 10, and a row without an occasion log entry 26. -/
theorem eventAndBindOrdersAct : Obligations.EventAndBindOrdersAct := by
  unfold Obligations.EventAndBindOrdersAct
  intro s
  refine ⟨fun t rest => execEvtCopy_first, fun t rest => execEvtCopyStop_first, ?logFills, ?logIdle,
    fun t rest => execEvtMirror_off, ?mirrorOn, ?noMirror, ?mirrorIdle, ?mirrorSends, fun t rest => execStreamBind_running,
    fun t rest => execStreamBind_off, ?binds, fun t rest => execCsiTimeout_first,
    fun h => ⟨?evtCopy, ?evtCopyStop⟩, fun h => ?evtMirror, fun h => ?streamBind, fun h => ?csiTimeout⟩
  case logFills =>
    intro x hring hcopy hlog hnew
    have hfills : logFills s x = true := by simp [logFills, logFirst, hring, hcopy, hlog, hnew]
    have hport : ∀ f : I3cPort → I3cPort, (s.modPort x f).port x = f (s.port x) := fun f => State.modPort_port s x f
    exact ⟨_, _, _, execLogMessageFill_fills hfills, rfl, rfl, congrArg I3cPort.log (hport _), congrArg I3cPort.cursor (hport _),
      congrArg I3cPort.logAt (hport _), rfl, rfl, rfl, rfl, fun y hy => State.modPort_port_ne _ _ _ _ hy.symm⟩
  case logIdle =>
    intro x h
    refine execLogMessageFill_takesNone ?_
    simp only [logFills, logFirst]
    obtain h | h | h | h := h
    · simp [h]
    · simp [h]
    · simp [Option.isNone_eq_false_iff.mpr h]
    · simp [Nat.not_lt.mpr h]
  case mirrorOn =>
    intro t rest h hon
    have hexec := execEvtMirror_names (k := ⟨t.field 4 1 % 16, by omega⟩) h hon rfl
    refine ⟨fun hstream => hexec.trans (by rw [if_pos hstream]), fun hstream => ⟨fun hrate => ?_, fun hrate k m hk hm => ?_⟩⟩
    · exact hexec.trans (by rw [hstream, hrate]; rfl)
    · subst hm
      exact (execEvtMirror_names h hon hk).trans (by rw [hstream, hrate]; rfl)
  case noMirror =>
    intro hm
    show execMirrorFrame s = .next s
    unfold execMirrorFrame
    rw [hm]
  case mirrorIdle =>
    rintro m es hm rfl h
    exact execMirrorFrame_idle hm h
  case mirrorSends =>
    rintro m es body hm rfl hnew hrun hon rfl
    refine ⟨_, _, mirrorNumber s m, execMirrorFrame_sends hm hnew hrun hon, mirrorStart_now s m, ?_, rfl, rfl, rfl, rfl, rfl, rfl, rfl⟩
    exact congrArg TxPort.endAt (vget_set_self _ _ _)
  case binds =>
    intro t rest b h hstopped hon hb
    have hexec := execStreamBind_binds h hstopped hon hb
    refine ⟨fun hc => hexec.trans (by rw [if_pos hc]), fun hc ht hrate => hexec.trans (by rw [hc, ht, hrate]; rfl), fun hc hfits => hexec.trans ?_⟩
    have hrate : (b.transmit && rateExceeded b.lanes b.laneMbps (portStreams s b)) = false := by
      obtain ht | hrate := hfits
      · rw [ht, Bool.false_and]
      · rw [hrate, Bool.and_false]
    rw [hc, hrate]
    rfl
  case evtCopy => exact (onDue_noneOfType h : execEvtCopy s = .next s)
  case evtCopyStop => exact (onDue_noneOfType h : execEvtCopyStop s = .next s)
  case evtMirror => exact (onDue_noneOfType h : execEvtMirror s = .next s)
  case streamBind => exact (onDue_noneOfType h : execStreamBind s = .next s)
  case csiTimeout => exact (onDue_noneOfType h : execCsiTimeout s = .next s)

end Sys2Proof.Machine

namespace Sys2Proof.Machine

/-! ## Frames of receive ports (O44) -/

/-! ### What a receive row leaves alone -/

section
variable {s t u : State} {p : PartId} {n n' : PortId} {rf : RxPort → RxPort}

@[simp] theorem State.modRx_get : (s.modRx n rf).csi.rx.get n = rf (s.csi.rx.get n) := vget_set_self _ _ _
theorem State.modRx_get_ne (h : n ≠ n') : (s.modRx n rf).csi.rx.get n' = s.csi.rx.get n' := vget_set_ne _ _ _ _ h
@[simp] theorem State.modRx_bindings : (s.modRx n rf).csi.bindings = s.csi.bindings := rfl

theorem sendFrame_view (owner : Option PartId) (f : Frame) : ((sendFrame s owner f).csi, (sendFrame s owner f).mem) = (s.csi, s.mem) := by
  unfold sendFrame queueOn
  dsimp only
  split
  · split <;> rfl
  · rfl

theorem sendMessage_view (i typ ring msg : Nat) (payload : Bytes) :
    ((sendMessage s p i typ ring msg payload).csi, (sendMessage s p i typ ring msg payload).mem) = (s.csi, s.mem) := by
  unfold sendMessage
  refine foldl_view s (fun u => (u.csi, u.mem)) (fun u c => ?_) _
  dsimp only
  split
  · split
    · rfl
    · exact sendFrame_view ..
  · rfl

theorem copyOut_view : ((copyOut s p).csi, (copyOut s p).mem) = (s.csi, s.mem) := by
  unfold copyOut
  split
  · rfl
  · split
    · rfl
    · refine foldl_view s (fun u => (u.csi, u.mem)) (fun u e => ?_) _
      split
      · exact sendMessage_view ..
      · rfl

@[simp] theorem copyOut_csi : (copyOut s p).csi = s.csi := congrArg Prod.fst copyOut_view
@[simp] theorem copyOut_mem : (copyOut s p).mem = s.mem := congrArg Prod.snd copyOut_view

/-- `t` binds what `s` binds, and its receive ports hold lane sync, or have lost it, as those of `s`. -/
structure SamePorts (s t : State) : Prop where
  bindings : t.csi.bindings = s.csi.bindings
  sync : ∀ n, (t.csi.rx.get n).sync = (s.csi.rx.get n).sync
  lost : ∀ n, (t.csi.rx.get n).lost = (s.csi.rx.get n).lost

namespace SamePorts

theorem ofCsi (h : t.csi = s.csi) : SamePorts s t := ⟨by rw [h], fun _ => by rw [h], fun _ => by rw [h]⟩

theorem refl (s : State) : SamePorts s s := ofCsi rfl

theorem trans (h : SamePorts s t) (g : SamePorts t u) : SamePorts s u :=
  ⟨g.bindings.trans h.bindings, fun n => (g.sync n).trans (h.sync n), fun n => (g.lost n).trans (h.lost n)⟩

/-- A count of a receive port moves. -/
theorem modRx (hsync : ∀ r, (rf r).sync = r.sync) (hlost : ∀ r, (rf r).lost = r.lost) : SamePorts s (s.modRx n rf) := by
  refine ⟨rfl, fun m => ?_, fun m => ?_⟩ <;> by_cases h : n = m
  · subst h; rw [State.modRx_get, hsync]
  · rw [State.modRx_get_ne h]
  · subst h; rw [State.modRx_get, hlost]
  · rw [State.modRx_get_ne h]

end SamePorts

theorem countBadLine_samePorts : SamePorts s (countBadLine s n) := .modRx (fun _ => rfl) (fun _ => rfl)

theorem putMarked_samePorts (a : Nat) (bs : Bytes) (bad : Bool) : SamePorts s (putMarked s a bs bad) := by
  unfold putMarked
  dsimp only
  split
  · exact .ofCsi (foldl_view (bankWrite s a bs) State.csi (f := fun u i => bankMark u (a / 64 + i)) (fun _ _ => rfl) _)
  · exact .ofCsi rfl

variable (b : Binding) (f : OpenFrame)

theorem putLine_samePorts (line : Bytes) (bad : Bool) : SamePorts s (putLine s b f line bad).1 := by
  unfold putLine
  dsimp only
  split
  · exact .refl s
  · split
    · exact .refl s
    · split
      · exact countBadLine_samePorts
      · split
        · exact (putMarked_samePorts ..).trans countBadLine_samePorts
        · exact putMarked_samePorts ..

theorem noteBad_samePorts (ok : Bool) : SamePorts s (noteBad s b f ok).1 := by
  unfold noteBad
  split
  · exact .refl s
  · exact countBadLine_samePorts

theorem flushTail_samePorts : SamePorts s (flushTail s b f).1 := by
  unfold flushTail
  split
  · exact .refl s
  · dsimp only
    split
    · exact putLine_samePorts ..
    · exact noteBad_samePorts ..

theorem closeTail_samePorts : SamePorts s (closeTail s b f).1 := by
  unfold closeTail
  split
  · exact noteBad_samePorts ..
  · exact flushTail_samePorts ..

theorem checkTag_samePorts (dt : Nat) : SamePorts s (checkTag s b f dt).1 := by
  unfold checkTag
  split
  · exact .refl s
  · split
    · exact .ofCsi rfl
    · exact SamePorts.modRx (rf := fun r => { r with tagFail := satAdd 8 r.tagFail 1 }) (fun _ => rfl) (fun _ => rfl)

end

/-! ### The binding of a virtual channel -/

/-- The element that a search finds is the one changed, and is found again. -/
theorem find?_updFirst {α : Type} {find pick : α → Bool} {f : α → α} {a : α} {as : List α} (hfound : as.find? find = some a)
    (hpick : pick a = true) (honly : ∀ c ∈ as, pick c = true → c = a) (hagain : find (f a) = true) :
    (updFirst pick f as).find? find = some (f a) := by
  induction as with
  | nil => simp at hfound
  | cons c as ih =>
    unfold updFirst
    by_cases hc : pick c = true
    · obtain rfl := honly c List.mem_cons_self hc
      simp [hc, hagain]
    · have hfind : find c = false := by
        rw [Bool.eq_false_iff]
        intro hf
        obtain rfl : c = a := by simpa [hf] using hfound
        exact hc hpick
      rw [if_neg hc]
      rw [List.find?_cons_of_neg (by simp [hfind])] at hfound ⊢
      exact ih hfound fun d hd => honly d (List.mem_cons_of_mem _ hd)

/-- Of bindings with different names, two with the same name are the same. -/
theorem eq_of_key_eq {bs : List Binding} (honce : (bs.map Binding.key).Nodup) {b c : Binding} (hc : c ∈ bs) (hb : b ∈ bs)
    (hkey : c.key = b.key) : c = b := by
  induction bs with
  | nil => cases hb
  | cons a as ih =>
    obtain ⟨hnew, hrest⟩ := List.nodup_cons.mp (List.map_cons ▸ honce)
    rcases List.mem_cons.mp hc with rfl | hcs
    · rcases List.mem_cons.mp hb with rfl | hbs
      · rfl
      · exact absurd (hkey ▸ List.mem_map_of_mem hbs) hnew
    · rcases List.mem_cons.mp hb with rfl | hbs
      · exact absurd (hkey ▸ List.mem_map_of_mem hcs) hnew
      · exact ih hrest hcs hbs

section
variable {s t : State} {port : PortId} {vc : Nat} {b : Binding} {f : Binding → Binding}

theorem rxBinding_congr (h : t.csi.bindings = s.csi.bindings) : rxBinding t port vc = rxBinding s port vc := by simp only [rxBinding, h]

theorem rxBinding_spec (h : rxBinding s port vc = some b) : b ∈ s.csi.bindings ∧ b.transmit = false ∧ b.port = port ∧ b.vc = vc := by
  have hfits := List.find?_some h
  simp only [Bool.and_eq_true, Bool.not_eq_true', beq_iff_eq] at hfits
  exact ⟨List.mem_of_find?_eq_some h, hfits.1.1, hfits.1.2, hfits.2⟩

/-- A change of the binding of a channel's stream is a change of the channel's binding, since no stream is bound twice (10 R270). -/
theorem rxBinding_modBinding (honce : bindingsOnce s) (hb : rxBinding s port vc = some b) (ht : t.csi.bindings = s.csi.bindings)
    (htransmit : (f b).transmit = b.transmit) (hport : (f b).port = b.port) (hvc : (f b).vc = b.vc) :
    rxBinding (modBinding t b.part b.stream false f) port vc = some (f b) := by
  obtain ⟨hmem, hrx, hp, hv⟩ := rxBinding_spec hb
  have hfound := hb
  rw [← rxBinding_congr ht] at hfound
  refine find?_updFirst hfound (by simp [hrx]) (fun c hc hpick => ?_) (by simp [htransmit, hport, hvc, hrx, hp, hv])
  have hkey : c.key = b.key := by
    simp only [Bool.and_eq_true, beq_iff_eq] at hpick
    simp [Binding.key, hpick, hrx]
  exact eq_of_key_eq ((bindingsOnce_iff s).mp honce) (ht ▸ hc) hmem hkey

end

/-! ### A frame that closes (10 R275–R279; 01 R29) -/

/-- The data type that a binding's stream is declared with. -/
def streamType (s : State) (b : Binding) : Nat := ((rxDecl (s.part b.part) b.stream).map (fun d => d.dt)).getD 0

/-- The state and the frame when a frame closes with further flags: its last packet is taken and its tag checked. -/
def closing (s : State) (b : Binding) (f : OpenFrame) (bits : Nat) : State × OpenFrame :=
  let s' := if bitOf bits 1 then s.modRx b.port (fun r => { r with timeout := satAdd 8 r.timeout 1 }) else s
  let c := closeTail s' b { f with flags := f.flags ||| bits, drop := f.drop || bitOf bits 3 }
  checkTag c.1 b c.2 (streamType s b)

/-- How many journal entries at the journal's end the frame that closes precedes (log entry 19). -/
def passedEntries (s : State) (b : Binding) : Nat := laterCount (comesLater (s.part b.part) s.stamp b.port.val) (s.part b.part).journal

/-- The journal entry of a frame of data type `dt` that has closed. -/
def closedEntry (s : State) (b : Binding) (f : OpenFrame) (dt : Nat) : JEntry :=
  let x := s.part b.part
  let len := if f.drop then 0 else f.written
  let a := (frameAddr s b f).getD 0
  { seq := if follows x then x.nextSeq else x.nextSeq - passedEntries s b, arrived := s.stamp, port := b.port.val, vc := b.vc, dt := dt
    flags := f.flags + 16 * bit s.time.unsure, length := len, pcrc := BitVec.ofNat 32 (crc32c (bankRead s a len)), frame := f.frame
    stream := b.stream, buffer := if f.drop then none else f.buffer, lines := f.lines, bad := f.bad
    payload := if f.drop then none else some (bankRead s a len), marks := marksRead s.mem.bankPoison (a / 64) (len / 64), taken := false
    dest := none, housed := false, paired := !follows x, copied := (copiedAs s b.part b.stream).isNone }

/-- A partition once the frame of entry `e` is in its journal, before the last `k` entries. -/
def journaled (x : Part) (e : JEntry) (k : Nat) : Part :=
  { x with nextSeq := x.nextSeq + bit (!follows x), journal := enterJournal x.journal e k }

/-- `s` with the closed frame in the journal and its stream without an open frame, before copies go out. -/
def frameClosed (s : State) (b : Binding) (f : OpenFrame) (dt : Nat) : State :=
  let s' := s.setPart b.part (journaled (s.part b.part) (closedEntry s b f dt) (passedEntries s b))
  (modBinding (s'.modRx b.port (fun r => { r with frames := r.frames + 1 })) b.part b.stream false (fun b => { b with opened := none })).modPart
    b.part pairAll

section
variable {s : State} {port : PortId} {vc bits : Nat} {b : Binding} {f : OpenFrame}

theorem closeFrame_none (h : b.opened = none) : closeFrame s b bits = s := by
  unfold closeFrame
  rw [h]

theorem closeFrame_open (h : b.opened = some f) :
    closeFrame s b bits = copyOut (frameClosed (closing s b f bits).1 b (closing s b f bits).2 (streamType s b)) b.part := by
  unfold closeFrame
  rw [h]
  rfl

theorem closing_samePorts : SamePorts s (closing s b f bits).1 := by
  unfold closing
  refine SamePorts.trans ?_ ((closeTail_samePorts ..).trans (checkTag_samePorts ..))
  split
  · exact .modRx (fun _ => rfl) (fun _ => rfl)
  · exact .refl s

/-- A frame without a tag and an embedded last packet closes as it stands. -/
theorem closing_plain (htags : tagsOf b = false) (htail : f.tail = none) (hbits : bits < 8) :
    closing s b f bits = (if bitOf bits 1 then s.modRx b.port (fun r => { r with timeout := satAdd 8 r.timeout 1 }) else s,
      { f with flags := f.flags ||| bits }) := by
  have hbit : bitOf bits 3 = false := by simp [bitOf, Nat.div_eq_of_lt hbits]
  simp [closing, closeTail, flushTail, checkTag, htags, htail, hbit]

/-- Closing a frame touches no lane sync. -/
theorem closeFrame_sync (n : PortId) : ((closeFrame s b bits).csi.rx.get n).sync = (s.csi.rx.get n).sync ∧
    ((closeFrame s b bits).csi.rx.get n).lost = (s.csi.rx.get n).lost := by
  cases hopen : b.opened with
  | none => rw [closeFrame_none hopen]; exact ⟨rfl, rfl⟩
  | some f =>
    have hcounted : SamePorts (closing s b f bits).1 ((closing s b f bits).1.modRx b.port (fun r => { r with frames := r.frames + 1 })) :=
      .modRx (fun _ => rfl) (fun _ => rfl)
    have hsame := closing_samePorts.trans hcounted
    rw [closeFrame_open hopen, copyOut_csi]
    exact ⟨hsame.sync n, hsame.lost n⟩

/-- Once its open frame has closed a channel is bound as before, with no open frame. -/
theorem rxBinding_closeFrame (honce : bindingsOnce s) (hb : rxBinding s port vc = some b) :
    rxBinding (closeFrame s b bits) port vc = some { b with opened := none } := by
  cases hopen : b.opened with
  | none => rw [closeFrame_none hopen, hb, ← hopen]
  | some f =>
    rw [closeFrame_open hopen, rxBinding_congr (congrArg Csi.bindings copyOut_csi)]
    exact rxBinding_modBinding honce hb closing_samePorts.bindings rfl rfl rfl

/-- A partition that leads, or is not paired, has no frame to pair (13 R360). -/
theorem pairAll_leads {x : Part} (h : follows x = false) : pairAll x = x := by simp [pairAll, h]

theorem frameClosed_part {dt : Nat} (hleads : follows (s.part b.part) = false) :
    (frameClosed s b f dt).part b.part = journaled (s.part b.part) (closedEntry s b f dt) (passedEntries s b) := by
  have hset := State.setPart_part s b.part (journaled (s.part b.part) (closedEntry s b f dt) (passedEntries s b))
  have hpair : pairAll (journaled (s.part b.part) (closedEntry s b f dt) (passedEntries s b)) = _ := pairAll_leads hleads
  unfold frameClosed
  rw [State.modPart_part]
  exact (congrArg pairAll hset).trans hpair

/-- A frame without a tag and an embedded last packet that closes in a partition that leads: one more entry stands in the journal. -/
theorem closeFrame_journals (hopen : b.opened = some f) (htags : tagsOf b = false) (htail : f.tail = none) (hbits : bits < 8)
    (hleads : follows (s.part b.part) = false) :
    ∃ u e, closeFrame s b bits = copyOut u b.part ∧ u.part b.part = journaled (s.part b.part) e (passedEntries s b) ∧ u.mem = s.mem ∧
      e.seq = (s.part b.part).nextSeq - passedEntries s b ∧ e.length = (if f.drop then 0 else f.written) ∧ e.lines = f.lines ∧
      e.flags = (f.flags ||| bits) + 16 * bit s.time.unsure ∧ e.stream = b.stream ∧ e.frame = f.frame ∧ e.arrived = s.stamp := by
  have hclosing := closing_plain htags htail hbits (s := s)
  have hseq : ∀ n m : Nat, (if follows (s.part b.part) then n else m) = m := fun n m => by rw [hleads]; rfl
  rw [closeFrame_open hopen, hclosing]
  split
  · exact ⟨_, _, rfl, frameClosed_part hleads, rfl, hseq _ _, rfl, rfl, rfl, rfl, rfl, rfl⟩
  · exact ⟨_, _, rfl, frameClosed_part hleads, rfl, hseq _ _, rfl, rfl, rfl, rfl, rfl, rfl⟩

end

/-! ### A frame that opens (10 R275–R277) -/

section
variable {s : State} {b : Binding} {frame i : Nat}

/-- `s` with a new open frame on the stream of `b`, which counts one frame more in its window. -/
def withOpen (s : State) (b : Binding) (f : OpenFrame) : State :=
  modBinding s b.part b.stream false (fun b => { b with counted := b.counted + 1, opened := some f })

theorem rxBinding_withOpen {t : State} {port : PortId} {vc : Nat} {f : OpenFrame} (honce : bindingsOnce s) (hb : rxBinding s port vc = some b)
    (ht : t.csi.bindings = s.csi.bindings) :
    rxBinding (withOpen t b f) port vc = some { b with counted := b.counted + 1, opened := some f } :=
  rxBinding_modBinding honce hb ht rfl rfl rfl

theorem withOpen_rx (f : OpenFrame) : (withOpen s b f).csi.rx = s.csi.rx := rfl

/-- A frame above the quota is dropped, whatever buffers are free. -/
theorem openFrame_overQuota (hover : b.quota ≤ b.counted) : openFrame s b frame =
    withOpen (s.modRx b.port (fun r => { r with overQuota := satAdd 16 r.overQuota 1 })) b (newOpen s frame none true) := by
  unfold openFrame
  dsimp only
  rw [if_pos hover, if_pos (by simp [hover])]
  rfl

theorem openFrame_noBuffer (hroom : b.counted < b.quota) (hbuf : freeBuffer (s.part b.part) b.stream none = none) : openFrame s b frame =
    withOpen (s.modRx b.port (fun r => { r with noBuffer := satAdd 16 r.noBuffer 1 })) b (newOpen s frame none true) := by
  unfold openFrame
  dsimp only
  rw [if_neg (Nat.not_le.mpr hroom), hbuf]
  simp only [Option.isNone_none, Bool.or_true, if_true]
  rfl

theorem openFrame_lands (hroom : b.counted < b.quota) (hbuf : freeBuffer (s.part b.part) b.stream none = some i) :
    openFrame s b frame = withOpen s b (newOpen s frame (some i) false) := by
  unfold openFrame
  dsimp only
  have hno : ¬ b.quota ≤ b.counted := Nat.not_le.mpr hroom
  rw [if_neg hno, hbuf, if_neg (by simp), if_neg (by simp [hno])]
  rfl

end

/-! ### A packet marks its port in sync (10 R269) -/

section
variable (s : State) (port : PortId)

/-- A packet changes its receive port and makes an event: what neither changes is as it was. -/
theorem noteSync_view {β : Type} (v : State → β) (hevent : ∀ u n c q d, v (State.event u n c q d) = v u) :
    v (noteSync s port) = v (s.modRx port (fun r => { r with sync := true, lost := false })) := by
  unfold noteSync
  dsimp only
  split
  · exact hevent ..
  · rfl

theorem noteSync_csi : (noteSync s port).csi = (s.modRx port (fun r => { r with sync := true, lost := false })).csi :=
  noteSync_view s port State.csi State.event_csi
@[simp] theorem noteSync_mem : (noteSync s port).mem = s.mem := noteSync_view s port State.mem State.event_mem
@[simp] theorem noteSync_parts : (noteSync s port).parts = s.parts := noteSync_view s port State.parts State.event_parts
@[simp] theorem noteSync_now : (noteSync s port).now = s.now := noteSync_view s port State.now State.event_now

@[simp] theorem noteSync_part (p : PartId) : (noteSync s port).part p = s.part p := by unfold State.part; rw [noteSync_parts]

@[simp] theorem noteSync_bindings : (noteSync s port).csi.bindings = s.csi.bindings := by rw [noteSync_csi]; rfl
@[simp] theorem noteSync_unbound : (noteSync s port).csi.unbound = s.csi.unbound := by rw [noteSync_csi]; rfl
@[simp] theorem noteSync_rx : (noteSync s port).csi.rx.get port = { s.csi.rx.get port with sync := true, lost := false } := by
  rw [noteSync_csi, State.modRx_get]

@[simp] theorem rxBinding_noteSync (n : PortId) (vc : Nat) : rxBinding (noteSync s port) n vc = rxBinding s n vc :=
  rxBinding_congr (noteSync_bindings s port)

@[simp] theorem takesFrames_noteSync (p : PartId) : takesFrames (noteSync s port) p = takesFrames s p := by simp [takesFrames]

variable {s port}

theorem noteSync_once (h : bindingsOnce s) : bindingsOnce (noteSync s port) := by rwa [bindingsOnce, noteSync_bindings]

end

/-! ### The rows of a frame's start and end -/

section
variable {s : State} {port : PortId} {vc frame : Nat} {b : Binding} {f : OpenFrame}

/-- No open frame takes a packet: its channel is unbound or has none, or the partition takes no frames. -/
def noFrameTakes (s : State) (port : PortId) (vc : Nat) : Prop :=
  ∀ b, rxBinding s port vc = some b → b.opened = none ∨ takesFrames s b.part = false

theorem execCsiFrameStart_unbound
    (h : ∀ b, rxBinding s port vc = some b → takesFrames s b.part = false ∨ landingOf (s.part b.part) b.stream = none) :
    execCsiFrameStart port vc frame s = .next (countUnbound (noteSync s port)) := by
  unfold execCsiFrameStart
  simp only [rxBinding_noteSync]
  split
  · rfl
  next b hb =>
    refine if_neg ?_
    obtain hno | hno := h b hb <;> simp [hno]

theorem execCsiFrameStart_opens (honce : bindingsOnce s) (hb : rxBinding s port vc = some b) (htakes : takesFrames s b.part = true)
    (hland : (landingOf (s.part b.part) b.stream).isSome = true) :
    execCsiFrameStart port vc frame s =
      .next (openFrame (closeFrame (noteSync s port) b 2) { b with opened := none } (frame % 65536)) := by
  have hb' := (rxBinding_noteSync s port port vc).trans hb
  have hcloses := rxBinding_closeFrame (bits := 2) (noteSync_once honce) hb'
  unfold execCsiFrameStart
  simp only [hb', hcloses, takesFrames_noteSync, noteSync_part, htakes, hland, Bool.and_self, if_true]

theorem execCsiFrameEnd_unbound (h : noFrameTakes s port vc) : execCsiFrameEnd port vc frame s = .next (countUnbound (noteSync s port)) := by
  unfold execCsiFrameEnd
  simp only [rxBinding_noteSync]
  split
  · rfl
  next b hb =>
    obtain hno | hno := h b hb
    · rw [hno]
    · split
      · simp [hno]
      · rfl

theorem execCsiFrameEnd_closes (hb : rxBinding s port vc = some b) (hopen : b.opened = some f) (htakes : takesFrames s b.part = true) :
    execCsiFrameEnd port vc frame s = .next (
      if f.frame = frame % 65536 then closeFrame (noteSync s port) b 0 else closeFrame (countBadLine (noteSync s port) port) b 1) := by
  have hb' := (rxBinding_noteSync s port port vc).trans hb
  unfold execCsiFrameEnd
  simp only [hb', hopen, takesFrames_noteSync, htakes, Bool.not_true, Bool.false_eq_true, if_false]
  split <;> rfl

theorem execCsiFrameTimeout_closes (hb : rxBinding s port vc = some b) (hopen : b.opened = some f) :
    execCsiFrameTimeout port vc s = .next (closeFrame (s.reach (f.lastAt + us f.timeout)) b 2) := by
  unfold execCsiFrameTimeout
  simp only [hb, hopen]

theorem execCsiFrameTimeout_idle (h : ∀ b, rxBinding s port vc = some b → b.opened = none) : execCsiFrameTimeout port vc s = .next s := by
  unfold execCsiFrameTimeout
  split
  · rfl
  next b hb => rw [h b hb]

/-! ### The row of a long packet (10 R273, R275, R276) -/

variable {dt e : Nat} {data line : Bytes} {ok : Bool} {dcl : StreamDecl} {a : Nat}

theorem execCsiLongPacket_unbound (h : noFrameTakes s port vc) :
    execCsiLongPacket port vc dt data ok 0 s = .next (countUnbound (noteSync s port)) := by
  unfold execCsiLongPacket
  simp only [rxBinding_noteSync, Nat.reduceLeDiff, if_false, Nat.zero_ne_one]
  split
  · rfl
  next b hb =>
    split
    next f d hf hd =>
      obtain hno | hno := h b hb
      · rw [hno] at hf; cases hf
      · simp [hno]
    next => rfl

/-- Mark the open frame of a binding, if it has one. -/
def markFrame (b : Binding) : Binding := { b with opened := b.opened.map (fun f => { f with flags := f.flags ||| 1 }) }

theorem execCsiLongPacket_header (he : 2 ≤ e) :
    execCsiLongPacket port vc dt data ok e s =
      .next ((rxBinding s port vc).elim id (fun b u => modBinding u b.part b.stream false markFrame)
        ((noteSync s port).modRx port (fun r => { r with hdrDiscard := satAdd 8 r.hdrDiscard 1 }))) := by
  have hb : rxBinding ((noteSync s port).modRx port (fun r => { r with hdrDiscard := satAdd 8 r.hdrDiscard 1 })) port vc = rxBinding s port vc :=
    rxBinding_congr (noteSync_bindings s port)
  unfold execCsiLongPacket
  simp only [if_pos he, hb]
  cases rxBinding s port vc <;> rfl

/-- What an open frame does with a packet without header errors. -/
theorem execCsiLongPacket_taken (hb : rxBinding s port vc = some b) (hopen : b.opened = some f)
    (hdcl : rxDecl (s.part b.part) b.stream = some dcl) (htakes : takesFrames s b.part = true) :
    execCsiLongPacket port vc dt data ok 0 s = .next (
      if dt = 0x12 then modBinding (flushTail (noteSync s port) b { f with lastAt := s.now }).1 b.part b.stream false
        (fun b' => { b' with opened := some { (flushTail (noteSync s port) b { f with lastAt := s.now }).2 with tail := some (data, ok) } })
      else if dt = dcl.dt && receives dt then
        modBinding (payloadLine (noteSync s port) b { f with lastAt := s.now } dt data ok).1 b.part b.stream false
          (fun b' => { b' with opened := some (payloadLine (noteSync s port) b { f with lastAt := s.now } dt data ok).2 })
      else countUnbound (modBinding (noteSync s port) b.part b.stream false (fun b' => { b' with opened := some { f with lastAt := s.now } }))) := by
  have hb' := (rxBinding_noteSync s port port vc).trans hb
  unfold execCsiLongPacket
  simp only [hb', hopen, noteSync_part, hdcl, takesFrames_noteSync, htakes, noteSync_now, Nat.reduceLeDiff, if_false, Nat.zero_ne_one,
    Bool.not_true, Bool.false_eq_true]
  split
  · rfl
  · split <;> rfl

/-- Without an embedded line in hand a frame has none to keep. -/
theorem flushTail_none (h : f.tail = none) : flushTail s b f = (s, f) := by simp [flushTail, h]

theorem execCsiLongPacket_embedded (hb : rxBinding s port vc = some b) (hopen : b.opened = some f)
    (hdcl : rxDecl (s.part b.part) b.stream = some dcl) (htakes : takesFrames s b.part = true) (hdt : dt = 0x12) (htail : f.tail = none) :
    execCsiLongPacket port vc dt data ok 0 s = .next (modBinding (noteSync s port) b.part b.stream false
      (fun b' => { b' with opened := some { f with lastAt := s.now, tail := some (data, ok) } })) := by
  rw [execCsiLongPacket_taken hb hopen hdcl htakes, if_pos hdt, flushTail_none (f := { f with lastAt := s.now }) htail]

theorem execCsiLongPacket_otherType (hb : rxBinding s port vc = some b) (hopen : b.opened = some f)
    (hdcl : rxDecl (s.part b.part) b.stream = some dcl) (htakes : takesFrames s b.part = true) (hdt : dt ≠ 0x12)
    (hother : dt ≠ dcl.dt ∨ receives dt = false) :
    execCsiLongPacket port vc dt data ok 0 s = .next (countUnbound (modBinding (noteSync s port) b.part b.stream false
      (fun b' => { b' with opened := some { f with lastAt := s.now } }))) := by
  have hno : ¬ (dt = dcl.dt && receives dt) = true := by
    obtain h | h := hother
    · simp [h]
    · simp [h]
  rw [execCsiLongPacket_taken hb hopen hdcl htakes, if_neg hdt, if_neg hno]

/-- A line of a frame that has a buffer is written at the next multiple of 64 bytes (R275). -/
theorem putLine_lands (hdrop : f.drop = false) (ha : frameAddr s b f = some a) (hfits : f.written + line.length ≤ b.maxBytes) :
    putLine s b f line false = (bankWrite s (a + f.written) (padTo (64 * ceilDiv line.length 64) line),
      { f with written := f.written + 64 * ceilDiv line.length 64, lines := f.lines + 1 }) := by
  have hnot : ¬ b.maxBytes < f.written + line.length := Nat.not_lt.mpr hfits
  unfold putLine
  simp only [hdrop, ha, if_neg hnot, putMarked, padTo_length, Bool.false_eq_true, if_false]

/-- An open frame at the instant `now`, once a line of `data` has been written as `line`. -/
def lineLanded (f : OpenFrame) (now : Ns) (data line : Bytes) : OpenFrame :=
  { f with
    lastAt := now, started := true, received := f.received ++ data, written := f.written + 64 * ceilDiv line.length 64, lines := f.lines + 1 }

theorem payloadLine_lands (htail : f.tail = none) (hdrop : f.drop = false) (ha : frameAddr s b f = some a)
    (hlen : data.length = b.lineBytes) (hline : line = convertLine dt data) (hfits : f.written + line.length ≤ b.maxBytes) :
    payloadLine s b f dt data true = (bankWrite s (a + f.written) (padTo (64 * ceilDiv line.length 64) line), lineLanded f f.lastAt data line) := by
  subst hline
  have hwhole : padTo b.lineBytes data = data := by simp [padTo, ← hlen]
  have hgood : (!true || data.length != b.lineBytes) = false := by simp [hlen]
  unfold payloadLine
  rw [flushTail_none htail, hwhole, hgood]
  exact putLine_lands (f := { f with started := true, received := f.received ++ data }) hdrop ha hfits

theorem execCsiLongPacket_line (hb : rxBinding s port vc = some b) (hopen : b.opened = some f)
    (hdcl : rxDecl (s.part b.part) b.stream = some dcl) (htakes : takesFrames s b.part = true) (hrecv : receives dcl.dt = true)
    (htail : f.tail = none) (hdrop : f.drop = false) (ha : frameAddr s b f = some a) (hlen : data.length = b.lineBytes)
    (hline : line = convertLine dcl.dt data) (hfits : f.written + line.length ≤ b.maxBytes) :
    execCsiLongPacket port vc dcl.dt data true 0 s = .next (modBinding
      (bankWrite (noteSync s port) (a + f.written) (padTo (64 * ceilDiv line.length 64) line)) b.part b.stream false
        (fun b' => { b' with opened := some (lineLanded f s.now data line) })) := by
  have hdt : dcl.dt ≠ 0x12 := fun h => absurd (h ▸ hrecv) (by decide)
  have ha' : frameAddr (noteSync s port) b f = some a := by simpa [frameAddr] using ha
  rw [execCsiLongPacket_taken hb hopen hdcl htakes, if_neg hdt, if_pos (by simp [hrecv]),
    payloadLine_lands (s := noteSync s port) (f := { f with lastAt := s.now }) htail hdrop ha' hlen hline hfits]
  rfl

/-- A line reads back from the word run that holds it. -/
theorem bankRead_bankWrite_padTo {n : Nat} (hwf : memWf s.mem = true) (hn : line.length ≤ n) :
    bankRead (bankWrite s a (padTo n line)) a line.length = line := by
  have hread := bankRead_bankWrite s a (padTo n line) hwf
  have htake : bankRead (bankWrite s a (padTo n line)) a line.length = (bankRead (bankWrite s a (padTo n line)) a n).take line.length := by
    simp [bankRead, cellsRead, ← List.map_take, List.take_range, hn]
  rw [padTo_length] at hread
  rw [htake, hread]
  simp [padTo, List.take_take, hn]

theorem le_wordRun (n : Nat) : n ≤ 64 * ceilDiv n 64 := by unfold ceilDiv; omega

/-! ### Lane sync and quota windows (10 R269, R276, R277) -/

/-- Closing every open frame of a port touches no lane sync. -/
theorem closeAll_sync (n : PortId) : ((closeAll s port).csi.rx.get n).sync = (s.csi.rx.get n).sync ∧
    ((closeAll s port).csi.rx.get n).lost = (s.csi.rx.get n).lost := by
  refine Prod.mk.inj (foldl_view s (fun u => ((u.csi.rx.get n).sync, (u.csi.rx.get n).lost)) (fun u b => ?_) _)
  obtain ⟨hsync, hlost⟩ := closeFrame_sync (s := u) (b := b) (bits := 2) n
  exact Prod.ext hsync hlost

theorem execCsiLaneSyncLoss_marks (h : (s.csi.rx.get port).sync = true) :
    ∃ u, execCsiLaneSyncLoss port s = .next u ∧ (u.csi.rx.get port).sync = false ∧ (u.csi.rx.get port).lost = true := by
  obtain ⟨hsync, hlost⟩ := closeAll_sync (port := port) port
    (s := (s.modRx port (fun r => { r with sync := false, lost := true })).event (0x50 + port.val) 0x0601 0xFF [0])
  rw [State.event_csi, State.modRx_get] at hsync hlost
  exact ⟨_, if_pos h, hsync, hlost⟩

theorem execCsiGenericShortPacket_eq (dt : Nat) : execCsiGenericShortPacket port dt s =
    .next (if 0x08 ≤ dt ∧ dt ≤ 0x0F then countUnbound (noteSync s port) else s) := by
  unfold execCsiGenericShortPacket
  simp only [Bool.and_eq_true, decide_eq_true_eq]
  split <;> rfl

theorem execQuotaWindowTimeout_opens (hb : rxBinding s port vc = some b) :
    execQuotaWindowTimeout port vc s =
      .next (openWindow (s.reachStamp b.windowDue) b ((s.reachStamp b.windowDue).stamp + 1000000000)) := by
  unfold execQuotaWindowTimeout
  rw [hb]
  rfl

theorem execQuotaWindowTimeout_unbound (h : rxBinding s port vc = none) : execQuotaWindowTimeout port vc s = .next s := by
  unfold execQuotaWindowTimeout
  rw [h]

end

/-- Settles O44: what each row does is said by its own lemma; a channel's binding changes with its stream's, since no stream is bound twice
(`rxBinding_modBinding`), a frame that closes leaves its channel bound without one (`rxBinding_closeFrame`) and its entry in the journal
(`closeFrame_journals`). The numbers of frames of one nanosecond are log entry 19, the time of a row's deadline log entry 10, and a row
without an occasion log entry 26. -/
theorem csiRowsLandFrames : Obligations.CsiRowsLandFrames := by
  unfold Obligations.CsiRowsLandFrames
  intro s n port vc honce hn
  subst hn
  refine ⟨⟨noteSync_mem .., noteSync_parts .., noteSync_bindings .., by rw [noteSync_rx], by rw [noteSync_rx]⟩, ?startUnbound, ?startOpens,
    ?opens, fun dt data ok h => execCsiLongPacket_unbound h, ?header, ?line, ?other, fun frame h => execCsiFrameEnd_unbound h,
    fun b f frame hb hopen htakes => execCsiFrameEnd_closes hb hopen htakes, ?timeout, fun h => execCsiFrameTimeout_idle h, ?journals,
    fun h => execCsiLaneSyncLoss_marks h, fun h => if_neg (by simp [h]), ?syncBack, fun h => if_pos h, execCsiGenericShortPacket_eq, ?window,
    fun h => execQuotaWindowTimeout_unbound h⟩
  case startUnbound =>
    intro frame h
    refine ⟨execCsiFrameStart_unbound h, ?_, noteSync_mem .., noteSync_parts ..⟩
    exact congrArg (fun v => satAdd 32 v 1) (noteSync_unbound s port)
  case startOpens =>
    intro b frame hb htakes hland
    have hb' := (rxBinding_noteSync s port port vc).trans hb
    refine ⟨_, rxBinding_closeFrame (noteSync_once honce) hb', execCsiFrameStart_opens honce hb htakes hland, fun hnone => ?_⟩
    exact ⟨closeFrame_none hnone, by rw [← hnone]⟩
  case opens =>
    intro b frame hb
    obtain ⟨-, -, hport, -⟩ := rxBinding_spec hb
    subst hport
    by_cases hover : b.quota ≤ b.counted
    · rw [openFrame_overQuota hover]
      exact ⟨_, rxBinding_withOpen honce hb rfl, rfl, rfl, rfl, fun _ => ⟨_, rfl, rfl, rfl, by rw [withOpen_rx, State.modRx_get]⟩,
        fun hroom => absurd hover (Nat.not_le.mpr hroom)⟩
    · cases hbuf : freeBuffer (s.part b.part) b.stream none with
      | none =>
        rw [openFrame_noBuffer (Nat.not_le.mp hover) hbuf]
        exact ⟨_, rxBinding_withOpen honce hb rfl, rfl, rfl, rfl, fun h => absurd h hover,
          fun _ => ⟨_, rfl, rfl, rfl, rfl, rfl, fun _ => by rw [withOpen_rx, State.modRx_get]⟩⟩
      | some i =>
        rw [openFrame_lands (Nat.not_le.mp hover) hbuf]
        exact ⟨_, rxBinding_withOpen honce hb rfl, rfl, rfl, rfl, fun h => absurd h hover,
          fun _ => ⟨_, rfl, rfl, rfl, rfl, rfl, fun h => absurd h (Option.some_ne_none i)⟩⟩
  case header =>
    intro dt data ok e he
    refine ⟨_, execCsiLongPacket_header he, ?_⟩
    have hcount : (((noteSync s port).modRx port (fun r => { r with hdrDiscard := satAdd 8 r.hdrDiscard 1 })).csi.rx.get port).hdrDiscard =
        satAdd 8 (s.csi.rx.get port).hdrDiscard 1 := by rw [State.modRx_get, noteSync_rx]
    cases hb : rxBinding s port vc with
    | none => exact ⟨hcount, noteSync_mem .., noteSync_parts .., fun b f h => absurd h (Option.some_ne_none b).symm⟩
    | some b =>
      refine ⟨hcount, noteSync_mem .., noteSync_parts .., fun c f hc hopen => ?_⟩
      obtain rfl := Option.some.inj hc
      have hmark : markFrame b = { b with opened := some { f with flags := f.flags ||| 1 } } := by simp [markFrame, hopen]
      rw [← hmark]
      exact rxBinding_modBinding honce hb (noteSync_bindings ..) rfl rfl rfl
  case line =>
    intro b f dcl data line a hwf hb hopen hdcl htakes hrecv htail hdrop ha hlen hline hfits
    refine ⟨_, _, _, execCsiLongPacket_line hb hopen hdcl htakes hrecv htail hdrop ha hlen hline hfits,
      rxBinding_modBinding honce hb (noteSync_bindings ..) rfl rfl rfl, rfl, ?_, rfl, rfl, rfl, rfl, ?_, noteSync_parts ..⟩
    · exact bankRead_bankWrite_padTo (by rwa [noteSync_mem]) (le_wordRun _)
    · have hhbm : (noteSync s port).mem.hbm = s.mem.hbm := congrArg Mem.hbm (noteSync_mem s port)
      exact hhbm
  case other =>
    intro b f dcl dt data ok hb hopen hdcl htakes
    refine ⟨fun hdt htail => ?_, fun hdt hother => ?_⟩
    · exact ⟨_, execCsiLongPacket_embedded hb hopen hdcl htakes hdt htail, noteSync_mem ..,
        rxBinding_modBinding honce hb (noteSync_bindings ..) rfl rfl rfl⟩
    · exact ⟨_, execCsiLongPacket_otherType hb hopen hdcl htakes hdt hother, noteSync_mem ..,
        congrArg (fun v => satAdd 32 v 1) (noteSync_unbound s port), rxBinding_modBinding honce hb (noteSync_bindings ..) rfl rfl rfl⟩
  case timeout =>
    intro b f hb hopen
    rw [Nat.mul_comm 1000]
    exact execCsiFrameTimeout_closes hb hopen
  case journals =>
    intro b f bits k hb hopen htags htail hbits hleads hk
    subst hk
    obtain ⟨u, e, hclose, hpart, hmem, hseq, hlength, hlines, hflags, hstream, hframe, harrived⟩ :=
      closeFrame_journals hopen htags htail hbits hleads
    refine ⟨_, e, u, rxBinding_closeFrame honce hb, rfl, hclose, by rw [hpart]; rfl, hseq, ?_, hlength, hlines, hflags, hstream, hframe, harrived,
      by rw [hclose, copyOut_mem, hmem]⟩
    rw [hpart]
    simp [journaled, hleads, bit]
  case syncBack =>
    intro h
    exact ⟨_, if_neg (by simp [h]), by simp, by simp, State.event_mem .., State.event_parts ..⟩
  case window =>
    intro b hb
    have hopens : rxBinding (openWindow (s.reachStamp b.windowDue) b ((s.reachStamp b.windowDue).stamp + 1000000000)) port vc = some _ :=
      rxBinding_modBinding honce hb rfl rfl rfl rfl
    exact ⟨_, _, execQuotaWindowTimeout_opens hb, hopens, rfl, rfl, rfl, rfl, rfl, rfl⟩

end Sys2Proof.Machine

namespace Sys2Proof.Machine

/-! ## Stream commands (O43) -/

/-! ### GATHER (10 R280–R282) -/

/-- The record of R281 has 64 bytes. -/
@[simp] theorem gatherRecord_length (stream : Nat) (e : JEntry) (skipped length : Nat) : (gatherRecord stream e skipped length).length = 64 := by
  simp [gatherRecord]

/-- Bytes that a write of the banks does not reach read as before. -/
theorem bankRead_bankWrite_apart {s : State} {a c n : Nat} {bs : Bytes} (hwf : memWf s.mem = true) (h : a + n ≤ c ∨ c + bs.length ≤ a) :
    bankRead (bankWrite s c bs) a n = bankRead s a n := by
  unfold bankRead cellsRead
  refine List.map_congr_left fun i hi => ?_
  have hin : i < n := List.mem_range.mp hi
  exact bankWrite_frame s c (a + i) bs hwf (by omega)

section
variable {s : State} {p : PartId} {e : JEntry} {n i b : Nat} {l : Landing}

/-- Reading a landed frame finds the bit errors that it meets. -/
theorem landedBytes_sameUnits : SameUnits s (landedBytes s p e n).1 := by
  unfold landedBytes
  split
  · split
    · exact meetBank_sameUnits ..
    · exact .refl s
  · exact .refl s

theorem landedBytes_hbm : (landedBytes s p e n).1.mem.hbm = s.mem.hbm := by
  unfold landedBytes
  split
  · split
    · exact meetBank_hbm ..
    · rfl
  · rfl

/-- A frame in a landing buffer is read from there. -/
theorem landedBytes_buffer (hbuf : e.buffer = some i) (hland : landingOf (s.part p) e.stream = some l)
    (haddr : bufferAddr (s.part p) l i = some b) : (landedBytes s p e n).2.1 = bankRead s b n := by
  simp [landedBytes, hbuf, hland, haddr]

end

/-- What a GATHER at most reads of its landed frame: the frame, cut to MAX_BYTES. -/
def gatherLength (d : Due) (e : JEntry) : Nat := min e.length (recField d.record 32 4)

/-- `s` once a landed frame has been copied to `a`, cut or padded with zeros to MAX_BYTES. -/
def gatherMoved (s : State) (d : Due) (e : JEntry) (a : Nat) : State :=
  let f := landedBytes s d.p e (gatherLength d e)
  moveToBank f.1 a (padTo (recField d.record 32 4) f.2.1) f.2.2

/-- The same once its record stands at `c` and the journal counts the frame as taken. -/
def gatherDone (s : State) (d : Due) (e : JEntry) (skipped a c : Nat) : State :=
  (bankWrite (gatherMoved s d e a) c (gatherRecord (recField d.record 36 2) e skipped (gatherLength d e))).modPart d.p
    (fun x => { x with journal := takeEntries e (a, recField d.record 32 4, x.step) x.journal })

section
variable {s : State} {d : Due} {e : JEntry} {skipped a c unitNo : Nat}

/-- The steps of a GATHER whose frame has landed and whose regions lie within and are owned. -/
theorem gatherSteps_serves (hunit : unitNo = gatherUnit s d.p (recField d.record 36 2) (vrefOf (recField d.record 24 4)))
    (ha : vrefAddr (s.part d.p) (vrefOf (recField d.record 24 4)) = some a) (hc : vrefAddr (s.part d.p) (vrefOf (recField d.record 28 4)) = some c)
    (hnext : nextLanded (recField d.record 36 2) (s.part d.p).journal = some (e, skipped))
    (hdst : vrefPast (vrefOf (recField d.record 24 4)) (recField d.record 32 4) = false)
    (hres : vrefPast (vrefOf (recField d.record 28 4)) 64 = false)
    (hown : vrefOwned s d.p (vrefOf (recField d.record 24 4)) (recField d.record 32 4) 6 unitNo = true)
    (hownRes : vrefOwned s d.p (vrefOf (recField d.record 28 4)) 64 6 unitNo = true)
    (hfree : destHeld (s.part d.p) a (recField d.record 32 4) = false) (hsettled : seqSettled s d.p e = true) :
    gatherSteps d s = .ok (.done (gatherDone s d e skipped a c) (16 + ceilDiv (recField d.record 32 4) 4096) 0) := by
  subst hunit
  simp only [gatherSteps, ha, hc, hnext, hdst, hres, hown, hownRes, hfree, hsettled, Bool.not_true, Bool.or_self, Bool.false_eq_true, if_false]
  rfl

theorem execGather_done {p : PartId} {q n : Nat} {t : State} (hstart : engineStarts s p q 7 0x0700 d)
    (hsteps : gatherSteps d s = .ok (.done t n 0)) :
    execGather p q s = .next (issue t d n 0 (handoverAt d.record 40 (vrefOf (recField d.record 24 4)).lc)) :=
  runEngine_done hstart (congrArg Engine.out hsteps)

theorem gatherMoved_sameUnits : SameUnits s (gatherMoved s d e a) := landedBytes_sameUnits.trans (moveToBank_sameUnits ..)

theorem gatherDone_journal : ((gatherDone s d e skipped a c).part d.p).journal =
    takeEntries e (a, recField d.record 32 4, (s.part d.p).step) (s.part d.p).journal := by
  have hwrite : ∀ (u : State) (bs : Bytes), (bankWrite u c bs).part d.p = u.part d.p := fun _ _ => rfl
  simp only [gatherDone, State.modPart_part, hwrite, gatherMoved_sameUnits.part]

theorem gatherDone_hbm : (gatherDone s d e skipped a c).mem.hbm = s.mem.hbm := by
  have hwrite : ∀ (u : State) (bs : Bytes), (bankWrite u c bs).mem.hbm = u.mem.hbm := fun _ _ => rfl
  simp only [gatherDone, State.modPart_mem, hwrite, gatherMoved, moveToBank_hbm, landedBytes_hbm]

variable (hwf : memWf s.mem = true)
include hwf

theorem gatherMoved_wf : memWf (gatherMoved s d e a).mem = true := gatherMoved_sameUnits.wf hwf

theorem gatherMoved_read : bankRead (gatherMoved s d e a) a (recField d.record 32 4) =
    padTo (recField d.record 32 4) (landedBytes s d.p e (gatherLength d e)).2.1 := by
  have hread := bankRead_bankWrite (landedBytes s d.p e (gatherLength d e)).1 a
    (padTo (recField d.record 32 4) (landedBytes s d.p e (gatherLength d e)).2.1) (landedBytes_sameUnits.wf hwf)
  rwa [padTo_length] at hread

theorem gatherDone_record : bankRead (gatherDone s d e skipped a c) c 64 =
    gatherRecord (recField d.record 36 2) e skipped (gatherLength d e) := by
  have hread := bankRead_bankWrite (gatherMoved s d e a) c (gatherRecord (recField d.record 36 2) e skipped (gatherLength d e)) (gatherMoved_wf hwf)
  rwa [gatherRecord_length] at hread

/-- The frame's bytes stand at the destination when the record lies apart from them. -/
theorem gatherDone_bytes (h : a + recField d.record 32 4 ≤ c ∨ c + 64 ≤ a) :
    bankRead (gatherDone s d e skipped a c) a (recField d.record 32 4) =
      padTo (recField d.record 32 4) (landedBytes s d.p e (gatherLength d e)).2.1 := by
  have happart := bankRead_bankWrite_apart (bs := gatherRecord (recField d.record 36 2) e skipped (gatherLength d e))
    (gatherMoved_wf (d := d) (e := e) (a := a) hwf) (by rwa [gatherRecord_length])
  exact happart.trans (gatherMoved_read hwf)

end

/-! ### EMIT (10 R283–R286; 08 R225) -/

/-- The UNIT of the banks of a transmit stream: its port. -/
def emitUnit (s : State) (p : PartId) (stream : Nat) : Nat := match bindingOf s p stream true with | some b => b.port.val | none => 0

/-- `s` once an EMIT of `n` bytes at `a` has one frame more to send on its stream. -/
def emitted (s : State) (d : Due) (tokens : List TokenOut) (a n stream : Nat) : State :=
  (if ((txDecl (s.part d.p) stream).map (fun t => t.dt != 0x34)).getD false then meetBank s a n else s).setPart d.p
    { (emitPayload s d.p stream a n tokens).2.2 with emits := (s.part d.p).emits ++
        [{ stream := stream, payload := (emitPayload s d.p stream a n tokens).1, poison := (emitPayload s d.p stream a n tokens).2.1,
           step := (s.part d.p).step, queue := d.desc.queue, index := d.index }] }

section
variable {s : State} {d : Due} {tokens : List TokenOut} {a n stream : Nat}

theorem emitSteps_serves (hn : n = recField d.record 28 4) (hstream : stream = recField d.record 32 2)
    (ha : vrefAddr (s.part d.p) (vrefOf (recField d.record 24 4)) = some a) (hsrc : vrefPast (vrefOf (recField d.record 24 4)) n = false)
    (hown : vrefOwned s d.p (vrefOf (recField d.record 24 4)) n 7 (emitUnit s d.p stream) = true) :
    emitSteps d tokens s = .ok (.done (if secondBatch (s.part d.p) stream then s else emitted s d tokens a n stream) (16 + ceilDiv n 4096) 0) := by
  subst hn hstream
  have hnot : ∀ v : Bool, v = true → ¬ (!v) = true := by decide
  unfold emitSteps
  simp only [ha, hsrc, Bool.false_eq_true, if_false]
  refine (if_neg (hnot _ hown)).trans ?_
  split <;> rfl

theorem execEmit_done {p : PartId} {q w : Nat} {t : State} (hstart : engineStarts s p q 7 0x0701 d)
    (hsteps : emitSteps d tokens s = .ok (.done t w 0)) :
    execEmit p q tokens s = .next (awaitFrame (issue t d w 0 (handoverAt d.record 40 (vrefOf (recField d.record 24 4)).lc)) p q) := by
  have hrun := runEngine_done (hand := fun d => handoverAt d.record 40 (vrefOf (recField d.record 24 4)).lc)
    (op := fun d s => (emitSteps d tokens s).out) hstart (congrArg Engine.out hsteps)
  unfold execEmit
  rw [hrun]

/-- Composing a payload leaves the commands in flight alone. -/
theorem emitPayload_inflight (p : PartId) : (emitPayload s p stream a n tokens).2.2.inflight = (s.part p).inflight := by
  unfold emitPayload
  dsimp only
  split
  · split <;> rfl
  · rfl

theorem emitted_same : (emitted s d tokens a n stream).mem.banks = s.mem.banks ∧ (emitted s d tokens a n stream).mem.hbm = s.mem.hbm ∧
    ((emitted s d tokens a n stream).part d.p).inflight = (s.part d.p).inflight := by
  unfold emitted
  rw [State.setPart_part, State.setPart_mem]
  refine ⟨?_, ?_, emitPayload_inflight _⟩
  · split
    · exact meetBank_banks ..
    · rfl
  · split
    · exact meetBank_hbm ..
    · rfl

end

/-! ### EMIT_FRAME_SEND (10 R284–R286) -/

@[simp] theorem headerLine_length (part hflags streamId dt claim step time source bytes pcrc poison : Nat) :
    (headerLine part hflags streamId dt claim step time source bytes pcrc poison).length = 64 := by simp [headerLine]

section
variable {s : State} {p p' : PartId} {b : Binding} {m : EmitReq} {stream : Nat} {t : Ns}

@[simp] theorem emitHeader_length (n : Nat) : (emitHeader s p n m).length = 64 := headerLine_length ..

section
variable (hm : (s.part p).emits.find? (fun e => e.stream == stream) = some m)
include hm

theorem execEmitFrameSend_replay (h : (s.part p).replay = true) :
    execEmitFrameSend p stream s = .next (frameSent (storeFrame s p m) p m) := by
  simp [execEmitFrameSend, hm, h]

variable (hlive : (s.part p).replay = false)
include hlive

theorem execEmitFrameSend_caughtUp (h : catchUpSent (s.part p) m = true) :
    execEmitFrameSend p stream s = .next (frameSent (dropSent s p m) p m) := by
  simp [execEmitFrameSend, hm, hlive, h]

variable (hnew : catchUpSent (s.part p) m = false)
include hnew

theorem execEmitFrameSend_unsent (h : s.csi.stopped = true ∨ sendable (s.part p) stream = false) :
    execEmitFrameSend p stream s = .next (frameSent s p m) := by
  obtain h | h := h <;> simp [execEmitFrameSend, hm, hlive, hnew, h]

variable (hrun : s.csi.stopped = false) (htype : sendable (s.part p) stream = true)
include hrun htype

theorem execEmitFrameSend_waits (h : partHeld s p = true ∨ bindingOf s p stream true = none) : execEmitFrameSend p stream s = .next s := by
  obtain h | h := h <;> simp [execEmitFrameSend, hm, hlive, hnew, hrun, htype, h]

theorem execEmitFrameSend_sends (hfree : partHeld s p = false) (hb : bindingOf s p stream true = some b)
    (ht : t = max (max s.now (s.csi.tx.get b.port).endAt) (max (intervalEnd s p b) (latestStart (s.part p) m))) :
    execEmitFrameSend p stream s = .next (if lowerReady s b t then s else sendFrameOut (s.reach t) p b m) := by
  subst ht
  simp only [execEmitFrameSend, hm, hlive, hnew, hrun, htype, hfree, hb, Bool.false_eq_true, if_false, Bool.not_true, Bool.or_self]
  split <;> rfl

end

/-- The EMIT whose frame has left has no frame to send. -/
theorem frameSent_emits (done : Ns) : ((frameSent s p m done).part p).emits = (s.part p).emits.erase m := by
  unfold frameSent
  rw [State.modPart_part]

/-- A frame that is driven out leaves the other partitions alone. -/
theorem sendFrameOut_part_ne (h : p' ≠ p) : (sendFrameOut s p b m).part p' = s.part p' := State.modPart_part_ne _ _ _ _ h.symm

/-- The port's next frame number moves on, and it is taken for the frame's time on the wire (log entry 147). -/
theorem sendFrameOut_tx : (sendFrameOut s p b m).csi.tx.get b.port = { s.csi.tx.get b.port with
    frames := (s.csi.tx.get b.port).frames + 1
    numbers := (s.csi.tx.get b.port).numbers.set (b.vc % 32) (nextNumber ((s.csi.tx.get b.port).numbers.get ⟨b.vc % 32, by omega⟩)) (by omega)
    endAt := s.now + wireTime b.lanes b.laneMbps b.lineBytes m.payload.length } := vget_set_self _ _ _

end

/-- Settles O43: the steps of GATHER and EMIT answer what their lemmas say, and a command that starts is issued with them (`runEngine_done`); it
has its effect when it is issued (log entry 34). The gather record is log entry 56, the step-batch frame log entry 21, the frames that are not
sent log entries 20, 40 and 129, the time of a row's deadline log entry 10, the time on the wire log entry 147, and a row without an occasion
log entry 26. -/
theorem streamCommandsComplete : Obligations.StreamCommandsComplete := by
  unfold Obligations.StreamCommandsComplete
  intro s p q d
  refine ⟨?gather, ?emit, fun stream m hm => ⟨fun hreplay => ⟨execEmitFrameSend_replay hm hreplay, rfl⟩,
    fun hlive hcaught => execEmitFrameSend_caughtUp hm hlive hcaught, fun hlive hnew h => ?unsent, fun hlive hnew hrun htype =>
      ⟨fun h => execEmitFrameSend_waits hm hlive hnew hrun htype h, fun b t hfree hb ht => ?sends⟩⟩⟩
  case gather =>
    intro a c skipped e unitNo maxB stream f t hwf hstart hmax hstream hunit ha hc hnext hdst hres hown hownRes hfree hsettled hf ht
    obtain rfl := engineStarts_part hstart
    subst hmax hstream hf ht
    have hsteps := gatherSteps_serves hunit ha hc hnext hdst hres hown hownRes hfree hsettled
    exact ⟨execGather_done hstart hsteps, gatherDone_record hwf, gatherDone_bytes hwf,
      fun i l b hbuf hland haddr => landedBytes_buffer hbuf hland haddr, gatherDone_journal, gatherDone_hbm⟩
  case emit =>
    intro tokens a unitNo n stream t hstart ha hn hstream hunit hsrc hown hsecond hfirst
    obtain rfl := engineStarts_part hstart
    subst hunit
    have hexec := execEmit_done hstart (emitSteps_serves (tokens := tokens) hn hstream ha hsrc hown)
    cases hbatch : secondBatch (s.part d.p) stream with
    | true =>
      obtain rfl := hsecond hbatch
      rw [hbatch] at hexec
      exact ⟨hexec, rfl, rfl, rfl⟩
    | false =>
      obtain rfl := hfirst hbatch
      rw [hbatch] at hexec
      exact ⟨hexec, emitted_same⟩
  case unsent =>
    exact ⟨_, execEmitFrameSend_unsent hm hlive hnew h, rfl, frameSent_emits 0⟩
  case sends =>
    have hexec := execEmitFrameSend_sends hm hlive hnew hrun htype hfree hb ht
    refine ⟨fun hlower => hexec.trans (by rw [if_pos hlower]), fun hlower => ?_⟩
    rw [hlower, if_neg Bool.false_ne_true] at hexec
    obtain rfl : m.stream = stream := by simpa using List.find?_some hm
    have hnow : (s.reach t).now = t := Nat.max_eq_right (by omega)
    refine ⟨_, hexec, hnow, rfl, emitHeader_length _, frameSent_emits _, rfl, fun p' hp' => sendFrameOut_part_ne hp', ?_, ?_⟩
    · rw [sendFrameOut_tx]
      exact vget_set_self _ ⟨b.vc % 32, by omega⟩ _
    · rw [sendFrameOut_tx, hnow]

end Sys2Proof.Machine

namespace Sys2Proof.Machine

/-! ## One step (O1) and the CCCs of an I3C port (O2, O3, O4) -/

/-- Settles O1: `step` looks at the queue alone (log entry 1). -/
theorem stepRunsFrontCommand : Obligations.StepRunsFrontCommand := by
  unfold Obligations.StepRunsFrontCommand
  refine ⟨fun c rest s => rfl, fun s hempty => ?_⟩
  unfold step
  rw [hempty]

/-! ### Who obeys a CCC (11 R288, R289) -/

section
variable {s : State} {x : I3cId} {c : CccForm} {f : State → State}

theorem directCcc_acks (h : portAcks s x = true) : directCcc s x f = .next (f s) := if_pos h

theorem directCcc_nack (h : portAcks s x = false) : directCcc s x f = .next (s.emit (.i3cNack x)) := by simp [directCcc, h]

theorem broadcastCcc_hears (h : portHears s x = true) : broadcastCcc s x f = .next (f s) := if_pos h

/-- A CCC in either form is obeyed by a port that hears it, and in its direct form acknowledges it. -/
theorem formCcc_obeyed (hears : portHears s c.port = true) (acks : c.direct = true → portAcks s c.port = true) :
    formCcc s c f = .next (f s) := by
  unfold formCcc
  split
  · exact directCcc_acks (acks ‹_›)
  · exact broadcastCcc_hears hears

theorem formCcc_nack (hdirect : c.direct = true) (h : portAcks s c.port = false) : formCcc s c f = .next (s.emit (.i3cNack c.port)) := by
  rw [formCcc, if_pos hdirect, directCcc_nack h]

end

/-! ### Private transfers (11 R288, R291) -/

section
variable {s : State} {x : I3cId} {bytes : Nat} {f : State → State}

theorem onPrivate_acks (h : portAcks s x = true) : onPrivate s x f = .next (f s) := if_pos h

theorem onPrivate_nack (h : portAcks s x = false) : onPrivate s x f = .next (s.emit (.i3cNack x)) := by simp [onPrivate, h]

theorem privateRead_nack (h : portAcks s x = false ∨ pointerReady s x = false) : privateRead s x bytes = .next (s.emit (.i3cNack x)) := by
  obtain h | h := h <;> simp [privateRead, h]

end

/-- Settles O2: an acknowledging port obeys a direct CCC (`directCcc_acks`), any other drives the missing acknowledgement alone. -/
theorem i3cGetsDriveTheirBytes : Obligations.I3cGetsDriveTheirBytes := by
  unfold Obligations.I3cGetsDriveTheirBytes
  intro x s
  unfold exec
  refine ⟨fun hacks => ?_, fun offset bytes hsilent => ?_⟩
  · exact ⟨directCcc_acks hacks, directCcc_acks hacks, directCcc_acks hacks, directCcc_acks hacks, directCcc_acks hacks, directCcc_acks hacks,
      directCcc_acks hacks⟩
  · exact ⟨directCcc_nack hsilent, directCcc_nack hsilent, onPrivate_nack hsilent, privateRead_nack (.inl hsilent)⟩

/-! ### Addresses and lengths (11 R288, R289) -/

section
variable {s : State} {x : I3cId} {addr v : Nat}

theorem execSetdasa_assigns (hears : portHears s x = true) (hready : recovering s x = false) (hnone : (s.port x).dynAddr = none)
    (hpos : 0 < addr) (hlt : addr < 128) :
    execSetdasa x (0x08 + s.fuses.slot) addr s = .next ((s.modPort x (fun q => { q with dynAddr := some addr })).emit (.i3cAck x)) := by
  simp [execSetdasa, hears, hready, hnone, hpos, hlt]

theorem execSetdasa_nack {st : Nat} (h : recovering s x = true ∨ (s.port x).dynAddr ≠ none) :
    execSetdasa x st addr s = .next (s.emit (.i3cNack x)) := by
  obtain h | h := h
  · simp [execSetdasa, h]
  · simp [execSetdasa, Option.isNone_eq_false_iff.mpr (Option.isSome_iff_ne_none.mpr h)]

end

/-- A length within its range is set, and any other leaves the state as it was. -/
theorem lengthSet (s : State) (x : I3cId) (lo hi v : Nat) (f : I3cPort → I3cPort) :
    (lo ≤ v → v ≤ hi → (if lo ≤ v && v ≤ hi then s.modPort x f else s) = s.modPort x f) ∧
    (v < lo ∨ hi < v → (if lo ≤ v && v ≤ hi then s.modPort x f else s) = s) := by
  refine ⟨fun hlo hhi => if_pos (by simp [hlo, hhi]), fun hout => if_neg ?_⟩
  simp only [Bool.and_eq_true, decide_eq_true_eq]
  omega

/-- Settles O3: SETDASA and RSTDAA by their definitions, the lengths by `formCcc_obeyed` and `lengthSet`. -/
theorem i3cAddressAndLengths : Obligations.I3cAddressAndLengths := by
  unfold Obligations.I3cAddressAndLengths
  intro x s addr v hears
  unfold exec
  refine ⟨execSetdasa_assigns hears, execSetdasa_nack, broadcastCcc_hears hears, fun f hport hacks => ?_, fun f hport hdirect hsilent => ?_⟩
  · subst hport
    have hmwl := lengthSet s f.port 6 4098 v (fun q => { q with mwl := v })
    have hmrl := lengthSet s f.port 4 4096 v (fun q => { q with mrl := v })
    exact ⟨fun hlo hhi => (formCcc_obeyed hears hacks).trans (congrArg _ (hmwl.1 hlo hhi)),
      fun hlo hhi => (formCcc_obeyed hears hacks).trans (congrArg _ (hmrl.1 hlo hhi)),
      fun hout => (formCcc_obeyed hears hacks).trans (congrArg _ (hmwl.2 hout)),
      fun hout => (formCcc_obeyed hears hacks).trans (congrArg _ (hmrl.2 hout))⟩
  · subst hport
    exact ⟨formCcc_nack hdirect hsilent, formCcc_nack hdirect hsilent⟩

/-! ### Modes and port resets (11 R289) -/

theorem execRstactNoReset_zero {s : State} {f : RstactForm} (hzero : f.defining = 0) :
    execRstactNoReset f s = formCcc s { port := f.port, direct := f.direct } (fun s => s.emit (.i3cAck f.port)) := if_pos hzero

theorem execRstactRecoveryEnd_at {s : State} {x : I3cId} {t : Ns} (h : (s.port x).recoverAt = some t) :
    execRstactRecoveryEnd x s = .next ((s.reach t).modPort x (fun q => { q with recoverAt := none })) := by
  unfold execRstactRecoveryEnd
  rw [h]

/-- Settles O4: each of the four CCCs is obeyed or not as `formCcc_obeyed` and `formCcc_nack` say; the end of a recovery acts at its
instant (log entry 10). -/
theorem i3cModesAndPortReset : Obligations.I3cModesAndPortReset := by
  unfold Obligations.I3cModesAndPortReset
  intro x s hears
  unfold exec
  refine ⟨fun f hport hacks => ?obeyed, fun f hport hdirect hsilent => ?nack, fun f hport hother => ?defining, broadcastCcc_hears hears,
    broadcastCcc_hears hears, broadcastCcc_hears hears, fun u hon => if_neg hon, fun u at_ hat => execRstactRecoveryEnd_at hat⟩
  case obeyed =>
    subst hport
    exact ⟨(execRstactNoReset_zero rfl).trans (formCcc_obeyed hears hacks), formCcc_obeyed hears hacks, formCcc_obeyed hears hacks,
      formCcc_obeyed hears hacks⟩
  case nack =>
    subst hport
    exact ⟨(execRstactNoReset_zero rfl).trans (formCcc_nack rfl hsilent), formCcc_nack hdirect hsilent, formCcc_nack hdirect hsilent,
      formCcc_nack hdirect hsilent⟩
  case defining =>
    subst hport
    exact if_neg hother

end Sys2Proof.Machine

namespace Sys2Proof.Machine

/-! ## Register writes, posts and reads of an I3C port (O5, O6, O7, O9) -/

/-! ### The mailbox buffers (11 R290, R296) -/

/-- The words of the command or the bulk buffer. -/
def I3cPort.words (q : I3cPort) (bulk : Bool) : Bytes := if bulk then q.bulk else q.cmd

/-- The buffer is posted. -/
def I3cPort.full (q : I3cPort) (bulk : Bool) : Bool := if bulk then q.bulkFull else q.cmdFull

/-- The port once `bs` have joined the buffer. -/
def I3cPort.addWords (q : I3cPort) (bulk : Bool) (bs : Bytes) : I3cPort :=
  if bulk then { q with bulk := q.bulk ++ bs } else { q with cmd := q.cmd ++ bs }

/-- The offset of MBX_x_CMD_DATA or MBX_x_BULK_DATA. -/
def dataOffset (bulk : Bool) : Nat := if bulk then 0x0214 else 0x0210

section
variable {s : State} {x : I3cId} {bulk : Bool} {q : I3cPort} {bs bs' data : Bytes} {v off : Nat}

@[simp] theorem words_addWords : (q.addWords bulk bs).words bulk = q.words bulk ++ bs := by cases bulk <;> rfl
@[simp] theorem full_addWords : (q.addWords bulk bs).full bulk = q.full bulk := by cases bulk <;> rfl
@[simp] theorem addWords_nil : q.addWords bulk [] = q := by cases bulk <;> simp [I3cPort.addWords]
@[simp] theorem addWords_addWords : (q.addWords bulk bs).addWords bulk bs' = q.addWords bulk (bs ++ bs') := by
  cases bulk <;> simp [I3cPort.addWords]

theorem regWrite_data : regWrite s x (dataOffset bulk) v = dataWrite s x bulk v := by cases bulk <;> rfl

theorem dataWrite_joins (hopen : (s.port x).full bulk = false) (hfits : ((s.port x).words bulk).length + 4 ≤ 4096) :
    dataWrite s x bulk v = s.setPort x ((s.port x).addWords bulk (leBytes 4 v)) := by
  have hjoins : ¬ ((s.port x).full bulk || decide (4096 < ((s.port x).words bulk).length + 4)) = true := by
    simp only [hopen, Bool.false_or, decide_eq_true_eq]
    omega
  cases bulk
  · exact congrArg (s.setPort x) (if_neg hjoins)
  · exact congrArg (s.setPort x) (if_neg hjoins)

theorem dataWrite_overruns (h : (s.port x).full bulk = true ∨ 4092 < ((s.port x).words bulk).length) :
    dataWrite s x bulk v = s.setPort x { s.port x with overrun := min ((s.port x).overrun + 1) 255 } := by
  have hfull : ((s.port x).full bulk || decide (4096 < ((s.port x).words bulk).length + 4)) = true := by
    simp only [Bool.or_eq_true, decide_eq_true_eq]
    exact h.imp_right fun hlong => by omega
  cases bulk
  · exact congrArg (s.setPort x) (if_pos hfull)
  · exact congrArg (s.setPort x) (if_pos hfull)

/-- A data register takes every group of a write. -/
theorem writeGroups_data_cons {vs : List Nat} :
    writeGroups s x (dataOffset bulk) (v :: vs) = writeGroups (dataWrite s x bulk v) x (dataOffset bulk) vs := by
  rw [writeGroups, regWrite_data]
  cases bulk <;> rfl

/-- The whole words of a write join an unposted buffer while they fit 4,096 bytes. -/
theorem writeGroups_data_joins (hopen : (s.port x).full bulk = false) (hfits : ((s.port x).words bulk).length + data.length ≤ 4096) :
    writeGroups s x (dataOffset bulk) (groups data) = s.setPort x ((s.port x).addWords bulk (data.take (4 * (data.length / 4)))) := by
  induction data using groups.induct generalizing s with
  | case1 a b c d bs ih =>
    simp only [List.length_cons] at hfits
    have htake : (a :: b :: c :: d :: bs).take (4 * ((a :: b :: c :: d :: bs).length / 4)) = [a, b, c, d] ++ bs.take (4 * (bs.length / 4)) := by
      rw [show 4 * ((a :: b :: c :: d :: bs).length / 4) = 4 * (bs.length / 4) + 4 by simp only [List.length_cons]; omega]
      rfl
    have hjoin := dataWrite_joins (v := leNat [a, b, c, d]) hopen (by omega)
    rw [show leBytes 4 (leNat [a, b, c, d]) = [a, b, c, d] from leBytes_leNat [a, b, c, d]] at hjoin
    rw [groups, writeGroups_data_cons, hjoin, ih, htake]
    · simp only [State.setPort_port, State.setPort_setPort, addWords_addWords]
    · simpa using hopen
    · simp only [State.setPort_port, words_addWords, List.length_append, List.length_cons, List.length_nil]
      omega
  | case2 data hshort =>
    have hnone : groups data = [] := by
      rw [groups]
      exact hshort
    have hlt : data.length / 4 = 0 := by
      match data, hshort with
      | [], _ | [_], _ | [_, _], _ | [_, _, _], _ => simp
      | a :: b :: c :: d :: bs, h => exact absurd rfl (h a b c d bs)
    rw [hnone, hlt]
    simp [writeGroups]

end

/-! ### Private writes (11 R290, R292) -/

section
variable {s : State} {x : I3cId} {off v : Nat} {data : Bytes} {bulk : Bool}

theorem privateWrite_pointer (hlt : off < 65536) (haligned : off % 4 = 0) :
    privateWrite s x off [] = s.setPort x { s.port x with
      pointer := off
      pointerAt := some s.now
      rspAt := if off = 0x0218 then 0 else (s.port x).rspAt
      logAt := if off = 0x021C then 0 else (s.port x).logAt } := by
  simp [privateWrite, Nat.mod_eq_of_lt hlt, haligned, State.modPort]

theorem privateWrite_misaligned (hlt : off < 65536) (h : off % 4 ≠ 0) :
    privateWrite s x off data = s.setPort x { s.port x with malformed := min ((s.port x).malformed + 1) 255 } := by
  unfold privateWrite
  rw [Nat.mod_eq_of_lt hlt]
  exact if_pos h

theorem privateWrite_data (hdata : data ≠ []) : privateWrite s x (dataOffset bulk) data = writeGroups s x (dataOffset bulk) (groups data) := by
  cases bulk <;> simp [privateWrite, dataOffset, hdata]

/-- One word written to a register that is no data register. -/
theorem privateWrite_word {b0 b1 b2 b3 : Byte} (hlt : off < 65536) (haligned : off % 4 = 0) :
    privateWrite s x off [b0, b1, b2, b3] = regWrite s x off (leNat [b0, b1, b2, b3]) := by
  simp [privateWrite, Nat.mod_eq_of_lt hlt, haligned, groups, writeGroups]

theorem execDataRegisterRewind_eq (h : off = 0x0218 ∨ off = 0x021C) :
    execDataRegisterRewind x off s = onPrivate s x (fun s => privateWrite s x off []) := if_pos (by simpa using h)

theorem regWrite_abort : regWrite s x 0x020C (if bulk then 2 else 1) = abortWrite s x bulk := by cases bulk <;> rfl

theorem regWrite_post : regWrite s x 0x0204 (if bulk then 2 else 1) = postWrite s x bulk := by cases bulk <;> rfl

theorem takeRsp_head {r : Bytes} {rs : List Bytes} (hhead : (s.port x).responses = r :: rs) (hcmd : (s.port x).cmdFull = false)
    (hbulk : (s.port x).bulkFull = false) : takeRsp s x = s.setPort x { s.port x with responses := rs, rspAt := 0 } := by
  simp [takeRsp, hhead, hcmd, hbulk, State.modPort]

theorem takeLog_urgent {first n : Nat} {bytes : Bytes} (hlog : (s.port x).log = some (true, first, n, bytes)) :
    takeLog s x = s.setPort x { s.port x with log := none, logAt := 0 } := by
  simp [takeLog, hlog, State.modPort]

theorem takeLog_copy {first n : Nat} {bytes : Bytes} (hlog : (s.port x).log = some (false, first, n, bytes)) :
    takeLog s x = (s.setPort x { s.port x with log := none, logAt := 0, cursor := first + n }).modEvents (fun e => { e with
      takenUpTo := rangeAdd e.takenUpTo first (first + n)
      copied := max e.copied (first + n) }) := by
  simp [takeLog, hlog, State.modPort]

theorem romServes_off (hstep : 5 ≤ s.fw.startStep) : romServes s = false := by
  simp [romServes, hstep]

theorem regWrite_nextLo (hstep : 5 ≤ s.fw.startStep) :
    regWrite s x 0x0610 v = s.setPort x { s.port x with nextLo := BitVec.ofNat 32 v } :=
  if_neg (by simp [romServes_off hstep])

theorem nextHiWrite_commits (hstep : 5 ≤ s.fw.startStep) (hvalid : commitValid s = true) :
    nextHiWrite s x v = s.setPort x { s.port x with commit := some (v * 2 ^ 32 + (s.port x).nextLo.toNat) } := by
  simp [nextHiWrite, romServes_off hstep, hvalid, State.modPort]

theorem nextHiWrite_counts (hstep : 5 ≤ s.fw.startStep) (hvalid : commitValid s = false) :
    nextHiWrite s x v = { s with time := { s.time with annBad := min (s.time.annBad + 1) 255 } } := by
  simp [nextHiWrite, romServes_off hstep, hvalid, State.modTime, satAdd]

end

/-- Settles O5: an acknowledged private transfer does its write (`onPrivate_acks`), and each write what its lemma above says. -/
theorem registerWritesReachTheirRegisters : Obligations.RegisterWritesReachTheirRegisters := by
  unfold Obligations.RegisterWritesReachTheirRegisters
  intro x s offset data b0 b1 b2 b3 v
  simp only [List.forall_mem_cons]
  unfold exec
  refine ⟨fun hacks => ?_, fun hsilent => ?_⟩
  · have hdo : ∀ {f : State → State} {u : State}, f s = u → onPrivate s x f = .next u := fun h => (onPrivate_acks hacks).trans (congrArg _ h)
    refine ⟨fun hlt haligned hrsp hlog => hdo ?_, fun hlt hmis => hdo (privateWrite_misaligned hlt hmis), hdo rfl,
      fun hstep => hdo ((privateWrite_word (by decide) rfl).trans (regWrite_nextLo hstep)), (execDataRegisterRewind_eq (.inl rfl)).trans (hdo (privateWrite_pointer (by decide) rfl)),
      (execDataRegisterRewind_eq (.inr rfl)).trans (hdo (privateWrite_pointer (by decide) rfl)), fun hdata hopen hfits => hdo ?_, fun hdata hopen hfits => hdo ?_, fun hfull => hdo ?_,
      fun hfull => hdo ?_, fun hopen => hdo ?_, fun hopen => hdo ?_, fun r rs hhead hcmd hbulk => hdo (takeRsp_head hhead hcmd hbulk),
      fun first n bytes hlog => hdo (takeLog_urgent hlog), fun first n bytes hlog => hdo (takeLog_copy hlog),
      fun hstep hvalid => hdo (nextHiWrite_commits hstep hvalid), fun hstep hvalid => hdo (nextHiWrite_counts hstep hvalid)⟩
    · rw [privateWrite_pointer hlt haligned, if_neg hrsp, if_neg hlog]
    · exact (privateWrite_data (bulk := false) hdata).trans (writeGroups_data_joins hopen hfits)
    · exact (privateWrite_data (bulk := true) hdata).trans (writeGroups_data_joins hopen hfits)
    · exact (privateWrite_word (by decide) rfl).trans ((regWrite_data (bulk := false)).trans (dataWrite_overruns hfull))
    · exact (privateWrite_word (by decide) rfl).trans ((regWrite_data (bulk := true)).trans (dataWrite_overruns hfull))
    · exact (regWrite_abort (bulk := false)).trans (by simp [abortWrite, State.modPort, hopen])
    · exact (regWrite_abort (bulk := true)).trans (by simp [abortWrite, State.modPort, hopen])
  · have hnack : ∀ {f : State → State}, onPrivate s x f = .next (s.emit (.i3cNack x)) := onPrivate_nack hsilent
    exact ⟨hnack, hnack, hnack, (execDataRegisterRewind_eq (.inl rfl)).trans hnack, (execDataRegisterRewind_eq (.inr rfl)).trans hnack, hnack, hnack,
      hnack, hnack, hnack, hnack, hnack, fun _ h => absurd h List.not_mem_nil⟩

end Sys2Proof.Machine

namespace Sys2Proof.Machine

/-! ### Taking a post (11 R296, R297; 16 R447) -/

/-- What O6 says of a post beside the buffer: the mailboxes of port `x`, memory and the partitions. -/
def mailView (x : I3cId) (s : State) : (Bytes × Bytes × Bool × Bool × BitVec 16) × Mem × Vector Part 8 :=
  (((s.port x).cmd, (s.port x).bulk, (s.port x).cmdFull, (s.port x).bulkFull, (s.port x).posted), s.mem, s.parts)

section
variable (x y : I3cId) (s : State)

/-- A change of a port that touches no mailbox. -/
theorem setPort_mailView {q : I3cPort} (hcmd : q.cmd = (s.port y).cmd) (hbulk : q.bulk = (s.port y).bulk)
    (hcmdFull : q.cmdFull = (s.port y).cmdFull) (hbulkFull : q.bulkFull = (s.port y).bulkFull) (hposted : q.posted = (s.port y).posted) :
    mailView x (s.setPort y q) = mailView x s := by
  unfold mailView
  by_cases h : y = x
  · subst h
    simp only [State.setPort_port, hcmd, hbulk, hcmdFull, hbulkFull, hposted, State.setPort_mem, State.setPort_parts]
  · rw [State.setPort_port_ne _ _ _ _ h, State.setPort_mem, State.setPort_parts]

/-- An event touches of a port at most its log message. -/
theorem event_port {β : Type} (v : I3cPort → β) (hv : ∀ q log, v { q with log := log, logAt := 0 } = v q) (unitNo code part : Nat) (data : Bytes) :
    v ((s.event unitNo code part data).port x) = v (s.port x) := by
  have hlog : ∀ (y : I3cId) (u : State) (log : Option (Bool × Nat × Nat × Bytes)),
      v ((u.modPort y (fun q => { q with log := log, logAt := 0 })).port x) = v (u.port x) := by
    intro y u log
    by_cases h : y = x
    · subst h
      rw [State.modPort_port, hv]
    · rw [State.modPort_port_ne _ _ _ _ h]
  unfold State.event
  extract_lets u e n lost t
  split
  · rfl
  · split
    · exact (hlog 1 _ _).trans (hlog 0 t _)
    · rfl

theorem event_mailView (unitNo code part : Nat) (data : Bytes) : mailView x (s.event unitNo code part data) = mailView x s := by
  have hport := event_port x s (fun q => (q.cmd, q.bulk, q.cmdFull, q.bulkFull, q.posted)) (fun _ _ => rfl) unitNo code part data
  unfold mailView
  rw [hport, State.event_mem, State.event_parts]

theorem answer_mailView (t : Taken) (status : Nat) (tail : Bytes) : mailView x (answer s t status tail) = mailView x s := by
  unfold answer
  extract_lets q r l mine n u
  have hu : mailView x u = mailView x s := setPort_mailView x t.port s rfl rfl rfl rfl rfl
  split <;> exact hu

theorem endSession_mailView (kind : Nat) : mailView x (endSession s y kind) = mailView x s := by
  unfold endSession
  extract_lets n u v
  have hu : mailView x u = mailView x s := setPort_mailView x y s rfl rfl rfl rfl rfl
  have hv : mailView x v = mailView x u := by
    unfold v
    split
    · exact event_mailView ..
    · rfl
  exact (event_mailView ..).trans (hv.trans hu)

theorem expireSession_mailView : mailView x (expireSession s y) = mailView x s := by
  unfold expireSession
  split
  · exact endSession_mailView ..
  · rfl

theorem enterOrder_mailView (m : Msg) : mailView x (enterOrder s y m) = mailView x s := by
  unfold enterOrder
  split
  · rfl
  · split
    · exact answer_mailView ..
    · rfl

theorem tallyRate_mailView : mailView x (tallyRate s y).2 = mailView x s := by
  unfold tallyRate
  dsimp only
  split <;> exact setPort_mailView x y s rfl rfl rfl rfl rfl

theorem admitMsg_mailView (bulk : Bool) (m : Msg) : mailView x (admitMsg s y bulk m) = mailView x s := by
  have hrate := tallyRate_mailView x y s
  unfold admitMsg
  dsimp only
  split
  · exact enterOrder_mailView ..
  · split
    · split
      · rename_i u h
        rw [h] at hrate
        exact hrate
      · rename_i u h
        rw [h] at hrate
        exact (answer_mailView ..).trans hrate
    · rfl

end

section
variable {s : State} {x : I3cId} {bulk : Bool}

/-- A post that is taken leaves its buffer empty and not posted and is counted; the other buffer, memory and the partitions stay. -/
theorem takePost_mailView : mailView x (takePost s x bulk) =
    ((if bulk then (s.port x).cmd else [], if bulk then [] else (s.port x).bulk, bulk && (s.port x).cmdFull, !bulk && (s.port x).bulkFull,
      (s.port x).posted + 1), s.mem, s.parts) := by
  have hexpire := expireSession_mailView x x s
  unfold takePost
  extract_lets u q raw m last session q' repeated e v
  have hq' : ∀ r : I3cPort, r.cmd = q'.cmd → r.bulk = q'.bulk → r.cmdFull = q'.cmdFull → r.bulkFull = q'.bulkFull → r.posted = q'.posted →
      mailView x (u.setPort x r) = ((if bulk then (s.port x).cmd else [], if bulk then [] else (s.port x).bulk, bulk && (s.port x).cmdFull,
        !bulk && (s.port x).bulkFull, (s.port x).posted + 1), s.mem, s.parts) := by
    intro r hcmd hbulk hcmdFull hbulkFull hposted
    simp only [mailView, Prod.mk.injEq] at hexpire ⊢
    obtain ⟨⟨h1, h2, h3, h4, h5⟩, h6, h7⟩ := hexpire
    simp only [State.setPort_port, State.setPort_mem, State.setPort_parts, hcmd, hbulk, hcmdFull, hbulkFull, hposted]
    refine ⟨⟨?_, ?_, ?_, ?_, ?_⟩, h6, h7⟩
    · rw [← h1]
    · rw [← h2]
    · rw [← h3]; cases bulk <;> rfl
    · rw [← h4]; cases bulk <;> rfl
    · rw [← h5]
  split
  · rename_i hrepeated
    clear_value last
    cases last with
    | none => exact absurd hrepeated (by simp [repeated])
    | some e =>
      dsimp only
      split <;> exact hq' _ rfl rfl rfl rfl rfl
  · have hv : mailView x v = _ := hq' _ rfl rfl rfl rfl rfl
    split
    · refine (answer_mailView ..).trans ?_
      split
      · refine Eq.trans ?_ hv
        exact setPort_mailView x x v rfl rfl rfl rfl rfl
      · exact hv
    · exact (admitMsg_mailView ..).trans hv

/-- No switch window is open once a post has waited for its end. -/
theorem switching_afterWindow : switching (afterWindow s) = false := by
  unfold afterWindow
  split
  · rename_i t h
    simp [switching, State.reach, h]
  · rename_i h
    simp [switching, h]

theorem afterWindow_port : (afterWindow s).port x = s.port x := by
  unfold afterWindow
  split <;> rfl

theorem afterWindow_mem_parts : (afterWindow s).mem = s.mem ∧ (afterWindow s).parts = s.parts := by
  unfold afterWindow
  split <;> exact ⟨rfl, rfl⟩

/-- The port once a buffer is posted. -/
def I3cPort.post (q : I3cPort) (bulk : Bool) : I3cPort := { q with cmdFull := q.cmdFull || !bulk, bulkFull := q.bulkFull || bulk }

theorem postWrite_eq : postWrite s x bulk = takeWaiting ((afterWindow s).setPort x ((s.port x).post bulk)) x := by
  rw [postWrite, State.modPort, afterWindow_port]
  rfl

/-- With 15 responses queued or owed a post waits. -/
theorem takeWaiting_full {u : State} (hfull : 15 ≤ (u.port x).responses.length + (u.port x).owed) : takeWaiting u x = u := by
  have hno : mayTake u x = false := by simp [mayTake, Nat.not_lt.mpr hfull]
  simp [takeWaiting, hno]

/-- With room for its response the one post that waits is taken. -/
theorem takeWaiting_takes {u : State} (hfull : (u.port x).full bulk = true) (hother : (u.port x).full (!bulk) = false) (hmay : mayTake u x = true) :
    takeWaiting u x = takePost u x bulk := by
  cases bulk
  · have hbulk : ((takePost u x false).port x).bulkFull = (u.port x).bulkFull := congrArg (·.1.2.2.2.1) (takePost_mailView (bulk := false))
    simp only [I3cPort.full, Bool.not_false, if_true, Bool.false_eq_true, if_false] at hfull hother
    simp [takeWaiting, hfull, hmay, hbulk, hother]
  · simp only [I3cPort.full, Bool.not_true, if_true, Bool.false_eq_true, if_false] at hfull hother
    simp [takeWaiting, hfull, hmay, hother]

/-- A post with room for its response. -/
theorem postWrite_takes (hother : (s.port x).full (!bulk) = false) (hroom : (s.port x).responses.length + (s.port x).owed < 15) :
    postWrite s x bulk = takePost ((afterWindow s).setPort x ((s.port x).post bulk)) x bulk := by
  rw [postWrite_eq]
  refine takeWaiting_takes ?_ ?_ ?_
  · cases bulk <;> simp [I3cPort.full, I3cPort.post]
  · cases bulk <;> simpa [I3cPort.full, I3cPort.post] using hother
  · have hclosed : switching ((afterWindow s).setPort x ((s.port x).post bulk)) = false := switching_afterWindow
    rw [mayTake, hclosed, State.setPort_port]
    exact (Bool.and_true _).trans (decide_eq_true hroom)

/-- What a post that is taken leaves of its buffer, of memory and of the partitions. -/
theorem takePost_posted {u : State} (hq : (u.port x).posted = (s.port x).posted) (hm : u.mem = s.mem) (hp : u.parts = s.parts) :
    ((takePost u x bulk).port x).full bulk = false ∧ ((takePost u x bulk).port x).words bulk = [] ∧
      ((takePost u x bulk).port x).posted = (s.port x).posted + 1 ∧ (takePost u x bulk).mem = s.mem ∧ (takePost u x bulk).parts = s.parts := by
  have htake := takePost_mailView (s := u) (x := x) (bulk := bulk)
  simp only [mailView, Prod.mk.injEq] at htake
  obtain ⟨⟨hcmd, hbulk, hcmdFull, hbulkFull, hposted⟩, hmem, hparts⟩ := htake
  refine ⟨?_, ?_, by rw [hposted, hq], hmem.trans hm, hparts.trans hp⟩
  · cases bulk
    · exact hcmdFull
    · exact hbulkFull
  · cases bulk
    · exact hcmd
    · exact hbulk

end

/-- Settles O6: a post waits for the end of an open switch window (`switching_afterWindow`) and is then taken or left by `takeWaiting`
(log entry 33); what taking it leaves is `takePost_mailView`. -/
theorem postsAreTakenOrWait : Obligations.PostsAreTakenOrWait := by
  unfold Obligations.PostsAreTakenOrWait
  intro x s w hw
  have hw : w = afterWindow s := by
    rw [hw]
    unfold afterWindow
    split <;> rfl
  subst hw
  obtain ⟨hmem, hparts⟩ := afterWindow_mem_parts (s := s)
  have hposted : ∀ bulk, (((afterWindow s).setPort x ((s.port x).post bulk)).port x).posted = (s.port x).posted := fun bulk => by
    rw [State.setPort_port]
    rfl
  unfold exec
  refine ⟨fun hacks => ⟨fun hother hroom => ?_, fun hother hroom => ?_, fun hfull => ?_⟩, fun hsilent => ⟨onPrivate_nack hsilent, onPrivate_nack hsilent⟩⟩
  · have hq : (s.port x).post false = { s.port x with cmdFull := true } := by simp [I3cPort.post]
    rw [← hq]
    exact ⟨_, (onPrivate_acks hacks).trans (congrArg _ ((regWrite_post (bulk := false)).trans (postWrite_takes hother hroom))), rfl,
      takePost_posted (bulk := false) (hposted false) hmem hparts⟩
  · have hq : (s.port x).post true = { s.port x with bulkFull := true } := by simp [I3cPort.post]
    rw [← hq]
    exact ⟨_, (onPrivate_acks hacks).trans (congrArg _ ((regWrite_post (bulk := true)).trans (postWrite_takes hother hroom))), rfl,
      takePost_posted (bulk := true) (hposted true) hmem hparts⟩
  · have hwaits : ∀ bulk, postWrite s x bulk = (afterWindow s).setPort x ((s.port x).post bulk) := fun bulk => by
      rw [postWrite_eq, takeWaiting_full]
      simpa [I3cPort.post] using hfull
    exact ⟨(onPrivate_acks hacks).trans (congrArg _ ((regWrite_post (bulk := false)).trans ((hwaits false).trans (by simp [I3cPort.post])))),
      (onPrivate_acks hacks).trans (congrArg _ ((regWrite_post (bulk := true)).trans ((hwaits true).trans (by simp [I3cPort.post]))))⟩

end Sys2Proof.Machine

namespace Sys2Proof.Machine

/-! ### Private reads (11 R289, R291, R293; 18 R470, R472) -/

section
variable {s : State} {x : I3cId} {bytes off : Nat}

theorem privateRead_drives (hacks : portAcks s x = true) (hready : pointerReady s x = true) :
    privateRead s x bytes = .next ((readRegs (ceilDiv (min bytes (s.port x).mrl) 4) s x (s.port x).pointer).2.emit
      (.i3cData x ((readRegs (ceilDiv (min bytes (s.port x).mrl) 4) s x (s.port x).pointer).1.take (min bytes (s.port x).mrl)))) := by
  unfold privateRead
  rw [hacks, hready]
  rfl

/-- A read of one register. -/
theorem privateRead_one (hacks : portAcks s x = true) (hready : pointerReady s x = true) (hmrl : 4 ≤ (s.port x).mrl) (hptr : (s.port x).pointer = off) :
    privateRead s x 4 = .next (((regAfter s x off).modPort x (fun q => { q with pointer := nextOff off })).emit
      (.i3cData x (leBytes 4 (regValue s x off)))) := by
  have hbytes : (leBytes 4 (regValue s x off) ++ []).take 4 = leBytes 4 (regValue s x off) := rfl
  rw [privateRead_drives hacks hready, Nat.min_eq_left hmrl, hptr]
  exact congrArg (fun bs => Host.Outcome.next (((regAfter s x off).modPort x (fun q => { q with pointer := nextOff off })).emit (.i3cData x bs))) hbytes

/-- What `isLo` says of an offset, for arithmetic. -/
theorem isLo_iff : isLo off = true ↔
    (off = 0x0008 ∨ off = 0x0414 ∨ off = 0x0604 ∨ off = 0x0A10 ∨ off = 0x0A18 ∨ off = 0x0A20 ∨ off = 0x1C04 ∨ off = 0x1C0C) ∨
      (0x0C40 ≤ off ∧ off ≤ 0x0D3F ∧ (off - 0x0C40) % 0x20 = 0x0C) ∨ (0x1640 ≤ off ∧ off ≤ 0x16BF ∧ (off - 0x1640) % 8 = 0) := by
  simp [isLo, within, and_assoc, or_assoc]

/-- A register that is no _HI register reads live. -/
theorem regValue_live (h : isLo (off - 4) = false) : regValue s x off = regLive s x off := by simp [regValue, h]

/-- RSP_DATA and LOG_DATA read the next word of their message, the boot ROM serving the ports or not. -/
theorem regValue_rspData : regValue s x 0x0218 = fieldAt (headResponse (s.port x)) (4 * (s.port x).rspAt) 4 :=
  (regValue_live (by decide)).trans (if_neg (by simp))
theorem regValue_logData : regValue s x 0x021C = fieldAt (logBytes (s.port x)) (4 * (s.port x).logAt) 4 :=
  (regValue_live (by decide)).trans (if_neg (by simp))

/-- What reading a register leaves when it is neither latched nor a data register. -/
theorem regAfter_plain (hlo : isLo off = false) (hdata : isData off = false) : regAfter s x off = clearOnRead s off := by
  have hne : off ≠ 0x0218 ∧ off ≠ 0x021C := by simpa [isData] using hdata
  simp [regAfter, notePort, hlo, hne]

theorem nextOff_plain (hdata : isData off = false) (hlt : off + 4 < 65536) : nextOff off = off + 4 := by
  simp [nextOff, hdata, Nat.mod_eq_of_lt hlt]

/-- A register that a read does not clear. -/
theorem clearOnRead_plain (hpwr : off ≠ 0x0818) (hcsi : ¬(0x1040 ≤ off ∧ off ≤ 0x113F)) (hlnk : ¬(0x1240 ≤ off ∧ off ≤ 0x133F)) :
    clearOnRead s off = s := by
  have h1 : within off 0x1040 0x113F = false := by simpa [within] using hcsi
  have h2 : within off 0x1240 0x133F = false := by simpa [within] using hlnk
  simp [clearOnRead, hpwr, h1, h2]

theorem clearOnRead_counts (hstep : 5 ≤ s.fw.startStep) :
    clearOnRead s 0x0818 = { s with power := { s.power with sheds := 0, supplyHolds := 0, descents := 0, quenches := 0 } } := by
  simp [clearOnRead, romServes_off hstep, State.modPower]

theorem clearOnRead_csiFaults (n : PortId) (hstep : 5 ≤ s.fw.startStep) :
    clearOnRead s (0x104C + 0x10 * n.val) = s.modRx n (fun r => { r with hdrDiscard := 0, badLine := 0, timeout := 0, tagFail := 0 }) := by
  have hport : portIx ((0x104C + 0x10 * n.val - 0x1040) / 0x10) = n := Fin.ext (by simp only [portIx]; omega)
  have hblock : within (0x104C + 0x10 * n.val) 0x1040 0x113F = true := by simp [within]; omega
  have hreg : (0x104C + 0x10 * n.val - 0x1040) % 0x10 = 0xC := by omega
  have hpwr : 0x104C + 0x10 * n.val ≠ 0x0818 := by omega
  simp only [clearOnRead, romServes_off hstep, hpwr, hblock, hreg, hport, Bool.false_eq_true, if_false, decide_true, Bool.and_self, if_true]

theorem clearOnRead_lnkErrors (n : PortId) (hstep : 5 ≤ s.fw.startStep) :
    clearOnRead s (0x1248 + 0x10 * n.val) = s.modLink n (fun l => { l with naks := 0, fecUncorr := 0, discards := 0, gcmFail := 0 }) := by
  have hport : portIx ((0x1248 + 0x10 * n.val - 0x1240) / 0x10) = n := Fin.ext (by simp only [portIx]; omega)
  have hblock : within (0x1248 + 0x10 * n.val) 0x1240 0x133F = true := by simp [within]; omega
  have hcsi : within (0x1248 + 0x10 * n.val) 0x1040 0x113F = false := by simp [within]; omega
  have hreg : (0x1248 + 0x10 * n.val - 0x1240) % 0x10 = 0x8 := by omega
  have hpwr : 0x1248 + 0x10 * n.val ≠ 0x0818 := by omega
  simp only [clearOnRead, romServes_off hstep, hpwr, hblock, hcsi, hreg, hport, Bool.false_eq_true, if_false, decide_true, Bool.and_self, if_true, Bool.false_and]

/-- A _LO register loads the port's latch and clears nothing. -/
theorem regAfter_lo (hlo : isLo off = true) : regAfter s x off =
    s.modPort x (fun q => { q with latches := assocSet off (BitVec.ofNat 32 (regLive s x (off + 4))) q.latches }) := by
  have hoff := isLo_iff.mp hlo
  rw [regAfter, clearOnRead_plain (by omega) (by omega) (by omega), notePort, if_pos hlo]

theorem regAfter_rspData (h : (s.port x).responses ≠ []) : regAfter s x 0x0218 = s.setPort x { s.port x with rspAt := (s.port x).rspAt + 1 } := by
  rw [regAfter, clearOnRead_plain (by decide) (by decide) (by decide)]
  simp [notePort, show isLo 0x0218 = false from by decide, State.modPort, h]

theorem regAfter_logData (h : (s.port x).log ≠ none) : regAfter s x 0x021C = s.setPort x { s.port x with logAt := (s.port x).logAt + 1 } := by
  rw [regAfter, clearOnRead_plain (by decide) (by decide) (by decide)]
  simp [notePort, show isLo 0x021C = false from by decide, State.modPort, h]

end

/-- Settles O7: every read row is `privateRead` (log entry 27), a read of one register is `privateRead_one`, and what each register's
read leaves is its `regAfter` lemma (log entry 28). -/
theorem readsReturnAndClear : Obligations.ReadsReturnAndClear := by
  unfold Obligations.ReadsReturnAndClear
  intro x s
  refine ⟨fun bytes n r hn hr => ?_, fun hacks hready hstep hmrl => ?_⟩
  · subst hn hr
    have hrow : ∀ c ∈ [Instr.rspDataRead x bytes, .logDataRead x bytes, .loRegisterRead x bytes, .pwrCountsRead x bytes, .csiRxFaultsRead x bytes,
        .lnkErrorsRead x bytes], exec c s = privateRead s x bytes := by
      simp only [List.forall_mem_cons]
      exact ⟨rfl, rfl, rfl, rfl, rfl, rfl, fun _ h => absurd h List.not_mem_nil⟩
    exact fun c hc => ⟨fun hacks hready => (hrow c hc).trans (privateRead_drives hacks hready), fun h => (hrow c hc).trans (privateRead_nack h)⟩
  · have hread : ∀ {off : Nat} {u : State} {v : Nat}, (s.port x).pointer = off → regValue s x off = v →
        (regAfter s x off).modPort x (fun q => { q with pointer := nextOff off }) = u →
        privateRead s x 4 = .next (u.emit (.i3cData x (leBytes 4 v))) := by
      intro off u v hptr hv hu
      rw [privateRead_one hacks hready hmrl hptr, hv, hu]
    have hplain : ∀ {off next : Nat} {u : State}, off + 4 = next → (s.port x).pointer = off → isLo off = false → isLo (off - 4) = false → isData off = false →
        next < 65536 → clearOnRead s off = u → u.port x = s.port x →
        privateRead s x 4 = .next ((u.setPort x { s.port x with pointer := next }).emit (.i3cData x (leBytes 4 (regLive s x off)))) := by
      intro off next u hnext hptr hlo hhi hdata hlt hu hport
      refine hread hptr (regValue_live hhi) ?_
      subst hnext
      rw [regAfter_plain hlo hdata, hu, nextOff_plain hdata hlt, State.modPort, hport]
    have hnoLo : ∀ {off : Nat}, 0x1000 ≤ off → off < 0x1600 → isLo off = false := fun h h' =>
      Bool.eq_false_iff.mpr fun hlo => by have := isLo_iff.mp hlo; omega
    have hnoData : ∀ {off : Nat}, 0x1000 ≤ off → isData off = false := fun h => by simp [isData]; omega
    refine ⟨fun hptr => hplain (off := 0x0818) rfl hptr (by decide) (by decide) rfl (by decide) (clearOnRead_counts hstep) rfl,
      fun n hptr => hplain (by omega) hptr (hnoLo (by omega) (by omega)) (hnoLo (by omega) (by omega)) (hnoData (by omega)) (by omega) (clearOnRead_csiFaults n hstep) rfl,
      fun n hptr => hplain (by omega) hptr (hnoLo (by omega) (by omega)) (hnoLo (by omega) (by omega)) (hnoData (by omega)) (by omega) (clearOnRead_lnkErrors n hstep) rfl,
      fun off hptr hlo => hread hptr (regValue_live ?_) ?_, fun hptr hsome => hread hptr regValue_rspData ?_,
      fun hptr hsome => hread hptr regValue_logData ?_⟩
    · have hoff := isLo_iff.mp hlo
      exact Bool.eq_false_iff.mpr fun h => by have := isLo_iff.mp h; omega
    · have hoff := isLo_iff.mp hlo
      rw [regAfter_lo hlo, nextOff_plain (by simp [isData]; omega) (by omega)]
      simp [State.modPort]
    · rw [regAfter_rspData hsome]
      simp [State.modPort, nextOff, isData, ← hptr]
    · rw [regAfter_logData hsome]
      simp [State.modPort, nextOff, isData, ← hptr]

/-! ### Offsets that read as zero and ignore a write (18 R469) -/

section
variable {s : State} {x : I3cId} {off v : Nat}

theorem regLive_past (h : 0x2000 ≤ off) : regLive s x off = 0 := by
  unfold regLive
  split
  · rfl
  · split
    case h_17 => rfl
    all_goals omega

theorem regWrite_past (h : 0x2000 ≤ off) : regWrite s x off v = s := by
  unfold regWrite
  split
  case h_8 => rfl
  all_goals omega

end

/-- Settles O9: past the last block both functions fall through (`regLive_past`, `regWrite_past`); at each offset listed the register's
block has no such register, or none to write. -/
theorem reservedOffsetsReadZero : Obligations.ReservedOffsetsReadZero := by
  unfold Obligations.ReservedOffsetsReadZero
  intro x s off v
  refine ⟨fun h => ⟨regLive_past h, regWrite_past h⟩, fun hoff => ?_, fun hoff => ?_⟩
  · fin_cases hoff <;> exact ite_self 0
  · fin_cases hoff <;> rfl

end Sys2Proof.Machine

namespace Sys2Proof.Machine

/-! ## Sessions and order windows (O10, O12) -/

/-! ### Sessions and leases (11 R306, R307, R311) -/

section
variable (s : State) (x : I3cId)

theorem event_session (unitNo code part : Nat) (data : Bytes) : ((s.event unitNo code part data).port x).session = (s.port x).session :=
  event_port x s I3cPort.session (fun _ _ => rfl) unitNo code part data

theorem endSession_session (kind : Nat) :
    ((endSession s x kind).port x).session = { (s.port x).session with live := false, clean := kind == 0 } := by
  unfold endSession
  extract_lets n u v
  have hu : (u.port x).session = { (s.port x).session with live := false, clean := kind == 0 } := by
    simp only [u, State.modPort_port]
  have hv : (v.port x).session = (u.port x).session := by
    unfold v
    split
    · exact event_session ..
    · rfl
  rw [event_session, hv, hu]

@[simp] theorem endSession_stamp (kind : Nat) : (endSession s x kind).stamp = s.stamp := by simp [State.stamp]

/-- A session whose lease has run out is ended, and only then. -/
theorem expireSession_live : ((expireSession s x).port x).session.live = sessionLive s x := by
  unfold expireSession sessionLive
  by_cases hlive : (s.port x).session.live = true <;> by_cases hend : leaseEnd s x ≤ s.stamp
  · simp [hlive, hend, endSession_session, Nat.not_lt.mpr hend]
  · simp [hlive, hend, Nat.lt_of_not_le hend]
  · simp [hlive]
  · simp [hlive]

@[simp] theorem expireSession_stamp : (expireSession s x).stamp = s.stamp := by simp [State.stamp]

end

/-- The state in which SESSION_OPEN opens a session: what it held is ended (11 R306). -/
def sessionEnded (s : State) (x : I3cId) : State := if sessionLive s x then endSession s x 2 else s

/-- `s` once a session has opened as `t` asks, before its answer (11 R306, R308, R309). -/
def sessionOpened (s : State) (t : Taken) : State :=
  let u := sessionEnded s t.port
  let v := (u.modPort t.port (fun q => { q with session := { q.session with
    live := true
    number := u.orders.nextSession
    iface := t.field 0 2
    expiry := if t.field 2 2 = 0 then 5 else t.field 2 2
    renewed := u.stamp } })).modOrders (fun o => { o with nextSession := u.orders.nextSession + 1, refusedFlag := false })
  if v.power.state = .hold then (v.modPower (fun w => { w with state := .ready })).modFw (fun f => { f with startStep := 11 }) else v

section
variable {s : State} {x : I3cId} {t : Taken}

/-- What the end of a session leaves of the state. -/
theorem sessionEnded_view : (sessionEnded s x).orders = s.orders ∧ (sessionEnded s x).fw = s.fw ∧ (sessionEnded s x).power = s.power ∧
    (sessionEnded s x).now = s.now ∧ (sessionEnded s x).stamp = s.stamp ∧ (sessionEnded s x).mem = s.mem ∧ (sessionEnded s x).parts = s.parts := by
  unfold sessionEnded
  split <;> simp

/-- What opening a session sets, and what it leaves. -/
theorem sessionOpened_spec :
    ((sessionOpened s t).port t.port).session = { ((sessionOpened s t).port t.port).session with
      live := true
      number := s.orders.nextSession
      iface := t.field 0 2
      expiry := if t.field 2 2 = 0 then 5 else t.field 2 2
      renewed := s.stamp } ∧
    (sessionOpened s t).orders.nextSession = s.orders.nextSession + 1 ∧ (sessionOpened s t).orders.refusedFlag = false ∧
    (sessionOpened s t).power.state = (if s.power.state = .hold then .ready else s.power.state) ∧ (sessionOpened s t).now = s.now ∧
    (sessionOpened s t).mem = s.mem ∧ (sessionOpened s t).parts = s.parts ∧ (sessionOpened s t).fw.running = s.fw.running := by
  obtain ⟨horders, hfw, hpower, hnow, hstamp, hmem, hparts⟩ := sessionEnded_view (s := s) (x := t.port)
  unfold sessionOpened
  simp only [State.modOrders_power, State.modPort_power, hpower]
  split
  · simp [horders, hstamp, hnow, hmem, hparts, hfw]
  · simp [horders, hstamp, hnow, hmem, hparts, hfw, hpower]

theorem openSession_eq : openSession s t = answer (sessionOpened s t) t 0x00 (openTail s s.orders.nextSession) := by
  obtain ⟨horders, -⟩ := sessionEnded_view (s := s) (x := t.port)
  have hopen : openSession s t = answer (sessionOpened s t) t 0x00 (openTail (sessionOpened s t) (sessionEnded s t.port).orders.nextSession) := rfl
  obtain ⟨-, -, -, -, -, -, -, hfw⟩ := sessionOpened_spec (s := s) (t := t)
  rw [hopen, horders]
  simp only [openTail, hfw]

variable {rest : List Taken}

/-- SESSION_OPEN with the running interface generation (11 R306). -/
theorem execSessionOpen_opens (h : firstTaken s x 0x01 t rest) (hiface : t.field 0 2 = s.fw.running.iface) :
    execSessionOpen x s = .next (answer (sessionOpened (expireSession (s.withTaken rest) x) t) t 0x00 (openTail s s.orders.nextSession)) := by
  refine (onTaken_first h rfl).trans ?_
  dsimp only
  rw [if_pos (by simpa using hiface), openSession_eq]
  simp [openTail]

/-- SESSION_OPEN with another interface generation: in HOLD the module keeps REFUSED and waits in step 10 (11 R308). -/
theorem execSessionOpen_refuses (h : firstTaken s x 0x01 t rest) (hiface : t.field 0 2 ≠ s.fw.running.iface) :
    let u := expireSession (s.withTaken rest) x
    execSessionOpen x s = .next (answer (if s.power.state = .hold then (u.modOrders (fun o => { o with refusedFlag := true })).modFw
      (fun f => { f with startStep := 10 }) else u) t 0x0F (openTail s 0)) := by
  intro u
  refine (onTaken_first h rfl).trans ?_
  have hpower : u.power = s.power := by simp [u]
  dsimp only
  rw [if_neg (by simpa using hiface), ← hpower]
  split <;> simp [openTail, u]

theorem execLeaseRenew_first (h : firstTaken s x 0x02 t rest) :
    execLeaseRenew x s = .next (answer (s.withTaken rest) t 0x00 (zeros 3 ++ leBytes 4 (leaseLeft s x))) := onTaken_first h rfl

theorem execDetach_first (h : firstTaken s x 0x03 t rest) :
    execDetach x s = .next (answerBare (if (s.port x).session.live then endSession (s.withTaken rest) x 0 else s.withTaken rest) t 0x00) := by
  refine (onTaken_first h rfl).trans ?_
  rw [State.withTaken_port]

theorem execLeaseExpiry_live (hlive : (s.port x).session.live = true) :
    execLeaseExpiry x s = .next (endSession (s.reachStamp (leaseEnd s x)) x 1) := by
  unfold execLeaseExpiry
  rw [if_pos hlive]

end

/-- Settles O10: the rows take the oldest message (`onTaken_first`); opening is `sessionOpened_spec`, an end `endSession_session`. A lease's
end comes at its instant (log entry 10). -/
theorem sessionsOpenRenewAndEnd : Obligations.SessionsOpenRenewAndEnd := by
  unfold Obligations.SessionsOpenRenewAndEnd
  intro x s t rest
  refine ⟨fun h hiface => ?opens, fun h hiface => ⟨_, execSessionOpen_refuses h hiface, ?_⟩, fun h => execLeaseRenew_first h, fun h hlive => ?detach,
    fun h hdead => ?_, fun hlive => ?expiry⟩
  case opens =>
    obtain ⟨-, rfl, -⟩ := id h
    obtain ⟨hsession, hnext, hflag, hpower, hnow, hmem, hparts, -⟩ := sessionOpened_spec (s := expireSession (s.withTaken rest) t.port) (t := t)
    refine ⟨_, execSessionOpen_opens h hiface, hsession.trans ?_, hnext.trans (by simp), hflag, hpower.trans (by simp), hnow.trans (by simp),
      hmem.trans (by simp), hparts.trans (by simp)⟩
    simp [State.stamp]
  · have hlive : ((expireSession (s.withTaken rest) x).port x).session.live = sessionLive s x := expireSession_live ..
    split <;> simp [hlive]
  case detach =>
    refine ⟨_, (execDetach_first h).trans (by rw [if_pos hlive]), rfl, ?_, ?_, by simp, by simp⟩
    · rw [endSession_session]
    · rw [endSession_session]
      rfl
  · exact (execDetach_first h).trans (by rw [hdead]; rfl)
  case expiry =>
    have hsession := endSession_session (s.reachStamp (leaseEnd s x)) x 1
    exact ⟨_, execLeaseExpiry_live hlive, rfl, congrArg Session.live hsession, congrArg Session.clean hsession,
      (endSession_mem ..).trans (State.reachStamp_mem ..), (endSession_parts ..).trans (State.reachStamp_parts ..)⟩

end Sys2Proof.Machine

namespace Sys2Proof.Machine

/-! ### The serial order (11 R301) -/

section
variable {a b c t win : Taken} {ts us : List Taken} {f : Taken → Nat}

theorem serialLe_iff : serialLe a b = true ↔
    a.eff < b.eff ∨ a.eff = b.eff ∧ (a.msg.issuer < b.msg.issuer ∨ a.msg.issuer = b.msg.issuer ∧ a.port.val ≤ b.port.val) := by
  simp [serialLe]

theorem serialLe_refl (a : Taken) : serialLe a a = true := serialLe_iff.mpr (by omega)

theorem serialLe_total (h : serialLe a b = false) : serialLe b a = true := by
  have hnot := mt serialLe_iff.mpr (Bool.not_eq_true _ ▸ h)
  exact serialLe_iff.mpr (by omega)

theorem serialLe_trans (hab : serialLe a b = true) (hbc : serialLe b c = true) : serialLe a c = true := by
  have h1 := serialLe_iff.mp hab
  have h2 := serialLe_iff.mp hbc
  exact serialLe_iff.mpr (by omega)

theorem serialInsert_perm (t : Taken) (ts : List Taken) : (serialInsert t ts).Perm (t :: ts) := by
  induction ts with
  | nil => exact .refl _
  | cons u us ih =>
    unfold serialInsert
    split
    · exact (ih.cons u).trans (.swap t u us)
    · exact .refl _

theorem serialInsert_sorted (h : ts.Pairwise (fun a b => serialLe a b = true)) :
    (serialInsert t ts).Pairwise (fun a b => serialLe a b = true) := by
  induction ts with
  | nil => exact List.pairwise_singleton _ _
  | cons u us ih =>
    obtain ⟨hu, hus⟩ := List.pairwise_cons.mp h
    unfold serialInsert
    split
    · rename_i hut
      refine List.pairwise_cons.mpr ⟨fun v hv => ?_, ih hus⟩
      obtain rfl | hv := List.mem_cons.mp ((serialInsert_perm t us).mem_iff.mp hv)
      · exact hut
      · exact hu v hv
    · rename_i hut
      have htu := serialLe_total (Bool.eq_false_iff.mpr hut)
      refine List.pairwise_cons.mpr ⟨fun v hv => ?_, h⟩
      obtain rfl | hv := List.mem_cons.mp hv
      · exact htu
      · exact serialLe_trans htu (hu v hv)

theorem serialSort_perm (ts : List Taken) : (serialSort ts).Perm ts := by
  have hfold : ∀ acc : List Taken, (ts.foldl (fun l t => serialInsert t l) acc).Perm (acc ++ ts) := by
    induction ts with
    | nil => exact fun acc => by simp
    | cons t ts ih =>
      intro acc
      exact (ih _).trans (((serialInsert_perm t acc).append_right ts).trans (List.perm_middle.symm))
  exact hfold []

theorem serialSort_sorted (ts : List Taken) : (serialSort ts).Pairwise (fun a b => serialLe a b = true) :=
  foldl_keep (P := fun l : List Taken => l.Pairwise (fun a b => serialLe a b = true)) (fun _ _ h => serialInsert_sorted h) .nil

/-- Of a list in serial order: none ranks above the last of its best, and those that rank with it come no later. -/
theorem lastBest_spec (hsorted : ts.Pairwise (fun a b => serialLe a b = true)) (h : lastBest f ts = some win) :
    win ∈ ts ∧ ∀ t ∈ ts, f t ≤ f win ∧ (f t = f win → serialLe t win = true) := by
  induction ts generalizing win with
  | nil => cases h
  | cons t ts ih =>
    obtain ⟨ht, hts⟩ := List.pairwise_cons.mp hsorted
    unfold lastBest at h
    cases hrest : lastBest f ts with
    | none =>
      have hnil : ts = [] := by
        cases ts with
        | nil => rfl
        | cons u us =>
          unfold lastBest at hrest
          split at hrest
          · split at hrest <;> cases hrest
          · cases hrest
      subst hnil
      cases h
      exact ⟨List.mem_cons_self, fun u hu => by simp_all [serialLe_refl]⟩
    | some u =>
      obtain ⟨hu, hbest⟩ := ih hts hrest
      rw [hrest] at h
      dsimp only at h
      split at h
      · rename_i hlt
        cases h
        refine ⟨List.mem_cons_self, fun v hv => ?_⟩
        obtain rfl | hv := List.mem_cons.mp hv
        · exact ⟨Nat.le_refl _, fun _ => serialLe_refl _⟩
        · have hvu := (hbest v hv).1
          exact ⟨by omega, fun heq => by omega⟩
      · rename_i hle
        cases h
        refine ⟨List.mem_cons_of_mem _ hu, fun v hv => ?_⟩
        obtain rfl | hv := List.mem_cons.mp hv
        · exact ⟨by omega, fun _ => ht _ hu⟩
        · exact hbest v hv

theorem lastBest_isSome (h : ts ≠ []) : ∃ win, lastBest f ts = some win := by
  cases ts with
  | nil => exact absurd rfl h
  | cons t ts =>
    unfold lastBest
    split
    · split <;> exact ⟨_, rfl⟩
    · exact ⟨_, rfl⟩

end

/-! ### The winner of a window (11 R302) -/

/-- What the winner of a window has the most of, by the table of R302. -/
def winRank : OrderKey → Taken → Nat
  | .cap, t => 65535 - t.field 0 2
  | .stopStart _, t => bit (stopKind t)
  | .group _, t => t.field 4 4
  | .other _ _ _, _ => 0

theorem winnerOf_eq (w : Window) : winnerOf w = lastBest (winRank w.key) (serialSort w.orders) := by
  unfold winnerOf
  cases w.key <;> rfl

/-- The winner is the last in serial order of the orders that rank first. -/
theorem winnerOf_spec {w : Window} {win : Taken} (h : winnerOf w = some win) :
    win ∈ w.orders ∧ ∀ t ∈ w.orders, winRank w.key t ≤ winRank w.key win ∧ (winRank w.key t = winRank w.key win → serialLe t win = true) := by
  obtain ⟨hmem, hbest⟩ := lastBest_spec (serialSort_sorted _) ((winnerOf_eq w).symm.trans h)
  have hperm := serialSort_perm w.orders
  exact ⟨hperm.mem_iff.mp hmem, fun t ht => hbest t (hperm.mem_iff.mpr ht)⟩

theorem winnerOf_isSome {w : Window} (h : w.orders ≠ []) : ∃ win, winnerOf w = some win := by
  rw [winnerOf_eq]
  exact lastBest_isSome fun hnil => h (hnil ▸ serialSort_perm w.orders).nil_eq.symm

/-- The window of two that resolves first (11 R302). -/
def soonerWindow (w v : Window) : Window :=
  if w.w < v.w then w
  else if v.w < w.w then v
  else match winnerOf w, winnerOf v with
    | some a, some b => if serialLe a b then w else v
    | _, _ => w

theorem firstWindow_cons (w : Window) (ws : List Window) :
    firstWindow (w :: ws) = some ((firstWindow ws).elim w (soonerWindow w)) := by
  rw [firstWindow]
  cases firstWindow ws with
  | none => rfl
  | some v =>
    simp only [Option.elim, soonerWindow]
    split
    · rfl
    · split
      · rfl
      · cases winnerOf w <;> cases winnerOf v
        case some.some a b =>
          dsimp only
          split <;> rfl
        all_goals rfl

section
variable {w v x : Window} {ws : List Window} {a b win : Taken}

theorem soonerWindow_least : soonerWindow w v = w ∧ w.w ≤ v.w ∨ soonerWindow w v = v ∧ v.w ≤ w.w := by
  unfold soonerWindow
  split
  · exact .inl ⟨rfl, by omega⟩
  · split
    · exact .inr ⟨rfl, by omega⟩
    · split
      · split
        · exact .inl ⟨rfl, by omega⟩
        · exact .inr ⟨rfl, by omega⟩
      · exact .inl ⟨rfl, by omega⟩

/-- Of two windows with one W that both have a winner, the one whose winner is first in serial order. -/
theorem soonerWindow_first (hw : w.w = v.w) (ha : winnerOf w = some a) (hb : winnerOf v = some b) :
    soonerWindow w v = w ∧ serialLe a b = true ∨ soonerWindow w v = v ∧ serialLe b a = true := by
  unfold soonerWindow
  rw [if_neg (by omega), if_neg (by omega), ha, hb]
  dsimp only
  split
  · exact .inl ⟨rfl, ‹_›⟩
  · exact .inr ⟨rfl, serialLe_total (Bool.eq_false_iff.mpr ‹_›)⟩

/-- The first window has the least W. -/
theorem firstWindow_least (h : firstWindow ws = some w) : w ∈ ws ∧ ∀ x ∈ ws, w.w ≤ x.w := by
  induction ws generalizing w with
  | nil => cases h
  | cons u ws ih =>
    rw [firstWindow_cons] at h
    cases hrest : firstWindow ws with
    | none =>
      have hnil : ws = [] := by
        cases ws with
        | nil => rfl
        | cons _ _ => rw [firstWindow_cons] at hrest; cases hrest
      subst hnil
      cases h
      simp [firstWindow]
    | some v =>
      obtain ⟨hv, hleast⟩ := ih hrest
      rw [hrest] at h
      obtain rfl : soonerWindow u v = w := Option.some.inj h
      obtain ⟨heq, hle⟩ | ⟨heq, hle⟩ := soonerWindow_least (w := u) (v := v)
      · rw [heq]
        exact ⟨List.mem_cons_self, List.forall_mem_cons.mpr ⟨Nat.le_refl _, fun x hx => hle.trans (hleast x hx)⟩⟩
      · rw [heq]
        exact ⟨List.mem_cons_of_mem _ hv, List.forall_mem_cons.mpr ⟨hle, hleast⟩⟩

/-- Of the windows with the least W, the first is the one whose winner is first in serial order. -/
theorem firstWindow_first (h : firstWindow ws = some w) (hfull : ∀ x ∈ ws, x.orders ≠ []) (hwin : winnerOf w = some win) :
    ∀ x ∈ ws, x.w = w.w → ∀ b, winnerOf x = some b → serialLe win b = true := by
  induction ws generalizing w win with
  | nil => cases h
  | cons u ws ih =>
    obtain ⟨hu, hws⟩ := List.forall_mem_cons.mp hfull
    rw [firstWindow_cons] at h
    cases hrest : firstWindow ws with
    | none =>
      rw [hrest] at h
      obtain rfl : u = w := Option.some.inj h
      refine List.forall_mem_cons.mpr ⟨fun _ b hb => ?_, fun x hx => ?_⟩
      · obtain rfl : win = b := Option.some.inj (hwin.symm.trans hb)
        exact serialLe_refl win
      · cases ws with
        | nil => cases hx
        | cons _ _ => rw [firstWindow_cons] at hrest; cases hrest
    | some v =>
      rw [hrest] at h
      obtain rfl : soonerWindow u v = w := Option.some.inj h
      obtain ⟨a, ha⟩ := winnerOf_isSome hu
      obtain ⟨c, hc⟩ := winnerOf_isSome (hws v (firstWindow_least hrest).1)
      have hleast := soonerWindow_least (w := u) (v := v)
      have hvleast := (firstWindow_least hrest).2
      refine List.forall_mem_cons.mpr ⟨fun hxw b hb => ?_, fun x hx hxw b hb => ?_⟩
      · obtain rfl : a = b := Option.some.inj (ha.symm.trans hb)
        obtain ⟨heq, hle⟩ | ⟨heq, hle⟩ := hleast
        · obtain rfl : a = win := Option.some.inj (ha.symm.trans (heq ▸ hwin))
          exact serialLe_refl a
        · obtain rfl : c = win := Option.some.inj (hc.symm.trans (heq ▸ hwin))
          obtain ⟨heq', hac⟩ | ⟨-, hca⟩ := soonerWindow_first (by rw [heq] at hxw; exact hxw) ha hc
          · obtain rfl : a = c := Option.some.inj (ha.symm.trans (heq'.symm.trans heq ▸ hc))
            exact serialLe_refl a
          · exact hca
      · have hvx := hvleast x hx
        obtain ⟨heq, hle⟩ | ⟨heq, hle⟩ := hleast
        · obtain rfl : a = win := Option.some.inj (ha.symm.trans (heq ▸ hwin))
          rw [heq] at hxw
          have hcb := ih hrest hws hc x hx (by omega) b hb
          obtain ⟨-, hac⟩ | ⟨heq', hca⟩ := soonerWindow_first (by omega) ha hc
          · exact serialLe_trans hac hcb
          · obtain rfl : a = c := Option.some.inj (ha.symm.trans (heq.symm.trans heq' ▸ hc))
            exact hcb
        · rw [heq] at hxw hwin
          exact ih hrest hws hwin x hx hxw b hb

end

/-! ### Resolving a window (11 R302, R303) -/

theorem leNat_lt (bs : Bytes) : leNat bs < 256 ^ bs.length := by
  induction bs with
  | nil => simp [leNat]
  | cons b bs ih =>
    have hb := b.isLt
    have hcons : leNat (b :: bs) = b.toNat + 256 * leNat bs := rfl
    rw [hcons, List.length_cons, Nat.pow_succ]
    omega

theorem fieldAt_lt (bs : Bytes) (off n : Nat) : fieldAt bs off n < 256 ^ n :=
  (leNat_lt _).trans_le (Nat.pow_le_pow_right (by decide) (List.length_take_le _ _))

section
variable {s : State} {t : Taken} {ts : List Taken}

/-- The losers of a window are answered 0x02, and each is counted. -/
theorem answerBare_superseded (horder : isOrder t.msg.typ = true) :
    (answerBare s t 0x02).orders = { s.orders with superseded := s.orders.superseded + 1 } := by
  rw [answerBare, answer_orders, if_pos horder]
  rfl

/-- What the answers to the losers leave of the orders. -/
theorem answerLosers_lists : ((ts.foldl (fun s t => answerBare s t 0x02) s).orders.windows = s.orders.windows) ∧
    (ts.foldl (fun s t => answerBare s t 0x02) s).orders.due = s.orders.due := by
  have hview := foldl_view s (fun u => (u.orders.windows, u.orders.due)) (f := fun s t => answerBare s t 0x02) (fun u t => ?_) ts
  · exact ⟨congrArg Prod.fst hview, congrArg Prod.snd hview⟩
  · rw [answerBare, answer_orders]
    split
    · split
      · rfl
      · split <;> rfl
    · rfl

theorem answerLosers_superseded (h : ∀ t ∈ ts, isOrder t.msg.typ = true) :
    (ts.foldl (fun s t => answerBare s t 0x02) s).orders.superseded = s.orders.superseded + BitVec.ofNat 32 ts.length := by
  induction ts generalizing s with
  | nil => simp
  | cons t ts ih =>
    obtain ⟨ht, hts⟩ := List.forall_mem_cons.mp h
    rw [List.foldl_cons, ih hts, answerBare_superseded ht, List.length_cons, Nat.add_comm ts.length 1, BitVec.ofNat_add]
    exact BitVec.add_assoc ..

/-- What answers to the losers of a window leave of the state. -/
theorem answerLosers_view : let u := ts.foldl (fun s t => answerBare s t 0x02) s
    u.mem = s.mem ∧ u.parts = s.parts := by
  have hview := foldl_view s (fun u => (u.mem, u.parts)) (f := fun s t => answerBare s t 0x02)
    (fun u t => by simp only [answerBare, answer_mem, answer_parts]) ts
  exact ⟨congrArg Prod.fst hview, congrArg Prod.snd hview⟩

end

/-- The records of a window with losers: the winner's and one for each of them (11 R303). -/
def windowRecords (s : State) (win : Taken) (lose : List Taken) : State :=
  if lose = [] then s else
  lose.foldl (fun s t => s.event (srcI3c t.port) 0x0904 0xFF (leBytes 4 t.msg.issuer ++ leBytes 8 t.eff ++ leBytes 1 t.port.val))
    (s.event (srcI3c win.port) 0x0903 0xFF (leBytes 4 win.msg.issuer ++ leBytes 8 win.eff ++ leBytes 1 win.port.val ++
      leBytes 1 lose.length ++ leBytes 1 win.msg.typ))

/-- Records change no order, no time, no memory and no partition. -/
theorem windowRecords_view (s : State) (win : Taken) (lose : List Taken) {β : Type} (v : State → β)
    (hevent : ∀ u n c q d, v (State.event u n c q d) = v u) : v (windowRecords s win lose) = v s := by
  unfold windowRecords
  split
  · rfl
  · exact (foldl_view _ v (fun _ _ => hevent ..) _).trans (hevent ..)

/-- `s` once the window has closed and its winner waits to take effect, before its losers are answered. -/
def windowClosed (s : State) (w : Window) (win : Taken) : State :=
  (s.reachStamp (w.w + us 20)).modOrders (fun o => { o with windows := o.windows.erase w, due := o.due ++ [win] })

/-- The row resolves the first window: its winner waits to take effect, its losers are superseded (11 R302, R303). -/
theorem execOrderWindowResolve_resolves {s : State} {w : Window} {win : Taken} (hfirst : firstWindow s.orders.windows = some w)
    (hwin : winnerOf w = some win) : execOrderWindowResolve s =
      .next (windowRecords ((losersOf w win).foldl (fun s t => answerBare s t 0x02) (windowClosed s w win)) win (losersOf w win)) := by
  unfold execOrderWindowResolve windowRecords windowClosed
  rw [hfirst]
  dsimp only
  rw [hwin]
  dsimp only
  by_cases hnone : losersOf w win = []
  · rw [if_pos hnone, if_pos (by rw [hnone]; rfl)]
  · rw [if_neg hnone, if_neg (by simpa using hnone)]

/-- Settles O12: which window resolves is `firstWindow_least` and `firstWindow_first`, which order wins `winnerOf_spec`, and what its row does
`execOrderWindowResolve_resolves`. The row brings the time to its deadline (log entry 10). -/
theorem windowsResolveToOneWinner : Obligations.WindowsResolveToOneWinner := by
  unfold Obligations.WindowsResolveToOneWinner
  intro s v w win hfirst hwin hv
  obtain ⟨hmem, hbest⟩ := winnerOf_spec hwin
  obtain ⟨hwin_mem, hleast⟩ := firstWindow_least hfirst
  refine ⟨hleast, hmem, fun hfull => firstWindow_first hfirst hfull hwin, fun hkey t ht => ?cap, fun p hkey => ⟨fun ⟨t, ht, hstop⟩ => ?stops, fun hnone t ht => ?starts⟩,
    fun g hkey t ht => ?group, fun a b c hkey t ht => ?other, _, execOrderWindowResolve_resolves hfirst hwin, ?_⟩
  case cap =>
    have hlt : t.field 0 2 < 65536 := fieldAt_lt ..
    have hwlt : win.field 0 2 < 65536 := fieldAt_lt ..
    have hrank := hbest t ht
    rw [hkey] at hrank
    simp only [winRank] at hrank
    exact ⟨by omega, fun heq => hrank.2 (by rw [heq])⟩
  case stops =>
    have hwstop : stopKind win = true := by
      have hrank := (hbest t ht).1
      rw [hkey] at hrank
      simp only [winRank, hstop, bit] at hrank
      by_contra hno
      simp [hno] at hrank
    refine ⟨hwstop, fun t' ht' hstop' => (hbest t' ht').2 ?_⟩
    rw [hkey]
    simp only [winRank, hwstop, hstop']
  case starts =>
    refine (hbest t ht).2 ?_
    rw [hkey]
    simp only [winRank, hnone t ht, hnone win hmem]
  case group =>
    have hrank := hbest t ht
    rw [hkey] at hrank
    exact hrank
  case other =>
    refine (hbest t ht).2 ?_
    rw [hkey]
    rfl
  · subst hv
    obtain ⟨hmem', hparts'⟩ := answerLosers_view (s := windowClosed s w win) (ts := losersOf w win)
    obtain ⟨hwindows, hdue⟩ := answerLosers_lists (s := windowClosed s w win) (ts := losersOf w win)
    have horders := windowRecords_view ((losersOf w win).foldl (fun s t => answerBare s t 0x02) (windowClosed s w win)) win (losersOf w win)
      State.orders State.event_orders
    refine ⟨(windowRecords_view _ _ _ State.mem State.event_mem).trans hmem', (windowRecords_view _ _ _ State.parts State.event_parts).trans hparts',
      windowRecords_view _ _ _ State.now State.event_now, rfl, (congrArg Orders.windows horders).trans hwindows,
      (congrArg Orders.due horders).trans hdue, fun hall => (congrArg Orders.superseded horders).trans (answerLosers_superseded fun t ht => ?_)⟩
    exact hall t ((serialSort_perm _).mem_iff.mp (List.mem_of_mem_erase ht))

end Sys2Proof.Machine

namespace Sys2Proof.Machine

/-! ## Turns over all units of a kind, and what sending changes -/

section
variable {s : State}

/-- A turn for each unit, in which the turn of `k` changes what `get` reads of `k` by `g k` and nothing that it reads of another unit. -/
theorem foldl_each {ι β : Type} [DecidableEq ι] {F : ι → State → State} {get : State → ι → β} {g : ι → β → β}
    (own : ∀ k u, get (F k u) k = g k (get u k)) (other : ∀ k j u, k ≠ j → get (F k u) j = get u j) :
    ∀ (ks : List ι) (s : State) (j : ι), ks.Nodup → get (ks.foldl (fun t k => F k t) s) j = (if j ∈ ks then g j (get s j) else get s j)
  | [], _, _, _ => rfl
  | k :: ks, s, j, hn => by
    obtain ⟨hk, hks⟩ := List.nodup_cons.mp hn
    rw [List.foldl_cons, foldl_each own other ks (F k s) j hks]
    by_cases e : k = j
    · rw [← e, if_neg hk, if_pos List.mem_cons_self, own]
    · rw [other k j s e, if_congr (List.mem_cons.trans (or_iff_right fun h => e h.symm)) rfl rfl]

theorem forClusters_each {F : ClusterId → State → State} {g : ClusterId → Cluster → Cluster}
    (own : ∀ k u, (F k u).cluster k = g k (u.cluster k)) (other : ∀ k j u, k ≠ j → (F k u).cluster j = u.cluster j) (k : ClusterId) :
    (forClusters F s).cluster k = g k (s.cluster k) :=
  (foldl_each own other _ s k (List.nodup_finRange 8)).trans (if_pos (List.mem_finRange k))

theorem forCores_each {F : CoreId → State → State} {g : CoreId → Core → Core}
    (own : ∀ c u, (F c u).core c = g c (u.core c)) (other : ∀ c j u, c ≠ j → (F c u).core j = u.core j) (c : CoreId) :
    (forCores F s).core c = g c (s.core c) :=
  (foldl_each own other _ s c (List.nodup_finRange 64)).trans (if_pos (List.mem_finRange c))

theorem forParts_each {F : PartId → State → State} {g : PartId → Part → Part}
    (own : ∀ p u, (F p u).part p = g p (u.part p)) (other : ∀ p q u, p ≠ q → (F p u).part q = u.part q) (p : PartId) :
    (forParts F s).part p = g p (s.part p) :=
  (foldl_each own other _ s p (List.nodup_finRange 8)).trans (if_pos (List.mem_finRange p))

theorem forCores_view {β : Type} (v : State → β) {f : CoreId → State → State} (hf : ∀ c u, v (f c u) = v u) : v (forCores f s) = v s :=
  foldl_view s v (fun _ _ => hf _ _) _

theorem forI3c_view {β : Type} (v : State → β) {f : I3cId → State → State} (hf : ∀ x u, v (f x u) = v u) : v (forI3c f s) = v s :=
  (hf 1 _).trans (hf 0 _)

theorem setSelfRefresh_cluster (b : Bool) (k : ClusterId) :
    (setSelfRefresh s b).cluster k = { s.cluster k with selfRefresh := b && (s.cluster k).trained } :=
  forClusters_each (g := fun _ c => { c with selfRefresh := b && c.trained }) (fun k u => State.modCluster_cluster u k _)
    (fun k j u h => State.modCluster_cluster_ne u k j _ h) k

@[simp] theorem setSelfRefresh_parts (b : Bool) : (setSelfRefresh s b).parts = s.parts := forClusters_view s State.parts fun _ _ => rfl
@[simp] theorem settleHolds_clusters : (settleHolds s).clusters = s.clusters := forParts_view s State.clusters fun _ _ => rfl
@[simp] theorem settleHolds_thermal : (settleHolds s).thermal = s.thermal := forParts_view s State.thermal fun _ _ => rfl

/-- A frame for a port changes nothing but the links. -/
theorem queueOn_eq (n : PortId) (owner : Option PartId) (f : Frame) : queueOn s n owner f = { s with links := (queueOn s n owner f).links } := by
  unfold queueOn
  split <;> rfl

theorem sendFrame_eq (owner : Option PartId) (f : Frame) : sendFrame s owner f = { s with links := (sendFrame s owner f).links } := by
  unfold sendFrame
  dsimp only
  split
  · exact queueOn_eq ..
  · rfl

/-- A view that does not look at the links, the requests and their tags. -/
structure OffNet {β : Type} (v : State → β) : Prop where
  links : ∀ (s : State) l, v { s with links := l } = v s
  requests : ∀ (s : State) r n, v { s with requests := r, nextTag := n } = v s

namespace OffNet
variable {β : Type} {v : State → β}

theorem queueOn (h : OffNet v) (n : PortId) (owner : Option PartId) (f : Frame) : v (Machine.queueOn s n owner f) = v s := by
  rw [queueOn_eq]
  exact h.links s _

theorem sendFrame (h : OffNet v) (owner : Option PartId) (f : Frame) : v (Machine.sendFrame s owner f) = v s := by
  rw [sendFrame_eq]
  exact h.links s _

theorem sendRequest (h : OffNet v) (r : StoreReq) : v (Machine.sendRequest s r) = v s := by
  refine foldl_view s v (fun u f => ?_) _
  split
  · exact h.queueOn ..
  · exact h.sendFrame ..

theorem openRequest (h : OffNet v) (use : StoreUse) (part queue store volume offset length : Nat) (data : Bytes) :
    v (Machine.openRequest s use part queue store volume offset length data) = v s :=
  (h.sendRequest _).trans (h.requests s _ _)

theorem dropRequests (h : OffNet v) (f : StoreReq → Bool) : v (Machine.dropRequests s f) = v s := h.requests s _ s.nextTag

end OffNet

/-! ## A firmware pull leaves memory, time and power alone -/

/-- What a pull of a firmware image does not touch. -/
def State.plant (s : State) : Mem × Ns × Power := (s.mem, s.now, s.power)

theorem plant_offNet : OffNet State.plant := ⟨fun _ _ => rfl, fun _ _ _ => rfl⟩

theorem answer_plant (t : Taken) (status : Nat) (tail : Bytes) : (answer s t status tail).plant = s.plant :=
  congrArg (fun b : Base => (b.mem, b.now, b.power)) (answer_base s t status tail)

theorem answerCause_plant (t : Taken) (cause : Nat) (tail : Bytes) : (answerCause s t cause tail).plant = s.plant := answer_plant ..

theorem dropLoad_plant (n : Nat) : (dropLoad s n).plant = s.plant := by
  refine (plant_offNet.dropRequests (s := match s.fw.load with
    | some l => match l.asked with | some t => answerCause s t 8 [] | none => s
    | none => s) fun r => r.use == .pull).trans ?_
  split
  · split
    · exact answerCause_plant ..
    · rfl
  · rfl

theorem failPull_plant (cause : Nat) : (failPull s cause).plant = s.plant := dropLoad_plant 7

theorem takePulled_plant : (takePulled s).plant = s.plant := by
  refine foldl_view s State.plant (fun u r => ?_) _
  exact plant_offNet.dropRequests (s := u.modFw _) _

theorem pullRequests_plant (n : Nat) : ∀ s : State, (pullRequests n s).plant = s.plant := by
  induction n with
  | zero => exact fun _ => rfl
  | succ n ih =>
    intro s
    unfold pullRequests
    split
    · split
      · exact (ih _).trans (plant_offNet.openRequest ..)
      · rfl
    · rfl

theorem continuePull_plant : (continuePull s).plant = s.plant := by
  unfold continuePull
  dsimp only
  split
  · rfl
  split
  · exact failPull_plant 8
  refine Eq.trans ?_ takePulled_plant
  split
  · split
    · rfl
    split
    · exact pullRequests_plant ..
    split
    · split
      · exact failPull_plant 4
      split
      · exact failPull_plant 8
      · exact pullRequests_plant ..
    · rfl
  · rfl

theorem runBoot_plant (h : s.power.state = .boot) : (runBoot s).plant = s.plant := by
  unfold runBoot
  split
  next i hi =>
    split
    · cases ht : i.selfTest
      · rw [bootRom_fails _ ht]
        rfl
      · exact congrArg (fun b : Base => (b.mem, b.now, b.power)) (bootRom_base (by exact h) ht)
    · rfl
  · rfl

end

/-! ## The supply -/

section
variable {s : State} (mv : Nat)

/-- The supply hold with the teaser running (14 R393). -/
theorem beginSupplyHold_runs (hh : s.power.supplyHeld = false) (ht : teaserRuns s = true) :
    (beginSupplyHold s).base = { s.base with
      power := { s.power with supplyHeld := true, latch := true, supplyHolds := satAdd 8 s.power.supplyHolds 1 } } ∧
    (beginSupplyHold s).thermal.ballast = false := by
  have hp : (settleHolds s).base = s.base := settleHolds_base s
  unfold beginSupplyHold
  rw [if_neg (by simp [hh]), if_neg (by simp [ht])]
  refine ⟨?_, rfl⟩
  rw [State.modThermal_base, State.modPower_base, hp]
  rfl

/-- What each supply hold leaves, whether or not the teaser runs. -/
theorem beginSupplyHold_held :
    (beginSupplyHold s).power.supplyHeld = true ∧ (beginSupplyHold s).power.level = s.power.level ∧
    (beginSupplyHold s).power.supplyMv = s.power.supplyMv ∧ (beginSupplyHold s).power.above45 = s.power.above45 ∧
    (beginSupplyHold s).mem = s.mem := by
  by_cases hh : s.power.supplyHeld = true
  · have e : beginSupplyHold s = s := if_pos hh
    rw [e]
    exact ⟨hh, rfl, rfl, rfl, rfl⟩
  · rw [Bool.not_eq_true] at hh
    by_cases ht : teaserRuns s = true
    · have hb := (beginSupplyHold_runs hh ht).1
      have hp : (beginSupplyHold s).power =
          { s.power with supplyHeld := true, latch := true, supplyHolds := satAdd 8 s.power.supplyHolds 1 } := congrArg Base.power hb
      rw [hp]
      exact ⟨rfl, rfl, rfl, rfl, congrArg Base.mem hb⟩
    · unfold beginSupplyHold
      rw [if_neg (by simp [hh]), if_pos (by simpa using ht)]
      exact ⟨rfl, rfl, rfl, rfl, rfl⟩

/-- A level change is its reading and, while the teaser runs, its event. -/
theorem setLevel_base (l : SupplyLevel) : (setLevel s l mv).base = { s.base with power := { s.power with level := l, supplyMv := mv } } := by
  unfold setLevel
  dsimp only
  split
  · exact State.event_base ..
  · rfl

theorem satAdd8_one (n : Nat) : satAdd 8 n 1 = min (n + 1) 255 := rfl

end

end Sys2Proof.Machine

namespace Sys2Proof.Machine

/-! ## QUENCH: entry and exit, and the settled module -/

section
variable {s : State}

theorem parts_any (f : Part → Bool) : s.parts.toList.any f = true ↔ ∃ p, f (s.part p) = true := by
  rw [List.any_eq_true]
  constructor
  · rintro ⟨x, hx, hf⟩
    obtain ⟨i, hi, e⟩ := Vector.getElem_of_mem (Vector.mem_toList_iff.mp hx)
    exact ⟨⟨i, hi⟩, by rw [← e] at hf; exact hf⟩
  · rintro ⟨p, hf⟩
    exact ⟨_, Vector.mem_toList_iff.mpr (Vector.getElem_mem p.isLt), hf⟩

theorem parts_all (f : Part → Bool) : s.parts.toList.all f = true ↔ ∀ p, f (s.part p) = true := by
  rw [← Bool.not_eq_false, List.all_eq_not_any_not, Bool.not_eq_false', Bool.not_eq_true, ← Bool.not_eq_true, parts_any]
  simp

theorem standingState_eq : standingState s = if ∃ p, (s.part p).state = .running then .run else .ready := by
  refine if_congr ((parts_any _).trans (exists_congr fun p => ?_)) rfl rfl
  exact beq_iff_eq

theorem forParts_same {f : PartId → State → State} (h : ∀ p, f p s = s) : forParts f s = s :=
  List.foldlRecOn (motive := fun u => u = s) _ _ rfl fun _ hu p _ => hu ▸ h p

/-- The settled module: only the module state and the drained mark may move (14 R379, R380). -/
theorem settleModule_eq : ∃ w : Power, settleModule s = { s with power := w } ∧
    w = { s.power with state := (settleModule s).power.state, drained := (settleModule s).power.drained } := by
  unfold settleModule
  dsimp only
  split <;> split <;> exact ⟨_, rfl, rfl⟩

theorem settleModule_stands (hr : s.power.state ≠ .run) (hd : s.power.state ≠ .drain) : settleModule s = s := by
  simp [settleModule, hr, hd]

/-- In RUN the module goes on while a partition runs. -/
theorem settleModule_runs (hr : s.power.state = .run) (h : ∃ p, (s.part p).state = .running) : settleModule s = s := by
  have ha : s.parts.toList.any (fun x => x.state == .running) = true := (parts_any _).mpr (h.imp fun p hp => beq_iff_eq.mpr hp)
  simp [settleModule, ha, hr]

theorem settleModule_drain (hd : s.power.state = .drain) :
    settleModule s = if ∀ p, (s.part p).state ≠ .running ∧ (s.part p).ckptNew = none then s.modPower (fun w => { w with drained := true }) else s := by
  have hc : (!s.parts.toList.any (fun x => x.state == .running) && s.parts.toList.all (fun x => x.ckptNew.isNone)) = true ↔
      ∀ p, (s.part p).state ≠ .running ∧ (s.part p).ckptNew = none := by
    rw [Bool.and_eq_true, parts_all, Bool.not_eq_true', ← Bool.not_eq_true, parts_any, not_exists, ← forall_and]
    simp
  unfold settleModule
  simp only [hd, reduceCtorEq, decide_false, Bool.and_false, Bool.false_eq_true, if_false, decide_true, Bool.true_and]
  exact if_congr hc rfl rfl

/-! ### Entry -/

/-- A cause in QUENCH: the cause recorded first stays (17 R459). -/
theorem enterQuench_quench (hq : s.power.state = .quench) (cause : Nat) :
    enterQuench s cause = s.modPower (fun w => { w with quenchAt := s.now }) := by
  unfold enterQuench
  dsimp only
  rw [if_neg (by simp [hq]), if_pos (by simp [hq])]

/-- A cause in BOOT that only a new start clears is recorded. -/
theorem enterQuench_boot (hb : s.power.state = .boot) (h0 : s.power.quenchCause = 0) :
    (enterQuench s 4).power = { s.power with quenchAt := s.now, quenchCause := 4 } := by
  unfold enterQuench
  dsimp only
  rw [if_pos (by simp [hb, h0])]
  rfl

/-- A heartbeat changes the claim of its partition and the record sent, nothing else. -/
theorem sendBeatAs_eq (p : PartId) (pulled : Bool) :
    sendBeatAs s p pulled = { s with parts := (sendBeatAs s p pulled).parts, out := (sendBeatAs s p pulled).out } := by
  unfold sendBeatAs
  split <;> rfl

theorem setClaim_eq (p : PartId) (n : BitVec 32) :
    setClaim s p n = { s with parts := (setClaim s p n).parts, out := (setClaim s p n).out } := by
  unfold setClaim
  extract_lets old v u
  split
  · rfl
  · exact (sendBeatAs_eq (s := u) p false).trans rfl

theorem setClaim_clusters (p : PartId) (n : BitVec 32) : (setClaim s p n).clusters = s.clusters := by rw [setClaim_eq]

theorem yieldPaired_clusters (p : PartId) : (if (s.part p).claim.paired then yieldClaim s p else s).clusters = s.clusters := by
  split
  · exact setClaim_clusters _ _
  · rfl

/-- QUENCH as a powered module enters it, before its partitions yield and its stacks go to self-refresh. -/
def quenchBegun (s : State) (cause : Nat) : State :=
  ((((settleHolds (s.modPower fun w => { w with quenchAt := s.now })).modPower fun w => { w with
    state := .quench, quenchFrom := w.state, quenchCause := cause, latch := true, quenches := satAdd 8 w.quenches 1 }).modThermal
      fun h => { h with ballast := false }).event srcTeaser 0x0404 0xFF (leBytes 1 cause))

theorem enterQuench_enters (hp : powered s = true) (hq : s.power.state ≠ .quench) (cause : Nat) :
    enterQuench s cause =
      setSelfRefresh (forParts (fun p s => if (s.part p).claim.paired then yieldClaim s p else s) (quenchBegun s cause)) true := by
  have hb : s.power.state ≠ .boot := by rintro e; simp [powered, e] at hp
  unfold enterQuench
  dsimp only
  rw [if_neg (by simp [hb]), if_neg (by simpa [powered, hq] using hp)]
  rfl

theorem quenchBegun_clusters (cause : Nat) : (quenchBegun s cause).clusters = s.clusters := by
  unfold quenchBegun
  rw [State.event_clusters, State.modThermal_clusters, State.modPower_clusters, settleHolds_clusters, State.modPower_clusters]

/-- Every trained stack is in self-refresh after an entry into QUENCH (14 R381). -/
theorem enterQuench_refreshed (hp : powered s = true) (hq : s.power.state ≠ .quench) (cause : Nat) (k : ClusterId) :
    ((enterQuench s cause).cluster k).selfRefresh = (s.cluster k).trained := by
  have hc := forParts_view (quenchBegun s cause) State.clusters fun p u => yieldPaired_clusters p
  rw [enterQuench_enters hp hq, setSelfRefresh_cluster, State.cluster, hc, quenchBegun_clusters]
  exact Bool.true_and _

/-- A cause of QUENCH that does not enter it changes only the power fields of a cause. -/
theorem enterQuench_stays (h : ¬ (powered s = true ∧ s.power.state ≠ .quench)) (cause : Nat) :
    ∃ at_ c, enterQuench s cause = s.modPower (fun w => { w with quenchAt := at_, quenchCause := c }) := by
  have h' : (!powered s || s.power.state = .quench) = true := by
    cases hp : powered s <;> simp_all
  unfold enterQuench
  dsimp only
  split
  · exact ⟨s.now, cause, rfl⟩
  · split
    · exact ⟨s.now, s.power.quenchCause, rfl⟩
    · next hn => exact absurd h' hn

/-- A cause of QUENCH touches neither memory nor the regulator fault, in any module state. -/
theorem enterQuench_always (cause : Nat) :
    (enterQuench s cause).mem = s.mem ∧ (enterQuench s cause).power.regFault = s.power.regFault := by
  by_cases h : powered s = true ∧ s.power.state ≠ .quench
  · have hb := enterQuench_base h.1 h.2 cause
    exact ⟨congrArg Base.mem hb, congrArg (·.power.regFault) hb⟩
  · obtain ⟨at_, c, he⟩ := enterQuench_stays h cause
    rw [he]
    exact ⟨rfl, rfl⟩

/-! ### Exit -/

/-- The state to which QUENCH clears (14 R381). -/
def quenchGoal (s : State) : ModState :=
  if s.power.quenchFrom = .hold ∨ s.power.quenchFrom = .drain then s.power.quenchFrom
  else if ∃ p, (s.part p).state = .running then .run else .ready

/-- A paired partition that runs waits in GLORY_HOLE (14 R381). -/
def holdPaired (p : PartId) (s : State) : State :=
  if (s.part p).claim.paired && (s.part p).state == .running then s.modPart p (fun x => { x with holdAt := some .gloryHole }) else s

/-- QUENCH as it clears, before the stacks leave self-refresh. -/
def quenchLeft (s : State) : State :=
  forParts holdPaired (s.modPower fun w => { w with
    state := if s.power.quenchFrom = .hold || s.power.quenchFrom = .drain then s.power.quenchFrom else standingState s
    quenchCause := 0 })

/-- The stacks leave self-refresh, but in a supply hold. -/
def refreshEnded (s : State) : State := if s.power.supplyHeld then s else setSelfRefresh s false

theorem leaveQuench_eq : leaveQuench s = settleModule (refreshEnded (quenchLeft (settleHolds s))) := by
  unfold leaveQuench
  extract_lets u goal v w
  exact congrArg (fun w => settleModule (refreshEnded w)) (show w = quenchLeft u from rfl)

theorem holdPaired_partState (p q : PartId) : ((holdPaired p s).part q).state = (s.part q).state := by
  unfold holdPaired
  split
  · by_cases h : p = q
    · subst h
      rw [State.modPart_part]
    · rw [State.modPart_part_ne _ _ _ _ h]
  · rfl

theorem holdPaired_base (p : PartId) : (holdPaired p s).base = s.base := by
  unfold holdPaired
  split <;> rfl

theorem settleHolds_power : (settleHolds s).power = s.power := congrArg Base.power (settleHolds_base s)

/-- Held time is no part of a partition's state. -/
theorem settleHolds_partState (p : PartId) : ((settleHolds s).part p).state = (s.part p).state := by
  refine forParts_view s (fun u => (u.part p).state) fun q u => ?_
  by_cases h : q = p
  · subst h
    rw [State.modPart_part]
  · rw [State.modPart_part_ne _ _ _ _ h]

theorem quenchLeft_partState (p : PartId) : ((quenchLeft s).part p).state = (s.part p).state := by
  unfold quenchLeft
  generalize hu : s.modPower _ = u
  have hv : ((forParts holdPaired u).part p).state = (u.part p).state :=
    forParts_view u (fun u => (u.part p).state) fun _ _ => holdPaired_partState _ _
  rw [hv, ← hu, State.modPower_part']

theorem quenchGoal_eq :
    (if s.power.quenchFrom = .hold || s.power.quenchFrom = .drain then s.power.quenchFrom else standingState s) = quenchGoal s := by
  rw [standingState_eq, quenchGoal]
  simp only [Bool.or_eq_true, decide_eq_true_eq]

theorem quenchLeft_base : (quenchLeft s).base = { s.base with power := { s.power with state := quenchGoal s, quenchCause := 0 } } := by
  unfold quenchLeft
  rw [quenchGoal_eq, forParts_view _ State.base fun _ _ => holdPaired_base _]
  rfl

/-- Held time has no part in the goal. -/
theorem quenchGoal_settled : quenchGoal (settleHolds s) = quenchGoal s := by
  simp only [quenchGoal, settleHolds_power, settleHolds_partState]

theorem refreshEnded_base : (refreshEnded s).base = s.base := by
  unfold refreshEnded
  split
  · rfl
  · exact setSelfRefresh_base ..

theorem refreshEnded_parts : (refreshEnded s).parts = s.parts := by
  unfold refreshEnded
  split
  · rfl
  · exact setSelfRefresh_parts _

theorem refreshEnded_cluster (h : s.power.supplyHeld = false) (k : ClusterId) : ((refreshEnded s).cluster k).selfRefresh = false := by
  unfold refreshEnded
  rw [if_neg (by simp [h]), setSelfRefresh_cluster]
  rfl

/-- What the settling of the module leaves of a state in which RUN goes with a partition that runs. -/
theorem settleModule_state (h : s.power.state = .run → ∃ p, (s.part p).state = .running) :
    (settleModule s).power.state = s.power.state := by
  by_cases hr : s.power.state = .run
  · rw [settleModule_runs hr (h hr)]
  · by_cases hd : s.power.state = .drain
    · rw [settleModule_drain hd]
      split <;> rfl
    · rw [settleModule_stands hr hd]

theorem quenchGoal_run (h : quenchGoal s = .run) : ∃ p, (s.part p).state = .running := by
  unfold quenchGoal at h
  split at h
  · next hf => rw [h] at hf; simp at hf
  · split at h
    · assumption
    · cases h

/-- What the settling of the module leaves of other units. -/
theorem settleModule_others : (settleModule s).mem = s.mem ∧ (settleModule s).clusters = s.clusters ∧ (settleModule s).parts = s.parts ∧
    (settleModule s).power.quenchCause = s.power.quenchCause := by
  obtain ⟨w, hw, hwe⟩ := settleModule_eq (s := s)
  rw [hw]
  exact ⟨rfl, rfl, rfl, (congrArg Power.quenchCause hwe).trans rfl⟩

/-- The clearing of QUENCH (14 R381). -/
theorem leaveQuench_leaves :
    (leaveQuench s).power.state = quenchGoal s ∧ (leaveQuench s).power.quenchCause = 0 ∧ (leaveQuench s).mem = s.mem ∧
    (s.power.supplyHeld = false → ∀ k, ((leaveQuench s).cluster k).selfRefresh = false) := by
  rw [leaveQuench_eq]
  generalize hu : refreshEnded (quenchLeft (settleHolds s)) = u
  have hb : u.base = { s.base with power := { s.power with state := quenchGoal s, quenchCause := 0 } } := by
    rw [← hu, refreshEnded_base, quenchLeft_base, quenchGoal_settled, settleHolds_base,
      settleHolds_power]
  have hstate : ∀ p, (u.part p).state = (s.part p).state := fun p => by
    rw [← hu, State.part, refreshEnded_parts]
    exact (quenchLeft_partState p).trans (settleHolds_partState p)
  have hgoal : u.power.state = quenchGoal s := congrArg (·.power.state) hb
  obtain ⟨hmem, hclusters, -, hcause⟩ := settleModule_others (s := u)
  refine ⟨?_, hcause.trans (congrArg (·.power.quenchCause) hb), hmem.trans (congrArg Base.mem hb), fun h k => ?_⟩
  · refine (settleModule_state fun hrun => ?_).trans hgoal
    exact (quenchGoal_run (hgoal.symm.trans hrun)).imp fun p hp => (hstate p).trans hp
  · rw [State.cluster, hclusters, ← hu]
    refine refreshEnded_cluster ?_ k
    have hp := quenchLeft_base (s := settleHolds s)
    rw [settleHolds_power] at hp
    generalize quenchLeft (settleHolds s) = v at hp ⊢
    exact (congrArg (·.power.supplyHeld) hp).trans h

end

/-! ## O18: the supply levels -/

section
variable {s : State}

/-- A supply hold of which only the level and the reading have gone before (14 R391, R393). -/
theorem beginSupplyHold_level {u : State} {mv : Nat} (hu : u.base = { s.base with power := { s.power with above45 := none, level := .hold, supplyMv := mv } }) :
    (beginSupplyHold u).power.level = .hold ∧ (beginSupplyHold u).power.supplyMv = mv ∧ (beginSupplyHold u).power.above45 = none ∧
    (beginSupplyHold u).power.supplyHeld = true ∧ (beginSupplyHold u).mem = s.mem ∧
    (s.power.supplyHeld = false → teaserRuns s = true → (beginSupplyHold u).power.latch = true ∧
      (beginSupplyHold u).power.supplyHolds = min (s.power.supplyHolds + 1) 255 ∧ (beginSupplyHold u).thermal.ballast = false) := by
  have hp : u.power = { s.power with above45 := none, level := .hold, supplyMv := mv } := congrArg Base.power hu
  have hmem : u.mem = s.mem := congrArg Base.mem hu
  have hfw : u.fw = s.fw := congrArg Base.fw hu
  obtain ⟨hheld, hlevel, hmv, habove, hm⟩ := beginSupplyHold_held (s := u)
  rw [hp] at hlevel hmv habove
  refine ⟨hlevel, hmv, habove, hheld, hm.trans hmem, fun h0 ht => ?_⟩
  obtain ⟨hb, hballast⟩ := beginSupplyHold_runs (s := u) (by rw [hp]; exact h0) (by rw [teaserRuns, hp, hfw]; exact ht)
  have hbp : (beginSupplyHold u).power = _ := congrArg Base.power hb
  rw [hbp, hp]
  exact ⟨rfl, rfl, hballast⟩

/-- The end of a supply hold: what STACK_SELF_REFRESH and the pause of a start have waited for (14 R394; 16 R438). -/
theorem execSupplyHoldEnd_ends {since : Ns} (ha : s.power.above45 = some since) (hheld : s.power.supplyHeld = true)
    (hlev : s.power.level = .normal) :
    ∃ v : State, v.plant = (s.mem, max s.now (since + ms 10), { s.power with supplyHeld := false }) ∧
      (s.power.state ≠ .boot → v.clusters = s.clusters) ∧
      execSupplyHoldEnd s = .next (if v.power.state = .quench then v else setSelfRefresh v false) := by
  generalize hw : (settleHolds (s.reach (since + ms 10))).modPower (fun w => { w with supplyHeld := false }) = w
  have hwp : w.plant = (s.mem, max s.now (since + ms 10), { s.power with supplyHeld := false }) := by
    rw [← hw]
    have hb := settleHolds_base (s.reach (since + ms 10))
    exact congrArg (fun b : Base => (b.mem, b.now, { b.power with supplyHeld := false })) hb
  have hwc : w.clusters = s.clusters := by
    rw [← hw, State.modPower_clusters, settleHolds_clusters]
    rfl
  have hws : w.power.state = s.power.state := congrArg (fun q : Mem × Ns × Power => q.2.2.state) hwp
  refine ⟨if w.power.state = .boot then continuePull (runBoot w) else w, ?_, fun hb => ?_, ?_⟩
  · split
    · next hboot => rw [continuePull_plant, runBoot_plant hboot, hwp]
    · exact hwp
  · rw [if_neg (by rw [hws]; exact hb), hwc]
  · unfold execSupplyHoldEnd
    rw [ha]
    dsimp only
    rw [if_neg (by simp [hheld, hlev]), hw]

end

/-- Settles O18: each level row is its guard and `setLevel`; a hold is `beginSupplyHold`; the end of a hold in BOOT goes through a pull that
leaves power and memory alone (log entries 10, 77 and 80). -/
theorem supplyLevelsAndHold : Obligations.SupplyLevelsAndHold := by
  intro s mv rail dev level hl hoff
  subst hl
  refine ⟨fun hmv hlev => ?_, fun hmv hlev => ?_, fun hmv hlev => ?_, fun hmv hlev => ?_, fun hheld => ?_, fun since ha hheld hlev => ?_,
    fun hmv ht => ?_, fun hdev ht => ?_⟩
  · exact if_neg (by simp [hoff, hlev, hmv])
  · exact if_neg (by simp [hoff, hlev, hmv])
  · exact if_neg (by simp [hoff, hlev, hmv])
  · refine ⟨_, if_neg (by simp [hoff, hlev, hmv]), rfl, ?_⟩
    exact beginSupplyHold_level (setLevel_base (s := s.modPower fun w => { w with above45 := none }) mv .hold)
  · exact ⟨_, if_pos hheld, fun k => setSelfRefresh_cluster true k, congrArg Base.mem (setSelfRefresh_base s true), setSelfRefresh_parts true⟩
  · obtain ⟨v, hv, hvc, hex⟩ := execSupplyHoldEnd_ends ha hheld hlev
    have hmem : v.mem = s.mem := congrArg Prod.fst hv
    have hnow : v.now = max s.now (since + 10000000) := congrArg (fun q : Mem × Ns × Power => q.2.1) hv
    have hp : v.power = { s.power with supplyHeld := false } := congrArg (fun q : Mem × Ns × Power => q.2.2) hv
    have hstate : v.power.state = s.power.state := by rw [hp]
    by_cases hq : s.power.state = .quench
    · rw [if_pos (hstate.trans hq)] at hex
      refine ⟨v, hex, hnow, by rw [hp], fun h => absurd hq h, fun _ k => ?_, hmem⟩
      rw [State.cluster, hvc (by rw [hq]; decide)]
      rfl
    · rw [if_neg (by rw [hstate]; exact hq)] at hex
      have hb := setSelfRefresh_base v false
      refine ⟨_, hex, (congrArg Base.now hb).trans hnow, ?_, fun _ k => ?_, fun h => absurd h hq, (congrArg Base.mem hb).trans hmem⟩
      · exact (congrArg (fun b : Base => b.power.supplyHeld) hb).trans (by rw [State.base, hp])
      · rw [setSelfRefresh_cluster]
        rfl
  · exact if_neg (by simp [ht, hmv])
  · refine ⟨_, if_neg (by simp [ht, hdev]), ?_⟩
    generalize hu : (s.event srcTeaser 0x040A 0xFF (leBytes 1 rail ++ zeros 1 ++ leBytes 2 (twosNat 16 dev))).modPower
      (fun w => { w with regFault := true }) = u
    have hb : u.base = { s.base with power := { s.power with regFault := true } } := by
      rw [← hu, State.modPower_base, State.event_base]
      rfl
    have hparts : u.parts = s.parts := by rw [← hu, State.modPower_parts, State.event_parts]
    have hp : u.power = { s.power with regFault := true } := congrArg Base.power hb
    have hstate : u.power.state = s.power.state := by rw [hp]
    have hcause : u.power.quenchCause = s.power.quenchCause := by rw [hp]
    obtain ⟨hmem, hreg⟩ := enterQuench_always (s := u) 4
    refine ⟨hreg.trans (by rw [hp]), hmem.trans (congrArg Base.mem hb), fun hpow hq => ?_, fun hboot h0 => ?_, fun hq => ?_⟩
    · have he : (enterQuench u 4).power = _ := congrArg Base.power
        (enterQuench_base (s := u) (by rw [powered, hstate]; exact hpow) (by rw [hstate]; exact hq) 4)
      rw [he]
      exact ⟨rfl, rfl, hstate, rfl⟩
    · rw [enterQuench_boot (hstate.trans hboot) (hcause.trans h0)]
      exact ⟨hstate.trans hboot, rfl⟩
    · rw [enterQuench_quench (hstate.trans hq)]
      exact ⟨hcause, hparts⟩

end Sys2Proof.Machine

namespace Sys2Proof.Machine

/-! ## O19: the power and coolant orders -/

section
variable {s : State}

/-- A cap order that asks for more than its ramp may give sheds (14 R383). -/
theorem setCap_sheds {target ramp : Nat} (h : 1000 * target + 100000 * ramp < capMw s) :
    (setCap s target ramp).power.shed = true ∧ (setCap s target ramp).power.target = target ∧
    (setCap s target ramp).power.sheds = min (s.power.sheds + 1) 255 ∧ capMw (setCap s target ramp) = 1000 * target ∧
    moduleHeld (setCap s target ramp) = true ∧ (setCap s target ramp).mem = s.mem := by
  have hb := settleHolds_base s
  unfold setCap
  dsimp only
  rw [if_neg (by omega), if_neg (by omega)]
  generalize settleHolds s = v at hb ⊢
  have hp : v.power = s.power := congrArg Base.power hb
  have hnow : v.now = s.now := congrArg Base.now hb
  refine ⟨rfl, rfl, ?_, ?_, ?_, congrArg Base.mem hb⟩
  · exact congrArg (fun w : Power => satAdd 8 w.sheds 1) hp
  · exact if_pos (by simp [hnow])
  · simp [moduleHeld]

/-- No partition that is held at a boundary: none stops in the drain. -/
theorem stopHeld_none {p : PartId} (h : (s.part p).state = .running → (s.part p).holdAt = none ∨ (s.part p).released = true) :
    stopHeld s p = s := by
  refine if_neg fun hc => ?_
  simp only [Bool.and_eq_true, decide_eq_true_eq, Bool.not_eq_true'] at hc
  obtain ⟨⟨⟨hr, hh⟩, hn⟩, -⟩ := hc
  obtain h | h := h hr
  · simp [h] at hh
  · simp [h] at hn

/-- A drain that finds no partition to stop (14 R380). -/
theorem drainEntered {v : State} (hv : v.power.state = .drain)
    (h : ∀ p, (v.part p).state = .running → (v.part p).holdAt = none ∨ (v.part p).released = true) :
    settleModule (forParts (fun p v => stopHeld v p) v) =
      if ∀ p, (v.part p).state ≠ .running ∧ (v.part p).ckptNew = none then v.modPower (fun w => { w with drained := true }) else v := by
  rw [forParts_same fun p => stopHeld_none (h p), settleModule_drain hv]

/-- A sensor clear evaluates afresh the pairs that it names (14 R398). -/
theorem clearPairs_core (n : Nat) (c : CoreId) :
    (forCores (fun c s => if n = 0xFF || n = c.val then clearPair s c else s) s).core c =
      (if n = 0xFF ∨ n = c.val then { s.core c with diodeDoubted := false, delayDoubted := false, suspect := false, disagree := 0 }
      else s.core c) := by
  refine forCores_each (g := fun c k => if n = 0xFF ∨ n = c.val then
    { k with diodeDoubted := false, delayDoubted := false, suspect := false, disagree := 0 } else k) (fun c u => ?_) (fun c j u h => ?_) c
  · simp only [Bool.or_eq_true, decide_eq_true_eq]
    split
    · exact State.modCore_core u c _
    · rfl
  · split
    · exact State.modCore_core_ne u c j _ h
    · rfl

theorem clearPairs_others (n : Nat) :
    let u := forCores (fun c s => if n = 0xFF || n = c.val then clearPair s c else s) s
    u.mem = s.mem ∧ u.parts = s.parts := by
  have hv := forCores_view (s := s) (fun u => (u.mem, u.parts)) (f := fun c s => if n = 0xFF || n = c.val then clearPair s c else s)
    fun c u => by split <;> rfl
  exact ⟨congrArg Prod.fst hv, congrArg Prod.snd hv⟩

theorem quenchGoal_from (h : s.power.quenchFrom = .hold ∨ s.power.quenchFrom = .drain) : quenchGoal s = s.power.quenchFrom := if_pos h

theorem quenchGoal_stands (h1 : s.power.quenchFrom ≠ .hold) (h2 : s.power.quenchFrom ≠ .drain) :
    quenchGoal s = if ∃ p, (s.part p).state = .running then .run else .ready := if_neg (not_or.mpr ⟨h1, h2⟩)

variable {t : Taken} {rest : List Taken}

/-! ### The rows, each with its order at the front of the list -/

theorem execPwrCap_first (h : firstDue s 0x30 t rest) :
    execPwrCap s = .next (answerBare (setCap (s.withDue rest) (t.field 0 2) (t.field 2 2)) t 0x00) := onDue_first h rfl

theorem execPwrDrainEnter_first (h : firstDue s 0x31 t rest) (ha : t.field 0 1 = 1) {u : State} (hu : s.withDue rest = u) :
    execPwrDrainEnter s = .next (if u.power.state = .hold || u.power.state = .quench then answerBare u t 0x10
      else answerBare (settleModule (forParts (fun p s => stopHeld s p) (u.modPower (fun w => { w with state := .drain })))) t 0x00) :=
  hu ▸ onDue_first h (beq_iff_eq.mpr ha)

theorem execPwrDrainLeave_first (h : firstDue s 0x31 t rest) (ha : t.field 0 1 = 2) {u : State} (hu : s.withDue rest = u) :
    execPwrDrainLeave s = .next (if u.power.state ≠ .drain then answerBare u t 0x10
      else answerBare (u.modPower (fun w => { w with state := standingState u, drained := false })) t 0x00) :=
  hu ▸ onDue_first h (beq_iff_eq.mpr ha)

theorem execPwrQuench_first (h : firstDue s 0x32 t rest) (ha : t.field 0 1 = 1) :
    execPwrQuench s = .next (answerBare (enterQuench (s.withDue rest) 5) t 0x00) :=
  onDue_first h (beq_iff_eq.mpr ha)

theorem execPwrQuenchClear_first (h : firstDue s 0x32 t rest) (ha : t.field 0 1 = 2) {u : State} (hu : s.withDue rest = u) :
    execPwrQuenchClear s = .next (if u.power.state ≠ .quench || u.power.regFault || u.power.prsntLost then answerBare u t 0x10
      else if u.now < u.power.quenchAt + sec 10 then answerBare u t 0x01
      else answerBare (leaveQuench u) t 0x00) :=
  hu ▸ onDue_first h (beq_iff_eq.mpr ha)

/-- With the cause gone the clear waits for its 10 s. -/
theorem execPwrQuenchClear_open (h : firstDue s 0x32 t rest) (ha : t.field 0 1 = 2) (hq : s.power.state = .quench)
    (hr : s.power.regFault = false) (hl : s.power.prsntLost = false) :
    execPwrQuenchClear s = .next (if s.now < s.power.quenchAt + sec 10 then answerBare (s.withDue rest) t 0x01
      else answerBare (leaveQuench (s.withDue rest)) t 0x00) := by
  generalize hu : s.withDue rest = u
  have hp : u.power = s.power := by rw [← hu]; rfl
  have hn : u.now = s.now := by rw [← hu]; rfl
  rw [execPwrQuenchClear_first h ha hu, if_neg (by simp [hp, hq, hr, hl]), hp, hn]

theorem execThmCoolant_first (h : firstDue s 0x33 t rest) :
    execThmCoolant s = .next (answerBare ((s.withDue rest).modThermal (fun h => { h with cv := t.field 0 2, flowMin := t.field 2 2 })) t 0x00) :=
  onDue_first h rfl

theorem execThmSensorClear_first (h : firstDue s 0x34 t rest) :
    execThmSensorClear s = .next (answerBare (forCores (fun c s => if t.field 0 1 = 0xFF || t.field 0 1 = c.val then clearPair s c else s)
      (s.withDue rest)) t 0x00) := onDue_first h rfl

end

/-- Settles O19: each order is its guard and what `setCap`, `stopHeld`, `enterQuench`, `leaveQuench` and `clearPair` do (log entries 77 and
80). -/
theorem powerOrders : Obligations.PowerOrders := by
  intro s t rest
  refine ⟨fun h hc => ?_, fun h hc hr => ?_, fun h hc => ?_, fun h ha => ⟨fun hs => ?_, fun hh hq => ?_⟩, fun h ha => ⟨fun hs => ?_, fun hs => ?_⟩,
    fun h ha hp hq => ?_, fun h ha => ⟨fun hs => ?_, fun hq hr hl => ⟨fun hn => ?_, fun hn => ?_⟩⟩, fun h => ?_, fun h => ?_⟩
  · have hset : setCap (s.withDue rest) (t.field 0 2) (t.field 2 2) = _ := if_pos hc
    exact (execPwrCap_first h).trans (congrArg (fun u => Host.Outcome.next (answerBare u t 0x00)) hset)
  · have hset : setCap (s.withDue rest) (t.field 0 2) (t.field 2 2) = _ := (if_neg (Nat.not_le.mpr hc)).trans (if_pos hr)
    rw [ms, Nat.mul_comm (t.field 2 2)] at hset
    exact (execPwrCap_first h).trans (congrArg (fun u => Host.Outcome.next (answerBare u t 0x00)) hset)
  · exact ⟨_, execPwrCap_first h, setCap_sheds (s := s.withDue rest) hc⟩
  · generalize hu : s.withDue rest = u
    have hp : u.power = s.power := by rw [← hu]; rfl
    exact (execPwrDrainEnter_first h ha hu).trans (congrArg _ (if_pos (by simp [hp, hs])))
  · generalize hu : s.withDue rest = u
    have hp : u.power = s.power := by rw [← hu]; rfl
    refine ⟨_, (execPwrDrainEnter_first h ha hu).trans (congrArg _ (if_neg (by simp [hp, hh, hq]))), rfl, fun hnone => ?_⟩
    subst hu
    rw [drainEntered (v := (s.withDue rest).modPower fun w => { w with state := .drain }) rfl hnone]
    refine ⟨?_, ?_, ?_, fun hall => ?_, fun hex => ?_⟩
    · split <;> rfl
    · split <;> rfl
    · split <;> rfl
    · exact (congrArg (fun u : State => u.power.drained) (if_pos hall)).trans rfl
    · refine (congrArg (fun u : State => u.power.drained) (if_neg fun hall => ?_)).trans rfl
      obtain ⟨p, hp⟩ := hex
      exact hp.elim (hall p).1 fun hc => hc (hall p).2
  · exact (execPwrDrainLeave_first h ha rfl).trans (congrArg _ (if_pos hs))
  · have hd : ¬ (s.withDue rest).power.state ≠ .drain := not_not_intro hs
    have hst : standingState (s.withDue rest) = _ := standingState_eq
    rw [show exec .pwrDrainLeave s = _ from execPwrDrainLeave_first h ha rfl, if_neg hd, hst]
    rfl
  · obtain ⟨hmem, -⟩ := enterQuench_always (s := s.withDue rest) 5
    have hb := enterQuench_base (s := s.withDue rest) hp hq 5
    have hpw : (enterQuench (s.withDue rest) 5).power = _ := congrArg Base.power hb
    refine ⟨_, execPwrQuench_first h ha, ?_⟩
    rw [hpw]
    exact ⟨rfl, rfl, rfl, rfl, rfl, enterQuench_refreshed (s := s.withDue rest) hp hq 5, hmem⟩
  · generalize hu : s.withDue rest = u
    have hp : u.power = s.power := by rw [← hu]; rfl
    exact (execPwrQuenchClear_first h ha hu).trans (congrArg _ (if_pos (by simpa [hp, or_assoc] using hs)))
  · exact (execPwrQuenchClear_open h ha hq hr hl).trans (congrArg _ (if_pos hn))
  · refine ⟨_, (execPwrQuenchClear_open h ha hq hr hl).trans (congrArg _ (if_neg (Nat.not_lt.mpr hn))), rfl, ?_⟩
    obtain ⟨hstate, hcause, hmem, hself⟩ := leaveQuench_leaves (s := s.withDue rest)
    exact ⟨hcause, hmem, fun hf => hstate.trans (quenchGoal_from hf), fun h1 h2 => hstate.trans (quenchGoal_stands h1 h2), hself⟩
  · exact execThmCoolant_first h
  · obtain ⟨hmem, hparts⟩ := clearPairs_others (s := s.withDue rest) (t.field 0 1)
    exact ⟨_, execThmSensorClear_first h, hmem, hparts, clearPairs_core (s := s.withDue rest) (t.field 0 1)⟩

end Sys2Proof.Machine

namespace Sys2Proof.Machine

/-! ## What mail, events, claims and links leave alone

Each view is the state with the fields that such an operation may change put to their values after reset; an operation that keeps the view
keeps every other field of the state. -/

/-- The state without the I3C ports, the orders and the events. -/
def State.offMail (s : State) : State := { s with i3c := State.reset.i3c, orders := State.reset.orders, events := State.reset.events }

section
variable {s : State} {x : I3cId}

theorem setPort_offMail (q : I3cPort) : (s.setPort x q).offMail = s.offMail := rfl
theorem modOrders_offMail (f : Orders → Orders) : (s.modOrders f).offMail = s.offMail := rfl

theorem event_offMail (unitNo code part : Nat) (data : Bytes) : (s.event unitNo code part data).offMail = s.offMail := by
  unfold State.event
  dsimp only
  split
  · rfl
  · split <;> rfl

theorem answer_offMail (t : Taken) (status : Nat) (tail : Bytes) : (answer s t status tail).offMail = s.offMail := by
  unfold answer
  dsimp only
  split <;> rfl

theorem answerCancel_offMail (c : CancelReq) (status : Nat) : (answerCancel s c status).offMail = s.offMail := by
  unfold answerCancel
  split
  · rfl
  · split
    · exact answer_offMail ..
    · rfl

theorem endSession_offMail (kind : Nat) : (endSession s x kind).offMail = s.offMail := by
  unfold endSession
  dsimp only
  refine (event_offMail ..).trans ?_
  split
  · exact event_offMail ..
  · rfl

theorem expireSession_offMail : (expireSession s x).offMail = s.offMail := by
  unfold expireSession
  split
  · exact endSession_offMail 1
  · rfl

theorem enterOrder_offMail (m : Msg) : (enterOrder s x m).offMail = s.offMail := by
  unfold enterOrder
  dsimp only
  split
  · rfl
  · split
    · exact answer_offMail ..
    · rfl

theorem tallyRate_offMail : (tallyRate s x).2.offMail = s.offMail := by
  unfold tallyRate
  dsimp only
  split <;> rfl

theorem admitMsg_offMail (bulk : Bool) (m : Msg) : (admitMsg s x bulk m).offMail = s.offMail := by
  unfold admitMsg
  dsimp only
  split
  · exact enterOrder_offMail m
  split
  · have h := tallyRate_offMail (s := s) (x := x)
    generalize tallyRate s x = r at h
    match r with
    | (true, u) => exact h
    | (false, u) => exact (answer_offMail ..).trans h
  · rfl

/-- Taking a post is mail. -/
theorem takePost_offMail (bulk : Bool) : (takePost s x bulk).offMail = s.offMail := by
  have hexpire := expireSession_offMail (s := s) (x := x)
  unfold takePost
  extract_lets u q raw m last session q' repeated e v
  have hu : u.offMail = s.offMail := hexpire
  have hset : ∀ r : I3cPort, (u.setPort x r).offMail = s.offMail := fun _ => hu
  clear_value u last
  split
  · cases last with
    | none =>
      dsimp only
      exact hu
    | some e =>
      dsimp only
      split <;> exact hset _
  · have hv : v.offMail = s.offMail := hset _
    clear_value v
    split
    · refine (answer_offMail ..).trans ?_
      split <;> exact hv
    · exact (admitMsg_offMail ..).trans hv

theorem takeWaiting_offMail : (takeWaiting s x).offMail = s.offMail := by
  have h : (if (s.port x).cmdFull && mayTake s x then takePost s x false else s).offMail = s.offMail := by
    split
    · exact takePost_offMail false
    · rfl
  unfold takeWaiting
  extract_lets u
  refine Eq.trans ?_ (show u.offMail = s.offMail from h)
  clear_value u
  split
  · exact takePost_offMail true
  · rfl

theorem retakePosts_offMail : (retakePosts s).offMail = s.offMail := forI3c_view State.offMail fun _ _ => takeWaiting_offMail

/-! ### Claims and clearing -/

/-- The state without the partitions and the record sent. -/
def State.offClaim (s : State) : State := { s with parts := State.reset.parts, out := State.reset.out }

theorem sendBeatAs_offClaim (p : PartId) (pulled : Bool) : (sendBeatAs s p pulled).offClaim = s.offClaim := by
  unfold sendBeatAs
  split <;> rfl

theorem setClaim_offClaim (p : PartId) (n : BitVec 32) : (setClaim s p n).offClaim = s.offClaim := by
  rw [setClaim_eq]
  rfl

theorem yieldPaired_offClaim (p : PartId) : (if (s.part p).claim.paired then yieldClaim s p else s).offClaim = s.offClaim := by
  split
  · exact setClaim_offClaim ..
  · rfl

theorem settleHolds_offClaim : (settleHolds s).offClaim = s.offClaim := forParts_view s State.offClaim fun _ _ => rfl

/-- The state without what an entry into CLEARING may change. -/
def State.offClear (s : State) : State :=
  { s.offMail with
    parts := State.reset.parts
    video := State.reset.video
    fresh := State.reset.fresh
    clusters := State.reset.clusters
    csi := State.reset.csi
    requests := State.reset.requests
    out := State.reset.out }

theorem offClear_ofMail {t : State} (h : t.offMail = s.offMail) : t.offClear = s.offClear :=
  congrArg (fun u : State => { u with
    parts := State.reset.parts, video := State.reset.video, fresh := State.reset.fresh, clusters := State.reset.clusters,
    csi := State.reset.csi, requests := State.reset.requests, out := State.reset.out }) h

/-- Before its partition is cleared, an entry into CLEARING changes no partition and leaves mail, engines, keys and clusters to it. -/
def clearingBegun (s : State) (p : PartId) : State :=
  let s := (s.part p).cancels.foldl (fun s c => answerCancel s c 0x24) (closeContexts s p)
  let n := newMemoryKey s
  let s := (n.2.part p).clusters.foldl (eraseCluster n.1) n.2
  let s := s.modCsi (fun c => { c with bindings := c.bindings.map (fun b => if b.part == p then { b with opened := none } else b) })
  { s with requests := s.requests.filter (fun r => r.part != p.val) }

theorem enterClearing_eq (p : PartId) : enterClearing s p = (clearingBegun s p).modPart p clearedPart := rfl

theorem eraseCluster_view {β : Type} {v : State → β} (hv : ∀ (u : State) cs, v { u with clusters := cs } = v u) (key : BitVec 512) (k : ClusterId) :
    v (eraseCluster key s k) = v s := by
  unfold eraseCluster
  split <;> exact hv ..

theorem clearingBegun_view {β : Type} {v : State → β} (hmail : ∀ u t : State, u.offMail = t.offMail → v u = v t)
    (hvideo : ∀ (u : State) e, v { u with video := e } = v u) (hfresh : ∀ (u : State) n, v { u with fresh := n } = v u)
    (hclusters : ∀ (u : State) cs, v { u with clusters := cs } = v u) (hcsi : ∀ (u : State) c, v { u with csi := c } = v u)
    (hreq : ∀ (u : State) r, v { u with requests := r } = v u) (p : PartId) : v (clearingBegun s p) = v s := by
  unfold clearingBegun
  extract_lets a n b c
  have ha : v a = v s := (foldl_view _ v (fun u r => hmail _ _ (answerCancel_offMail r 0x24)) _).trans (hvideo s _)
  have hn : v n.2 = v a := hfresh a _
  have hb : v b = v n.2 := foldl_view n.2 v (fun u k => eraseCluster_view hclusters n.1 k) _
  exact (hreq c _).trans ((hcsi b _).trans (hb.trans (hn.trans ha)))

theorem clearingBegun_parts (p : PartId) : (clearingBegun s p).parts = s.parts :=
  clearingBegun_view (fun _ _ h => congrArg State.parts h) (fun _ _ => rfl) (fun _ _ => rfl) (fun _ _ => rfl) (fun _ _ => rfl) (fun _ _ => rfl) p

theorem clearingBegun_offClear (p : PartId) : (clearingBegun s p).offClear = s.offClear :=
  clearingBegun_view (fun _ _ h => offClear_ofMail h) (fun _ _ => rfl) (fun _ _ => rfl) (fun _ _ => rfl) (fun _ _ => rfl) (fun _ _ => rfl) p

theorem modPart_offClear (p : PartId) (f : Part → Part) : (s.modPart p f).offClear = s.offClear := rfl

theorem enterClearing_offClear (p : PartId) : (enterClearing s p).offClear = s.offClear := by
  rw [enterClearing_eq, modPart_offClear, clearingBegun_offClear]

theorem enterClearing_part (p : PartId) : (enterClearing s p).part p = clearedPart (s.part p) := by
  rw [enterClearing_eq, State.modPart_part, State.part, clearingBegun_parts]
  rfl

theorem enterClearing_part_ne {p q : PartId} (h : p ≠ q) : (enterClearing s p).part q = s.part q := by
  rw [enterClearing_eq, State.modPart_part_ne _ _ _ _ h, State.part, clearingBegun_parts]
  rfl

end

end Sys2Proof.Machine

namespace Sys2Proof.Machine

/-! ## A vault wipe -/

/-- The keys of a partition after a wipe (15 R415). -/
def PKeys.wiped (k : PKeys) : PKeys :=
  { k with model := none, store := none, storePrev := none, storeSeals := 0, streams := [], highest := [], ephemeral := [], applied := [] }

/-- What a wipe decides of a partition: its state, its image and its keys. -/
def Part.tenant (x : Part) : PState × Option Image × PKeys := (x.state, x.image, x.keys)

theorem Part.tenant_state (x : Part) : x.tenant.1 = x.state := rfl
theorem Part.tenant_image (x : Part) : x.tenant.2.1 = x.image := rfl
theorem Part.tenant_keys (x : Part) : x.tenant.2.2 = x.keys := rfl

section
variable {s : State}

theorem modPart_tenant {f : Part → Part} (hf : ∀ x, (f x).tenant = x.tenant) (p q : PartId) :
    ((s.modPart p f).part q).tenant = (s.part q).tenant := by
  by_cases h : p = q
  · rw [← h, State.modPart_part, hf]
  · rw [State.modPart_part_ne _ _ _ _ h]

theorem modClaim_tenant (f : Claim → Claim) (p q : PartId) : ((s.modClaim p f).part q).tenant = (s.part q).tenant :=
  modPart_tenant (f := fun x => { x with claim := f x.claim }) (fun _ => rfl) p q

theorem sendBeatAs_tenant (p : PartId) (pulled : Bool) (q : PartId) : ((sendBeatAs s p pulled).part q).tenant = (s.part q).tenant := by
  unfold sendBeatAs
  split
  · exact modClaim_tenant _ p q
  · rfl

theorem setClaim_tenant (p : PartId) (n : BitVec 32) (q : PartId) : ((setClaim s p n).part q).tenant = (s.part q).tenant := by
  unfold setClaim
  extract_lets old v u
  have hu : (u.part q).tenant = (s.part q).tenant := modClaim_tenant _ p q
  split
  · exact hu
  · exact (sendBeatAs_tenant p false q).trans hu

theorem yieldPaired_tenant (p q : PartId) :
    ((if (s.part p).claim.paired then yieldClaim s p else s).part q).tenant = (s.part q).tenant := by
  split
  · exact (setClaim_tenant p 0 q).trans (modClaim_tenant _ p q)
  · rfl

/-- The keys of one partition go, no other partition changes. -/
theorem wipeKeys_tenant (p : PartId) : ((wipeKeys s p).part p).tenant = ((s.part p).state, (s.part p).image, (s.part p).keys.wiped) := by
  unfold wipeKeys
  dsimp only
  rw [modPart_tenant (f := fun x => { x with job := x.job.map wipeJob }) (fun _ => rfl)]
  exact congrArg Part.tenant (State.modPart_part s p _)

theorem wipeKeys_part_ne {p q : PartId} (h : p ≠ q) : (wipeKeys s p).part q = s.part q :=
  (State.modPart_part_ne _ _ _ _ h).trans (State.modPart_part_ne s p q _ h)

theorem offClear_ofClaim {t : State} (h : t.offClaim = s.offClaim) : t.offClear = s.offClear :=
  (congrArg State.offClear h : t.offClaim.offClear = s.offClaim.offClear)

/-- The partition that a wipe clears. -/
def clearTenant (p : PartId) (s : State) : State := if (s.part p).state = .free then s else enterClearing s p

theorem clearTenant_own (p : PartId) : ((clearTenant p s).part p).tenant =
    if (s.part p).state = .free then (s.part p).tenant else (.clearing, none, PKeys.init) := by
  unfold clearTenant
  split
  · rfl
  · rw [enterClearing_part]
    rfl

theorem clearTenant_other {p q : PartId} (h : p ≠ q) : (clearTenant p s).part q = s.part q := by
  unfold clearTenant
  split
  · rfl
  · exact enterClearing_part_ne h

theorem clearTenant_offClear (p : PartId) : (clearTenant p s).offClear = s.offClear := by
  unfold clearTenant
  split
  · rfl
  · exact enterClearing_offClear p

/-- A wipe before it clears any partition: the vault's own values, the cluster keys and the keys of the partitions are gone. -/
def vaultOpened (s : State) (cause : Nat) : State :=
  let s := s.modSecurity (fun v => { v with
    identity := false
    reports := 0
    wipes := satAdd 8 v.wipes 1
    lastCause := if cause ≤ 2 then cause else v.lastCause })
  let s := forClusters (fun k s => s.modCluster k (fun c => { c with key := none, prev := none, clean := false })) s
  let s := forParts (fun p s => wipeKeys s p) s
  forParts (fun p s => if (s.part p).claim.paired then yieldClaim s p else s) s

/-- A wipe before it is told and the module settles. -/
def vaultWiped (s : State) (cause : Nat) : State := forParts clearTenant (vaultOpened s cause)

theorem wipeVault_eq (cause : Nat) : wipeVault s cause =
    (settleModule ((vaultWiped s cause).event srcSecurity 0x0501 0xFF (leBytes 1 cause))).modSecurity
      (fun v => { v with identity := identityUsable (settleModule ((vaultWiped s cause).event srcSecurity 0x0501 0xFF (leBytes 1 cause))).fuses }) := rfl

theorem vaultOpened_offClear (cause : Nat) : (vaultOpened s cause).offClear = { s.offClear with
    security := { s.security with identity := false, reports := 0, wipes := satAdd 8 s.security.wipes 1,
                                  lastCause := if cause ≤ 2 then cause else s.security.lastCause } } := by
  unfold vaultOpened
  extract_lets a b c
  have hb : b.offClear = a.offClear := forClusters_view a State.offClear fun _ _ => rfl
  have hc : c.offClear = b.offClear := forParts_view b State.offClear fun _ _ => rfl
  exact (forParts_view c State.offClear fun p u => offClear_ofClaim (yieldPaired_offClaim p)).trans (hc.trans hb)

theorem vaultOpened_tenant (cause : Nat) (p : PartId) :
    ((vaultOpened s cause).part p).tenant = ((s.part p).state, (s.part p).image, (s.part p).keys.wiped) := by
  unfold vaultOpened
  extract_lets a b c
  have hb : (b.part p).tenant = (s.part p).tenant := forClusters_view a (fun u => (u.part p).tenant) fun _ _ => rfl
  have hc : (c.part p).tenant = ((b.part p).tenant.1, (b.part p).tenant.2.1, (b.part p).tenant.2.2.wiped) :=
    (foldl_each (get := fun u q => (u.part q).tenant) (g := fun _ e => (e.1, e.2.1, e.2.2.wiped)) (fun _ _ => wipeKeys_tenant _)
      (fun _ _ _ h => congrArg Part.tenant (wipeKeys_part_ne h)) _ b p (List.nodup_finRange 8)).trans (if_pos (List.mem_finRange p))
  refine (forParts_view c (fun u => (u.part p).tenant) fun q u => yieldPaired_tenant q p).trans ?_
  rw [hc, hb]
  rfl

theorem vaultOpened_cluster (cause : Nat) (k : ClusterId) :
    (vaultOpened s cause).cluster k = { s.cluster k with key := none, prev := none, clean := false } := by
  unfold vaultOpened
  extract_lets a b c
  have hd : (forParts (fun p s => if (s.part p).claim.paired then yieldClaim s p else s) c).clusters = b.clusters :=
    (forParts_view c State.clusters fun p u => yieldPaired_clusters p).trans (forParts_view b State.clusters fun _ _ => rfl)
  rw [State.cluster, hd]
  exact forClusters_each (s := a) (g := fun _ c => { c with key := none, prev := none, clean := false }) (fun k u => State.modCluster_cluster u k _)
    (fun k j u h => State.modCluster_cluster_ne u k j _ h) k

theorem vaultWiped_offClear (cause : Nat) : (vaultWiped s cause).offClear = (vaultOpened s cause).offClear :=
  forParts_view (vaultOpened s cause) State.offClear fun p _ => clearTenant_offClear p

theorem forParts_clearTenant (p : PartId) : ((forParts clearTenant s).part p).tenant =
    if (s.part p).tenant.1 = .free then (s.part p).tenant else (.clearing, none, PKeys.init) :=
  (foldl_each (F := clearTenant) (get := fun u q => (u.part q).tenant)
    (g := fun _ e => if e.1 = .free then e else (.clearing, none, PKeys.init)) (fun _ _ => clearTenant_own _)
    (fun _ _ _ h => congrArg Part.tenant (clearTenant_other h)) _ s p (List.nodup_finRange 8)).trans (if_pos (List.mem_finRange p))

/-- A wipe, partition by partition. -/
theorem vaultWiped_tenant (cause : Nat) (p : PartId) : ((vaultWiped s cause).part p).tenant =
    if (s.part p).state = .free then (.free, (s.part p).image, (s.part p).keys.wiped) else (.clearing, none, PKeys.init) := by
  rw [vaultWiped, forParts_clearTenant, vaultOpened_tenant]
  split
  · next h => exact congrArg (fun st => (st, _)) h
  · rfl

/-- With every partition FREE none is cleared. -/
theorem vaultWiped_free (h : ∀ p, (s.part p).state = .free) (cause : Nat) : vaultWiped s cause = vaultOpened s cause := by
  have hfree : ∀ p, ((vaultOpened s cause).part p).state = .free := fun p => by
    rw [← Part.tenant_state, vaultOpened_tenant]
    exact h p
  unfold vaultWiped
  generalize vaultOpened s cause = v at hfree ⊢
  exact forParts_same fun p => if_pos (hfree p)

/-- What the vault and memory hold after a wipe (15 R415). -/
theorem wipeVault_vault (cause : Nat) : (wipeVault s cause).mem = s.mem ∧ (wipeVault s cause).fuses = s.fuses ∧
    (wipeVault s cause).security = { s.security with identity := identityUsable s.fuses, reports := 0, wipes := satAdd 8 s.security.wipes 1,
                                                     lastCause := if cause ≤ 2 then cause else s.security.lastCause } := by
  have hw := (vaultWiped_offClear (s := s) cause).trans (vaultOpened_offClear cause)
  rw [wipeVault_eq]
  have he := event_offMail (s := vaultWiped s cause) srcSecurity 0x0501 0xFF (leBytes 1 cause)
  generalize vaultWiped s cause = v at hw he ⊢
  generalize v.event srcSecurity 0x0501 0xFF (leBytes 1 cause) = u at he ⊢
  obtain ⟨w, hset, -⟩ := settleModule_eq (s := u)
  have hu := (offClear_ofMail he).trans hw
  have hmem : u.mem = s.mem := (congrArg State.mem hu :)
  have hfuses : u.fuses = s.fuses := (congrArg State.fuses hu :)
  have hsec : u.security = _ := (congrArg State.security hu :)
  rw [hset]
  refine ⟨hmem, hfuses, ?_⟩
  show { u.security with identity := identityUsable u.fuses } = _
  rw [hsec, hfuses]

/-- What a wipe leaves of each partition, and of the clusters where no partition was to be cleared. -/
theorem wipeVault_units (cause : Nat) : (wipeVault s cause).parts = (vaultWiped s cause).parts ∧
    (wipeVault s cause).clusters = (vaultWiped s cause).clusters := by
  rw [wipeVault_eq]
  generalize vaultWiped s cause = v
  obtain ⟨-, hc, hp, -⟩ := settleModule_others (s := v.event srcSecurity 0x0501 0xFF (leBytes 1 cause))
  exact ⟨hp.trans (State.event_parts ..), hc.trans (State.event_clusters ..)⟩

/-- What the wipe of a tenant says of a partition. -/
theorem Part.wiped_of_tenant {x y : Part}
    (h : x.tenant = if y.state = .free then (.free, y.image, y.keys.wiped) else (.clearing, none, PKeys.init)) :
    (y.state ≠ .free → x.image = none) ∧ x.keys.model = none ∧ x.keys.store = none ∧ x.keys.streams = [] ∧ x.keys.ephemeral = [] ∧
    holdsImage x = false := by
  by_cases hy : y.state = .free
  · rw [if_pos hy] at h
    obtain ⟨hs, hrest⟩ := Prod.mk.inj h
    obtain ⟨-, hk⟩ := Prod.mk.inj hrest
    rw [hk, holdsImage, hs]
    exact ⟨fun hn => absurd hy hn, rfl, rfl, rfl, rfl, rfl⟩
  · rw [if_neg hy] at h
    obtain ⟨hs, hrest⟩ := Prod.mk.inj h
    obtain ⟨hi, hk⟩ := Prod.mk.inj hrest
    rw [hk, holdsImage, hs]
    exact ⟨fun _ => hi, rfl, rfl, rfl, rfl, rfl⟩

/-- A wipe, partition by partition (15 R415; log entry 99). -/
theorem wipeVault_part (cause : Nat) (p : PartId) :
    ((s.part p).state ≠ .free → ((wipeVault s cause).part p).image = none) ∧ ((wipeVault s cause).part p).keys.model = none ∧
    ((wipeVault s cause).part p).keys.store = none ∧ ((wipeVault s cause).part p).keys.streams = [] ∧
    ((wipeVault s cause).part p).keys.ephemeral = [] ∧ holdsImage ((wipeVault s cause).part p) = false := by
  have h : (wipeVault s cause).part p = (vaultWiped s cause).part p := congrArg (fun v : Vector Part 8 => v.get p) (wipeVault_units cause).1
  rw [h]
  exact Part.wiped_of_tenant (vaultWiped_tenant cause p)

/-- The clusters after a wipe that clears no partition. -/
theorem wipeVault_cluster (hfree : ∀ p, (s.part p).state = .free) (cause : Nat) (k : ClusterId) :
    (wipeVault s cause).cluster k = { s.cluster k with key := none, prev := none, clean := false } := by
  have h : (wipeVault s cause).cluster k = (vaultWiped s cause).cluster k :=
    congrArg (fun v : Vector Cluster 8 => v.get k) (wipeVault_units cause).2
  rw [h, vaultWiped_free hfree, vaultOpened_cluster]

end

end Sys2Proof.Machine

namespace Sys2Proof.Machine

/-! ## Restarts -/

section
variable {s : State}

/-- A restart before its sessions end (16 R449). -/
def restartCore (s : State) : State :=
  let t := offState s
  { t with
    i3c := s.i3c.map keepPort
    orders := { Orders.init with nextSession := s.orders.nextSession }
    time := { TimeRt.init with base := (s.stamp : Int) - s.now, ref := s.time.ref, lastEdge := s.time.lastEdge }
    fw := { t.fw with powerAt := s.fw.powerAt, startIn := s.fw.startIn }
    lanes := { t.lanes with rxSync := s.lanes.rxSync }
    csi := { t.csi with rx := s.csi.rx.map (fun r => { RxPort.init with sync := r.sync }) }
    power := { t.power with
      state := .boot
      level := s.power.level
      supplyHeld := s.power.supplyHeld
      above45 := s.power.above45 } }

theorem restartBase_offMail : (restartBase s).offMail = (restartCore s).offMail := by
  refine forI3c_view (s := restartCore s) State.offMail (f := fun x t => if (t.port x).session.live then endSession t x 3 else t) fun x u => ?_
  split
  · exact endSession_offMail 3
  · rfl

/-- Restart into the boot ROM. -/
theorem restartRom_offMail : (restartRom s).offMail =
    ((((restartBase s).modFw fun f => { f with startStep := 2 }).modSecurity
      fun v => { v with identity := identityUsable ((restartBase s).modFw fun f => { f with startStep := 2 }).fuses })).offMail :=
  retakePosts_offMail

theorem restartRom_waits : (restartRom s).mem = Mem.init ∧ (restartRom s).fuses = s.fuses ∧ (restartRom s).power.state = .boot ∧
    (restartRom s).fw.startStep = 2 ∧ (restartRom s).security.identity = identityUsable s.fuses := by
  have h := restartRom_offMail (s := s)
  have hb := restartBase_offMail (s := s)
  generalize restartRom s = u at h ⊢
  generalize restartBase s = t at h hb
  have hfuses : t.fuses = s.fuses := (congrArg State.fuses hb :)
  refine ⟨?_, ?_, ?_, ?_, ?_⟩
  · exact ((congrArg State.mem h :)).trans ((congrArg State.mem hb :))
  · exact ((congrArg State.fuses h :)).trans hfuses
  · exact ((congrArg (fun u => u.power.state) h :)).trans ((congrArg (fun u => u.power.state) hb :))
  · exact (congrArg (fun u => u.fw.startStep) h :)
  · have hi : u.security.identity = identityUsable t.fuses := (congrArg (fun u => u.security.identity) h :)
    rw [hi, hfuses]

end

/-! ## The loss of PRSNT_N -/

section
variable {s : State}

/-- The heartbeats and idles of a loss of PRSNT_N change no base. -/
theorem sendPulled_base : (sendPulled s).base = s.base := by
  unfold sendPulled
  dsimp only
  rw [State.modLanes_base]
  refine forParts_view s State.base fun p u => ?_
  split
  · exact sendBeatAs_base ..
  · rfl

theorem sendPulled_idle : (sendPulled s).lanes.idleOnly = true := rfl

theorem setSelfRefresh_lanes (b : Bool) : (setSelfRefresh s b).lanes = s.lanes := forClusters_view s State.lanes fun _ _ => rfl

theorem enterQuench_lanes (hp : powered s = true) (cause : Nat) : (enterQuench s cause).lanes = s.lanes := by
  by_cases hq : s.power.state = .quench
  · rw [enterQuench_quench hq]
    rfl
  · rw [enterQuench_enters hp hq]
    have h1 : (quenchBegun s cause).lanes = s.lanes := by
      unfold quenchBegun
      rw [State.event_lanes, State.modThermal_lanes, State.modPower_lanes]
      exact (congrArg State.lanes (settleHolds_offClaim (s := s.modPower fun w => { w with quenchAt := s.now })) :)
    generalize quenchBegun s cause = v at h1 ⊢
    rw [setSelfRefresh_lanes, forParts_view v State.lanes, h1]
    exact fun p u => (congrArg State.lanes (yieldPaired_offClaim (s := u) p) :)

/-- One port's turn in the cut: a frame under way ends now. -/
def cutPort (n : PortId) (s : State) : State :=
  if s.now < (s.csi.tx.get n).endAt then (s.emit (.csiCut n)).modTx n (fun t => { t with endAt := s.now, frames := t.frames - 1 }) else s

theorem cutTransmit_eq : cutTransmit s = forPorts cutPort (s.modCsi (fun c => { c with stopped := true })) := rfl

theorem cutPort_keeps (n : PortId) : (cutPort n s).base = s.base ∧ (cutPort n s).lanes = s.lanes ∧ (cutPort n s).csi.stopped = s.csi.stopped := by
  unfold cutPort
  split <;> exact ⟨rfl, rfl, rfl⟩

/-- The instant at which a port's frame ends, with the present one. -/
def State.txEnd (s : State) (n : PortId) : Ns × Ns := ((s.csi.tx.get n).endAt, s.now)

theorem cutPort_own (n : PortId) : (cutPort n s).txEnd n = (min (s.txEnd n).1 (s.txEnd n).2, (s.txEnd n).2) := by
  unfold cutPort
  split
  · next h =>
    refine Prod.ext ?_ rfl
    have he : (((s.emit (.csiCut n)).modTx n (fun t => { t with endAt := s.now, frames := t.frames - 1 })).csi.tx.get n).endAt = s.now :=
      congrArg TxPort.endAt (vget_set_self ..)
    exact he.trans (min_eq_right h.le).symm
  · next h => exact Prod.ext (min_eq_left (Nat.not_lt.mp h)).symm rfl

theorem cutPort_other {n m : PortId} (h : n ≠ m) : (cutPort n s).txEnd m = s.txEnd m := by
  unfold cutPort
  split
  · exact Prod.ext (congrArg TxPort.endAt (vget_set_ne _ _ _ _ h)) rfl
  · rfl

theorem cutTransmit_leaves : (cutTransmit s).base = s.base ∧ (cutTransmit s).lanes = s.lanes ∧ (cutTransmit s).csi.stopped = true := by
  rw [cutTransmit_eq]
  exact ⟨forPorts_view _ State.base fun _ _ => (cutPort_keeps _).1, forPorts_view _ State.lanes fun _ _ => (cutPort_keeps _).2.1,
    forPorts_view _ (fun u => u.csi.stopped) fun _ _ => (cutPort_keeps _).2.2⟩

theorem cutTransmit_ends (n : PortId) : ((cutTransmit s).csi.tx.get n).endAt ≤ s.now := by
  rw [cutTransmit_eq]
  have hnow : (s.modCsi fun c => { c with stopped := true }).now = s.now := rfl
  generalize s.modCsi (fun c => { c with stopped := true }) = u at hnow ⊢
  have h : (forPorts cutPort u).txEnd n = (min (u.txEnd n).1 (u.txEnd n).2, (u.txEnd n).2) :=
    (foldl_each (F := cutPort) (get := State.txEnd) (g := fun _ e => (min e.1 e.2, e.2)) (fun _ _ => cutPort_own _) (fun _ _ _ h => cutPort_other h)
      _ u n (List.nodup_finRange 16)).trans (if_pos (List.mem_finRange n))
  generalize forPorts cutPort u = w at h ⊢
  have hend : (w.txEnd n).1 ≤ u.now := by
    rw [h]
    exact min_le_right _ _
  rw [← hnow]
  exact hend

/-- The last of a loss of PRSNT_N: the job keys go and the event is made. -/
theorem wipeJobs_base (u code part : Nat) (data : Bytes) :
    let v := (forParts (fun p s => s.modPart p (fun x => { x with job := x.job.map wipeJob })) s).event u code part data
    v.base = s.base ∧ v.lanes = s.lanes ∧ v.csi = s.csi := by
  have h := forParts_view s State.offClaim (f := fun p s => s.modPart p (fun x => { x with job := x.job.map wipeJob })) fun _ _ => rfl
  generalize forParts (fun p s => s.modPart p (fun x => { x with job := x.job.map wipeJob })) s = v at h ⊢
  have he := event_offMail (s := v) u code part data
  dsimp only
  generalize v.event u code part data = w at he ⊢
  exact ⟨((congrArg State.base he :)).trans (congrArg State.base h :), ((congrArg State.lanes he :)).trans (congrArg State.lanes h :),
    ((congrArg State.csi he :)).trans (congrArg State.csi h :)⟩

/-- The loss of PRSNT_N of a module past its start (17 R458, R459). -/
theorem execPrsntLoss_quench (hp : powered s = true) (hl : s.power.prsntLost = false) (h0 : s.fw.startStep ≠ 0) :
    ∃ u v : State, execPrsntLoss s = .next u ∧ v.base = { s.base with power := { s.power with prsnt := false, prsntLost := true } } ∧
      u.base = (enterQuench v 6).base ∧ u.lanes.idleOnly = true ∧ u.csi.stopped = true ∧ (∀ n, (u.csi.tx.get n).endAt ≤ u.now) := by
  have hoff : s.power.state ≠ .off := by rintro e; simp [powered, e] at hp
  generalize hv : sendPulled ((s.modPower fun w => { w with prsnt := false }).modPower fun w => { w with prsntLost := true }) = v
  have hvb : v.base = { s.base with power := { s.power with prsnt := false, prsntLost := true } } := by
    rw [← hv, sendPulled_base]
    rfl
  have hvp : powered v = true := by
    have hstate : v.power.state = s.power.state := (congrArg (fun b : Base => b.power.state) hvb :)
    rw [powered, hstate]
    exact hp
  have hidle : v.lanes.idleOnly = true := by rw [← hv, sendPulled_idle]
  have hlanes := enterQuench_lanes hvp 6
  obtain ⟨hcb, hcl, hcs⟩ := cutTransmit_leaves (s := enterQuench v 6)
  have hce := cutTransmit_ends (s := enterQuench v 6)
  obtain ⟨hub, hul, huc⟩ := wipeJobs_base (s := cutTransmit (enterQuench v 6)) srcTeaser 0x040B 0xFF (leBytes 1 (bit s.power.drained))
  have hex : execPrsntLoss s = .next ((forParts (fun p s => s.modPart p (fun x => { x with job := x.job.map wipeJob }))
      (cutTransmit (enterQuench v 6))).event srcTeaser 0x040B 0xFF (leBytes 1 (bit s.power.drained))) := by
    unfold execPrsntLoss
    dsimp only
    rw [if_neg (by simp [hoff, hl, h0]), hv]
    rfl
  generalize State.event _ srcTeaser 0x040B 0xFF (leBytes 1 (bit s.power.drained)) = u at hex hub hul huc
  generalize cutTransmit (enterQuench v 6) = c at hcb hcl hcs hce hub hul huc
  have hnow : u.now = (enterQuench v 6).now := (congrArg Base.now (hub.trans hcb) :)
  exact ⟨u, v, hex, hvb, hub.trans hcb, by rw [hul, hcl, hlanes, hidle], by rw [huc, hcs], fun n => by rw [huc, hnow]; exact hce n⟩

end

/-- Settles O21: the loss of PRSNT_N is an entry into QUENCH between the heartbeats and the cut of the transmit ports; both tamper rows are
`wipeVault`, the lid's with a restart after it (log entries 77 and 100). -/
theorem presenceAndTamper : Obligations.PresenceAndTamper := by
  intro s hp
  have hoff : s.power.state ≠ .off := by rintro e; simp [powered, e] at hp
  refine ⟨fun hl h0 => ?_, ?_, fun mesh => ?_⟩
  · obtain ⟨u, v, hex, hv, hu, hidle, hstop, hend⟩ := execPrsntLoss_quench hp hl h0
    have hvp : v.power = { s.power with prsnt := false, prsntLost := true } := (congrArg Base.power hv :)
    have hstate : v.power.state = s.power.state := by rw [hvp]
    have hmem : u.mem = s.mem := ((congrArg Base.mem hu :)).trans ((enterQuench_always (s := v) 6).1.trans (congrArg Base.mem hv :))
    have hup : u.power = (enterQuench v 6).power := (congrArg Base.power hu :)
    refine ⟨u, hex, ?_⟩
    by_cases hq : s.power.state = .quench
    · have he : u.power = { v.power with quenchAt := v.now } := by
        rw [hup, enterQuench_quench (hstate.trans hq)]
        rfl
      rw [he, hvp, if_pos hq, if_pos hq]
      exact ⟨hq, rfl, rfl, rfl, rfl, hstop, hend, hidle, hmem⟩
    · have hb := enterQuench_base (s := v) (by rw [powered, hstate]; exact hp) (by rw [hstate]; exact hq) 6
      have he : u.power = _ := hup.trans (congrArg Base.power hb :)
      rw [he, hvp, if_neg hq, if_neg hq]
      exact ⟨rfl, rfl, rfl, rfl, rfl, hstop, hend, hidle, hmem⟩
  · obtain ⟨hmem, -, hsec⟩ := wipeVault_vault (s := s.modSecurity fun v => { v with extTamper := true }) 1
    refine ⟨_, if_neg hoff, ?_⟩
    rw [hsec]
    refine ⟨rfl, rfl, rfl, rfl, rfl, hmem, fun p => ?_, fun hfree k => ?_⟩
    · obtain ⟨himage, hmodel, hstore, hstreams, hephemeral, -⟩ := wipeVault_part (s := s.modSecurity fun v => { v with extTamper := true }) 1 p
      exact ⟨himage, hmodel, hstore, hstreams, hephemeral⟩
    · rw [wipeVault_cluster (s := s.modSecurity fun v => { v with extTamper := true }) hfree]
      exact ⟨rfl, rfl, rfl⟩
  · obtain ⟨-, hfuses, -⟩ := wipeVault_vault (s := { s with fuses := { s.fuses with tampered := true } }) (if mesh then 4 else 3)
    refine ⟨_, if_neg hoff, ?_⟩
    dsimp only
    generalize wipeVault { s with fuses := { s.fuses with tampered := true } } (if mesh then 4 else 3) = w at hfuses ⊢
    obtain ⟨hmem, hf, hstate, hstep, hid⟩ := restartRom_waits (s := w)
    rw [State.event_fuses, State.event_security, State.event_power, State.event_fw, State.event_mem]
    refine ⟨hf.trans hfuses, ?_, hstate, hstep, hmem⟩
    rw [hid, hfuses]
    rfl

end Sys2Proof.Machine

namespace Sys2Proof.Machine

/-! ## The teaser cycle, stage by stage -/

/-- What one cycle reads and keeps: the instant, memory, the readings, and the level of TAMPER_N. -/
structure CycleView where
  now : Ns
  mem : Mem
  cycleAt : Ns
  p100 : Nat
  p1s : Nat
  supplyMv : Nat
  currentUnits : Nat
  supplied : Nat
  reg : Vector Int 8
  inlet : Int
  outlet : Int
  tamper : Bool
  sensors : CoreId → Int × Int × BitVec 16

/-- The sensors of a core. -/
def Core.sensors (k : Core) : Int × Int × BitVec 16 := (k.diode, k.delay, k.rate)

def State.cycleView (s : State) : CycleView :=
  { now := s.now, mem := s.mem, cycleAt := s.power.cycleAt, p100 := s.power.p100, p1s := s.power.p1s, supplyMv := s.power.supplyMv
    currentUnits := s.power.currentUnits, supplied := s.thermal.supplied, reg := s.thermal.reg, inlet := s.thermal.inlet
    outlet := s.thermal.outlet, tamper := s.security.extTamper, sensors := fun c => (s.core c).sensors }

/-- The readings with the die voltages and the module state. -/
def State.stage (s : State) : CycleView × Vector Die 2 × ModState := (s.cycleView, s.power.dies, s.power.state)

/-- The readings with the die voltages, where the module state may change. -/
def State.stageDies (s : State) : CycleView × Vector Die 2 := (s.cycleView, s.power.dies)

section
variable {s : State}

theorem stageDies_of {t : State} (h : t.stage = s.stage) : t.stageDies = s.stageDies :=
  (congrArg (fun e : CycleView × Vector Die 2 × ModState => (e.1, e.2.1)) h :)

theorem stage_ofMail {t : State} (h : t.offMail = s.offMail) : t.stage = s.stage := (congrArg State.stage h :)
theorem stage_ofClaim {t : State} (h : t.offClaim = s.offClaim) : t.stage = s.stage := (congrArg State.stage h :)

theorem event_stage (u code part : Nat) (data : Bytes) : (s.event u code part data).stage = s.stage := stage_ofMail (event_offMail ..)
theorem settleHolds_stage : (settleHolds s).stage = s.stage := stage_ofClaim settleHolds_offClaim

/-- A change of a core that keeps its sensors. -/
theorem modCore_sensors {f : Core → Core} (hf : ∀ k, (f k).sensors = k.sensors) (c d : CoreId) :
    ((s.modCore c f).core d).sensors = (s.core d).sensors := by
  by_cases h : c = d
  · rw [← h, State.modCore_core, hf]
  · rw [State.modCore_core_ne _ _ _ _ h]

theorem modCore_stage {f : Core → Core} (hf : ∀ k, (f k).sensors = k.sensors) (c : CoreId) : (s.modCore c f).stage = s.stage := by
  have h : (fun d => ((s.modCore c f).core d).sensors) = fun d => (s.core d).sensors := funext fun d => modCore_sensors hf c d
  exact congrArg (fun g => (({ s.cycleView with sensors := g } : CycleView), s.power.dies, s.power.state)) h

/-! ### QUENCH and descents -/

theorem beginDescent_stage (kind idx : Nat) (reading : Int) : (beginDescent s kind idx reading).stage = s.stage := by
  have hv := settleHolds_stage (s := s)
  unfold beginDescent descentEvent
  generalize settleHolds s = v at hv ⊢
  split
  · rfl
  · exact (event_stage ..).trans hv

theorem quenchBegun_stageDies (cause : Nat) : (quenchBegun s cause).stageDies = s.stageDies := by
  have hv := stageDies_of (settleHolds_stage (s := s.modPower fun w => { w with quenchAt := s.now }))
  unfold quenchBegun
  generalize settleHolds (s.modPower fun w => { w with quenchAt := s.now }) = v at hv ⊢
  exact (stageDies_of (event_stage ..)).trans hv

theorem yieldParts_stageDies :
    (forParts (fun p s => if (s.part p).claim.paired then yieldClaim s p else s) s).stageDies = s.stageDies :=
  forParts_view s State.stageDies fun p _ => stageDies_of (stage_ofClaim (yieldPaired_offClaim p))

theorem setSelfRefresh_stageDies (b : Bool) : (setSelfRefresh s b).stageDies = s.stageDies := forClusters_view s State.stageDies fun _ _ => rfl

theorem enterQuench_stageDies (cause : Nat) : (enterQuench s cause).stageDies = s.stageDies := by
  by_cases h : powered s = true ∧ s.power.state ≠ .quench
  · rw [enterQuench_enters h.1 h.2, setSelfRefresh_stageDies, yieldParts_stageDies, quenchBegun_stageDies]
  · obtain ⟨at_, c, he⟩ := enterQuench_stays h cause
    rw [he]
    rfl

theorem quenchHeat_stageDies : (quenchHeat s).stageDies = s.stageDies := by
  unfold quenchHeat
  dsimp only
  split
  · exact enterQuench_stageDies 1
  split
  · exact enterQuench_stageDies 2
  split
  · exact enterQuench_stageDies 3
  · rfl

theorem descentHeat_stage : (descentHeat s).stage = s.stage := by
  unfold descentHeat
  dsimp only
  split
  · exact beginDescent_stage ..
  split
  · exact beginDescent_stage ..
  · rfl

theorem trackDescent_stage : (trackDescent s).stage = s.stage := by
  unfold trackDescent
  split <;> rfl

/-! ### Coolant, caps, voltages and the lehr -/

theorem flowCycle_stage : (flowCycle s).stage = s.stage := by
  unfold flowCycle
  dsimp only [State.modThermal]
  split <;> rfl

theorem coolantCycle_stage : (coolantCycle s).stage = s.stage := by
  unfold coolantCycle
  dsimp only [State.modThermal]
  split
  · rfl
  split <;> rfl

theorem endShed_stage : (endShed s).stage = s.stage := by
  have hv := settleHolds_stage (s := s)
  unfold endShed
  generalize settleHolds s = v at hv ⊢
  split
  · exact (event_stage ..).trans hv
  · rfl

theorem countLow_stage (before : Vector Die 2) (c : CoreId) : (countLow s before c).stage = s.stage := modCore_stage (by intro; rfl) c

theorem voltageCycle_stage : (voltageCycle s).stage = (s.cycleView, Vector.ofFn (fun d : DieId => moveDie s d), s.power.state) :=
  (forCores_view State.stage fun _ _ => countLow_stage _ _).trans rfl

theorem rampCore_stage (c : CoreId) : (rampCore s c).stage = s.stage := by
  have hup := modCore_stage (s := s) (f := fun k => { k with rampUp := true }) (fun _ => rfl) c
  have hdown := modCore_stage (s := s) (f := fun k => { k with rampDown := true }) (fun _ => rfl) c
  have hdrawn := modCore_stage (s := s.draw.2) (f := fun k => { k with rampDown := true }) (fun _ => rfl) c
  unfold rampCore
  dsimp only
  split
  · split
    · rfl
    · exact (event_stage ..).trans hup
  split
  · split
    · rfl
    split
    · split
      · rfl
      · exact (event_stage ..).trans hdrawn
    · exact (event_stage ..).trans hdown
  · exact modCore_stage (by intro; rfl) c

theorem lehrCycle_stage : (lehrCycle s).stage = s.stage := by
  have hv : (forCores (fun c s => rampCore s c) s).stage = s.stage := forCores_view State.stage fun _ _ => rampCore_stage _
  unfold lehrCycle
  generalize forCores (fun c s => rampCore s c) s = v at hv ⊢
  exact hv

end

end Sys2Proof.Machine

namespace Sys2Proof.Machine

/-! ## What a cycle reads -/

/-- The state without the I3C ports, the orders, the events and the cores. -/
def State.offCores (s : State) : State := { s.offMail with cores := State.reset.cores }

/-- The stage of a cycle without the sensors of the cores. -/
def State.bare (s : State) : CycleView × Vector Die 2 × ModState :=
  ({ s.cycleView with sensors := fun _ => (0, 0, 0) }, s.power.dies, s.power.state)

/-- A core with its sensors read (14 R397, R399). -/
def Core.read (r : Readings) (c : CoreId) (k : Core) : Core :=
  let k := { k with
    diode := r.diode.get c
    delay := r.delay.get c
    rate := BitVec.ofNat 16 (r.rate.get c)
    workSeen := k.work
    workRate := (k.work - k.workSeen).toNat / 100
    diodeDoubted := k.diodeDoubted || !hotRange (r.diode.get c)
    delayDoubted := k.delayDoubted || !hotRange (r.delay.get c) }
  { k with suspect := k.suspect || (k.diodeDoubted || k.delayDoubted) }

/-- What a pair that is trusted reads: its pair reading and its two sensors; nothing when one of them is doubted. -/
def Core.trusted (k : Core) : Option (Int × Int × Int) := if k.diodeDoubted || k.delayDoubted then none else some (k.pair, k.diode, k.delay)

section
variable {s : State} {r : Readings}

/-! ### Bit errors -/

theorem addBitError_only (e : BitError) : addBitError s e = { s with mem := (addBitError s e).mem } := by
  unfold addBitError
  dsimp only
  split <;> split <;> rfl

/-- Bit errors are of memory alone, and depend on memory alone. -/
theorem addBitError_congr {t : State} (h : s.mem = t.mem) (e : BitError) : (addBitError s e).mem = (addBitError t e).mem := by
  unfold addBitError
  rw [h]
  dsimp only
  split <;> split <;> simp [h]

theorem addBitErrors_congr (es : List BitError) : ∀ {s t : State}, s.mem = t.mem → (es.foldl addBitError s).mem = (es.foldl addBitError t).mem := by
  induction es with
  | nil => exact fun h => h
  | cons e es ih => exact fun h => ih (addBitError_congr h e)

theorem addBitErrors_only (es : List BitError) : es.foldl addBitError s = { s with mem := (es.foldl addBitError s).mem } :=
  List.foldlRecOn (motive := fun u => u = { s with mem := u.mem }) es addBitError rfl fun u hu e _ => by
    rw [addBitError_only (s := u), hu]

theorem addBitErrors_bytes (es : List BitError) :
    (es.foldl addBitError s).mem.banks = s.mem.banks ∧ (es.foldl addBitError s).mem.hbm = s.mem.hbm := by
  have h := foldl_view s (fun u => (u.mem.banks, u.mem.hbm)) (f := addBitError) (fun u e => by
    unfold addBitError
    dsimp only
    split <;> split <;> rfl) es
  exact ⟨congrArg Prod.fst h, congrArg Prod.snd h⟩

/-! ### The cores -/

theorem readCore_core (c : CoreId) : (readCore s r c).core c = (s.core c).read r c := by
  unfold readCore
  dsimp only
  split
  · rw [State.event_core]
    exact State.setCore_core ..
  · exact State.setCore_core ..

theorem readCore_core_ne {c d : CoreId} (h : c ≠ d) : (readCore s r c).core d = s.core d := by
  unfold readCore
  dsimp only
  split
  · rw [State.event_core]
    exact State.setCore_core_ne _ _ _ _ h
  · exact State.setCore_core_ne _ _ _ _ h

theorem readCore_offCores (c : CoreId) : (readCore s r c).offCores = s.offCores := by
  unfold readCore
  dsimp only
  split
  · exact (congrArg (fun u : State => { u with cores := State.reset.cores }) (event_offMail ..)).trans rfl
  · rfl

theorem readCores_core (c : CoreId) : (forCores (fun c s => readCore s r c) s).core c = (s.core c).read r c :=
  forCores_each (g := fun c k => k.read r c) (fun _ _ => readCore_core _) (fun _ _ _ h => readCore_core_ne h) c

theorem estimateCore_stage (c : CoreId) : (estimateCore s c).2.stage = s.stage ∧ (estimateCore s c).2.cores = s.cores := by
  unfold estimateCore
  dsimp only
  split <;> exact ⟨rfl, rfl⟩

theorem pairCore_stage (c : CoreId) : (pairCore s c).stage = s.stage :=
  (modCore_stage (s := (estimateCore s c).2) (by intro; rfl) c).trans (estimateCore_stage c).1

theorem pairCore_own (c : CoreId) : ((pairCore s c).core c).trusted = (s.core c).trusted.map (fun e => (max e.2.1 e.2.2, e.2.1, e.2.2)) := by
  have hc : (estimateCore s c).2.core c = s.core c := congrArg (fun v : Vector Core 64 => v.get c) (estimateCore_stage c).2
  unfold pairCore
  dsimp only
  rw [State.modCore_core, hc]
  unfold Core.trusted
  cases (s.core c).diodeDoubted <;> cases (s.core c).delayDoubted <;> rfl

theorem pairCore_other {c d : CoreId} (h : c ≠ d) : (pairCore s c).core d = s.core d := by
  have hc : (estimateCore s c).2.core d = s.core d := congrArg (fun v : Vector Core 64 => v.get d) (estimateCore_stage c).2
  exact (State.modCore_core_ne _ _ _ _ h).trans hc

theorem pairCores_trusted (c : CoreId) : ((forCores (fun c s => pairCore s c) s).core c).trusted =
    (s.core c).trusted.map (fun e => (max e.2.1 e.2.2, e.2.1, e.2.2)) :=
  (foldl_each (F := fun c s => pairCore s c) (get := fun u c => (u.core c).trusted) (g := fun _ e => e.map fun e => (max e.2.1 e.2.2, e.2.1, e.2.2))
    (fun _ _ => pairCore_own _) (fun _ _ _ h => congrArg Core.trusted (pairCore_other h)) _ s c (List.nodup_finRange 64)).trans
    (if_pos (List.mem_finRange c))

/-! ### The rest of the reading -/

theorem readStacks_stage : (readStacks s r).stage = s.stage := by
  unfold readStacks
  dsimp only
  split <;> rfl

theorem readStacks_cores : (readStacks s r).cores = s.cores := by
  unfold readStacks
  dsimp only
  split <;> rfl

theorem capCluster_stage (k : ClusterId) : (capCluster s k).stage = s.stage := by
  unfold capCluster
  dsimp only
  split
  · rfl
  · exact event_stage ..

theorem capCluster_cores (k : ClusterId) : (capCluster s k).cores = s.cores := by
  unfold capCluster
  dsimp only
  split
  · rfl
  · exact State.event_cores ..

theorem countAbove_keeps (mv : Nat) (w : Power) :
    (countAbove s mv w).cycleAt = w.cycleAt ∧ (countAbove s mv w).dies = w.dies ∧ (countAbove s mv w).state = w.state := by
  unfold countAbove
  split <;> exact ⟨rfl, rfl, rfl⟩

/-- The level of TAMPER_N as a cycle reads it. -/
def tamperRead (s : State) (r : Readings) : State := match r.tamperLow with | some b => s.modSecurity (fun v => { v with extTamper := b }) | none => s

/-- The cores as a cycle reads them. -/
def coresRead (s : State) (r : Readings) : State :=
  forCores (fun c s => pairCore s c) (forCores (fun c s => readCore s r c) (r.bitErrors.foldl addBitError (tamperRead s r)))

/-- What a cycle reads. -/
def CycleView.reading (v : CycleView) (r : Readings) : CycleView :=
  { v with p100 := r.p100, p1s := r.p1s, supplyMv := r.supply, currentUnits := r.current, supplied := r.suppliedFlow, reg := r.reg
           inlet := r.inlet, outlet := r.outlet, tamper := r.tamperLow.getD v.tamper
           sensors := fun c => (r.diode.get c, r.delay.get c, BitVec.ofNat 16 (r.rate.get c)) }

theorem tamperRead_view : (tamperRead s r).stage = ({ s.cycleView with tamper := r.tamperLow.getD s.security.extTamper }, s.power.dies, s.power.state) ∧
    (tamperRead s r).cores = s.cores ∧ (tamperRead s r).mem = s.mem := by
  unfold tamperRead
  cases r.tamperLow <;> exact ⟨rfl, rfl, rfl⟩

/-- Reading the cores changes the sensors, and memory by the bit errors. -/
theorem coresRead_stage : (coresRead s r).stage =
    ({ s.cycleView with
        mem := (r.bitErrors.foldl addBitError s).mem
        tamper := r.tamperLow.getD s.security.extTamper
        sensors := fun c => (r.diode.get c, r.delay.get c, BitVec.ofNat 16 (r.rate.get c)) }, s.power.dies, s.power.state) := by
  obtain ⟨htamper, -, htm⟩ := tamperRead_view (s := s) (r := r)
  have hmem := addBitErrors_congr r.bitErrors htm
  have honly := addBitErrors_only (s := tamperRead s r) r.bitErrors
  unfold coresRead
  generalize tamperRead s r = a at htamper hmem honly ⊢
  generalize r.bitErrors.foldl addBitError a = b at hmem honly ⊢
  have hsensors := fun c => (congrArg Core.sensors (readCores_core (s := b) (r := r) c) : _ = (r.diode.get c, r.delay.get c, BitVec.ofNat 16 (r.rate.get c)))
  have hoff : (forCores (fun c s => readCore s r c) b).offCores = b.offCores := forCores_view State.offCores fun _ _ => readCore_offCores _
  have hpair : (forCores (fun c s => pairCore s c) (forCores (fun c s => readCore s r c) b)).stage = (forCores (fun c s => readCore s r c) b).stage :=
    forCores_view State.stage fun _ _ => pairCore_stage _
  refine hpair.trans ?_
  generalize forCores (fun c s => readCore s r c) b = c at hsensors hoff ⊢
  have hbare : c.bare = ({ s.cycleView with mem := b.mem, tamper := r.tamperLow.getD s.security.extTamper, sensors := fun _ => (0, 0, 0) },
      s.power.dies, s.power.state) := by
    have h1 : c.bare = b.bare := (congrArg State.bare hoff :)
    have h2 : b.bare = ({ a.bare.1 with mem := b.mem }, a.bare.2) := by
      rw [honly]
      rfl
    have h3 : a.bare = _ := congrArg (fun e : CycleView × Vector Die 2 × ModState => (({ e.1 with sensors := fun _ => (0, 0, 0) } : CycleView), e.2)) htamper
    rw [h1, h2, h3]
  have hc : c.stage = ({ c.bare.1 with sensors := fun d => (c.core d).sensors }, c.bare.2) := rfl
  rw [hc, hbare, funext hsensors, hmem]
  rfl

/-- A trusted pair reads the higher of its sensors (14 R398). -/
theorem coresRead_pair {c : CoreId} (h1 : (s.core c).diodeDoubted = false) (h2 : (s.core c).delayDoubted = false)
    (hr1 : hotRange (r.diode.get c) = true) (hr2 : hotRange (r.delay.get c) = true) :
    ((coresRead s r).core c).pair = max (r.diode.get c) (r.delay.get c) := by
  have hcores : (tamperRead s r).core c = s.core c := congrArg (fun v : Vector Core 64 => v.get c) (tamperRead_view (s := s) (r := r)).2.1
  have honly : (r.bitErrors.foldl addBitError (tamperRead s r)).core c = s.core c := by
    rw [addBitErrors_only]
    exact hcores
  have ht := pairCores_trusted (s := forCores (fun c s => readCore s r c) (r.bitErrors.foldl addBitError (tamperRead s r))) c
  rw [readCores_core, honly] at ht
  have hread : ((s.core c).read r c).trusted = some ((s.core c).pair, r.diode.get c, r.delay.get c) := by
    simp [Core.trusted, Core.read, h1, h2, hr1, hr2]
  rw [hread] at ht
  unfold coresRead
  generalize (forCores (fun c s => pairCore s c) (forCores (fun c s => readCore s r c) (r.bitErrors.foldl addBitError (tamperRead s r)))).core c = k at ht ⊢
  unfold Core.trusted at ht
  split at ht
  · cases ht
  · exact congrArg Prod.fst (Option.some.inj ht)

/-- What follows the cores in a reading: stacks, coolant, speed caps, history and the power readings. -/
def restRead (s : State) (r : Readings) : State :=
  let s := readCoolant (readStacks s r) r
  let s := forClusters (fun k s => capCluster s k) s
  let s := s.modThermal (fun h => { h with history := ((pairsOf s, h.hbm, h.reg) :: h.history).take (calmCycles + 1) })
  s.modPower (fun w => { countAbove s r.supply w with p100 := r.p100, p1s := r.p1s, supplyMv := r.supply, currentUnits := r.current })

theorem readAll_eq : readAll s r = restRead (coresRead s r) r := rfl

theorem powerRead_stage :
    (s.modPower fun w => { countAbove s r.supply w with p100 := r.p100, p1s := r.p1s, supplyMv := r.supply, currentUnits := r.current }).stage =
      ({ s.stage.1 with p100 := r.p100, p1s := r.p1s, supplyMv := r.supply, currentUnits := r.current }, s.stage.2) := by
  obtain ⟨h1, h2, h3⟩ := countAbove_keeps (s := s) r.supply s.power
  unfold State.stage State.cycleView State.modPower
  dsimp only
  rw [h1, h2, h3]
  rfl

theorem restRead_stage : (restRead s r).stage =
    ({ s.cycleView with
        p100 := r.p100, p1s := r.p1s, supplyMv := r.supply, currentUnits := r.current, supplied := r.suppliedFlow, reg := r.reg
        inlet := r.inlet, outlet := r.outlet }, s.power.dies, s.power.state) := by
  have hs := readStacks_stage (s := s) (r := r)
  unfold restRead
  dsimp only
  generalize readStacks s r = a at hs ⊢
  have hc : (forClusters (fun k s => capCluster s k) (readCoolant a r)).stage = (readCoolant a r).stage :=
    forClusters_view (readCoolant a r) State.stage fun _ _ => capCluster_stage _
  generalize forClusters (fun k s => capCluster s k) (readCoolant a r) = b at hc ⊢
  have hb : b.stage = _ := hc.trans (congrArg (fun e : CycleView × Vector Die 2 × ModState =>
    (({ e.1 with supplied := r.suppliedFlow, reg := r.reg, inlet := r.inlet, outlet := r.outlet } : CycleView), e.2)) hs)
  have hd : (b.modThermal fun h => { h with history := ((pairsOf b, h.hbm, h.reg) :: h.history).take (calmCycles + 1) }).stage = b.stage := rfl
  generalize (b.modThermal fun h => { h with history := ((pairsOf b, h.hbm, h.reg) :: h.history).take (calmCycles + 1) }) = d at hd ⊢
  refine (powerRead_stage (s := d) (r := r)).trans ?_
  rw [hd, hb]
  rfl

theorem restRead_cores : (restRead s r).cores = s.cores := by
  have hs := readStacks_cores (s := s) (r := r)
  unfold restRead
  dsimp only
  generalize readStacks s r = a at hs ⊢
  have hc : (forClusters (fun k s => capCluster s k) (readCoolant a r)).cores = (readCoolant a r).cores :=
    forClusters_view (readCoolant a r) State.cores fun _ _ => capCluster_cores _
  generalize forClusters (fun k s => capCluster s k) (readCoolant a r) = b at hc ⊢
  exact hc.trans hs

/-- What a cycle reads (14 R375). -/
theorem readAll_stage : (readAll s r).stage =
    ({ s.cycleView.reading r with mem := (r.bitErrors.foldl addBitError s).mem }, s.power.dies, s.power.state) := by
  have h := coresRead_stage (s := s) (r := r)
  have hr := restRead_stage (s := coresRead s r) (r := r)
  rw [← readAll_eq] at hr
  generalize readAll s r = u at hr ⊢
  generalize coresRead s r = a at h hr
  generalize (r.bitErrors.foldl addBitError s).mem = m at h ⊢
  refine hr.trans ?_
  exact congrArg (fun e : CycleView × Vector Die 2 × ModState => (({ e.1 with
        p100 := r.p100, p1s := r.p1s, supplyMv := r.supply, currentUnits := r.current, supplied := r.suppliedFlow, reg := r.reg
        inlet := r.inlet, outlet := r.outlet } : CycleView), e.2)) h

theorem readAll_pair {c : CoreId} (h1 : (s.core c).diodeDoubted = false) (h2 : (s.core c).delayDoubted = false)
    (hr1 : hotRange (r.diode.get c) = true) (hr2 : hotRange (r.delay.get c) = true) :
    ((readAll s r).core c).pair = max (r.diode.get c) (r.delay.get c) := by
  rw [← coresRead_pair h1 h2 hr1 hr2, readAll_eq, State.core, restRead_cores]
  rfl

end

end Sys2Proof.Machine

namespace Sys2Proof.Machine

/-! ## The end of a cycle: latch and start -/

/-- The latch is set exactly while one of its causes holds (14 R396). -/
def latchHolds (s : State) : Prop := s.power.latch = (s.power.state == .quench || s.power.supplyHeld || s.thermal.descent.isSome)

section
variable {s : State}

theorem clearCounts_stageDies : (clearCounts s).stageDies = s.stageDies ∧ (clearCounts s).thermal = s.thermal := by
  unfold clearCounts
  extract_lets a b c d e src f g h i
  have hg : g.stageDies = f.stageDies ∧ g.thermal = f.thermal :=
    ⟨forPorts_view f State.stageDies fun _ _ => rfl, forPorts_view f State.thermal fun _ _ => rfl⟩
  have hf : f.stageDies = s.stageDies ∧ f.thermal = s.thermal := by
    constructor <;> simp [f, e, d, c, b, a, forI3c, State.stageDies, State.cycleView, State.core]
  clear_value g
  exact ⟨hg.1.trans hf.1, hg.2.trans hf.2⟩

/-- The module in HOLD, before a QUENCH cause that came in BOOT takes it on: nothing that a cycle reads, no cause of the latch but the
module state moves. -/
theorem enterHold_stageDies : ∃ u : State, enterHold s = (if s.power.quenchCause = 0 then u else enterQuench u s.power.quenchCause) ∧
    u.stageDies = s.stageDies ∧ u.thermal = s.thermal ∧ u.power.latch = s.power.latch ∧ u.power.supplyHeld = s.power.supplyHeld ∧
    u.power.state = .hold := by
  unfold enterHold
  extract_lets v n w x u
  have hv : v.base = _ := clearCounts_base s
  obtain ⟨hvs, hvt⟩ : v.stageDies = s.stageDies ∧ v.thermal = s.thermal := clearCounts_stageDies
  clear_value v
  have hxp : x.power = { v.power with state := .hold } := rfl
  have hxs : x.stageDies = v.stageDies := rfl
  have hxt : x.thermal = v.thermal := rfl
  clear_value x
  have hup : u.power = x.power := State.event_power ..
  have hus : u.stageDies = x.stageDies := stageDies_of (event_stage ..)
  have hut : u.thermal = x.thermal := State.event_thermal ..
  clear_value u
  have hvp : v.power = _ := congrArg Base.power hv
  have hp := hup.trans hxp
  rw [hvp] at hp
  exact ⟨u, by rw [hp], hus.trans (hxs.trans hvs), hut.trans (hxt.trans hvt), by rw [hp], by rw [hp], by rw [hp]⟩

theorem enterQuench_latchHolds (h : powered s = true ∧ s.power.state ≠ .quench) (cause : Nat) : latchHolds (enterQuench s cause) := by
  have hb : (enterQuench s cause).power = _ := congrArg Base.power (enterQuench_base h.1 h.2 cause)
  rw [latchHolds, hb]
  rfl

theorem enterHold_latchHolds (hb : s.power.state = .boot) (h : latchHolds s) : latchHolds (enterHold s) := by
  obtain ⟨u, hu, -, ht, hl, hh, hs⟩ := enterHold_stageDies (s := s)
  rw [hu]
  split
  · rw [latchHolds, hl, hs, hh, ht]
    rw [latchHolds, hb] at h
    exact h
  · exact enterQuench_latchHolds ⟨by rw [powered, hs]; rfl, by rw [hs]; decide⟩ _

theorem enterHold_stageDies_eq : (enterHold s).stageDies = s.stageDies := by
  obtain ⟨u, hu, hs, -⟩ := enterHold_stageDies (s := s)
  rw [hu]
  split
  · exact hs
  · exact (enterQuench_stageDies _).trans hs

theorem settleStart_past (h : s.power.state ≠ .boot) : settleStart s = s := if_pos h

theorem endStep7_view : (endStep7 s).stage = s.stage ∧ (endStep7 s).power = s.power ∧ (endStep7 s).thermal = s.thermal := by
  unfold endStep7
  split <;> exact ⟨rfl, rfl, rfl⟩

/-- The start may go on to HOLD after a cycle; the readings, the voltages and the latch's rule stay. -/
theorem settleStart_cycle : (settleStart s).stageDies = s.stageDies ∧ (latchHolds s → latchHolds (settleStart s)) := by
  by_cases hb : s.power.state = .boot
  · obtain ⟨h7, h7p, h7t⟩ := endStep7_view (s := s)
    unfold settleStart
    rw [if_neg (not_not_intro hb)]
    dsimp only
    generalize endStep7 s = v at h7 h7p h7t ⊢
    have hv : latchHolds s → latchHolds v := fun h => by rw [latchHolds, h7p, h7t]; exact h
    split
    · exact ⟨enterHold_stageDies_eq.trans (stageDies_of h7), fun h => enterHold_latchHolds (by rw [h7p]; exact hb) (hv h)⟩
    · exact ⟨stageDies_of h7, hv⟩
  · rw [settleStart_past hb]
    exact ⟨rfl, id⟩

theorem throttleCycle_latch : latchHolds (throttleCycle (latchCycle s)) := rfl

/-! ## The heat of a cycle -/

theorem hottest_ge {a : Int} : ∀ {l : List Int}, a ∈ l → a ≤ (hottest l).2
  | [_], h => (List.mem_singleton.mp h).le
  | b :: c :: l, h => by
    unfold hottest
    dsimp only
    obtain rfl | h := List.mem_cons.mp h
    · split
      · exact le_rfl
      · next hn => exact (not_le.mp hn).le
    · have hrec := hottest_ge h
      split
      · next hb => exact hrec.trans hb
      · exact hrec

theorem pairs_mem (c : CoreId) : (s.core c).pair ∈ kindReadings s 0 := by
  unfold kindReadings pairsOf
  rw [if_pos rfl, Vector.toList_map]
  exact List.mem_map.mpr ⟨s.core c, Vector.mem_toList_iff.mpr (Vector.getElem_mem c.isLt), rfl⟩

/-- A pair at 105 °C takes the module to QUENCH (14 R381, R397). -/
theorem quenchHeat_enters (hp : powered s = true) {c : CoreId} (h : 105000 ≤ (s.core c).pair) : (quenchHeat s).power.state = .quench := by
  unfold quenchHeat
  dsimp only
  rw [if_pos (h.trans (hottest_ge (pairs_mem c)))]
  by_cases hq : s.power.state = .quench
  · rw [enterQuench_quench hq]
    exact hq
  · exact (congrArg (fun b : Base => b.power.state) (enterQuench_base hp hq 1) :)

end

end Sys2Proof.Machine

namespace Sys2Proof.Machine

/-! ## O23: one step of 10 mV -/

/-- A die on the steps of 10 mV from 600 to 850 mV, with its cap ceiling (14 R377). -/
def Die.onStep (d : Die) : Prop :=
  600 ≤ d.mv ∧ d.mv ≤ 850 ∧ d.mv % 10 = 0 ∧ 600 ≤ d.ceiling ∧ d.ceiling ≤ 850 ∧ d.ceiling % 10 = 0

/-- `b` is `a` after at most one step, with the same cap ceiling. -/
def Die.stepsTo (a b : Die) : Prop :=
  600 ≤ b.mv ∧ b.mv ≤ 850 ∧ b.mv % 10 = 0 ∧ b.ceiling = a.ceiling ∧ b.mv ≤ a.mv + 10 ∧ a.mv ≤ b.mv + 10

section
variable {s : State}

theorem capVoltage_onStep : 600 ≤ capVoltage s ∧ capVoltage s ≤ 850 ∧ capVoltage s % 10 = 0 := by
  unfold capVoltage
  extract_lets e
  split
  · decide
  · generalize hf : List.find? _ ((List.range 26).map fun i => 850 - 10 * i) = o
    cases o with
    | none => decide
    | some v =>
      obtain ⟨i, hi, rfl⟩ := List.mem_map.mp (List.mem_of_find?_eq_some hf)
      have hi' := List.mem_range.mp hi
      simp only [Option.getD_some]
      omega

theorem ceilDie_onStep {d : Die} (h : d.onStep) : (ceilDie s d).onStep ∧ (ceilDie s d).mv = d.mv := by
  obtain ⟨h1, h2, h3, h4, h5, h6⟩ := h
  obtain ⟨c1, c2, c3⟩ := capVoltage_onStep (s := s)
  unfold ceilDie Die.onStep
  dsimp only
  split_ifs with hshed hlow hrise
  · dsimp only
    omega
  · dsimp only
    omega
  · simp only [Bool.and_eq_true, decide_eq_true_eq] at hrise
    dsimp only
    omega
  · exact ⟨⟨h1, h2, h3, h4, h5, h6⟩, rfl⟩

theorem stepsTo_stay {d : Die} (h : d.onStep) {v : Die} (hv : v.mv = d.mv) (hc : v.ceiling = d.ceiling) : d.stepsTo v := by
  obtain ⟨h1, h2, h3, -⟩ := h
  exact ⟨by omega, by omega, by omega, hc, by omega, by omega⟩

theorem stepsTo_rise {d : Die} (h : d.onStep) {v : Die} (hb : d.mv < 850) (hv : v.mv = d.mv + 10) (hc : v.ceiling = d.ceiling) : d.stepsTo v := by
  obtain ⟨h1, h2, h3, -⟩ := h
  exact ⟨by omega, by omega, by omega, hc, by omega, by omega⟩

theorem stepsTo_fall {d : Die} (h : d.onStep) (hb : 600 < d.mv) (gov : Nat) : d.stepsTo (dieFall s d gov) := by
  obtain ⟨h1, h2, h3, -⟩ := h
  unfold dieFall Die.stepsTo
  dsimp only
  exact ⟨by omega, by omega, by omega, rfl, by omega, by omega⟩

/-- A die's turn in a cycle is at most one step (14 R377). -/
theorem moveDie_stepsTo (d : DieId) (h : (s.power.dies.get d).onStep) : (s.power.dies.get d).stepsTo (moveDie s d) := by
  unfold moveDie
  extract_lets v economy top goal target
  change v.onStep at h
  change v.stepsTo _
  obtain ⟨h1, h2, h3, h4, h5, h6⟩ := id h
  have htop : 600 ≤ top ∧ top ≤ 850 := by
    simp only [top]
    split <;> omega
  have hgoal : 600 ≤ goal := by
    simp only [goal]
    split <;> omega
  have htc : top ≤ v.ceiling := min_le_left _ _
  have htarget : 600 ≤ target ∧ target ≤ 850 := ⟨le_min htop.1 hgoal, (min_le_left _ _).trans htop.2⟩
  clear_value target goal top
  split
  · split
    · exact stepsTo_fall h (by omega) 1
    · exact stepsTo_stay h (show (600 : Nat) = v.mv by omega) rfl
  split
  · next hq =>
    simp only [Bool.and_eq_true, decide_eq_true_eq] at hq
    exact stepsTo_fall h (by omega) 2
  split
  · exact stepsTo_fall h (by omega) 3
  split
  · split
    · exact stepsTo_stay h rfl rfl
    · by_cases hm : v.mv < 850
      · exact stepsTo_rise h hm (show min 850 (v.mv + 10) = v.mv + 10 by omega) rfl
      · exact stepsTo_stay h (show min 850 (v.mv + 10) = v.mv by omega) rfl
  split
  · split
    · exact stepsTo_fall h (by omega) 5
    · exact stepsTo_stay h rfl rfl
  split
  · split
    · exact stepsTo_rise h (by omega) rfl rfl
    · exact stepsTo_stay h rfl rfl
  split
  · split
    · exact stepsTo_fall h (by omega) 6
    · exact stepsTo_stay h rfl rfl
  · exact stepsTo_stay h rfl rfl

/-! ## The whole cycle -/

/-- The instant of a cycle. -/
def cycleInstant (s : State) : Ns := max s.now (s.power.cycleAt + teaserPeriod)

/-- A cycle at its instant, before it reads. -/
def cycleBegun (s : State) : State :=
  let s := settleHolds (s.reach (s.power.cycleAt + teaserPeriod))
  s.modPower (fun w => { w with cycleAt := s.now })

theorem cycleBegun_stage : (cycleBegun s).stage =
    ({ s.cycleView with now := cycleInstant s, cycleAt := cycleInstant s }, s.power.dies, s.power.state) := by
  have h := settleHolds_stage (s := s.reach (s.power.cycleAt + teaserPeriod))
  unfold cycleBegun
  dsimp only
  generalize settleHolds (s.reach (s.power.cycleAt + teaserPeriod)) = v at h ⊢
  have hv : (v.modPower fun w => { w with cycleAt := v.now }).stage = ({ v.stage.1 with cycleAt := v.stage.1.now }, v.stage.2) := rfl
  rw [hv, h]
  rfl

theorem cycleBegun_cores : (cycleBegun s).cores = s.cores ∧ (cycleBegun s).mem = s.mem ∧ (cycleBegun s).security = s.security := by
  have h := settleHolds_offClaim (s := s.reach (s.power.cycleAt + teaserPeriod))
  unfold cycleBegun
  dsimp only
  generalize settleHolds (s.reach (s.power.cycleAt + teaserPeriod)) = v at h ⊢
  exact ⟨(congrArg State.cores h :), (congrArg State.mem h :), (congrArg State.security h :)⟩

/-- A cycle after its thresholds and its coolant, before the caps. -/
def cycleHeated (s : State) (r : Readings) : State :=
  coolantCycle (flowCycle (trackDescent (descentHeat (quenchHeat (readAll (cycleBegun s) r)))))

/-- A cycle before the start may go on. -/
def cycleEnded (w : State) : State := throttleCycle (latchCycle (lehrCycle (endShed (voltageCycle (capCycle w)))))

theorem execTeaserCycle_runs (r : Readings) (h : teaserRuns s = true) :
    execTeaserCycle r s = .next (settleStart (cycleEnded (cycleHeated s r))) :=
  if_neg (by simp [h])

theorem coolFlow_stage : (coolantCycle (flowCycle (trackDescent (descentHeat s)))).stage = s.stage :=
  coolantCycle_stage.trans (flowCycle_stage.trans (trackDescent_stage.trans descentHeat_stage))

/-- What a cycle has read and where the dies stand before its caps. -/
theorem cycleHeated_stageDies (r : Readings) : (cycleHeated s r).stageDies =
    ({ (CycleView.reading { s.cycleView with now := cycleInstant s, cycleAt := cycleInstant s } r) with
        mem := (r.bitErrors.foldl addBitError s).mem }, s.power.dies) := by
  have h1 := readAll_stage (s := cycleBegun s) (r := r)
  have h2 := cycleBegun_stage (s := s)
  rw [addBitErrors_congr r.bitErrors cycleBegun_cores.2.1] at h1
  unfold cycleHeated
  generalize cycleBegun s = a at h1 h2 ⊢
  generalize readAll a r = b at h1 ⊢
  have hview : a.cycleView = { s.cycleView with now := cycleInstant s, cycleAt := cycleInstant s } := congrArg Prod.fst h2
  have hdies : a.power.dies = s.power.dies := (congrArg (fun e : CycleView × Vector Die 2 × ModState => e.2.1) h2 :)
  rw [hview, hdies] at h1
  refine (stageDies_of coolFlow_stage).trans (quenchHeat_stageDies.trans ?_)
  exact (congrArg (fun e : CycleView × Vector Die 2 × ModState => (e.1, e.2.1)) h1 :)

/-- A trusted pair whose sensors agree at 105 °C or more, in their range, takes a powered module to QUENCH in the cycle. -/
theorem cycleHeated_quench {r : Readings} {c : CoreId} (h1 : (s.core c).diodeDoubted = false) (h2 : (s.core c).delayDoubted = false)
    (he : r.diode.get c = r.delay.get c) (hlow : 105000 ≤ r.diode.get c) (hhigh : r.diode.get c ≤ 150000) (hp : powered s = true) :
    (cycleHeated s r).power.state = .quench := by
  have hcore : (cycleBegun s).core c = s.core c := congrArg (fun v : Vector Core 64 => v.get c) cycleBegun_cores.1
  have hr : hotRange (r.diode.get c) = true := decide_eq_true ⟨by omega, hhigh⟩
  have hpair := readAll_pair (s := cycleBegun s) (r := r) (by rw [hcore]; exact h1) (by rw [hcore]; exact h2) hr (by rw [← he]; exact hr)
  rw [← he, max_self] at hpair
  have hstate : (readAll (cycleBegun s) r).power.state = s.power.state := by
    have ha := readAll_stage (s := cycleBegun s) (r := r)
    have hb := cycleBegun_stage (s := s)
    generalize cycleBegun s = a at ha hb ⊢
    generalize readAll a r = b at ha ⊢
    exact (congrArg (fun e : CycleView × Vector Die 2 × ModState => e.2.2) ha :).trans (congrArg (fun e : CycleView × Vector Die 2 × ModState => e.2.2) hb :)
  have hq := quenchHeat_enters (s := readAll (cycleBegun s) r) (by rw [powered, hstate]; exact hp) (c := c) (by rw [hpair]; exact hlow)
  unfold cycleHeated
  generalize quenchHeat (readAll (cycleBegun s) r) = q at hq ⊢
  exact (congrArg (fun e : CycleView × Vector Die 2 × ModState => e.2.2) (coolFlow_stage (s := q)) :).trans hq

theorem latchThrottle_stage : (throttleCycle (latchCycle s)).stage = s.stage := rfl

/-- The caps and the voltages move the dies, nothing that a cycle has read. -/
theorem cycleEnded_stage {w : State} :
    (cycleEnded w).stage = (w.cycleView, Vector.ofFn (fun d : DieId => moveDie (capCycle w) d), w.power.state) :=
  calc (cycleEnded w).stage
    _ = (lehrCycle (endShed (voltageCycle (capCycle w)))).stage := latchThrottle_stage
    _ = (endShed (voltageCycle (capCycle w))).stage := lehrCycle_stage
    _ = (voltageCycle (capCycle w)).stage := endShed_stage
    _ = _ := voltageCycle_stage

theorem cycleEnded_latch {w : State} : latchHolds (cycleEnded w) := throttleCycle_latch

/-- One teaser cycle: what it has read, the latch's rule, the dies, and QUENCH. -/
theorem teaserCycle_spec (r : Readings) (h : teaserRuns s = true) :
    ∃ u w : State, execTeaserCycle r s = .next u ∧ latchHolds u ∧
      u.cycleView = { (CycleView.reading { s.cycleView with now := cycleInstant s, cycleAt := cycleInstant s } r) with
        mem := (r.bitErrors.foldl addBitError s).mem } ∧
      w.power.dies = s.power.dies ∧ u.power.dies = Vector.ofFn (fun d : DieId => moveDie (capCycle w) d) ∧
      (w.power.state = .quench → u.power.state = .quench) ∧ w = cycleHeated s r := by
  have hw := cycleHeated_stageDies (s := s) r
  have hex := execTeaserCycle_runs r h
  generalize hcw : cycleHeated s r = w at hw hex
  have hv := cycleEnded_stage (w := w)
  have hl := cycleEnded_latch (w := w)
  generalize cycleEnded w = v at hv hl hex
  obtain ⟨hu, hul⟩ := settleStart_cycle (s := v)
  refine ⟨settleStart v, w, hex, hul hl, ?_, congrArg Prod.snd hw, ?_, fun hq => ?_, rfl⟩
  · exact (congrArg Prod.fst hu :).trans ((congrArg Prod.fst hv :).trans (congrArg Prod.fst hw :))
  · exact (congrArg Prod.snd hu).trans (congrArg (fun e : CycleView × Vector Die 2 × ModState => e.2.1) hv :)
  · have hs : v.power.state = .quench := (congrArg (fun e : CycleView × Vector Die 2 × ModState => e.2.2) hv :).trans hq
    rw [settleStart_past (by rw [hs]; decide)]
    exact hs

end

/-- Settles O22: a cycle is a chain of stages that each keep what was read; the latch is set last, and a start that goes on to HOLD or QUENCH
keeps its rule (log entries 10, 26, 98 and 130). -/
theorem teaserCycleRuns : Obligations.TeaserCycleRuns := by
  intro s r
  refine ⟨fun h => if_pos (by simp [h]), fun h => ?_⟩
  obtain ⟨u, w, hex, hl, hv, -, -, hq, hw⟩ := teaserCycle_spec r h
  have hnow : u.now = cycleInstant s := (congrArg CycleView.now hv :)
  have hcycle : u.power.cycleAt = cycleInstant s := (congrArg CycleView.cycleAt hv :)
  have hsensors : ∀ c, (u.core c).sensors = (r.diode.get c, r.delay.get c, BitVec.ofNat 16 (r.rate.get c)) :=
    fun c => (congrArg (fun v : CycleView => v.sensors c) hv :)
  have hmem : u.mem = (r.bitErrors.foldl addBitError s).mem := (congrArg CycleView.mem hv :)
  obtain ⟨hbanks, hhbm⟩ := addBitErrors_bytes (s := s) r.bitErrors
  refine ⟨u, hex, hnow, hcycle.trans hnow.symm, (congrArg CycleView.p100 hv :), (congrArg CycleView.p1s hv :), (congrArg CycleView.supplyMv hv :),
    (congrArg CycleView.currentUnits hv :), (congrArg CycleView.supplied hv :), (congrArg CycleView.tamper hv :), (congrArg CycleView.reg hv :),
    (congrArg CycleView.inlet hv :), (congrArg CycleView.outlet hv :), fun c => ?_, hl, hmem, by rw [hmem, hbanks], by rw [hmem, hhbm],
    fun c h1 h2 he hlow hhigh hp => hq (hw ▸ cycleHeated_quench h1 h2 he hlow hhigh hp)⟩
  exact ⟨congrArg Prod.fst (hsensors c), congrArg (fun e : Int × Int × BitVec 16 => e.2.1) (hsensors c),
    congrArg (fun e : Int × Int × BitVec 16 => e.2.2) (hsensors c)⟩

/-- Settles O23: the caps move only the ceilings, on their steps, and each die's turn is at most one step. -/
theorem dieVoltageMovesOneStep : Obligations.DieVoltageMovesOneStep := by
  intro s t r hall hex d
  by_cases h : teaserRuns s = true
  · obtain ⟨u, w, hu, -, -, hdies, hmoved, -, -⟩ := teaserCycle_spec r h
    obtain rfl : u = t := Host.Outcome.next.inj (hu.symm.trans hex)
    have hcap : (capCycle w).power.dies.get d = ceilDie w (s.power.dies.get d) := by
      rw [← hdies]
      exact Vector.getElem_map ..
    obtain ⟨hon, hmv⟩ := ceilDie_onStep (s := w) (hall d)
    obtain ⟨m1, m2, m3, mc, mup, mdown⟩ := moveDie_stepsTo (s := capCycle w) d (by rw [hcap]; exact hon)
    have ht : u.power.dies.get d = moveDie (capCycle w) d := by
      rw [hmoved]
      exact Vector.getElem_ofFn ..
    rw [hcap] at mc mup mdown
    obtain ⟨-, -, -, c1, c2, c3⟩ := hon
    rw [ht, mc]
    rw [hmv] at mup mdown
    exact ⟨m1, m2, m3, c1, c2, c3, mup, mdown⟩
  · have hsame : exec (.teaserCycle r) s = .next s := if_pos (by simpa using h)
    obtain rfl : s = t := Host.Outcome.next.inj (hsame.symm.trans hex)
    obtain ⟨h1, h2, h3, c1, c2, c3⟩ := hall d
    exact ⟨h1, h2, h3, c1, c2, c3, by omega, by omega⟩

end Sys2Proof.Machine

namespace Sys2Proof.Machine

/-! ## O24: the heat rows -/

section
variable {s : State} {c : CoreId}

theorem beginDescent_inForce (h : s.thermal.descent ≠ none) (kind idx : Nat) (reading : Int) : beginDescent s kind idx reading = s :=
  if_pos (Option.isSome_iff_ne_none.mpr h)

/-- A descent that begins (14 R401). -/
theorem beginDescent_begins (h : s.thermal.descent = none) (kind idx : Nat) (reading : Int) :
    (beginDescent s kind idx reading).base =
      { s.base with power := { s.power with latch := true, thermGate := 0, descents := satAdd 8 s.power.descents 1 } } ∧
    (beginDescent s kind idx reading).thermal = { s.thermal with descent := some (kind, idx, none), ballast := false } := by
  have hb := settleHolds_base s
  have ht : (settleHolds s).thermal = s.thermal := settleHolds_thermal
  unfold beginDescent descentEvent
  dsimp only
  rw [if_neg (by simp [h])]
  generalize settleHolds s = v at hb ht ⊢
  rw [State.event_base, State.event_thermal]
  have hp : v.power = s.power := (congrArg Base.power hb :)
  constructor
  · show { v.base with power := { v.power with latch := true, thermGate := 0, descents := satAdd 8 v.power.descents 1 } } = _
    rw [hb, hp]
  · show { v.thermal with descent := some (kind, idx, none), ballast := false } = _
    rw [ht]

theorem execDescentEnd_ends {kind idx : Nat} {since : Ns} (h : s.thermal.descent = some (kind, idx, some since)) :
    ∃ u, execDescentEnd s = .next u ∧ u.thermal.descent = none ∧ u.power.thermGate = 0 ∧ u.now = max s.now (since + sec 1) ∧ u.mem = s.mem := by
  have hb := settleHolds_base (s.reach (since + sec 1))
  unfold execDescentEnd descentEvent
  rw [h]
  dsimp only
  generalize settleHolds (s.reach (since + sec 1)) = v at hb ⊢
  refine ⟨_, rfl, ?_⟩
  rw [State.event_thermal, State.event_power, State.event_now, State.event_mem]
  exact ⟨rfl, rfl, (congrArg Base.now hb :), (congrArg Base.mem hb :)⟩

/-- Which sensor of a suspect pair is doubted: the one further from the estimate, a free value at a tie (14 R398). -/
def diodeFurther (s : State) (k : Core) : Bool :=
  if (k.diode - k.estimate).natAbs = (k.delay - k.estimate).natAbs then Config.tieDiode s.draw.1
  else decide ((k.delay - k.estimate).natAbs < (k.diode - k.estimate).natAbs)

/-- The state before the doubt: a tie has drawn a free value. -/
def pairDrawn (s : State) (k : Core) : State := if (k.diode - k.estimate).natAbs = (k.delay - k.estimate).natAbs then s.draw.2 else s

theorem pairDrawn_keeps (k : Core) : (pairDrawn s k).cores = s.cores ∧ (pairDrawn s k).mem = s.mem ∧ (pairDrawn s k).parts = s.parts := by
  unfold pairDrawn
  split <;> exact ⟨rfl, rfl, rfl⟩

theorem execPairSuspect_marks (hs : (s.core c).suspect = false) (hd : 5000 ≤ (s.core c).disagree) :
    execPairSuspect c s = .next (((pairDrawn s (s.core c)).modCore c (fun k => { k with
      suspect := true, diodeDoubted := diodeFurther s (s.core c), delayDoubted := !diodeFurther s (s.core c), disagree := 0 })).event
      srcTeaser 0x0406 0xFF (leBytes 1 c.val ++ leBytes 1 (bit (!diodeFurther s (s.core c))))) :=
  if_neg (by simp [hs, hd])

theorem execPairSuspect_not (h : (s.core c).suspect = true ∨ (s.core c).disagree < 5000) : execPairSuspect c s = .next s :=
  if_pos (by simpa using h)

/-- FLOOR_MISS before its fence: the count begins anew, with the event (01 R18). -/
def floorNoted (s : State) (c : CoreId) : State :=
  (s.modCore c (fun k => { k with subFloor := 0 })).event c.val 0x0101 ((partOfCore s c).map (fun p => p.val) |>.getD 0xFF)
    (leBytes 2 (s.core c).rate.toNat ++ leBytes 2 (s.power.dies.get (dieOf (clusterOf c))).mv)

theorem execFloorMiss_fences (h : 10 ≤ (s.core c).subFloor) : execFloorMiss c s = .next (fenceFor (floorNoted s c) c .floorMiss) :=
  if_neg (Nat.not_lt.mpr h)

theorem floorNoted_core : (floorNoted s c).core c = { s.core c with subFloor := 0 } := by
  rw [floorNoted, State.event_core, State.modCore_core]

theorem floorNoted_keeps : (floorNoted s c).parts = s.parts ∧ (floorNoted s c).mem = s.mem := by
  rw [floorNoted, State.event_parts, State.event_mem]
  exact ⟨rfl, rfl⟩

theorem floorNoted_owner : partOfCore (floorNoted s c) c = partOfCore s c := by
  have h := (floorNoted_keeps (s := s) (c := c)).1
  unfold partOfCore partOfCluster State.part
  rw [h]

/-! ### The coolant flags -/

/-- A coolant flag moves at its instant, with its event and nothing else. -/
theorem coolantFlag_moves (at_ : Ns) (f : Thermal → Thermal) (flag : Nat) (cleared : Bool) :
    let u := coolantEvent ((s.reach at_).modThermal f) flag cleared
    u.thermal = f s.thermal ∧ u.now = max s.now at_ ∧ u.mem = s.mem ∧ u.parts = s.parts := by
  dsimp only [coolantEvent]
  rw [State.event_thermal, State.event_now, State.event_mem, State.event_parts]
  exact ⟨rfl, rfl, rfl, rfl⟩

theorem execCoolantFlagClear_flow {a : Ns} (ha : flowClearAt s.thermal = some a) (h : ∀ b, inletClearAt s.thermal = some b → a ≤ b) :
    execCoolantFlagClear s = .next (clearCoolant s a 1) := by
  unfold execCoolantFlagClear
  rw [ha]
  cases hb : inletClearAt s.thermal with
  | none => rfl
  | some b => exact if_pos (h b hb)

theorem execCoolantFlagClear_inlet {b : Ns} (hb : inletClearAt s.thermal = some b) (h : ∀ a, flowClearAt s.thermal = some a → b < a) :
    execCoolantFlagClear s = .next (clearCoolant s b 2) := by
  unfold execCoolantFlagClear
  rw [hb]
  cases ha : flowClearAt s.thermal with
  | none => rfl
  | some a => exact if_neg (Nat.not_le.mpr (h a ha))

end

/-- Settles O24: each row is its guard and the operation that it runs: `beginDescent`, the doubt of a pair, `fenceFor` and the coolant flags (log
entries 2, 10, 26 and 75). -/
theorem heatRowsAct : Obligations.HeatRowsAct := by
  intro s c
  refine ⟨?_, fun kind idx reading h => ?_, fun kind idx reading h => beginDescent_inForce h kind idx reading,
    fun kind idx since h => execDescentEnd_ends h, fun h => ?_, fun hs hd => ?_, execPairSuspect_not, fun hn hc => ?_, fun hn => if_pos hn,
    fun since ht hf => ?_, fun h => ?_, fun since ht hf => ?_, fun h => ?_, fun a ha hb => ?_, fun b hb ha => ?_, fun ha hb => ?_⟩
  · by_cases h : teaserRuns s = true ∧ 100 < (s.core c).hot
    · rw [if_pos h]
      exact if_neg (by simp [h.1, h.2])
    · rw [if_neg h]
      refine if_pos ?_
      by_cases ht : teaserRuns s = true
      · simpa [ht] using h
      · simp [ht]
  · obtain ⟨hb, ht⟩ := beginDescent_begins h kind idx reading
    have hp : (beginDescent s kind idx reading).power = _ := congrArg Base.power hb
    rw [ht, hp]
    exact ⟨rfl, rfl, rfl, rfl, rfl, congrArg Base.mem hb⟩
  · show execDescentEnd s = _
    unfold execDescentEnd
    split
    · next kind idx since he => exact absurd he (h kind idx since)
    · rfl
  · obtain ⟨hcores, hmem, hparts⟩ := pairDrawn_keeps (s := s) (s.core c)
    refine ⟨_, execPairSuspect_marks hs hd, ?_⟩
    simp only [State.event_core, State.event_mem, State.event_parts, State.modCore_core, Bool.not_not]
    refine ⟨trivial, trivial, trivial, fun hne => if_neg hne, fun d hdc => ?_, hmem, hparts⟩
    rw [State.modCore_core_ne _ _ _ _ hdc.symm, State.core, hcores]
    rfl
  · have hcore := floorNoted_core (s := s) (c := c)
    obtain ⟨hparts, hmem⟩ := floorNoted_keeps (s := s) (c := c)
    have howner := floorNoted_owner (s := s) (c := c)
    have hin : ((floorNoted s c).core c).state = .inService := by rw [hcore]; exact hc
    refine ⟨_, execFloorMiss_fences hn, fun hp => ?_, fun p hp hr => ?_⟩
    · obtain ⟨layout, hf⟩ := fenceFor_atOnce (cause := .floorMiss) hin (by simp [howner, hp])
      rw [hf, fenceEvent_core, fenceEvent_mem, State.modCore_core, hcore]
      exact ⟨rfl, rfl, rfl, hmem⟩
    · rw [fenceFor_running hin (howner.trans hp) (by rw [State.part, hparts]; exact hr), State.modCore_core, hcore]
      exact ⟨rfl, rfl, rfl, hmem, hparts⟩
  · obtain ⟨h1, h2⟩ := coolantFlag_moves (s := s) (since + sec 10) (fun h => { h with flowLow := true }) 1 false
    refine ⟨_, ?_, congrArg Thermal.flowLow h1, h2⟩
    show execFlowLow s = _
    unfold execFlowLow
    rw [ht]
    exact if_neg (by simp [hf])
  · show execFlowLow s = _
    unfold execFlowLow
    split
    · next t ht => exact if_pos (h.resolve_left (by simp [ht]))
    · rfl
  · obtain ⟨h1, h2⟩ := coolantFlag_moves (s := s) (since + sec 10) (fun h => { h with inletOut := true }) 2 false
    refine ⟨_, ?_, congrArg Thermal.inletOut h1, h2⟩
    show execInletOut s = _
    unfold execInletOut
    rw [ht]
    exact if_neg (by simp [hf])
  · show execInletOut s = _
    unfold execInletOut
    split
    · next t ht => exact if_pos (h.resolve_left (by simp [ht]))
    · rfl
  · obtain ⟨h1, h2⟩ := coolantFlag_moves (s := s) (a + sec 10) (fun h => { h with flowLow := false }) 1 true
    exact ⟨_, execCoolantFlagClear_flow ha hb, (congrArg Thermal.flowLow h1 :), (congrArg Thermal.inletOut h1 :), h2⟩
  · obtain ⟨h1, h2⟩ := coolantFlag_moves (s := s) (b + sec 10) (fun h => { h with inletOut := false }) 2 true
    exact ⟨_, execCoolantFlagClear_inlet hb ha, (congrArg Thermal.inletOut h1 :), (congrArg Thermal.flowLow h1 :), h2⟩
  · show execCoolantFlagClear s = _
    unfold execCoolantFlagClear
    rw [ha, hb]

end Sys2Proof.Machine

namespace Sys2Proof.Machine

/-! ## Commands of the link engine (O39) -/

section
variable {s : State} {p p' : PartId} {q i ring n a m : Nat} {d : Due} {b : Fin 288} {ref : BankRef}

/-- What sending as a member of `p` does not change of the partitions: of `p`, all but its job table. -/
def State.offJobOf (s : State) (p : PartId) : PartId → Part := fun p' => if p' = p then { s.part p' with job := none } else s.part p'

theorem modKeysOf_offJobOf (f : PeerKeys → PeerKeys) : (modKeysOf s p i f).offJobOf p = s.offJobOf p := by
  funext p'
  unfold State.offJobOf modKeysOf
  by_cases h : p' = p
  · rw [h, if_pos rfl, if_pos rfl, State.modPart_part]
  · rw [if_neg h, if_neg h, State.modPart_part_ne _ _ _ _ (Ne.symm h)]

theorem sendFrame_offJobOf (owner : Option PartId) (f : Frame) : (sendFrame s owner f).offJobOf p = s.offJobOf p := by
  rw [sendFrame_eq]
  rfl

theorem sendMessage_offJobOf (typ ring msg : Nat) (payload : Bytes) :
    (sendMessage s p i typ ring msg payload).offJobOf p = s.offJobOf p := by
  unfold sendMessage
  refine foldl_view s (fun u => u.offJobOf p) (fun u c => ?_) _
  dsimp only
  split
  · split
    · rfl
    · exact (sendFrame_offJobOf ..).trans (modKeysOf_offJobOf _)
  · rfl

/-- A message changes of the partitions its sender's job table alone. -/
theorem sendMessage_part_ne (typ ring msg : Nat) (payload : Bytes) (h : p' ≠ p) :
    (sendMessage s p i typ ring msg payload).part p' = s.part p' := by
  have := congrFun (sendMessage_offJobOf (s := s) (p := p) (i := i) typ ring msg payload) p'
  simpa [State.offJobOf, h] using this

theorem sendMessage_offJob (typ ring msg : Nat) (payload : Bytes) :
    { (sendMessage s p i typ ring msg payload).part p with job := none } = { s.part p with job := none } := by
  have := congrFun (sendMessage_offJobOf (s := s) (p := p) (i := i) typ ring msg payload) p
  simpa [State.offJobOf] using this

@[simp] theorem sendMessage_mem (typ ring msg : Nat) (payload : Bytes) : (sendMessage s p i typ ring msg payload).mem = s.mem :=
  congrArg Prod.snd (sendMessage_view i typ ring msg payload)

theorem creditOf_setCredit (x : Part) (k : Nat) : creditOf (setCredit x i ring k) i ring = k := by
  simp [creditOf, setCredit]

/-- The credits towards a ring do not rest on the job table. -/
theorem creditOf_offJob {x y : Part} (h : { x with job := none } = { y with job := none }) : creditOf x i ring = creditOf y i ring := by
  have hc : x.credits = y.credits := (congrArg Part.credits h :)
  have hg : x.image = y.image := (congrArg Part.image h :)
  unfold creditOf ringSlots
  rw [hc, hg]

/-! ### Commands that wait -/

@[simp] theorem countBeats_parts {cls inst w v : Nat} : (countBeats s p cls inst w v).parts = s.parts := by
  unfold countBeats
  dsimp only
  repeat' split
  all_goals rfl

@[simp] theorem waits_parts {cls inst : Nat} : (waits s p cls inst).parts = s.parts := countBeats_parts

@[simp] theorem waits_mem {cls inst : Nat} : (waits s p cls inst).mem = s.mem := countBeats_mem ..

/-- A command that starts and whose operation waits. -/
theorem runEngine_waits {cls opcode : Nat} {hand : Due → Option Handover} {op : Due → State → EngineOut}
    (h : engineStarts s p q cls opcode d) (ho : op d s = .wait) : runEngine s p q cls opcode hand op = .next (waits s p cls d.desc.inst) := by
  unfold runEngine
  rw [h.1]
  dsimp only
  rw [ho]
  exact ite_self _

/-- The element that a search finds is the one that an update by the same search changes, and is found again. -/
theorem find?_updFirst_self {α : Type} {f : α → Bool} {g : α → α} {x : α} {xs : List α} (h : xs.find? f = some x) (hg : f (g x) = true) :
    (updFirst f g xs).find? f = some (g x) := by
  induction xs with
  | nil => simp at h
  | cons y ys ih =>
    unfold updFirst
    by_cases hy : f y = true
    · obtain rfl : y = x := by simpa [hy] using h
      simp [hy, hg]
    · simp [hy, ih (by simpa [hy] using h)]

/-! ### LINK_SEND -/

section
variable {bs : Bytes}

@[simp] theorem linkSent_mem : (linkSent s p i ring bs).mem = s.mem := by
  unfold linkSent
  rw [State.modPart_mem, sendMessage_mem]

/-- A message spends one credit of its ring (12 R332). -/
theorem linkSent_credit : creditOf ((linkSent s p i ring bs).part p) i ring = creditOf (s.part p) i ring - 1 := by
  unfold linkSent
  rw [State.modPart_part]
  exact (creditOf_setCredit _ _).trans (congrArg (· - 1) (creditOf_offJob (sendMessage_offJob ..)))

theorem linkSent_part_ne (h : p' ≠ p) : (linkSent s p i ring bs).part p' = s.part p' := by
  unfold linkSent
  rw [State.modPart_part_ne _ _ _ _ (Ne.symm h), sendMessage_part_ne _ _ _ _ h]

end

/-- LINK_SEND with a credit, with live keys and in a job that is no mirror set. -/
theorem execLinkSend_sends (href : ref = bankRefOf (recField d.record 24 4)) (hn : n = recField d.record 28 4)
    (hi : i = recField d.record 32 2) (hring : ring = recField d.record 34 1) (hstart : engineStarts s p q 5 0x0510 d)
    (hb : transferServes s d ref n b) (hcredit : creditOf (s.part p) i ring ≠ 0) (hlive : peerLive (s.part p) i = true)
    (hmirror : isMirror (s.part p) = false) :
    execLinkSend p q s = .next (awaitHop s (issue (linkSent (meetBank s (bankAddr b ref.off) n) p i ring (bankRead s (bankAddr b ref.off) n)) d
      (moveBeats n) (moveErr (marksRead s.mem.bankPoison (bankAddr b ref.off / 64) (n / 64))) (handoverAt d.record 40 d.desc.inst)) p q) := by
  obtain rfl := engineStarts_part hstart
  have hrun : (linkSendSteps d s).out = .done (linkSent (meetBank s (bankAddr b ref.off) n) d.p i ring (bankRead s (bankAddr b ref.off) n))
      (moveBeats n) (moveErr (marksRead s.mem.bankPoison (bankAddr b ref.off / 64) (n / 64))) := by
    simp only [linkSendSteps, ← href, ← hn, ← hi, ← hring, transferBank_ok hb, bind, Except.bind]
    rw [if_neg (by simp [hcredit, hlive, hmirror])]
    rfl
  unfold execLinkSend
  rw [runEngine_done hstart hrun]

/-- LINK_SEND that may not send waits (log entry 145: in a mirror set always). -/
theorem execLinkSend_waits (href : ref = bankRefOf (recField d.record 24 4)) (hn : n = recField d.record 28 4)
    (hi : i = recField d.record 32 2) (hring : ring = recField d.record 34 1) (hstart : engineStarts s p q 5 0x0510 d)
    (hb : transferServes s d ref n b) (h : creditOf (s.part p) i ring = 0 ∨ peerLive (s.part p) i = false ∨ isMirror (s.part p) = true) :
    execLinkSend p q s = .next (waits s p 5 d.desc.inst) := by
  obtain rfl := engineStarts_part hstart
  have hwait : creditOf (s.part d.p) i ring = 0 || !peerLive (s.part d.p) i || isMirror (s.part d.p) := by
    rcases h with h | h | h <;> simp [h]
  have hrun : (linkSendSteps d s).out = .wait := by
    simp only [linkSendSteps, ← href, ← hn, ← hi, ← hring, transferBank_ok hb, bind, Except.bind]
    rw [if_pos hwait]
    rfl
  unfold execLinkSend
  rw [runEngine_waits hstart hrun]
  have hissued : issuedOf ((waits s d.p 5 d.desc.inst).part d.p) q = issuedOf (s.part d.p) q := by
    simp only [State.part, waits_parts]
  exact congrArg Host.Outcome.next (if_pos hissued)

/-! ### LINK_RECV -/

@[simp] theorem returnCredit_mem : (returnCredit s p i ring).mem = s.mem := by
  unfold returnCredit
  split
  · rw [sendFrame_eq]
  · rfl

@[simp] theorem returnCredit_parts : (returnCredit s p i ring).parts = s.parts := by
  unfold returnCredit
  split
  · rw [sendFrame_eq]
  · rfl

section
variable {rest : List (Nat × Nat)}

@[simp] theorem slotFreed_mem : (slotFreed s p i ring rest).mem = s.mem := returnCredit_mem

/-- The message taken has left its ring. -/
theorem slotFreed_ring {rt : RingRt} (h : (s.part p).rings.find? (fun g => g.ring == ring) = some rt) :
    ((slotFreed s p i ring rest).part p).rings.find? (fun g => g.ring == ring) = some { rt with full := rest } := by
  unfold slotFreed State.part
  rw [returnCredit_parts]
  show ((s.modPart p _).part p).rings.find? _ = _
  rw [State.modPart_part]
  have hname : (rt.ring == ring) = true := List.find?_some (p := fun g : RingRt => g.ring == ring) h
  exact find?_updFirst_self (f := fun g : RingRt => g.ring == ring) (g := fun g => { g with full := rest }) h hname

/-- LINK_RECV with a complete message in its ring. -/
theorem execLinkRecv_takes {g : RingDecl} {rt : RingRt} {e : Nat × Nat} (href : ref = bankRefOf (recField d.record 24 4))
    (hn : n = recField d.record 28 4) (hi : i = recField d.record 32 2) (hring : ring = recField d.record 34 1)
    (hstart : engineStarts s p q 5 0x0511 d) (hb : transferServes s d { ref with observer := false } n b) (hg : ringOf (s.part p) i ring = some g)
    (hrt : (s.part p).rings.find? (fun g => g.ring == ring) = some rt) (hfull : rt.full = e :: rest) (ha : slotAddr (s.part p) g e.1 = some a) :
    execLinkRecv p q s = .next (issue
      (slotFreed (moveToBank (meetBank s a (min n e.2)) (bankAddr b ref.off) (padTo n (bankRead s a (min n e.2)))
        (marksRead s.mem.bankPoison (a / 64) (min n e.2 / 64))) p i ring rest)
      d (moveBeats n) (if (marksRead s.mem.bankPoison (a / 64) (min n e.2 / 64)).any (fun m => m) then 2 else if n ≠ e.2 then 7 else 0)
      (handoverAt d.record 40 d.desc.inst)) := by
  obtain rfl := engineStarts_part hstart
  refine runEngine_done hstart ?_
  simp only [linkRecvSteps, ← href, ← hn, ← hi, ← hring, transferBank_ok hb, bind, Except.bind, hg, hrt, hfull, List.head?_cons, Option.bind_some, ha]
  rfl

/-- LINK_RECV without a message in its ring waits. -/
theorem execLinkRecv_waits {rt : RingRt} (href : ref = bankRefOf (recField d.record 24 4)) (hn : n = recField d.record 28 4)
    (hring : ring = recField d.record 34 1) (hstart : engineStarts s p q 5 0x0511 d)
    (hb : transferServes s d { ref with observer := false } n b) (hrt : (s.part p).rings.find? (fun g => g.ring == ring) = some rt)
    (hfull : rt.full = []) : execLinkRecv p q s = .next (waits s p 5 d.desc.inst) := by
  obtain rfl := engineStarts_part hstart
  refine runEngine_waits hstart ?_
  simp only [linkRecvSteps, ← href, ← hn, ← hring, transferBank_ok hb, bind, Except.bind, hrt]
  split
  next hg hr =>
    obtain rfl := Option.some.inj hr
    rw [hfull]
    rfl
  · rfl

/-- The bytes of a message taken stand at the destination, and no other byte of a bank has changed. -/
theorem messageTaken_banks {b : Nat} (hwf : memWf s.mem = true) (bs : Bytes) (marks : List Bool) :
    let t := slotFreed (moveToBank (meetBank s a m) b (padTo n bs) marks) p i ring rest
    bankRead t b n = padTo n bs ∧ ∀ x, x < b ∨ b + n ≤ x → cellRead t.mem.banks x = cellRead s.mem.banks x := by
  obtain ⟨hbanks, -⟩ := (memWf_iff _).mp hwf
  dsimp only
  unfold bankRead
  rw [slotFreed_mem, moveToBank_banks, meetBank_banks]
  exact cellsWrite_spec hbanks b (padTo_length n bs)

end

end

/-- Settles O39: each command by its own lemma; a command has its effect when it is issued (log entry 34), and in a mirror set LINK_SEND
waits (log entry 145). -/
theorem linkCommandsComplete : Obligations.LinkCommandsComplete := by
  unfold Obligations.LinkCommandsComplete
  intro s p q d b ref n i ring href hn hi hring
  refine ⟨?sends, execLinkSend_waits href hn hi hring, ?takes, fun rt => execLinkRecv_waits href hn hring⟩
  case sends =>
    intro t hstart hb hcredit hlive hmirror ht
    subst ht
    have hparts : (meetBank s (bankAddr b ref.off) n).part = s.part := by
      funext p'
      simp only [State.part, meetBank_parts]
    refine ⟨execLinkSend_sends href hn hi hring hstart hb hcredit hlive hmirror, ?_, ?_, ?_, fun p' hp' => ?_⟩
    · rw [linkSent_mem, meetBank_banks]
    · rw [linkSent_mem, meetBank_hbm]
    · rw [linkSent_credit, hparts]
    · rw [linkSent_part_ne hp', hparts]
  case takes =>
    intro g rt e rest a m marks t hwf hstart hb hg hrt hfull ha hm hmarks ht
    subst hm hmarks ht
    obtain ⟨hread, hframe⟩ := messageTaken_banks (a := a) (m := min n e.2) (b := bankAddr b ref.off) (n := n) (p := p) (i := i) (ring := ring)
      (rest := rest) hwf (bankRead s a (min n e.2)) (marksRead s.mem.bankPoison (a / 64) (min n e.2 / 64))
    refine ⟨execLinkRecv_takes href hn hi hring hstart hb hg hrt hfull ha, hread, ?_, hframe, ?_⟩
    · rw [slotFreed_mem, moveToBank_hbm, meetBank_hbm]
    · have hparts : (meetBank s a (min n e.2)).parts = s.parts := meetBank_parts ..
      generalize meetBank s a (min n e.2) = v at hparts
      have hrings : (s.part p).rings = (v.part p).rings := by simp only [State.part, hparts]
      exact slotFreed_ring (hrings ▸ hrt)

end Sys2Proof.Machine

namespace Sys2Proof.Machine

/-! ## Time (O47) -/

section
variable {s w : State} {reading : Ns} {cycles u v : Nat}

/-! ### Commits of an edge -/

theorem toList_two {α : Type} : ∀ v : Vector α 2, v.toList = [v.get 0, v.get 1]
  | ⟨⟨[_, _]⟩, _⟩ => rfl

theorem commitsOf_ports : commitsOf s = [(s.port 0).commit, (s.port 1).commit].filterMap (fun c => c) := by
  unfold commitsOf
  rw [toList_two]
  rfl

theorem commitsOf_congr (h : ∀ x, (w.port x).commit = (s.port x).commit) : commitsOf w = commitsOf s := by
  rw [commitsOf_ports, commitsOf_ports, h, h]

theorem modPort_commit {x y : I3cId} {f : I3cPort → I3cPort} (hf : ∀ q, (f q).commit = q.commit) :
    ((s.modPort x f).port y).commit = (s.port y).commit := by
  by_cases h : x = y
  · rw [← h, State.modPort_port, hf]
  · rw [State.modPort_port_ne _ _ _ _ h]

@[simp] theorem commitsOf_event (unitNo code part : Nat) (data : Bytes) : commitsOf (s.event unitNo code part data) = commitsOf s := by
  refine commitsOf_congr fun y => ?_
  unfold State.event
  dsimp only
  split
  · rfl
  split
  · exact forI3c_view (fun u => (u.port y).commit) fun x u => modPort_commit fun _ => rfl
  · rfl

/-! ### An edge -/

/-- What the end of an edge, with its quota windows, leaves of the time and of the memory. -/
def State.clock (s : State) : TimeRt × Ns × Mem × Power × List Nat := (s.time, s.now, s.mem, s.power, commitsOf s)

theorem State.event_clock (unitNo code part : Nat) (data : Bytes) : (s.event unitNo code part data).clock = s.clock := by
  unfold State.clock
  rw [commitsOf_event]
  simp

theorem quotaEdge_clock : (quotaEdge s).clock = s.clock := by
  unfold quotaEdge
  refine foldl_view s State.clock (fun u b => ?_) _
  split
  · split <;> rfl
  · rfl

/-- The module once an edge has come: the commits stand no more, and an edge off count is missed. -/
def edgeCome (s : State) (reading : Ns) (cycles : Nat) : State :=
  let v := forI3c (fun x s => s.modPort x (fun q => { q with commit := none })) (s.reach reading)
  if onCount s cycles || s.time.lastEdge.isNone then v else v.modTime (fun t => { t with missed := satAdd 8 t.missed 1 })

/-- What an edge does to the counter. -/
def edgeActs (v : State) (ok : Bool) (cs : List Nat) : State :=
  if v.time.state = .locked then
    if ok then lockedEdge v cs else (enterHoldover v 3).modTime (fun t => { t with lastValue := agreedOf cs })
  else match v.time.lastValue, agreedOf cs with
    | some u, some w => if ok && w = u + 1000000000 then lockAt v w else v.modTime (fun t => { t with lastValue := some w })
    | _, a => v.modTime (fun t => { t with lastValue := a })

theorem edgeCome_clock : (edgeCome s reading cycles).clock =
    ({ s.time with missed := if onCount s cycles || s.time.lastEdge.isNone then s.time.missed else satAdd 8 s.time.missed 1 },
      max s.now reading, s.mem, s.power, []) := by
  have hcommits : ∀ t : State, commitsOf (forI3c (fun x s => s.modPort x (fun q => { q with commit := none })) t) = [] := fun t => by
    have h0 : ((forI3c (fun x s => s.modPort x (fun q => { q with commit := none })) t).port 0).commit = none := by
      unfold forI3c
      rw [State.modPort_port_ne _ _ _ _ (by decide), State.modPort_port]
    have h1 : ((forI3c (fun x s => s.modPort x (fun q => { q with commit := none })) t).port 1).commit = none := by
      unfold forI3c
      rw [State.modPort_port]
    rw [commitsOf_ports, h0, h1]
    rfl
  unfold edgeCome State.clock
  dsimp only
  split
  · rw [hcommits]
    rfl
  · rw [← hcommits (s.reach reading)]
    rfl

/-- An edge at a module that has started. -/
theorem execTimeSyncEdge_spec (hoff : s.power.state ≠ .off) (hboot : s.power.state ≠ .boot) {v : State}
    (hv : edgeActs (edgeCome s reading cycles) (onCount s cycles) (commitsOf s) = v) (hp : v.power = s.power) :
    ∃ w, execTimeSyncEdge reading cycles s = .next w ∧ w.time = { v.time with lastEdge := some v.now } ∧ w.now = v.now ∧ w.mem = v.mem ∧
      commitsOf w = commitsOf v := by
  refine ⟨settleStart (quotaEdge (v.modTime (fun t => { t with lastEdge := some v.now }))), ?_, ?_⟩
  · rw [← hv]
    exact if_neg hoff
  · have hq : (quotaEdge (v.modTime (fun t => { t with lastEdge := some v.now }))).clock =
        ({ v.time with lastEdge := some v.now }, v.now, v.mem, v.power, commitsOf v) := quotaEdge_clock
    generalize quotaEdge (v.modTime (fun t => { t with lastEdge := some v.now })) = w at hq ⊢
    simp only [State.clock, Prod.mk.injEq] at hq
    obtain ⟨ht, hn, hm, hpw, hc⟩ := hq
    rw [settleStart_past (by rw [hpw, hp]; exact hboot)]
    exact ⟨ht, hn, hm, hc⟩

/-! ### What an edge does to the counter -/

/-- What an edge leaves alone besides the time. -/
def State.offTime (s : State) : Ns × Mem × Power × List Nat := (s.now, s.mem, s.power, commitsOf s)

theorem event_offTime (unitNo code part : Nat) (data : Bytes) : (s.event unitNo code part data).offTime = s.offTime :=
  (congrArg Prod.snd (State.event_clock unitNo code part data) :)

theorem modTime_offTime (f : TimeRt → TimeRt) : (s.modTime f).offTime = s.offTime := rfl
theorem correctTo_offTime (v : Int) : (correctTo s v).offTime = s.offTime := rfl

variable {cs : List Nat}

theorem agreedOf_mem (h : agreedOf cs = some v) : v ∈ cs := by
  cases cs with
  | nil => simp [agreedOf] at h
  | cons x xs =>
    simp only [agreedOf] at h
    split at h
    · exact (Option.some.inj h) ▸ List.mem_cons_self
    · simp at h

/-- An edge in LOCKED at which no commit disagrees. -/
theorem lockedEdge_agrees (hu : s.time.lastValue = some u) (h : ∀ v ∈ cs, v = u + 1000000000) :
    (lockedEdge s cs).time.state = s.time.state ∧ (lockedEdge s cs).time.lastValue = some (u + 1000000000) ∧
    (lockedEdge s cs).time.disagree = 0 ∧ (lockedEdge s cs).time.annBad = satAdd 8 s.time.annBad 0 ∧ (lockedEdge s cs).offTime = s.offTime := by
  have hbad : (cs.filter (fun v => v != u + 1000000000)).length = 0 := by
    rw [List.length_eq_zero_iff, List.filter_eq_nil_iff]
    exact fun v hv => by simp [h v hv]
  have hnone : commonOffset cs (u + 1000000000) = none := by
    unfold commonOffset
    split
    next v hv => rw [if_pos (h v (agreedOf_mem hv))]
    · rfl
  unfold lockedEdge
  dsimp only
  rw [hu]
  dsimp only
  rw [hbad, hnone]
  generalize u + 1000000000 = x
  exact ⟨rfl, rfl, rfl, rfl, (modTime_offTime _).trans ((correctTo_offTime _).trans ((modTime_offTime _).trans (modTime_offTime _)))⟩

/-- The third edge in a row of one common offset. -/
theorem lockedEdge_adopts (hu : s.time.lastValue = some u) (hv : agreedOf cs = some v) (hne : v ≠ u + 1000000000) (hd : s.time.disagree = 2)
    (ho : s.time.offset = (v : Int) - (u + 1000000000 : Nat)) :
    (lockedEdge s cs).time.state = s.time.state ∧ (lockedEdge s cs).time.lastValue = some v ∧ (lockedEdge s cs).time.disagree = 0 ∧
    (lockedEdge s cs).offTime = s.offTime := by
  have hoffset : commonOffset cs (u + 1000000000) = some ((v : Int) - (u + 1000000000 : Nat)) := by
    unfold commonOffset
    rw [hv]
    exact if_neg hne
  unfold lockedEdge
  dsimp only
  rw [hu]
  dsimp only
  rw [hoffset]
  generalize u + 1000000000 = x at ho ⊢
  rw [← ho]
  dsimp only
  rw [if_neg (by simp [hd])]
  refine ⟨?_, ?_, ?_, event_offTime ..⟩
  · rw [State.event_time]
    rfl
  · rw [State.event_time]
    show some ((x : Int) + s.time.offset).toNat = some v
    rw [ho]
    simp
  · rw [State.event_time]
    rfl

/-- HOLDOVER begins from LOCKED (12 R349). -/
theorem enterHoldover_begins (cause : Nat) (h : s.time.state = .locked) :
    (enterHoldover s cause).time = { s.time with
      state := .holdover, unsure := true, heldSince := some s.now, disagree := 0, losses := satAdd 8 s.time.losses 1 } ∧
    (enterHoldover s cause).offTime = s.offTime ∧ (enterHoldover s cause).parts = s.parts := by
  unfold enterHoldover
  rw [if_neg (not_not_intro h)]
  refine ⟨?_, event_offTime .., ?_⟩
  · rw [State.event_time]
    rfl
  · rw [State.event_parts]
    rfl

theorem enterHoldover_none (cause : Nat) (h : s.time.state ≠ .locked) : enterHoldover s cause = s := if_pos h

/-- A lock takes the value of the edge, in ACQUIRING as what the counter reads at once. -/
theorem lockAt_locks :
    (lockAt s v).time.state = .locked ∧ (lockAt s v).time.lastValue = some v ∧ (lockAt s v).offTime = s.offTime ∧
    (s.time.state = .acquiring → (lockAt s v).time.base = (v : Int) + s.time.trim - s.now ∧ (lockAt s v).time.slew = 0) := by
  unfold lockAt
  dsimp only
  split
  · exact ⟨rfl, rfl, rfl, fun _ => ⟨rfl, rfl⟩⟩
  next h =>
    refine ⟨?_, ?_, event_offTime .., fun hs => absurd hs h⟩
    · rw [State.event_time]
      rfl
    · rw [State.event_time]
      rfl

/-- Without a slew the counter reads its base and the time. -/
theorem stamp_noSlew (h : s.time.slew = 0) : s.stamp = ((s.now : Int) + s.time.base).toNat := by
  unfold State.stamp
  rw [h, Nat.zero_min]
  simp

/-! ### The edge rows -/

theorem onCount_iff : onCount s cycles = true ↔
    s.time.ref = true ∧ s.time.lastEdge.isSome = true ∧ 156249998 ≤ cycles ∧ cycles ≤ 156250002 := by
  simp [onCount, within, and_assoc]

/-- An edge on count finds the time as it was. -/
theorem edgeCome_onCount (h : onCount s cycles = true) :
    (edgeCome s reading cycles).time = s.time ∧ (edgeCome s reading cycles).offTime = (max s.now reading, s.mem, s.power, []) := by
  have hc := edgeCome_clock (s := s) (reading := reading) (cycles := cycles)
  rw [h] at hc
  exact ⟨(congrArg Prod.fst hc :), (congrArg Prod.snd hc :)⟩

section
variable (hoff : s.power.state ≠ .off) (hboot : s.power.state ≠ .boot)
include hoff hboot

/-- An edge on count in LOCKED. -/
theorem lockedEdge_runs (hs : s.time.state = .locked) (hcount : onCount s cycles = true) {b : State}
    (hb : lockedEdge (edgeCome s reading cycles) (commitsOf s) = b)
    (hleft : b.offTime = (edgeCome s reading cycles).offTime) :
    ∃ w, execTimeSyncEdge reading cycles s = .next w ∧ w.time = { b.time with lastEdge := some w.now } ∧
      w.now = max s.now reading ∧ w.mem = s.mem ∧ commitsOf w = [] := by
  obtain ⟨ht, ho⟩ := edgeCome_onCount (reading := reading) hcount
  rw [ho] at hleft
  simp only [State.offTime, Prod.mk.injEq] at hleft
  obtain ⟨hn, hm, hp, hc⟩ := hleft
  have hacts : edgeActs (edgeCome s reading cycles) (onCount s cycles) (commitsOf s) = b := by
    unfold edgeActs
    rw [if_pos (by rw [ht, hs]), if_pos hcount, hb]
  obtain ⟨w, hw, wt, wn, wm, wc⟩ := execTimeSyncEdge_spec hoff hboot hacts hp
  exact ⟨w, hw, by rw [wt, wn], by rw [wn, hn], by rw [wm, hm], by rw [wc, hc]⟩

/-- An edge off count, or the first one, in LOCKED. -/
theorem lostEdge_runs (hs : s.time.state = .locked) (h : s.time.lastEdge = none ∨ s.time.ref = false ∨ cycles < 156249998 ∨ 156250002 < cycles) :
    ∃ w, execTimeSyncEdge reading cycles s = .next w ∧ w.time.state = .holdover ∧ w.time.unsure = true ∧ w.time.heldSince = some w.now ∧
      w.time.missed = (if s.time.lastEdge = none then s.time.missed else satAdd 8 s.time.missed 1) ∧
      w.time.losses = satAdd 8 s.time.losses 1 ∧ w.mem = s.mem := by
  have hcount : onCount s cycles = false := by
    rw [Bool.eq_false_iff, Ne, onCount_iff]
    rintro ⟨href, hedge, hlo, hhi⟩
    obtain h | h | h | h := h
    · simp [h] at hedge
    · simp [h] at href
    · omega
    · omega
  have hcome := edgeCome_clock (s := s) (reading := reading) (cycles := cycles)
  rw [hcount] at hcome
  generalize hcv : edgeCome s reading cycles = v at hcome
  simp only [State.clock, Prod.mk.injEq] at hcome
  obtain ⟨vt, vn, vm, vp, vc⟩ := hcome
  obtain ⟨bt, bo, -⟩ := enterHoldover_begins (s := v) 3 (by rw [vt]; exact hs)
  have hacts : edgeActs (edgeCome s reading cycles) (onCount s cycles) (commitsOf s) =
      (enterHoldover v 3).modTime (fun t => { t with lastValue := agreedOf (commitsOf s) }) := by
    unfold edgeActs
    rw [hcv, hcount, if_pos (by rw [vt]; exact hs)]
    rfl
  generalize enterHoldover v 3 = b at bt bo hacts
  simp only [State.offTime, Prod.mk.injEq] at bo
  obtain ⟨bn, bm, bp, bc⟩ := bo
  obtain ⟨w, hw, wt, wn, wm, wc⟩ := execTimeSyncEdge_spec hoff hboot hacts (bp.trans vp)
  have htime : w.time = { v.time with
      state := .holdover, unsure := true, heldSince := some v.now, disagree := 0, losses := satAdd 8 v.time.losses 1,
      lastValue := agreedOf (commitsOf s), lastEdge := some b.now } := by
    rw [wt, State.modTime_time, bt]
    rfl
  refine ⟨w, hw, ?_, ?_, ?_, ?_, ?_, ?_⟩
  · rw [htime]
  · rw [htime]
  · rw [htime, wn]
    exact congrArg some bn.symm
  · rw [htime, vt]
    cases s.time.lastEdge <;> rfl
  · rw [htime, vt]
  · rw [wm, ← vm, ← bm]
    rfl

/-- An edge while the counter is not locked: it locks, or only notes the value of the commits. -/
theorem freeEdge_runs (hs : s.time.state ≠ .locked) {b : State}
    (hb : (match (edgeCome s reading cycles).time.lastValue, agreedOf (commitsOf s) with
      | some u, some w => if onCount s cycles && w = u + 1000000000 then lockAt (edgeCome s reading cycles) w
        else (edgeCome s reading cycles).modTime (fun t => { t with lastValue := some w })
      | _, a => (edgeCome s reading cycles).modTime (fun t => { t with lastValue := a })) = b)
    (hleft : b.offTime = (edgeCome s reading cycles).offTime) :
    ∃ w, execTimeSyncEdge reading cycles s = .next w ∧ w.time = { b.time with lastEdge := some w.now } ∧
      w.now = (edgeCome s reading cycles).now ∧ w.mem = s.mem := by
  have hcome := edgeCome_clock (s := s) (reading := reading) (cycles := cycles)
  generalize hcv : edgeCome s reading cycles = v at hcome hb hleft ⊢
  simp only [State.clock, State.offTime, Prod.mk.injEq] at hcome hleft
  obtain ⟨vt, vn, vm, vp, vc⟩ := hcome
  obtain ⟨bn, bm, bp, bc⟩ := hleft
  have hacts : edgeActs (edgeCome s reading cycles) (onCount s cycles) (commitsOf s) = b := by
    unfold edgeActs
    rw [hcv, if_neg (by rw [vt]; exact hs)]
    exact hb
  obtain ⟨w, hw, wt, wn, wm, wc⟩ := execTimeSyncEdge_spec hoff hboot hacts (bp.trans vp)
  exact ⟨w, hw, by rw [wt, wn], by rw [wn, bn], by rw [wm, bm, vm]⟩

end

/-- A lock: the commits agree on the value that follows the last one. -/
theorem lockEdge_runs (hoff : s.power.state ≠ .off) (hboot : s.power.state ≠ .boot) (hs : s.time.state ≠ .locked)
    (hcount : onCount s cycles = true) (hu : s.time.lastValue = some u) (hv : agreedOf (commitsOf s) = some (u + 1000000000)) :
    ∃ w, execTimeSyncEdge reading cycles s = .next w ∧ w.time.state = .locked ∧ w.time.lastValue = some (u + 1000000000) ∧
      (s.time.state = .acquiring → 0 ≤ (u : Int) + 1000000000 + s.time.trim → (w.stamp : Int) = u + 1000000000 + s.time.trim) ∧
      w.mem = s.mem := by
  obtain ⟨ht, -⟩ := edgeCome_onCount (s := s) (reading := reading) hcount
  obtain ⟨hlocked, hvalue, hleft, hcounter⟩ := lockAt_locks (s := edgeCome s reading cycles) (v := u + 1000000000)
  obtain ⟨w, hw, wt, wn, wm⟩ := freeEdge_runs (reading := reading) (b := lockAt (edgeCome s reading cycles) (u + 1000000000)) hoff hboot hs
    (by rw [ht, hu, hv]; exact if_pos (by simp [hcount])) hleft
  refine ⟨w, hw, by rw [wt]; exact hlocked, by rw [wt]; exact hvalue, fun hacq hpos => ?_, wm⟩
  obtain ⟨hbase, hslew⟩ := hcounter (by rw [ht]; exact hacq)
  have hwbase : w.time.base = ((u + 1000000000 : Nat) : Int) + s.time.trim - w.now := by
    rw [wt, wn, ← ht]
    exact hbase
  rw [stamp_noSlew (by rw [wt]; exact hslew), hwbase]
  push_cast
  omega

/-- Any other edge while the counter is not locked. -/
theorem noLockEdge_runs (hoff : s.power.state ≠ .off) (hboot : s.power.state ≠ .boot) (hs : s.time.state ≠ .locked)
    (h : onCount s cycles = false ∨ s.time.lastValue = none ∨ agreedOf (commitsOf s) ≠ s.time.lastValue.map (fun u => u + 1000000000)) :
    ∃ w, execTimeSyncEdge reading cycles s = .next w ∧ w.time.state = s.time.state ∧ w.time.lastValue = agreedOf (commitsOf s) ∧
      w.time.lastEdge = some w.now ∧ w.mem = s.mem := by
  have hcome := (congrArg Prod.fst (edgeCome_clock (s := s) (reading := reading) (cycles := cycles)) :)
  have hstate : (edgeCome s reading cycles).time.state = s.time.state := by
    rw [show (edgeCome s reading cycles).time = _ from hcome]
  have hvalue : (edgeCome s reading cycles).time.lastValue = s.time.lastValue := by
    rw [show (edgeCome s reading cycles).time = _ from hcome]
  obtain ⟨w, hw, wt, wn, wm⟩ := freeEdge_runs (reading := reading) (cycles := cycles)
    (b := (edgeCome s reading cycles).modTime (fun t => { t with lastValue := agreedOf (commitsOf s) })) hoff hboot hs (by
      rw [hvalue]
      split
      next u v hu hv =>
        refine (if_neg fun hlock => ?_).trans (by rw [hv])
        simp only [Bool.and_eq_true, decide_eq_true_eq] at hlock
        obtain ⟨hcount, hnext⟩ := hlock
        rw [hcount, hu, hv, hnext] at h
        simp at h
      · rfl) (modTime_offTime _)
  exact ⟨w, hw, by rw [wt]; exact hstate, by rw [wt]; rfl, by rw [wt], wm⟩

/-! ### The other rows of the time -/

/-- EDGE_MISSING in LOCKED (12 R349). -/
theorem execEdgeMissing_holds {e : Ns} (he : s.time.lastEdge = some e) (hs : s.time.state = .locked) :
    ∃ w, execEdgeMissing s = .next w ∧ w.now = max s.now (e + 1000100000) ∧ w.time.state = .holdover ∧ w.time.lastEdge = none ∧
      w.time.missed = satAdd 8 s.time.missed 1 ∧ w.mem = s.mem ∧ w.parts = s.parts := by
  unfold execEdgeMissing
  rw [he]
  dsimp only
  generalize e + 1000100000 = x
  refine ⟨_, rfl, ?_⟩
  obtain ⟨ht, ho, hparts⟩ := enterHoldover_begins (s := (s.reach x).modTime
    (fun t => { t with missed := satAdd 8 t.missed 1, lastEdge := none })) 2 hs
  generalize enterHoldover _ 2 = b at ht ho hparts
  simp only [State.offTime, Prod.mk.injEq] at ho
  obtain ⟨hn, hm, -⟩ := ho
  exact ⟨hn, by rw [State.modTime_time, ht], by rw [State.modTime_time, ht]; rfl, by rw [State.modTime_time, ht]; rfl, hm, hparts⟩

/-- REFCLK_LOSS in LOCKED (12 R345, R349). -/
theorem execRefclkLoss_holds (hoff : s.power.state ≠ .off) (href : s.time.ref = true) (hs : s.time.state = .locked) :
    ∃ w, execRefclkLoss s = .next w ∧ w.time.ref = false ∧ w.time.state = .holdover ∧ w.time.losses = satAdd 8 s.time.losses 1 ∧
      w.mem = s.mem ∧ w.parts = s.parts := by
  obtain ⟨ht, ho, hparts⟩ := enterHoldover_begins (s := s.modTime (fun t => { t with ref := false })) 1 hs
  refine ⟨_, if_neg (by simp [hoff, href]), ?_⟩
  generalize enterHoldover _ 1 = b at ht ho hparts
  simp only [State.offTime, Prod.mk.injEq] at ho
  obtain ⟨-, hm, -⟩ := ho
  exact ⟨by rw [ht]; rfl, by rw [ht], by rw [ht]; rfl, hm, hparts⟩

/-- REFCLK_LOSS while the counter is not locked. -/
theorem execRefclkLoss_free (hoff : s.power.state ≠ .off) (href : s.time.ref = true) (hs : s.time.state ≠ .locked) :
    execRefclkLoss s = .next (s.modTime (fun t => { t with ref := false })) :=
  (if_neg (by simp [hoff, href])).trans (congrArg Host.Outcome.next (enterHoldover_none 1 hs))

/-- IDENTITY_BURST: it is valid while 100 µs have not passed since the edge and its code and its CRC-32C are right (12 R350). -/
theorem execIdentityBurst_spec {e : Ns} {bits : BitVec 96} (he : s.time.lastEdge = some e) :
    execIdentityBurst bits s = .next (if s.now ≤ e + 100000 ∧ bitsOf bits.toNat 95 80 = 0xA5C3 ∧
      crc32c (leBytes 4 (bitsOf bits.toNat 79 48) ++ leBytes 2 (bitsOf bits.toNat 47 32)) = bitsOf bits.toNat 31 0 then
        (s.reach (e + 10000)).modTime (fun t => { t with far := BitVec.ofNat 32 (bitsOf bits.toNat 79 48) })
      else s.reach (e + 10000)) := by
  have hnow : ((s.reach (e + 10000)).now ≤ e + 100000) = (s.now ≤ e + 100000) :=
    propext (max_le_iff.trans (and_iff_left (Nat.add_le_add_left (by decide) e)))
  unfold execIdentityBurst us
  rw [he]
  simp only [Nat.reduceMul, hnow, Bool.and_eq_true, decide_eq_true_eq, and_assoc]
  split <;> rfl

/-- SLEW_COMPLETE: the counter goes on from what it reads (12 R349). -/
theorem execSlewComplete_spec (h : s.time.slew ≠ 0) (hdone : s.time.slewAt + 1000 * s.time.slew ≤ s.now) :
    ∃ w, execSlewComplete s = .next w ∧ w.time.slew = 0 ∧ w.stamp = s.stamp ∧ w.now = s.now ∧
      (s.time.state = .locked → w.time.unsure = false) ∧ w.mem = s.mem := by
  have hreach : s.reach (s.time.slewAt + 1000 * s.time.slew) = s := by
    unfold State.reach
    rw [max_eq_left hdone]
  unfold execSlewComplete
  rw [if_neg h, hreach]
  refine ⟨_, rfl, rfl, ?_, rfl, fun hs => if_pos hs, rfl⟩
  rw [stamp_noSlew rfl]
  show ((s.now : Int) + ((s.stamp : Int) - s.now)).toNat = s.stamp
  omega

end

/-- Settles O47: an edge by the case that its count and the commits make (log entry 110), the other rows by their own lemmas; a missing edge
forgets the last one (log entry 111), a row brings the time to its deadline (log entry 10). -/
theorem timeRowsAct : Obligations.TimeRowsAct := by
  unfold Obligations.TimeRowsAct
  intro s hoff hboot
  unfold exec
  refine ⟨?inLocked, ?lost, ?locks, ?free, fun e => execEdgeMissing_holds, ?noEdge, execRefclkLoss_holds hoff, execRefclkLoss_free hoff,
    if_neg hoff, ?burst, execSlewComplete_spec, fun h => if_pos h, fun t rest h => onDue_first h rfl⟩
  case inLocked =>
    intro reading cycles u hs href hedge hlo hhi hu
    have hcount : onCount s cycles = true := onCount_iff.mpr ⟨href, hedge, hlo, hhi⟩
    obtain ⟨ht, -⟩ := edgeCome_onCount (reading := reading) hcount
    have hu' : (edgeCome s reading cycles).time.lastValue = some u := by rw [ht, hu]
    refine ⟨fun hall => ?_, fun v hv hne hd ho => ?_⟩
    · obtain ⟨b1, b2, b3, b4, hleft⟩ := lockedEdge_agrees hu' hall
      obtain ⟨w, hw, wt, wn, wm, wc⟩ := lockedEdge_runs hoff hboot hs hcount rfl hleft
      exact ⟨w, hw, wn, by rw [wt]; exact b1.trans (by rw [ht, hs]), by rw [wt]; exact b2, by rw [wt]; exact b3,
        by rw [wt]; exact b4.trans (by rw [ht]), by rw [wt], wc, wm⟩
    · obtain ⟨b1, b2, b3, hleft⟩ := lockedEdge_adopts hu' hv hne (by rw [ht, hd]) (by rw [ht, ho])
      obtain ⟨w, hw, wt, wn, wm, wc⟩ := lockedEdge_runs hoff hboot hs hcount rfl hleft
      exact ⟨w, hw, by rw [wt]; exact b1.trans (by rw [ht, hs]), by rw [wt]; exact b2, by rw [wt]; exact b3, wm⟩
  case lost => exact fun reading cycles => lostEdge_runs hoff hboot
  case locks =>
    intro reading cycles u hs href hedge hlo hhi
    exact lockEdge_runs hoff hboot hs (onCount_iff.mpr ⟨href, hedge, hlo, hhi⟩)
  case free =>
    intro reading cycles hs h
    refine noLockEdge_runs hoff hboot hs ?_
    by_cases hcount : onCount s cycles = true
    · obtain ⟨href, hedge, hlo, hhi⟩ := onCount_iff.mp hcount
      obtain h | h | h | h | h := h
      · simp [h] at hedge
      · simp [h] at href
      · omega
      · omega
      · exact .inr h
    · exact .inl (Bool.eq_false_iff.mpr hcount)
  case noEdge =>
    intro h
    show execEdgeMissing s = .next s
    unfold execEdgeMissing
    rw [h]
  case burst =>
    intro e bits he
    refine ⟨fun hn hc hr => (execIdentityBurst_spec he).trans (congrArg _ (if_pos ⟨hn, hc, hr⟩)),
      fun h => (execIdentityBurst_spec he).trans (congrArg _ (if_neg fun hv => ?_))⟩
    obtain ⟨hn, hc, hr⟩ := hv
    obtain h | h | h := h
    · exact Nat.not_le.mpr h hn
    · exact h hc
    · exact h hr

end Sys2Proof.Machine

namespace Sys2Proof.Machine

/-! ## Claims (O49, O50) -/

section
variable {s : State} {p q : PartId}

/-! ### What a partition tells its partner -/

/-- A partition without what telling its partner changes: the counters of the frames sent, and when the last heartbeat left. -/
def Part.told (x : Part) : Part := { x with job := none, msgNext := 0, claim := { x.claim with lastSent := 0 } }

/-- What an operation on the claim of `p` leaves alone. -/
def State.besides (s : State) (p : PartId) : Mem × Ns × (PartId → Option Part) := (s.mem, s.now, fun q => if q = p then none else some (s.part q))

theorem besides_part {u : State} (h : u.besides p = s.besides p) (hq : q ≠ p) : u.part q = s.part q := by
  have := congrFun (congrArg (fun v => v.2.2) h) q
  simpa [State.besides, hq] using this

theorem modPart_besides (f : Part → Part) : (s.modPart p f).besides p = s.besides p := by
  refine congrArg (fun g => (s.mem, s.now, g)) (funext fun q => ?_)
  by_cases h : q = p
  · rw [if_pos h, if_pos h]
  · rw [if_neg h, if_neg h, State.modPart_part_ne _ _ _ _ (Ne.symm h)]

theorem modClaim_besides (f : Claim → Claim) : (s.modClaim p f).besides p = s.besides p := modPart_besides _

theorem State.modClaim_part (f : Claim → Claim) : (s.modClaim p f).part p = { s.part p with claim := f (s.part p).claim } :=
  State.modPart_part s p _

theorem event_besides (unitNo code part : Nat) (data : Bytes) : (s.event unitNo code part data).besides p = s.besides p := by
  unfold State.besides State.part
  rw [State.event_mem, State.event_now, State.event_parts]

theorem event_part (unitNo code part : Nat) (data : Bytes) : (s.event unitNo code part data).part p = s.part p := by
  unfold State.part
  rw [State.event_parts]

theorem sendBeatAs_told (pulled : Bool) : ((sendBeatAs s p pulled).part p).told = (s.part p).told := by
  unfold sendBeatAs
  split
  · rw [State.modClaim_part]
    rfl
  · rfl

theorem sendBeatAs_besides (pulled : Bool) : (sendBeatAs s p pulled).besides p = s.besides p := by
  unfold sendBeatAs
  split
  · exact modClaim_besides _
  · rfl

theorem sendPart_told (kind pace step sec : Nat) (body : Bytes) : ((sendPart s p kind pace step sec body).part p).told = (s.part p).told := by
  unfold sendPart
  split
  · refine (congrArg Part.told (sendMessage_offJob ..) :).trans ?_
    rw [State.modPart_part]
    rfl
  · rfl

theorem modKeysOf_besides {i : Nat} (f : PeerKeys → PeerKeys) : (modKeysOf s p i f).besides p = s.besides p := by
  unfold modKeysOf
  exact modPart_besides _

theorem sendFrame_besides (owner : Option PartId) (f : Frame) : (sendFrame s owner f).besides p = s.besides p := by
  rw [sendFrame_eq]
  rfl

theorem sendMessage_besides (i typ ring msg : Nat) (payload : Bytes) : (sendMessage s p i typ ring msg payload).besides p = s.besides p := by
  unfold sendMessage
  refine foldl_view s (fun u => u.besides p) (fun u c => ?_) _
  dsimp only
  split
  · split
    · rfl
    · exact (sendFrame_besides ..).trans (modKeysOf_besides _)
  · rfl

theorem sendPart_besides (kind pace step sec : Nat) (body : Bytes) : (sendPart s p kind pace step sec body).besides p = s.besides p := by
  unfold sendPart
  split
  next i hi =>
    dsimp only
    have hpart := modPart_besides (s := s) (p := p) (fun x => { x with msgNext := ((s.part p).msgNext + 1) % 2 ^ 32 })
    generalize s.modPart p (fun x => { x with msgNext := ((s.part p).msgNext + 1) % 2 ^ 32 }) = u at hpart ⊢
    refine Eq.trans ?_ hpart
    exact sendMessage_besides ..
  · rfl

/-! ### Changes of the claim -/

/-- The claim that a partition takes: 0 in replay mode (01 R35). -/
def Part.mayHold (x : Part) (n : BitVec 32) : BitVec 32 := if x.replay then 0 else n

/-- A claim with another number (13 R357). -/
def Claim.numbered (c : Claim) (n : BitVec 32) : Claim := { c with claim := n, highest := if c.highest < n then n else c.highest }

/-- A claim is numbered, and a change told. -/
theorem setClaim_tells (n : BitVec 32) : setClaim s p n =
    if (s.part p).claim.claim = (s.part p).mayHold n then s.modClaim p (fun c => c.numbered ((s.part p).mayHold n))
    else sendBeatAs (s.modClaim p (fun c => c.numbered ((s.part p).mayHold n))) p false := rfl

theorem setClaim_told (n : BitVec 32) : ((setClaim s p n).part p).told =
    Part.told { s.part p with claim := (s.part p).claim.numbered ((s.part p).mayHold n) } := by
  have hu : ((s.modClaim p (fun c => c.numbered ((s.part p).mayHold n))).part p).told =
      Part.told { s.part p with claim := (s.part p).claim.numbered ((s.part p).mayHold n) } := congrArg Part.told (State.modClaim_part _)
  rw [setClaim_tells]
  split
  · exact hu
  · exact (sendBeatAs_told false).trans hu

theorem setClaim_besides (n : BitVec 32) : (setClaim s p n).besides p = s.besides p := by
  have hu := modClaim_besides (s := s) (p := p) (fun c => c.numbered ((s.part p).mayHold n))
  rw [setClaim_tells]
  split
  · exact hu
  · exact (sendBeatAs_besides false).trans hu

/-- The claim of a member that has yielded (13 R373). -/
def Claim.yielded (c : Claim) : Claim :=
  { c with role := .gloryHole, leader := false, snapshot := none, wanted := false, claim := 0 }

theorem yieldClaim_told : ((yieldClaim s p).part p).told = Part.told { s.part p with claim := (s.part p).claim.yielded } := by
  unfold yieldClaim
  rw [setClaim_told, State.modClaim_part]
  unfold Part.mayHold Claim.numbered
  dsimp only
  rw [ite_self, if_neg (by simp)]
  rfl

theorem yieldClaim_besides : (yieldClaim s p).besides p = s.besides p := (setClaim_besides 0).trans (modClaim_besides _)

/-- A claim that leads with the number `v` (13 R364, R365). -/
def Claim.raised (c : Claim) (v : BitVec 32) : Claim :=
  Claim.numbered { c with raises := satAdd 8 c.raises 1, role := .holder, leader := true, lost := false, waitPart := none } v

theorem raiseTo_told {v : Nat} (hr : (s.part p).replay = false) (hv : v < topClaim) : ((raiseTo s p v).part p).told =
    Part.told { s.part p with claim := (s.part p).claim.raised (BitVec.ofNat 32 v) } := by
  unfold raiseTo
  dsimp only
  rw [if_neg (by simp [hr]), if_neg (Nat.not_le.mpr hv), setClaim_told, State.modClaim_part, event_part]
  unfold Part.mayHold
  dsimp only
  rw [hr]
  rfl

theorem raiseTo_besides (v : Nat) : (raiseTo s p v).besides p = s.besides p := by
  unfold raiseTo
  dsimp only
  split
  · rfl
  split
  · exact event_besides ..
  · exact (setClaim_besides _).trans ((modClaim_besides _).trans (event_besides ..))

/-- A raise that is not made changes no claim (13 R355). -/
theorem raiseTo_top {v : Nat} (hr : (s.part p).replay = false) (hv : topClaim ≤ v) : (raiseTo s p v).part p = s.part p := by
  unfold raiseTo
  dsimp only
  rw [if_neg (by simp [hr]), if_pos hv]
  exact event_part ..

/-- What a claim decides: its number, the highest one, the role, the lead and the raises. -/
def Part.rank (x : Part) : BitVec 32 × BitVec 32 × Role × Bool × Nat :=
  (x.claim.claim, x.claim.highest, x.claim.role, x.claim.leader, x.claim.raises)

theorem Part.rank_told (x : Part) : x.told.rank = x.rank := rfl

theorem rank_of_told {x y : Part} (h : x.told = y.told) : x.rank = y.rank := (congrArg Part.rank h : x.told.rank = y.told.rank)

theorem raiseTo_rank {v : Nat} (hr : (s.part p).replay = false) (hv : v < topClaim) (hh : (s.part p).claim.highest.toNat < v) :
    ((raiseTo s p v).part p).rank =
      (BitVec.ofNat 32 v, BitVec.ofNat 32 v, .holder, true, satAdd 8 (s.part p).claim.raises 1) := by
  have hlt : (s.part p).claim.highest < BitVec.ofNat 32 v := by
    rw [BitVec.lt_def, BitVec.toNat_ofNat, Nat.mod_eq_of_lt (lt_trans hv (by decide))]
    exact hh
  rw [rank_of_told (raiseTo_told hr hv)]
  unfold Part.rank Claim.raised Claim.numbered
  dsimp only
  rw [if_pos hlt]

theorem raiseClaim_rank {v : Nat} (hr : (s.part p).replay = false) (hv : v < topClaim) (hh : (s.part p).claim.highest.toNat < v) :
    ((raiseClaim s p v).part p).rank =
      (BitVec.ofNat 32 v, BitVec.ofNat 32 v, .holder, true, satAdd 8 (s.part p).claim.raises 1) := by
  have hto := raiseTo_rank hr hv hh
  unfold raiseClaim takeLead
  rw [if_neg (by simp [hr, Nat.not_le.mpr hv]), State.modPart_part]
  exact hto

theorem raiseClaim_besides (v : Nat) : (raiseClaim s p v).besides p = s.besides p := by
  unfold raiseClaim takeLead
  split
  · exact raiseTo_besides v
  · exact (modPart_besides _).trans (raiseTo_besides v)

/-! ### Re-entry -/

/-- A partition that has left its place in the pair, with its claim at 0 (13 R366, R370). -/
def Part.gloried (x : Part) : Part :=
  { x with
    released := false
    restored := false
    inflight := []
    emits := []
    chans := []
    holdAt := if x.state = .running then some .gloryHole else x.holdAt
    claim := Claim.yielded { x.claim with
      good := 0, sections := [], parts := [], unmatched := [], snapshot := none, holderOcrc := [], waitPart := none, wanted := false } }

theorem enterGlory_told : ((enterGlory s p).part p).told = (s.part p).gloried.told := by
  unfold enterGlory
  dsimp only
  rw [yieldClaim_told, State.modPart_part]
  rfl

theorem enterGlory_besides : (enterGlory s p).besides p = s.besides p := yieldClaim_besides.trans (modPart_besides _)

/-- A member that has left for GLORY_HOLE asks for a snapshot. -/
theorem startReentry_told : ((startReentry s p).part p).told =
    Part.told { (s.part p).gloried with claim := { (s.part p).gloried.claim with wanted := true } } := by
  unfold startReentry askReentry
  refine (sendPart_told ..).trans ?_
  rw [State.modClaim_part]
  exact congrArg (fun x : Part => { x with claim := { x.claim with wanted := true } }) enterGlory_told

theorem startReentry_besides : (startReentry s p).besides p = s.besides p := by
  unfold startReentry askReentry
  exact (sendPart_besides ..).trans ((modClaim_besides _).trans enterGlory_besides)

/-! ### The claim orders -/

variable {t : Taken} {rest : List Taken} {u v : State}

@[simp] theorem answerBare_parts (status : Nat) : (answerBare s t status).parts = s.parts := (congrArg State.parts (answer_offMail t status []) :)
@[simp] theorem answerBare_mem (status : Nat) : (answerBare s t status).mem = s.mem := (congrArg State.mem (answer_offMail t status []) :)

theorem answerBare_part (status : Nat) : (answerBare s t status).part p = s.part p := by simp [State.part]

/-- What an answered order leaves of the other partitions and of memory. -/
theorem answered_besides {status : Nat} (h : v.besides p = (s.withDue rest).besides p) :
    (answerBare v t status).mem = s.mem ∧ ∀ q, q ≠ p → (answerBare v t status).part q = s.part q := by
  refine ⟨(answerBare_mem status).trans (congrArg Prod.fst h :), fun q hq => ?_⟩
  rw [answerBare_part]
  exact besides_part h hq

/-- The claim that CLAIM_PAIR gives (13 R353, R355). -/
def pairedClaim (s : State) (t : Taken) : Claim :=
  let holder := t.field 1 1 == 1
  let v : BitVec 32 := if (s.part (t.part 0)).replay then 0 else if holder then 2 else 1
  { Claim.init with
    role := if holder then .holder else .standby
    paired := true
    group := t.field 2 2
    partner := t.field 4 2
    serial := t.field 8 8
    detectSteps := if t.field 6 1 = 0 then 2 else t.field 6 1
    detectMin := if t.field 7 1 = 0 then 2 else t.field 7 1
    claim := v
    highest := v
    leader := holder
    lastBeat := some s.now
    raises := (s.part (t.part 0)).claim.raises
    demotions := (s.part (t.part 0)).claim.demotions }

/-- Another partition is paired with another partner. -/
def pairedElsewhere (s : State) (t : Taken) : Bool :=
  (List.finRange 8).any (fun q => q != t.part 0 && (s.part q).claim.paired &&
    ((s.part q).claim.partner != t.field 4 2 || (s.part q).claim.serial != t.field 8 8))

theorem pairedElsewhere_iff : pairedElsewhere s t = true ↔
    ∃ q, q ≠ t.part 0 ∧ (s.part q).claim.paired = true ∧ ((s.part q).claim.partner ≠ t.field 4 2 ∨ (s.part q).claim.serial ≠ t.field 8 8) := by
  simp [pairedElsewhere, and_assoc]

theorem execClaimPair_first (h : firstDue s 0x38 t rest) : execClaimPair s = .next (
    if t.field 4 2 / 32 = s.fuses.tray || !mirrorMember (s.part (t.part 0)) (t.field 4 2) (t.field 8 8) || pairedElsewhere s t
    then answerBare (s.withDue rest) t 0x03
    else if (s.part (t.part 0)).state = .running then answerBare (s.withDue rest) t 0x10
    else answerBare (sendBeatAs ((s.withDue rest).modClaim (t.part 0) (fun _ => pairedClaim s t)) (t.part 0) false) t 0x00) :=
  onDue_first h rfl

theorem execClaimYield_first (h : firstDue s 0x39 t rest) (hv : t.field 4 4 = 0) : execClaimYield s = .next (
    if mayClaim (s.part (t.part 0)) then answerBare (yieldClaim (s.withDue rest) (t.part 0)) t 0x00 else answerBare (s.withDue rest) t 0x10) :=
  onDue_first h (beq_iff_eq.mpr hv)

theorem execClaimRaise_first (h : firstDue s 0x39 t rest) (hv : t.field 4 4 ≠ 0) : execClaimRaise s = .next (
    if !mayClaim (s.part (t.part 0)) || (s.part (t.part 0)).replay then answerBare (s.withDue rest) t 0x10
    else if t.field 4 4 ≤ (s.part (t.part 0)).claim.highest.toNat then answerBare (s.withDue rest) t 0x04
    else if topClaim ≤ t.field 4 4 then answerBare (raiseTo (s.withDue rest) (t.part 0) (t.field 4 4)) t 0x04
    else answerBare (if (s.part (t.part 0)).claim.leader then raiseTo (s.withDue rest) (t.part 0) (t.field 4 4)
      else raiseClaim (s.withDue rest) (t.part 0) (t.field 4 4)) t 0x00) :=
  onDue_first h (bne_iff_ne.mpr hv)

theorem execClaimUnpair_first (h : firstDue s 0x3A t rest) : execClaimUnpair s = .next (
    if (s.part (t.part 0)).state = .running then answerBare (s.withDue rest) t 0x10
    else answerBare ((s.withDue rest).modPart (t.part 0)
      (fun x => { x with holdAt := if x.holdAt = some .gloryHole then none else x.holdAt, claim := Claim.init })) t 0x00) :=
  onDue_first h rfl

/-- The pace of a re-entry and its failures counted afresh. -/
def Claim.reentered (c : Claim) (t : Taken) : Claim :=
  { c with pacePct := if t.field 1 1 = 0xFF then 10 else t.field 1 1, tries := 0, lost := false }

theorem execClaimReenter_first (h : firstDue s 0x3B t rest) : execClaimReenter s = .next (
    if !(s.part (t.part 0)).claim.paired || ((s.part (t.part 0)).state ≠ .loaded && (s.part (t.part 0)).claim.role ≠ .gloryHole)
    then answerBare (s.withDue rest) t 0x10
    else answerBare (startReentry ((s.withDue rest).modClaim (t.part 0) (fun c => c.reentered t)) (t.part 0)) t 0x00) :=
  onDue_first h rfl

theorem mayClaim_iff (x : Part) : mayClaim x = true ↔ x.claim.paired = true ∧ x.claim.role ≠ .gloryHole := by simp [mayClaim]

theorem field_lt (off : Nat) : t.field off 4 < 2 ^ 32 := fieldAt_lt _ _ 4

end

end Sys2Proof.Machine

namespace Sys2Proof.Machine

/-! ## The claim orders (O49) -/

section
variable {s : State} {p : PartId} {t : Taken} {rest : List Taken}

/-- CLAIM_PAIR is refused for the partner that it names (log entry 114), before the state is looked at (log entry 138). -/
theorem execClaimPair_refused (h : firstDue s 0x38 t rest) (hp : t.part 0 = p)
    (hbad : t.field 4 2 / 32 = s.fuses.tray ∨ mirrorMember (s.part p) (t.field 4 2) (t.field 8 8) = false ∨
      ∃ q, q ≠ p ∧ (s.part q).claim.paired = true ∧ ((s.part q).claim.partner ≠ t.field 4 2 ∨ (s.part q).claim.serial ≠ t.field 8 8)) :
    execClaimPair s = .next (answerBare (s.withDue rest) t 0x03) := by
  subst hp
  refine (execClaimPair_first h).trans (congrArg _ (if_pos ?_))
  rw [← pairedElsewhere_iff] at hbad
  obtain hbad | hbad | hbad := hbad <;> simp [hbad]

section
variable (h : firstDue s 0x38 t rest) (hp : t.part 0 = p) (htray : t.field 4 2 / 32 ≠ s.fuses.tray)
  (hmirror : mirrorMember (s.part p) (t.field 4 2) (t.field 8 8) = true)
  (hothers : ∀ q, q ≠ p → (s.part q).claim.paired = true → (s.part q).claim.partner = t.field 4 2 ∧ (s.part q).claim.serial = t.field 8 8)
include h hp htray hmirror hothers

theorem execClaimPair_fits : execClaimPair s = .next (
    if (s.part p).state = .running then answerBare (s.withDue rest) t 0x10
    else answerBare (sendBeatAs ((s.withDue rest).modClaim p (fun _ => pairedClaim s t)) p false) t 0x00) := by
  subst hp
  have hnone : pairedElsewhere s t = false := by
    rw [Bool.eq_false_iff, Ne, pairedElsewhere_iff]
    rintro ⟨q, hq, hpaired, hne⟩
    obtain ⟨hplace, hserial⟩ := hothers q hq hpaired
    exact hne.elim (· hplace) (· hserial)
  exact (execClaimPair_first h).trans (congrArg _ (if_neg (by simp [htray, hmirror, hnone])))

/-- CLAIM_PAIR pairs its partition (13 R353, R355). -/
theorem execClaimPair_pairs (hs : (s.part p).state ≠ .running) :
    ∃ u v, execClaimPair s = .next u ∧ u = answerBare v t 0x00 ∧ (u.part p).claim.paired = true ∧ (u.part p).claim.group = t.field 2 2 ∧
      (u.part p).claim.partner = t.field 4 2 ∧ (u.part p).claim.serial = t.field 8 8 ∧
      (u.part p).claim.detectSteps = (if t.field 6 1 = 0 then 2 else t.field 6 1) ∧
      (u.part p).claim.detectMin = (if t.field 7 1 = 0 then 2 else t.field 7 1) ∧ (u.part p).claim.claim = (u.part p).claim.highest ∧
      (t.field 1 1 = 1 → (u.part p).claim.role = .holder ∧ (u.part p).claim.leader = true) ∧
      (t.field 1 1 ≠ 1 → (u.part p).claim.role = .standby ∧ (u.part p).claim.leader = false) ∧
      (u.part p).claim.claim = (if (s.part p).replay = true then 0 else if t.field 1 1 = 1 then 2 else 1) ∧
      u.mem = s.mem ∧ (∀ q, q ≠ p → u.part q = s.part q) := by
  refine ⟨_, _, (execClaimPair_fits h hp htray hmirror hothers).trans (congrArg _ (if_neg hs)), rfl, ?_⟩
  have htold := sendBeatAs_told (s := (s.withDue rest).modClaim p (fun _ => pairedClaim s t)) (p := p) false
  have hbesides := (sendBeatAs_besides (s := (s.withDue rest).modClaim p (fun _ => pairedClaim s t)) (p := p) false).trans (modClaim_besides _)
  rw [State.modClaim_part] at htold
  generalize sendBeatAs ((s.withDue rest).modClaim p (fun _ => pairedClaim s t)) p false = v at htold hbesides
  rw [answerBare_part]
  have hclaim : { (v.part p).claim with lastSent := 0 } = { pairedClaim s t with lastSent := 0 } := (congrArg Part.claim htold :)
  have hv : (v.part p).claim.claim = (if (s.part p).replay = true then 0 else if t.field 1 1 = 1 then 2 else 1) := by
    rw [show (v.part p).claim.claim = (pairedClaim s t).claim from (congrArg Claim.claim hclaim :)]
    subst hp
    simp [pairedClaim]
  have hrole : (v.part p).claim.role = (if t.field 1 1 == 1 then .holder else .standby) := (congrArg Claim.role hclaim :)
  have hleader : (v.part p).claim.leader = (t.field 1 1 == 1) := (congrArg Claim.leader hclaim :)
  refine ⟨(congrArg Claim.paired hclaim :), (congrArg Claim.group hclaim :), (congrArg Claim.partner hclaim :), (congrArg Claim.serial hclaim :),
    (congrArg Claim.detectSteps hclaim :), (congrArg Claim.detectMin hclaim :),
    (congrArg Claim.claim hclaim :).trans (congrArg Claim.highest hclaim :).symm, fun h1 => ?_, fun h1 => ?_, hv, answered_besides hbesides⟩
  · rw [hrole, hleader, h1]
    exact ⟨rfl, rfl⟩
  · rw [hrole, hleader, beq_false_of_ne h1]
    exact ⟨rfl, rfl⟩

end

/-- CLAIM_SET with VALUE 0 at a member that may (13 R373). -/
theorem execClaimYield_yields (h : firstDue s 0x39 t rest) (hp : t.part 0 = p) (hpaired : (s.part p).claim.paired = true)
    (hrole : (s.part p).claim.role ≠ .gloryHole) (hv : t.field 4 4 = 0) :
    ∃ u v, execClaimYield s = .next u ∧ u = answerBare v t 0x00 ∧ (u.part p).claim.claim = 0 ∧ (u.part p).claim.role = .gloryHole ∧
      (u.part p).claim.leader = false ∧ (u.part p).claim.highest = (s.part p).claim.highest ∧ u.mem = s.mem ∧
      (∀ q, q ≠ p → u.part q = s.part q) := by
  subst hp
  refine ⟨_, _, (execClaimYield_first h hv).trans (congrArg _ (if_pos ((mayClaim_iff _).mpr ⟨hpaired, hrole⟩))), rfl, ?_⟩
  have htold := yieldClaim_told (s := s.withDue rest) (p := t.part 0)
  have hbesides := yieldClaim_besides (s := s.withDue rest) (p := t.part 0)
  generalize yieldClaim (s.withDue rest) (t.part 0) = v at htold hbesides
  rw [answerBare_part]
  have hrank := rank_of_told htold
  simp only [Part.rank, Claim.yielded, Prod.mk.injEq] at hrank
  obtain ⟨hclaim, hhighest, hglory, hleader, -⟩ := hrank
  exact ⟨hclaim, hglory, hleader, hhighest, answered_besides hbesides⟩

section
variable (h : firstDue s 0x39 t rest) (hp : t.part 0 = p) (hpaired : (s.part p).claim.paired = true)
  (hrole : (s.part p).claim.role ≠ .gloryHole) (hreplay : (s.part p).replay = false)
include h hp hpaired hrole hreplay

theorem execClaimRaise_may (hv : t.field 4 4 ≠ 0) : execClaimRaise s = .next (
    if t.field 4 4 ≤ (s.part p).claim.highest.toNat then answerBare (s.withDue rest) t 0x04
    else if topClaim ≤ t.field 4 4 then answerBare (raiseTo (s.withDue rest) p (t.field 4 4)) t 0x04
    else answerBare (if (s.part p).claim.leader then raiseTo (s.withDue rest) p (t.field 4 4)
      else raiseClaim (s.withDue rest) p (t.field 4 4)) t 0x00) := by
  subst hp
  have hmay : mayClaim (s.part (t.part 0)) = true := (mayClaim_iff _).mpr ⟨hpaired, hrole⟩
  exact (execClaimRaise_first h hv).trans (congrArg _ (if_neg (by simp [hmay, hreplay])))

/-- VALUE 0xFFFFFFFF is answered 0x04 with the claim as it was (log entry 116). -/
theorem execClaimRaise_top (hv : t.field 4 4 = 0xFFFFFFFF) :
    ∃ u v, execClaimRaise s = .next u ∧ u = answerBare v t 0x04 ∧ (u.part p).claim = (s.part p).claim ∧ u.mem = s.mem ∧
      (∀ q, q ≠ p → u.part q = s.part q) := by
  have hrun := execClaimRaise_may h hp hpaired hrole hreplay (by rw [hv]; decide)
  by_cases hle : t.field 4 4 ≤ (s.part p).claim.highest.toNat
  · refine ⟨_, s.withDue rest, hrun.trans (congrArg _ (if_pos hle)), rfl, ?_, answered_besides rfl⟩
    rw [answerBare_part]
    rfl
  · have htop : topClaim ≤ t.field 4 4 := le_of_eq hv.symm
    refine ⟨_, _, hrun.trans (congrArg _ ((if_neg hle).trans (if_pos htop))), rfl, ?_, answered_besides (raiseTo_besides _)⟩
    rw [answerBare_part, raiseTo_top (s := s.withDue rest) hreplay htop]
    rfl

/-- A VALUE above HIGHEST becomes the claim and HIGHEST, and the partition leads (13 R365, R366). -/
theorem execClaimRaise_raises (hv : (s.part p).claim.highest.toNat < t.field 4 4) (hne : t.field 4 4 ≠ 0xFFFFFFFF) :
    ∃ u v, execClaimRaise s = .next u ∧ u = answerBare v t 0x00 ∧ (u.part p).claim.claim.toNat = t.field 4 4 ∧
      (u.part p).claim.highest.toNat = t.field 4 4 ∧ (u.part p).claim.role = .holder ∧ (u.part p).claim.leader = true ∧
      (u.part p).claim.raises = satAdd 8 (s.part p).claim.raises 1 ∧ u.mem = s.mem ∧ (∀ q, q ≠ p → u.part q = s.part q) := by
  have hlt : t.field 4 4 < topClaim := lt_of_le_of_ne (Nat.le_of_lt_succ (field_lt (t := t) 4)) hne
  have hnat : (BitVec.ofNat 32 (t.field 4 4)).toNat = t.field 4 4 := by
    rw [BitVec.toNat_ofNat, Nat.mod_eq_of_lt (field_lt 4)]
  have hrun := (execClaimRaise_may h hp hpaired hrole hreplay (Nat.ne_zero_of_lt hv)).trans
    (congrArg _ ((if_neg (Nat.not_le.mpr hv)).trans (if_neg (Nat.not_le.mpr hlt))))
  have hrank : ((if (s.part p).claim.leader then raiseTo (s.withDue rest) p (t.field 4 4)
      else raiseClaim (s.withDue rest) p (t.field 4 4)).part p).rank =
      (BitVec.ofNat 32 (t.field 4 4), BitVec.ofNat 32 (t.field 4 4), .holder, true, satAdd 8 (s.part p).claim.raises 1) := by
    split
    · exact raiseTo_rank hreplay hlt hv
    · exact raiseClaim_rank hreplay hlt hv
  have hbesides : (if (s.part p).claim.leader then raiseTo (s.withDue rest) p (t.field 4 4)
      else raiseClaim (s.withDue rest) p (t.field 4 4)).besides p = (s.withDue rest).besides p := by
    split
    · exact raiseTo_besides _
    · exact raiseClaim_besides _
  refine ⟨_, _, hrun, rfl, ?_⟩
  generalize (if (s.part p).claim.leader then raiseTo (s.withDue rest) p (t.field 4 4)
    else raiseClaim (s.withDue rest) p (t.field 4 4)) = v at hrank hbesides
  simp only [Part.rank, Prod.mk.injEq] at hrank
  obtain ⟨hclaim, hhighest, hholder, hleader, hraises⟩ := hrank
  rw [answerBare_part, hclaim, hhighest, hnat]
  exact ⟨rfl, rfl, hholder, hleader, hraises, answered_besides hbesides⟩

end

/-- CLAIM_UNPAIR (13 R373). -/
theorem execClaimUnpair_unpairs (h : firstDue s 0x3A t rest) (hp : t.part 0 = p) (hs : (s.part p).state ≠ .running) :
    ∃ u v, execClaimUnpair s = .next u ∧ u = answerBare v t 0x00 ∧ (u.part p).claim = Claim.init ∧
      (u.part p).step = (s.part p).step ∧ u.mem = s.mem ∧ (∀ q, q ≠ p → u.part q = s.part q) := by
  subst hp
  refine ⟨_, _, (execClaimUnpair_first h).trans (congrArg _ (if_neg hs)), rfl, ?_, ?_, answered_besides (modPart_besides _)⟩
  · rw [answerBare_part, State.modPart_part]
  · rw [answerBare_part, State.modPart_part]
    rfl

/-- CLAIM_REENTER of a member that may (13 R370, R373). -/
theorem execClaimReenter_asks (h : firstDue s 0x3B t rest) (hp : t.part 0 = p) (hpaired : (s.part p).claim.paired = true)
    (hstate : (s.part p).state = .loaded ∨ (s.part p).claim.role = .gloryHole) :
    ∃ u v, execClaimReenter s = .next u ∧ u = answerBare v t 0x00 ∧ (u.part p).claim.role = .gloryHole ∧ (u.part p).claim.claim = 0 ∧
      (u.part p).claim.leader = false ∧ (u.part p).claim.wanted = true ∧ (u.part p).claim.tries = 0 ∧
      (u.part p).claim.pacePct = (if t.field 1 1 = 0xFF then 10 else t.field 1 1) ∧
      (u.part p).claim.highest = (s.part p).claim.highest ∧ u.mem = s.mem ∧ (∀ q, q ≠ p → u.part q = s.part q) := by
  subst hp
  have hmay : ¬ (!(s.part (t.part 0)).claim.paired || ((s.part (t.part 0)).state ≠ .loaded && (s.part (t.part 0)).claim.role ≠ .gloryHole)) = true := by
    obtain hs | hr := hstate
    · simp [hpaired, hs]
    · simp [hpaired, hr]
  refine ⟨_, _, (execClaimReenter_first h).trans (congrArg _ (if_neg hmay)), rfl, ?_⟩
  have htold := startReentry_told (s := (s.withDue rest).modClaim (t.part 0) (fun c => c.reentered t)) (p := t.part 0)
  have hbesides := (startReentry_besides (s := (s.withDue rest).modClaim (t.part 0) (fun c => c.reentered t)) (p := t.part 0)).trans
    (modClaim_besides _)
  rw [State.modClaim_part] at htold
  generalize startReentry ((s.withDue rest).modClaim (t.part 0) (fun c => c.reentered t)) (t.part 0) = v at htold hbesides
  rw [answerBare_part]
  have hclaim := (congrArg Part.claim htold :)
  exact ⟨(congrArg Claim.role hclaim :), (congrArg Claim.claim hclaim :), (congrArg Claim.leader hclaim :), (congrArg Claim.wanted hclaim :),
    (congrArg Claim.tries hclaim :), (congrArg Claim.pacePct hclaim :), (congrArg Claim.highest hclaim :), answered_besides hbesides⟩

end

/-- Settles O49: each order by its own lemma; that a re-entry of an unpaired partition is refused is log entry 114, the answers to VALUE
0xFFFFFFFF and to a raise in replay are log entry 116, the order of the two tests of CLAIM_PAIR is log entry 138. -/
theorem claimOrdersAct : Obligations.ClaimOrdersAct := by
  unfold Obligations.ClaimOrdersAct
  intro s p
  unfold exec
  refine ⟨?pair, ?set, ?unpair, ?reenter, onDue_noneOfType, fun h => ⟨onDue_noneOfType h, onDue_noneOfType h⟩, onDue_noneOfType, onDue_noneOfType⟩
  case pair =>
    intro t rest h hp
    refine ⟨execClaimPair_refused h hp, fun htray hmirror hothers => ⟨fun hs => ?_, execClaimPair_pairs h hp htray hmirror hothers⟩⟩
    exact (execClaimPair_fits h hp htray hmirror hothers).trans (congrArg _ (if_pos hs))
  case set =>
    intro t rest h hp
    refine ⟨fun hno hv => ?_, fun hno hv => ?_, execClaimYield_yields h hp, fun hpaired hrole hreplay => ⟨fun hv hle => ?_,
      execClaimRaise_top h hp hpaired hrole hreplay, execClaimRaise_raises h hp hpaired hrole hreplay⟩⟩
    · subst hp
      refine (execClaimYield_first h hv).trans (congrArg _ (if_neg fun hmay => ?_))
      obtain ⟨hpaired, hrole⟩ := (mayClaim_iff _).mp hmay
      obtain hno | hno := hno
      · simp [hno] at hpaired
      · exact hrole hno
    · subst hp
      refine (execClaimRaise_first h hv).trans (congrArg _ (if_pos ?_))
      obtain hno | hno | hno := hno <;> simp [mayClaim, hno]
    · exact (execClaimRaise_may h hp hpaired hrole hreplay hv).trans (congrArg _ (if_pos hle))
  case unpair =>
    intro t rest h hp
    refine ⟨fun hs => ?_, execClaimUnpair_unpairs h hp⟩
    subst hp
    exact (execClaimUnpair_first h).trans (congrArg _ (if_pos hs))
  case reenter =>
    intro t rest h hp
    refine ⟨fun hno => ?_, execClaimReenter_asks h hp⟩
    subst hp
    refine (execClaimReenter_first h).trans (congrArg _ (if_pos ?_))
    obtain hno | ⟨hs, hr⟩ := hno
    · simp [hno]
    · simp [hs, hr]

end Sys2Proof.Machine

namespace Sys2Proof.Machine

/-! ## The claim lanes (O50) -/

section
variable {s : State} {p q : PartId}

/-! ### Heartbeats sent (13 R357) -/

theorem execHeartbeatTimer_silent (hp : (s.part p).claim.paired = true) (hl : s.lanes.idleOnly = true ∨ s.lanes.testing = true) :
    execHeartbeatTimer p s = .next (s.reach ((s.part p).claim.lastSent + 500000)) := by
  unfold execHeartbeatTimer sendBeat sendBeatAs
  rw [if_pos hp]
  refine congrArg _ (if_neg fun h => ?_)
  obtain hl | hl := hl <;> simp [State.reach, hl] at h

theorem execHeartbeatTimer_sends (hp : (s.part p).claim.paired = true) (hi : s.lanes.idleOnly = false) (ht : s.lanes.testing = false) :
    ∃ u, execHeartbeatTimer p s = .next u ∧
      u.now = max s.now ((s.part p).claim.lastSent + 500000) ∧ (u.part p).claim.lastSent = u.now ∧ (u.part p).claim.claim = (s.part p).claim.claim ∧
      u.out = s.out ++ [.heartbeat (heartbeatOf { s with now := u.now } p false)] ∧ u.mem = s.mem ∧ (∀ q, q ≠ p → u.part q = s.part q) := by
  generalize hv : s.reach ((s.part p).claim.lastSent + 500000) = v
  have hsend : sendBeat v p = (v.emit (.heartbeat (heartbeatOf v p false))).modClaim p (fun c => { c with lastSent := v.now }) := by
    refine if_pos ?_
    rw [← hv]
    simp [State.reach, hi, ht, State.part] at hp ⊢
    exact hp
  refine ⟨sendBeat v p, ?_, ?_, ?_, ?_, ?_, ?_, fun q hq => ?_⟩
  · unfold execHeartbeatTimer
    rw [if_pos hp, ← hv]
    rfl
  · rw [hsend, ← hv]
    rfl
  · rw [hsend, State.modClaim_part]
    rfl
  · rw [hsend, State.modClaim_part, ← hv]
    rfl
  · rw [hsend, ← hv]
    rfl
  · rw [hsend, ← hv]
    rfl
  · refine (besides_part (sendBeatAs_besides false) hq).trans ?_
    rw [← hv]
    rfl

/-! ### Failures of a re-entry and the loss of the holder (13 R363, R372) -/

theorem reentryFail_told (cause : Nat) : ((reentryFail s p cause).part p).told = Part.told { s.part p with
    released := false
    restored := false
    inflight := []
    emits := []
    chans := []
    holdAt := if (s.part p).state = .running then some .gloryHole else (s.part p).holdAt
    claim := { (s.part p).claim with
      tries := min 3 ((s.part p).claim.tries + 1), wanted := (s.part p).claim.wanted && decide (min 3 ((s.part p).claim.tries + 1) < 3),
      good := 0, sections := [], parts := [], snapshot := none, holderOcrc := [] } } := by
  unfold reentryFail
  dsimp only
  split
  · rw [State.modPart_part, event_part]
  · refine (sendPart_told ..).trans ?_
    rw [State.modPart_part, event_part]

theorem reentryFail_besides (cause : Nat) : (reentryFail s p cause).besides p = s.besides p := by
  unfold reentryFail
  dsimp only
  split
  · exact (modPart_besides _).trans (event_besides ..)
  · exact (sendPart_besides ..).trans ((modPart_besides _).trans (event_besides ..))

theorem loseHolder_besides : (loseHolder s p).besides p = s.besides p := by
  unfold loseHolder
  dsimp only
  split
  · exact raiseClaim_besides _
  split
  · exact (reentryFail_besides 3).trans (modClaim_besides _)
  · exact modPart_besides _

/-- A STANDBY raises and leads (13 R364). -/
theorem loseHolder_standby (hs : (s.part p).claim.role = .standby) (hr : (s.part p).replay = false)
    (hv : (s.part p).claim.highest.toNat + 1 < 0xFFFFFFFF) :
    ((loseHolder s p).part p).claim.claim.toNat = (s.part p).claim.highest.toNat + 1 ∧ ((loseHolder s p).part p).claim.role = .holder ∧
    ((loseHolder s p).part p).claim.leader = true := by
  have hrank := raiseClaim_rank hr hv (Nat.lt_succ_self _)
  have hlose : loseHolder s p = raiseClaim s p ((s.part p).claim.highest.toNat + 1) := if_pos hs
  rw [hlose]
  simp only [Part.rank, Prod.mk.injEq] at hrank
  obtain ⟨hclaim, -, hrole, hleader, -⟩ := hrank
  refine ⟨?_, hrole, hleader⟩
  rw [hclaim, BitVec.toNat_ofNat, Nat.mod_eq_of_lt (lt_trans hv (by decide))]

/-- A member with a re-entry open fails it. -/
theorem loseHolder_reentry (ho : reentryOpen (s.part p).claim = true) (hl : (s.part p).claim.lost = false) :
    loseHolder s p = reentryFail (s.modClaim p (fun c => { c with lost := true })) p 3 := by
  have hs : (s.part p).claim.role ≠ .standby := by
    intro hs
    simp [reentryOpen, hs] at ho
  exact (if_neg hs).trans (if_pos (by simp [ho, hl]))

/-- Any other member notes that its partner is lost; one in GLORY_HOLE holds its partition. -/
theorem loseHolder_notes (hs : (s.part p).claim.role ≠ .standby) (ho : reentryOpen (s.part p).claim = false) :
    loseHolder s p = s.modPart p (fun x => { x with
      holdAt := if (s.part p).claim.role = .gloryHole && x.state = .running && !x.released then some .gloryHole else x.holdAt
      claim := { x.claim with lost := true } }) :=
  (if_neg hs).trans (if_neg (by simp [ho]))

/-! ### Claims observed (13 R358, R366) -/

/-- The highest claim once another has been observed. -/
def Claim.observed (c : Claim) (n : Nat) : Claim := { c with highest := if c.highest.toNat < n then BitVec.ofNat 32 n else c.highest }

theorem observed_highest {c : Claim} {n : Nat} (hn : n < 2 ^ 32) : (c.observed n).highest.toNat = max c.highest.toNat n := by
  unfold Claim.observed
  dsimp only
  split
  next h => rw [BitVec.toNat_ofNat, Nat.mod_eq_of_lt hn, max_eq_right (le_of_lt h)]
  next h => rw [max_eq_left (Nat.le_of_not_lt h)]

/-- A claim that does not outrank a leader's, or that a follower observes. -/
theorem observe_notes {c place : Nat} (h : (s.part p).claim.leader = true → outranks c place (s.part p).claim.claim.toNat s.place = false) :
    observe s p c place = s.modClaim p (fun d => d.observed c) := by
  refine if_neg fun hd => ?_
  rw [State.modClaim_part] at hd
  obtain ⟨hl, ho⟩ := Bool.and_eq_true_iff.mp hd
  rw [show outranks c place (s.part p).claim.claim.toNat s.place = true from ho] at h
  exact absurd (h hl) (by decide)

/-- A claim that outranks a leader's. -/
theorem observe_demotes {c place : Nat} (hl : (s.part p).claim.leader = true)
    (ho : outranks c place (s.part p).claim.claim.toNat s.place = true) :
    observe s p c place = demote (s.modClaim p (fun d => d.observed c)) p c place := by
  refine if_pos ?_
  rw [State.modClaim_part]
  exact Bool.and_eq_true_iff.mpr ⟨hl, ho⟩

theorem demote_besides (c place : Nat) : (demote s p c place).besides p = s.besides p :=
  startReentry_besides.trans ((event_besides ..).trans (modClaim_besides _))

theorem demote_told (c place : Nat) : ((demote s p c place).part p).told =
    Part.told { (s.part p).gloried with claim := { (s.part p).gloried.claim with
      wanted := true, demotions := satAdd 8 (s.part p).claim.demotions 1 } } := by
  unfold demote
  rw [startReentry_told, event_part, State.modClaim_part]
  rfl

/-! ### Heartbeats received -/

/-- What an accepted record is to the lanes. -/
def beatAccepted (s : State) (h : Heartbeat) : State :=
  s.modLanes (fun l => { l with far := some (h.place, s.parts.toList.any (fun x => x.claim.paired && x.claim.partner == h.place && x.claim.serial == h.serial)) })

/-- The claim of the partner of a record, before what the record's CLAIM does. -/
def Claim.beaten (c : Claim) (h : Heartbeat) (now : Ns) : Claim :=
  let newStep := match c.beats.head? with | some b => b.1 != h.step | none => true
  { c with
    lastBeat := some now
    lost := c.lost && (h.claim == 0 || bitOf h.bflags 3)
    beats := if newStep then ((h.step, h.time) :: c.beats).take 17 else c.beats
    holderOcrc := if newStep && h.step != 0 && !c.leader then c.holderOcrc ++ [(h.step, BitVec.ofNat 32 h.ocrc)] else c.holderOcrc
    snapshot := if c.leader && !bitOf h.bflags 1 then none else c.snapshot
    pacePct := if c.leader && !bitOf h.bflags 1 && !c.wanted then 0 else c.pacePct }

variable {h : Heartbeat}

theorem execHeartbeatReceive_silent (hs : s.power.state = .off ∨ s.lanes.testing = true) : execHeartbeatReceive h s = .next s :=
  if_pos (by obtain hs | hs := hs <;> simp [hs])

/-- The partner's record, taken note of. -/
def beatNoted (s : State) (p : PartId) (h : Heartbeat) : State := (beatAccepted s h).modClaim p (fun c => c.beaten h s.now)

/-- The partner's record, taken note of, and its CLAIM observed. -/
def beatObserved (s : State) (p : PartId) (h : Heartbeat) : State := (beatNoted s p h).modClaim p (fun c => c.observed h.claim)

theorem beatNoted_part : (beatNoted s p h).part p = { s.part p with claim := (s.part p).claim.beaten h s.now } :=
  State.modClaim_part (s := beatAccepted s h) _

theorem beatObserved_part : (beatObserved s p h).part p = { s.part p with claim := ((s.part p).claim.beaten h s.now).observed h.claim } := by
  unfold beatObserved
  rw [State.modClaim_part, beatNoted_part]

theorem beatObserved_besides : (beatObserved s p h).besides p = s.besides p := (modClaim_besides _).trans (modClaim_besides _)

theorem beat_observed (hkeep : (s.part p).claim.leader = true → outranks h.claim h.place (s.part p).claim.claim.toNat s.place = false) :
    observe (beatNoted s p h) p h.claim h.place = beatObserved s p h := by
  refine observe_notes fun hl => ?_
  rw [beatNoted_part] at hl ⊢
  exact hkeep hl

section
variable (hoff : s.power.state ≠ .off) (htest : s.lanes.testing = false)
include hoff htest

theorem execHeartbeatReceive_damaged (hc : h.rcrc ≠ crc32c (beatBytes h)) :
    execHeartbeatReceive h s = .next (s.modLanes (fun l => { l with discards := satAdd 16 l.discards 1 })) :=
  (if_neg (by simp [hoff, htest])).trans (if_pos hc)

/-- A record that concerns no partition here. -/
theorem execHeartbeatReceive_stranger (hc : h.rcrc = crc32c (beatBytes h)) (hno : h.cabinet ≠ s.plan.cabinet ∨ beatPart s h = none) :
    ∃ u, execHeartbeatReceive h s = .next u ∧
      u.lanes.discards = (if h.cabinet = s.plan.cabinet ∧ (∃ q, (s.part q).claim.paired = true ∧ (s.part q).claim.partner = h.place ∧ (s.part q).claim.serial = h.serial)
        then s.lanes.discards else satAdd 16 s.lanes.discards 1) ∧ u.parts = s.parts ∧ u.mem = s.mem ∧ u.events = s.events := by
  have hto : (if h.cabinet = s.plan.cabinet then beatPart s h else none) = none := by
    split
    next hcab => exact hno.resolve_left (not_not_intro hcab)
    · rfl
  have hmine : (s.parts.toList.any (fun x => x.claim.paired && x.claim.partner == h.place && x.claim.serial == h.serial) && h.cabinet = s.plan.cabinet) = true ↔
      h.cabinet = s.plan.cabinet ∧ ∃ q, (s.part q).claim.paired = true ∧ (s.part q).claim.partner = h.place ∧ (s.part q).claim.serial = h.serial := by
    rw [Bool.and_eq_true, parts_any, decide_eq_true_eq, and_comm]
    simp [and_assoc]
  unfold execHeartbeatReceive
  rw [if_neg (by simp [hoff, htest])]
  dsimp only
  rw [if_neg (not_not_intro hc), hto]
  refine ⟨_, rfl, ?_⟩
  split
  next hm =>
    rw [if_pos (hmine.mp hm)]
    exact ⟨rfl, rfl, rfl, rfl⟩
  next hm =>
    rw [if_neg fun h => hm (hmine.mpr h)]
    exact ⟨rfl, rfl, rfl, rfl⟩

/-- A record of the partner. -/
theorem execHeartbeatReceive_partner (hc : h.rcrc = crc32c (beatBytes h)) (hcab : h.cabinet = s.plan.cabinet) (hp : beatPart s h = some p) {u : State}
    (hu : observe (beatNoted s p h) p h.claim h.place = u) :
    execHeartbeatReceive h s =
      .next (if h.claim = 0 || bitOf h.bflags 3 then (if (u.part p).claim.leader then u else loseHolder u p) else u) := by
  subst hu
  refine (if_neg (by simp [hoff, htest])).trans ((if_neg (not_not_intro hc)).trans ?_)
  rw [if_pos hcab, hp]
  rfl

section
variable (hc : h.rcrc = crc32c (beatBytes h)) (hcab : h.cabinet = s.plan.cabinet) (hp : beatPart s h = some p)
include hc hcab hp

/-- A record that changes no role (13 R358). -/
theorem execHeartbeatReceive_notes (hclaim : h.claim < 2 ^ 32)
    (hkeep : (s.part p).claim.leader = true ∧ outranks h.claim h.place (s.part p).claim.claim.toNat s.place = false ∨
      (s.part p).claim.leader = false ∧ h.claim ≠ 0 ∧ bitOf h.bflags 3 = false) :
    ∃ u, execHeartbeatReceive h s = .next u ∧ (u.part p).claim.highest.toNat = max (s.part p).claim.highest.toNat h.claim ∧
      (u.part p).claim.claim = (s.part p).claim.claim ∧ (u.part p).claim.role = (s.part p).claim.role ∧ (u.part p).claim.leader = (s.part p).claim.leader ∧
      (u.part p).claim.lastBeat = some s.now ∧ (h.claim ≠ 0 → bitOf h.bflags 3 = false → (u.part p).claim.lost = false) ∧
      u.mem = s.mem ∧ (∀ q, q ≠ p → u.part q = s.part q) := by
  have hobserve := beat_observed (s := s) (p := p) (h := h) fun hl => by
    obtain ⟨-, ho⟩ | ⟨hno, -⟩ := hkeep
    · exact ho
    · exact absurd (hl.symm.trans hno) (by decide)
  have hbesides := beatObserved_besides (s := s) (p := p) (h := h)
  have hupart := beatObserved_part (s := s) (p := p) (h := h)
  generalize beatObserved s p h = u at hobserve hbesides hupart
  refine ⟨u, ?_, ?_⟩
  · refine (execHeartbeatReceive_partner hoff htest hc hcab hp hobserve).trans (congrArg _ ?_)
    obtain ⟨hl, -⟩ | ⟨-, h0, h3⟩ := hkeep
    · rw [hupart, if_pos (show (((s.part p).claim.beaten h s.now).observed h.claim).leader = true from hl), ite_self]
    · exact if_neg (by simp [h0, h3])
  · rw [hupart]
    refine ⟨observed_highest hclaim, rfl, rfl, rfl, rfl, fun h0 h3 => ?_, (congrArg Prod.fst hbesides :), fun q hq => besides_part hbesides hq⟩
    simp [Claim.observed, Claim.beaten, h0, h3]

/-- CLAIM 0 or PULLED at a STANDBY that is no replay (13 R363, R364). -/
theorem execHeartbeatReceive_raises (hclaim : h.claim < 2 ^ 32) (hgone : h.claim = 0 ∨ bitOf h.bflags 3 = true)
    (hl : (s.part p).claim.leader = false) (hs : (s.part p).claim.role = .standby) (hr : (s.part p).replay = false)
    (hv : max (s.part p).claim.highest.toNat h.claim + 1 < 0xFFFFFFFF) :
    ∃ u, execHeartbeatReceive h s = .next u ∧ (u.part p).claim.claim.toNat = max (s.part p).claim.highest.toNat h.claim + 1 ∧
      (u.part p).claim.role = .holder ∧ (u.part p).claim.leader = true ∧ u.mem = s.mem ∧ (∀ q, q ≠ p → u.part q = s.part q) := by
  have hobserve := beat_observed (s := s) (p := p) (h := h) fun hlead => absurd (hlead.symm.trans hl) (by decide)
  have hbesides := beatObserved_besides (s := s) (p := p) (h := h)
  have hupart := beatObserved_part (s := s) (p := p) (h := h)
  generalize beatObserved s p h = u at hobserve hbesides hupart
  have hhigh : (u.part p).claim.highest.toNat = max (s.part p).claim.highest.toNat h.claim := by
    rw [hupart]
    exact observed_highest hclaim
  obtain ⟨hnum, hrole, hleader⟩ := loseHolder_standby (s := u) (p := p) (by rw [hupart]; exact hs) (by rw [hupart]; exact hr) (by rw [hhigh]; exact hv)
  have hlose := loseHolder_besides (s := u) (p := p)
  refine ⟨loseHolder u p, ?_, hnum.trans (by rw [hhigh]), hrole, hleader, (congrArg Prod.fst (hlose.trans hbesides) :),
    fun q hq => besides_part (hlose.trans hbesides) hq⟩
  refine (execHeartbeatReceive_partner hoff htest hc hcab hp hobserve).trans (congrArg _ ((if_pos ?_).trans (if_neg ?_)))
  · obtain hgone | hgone := hgone <;> simp [hgone]
  · rw [hupart]
    exact Bool.eq_false_iff.mp hl

/-- A record that outranks a leader (13 R366). -/
theorem execHeartbeatReceive_demotes (h0 : h.claim ≠ 0) (h3 : bitOf h.bflags 3 = false) (hl : (s.part p).claim.leader = true)
    (ho : outranks h.claim h.place (s.part p).claim.claim.toNat s.place = true) :
    ∃ u, execHeartbeatReceive h s = .next u ∧ (u.part p).claim.claim = 0 ∧ (u.part p).claim.role = .gloryHole ∧ (u.part p).claim.leader = false ∧
      (u.part p).claim.wanted = true ∧ (u.part p).claim.demotions = satAdd 8 (s.part p).claim.demotions 1 ∧
      (u.part p).inflight = [] ∧ (u.part p).emits = [] ∧ u.mem = s.mem ∧ (∀ q, q ≠ p → u.part q = s.part q) := by
  have hobserve : observe (beatNoted s p h) p h.claim h.place = demote (beatObserved s p h) p h.claim h.place :=
    observe_demotes (by rw [beatNoted_part]; exact hl) (by rw [beatNoted_part]; exact ho)
  have hbesides := beatObserved_besides (s := s) (p := p) (h := h)
  have hupart := beatObserved_part (s := s) (p := p) (h := h)
  generalize beatObserved s p h = v at hobserve hbesides hupart
  have htold := demote_told (s := v) (p := p) h.claim h.place
  have hdemote := (demote_besides (s := v) (p := p) h.claim h.place).trans hbesides
  rw [hupart] at htold
  generalize demote v p h.claim h.place = u at hobserve htold hdemote
  refine ⟨u, ?_, ?_⟩
  · exact (execHeartbeatReceive_partner hoff htest hc hcab hp hobserve).trans (congrArg _ (if_neg (by simp [h0, h3])))
  · have hclaim := (congrArg Part.claim htold :)
    exact ⟨(congrArg Claim.claim hclaim :), (congrArg Claim.role hclaim :), (congrArg Claim.leader hclaim :), (congrArg Claim.wanted hclaim :),
      (congrArg Claim.demotions hclaim :), (congrArg Part.inflight htold :), (congrArg Part.emits htold :), (congrArg Prod.fst hdemote :),
      fun q hq => besides_part hdemote hq⟩

end

end

/-! ### The holder lost, and entries unmatched -/

/-- HOLDER_LOST of a paired partition that has had a heartbeat and not lost its partner. -/
theorem execHolderLost_loses {b : Ns} (hp : (s.part p).claim.paired = true) (hb : (s.part p).claim.lastBeat = some b)
    (hl : (s.part p).claim.lost = false) {v : State} (hv : s.reach (b + detectTime (s.part p).claim) = v) :
    execHolderLost p s = .next (loseHolder v p) ∧ (loseHolder v p).now = max s.now (b + detectTime (s.part p).claim) ∧
    (loseHolder v p).mem = s.mem ∧ v.part p = s.part p := by
  have hkept := loseHolder_besides (s := v) (p := p)
  refine ⟨?_, ?_, ?_, by rw [← hv]; rfl⟩
  · unfold execHolderLost
    dsimp only
    rw [hb]
    dsimp only
    rw [if_pos (by simp [hp, hl]), hv]
  · rw [show (loseHolder v p).now = v.now from (congrArg (fun w => w.2.1) hkept :), ← hv]
    rfl
  · rw [show (loseHolder v p).mem = v.mem from (congrArg Prod.fst hkept :), ← hv]
    rfl

theorem execHolderLost_none (h : (s.part p).claim.paired = false ∨ (s.part p).claim.lost = true ∨ (s.part p).claim.lastBeat = none) :
    execHolderLost p s = .next s := by
  unfold execHolderLost
  dsimp only
  split
  next b hb =>
    refine if_neg fun hc => ?_
    obtain h | h | h := h
    · simp [h] at hc
    · simp [h] at hc
    · simp [h] at hb
  · rfl

theorem follows_iff (x : Part) : follows x = true ↔ x.claim.paired = true ∧ x.claim.leader = false := by simp [follows]

/-- A member that leaves STANDBY for GLORY_HOLE at an instant, asking for a snapshot. -/
theorem startReentry_reached (n : Ns) :
    (startReentry (s.reach n) p).now = max s.now n ∧ ((startReentry (s.reach n) p).part p).claim.role = .gloryHole ∧
    ((startReentry (s.reach n) p).part p).claim.claim = 0 ∧ ((startReentry (s.reach n) p).part p).claim.wanted = true ∧
    (startReentry (s.reach n) p).mem = s.mem := by
  have htold := startReentry_told (s := s.reach n) (p := p)
  have hkept := startReentry_besides (s := s.reach n) (p := p)
  generalize startReentry (s.reach n) p = u at htold hkept
  have hclaim := (congrArg Part.claim htold :)
  exact ⟨(congrArg (fun w => w.2.1) hkept :), (congrArg Claim.role hclaim :), (congrArg Claim.claim hclaim :), (congrArg Claim.wanted hclaim :),
    (congrArg Prod.fst hkept :)⟩

theorem execFollowerUnmatched_none
    (h : (s.part p).claim.paired = false ∨ (s.part p).claim.leader = true ∨ (s.part p).claim.unmatched = [] ∧ (s.part p).claim.waitPart = none) :
    execFollowerUnmatched p s = .next s := by
  unfold execFollowerUnmatched
  dsimp only
  obtain h | h | ⟨hu, hw⟩ := h
  · exact if_pos (by simp [follows, h])
  · exact if_pos (by simp [follows, h])
  · rw [hu, hw]
    exact ite_self _

section
variable (hf : follows (s.part p) = true) (hr : (s.part p).claim.role = .standby)
include hf hr

/-- An entry unmatched for FE_TIMEOUT (13 R360). -/
theorem execFollowerUnmatched_entry {e : JEntry × Ns} {us : List (JEntry × Ns)} (hu : (s.part p).claim.unmatched = e :: us) :
    execFollowerUnmatched p s = .next (startReentry (s.reach (e.2 + 1000 * s.csi.timeout)) p) := by
  unfold execFollowerUnmatched
  dsimp only
  rw [if_neg (by simp [hf]), hu, Nat.mul_comm]
  exact congrArg _ (if_pos hr)

/-- A wait of DETECT for a part. -/
theorem execFollowerUnmatched_part {b : Ns} (hu : (s.part p).claim.unmatched = []) (hw : (s.part p).claim.waitPart = some b)
    (hl : (s.part p).claim.lost = false) :
    execFollowerUnmatched p s = .next (startReentry (s.reach (b + detectTime (s.part p).claim)) p) := by
  unfold execFollowerUnmatched
  dsimp only
  rw [if_neg (by simp [hf]), hu, hw]
  exact if_pos (by simp [hr, hl])

end

end

/-- Settles O50: each row by its own lemma; a member of GLORY_HOLE without an open re-entry holds its partition (log entry 115), a row brings
the time to its deadline (log entry 10), a row without an occasion changes nothing (log entry 26). -/
theorem claimLanesAct : Obligations.ClaimLanesAct := by
  unfold Obligations.ClaimLanesAct
  intro s p
  unfold exec
  refine ⟨fun h => if_neg (by simp [h]), execHeartbeatTimer_silent, execHeartbeatTimer_sends, fun h => execHeartbeatReceive_silent, ?receive,
    execHolderLost_none, ?lost, execFollowerUnmatched_none, ?unmatched, rfl, rfl⟩
  case receive =>
    exact fun h hoff htest => ⟨execHeartbeatReceive_damaged hoff htest, execHeartbeatReceive_stranger hoff htest, fun hc hcab hp hclaim =>
      ⟨execHeartbeatReceive_notes hoff htest hc hcab hp hclaim, execHeartbeatReceive_raises hoff htest hc hcab hp hclaim,
        execHeartbeatReceive_demotes hoff htest hc hcab hp⟩⟩
  case lost =>
    intro b hp hb hl
    generalize hv : s.reach (b + detectTime (s.part p).claim) = v
    obtain ⟨hrun, hnow, hmem, hpart⟩ := execHolderLost_loses hp hb hl hv
    refine ⟨fun hs hr hhigh => ?_, fun hs => ?_, fun hs hlead hw => ?_, fun hs hw => ?_⟩
    · rw [← hpart] at hs hr hhigh ⊢
      obtain ⟨hnum, hrole, hleader⟩ := loseHolder_standby hs hr hhigh
      exact ⟨_, hrun, by rw [hnow, hpart], hleader, hrole, hnum, hmem⟩
    · have hnotes := loseHolder_notes (s := v) (p := p) (by rw [hpart, hs]; decide) (by rw [hpart]; simp [reentryOpen, hs])
      refine ⟨_, hrun, hnow, ?_, ?_, hmem⟩
      · rw [hnotes, State.modPart_part]
      · rw [hnotes, State.modPart_part, ← hpart]
    · have hreentry := loseHolder_reentry (s := v) (p := p) (by rw [hpart]; simp [reentryOpen, hs, hlead, hw]) (by rw [hpart]; exact hl)
      have htold := reentryFail_told (s := v.modClaim p (fun c => { c with lost := true })) (p := p) 3
      rw [← hreentry, State.modClaim_part, hpart] at htold
      have hclaim := (congrArg Part.claim htold :)
      refine ⟨_, hrun, (congrArg Claim.lost hclaim :), ?_, (congrArg Claim.tries hclaim :), (congrArg Claim.claim hclaim :), hmem⟩
      refine (congrArg Claim.wanted hclaim :).trans ?_
      show ((s.part p).claim.wanted && decide (min 3 ((s.part p).claim.tries + 1) < 3)) = decide ((s.part p).claim.tries < 2)
      rw [hw, Bool.true_and]
      exact decide_eq_decide.mpr (by omega)
    · have hnotes := loseHolder_notes (s := v) (p := p) (by rw [hpart, hs]; decide) (by rw [hpart]; simp [reentryOpen, hw])
      refine ⟨_, hrun, ?_, fun hrunning hrel => ?_, hmem⟩
      · rw [hnotes, State.modPart_part]
      · rw [hnotes, State.modPart_part, hpart]
        exact if_pos (by simp [hs, hrunning, hrel])
  case unmatched =>
    intro hp hl hr
    have hf : follows (s.part p) = true := (follows_iff _).mpr ⟨hp, hl⟩
    exact ⟨fun e us hu => ⟨_, execFollowerUnmatched_entry hf hr hu, startReentry_reached _⟩,
      fun b hu hw hlost => ⟨_, execFollowerUnmatched_part hf hr hu hw hlost, startReentry_reached _⟩⟩

end Sys2Proof.Machine

namespace Sys2Proof.Machine

/-! ## Restarts end the sessions -/

section
variable {s : State} {x : I3cId}

/-- Which ports hold a live session. -/
def State.lives (s : State) : I3cId → Bool := fun x => (s.port x).session.live

theorem setPort_lives {q : I3cPort} (h : q.session.live = (s.port x).session.live) : (s.setPort x q).lives = s.lives := by
  funext y
  unfold State.lives
  by_cases hxy : x = y
  · subst hxy
    rw [State.setPort_port, h]
  · rw [State.setPort_port_ne _ _ _ _ hxy]

theorem modPort_lives {f : I3cPort → I3cPort} (h : ∀ q, (f q).session.live = q.session.live) : (s.modPort x f).lives = s.lives :=
  setPort_lives (h _)

theorem event_lives (unitNo code part : Nat) (data : Bytes) : (s.event unitNo code part data).lives = s.lives := by
  unfold State.event
  dsimp only
  split
  · rfl
  split
  · exact forI3c_view State.lives fun x u => modPort_lives fun _ => rfl
  · rfl

theorem answer_lives (t : Taken) (status : Nat) (tail : Bytes) : (answer s t status tail).lives = s.lives := by
  unfold answer
  extract_lets q r l mine n u
  have hu : u.lives = s.lives := setPort_lives rfl
  clear_value u
  split <;> exact hu

theorem admitMsg_lives (bulk : Bool) (m : Msg) : (admitMsg s x bulk m).lives = s.lives := by
  unfold admitMsg
  dsimp only
  split
  · unfold enterOrder
    dsimp only
    split
    · rfl
    split
    · exact answer_lives ..
    · rfl
  split
  · have h : (tallyRate s x).2.lives = s.lives := by
      unfold tallyRate
      dsimp only
      split
      · exact modPort_lives fun _ => rfl
      · exact modPort_lives fun _ => rfl
    generalize tallyRate s x = r at h
    match r with
    | (true, u) => exact h
    | (false, u) => exact (answer_lives ..).trans h
  · rfl

/-- A port without a session takes a post and has none. -/
theorem takePost_lives (h : s.lives x = false) (bulk : Bool) : (takePost s x bulk).lives = s.lives := by
  have hexpire : expireSession s x = s := if_neg (by simp [show (s.port x).session.live = false from h])
  unfold takePost
  rw [hexpire]
  extract_lets u q raw m last session q' repeated e v
  have hq : q'.session.live = (s.port x).session.live := by
    show (if q.session.live then { q.session with renewed := s.stamp } else q.session).live = q.session.live
    split <;> rfl
  have hset : ∀ r : I3cPort, r.session = q'.session → (s.setPort x r).lives = s.lives := fun r hr => setPort_lives (by rw [hr, hq])
  clear_value q' last
  split
  · cases last with
    | none => rfl
    | some e =>
      dsimp only
      split
      · exact hset _ rfl
      · exact hset _ rfl
  · have hv : v.lives = s.lives := hset _ rfl
    clear_value v
    split
    · refine (answer_lives ..).trans ?_
      split
      · exact Eq.trans (modPort_lives (by intro; rfl)) hv
      · exact hv
    · exact (admitMsg_lives ..).trans hv

theorem takeWaiting_lives (h : s.lives x = false) : (takeWaiting s x).lives = s.lives := by
  unfold takeWaiting
  have hu : (if (s.port x).cmdFull && mayTake s x then takePost s x false else s).lives = s.lives := by
    split
    · exact takePost_lives h false
    · rfl
  generalize (if (s.port x).cmdFull && mayTake s x then takePost s x false else s) = u at hu
  dsimp only
  split
  · exact (takePost_lives ((congrFun hu x).trans h) true).trans hu
  · exact hu

theorem retakePosts_lives (h : ∀ y, s.lives y = false) : (retakePosts s).lives = s.lives := by
  have h0 := takeWaiting_lives (h 0)
  unfold retakePosts forI3c
  exact (takeWaiting_lives ((congrFun h0 1).trans (h 1))).trans h0

theorem endSession_live (kind : Nat) (y : I3cId) : (endSession s x kind).lives y = (if x = y then false else s.lives y) := by
  have hend : (endSession s x kind).lives =
      (s.modPort x (fun q => { q with session := { q.session with live := false, clean := kind == 0 } })).lives := by
    unfold endSession
    dsimp only
    refine (event_lives ..).trans ?_
    split
    · exact event_lives ..
    · rfl
  rw [hend]
  unfold State.lives
  split
  next h => rw [← h, State.modPort_port]
  next h => rw [State.modPort_port_ne _ _ _ _ h]

/-- A restart ends both sessions (16 R449). -/
theorem restartBase_lives (y : I3cId) : (restartBase s).lives y = false := by
  have hturn : ∀ (x y : I3cId) (t : State), (if (t.port x).session.live then endSession t x 3 else t).lives y = (if x = y then false else t.lives y) := by
    intro x y t
    split
    · exact endSession_live 3 y
    next h =>
      split
      next hxy => exact hxy ▸ Bool.eq_false_iff.mpr h
      · rfl
  show (forI3c (fun x t => if (t.port x).session.live then endSession t x 3 else t) (restartCore s)).lives y = false
  unfold forI3c
  rw [hturn, hturn]
  match y with
  | 0 => rfl
  | 1 => rfl

theorem restartRom_lives (y : I3cId) : (restartRom s).lives y = false := by
  have h := restartBase_lives (s := s)
  unfold restartRom
  dsimp only
  generalize restartBase s = t at h ⊢
  exact (congrFun (retakePosts_lives (s := (t.modFw fun f => { f with startStep := 2 }).modSecurity _) h) y).trans (h y)

/-- A restart leaves no partition anything. -/
theorem restartBase_parts : (restartBase s).parts = State.reset.parts := (congrArg State.parts (restartBase_offMail (s := s)) :)

theorem restartRom_parts : (restartRom s).parts = State.reset.parts := by
  have h := restartRom_offMail (s := s)
  have hb := restartBase_parts (s := s)
  generalize restartRom s = u at h ⊢
  generalize restartBase s = t at h hb
  exact (congrArg State.parts h :).trans hb

end

end Sys2Proof.Machine

namespace Sys2Proof.Machine

/-! ## Security orders (O51) -/

section
variable {s w : State} {p q : PartId} {t : Taken} {rest : List Taken}

theorem answer_part (status : Nat) (tail : Bytes) : (answer s t status tail).part p = s.part p := by simp [State.part]

/-! ### Key release -/

/-- A release that fails for a cause, before its answer (15 R421). -/
def releaseRejected (w : State) (t : Taken) (c : Nat) : State :=
  (w.modSecurity (fun v => { v with rejects := satAdd 8 v.rejects 1 })).event srcSecurity 0x0502 0xFF (leBytes 1 c ++ leBytes 1 (t.field 1 1))

/-- A key installed, before its answer (15 R422). -/
def releaseInstalled (w : State) (t : Taken) (plain : Bytes) : State :=
  (w.modKeys (t.part 0) (fun k => { installKey k (t.field 1 1) (t.field 2 2) (t.field 4 4) plain with
    applied := (padTo 32 (slice t.msg.body 8 32), t.field 1 1, t.field 2 2, t.field 4 4) :: k.applied })).modSecurity
      (fun v => { v with releases := satAdd 8 v.releases 1 })

theorem execSecKeyRelease_rejects {bad : Bool} {c : Nat} (h : firstDue s 0x40 t rest) (hw : readVault (s.withDue rest) bad = w)
    (hc : releaseTest w t = .error c) :
    execSecKeyRelease bad s = .next (answer (releaseRejected w t c) t 0x10 (zeros 3 ++ leBytes 1 c)) := by
  refine (onDue_first h rfl).trans (congrArg _ ?_)
  dsimp only
  rw [hw, hc]
  rfl

theorem execSecKeyRelease_installs {plain : Bytes} (h : firstDue s 0x40 t rest) (hc : releaseTest (s.withDue rest) t = .ok plain) :
    execSecKeyRelease false s = .next (answer (releaseInstalled (s.withDue rest) t plain) t 0x00 (zeros 4)) := by
  refine (onDue_first h rfl).trans (congrArg _ ?_)
  show (match releaseTest (s.withDue rest) t with | .ok plain => _ | .error c => _) = _
  rw [hc]
  rfl

/-- What a rejected release leaves. -/
theorem releaseRejected_leaves (c : Nat) : (releaseRejected w t c).parts = w.parts ∧ (releaseRejected w t c).mem = w.mem ∧
    (releaseRejected w t c).security = { w.security with rejects := satAdd 8 w.security.rejects 1 } := by
  unfold releaseRejected
  rw [State.event_parts, State.event_mem, State.event_security]
  exact ⟨rfl, rfl, rfl⟩

/-- A release that fails with the vault readable changes no partition and is counted. -/
theorem execSecKeyRelease_refused {c : Nat} (h : firstDue s 0x40 t rest) (hc : releaseTest (s.withDue rest) t = .error c) :
    ∃ u v, execSecKeyRelease false s = .next u ∧ u = answer v t 0x10 (zeros 3 ++ leBytes 1 c) ∧ u.parts = s.parts ∧
      u.security.rejects = satAdd 8 s.security.rejects 1 ∧ u.mem = s.mem := by
  obtain ⟨hparts, hmem, hsec⟩ := releaseRejected_leaves (w := s.withDue rest) (t := t) c
  refine ⟨_, _, execSecKeyRelease_rejects (w := s.withDue rest) h rfl hc, rfl, ?_, ?_, ?_⟩
  · rw [answer_parts, hparts]
    rfl
  · rw [answer_security, hsec]
    rfl
  · rw [answer_mem, hmem]
    rfl

theorem releaseTest_noImage (h : holdsImage (w.part (t.part 0)) = false) : releaseTest w t = .error 3 := if_pos (by simp [h])

section
variable (hi : holdsImage (w.part (t.part 0)) = true)
include hi

theorem releaseTest_noNonce (h : ∀ e ∈ (w.part (t.part 0)).keys.ephemeral, e.nonce ≠ padTo 32 (slice t.msg.body 8 32)) :
    releaseTest w t = .error 1 := by
  have hnone : (w.part (t.part 0)).keys.ephemeral.find? (fun e => e.nonce == padTo 32 (slice t.msg.body 8 32)) = none :=
    List.find?_eq_none.mpr fun e he => by simpa using h e he
  unfold releaseTest
  dsimp only
  rw [if_neg (by simp [hi]), hnone]

variable {e : Ephemeral} (he : (w.part (t.part 0)).keys.ephemeral.find? (fun e => e.nonce == padTo 32 (slice t.msg.body 8 32)) = some e)
include he

theorem releaseTest_closed (h : unwrap w t e = none) : releaseTest w t = .error 2 := by
  unfold releaseTest
  dsimp only
  rw [if_neg (by simp [hi]), he]
  dsimp only
  rw [h]

theorem releaseTest_passes {plain : Bytes} (h : unwrap w t e = some plain)
    (hgen : t.field 1 1 ≠ 1 → ∀ n, highestGen (w.part (t.part 0)).keys (t.field 1 1) (t.field 2 2) = some n → n < t.field 4 4)
    (hnew : (w.part (t.part 0)).keys.applied.contains (e.nonce, t.field 1 1, t.field 2 2, t.field 4 4) = false)
    (hstream : t.field 1 1 = 2 → (rxDecl (w.part (t.part 0)) (t.field 2 2)).isSome = true) (htamper : w.security.extTamper = false) :
    releaseTest w t = .ok plain := by
  have hlow : ¬ (t.field 1 1 ≠ 1 && (match highestGen (w.part (t.part 0)).keys (t.field 1 1) (t.field 2 2) with
      | some h => decide (t.field 4 4 ≤ h) | none => false)) = true := by
    rw [Bool.and_eq_true, decide_eq_true_eq]
    rintro ⟨hkind, hle⟩
    split at hle
    next n hn => exact absurd (of_decide_eq_true hle) (Nat.not_le.mpr (hgen hkind n hn))
    next => exact Bool.false_ne_true hle
  have hdecl : ¬ (t.field 1 1 = 2 && (rxDecl (w.part (t.part 0)) (t.field 2 2)).isNone) = true := by
    rw [Bool.and_eq_true, decide_eq_true_eq]
    rintro ⟨hkind, hnone⟩
    have := hstream hkind
    simp [Option.isNone_iff_eq_none.mp hnone] at this
  unfold releaseTest
  dsimp only
  rw [if_neg (by simp [hi]), he]
  dsimp only
  rw [h]
  dsimp only
  refine (if_neg hlow).trans ?_
  rw [if_neg (Bool.eq_false_iff.mp hnew), if_neg hdecl, if_neg (by simp [htamper])]

end

/-- The keys of a partition after a release. -/
theorem releaseInstalled_keys {plain : Bytes} : ((releaseInstalled w t plain).part (t.part 0)).keys =
    { installKey (w.part (t.part 0)).keys (t.field 1 1) (t.field 2 2) (t.field 4 4) plain with
      applied := (padTo 32 (slice t.msg.body 8 32), t.field 1 1, t.field 2 2, t.field 4 4) :: (w.part (t.part 0)).keys.applied } := by
  unfold releaseInstalled
  rw [State.part, State.modSecurity_parts, ← State.part]
  unfold State.modKeys
  rw [State.modPart_part]

theorem installKey_model {k : PKeys} {stream gen : Nat} {plain : Bytes} :
    (installKey k 1 stream gen plain).model = some (plain.take 32) ∧ (installKey k 1 stream gen plain).store = k.store := ⟨rfl, rfl⟩

theorem installKey_stream {k : PKeys} {stream gen : Nat} {plain : Bytes} :
    (installKey k 2 stream gen plain).model = k.model ∧ (installKey k 2 stream gen plain).store = k.store ∧
    ∃ j ∈ (installKey k 2 stream gen plain).streams, j.stream = stream ∧ j.gen = gen ∧ j.key = plain.take 32 ∧ j.salt = plain.drop 32 := by
  refine ⟨rfl, rfl, { stream := stream, gen := gen, key := plain.take 32, salt := plain.drop 32, high := 0 }, ?_, rfl, rfl, rfl, rfl⟩
  show _ ∈ addStreamKey k.streams { stream := stream, gen := gen, key := plain.take 32, salt := plain.drop 32, high := 0 }
  unfold addStreamKey
  dsimp only
  split <;> exact List.mem_cons_self

theorem installKey_store {k : PKeys} {stream gen : Nat} {plain : Bytes} :
    (installKey k 3 stream gen plain).store = some (gen, plain.take 32) ∧ (installKey k 3 stream gen plain).storePrev = k.store := ⟨rfl, rfl⟩

/-- A release that passes changes of the partitions the keys of its own. -/
theorem releaseInstalled_besides {plain : Bytes} : (releaseInstalled w t plain).besides (t.part 0) = w.besides (t.part 0) :=
  Eq.trans (b := (w.modKeys (t.part 0) (fun k => { installKey k (t.field 1 1) (t.field 2 2) (t.field 4 4) plain with
    applied := (padTo 32 (slice t.msg.body 8 32), t.field 1 1, t.field 2 2, t.field 4 4) :: k.applied })).besides (t.part 0)) rfl
    (modPart_besides (s := w) _)

/-- A release that installs its key (15 R422). -/
theorem execSecKeyRelease_done {plain : Bytes} (h : firstDue s 0x40 t rest) (hp : t.part 0 = p) (hc : releaseTest (s.withDue rest) t = .ok plain) :
    ∃ u v, execSecKeyRelease false s = .next u ∧ u = answer v t 0x00 (zeros 4) ∧ u.security.releases = satAdd 8 s.security.releases 1 ∧ u.mem = s.mem ∧
      (t.field 1 1 = 1 → (u.part p).keys.model = some (plain.take 32) ∧ (u.part p).keys.store = (s.part p).keys.store) ∧
      (t.field 1 1 = 2 → (u.part p).keys.model = (s.part p).keys.model ∧ (u.part p).keys.store = (s.part p).keys.store ∧
        ∃ k ∈ (u.part p).keys.streams, k.stream = t.field 2 2 ∧ k.gen = t.field 4 4 ∧ k.key = plain.take 32 ∧ k.salt = plain.drop 32) ∧
      (t.field 1 1 = 3 → (u.part p).keys.store = some (t.field 4 4, plain.take 32) ∧ (u.part p).keys.storePrev = (s.part p).keys.store) ∧
      (∀ q, q ≠ p → u.part q = s.part q) := by
  subst hp
  have hkeys := releaseInstalled_keys (w := s.withDue rest) (t := t) (plain := plain)
  have hbesides := releaseInstalled_besides (w := s.withDue rest) (t := t) (plain := plain)
  have hsec : (releaseInstalled (s.withDue rest) t plain).security.releases = satAdd 8 s.security.releases 1 := rfl
  refine ⟨_, _, execSecKeyRelease_installs h hc, rfl, ?_⟩
  generalize releaseInstalled (s.withDue rest) t plain = v at hkeys hbesides hsec
  rw [answer_security, answer_mem, answer_part, hkeys]
  refine ⟨hsec, (congrArg Prod.fst hbesides :), fun hk => ?_, fun hk => ?_, fun hk => ?_, fun q hq => ?_⟩
  · rw [hk]
    exact installKey_model (stream := t.field 2 2) (gen := t.field 4 4)
  · rw [hk]
    exact installKey_stream
  · rw [hk]
    exact installKey_store (stream := t.field 2 2)
  · rw [answer_part]
    exact besides_part hbesides hq

/-- A release that meets an uncorrectable vault word (15 R415, R421). -/
theorem execSecKeyRelease_wipes (h : firstDue s 0x40 t rest) :
    ∃ u v, execSecKeyRelease true s = .next u ∧ u = answer v t 0x10 (zeros 3 ++ leBytes 1 3) ∧ u.security.wipes = satAdd 8 s.security.wipes 1 ∧
      (∀ q, holdsImage (u.part q) = false ∧ (u.part q).keys.model = none) := by
  obtain ⟨-, -, hsec⟩ := wipeVault_vault (s := s.withDue rest) 2
  have hpart := wipeVault_part (s := s.withDue rest) 2
  generalize hw : wipeVault (s.withDue rest) 2 = w at hsec hpart
  have hgone : ∀ q, holdsImage (w.part q) = false ∧ (w.part q).keys.model = none := fun q => by
    obtain ⟨-, hmodel, -, -, -, hholds⟩ := hpart q
    exact ⟨hholds, hmodel⟩
  obtain ⟨rparts, -, rsec⟩ := releaseRejected_leaves (w := w) (t := t) 3
  refine ⟨_, _, execSecKeyRelease_rejects h hw (releaseTest_noImage (hgone _).1), rfl, ?_, fun q => ?_⟩
  · rw [answer_security, rsec, hsec]
    rfl
  · rw [answer_part, State.part, rparts, ← State.part]
    exact hgone q

/-! ### Intake -/

theorem execSecIntake_refused {st : Nat} (h : firstDue s 0x41 t rest) (hp : t.part 0 = p) (hi : intakeOf (s.part p) t = .error st) :
    execSecIntake s = .next (answerBare (s.withDue rest) t st) := by
  subst hp
  refine (onDue_first h rfl).trans (congrArg _ ?_)
  show (match intakeOf (s.part (t.part 0)) t with | .ok i => _ | .error st => _) = _
  rw [hi]

/-- The observers of the intake banks change no memory and no partition. -/
theorem observeIntake_view (i : Intake) : ((observeIntake s p i).mem, (observeIntake s p i).parts) = (s.mem, s.parts) := by
  unfold observeIntake
  split
  · rfl
  · refine foldl_view s (fun u => (u.mem, u.parts)) (fun u lc => ?_) _
    refine foldl_view u (fun u => (u.mem, u.parts)) (fun v b => ?_) _
    split <;> rfl

/-- An intake that starts (15 R426). -/
theorem execSecIntake_starts {i : Intake} (h : firstDue s 0x41 t rest) (hp : t.part 0 = p) (hi : intakeOf (s.part p) t = .ok i) :
    ∃ u v, execSecIntake s = .next u ∧ u = answerBare v t 0x00 ∧ (u.part p).keys.intake = some i ∧ (u.part p).keys.result = 1 ∧ u.mem = s.mem ∧
      (∀ q, q ≠ p → u.part q = s.part q) := by
  subst hp
  have hkeys : (((s.withDue rest).modKeys (t.part 0) (fun k => { k with intake := some i, result := 1 })).part (t.part 0)).keys =
      { (s.part (t.part 0)).keys with intake := some i, result := 1 } := by
    unfold State.modKeys
    rw [State.modPart_part]
    rfl
  have hbesides : ((s.withDue rest).modKeys (t.part 0) (fun k => { k with intake := some i, result := 1 })).besides (t.part 0) =
      s.besides (t.part 0) := modPart_besides (s := s.withDue rest) _
  have hrun : execSecIntake s = .next (answerBare (observeIntake ((s.withDue rest).modKeys (t.part 0) (fun k => { k with intake := some i, result := 1 }))
      (t.part 0) i) t 0x00) := by
    refine (onDue_first h rfl).trans (congrArg _ ?_)
    show (match intakeOf (s.part (t.part 0)) t with | .ok i => _ | .error st => _) = _
    rw [hi]
  have hview := observeIntake_view (s := (s.withDue rest).modKeys (t.part 0) (fun k => { k with intake := some i, result := 1 })) (p := t.part 0) i
  generalize (s.withDue rest).modKeys (t.part 0) (fun k => { k with intake := some i, result := 1 }) = a at hkeys hbesides hrun hview
  generalize observeIntake a (t.part 0) i = v at hrun hview
  obtain ⟨hmem, hparts⟩ := Prod.mk.inj hview
  have hpart : ∀ q, v.part q = a.part q := fun q => by rw [State.part, hparts]; rfl
  refine ⟨_, _, hrun, rfl, ?_, ?_, ?_, fun q hq => ?_⟩
  · rw [answerBare_part, hpart, hkeys]
  · rw [answerBare_part, hpart, hkeys]
  · rw [answerBare_mem, hmem]
    exact (congrArg Prod.fst hbesides :)
  · rw [answerBare_part, hpart]
    exact besides_part hbesides hq

section
variable {x : Part} {img : Image}

theorem intakeOf_noKey (h : x.image = none ∨ x.keys.model = none) : intakeOf x t = .error 0x10 := by
  unfold intakeOf
  split
  · rfl
  next img hi =>
    obtain h | h := h
    · simp [h] at hi
    · exact if_pos (by simp [h])

/-- An intake of weight chunks, once the partition has its image and its model key. -/
theorem intakeOf_chunks (hi : x.image = some img) (hm : x.keys.model.isSome = true) (hk : t.field 1 1 = 1) :
    intakeOf x t = (if x.state ≠ .loaded then .error 0x10
      else if x.keys.intake.isSome then .error 0x01
      else if t.field 8 4 = 0 || img.chunks.length < t.field 4 4 + t.field 8 4 then .error 0x04
      else .ok { target := t.field 1 1, next := t.field 4 4, stop := t.field 4 4 + t.field 8 4, length := 0, ident := 0, version := 0, slot := 0,
                 region := (t.field 24 2, t.field 26 2, t.field 32 8), body := [] }) := by
  unfold intakeOf
  rw [hi]
  dsimp only
  rw [if_neg (by simpa using Option.isSome_iff_ne_none.mp hm), if_pos hk]

/-- An intake of an adapter, once the partition has its image and its model key. -/
theorem intakeOf_adapter (hi : x.image = some img) (hm : x.keys.model.isSome = true) (hk : t.field 1 1 ≠ 1) :
    intakeOf x t = (match awaitingSlot x (t.field 2 2) (t.field 16 8) with
      | none => .error 0x10
      | some n =>
        if x.state ≠ .armed && x.state ≠ .running then .error 0x10
        else if x.keys.intake.isSome then .error 0x01
        else if t.field 12 4 = 0 || img.adapterSize < t.field 12 4 || 256 * 1048576 < t.field 12 4 then .error 0x04
        else .ok { target := t.field 1 1, next := 0, stop := ceilDiv (t.field 12 4) 1048576, length := t.field 12 4, ident := t.field 2 2,
                   version := t.field 16 8, slot := n, region := (t.field 24 2, t.field 26 2, t.field 32 8), body := [] }) := by
  unfold intakeOf
  rw [hi]
  dsimp only
  rw [if_neg (by simpa using Option.isSome_iff_ne_none.mp hm), if_neg hk] <;> rfl

end

/-! ### Rotation -/

section
variable {ks : List ClusterId} {key : BitVec 512}

/-- One cluster's turn in a rotation (05 R148). -/
def advanceCluster (key : BitVec 512) (s : State) (k : ClusterId) : State :=
  s.modCluster k (fun c => { c with prev := c.key, key := some key, sweep := some 0, halfDone := false })

/-- The turns of a rotation. -/
def advanceAll (key : BitVec 512) (ks : List ClusterId) (s : State) : State := ks.foldl (advanceCluster key) s

theorem advanceAll_view : ((advanceAll key ks s).mem, (advanceAll key ks s).parts) = (s.mem, s.parts) :=
  foldl_view (f := advanceCluster key) s (fun u => (u.mem, u.parts)) (fun _ _ => rfl) _

theorem advanceAll_cluster (hn : ks.Nodup) (j : ClusterId) : (advanceAll key ks s).cluster j =
    if j ∈ ks then { s.cluster j with prev := (s.cluster j).key, key := some key, sweep := some 0, halfDone := false } else s.cluster j :=
  foldl_each (F := fun k s => advanceCluster key s k) (get := State.cluster)
    (g := fun _ c => { c with prev := c.key, key := some key, sweep := some 0, halfDone := false })
    (fun k u => State.modCluster_cluster u k _) (fun k j u h => State.modCluster_cluster_ne u k j _ h) ks s j hn

theorem advanceKeys_eq : advanceKeys s p = (advanceAll (newMemoryKey s).1 ((newMemoryKey s).2.part p).clusters (newMemoryKey s).2).modPart p
    (fun x => { x with rotateWanted := none, keys := { x.keys with memGen := (x.keys.memGen + 1) % 2 ^ 32 } }) := rfl

/-- A rotation of a partition that runs no step (15 R430). -/
theorem advanceKeys_rotates (hn : (s.part p).clusters.Nodup) :
    ((advanceKeys s p).part p).keys.memGen = ((s.part p).keys.memGen + 1) % 2 ^ 32 ∧ (advanceKeys s p).mem = s.mem ∧
    (∃ key, ∀ k ∈ (s.part p).clusters, ((advanceKeys s p).cluster k).sweep = some 0 ∧ ((advanceKeys s p).cluster k).prev = (s.cluster k).key ∧
      ((advanceKeys s p).cluster k).key = some key) ∧
    (∀ k, k ∉ (s.part p).clusters → (advanceKeys s p).cluster k = s.cluster k) := by
  rw [advanceKeys_eq]
  have hdrawn : ((newMemoryKey s).2.parts, (newMemoryKey s).2.mem, (newMemoryKey s).2.clusters) = (s.parts, s.mem, s.clusters) := rfl
  generalize newMemoryKey s = r at hdrawn ⊢
  simp only [Prod.mk.injEq] at hdrawn
  obtain ⟨dparts, dmem, dclusters⟩ := hdrawn
  have dpart : r.2.part p = s.part p := by rw [State.part, dparts]; rfl
  have dcluster : ∀ k, r.2.cluster k = s.cluster k := fun k => by rw [State.cluster, dclusters]; rfl
  rw [dpart]
  have hview := advanceAll_view (key := r.1) (ks := (s.part p).clusters) (s := r.2)
  have hcluster := advanceAll_cluster (key := r.1) (s := r.2) hn
  generalize advanceAll r.1 (s.part p).clusters r.2 = a at hview hcluster ⊢
  obtain ⟨amem, aparts⟩ := Prod.mk.inj hview
  have apart : a.part p = s.part p := by rw [State.part, aparts, ← State.part, dpart]
  refine ⟨?_, amem.trans dmem, ⟨r.1, fun k hk => ?_⟩, fun k hk => ?_⟩
  · rw [State.modPart_part, apart]
  · have : a.cluster k = _ := (hcluster k).trans (if_pos hk)
    rw [dcluster] at this
    show (a.cluster k).sweep = _ ∧ (a.cluster k).prev = _ ∧ (a.cluster k).key = _
    rw [this]
    exact ⟨rfl, rfl, rfl⟩
  · exact ((hcluster k).trans (if_neg hk)).trans (dcluster k)

end

theorem execSecRotate_first (h : firstDue s 0x42 t rest) : execSecRotate s = .next (
    if !holdsImage (s.part (t.part 0)) then answerBare (s.withDue rest) t 0x10
    else if sweeping s (s.part (t.part 0)) then answerBare (s.withDue rest) t 0x01
    else if (s.part (t.part 0)).state = .running then answerBare ((s.withDue rest).modPart (t.part 0)
      (fun x => { x with rotateWanted := some (x.rotateWanted.getD s.stamp) })) t 0x00
    else answerBare (advanceKeys (s.withDue rest) (t.part 0)) t 0x00) :=
  onDue_first h rfl

/-! ### Returns -/

/-- The module RETURNED, and started into the boot ROM. -/
def restartReturned (v : State) : State := restartRom { v with fuses := { v.fuses with lifecycle := 3 } }

/-- ACTION 1 was ordered on the port of the order within the last 10 s. -/
def returnReady (s : State) (t : Taken) : Bool :=
  match s.security.returning with | some (p, at_) => p == t.port.val && s.now ≤ at_ + sec 10 | none => false

theorem execSecReturnConfirm_first (h : firstDue s 0x43 t rest) (ha : t.field 0 1 = 2) : execSecReturnConfirm s = .next (
    if !allFree s then answerBare (s.withDue rest) t 0x10
    else if t.field 8 8 ≠ s.fuses.serial then answerBare (s.withDue rest) t 0x04
    else if !returnReady s t then answerBare ((s.withDue rest).modSecurity (fun v => { v with returning := none })) t 0x10
    else restartReturned (wipeVault (answerBare (s.withDue rest) t 0x00) 0)) := by
  unfold execSecReturnConfirm
  rw [onDue_first (ok := fun m => m.field 0 1 == 2) h (beq_iff_eq.mpr ha)]
  generalize wipeVault (answerBare (s.withDue rest) t 0x00) 0 = v
  unfold restartReturned
  generalize restartRom { v with fuses := { v.fuses with lifecycle := 3 } } = w
  rfl

theorem returnReady_iff : returnReady s t = true ↔ ∃ n, s.security.returning = some (t.port.val, n) ∧ s.now ≤ n + 10000000000 := by
  unfold returnReady
  cases hr : s.security.returning with
  | none => simp
  | some e =>
    obtain ⟨x, n⟩ := e
    simp only [Bool.and_eq_true, beq_iff_eq, decide_eq_true_eq, Option.some.injEq, Prod.mk.injEq]
    exact ⟨fun ⟨hx, hn⟩ => ⟨n, ⟨hx, rfl⟩, hn⟩, fun ⟨m, ⟨hx, hm⟩, hn⟩ => ⟨hx, hm ▸ hn⟩⟩

/-- A return that is confirmed leaves the module RETURNED, in BOOT and with nothing in memory (15 R412). -/
theorem restartReturned_leaves (v : State) : (restartReturned v).fuses.lifecycle = 3 ∧ (restartReturned v).power.state = .boot ∧
    (restartReturned v).fw.startStep = 2 ∧ (restartReturned v).mem = Mem.init ∧
    (∀ q, ((restartReturned v).part q).image = none ∧ ((restartReturned v).part q).keys.model = none) ∧
    (∀ x, ((restartReturned v).port x).session.live = false) := by
  unfold restartReturned
  generalize hr : { v with fuses := { v.fuses with lifecycle := 3 } } = r
  have hlife : r.fuses.lifecycle = 3 := by rw [← hr]
  obtain ⟨hmem, hfuses, hboot, hstep, -⟩ := restartRom_waits (s := r)
  have hparts := restartRom_parts (s := r)
  have hlives := restartRom_lives (s := r)
  generalize restartRom r = u at hmem hfuses hboot hstep hparts hlives
  refine ⟨by rw [hfuses, hlife], hboot, hstep, hmem, fun q => ?_, hlives⟩
  have hq : u.part q = Part.init := by
    rw [State.part, hparts]
    exact Vector.getElem_replicate q.isLt
  rw [hq]
  exact ⟨rfl, rfl⟩

end

/-- Settles O51: each order by its own lemma; cause 3 is tested first (log entry 105), a wipe leaves no partition an image (log entry 99), the
statuses of an intake are log entry 106, the ends of a rotation and of a return are log entries 70, 100 and 109. -/
theorem securityOrdersAct : Obligations.SecurityOrdersAct := by
  unfold Obligations.SecurityOrdersAct
  intro s p
  unfold exec
  refine ⟨?release, ?intake, ?rotate, ?begins, ?confirm, fun h b => onDue_noneOfType h, onDue_noneOfType, onDue_noneOfType,
    fun h => ⟨onDue_noneOfType h, onDue_noneOfType h⟩⟩
  case release =>
    intro t rest h hp
    subst hp
    refine ⟨execSecKeyRelease_wipes h, fun hi => ?_, fun hi hno => ?_, fun e hi he => ⟨fun hclosed => ?_, fun plain hopen hgen hnew hstream htamper => ?_⟩⟩
    · exact execSecKeyRelease_refused h (releaseTest_noImage (w := s.withDue rest) hi)
    · exact execSecKeyRelease_refused h (releaseTest_noNonce (w := s.withDue rest) hi hno)
    · exact execSecKeyRelease_refused h (releaseTest_closed (w := s.withDue rest) hi he hclosed)
    · exact execSecKeyRelease_done h rfl (releaseTest_passes (w := s.withDue rest) hi he hopen hgen hnew hstream htamper)
  case intake =>
    intro t rest h hp
    refine ⟨fun hno => execSecIntake_refused h hp (intakeOf_noKey hno), fun img hi hm hk => ⟨fun hs => ?_, fun hs hin => ?_, fun hs hin hr => ?_,
      fun hs hin h0 hr => ?_⟩, fun hi hm hk hno => ?_, fun img n hi hm hk hslot hs => ?_⟩
    · exact execSecIntake_refused h hp ((intakeOf_chunks hi hm hk).trans (if_pos hs))
    · exact execSecIntake_refused h hp ((intakeOf_chunks hi hm hk).trans ((if_neg (not_not_intro hs)).trans (if_pos hin)))
    · refine execSecIntake_refused h hp ((intakeOf_chunks hi hm hk).trans ((if_neg (not_not_intro hs)).trans ((if_neg (by simp [hin])).trans (if_pos ?_))))
      simpa using hr
    · obtain ⟨u, v, hu, hv, hint, hres, hmem, hother⟩ := execSecIntake_starts h hp
        ((intakeOf_chunks hi hm hk).trans ((if_neg (not_not_intro hs)).trans ((if_neg (by simp [hin])).trans (if_neg (by simpa [h0] using hr)))))
      exact ⟨u, v, _, hu, hv, hint, hk, rfl, rfl, hres, hmem, hother⟩
    · obtain ⟨img, hi⟩ := Option.isSome_iff_exists.mp hi
      refine execSecIntake_refused h hp ((intakeOf_adapter hi hm hk).trans ?_)
      split
      · rfl
      next n hn =>
        refine if_pos ?_
        obtain hno | ⟨ha, hr⟩ := hno
        · simp [hno] at hn
        · simp [ha, hr]
    · have hmay : ¬ ((s.part p).state ≠ .armed && (s.part p).state ≠ .running) = true := by
        obtain hs | hs := hs <;> simp [hs]
      have hjob := intakeOf_adapter (t := t) hi hm hk
      rw [hslot] at hjob
      refine ⟨fun hin => execSecIntake_refused h hp (hjob.trans ((if_neg hmay).trans (if_pos hin))), fun hin hr => ?_, fun hin h0 hsize hmax htwo => ?_⟩
      · refine execSecIntake_refused h hp (hjob.trans ((if_neg hmay).trans ((if_neg (by simp [hin])).trans (if_pos ?_))))
        simpa [or_assoc] using hr
      · obtain ⟨u, v, hu, hv, hint, hres, hmem, hother⟩ := execSecIntake_starts h hp
          (hjob.trans ((if_neg hmay).trans ((if_neg (by simp [hin])).trans (if_neg (by simp [h0, hsize, hmax])))))
        exact ⟨u, v, _, hu, hv, hint, htwo, rfl, rfl, rfl, hres, hmem, hother⟩
  case rotate =>
    intro t rest h hp
    subst hp
    refine ⟨fun hi => ?_, fun hi hsweep => ?_, fun hi hsweep => ?_⟩
    · exact (execSecRotate_first h).trans (congrArg _ (if_pos (by simp [hi])))
    · refine (execSecRotate_first h).trans (congrArg _ ((if_neg (by simp [hi])).trans (if_pos ?_)))
      exact List.any_eq_true.mpr hsweep
    · have hquiet : ¬ sweeping s (s.part (t.part 0)) = true := by
        unfold sweeping
        rw [List.any_eq_true]
        rintro ⟨k, hk, hs⟩
        simp [hsweep k hk] at hs
      have hrun := (execSecRotate_first h).trans (congrArg _ ((if_neg (by simp [hi])).trans (if_neg hquiet)))
      refine ⟨fun hs => hrun.trans (congrArg _ (if_pos hs)), fun hs hn => ?_⟩
      obtain ⟨hgen, hmem, hkeys, hothers⟩ := advanceKeys_rotates (s := s.withDue rest) (p := t.part 0) hn
      refine ⟨_, _, hrun.trans (congrArg _ (if_neg hs)), rfl, ?_⟩
      generalize advanceKeys (s.withDue rest) (t.part 0) = v at hgen hmem hkeys hothers
      have hcluster : ∀ k, (answerBare v t 0x00).cluster k = v.cluster k := fun k => by
        rw [State.cluster, answerBare, answer_clusters]
        rfl
      rw [answerBare_part, answerBare_mem]
      refine ⟨hgen, hmem, ?_, fun k hk => (hcluster k).trans (hothers k hk)⟩
      obtain ⟨key, hkey⟩ := hkeys
      exact ⟨key, fun k hk => by rw [hcluster]; exact hkey k hk⟩
  case begins =>
    intro t rest h ha
    have hrun : execSecReturnBegin s = .next (if !allFree s then answerBare (s.withDue rest) t 0x10
        else answerBare ((s.withDue rest).modSecurity (fun v => { v with returning := some (t.port.val, s.now) })) t 0x00) :=
      onDue_first h (beq_iff_eq.mpr ha)
    exact ⟨fun hf => hrun.trans (congrArg _ (if_pos (by simp [hf]))), fun hf => hrun.trans (congrArg _ (if_neg (by simp [hf])))⟩
  case confirm =>
    intro t rest h ha
    have hrun := execSecReturnConfirm_first h ha
    refine ⟨fun hf => hrun.trans (congrArg _ (if_pos (by simp [hf]))),
      fun hf hserial => hrun.trans (congrArg _ ((if_neg (by simp [hf])).trans (if_pos hserial))), fun hf hserial hlate => ?_, fun n hf hserial hret hn => ?_⟩
    · refine hrun.trans (congrArg _ ((if_neg (by simp [hf])).trans ((if_neg (not_not_intro hserial)).trans (if_pos ?_))))
      rw [Bool.not_eq_true', Bool.eq_false_iff, Ne, returnReady_iff]
      rintro ⟨n, hn, hle⟩
      exact absurd hle (Nat.not_le.mpr (hlate n hn))
    · have hready : returnReady s t = true := returnReady_iff.mpr ⟨n, hret, hn⟩
      generalize wipeVault (answerBare (s.withDue rest) t 0x00) 0 = v at hrun
      rw [if_neg (by simp [hf]), if_neg (not_not_intro hserial), if_neg (by simp [hready])] at hrun
      exact ⟨_, hrun, restartReturned_leaves v⟩

end Sys2Proof.Machine

namespace Sys2Proof.Machine

/-! ## States of a Carloth port

What `setLink` does to its port and leaves of the others (12 R342). -/

/-- A port without the credit that it owes. -/
def Link.unowed (l : Link) : Link := { l with owedCredit := Vector.replicate 3 0 }

/-- The state without mail, ports and what the start notes of the ports. -/
def State.offPort (s : State) : State := { s.offMail with links := State.reset.links, fw := State.reset.fw }

section
variable {s : State} {n m : PortId} {st : LinkState}

theorem modLink_offPort (f : Link → Link) : (s.modLink n f).offPort = s.offPort := rfl

theorem event_offPort (unitNo code part : Nat) (data : Bytes) : (s.event unitNo code part data).offPort = s.offPort :=
  (congrArg (fun u : State => { u with links := State.reset.links, fw := State.reset.fw }) (event_offMail unitNo code part data) :)

theorem answer_offPort (t : Taken) (status : Nat) (tail : Bytes) : (answer s t status tail).offPort = s.offPort :=
  (congrArg (fun u : State => { u with links := State.reset.links, fw := State.reset.fw }) (answer_offMail t status tail) :)

theorem event_link (unitNo code part : Nat) (data : Bytes) : (s.event unitNo code part data).link m = s.link m := by
  unfold State.link
  rw [State.event_links]

theorem answer_link (t : Taken) (status : Nat) (tail : Bytes) : (answer s t status tail).link m = s.link m :=
  congrArg (fun v : Vector Link 16 => v.get m) (congrArg State.links (answer_offMail t status tail) :)

/-! ### Buffers freed -/

theorem freeUnits_offPort (f : Frame) : (freeUnits s n f).offPort = s.offPort := rfl

theorem freeUnits_unowed (f : Frame) : ((freeUnits s n f).link m).unowed = (s.link m).unowed := by
  unfold freeUnits
  dsimp only
  by_cases h : n = m
  · rw [← h, State.modLink_link]
    rfl
  · rw [State.modLink_link_ne _ _ _ _ h]

/-- The buffers that the relayed frames of a port hold are freed. -/
def freeRelay (s : State) (l : Link) : State := l.relay.foldl (fun s e => freeUnits s e.2.1 e.2.2) s

theorem freeRelay_offPort (l : Link) : (freeRelay s l).offPort = s.offPort := foldl_view s State.offPort (fun _ _ => freeUnits_offPort _) _

theorem freeRelay_unowed (l : Link) : ((freeRelay s l).link m).unowed = (s.link m).unowed :=
  foldl_view s (fun u => (u.link m).unowed) (fun _ _ => freeUnits_unowed _) _

/-! ### A change of state -/

/-- A port in another state. -/
def Link.became (l : Link) (st : LinkState) : Link := if l.state = st then l else { (if keepsQueues st then l else emptyLink l) with state := st }

theorem emptyLink_unowed (l : Link) : emptyLink l.unowed = emptyLink l := rfl

theorem endStep7_links : (endStep7 s).links = s.links := by
  unfold endStep7
  split <;> rfl

theorem endStep7_offPort : (endStep7 s).offPort = s.offPort := by
  unfold endStep7
  split <;> rfl

theorem endStep7_link : (endStep7 s).link m = s.link m := congrArg (fun v : Vector Link 16 => v.get m) endStep7_links

theorem setLink_same (h : (s.link n).state = st) : setLink s n st = s := if_pos h

/-- A change of state before its event. -/
def linkChanged (s : State) (n : PortId) (st : LinkState) : State :=
  (if keepsQueues st then endStep7 s else freeRelay (endStep7 s) (s.link n)).modLink n
    (fun l => { (if keepsQueues st then l else emptyLink l) with state := st })

theorem setLink_changes (h : (s.link n).state ≠ st) : ∃ data, setLink s n st = (linkChanged s n st).event (srcLink n) 0x0701 0xFF data :=
  ⟨_, if_neg h⟩

theorem linkChanged_offPort : (linkChanged s n st).offPort = s.offPort := by
  unfold linkChanged
  rw [modLink_offPort]
  split
  · exact endStep7_offPort
  · exact (freeRelay_offPort _).trans endStep7_offPort

theorem setLink_offPort : (setLink s n st).offPort = s.offPort := by
  by_cases h : (s.link n).state = st
  · rw [setLink_same h]
  · obtain ⟨data, hset⟩ := setLink_changes h
    rw [hset]
    exact (event_offPort ..).trans linkChanged_offPort

theorem linkChanged_link : (linkChanged s n st).link n = { (if keepsQueues st then s.link n else emptyLink (s.link n)) with state := st } := by
  unfold linkChanged
  rw [State.modLink_link]
  split
  · rw [endStep7_link]
  · rw [← emptyLink_unowed, freeRelay_unowed, endStep7_link, emptyLink_unowed]

theorem linkChanged_unowed (h : n ≠ m) : ((linkChanged s n st).link m).unowed = (s.link m).unowed := by
  unfold linkChanged
  rw [State.modLink_link_ne _ _ _ _ h]
  split
  · rw [endStep7_link]
  · rw [freeRelay_unowed, endStep7_link]

/-- Its own port after a change of state. -/
theorem setLink_became : (setLink s n st).link n = (s.link n).became st := by
  by_cases h : (s.link n).state = st
  · rw [setLink_same h, Link.became, if_pos h]
  · obtain ⟨data, hset⟩ := setLink_changes h
    rw [hset, event_link, linkChanged_link, Link.became, if_neg h]

/-- Another port after a change of state: no more than the credit that it owes changes. -/
theorem setLink_unowed (h : n ≠ m) : ((setLink s n st).link m).unowed = (s.link m).unowed := by
  by_cases hs : (s.link n).state = st
  · rw [setLink_same hs]
  · obtain ⟨data, hset⟩ := setLink_changes hs
    rw [hset, event_link, linkChanged_unowed h]

/-- A change to a state that keeps its queues frees no buffer. -/
theorem setLink_keeping (h : n ≠ m) (hk : keepsQueues st = true) : (setLink s n st).link m = s.link m := by
  by_cases hs : (s.link n).state = st
  · rw [setLink_same hs]
  · obtain ⟨data, hset⟩ := setLink_changes hs
    rw [hset, event_link, linkChanged, State.modLink_link_ne _ _ _ _ h, if_pos hk, endStep7_link]

theorem unowed_eq {l k : Link} (h : l.unowed = k.unowed) : l = { k with owedCredit := l.owedCredit } := by
  have := congrArg (fun x : Link => { x with owedCredit := l.owedCredit }) h
  exact this

theorem became_state (l : Link) : (l.became st).state = st := by
  unfold Link.became
  split
  · assumption
  · rfl

/-- What a change of state leaves of its port. -/
theorem became_keeps (l : Link) : (l.became st).far = l.far ∧ (l.became st).testUntil = l.testUntil ∧ (l.became st).testFrom = l.testFrom ∧
    (l.became st).testHours = l.testHours ∧ (l.became st).testAt = l.testAt ∧ (l.became st).testSeconds = l.testSeconds ∧
    (l.became st).ber = l.ber ∧ (l.became st).berSeconds = l.berSeconds ∧ (l.became st).retrains = l.retrains ∧
    (l.became st).lastFrame = l.lastFrame ∧ (l.became st).owners = l.owners := by
  unfold Link.became
  split
  · exact ⟨rfl, rfl, rfl, rfl, rfl, rfl, rfl, rfl, rfl, rfl, rfl⟩
  · split <;> exact ⟨rfl, rfl, rfl, rfl, rfl, rfl, rfl, rfl, rfl, rfl, rfl⟩

/-! ### Training patterns -/

theorem startTraining_link : (startTraining s n).link n = { s.link n with trainStep := 0, trainAt := s.now } := 
  State.modLink_link s n (fun l => { l with trainStep := 0, trainAt := s.now })

theorem startTraining_link_ne (h : n ≠ m) : (startTraining s n).link m = s.link m :=
  State.modLink_link_ne s n m (fun l => { l with trainStep := 0, trainAt := s.now }) h

/-- The state without mail, ports and the records sent. -/
def State.offTraining (s : State) : State := { s.offPort with out := State.reset.out }

theorem startTraining_offTraining : (startTraining s n).offTraining = s.offTraining := rfl

theorem offTraining_ofPort {u : State} (h : u.offPort = s.offPort) : u.offTraining = s.offTraining :=
  (congrArg (fun u : State => { u with out := State.reset.out }) h :)

end

/-- A turn of each unit, of which those of the others leave what is looked at as it was: it is the turn of its own unit that tells. -/
theorem foldl_turn {ι β : Type} {F : ι → State → State} {get : State → β} {k : ι} (other : ∀ j u, j ≠ k → get (F j u) = get u)
    (ks : List ι) (s : State) (hn : ks.Nodup) (hk : k ∈ ks) : ∃ u, get u = get s ∧ get (ks.foldl (fun t j => F j t) s) = get (F k u) := by
  induction ks generalizing s with
  | nil => simp at hk
  | cons j js ih =>
    obtain ⟨hj, hjs⟩ := List.nodup_cons.mp hn
    by_cases e : j = k
    · subst e
      refine ⟨s, rfl, ?_⟩
      exact List.foldlRecOn (motive := fun v => get v = get (F j s)) js _ rfl fun v hv i hi => (other i v fun h => hj (h ▸ hi)).trans hv
    · obtain ⟨u, hu, hfold⟩ := ih (F j s) hjs ((List.mem_cons.mp hk).resolve_left fun h => e h.symm)
      exact ⟨u, hu.trans (other j s e), hfold⟩

end Sys2Proof.Machine

namespace Sys2Proof.Machine

/-! ## Link orders and port tests (O53) -/

section
variable {s u : State} {n m : PortId} {t : Taken} {rest : List Taken} {p q : PartId} {st : LinkState}

theorem vget_ofFn {α : Type} {k : Nat} (f : Fin k → α) (i : Fin k) : (Vector.ofFn f).get i = f i := by
  show (Vector.ofFn f)[i.val] = f i
  rw [Vector.getElem_ofFn]

/-! ### LINK_PLAN -/

/-- A port's far end compared with the plan that its state holds. -/
def farCompared (s : State) (n : PortId) (f : FarEnd) : State :=
  s.modLink n (fun l => { l with far := some { f with agrees := agreesWith s n f.place f.port } })

theorem replanPort_none (h : (s.link n).far = none) : replanPort s n = s := by
  unfold replanPort
  rw [h]

theorem farCompared_link {f : FarEnd} :
    (farCompared s n f).link n = { s.link n with far := some { f with agrees := agreesWith s n f.place f.port } } := State.modLink_link ..

theorem replanPort_far {f : FarEnd} (h : (s.link n).far = some f) : replanPort s n =
    if (s.link n).state = .miswired then startTraining (setLink (farCompared s n f) n .training) n
    else if (s.link n).state = .up && wiredWrong s n f.place f.port f.cabinet then setLink (farCompared s n f) n .miswired
    else farCompared s n f := by
  have hl := farCompared_link (s := s) (n := n) (f := f)
  unfold replanPort
  rw [h]
  show (if ((farCompared s n f).link n).state = .miswired then _ else compareFar (farCompared s n f) n) = _
  unfold compareFar
  rw [hl]
  rfl

theorem replanPort_offTraining : (replanPort s n).offTraining = s.offTraining := by
  cases h : (s.link n).far with
  | none => rw [replanPort_none h]
  | some f =>
    rw [replanPort_far h]
    split
    · exact startTraining_offTraining.trans (offTraining_ofPort (setLink_offPort.trans (modLink_offPort _)))
    split
    · exact offTraining_ofPort (setLink_offPort.trans (modLink_offPort _))
    · exact offTraining_ofPort (modLink_offPort _)

theorem replanPort_unowed (hn : n ≠ m) : ((replanPort s n).link m).unowed = (s.link m).unowed := by
  have hf : ∀ f, (farCompared s n f).link m = s.link m := fun f => State.modLink_link_ne _ _ _ _ hn
  cases h : (s.link n).far with
  | none => rw [replanPort_none h]
  | some f =>
    rw [replanPort_far h]
    split
    · rw [startTraining_link_ne hn, setLink_unowed hn, hf]
    split
    · rw [setLink_unowed hn, hf]
    · rw [hf]

/-- The state of a port that a new plan meets (12 R341, R342). -/
theorem replanPort_state {f : FarEnd} (h : (s.link n).far = some f) : ((replanPort s n).link n).state =
    if (s.link n).state = .miswired then .training
    else if (s.link n).state = .up && wiredWrong s n f.place f.port f.cabinet then .miswired else (s.link n).state := by
  rw [replanPort_far h]
  split
  · rw [startTraining_link]
    show ((setLink (farCompared s n f) n .training).link n).state = _
    rw [setLink_became, became_state]
  split
  · rw [setLink_became, became_state]
  · rw [farCompared_link]

/-- All ports meet a new plan: one port's link is what its own turn makes of it. -/
theorem replanned_turn (s : State) (n : PortId) : ∃ u, (u.link n).unowed = (s.link n).unowed ∧ u.plan = s.plan ∧
    ((forPorts (fun n s => replanPort s n) s).link n).unowed = ((replanPort u n).link n).unowed := by
  have hplan : ∀ (j : PortId) (u : State), (replanPort u j).plan = u.plan := fun j u => (congrArg State.plan replanPort_offTraining :)
  obtain ⟨u, hu, hfold⟩ := foldl_turn (F := fun n s => replanPort s n) (get := fun u => ((u.link n).unowed, u.plan)) (k := n)
    (fun j u hj => Prod.ext (replanPort_unowed hj) (hplan j u)) _ s (List.nodup_finRange 16) (List.mem_finRange n)
  exact ⟨u, (congrArg Prod.fst hu :), (congrArg Prod.snd hu :), (congrArg Prod.fst hfold :)⟩

/-- The far end is not the one of a LINK_PLAN body. -/
theorem wiredWrong_iff {f : FarEnd} (h : s.plan = planOfBody t.msg) : wiredWrong s n f.place f.port f.cabinet = true ↔
    f.cabinet ≠ t.field 0 4 ∨ (bitOf (t.field (8 + 4 * n.val) 2) 15 = true ∧
      (bitsOf (t.field (8 + 4 * n.val) 2) 10 0 ≠ f.place ∨ bitsOf (t.field (8 + 4 * n.val) 2) 14 11 ≠ f.port)) := by
  have he : s.plan.expected.get n = (bitsOf (t.field (8 + 4 * n.val) 2) 10 0, bitsOf (t.field (8 + 4 * n.val) 2) 14 11,
      bitOf (t.field (8 + 4 * n.val) 2) 15) := by
    rw [h]
    exact vget_ofFn _ n
  have hin : s.plan.inForce = true := by rw [h]; rfl
  have hcab : s.plan.cabinet = t.field 0 4 := by rw [h]; rfl
  unfold wiredWrong agreesWith
  rw [he, hin, hcab]
  simp

theorem execLinkPlan_first (h : firstDue s 0x68 t rest) : execLinkPlan s = .next (if computeRuns s then answerBare (s.withDue rest) t 0x01
    else answerBare (forPorts (fun n s => replanPort s n) { s.withDue rest with plan := planOfBody t.msg }) t 0x00) := by
  have hc : computeRuns (s.withDue rest) = computeRuns s := rfl
  unfold execLinkPlan
  rw [onDue_first (ok := fun _ => true) h rfl]
  dsimp only
  rw [hc]

/-- A plan in force, at one port (12 R352). -/
theorem execLinkPlan_plans (h : firstDue s 0x68 t rest) (hc : computeRuns s = false) :
    ∃ u, execLinkPlan s = .next u ∧ u.plan = planOfBody t.msg ∧ u.parts = s.parts ∧ u.mem = s.mem ∧
      ((s.link n).far = none → u.link n = { s.link n with owedCredit := (u.link n).owedCredit }) ∧
      (∀ f, (s.link n).far = some f → (s.link n).state = .up →
        ((u.link n).state = .miswired ↔ f.cabinet ≠ t.field 0 4 ∨
          (bitOf (t.field (8 + 4 * n.val) 2) 15 = true ∧
            (bitsOf (t.field (8 + 4 * n.val) 2) 10 0 ≠ f.place ∨ bitsOf (t.field (8 + 4 * n.val) 2) 14 11 ≠ f.port)))) ∧
      (∀ f, (s.link n).far = some f → (s.link n).state = .miswired → (u.link n).state = .training) ∧
      ((s.link n).state = .testing → (u.link n).state = .testing) := by
  generalize hb : { s.withDue rest with plan := planOfBody t.msg } = b
  have hlink : b.link n = s.link n := by rw [← hb]; rfl
  have hplan : b.plan = planOfBody t.msg := by rw [← hb]
  have hall : (forPorts (fun n s => replanPort s n) b).offTraining = b.offTraining := forPorts_view b State.offTraining fun _ _ => replanPort_offTraining
  obtain ⟨w, wlink, wplan, hturn⟩ := replanned_turn b n
  have hrun := (execLinkPlan_first h).trans (congrArg _ (if_neg (by simp [hc])))
  rw [hb] at hrun
  generalize forPorts (fun n s => replanPort s n) b = v at hall hturn hrun
  refine ⟨_, hrun, ?_⟩
  rw [answerBare_parts, answerBare_mem]
  have hanswer : (answerBare v t 0x00).link n = v.link n := answer_link ..
  rw [hanswer]
  have wfar : (w.link n).far = (s.link n).far := by rw [← hlink]; exact (congrArg Link.far wlink :)
  have wstate : (w.link n).state = (s.link n).state := by rw [← hlink]; exact (congrArg Link.state wlink :)
  have hstate : ∀ f, (s.link n).far = some f → (v.link n).state = if (s.link n).state = .miswired then .training
      else if (s.link n).state = .up && wiredWrong w n f.place f.port f.cabinet then .miswired else (s.link n).state := fun f hf => by
    rw [← wstate, ← replanPort_state (wfar.trans hf)]
    exact (congrArg Link.state hturn :)
  refine ⟨?_, ?_, ?_, fun hf => ?_, fun f hf hs => ?_, fun f hf hs => ?_, fun hs => ?_⟩
  · refine Eq.trans (b := v.plan) (congrArg State.plan (answer_offMail t 0x00 []) :) ?_
    exact (congrArg State.plan hall :).trans hplan
  · rw [show v.parts = b.parts from (congrArg State.parts hall :), ← hb]
    rfl
  · rw [show v.mem = b.mem from (congrArg State.mem hall :), ← hb]
    rfl
  · refine unowed_eq ?_
    rw [hturn, replanPort_none (wfar.trans hf), wlink, hlink]
  · rw [hstate f hf, hs, if_neg (by decide), ← wiredWrong_iff (wplan.trans hplan)]
    cases wiredWrong w n f.place f.port f.cabinet <;> simp
  · rw [hstate f hf, if_pos hs]
  · cases hf : (s.link n).far with
    | none =>
      rw [replanPort_none (wfar.trans hf), wlink, hlink] at hturn
      exact (congrArg Link.state hturn :).trans hs
    | some f => rw [hstate f hf, hs, if_neg (by decide), if_neg (by simp)]

/-! ### LINK_SHARE -/

/-- The ports that a share names. -/
def sharePorts (t : Taken) : List PortId := (List.finRange 16).filter (fun n => bitOf (t.field 0 2) n.val)

theorem sharePorts_nodup : (sharePorts t).Nodup := (List.nodup_finRange 16).filter _

theorem mem_sharePorts : n ∈ sharePorts t ↔ bitOf (t.field 0 2) n.val = true := by simp [sharePorts]

/-- The turns shared on every port that a share names. -/
def shareAll (s : State) (t : Taken) : State := (sharePorts t).foldl (fun s n => s.modLink n (fun l => { l with owners := sharedOwners t.msg l })) s

theorem shareAll_offPort : (shareAll s t).offPort = s.offPort := foldl_view s State.offPort (fun _ _ => modLink_offPort _) _

theorem shareAll_link : (shareAll s t).link n =
    if bitOf (t.field 0 2) n.val = true then { s.link n with owners := sharedOwners t.msg (s.link n) } else s.link n := by
  unfold shareAll
  rw [foldl_each (F := fun n s => s.modLink n (fun l => { l with owners := sharedOwners t.msg l })) (get := State.link)
    (g := fun _ l => { l with owners := sharedOwners t.msg l }) (fun k u => State.modLink_link u k _)
    (fun k j u h => State.modLink_link_ne u k j _ h) _ s n sharePorts_nodup]
  exact if_congr mem_sharePorts rfl rfl

theorem execLinkShare_first (h : firstDue s 0x69 t rest) : execLinkShare s = .next (
    if (sharePorts t).any (fun n => shareTakes s t.msg (s.link n)) then answerBare (s.withDue rest) t 0x01
    else answerBare (shareAll (s.withDue rest) t) t 0x00) :=
  onDue_first h rfl

theorem sharedOwners_get (m : Msg) (l : Link) (i : Fin 64) :
    (sharedOwners m l).get i = if i.val < 4 then l.owners.get i else shareOwner (m.field (8 + i.val) 1) := vget_ofFn _ i

theorem execLinkShare_refused (h : firstDue s 0x69 t rest)
    (hm : ∃ m : PortId, bitOf (t.field 0 2) m.val = true ∧ shareTakes s t.msg (s.link m) = true) :
    execLinkShare s = .next (answerBare (s.withDue rest) t 0x01) := by
  refine (execLinkShare_first h).trans (congrArg _ (if_pos (List.any_eq_true.mpr ?_)))
  obtain ⟨m, hbit, htakes⟩ := hm
  exact ⟨m, mem_sharePorts.mpr hbit, htakes⟩

theorem execLinkShare_shares (h : firstDue s 0x69 t rest)
    (hm : ∀ m : PortId, bitOf (t.field 0 2) m.val = true → shareTakes s t.msg (s.link m) = false) :
    ∃ u, execLinkShare s = .next u ∧
      (∀ i : Fin 64, (u.link n).owners.get i =
        (if bitOf (t.field 0 2) n.val = true ∧ 4 ≤ i.val then shareOwner (t.field (8 + i.val) 1) else (s.link n).owners.get i)) ∧
      (u.link n).state = (s.link n).state ∧ (u.link n).jobs = (s.link n).jobs ∧ u.parts = s.parts ∧ u.mem = s.mem := by
  have hno : ¬ (sharePorts t).any (fun n => shareTakes s t.msg (s.link n)) = true := by
    rw [List.any_eq_true]
    rintro ⟨m, hmem, htakes⟩
    exact absurd (htakes.symm.trans (hm m (mem_sharePorts.mp hmem))) (by decide)
  have hoff := shareAll_offPort (s := s.withDue rest) (t := t)
  have hlink := shareAll_link (s := s.withDue rest) (t := t) (n := n)
  have hrun := (execLinkShare_first h).trans (congrArg _ (if_neg hno))
  generalize shareAll (s.withDue rest) t = v at hoff hlink hrun
  refine ⟨_, hrun, ?_⟩
  rw [show (answerBare v t 0x00).link n = v.link n from answer_link .., hlink, answerBare_parts, answerBare_mem]
  refine ⟨fun i => ?_, ?_, ?_, (congrArg State.parts hoff :), (congrArg State.mem hoff :)⟩
  · by_cases hbit : bitOf (t.field 0 2) n.val = true
    · rw [if_pos hbit]
      dsimp only
      rw [sharedOwners_get]
      by_cases hi : i.val < 4
      · rw [if_pos hi, if_neg (by omega)]
        rfl
      · rw [if_neg hi, if_pos ⟨hbit, by omega⟩]
        rfl
    · rw [if_neg hbit, if_neg (fun hb => hbit hb.1)]
      rfl
  · split <;> rfl
  · split <;> rfl

end

end Sys2Proof.Machine

namespace Sys2Proof.Machine

/-! ## The job table (12 R325, R352) -/

section
variable {k : Nat} {m : Msg} {x : Part}

theorem assocGet_assocSet_ne {α : Type} {k j : Nat} (h : k ≠ j) (v : α) (as : List (Nat × α)) : assocGet k (assocSet j v as) = assocGet k as := by
  unfold assocGet
  refine congrArg _ ?_
  induction as with
  | nil => simp [assocSet, beq_false_of_ne (Ne.symm h)]
  | cons a as ih =>
    obtain ⟨i, w⟩ := a
    unfold assocSet
    split
    next hi => simp [beq_false_of_ne (Ne.symm h), hi]
    · rw [List.find?_cons, List.find?_cons, ih]

/-- A member that an entry of LINK_JOB names stands in the table; one that had no place there has no keys. -/
theorem enterMember_own (ms : List (Nat × Member)) (e : Nat × Nat × Nat) : ∃ x, assocGet e.1 (enterMember ms e) = some x ∧
    x.place = e.2.1 ∧ x.serial = e.2.2 ∧ (assocGet e.1 ms = none → x.keys = PeerKeys.init) := by
  unfold enterMember
  cases hm : assocGet e.1 ms with
  | none => exact ⟨_, assocGet_assocSet .., rfl, rfl, fun _ => rfl⟩
  | some y =>
    dsimp only
    split
    next hsame =>
      rw [Bool.and_eq_true, decide_eq_true_eq, decide_eq_true_eq] at hsame
      obtain ⟨hplace, hserial⟩ := hsame
      exact ⟨y, hm, hplace, hserial, fun hno => by simp at hno⟩
    · exact ⟨_, assocGet_assocSet .., rfl, rfl, fun _ => rfl⟩

theorem enterMember_other (ms : List (Nat × Member)) {e : Nat × Nat × Nat} (h : k ≠ e.1) : assocGet k (enterMember ms e) = assocGet k ms := by
  unfold enterMember
  split
  · split
    · rfl
    · exact assocGet_assocSet_ne h _ _
  · exact assocGet_assocSet_ne h _ _

/-- The first `c` entries of LINK_JOB entered. -/
def enterAll (m : Msg) (c : Nat) (ms : List (Nat × Member)) : List (Nat × Member) := ((List.range c).map (memberEntry m)).foldl enterMember ms

theorem enterAll_succ (m : Msg) (c : Nat) (ms : List (Nat × Member)) : enterAll m (c + 1) ms = enterMember (enterAll m c ms) (memberEntry m c) := by
  simp [enterAll, List.range_succ]

theorem enterAll_other (ms : List (Nat × Member)) {c : Nat} (h : k < m.field 2 2 ∨ m.field 2 2 + c ≤ k) :
    assocGet k (enterAll m c ms) = assocGet k ms := by
  induction c with
  | zero => rfl
  | succ c ih =>
    have hne : k ≠ (memberEntry m c).1 := by
      show k ≠ m.field 2 2 + c
      omega
    rw [enterAll_succ, enterMember_other _ hne, ih (by omega)]

theorem enterAll_own (ms : List (Nat × Member)) {c i : Nat} (hi : i < c) : ∃ x, assocGet (m.field 2 2 + i) (enterAll m c ms) = some x ∧
    x.place = m.field (16 + 16 * i) 2 ∧ x.serial = m.field (24 + 16 * i) 8 ∧ (assocGet (m.field 2 2 + i) ms = none → x.keys = PeerKeys.init) := by
  induction c with
  | zero => omega
  | succ c ih =>
    rw [enterAll_succ]
    by_cases hc : i = c
    · subst hc
      obtain ⟨x, hx, hplace, hserial, hkeys⟩ := enterMember_own (enterAll m i ms) (memberEntry m i)
      exact ⟨x, hx, hplace, hserial, fun hno => hkeys ((enterAll_other ms (k := m.field 2 2 + i) (.inr le_rfl)).trans hno)⟩
    · have hne : m.field 2 2 + i ≠ (memberEntry m c).1 := by
        show m.field 2 2 + i ≠ m.field 2 2 + c
        omega
      rw [enterMember_other _ hne]
      exact ih (by omega)

/-- The table that LINK_JOB extends has the values of its body. -/
theorem jobBase_values : (jobBase x m).mirror = (m.field 1 1 == 1) ∧ (jobBase x m).job = m.field 8 4 ∧ (jobBase x m).total = m.field 6 2 ∧
    (jobBase x m).own = m.field 12 2 := by
  unfold jobBase
  dsimp only
  split
  · split
    next h => simpa [and_assoc] using h
    · exact ⟨rfl, rfl, rfl, rfl⟩
  · exact ⟨rfl, rfl, rfl, rfl⟩

/-- A table of the same values goes on. -/
theorem jobBase_same {o : Job} (h : x.job = some o) (hm : o.mirror = (m.field 1 1 == 1)) (hj : o.job = m.field 8 4) (ht : o.total = m.field 6 2)
    (ho : o.own = m.field 12 2) : jobBase x m = o := by
  unfold jobBase
  rw [h]
  exact if_pos (by simp [hm, hj, ht, ho])

/-- A table of other values starts anew. -/
theorem jobBase_new (h : ∀ o, x.job = some o → ¬(o.mirror = (m.field 1 1 == 1) ∧ o.job = m.field 8 4 ∧ o.total = m.field 6 2 ∧ o.own = m.field 12 2)) :
    (jobBase x m).members = [] := by
  unfold jobBase
  dsimp only
  split
  next o ho => rw [if_neg (by simpa [and_assoc] using h o ho)]
  · rfl

end

section
variable {s : State} {n : PortId} {t : Taken} {rest : List Taken} {p q : PartId}

/-- The job table of LINK_JOB. -/
def jobOrdered (x : Part) (m : Msg) : Job := { jobBase x m with members := enterAll m (m.field 4 2) (jobBase x m).members }

theorem execLinkJob_first (h : firstDue s 0x6A t rest) : execLinkJob s = .next (if computeRuns s then answerBare (s.withDue rest) t 0x01
    else answerBare ((s.withDue rest).modPart (t.part 0) (fun x => { x with job := some (jobOrdered x t.msg) })) t 0x00) :=
  onDue_first h rfl

theorem execLinkJob_orders (h : firstDue s 0x6A t rest) (hp : t.part 0 = p) (hc : computeRuns s = false) :
    ∃ u j, execLinkJob s = .next u ∧ (u.part p).job = some j ∧ j.mirror = (t.field 1 1 == 1) ∧
      j.job = t.field 8 4 ∧ j.total = t.field 6 2 ∧ j.own = t.field 12 2 ∧
      (∀ i, i < t.field 4 2 → ∃ m, memberOf (u.part p) (t.field 2 2 + i) = some m ∧ m.place = t.field (16 + 16 * i) 2 ∧ m.serial = t.field (24 + 16 * i) 8 ∧
        ((∀ o, (s.part p).job = some o → ¬(o.mirror = j.mirror ∧ o.job = j.job ∧ o.total = j.total ∧ o.own = j.own)) → m.keys = PeerKeys.init)) ∧
      (∀ o, (s.part p).job = some o → o.mirror = j.mirror → o.job = j.job → o.total = j.total → o.own = j.own →
        ∀ i, (i < t.field 2 2 ∨ t.field 2 2 + t.field 4 2 ≤ i) → memberOf (u.part p) i = memberOf (s.part p) i) ∧
      (∀ q, q ≠ p → u.part q = s.part q) ∧ u.mem = s.mem := by
  subst hp
  obtain ⟨hmirror, hjob, htotal, hown⟩ := jobBase_values (x := s.part (t.part 0)) (m := t.msg)
  have hpart : ((s.withDue rest).modPart (t.part 0) (fun x => { x with job := some (jobOrdered x t.msg) })).part (t.part 0) =
      { s.part (t.part 0) with job := some (jobOrdered (s.part (t.part 0)) t.msg) } := State.modPart_part ..
  have hbesides := modPart_besides (s := s.withDue rest) (p := t.part 0) (fun x => { x with job := some (jobOrdered x t.msg) })
  have hrun := (execLinkJob_first h).trans (congrArg _ (if_neg (by simp [hc])))
  generalize (s.withDue rest).modPart (t.part 0) (fun x => { x with job := some (jobOrdered x t.msg) }) = v at hpart hbesides hrun
  have hmember : ∀ i, memberOf ({ s.part (t.part 0) with job := some (jobOrdered (s.part (t.part 0)) t.msg) } : Part) i =
      assocGet i (enterAll t.msg (t.field 4 2) (jobBase (s.part (t.part 0)) t.msg).members) := fun i => rfl
  refine ⟨_, jobOrdered (s.part (t.part 0)) t.msg, hrun, ?_⟩
  rw [answerBare_part, answerBare_mem, hpart]
  refine ⟨rfl, hmirror, hjob, htotal, hown, fun i hi => ?_, fun o ho hom hoj hot hoo i hi => ?_, fun q hq => ?_, (congrArg Prod.fst hbesides :)⟩
  · obtain ⟨x, hx, hplace, hserial, hkeys⟩ := enterAll_own (m := t.msg) (jobBase (s.part (t.part 0)) t.msg).members hi
    refine ⟨x, (hmember _).trans hx, hplace, hserial, fun hnew => hkeys ?_⟩
    have hbase : (jobBase (s.part (t.part 0)) t.msg).members = [] := jobBase_new fun o ho => by
      have := hnew o ho
      rwa [show (jobOrdered (s.part (t.part 0)) t.msg).mirror = _ from hmirror, show (jobOrdered (s.part (t.part 0)) t.msg).job = _ from hjob,
        show (jobOrdered (s.part (t.part 0)) t.msg).total = _ from htotal, show (jobOrdered (s.part (t.part 0)) t.msg).own = _ from hown] at this
    rw [hbase]
    rfl
  · have hbase := jobBase_same (m := t.msg) ho (hom.trans hmirror) (hoj.trans hjob) (hot.trans htotal) (hoo.trans hown)
    rw [hmember, enterAll_other _ hi, hbase]
    unfold memberOf
    rw [ho]
    rfl
  · rw [answerBare_part]
    exact besides_part hbesides hq

end

end Sys2Proof.Machine

namespace Sys2Proof.Machine

/-! ## Ports ordered and tested (O53) -/

section
variable {s u : State} {n m : PortId} {t : Taken} {rest : List Taken} {p q : PartId} {st : LinkState}

/-! ### LINK_PORT -/

/-- A port's test, and the claim lanes' unless another port is tested, ends without a result (12 R343). -/
theorem dropTest_link : (dropTest s n).link n = { s.link n with testUntil := none } := State.modLink_link s n (fun l => { l with testUntil := none })

theorem dropTest_link_ne (h : n ≠ m) : (dropTest s n).link m = s.link m := State.modLink_link_ne s n m (fun l => { l with testUntil := none }) h

theorem dropTest_lanes : (dropTest s n).lanes =
    { s.lanes with testing := (List.finRange 16).any (fun m => m != n && (s.link m).testUntil.isSome) } := by
  show { s.lanes with testing := (List.finRange 16).any (fun m => ((s.modLink n (fun l => { l with testUntil := none })).link m).testUntil.isSome) } = _
  refine congrArg (fun b => { s.lanes with testing := b }) (congrArg (fun f => (List.finRange 16).any f) (funext fun m => ?_))
  by_cases h : n = m
  · rw [← h, State.modLink_link, bne_self_eq_false]
    rfl
  · rw [State.modLink_link_ne _ _ _ _ h, bne_iff_ne.mpr (Ne.symm h)]
    rfl

theorem dropTest_state : ((dropTest s n).link n).state = (s.link n).state := by rw [dropTest_link]

/-- What an order on a port leaves: its fields outside the ports and the mail. -/
theorem answered_ports {v : State} {status : Nat} : (answerBare v t status).offPort = v.offPort := answer_offPort ..

theorem answered_link {v : State} {status : Nat} : (answerBare v t status).link m = v.link m := answer_link ..

theorem execLinkPortDisable_first (h : firstDue s 0x6B t rest) (hn : portField t = n) (ha : t.field 1 1 = 1) :
    execLinkPortDisable s = .next (answerBare (setLink (dropTest (s.withDue rest) n) n (disabledAs (s.link n))) t 0x00) := by
  subst hn
  exact onDue_first h (beq_iff_eq.mpr ha)

theorem execLinkPortEnable_first (h : firstDue s 0x6B t rest) (hn : portField t = n) (ha : t.field 1 1 = 2) :
    execLinkPortEnable s = .next (answerBare (startTraining (setLink (dropTest (s.withDue rest) n) n
      (if (s.link n).state = .up then .retraining else .training)) n) t 0x00) := by
  subst hn
  have hs := dropTest_state (s := s.withDue rest) (n := portField t)
  unfold execLinkPortEnable
  rw [onDue_first (ok := fun m => m.field 1 1 == 2) h (beq_iff_eq.mpr ha)]
  dsimp only
  rw [hs]
  rfl

/-- LINK_PORT with ACTION 1 (12 R342). -/
theorem execLinkPortDisable_disables (h : firstDue s 0x6B t rest) (hn : portField t = n) (ha : t.field 1 1 = 1) :
    ∃ u, execLinkPortDisable s = .next u ∧ (u.link n).state = disabledAs (s.link n) ∧ (u.link n).testUntil = none ∧
      u.lanes = { s.lanes with testing := (List.finRange 16).any (fun m => m != n && (s.link m).testUntil.isSome) } ∧
      (disabledAs (s.link n) = .disabled → (s.link n).state ≠ .disabled → (u.link n).house = [] ∧ (u.link n).jobs = [] ∧ (u.link n).relay = [] ∧ (u.link n).unacked = []) ∧
      (∀ m, m ≠ n → u.link m = { s.link m with owedCredit := (u.link m).owedCredit }) ∧ u.parts = s.parts ∧ u.mem = s.mem := by
  have hdrop : (dropTest (s.withDue rest) n).link n = { s.link n with testUntil := none } := dropTest_link
  have hdrops : ∀ m, m ≠ n → (dropTest (s.withDue rest) n).link m = s.link m := fun m hm => dropTest_link_ne (Ne.symm hm)
  have hlanes : (dropTest (s.withDue rest) n).lanes = { s.lanes with testing := (List.finRange 16).any (fun m => m != n && (s.link m).testUntil.isSome) } :=
    dropTest_lanes
  have hunits : ((dropTest (s.withDue rest) n).parts, (dropTest (s.withDue rest) n).mem) = (s.parts, s.mem) := rfl
  have hrun := execLinkPortDisable_first h hn ha
  generalize dropTest (s.withDue rest) n = d at hdrop hdrops hlanes hunits hrun
  obtain ⟨hparts, hmem⟩ := Prod.mk.inj hunits
  have hlink := setLink_became (s := d) (n := n) (st := disabledAs (s.link n))
  have hothers : ∀ m, m ≠ n → ((setLink d n (disabledAs (s.link n))).link m).unowed = (d.link m).unowed := fun m hm => setLink_unowed (Ne.symm hm)
  have hoff := setLink_offPort (s := d) (n := n) (st := disabledAs (s.link n))
  generalize setLink d n (disabledAs (s.link n)) = v at hlink hothers hoff hrun
  obtain ⟨-, huntil, -⟩ := became_keeps (st := disabledAs (s.link n)) (d.link n)
  refine ⟨_, hrun, ?_⟩
  rw [answerBare_parts, answerBare_mem]
  simp only [answered_link]
  refine ⟨?_, ?_, ?_, fun hdis hne => ?_, fun m hm => ?_, ?_, ?_⟩
  · rw [hlink, became_state]
  · rw [hlink, huntil, hdrop]
  · rw [show (answerBare v t 0x00).lanes = v.lanes from (congrArg State.lanes (answered_ports (t := t) (v := v) (status := 0x00)) :),
      show v.lanes = d.lanes from (congrArg State.lanes hoff :), hlanes]
  · rw [hlink, hdrop, hdis]
    unfold Link.became
    rw [if_neg hne]
    exact ⟨rfl, rfl, rfl, rfl⟩
  · refine unowed_eq ?_
    rw [hothers m hm, hdrops m hm]
  · rw [show v.parts = d.parts from (congrArg State.parts hoff :), hparts]
  · rw [show v.mem = d.mem from (congrArg State.mem hoff :), hmem]

/-- LINK_PORT with ACTION 2 (12 R342). -/
theorem execLinkPortEnable_enables (h : firstDue s 0x6B t rest) (hn : portField t = n) (ha : t.field 1 1 = 2) :
    ∃ u, execLinkPortEnable s = .next u ∧ (u.link n).state = (if (s.link n).state = .up then .retraining else .training) ∧
      (u.link n).trainStep = 0 ∧ (u.link n).retrains = (s.link n).retrains ∧ (u.link n).testUntil = none ∧
      u.lanes = { s.lanes with testing := (List.finRange 16).any (fun m => m != n && (s.link m).testUntil.isSome) } ∧
      u.out = s.out ++ [.trainingPattern n] ∧ (∀ m, m ≠ n → u.link m = { s.link m with owedCredit := (u.link m).owedCredit }) ∧ u.mem = s.mem := by
  have hdrop : (dropTest (s.withDue rest) n).link n = { s.link n with testUntil := none } := dropTest_link
  have hdrops : ∀ m, m ≠ n → (dropTest (s.withDue rest) n).link m = s.link m := fun m hm => dropTest_link_ne (Ne.symm hm)
  have hlanes : (dropTest (s.withDue rest) n).lanes = { s.lanes with testing := (List.finRange 16).any (fun m => m != n && (s.link m).testUntil.isSome) } :=
    dropTest_lanes
  have hunits : ((dropTest (s.withDue rest) n).out, (dropTest (s.withDue rest) n).mem) = (s.out, s.mem) := rfl
  have hrun := execLinkPortEnable_first h hn ha
  generalize dropTest (s.withDue rest) n = d at hdrop hdrops hlanes hunits hrun
  obtain ⟨hout, hmem⟩ := Prod.mk.inj hunits
  generalize (if (s.link n).state = .up then LinkState.retraining else .training) = st at hrun ⊢
  have hlink := setLink_became (s := d) (n := n) (st := st)
  have hothers : ∀ m, m ≠ n → ((setLink d n st).link m).unowed = (d.link m).unowed := fun m hm => setLink_unowed (Ne.symm hm)
  have hoff := setLink_offPort (s := d) (n := n) (st := st)
  generalize setLink d n st = v at hlink hothers hoff hrun
  obtain ⟨-, huntil, -, -, -, -, -, -, hretrains, -⟩ := became_keeps (st := st) (d.link n)
  have hanswer := answered_ports (t := t) (v := startTraining v n) (status := 0x00)
  refine ⟨_, hrun, ?_⟩
  rw [answerBare_mem]
  simp only [answered_link]
  rw [startTraining_link, hlink]
  refine ⟨became_state _, rfl, ?_, ?_, ?_, ?_, fun m hm => ?_, ?_⟩
  · rw [hretrains, hdrop]
  · rw [huntil, hdrop]
  · rw [show (answerBare (startTraining v n) t 0x00).lanes = v.lanes from (congrArg State.lanes hanswer :),
      show v.lanes = d.lanes from (congrArg State.lanes hoff :), hlanes]
  · rw [show (answerBare (startTraining v n) t 0x00).out = v.out ++ [.trainingPattern n] from (congrArg State.out hanswer :),
      show v.out = d.out from (congrArg State.out hoff :), hout]
  · rw [startTraining_link_ne (Ne.symm hm)]
    refine unowed_eq ?_
    rw [hothers m hm, hdrops m hm]
  · rw [show (startTraining v n).mem = v.mem from rfl, show v.mem = d.mem from (congrArg State.mem hoff :), hmem]

/-! ### Tests -/

/-- The values of a test that begins on a port (12 R343). -/
def Link.tested (l : Link) (now : Ns) (seconds : Nat) : Link :=
  { l with testFrom := if l.state = .testing then l.testFrom else l.state, testUntil := some (now + sec seconds), testSeconds := seconds }

/-- The ports and what lies outside them when a test begins. -/
theorem beginTest_begins (seconds : Nat) : ((beginTest s n seconds).link n).state = (if stuckState (s.link n).state then (s.link n).state else .testing) ∧
    ((beginTest s n seconds).link n).testUntil = some (s.now + sec seconds) ∧ ((beginTest s n seconds).link n).testHours = (s.link n).testHours ∧
    ((beginTest s n seconds).link n).testAt = (s.link n).testAt ∧ (beginTest s n seconds).lanes.testing = true ∧
    (∀ m, m ≠ n → (beginTest s n seconds).link m = s.link m) ∧ (beginTest s n seconds).mem = s.mem ∧ (beginTest s n seconds).now = s.now := by
  have hlink : (s.modLink n (fun l => l.tested s.now seconds)).link n = (s.link n).tested s.now seconds := State.modLink_link ..
  have hothers : ∀ m, m ≠ n → (s.modLink n (fun l => l.tested s.now seconds)).link m = s.link m := fun m hm => State.modLink_link_ne _ _ _ _ (Ne.symm hm)
  have hrun : beginTest s n seconds = (if stuckState (((s.modLink n (fun l => l.tested s.now seconds)).link n).state)
      then s.modLink n (fun l => l.tested s.now seconds) else setLink (s.modLink n (fun l => l.tested s.now seconds)) n .testing).modLanes
      (fun l => { l with testing := true }) := rfl
  have hunits : ((s.modLink n (fun l => l.tested s.now seconds)).mem, (s.modLink n (fun l => l.tested s.now seconds)).now) = (s.mem, s.now) := rfl
  rw [hlink] at hrun
  generalize s.modLink n (fun l => l.tested s.now seconds) = v at hlink hothers hrun hunits
  obtain ⟨hmem, hnow⟩ := Prod.mk.inj hunits
  rw [hrun]
  show ((if stuckState (s.link n).state then v else setLink v n .testing).link n).state = _ ∧
    ((if stuckState (s.link n).state then v else setLink v n .testing).link n).testUntil = _ ∧
    ((if stuckState (s.link n).state then v else setLink v n .testing).link n).testHours = _ ∧
    ((if stuckState (s.link n).state then v else setLink v n .testing).link n).testAt = _ ∧ true = true ∧
    (∀ m, m ≠ n → (if stuckState (s.link n).state then v else setLink v n .testing).link m = s.link m) ∧
    (if stuckState (s.link n).state then v else setLink v n .testing).mem = s.mem ∧
    (if stuckState (s.link n).state then v else setLink v n .testing).now = s.now
  split
  · rw [hlink]
    exact ⟨rfl, rfl, rfl, rfl, rfl, hothers, hmem, hnow⟩
  · have hoff := setLink_offPort (s := v) (n := n) (st := .testing)
    obtain ⟨-, huntil, -, hhours, hat, -⟩ := became_keeps (st := .testing) (v.link n)
    rw [setLink_became]
    refine ⟨became_state _, by rw [huntil, hlink]; rfl, by rw [hhours, hlink]; rfl, by rw [hat, hlink]; rfl, rfl, fun m hm => ?_, ?_, ?_⟩
    · rw [setLink_keeping (Ne.symm hm) rfl, hothers m hm]
    · exact (congrArg State.mem hoff :).trans hmem
    · exact (congrArg State.now hoff :).trans hnow

/-- LINK_PORT with ACTION 3 (12 R343). -/
theorem execLinkPortTest_tests (h : firstDue s 0x6B t rest) (hn : portField t = n) (ha : t.field 1 1 = 3) :
    ∃ u, execLinkPortTest s = .next u ∧ (u.link n).state = (if stuckState (s.link n).state then (s.link n).state else .testing) ∧
      (u.link n).testUntil = some (s.now + 1000000000 * t.field 2 1) ∧ (u.link n).testHours = t.field 4 2 ∧ u.lanes.testing = true ∧
      (∀ m, m ≠ n → u.link m = s.link m) ∧ u.mem = s.mem := by
  subst hn
  have hrun : execLinkPortTest s = .next (answerBare (beginTest ((s.withDue rest).modLink (portField t)
      (fun l => { l with testHours := t.field 4 2, testAt := some s.now })) (portField t) (t.field 2 1)) t 0x00) := onDue_first h (beq_iff_eq.mpr ha)
  have hlink : ((s.withDue rest).modLink (portField t) (fun l => { l with testHours := t.field 4 2, testAt := some s.now })).link (portField t) =
      { s.link (portField t) with testHours := t.field 4 2, testAt := some s.now } := State.modLink_link ..
  have hothers : ∀ m, m ≠ portField t → ((s.withDue rest).modLink (portField t)
      (fun l => { l with testHours := t.field 4 2, testAt := some s.now })).link m = s.link m := fun m hm => State.modLink_link_ne _ _ _ _ (Ne.symm hm)
  have hunits : (((s.withDue rest).modLink (portField t) (fun l => { l with testHours := t.field 4 2, testAt := some s.now })).mem,
      ((s.withDue rest).modLink (portField t) (fun l => { l with testHours := t.field 4 2, testAt := some s.now })).now) = (s.mem, s.now) := rfl
  generalize (s.withDue rest).modLink (portField t) (fun l => { l with testHours := t.field 4 2, testAt := some s.now }) = a at hrun hlink hothers hunits
  obtain ⟨hmem, hnow⟩ := Prod.mk.inj hunits
  obtain ⟨bstate, buntil, bhours, -, blanes, bothers, bmem, -⟩ := beginTest_begins (s := a) (n := portField t) (t.field 2 1)
  generalize beginTest a (portField t) (t.field 2 1) = v at hrun bstate buntil bhours blanes bothers bmem
  refine ⟨_, hrun, ?_⟩
  rw [answerBare_mem]
  simp only [answered_link]
  refine ⟨?_, ?_, ?_, ?_, fun m hm => (bothers m hm).trans (hothers m hm), bmem.trans hmem⟩
  · rw [bstate, hlink]
  · rw [buntil, hnow, sec, Nat.mul_comm]
  · rw [bhours, hlink]
  · exact (congrArg (fun u : State => u.lanes.testing) (answered_ports (t := t) (v := v) (status := 0x00)) :).trans blanes

end

end Sys2Proof.Machine

namespace Sys2Proof.Machine

section
variable {s u : State} {n m : PortId} {t : Taken} {rest : List Taken} {p q : PartId} {st : LinkState}

/-! ### The end of a test -/

theorem compareFar_eq : compareFar s n = s ∨ compareFar s n = setLink s n .miswired := by
  unfold compareFar
  split
  · split
    · exact .inr rfl
    · exact .inl rfl
  · exact .inl rfl

/-- The state in which a port is once its far end has been compared. -/
theorem compareFar_state : ((compareFar s n).link n).state = (match (s.link n).state, (s.link n).far with
    | .up, some f => if wiredWrong s n f.place f.port f.cabinet then .miswired else .up
    | st, _ => st) := by
  unfold compareFar
  cases hf : (s.link n).far with
  | none =>
    dsimp only
    cases (s.link n).state <;> rfl
  | some f =>
    dsimp only
    cases hs : (s.link n).state with
    | up =>
      cases hw : wiredWrong s n f.place f.port f.cabinet with
      | false => simp [hs, hw]
      | true => simp [hw, setLink_became, became_state]
    | _ => simpa using hs

/-- A port whose test has ended with its errors (12 R343). -/
def testEnded (s : State) (n : PortId) (bitErrors : Nat) : State :=
  s.modLink n (fun l => { l with testUntil := none, ber := min bitErrors (2 ^ 24 - 1), berSeconds := (s.link n).testSeconds })

/-- The port back in its former state. -/
def testLeft (s : State) (n : PortId) : State :=
  if (s.link n).state = .testing then compareFar (setLink s n (s.link n).testFrom) n else s

theorem execLinkTestEnd_eq {e : Ns} (h : (s.link n).testUntil = some e) (bitErrors laneErrors : Nat) {a v : State}
    (ha : testEnded (s.reach e) n bitErrors = a) (hv : testLeft a n = v) : execLinkTestEnd n bitErrors laneErrors s = .next (v.modLanes (fun l => { l with
      testing := (List.finRange 16).any (fun m => (v.link m).testUntil.isSome), ber := min laneErrors (2 ^ 24 - 1), berSeconds := (s.link n).testSeconds })) := by
  subst ha hv
  unfold execLinkTestEnd
  rw [h]
  rfl

/-- What leaving a test keeps of every port and outside the ports. -/
theorem testLeft_leaves : (testLeft s n).offPort = s.offPort ∧ (∀ m, ((testLeft s n).link m).testUntil = (s.link m).testUntil) ∧
    ((testLeft s n).link n).ber = (s.link n).ber ∧ ((testLeft s n).link n).berSeconds = (s.link n).berSeconds := by
  have hset : ∀ (s : State) st, (setLink s n st).offPort = s.offPort ∧ (∀ m, ((setLink s n st).link m).testUntil = (s.link m).testUntil) ∧
      ((setLink s n st).link n).ber = (s.link n).ber ∧ ((setLink s n st).link n).berSeconds = (s.link n).berSeconds := fun s st => by
    obtain ⟨-, huntil, -, -, -, -, hber, hsecs, -⟩ := became_keeps (st := st) (s.link n)
    refine ⟨setLink_offPort, fun m => ?_, by rw [setLink_became, hber], by rw [setLink_became, hsecs]⟩
    by_cases hm : n = m
    · rw [← hm, setLink_became, huntil]
    · exact (congrArg Link.testUntil (setLink_unowed (s := s) (st := st) hm) :)
  unfold testLeft
  split
  · obtain ⟨h1, h2, h3, h4⟩ := hset s (s.link n).testFrom
    generalize setLink s n (s.link n).testFrom = w at h1 h2 h3 h4
    obtain hc | hc := compareFar_eq (s := w) (n := n)
    · rw [hc]
      exact ⟨h1, h2, h3, h4⟩
    · obtain ⟨k1, k2, k3, k4⟩ := hset w .miswired
      rw [hc]
      exact ⟨k1.trans h1, fun m => (k2 m).trans (h2 m), k3.trans h3, k4.trans h4⟩
  · exact ⟨rfl, fun _ => rfl, rfl, rfl⟩

/-- The state that a port takes when its test ends (log entry 89). -/
theorem testLeft_state (h : (s.link n).state = .testing) : ((testLeft s n).link n).state = (match (s.link n).testFrom, (s.link n).far with
    | .up, some f => if wiredWrong s n f.place f.port f.cabinet then .miswired else .up
    | st, _ => st) := by
  obtain ⟨hfar, -⟩ := became_keeps (st := (s.link n).testFrom) (s.link n)
  have hplan : (setLink s n (s.link n).testFrom).plan = s.plan := (congrArg State.plan setLink_offPort :)
  have hwrong : ∀ f : FarEnd, wiredWrong (setLink s n (s.link n).testFrom) n f.place f.port f.cabinet = wiredWrong s n f.place f.port f.cabinet :=
    fun f => by unfold wiredWrong agreesWith; rw [hplan]
  unfold testLeft
  rw [if_pos h, compareFar_state, setLink_became, became_state, hfar]
  simp only [hwrong]

theorem execLinkTestEnd_ends {e : Ns} (h : (s.link n).testUntil = some e) (bitErrors laneErrors : Nat) :
    ∃ u, execLinkTestEnd n bitErrors laneErrors s = .next u ∧ u.now = max s.now e ∧
      ((s.link n).state ≠ .testing → (u.link n).state = (s.link n).state) ∧
      ((s.link n).state = .testing → (u.link n).state = (match (s.link n).testFrom, (s.link n).far with
        | .up, some f => if wiredWrong s n f.place f.port f.cabinet then .miswired else .up
        | st, _ => st)) ∧ (u.link n).testUntil = none ∧ (u.link n).ber = min bitErrors 16777215 ∧
      (u.link n).berSeconds = (s.link n).testSeconds ∧ u.lanes.ber = min laneErrors 16777215 ∧ u.mem = s.mem ∧
      ((∀ m, m ≠ n → (s.link m).testUntil = none) → u.lanes.testing = false) := by
  have hlink : (testEnded (s.reach e) n bitErrors).link n =
      { s.link n with testUntil := none, ber := min bitErrors (2 ^ 24 - 1), berSeconds := (s.link n).testSeconds } := State.modLink_link ..
  have hothers : ∀ m, m ≠ n → (testEnded (s.reach e) n bitErrors).link m = s.link m := fun m hm => State.modLink_link_ne _ _ _ _ (Ne.symm hm)
  have hunits : ((testEnded (s.reach e) n bitErrors).mem, (testEnded (s.reach e) n bitErrors).now, (testEnded (s.reach e) n bitErrors).plan) =
      (s.mem, max s.now e, s.plan) := rfl
  generalize ha : testEnded (s.reach e) n bitErrors = a at hlink hothers hunits
  simp only [Prod.mk.injEq] at hunits
  obtain ⟨amem, anow, aplan⟩ := hunits
  obtain ⟨hoff, huntil, hber, hsecs⟩ := testLeft_leaves (s := a) (n := n)
  have hstays : (a.link n).state ≠ .testing → testLeft a n = a := fun hs => if_neg hs
  have hstate := testLeft_state (s := a) (n := n)
  generalize hv : testLeft a n = v at hoff huntil hber hsecs hstays hstate
  refine ⟨_, execLinkTestEnd_eq h bitErrors laneErrors ha hv, ?_⟩
  show v.now = _ ∧ (_ → (v.link n).state = _) ∧ (_ → (v.link n).state = _) ∧ (v.link n).testUntil = _ ∧ (v.link n).ber = _ ∧
    (v.link n).berSeconds = _ ∧ min laneErrors (2 ^ 24 - 1) = _ ∧ v.mem = _ ∧
    (_ → (List.finRange 16).any (fun m => (v.link m).testUntil.isSome) = false)
  refine ⟨(congrArg State.now hoff :).trans anow, fun hs => ?_, fun hs => ?_, ?_, ?_, ?_, rfl, (congrArg State.mem hoff :).trans amem, fun hnone => ?_⟩
  · rw [hstays (by rw [hlink]; exact hs), hlink]
  · have hwrong : ∀ f : FarEnd, wiredWrong a n f.place f.port f.cabinet = wiredWrong s n f.place f.port f.cabinet :=
      fun f => by unfold wiredWrong agreesWith; rw [aplan]
    rw [hstate (by rw [hlink]; exact hs), hlink]
    simp only [hwrong]
  · rw [huntil, hlink]
  · rw [hber, hlink]
    rfl
  · rw [hsecs, hlink]
  · rw [List.any_eq_false]
    intro m _
    rw [huntil]
    by_cases hm : m = n
    · rw [hm, hlink]
      simp
    · rw [hothers m hm, hnone m hm]
      simp

theorem execLinkTestEnd_none (h : (s.link n).testUntil = none) (b l : Nat) : execLinkTestEnd n b l s = .next s := by
  unfold execLinkTestEnd
  rw [h]

/-! ### Interval tests -/

theorem execIntervalTest_none (h : (s.link n).testAt = none ∨ (s.link n).testHours = 0 ∨ (s.link n).testUntil.isSome = true) :
    execIntervalTest n s = .next s := by
  unfold execIntervalTest
  dsimp only
  split
  next e he =>
    obtain h | h | h := h
    · simp [h] at he
    · exact if_pos (by simp [h])
    · exact if_pos (by simp [h])
  · rfl

/-- The port has carried a frame in the 10 s before an instant. -/
def carriedBefore (l : Link) (now : Ns) : Bool := match l.lastFrame with | some f => decide (now < f + sec 10) | none => false

/-- An interval test: skipped when a frame was carried in the last 10 s (12 R343). -/
theorem execIntervalTest_due {e : Ns} (he : (s.link n).testAt = some e) (hh : (s.link n).testHours ≠ 0) (hu : (s.link n).testUntil = none) :
    ∃ u, execIntervalTest n s = .next u ∧
      u.now = max s.now (e + 3600000000000 * (s.link n).testHours) ∧ (u.link n).testAt = some u.now ∧ u.mem = s.mem ∧
      (∀ f, (s.link n).lastFrame = some f → u.now < f + 10000000000 → (u.link n).state = (s.link n).state ∧ u.lanes = s.lanes) ∧
      ((∀ f, (s.link n).lastFrame = some f → f + 10000000000 ≤ u.now) → (u.link n).state = (if stuckState (s.link n).state then (s.link n).state else .testing) ∧ u.lanes.testing = true) := by
  have hwhen : e + sec (3600 * (s.link n).testHours) = e + 3600000000000 * (s.link n).testHours := by
    show e + 3600 * (s.link n).testHours * 1000000000 = _
    rw [Nat.mul_right_comm]
  generalize hat : e + 3600000000000 * (s.link n).testHours = at_ at hwhen ⊢
  have hlink : ((s.reach at_).modLink n (fun l => { l with testAt := some (s.reach at_).now })).link n =
      { s.link n with testAt := some (max s.now at_) } := State.modLink_link ..
  have hunits : (((s.reach at_).modLink n (fun l => { l with testAt := some (s.reach at_).now })).mem,
      ((s.reach at_).modLink n (fun l => { l with testAt := some (s.reach at_).now })).now,
      ((s.reach at_).modLink n (fun l => { l with testAt := some (s.reach at_).now })).lanes) = (s.mem, max s.now at_, s.lanes) := rfl
  have hrun : execIntervalTest n s = if carriedBefore (s.link n) (max s.now at_)
      then .next (((s.reach at_).modLink n (fun l => { l with testAt := some (s.reach at_).now })).event (srcLink n) 0x0706 0xFF (leBytes 1 n.val))
      else .next (beginTest ((s.reach at_).modLink n (fun l => { l with testAt := some (s.reach at_).now })) n (s.link n).testSeconds) := by
    unfold execIntervalTest
    dsimp only
    rw [he]
    dsimp only
    rw [if_neg (by simp [hh, hu]), hwhen]
    rfl
  generalize (s.reach at_).modLink n (fun l => { l with testAt := some (s.reach at_).now }) = a at hlink hunits hrun
  simp only [Prod.mk.injEq] at hunits
  obtain ⟨amem, anow, alanes⟩ := hunits
  by_cases hcar : carriedBefore (s.link n) (max s.now at_) = true
  · have hoff := event_offPort (s := a) (srcLink n) 0x0706 0xFF (leBytes 1 n.val)
    have hl := event_link (s := a) (m := n) (srcLink n) 0x0706 0xFF (leBytes 1 n.val)
    have hrun' := hrun.trans (if_pos hcar)
    generalize a.event (srcLink n) 0x0706 0xFF (leBytes 1 n.val) = v at hoff hl hrun'
    have hnow : v.now = max s.now at_ := (congrArg State.now hoff :).trans anow
    refine ⟨v, hrun', hnow, ?_, (congrArg State.mem hoff :).trans amem, fun f hf hlt => ⟨?_, (congrArg State.lanes hoff :).trans alanes⟩, fun hno => ?_⟩
    · rw [hl, hlink, hnow]
    · rw [hl, hlink]
    · exfalso
      unfold carriedBefore at hcar
      split at hcar
      next f hf => exact absurd (of_decide_eq_true hcar) (Nat.not_lt.mpr (hnow ▸ hno f hf))
      · exact Bool.false_ne_true hcar
  · obtain ⟨bstate, -, -, bat, blanes, -, bmem, bnow⟩ := beginTest_begins (s := a) (n := n) (s.link n).testSeconds
    have hrun' := hrun.trans (if_neg hcar)
    generalize beginTest a n (s.link n).testSeconds = v at bstate bat blanes bmem bnow hrun'
    have hnow : v.now = max s.now at_ := bnow.trans anow
    refine ⟨v, hrun', hnow, ?_, bmem.trans amem, fun f hf hlt => ?_, fun _ => ⟨?_, blanes⟩⟩
    · rw [bat, hlink, hnow]
    · refine absurd ?_ hcar
      unfold carriedBefore
      rw [hf]
      exact decide_eq_true (hnow ▸ hlt)
    · rw [bstate, hlink]

/-! ### LINK_INGRESS -/

/-- The copy bindings of a receive stream. -/
def streamOf (s : State) (p : PartId) (k : Nat) : Option RxStream := s.csi.streams.find? (fun r => r.part == p && r.stream == k)

/-- A receive stream without copy bindings. -/
def bareStream (p : PartId) (k : Nat) : RxStream := { part := p, stream := k, copyTo := none, copyFrom := none }

section
variable {k j : Nat} {f : RxStream → RxStream}

theorem modStream_streams : (modStream s p k f).csi.streams =
    (if (f ((streamOf s p k).getD (bareStream p k))).copyTo.isNone && (f ((streamOf s p k).getD (bareStream p k))).copyFrom.isNone then []
      else [f ((streamOf s p k).getD (bareStream p k))]) ++ s.csi.streams.filter (fun r => !(r.part == p && r.stream == k)) := by
  show (if _ then _ else _) = _
  split
  next h => exact (congrArg (· ++ _) (if_pos h) : _ = [] ++ _).symm
  next h => exact (congrArg (· ++ _) (if_neg h) : _ = [_] ++ _).symm

/-- The streams that a filter drops are found no more, the others as before. -/
theorem find?_filtered (l : List RxStream) : (l.filter (fun r => !(r.part == p && r.stream == k))).find? (fun r => r.part == q && r.stream == j) =
    if q = p ∧ j = k then none else l.find? (fun r => r.part == q && r.stream == j) := by
  split
  next h =>
    obtain ⟨rfl, rfl⟩ := h
    rw [List.find?_eq_none]
    intro r hr
    simpa [Classical.or_iff_not_imp_left] using (List.mem_filter.mp hr).2
  next h =>
    rw [List.find?_filter]
    refine congrArg (fun g => l.find? g) (funext fun r => ?_)
    by_cases hr : r.part == q && r.stream == j
    · rw [Bool.and_eq_true, beq_iff_eq, beq_iff_eq] at hr
      obtain ⟨rfl, rfl⟩ := hr
      have : (r.part == p && r.stream == k) = false := by simpa using fun h1 h2 => h ⟨h1, h2⟩
      simp [this]
    · rw [Bool.eq_false_iff.mpr hr]
      simp

/-- A binding of one stream changes no other. -/
theorem streamOf_modStream_ne (hkeep : ∀ r, (f r).part = r.part ∧ (f r).stream = r.stream) (h : q ≠ p ∨ j ≠ k) :
    streamOf (modStream s p k f) q j = streamOf s q j := by
  have hnot : ¬(q = p ∧ j = k) := fun hb => h.elim (· hb.1) (· hb.2)
  have hname : (f ((streamOf s p k).getD (bareStream p k))).part = p ∧ (f ((streamOf s p k).getD (bareStream p k))).stream = k := by
    obtain ⟨h1, h2⟩ := hkeep ((streamOf s p k).getD (bareStream p k))
    rw [h1, h2]
    cases hs : streamOf s p k with
    | none => exact ⟨rfl, rfl⟩
    | some r => simpa using List.find?_some hs
  obtain ⟨hp, hk⟩ := hname
  show (modStream s p k f).csi.streams.find? _ = _
  rw [modStream_streams, List.find?_append, find?_filtered, if_neg hnot]
  generalize f ((streamOf s p k).getD (bareStream p k)) = r at hp hk
  have hmiss : (r.part == q && r.stream == j) = false := by
    rw [hp, hk]
    simpa using fun h1 h2 => hnot ⟨h1.symm, h2.symm⟩
  split <;> simp [hmiss, streamOf]

/-- The stream that is bound. -/
theorem streamOf_modStream (hkeep : ∀ r, (f r).part = r.part ∧ (f r).stream = r.stream) :
    streamOf (modStream s p k f) p k =
      if (f ((streamOf s p k).getD (bareStream p k))).copyTo.isNone && (f ((streamOf s p k).getD (bareStream p k))).copyFrom.isNone then none
      else some (f ((streamOf s p k).getD (bareStream p k))) := by
  have hname : (f ((streamOf s p k).getD (bareStream p k))).part = p ∧ (f ((streamOf s p k).getD (bareStream p k))).stream = k := by
    obtain ⟨h1, h2⟩ := hkeep ((streamOf s p k).getD (bareStream p k))
    rw [h1, h2]
    cases hs : streamOf s p k with
    | none => exact ⟨rfl, rfl⟩
    | some r => simpa using List.find?_some hs
  obtain ⟨hp, hk⟩ := hname
  show (modStream s p k f).csi.streams.find? _ = _
  rw [modStream_streams, List.find?_append, find?_filtered, if_pos (⟨rfl, rfl⟩ : p = p ∧ k = k)]
  generalize f ((streamOf s p k).getD (bareStream p k)) = r at hp hk ⊢
  split <;> simp [hp, hk]

theorem streamOf_answered {status : Nat} : streamOf (answerBare s t status) p k = streamOf s p k :=
  (congrArg (fun u : State => streamOf u p k) (answer_offMail t status []) :)

theorem streamOf_withDue : streamOf (s.withDue rest) p k = streamOf s p k := rfl

theorem modStream_mem : (modStream s p k f).mem = s.mem := rfl

theorem getD_copyFrom (o : Option RxStream) : (o.getD (bareStream p k)).copyFrom = o.bind (fun r => r.copyFrom) := by cases o <;> rfl

theorem getD_copyTo (o : Option RxStream) : (o.getD (bareStream p k)).copyTo = o.bind (fun r => r.copyTo) := by cases o <;> rfl

/-- A binding, once answered: the stream bound, every other, and memory. -/
theorem streamOf_bound (hkeep : ∀ r, (f r).part = r.part ∧ (f r).stream = r.stream) :
    streamOf (answerBare (modStream (s.withDue rest) p k f) t 0x00) p k =
      (if (f ((streamOf s p k).getD (bareStream p k))).copyTo.isNone && (f ((streamOf s p k).getD (bareStream p k))).copyFrom.isNone then none
        else some (f ((streamOf s p k).getD (bareStream p k)))) ∧
    (∀ q j, (q ≠ p ∨ j ≠ k) → streamOf (answerBare (modStream (s.withDue rest) p k f) t 0x00) q j = streamOf s q j) ∧
    (answerBare (modStream (s.withDue rest) p k f) t 0x00).mem = s.mem :=
  ⟨streamOf_answered.trans (streamOf_modStream hkeep), fun _ _ h => streamOf_answered.trans (streamOf_modStream_ne hkeep h),
    (answerBare_mem _).trans modStream_mem⟩

end

theorem execLinkIngressCopy_first (h : firstDue s 0x6C t rest) (ha : t.field 1 1 = 1) : execLinkIngressCopy s = .next (answerBare
    (modStream (s.withDue rest) (t.part 0) (t.field 2 2) (fun r => { r with copyTo := some (t.field 4 2, t.field 6 2) })) t 0x00) :=
  onDue_first h (beq_iff_eq.mpr ha)

theorem execLinkIngressBind_first (h : firstDue s 0x6C t rest) (ha : t.field 1 1 = 2) : execLinkIngressBind s = .next (answerBare
    (modStream (s.withDue rest) (t.part 0) (t.field 2 2) (fun r => { r with copyFrom := some (t.field 4 2, t.field 6 2) })) t 0x00) :=
  onDue_first h (beq_iff_eq.mpr ha)

theorem execLinkIngressRemove_first (h : firstDue s 0x6C t rest) (ha : t.field 1 1 = 0xFF) : execLinkIngressRemove s = .next (answerBare
    (modStream (s.withDue rest) (t.part 0) (t.field 2 2) (fun r => { r with copyTo := none, copyFrom := none })) t 0x00) :=
  onDue_first h (beq_iff_eq.mpr ha)

end

/-- Settles O53: each order by its own lemma, the end of a test by `testLeft_state`. The row's time is log entry 10, a row without an
occasion log entry 26, what is checked before a plan and how ports lose their queues log entries 84 and 88, the former state log entry 89. -/
theorem linkOrdersAct : Obligations.LinkOrdersAct := by
  unfold Obligations.LinkOrdersAct
  intro s t rest p n hp
  unfold exec
  refine ⟨fun h => ⟨fun hc => (execLinkPlan_first h).trans (congrArg _ (if_pos hc)), execLinkPlan_plans h⟩,
    fun h => ⟨execLinkShare_refused h, execLinkShare_shares h⟩,
    fun h => ⟨fun hc => (execLinkJob_first h).trans (congrArg _ (if_pos hc)), execLinkJob_orders h hp⟩,
    fun h hn => ⟨execLinkPortDisable_disables h hn, execLinkPortEnable_enables h hn, execLinkPortTest_tests h hn⟩,
    fun b l e he => execLinkTestEnd_ends he b l, fun e he hh hu => execIntervalTest_due he hh hu, execLinkTestEnd_none, execIntervalTest_none,
    fun h => ?none, fun h find hfind => ?ingress⟩
  case none =>
    have hnot : ∀ typ, 0x68 ≤ typ → typ ≤ 0x6C → ∀ d ∈ s.orders.due, d.msg.typ ≠ typ := fun typ h1 h2 d hd he => by
      have := h d hd
      omega
    exact ⟨onDue_noneOfType (hnot _ (by decide) (by decide)), onDue_noneOfType (hnot _ (by decide) (by decide)),
      onDue_noneOfType (hnot _ (by decide) (by decide)), onDue_noneOfType (hnot _ (by decide) (by decide)),
      onDue_noneOfType (hnot _ (by decide) (by decide)), onDue_noneOfType (hnot _ (by decide) (by decide)),
      onDue_noneOfType (hnot _ (by decide) (by decide)), onDue_noneOfType (hnot _ (by decide) (by decide)),
      onDue_noneOfType (hnot _ (by decide) (by decide))⟩
  case ingress =>
    obtain rfl : find = streamOf := funext fun v => funext fun p => funext fun m => hfind v p m
    subst hp
    refine ⟨fun ha => ?_, fun ha => ?_, fun ha => ?_⟩
    · obtain ⟨hs, hothers, hmem⟩ := streamOf_bound (s := s) (rest := rest) (t := t) (p := t.part 0) (k := t.field 2 2)
        (f := fun r => { r with copyTo := some (t.field 4 2, t.field 6 2) }) (fun r => ⟨rfl, rfl⟩)
      exact ⟨_, _, execLinkIngressCopy_first h ha, hs, rfl, getD_copyFrom _, hothers, hmem⟩
    · obtain ⟨hs, hothers, hmem⟩ := streamOf_bound (s := s) (rest := rest) (t := t) (p := t.part 0) (k := t.field 2 2)
        (f := fun r => { r with copyFrom := some (t.field 4 2, t.field 6 2) }) (fun r => ⟨rfl, rfl⟩)
      refine ⟨_, _, execLinkIngressBind_first h ha, hs.trans (if_neg ?_), rfl, getD_copyTo _, hothers, hmem⟩
      simp
    · obtain ⟨hs, hothers, hmem⟩ := streamOf_bound (s := s) (rest := rest) (t := t) (p := t.part 0) (k := t.field 2 2)
        (f := fun r => { r with copyTo := none, copyFrom := none }) (fun r => ⟨rfl, rfl⟩)
      exact ⟨_, execLinkIngressRemove_first h ha, hs, hothers, hmem⟩

end Sys2Proof.Machine

namespace Sys2Proof.Machine

/-! ## Frames of the inbox and job keys (O55, O56) -/

section
variable {s u v : State} {n : PortId} {f : Frame} {rest : List (PortId × Frame)} {p q : PartId} {i : Nat} {m : Member} {g h : PeerKeys → PeerKeys}

/-! ### A frame leaves the inbox -/

/-- The state once the frame at the head of the inbox has left it. -/
def State.tookFrame (s : State) (n : PortId) (f : Frame) (rest : List (PortId × Frame)) : State := freeUnits { s with inbox := rest } n f

theorem tookFrame_units : (s.tookFrame n f rest).inbox = rest ∧ (s.tookFrame n f rest).parts = s.parts ∧ (s.tookFrame n f rest).mem = s.mem ∧
    (s.tookFrame n f rest).now = s.now ∧ (s.tookFrame n f rest).requests = s.requests ∧ (s.tookFrame n f rest).csi = s.csi :=
  ⟨rfl, rfl, rfl, rfl, rfl, rfl⟩

theorem takeInbox_head {ok : PortId × Frame → Bool} (hin : s.inbox = (n, f) :: rest) (hok : ok (n, f) = true) :
    takeInbox s ok = some ((n, f), s.tookFrame n f rest) := by
  unfold takeInbox
  rw [hin, List.find?_cons_of_pos hok]
  dsimp only
  rw [List.erase_cons_head]
  rfl

theorem onFrame_head {typ : Nat} {act : PortId → Frame → State → State} (hin : s.inbox = (n, f) :: rest) (ht : f.typ = typ) :
    onFrame s typ act = .next (act n f (s.tookFrame n f rest)) := by
  unfold onFrame
  rw [takeInbox_head (ok := fun e => e.2.typ == typ) hin (beq_iff_eq.mpr ht)]

theorem takeInbox_noneOfType {typ : Nat} {ok : PortId × Frame → Bool} (hnot : ∀ e ∈ s.inbox, e.2.typ ≠ typ) (hok : ∀ e, ok e = true → e.2.typ = typ) :
    takeInbox s ok = none := by
  have hno : s.inbox.find? ok = none := List.find?_eq_none.mpr fun e he h => hnot e he (hok e h)
  unfold takeInbox
  rw [hno]

theorem onFrame_noneOfType {typ : Nat} {act : PortId → Frame → State → State} (hnot : ∀ e ∈ s.inbox, e.2.typ ≠ typ) : onFrame s typ act = .next s := by
  unfold onFrame
  rw [takeInbox_noneOfType hnot fun e h => beq_iff_eq.mp h]

/-! ### Payloads -/

theorem pad64_prefix (bs : Bytes) : ∃ z, pad64 bs = bs ++ z := by
  have hlen : bs.length ≤ 64 * ceilDiv bs.length 64 := by
    unfold ceilDiv
    omega
  refine ⟨List.replicate (64 * ceilDiv bs.length 64 - bs.length) 0, List.take_of_length_le ?_⟩
  rw [List.length_append, List.length_replicate]
  omega

/-- The KEYID of a key agreement message (log entry 24). -/
theorem kaKeyid_fields (job keyid : Nat) (nonce pub cert more : Bytes) : kaKeyid (pad64 (kaFields job keyid nonce pub cert ++ more)) = keyid % 256 := by
  obtain ⟨z, hz⟩ := pad64_prefix (kaFields job keyid nonce pub cert ++ more)
  have hfield := fieldAt_leBytes (leBytes 4 job) (nonce ++ (pub ++ (padTo 480 cert ++ (more ++ z)))) 1 keyid
  rw [leBytes_length] at hfield
  unfold kaKeyid
  rw [hz]
  unfold kaFields
  simp only [List.append_assoc]
  exact hfield

theorem kaKeyid_hello (job keyid : Nat) (nonce pub cert : Bytes) : kaKeyid (pad64 (kaFields job keyid nonce pub cert)) = keyid % 256 := by
  simpa using kaKeyid_fields job keyid nonce pub cert []

/-! ### Changes of the keys of one member -/

/-- `u` differs from `s` at most in the keys of one member of `p`, which are changed by `g`, and in what neither memory, the inbox nor
another partition shows. -/
structure Keyed (s u : State) (p : PartId) (i : Nat) (g : PeerKeys → PeerKeys) : Prop where
  besides : u.besides p = s.besides p
  inbox : u.inbox = s.inbox
  member : ∀ m, memberOf (s.part p) i = some m → memberOf (u.part p) i = some { m with keys := g m.keys }
  agrees : agreesKeys (u.part p) = agreesKeys (s.part p)

theorem Keyed.trans (hu : Keyed s u p i g) (hv : Keyed u v p i h) : Keyed s v p i (fun k => h (g k)) where
  besides := hv.besides.trans hu.besides
  inbox := hv.inbox.trans hu.inbox
  member m hm := hv.member _ (hu.member m hm)
  agrees := hv.agrees.trans hu.agrees

/-- What changes neither partitions, memory, time nor the inbox. -/
theorem Keyed.after (hu : Keyed s u p i g) (hunits : (v.parts, v.mem, v.now, v.inbox) = (u.parts, u.mem, u.now, u.inbox)) : Keyed s v p i g := by
  simp only [Prod.mk.injEq] at hunits
  obtain ⟨hparts, hmem, hnow, hinbox⟩ := hunits
  have hpart : v.part = u.part := funext fun q => by unfold State.part; rw [hparts]
  exact ⟨by rw [← hu.besides]; unfold State.besides; rw [hmem, hnow, hpart], hinbox.trans hu.inbox, fun m hm => by rw [hpart]; exact hu.member m hm,
    by rw [hpart]; exact hu.agrees⟩

/-- The same, before the change. -/
theorem Keyed.from (hunits : (u.parts, u.mem, u.now, u.inbox) = (s.parts, s.mem, s.now, s.inbox)) (hv : Keyed u v p i g) : Keyed s v p i g := by
  simp only [Prod.mk.injEq] at hunits
  obtain ⟨hparts, hmem, hnow, hinbox⟩ := hunits
  have hpart : u.part = s.part := funext fun q => by unfold State.part; rw [hparts]
  exact ⟨by rw [hv.besides]; unfold State.besides; rw [hmem, hnow, hpart], hv.inbox.trans hinbox, fun m hm => hv.member m (by rw [hpart]; exact hm),
    by rw [← hpart]; exact hv.agrees⟩

theorem Keyed.mem (hu : Keyed s u p i g) : u.mem = s.mem := congrArg (fun w => w.1) hu.besides

theorem Keyed.now (hu : Keyed s u p i g) : u.now = s.now := congrArg (fun w => w.2.1) hu.besides

theorem Keyed.others (hu : Keyed s u p i g) : ∀ q, q ≠ p → u.part q = s.part q := fun _ hq => besides_part hu.besides hq

/-- The members of a job with the keys of one changed. -/
def rekeyed (i : Nat) (g : PeerKeys → PeerKeys) (ms : List (Nat × Member)) : List (Nat × Member) :=
  ms.map (fun m => if m.1 = i then (m.1, { m.2 with keys := g m.2.keys }) else m)

theorem assocGet_rekeyed (ms : List (Nat × Member)) :
    assocGet i (rekeyed i g ms) = (assocGet i ms).map (fun m => { m with keys := g m.keys }) := by
  unfold rekeyed assocGet
  induction ms with
  | nil => rfl
  | cons e es ih =>
    by_cases he : e.1 = i
    · simp [he]
    · simpa [he] using ih

theorem modKeysOf_part : (modKeysOf s p i g).part p =
    { s.part p with job := (s.part p).job.map (fun j => { j with members := rekeyed i g j.members }) } := State.modPart_part ..

theorem modKeysOf_keyed (g : PeerKeys → PeerKeys) : Keyed s (modKeysOf s p i g) p i g where
  besides := modKeysOf_besides g
  inbox := rfl
  member m hm := by
    rw [modKeysOf_part]
    unfold memberOf at hm ⊢
    cases hj : (s.part p).job with
    | none => simp [hj] at hm
    | some j =>
      rw [hj] at hm
      replace hm : assocGet i j.members = some m := hm
      show assocGet i (rekeyed i g j.members) = _
      rw [assocGet_rekeyed, hm]
      rfl
  agrees := by
    rw [modKeysOf_part]
    unfold agreesKeys jobComplete
    cases hj : (s.part p).job with
    | none => simp
    | some j => simp [rekeyed]

theorem sendControl_units (typ place ring : Nat) (payload : Bytes) :
    ((sendControl s typ place ring payload).parts, (sendControl s typ place ring payload).mem, (sendControl s typ place ring payload).now,
      (sendControl s typ place ring payload).inbox) = (s.parts, s.mem, s.now, s.inbox) := by
  unfold sendControl
  rw [sendFrame_eq]

theorem event_units (unitNo code part : Nat) (data : Bytes) : ((s.event unitNo code part data).parts, (s.event unitNo code part data).mem,
    (s.event unitNo code part data).now, (s.event unitNo code part data).inbox) = (s.parts, s.mem, s.now, s.inbox) := by
  rw [State.event_parts, State.event_mem, State.event_now, State.event_inbox]

theorem signIdentity_units (msg : Bytes) : ((signIdentity s msg).2.parts, (signIdentity s msg).2.mem, (signIdentity s msg).2.now,
    (signIdentity s msg).2.inbox) = (s.parts, s.mem, s.now, s.inbox) := by
  unfold signIdentity
  split <;> rfl

/-! ### Messages of the agreement -/

/-- The keys of a member to which KA_HELLO has just been sent (12 R326). -/
def PeerKeys.helloSent (priv : BitVec 384) (hello : Bytes) (now : Ns) (k : PeerKeys) : PeerKeys :=
  { k with stage := 1, priv := priv, hello := hello, reply := [], attempts := 1, sentAt := now, retryAt := none }

theorem sendHello_keyed (hm : memberOf (s.part p) i = some m) :
    ∃ priv hello, kaKeyid hello = m.keys.keyid % 255 + 1 ∧ Keyed s (sendHello s p i) p i (PeerKeys.helloSent priv hello s.now) := by
  obtain ⟨j, hj⟩ : ∃ j, (s.part p).job = some j := by
    unfold memberOf at hm
    cases hj : (s.part p).job with
    | none => simp [hj] at hm
    | some j => exact ⟨j, rfl⟩
  refine ⟨(drawPair s).1, pad64 (kaFields j.job (nextKeyid m.keys.keyid) (drawPair s).2.1 (pubKey (privKey (drawPair s).1.toNat)) s.fuses.cert), ?_, ?_⟩
  · rw [kaKeyid_hello]
    unfold nextKeyid
    omega
  · unfold sendHello
    rw [hm, hj]
    dsimp only
    refine Keyed.after (u := modKeysOf (drawPair s).2.2 p i (PeerKeys.helloSent _ _ s.now)) ?_ (sendControl_units ..)
    exact Keyed.from (s := s) (u := (drawPair s).2.2) rfl (modKeysOf_keyed _)

theorem agreementFail_keyed (cause : Nat) : Keyed s (agreementFail s p i cause) p i
    (fun k => { k with stage := 0, failed := true, retryAt := some (s.now + sec 10) }) :=
  (modKeysOf_keyed _).after (event_units ..)

end

end Sys2Proof.Machine

namespace Sys2Proof.Machine

section
variable {s u : State} {n : PortId} {f : Frame} {rest : List (PortId × Frame)} {p q : PartId} {i : Nat} {m : Member}

/-! ### KA_HELLO, KA_REPLY and KA_CONFIRM -/

theorem tookFrame_keyed {v : State} {g : PeerKeys → PeerKeys} (h : Keyed (s.tookFrame n f rest) v p i g) : Keyed { s with inbox := rest } v p i g :=
  Keyed.from (u := s.tookFrame n f rest) rfl h

/-- The keys of a member change after this one has signed. -/
theorem signed_keyed (msg : Bytes) (g : PeerKeys → PeerKeys) : Keyed s (modKeysOf (signIdentity s msg).2 p i g) p i g :=
  Keyed.from (signIdentity_units msg) (modKeysOf_keyed g)

/-- The same, after it has drawn an ephemeral key too. -/
theorem drawnSigned_keyed (msg : Bytes) (g : PeerKeys → PeerKeys) : Keyed s (modKeysOf (signIdentity (drawPair s).2.2 msg).2 p i g) p i g :=
  Keyed.from (u := (drawPair s).2.2) rfl (signed_keyed msg g)

theorem helloMember_took : helloMember (s.tookFrame n f rest) f = helloMember s f := rfl

theorem replyMember_took : replyMember (s.tookFrame n f rest) f = replyMember s f := rfl

theorem confirmMember_took : confirmMember (s.tookFrame n f rest) f = confirmMember s f := rfl

theorem findMember_took (ok : Part → Nat × Member → Bool) : findMember (s.tookFrame n f rest) ok = findMember s ok := rfl

theorem part_took : (s.tookFrame n f rest).part p = s.part p := rfl

theorem certFault_took (c : Bytes) : certFault (s.tookFrame n f rest) m c = certFault s m c := rfl

theorem execKaHello_none (hin : s.inbox = (n, f) :: rest) (ht : f.typ = 0x01) (hw : helloMember s f = none) :
    execKaHello s = .next (s.tookFrame n f rest) := by
  unfold execKaHello
  rw [onFrame_head hin ht, helloMember_took, hw]

/-- The own fields of the KA_REPLY to a KA_HELLO. -/
def replyFields (s : State) (f : Frame) : Bytes :=
  kaFields (kaJob f.payload) (kaKeyid f.payload) (drawPair s).2.1 (pubKey (privKey (drawPair s).1.toNat)) s.fuses.cert

/-- The KA_REPLY to a KA_HELLO (log entry 24). -/
def replyTo (s : State) (f : Frame) : Bytes := pad64 (replyFields s f ++ (signIdentity (drawPair s).2.2 (f.payload ++ replyFields s f)).1)

/-- The secret that a KA_REPLY leads to (12 R327). -/
def replySecret (s : State) (m : Member) (f : Frame) : Bytes :=
  jobSecret (kaJob f.payload) (kaKeyid f.payload) s.place m.place (kaNonce m.keys.hello) (kaNonce f.payload)
    (ecdh (privKey m.keys.priv.toNat) (pointOf (kaPub f.payload)))

/-- A KA_HELLO that verifies is answered (12 R326). -/
theorem execKaHello_replies (hin : s.inbox = (n, f) :: rest) (ht : f.typ = 0x01) (hw : helloMember s f = some (p, i))
    (hm : memberOf (s.part p) i = some m) (hcert : certFault s m (kaCert f.payload) = 0) (hpoint : (pointOf (kaPub f.payload)).isSome = true) :
    ∃ u priv reply, execKaHello s = .next u ∧ Keyed { s with inbox := rest } u p i
      (fun k => { k with stage := 2, priv := priv, hello := f.payload, reply := reply, attempts := 1, sentAt := s.now }) ∧
      kaKeyid reply = kaKeyid f.payload := by
  have hid : kaKeyid f.payload < 256 := fieldAt_lt _ _ 1
  unfold execKaHello
  rw [onFrame_head hin ht, helloMember_took, hw]
  dsimp only
  rw [part_took, hm]
  dsimp only
  rw [certFault_took, if_neg (not_not.mpr hcert), if_neg (by simpa using Option.isSome_iff_ne_none.mp hpoint)]
  refine ⟨_, (drawPair (s.tookFrame n f rest)).1, replyTo (s.tookFrame n f rest) f, rfl, ?_, (kaKeyid_fields ..).trans (Nat.mod_eq_of_lt hid)⟩
  refine Keyed.after (u := modKeysOf _ p i _) ?_ (sendControl_units ..)
  exact tookFrame_keyed (n := n) (f := f) (drawnSigned_keyed _ _)

theorem execKaHello_fails (hin : s.inbox = (n, f) :: rest) (ht : f.typ = 0x01) (hw : helloMember s f = some (p, i))
    (hm : memberOf (s.part p) i = some m) (hbad : certFault s m (kaCert f.payload) ≠ 0 ∨ pointOf (kaPub f.payload) = none) :
    ∃ cause, execKaHello s = .next (agreementFail (s.tookFrame n f rest) p i cause) := by
  unfold execKaHello
  rw [onFrame_head hin ht, helloMember_took, hw]
  dsimp only
  rw [part_took, hm]
  dsimp only
  rw [certFault_took]
  by_cases hcert : certFault s m (kaCert f.payload) = 0
  · rw [if_neg (not_not.mpr hcert), if_pos (by simpa using hbad.resolve_left (not_not.mpr hcert))]
    exact ⟨_, rfl⟩
  · rw [if_pos hcert]
    exact ⟨_, rfl⟩

theorem execKaReply_none (hin : s.inbox = (n, f) :: rest) (ht : f.typ = 0x02) (hw : replyMember s f = none) :
    execKaReply s = .next (s.tookFrame n f rest) := by
  unfold execKaReply
  rw [onFrame_head hin ht, replyMember_took, hw]

/-- A KA_REPLY that verifies makes the new keys live (12 R326, R327). -/
theorem execKaReply_keys (hin : s.inbox = (n, f) :: rest) (ht : f.typ = 0x02) (hw : replyMember s f = some (p, i))
    (hm : memberOf (s.part p) i = some m) (hcert : certFault s m (kaCert f.payload) = 0) (hpoint : (pointOf (kaPub f.payload)).isSome = true)
    (hsign : ecdsaVerify (certKey (kaCert f.payload)) (m.keys.hello ++ f.payload.take kaSize) (slice f.payload kaSize 96) = true) :
    ∃ u secret, execKaReply s = .next u ∧ Keyed { s with inbox := rest } u p i (fun k => newKeys k (kaKeyid f.payload) secret true) := by
  unfold execKaReply
  rw [onFrame_head hin ht, replyMember_took, hw]
  dsimp only
  rw [part_took, hm]
  dsimp only
  rw [certFault_took, if_neg (not_not.mpr hcert), if_neg (by simp [hsign, Option.isSome_iff_ne_none.mp hpoint])]
  refine ⟨_, replySecret (s.tookFrame n f rest) m f, rfl, ?_⟩
  refine Keyed.after (u := modKeysOf _ p i _) ?_ (sendControl_units ..)
  exact tookFrame_keyed (n := n) (f := f) (signed_keyed _ _)

theorem execKaReply_fails (hin : s.inbox = (n, f) :: rest) (ht : f.typ = 0x02) (hw : replyMember s f = some (p, i))
    (hm : memberOf (s.part p) i = some m) (hbad : certFault s m (kaCert f.payload) ≠ 0 ∨ pointOf (kaPub f.payload) = none ∨
      ecdsaVerify (certKey (kaCert f.payload)) (m.keys.hello ++ f.payload.take kaSize) (slice f.payload kaSize 96) = false) :
    ∃ cause, execKaReply s = .next (agreementFail (s.tookFrame n f rest) p i cause) := by
  unfold execKaReply
  rw [onFrame_head hin ht, replyMember_took, hw]
  dsimp only
  rw [part_took, hm]
  dsimp only
  rw [certFault_took]
  by_cases hcert : certFault s m (kaCert f.payload) = 0
  · rw [if_neg (not_not.mpr hcert), if_pos (by simpa using hbad.resolve_left (not_not.mpr hcert))]
    exact ⟨_, rfl⟩
  · rw [if_pos hcert]
    exact ⟨_, rfl⟩

theorem execKaConfirm_none (hin : s.inbox = (n, f) :: rest) (ht : f.typ = 0x03)
    (hw : findMember s (fun _ m => m.2.place == f.src && m.2.keys.stage == 2) = none) : execKaConfirm s = .next (s.tookFrame n f rest) := by
  have hno : confirmMember s f = none := by
    unfold confirmMember
    unfold findMember at hw ⊢
    rw [List.findSome?_eq_none_iff] at hw ⊢
    intro p hp
    have h := hw p hp
    cases hj : (s.part p).job with
    | none => rfl
    | some j =>
      rw [hj] at h
      dsimp only at h ⊢
      rw [Option.map_eq_none_iff, List.find?_eq_none] at h ⊢
      intro x hx
      have := h x hx
      simp_all
  unfold execKaConfirm
  rw [onFrame_head hin ht, confirmMember_took, hno]
  dsimp only
  rw [findMember_took, hw]

/-- A KA_CONFIRM that verifies makes the responder's keys live (12 R326, R327). -/
theorem execKaConfirm_keys (hin : s.inbox = (n, f) :: rest) (ht : f.typ = 0x03) (hw : confirmMember s f = some (p, i))
    (hm : memberOf (s.part p) i = some m) :
    ∃ u secret, execKaConfirm s = .next u ∧ Keyed { s with inbox := rest } u p i (fun k => newKeys k (kaKeyid m.keys.hello) secret false) := by
  unfold execKaConfirm
  rw [onFrame_head hin ht, confirmMember_took, hw]
  dsimp only
  rw [part_took, hm]
  exact ⟨_, _, rfl, tookFrame_keyed (modKeysOf_keyed _)⟩

theorem execKaConfirm_fails (hin : s.inbox = (n, f) :: rest) (ht : f.typ = 0x03) (hno : confirmMember s f = none)
    (hw : findMember s (fun _ m => m.2.place == f.src && m.2.keys.stage == 2) = some (p, i)) :
    execKaConfirm s = .next (agreementFail (s.tookFrame n f rest) p i 1) := by
  unfold execKaConfirm
  rw [onFrame_head hin ht, confirmMember_took, hno]
  dsimp only
  rw [findMember_took, hw]

/-- A failed agreement at the head of the inbox. -/
theorem agreementFail_took (cause : Nat) : Keyed { s with inbox := rest } (agreementFail (s.tookFrame n f rest) p i cause) p i
    (fun k => { k with stage := 0, failed := true, retryAt := some (s.now + sec 10) }) :=
  tookFrame_keyed (agreementFail_keyed cause)

/-! ### Retries, rekeying and teardown -/

theorem execKeyAgreementStart_due (hk : agreesKeys (s.part p) = true) (hd : helloDue s (s.part p) = some i) :
    execKeyAgreementStart p s = .next (sendHello s p i) := by
  unfold execKeyAgreementStart
  rw [if_pos hk, hd]

theorem execKeyAgreementStart_idle (h : agreesKeys (s.part p) = false ∨ helloDue s (s.part p) = none) : execKeyAgreementStart p s = .next s := by
  unfold execKeyAgreementStart
  split
  next hk => rw [h.resolve_left (Bool.eq_false_iff.not.mpr (not_not.mpr hk))]
  next => rfl

/-- An unanswered message (12 R331). -/
theorem execKaRetryTimeout_retries (hm : memberOf (s.part p) i = some m) (hs : m.keys.stage ≠ 0) :
    ∃ u g, execKaRetryTimeout p i s = .next u ∧ Keyed (s.reach (m.keys.sentAt + 100000000)) u p i g ∧
      (m.keys.attempts < 3 → g m.keys = { m.keys with attempts := m.keys.attempts + 1, sentAt := max s.now (m.keys.sentAt + 100000000) }) ∧
      (3 ≤ m.keys.attempts → g m.keys = { m.keys with stage := 0, failed := true, retryAt := some (max s.now (m.keys.sentAt + 100000000) + 10000000000) }) := by
  unfold execKaRetryTimeout
  rw [hm]
  dsimp only
  have hms : m.keys.sentAt + ms 100 = m.keys.sentAt + 100000000 := rfl
  rw [if_neg hs, hms]
  have hnow : (s.reach (m.keys.sentAt + 100000000)).now = max s.now (m.keys.sentAt + 100000000) := rfl
  generalize s.reach (m.keys.sentAt + 100000000) = a at hnow ⊢
  by_cases h3 : 3 ≤ m.keys.attempts
  · rw [if_pos h3]
    exact ⟨_, _, rfl, agreementFail_keyed 4, fun h => absurd h (Nat.not_lt.mpr h3), fun _ => by rw [hnow]; rfl⟩
  · rw [if_neg h3]
    refine ⟨_, _, rfl, Keyed.after (modKeysOf_keyed (fun k => { k with attempts := k.attempts + 1, sentAt := a.now })) ?_,
      fun _ => by rw [hnow], fun h => absurd h h3⟩
    split
    · exact sendControl_units ..
    · exact sendControl_units ..

theorem execKaRetryInterval_retries {e : Ns} (hm : memberOf (s.part p) i = some m) (he : m.keys.retryAt = some e) :
    ∃ u g, execKaRetryInterval p i s = .next u ∧ Keyed (s.reach e) u p i g ∧ (g m.keys).retryAt = none ∧
      (startsAgain s m = true → agreesKeys (s.part p) = true → (g m.keys).stage = 1 ∧ (g m.keys).attempts = 1) ∧
      ((startsAgain s m = false ∨ agreesKeys (s.part p) = false) → g m.keys = { m.keys with retryAt := none }) := by
  have hkeyed := modKeysOf_keyed (s := s.reach e) (p := p) (i := i) (fun k => { k with retryAt := none })
  have hagain : startsAgain (modKeysOf (s.reach e) p i (fun k => { k with retryAt := none })) m = startsAgain s m := rfl
  have hrun : execKaRetryInterval p i s = .next (if startsAgain (modKeysOf (s.reach e) p i (fun k => { k with retryAt := none })) m &&
      agreesKeys ((modKeysOf (s.reach e) p i (fun k => { k with retryAt := none })).part p)
      then sendHello (modKeysOf (s.reach e) p i (fun k => { k with retryAt := none })) p i
      else modKeysOf (s.reach e) p i (fun k => { k with retryAt := none })) := by
    unfold execKaRetryInterval
    rw [hm]
    dsimp only
    rw [he]
  have hpart : (s.reach e).part p = s.part p := rfl
  generalize modKeysOf (s.reach e) p i (fun k => { k with retryAt := none }) = a at hkeyed hagain hrun
  rw [hagain, hkeyed.agrees, hpart] at hrun
  by_cases hgo : (startsAgain s m && agreesKeys (s.part p)) = true
  · obtain ⟨priv, hello, -, hsent⟩ := sendHello_keyed (hkeyed.member m (by rw [hpart]; exact hm))
    rw [if_pos hgo] at hrun
    refine ⟨_, _, hrun, hkeyed.trans hsent, rfl, fun _ _ => ⟨rfl, rfl⟩, fun hno => ?_⟩
    obtain ⟨h1, h2⟩ := Bool.and_eq_true_iff.mp hgo
    simp [h1, h2] at hno
  · rw [if_neg hgo] at hrun
    exact ⟨_, _, hrun, hkeyed, rfl, fun h1 h2 => absurd (Bool.and_eq_true_iff.mpr ⟨h1, h2⟩) hgo, fun _ => rfl⟩

theorem execJobKeyRekey_eq (hm : memberOf (s.part p) i = some m) : execJobKeyRekey p i s =
    if m.keys.live && m.keys.stage = 0 && starts s m && (2 ^ 36 ≤ m.keys.txCount || 2 ^ 36 ≤ m.keys.rxHigh) then .next (sendHello s p i) else .next s := by
  unfold execJobKeyRekey
  rw [hm]
  rfl

theorem execOldKeyidExpiry_ends {e : Ns} (hm : memberOf (s.part p) i = some m) (he : m.keys.oldUntil = some e) :
    execOldKeyidExpiry p i s = .next (modKeysOf (s.reach e) p i (fun k => { k with old := none, oldUntil := none })) := by
  unfold execOldKeyidExpiry
  rw [hm]
  dsimp only [Option.bind]
  rw [he]

/-- 16 failed frames within 1 s (12 R331, log entry 90). -/
theorem execGcmFailTeardown_tears (hm : memberOf (s.part p) i = some m)
    (h16 : 16 ≤ (m.keys.fails.filter (fun e => s.now < e + 1000000000)).length) :
    ∃ u g, execGcmFailTeardown p i s = .next u ∧ Keyed s u p i g ∧ (g m.keys).live = false ∧ (g m.keys).old = none ∧ (g m.keys).keyid = m.keys.keyid ∧
      (agreesKeys (s.part p) = true → (g m.keys).stage = 1 ∧ (g m.keys).attempts = 1) := by
  have hkeyed : Keyed s ((modKeysOf s p i (fun k => { PeerKeys.init with keyid := k.keyid })).event
      (peerSource (modKeysOf s p i (fun k => { PeerKeys.init with keyid := k.keyid })) m.place) 0x0705 p.val (leBytes 2 m.place)) p i
      (fun k => { PeerKeys.init with keyid := k.keyid }) := (modKeysOf_keyed _).after (event_units ..)
  have hrun : execGcmFailTeardown p i s = .next (if agreesKeys (((modKeysOf s p i (fun k => { PeerKeys.init with keyid := k.keyid })).event
      (peerSource s m.place) 0x0705 p.val (leBytes 2 m.place)).part p)
      then sendHello ((modKeysOf s p i (fun k => { PeerKeys.init with keyid := k.keyid })).event (peerSource s m.place) 0x0705 p.val (leBytes 2 m.place)) p i
      else (modKeysOf s p i (fun k => { PeerKeys.init with keyid := k.keyid })).event (peerSource s m.place) 0x0705 p.val (leBytes 2 m.place)) := by
    unfold execGcmFailTeardown
    rw [hm]
    exact if_neg (Nat.not_lt.mpr h16)
  have hsource : peerSource (modKeysOf s p i (fun k => { PeerKeys.init with keyid := k.keyid })) m.place = peerSource s m.place := rfl
  rw [hsource] at hkeyed
  generalize (modKeysOf s p i (fun k => { PeerKeys.init with keyid := k.keyid })).event (peerSource s m.place) 0x0705 p.val (leBytes 2 m.place) = a at hkeyed hrun
  rw [hkeyed.agrees] at hrun
  by_cases hgo : agreesKeys (s.part p) = true
  · obtain ⟨priv, hello, -, hsent⟩ := sendHello_keyed (hkeyed.member m hm)
    rw [if_pos hgo] at hrun
    exact ⟨_, _, hrun, hkeyed.trans hsent, rfl, rfl, rfl, fun _ => ⟨rfl, rfl⟩⟩
  · rw [if_neg hgo] at hrun
    exact ⟨_, _, hrun, hkeyed, rfl, rfl, rfl, fun h => absurd h hgo⟩

/-! ### Rows without an occasion -/

theorem kaRows_noMember (hm : memberOf (s.part p) i = none) : execKaRetryTimeout p i s = .next s ∧ execKaRetryInterval p i s = .next s ∧
    execJobKeyRekey p i s = .next s ∧ execOldKeyidExpiry p i s = .next s ∧ execGcmFailTeardown p i s = .next s := by
  unfold execKaRetryTimeout execKaRetryInterval execJobKeyRekey execOldKeyidExpiry execGcmFailTeardown
  rw [hm]
  exact ⟨rfl, rfl, rfl, rfl, rfl⟩

theorem execKaRetryTimeout_idle (hm : memberOf (s.part p) i = some m) (hs : m.keys.stage = 0) : execKaRetryTimeout p i s = .next s := by
  unfold execKaRetryTimeout
  rw [hm]
  exact if_pos hs

theorem execKaRetryInterval_idle (hm : memberOf (s.part p) i = some m) (hr : m.keys.retryAt = none) : execKaRetryInterval p i s = .next s := by
  unfold execKaRetryInterval
  rw [hm]
  dsimp only
  rw [hr]

theorem execOldKeyidExpiry_idle (hm : memberOf (s.part p) i = some m) (ho : m.keys.oldUntil = none) : execOldKeyidExpiry p i s = .next s := by
  unfold execOldKeyidExpiry
  rw [hm]
  dsimp only [Option.bind]
  rw [ho]

theorem execGcmFailTeardown_idle (hm : memberOf (s.part p) i = some m)
    (h16 : (m.keys.fails.filter (fun e => s.now < e + 1000000000)).length < 16) : execGcmFailTeardown p i s = .next s := by
  unfold execGcmFailTeardown
  rw [hm]
  exact if_pos h16

/-- A starter's sending key is the responder's receiving one, and the reverse (12 R327). -/
theorem newKeys_mirror (k k' : PeerKeys) (id : Nat) (x : Bytes) : (newKeys k id x true).txKey = (newKeys k' id x false).rxKey ∧
    (newKeys k id x true).txSalt = (newKeys k' id x false).rxSalt ∧ (newKeys k id x true).rxKey = (newKeys k' id x false).txKey ∧
    (newKeys k id x true).rxSalt = (newKeys k' id x false).txSalt := ⟨rfl, rfl, rfl, rfl⟩

/-- What a row that takes the head of the inbox leaves, when it changes the keys of one member. -/
theorem Keyed.took {g : PeerKeys → PeerKeys} (h : Keyed { s with inbox := rest } u p i g) (hm : memberOf (s.part p) i = some m) :
    u.inbox = rest ∧ memberOf (u.part p) i = some { m with keys := g m.keys } ∧ u.mem = s.mem ∧ ∀ q, q ≠ p → u.part q = s.part q :=
  ⟨h.inbox, h.member m hm, h.mem, h.others⟩

end

/-- Settles O55: each row changes the keys of one member (`Keyed`). The messages are log entry 24, KEYIDs and who starts again log entry 90,
the oldest frame and a row without an occasion log entry 26, a row's time log entry 10. -/
theorem keyAgreementActs : Obligations.KeyAgreementActs := by
  unfold Obligations.KeyAgreementActs exec
  refine ⟨fun s => ⟨onFrame_noneOfType, onFrame_noneOfType, onFrame_noneOfType, fun n f rest hin => ⟨?_, ?_, ?_⟩, fun p => execKeyAgreementStart_idle,
    fun p i => kaRows_noMember⟩, fun s p i m hm => ⟨execKaRetryTimeout_idle hm, execKaRetryInterval_idle hm, execOldKeyidExpiry_idle hm, ?norekey,
      execGcmFailTeardown_idle hm, newKeys_mirror, ?start, ?hello, ?reply, ?confirm, ?unconfirmed, ?timeout, ?interval, ?rekey, ?expiry, ?teardown⟩⟩
  · exact fun ht hw => ⟨_, execKaHello_none hin ht hw, rfl, rfl, rfl⟩
  · exact fun ht hw => ⟨_, execKaReply_none hin ht hw, rfl, rfl, rfl⟩
  · exact fun ht hw => ⟨_, execKaConfirm_none hin ht hw, rfl, rfl, rfl⟩
  case norekey =>
    intro hno
    refine (execJobKeyRekey_eq hm).trans (if_neg ?_)
    obtain h | h | h := hno <;> simp [h]
  case start =>
    intro hk hd
    obtain ⟨priv, hello, hid, hkeyed⟩ := sendHello_keyed hm
    exact ⟨_, _, execKeyAgreementStart_due hk hd, hkeyed.member m hm, rfl, rfl, rfl, rfl, hid, rfl, hkeyed.mem, hkeyed.others⟩
  case hello =>
    intro n f rest hin ht hw
    refine ⟨fun hcert hpoint => ?_, fun hbad => ?_⟩
    · obtain ⟨u, priv, reply, hrun, hkeyed, hid⟩ := execKaHello_replies hin ht hw hm hcert hpoint
      obtain ⟨hinbox, hmember, hmem, hothers⟩ := hkeyed.took hm
      exact ⟨u, _, hrun, hinbox, hmember, rfl, rfl, hid, rfl, hmem, hothers⟩
    · obtain ⟨cause, hrun⟩ := execKaHello_fails hin ht hw hm hbad
      obtain ⟨hinbox, hmember, hmem, -⟩ := (agreementFail_took (s := s) (n := n) (f := f) (rest := rest) (p := p) (i := i) cause).took hm
      exact ⟨_, _, hrun, hinbox, hmember, rfl, rfl, rfl, hmem⟩
  case reply =>
    intro n f rest hin ht hw
    refine ⟨fun hcert hpoint hsign => ?_, fun hbad => ?_⟩
    · obtain ⟨u, secret, hrun, hkeyed⟩ := execKaReply_keys hin ht hw hm hcert hpoint hsign
      obtain ⟨hinbox, hmember, hmem, hothers⟩ := hkeyed.took hm
      exact ⟨u, _, hrun, hinbox, hmember, rfl, rfl, rfl, rfl, rfl, rfl, rfl, hmem, hothers⟩
    · obtain ⟨cause, hrun⟩ := execKaReply_fails hin ht hw hm hbad
      obtain ⟨hinbox, hmember, hmem, -⟩ := (agreementFail_took (s := s) (n := n) (f := f) (rest := rest) (p := p) (i := i) cause).took hm
      exact ⟨_, _, hrun, hinbox, hmember, rfl, rfl, rfl, hmem⟩
  case confirm =>
    intro n f rest hin ht hw
    obtain ⟨u, secret, hrun, hkeyed⟩ := execKaConfirm_keys hin ht hw hm
    obtain ⟨hinbox, hmember, hmem, hothers⟩ := hkeyed.took hm
    exact ⟨u, _, hrun, hinbox, hmember, rfl, rfl, rfl, rfl, rfl, hmem, hothers⟩
  case unconfirmed =>
    intro n f rest hin ht hno hw
    obtain ⟨-, hmember, hmem, -⟩ := (agreementFail_took (s := s) (n := n) (f := f) (rest := rest) (p := p) (i := i) 1).took hm
    exact ⟨_, _, execKaConfirm_fails hin ht hno hw, hmember, rfl, rfl, rfl, rfl, hmem⟩
  case timeout =>
    intro hs
    obtain ⟨u, g, hrun, hkeyed, hagain, hfail⟩ := execKaRetryTimeout_retries hm hs
    refine ⟨u, _, hrun, hkeyed.now, hkeyed.member m hm, fun h => ?_, fun h => ?_, hkeyed.mem⟩
    · rw [hagain h, hkeyed.now]
      exact ⟨rfl, rfl, rfl⟩
    · rw [hfail h, hkeyed.now]
      exact ⟨rfl, rfl, rfl⟩
  case interval =>
    intro e he
    obtain ⟨u, g, hrun, hkeyed, hnone, hstart, hwait⟩ := execKaRetryInterval_retries hm he
    exact ⟨u, _, hrun, hkeyed.now, hkeyed.member m hm, hnone, hstart, hwait, hkeyed.mem⟩
  case rekey =>
    intro hlive hstage hstarts
    refine ⟨fun hmany => ?_, fun htx hrx => (execJobKeyRekey_eq hm).trans (if_neg ?_)⟩
    · obtain ⟨priv, hello, hid, hkeyed⟩ := sendHello_keyed hm
      refine ⟨_, _, (execJobKeyRekey_eq hm).trans (if_pos ?_), hkeyed.member m hm, rfl, hlive, hid, hkeyed.mem⟩
      simpa [hlive, hstage, hstarts] using hmany
    · simpa [hlive, hstage, hstarts] using ⟨htx, hrx⟩
  case expiry =>
    intro e he
    have hkeyed := modKeysOf_keyed (s := s.reach e) (p := p) (i := i) (fun k => { k with old := none, oldUntil := none })
    exact ⟨_, _, execOldKeyidExpiry_ends hm he, hkeyed.now, hkeyed.member m hm, rfl, hkeyed.mem⟩
  case teardown =>
    intro h16
    obtain ⟨u, g, hrun, hkeyed, hlive, hold, hid, hagain⟩ := execGcmFailTeardown_tears hm h16
    exact ⟨u, _, hrun, hkeyed.member m hm, hlive, hold, hid, hagain, hkeyed.mem⟩

end Sys2Proof.Machine

namespace Sys2Proof.Machine

/-! ## Job frames (O56) -/

section
variable {s u w : State} {n : PortId} {f : Frame} {rest : List (PortId × Frame)} {p q : PartId} {i : Nat} {m : Member} {pt : Bytes}
  {k : Bytes × Bytes × Nat}

/-! ### RING_CREDIT -/

theorem creditedMember_took : creditedMember (s.tookFrame n f rest) f = creditedMember s f := rfl

theorem execRingCredit_none (hin : s.inbox = (n, f) :: rest) (ht : f.typ = 0x05) (hw : creditedMember s f = none) :
    execRingCredit s = .next (s.tookFrame n f rest) := by
  unfold execRingCredit
  rw [onFrame_head hin ht, creditedMember_took, hw]

theorem execRingCredit_credits (hin : s.inbox = (n, f) :: rest) (ht : f.typ = 0x05) (hw : creditedMember s f = some (p, i)) :
    execRingCredit s = .next ((s.tookFrame n f rest).modPart p
      (fun x => setCredit x i f.ring (creditOf x i f.ring + fieldAt f.payload 0 4))) := by
  unfold execRingCredit
  rw [onFrame_head hin ht, creditedMember_took, hw]

/-! ### Job frames that open and that do not (12 R328, R329) -/

theorem senderOf_took : senderOf (s.tookFrame n f rest) f = senderOf s f := rfl

/-- The state once a job frame has been opened. -/
def State.openedFrame (s : State) (n : PortId) (f : Frame) (rest : List (PortId × Frame)) (p : PartId) (i : Nat) : State :=
  modKeysOf (s.tookFrame n f rest) p i (fun q => acceptKeys s.now q f.keyid f.counter)

theorem openJob_opens (hs : senderOf s f = some (p, i)) (hk : (memberOf (s.part p) i).bind (fun m => rxKeyOf m.keys f.keyid) = some k)
    (hlt : k.2.2 < f.counter) (hopen : gcmOpen k.1 (jobNonce k.2.1 f.counter) (frameHeader f) f.payload f.tag = some pt) :
    openJob (s.tookFrame n f rest) n f = (some (p, i, pt), s.openedFrame n f rest p i) := by
  unfold openJob
  rw [senderOf_took, hs]
  dsimp only
  rw [part_took, hk]
  dsimp only
  rw [if_pos hlt, hopen]
  rfl

/-- A frame that does not open: its sender is unknown, it has no key for it, its counter is old, or it is not what it says. -/
def unopened (s : State) (f : Frame) : Prop :=
  senderOf s f = none ∨ (∃ p i, senderOf s f = some (p, i) ∧ ∀ k, (memberOf (s.part p) i).bind (fun m => rxKeyOf m.keys f.keyid) = some k →
    (f.counter ≤ k.2.2 ∨ gcmOpen k.1 (jobNonce k.2.1 f.counter) (frameHeader f) f.payload f.tag = none))

theorem openJob_fails (h : unopened s f) : ∃ who, openJob (s.tookFrame n f rest) n f = (none, gcmFailed (s.tookFrame n f rest) n who) := by
  unfold openJob
  rw [senderOf_took]
  obtain hs | ⟨p, i, hs, hk⟩ := h
  · rw [hs]
    exact ⟨none, rfl⟩
  · rw [hs]
    dsimp only
    rw [part_took]
    refine ⟨some (p, i), ?_⟩
    cases hkey : (memberOf (s.part p) i).bind (fun m => rxKeyOf m.keys f.keyid) with
    | none => rfl
    | some k =>
      dsimp only
      obtain hold | hbad := hk k hkey
      · rw [if_neg (Nat.not_lt.mpr hold)]
      · rw [hbad, ite_self]

/-- What a failed frame leaves: its count, the partitions but for the job tables, memory and the rest of the inbox. -/
theorem gcmFailed_counts (who : Option (PartId × Nat)) : ((gcmFailed (s.tookFrame n f rest) n who).link n).gcmFail = satAdd 8 (s.link n).gcmFail 1 ∧
    (gcmFailed (s.tookFrame n f rest) n who).inbox = rest ∧ (gcmFailed (s.tookFrame n f rest) n who).mem = s.mem ∧
    ∀ q, { (gcmFailed (s.tookFrame n f rest) n who).part q with job := none } = { s.part q with job := none } := by
  have hlink : ∀ v : State, v.links = ((s.tookFrame n f rest).modLink n (fun l => { l with gcmFail := satAdd 8 l.gcmFail 1 })).links →
      (v.link n).gcmFail = satAdd 8 (s.link n).gcmFail 1 := fun v hv => by
    have h1 : v.link n = ((s.tookFrame n f rest).modLink n (fun l => { l with gcmFail := satAdd 8 l.gcmFail 1 })).link n := by
      unfold State.link
      rw [hv]
    have h2 : ((s.tookFrame n f rest).link n).gcmFail = (s.link n).gcmFail :=
      (congrArg Link.gcmFail (freeUnits_unowed (s := { s with inbox := rest }) (n := n) (m := n) f) :)
    rw [h1, State.modLink_link]
    exact congrArg (fun c => satAdd 8 c 1) h2
  unfold gcmFailed
  cases who with
  | none => exact ⟨hlink _ rfl, rfl, rfl, fun _ => rfl⟩
  | some who =>
    refine ⟨hlink _ rfl, rfl, rfl, fun q => ?_⟩
    by_cases h : who.1 = q
    · rw [← h]
      exact congrArg (fun x : Part => { x with job := none }) modKeysOf_part
    · exact congrArg (fun x : Part => { x with job := none }) (State.modPart_part_ne _ _ _ _ h)

theorem firstOfSender_head (hin : s.inbox = (n, f) :: rest) (hc : frameClass f.typ = 1) : firstOfSender s (n, f) = true := by
  unfold firstOfSender
  rw [hin, List.find?_cons_of_pos (by simp [hc])]
  exact beq_self_eq_true _

theorem takeInbox_job {typ : Nat} (hin : s.inbox = (n, f) :: rest) (ht : f.typ = typ) (hc : frameClass typ = 1) :
    takeInbox s (fun e => e.2.typ == typ && firstOfSender s e) = some ((n, f), s.tookFrame n f rest) :=
  takeInbox_head hin (by simp [ht, firstOfSender_head hin (ht ▸ hc)])

theorem takeInbox_noJob {typ : Nat} (hnot : ∀ e ∈ s.inbox, e.2.typ ≠ typ) : takeInbox s (fun e => e.2.typ == typ && firstOfSender s e) = none :=
  takeInbox_noneOfType hnot fun _ h => beq_iff_eq.mp (Bool.and_eq_true_iff.mp h).1

theorem onJobFrame_noneOfType {typ : Nat} {act : PortId → Frame → PartId → Nat → Bytes → State → State} (hnot : ∀ e ∈ s.inbox, e.2.typ ≠ typ) :
    onJobFrame s typ act = .next s := by
  unfold onJobFrame
  rw [takeInbox_noJob hnot]

theorem onJobFrame_fails {typ : Nat} {act : PortId → Frame → PartId → Nat → Bytes → State → State} (hin : s.inbox = (n, f) :: rest)
    (ht : f.typ = typ) (hc : frameClass typ = 1) (h : unopened s f) :
    ∃ who, onJobFrame s typ act = .next (gcmFailed (s.tookFrame n f rest) n who) := by
  obtain ⟨who, hopen⟩ := openJob_fails (n := n) (rest := rest) h
  refine ⟨who, ?_⟩
  unfold onJobFrame
  rw [takeInbox_job hin ht hc]
  dsimp only
  rw [hopen]

theorem onJobFrame_opens {typ : Nat} {act : PortId → Frame → PartId → Nat → Bytes → State → State} (hin : s.inbox = (n, f) :: rest)
    (ht : f.typ = typ) (hc : frameClass typ = 1) (hs : senderOf s f = some (p, i))
    (hk : (memberOf (s.part p) i).bind (fun m => rxKeyOf m.keys f.keyid) = some k) (hlt : k.2.2 < f.counter)
    (hopen : gcmOpen k.1 (jobNonce k.2.1 f.counter) (frameHeader f) f.payload f.tag = some pt) :
    onJobFrame s typ act = .next (act n f p i pt (s.openedFrame n f rest p i)) := by
  unfold onJobFrame
  rw [takeInbox_job hin ht hc]
  dsimp only
  rw [openJob_opens hs hk hlt hopen]

/-- What an opened frame leaves: of its partition the job table alone changes. -/
structure Opened (s w : State) (rest : List (PortId × Frame)) (p : PartId) : Prop where
  inbox : w.inbox = rest
  mem : w.mem = s.mem
  csi : w.csi = s.csi
  time : w.time = s.time
  part : ∃ j, w.part p = { s.part p with job := j }
  mirror : isMirror (w.part p) = isMirror (s.part p)
  others : ∀ q, q ≠ p → w.part q = s.part q

theorem openedFrame_opened : Opened s (s.openedFrame n f rest p i) rest p where
  inbox := rfl
  mem := rfl
  csi := rfl
  time := rfl
  part := ⟨_, modKeysOf_part⟩
  mirror := by
    unfold State.openedFrame
    rw [modKeysOf_part, part_took]
    unfold isMirror
    cases (s.part p).job <;> rfl
  others _ hq := State.modPart_part_ne _ _ _ _ (Ne.symm hq)

/-! ### JOB_DATA (12 R328, R333) -/

/-- A ring once a frame's bytes have landed in the slot that arrives. -/
def landedRing (g : RingRt) (r : RingDecl) (f : Frame) (len : Nat) : RingRt :=
  if bitOf f.fflags 0 then { g with slot := (g.slot + 1) % r.slots, full := g.full ++ [(g.slot, len)], arriving := none }
  else { g with arriving := some (f.msg, len) }

theorem placeFrame_places {r : RingDecl} {g : RingRt} {a : Nat} (hg : (w.part p).rings.find? (fun g => g.ring == r.ring) = some g)
    (ha : slotAddr (w.part p) r g.slot = some a) (hfit : f.offset + pt.length ≤ r.slotSize)
    (hhere : g.arriving = some (f.msg, f.offset) ∨ g.arriving = none ∧ f.offset = 0 ∧ g.full.length < r.slots) :
    placeFrame w p r f pt = (bankWrite w (a + f.offset) pt).modPart p
      (fun x => { x with rings := updFirst (fun h => h.ring == r.ring) (fun _ => landedRing g r f (f.offset + pt.length)) x.rings }) := by
  unfold placeFrame
  rw [hg]
  dsimp only
  rw [ha]
  refine if_neg ?_
  obtain harr | ⟨harr, h0, hroom⟩ := hhere
  · simp [harr, hfit]
  · rw [h0, Nat.zero_add] at hfit
    simp [harr, h0, hroom, hfit]

theorem execJobData_mirror (hin : s.inbox = (n, f) :: rest) (ht : f.typ = 0x10) (hs : senderOf s f = some (p, i))
    (hk : (memberOf (s.part p) i).bind (fun m => rxKeyOf m.keys f.keyid) = some k) (hlt : k.2.2 < f.counter)
    (hopen : gcmOpen k.1 (jobNonce k.2.1 f.counter) (frameHeader f) f.payload f.tag = some pt) (hm : isMirror (s.part p) = true) :
    execJobData s = .next (s.openedFrame n f rest p i) := by
  have hw := (openedFrame_opened (s := s) (n := n) (f := f) (rest := rest) (p := p) (i := i)).mirror
  refine (onJobFrame_opens hin ht rfl hs hk hlt hopen).trans (congrArg _ ?_)
  generalize s.openedFrame n f rest p i = w at hw ⊢
  rw [hw, hm]
  split <;> rfl

/-- A JOB_DATA frame lands (12 R333, log entry 91). -/
theorem execJobData_lands {r : RingDecl} {g : RingRt} {a : Nat} (hin : s.inbox = (n, f) :: rest) (ht : f.typ = 0x10) (hs : senderOf s f = some (p, i))
    (hk : (memberOf (s.part p) i).bind (fun m => rxKeyOf m.keys f.keyid) = some k) (hlt : k.2.2 < f.counter)
    (hopen : gcmOpen k.1 (jobNonce k.2.1 f.counter) (frameHeader f) f.payload f.tag = some pt) (hm : isMirror (s.part p) = false)
    (hwf : memWf s.mem = true) (hr : ringOf (s.part p) i f.ring = some r)
    (hg : (s.part p).rings.find? (fun g => g.ring == r.ring) = some g) (ha : slotAddr (s.part p) r g.slot = some a) (hfit : f.offset + pt.length ≤ r.slotSize)
    (hhere : g.arriving = some (f.msg, f.offset) ∨ g.arriving = none ∧ f.offset = 0 ∧ g.full.length < r.slots) :
    ∃ u g', execJobData s = .next u ∧ u.inbox = rest ∧ bankRead u (a + f.offset) pt.length = pt ∧
      (∀ x, x < a + f.offset ∨ a + f.offset + pt.length ≤ x → cellRead u.mem.banks x = cellRead s.mem.banks x) ∧ u.mem.hbm = s.mem.hbm ∧
      (u.part p).rings.find? (fun g => g.ring == r.ring) = some g' ∧
      (bitOf f.fflags 0 = true → g.ring = r.ring → g'.full = g.full ++ [(g.slot, f.offset + pt.length)] ∧ g'.arriving = none ∧ g'.slot = (g.slot + 1) % r.slots) ∧
      (bitOf f.fflags 0 = false → g'.full = g.full ∧ g'.arriving = some (f.msg, f.offset + pt.length) ∧ g'.slot = g.slot) := by
  have hopened := openedFrame_opened (s := s) (n := n) (f := f) (rest := rest) (p := p) (i := i)
  have hrun : execJobData s = .next (match ringOf ((s.openedFrame n f rest p i).part p) i f.ring with
      | some r => if isMirror ((s.openedFrame n f rest p i).part p) then s.openedFrame n f rest p i else placeFrame (s.openedFrame n f rest p i) p r f pt
      | none => s.openedFrame n f rest p i) := onJobFrame_opens hin ht rfl hs hk hlt hopen
  generalize s.openedFrame n f rest p i = w at hopened hrun
  obtain ⟨hinbox, hmem, -, -, ⟨j, hj⟩, hmirror, -⟩ := hopened
  have hring : ringOf (w.part p) i f.ring = some r := by
    rw [hj]
    exact hr
  have hfind : (w.part p).rings.find? (fun g => g.ring == r.ring) = some g := by
    rw [hj]
    exact hg
  have haddr : slotAddr (w.part p) r g.slot = some a := by
    rw [hj]
    exact ha
  rw [hring, hmirror, hm] at hrun
  replace hrun : execJobData s = .next (placeFrame w p r f pt) := hrun
  rw [placeFrame_places hfind haddr hfit hhere] at hrun
  have hwfw : memWf w.mem = true := hmem ▸ hwf
  have hname : (landedRing g r f (f.offset + pt.length)).ring == r.ring := by
    have : (g.ring == r.ring) = true := List.find?_some (p := fun g : RingRt => g.ring == r.ring) hg
    unfold landedRing
    split <;> exact this
  refine ⟨_, landedRing g r f (f.offset + pt.length), hrun, hinbox, bankRead_bankWrite _ _ _ hwfw, fun x hx => ?_, (congrArg Mem.hbm hmem :), ?_,
    fun hlast _ => ?_, fun hmore => ?_⟩
  · exact (bankWrite_frame _ _ _ _ hwfw hx).trans (by rw [hmem])
  · rw [State.modPart_part]
    exact find?_updFirst_self (g := fun _ => landedRing g r f (f.offset + pt.length)) hfind hname
  · unfold landedRing
    rw [if_pos hlast]
    exact ⟨rfl, rfl, rfl⟩
  · unfold landedRing
    rw [if_neg (by simp [hmore])]
    exact ⟨rfl, rfl, rfl⟩

end

end Sys2Proof.Machine

namespace Sys2Proof.Machine

section
variable {s u w : State} {n : PortId} {f : Frame} {rest : List (PortId × Frame)} {p q : PartId} {i : Nat} {m : Member} {pt bs : Bytes}
  {k : Bytes × Bytes × Nat} {r : RxStream}

/-! ### INGRESS_COPY (12 R336, log entry 56) -/

/-- The landing buffer that a copied frame takes. -/
def copyBuffer (x : Part) (r : RxStream) (bs : Bytes) : Option Nat :=
  if bitOf (journalOf (bs.take 32)).flags 3 || (landingOf x r.stream).any (fun l => l.size < (journalOf (bs.take 32)).length) then none
  else freeBuffer x r.stream none

/-- The state with a copied frame's bytes in its buffer. -/
def copyStored (s : State) (p : PartId) (r : RxStream) (bs : Bytes) : State :=
  match copyBuffer (s.part p) r bs, landingOf (s.part p) r.stream with
  | some i, some l => (match bufferAddr (s.part p) l i with
    | some a => bankWrite s a (slice bs 64 (journalOf (bs.take 32)).length)
    | none => s)
  | _, _ => s

/-- The journal entry of a copied frame. -/
def copyEntry (s : State) (p : PartId) (n : PortId) (r : RxStream) (bs : Bytes) : JEntry :=
  { journalOf (bs.take 32) with
    seq := (s.part p).nextSeq
    port := 0x10 + n.val
    vc := 0
    frame := 0
    stream := r.stream
    buffer := copyBuffer (s.part p) r bs
    flags := (if (copyBuffer (s.part p) r bs).isNone then (journalOf (bs.take 32)).flags ||| 8 else (journalOf (bs.take 32)).flags) ||| (16 * bit s.time.unsure)
    length := if (copyBuffer (s.part p) r bs).isNone then 0 else (journalOf (bs.take 32)).length
    pcrc := if (copyBuffer (s.part p) r bs).isNone then BitVec.ofNat 32 (crc32c []) else (journalOf (bs.take 32)).pcrc
    payload := if (copyBuffer (s.part p) r bs).isNone then none else some (slice bs 64 (journalOf (bs.take 32)).length)
    marks := List.replicate ((slice bs 64 (journalOf (bs.take 32)).length).length / 64) false
    paired := !follows (s.part p) }

theorem copyStored_units : (copyStored s p r bs).parts = s.parts ∧ (copyStored s p r bs).inbox = s.inbox ∧ (copyStored s p r bs).mem.hbm = s.mem.hbm ∧
    (copyStored s p r bs).time = s.time := by
  unfold copyStored
  split
  · split
    · exact ⟨rfl, rfl, rfl, rfl⟩
    · exact ⟨rfl, rfl, rfl, rfl⟩
  · exact ⟨rfl, rfl, rfl, rfl⟩

theorem copyEntry_stored : ({ copyEntry s p n r bs with
    flags := (if (copyBuffer (s.part p) r bs).isNone then (journalOf (bs.take 32)).flags ||| 8 else (journalOf (bs.take 32)).flags) |||
      (16 * bit (copyStored s p r bs).time.unsure) } : JEntry) = copyEntry s p n r bs := by
  obtain ⟨-, -, -, htime⟩ := copyStored_units (s := s) (p := p) (r := r) (bs := bs)
  rw [htime]
  rfl

theorem landCopy_stores {src : Nat} (hr : s.csi.streams.find? (fun r => r.part == p && r.copyFrom == some (src, fieldAt bs 32 2)) = some r)
    (ht : takesFrames s p = true) : landCopy s p n src bs = (copyStored s p r bs).modPart p (fun x =>
      pairAll { x with nextSeq := x.nextSeq + bit (!follows x), journal := x.journal ++ [copyEntry s p n r bs] }) := by
  rw [← copyEntry_stored]
  unfold landCopy
  dsimp only
  rw [hr]
  dsimp only
  rw [if_neg (by simp [ht])]
  rfl

theorem fieldAt_take {off c : Nat} (h : off + c ≤ 32) : fieldAt (bs.take 32) off c = fieldAt bs off c := by
  unfold fieldAt
  rw [List.drop_take, List.take_take, min_eq_left (by omega)]

theorem copyBuffer_none {x : Part} : copyBuffer x r bs = none ↔ bitOf (fieldAt bs 19 1) 3 = true ∨
    (landingOf x r.stream).any (fun l => l.size < fieldAt bs 20 4) = true ∨ freeBuffer x r.stream none = none := by
  have hflags : (journalOf (bs.take 32)).flags = fieldAt bs 19 1 := fieldAt_take (by decide)
  have hlength : (journalOf (bs.take 32)).length = fieldAt bs 20 4 := fieldAt_take (by decide)
  unfold copyBuffer
  rw [hflags, hlength]
  split
  next h =>
    rw [Bool.or_eq_true] at h
    exact iff_of_true rfl (h.imp_right Or.inl)
  next h =>
    rw [Bool.or_eq_true, not_or] at h
    exact ⟨fun hb => .inr (.inr hb), fun hb => (hb.resolve_left h.1).resolve_left h.2⟩

/-- A whole copy lands in the journal of a partition that does not follow. -/
theorem landCopy_lands {src : Nat} (hr : s.csi.streams.find? (fun r => r.part == p && r.copyFrom == some (src, fieldAt bs 32 2)) = some r)
    (ht : takesFrames s p = true) (hf : follows (s.part p) = false) :
    (landCopy s p n src bs).inbox = s.inbox ∧ (landCopy s p n src bs).mem.hbm = s.mem.hbm ∧
    ((landCopy s p n src bs).part p).journal = (s.part p).journal ++ [copyEntry s p n r bs] ∧
    ((landCopy s p n src bs).part p).nextSeq = (s.part p).nextSeq + 1 := by
  obtain ⟨hparts, hinbox, hhbm, -⟩ := copyStored_units (s := s) (p := p) (r := r) (bs := bs)
  have hpart : (copyStored s p r bs).part p = s.part p := by unfold State.part; rw [hparts]
  rw [landCopy_stores hr ht]
  generalize copyStored s p r bs = v at hinbox hhbm hpart ⊢
  generalize copyEntry s p n r bs = e
  have hnot : pairAll { s.part p with nextSeq := (s.part p).nextSeq + bit (!follows (s.part p)), journal := (s.part p).journal ++ [e] } =
      { s.part p with nextSeq := (s.part p).nextSeq + bit (!follows (s.part p)), journal := (s.part p).journal ++ [e] } :=
    if_pos (by
      show (!follows (s.part p)) = true
      rw [hf]
      rfl)
  refine ⟨hinbox, hhbm, ?_, ?_⟩
  · rw [State.modPart_part, hpart, hnot]
  · rw [State.modPart_part, hpart, hnot, hf]
    rfl

section
variable (hin : s.inbox = (n, f) :: rest) (hs : senderOf s f = some (p, i))
  (hk : (memberOf (s.part p) i).bind (fun m => rxKeyOf m.keys f.keyid) = some k) (hlt : k.2.2 < f.counter)
  (hopen : gcmOpen k.1 (jobNonce k.2.1 f.counter) (frameHeader f) f.payload f.tag = some pt)
include hin hs hk hlt hopen

theorem execIngressCopy_joins (ht : f.typ = 0x11) (hjoin : joinPiece (s.part p).copyIn f pt = some bs) :
    execIngressCopy s = .next (if bitOf f.fflags 0
      then landCopy ((s.openedFrame n f rest p i).modPart p (fun x => { x with copyIn := none })) p n f.src bs
      else (s.openedFrame n f rest p i).modPart p (fun x => { x with copyIn := some (f.msg, bs) })) := by
  obtain ⟨-, -, -, -, ⟨j, hj⟩, -, -⟩ := openedFrame_opened (s := s) (n := n) (f := f) (rest := rest) (p := p) (i := i)
  refine (onJobFrame_opens hin ht rfl hs hk hlt hopen).trans ?_
  generalize s.openedFrame n f rest p i = w at hj ⊢
  have hcopy : joinPiece (w.part p).copyIn f pt = some bs := by
    rw [hj]
    exact hjoin
  rw [hcopy]

/-- A piece of a copy that goes on. -/
theorem execIngressCopy_keepsPiece (ht : f.typ = 0x11) (hjoin : joinPiece (s.part p).copyIn f pt = some bs) (hmore : bitOf f.fflags 0 = false) :
    ∃ u, execIngressCopy s = .next u ∧ u.inbox = rest ∧ (u.part p).copyIn = some (f.msg, bs) ∧ (u.part p).journal = (s.part p).journal ∧ u.mem = s.mem := by
  obtain ⟨hinbox, hmem, -, -, ⟨j, hj⟩, -, -⟩ := openedFrame_opened (s := s) (n := n) (f := f) (rest := rest) (p := p) (i := i)
  have hrun := (execIngressCopy_joins hin hs hk hlt hopen ht hjoin).trans (congrArg _ (if_neg (by simp [hmore])))
  generalize s.openedFrame n f rest p i = w at hinbox hmem hj hrun
  refine ⟨_, hrun, hinbox, ?_, ?_, hmem⟩
  · rw [State.modPart_part]
  · rw [State.modPart_part, hj]

/-- The last piece of a copy lands it. -/
theorem execIngressCopy_lands (ht : f.typ = 0x11) (hjoin : joinPiece (s.part p).copyIn f pt = some bs) (hlast : bitOf f.fflags 0 = true)
    (hr : s.csi.streams.find? (fun r => r.part == p && r.copyFrom == some (f.src, fieldAt bs 32 2)) = some r)
    (htakes : takesFrames s p = true) (hf : follows (s.part p) = false) :
    ∃ u e, execIngressCopy s = .next u ∧ u.inbox = rest ∧
      (u.part p).journal = (s.part p).journal ++ [e] ∧ e.seq = (s.part p).nextSeq ∧ e.stream = r.stream ∧ e.port = 16 + n.val ∧
      (u.part p).nextSeq = (s.part p).nextSeq + 1 ∧ (e.buffer = none ↔ bitOf (fieldAt bs 19 1) 3 = true ∨
        (landingOf (s.part p) r.stream).any (fun l => l.size < fieldAt bs 20 4) = true ∨ freeBuffer (s.part p) r.stream none = none) ∧
      u.mem.hbm = s.mem.hbm := by
  obtain ⟨hinbox, hmem, hcsi, -, ⟨j, hj⟩, -, -⟩ := openedFrame_opened (s := s) (n := n) (f := f) (rest := rest) (p := p) (i := i)
  have hrun := (execIngressCopy_joins hin hs hk hlt hopen ht hjoin).trans (congrArg _ (if_pos hlast))
  generalize s.openedFrame n f rest p i = w at hinbox hmem hcsi hj hrun
  have hpart : (w.modPart p (fun x => { x with copyIn := none })).part p = { s.part p with job := j, copyIn := none } := by
    rw [State.modPart_part, hj]
  have hunits : ((w.modPart p (fun x => { x with copyIn := none })).inbox, (w.modPart p (fun x => { x with copyIn := none })).mem,
      (w.modPart p (fun x => { x with copyIn := none })).csi) = (rest, s.mem, s.csi) := by rw [← hinbox, ← hmem, ← hcsi]; rfl
  generalize w.modPart p (fun x => { x with copyIn := none }) = v at hpart hunits hrun
  simp only [Prod.mk.injEq] at hunits
  obtain ⟨vinbox, vmem, vcsi⟩ := hunits
  obtain ⟨linbox, lhbm, ljournal, lnext⟩ := landCopy_lands (s := v) (p := p) (n := n) (bs := bs) (src := f.src) (r := r) (by rw [vcsi]; exact hr)
    (by unfold takesFrames; rw [hpart]; exact htakes) (by rw [hpart]; exact hf)
  have hbuffer : copyBuffer (v.part p) r bs = none ↔ _ := copyBuffer_none
  rw [hpart] at hbuffer ljournal lnext
  refine ⟨_, copyEntry v p n r bs, hrun, linbox.trans vinbox, ljournal, ?_, rfl, rfl, lnext, ?_, by rw [lhbm, vmem]⟩
  · show (v.part p).nextSeq = _
    rw [hpart]
  · show copyBuffer (v.part p) r bs = none ↔ _
    rw [hpart]
    exact hbuffer

end

end

end Sys2Proof.Machine

namespace Sys2Proof.Machine

/-! ### A restored snapshot (13 R370) -/

section
variable {s u : State} {p : PartId} {c : Checkpoint}

theorem putBanks_parts (cs : List Host.Cell) (key n a : Nat) : (putBanks s cs key n a).parts = s.parts := by
  unfold putBanks
  exact foldl_view (bankZero s a n) State.parts (by intro _ _; rfl) _

theorem putStacks_parts (cs : List Host.Cell) (key n a : Nat) : (putStacks s cs key n a).parts = s.parts := by
  unfold putStacks
  exact foldl_view (stackZero s a n) State.parts (by intro _ _; rfl) _

theorem markBanks_parts (vs : List Nat) (w n to_ : Nat) : (markBanks s vs w n to_).parts = s.parts := by
  unfold markBanks
  exact foldl_view s State.parts (by intro _ _; rfl) _

theorem markStacks_parts (vs : List Nat) (w n to_ : Nat) : (markStacks s vs w n to_).parts = s.parts := by
  unfold markStacks
  exact foldl_view s State.parts (by intro _ _; rfl) _

theorem putCarried_part : (putCarried s p c).part p = { s.part p with places := carriedPlaces s (s.part p) } := by
  have hparts : ((carriedPlaces s (s.part p)).foldl (fun s g =>
      markBanks (putBanks s c.cells (bankAddr g.1 0) bankSize (bankAddr g.2 0)) c.marks (g.1 * 32768) 32768 (g.2 * 32768)) s).parts = s.parts :=
    foldl_view s State.parts (fun _ _ => (markBanks_parts ..).trans (putBanks_parts ..)) _
  unfold putCarried
  dsimp only
  rw [State.modPart_part]
  refine congrArg (fun x : Part => { x with places := carriedPlaces s (s.part p) }) ?_
  exact congrArg (fun v : Vector Part 8 => v.get p) hparts

theorem putTables_parts : (putTables s p c).parts = s.parts := by
  unfold putTables
  split
  · rfl
  dsimp only
  refine (foldl_view _ State.parts (fun u g => ?_) _).trans (foldl_view s State.parts (fun u lc => ?_) _)
  · split
    · exact (markStacks_parts ..).trans (putStacks_parts ..)
    · rfl
  · have hptr : ∀ o : Option Nat, (match o with
        | some a => markBanks (putBanks u c.tables (tableKey lc false) bankSize a) c.tabMarks (tableKey lc false / 64) 32768 (a / 64)
        | none => u).parts = u.parts := fun o => by
      cases o with
      | none => rfl
      | some a => exact (markBanks_parts ..).trans (putBanks_parts ..)
    split
    · exact ((markStacks_parts ..).trans (putStacks_parts ..)).trans (hptr _)
    · exact hptr _

theorem putVideo_parts : (putVideo s p c).parts = s.parts := by
  unfold putVideo
  dsimp only
  refine (foldl_view _ State.parts (fun u v => ?_) _).trans ?_
  · exact foldl_view u State.parts (fun _ _ => (markStacks_parts ..).trans (putStacks_parts ..)) _
  · exact foldl_view (closeContexts s p) State.parts (by intro _ _; rfl) _

/-- A restored partition stands at the checkpoint's boundary, with its claim and state as before. -/
theorem restore_stands (layout : Nat) : ((restore s p c layout).part p).step = c.step ∧ ((restore s p c layout).part p).claim = (s.part p).claim := by
  have hpart : ∀ v : State, (putVideo (putTables (putCarried v p c) p c) p c).part p = { v.part p with places := carriedPlaces v (v.part p) } := fun v => by
    rw [← putCarried_part (c := c)]
    unfold State.part
    rw [putVideo_parts, putTables_parts]
  unfold restore
  dsimp only
  rw [hpart, State.modPart_part]
  exact ⟨rfl, rfl⟩

theorem standUp_running (h : (s.part p).state = .running) : standUp s p = s := by
  unfold standUp
  split
  · rw [h, if_neg (by decide), if_neg (by decide)]
  · rfl

theorem restoreSnapshot_running {l : Nat} (h : (s.part p).state = .running) (hl : pickLayout s (s.part p) = some l) :
    ((restoreSnapshot s p c).part p).step = c.step ∧ ((restoreSnapshot s p c).part p).entered = c.step ∧ ((restoreSnapshot s p c).part p).holdAt = none ∧
    ((restoreSnapshot s p c).part p).claim = { (s.part p).claim with sections := [], snapshot := some c.step, good := 0 } := by
  obtain ⟨hstep, hclaim⟩ := restore_stands (s := s) (p := p) (c := c) l
  unfold restoreSnapshot
  dsimp only
  rw [standUp_running h, if_neg (by simp [h]), hl]
  dsimp only
  rw [State.modPart_part]
  exact ⟨hstep, rfl, rfl, congrArg (fun d : Claim => { d with sections := [], snapshot := some c.step, good := 0 }) hclaim⟩

end

/-! ### Parts over the mirror set (12 R372, 13 R359, R370) -/

section
variable {s u w : State} {n : PortId} {f : Frame} {rest : List (PortId × Frame)} {p q : PartId} {i : Nat} {pt bs : Bytes}
  {k : Bytes × Bytes × Nat} {kind : Nat} {act : PartId → Bytes → State → State}

theorem onPartFrame_noneOfType (hnot : ∀ e ∈ s.inbox, e.2.typ ≠ 0x12) : onPartFrame s kind act = .next s := by
  unfold onPartFrame
  rw [takeInbox_noJob hnot]

theorem onPartFrame_fails (hin : s.inbox = (n, f) :: rest) (ht : f.typ = 0x12) (h : unopened s f) :
    ∃ who, onPartFrame s kind act = .next (gcmFailed (s.tookFrame n f rest) n who) := by
  obtain ⟨who, hopen⟩ := openJob_fails (n := n) (rest := rest) h
  refine ⟨who, ?_⟩
  unfold onPartFrame
  rw [takeInbox_job hin ht rfl]
  dsimp only
  rw [hopen]

/-- The state once a whole part has been taken from its pieces. -/
def State.wholePart (s : State) (n : PortId) (f : Frame) (rest : List (PortId × Frame)) (p : PartId) (i : Nat) : State :=
  (s.openedFrame n f rest p i).modPart p (fun x => { x with partIn := none })

/-- What the taking of a whole part leaves. -/
theorem wholePart_leaves : (s.wholePart n f rest p i).inbox = rest ∧ (s.wholePart n f rest p i).mem = s.mem ∧
    (∃ j, (s.wholePart n f rest p i).part p = { s.part p with job := j, partIn := none }) ∧
    (∀ q, q ≠ p → (s.wholePart n f rest p i).part q = s.part q) := by
  obtain ⟨hinbox, hmem, -, -, ⟨j, hj⟩, -, hothers⟩ := openedFrame_opened (s := s) (n := n) (f := f) (rest := rest) (p := p) (i := i)
  unfold State.wholePart
  generalize s.openedFrame n f rest p i = w at hinbox hmem hj hothers ⊢
  refine ⟨hinbox, hmem, ⟨j, ?_⟩, fun q hq => (State.modPart_part_ne _ _ _ _ (Ne.symm hq)).trans (hothers q hq)⟩
  rw [State.modPart_part, hj]

theorem pickLayout_whole (x : Part) : pickLayout (s.wholePart n f rest p i) x = pickLayout s x := rfl

section
variable (hin : s.inbox = (n, f) :: rest) (ht : f.typ = 0x12) (hs : senderOf s f = some (p, i))
  (hk : (memberOf (s.part p) i).bind (fun m => rxKeyOf m.keys f.keyid) = some k) (hlt : k.2.2 < f.counter)
  (hopen : gcmOpen k.1 (jobNonce k.2.1 f.counter) (frameHeader f) f.payload f.tag = some pt)
  (hjoin : joinPiece (s.part p).partIn f pt = some bs) (hkind : partKind bs = kind)
include hin ht hs hk hlt hopen hjoin hkind

theorem onPartFrame_joins : onPartFrame s kind act = .next (if bitOf f.fflags 0
    then (if ((s.wholePart n f rest p i).part p).claim.paired then act p bs (s.wholePart n f rest p i) else s.wholePart n f rest p i)
    else (s.openedFrame n f rest p i).modPart p (fun x => { x with partIn := some (f.msg, bs) })) := by
  unfold onPartFrame
  rw [takeInbox_job hin ht rfl]
  dsimp only
  rw [openJob_opens hs hk hlt hopen]
  dsimp only
  rw [hjoin]
  dsimp only
  rw [hkind, if_neg (by simp)]
  cases hlast : bitOf f.fflags 0 with
  | false => rfl
  | true =>
    have hk : (decide (kind = kind)) = true := decide_eq_true rfl
    rw [hk, Bool.true_and]
    rfl

/-- A piece of a part that goes on. -/
theorem onPartFrame_keepsPiece (hmore : bitOf f.fflags 0 = false) :
    ∃ u, onPartFrame s kind act = .next u ∧ u.inbox = rest ∧ (u.part p).partIn = some (f.msg, bs) ∧ (u.part p).claim = (s.part p).claim ∧ u.mem = s.mem := by
  obtain ⟨hinbox, hmem, -, -, ⟨j, hj⟩, -, -⟩ := openedFrame_opened (s := s) (n := n) (f := f) (rest := rest) (p := p) (i := i)
  have hrun := (onPartFrame_joins (act := act) hin ht hs hk hlt hopen hjoin hkind).trans (congrArg _ (if_neg (by simp [hmore])))
  generalize s.openedFrame n f rest p i = w at hinbox hmem hj hrun
  refine ⟨_, hrun, hinbox, ?_, ?_, hmem⟩
  · rw [State.modPart_part]
  · rw [State.modPart_part, hj]

/-- A whole part of an unpaired partition only leaves. -/
theorem onPartFrame_unpaired (hlast : bitOf f.fflags 0 = true) (hpaired : (s.part p).claim.paired = false) :
    ∃ u, onPartFrame s kind act = .next u ∧ u.inbox = rest ∧ (u.part p).partIn = none ∧ (u.part p).claim = (s.part p).claim ∧ u.mem = s.mem := by
  obtain ⟨hinbox, hmem, ⟨j, hj⟩, -⟩ := wholePart_leaves (s := s) (n := n) (f := f) (rest := rest) (p := p) (i := i)
  have hrun := (onPartFrame_joins (act := act) hin ht hs hk hlt hopen hjoin hkind).trans (congrArg _ (if_pos hlast))
  generalize s.wholePart n f rest p i = w at hinbox hmem hj hrun
  have hno : (w.part p).claim.paired = false := by
    rw [hj]
    exact hpaired
  refine ⟨w, hrun.trans (congrArg _ (if_neg (by simp [hno]))), hinbox, ?_, ?_, hmem⟩
  · rw [hj]
  · rw [hj]

/-- A whole part of a paired partition is acted on. -/
theorem onPartFrame_acts (hlast : bitOf f.fflags 0 = true) (hpaired : (s.part p).claim.paired = true) :
    onPartFrame s kind act = .next (act p bs (s.wholePart n f rest p i)) := by
  obtain ⟨-, -, ⟨j, hj⟩, -⟩ := wholePart_leaves (s := s) (n := n) (f := f) (rest := rest) (p := p) (i := i)
  have hyes : ((s.wholePart n f rest p i).part p).claim.paired = true := by
    rw [hj]
    exact hpaired
  exact (onPartFrame_joins (act := act) hin ht hs hk hlt hopen hjoin hkind).trans (congrArg _ ((if_pos hlast).trans (if_pos hyes)))

end

/-! ### What each kind of part does -/

/-- A part of the partner's entries changes of the claim only the entries without a frame. -/
theorem takeEntry_claim (x : Part) (e : JEntry) (t : Ns) :
    { (takeEntry x e t).claim with unmatched := [] } = { x.claim with unmatched := [] } := by
  unfold takeEntry
  split
  · rfl
  · split <;> rfl

theorem takePartEntries_claim (es : List JEntry) (t : Ns) (x : Part) :
    { (takePartEntries x es t).claim with unmatched := [] } = { x.claim with unmatched := [] } := by
  have hall : ∀ (es : List JEntry) (x : Part), { (es.foldl (fun x e => takeEntry x e t) x).claim with unmatched := [] } = { x.claim with unmatched := [] } := by
    intro es
    induction es with
    | nil => exact fun _ => rfl
    | cons e es ih => exact fun x => (ih _).trans (takeEntry_claim x e t)
  exact hall es x

theorem takeDecisions_takes : ∃ ds, (partStep bs, ((takeDecisions s p bs).part p).nextSeq, ds) ∈ ((takeDecisions s p bs).part p).claim.parts ∧
    ((takeDecisions s p bs).part p).claim.highest = (s.part p).claim.highest ∧ ((takeDecisions s p bs).part p).claim.claim = (s.part p).claim.claim := by
  unfold takeDecisions
  rw [State.modPart_part]
  dsimp only
  have hclaim := takePartEntries_claim ((splitPart (s.part p).nextSeq (partBody bs)).2.map (fun e => { e with stream := entryStream s p e })) s.now (s.part p)
  generalize takePartEntries (s.part p) ((splitPart (s.part p).nextSeq (partBody bs)).2.map (fun e => { e with stream := entryStream s p e })) s.now = x
    at hclaim ⊢
  exact ⟨_, List.mem_append_right _ (List.mem_singleton.mpr rfl), (congrArg Claim.highest hclaim :), (congrArg Claim.claim hclaim :)⟩

theorem takeDecisions_units : (takeDecisions s p bs).inbox = s.inbox ∧ (takeDecisions s p bs).mem = s.mem := ⟨rfl, rfl⟩

theorem mem_journalInsert (e : JEntry) (js : List JEntry) : e ∈ journalInsert e js := by
  induction js with
  | nil => exact List.mem_singleton.mpr rfl
  | cons j js ih =>
    unfold journalInsert
    split
    · exact List.mem_cons_of_mem _ ih
    · exact List.mem_cons_self

theorem addKept_joins {e : JEntry} {data : Bytes} (hno : ∀ j ∈ (s.part p).journal, j.paired = false ∨ j.seq ≠ e.seq) (hp : e.paired = true) :
    ∃ e', e' ∈ ((addKept s p e data).part p).journal ∧ e'.seq = e.seq ∧ e'.paired = true ∧ e'.payload = (if bitOf e'.flags 3 then none else some data) ∧
      (addKept s p e data).inbox = s.inbox ∧ (addKept s p e data).mem = s.mem := by
  unfold addKept
  dsimp only
  rw [State.modPart_part]
  rw [if_neg (by
    rw [List.any_eq_true]
    rintro ⟨j, hj, hboth⟩
    obtain ⟨h1, h2⟩ := Bool.and_eq_true_iff.mp hboth
    obtain h | h := hno j hj
    · exact absurd (h1.symm.trans h) (by decide)
    · exact h (beq_iff_eq.mp h2))]
  exact ⟨_, mem_journalInsert _ _, rfl, hp, rfl, rfl, rfl⟩

theorem sendMessage_inbox (i typ ring msg : Nat) (payload : Bytes) : (sendMessage s p i typ ring msg payload).inbox = s.inbox := by
  unfold sendMessage
  refine foldl_view s State.inbox (fun u c => ?_) _
  dsimp only
  split
  · split
    · rfl
    · rw [sendFrame_eq]
      rfl
  · rfl

theorem sendPart_inbox (kind pace step sec : Nat) (body : Bytes) : (sendPart s p kind pace step sec body).inbox = s.inbox := by
  unfold sendPart
  split
  · exact sendMessage_inbox ..
  · rfl

theorem reentryFail_inbox (cause : Nat) : (reentryFail s p cause).inbox = s.inbox := by
  unfold reentryFail
  dsimp only
  split
  · exact State.event_inbox ..
  · exact (sendPart_inbox ..).trans (State.event_inbox ..)

end

end Sys2Proof.Machine

namespace Sys2Proof.Machine

section
variable {s u w : State} {n : PortId} {f : Frame} {rest : List (PortId × Frame)} {p q : PartId} {i : Nat} {pt bs : Bytes}
  {k : Bytes × Bytes × Nat} {r : StoreReq}

/-! ### The rows of the parts, once a whole part has come -/

section
variable (hin : s.inbox = (n, f) :: rest) (ht : f.typ = 0x12) (hs : senderOf s f = some (p, i))
  (hk : (memberOf (s.part p) i).bind (fun m => rxKeyOf m.keys f.keyid) = some k) (hlt : k.2.2 < f.counter)
  (hopen : gcmOpen k.1 (jobNonce k.2.1 f.counter) (frameHeader f) f.payload f.tag = some pt)
  (hjoin : joinPiece (s.part p).partIn f pt = some bs) (hlast : bitOf f.fflags 0 = true) (hpaired : (s.part p).claim.paired = true)
include hin ht hs hk hlt hopen hjoin hlast hpaired

/-- A follower keeps a decision part for its boundary (13 R359). -/
theorem execDecisionPart_follows (hkind : partKind bs = 1) (hl : (s.part p).claim.leader = false) :
    ∃ u ds, execDecisionPart s = .next u ∧ u.inbox = rest ∧ (partStep bs, (u.part p).nextSeq, ds) ∈ (u.part p).claim.parts ∧
      (u.part p).claim.highest.toNat = max (s.part p).claim.highest.toNat (partClaim bs) ∧ (u.part p).claim.claim = (s.part p).claim.claim ∧ u.mem = s.mem := by
  obtain ⟨hinbox, hmem, ⟨j, hj⟩, -⟩ := wholePart_leaves (s := s) (n := n) (f := f) (rest := rest) (p := p) (i := i)
  have hrun : execDecisionPart s = .next _ := onPartFrame_acts hin ht hs hk hlt hopen hjoin hkind hlast hpaired
  generalize s.wholePart n f rest p i = w at hinbox hmem hj hrun
  have hnote : observe w p (partClaim bs) (w.part p).claim.partner = w.modClaim p (fun d => d.observed (partClaim bs)) :=
    observe_notes fun h => by
      rw [hj] at h
      exact absurd (h.symm.trans hl) (by decide)
  dsimp only at hrun
  rw [hnote] at hrun
  have hpart : (w.modClaim p (fun d => d.observed (partClaim bs))).part p =
      { s.part p with job := j, partIn := none, claim := (s.part p).claim.observed (partClaim bs) } := by
    rw [State.modClaim_part, hj]
  have hunits : ((w.modClaim p (fun d => d.observed (partClaim bs))).inbox, (w.modClaim p (fun d => d.observed (partClaim bs))).mem) = (rest, s.mem) := by
    rw [← hinbox, ← hmem]
    rfl
  generalize w.modClaim p (fun d => d.observed (partClaim bs)) = v at hpart hunits hrun
  obtain ⟨vinbox, vmem⟩ := Prod.mk.inj hunits
  have hfollows : follows (v.part p) = true := by
    rw [hpart]
    show ((s.part p).claim.paired && !(s.part p).claim.leader) = true
    rw [hpaired, hl]
    rfl
  obtain ⟨ds, hmember, hhighest, hclaim⟩ := takeDecisions_takes (s := v) (p := p) (bs := bs)
  obtain ⟨tinbox, tmem⟩ := takeDecisions_units (s := v) (p := p) (bs := bs)
  refine ⟨_, ds, hrun.trans (congrArg _ (if_pos hfollows)), tinbox.trans vinbox, hmember, ?_, ?_, tmem.trans vmem⟩
  · rw [hhighest, hpart]
    exact observed_highest (fieldAt_lt _ _ 4)
  · rw [hclaim, hpart]
    rfl

/-- The sections of a snapshot once one more has come (13 R370). -/
def sectioned (c : Claim) (bs : Bytes) : Claim :=
  { c with parts := if c.sections.isEmpty then c.parts.filter (fun e => partStep bs ≤ e.1) else c.parts,
           sections := assocSet (partSection bs) (partBody bs) c.sections }

theorem execSnapshotSection_acts (hkind : partKind bs = 2) (hrole : (s.part p).claim.role = .gloryHole) :
    ∃ w, w.inbox = rest ∧ w.mem = s.mem ∧ (∃ j, w.part p = { s.part p with job := j, partIn := none, claim := sectioned (s.part p).claim bs }) ∧
      (∀ x, pickLayout w x = pickLayout s x) ∧
      execSnapshotSection s = .next (if (sectioned (s.part p).claim bs).sections.length < 6 then w
        else match Config.sectionsRead (sectioned (s.part p).claim bs).sections with
          | some c => restoreSnapshot w p c
          | none => w.modClaim p (fun c => { c with sections := [] })) := by
  obtain ⟨hinbox, hmem, ⟨j, hj⟩, -⟩ := wholePart_leaves (s := s) (n := n) (f := f) (rest := rest) (p := p) (i := i)
  have hrun : execSnapshotSection s = .next _ := onPartFrame_acts hin ht hs hk hlt hopen hjoin hkind hlast hpaired
  have hpick : ∀ x, pickLayout ((s.wholePart n f rest p i).modClaim p (fun c => sectioned c bs)) x = pickLayout s x := fun _ => rfl
  have hrole' : ((s.wholePart n f rest p i).part p).claim.role = .gloryHole := by
    rw [hj]
    exact hrole
  have hheld : ((s.wholePart n f rest p i).modClaim p (fun c => sectioned c bs)).part p =
      { s.part p with job := j, partIn := none, claim := sectioned (s.part p).claim bs } := by
    rw [State.modClaim_part, hj]
  refine ⟨(s.wholePart n f rest p i).modClaim p (fun c => sectioned c bs), hinbox, hmem, ⟨j, hheld⟩, hpick, ?_⟩
  refine hrun.trans (congrArg _ ?_)
  refine (if_neg (not_not.mpr hrole')).trans ?_
  have hsections : (((s.wholePart n f rest p i).modClaim p (fun c => sectioned c bs)).part p).claim.sections = (sectioned (s.part p).claim bs).sections := by
    rw [hheld]
  rw [← hsections]
  rfl

/-- A snapshot section is kept while others are missing. -/
theorem execSnapshotSection_holds (hkind : partKind bs = 2) (hrole : (s.part p).claim.role = .gloryHole)
    (hfew : (assocSet (partSection bs) (partBody bs) (s.part p).claim.sections).length < 6) :
    ∃ u, execSnapshotSection s = .next u ∧ u.inbox = rest ∧
      (u.part p).claim.sections = assocSet (partSection bs) (partBody bs) (s.part p).claim.sections ∧ u.mem = s.mem := by
  obtain ⟨w, hinbox, hmem, ⟨j, hj⟩, -, hrun⟩ := execSnapshotSection_acts hin ht hs hk hlt hopen hjoin hlast hpaired hkind hrole
  refine ⟨w, hrun.trans (congrArg _ (if_pos hfew)), hinbox, ?_, hmem⟩
  rw [hj]
  rfl

/-- The last section restores the snapshot at a RUNNING member (log entries 38, 115). -/
theorem execSnapshotSection_restores (hkind : partKind bs = 2) (hrole : (s.part p).claim.role = .gloryHole)
    (hall : 6 ≤ (assocSet (partSection bs) (partBody bs) (s.part p).claim.sections).length) (hstate : (s.part p).state = .running)
    {l : Nat} (hl : pickLayout s (s.part p) = some l) :
    ∃ u, execSnapshotSection s = .next u ∧ (u.part p).claim.sections = [] ∧ (u.part p).claim.role = .gloryHole ∧
      (∀ c, Config.sectionsRead (assocSet (partSection bs) (partBody bs) (s.part p).claim.sections) = some c →
        (u.part p).step = c.step ∧ (u.part p).claim.snapshot = some c.step ∧ (u.part p).holdAt = none ∧ (u.part p).entered = c.step) ∧
      (Config.sectionsRead (assocSet (partSection bs) (partBody bs) (s.part p).claim.sections) = none → (u.part p).step = (s.part p).step) := by
  obtain ⟨w, -, -, ⟨j, hj⟩, hpick, hrun⟩ := execSnapshotSection_acts hin ht hs hk hlt hopen hjoin hlast hpaired hkind hrole
  have hsections : (sectioned (s.part p).claim bs).sections = assocSet (partSection bs) (partBody bs) (s.part p).claim.sections := rfl
  rw [hsections] at hrun
  replace hrun := hrun.trans (congrArg _ (if_neg (Nat.not_lt.mpr hall)))
  cases hread : Config.sectionsRead (assocSet (partSection bs) (partBody bs) (s.part p).claim.sections) with
  | none =>
    rw [hread] at hrun
    refine ⟨_, hrun, ?_, ?_, fun c hc => absurd hc (by simp), fun _ => ?_⟩
    · rw [State.modClaim_part]
    · rw [State.modClaim_part, hj]
      exact hrole
    · rw [State.modClaim_part, hj]
  | some c =>
    rw [hread] at hrun
    have hpickw : pickLayout w (w.part p) = some l := by
      rw [hpick, hj]
      exact hl
    obtain ⟨hstep, hentered, hhold, hclaim⟩ := restoreSnapshot_running (s := w) (p := p) (c := c) (by rw [hj]; exact hstate) hpickw
    refine ⟨_, hrun, ?_, ?_, fun c' hc => ?_, fun hno => absurd hno (by simp)⟩
    · rw [hclaim]
    · rw [hclaim, hj]
      exact hrole
    · obtain rfl : c = c' := Option.some.inj hc
      exact ⟨hstep, by rw [hclaim], hhold, hentered⟩

theorem execSnapshotJournal_acts (hkind : partKind bs = 3) (hrole : (s.part p).claim.role = .gloryHole) :
    ∃ w j, w.inbox = rest ∧ w.mem = s.mem ∧ w.part p = { s.part p with job := j, partIn := none } ∧
      execSnapshotJournal s = .next (if !bitOf (journalOf ((partBody bs).take 32)).flags 3 && ((partBody bs).drop 32).length ≠ (journalOf ((partBody bs).take 32)).length
        then reentryFail w p 1 else addKept w p (journalOf ((partBody bs).take 32)) ((partBody bs).drop 32)) := by
  obtain ⟨hinbox, hmem, ⟨j, hj⟩, -⟩ := wholePart_leaves (s := s) (n := n) (f := f) (rest := rest) (p := p) (i := i)
  have hrun : execSnapshotJournal s = .next _ := onPartFrame_acts hin ht hs hk hlt hopen hjoin hkind hlast hpaired
  generalize s.wholePart n f rest p i = w at hinbox hmem hj hrun
  refine ⟨w, j, hinbox, hmem, hj, hrun.trans (congrArg _ (if_neg (not_not.mpr ?_)))⟩
  rw [hj]
  exact hrole

/-- A KIND 3 part whose payload is missing fails the re-entry (13 R372). -/
theorem execSnapshotJournal_fails (hkind : partKind bs = 3) (hrole : (s.part p).claim.role = .gloryHole)
    (hflag : bitOf (journalOf ((partBody bs).take 32)).flags 3 = false)
    (hlen : ((partBody bs).drop 32).length ≠ (journalOf ((partBody bs).take 32)).length) :
    ∃ u, execSnapshotJournal s = .next u ∧ u.inbox = rest ∧ (u.part p).claim.tries = min 3 ((s.part p).claim.tries + 1) ∧
      (u.part p).claim.sections = [] ∧ u.mem = s.mem := by
  obtain ⟨w, j, hinbox, hmem, hj, hrun⟩ := execSnapshotJournal_acts hin ht hs hk hlt hopen hjoin hlast hpaired hkind hrole
  have htold := reentryFail_told (s := w) (p := p) 1
  have hbesides := reentryFail_besides (s := w) (p := p) 1
  rw [hj] at htold
  refine ⟨_, hrun.trans (congrArg _ (if_pos (by rw [hflag]; exact decide_eq_true hlen))), (reentryFail_inbox 1).trans hinbox, ?_, ?_, ?_⟩
  · exact (congrArg (fun x : Part => x.claim.tries) htold :)
  · exact (congrArg (fun x : Part => x.claim.sections) htold :)
  · exact (congrArg (fun b => b.1) hbesides : _ = w.mem).trans hmem

/-- A KIND 3 part joins the journal (log entry 113). -/
theorem execSnapshotJournal_joins (hkind : partKind bs = 3) (hrole : (s.part p).claim.role = .gloryHole)
    (hwhole : bitOf (journalOf ((partBody bs).take 32)).flags 3 = true ∨ ((partBody bs).drop 32).length = (journalOf ((partBody bs).take 32)).length)
    (hnew : ∀ j ∈ (s.part p).journal, j.paired = false ∨ j.seq ≠ (journalOf ((partBody bs).take 32)).seq) :
    ∃ u e, execSnapshotJournal s = .next u ∧ u.inbox = rest ∧ e ∈ (u.part p).journal ∧ e.seq = (journalOf ((partBody bs).take 32)).seq ∧ e.paired = true ∧
      e.payload = (if bitOf e.flags 3 then none else some ((partBody bs).drop 32)) ∧ u.mem = s.mem := by
  obtain ⟨w, j, hinbox, hmem, hj, hrun⟩ := execSnapshotJournal_acts hin ht hs hk hlt hopen hjoin hlast hpaired hkind hrole
  have hnew' : ∀ j ∈ (w.part p).journal, j.paired = false ∨ j.seq ≠ (journalOf ((partBody bs).take 32)).seq := by
    rw [hj]
    exact hnew
  obtain ⟨e, hmember, hseq, hpair, hpay, ainbox, amem⟩ := addKept_joins (s := w) (p := p) (data := (partBody bs).drop 32) hnew' rfl
  refine ⟨_, e, hrun.trans (congrArg _ (if_neg ?_)), ainbox.trans hinbox, hmember, hseq, hpair, hpay, amem.trans hmem⟩
  obtain h | h := hwhole
  · simp [h]
  · rw [h]
    simp

/-- A request part makes the leader take a snapshot at the pace asked (13 R370). -/
theorem execReentryRequest_asks (hkind : partKind bs = 4) (hl : (s.part p).claim.leader = true) :
    ∃ u, execReentryRequest s = .next u ∧ u.inbox = rest ∧ (u.part p).claim.wanted = true ∧
      (u.part p).claim.pacePct = partPace bs ∧ u.mem = s.mem ∧ (∀ q, q ≠ p → u.part q = s.part q) := by
  obtain ⟨hinbox, hmem, ⟨j, hj⟩, hothers⟩ := wholePart_leaves (s := s) (n := n) (f := f) (rest := rest) (p := p) (i := i)
  have hrun : execReentryRequest s = .next _ := onPartFrame_acts hin ht hs hk hlt hopen hjoin hkind hlast hpaired
  generalize s.wholePart n f rest p i = w at hinbox hmem hj hothers hrun
  have hleads : (w.part p).claim.leader = true := by
    rw [hj]
    exact hl
  refine ⟨_, hrun.trans (congrArg _ (if_pos hleads)), hinbox, ?_, ?_, hmem, fun q hq => ?_⟩
  · rw [State.modClaim_part]
  · rw [State.modClaim_part]
  · exact (State.modPart_part_ne _ _ _ _ (Ne.symm hq)).trans (hothers q hq)

end

/-! ### Answers of the stores (12 R338) -/

theorem answered_took (write : Bool) : answered (s.tookFrame n f rest) f write = answered s f write := rfl

theorem execStoreRdData_eq (hin : s.inbox = (n, f) :: rest) (ht : f.typ = 0x21) : execStoreRdData s = .next (match answered s f false with
    | some r => continuePull (modRequest (s.tookFrame n f rest) r.tag (fun r => addData r f))
    | none => s.tookFrame n f rest) := onFrame_head hin ht

theorem execStoreWrAck_eq (hin : s.inbox = (n, f) :: rest) (ht : f.typ = 0x23) : execStoreWrAck s = .next (match answered s f true with
    | some r => if fieldAt f.payload 0 4 = r.data.length then continueExports (modRequest (s.tookFrame n f rest) r.tag (fun r => { r with done := true }))
      else s.tookFrame n f rest
    | none => s.tookFrame n f rest) := onFrame_head hin ht

theorem execStoreErr_eq (hin : s.inbox = (n, f) :: rest) (ht : f.typ = 0x24) :
    execStoreErr s = .next (match s.requests.find? (fun q => q.tag == f.msg && q.store == f.src && reqOpen q) with
      | some r => continueExports (continuePull (modRequest (s.tookFrame n f rest) r.tag (fun r => { r with failed := true })))
      | none => s.tookFrame n f rest) := onFrame_head hin ht

theorem continuePull_mem : (continuePull s).mem = s.mem := congrArg Prod.fst continuePull_plant

theorem continueExports_mem : (continueExports s).mem = s.mem := by
  unfold continueExports
  exact (forParts_view _ State.mem fun p u => (pumpExport_exportKeeps (p := p) (s := u)).mem).trans rfl

theorem sendRequest_units : ((sendRequest s r).requests, (sendRequest s r).parts, (sendRequest s r).mem, (sendRequest s r).now) =
    (s.requests, s.parts, s.mem, s.now) := by
  refine foldl_view s (fun u => (u.requests, u.parts, u.mem, u.now)) (fun u g => ?_) _
  split
  · rw [queueOn_eq]
  · rw [sendFrame_eq]

/-- A request unanswered for 200 ms (12 R338). -/
theorem timeoutRequest_times : (timeoutRequest s r).now = max s.now (r.sentAt + 200000000) ∧
    (3 ≤ r.attempts → (timeoutRequest s r).requests = updFirst (fun q => q.tag == r.tag) (fun q => { q with failed := true }) s.requests) ∧
    (r.attempts < 3 → (timeoutRequest s r).requests = updFirst (fun q => q.tag == r.tag)
      (fun q => { q with attempts := q.attempts + 1, sentAt := (timeoutRequest s r).now, got := [] }) s.requests) ∧
    (timeoutRequest s r).parts = s.parts ∧ (timeoutRequest s r).mem = s.mem := by
  have hms : r.sentAt + ms 200 = r.sentAt + 200000000 := rfl
  unfold timeoutRequest
  dsimp only
  rw [hms]
  have hunits : ((s.reach (r.sentAt + 200000000)).now, (s.reach (r.sentAt + 200000000)).requests, (s.reach (r.sentAt + 200000000)).parts,
      (s.reach (r.sentAt + 200000000)).mem) = (max s.now (r.sentAt + 200000000), s.requests, s.parts, s.mem) := rfl
  generalize r.sentAt + 200000000 = e at hunits ⊢
  generalize s.reach e = a at hunits ⊢
  simp only [Prod.mk.injEq] at hunits
  obtain ⟨hnow, hrequests, hparts, hmem⟩ := hunits
  by_cases h3 : 3 ≤ r.attempts
  · rw [if_pos h3]
    exact ⟨hnow, fun _ => by rw [← hrequests]; rfl, fun h => absurd h (Nat.not_lt.mpr h3), hparts, hmem⟩
  · rw [if_neg h3]
    obtain ⟨srequests, sparts, smem, snow⟩ : _ ∧ _ ∧ _ ∧ _ := by
      have := sendRequest_units (r := r) (s := modRequest a r.tag (fun r => { r with attempts := r.attempts + 1, sentAt := a.now, got := [] }))
      simpa only [Prod.mk.injEq] using this
    refine ⟨snow.trans hnow, fun h => absurd h h3, fun _ => ?_, sparts.trans hparts, smem.trans hmem⟩
    rw [srequests, snow, ← hrequests]
    rfl

theorem execStoreRequestTimeout_due (h : oldestRequest s.requests = some r) :
    execStoreRequestTimeout s = .next (continueExports (continuePull (timeoutRequest s r))) := by
  unfold execStoreRequestTimeout
  rw [h]

theorem execStoreRequestTimeout_none (h : oldestRequest s.requests = none) : execStoreRequestTimeout s = .next s := by
  unfold execStoreRequestTimeout
  rw [h]

theorem addData_next (h : f.offset = r.got.length) : (addData r f).got = (r.got ++ f.payload).take r.length := by
  unfold addData
  rw [if_neg (not_not.mpr h)]

theorem addData_other (h : f.offset ≠ r.got.length) : addData r f = r := if_pos h

end

/-- Settles O56: a frame opens or not by `openJob_opens` and `openJob_fails`, and each row then does what its own lemma says. Whose frame it
is, is log entry 25, the oldest first log entry 26, sections log entry 38, copies log entry 56, pieces and slots log entries 91 and 92, pairing
and restoring log entries 112, 113 and 115, exports log entry 129, a mirror's JOB_DATA log entry 145; a row's time is log entry 10. -/
theorem jobFramesAreTaken : Obligations.JobFramesAreTaken := by
  unfold Obligations.JobFramesAreTaken exec
  refine ⟨fun s => ⟨onFrame_noneOfType, onJobFrame_noneOfType, onJobFrame_noneOfType, fun h => ⟨onPartFrame_noneOfType h, onPartFrame_noneOfType h,
    onPartFrame_noneOfType h, onPartFrame_noneOfType h⟩, onFrame_noneOfType, onFrame_noneOfType, onFrame_noneOfType, execStoreRequestTimeout_none, ?timeout⟩,
    fun s n f rest hin => ⟨?nocredit, ?credit, ?unopened, ?opened, ?nodata, ?noack, ?noerr, ?answers⟩⟩
  case timeout =>
    intro r hr
    obtain ⟨hnow, hfail, hagain, hparts, hmem⟩ := timeoutRequest_times (s := s) (r := r)
    exact ⟨_, _, execStoreRequestTimeout_due hr, rfl, hnow, hfail, hagain, hparts, hmem, continueExports_mem.trans (continuePull_mem.trans hmem)⟩
  case nocredit => exact fun ht hw => ⟨_, execRingCredit_none hin ht hw, rfl, rfl, rfl⟩
  case credit =>
    intro p i ht hw
    refine ⟨_, execRingCredit_credits hin ht hw, rfl, ?_, rfl, fun q hq => State.modPart_part_ne _ _ _ _ (Ne.symm hq)⟩
    rw [State.modPart_part]
    exact creditOf_setCredit _ _
  case unopened =>
    intro hno
    have hpart : ∀ (who : Option (PartId × Nat)) (q : PartId) {β : Type} (v : Part → β), (∀ x, v { x with job := none } = v x) →
        v ((gcmFailed (s.tookFrame n f rest) n who).part q) = v (s.part q) := fun who q β v hv => by
      obtain ⟨-, -, -, hparts⟩ := gcmFailed_counts (s := s) (n := n) (f := f) (rest := rest) who
      exact (hv _).symm.trans ((congrArg v (hparts q)).trans (hv _))
    refine ⟨fun ht => ?_, fun ht => ?_, fun ht c hc => ?_⟩
    · obtain ⟨who, hrun⟩ := onJobFrame_fails hin ht rfl hno
      obtain ⟨hcount, hinbox, hmem, -⟩ := gcmFailed_counts (s := s) (n := n) (f := f) (rest := rest) who
      exact ⟨_, hrun, hinbox, hcount, fun q => ⟨hpart who q Part.rings fun _ => rfl, hpart who q Part.journal fun _ => rfl⟩, hmem⟩
    · obtain ⟨who, hrun⟩ := onJobFrame_fails hin ht rfl hno
      obtain ⟨hcount, hinbox, hmem, -⟩ := gcmFailed_counts (s := s) (n := n) (f := f) (rest := rest) who
      exact ⟨_, hrun, hinbox, hcount, fun q => ⟨hpart who q Part.copyIn fun _ => rfl, hpart who q Part.journal fun _ => rfl⟩, hmem⟩
    · have hall : ∀ kind act, ∃ u, onPartFrame s kind act = .next u ∧ u.inbox = rest ∧ (u.link n).gcmFail = satAdd 8 (s.link n).gcmFail 1 ∧
          (∀ p, (u.part p).claim = (s.part p).claim ∧ (u.part p).journal = (s.part p).journal) ∧ u.mem = s.mem := fun kind act => by
        obtain ⟨who, hrun⟩ := onPartFrame_fails (kind := kind) (act := act) hin ht hno
        obtain ⟨hcount, hinbox, hmem, -⟩ := gcmFailed_counts (s := s) (n := n) (f := f) (rest := rest) who
        exact ⟨_, hrun, hinbox, hcount, fun q => ⟨hpart who q Part.claim fun _ => rfl, hpart who q Part.journal fun _ => rfl⟩, hmem⟩
      obtain rfl | rfl | rfl | rfl := hc
      · exact hall 1 _
      · exact hall 2 _
      · exact hall 3 _
      · exact hall 4 _
  case opened =>
    intro p i k pt hs hk hlt hopen
    refine ⟨fun r g a ht hm hwf hr hg ha hfit hhere => execJobData_lands hin ht hs hk hlt hopen hm hwf hr hg ha hfit hhere, fun ht hm => ?_,
      fun bs ht hjoin hmore => execIngressCopy_keepsPiece hin hs hk hlt hopen ht hjoin hmore,
      fun bs r ht hjoin hlast hr htakes hf => execIngressCopy_lands hin hs hk hlt hopen ht hjoin hlast hr htakes hf,
      fun bs c ht hjoin hkind => ?_, fun bs ht hjoin hlast hpaired => ⟨execDecisionPart_follows hin ht hs hk hlt hopen hjoin hlast hpaired,
        execSnapshotSection_holds hin ht hs hk hlt hopen hjoin hlast hpaired,
        fun l hkind hrole hall himage hstate hl => execSnapshotSection_restores hin ht hs hk hlt hopen hjoin hlast hpaired hkind hrole hall hstate hl,
        execSnapshotJournal_fails hin ht hs hk hlt hopen hjoin hlast hpaired, execSnapshotJournal_joins hin ht hs hk hlt hopen hjoin hlast hpaired,
        execReentryRequest_asks hin ht hs hk hlt hopen hjoin hlast hpaired⟩⟩
    · refine ⟨_, execJobData_mirror hin ht hs hk hlt hopen hm, rfl, ?_, rfl⟩
      unfold State.openedFrame
      rw [modKeysOf_part]
      rfl
    · obtain ⟨rfl, hkind⟩ | ⟨rfl, hkind⟩ | ⟨rfl, hkind⟩ | ⟨rfl, hkind⟩ := hkind <;>
      exact ⟨onPartFrame_keepsPiece hin ht hs hk hlt hopen hjoin hkind, onPartFrame_unpaired hin ht hs hk hlt hopen hjoin hkind⟩
  case nodata =>
    intro ht hw
    refine ⟨_, execStoreRdData_eq hin ht, ?_⟩
    rw [hw]
    exact ⟨rfl, rfl, rfl, rfl⟩
  case noack =>
    intro ht hw
    refine ⟨_, execStoreWrAck_eq hin ht, ?_⟩
    rw [hw]
    exact ⟨rfl, rfl, rfl, rfl⟩
  case noerr =>
    intro ht hw
    refine ⟨_, execStoreErr_eq hin ht, ?_⟩
    rw [hw]
    exact ⟨rfl, rfl, rfl, rfl⟩
  case answers =>
    intro r
    refine ⟨fun ht hw => ?_, fun ht hw => ⟨fun hlen => ?_, fun hlen => ?_⟩, fun ht hw => ?_⟩
    · have hrun := execStoreRdData_eq hin ht
      rw [hw] at hrun
      exact ⟨_, _, hrun, rfl, rfl, rfl, addData_next, addData_other, rfl, rfl, continuePull_mem⟩
    · have hrun := execStoreWrAck_eq hin ht
      rw [hw] at hrun
      exact ⟨_, _, hrun.trans (congrArg _ (if_pos hlen)), rfl, rfl, rfl, rfl, rfl, continueExports_mem⟩
    · have hrun := execStoreWrAck_eq hin ht
      rw [hw] at hrun
      exact ⟨_, hrun.trans (congrArg _ (if_neg hlen)), rfl, rfl, rfl, rfl⟩
    · have hrun := execStoreErr_eq hin ht
      rw [hw] at hrun
      exact ⟨_, _, hrun, rfl, rfl, rfl, rfl, rfl, continueExports_mem.trans continuePull_mem⟩

end Sys2Proof.Machine

namespace Sys2Proof.Machine

/-! ## Carloth ports (O54) -/

section
variable {s u a : State} {n m : PortId} {st : LinkState}

/-! ### Training (12 R341, R342) -/

theorem retrain_eq : retrain s n = if 3 ≤ (recentRetrains s n).length
    then setLink (s.modLink n (fun l => { l with retrains := recentRetrains s n })) n .failed
    else startTraining (setLink (s.modLink n (fun l => { l with
      retrains := s.now :: recentRetrains s n, waitSince := Vector.replicate 3 none, stalled := false, nakTimes := [] })) n .retraining) n := rfl

/-- The state in which a retrain leaves its port. -/
theorem retrain_state : ((retrain s n).link n).state =
    if 3 ≤ ((s.link n).retrains.filter (fun r => s.now < r + 60000000000)).length then .failed else .retraining := by
  rw [retrain_eq]
  show _ = if 3 ≤ (recentRetrains s n).length then _ else _
  split
  · rw [setLink_became, became_state]
  · rw [startTraining_link]
    show ((setLink _ n .retraining).link n).state = _
    rw [setLink_became, became_state]

theorem retrain_offTraining : (retrain s n).offTraining = s.offTraining := by
  rw [retrain_eq]
  split
  · exact (offTraining_ofPort setLink_offPort).trans (offTraining_ofPort (modLink_offPort _))
  · exact startTraining_offTraining.trans ((offTraining_ofPort setLink_offPort).trans (offTraining_ofPort (modLink_offPort _)))

theorem retrain_units : (retrain s n).mem = s.mem ∧ (retrain s n).now = s.now := by
  have h := retrain_offTraining (s := s) (n := n)
  generalize retrain s n = v at h ⊢
  exact ⟨(congrArg State.mem h :), (congrArg State.now h :)⟩

theorem retrain_mem : (retrain s n).mem = s.mem := retrain_units.1

theorem retrain_now : (retrain s n).now = s.now := retrain_units.2

theorem not_trainsAt {step : Nat} (h : mayTrain s n = false ∨ inTraining (s.link n).state = false ∨ (s.link n).trainStep ≠ step) :
    ¬ (mayTrain s n && inTraining (s.link n).state && decide ((s.link n).trainStep = step)) = true := by
  obtain h | h | h := h <;> simp [h]

section
variable (hm : mayTrain s n = true) (ht : inTraining (s.link n).state = true)
include hm ht

/-- A signal is found. -/
theorem execSignalDetect_detects (h0 : (s.link n).trainStep = 0) :
    ∃ u, execSignalDetect n s = .next u ∧ (u.link n).trainStep = 1 ∧ (u.link n).trainAt = s.now ∧
      (u.link n).state = (if (s.link n).state = .down then .training else (s.link n).state) ∧ u.mem = s.mem ∧ u.parts = s.parts := by
  have hrun : execSignalDetect n s = .next ((if (s.link n).state = .down then setLink s n .training else s).modLink n
      (fun l => { l with trainStep := 1, trainAt := (if (s.link n).state = .down then setLink s n .training else s).now })) := if_pos (by simp [hm, ht, h0])
  have hstate : ((if (s.link n).state = .down then setLink s n .training else s).link n).state =
      if (s.link n).state = .down then .training else (s.link n).state := by
    split
    · rw [setLink_became, became_state]
    · rfl
  have hoff : (if (s.link n).state = .down then setLink s n .training else s).offPort = s.offPort := by
    split
    · exact setLink_offPort
    · rfl
  generalize (if (s.link n).state = .down then setLink s n .training else s) = v at hrun hstate hoff
  have hnow : v.now = s.now := (congrArg State.now hoff :)
  refine ⟨_, hrun, ?_, ?_, ?_, (congrArg State.mem hoff :), (congrArg State.parts hoff :)⟩
  · rw [State.modLink_link]
  · rw [State.modLink_link]
    exact hnow
  · rw [State.modLink_link]
    exact hstate

/-- Lock sends the identity. -/
theorem execFecLock_identifies (challenge : Bytes) (h1 : (s.link n).trainStep = 1) :
    ∃ u own sig, execFecLock n challenge s = .next u ∧ (u.link n).trainStep = 2 ∧ (u.link n).challenge = own ∧
      u.out = s.out ++ [.trainingIdentity n s.place n.val s.plan.cabinet s.fuses.serial own sig] ∧ own.length = 32 ∧ u.mem = s.mem ∧ u.parts = s.parts := by
  have hsign : ∀ (v : State) msg, ((signIdentity v msg).2.out, (signIdentity v msg).2.mem, (signIdentity v msg).2.parts, (signIdentity v msg).2.fuses,
      (signIdentity v msg).2.plan) = (v.out, v.mem, v.parts, v.fuses, v.plan) := fun v msg => by
    unfold signIdentity
    split <;> rfl
  have hlen : (leBytes 32 (Config.randomKey s.draw.1).toNat).length = 32 := leBytes_length 32 _
  obtain ⟨hout, hmem, hparts, hfuses, hplan⟩ : _ ∧ _ ∧ _ ∧ _ ∧ _ := by
    have := hsign s.draw.2 (Config.identityMessage s.place n.val s.plan.cabinet s.fuses.serial challenge)
    simpa only [Prod.mk.injEq] using this
  have hrun : execFecLock n challenge s = .next _ := if_pos (by simp [hm, ht, h1])
  generalize leBytes 32 (Config.randomKey s.draw.1).toNat = own at hlen hrun
  generalize signIdentity s.draw.2 (Config.identityMessage s.place n.val s.plan.cabinet s.fuses.serial challenge) = sig at hout hmem hparts hfuses hplan hrun
  refine ⟨_, own, sig.1, hrun, ?_, ?_, ?_, hlen, hmem, hparts⟩
  · rw [State.emit_link', State.modLink_link]
  · rw [State.emit_link', State.modLink_link]
  · show sig.2.out ++ [Output.trainingIdentity n sig.2.place n.val sig.2.plan.cabinet sig.2.fuses.serial own sig.1] = _
    unfold State.place
    rw [hout, hfuses, hplan]
    rfl

/-- Without a signal the port tries again. -/
theorem execTrainingRetry_retries (h0 : (s.link n).trainStep = 0) :
    ∃ u, execTrainingRetry n s = .next u ∧ u.now = max s.now ((s.link n).trainAt + 1000000000) ∧ (u.link n).state = .down ∧
      (u.link n).trainStep = 0 ∧ (u.link n).trainAt = u.now ∧ u.out = s.out ++ [.trainingPattern n] ∧ u.mem = s.mem := by
  have hrun : execTrainingRetry n s = .next (startTraining (setLink (s.reach ((s.link n).trainAt + 1000000000)) n .down) n) := if_pos (by simp [hm, ht, h0])
  have hunits : ((s.reach ((s.link n).trainAt + 1000000000)).now, (s.reach ((s.link n).trainAt + 1000000000)).out,
      (s.reach ((s.link n).trainAt + 1000000000)).mem) = (max s.now ((s.link n).trainAt + 1000000000), s.out, s.mem) := rfl
  generalize s.reach ((s.link n).trainAt + 1000000000) = v at hrun hunits
  simp only [Prod.mk.injEq] at hunits
  obtain ⟨hnow, hout, hmem⟩ := hunits
  have hoff : (setLink v n .down).offPort = v.offPort := setLink_offPort
  have hstate : ((setLink v n .down).link n).state = .down := by rw [setLink_became, became_state]
  generalize setLink v n .down = w at hrun hoff hstate
  have wnow : w.now = v.now := (congrArg State.now hoff :)
  have wout : w.out = v.out := (congrArg State.out hoff :)
  have wmem : w.mem = v.mem := (congrArg State.mem hoff :)
  refine ⟨_, hrun, wnow.trans hnow, ?_, ?_, ?_, ?_, wmem.trans hmem⟩
  · rw [startTraining_link]
    exact hstate
  · rw [startTraining_link]
  · rw [startTraining_link]
    rfl
  · show w.out ++ _ = _
    rw [wout, hout]

/-- A step of training that takes too long (log entry 87). -/
theorem execTrainingTimeout_retrains (h0 : (s.link n).trainStep ≠ 0) :
    ∃ u, execTrainingTimeout n s = .next u ∧
      u.now = max s.now ((s.link n).trainAt + (if (s.link n).trainStep = 1 then 200000000 else 50000000)) ∧
      (u.link n).state = (if 3 ≤ ((s.link n).retrains.filter (fun r => u.now < r + 60000000000)).length then .failed else .retraining) ∧ u.mem = s.mem := by
  have hrun : execTrainingTimeout n s = .next (retrain (s.reach ((s.link n).trainAt + (if (s.link n).trainStep = 1 then 200000000 else 50000000))) n) :=
    if_pos (by simp [hm, ht, h0])
  generalize (s.link n).trainAt + (if (s.link n).trainStep = 1 then 200000000 else 50000000) = e at hrun ⊢
  have hnow : (retrain (s.reach e) n).now = max s.now e := retrain_now
  refine ⟨_, hrun, hnow, ?_, retrain_mem⟩
  rw [hnow]
  exact retrain_state

end

theorem execTraining_idle (h : mayTrain s n = false ∨ inTraining (s.link n).state = false ∨ (s.link n).trainStep ≠ 0) :
    execSignalDetect n s = .next s ∧ execTrainingRetry n s = .next s := ⟨if_neg (not_trainsAt h), if_neg (not_trainsAt h)⟩

theorem execFecLock_idle (h : mayTrain s n = false ∨ inTraining (s.link n).state = false ∨ (s.link n).trainStep ≠ 1) (c : Bytes) :
    execFecLock n c s = .next s := if_neg (not_trainsAt h)

theorem execTrainingTimeout_idle (h : mayTrain s n = false ∨ inTraining (s.link n).state = false ∨ (s.link n).trainStep = 0) :
    execTrainingTimeout n s = .next s := if_neg (by obtain h | h | h := h <;> simp [h])

/-! ### The start goes on -/

/-- A port without its counts. -/
def Link.uncounted (l : Link) : Link := { l with naks := 0, fecUncorr := 0, discards := 0, gcmFail := 0, retrains := [] }

/-- What the start leaves of a port and of what its identity is compared with. -/
def State.wired (s : State) (n : PortId) : Link × Plan × Fuses × Option FwLoad × Mem := ((s.link n).uncounted, s.plan, s.fuses, s.fw.load, s.mem)

theorem clearCounts_wired : (clearCounts s).wired n = s.wired n := by
  unfold clearCounts
  extract_lets a b c d e src f g h i
  have hg : g.wired n = f.wired n := forPorts_view f (fun u => u.wired n) fun m u => by
    unfold State.wired
    by_cases h : m = n
    · rw [h, State.modLink_link]
      rfl
    · rw [State.modLink_link_ne _ _ _ _ h]
      rfl
  have hf : f.wired n = s.wired n := by simp [f, e, d, c, b, a, forI3c, State.wired, State.link]
  clear_value g
  exact hg.trans hf

/-- The state without what a QUENCH changes. -/
theorem enterQuench_wired (cause : Nat) : (enterQuench s cause).wired n = s.wired n := by
  have hclaim : ∀ {v t : State}, v.offClaim = t.offClaim → v.wired n = t.wired n := fun h =>
    (congrArg (fun u : State => u.wired n) h :)
  by_cases h : powered s = true ∧ s.power.state ≠ .quench
  · have hbegun : (quenchBegun s cause).wired n = s.wired n := by
      have hv := hclaim (settleHolds_offClaim (s := s.modPower fun w => { w with quenchAt := s.now }))
      unfold quenchBegun
      generalize settleHolds (s.modPower fun w => { w with quenchAt := s.now }) = v at hv ⊢
      exact (congrArg (fun u : State => u.wired n) (event_offMail ..) :).trans hv
    have hyield := forParts_view (quenchBegun s cause) (fun u => u.wired n) fun p (u : State) => hclaim (yieldPaired_offClaim (s := u) p)
    have hself : ∀ v : State, (setSelfRefresh v true).wired n = v.wired n := fun v => forClusters_view v (fun u => u.wired n) fun _ _ => rfl
    rw [enterQuench_enters h.1 h.2, hself]
    exact hyield.trans hbegun
  · obtain ⟨at_, c, he⟩ := enterQuench_stays h cause
    rw [he]
    rfl

theorem enterHold_wired : (enterHold s).wired n = s.wired n := by
  unfold enterHold
  extract_lets v k w x u
  have hv : v.wired n = s.wired n := clearCounts_wired
  clear_value v
  have hx : x.wired n = v.wired n := rfl
  clear_value x
  have hu : u.wired n = x.wired n := (congrArg (fun u : State => u.wired n) (event_offMail ..) :)
  clear_value u
  split
  · exact hu.trans (hx.trans hv)
  · exact (enterQuench_wired _).trans (hu.trans (hx.trans hv))

theorem endStep7_wired : (endStep7 s).wired n = s.wired n := by
  unfold endStep7
  split <;> rfl

theorem settleStart_wired : (settleStart s).wired n = s.wired n := by
  unfold settleStart
  split
  · rfl
  dsimp only
  have h7 := endStep7_wired (s := s) (n := n)
  generalize endStep7 s = v at h7 ⊢
  split
  · exact enterHold_wired.trans h7
  · exact h7

/-! ### Identities -/

theorem setLink_load : (setLink s n st).fw.load = s.fw.load := by
  by_cases h : (s.link n).state = st
  · rw [setLink_same h]
  · obtain ⟨data, hset⟩ := setLink_changes h
    have hrelay : ∀ (v : State) l, (freeRelay v l).fw = v.fw := fun v l => foldl_view v State.fw (by intro _ _; rfl) _
    have h7 : (endStep7 s).fw.load = s.fw.load := by
      unfold endStep7
      split <;> rfl
    rw [hset, State.event_fw]
    unfold linkChanged
    split
    · exact h7
    · exact (congrArg Firmware.load (hrelay ..) :).trans h7

theorem takeIdentity_eq (i : PartnerId) : takeIdentity s n i =
    if !identityOk s n i && !(isStore s i && i.sig.isEmpty)
    then (setLink (s.modLink n (fun l => { l with far := some (farOf s n i), trainStep := 0 })) n .failed).event (srcLink n) 0x0702 0xFF (leBytes 2 i.place)
    else if wiredWrong s n i.place i.port i.cabinet then setLink (s.modLink n (fun l => { l with far := some (farOf s n i), trainStep := 0 })) n .miswired
    else setLink ((s.modLink n (fun l => { l with far := some (farOf s n i), trainStep := 0 })).modLink n
      (fun l => if (s.link n).state = .retraining then { l with resend := l.unacked.length } else freshLink l)) n .up := rfl

end

end Sys2Proof.Machine

namespace Sys2Proof.Machine

section
variable {s u a : State} {n m : PortId} {st : LinkState} {i : PartnerId}

/-! ### A partner's identity (12 R341, R344) -/

theorem settlePull_none (h : s.fw.load = none) : settlePull s = s := by
  unfold settlePull
  rw [h]

theorem modLink_load (f : Link → Link) : (s.modLink n f).fw.load = s.fw.load := rfl

theorem takeIdentity_load : (takeIdentity s n i).fw.load = s.fw.load := by
  rw [takeIdentity_eq]
  split
  · rw [State.event_fw, setLink_load, modLink_load]
  split
  · rw [setLink_load, modLink_load]
  · rw [setLink_load, modLink_load, modLink_load]

theorem takeIdentity_mem : (takeIdentity s n i).mem = s.mem := by
  have hset : ∀ (v : State) st, (setLink v n st).mem = v.mem := fun v st => by
    have h := setLink_offPort (s := v) (n := n) (st := st)
    generalize setLink v n st = w at h ⊢
    exact (congrArg State.mem h :)
  rw [takeIdentity_eq]
  split
  · rw [State.event_mem, hset]
    rfl
  split
  · rw [hset]
    rfl
  · rw [hset]
    rfl

/-- With no firmware load, the row is the taking of the identity and what the start makes of it. -/
theorem execPartnerIdentity_settles (hm : mayTrain s n = true) (ht : inTraining (s.link n).state = true) (h2 : (s.link n).trainStep = 2)
    (hload : s.fw.load = none) : ∃ a u, a.wired n = s.wired n ∧ execPartnerIdentity n i s = .next u ∧ u.wired n = (takeIdentity a n i).wired n := by
  have ha := settleStart_wired (s := s) (n := n)
  have hrun : execPartnerIdentity n i s = .next (settleStart (if (match (settlePull (takeIdentity (settleStart s) n i)).fw.load with
      | some f => f.pull && f.linkPort == n.val && f.ahead == 0 | none => false)
      then failPull (settlePull (takeIdentity (settleStart s) n i)) 8 else settlePull (takeIdentity (settleStart s) n i))) := if_pos (by simp [hm, ht, h2])
  generalize settleStart s = a at ha hrun
  have hnone : (takeIdentity a n i).fw.load = none := by
    have haload : a.fw.load = s.fw.load := congrArg (fun w => w.2.2.2.1) ha
    rw [takeIdentity_load, haload, hload]
  refine ⟨a, _, ha, hrun, ?_⟩
  generalize takeIdentity a n i = b at hnone ⊢
  rw [settleStart_wired, settlePull_none hnone, hnone]
  rfl

/-- The port once its far end is known, before its state changes. -/
def Link.known (l : Link) (f : FarEnd) : Link := { l with far := some f, trainStep := 0 }

theorem takeIdentity_verified (h : identityOk s n i = true ∨ isStore s i = true ∧ i.sig = []) : takeIdentity s n i =
    if wiredWrong s n i.place i.port i.cabinet then setLink (s.modLink n (fun l => l.known (farOf s n i))) n .miswired
    else setLink ((s.modLink n (fun l => l.known (farOf s n i))).modLink n
      (fun l => if (s.link n).state = .retraining then { l with resend := l.unacked.length } else freshLink l)) n .up := by
  refine (takeIdentity_eq i).trans (if_neg ?_)
  obtain h | ⟨hs, hsig⟩ := h
  · simp [h]
  · simp [hs, hsig]

theorem takeIdentity_unverified (h : identityOk s n i = false) (hs : isStore s i = false ∨ i.sig ≠ []) :
    ((takeIdentity s n i).link n).state = .failed := by
  have hno : (!identityOk s n i && !(isStore s i && i.sig.isEmpty)) = true := by
    obtain hs | hs := hs
    · simp [h, hs]
    · simp [h, hs]
  rw [takeIdentity_eq, if_pos hno, event_link, setLink_became, became_state]

theorem became_up {l : Link} (h : l.state ≠ .up) : l.became .up = { l with state := .up } := if_neg h

/-- A verified identity that is not wired wrong makes the port UP. -/
theorem takeIdentity_up (h : identityOk s n i = true ∨ isStore s i = true ∧ i.sig = []) (hw : wiredWrong s n i.place i.port i.cabinet = false)
    (ht : inTraining (s.link n).state = true) : (takeIdentity s n i).link n =
      { (if (s.link n).state = .retraining then { (s.link n).known (farOf s n i) with resend := (s.link n).unacked.length }
        else freshLink ((s.link n).known (farOf s n i))) with state := .up } := by
  have hnot : (if (s.link n).state = .retraining then { (s.link n).known (farOf s n i) with resend := (s.link n).unacked.length }
      else freshLink ((s.link n).known (farOf s n i))).state ≠ .up := by
    split
    next hr => exact fun he => absurd (hr.symm.trans he) (by decide)
    next =>
      intro he
      replace he : (s.link n).state = .up := he
      rw [he] at ht
      exact absurd ht (by decide)
  rw [takeIdentity_verified h, hw, if_neg Bool.false_ne_true, setLink_became, State.modLink_link, State.modLink_link]
  exact became_up hnot

theorem takeIdentity_miswired (h : identityOk s n i = true ∨ isStore s i = true ∧ i.sig = []) (hw : wiredWrong s n i.place i.port i.cabinet = true) :
    ((takeIdentity s n i).link n).state = .miswired := by
  rw [takeIdentity_verified h, hw, if_pos rfl, setLink_became, became_state]

/-- What an identity is compared with is the same in states whose port and plan are. -/
theorem wired_compares (h : a.wired n = s.wired n) : identityOk a n i = identityOk s n i ∧ isStore a i = isStore s i ∧
    wiredWrong a n i.place i.port i.cabinet = wiredWrong s n i.place i.port i.cabinet := by
  simp only [State.wired, Prod.mk.injEq] at h
  obtain ⟨hlink, hplan, -, -, -⟩ := h
  have hch : (a.link n).challenge = (s.link n).challenge := (congrArg Link.challenge hlink :)
  refine ⟨?_, ?_, ?_⟩
  · unfold identityOk
    rw [hch]
  · unfold isStore routeOf
    rw [hplan]
  · unfold wiredWrong agreesWith
    rw [hplan]

/-- PARTNER_IDENTITY with no firmware load. -/
theorem execPartnerIdentity_acts (hm : mayTrain s n = true) (ht : inTraining (s.link n).state = true) (h2 : (s.link n).trainStep = 2)
    (hload : s.fw.load = none) :
    ((identityOk s n i = true ∨ isStore s i = true ∧ i.sig = []) → wiredWrong s n i.place i.port i.cabinet = false →
      ∃ u, execPartnerIdentity n i s = .next u ∧ (u.link n).state = .up ∧ (u.link n).trainStep = 0 ∧
        ((s.link n).state ≠ .retraining → (u.link n).credits = bufferUnits ∧ (u.link n).txSeq = 0 ∧ (u.link n).rxNext = 0) ∧
        ((s.link n).state = .retraining → (u.link n).resend = (s.link n).unacked.length ∧ (u.link n).txSeq = (s.link n).txSeq) ∧ u.mem = s.mem) ∧
    ((identityOk s n i = true ∨ isStore s i = true ∧ i.sig = []) → wiredWrong s n i.place i.port i.cabinet = true →
      ∃ u, execPartnerIdentity n i s = .next u ∧ (u.link n).state = .miswired) ∧
    (identityOk s n i = false → (isStore s i = false ∨ i.sig ≠ []) → ∃ u, execPartnerIdentity n i s = .next u ∧ (u.link n).state = .failed) := by
  obtain ⟨a, u, ha, hrun, hu⟩ := execPartnerIdentity_settles (i := i) hm ht h2 hload
  obtain ⟨hid, hstore, hwrong⟩ := wired_compares (i := i) ha
  have hlink : (a.link n).uncounted = (s.link n).uncounted := congrArg Prod.fst ha
  have amem : a.mem = s.mem := congrArg (fun w => w.2.2.2.2) ha
  have hstate : (a.link n).state = (s.link n).state := (congrArg Link.state hlink :)
  have hunacked : (a.link n).unacked = (s.link n).unacked := (congrArg Link.unacked hlink :)
  have htx : (a.link n).txSeq = (s.link n).txSeq := (congrArg Link.txSeq hlink :)
  have htaken : (u.link n).uncounted = ((takeIdentity a n i).link n).uncounted := congrArg Prod.fst hu
  have humem : u.mem = s.mem := by
    have : u.mem = (takeIdentity a n i).mem := congrArg (fun w => w.2.2.2.2) hu
    rw [this, takeIdentity_mem, amem]
  have hview : ∀ {β : Type} (v : Link → β), (∀ l, v l.uncounted = v l) → v (u.link n) = v ((takeIdentity a n i).link n) := fun v hv =>
    (hv _).symm.trans ((congrArg v htaken).trans (hv _))
  rw [← hid, ← hstore, ← hwrong, ← hstate]
  refine ⟨fun hok hw => ⟨u, hrun, ?_⟩, fun hok hw => ⟨u, hrun, ?_⟩, fun hno hs => ⟨u, hrun, ?_⟩⟩
  · have hup := takeIdentity_up hok hw (by rw [hstate]; exact ht)
    rw [hview Link.state fun _ => rfl, hview Link.trainStep fun _ => rfl, hview Link.credits fun _ => rfl, hview Link.txSeq fun _ => rfl,
      hview Link.rxNext fun _ => rfl, hview Link.resend fun _ => rfl, hup, ← hunacked, ← htx]
    refine ⟨rfl, ?_, fun hr => ?_, fun hr => ?_, humem⟩
    · split <;> rfl
    · rw [if_neg hr]
      exact ⟨rfl, rfl, rfl⟩
    · rw [if_pos hr]
      exact ⟨rfl, rfl⟩
  · exact (hview Link.state fun _ => rfl).trans (takeIdentity_miswired hok hw)
  · exact (hview Link.state fun _ => rfl).trans (takeIdentity_unverified hno hs)

theorem execPartnerIdentity_idle (h : mayTrain s n = false ∨ inTraining (s.link n).state = false ∨ (s.link n).trainStep ≠ 2) :
    execPartnerIdentity n i s = .next s := if_neg (not_trainsAt h)

/-! ### Slow and faulty partners (12 R341) -/

theorem execSlowPartner_idle (h : (s.link n).state ≠ .up ∨ waitingSince (s.link n) = none ∨ (s.link n).stalled = true) :
    execSlowPartner n s = .next s := by
  unfold execSlowPartner
  split
  next t hw =>
    refine if_pos ?_
    obtain h | h | h := h
    · simp [h]
    · simp [h] at hw
    · simp [h]
  next => rfl

theorem execSlowPartnerRetrain_idle (h : (s.link n).state ≠ .up ∨ waitingSince (s.link n) = none ∨ (s.link n).stalled = false) :
    execSlowPartnerRetrain n s = .next s := by
  unfold execSlowPartnerRetrain
  split
  next t hw =>
    refine if_neg ?_
    obtain h | h | h := h
    · simp [h]
    · simp [h] at hw
    · simp [h]
  next => rfl

theorem execSlowPartner_marks {w : Ns} (hup : (s.link n).state = .up) (hw : waitingSince (s.link n) = some w) (hs : (s.link n).stalled = false) :
    ∃ u, execSlowPartner n s = .next u ∧ u.now = max s.now (w + 10000000) ∧ (u.link n).stalled = true ∧ (u.link n).state = .up ∧ u.mem = s.mem := by
  have hms : w + ms 10 = w + 10000000 := rfl
  have hrun : execSlowPartner n s = .next (((s.reach (w + 10000000)).modLink n (fun l => { l with stalled := true })).event (srcLink n)
      Config.slowPartnerCode 0xFF []) := by
    unfold execSlowPartner
    rw [hw]
    dsimp only
    rw [if_neg (by simp [hup, hs]), hms]
  generalize w + 10000000 = e at hrun ⊢
  refine ⟨_, hrun, ?_, ?_, ?_, ?_⟩
  · rw [State.event_now]
    rfl
  · rw [event_link, State.modLink_link]
  · rw [event_link, State.modLink_link]
    exact hup
  · rw [State.event_mem]
    rfl

theorem execSlowPartnerRetrain_retrains {w : Ns} (hup : (s.link n).state = .up) (hw : waitingSince (s.link n) = some w) (hs : (s.link n).stalled = true) :
    ∃ u, execSlowPartnerRetrain n s = .next u ∧ u.now = max s.now (w + 1000000000) ∧
      (u.link n).state = (if 3 ≤ ((s.link n).retrains.filter (fun r => u.now < r + 60000000000)).length then .failed else .retraining) ∧ u.mem = s.mem := by
  have hsec : w + sec 1 = w + 1000000000 := rfl
  have hrun : execSlowPartnerRetrain n s = .next (retrain (s.reach (w + 1000000000)) n) := by
    unfold execSlowPartnerRetrain
    rw [hw]
    dsimp only
    rw [if_pos (by simp [hup, hs]), hsec]
  generalize w + 1000000000 = e at hrun ⊢
  have hnow : (retrain (s.reach e) n).now = max s.now e := retrain_now
  refine ⟨_, hrun, hnow, ?_, retrain_mem⟩
  rw [hnow]
  exact retrain_state

theorem execFaultyPartner_retrains (hup : (s.link n).state = .up) : ∃ u, execFaultyPartner n s = .next u ∧
    (u.link n).state = (if 3 ≤ ((s.link n).retrains.filter (fun r => s.now < r + 60000000000)).length then .failed else .retraining) ∧ u.mem = s.mem :=
  ⟨_, if_pos hup, retrain_state, retrain_mem⟩

end

end Sys2Proof.Machine

namespace Sys2Proof.Machine

section
variable {s t u w : State} {n m : PortId} {p : PartId} {f : Frame} {e : SentEnv}

/-! ### What is noted before an envelope is sent -/

/-- A port without what is noted before an envelope is sent. -/
def Link.sending (l : Link) : Link := { l with waitSince := Vector.replicate 3 none, stalled := false, discardAt := none, dropped := 0 }

/-- What the sending of an envelope looks at. -/
def State.sends (s : State) (n : PortId) : Link × List Output × Mem × Vector Part 8 × Power := ((s.link n).sending, s.out, s.mem, s.parts, s.power)

theorem flushDiscards_sends : (flushDiscards s n).sends n = s.sends n := by
  have hevent : ∀ (v : State) c d, (v.event (srcLink n) c 0xFF d).sends n = v.sends n := fun v c d =>
    (congrArg (fun u : State => u.sends n) (event_offMail ..) :)
  unfold flushDiscards
  split
  · split
    · rfl
    · rw [hevent]
      unfold State.sends
      rw [State.modLink_link]
      rfl
  · rfl

theorem noteWaiting_sends : (noteWaiting s n).sends n = s.sends n := by
  unfold noteWaiting State.sends
  rw [State.modLink_link]
  rfl

/-- The frame that the turn's owner has ready and may send now (12 R318; 17 R458). -/
def readyFrame (s : State) (l : Link) : Option Frame :=
  match turnFrame s l with
  | some f => if frameUnits f ≤ l.credits.get (classIx f.typ) && !s.power.prsntLost then some f else none
  | none => none

theorem turnFrame_sending (l : Link) : turnFrame s l.sending = turnFrame s l := rfl

theorem readyFrame_sending (l : Link) : readyFrame s l.sending = readyFrame s l := rfl

theorem readyFrame_sends (h : t.sends n = w.sends n) : readyFrame t (t.link n) = readyFrame w (w.link n) := by
  simp only [State.sends, Prod.mk.injEq] at h
  obtain ⟨hlink, -, -, hparts, hpower⟩ := h
  have hpart : t.part = w.part := funext fun q => by unfold State.part; rw [hparts]
  rw [← readyFrame_sending, ← readyFrame_sending (w.link n), hlink]
  unfold readyFrame turnFrame turnHeld
  rw [hpart, hpower]

/-- The frame ready is the one that its defining property says. -/
theorem readyFrame_of {fr : Option Frame} {l : Link} (hready : ∀ f, turnFrame s l = some f →
      (fr = some f ↔ frameUnits f ≤ l.credits.get (classIx f.typ) ∧ s.power.prsntLost = false))
    (honly : ∀ f, fr = some f → turnFrame s l = some f) : readyFrame s l = fr := by
  unfold readyFrame
  cases ht : turnFrame s l with
  | none =>
    cases hfr : fr with
    | none => rfl
    | some f => exact absurd ((honly f hfr).symm.trans ht) (by simp)
  | some f =>
    dsimp only
    have hiff := hready f ht
    split
    next h => exact (hiff.mpr (by simpa using h)).symm
    next h =>
      cases hfr : fr with
      | none => rfl
      | some g =>
        obtain rfl : f = g := Option.some.inj (ht.symm.trans (honly g hfr))
        exact absurd (by simpa using hiff.mp hfr) h

/-! ### Envelopes (12 R317, R318) -/

/-- An envelope before its CRC-32C is known. -/
def bareEnv (l : Link) (e : SentEnv) : Envelope :=
  { lseq := e.lseq, lack := (l.rxNext + 65535) % 65536, nak := l.nakDue, credit := e.credit, frame := e.frame, crc := 0, uncorr := 0 }

/-- An envelope as it leaves, with its CRC-32C. -/
def sealedEnv (l : Link) (e : SentEnv) : Envelope := { bareEnv l e with crc := envelopeCrc (bareEnv l e) }

theorem emitEnvelope_eq : emitEnvelope s n e =
    (s.modLink n (fun l => { l with nakDue := false, naks := satAdd 8 l.naks (bit l.nakDue) })).emit (.envelope n (sealedEnv (s.link n) e)) := rfl

theorem emitEnvelope_link : (emitEnvelope s n e).link n = { s.link n with nakDue := false, naks := satAdd 8 (s.link n).naks (bit (s.link n).nakDue) } := by
  rw [emitEnvelope_eq, State.emit_link', State.modLink_link]

theorem emitEnvelope_units : (emitEnvelope s n e).out = s.out ++ [.envelope n (sealedEnv (s.link n) e)] ∧ (emitEnvelope s n e).mem = s.mem ∧
    (emitEnvelope s n e).parts = s.parts := by
  rw [emitEnvelope_eq]
  exact ⟨rfl, rfl, rfl⟩

/-- How many of the last unacknowledged envelopes go again in a turn (12 R318). -/
def goAgain (l : Link) (fr : Option Frame) : Nat :=
  if l.resend = 0 && decide (524288 < (l.unacked.map (fun e => envBytes e.frame)).sum + envBytes fr) then l.unacked.length else l.resend

theorem turnEnvelope_eq : turnEnvelope s n =
    match (s.link n).unacked[(s.link n).unacked.length - goAgain (s.link n) (readyFrame s (s.link n))]? with
    | some e =>
      if mayResend s (s.link n) e
      then emitEnvelope (s.modLink n (fun l => { l with resend := goAgain (s.link n) (readyFrame s (s.link n)) - 1 })) n e
      else emitEnvelope (s.modLink n (fun l => { l with resend := goAgain (s.link n) (readyFrame s (s.link n)) })) n
        { lseq := (e.lseq + 65535) % 65536, credit := (0, 0, 0), frame := none }
    | none => sendNew s n (readyFrame s (s.link n)) := rfl

/-- What every envelope of a turn does. -/
structure Sent (s t : State) (n : PortId) (v : Envelope) : Prop where
  out : t.out = s.out ++ [.envelope n v]
  nak : v.nak = (s.link n).nakDue
  lack : v.lack = ((s.link n).rxNext + 65535) % 65536
  crc : v.crc = envelopeCrc v
  mem : t.mem = s.mem
  parts : t.parts = s.parts
  turn : (t.link n).turn = (s.link n).turn
  nakDue : (t.link n).nakDue = false

theorem emitEnvelope_sent (hunits : (u.out, u.mem, u.parts) = (s.out, s.mem, s.parts)) (hnak : (u.link n).nakDue = (s.link n).nakDue)
    (hrx : (u.link n).rxNext = (s.link n).rxNext) (hturn : (u.link n).turn = (s.link n).turn) : Sent s (emitEnvelope u n e) n (sealedEnv (u.link n) e) := by
  obtain ⟨hout, hmem, hparts⟩ := emitEnvelope_units (s := u) (n := n) (e := e)
  simp only [Prod.mk.injEq] at hunits
  obtain ⟨uout, umem, uparts⟩ := hunits
  refine ⟨by rw [hout, uout], hnak, ?_, rfl, hmem.trans umem, hparts.trans uparts, ?_, ?_⟩
  · show ((u.link n).rxNext + 65535) % 65536 = _
    rw [hrx]
  · rw [emitEnvelope_link]
    exact hturn
  · rw [emitEnvelope_link]

/-- An envelope that goes again, or one without a frame in the turn of another owner. -/
theorem turnEnvelope_resends {again : Nat} (hagain : goAgain (s.link n) (readyFrame s (s.link n)) = again)
    (he : (s.link n).unacked[(s.link n).unacked.length - again]? = some e) :
    ∃ v, Sent s (turnEnvelope s n) n v ∧ ((turnEnvelope s n).link n).txSeq = (s.link n).txSeq ∧ ((turnEnvelope s n).link n).unacked = (s.link n).unacked ∧
      ((turnEnvelope s n).link n).credits = (s.link n).credits ∧
      (mayResend s (s.link n) e = true → v.lseq = e.lseq ∧ v.frame = e.frame ∧ ((turnEnvelope s n).link n).resend = again - 1) ∧
      (mayResend s (s.link n) e = false → v.lseq = (e.lseq + 65535) % 65536 ∧ v.frame = none ∧ ((turnEnvelope s n).link n).resend = again) := by
  have hrun := turnEnvelope_eq (s := s) (n := n)
  rw [hagain, he] at hrun
  dsimp only at hrun
  cases hmay : mayResend s (s.link n) e with
  | true =>
    rw [hmay, if_pos rfl] at hrun
    have hlink : (s.modLink n (fun l => { l with resend := again - 1 })).link n = { s.link n with resend := again - 1 } := State.modLink_link ..
    have hunits : ((s.modLink n (fun l => { l with resend := again - 1 })).out, (s.modLink n (fun l => { l with resend := again - 1 })).mem,
        (s.modLink n (fun l => { l with resend := again - 1 })).parts) = (s.out, s.mem, s.parts) := rfl
    generalize s.modLink n (fun l => { l with resend := again - 1 }) = u at hrun hlink hunits
    have hsent := emitEnvelope_sent (e := e) hunits (by rw [hlink]) (by rw [hlink]) (by rw [hlink])
    rw [hrun]
    refine ⟨_, hsent, ?_, ?_, ?_, fun _ => ⟨rfl, rfl, ?_⟩, fun h => absurd h (by decide)⟩ <;> rw [emitEnvelope_link, hlink]
  | false =>
    rw [hmay, if_neg Bool.false_ne_true] at hrun
    have hlink : (s.modLink n (fun l => { l with resend := again })).link n = { s.link n with resend := again } := State.modLink_link ..
    have hunits : ((s.modLink n (fun l => { l with resend := again })).out, (s.modLink n (fun l => { l with resend := again })).mem,
        (s.modLink n (fun l => { l with resend := again })).parts) = (s.out, s.mem, s.parts) := rfl
    generalize s.modLink n (fun l => { l with resend := again }) = u at hrun hlink hunits
    have hsent := emitEnvelope_sent (e := { lseq := (e.lseq + 65535) % 65536, credit := (0, 0, 0), frame := none }) hunits
      (by rw [hlink]) (by rw [hlink]) (by rw [hlink])
    rw [hrun]
    refine ⟨_, hsent, ?_, ?_, ?_, fun h => absurd h (by decide), fun _ => ⟨rfl, rfl, ?_⟩⟩ <;> rw [emitEnvelope_link, hlink]

/-! ### New envelopes -/

/-- A port without its queues and the credit that it owes. -/
def Link.unqueued (l : Link) : Link := { l with house := [], jobs := [], relay := [], owedCredit := Vector.replicate 3 0 }

theorem dropTurnFrame_leaves : ((dropTurnFrame s n f).link n).unqueued = (s.link n).unqueued ∧
    ((dropTurnFrame s n f).out, (dropTurnFrame s n f).mem, (dropTurnFrame s n f).parts, (dropTurnFrame s n f).now) = (s.out, s.mem, s.parts, s.now) := by
  have hfree : ∀ o : Option (Ns × PortId × Frame), (((match o with | some e => freeUnits s e.2.1 f | none => s).link n).unowed = (s.link n).unowed) ∧
      ((match o with | some e => freeUnits s e.2.1 f | none => s).out, (match o with | some e => freeUnits s e.2.1 f | none => s).mem,
        (match o with | some e => freeUnits s e.2.1 f | none => s).parts, (match o with | some e => freeUnits s e.2.1 f | none => s).now) =
      (s.out, s.mem, s.parts, s.now) := fun o => by
    cases o with
    | none => exact ⟨rfl, rfl⟩
    | some e => exact ⟨freeUnits_unowed f, rfl⟩
  unfold dropTurnFrame
  dsimp only
  split
  · exact ⟨by rw [State.modLink_link]; rfl, rfl⟩
  · exact ⟨by rw [State.modLink_link]; rfl, rfl⟩
  · obtain ⟨hlink, hunits⟩ := hfree (s.link n).relay.head?
    refine ⟨?_, hunits⟩
    rw [State.modLink_link]
    exact (congrArg (fun l : Link => l.unqueued) hlink :)

/-- The state from which a new envelope leaves: its frame is out of its queue. -/
def frameDropped (s : State) (n : PortId) (fr : Option Frame) : State := match fr with | some f => dropTurnFrame s n f | none => s

theorem frameDropped_leaves (fr : Option Frame) : ((frameDropped s n fr).link n).unqueued = (s.link n).unqueued ∧
    ((frameDropped s n fr).out, (frameDropped s n fr).mem, (frameDropped s n fr).parts) = (s.out, s.mem, s.parts) := by
  cases fr with
  | none => exact ⟨rfl, rfl⟩
  | some f =>
    obtain ⟨hlink, hunits⟩ := dropTurnFrame_leaves (s := s) (n := n) (f := f)
    simp only [Prod.mk.injEq] at hunits
    obtain ⟨hout, hmem, hparts, -⟩ := hunits
    exact ⟨hlink, by simp only [frameDropped, hout, hmem, hparts]⟩

/-- The credit left once a frame has been sent. -/
def creditLeft (c : Vector Nat 3) (fr : Option Frame) : Vector Nat 3 :=
  match fr with | some f => c.set (classIx f.typ).val (c.get (classIx f.typ) - frameUnits f) (classIx f.typ).isLt | none => c

/-- A port once a new envelope is noted. -/
def Link.noted (l : Link) (fr : Option Frame) (give : Vector Nat 3) (e : SentEnv) (now : Ns) : Link :=
  { l with
    txSeq := (l.txSeq + 1) % 65536
    owedCredit := Vector.zipWith (· - ·) l.owedCredit give
    unacked := l.unacked ++ [e]
    credits := creditLeft l.credits fr
    lastFrame := if fr.isSome then some now else l.lastFrame }

theorem sendNew_eq (fr : Option Frame) : ∃ give e, e.lseq = (s.link n).txSeq ∧ e.frame = fr ∧
    sendNew s n fr = emitEnvelope ((frameDropped s n fr).modLink n (fun l => l.noted fr give e (frameDropped s n fr).now)) n e := by
  cases fr with
  | none => exact ⟨_, _, rfl, rfl, rfl⟩
  | some f => exact ⟨_, _, rfl, rfl, rfl⟩

/-- A new envelope of a turn. -/
theorem sendNew_sends (fr : Option Frame) : ∃ v, Sent s (sendNew s n fr) n v ∧ v.lseq = (s.link n).txSeq ∧ v.frame = fr ∧
    ((sendNew s n fr).link n).txSeq = ((s.link n).txSeq + 1) % 65536 ∧ ((sendNew s n fr).link n).unacked.length = (s.link n).unacked.length + 1 ∧
    (∀ f, fr = some f → ((sendNew s n fr).link n).credits.get (classIx f.typ) = (s.link n).credits.get (classIx f.typ) - frameUnits f) := by
  obtain ⟨give, e, hlseq, hframe, hrun⟩ := sendNew_eq (s := s) (n := n) fr
  obtain ⟨hlink, hunits⟩ := frameDropped_leaves (s := s) (n := n) fr
  rw [hrun]
  generalize frameDropped s n fr = d at hlink hunits
  have hnoted : (d.modLink n (fun l => l.noted fr give e d.now)).link n = (d.link n).noted fr give e d.now := State.modLink_link ..
  have hunits' : ((d.modLink n (fun l => l.noted fr give e d.now)).out, (d.modLink n (fun l => l.noted fr give e d.now)).mem,
      (d.modLink n (fun l => l.noted fr give e d.now)).parts) = (s.out, s.mem, s.parts) := hunits
  generalize d.modLink n (fun l => l.noted fr give e d.now) = v at hnoted hunits'
  have hnak : (d.link n).nakDue = (s.link n).nakDue := (congrArg Link.nakDue hlink :)
  have hrx : (d.link n).rxNext = (s.link n).rxNext := (congrArg Link.rxNext hlink :)
  have hturn : (d.link n).turn = (s.link n).turn := (congrArg Link.turn hlink :)
  have htx : (d.link n).txSeq = (s.link n).txSeq := (congrArg Link.txSeq hlink :)
  have hun : (d.link n).unacked = (s.link n).unacked := (congrArg Link.unacked hlink :)
  have hcred : (d.link n).credits = (s.link n).credits := (congrArg Link.credits hlink :)
  have hsent := emitEnvelope_sent (e := e) hunits' (by rw [hnoted]; exact hnak) (by rw [hnoted]; exact hrx) (by rw [hnoted]; exact hturn)
  refine ⟨_, hsent, hlseq, hframe, ?_, ?_, fun f hf => ?_⟩
  · rw [emitEnvelope_link, hnoted]
    show ((d.link n).txSeq + 1) % 65536 = _
    rw [htx]
  · rw [emitEnvelope_link, hnoted]
    show ((d.link n).unacked ++ [e]).length = _
    rw [hun, List.length_append]
    rfl
  · rw [emitEnvelope_link, hnoted]
    show (creditLeft (d.link n).credits fr).get _ = _
    rw [hf, hcred]
    exact Vector.getElem_set_self _

/-! ### CALENDAR_TURN (12 R320, R321) -/

theorem copyOut_power (p : PartId) : (copyOut s p).power = s.power := by
  have hsend : ∀ (v : State) i typ ring msg payload, (sendMessage v p i typ ring msg payload).power = v.power := fun v i typ ring msg payload => by
    unfold sendMessage
    refine foldl_view v State.power (fun u c => ?_) _
    dsimp only
    split
    · split
      · rfl
      · rw [sendFrame_eq]
        rfl
    · rfl
  unfold copyOut
  split
  · rfl
  split
  · rfl
  refine foldl_view s State.power (fun u e => ?_) _
  split
  · exact hsend ..
  · rfl

/-- The state once a partition's turn has queued the copies of its landed frames. -/
def copiesQueued (s : State) (n : PortId) : State := match turnOwner (s.link n) with | .part p => copyOut s p | _ => s

theorem copiesQueued_power : (copiesQueued s n).power = s.power := by
  unfold copiesQueued
  split
  · exact copyOut_power _
  · rfl

theorem execCalendarTurn_turns (hup : (s.link n).state = .up) : execCalendarTurn n s =
    .next ((turnEnvelope (noteWaiting (flushDiscards (copiesQueued s n) n) n) n).modLink n (fun l => { l with turn := (l.turn + 1) % 64 })) :=
  if_neg (not_not.mpr hup)

end

end Sys2Proof.Machine

namespace Sys2Proof.Machine

section
variable {s t u v w : State} {n m o : PortId} {f : Frame} {e : Envelope}

/-! ### Envelopes that arrive (12 R318) -/

theorem modLink_link_view {β : Type} (view : Link → β) {g : Link → Link} (hg : ∀ l, view (g l) = view l) :
    view ((s.modLink o g).link n) = view (s.link n) := by
  by_cases h : o = n
  · rw [h, State.modLink_link, hg]
  · rw [State.modLink_link_ne _ _ _ _ h]

/-- A port once an envelope's uncorrectable codewords are counted. -/
def Link.counted (l : Link) (e : Envelope) : Link := { l with fecUncorr := satAdd 8 l.fecUncorr e.uncorr }

/-- The state once an envelope in order has been taken, but for its frame. -/
def received (s : State) (n : PortId) (e : Envelope) : State :=
  let s := (s.modLink n (fun l => l.counted e)).modLink n (fun l => { takeCredit l e.credit with rxNext := (l.rxNext + 1) % 65536, nakSent := false })
  if e.nak then takeNak (takeAck s n e.lack) n else takeAck s n e.lack

/-- The state once the frame of an envelope has been taken too. -/
def framed (s : State) (n : PortId) (e : Envelope) : State := match e.frame with | some f => takeFrame (received s n e) n f | none => received s n e

theorem execEnvelopeReceive_idle (h : (s.link n).state ≠ .up) : execEnvelopeReceive n e s = .next s := if_pos h

section
variable (hup : (s.link n).state = .up)
include hup

theorem execEnvelopeReceive_damaged (hcrc : e.crc ≠ envelopeCrc e) : execEnvelopeReceive n e s =
    .next ((s.modLink n (fun l => l.counted e)).modLink n (fun l => { l with nakDue := true, nakSent := true })) :=
  (if_neg (not_not.mpr hup)).trans (if_pos hcrc)

theorem execEnvelopeReceive_unordered (hcrc : e.crc = envelopeCrc e) (hseq : e.lseq ≠ (s.link n).rxNext) : execEnvelopeReceive n e s =
    .next ((s.modLink n (fun l => l.counted e)).modLink n
      (fun l => if l.nakSent || lseqBehind l e.lseq then l else { l with nakDue := true, nakSent := true })) :=
  (if_neg (not_not.mpr hup)).trans ((if_neg (not_not.mpr hcrc)).trans (if_pos hseq))

theorem execEnvelopeReceive_ordered (hcrc : e.crc = envelopeCrc e) (hseq : e.lseq = (s.link n).rxNext) : execEnvelopeReceive n e s =
    .next (if 64 < ((framed s n e).link n).nakTimes.length then retrain (framed s n e) n else framed s n e) := by
  refine ((if_neg (not_not.mpr hup)).trans ((if_neg (not_not.mpr hcrc)).trans (if_neg (not_not.mpr hseq)))).trans ?_
  unfold framed
  cases e.frame <;> rfl

theorem execEnvelopeReceive_asks (hcrc : e.crc ≠ envelopeCrc e) : ∃ u, execEnvelopeReceive n e s = .next u ∧
    u.link n = { s.link n with fecUncorr := satAdd 8 (s.link n).fecUncorr e.uncorr, nakDue := true, nakSent := true } ∧
    u.inbox = s.inbox ∧ u.mem = s.mem ∧ u.parts = s.parts ∧ (∀ m, m ≠ n → u.link m = s.link m) := by
  refine ⟨_, execEnvelopeReceive_damaged hup hcrc, ?_, rfl, rfl, rfl, fun m hm => ?_⟩
  · rw [State.modLink_link, State.modLink_link]
    rfl
  · rw [State.modLink_link_ne _ _ _ _ (Ne.symm hm), State.modLink_link_ne _ _ _ _ (Ne.symm hm)]

theorem execEnvelopeReceive_waits (hcrc : e.crc = envelopeCrc e) (hseq : e.lseq ≠ (s.link n).rxNext) : ∃ u, execEnvelopeReceive n e s = .next u ∧
    u.link n = { s.link n with fecUncorr := satAdd 8 (s.link n).fecUncorr e.uncorr,
                               nakDue := (s.link n).nakDue || !((s.link n).nakSent || lseqBehind (s.link n) e.lseq),
                               nakSent := (s.link n).nakSent || !lseqBehind (s.link n) e.lseq } ∧
    u.inbox = s.inbox ∧ u.mem = s.mem ∧ u.parts = s.parts ∧ (∀ m, m ≠ n → u.link m = s.link m) := by
  refine ⟨_, execEnvelopeReceive_unordered hup hcrc hseq, ?_, rfl, rfl, rfl, fun m hm => ?_⟩
  · rw [State.modLink_link, State.modLink_link]
    have hsent : ((s.link n).counted e).nakSent = (s.link n).nakSent := rfl
    have hbehind : lseqBehind ((s.link n).counted e) e.lseq = lseqBehind (s.link n) e.lseq := rfl
    rw [hsent, hbehind]
    generalize s.link n = l
    cases hs : l.nakSent <;> cases hb : lseqBehind l e.lseq <;> simp [Link.counted, hs]
  · rw [State.modLink_link_ne _ _ _ _ (Ne.symm hm), State.modLink_link_ne _ _ _ _ (Ne.symm hm)]

end

/-! ### LACK, NAK and CREDIT -/

/-- What the taking of an envelope leaves, but for the ports and the partitions. -/
def State.around (s : State) : List (PortId × Frame) × Mem × Ns × Plan × Firmware × Fuses × Events :=
  (s.inbox, s.mem, s.now, s.plan, s.fw, s.fuses, s.events)

theorem ackSend_links (x : SentEnv) : (ackSend s x).links = s.links ∧ (ackSend s x).around = s.around := by
  have hturn : ∀ g : Frame, (forParts (fun p s => if ((s.part p).job.map (fun j => j.job)) == some g.job then
      s.modPart p (fun x => { x with inflight := x.inflight.map (fun i => if i.awaiting && i.cls = 5 && i.ticket = g.msg then { i with awaiting := false } else i) })
      else s) s).links = s.links ∧ (forParts (fun p s => if ((s.part p).job.map (fun j => j.job)) == some g.job then
      s.modPart p (fun x => { x with inflight := x.inflight.map (fun i => if i.awaiting && i.cls = 5 && i.ticket = g.msg then { i with awaiting := false } else i) })
      else s) s).around = s.around := fun g =>
    ⟨forParts_view s State.links fun _ _ => by split <;> rfl, forParts_view s State.around fun _ _ => by split <;> rfl⟩
  unfold ackSend
  split
  next g hg =>
    split
    · exact hturn g
    · exact ⟨rfl, rfl⟩
  next => exact ⟨rfl, rfl⟩

theorem takeAck_leaves (lack : Nat) : ∃ un rs, (takeAck s n lack).link n = { s.link n with unacked := un, resend := rs } ∧
    (∀ m, m ≠ n → (takeAck s n lack).link m = s.link m) ∧ (takeAck s n lack).around = s.around := by
  unfold takeAck
  dsimp only
  split
  next i hi =>
    have hlinks : ∀ (xs : List SentEnv) (v : State), (xs.foldl ackSend v).links = v.links := fun xs v => foldl_view v State.links (fun u x => (ackSend_links x).1) xs
    have haround : ∀ (xs : List SentEnv) (v : State), (xs.foldl ackSend v).around = v.around := fun xs v => foldl_view v State.around (fun u x => (ackSend_links x).2) xs
    have hlink : ∀ (xs : List SentEnv) (v : State) m, (xs.foldl ackSend v).link m = v.link m := fun xs v m => congrArg (fun l : Vector Link 16 => l.get m) (hlinks xs v)
    refine ⟨(s.link n).unacked.drop (i + 1), min (s.link n).resend ((s.link n).unacked.drop (i + 1)).length, ?_, fun m hm => ?_, ?_⟩
    · rw [hlink, State.modLink_link]
    · rw [hlink, State.modLink_link_ne _ _ _ _ (Ne.symm hm)]
    · rw [haround]
      rfl
  next => exact ⟨(s.link n).unacked, (s.link n).resend, rfl, fun _ _ => rfl, rfl⟩

/-- The port once an envelope in order has been taken, with what is left to acknowledge and the NAKs of the last 1 ms. -/
def Link.took (l : Link) (e : Envelope) (un : List SentEnv) (rs : Nat) (nt : List Ns) : Link :=
  { takeCredit l e.credit with
    fecUncorr := satAdd 8 l.fecUncorr e.uncorr
    rxNext := (l.rxNext + 1) % 65536
    nakSent := false
    unacked := un
    resend := rs
    nakTimes := nt }

/-- The NAKs of the last 1 ms, this one included. -/
def nakCount (s : State) (n : PortId) (e : Envelope) : Nat :=
  if e.nak then 1 + ((s.link n).nakTimes.filter (fun x => s.now < x + 1000000)).length else (s.link n).nakTimes.length

theorem received_leaves : ∃ un rs nt, (received s n e).link n = (s.link n).took e un rs nt ∧ (e.nak = true → rs = un.length) ∧
    (64 < nt.length ↔ 64 < nakCount s n e) ∧ (∀ m, m ≠ n → (received s n e).link m = s.link m) ∧ (received s n e).around = s.around := by
  have hlink : ((s.modLink n (fun l => l.counted e)).modLink n (fun l => { takeCredit l e.credit with rxNext := (l.rxNext + 1) % 65536, nakSent := false })).link n =
      (s.link n).took e (s.link n).unacked (s.link n).resend (s.link n).nakTimes := by
    rw [State.modLink_link, State.modLink_link]
    rfl
  have hothers : ∀ m, m ≠ n → ((s.modLink n (fun l => l.counted e)).modLink n
      (fun l => { takeCredit l e.credit with rxNext := (l.rxNext + 1) % 65536, nakSent := false })).link m = s.link m := fun m hm => by
    rw [State.modLink_link_ne _ _ _ _ (Ne.symm hm), State.modLink_link_ne _ _ _ _ (Ne.symm hm)]
  have haround : ((s.modLink n (fun l => l.counted e)).modLink n
      (fun l => { takeCredit l e.credit with rxNext := (l.rxNext + 1) % 65536, nakSent := false })).around = s.around := rfl
  unfold received
  generalize (s.modLink n (fun l => l.counted e)).modLink n (fun l => { takeCredit l e.credit with rxNext := (l.rxNext + 1) % 65536, nakSent := false }) = a
    at hlink hothers haround ⊢
  obtain ⟨un, rs, klink, kothers, karound⟩ := takeAck_leaves (s := a) (n := n) e.lack
  dsimp only
  generalize takeAck a n e.lack = k at klink kothers karound ⊢
  have hnow : k.now = s.now := congrArg (fun x => x.2.2.1) (karound.trans haround)
  rw [hlink] at klink
  cases hnak : e.nak with
  | false =>
    rw [if_neg Bool.false_ne_true]
    refine ⟨un, rs, (s.link n).nakTimes, klink, fun h => absurd h (by decide), ?_, fun m hm => (kothers m hm).trans (hothers m hm), karound.trans haround⟩
    unfold nakCount
    rw [hnak, if_neg Bool.false_ne_true]
  | true =>
    rw [if_pos rfl]
    refine ⟨un, un.length, (s.now :: (s.link n).nakTimes.filter (fun x => s.now < x + 1000000)).take 65, ?_, fun _ => rfl, ?_, fun m hm => ?_, karound.trans haround⟩
    · unfold takeNak
      rw [State.modLink_link, klink, hnow]
      rfl
    · unfold nakCount
      rw [hnak, if_pos rfl, List.length_take, List.length_cons]
      omega
    · exact (State.modLink_link_ne _ _ _ _ (Ne.symm hm)).trans ((kothers m hm).trans (hothers m hm))

/-! ### Frames that arrive (12 R324) -/

/-- A port without what a frame that arrives changes. -/
def Link.beforeFrame (l : Link) : Link :=
  { l with owedCredit := Vector.replicate 3 0, discards := 0, dropped := 0, discardAt := none, lastFrame := none, relay := [] }

/-- The port on which a frame arrives has carried one. -/
def frameSeen (s : State) (n : PortId) : State := s.modLink n (fun l => { l with lastFrame := some s.now })

theorem takeFrame_eq : takeFrame s n f =
    if !frameOk s n f then hostile (frameSeen s n) n f
    else if (routeOf s f.dst).loc || pullFrame s n f then
      if f.typ = 0x20 || f.typ = 0x22 then freeUnits (frameSeen s n) n f else { frameSeen s n with inbox := s.inbox ++ [(n, f)] }
    else if ((frameSeen s n).link (routePort (routeOf s f.dst))).state = .up
      then (frameSeen s n).modLink (routePort (routeOf s f.dst)) (fun l => { l with relay := relayInsert (s.now, n, f) l.relay })
      else discard (freeUnits (frameSeen s n) n f) (routePort (routeOf s f.dst)) := rfl

theorem freeUnits_view {β : Type} (view : Link → β) (hv : ∀ l c, view { l with owedCredit := c } = view l) :
    view ((freeUnits s o f).link n) = view (s.link n) := by
  have h := freeUnits_unowed (s := s) (n := o) (m := n) f
  exact (hv _ _).symm.trans ((congrArg view h).trans (hv _ _))

theorem freeUnits_owed : ((freeUnits s n f).link n).owedCredit.get (classIx f.typ) = (s.link n).owedCredit.get (classIx f.typ) + frameUnits f := by
  unfold freeUnits
  dsimp only
  rw [State.modLink_link]
  exact Vector.getElem_set_self _

theorem discard_view {β : Type} (view : Link → β) (hv : ∀ l c, view { l with discards := c } = view l) :
    view ((discard s o).link n) = view (s.link n) := modLink_link_view view fun _ => hv _ _

theorem discard_counts : ((discard s n).link n).discards = satAdd 8 (s.link n).discards 1 := by
  unfold discard
  rw [State.modLink_link]

theorem flushDiscards_view {β : Type} (view : Link → β) (hv : ∀ l a d, view { l with discardAt := a, dropped := d } = view l) :
    view ((flushDiscards s n).link n) = view (s.link n) := by
  unfold flushDiscards
  split
  · split
    · rfl
    · rw [event_link, State.modLink_link]
      exact hv _ _ _
  · rfl

theorem flushDiscards_units : ((flushDiscards s n).inbox, (flushDiscards s n).mem, (flushDiscards s n).now) = (s.inbox, s.mem, s.now) := by
  unfold flushDiscards
  split
  · split
    · rfl
    · rw [State.event_inbox, State.event_mem, State.event_now]
      rfl
  · rfl

theorem takeFrame_units : ((takeFrame s n f).mem, (takeFrame s n f).now) = (s.mem, s.now) := by
  rw [takeFrame_eq]
  split
  · have h := flushDiscards_units (s := frameSeen s n) (n := n)
    simp only [Prod.mk.injEq] at h
    obtain ⟨-, hmem, hnow⟩ := h
    show ((flushDiscards (frameSeen s n) n).mem, (flushDiscards (frameSeen s n) n).now) = _
    rw [hmem, hnow]
    rfl
  split
  · split <;> rfl
  · split <;> rfl

theorem frameSeen_view {β : Type} (view : Link → β) (hv : ∀ l c, view { l with lastFrame := c } = view l) :
    view ((frameSeen s n).link m) = view (s.link m) := modLink_link_view view fun _ => hv _ _

theorem hostile_view {β : Type} (view : Link → β) (hv : ∀ l a d, view { l with discardAt := a, dropped := d } = view l)
    (hc : ∀ l c, view { l with discards := c } = view l) (ho : ∀ l c, view { l with owedCredit := c } = view l) :
    view ((hostile s n f).link n) = view ((flushDiscards s n).link n) := by
  unfold hostile
  generalize flushDiscards s n = b
  dsimp only
  rw [State.modLink_link]
  exact (hv _ _ _).trans ((discard_view view hc).trans (freeUnits_view view ho))

/-- A frame that arrives changes of its port no more than it says. -/
theorem takeFrame_beforeFrame : ((takeFrame s n f).link n).beforeFrame = (s.link n).beforeFrame := by
  have hseen : ((frameSeen s n).link n).beforeFrame = (s.link n).beforeFrame := frameSeen_view _ fun _ _ => rfl
  rw [takeFrame_eq, ← hseen]
  split
  · exact (hostile_view _ (fun _ _ _ => rfl) (fun _ _ => rfl) fun _ _ => rfl).trans (flushDiscards_view _ fun _ _ _ => rfl)
  split
  · split
    · exact freeUnits_view _ fun _ _ => rfl
    · rfl
  · split
    · exact modLink_link_view _ fun _ => rfl
    · exact (discard_view _ fun _ _ => rfl).trans (freeUnits_view _ fun _ _ => rfl)

theorem takeFrame_local (hok : frameOk s n f = true) (hloc : (routeOf s f.dst).loc = true ∨ pullFrame s n f = true) :
    (f.typ ≠ 0x20 → f.typ ≠ 0x22 → (takeFrame s n f).inbox = s.inbox ++ [(n, f)] ∧ ((takeFrame s n f).link n).owedCredit = (s.link n).owedCredit) ∧
    ((f.typ = 0x20 ∨ f.typ = 0x22) → (takeFrame s n f).inbox = s.inbox ∧
      ((takeFrame s n f).link n).owedCredit.get (classIx f.typ) = (s.link n).owedCredit.get (classIx f.typ) + frameUnits f) := by
  have hseen : ((frameSeen s n).link n).owedCredit = (s.link n).owedCredit := frameSeen_view _ fun _ _ => rfl
  rw [takeFrame_eq, if_neg (by simp [hok]), if_pos (by simpa using hloc)]
  refine ⟨fun h1 h2 => ?_, fun h => ?_⟩
  · rw [if_neg (by simp [h1, h2])]
    exact ⟨rfl, hseen⟩
  · rw [if_pos (by simpa using h)]
    exact ⟨rfl, freeUnits_owed.trans (by rw [hseen])⟩

theorem takeFrame_relayed (hok : frameOk s n f = true) (hloc : (routeOf s f.dst).loc = false) (hpull : pullFrame s n f = false)
    (hup : (s.link (routePort (routeOf s f.dst))).state = .up) : (takeFrame s n f).inbox = s.inbox ∧
    ((takeFrame s n f).link (routePort (routeOf s f.dst))).relay = relayInsert (s.now, n, f) (s.link (routePort (routeOf s f.dst))).relay := by
  have hstate : ((frameSeen s n).link (routePort (routeOf s f.dst))).state = (s.link (routePort (routeOf s f.dst))).state := frameSeen_view _ fun _ _ => rfl
  have hrelay : ((frameSeen s n).link (routePort (routeOf s f.dst))).relay = (s.link (routePort (routeOf s f.dst))).relay := frameSeen_view _ fun _ _ => rfl
  rw [takeFrame_eq, if_neg (by simp [hok]), if_neg (by simp [hloc, hpull]), if_pos (hstate.trans hup)]
  refine ⟨rfl, ?_⟩
  rw [State.modLink_link]
  exact congrArg _ hrelay

theorem takeFrame_discarded (hok : frameOk s n f = true) (hloc : (routeOf s f.dst).loc = false) (hpull : pullFrame s n f = false)
    (hup : (s.link (routePort (routeOf s f.dst))).state ≠ .up) : (takeFrame s n f).inbox = s.inbox ∧
    ((takeFrame s n f).link (routePort (routeOf s f.dst))).discards = satAdd 8 (s.link (routePort (routeOf s f.dst))).discards 1 ∧
    ((takeFrame s n f).link n).owedCredit.get (classIx f.typ) = (s.link n).owedCredit.get (classIx f.typ) + frameUnits f := by
  have hseen : ((frameSeen s n).link n).owedCredit = (s.link n).owedCredit := frameSeen_view _ fun _ _ => rfl
  have hstate : ∀ o, ((frameSeen s n).link o).state = (s.link o).state := fun o => frameSeen_view Link.state fun _ _ => rfl
  have hdisc : ∀ o, ((frameSeen s n).link o).discards = (s.link o).discards := fun o => frameSeen_view Link.discards fun _ _ => rfl
  rw [takeFrame_eq, if_neg (by simp [hok]), if_neg (by simp [hloc, hpull]), if_neg ((hstate _).trans_ne hup)]
  generalize routePort (routeOf s f.dst) = o
  refine ⟨rfl, ?_, ?_⟩
  · rw [discard_counts, freeUnits_view Link.discards fun _ _ => rfl, hdisc]
  · rw [discard_view Link.owedCredit fun _ _ => rfl, freeUnits_owed, hseen]

theorem flushDiscards_open (h : (s.link n).discardAt = none) : flushDiscards s n = s := by
  unfold flushDiscards
  split
  next t ht => rw [h] at ht; cases ht
  next => rfl

theorem takeFrame_hostile (hok : frameOk s n f = false) : (takeFrame s n f).inbox = s.inbox ∧
    ((takeFrame s n f).link n).discards = satAdd 8 (s.link n).discards 1 ∧
    ((takeFrame s n f).link n).owedCredit.get (classIx f.typ) = (s.link n).owedCredit.get (classIx f.typ) + frameUnits f ∧
    ((s.link n).discardAt = none → ((takeFrame s n f).link n).discardAt = some s.now ∧
      ((takeFrame s n f).link n).dropped = (s.link n).dropped + 1 ∧ (takeFrame s n f).events = s.events) := by
  rw [takeFrame_eq, if_pos (by simp [hok])]
  have howed : ((frameSeen s n).link n).owedCredit = (s.link n).owedCredit := frameSeen_view Link.owedCredit fun _ _ => rfl
  have hdisc : ((frameSeen s n).link n).discards = (s.link n).discards := frameSeen_view Link.discards fun _ _ => rfl
  have hat : ((frameSeen s n).link n).discardAt = (s.link n).discardAt := frameSeen_view Link.discardAt fun _ _ => rfl
  have hdrop : ((frameSeen s n).link n).dropped = (s.link n).dropped := frameSeen_view Link.dropped fun _ _ => rfl
  have hinbox : (frameSeen s n).inbox = s.inbox := rfl
  have hnow : (frameSeen s n).now = s.now := rfl
  have hevents : (frameSeen s n).events = s.events := rfl
  generalize frameSeen s n = a at howed hdisc hat hdrop hinbox hnow hevents ⊢
  refine ⟨?_, ?_, ?_, fun hopen => ?_⟩
  · exact (congrArg Prod.fst (flushDiscards_units (s := a) (n := n))).trans hinbox
  · unfold hostile
    dsimp only
    rw [State.modLink_link, ← hdisc]
    refine discard_counts.trans (congrArg (satAdd 8 · 1) ?_)
    exact (freeUnits_view Link.discards fun _ _ => rfl).trans (flushDiscards_view Link.discards fun _ _ _ => rfl)
  · unfold hostile
    dsimp only
    rw [State.modLink_link, ← howed]
    refine (congrArg (·.get (classIx f.typ)) (discard_view Link.owedCredit fun _ _ => rfl)).trans (freeUnits_owed.trans ?_)
    exact congrArg (·.get (classIx f.typ) + frameUnits f) (flushDiscards_view Link.owedCredit fun _ _ _ => rfl)
  · have hviewAt : ((discard (freeUnits a n f) n).link n).discardAt = none :=
      ((discard_view Link.discardAt fun _ _ => rfl).trans (freeUnits_view Link.discardAt fun _ _ => rfl)).trans (hat.trans hopen)
    have hviewDropped : ((discard (freeUnits a n f) n).link n).dropped = (s.link n).dropped :=
      ((discard_view Link.dropped fun _ _ => rfl).trans (freeUnits_view Link.dropped fun _ _ => rfl)).trans hdrop
    unfold hostile
    rw [flushDiscards_open (hat.trans hopen)]
    dsimp only
    rw [State.modLink_link, hviewAt, hviewDropped, ← hnow]
    exact ⟨rfl, rfl, hevents⟩

/-! ### An envelope in order -/

theorem frameOk_around (h : u.around = v.around) : frameOk u n f = frameOk v n f ∧ routeOf u f.dst = routeOf v f.dst ∧ pullFrame u n f = pullFrame v n f := by
  unfold State.around at h
  simp only [Prod.mk.injEq] at h
  obtain ⟨-, -, -, hplan, hfw, hfuses, -⟩ := h
  have hroute : ∀ x, routeOf u x = routeOf v x := fun x => by rw [routeOf, routeOf, hplan]
  have hplace : u.place = v.place := by rw [State.place, State.place, hfuses]
  have hpull : pullFrame u n f = pullFrame v n f := by rw [pullFrame, pullFrame, hfw, hplace]
  refine ⟨?_, hroute _, hpull⟩
  rw [frameOk, frameOk, hpull, hplan, hroute, hroute]

end

end Sys2Proof.Machine

namespace Sys2Proof.Machine

section
variable {s t u v w : State} {n m : PortId} {f : Frame} {e : Envelope}

/-! ### What an envelope in order leaves -/

/-- The frame of an envelope changes of its port and of the units no more than `takeFrame` does. -/
theorem framed_received : ((framed s n e).link n).beforeFrame = ((received s n e).link n).beforeFrame ∧
    ((framed s n e).mem, (framed s n e).now) = ((received s n e).mem, (received s n e).now) := by
  unfold framed
  generalize received s n e = r
  cases e.frame with
  | none => exact ⟨rfl, rfl⟩
  | some f => exact ⟨takeFrame_beforeFrame, takeFrame_units⟩

/-- The port and the units once an envelope in order and its frame have been taken. -/
theorem framed_leaves : ∃ un rs nt, ((framed s n e).link n).beforeFrame = ((s.link n).took e un rs nt).beforeFrame ∧ (e.nak = true → rs = un.length) ∧
    (64 < nt.length ↔ 64 < nakCount s n e) ∧ (framed s n e).mem = s.mem ∧ (framed s n e).now = s.now := by
  obtain ⟨un, rs, nt, hlink, hnak, hcount, -, haround⟩ := received_leaves (s := s) (n := n) (e := e)
  obtain ⟨hport, hunits⟩ := framed_received (s := s) (n := n) (e := e)
  rw [Prod.mk.injEq] at hunits
  obtain ⟨hmem, hnow⟩ := hunits
  exact ⟨un, rs, nt, by rw [hport, hlink], hnak, hcount, hmem.trans (congrArg (fun x => x.2.1) haround), hnow.trans (congrArg (fun x => x.2.2.1) haround)⟩

/-- The fields of a port that an envelope in order changes. -/
theorem framed_port : ((framed s n e).link n).rxNext = ((s.link n).rxNext + 1) % 65536 ∧ ((framed s n e).link n).nakSent = false ∧
    ((framed s n e).link n).credits =
      Vector.zipWith min bufferUnits (Vector.zipWith (· + ·) (s.link n).credits #v[e.credit.1, e.credit.2.1, e.credit.2.2]) ∧
    ((framed s n e).link n).retrains = (s.link n).retrains ∧ (64 < ((framed s n e).link n).nakTimes.length ↔ 64 < nakCount s n e) ∧
    (e.nak = true → ((framed s n e).link n).resend = ((framed s n e).link n).unacked.length) ∧
    (framed s n e).mem = s.mem ∧ (framed s n e).now = s.now := by
  obtain ⟨un, rs, nt, hlink, hnak, hcount, hmem, hnow⟩ := framed_leaves (s := s) (n := n) (e := e)
  generalize framed s n e = a at hlink hmem hnow ⊢
  have hnt : (a.link n).nakTimes = nt := (congrArg Link.nakTimes hlink :)
  have hrs : (a.link n).resend = rs := (congrArg Link.resend hlink :)
  have hun : (a.link n).unacked = un := (congrArg Link.unacked hlink :)
  rw [hnt, hrs, hun]
  exact ⟨(congrArg Link.rxNext hlink :), (congrArg Link.nakSent hlink :), (congrArg Link.credits hlink :), (congrArg Link.retrains hlink :), hcount, hnak, hmem, hnow⟩

section
variable (hup : (s.link n).state = .up) (hcrc : e.crc = envelopeCrc e) (hseq : e.lseq = (s.link n).rxNext)
include hup hcrc hseq

/-- The sixty-fifth NAK in 1 ms. -/
theorem execEnvelopeReceive_retrains (hmany : 64 < nakCount s n e) : ∃ u, execEnvelopeReceive n e s = .next u ∧
    (u.link n).state = (if 3 ≤ ((s.link n).retrains.filter (fun r => s.now < r + 60000000000)).length then .failed else .retraining) ∧ u.mem = s.mem := by
  have hrun := execEnvelopeReceive_ordered hup hcrc hseq
  obtain ⟨-, -, -, hretrains, hcount, -, hmem, hnow⟩ := framed_port (s := s) (n := n) (e := e)
  rw [if_pos (hcount.mpr hmany)] at hrun
  generalize framed s n e = a at hrun hretrains hmem hnow
  refine ⟨_, hrun, ?_, retrain_mem.trans hmem⟩
  rw [retrain_state, hretrains, hnow]

theorem execEnvelopeReceive_takes (hfew : nakCount s n e ≤ 64) : execEnvelopeReceive n e s = .next (framed s n e) := by
  obtain ⟨-, -, -, -, hcount, -⟩ := framed_port (s := s) (n := n) (e := e)
  rw [execEnvelopeReceive_ordered hup hcrc hseq, if_neg fun h => absurd (hcount.mp h) (Nat.not_lt.mpr hfew)]

end

/-! ### The frame of an envelope in order -/

/-- The ports and the units on which a frame is taken are those before its envelope. -/
theorem received_views : (received s n e).inbox = s.inbox ∧ (received s n e).now = s.now ∧ (received s n e).events = s.events ∧
    (∀ o, ((received s n e).link o).relay = (s.link o).relay ∧ ((received s n e).link o).discards = (s.link o).discards ∧
      ((received s n e).link o).state = (s.link o).state ∧ ((received s n e).link o).owedCredit = (s.link o).owedCredit ∧
      ((received s n e).link o).discardAt = (s.link o).discardAt ∧ ((received s n e).link o).dropped = (s.link o).dropped) := by
  obtain ⟨un, rs, nt, hlink, -, -, hothers, haround⟩ := received_leaves (s := s) (n := n) (e := e)
  generalize received s n e = r at hlink hothers haround ⊢
  refine ⟨congrArg Prod.fst haround, congrArg (fun x => x.2.2.1) haround, congrArg (fun x => x.2.2.2.2.2.2) haround, fun o => ?_⟩
  by_cases h : o = n
  · rw [h, hlink]
    exact ⟨rfl, rfl, rfl, rfl, rfl, rfl⟩
  · rw [hothers o h]
    exact ⟨rfl, rfl, rfl, rfl, rfl, rfl⟩

theorem received_routes : frameOk (received s n e) n f = frameOk s n f ∧ routeOf (received s n e) f.dst = routeOf s f.dst ∧
    pullFrame (received s n e) n f = pullFrame s n f := by
  obtain ⟨_, _, _, -, -, -, -, haround⟩ := received_leaves (s := s) (n := n) (e := e)
  exact frameOk_around haround

theorem framed_none (hf : e.frame = none) : (framed s n e).inbox = s.inbox := by
  unfold framed
  rw [hf]
  exact received_views.1

theorem framed_some (hf : e.frame = some f) : framed s n e = takeFrame (received s n e) n f := by
  unfold framed
  rw [hf]

theorem framed_local (hf : e.frame = some f) (hok : frameOk s n f = true) (hloc : (routeOf s f.dst).loc = true ∨ pullFrame s n f = true) :
    (f.typ ≠ 0x20 → f.typ ≠ 0x22 → (framed s n e).inbox = s.inbox ++ [(n, f)] ∧ ((framed s n e).link n).owedCredit = (s.link n).owedCredit) ∧
    ((f.typ = 0x20 ∨ f.typ = 0x22) → (framed s n e).inbox = s.inbox ∧
      ((framed s n e).link n).owedCredit.get (classIx f.typ) = (s.link n).owedCredit.get (classIx f.typ) + frameUnits f) := by
  obtain ⟨rok, rroute, rpull⟩ := received_routes (s := s) (n := n) (e := e) (f := f)
  obtain ⟨hinbox, -, -, hlinks⟩ := received_views (s := s) (n := n) (e := e)
  obtain ⟨-, -, -, howed, -⟩ := hlinks n
  rw [framed_some hf, ← howed, ← hinbox]
  exact takeFrame_local (rok.trans hok) (by rwa [rroute, rpull])

theorem framed_relayed (hf : e.frame = some f) (hok : frameOk s n f = true) (hloc : (routeOf s f.dst).loc = false) (hpull : pullFrame s n f = false)
    (hto : (s.link (routePort (routeOf s f.dst))).state = .up) : (framed s n e).inbox = s.inbox ∧
    ((framed s n e).link (routePort (routeOf s f.dst))).relay = relayInsert (s.now, n, f) (s.link (routePort (routeOf s f.dst))).relay := by
  obtain ⟨rok, rroute, rpull⟩ := received_routes (s := s) (n := n) (e := e) (f := f)
  obtain ⟨hinbox, hnow, -, hlinks⟩ := received_views (s := s) (n := n) (e := e)
  obtain ⟨hrelay, -, hstate, -⟩ := hlinks (routePort (routeOf s f.dst))
  have h := takeFrame_relayed (rok.trans hok) (by rwa [rroute]) (rpull.trans hpull) (by rwa [rroute, hstate])
  rw [rroute, hinbox, hnow, hrelay] at h
  rw [framed_some hf]
  exact h

theorem framed_discarded (hf : e.frame = some f) (hok : frameOk s n f = true) (hloc : (routeOf s f.dst).loc = false) (hpull : pullFrame s n f = false)
    (hto : (s.link (routePort (routeOf s f.dst))).state ≠ .up) :
    ((framed s n e).link (routePort (routeOf s f.dst))).discards = satAdd 8 (s.link (routePort (routeOf s f.dst))).discards 1 ∧
    ((framed s n e).link n).owedCredit.get (classIx f.typ) = (s.link n).owedCredit.get (classIx f.typ) + frameUnits f ∧ (framed s n e).inbox = s.inbox := by
  obtain ⟨rok, rroute, rpull⟩ := received_routes (s := s) (n := n) (e := e) (f := f)
  obtain ⟨hinbox, -, -, hlinks⟩ := received_views (s := s) (n := n) (e := e)
  obtain ⟨-, hdisc, hstate, -⟩ := hlinks (routePort (routeOf s f.dst))
  obtain ⟨-, -, -, howed, -⟩ := hlinks n
  have h := takeFrame_discarded (rok.trans hok) (by rwa [rroute]) (rpull.trans hpull) (by rwa [rroute, hstate])
  rw [rroute, hinbox, hdisc, howed] at h
  rw [framed_some hf]
  exact ⟨h.2.1, h.2.2, h.1⟩

theorem framed_hostile (hf : e.frame = some f) (hok : frameOk s n f = false) :
    ((framed s n e).link n).discards = satAdd 8 (s.link n).discards 1 ∧
    ((framed s n e).link n).owedCredit.get (classIx f.typ) = (s.link n).owedCredit.get (classIx f.typ) + frameUnits f ∧
    ((s.link n).discardAt = none → ((framed s n e).link n).discardAt = some s.now ∧ ((framed s n e).link n).dropped = (s.link n).dropped + 1 ∧
      (framed s n e).events = s.events) ∧ (framed s n e).inbox = s.inbox := by
  obtain ⟨hinbox, hnow, hevents, hlinks⟩ := received_views (s := s) (n := n) (e := e)
  obtain ⟨-, hdisc, -, howed, hat, hdrop⟩ := hlinks n
  obtain ⟨tin, tdisc, towed, topen⟩ := takeFrame_hostile (received_routes.1.trans hok)
  rw [framed_some hf, ← hdisc, ← howed, ← hat, ← hdrop, ← hnow, ← hevents, ← hinbox]
  exact ⟨tdisc, towed, topen, tin⟩

/-! ### A turn's envelope -/

/-- The envelope of an UP port's turn, with the frame ready and the envelopes that go again named. -/
theorem execCalendarTurn_sends (hup : (s.link n).state = .up) {k : Link} {fr : Option Frame} {again : Nat} (hw : w = copiesQueued s n)
    (hk : k = w.link n) (hready : readyFrame w k = fr) (hagain : goAgain k fr = again) :
    ∃ u v, execCalendarTurn n s = .next u ∧ u.out = w.out ++ [.envelope n v] ∧ v.nak = k.nakDue ∧ v.lack = (k.rxNext + 65535) % 65536 ∧
      v.crc = envelopeCrc v ∧ (u.link n).turn = (k.turn + 1) % 64 ∧ (u.link n).nakDue = false ∧ u.mem = w.mem ∧ u.parts = w.parts ∧
      (∀ e, k.unacked[k.unacked.length - again]? = some e → (u.link n).txSeq = k.txSeq ∧ (u.link n).unacked = k.unacked ∧ (u.link n).credits = k.credits ∧
        (mayResend s k e = true → v.lseq = e.lseq ∧ v.frame = e.frame ∧ (u.link n).resend = again - 1) ∧
        (mayResend s k e = false → v.lseq = (e.lseq + 65535) % 65536 ∧ v.frame = none ∧ (u.link n).resend = again)) ∧
      (k.unacked[k.unacked.length - again]? = none → v.lseq = k.txSeq ∧ v.frame = fr ∧ (u.link n).txSeq = (k.txSeq + 1) % 65536 ∧
        (u.link n).unacked.length = k.unacked.length + 1 ∧
        (∀ f, fr = some f → (u.link n).credits.get (classIx f.typ) = k.credits.get (classIx f.typ) - frameUnits f)) := by
  have hrun := execCalendarTurn_turns hup
  have hpower : w.power = s.power := by rw [hw]; exact copiesQueued_power
  rw [← hw] at hrun
  have hsends : (noteWaiting (flushDiscards w n) n).sends n = w.sends n := noteWaiting_sends.trans flushDiscards_sends
  generalize noteWaiting (flushDiscards w n) n = t at hrun hsends
  have hreadyT : readyFrame t (t.link n) = fr := by rw [readyFrame_sends hsends, ← hk, hready]
  simp only [State.sends, Prod.mk.injEq] at hsends
  obtain ⟨hlink, hout, hmem, hparts, tpower⟩ := hsends
  rw [← hk] at hlink
  have hnak : (t.link n).nakDue = k.nakDue := (congrArg Link.nakDue hlink :)
  have hrx : (t.link n).rxNext = k.rxNext := (congrArg Link.rxNext hlink :)
  have hturn : (t.link n).turn = k.turn := (congrArg Link.turn hlink :)
  have htx : (t.link n).txSeq = k.txSeq := (congrArg Link.txSeq hlink :)
  have hun : (t.link n).unacked = k.unacked := (congrArg Link.unacked hlink :)
  have hcred : (t.link n).credits = k.credits := (congrArg Link.credits hlink :)
  have hagainT : goAgain (t.link n) (readyFrame t (t.link n)) = again := by
    rw [hreadyT, ← hagain]
    exact (congrArg (fun l => goAgain l fr) hlink :)
  have hmay : ∀ e, mayResend t (t.link n) e = mayResend s k e := fun e => by
    have hsend : mayResend t (t.link n) e = mayResend t k e := (congrArg (fun l => mayResend t l e) hlink :)
    rw [hsend, mayResend, mayResend, tpower, hpower]
  have hmod : ∀ {β : Type} (view : Link → β), (∀ l k, view { l with turn := k } = view l) →
      view (((turnEnvelope t n).modLink n (fun l => { l with turn := (l.turn + 1) % 64 })).link n) = view ((turnEnvelope t n).link n) := fun view hv =>
    modLink_link_view view fun _ => hv _ _
  have hturned : (((turnEnvelope t n).modLink n (fun l => { l with turn := (l.turn + 1) % 64 })).link n).turn = (((turnEnvelope t n).link n).turn + 1) % 64 := by
    rw [State.modLink_link]
  cases hx : k.unacked[k.unacked.length - again]? with
  | some e =>
    obtain ⟨v, hsent, vtx, vun, vcred, vmay, vnot⟩ := turnEnvelope_resends hagainT (by rw [hun]; exact hx)
    rw [hmay] at vmay vnot
    refine ⟨_, v, hrun, hsent.out.trans (by rw [hout]), hsent.nak.trans hnak, hsent.lack.trans (by rw [hrx]), hsent.crc, ?_, ?_, hsent.mem.trans hmem,
      hsent.parts.trans hparts, fun e' he' => ?_, fun h => absurd h (by simp)⟩
    · rw [hturned, hsent.turn, hturn]
    · rw [hmod Link.nakDue fun _ _ => rfl, hsent.nakDue]
    · obtain rfl : e = e' := Option.some.inj he'
      rw [hmod Link.txSeq fun _ _ => rfl, hmod Link.unacked fun _ _ => rfl, hmod Link.credits fun _ _ => rfl, hmod Link.resend fun _ _ => rfl]
      exact ⟨vtx.trans htx, vun.trans hun, vcred.trans hcred, vmay, vnot⟩
  | none =>
    have hnew : turnEnvelope t n = sendNew t n fr := by
      rw [turnEnvelope_eq, hagainT, hun, hx, hreadyT]
    obtain ⟨v, hsent, vseq, vfr, vtx, vun, vcred⟩ := sendNew_sends (s := t) (n := n) fr
    rw [← hnew] at hsent vtx vun vcred
    refine ⟨_, v, hrun, hsent.out.trans (by rw [hout]), hsent.nak.trans hnak, hsent.lack.trans (by rw [hrx]), hsent.crc, ?_, ?_, hsent.mem.trans hmem,
      hsent.parts.trans hparts, fun e' he' => absurd he' (by simp), fun _ => ?_⟩
    · rw [hturned, hsent.turn, hturn]
    · rw [hmod Link.nakDue fun _ _ => rfl, hsent.nakDue]
    · rw [hmod Link.txSeq fun _ _ => rfl, hmod Link.unacked fun _ _ => rfl, hmod Link.credits fun _ _ => rfl, ← htx, ← hun, ← hcred]
      exact ⟨vseq, vfr, vtx, vun, vcred⟩

theorem mayResend_iff {l : Link} {e : SentEnv} : mayResend s l e = true ↔ e.frame = none ∨ e.owner = turnOwner l ∧ s.power.prsntLost = false := by
  simp [mayResend]

end

/-- Settles O54: each row of training by a lemma of its own, a turn by `execCalendarTurn_sends`, an envelope in order by the `framed_` lemmas.
The timeouts are log entry 87, NAK and resending log entry 85, credit returned and the second of the discard event log entry 86, retrains
and fresh ports log entry 88, identities log entries 83 and 84, held turns log entry 95, the pause of the start log entry 98, the place of
a copied frame log entry 19; a row's time is log entry 10, a row without an occasion log entry 26. -/
theorem portRowsAct : Obligations.PortRowsAct := by
  unfold Obligations.PortRowsAct
  rintro s n l rfl
  refine ⟨fun hm ht => ⟨execSignalDetect_detects hm ht, fun c h => execFecLock_identifies hm ht c h, execTrainingRetry_retries hm ht,
      execTrainingTimeout_retrains hm ht, fun i h2 hload => execPartnerIdentity_acts hm ht h2 hload⟩,
    execTraining_idle, execFecLock_idle, execTrainingTimeout_idle, fun h i => execPartnerIdentity_idle h, execSlowPartner_idle,
    execSlowPartnerRetrain_idle, fun h => ⟨if_neg h, if_pos h, fun e => execEnvelopeReceive_idle h⟩, fun hup =>
    ⟨fun w hw hs => execSlowPartner_marks hup hw hs, fun w hw hs => execSlowPartnerRetrain_retrains hup hw hs, execFaultyPartner_retrains hup, ?turn, ?receive⟩⟩
  case turn =>
    intro w k fr again hw hk hready honly hagain
    have hpower : w.power = s.power := by rw [hw]; exact copiesQueued_power
    have hfr : readyFrame w k = fr := readyFrame_of (by rwa [hpower]) honly
    have hgo : goAgain k fr = again := by
      rw [hagain, goAgain]
      simp only [Bool.and_eq_true, decide_eq_true_eq]
    obtain ⟨u, v, hrun, hout, hnak, hlack, hcrc, hturn, hdue, hmem, hparts, hold, hnew⟩ := execCalendarTurn_sends hup hw hk hfr hgo
    refine ⟨u, v, hrun, hout, hnak, hlack, hcrc, hturn, hdue, hmem, hparts, fun e he => ?_, hnew⟩
    obtain ⟨htx, hun, hcred, hmay, hnot⟩ := hold e he
    exact ⟨htx, hun, hcred, fun h => hmay (mayResend_iff.mpr h), fun h => hnot (Bool.eq_false_iff.mpr fun hm => h (mayResend_iff.mp hm))⟩
  case receive =>
    rintro e naks rfl
    obtain ⟨hrx, hsent, hcred, -, -, hresend, hmem, -⟩ := framed_port (s := s) (n := n) (e := e)
    refine ⟨execEnvelopeReceive_asks hup, execEnvelopeReceive_waits hup, execEnvelopeReceive_retrains hup, fun hcrc hseq hfew => ?_⟩
    have hrun := execEnvelopeReceive_takes hup hcrc hseq hfew
    refine ⟨fun hf => ⟨_, hrun, hrx, hsent, hcred, hresend, framed_none hf, hmem⟩, fun f hf hok hloc => ?_, fun f hf hok hloc hpull hto => ?_,
      fun f hf hok hloc hpull hto => ?_, fun f hf hok => ?_⟩
    · exact ⟨_, hrun, hrx, hmem, framed_local hf hok hloc⟩
    · obtain ⟨hinbox, hrelay⟩ := framed_relayed hf hok hloc hpull hto
      exact ⟨_, hrun, hrx, hrelay, hinbox, hmem⟩
    · obtain ⟨hdisc, howed, hinbox⟩ := framed_discarded hf hok hloc hpull hto
      exact ⟨_, hrun, hrx, hdisc, howed, hinbox, hmem⟩
    · obtain ⟨hdisc, howed, hopen, hinbox⟩ := framed_hostile hf hok
      exact ⟨_, hrun, hrx, hdisc, howed, hopen, hinbox, hmem⟩

end Sys2Proof.Machine

namespace Sys2Proof.Machine

/-! ## Store commands and intake (O40) -/

section
variable {s t u v : State} {p : PartId} {q i n k addr block : Nat} {rs : List StoreReq} {bs pt key iv aad ct tag : Bytes} {d : Due} {b : Fin 288}

/-! ### The bytes that a seal opens to -/

theorem gcmStream_length_le : (gcmStream key iv bs).length ≤ bs.length := by
  have hpiece : ∀ i, (xorBytes (slice bs (16 * i) 16) (aesBlock key (iv ++ beBytes 4 (i + 2)))).length ≤ min 16 (bs.length - 16 * i) := fun i => by
    unfold xorBytes slice
    rw [List.length_map, List.length_zip, List.length_take, List.length_drop]
    exact Nat.min_le_left _ _
  have hprefix : ∀ m, ((List.range m).flatMap (fun i => xorBytes (slice bs (16 * i) 16) (aesBlock key (iv ++ beBytes 4 (i + 2))))).length ≤
      min (16 * m) bs.length := fun m => by
    induction m with
    | zero => simp
    | succ m ih =>
      rw [List.range_succ, List.flatMap_append, List.length_append, List.flatMap_singleton]
      have := hpiece m
      omega
  exact (hprefix _).trans (Nat.min_le_right _ _)

theorem gcmOpen_length_le (h : gcmOpen key iv aad ct tag = some pt) : pt.length ≤ ct.length := by
  unfold gcmOpen at h
  split at h
  · obtain rfl := Option.some.inj h
    exact gcmStream_length_le
  · cases h

theorem openBlockWith_length_le (h : openBlockWith key block bs = some pt) : pt.length ≤ 65536 := by
  unfold openBlockWith at h
  dsimp only at h
  split at h
  · exact (gcmOpen_length_le h).trans (List.length_take_le ..)
  · cases h

theorem openBlock_length_le {x : Part} (h : openBlock x block bs = some pt) : pt.length ≤ 65536 := by
  unfold openBlock at h
  split at h
  next plain hp =>
    obtain rfl := Option.some.inj h
    obtain ⟨g, -, hg⟩ := Option.bind_eq_some_iff.mp hp
    exact openBlockWith_length_le hg
  next =>
    obtain ⟨g, -, hg⟩ := Option.bind_eq_some_iff.mp h
    exact openBlockWith_length_le hg

/-! ### Blocks that land (12 R339, R340) -/

/-- Block `i` of a read as it opened, where it arrived. -/
def arrived (x : Part) (block : Nat) (rs : List StoreReq) (i : Nat) : Option Bytes :=
  match rs[i / 15]? with
  | some r => if r.failed then none else openBlock x (block + i) (slice r.got (i % 15 * 65600) 65600)
  | none => none

theorem arrived_eq_some {x : Part} : arrived x block rs i = some pt ↔
    ∃ r, rs[i / 15]? = some r ∧ r.failed = false ∧ openBlock x (block + i) (slice r.got (i % 15 * 65600) 65600) = some pt := by
  unfold arrived
  cases h : rs[i / 15]? with
  | none => simp
  | some r => cases hf : r.failed <;> simp [hf]

theorem arrived_length_le {x : Part} (h : arrived x block rs i = some pt) : pt.length ≤ 65536 := by
  obtain ⟨r, -, -, hopen⟩ := arrived_eq_some.mp h
  exact openBlock_length_le hopen

/-- The words from `w` on, `n` of them, poisoned. -/
def markWords (s : State) (w n : Nat) : State := (List.range n).foldl (fun s j => bankMark s (w + j)) s

/-- The words of a block poisoned. It stays closed, so that no proof unfolds the 1,024 marks. -/
@[irreducible] def poisonBlock (s : State) (goal : Nat) : State := markWords s (goal / 64) 1024

/-- One block lands, or its place is poisoned. -/
def landBlock (p : PartId) (addr block : Nat) (rs : List StoreReq) (a : State × Nat) (i : Nat) : State × Nat :=
  match rs[i / blocksPerRequest]? with
  | some r =>
    if r.failed then (poisonBlock a.1 (addr + i * blockBytes), 5)
    else match openBlock (a.1.part p) (block + i) (slice r.got (i % blocksPerRequest * sealedBytes) sealedBytes) with
      | some pt => (bankWrite a.1 (addr + i * blockBytes) pt, a.2)
      | none => (poisonBlock a.1 (addr + i * blockBytes), if a.2 = 5 then 5 else 6)
  | none => (poisonBlock a.1 (addr + i * blockBytes), 5)

theorem landBlock_opens {a : State × Nat} (h : arrived (a.1.part p) block rs i = some pt) :
    landBlock p addr block rs a i = (bankWrite a.1 (addr + i * 65536) pt, a.2) := by
  obtain ⟨r, hr, hf, hopen⟩ := arrived_eq_some.mp h
  unfold landBlock
  rw [show blocksPerRequest = 15 from rfl, hr]
  dsimp only
  rw [if_neg (by simp [hf]), show sealedBytes = 65600 from rfl, hopen] <;> rfl

theorem landBlock_poisons {a : State × Nat} (h : arrived (a.1.part p) block rs i = none) :
    ∃ e, landBlock p addr block rs a i = (poisonBlock a.1 (addr + i * 65536), e) ∧ (e = 5 ∨ e = 6) := by
  unfold landBlock
  unfold arrived at h
  rw [show blocksPerRequest = 15 from rfl, show sealedBytes = 65600 from rfl, show blockBytes = 65536 from rfl]
  cases hr : rs[i / 15]? with
  | none => exact ⟨5, rfl, .inl rfl⟩
  | some r =>
    rw [hr] at h
    dsimp only at h ⊢
    cases hf : r.failed with
    | true => exact ⟨5, rfl, .inl rfl⟩
    | false =>
      rw [hf, if_neg Bool.false_ne_true] at h
      rw [if_neg Bool.false_ne_true, h]
      refine ⟨if a.2 = 5 then 5 else 6, rfl, ?_⟩
      split
      · exact .inl rfl
      · exact .inr rfl

theorem landBlocks_eq : landBlocks s p addr block n rs = (List.range n).foldl (landBlock p addr block rs) (s, 0) := by
  unfold landBlocks landBlock poisonBlock markWords
  rfl

theorem landBlocks_zero : landBlocks s p addr block 0 rs = (s, 0) := landBlocks_eq

theorem landBlocks_succ : landBlocks s p addr block (n + 1) rs = landBlock p addr block rs (landBlocks s p addr block n rs) n := by
  rw [landBlocks_eq, landBlocks_eq, List.range_succ, List.foldl_append]
  rfl

/-- What a landed block leaves of a state: all but the memory of the banks. -/
def State.offBanks (s : State) : State := { s with mem := { s.mem with banks := [], bankPoison := [], bankFlips := [], bankSingles := [] } }

theorem markWords_offBanks {w : Nat} : (markWords s w n).offBanks = s.offBanks := foldl_view s State.offBanks (by intro _ _; rfl) _

theorem markWords_banks {w : Nat} : (markWords s w n).mem.banks = s.mem.banks := foldl_view s (fun u => u.mem.banks) (by intro _ _; rfl) _

theorem markWords_succ {w : Nat} : markWords s w (n + 1) = bankMark (markWords s w n) (w + n) := by
  unfold markWords
  rw [List.range_succ, List.foldl_append]
  rfl

theorem markWords_wf {w : Nat} (h : memWf s.mem = true) : memWf (markWords s w n).mem = true := by
  induction n with
  | zero => exact h
  | succ n ih =>
    rw [markWords_succ]
    exact bankMark_wf ih

theorem mem_markWords {w x : Nat} : x ∈ (markWords s w n).mem.bankPoison ↔ (∃ j, j < n ∧ x = w + j) ∨ x ∈ s.mem.bankPoison := by
  induction n with
  | zero => simp [markWords]
  | succ n ih =>
    rw [markWords_succ]
    show x ∈ markSet (markWords s w n).mem.bankPoison (w + n) ↔ _
    rw [mem_markSet, ih, Nat.exists_lt_succ_right, or_assoc, or_left_comm]

theorem poisonBlock_offBanks (goal : Nat) : (poisonBlock s goal).offBanks = s.offBanks := by
  unfold poisonBlock
  exact markWords_offBanks

theorem poisonBlock_banks (goal : Nat) : (poisonBlock s goal).mem.banks = s.mem.banks := by
  unfold poisonBlock
  exact markWords_banks

theorem poisonBlock_wf (goal : Nat) (h : memWf s.mem = true) : memWf (poisonBlock s goal).mem = true := by
  unfold poisonBlock
  exact markWords_wf h

theorem mem_poisonBlock {goal w : Nat} : w ∈ (poisonBlock s goal).mem.bankPoison ↔ (∃ j, j < 1024 ∧ w = goal / 64 + j) ∨ w ∈ s.mem.bankPoison := by
  unfold poisonBlock
  exact mem_markWords

theorem landBlock_cases (p : PartId) (addr block : Nat) (rs : List StoreReq) (a : State × Nat) (i : Nat) :
    (∃ pt, arrived (a.1.part p) block rs i = some pt ∧ landBlock p addr block rs a i = (bankWrite a.1 (addr + i * 65536) pt, a.2)) ∨
    (arrived (a.1.part p) block rs i = none ∧ ∃ e, landBlock p addr block rs a i = (poisonBlock a.1 (addr + i * 65536), e) ∧ (e = 5 ∨ e = 6)) := by
  cases h : arrived (a.1.part p) block rs i with
  | some pt => exact .inl ⟨pt, rfl, landBlock_opens h⟩
  | none => exact .inr ⟨rfl, landBlock_poisons h⟩

theorem landBlocks_offBanks : (landBlocks s p addr block n rs).1.offBanks = s.offBanks := by
  induction n with
  | zero => rfl
  | succ n ih =>
    rw [landBlocks_succ, ← ih]
    generalize landBlocks s p addr block n rs = a
    obtain ⟨pt, -, h⟩ | ⟨-, e, h, -⟩ := landBlock_cases p addr block rs a n
    · rw [h]
      rfl
    · rw [h]
      exact poisonBlock_offBanks _

theorem landBlocks_part : (landBlocks s p addr block n rs).1.part = s.part := by
  have h := landBlocks_offBanks (s := s) (p := p) (addr := addr) (block := block) (n := n) (rs := rs)
  generalize landBlocks s p addr block n rs = a at h ⊢
  exact (congrArg State.part h :)

theorem landBlocks_step (p : PartId) (addr block : Nat) (rs : List StoreReq) (s : State) (n : Nat) :
    (∃ pt, arrived (s.part p) block rs n = some pt ∧ landBlocks s p addr block (n + 1) rs =
      (bankWrite (landBlocks s p addr block n rs).1 (addr + n * 65536) pt, (landBlocks s p addr block n rs).2)) ∨
    (arrived (s.part p) block rs n = none ∧ ∃ e, landBlocks s p addr block (n + 1) rs =
      (poisonBlock (landBlocks s p addr block n rs).1 (addr + n * 65536), e) ∧ (e = 5 ∨ e = 6)) := by
  rw [landBlocks_succ, ← landBlocks_part (s := s) (addr := addr) (block := block) (n := n) (rs := rs)]
  exact landBlock_cases ..

theorem landBlocks_wf (h : memWf s.mem = true) : memWf (landBlocks s p addr block n rs).1.mem = true := by
  induction n with
  | zero => exact h
  | succ n ih =>
    obtain ⟨pt, -, hstep⟩ | ⟨-, e, hstep, -⟩ := landBlocks_step p addr block rs s n <;> rw [hstep]
    · exact bankWrite_wf ih
    · exact poisonBlock_wf _ ih

/-- The error of a read: none exactly when every block opened. -/
theorem landBlocks_error : ((landBlocks s p addr block n rs).2 = 0 ∨ (landBlocks s p addr block n rs).2 = 5 ∨ (landBlocks s p addr block n rs).2 = 6) ∧
    ((landBlocks s p addr block n rs).2 = 0 ↔ ∀ i, i < n → ∃ pt, arrived (s.part p) block rs i = some pt) := by
  induction n with
  | zero => exact ⟨.inl rfl, fun _ i hi => absurd hi (Nat.not_lt_zero i), fun _ => rfl⟩
  | succ n ih =>
    obtain ⟨hcodes, hiff⟩ := ih
    obtain ⟨pt, harr, hstep⟩ | ⟨harr, e, hstep, he⟩ := landBlocks_step p addr block rs s n <;> rw [hstep]
    · refine ⟨hcodes, hiff.trans ⟨fun h i hi => ?_, fun h i hi => h i (Nat.lt_succ_of_lt hi)⟩⟩
      obtain hlt | rfl := Nat.lt_succ_iff_lt_or_eq.mp hi
      · exact h i hlt
      · exact ⟨pt, harr⟩
    · refine ⟨.inr he, fun h => ?_, fun h => ?_⟩
      · obtain rfl | rfl := he <;> cases h
      · obtain ⟨pt, hpt⟩ := h n (Nat.lt_succ_self n)
        rw [harr] at hpt
        cases hpt

/-- A block that opened to its full length stands in its place. -/
theorem landBlocks_reads (hwf : memWf s.mem = true) (hi : i < n) (harr : arrived (s.part p) block rs i = some pt) (hpt : pt.length = 65536) :
    bankRead (landBlocks s p addr block n rs).1 (addr + i * 65536) 65536 = pt := by
  induction n with
  | zero => exact absurd hi (Nat.not_lt_zero i)
  | succ n ih =>
    have hwfn : memWf (landBlocks s p addr block n rs).1.mem = true := landBlocks_wf hwf
    obtain hlt | rfl := Nat.lt_succ_iff_lt_or_eq.mp hi
    · rw [← ih hlt]
      obtain ⟨pt', -, hstep⟩ | ⟨-, e, hstep, -⟩ := landBlocks_step p addr block rs s n <;> rw [hstep]
      · exact bankRead_bankWrite_apart hwfn (.inl (by omega))
      · exact congrArg (cellsRead · _ _) (poisonBlock_banks _)
    · obtain ⟨pt', harr', hstep⟩ | ⟨harr', -⟩ := landBlocks_step p addr block rs s i
      · obtain rfl : pt = pt' := Option.some.inj (harr.symm.trans harr')
        rw [hstep, ← hpt]
        exact bankRead_bankWrite _ _ _ hwfn
      · rw [harr] at harr'
        cases harr'

theorem mem_bankPoison_bankWrite {a w : Nat} (hw : w ∈ s.mem.bankPoison) (h : w < a / 64) : w ∈ (bankWrite s a bs).mem.bankPoison := by
  show w ∈ markClear s.mem.bankPoison _ _
  unfold markClear wordsOf
  rw [List.mem_filter]
  exact ⟨hw, by simp; omega⟩

/-- The words of a block that did not open, or never arrived, are poisoned. -/
theorem landBlocks_poisons {j : Nat} (haddr : addr % 64 = 0) (hi : i < n) (hj : j < 1024) (harr : arrived (s.part p) block rs i = none) :
    (addr + i * 65536) / 64 + j ∈ (landBlocks s p addr block n rs).1.mem.bankPoison := by
  induction n with
  | zero => exact absurd hi (Nat.not_lt_zero i)
  | succ n ih =>
    obtain hlt | rfl := Nat.lt_succ_iff_lt_or_eq.mp hi
    · obtain ⟨pt, -, hstep⟩ | ⟨-, e, hstep, -⟩ := landBlocks_step p addr block rs s n <;> rw [hstep]
      · exact mem_bankPoison_bankWrite (ih hlt) (by omega)
      · exact mem_poisonBlock.mpr (.inr (ih hlt))
    · obtain ⟨pt, harr', -⟩ | ⟨-, e, hstep, -⟩ := landBlocks_step p addr block rs s i
      · rw [harr] at harr'
        cases harr'
      · rw [hstep]
        exact mem_poisonBlock.mpr (.inl ⟨j, hj, rfl⟩)

end

end Sys2Proof.Machine

namespace Sys2Proof.Machine

section
variable {s t u v a : State} {p : PartId} {q i n m k addr block opcode beats err : Nat} {rs : List StoreReq} {d : Due} {b : Fin 288} {ref : BankRef}

/-! ### Store commands (12 R332, R338–R340) -/

theorem runStore_waits {op : Due → State → StoreOut} (h : engineStarts s p q 5 opcode d) (ho : op d s = .wait t) :
    runStore s p q opcode op = .next (waits t p 5 d.desc.inst) := by
  obtain ⟨hdue, htally, hhead, -⟩ := h
  unfold runStore
  rw [hdue]
  dsimp only
  rw [if_pos (by simp [htally, hhead rfl]), ho]

theorem runStore_done {op : Due → State → StoreOut} (h : engineStarts s p q 5 opcode d) (ho : op d s = .done t beats err) :
    runStore s p q opcode op = .next (issue t d beats err (handoverAt d.record 40 d.desc.inst)) := by
  obtain ⟨hdue, htally, hhead, -⟩ := h
  unfold runStore
  rw [hdue]
  dsimp only
  rw [if_pos (by simp [htally, hhead rfl]), ho]

/-- STORE_READ in a bank that serves. -/
theorem storeReadTry_serves (hb : transferServes s d { bankRefOf (recField d.record 24 4) with observer := false } (recField d.record 28 4) b) :
    storeReadTry d s =
      if (requestsOf s d.p d.desc.queue .read).isEmpty then
        if requestRoom s d.p.val < ceilDiv (recField d.record 28 4 / 65536) 15 then .wait s
        else .wait (requestBlocks s d.p d.desc.queue (recField d.record 32 8) (recField d.record 28 4 / 65536))
      else if (requestsOf s d.p d.desc.queue .read).any reqOpen then .wait s
      else
        let g := landBlocks (dropRequests s (fun r => (requestsOf s d.p d.desc.queue .read).contains r)) d.p
          (bankAddr b (bankRefOf (recField d.record 24 4)).off) (recField d.record 32 8) (recField d.record 28 4 / 65536) (requestsOf s d.p d.desc.queue .read)
        .done g.1 (moveBeats (recField d.record 28 4)) g.2 := by
  unfold storeReadTry
  dsimp only
  rw [transferBank_ok hb]
  rfl

/-- STORE_WRITE in a bank that serves. -/
theorem storeWriteTry_serves (hb : transferServes s d (bankRefOf (recField d.record 24 4)) (recField d.record 28 4) b) :
    storeWriteTry d s =
      if (requestsOf s d.p d.desc.queue .write).length < recField d.record 28 4 / 65536 then
        let m := min (recField d.record 28 4 / 65536 - (requestsOf s d.p d.desc.queue .write).length) (min (requestRoom s d.p.val) (sealsLeft (s.part d.p)))
        let a := bankAddr b (bankRefOf (recField d.record 24 4)).off + (requestsOf s d.p d.desc.queue .write).length * 65536
        .wait (writeBlocks (meetBank s a (m * 65536)) d.p d.desc.queue (recField d.record 32 8 + (requestsOf s d.p d.desc.queue .write).length) m
          (bankRead s a (m * 65536)))
      else if (requestsOf s d.p d.desc.queue .write).any reqOpen then .wait s
      else .done (dropRequests s (fun r => (requestsOf s d.p d.desc.queue .write).contains r)) (moveBeats (recField d.record 28 4))
        (if (marksRead s.mem.bankPoison (bankAddr b (bankRefOf (recField d.record 24 4)).off / 64) (recField d.record 28 4 / 64)).any (fun m => m) then 2
         else if (requestsOf s d.p d.desc.queue .write).any (fun r => r.failed) then 5 else 0) := by
  unfold storeWriteTry
  dsimp only
  rw [transferBank_ok hb]
  rfl

/-! ### Requests -/

theorem mem_offNet : OffNet State.mem := ⟨fun _ _ => rfl, fun _ _ _ => rfl⟩
theorem parts_offNet : OffNet State.parts := ⟨fun _ _ => rfl, fun _ _ _ => rfl⟩

theorem openRequest_requests (use : StoreUse) (part queue store volume offset length : Nat) (data : Bytes) :
    (openRequest s use part queue store volume offset length data).requests.length = s.requests.length + 1 := by
  have h := sendRequest_units (s := noteRequest s (newRequest s use part queue store volume offset length data))
    (r := newRequest s use part queue store volume offset length data)
  have hreq : (openRequest s use part queue store volume offset length data).requests = s.requests ++ [newRequest s use part queue store volume offset length data] :=
    congrArg Prod.fst h
  rw [hreq, List.length_append]
  rfl

theorem requestBlocks_mem : (requestBlocks s p q block n).mem = s.mem := by
  refine foldl_view s State.mem (fun u i => ?_) _
  dsimp only
  split
  · exact mem_offNet.openRequest ..
  · rfl

/-- What the sealing of one block does. -/
theorem storeBlock_counts (use : StoreUse) (data : Bytes) : (storeBlock s use p q block data).mem = s.mem ∧
    (storeBlock s use p q block data).requests.length = s.requests.length + 1 ∧
    ((storeBlock s use p q block data).part p).spillLength = (s.part p).spillLength ∧
    (inRegion (s.part p) block 1 = true → ((storeBlock s use p q block data).part p).keys.storeSeals = (s.part p).keys.storeSeals + 1) := by
  unfold storeBlock
  extract_lets x c sent counted
  have hmem : sent.mem = s.mem := mem_offNet.openRequest ..
  have hparts : sent.part p = s.part p := congrArg (fun ps : Vector Part 8 => ps.get p) (parts_offNet.openRequest ..)
  have hreq : sent.requests.length = s.requests.length + 1 := openRequest_requests ..
  have hcounted : counted.mem = s.mem ∧ counted.requests.length = s.requests.length + 1 ∧ (counted.part p).spillLength = (s.part p).spillLength ∧
      (counted.part p).keys.storeSeals = (s.part p).keys.storeSeals + 1 := by
    refine ⟨hmem, hreq, ?_, ?_⟩
    · show ((sent.modPart p _).part p).spillLength = _
      rw [State.modPart_part, ← hparts]
    · show ((sent.modPart p _).part p).keys.storeSeals = _
      rw [State.modPart_part, ← hparts]
  clear_value counted
  obtain ⟨cmem, creq, clen, cseals⟩ := hcounted
  split
  next hout =>
    refine ⟨rfl, ?_, rfl, fun hin => absurd hin (by simpa using hout)⟩
    show (s.requests ++ _).length = _
    rw [List.length_append]
    rfl
  next =>
    split
    · rw [State.event_mem, State.event_requests, event_part]
      exact ⟨cmem, creq, clen, fun _ => cseals⟩
    · exact ⟨cmem, creq, clen, fun _ => cseals⟩

theorem inRegion_of_more {x y : Part} (hlen : y.spillLength = x.spillLength) (h : inRegion x block m = true) (hi : i < m) :
    inRegion y (block + i) 1 = true := by
  unfold inRegion at h ⊢
  rw [decide_eq_true_eq] at h ⊢
  rw [hlen]
  exact (Nat.mul_le_mul_right _ (by omega)).trans h

/-- What the sealing of several blocks does. -/
theorem sealBlocks_counts (use : StoreUse) (data : Bytes) : (sealBlocks s use p q block n data).mem = s.mem ∧
    (sealBlocks s use p q block n data).requests.length = s.requests.length + n ∧
    ((sealBlocks s use p q block n data).part p).spillLength = (s.part p).spillLength ∧
    (inRegion (s.part p) block n = true → ((sealBlocks s use p q block n data).part p).keys.storeSeals = (s.part p).keys.storeSeals + n) := by
  have hprefix : ∀ m, m ≤ n → (sealBlocks s use p q block m data).mem = s.mem ∧
      (sealBlocks s use p q block m data).requests.length = s.requests.length + m ∧
      ((sealBlocks s use p q block m data).part p).spillLength = (s.part p).spillLength ∧
      (inRegion (s.part p) block n = true → ((sealBlocks s use p q block m data).part p).keys.storeSeals = (s.part p).keys.storeSeals + m) := fun m => by
    induction m with
    | zero => exact fun _ => ⟨rfl, rfl, rfl, fun _ => rfl⟩
    | succ m ih =>
      intro hm
      obtain ⟨hmem, hreq, hlen, hseals⟩ := ih (Nat.le_of_succ_le hm)
      have hsucc : sealBlocks s use p q block (m + 1) data =
          storeBlock (sealBlocks s use p q block m data) use p q (block + m) (slice data (m * blockBytes) blockBytes) := by
        unfold sealBlocks
        rw [List.range_succ, List.foldl_append]
        rfl
      rw [hsucc]
      generalize sealBlocks s use p q block m data = a at hmem hreq hlen hseals ⊢
      obtain ⟨bmem, breq, blen, bseals⟩ := storeBlock_counts (s := a) (p := p) (q := q) (block := block + m) use (slice data (m * blockBytes) blockBytes)
      refine ⟨bmem.trans hmem, by rw [breq, hreq]; rfl, blen.trans hlen, fun hin => ?_⟩
      rw [bseals (inRegion_of_more hlen hin hm), hseals hin]
      rfl
  exact hprefix n le_rfl

theorem meetBank_requests : (meetBank s addr n).requests = s.requests := by
  unfold meetBank
  refine (foldl_view _ State.requests (fun u w => ?_) _).trans rfl
  unfold foundBank
  dsimp only
  rw [State.event_requests]
  split <;> rfl

section
variable (hstart : engineStarts s p q 5 0x0512 d) (hb : transferServes s d { bankRefOf (recField d.record 24 4) with observer := false } (recField d.record 28 4) b)
include hstart hb

theorem execStoreRead_requests (hnone : requestsOf s p d.desc.queue .read = []) : execStoreRead p q s = .next (waits
    (if ceilDiv (recField d.record 28 4 / 65536) 15 ≤ requestRoom s p.val then requestBlocks s p d.desc.queue (recField d.record 32 8) (recField d.record 28 4 / 65536)
     else s) p 5 d.desc.inst) := by
  obtain rfl := engineStarts_part hstart
  refine runStore_waits hstart ((storeReadTry_serves hb).trans ?_)
  rw [hnone, if_pos List.isEmpty_nil]
  split
  next h => rw [if_neg (Nat.not_le.mpr h)]
  next h => rw [if_pos (Nat.not_lt.mp h)]

theorem execStoreRead_open (hopen : (requestsOf s p d.desc.queue .read).any reqOpen = true) : execStoreRead p q s = .next (waits s p 5 d.desc.inst) := by
  obtain rfl := engineStarts_part hstart
  refine runStore_waits hstart ((storeReadTry_serves hb).trans ?_)
  rw [if_neg, if_pos hopen]
  intro h
  rw [List.isEmpty_iff.mp h] at hopen
  cases hopen

theorem execStoreRead_lands (hrs : rs = requestsOf s p d.desc.queue .read) (hsome : rs ≠ []) (hdone : rs.any reqOpen = false) {g : State × Nat}
    (hg : g = landBlocks (dropRequests s (fun r => rs.contains r)) p (bankAddr b (bankRefOf (recField d.record 24 4)).off) (recField d.record 32 8)
      (recField d.record 28 4 / 65536) rs) :
    execStoreRead p q s = .next (issue g.1 d (4 + ceilDiv (recField d.record 28 4) 2048) g.2 (handoverAt d.record 40 d.desc.inst)) := by
  obtain rfl := engineStarts_part hstart
  refine runStore_done hstart ((storeReadTry_serves hb).trans ?_)
  rw [← hrs, if_neg (by simpa using hsome), if_neg (by simp [hdone]), hg]
  rfl

end

section
variable (hstart : engineStarts s p q 5 0x0513 d) (hb : transferServes s d (bankRefOf (recField d.record 24 4)) (recField d.record 28 4) b)
include hstart hb

theorem execStoreWrite_seals {sent : Nat} (hsent : sent = (requestsOf s p d.desc.queue .write).length) (hlt : sent < recField d.record 28 4 / 65536)
    (hm : m = min (recField d.record 28 4 / 65536 - sent) (min (requestRoom s p.val) (sealsLeft (s.part p))))
    (haddr : addr = bankAddr b (bankRefOf (recField d.record 24 4)).off + 65536 * sent)
    (ht : t = writeBlocks (meetBank s addr (65536 * m)) p d.desc.queue (recField d.record 32 8 + sent) m (bankRead s addr (65536 * m))) :
    execStoreWrite p q s = .next (waits t p 5 d.desc.inst) ∧ t.mem.banks = s.mem.banks ∧ t.mem.hbm = s.mem.hbm ∧
      t.requests.length = s.requests.length + m ∧
      (inRegion (s.part p) (recField d.record 32 8 + sent) m = true → (t.part p).keys.storeSeals = (s.part p).keys.storeSeals + m) := by
  obtain rfl := engineStarts_part hstart
  obtain ⟨cmem, creq, -, cseals⟩ := sealBlocks_counts (s := meetBank s addr (65536 * m)) (p := d.p) (q := d.desc.queue) (block := recField d.record 32 8 + sent)
    (n := m) .write (bankRead s addr (65536 * m))
  have hpart : (meetBank s addr (65536 * m)).part d.p = s.part d.p := by
    unfold State.part
    rw [meetBank_parts]
  refine ⟨runStore_waits hstart ((storeWriteTry_serves hb).trans ?_), ?_, ?_, ?_, ?_⟩
  · rw [← hsent, if_pos hlt]
    dsimp only
    rw [← hm, Nat.mul_comm sent, ← haddr, Nat.mul_comm m, ← ht]
  · rw [ht, writeBlocks, cmem, meetBank_banks]
  · rw [ht, writeBlocks, cmem, meetBank_hbm]
  · rw [ht, writeBlocks, creq, meetBank_requests]
  · rw [ht, writeBlocks, ← hpart]
    exact cseals

theorem execStoreWrite_open (hall : recField d.record 28 4 / 65536 ≤ (requestsOf s p d.desc.queue .write).length)
    (hopen : (requestsOf s p d.desc.queue .write).any reqOpen = true) : execStoreWrite p q s = .next (waits s p 5 d.desc.inst) := by
  obtain rfl := engineStarts_part hstart
  refine runStore_waits hstart ((storeWriteTry_serves hb).trans ?_)
  rw [if_neg (Nat.not_lt.mpr hall), if_pos hopen]

theorem execStoreWrite_ends (hrs : rs = requestsOf s p d.desc.queue .write) (hall : recField d.record 28 4 / 65536 ≤ rs.length) (hdone : rs.any reqOpen = false) :
    execStoreWrite p q s = .next (issue (dropRequests s (fun r => rs.contains r)) d (4 + ceilDiv (recField d.record 28 4) 2048)
      (if (marksRead s.mem.bankPoison (bankAddr b (bankRefOf (recField d.record 24 4)).off / 64) (recField d.record 28 4 / 64)).any (fun m => m) then 2
       else if rs.any (fun r => r.failed) then 5 else 0) (handoverAt d.record 40 d.desc.inst)) := by
  obtain rfl := engineStarts_part hstart
  refine runStore_done hstart ((storeWriteTry_serves hb).trans ?_)
  rw [← hrs, if_neg (Nat.not_lt.mpr hall), if_neg (by simp [hdone])]
  rfl

end

end

end Sys2Proof.Machine

namespace Sys2Proof.Machine

section
variable {s t a : State} {p : PartId} {img : Image} {i : Intake} {c : ChunkJob} {k k' : ClusterId} {tags data : StoreReq} {plain key : Bytes} {b : Fin 288}

/-! ### INTAKE_CHUNK (15 R427, R428) -/

/-- A state once a chunk's requests are forgotten and its beats are counted. -/
def chunkTaken (s : State) (c : ChunkJob) (k : ClusterId) (rs : List StoreReq) : State := chunkBeats (dropRequests s (fun r => rs.contains r)) c k

theorem chunkTaken_mem (rs : List StoreReq) : (chunkTaken s c k rs).mem = s.mem := rfl
theorem chunkTaken_part (rs : List StoreReq) : (chunkTaken s c k rs).part p = s.part p := rfl

theorem chunkTaken_samePlaces (rs : List StoreReq) : SamePlaces s (chunkTaken s c k rs) := ⟨rfl, rfl, rfl, fun _ => rfl⟩

theorem chunkTaken_beats (rs : List StoreReq) : ((chunkTaken s c k rs).cluster k).beats = (s.cluster k).beats + BitVec.ofNat 64 (8 + 2 * ceilDiv c.length 2048) := by
  unfold chunkTaken chunkBeats
  rw [State.modCluster_cluster]
  rfl

/-- A chunk that fails ends its intake and touches no memory. -/
theorem failChunk_ends (result : Nat) : (failChunk a p i result).mem = a.mem ∧ ((failChunk a p i result).part p).keys.result = result ∧
    ((failChunk a p i result).part p).keys.intake = none ∧ (failChunk a p i result).cluster k = a.cluster k := by
  unfold failChunk
  extract_lets u v
  have hkeys : (u.part p).keys.result = result ∧ (u.part p).keys.intake = none := by
    have h : u.part p = _ := State.modPart_part ..
    rw [h]
    exact ⟨rfl, rfl⟩
  have hv : v.mem = a.mem ∧ (v.part p).keys = (u.part p).keys ∧ v.cluster k = a.cluster k := by
    show (if i.target = 2 then _ else u : State).mem = _ ∧ ((if i.target = 2 then _ else u : State).part p).keys = _ ∧ (if i.target = 2 then _ else u : State).cluster k = _
    split
    · rw [State.modPart_part]
      exact ⟨rfl, rfl, rfl⟩
    · exact ⟨rfl, rfl, rfl⟩
  clear_value v
  obtain ⟨vmem, vkeys, vcluster⟩ := hv
  rw [State.event_mem, event_part, vkeys]
  refine ⟨vmem, hkeys.1, hkeys.2, ?_⟩
  unfold State.cluster at vcluster ⊢
  rw [State.event_clusters]
  exact vcluster

/-- A chunk that passes stands in the stack. -/
theorem passChunk_writes : (passChunk a p i c k plain).mem = (stackWrite a (stackAddr k c.offset) plain).mem ∧
    ((passChunk a p i c k plain).part p).keys.result = (if i.next + 1 = i.stop then 2 else 1) ∧ (passChunk a p i c k plain).cluster k' = a.cluster k' := by
  unfold passChunk
  extract_lets w u last v
  have hu : u.mem = w.mem ∧ u.cluster k' = a.cluster k' := by
    show (if i.target = 2 then _ else w : State).mem = _ ∧ (if i.target = 2 then _ else w : State).cluster k' = _
    split <;> exact ⟨rfl, rfl⟩
  have hv : v.mem = w.mem ∧ v.cluster k' = a.cluster k' := by
    show (if _ then _ else u : State).mem = _ ∧ (if _ then _ else u : State).cluster k' = _
    split
    · exact hu
    · exact hu
  refine ⟨hv.1, ?_, hv.2⟩
  show ((v.modPart p _).part p).keys.result = _
  rw [State.modPart_part]
  show (if (i.next + 1 == i.stop) = true then 2 else 1) = _
  simp only [beq_iff_eq]

theorem chunkOpened_eq (h : physBank a (a.part p) c.cluster (intakeBank img i c.cluster) = some b) :
    chunkOpened a p img i c plain = bankWrite a (bankAddr b 0) plain := by
  unfold chunkOpened
  rw [h]

section
variable (himg : (s.part p).image = some img) (hin : (s.part p).keys.intake = some i) (hjob : chunkJob (s.part p) img i = some c)
  (hk : (s.part p).clusters[c.cluster]? = some k)
include himg hin hjob hk

theorem execIntakeChunk_eq : execIntakeChunk p s =
    if (requestsOf s p 0 .intake).isEmpty then (if requestRoom s p.val < 2 then .next s else .next (requestChunk s p img i c))
    else if (requestsOf s p 0 .intake).any reqOpen || (s.cluster k).selfRefresh || ((s.part p).state == .running && partHeld s p) ||
      !intakeServes s p img i c then .next s
    else .next (takeChunk s p img i c k (requestsOf s p 0 .intake)) := by
  unfold execIntakeChunk
  dsimp only
  rw [himg, hin]
  dsimp only
  rw [hjob]
  dsimp only
  rw [hk]

theorem execIntakeChunk_requests (hnone : requestsOf s p 0 .intake = []) :
    execIntakeChunk p s = .next (if 2 ≤ requestRoom s p.val then requestChunk s p img i c else s) := by
  rw [execIntakeChunk_eq himg hin hjob hk, hnone, if_pos List.isEmpty_nil]
  split
  next h => rw [if_neg (Nat.not_le.mpr h)]
  next h => rw [if_pos (Nat.not_lt.mp h)]

variable (hrs : requestsOf s p 0 .intake = [tags, data]) (htags : reqOpen tags = false) (hdata : reqOpen data = false)
  (hawake : (s.cluster k).selfRefresh = false) (hheld : (s.part p).state = .running → partHeld s p = false) (hserves : intakeServes s p img i c = true)
include hrs htags hdata hawake hheld hserves

theorem execIntakeChunk_takes : execIntakeChunk p s = .next (takeChunk s p img i c k [tags, data]) := by
  rw [execIntakeChunk_eq himg hin hjob hk, hrs, if_neg (by simp), if_neg]
  simp [htags, hdata, hawake, hserves]
  exact hheld

/-- A failed request stops the intake. -/
theorem execIntakeChunk_unread (hfail : tags.failed = true ∨ data.failed = true) :
    execIntakeChunk p s = .next (failChunk (chunkTaken s c k [tags, data]) p i 0x12) := by
  rw [execIntakeChunk_takes himg hin hjob hk hrs htags hdata hawake hheld hserves]
  unfold takeChunk
  dsimp only
  rw [if_pos (by simpa using hfail)]
  rfl

variable (hkey : (s.part p).keys.model = some key) (htagsOk : tags.failed = false) (hdataOk : data.failed = false)
include hkey htagsOk hdataOk

/-- A chunk that opens is judged by its digest. -/
theorem execIntakeChunk_opens (hopen : gcmOpen key c.nonce c.aad data.got (slice tags.got (16 * i.next % 4096) 16) = some plain)
    (hbank : physBank s (s.part p) c.cluster (intakeBank img i c.cluster) = some b) :
    execIntakeChunk p s = .next (if digestOk (s.part p) i c plain
      then passChunk (bankWrite (chunkTaken s c k [tags, data]) (bankAddr b 0) plain) p i c k plain
      else failChunk (bankWrite (chunkTaken s c k [tags, data]) (bankAddr b 0) plain) p i 0x11) := by
  have hplace : physBank (chunkTaken s c k [tags, data]) ((chunkTaken s c k [tags, data]).part p) c.cluster (intakeBank img i c.cluster) = some b :=
    ((chunkTaken_samePlaces _).physBank ..).trans hbank
  have hopened : chunkOpened (chunkTaken s c k [tags, data]) p img i c plain = bankWrite (chunkTaken s c k [tags, data]) (bankAddr b 0) plain :=
    chunkOpened_eq hplace
  rw [execIntakeChunk_takes himg hin hjob hk hrs htags hdata hawake hheld hserves]
  unfold takeChunk
  dsimp only
  rw [if_neg (by simp [htagsOk, hdataOk]), hkey, Option.bind_some, hopen]
  dsimp only
  rw [← hopened]
  unfold chunkTaken
  split <;> rfl

theorem execIntakeChunk_unopened (hopen : gcmOpen key c.nonce c.aad data.got (slice tags.got (16 * i.next % 4096) 16) = none) :
    execIntakeChunk p s = .next (failChunk (chunkTaken s c k [tags, data]) p i 0x10) := by
  rw [execIntakeChunk_takes himg hin hjob hk hrs htags hdata hawake hheld hserves]
  unfold takeChunk
  dsimp only
  rw [if_neg (by simp [htagsOk, hdataOk]), hkey, Option.bind_some, hopen]
  rfl

end

/-- What is written of a chunk reads back. -/
theorem bankWrite_chunk (hwf : memWf s.mem = true) (rs : List StoreReq) :
    bankRead (bankWrite (chunkTaken s c k rs) (bankAddr b 0) plain) (bankAddr b 0) plain.length = plain := bankRead_bankWrite _ _ _ hwf

theorem stackRead_stackWrite {addr : Nat} (hwf : memWf s.mem = true) : stackRead (stackWrite s addr plain) addr plain.length = plain := by
  obtain ⟨-, hhbm, -⟩ := (memWf_iff _).mp hwf
  exact cellsRead_cellsWrite _ _ _ hhbm

theorem requestChunk_requests : (requestChunk s p img i c).requests.length = s.requests.length + 2 := by
  unfold requestChunk
  dsimp only
  rw [openRequest_requests, openRequest_requests]

end

/-- A block that stands answered and opens, in the statement's form. -/
theorem arrived_eq_none {x : Part} {block i : Nat} {rs : List StoreReq} (h : ∀ r pt, rs[i / 15]? = some r → r.failed = false →
    openBlock x (block + i) (slice r.got (i % 15 * 65600) 65600) ≠ some pt) : arrived x block rs i = none := by
  cases harr : arrived x block rs i with
  | none => rfl
  | some pt =>
    obtain ⟨r, hr, hf, hopen⟩ := arrived_eq_some.mp harr
    exact absurd hopen (h r pt hr hf)

/-- Settles O40: a read by the induction over its blocks (`landBlocks_step`), a write by `sealBlocks_counts`, an intake by what its chunk
ends with. Requests of 15 blocks and of one are log entry 93, blocks that do not open log entry 94, the page of tags log entry 107; a
command has its effect when it is issued (log entry 34). -/
theorem storeCommandsAndIntake : Obligations.StoreCommandsAndIntake := by
  unfold Obligations.StoreCommandsAndIntake
  rintro s p q d b ref n blk rfl rfl rfl
  refine ⟨fun hstart hb => ⟨fun hnone => ⟨execStoreRead_requests hstart hb hnone, requestBlocks_mem⟩, execStoreRead_open hstart hb, ?lands⟩, fun hstart hb =>
    ⟨fun sent m a t hsent hlt hm ha ht => execStoreWrite_seals hstart hb hsent hlt hm ha ht, execStoreWrite_open hstart hb,
      fun rs hrs hall hdone => execStoreWrite_ends hstart hb hrs hall hdone⟩, fun img i c k himg hin hjob hk =>
    ⟨fun hnone => ⟨execIntakeChunk_requests himg hin hjob hk hnone, requestChunk_requests⟩, ?intake⟩⟩
  case lands =>
    intro rs g hrs hsome hdone hg
    refine ⟨execStoreRead_lands hstart hb hrs hsome hdone hg, ?_⟩
    rw [hg]
    obtain ⟨hcodes, hiff⟩ := landBlocks_error (s := dropRequests s (fun r => rs.contains r)) (p := p)
      (addr := bankAddr b (bankRefOf (recField d.record 24 4)).off) (block := recField d.record 32 8) (n := recField d.record 28 4 / 65536) (rs := rs)
    have hoff := landBlocks_offBanks (s := dropRequests s (fun r => rs.contains r)) (p := p)
      (addr := bankAddr b (bankRefOf (recField d.record 24 4)).off) (block := recField d.record 32 8) (n := recField d.record 28 4 / 65536) (rs := rs)
    have hmem : (landBlocks (dropRequests s (fun r => rs.contains r)) p (bankAddr b (bankRefOf (recField d.record 24 4)).off) (recField d.record 32 8)
        (recField d.record 28 4 / 65536) rs).1.mem.hbm = s.mem.hbm := (congrArg (fun u : State => u.mem.hbm) hoff :)
    have hrequests : (landBlocks (dropRequests s (fun r => rs.contains r)) p (bankAddr b (bankRefOf (recField d.record 24 4)).off) (recField d.record 32 8)
        (recField d.record 28 4 / 65536) rs).1.requests = s.requests.filter (fun r => !rs.contains r) := (congrArg State.requests hoff :)
    refine ⟨hmem, hrequests, hcodes, hiff.trans (forall₂_congr fun i _ => ?_), fun hwf i r pt hi hr hf hopen hpt => ?_, fun halign i j hi hj hno => ?_⟩
    · simp only [arrived_eq_some, exists_comm (α := Bytes)]
      rfl
    · exact landBlocks_reads hwf hi (arrived_eq_some.mpr ⟨r, hr, hf, hopen⟩) hpt
    · refine landBlocks_poisons ?_ hi hj (arrived_eq_none hno)
      unfold bankAddr bankSize
      omega
  case intake =>
    intro tags data hrs htags hdata hawake hheld hserves
    refine ⟨fun hfail => ?_, fun key htagsOk hdataOk hkey => ⟨fun plain b hopen hwf hbank => ?_, fun hopen => ?_⟩⟩
    · obtain ⟨hmem, hresult, hintake, hcluster⟩ := failChunk_ends (a := chunkTaken s c k [tags, data]) (p := p) (i := i) (k := k) 0x12
      exact ⟨_, execIntakeChunk_unread himg hin hjob hk hrs htags hdata hawake hheld hserves hfail, hmem, hresult, hintake,
        by rw [hcluster, chunkTaken_beats]⟩
    · have hrun := execIntakeChunk_opens himg hin hjob hk hrs htags hdata hawake hheld hserves hkey htagsOk hdataOk hopen hbank
      have hread := bankWrite_chunk (b := b) (c := c) (k := k) (plain := plain) hwf [tags, data]
      have hwfOpened : memWf (bankWrite (chunkTaken s c k [tags, data]) (bankAddr b 0) plain).mem = true := bankWrite_wf hwf
      have hbeats : ((bankWrite (chunkTaken s c k [tags, data]) (bankAddr b 0) plain).cluster k).beats =
          (s.cluster k).beats + BitVec.ofNat 64 (8 + 2 * ceilDiv c.length 2048) := chunkTaken_beats _
      have hhbm : (bankWrite (chunkTaken s c k [tags, data]) (bankAddr b 0) plain).mem.hbm = s.mem.hbm := rfl
      generalize bankWrite (chunkTaken s c k [tags, data]) (bankAddr b 0) plain = o at hrun hread hwfOpened hbeats hhbm
      cases hdigest : digestOk (s.part p) i c plain with
      | true =>
        rw [hdigest, if_pos rfl] at hrun
        obtain ⟨hmem, hresult, hcluster⟩ := passChunk_writes (a := o) (p := p) (i := i) (c := c) (k := k) (k' := k) (plain := plain)
        generalize passChunk o p i c k plain = u at hrun hmem hresult hcluster
        refine ⟨u, hrun, ?_, by rw [hcluster, hbeats], fun _ => ⟨?_, hresult⟩, fun h => absurd h (by decide)⟩
        · unfold bankRead at hread ⊢
          rw [hmem]
          exact hread
        · unfold stackRead
          rw [hmem]
          exact stackRead_stackWrite hwfOpened
      | false =>
        rw [hdigest, if_neg Bool.false_ne_true] at hrun
        obtain ⟨hmem, hresult, hintake, hcluster⟩ := failChunk_ends (a := o) (p := p) (i := i) (k := k) 0x11
        generalize failChunk o p i 0x11 = u at hrun hmem hresult hintake hcluster
        refine ⟨u, hrun, ?_, by rw [hcluster, hbeats], fun h => absurd h (by decide), fun _ => ⟨by rw [hmem, hhbm], hresult, hintake⟩⟩
        unfold bankRead at hread ⊢
        rw [hmem]
        exact hread
    · obtain ⟨hmem, hresult, hintake, hcluster⟩ := failChunk_ends (a := chunkTaken s c k [tags, data]) (p := p) (i := i) (k := k) 0x10
      exact ⟨_, execIntakeChunk_unopened himg hin hjob hk hrs htags hdata hawake hheld hserves hkey htagsOk hdataOk hopen, hmem, hresult, hintake,
        by rw [hcluster, chunkTaken_beats]⟩

end Sys2Proof.Machine

namespace Sys2Proof.Machine

/-! ## Firmware messages (O52) -/

section
variable {s t u : State} {p : PartId} {c : CoreId} {x : I3cId}

/-! ### What cores that leave service do not touch -/

/-- The fuses, the firmware, the power, which sessions live, and the orders. -/
def State.quiet (s : State) : Fuses × Firmware × Power × (I3cId → Bool) × Orders := (s.fuses, s.fw, s.power, s.lives, s.orders)

theorem event_quiet (unitNo code part : Nat) (data : Bytes) : (s.event unitNo code part data).quiet = s.quiet := by
  unfold State.quiet
  rw [event_lives, State.event_orders, State.event_fuses, State.event_fw, State.event_power]

theorem foundBank_quiet (w : Nat) : (foundBank s w).quiet = s.quiet := by
  unfold foundBank
  dsimp only
  refine (event_quiet ..).trans ?_
  split <;> rfl

theorem meetBank_quiet (a n : Nat) : (meetBank s a n).quiet = s.quiet := by
  unfold meetBank
  exact (foldl_view _ State.quiet (fun _ w => foundBank_quiet w) _).trans rfl

theorem copyCarried_quiet (old new : List (Nat × Nat)) : (copyCarried s old new).1.quiet = s.quiet := by
  unfold copyCarried
  dsimp only
  refine (foldl_view _ State.quiet (fun u d => ?_) _).trans (foldl_view _ State.quiet (fun u d => meetBank_quiet ..) _)
  exact (foldl_view (bankZero u (bankAddr d.1 0) bankSize) State.quiet (fun _ _ => by rfl) d.2.1).trans rfl

theorem putBanks_quiet (cs : List Host.Cell) (key n a : Nat) : (putBanks s cs key n a).quiet = s.quiet :=
  (foldl_view (bankZero s a n) State.quiet (by intro _ _; rfl) _).trans rfl

theorem putStacks_quiet (cs : List Host.Cell) (key n a : Nat) : (putStacks s cs key n a).quiet = s.quiet :=
  (foldl_view (stackZero s a n) State.quiet (by intro _ _; rfl) _).trans rfl

theorem markBanks_quiet (vs : List Nat) (w n a : Nat) : (markBanks s vs w n a).quiet = s.quiet := foldl_view s State.quiet (by intro _ _; rfl) _

theorem markStacks_quiet (vs : List Nat) (w n a : Nat) : (markStacks s vs w n a).quiet = s.quiet := foldl_view s State.quiet (by intro _ _; rfl) _

theorem putCarried_quiet (k : Checkpoint) : (putCarried s p k).quiet = s.quiet :=
  foldl_view s State.quiet (fun _ _ => (markBanks_quiet ..).trans (putBanks_quiet ..)) _

theorem putTables_quiet (k : Checkpoint) : (putTables s p k).quiet = s.quiet := by
  unfold putTables
  split
  · rfl
  next kd hkd =>
    refine (foldl_view _ State.quiet (fun u g => ?_) _).trans (foldl_view s State.quiet (fun u lc => ?_) _)
    · split
      · exact (markStacks_quiet ..).trans (putStacks_quiet ..)
      · rfl
    · have hpages : (match ptAddr u (s.part p) kd lc 0 with
          | some a => markBanks (putBanks u k.tables (tableKey lc false) bankSize a) k.tabMarks (tableKey lc false / 64) 32768 (a / 64)
          | none => u).quiet = u.quiet := by
        split
        · exact (markBanks_quiet ..).trans (putBanks_quiet ..)
        · rfl
      refine Eq.trans ?_ hpages
      dsimp only
      split
      · exact (markStacks_quiet ..).trans (putStacks_quiet ..)
      · rfl

theorem putVideo_quiet (k : Checkpoint) : (putVideo s p k).quiet = s.quiet := by
  unfold putVideo
  dsimp only
  refine (foldl_view _ State.quiet (fun u v => ?_) _).trans ((foldl_view (closeContexts s p) State.quiet (by intro _ _; rfl) _).trans rfl)
  exact foldl_view u State.quiet (fun _ _ => (markStacks_quiet ..).trans (putStacks_quiet ..)) _

theorem restore_quiet (k : Checkpoint) (layout : Nat) : (restore s p k layout).quiet = s.quiet :=
  (putVideo_quiet k).trans ((putTables_quiet k).trans (putCarried_quiet k))

theorem noLayout_quiet (changes : List (Option CoreId)) : (noLayout s p changes).quiet = s.quiet := by
  unfold noLayout
  dsimp only
  refine (event_quiet ..).trans ?_
  refine (foldl_view s State.quiet (fun u c => ?_) changes :)
  split
  · exact event_quiet ..
  · rfl

theorem catchUpFail_quiet (cause : Nat) : (catchUpFail s p cause).quiet = s.quiet := event_quiet ..

theorem abandonStep_quiet : (abandonStep s p).quiet = s.quiet := by
  unfold abandonStep
  dsimp only
  split
  · split
    · exact catchUpFail_quiet 1
    split
    · exact catchUpFail_quiet 2
    split
    · exact restore_quiet ..
    · exact (noLayout_quiet []).trans (restore_quiet ..)
  · exact catchUpFail_quiet 1

theorem hardStop_quiet : (hardStop s p c).quiet = s.quiet :=
  (event_quiet ..).trans (abandonStep_quiet.trans (event_quiet ..))

theorem moveOrStop_quiet : (moveOrStop s p).quiet = s.quiet := by
  have hmove : (moveCarried s p).1.quiet = s.quiet := copyCarried_quiet ..
  unfold moveOrStop
  dsimp only
  split
  · exact hardStop_quiet.trans hmove
  · exact hmove

/-- A core taken out of service touches no fuse, no firmware, no power and no order. -/
theorem fenceFor_quiet (cause : FenceCause) : (fenceFor s c cause).quiet = s.quiet := by
  unfold fenceFor
  extract_lets a b
  have ha : a.quiet = s.quiet := rfl
  split
  · rfl
  split
  next p hp =>
    split
    · exact ha
    · extract_lets e
      have he : e.quiet = s.quiet := by
        show (if _ then _ else b : State).quiet = _
        split
        · split
          · exact moveOrStop_quiet
          · rfl
        · rfl
      exact (event_quiet ..).trans he
  · exact event_quiet ..

/-! ### Steps 5 to 7 of the start (16 R437) -/

/-- The fuses, the firmware that runs, the module's state, which sessions live, and the orders. -/
def State.launch (s : State) : Fuses × FwHeader × ModState × (I3cId → Bool) × Orders := (s.fuses, s.fw.running, s.power.state, s.lives, s.orders)

theorem launch_of_quiet (h : t.quiet = u.quiet) : t.launch = u.launch := by
  unfold State.quiet at h
  simp only [Prod.mk.injEq] at h
  obtain ⟨hfuses, hfw, hpower, hlives, horders⟩ := h
  unfold State.launch
  rw [hfuses, hfw, hpower, hlives, horders]

theorem trainStacks_launch (i : StartIn) : (trainStacks s i).launch = s.launch ∧
    ((trainStacks s i).fw.startStep = s.fw.startStep ∨ (trainStacks s i).fw.startStep = 6) := by
  unfold trainStacks
  extract_lets z a b k d e f
  split
  · exact ⟨rfl, .inl rfl⟩
  · have he : e.quiet = d.quiet := forClusters_view d State.quiet fun k u => by
      split
      · rfl
      · exact event_quiet ..
    have hf : f.quiet = e.quiet := forCores_view (s := e) State.quiet fun c u => by
      split
      · rfl
      · exact fenceFor_quiet _
    have hd : d.launch = s.launch := rfl
    have hlaunch : f.launch = s.launch := (launch_of_quiet (hf.trans he)).trans hd
    clear_value f
    exact ⟨hlaunch, .inr rfl⟩

/-- The start of the firmware keeps what it runs by. -/
theorem runFirmware_launch (i : StartIn) : (runFirmware s i).launch = s.launch ∧ 5 ≤ (runFirmware s i).fw.startStep := by
  unfold runFirmware
  extract_lets a b
  have ha : a.launch = s.launch := rfl
  obtain ⟨hlaunch, hstep⟩ : b.launch = s.launch ∧ (b.fw.startStep = 5 ∨ b.fw.startStep = 6) := trainStacks_launch i
  clear_value b
  split
  · exact ⟨hlaunch, by omega⟩
  · have hview : (forPorts (fun n s => if (s.link n).state = .up then s else startTraining s n) b).launch = b.launch :=
      forPorts_view b State.launch fun n u => by split <;> rfl
    have hfw : (forPorts (fun n s => if (s.link n).state = .up then s else startTraining s n) b).fw = b.fw :=
      forPorts_view b State.fw fun n u => by split <;> rfl
    rw [hfw, hview]
    exact ⟨hlaunch, by omega⟩

/-! ### REFUSED (11 R306) is not mail -/

/-- The flag of a refused interface. -/
def State.refusal (s : State) : Bool := s.orders.refusedFlag

theorem answer_refusal (t : Taken) (status : Nat) (tail : Bytes) : (answer s t status tail).refusal = s.refusal := by
  unfold answer
  dsimp only
  split
  · show (if _ then _ else _ : Orders).refusedFlag = _
    split
    · rfl
    split <;> rfl
  · rfl

theorem event_refusal (unitNo code part : Nat) (data : Bytes) : (s.event unitNo code part data).refusal = s.refusal :=
  congrArg Orders.refusedFlag (State.event_orders ..)

theorem endSession_refusal (kind : Nat) : (endSession s x kind).refusal = s.refusal := by
  unfold endSession
  dsimp only
  refine (event_refusal ..).trans ?_
  split
  · exact event_refusal ..
  · rfl

theorem admitMsg_refusal (bulk : Bool) (m : Msg) : (admitMsg s x bulk m).refusal = s.refusal := by
  unfold admitMsg
  dsimp only
  split
  · unfold enterOrder
    dsimp only
    split
    · rfl
    split
    · exact answer_refusal ..
    · rfl
  split
  · have h : (tallyRate s x).2.refusal = s.refusal := by
      unfold tallyRate
      dsimp only
      split <;> rfl
    generalize tallyRate s x = r at h
    match r with
    | (true, u) => exact h
    | (false, u) => exact (answer_refusal ..).trans h
  · rfl

theorem takePost_refusal (bulk : Bool) : (takePost s x bulk).refusal = s.refusal := by
  have hexpire : (expireSession s x).refusal = s.refusal := by
    unfold expireSession
    split
    · exact endSession_refusal 1
    · rfl
  unfold takePost
  extract_lets u q raw m last session q' repeated e v
  have hu : u.refusal = s.refusal := hexpire
  have hset : ∀ r : I3cPort, (u.setPort x r).refusal = s.refusal := fun _ => hu
  clear_value u last
  split
  · cases last with
    | none => exact hu
    | some e =>
      dsimp only
      split <;> exact hset _
  · have hv : v.refusal = s.refusal := hset _
    clear_value v
    split
    · refine (answer_refusal ..).trans ?_
      split <;> exact hv
    · exact (admitMsg_refusal ..).trans hv

theorem takeWaiting_refusal : (takeWaiting s x).refusal = s.refusal := by
  have h : (if (s.port x).cmdFull && mayTake s x then takePost s x false else s).refusal = s.refusal := by
    split
    · exact takePost_refusal false
    · rfl
  unfold takeWaiting
  extract_lets u
  refine Eq.trans ?_ (show u.refusal = s.refusal from h)
  clear_value u
  split
  · exact takePost_refusal true
  · rfl

theorem retakePosts_refusal : (retakePosts s).refusal = s.refusal := forI3c_view State.refusal fun _ _ => takeWaiting_refusal

/-! ### Restarts with an image (16 R449) -/

/-- A restart with an image runs it, in BOOT, with no session. -/
theorem restartWith_runs (h : FwHeader) : (restartWith s h).fw.running = h ∧ (restartWith s h).power.state = .boot ∧ (restartWith s h).fuses = s.fuses ∧
    (restartWith s h).orders.refusedFlag = false ∧ (∀ y, ((restartWith s h).port y).session.live = false) := by
  have hlives := restartBase_lives (s := s)
  have hbase := restartBase_offMail (s := s)
  have hflag : (restartBase s).refusal = false :=
    (forI3c_view (s := restartCore s) State.refusal (f := fun x t => if (t.port x).session.live then endSession t x 3 else t) fun x u => by
      split
      · exact endSession_refusal 3
      · rfl).trans rfl
  unfold restartWith
  dsimp only
  generalize restartBase s = b at hlives hbase hflag ⊢
  generalize ha : (b.modSecurity fun v => { v with identity := identityUsable b.fuses }).modFw
    (fun f => { f with running := h, startStep := 4, pulled := h.pulled, loadState := 6 }) = a
  have hstart : a.launch = (s.fuses, h, .boot, b.lives, b.orders) := by
    rw [← ha]
    have hfuses : b.fuses = s.fuses := (congrArg State.fuses hbase :)
    have hstate : b.power.state = .boot := (congrArg (fun u : State => u.power.state) hbase :)
    show (b.fuses, h, b.power.state, b.lives, b.orders) = _
    rw [hfuses, hstate]
  obtain ⟨hlaunch, -⟩ := runFirmware_launch (s := a) (restartIn s)
  generalize runFirmware a (restartIn s) = r at hlaunch ⊢
  rw [hstart] at hlaunch
  unfold State.launch at hlaunch
  simp only [Prod.mk.injEq] at hlaunch
  obtain ⟨rfuses, rrunning, rstate, rlives, rorders⟩ := hlaunch
  have hdead : ∀ y, r.lives y = false := fun y => (congrFun rlives y).trans (hlives y)
  have hmail := retakePosts_offMail (s := r)
  have hposts := retakePosts_lives hdead
  have hrefused := retakePosts_refusal (s := r)
  generalize retakePosts r = e at hmail hposts hrefused ⊢
  refine ⟨?_, ?_, ?_, ?_, fun y => (congrFun hposts y).trans (hdead y)⟩
  · exact (congrArg (fun u : State => u.fw.running) hmail :).trans rrunning
  · exact (congrArg (fun u : State => u.power.state) hmail :).trans rstate
  · exact (congrArg State.fuses hmail :).trans rfuses
  · have hr : r.refusal = b.refusal := congrArg Orders.refusedFlag rorders
    exact hrefused.trans (hr.trans hflag)

end

end Sys2Proof.Machine

namespace Sys2Proof.Machine

section
variable {s t u a : State} {x y : I3cId} {m : Taken} {rest : List Taken} {typ cause : Nat} {ok : Msg → Bool} {f : Taken → State → State} {l : FwLoad} {h : FwHeader}

/-! ### How a firmware message is handled (16 R438, R442) -/

/-- The state in which a firmware message is handled: it has left its list, and its port's load is kept. -/
def heard (s : State) (rest : List Taken) : State := (s.withTaken rest).modFw (fun v => { v with load := v.load.map (fun l => { l with lastAt := s.now }) })

theorem fwFirst_of_first (h : firstTaken s x typ m rest) (hf : isFirmware typ = true) (hok : ok m.msg = true) : fwFirst s x typ ok = true := by
  obtain ⟨htaken, hport, htyp⟩ := h
  unfold fwFirst
  rw [htaken, List.find?_cons_of_pos (by rw [htyp]; exact hf)]
  simp [hport, htyp, hok]

theorem onFw_eq (hp : startPaused s = false) (h : firstTaken s x typ m rest) (hf : isFirmware typ = true) (hok : ok m.msg = true) :
    onFw s x typ ok f = .next (if otherLoad s x then answerBare (s.withTaken rest) m 0x01 else f m (heard s rest)) := by
  unfold onFw
  rw [if_neg (by simp [hp, fwFirst_of_first h hf hok]), onTaken_first h hok]
  rfl

theorem onFw_heard (hp : startPaused s = false) (hown : ∀ l, s.fw.load = some l → l.port = x) (h : firstTaken s x typ m rest) (hf : isFirmware typ = true)
    (hok : ok m.msg = true) : onFw s x typ ok f = .next (f m (heard s rest)) := by
  rw [onFw_eq hp h hf hok, if_neg]
  unfold otherLoad
  split
  next l hl => simp [hown l hl]
  next => exact Bool.false_ne_true

theorem onFw_busy (hp : startPaused s = false) (hl : s.fw.load = some l) (hother : l.port ≠ x) (h : firstTaken s x typ m rest)
    (hf : isFirmware typ = true) (hok : ok m.msg = true) : onFw s x typ ok f = .next (answerBare (s.withTaken rest) m 0x01) := by
  rw [onFw_eq hp h hf hok, if_pos]
  unfold otherLoad
  rw [hl]
  exact bne_iff_ne.mpr hother

theorem onFw_paused (hp : startPaused s = true) : onFw s x typ ok f = .next s := if_pos (by simp [hp])

/-- Of a port no firmware message waits. -/
theorem fwFirst_none (h : ∀ m ∈ s.orders.taken, m.port = x → m.msg.typ < 0x50 ∨ 0x54 < m.msg.typ) : fwFirst s x typ ok = false := by
  unfold fwFirst
  cases hfind : s.orders.taken.find? (fun t => isFirmware t.msg.typ) with
  | none => rfl
  | some m =>
    have hfirm := List.find?_some hfind
    have hmem := List.mem_of_find?_eq_some hfind
    rw [Option.any_some, Bool.and_eq_false_iff, Bool.and_eq_false_iff]
    refine .inl (.inl (beq_eq_false_iff_ne.mpr fun hport => ?_))
    have hrange := h m hmem hport
    simp [isFirmware] at hfirm
    omega

theorem onFw_none (h : ∀ m ∈ s.orders.taken, m.port = x → m.msg.typ < 0x50 ∨ 0x54 < m.msg.typ) : onFw s x typ ok f = .next s :=
  if_pos (by simp [fwFirst_none h])

/-! ### What an answer and the end of a load leave -/

/-- What no firmware message but an activation touches. -/
def State.offLoad (s : State) : Mem × Ns × Vector Part 8 × Power × Fuses × Thermal × Vector Link 16 := (s.mem, s.now, s.parts, s.power, s.fuses, s.thermal, s.links)

theorem answer_offLoad (status : Nat) (tail : Bytes) : (answer s m status tail).offLoad = s.offLoad := (congrArg State.offLoad (answer_offMail m status tail) :)

theorem answerFw_fw (status : Nat) (tail : Bytes) : (answerFw s m status cause tail).fw = { s.fw with result := cause } := answer_fw ..

theorem answerCause_fw (tail : Bytes) : (answerCause s m cause tail).fw = { s.fw with result := cause } := answerFw_fw ..

theorem answerCause_offLoad (tail : Bytes) : (answerCause s m cause tail).offLoad = s.offLoad := answer_offLoad ..

theorem answerCause_requests (tail : Bytes) : (answerCause s m cause tail).requests = s.requests := answer_requests ..

theorem answerCause_refuses (hc : cause ≠ 0) : answerCause s m cause [] = answer (s.modFw (fun f => { f with result := cause })) m 0x10 (zeros 3 ++ leBytes 1 cause) := by
  unfold answerCause answerFw
  rw [if_neg hc, List.append_nil]

/-- The state once the order of a pull that has not started is answered. -/
def pullAnswered (s : State) : State := match s.fw.load with
  | some l => match l.asked with | some t => answerCause s t 8 [] | none => s
  | none => s

theorem dropLoad_eq (n : Nat) : dropLoad s n = (dropRequests (pullAnswered s) (fun r => r.use == .pull)).modFw (fun f => { f with load := none, loadState := n }) := by
  unfold dropLoad pullAnswered
  cases s.fw.load with
  | none => rfl
  | some l => cases l.asked <;> rfl

theorem pullAnswered_leaves : (∃ r, (pullAnswered s).fw = { s.fw with result := r }) ∧ (pullAnswered s).offLoad = s.offLoad ∧
    (pullAnswered s).requests = s.requests := by
  unfold pullAnswered
  split
  · split
    · exact ⟨⟨8, answerCause_fw _⟩, answerCause_offLoad _, answerCause_requests _⟩
    · exact ⟨⟨_, rfl⟩, rfl, rfl⟩
  · exact ⟨⟨_, rfl⟩, rfl, rfl⟩

/-- A load that ends leaves no load and no request of a pull. -/
theorem dropLoad_leaves (n : Nat) : (∃ r, (dropLoad s n).fw = { s.fw with load := none, loadState := n, result := r }) ∧
    (dropLoad s n).offLoad = s.offLoad ∧ (dropLoad s n).requests = s.requests.filter (fun r => !(r.use == .pull)) := by
  obtain ⟨⟨r, hfw⟩, hoff, hreq⟩ := pullAnswered_leaves (s := s)
  rw [dropLoad_eq]
  generalize pullAnswered s = a at hfw hoff hreq ⊢
  refine ⟨⟨r, ?_⟩, hoff, ?_⟩
  · show ({ a.fw with load := none, loadState := n } : Firmware) = _
    rw [hfw]
  · show a.requests.filter _ = _
    rw [hreq]

theorem failPull_leaves : (failPull s cause).fw = { s.fw with load := none, loadState := 7, result := cause } ∧ (failPull s cause).offLoad = s.offLoad := by
  obtain ⟨⟨r, hfw⟩, hoff, -⟩ := dropLoad_leaves (s := s) 7
  unfold failPull
  generalize dropLoad s 7 = a at hfw hoff ⊢
  refine ⟨?_, hoff⟩
  show ({ a.fw with result := cause } : Firmware) = _
  rw [hfw]

/-- A load opens in place of a staged image (R445). -/
theorem openLoad_leaves : (∃ r, (openLoad s l).fw = { s.fw with load := some l, staged := none, loadState := if l.pull then 2 else 1, loadPort := l.port.val, result := r }) ∧
    (openLoad s l).offLoad = s.offLoad ∧ (openLoad s l).requests = s.requests.filter (fun r => !(r.use == .pull)) := by
  obtain ⟨⟨r, hfw⟩, hoff, hreq⟩ := dropLoad_leaves (s := s) 0
  unfold openLoad
  generalize dropLoad s 0 = a at hfw hoff hreq ⊢
  refine ⟨⟨r, ?_⟩, hoff, hreq⟩
  show ({ a.fw with load := some l, staged := none, loadState := if l.pull then 2 else 1, loadPort := l.port.val } : Firmware) = _
  rw [hfw]

section
variable (hp : startPaused s = false) (hown : ∀ l, s.fw.load = some l → l.port = x)
include hp hown

/-! ### FW_BEGIN (16 R443–R445) -/

/-- The load of an order that brings its image in blocks (R443). -/
def blocksOf (x : I3cId) (m : Taken) (now : Ns) : FwLoad :=
  { port := x, pull := false, size := m.field 4 4, cells := [], covered := [], lastAt := now, linkPort := 0, locator := (0, 0, 0, 0), cabinet := 0,
    asked := none, ahead := 0 }

section
variable (hm : firstTaken s x 0x50 m rest)
include hm

theorem execFwBeginBlocks_heard (hmode : m.field 0 1 = 0) : execFwBeginBlocks x s = .next
    (if s.fw.deferred.isSome then answerCause (heard s rest) m 12 []
     else answerCause (openLoad (heard s rest) (blocksOf x m s.now)) m 0 []) :=
  onFw_heard hp hown hm rfl (beq_iff_eq.mpr hmode)

theorem execFwBeginBlocks_deferred (hd : s.fw.deferred.isSome = true) (hmode : m.field 0 1 = 0) : ∃ u v, execFwBeginBlocks x s = .next u ∧
    u = answer v m 0x10 (zeros 3 ++ leBytes 1 12) ∧ u.fw.result = 12 ∧ u.fw.staged = s.fw.staged ∧ u.mem = s.mem := by
  have hrun := execFwBeginBlocks_heard hp hown hm hmode
  rw [if_pos hd] at hrun
  refine ⟨_, _, hrun, answerCause_refuses (by decide), ?_, ?_, congrArg Prod.fst (answerCause_offLoad _)⟩
  · rw [answerCause_fw]
  · rw [answerCause_fw]
    rfl

theorem execFwBeginBlocks_opens (hd : s.fw.deferred = none) (hmode : m.field 0 1 = 0) : ∃ u l, execFwBeginBlocks x s = .next u ∧ u.fw.load = some l ∧
    l.port = x ∧ l.pull = false ∧ l.size = m.field 4 4 ∧ l.cells = [] ∧ l.covered = [] ∧ u.fw.staged = none ∧ u.fw.loadState = 1 ∧
    u.fw.loadPort = x.val ∧ u.fw.result = 0 ∧ u.mem = s.mem ∧ u.parts = s.parts := by
  have hrun := execFwBeginBlocks_heard hp hown hm hmode
  rw [if_neg (by simp [hd])] at hrun
  obtain ⟨⟨r, hfw⟩, hoff, -⟩ := openLoad_leaves (s := heard s rest) (l := blocksOf x m s.now)
  have hanswered := (answerCause_offLoad (s := openLoad (heard s rest) (blocksOf x m s.now)) (m := m) (cause := 0) []).trans hoff
  have hres := answerCause_fw (s := openLoad (heard s rest) (blocksOf x m s.now)) (m := m) (cause := 0) []
  rw [hfw] at hres
  generalize answerCause (openLoad (heard s rest) (blocksOf x m s.now)) m 0 [] = u at hrun hanswered hres
  exact ⟨u, blocksOf x m s.now, hrun, by rw [hres], rfl, rfl, rfl, rfl, rfl, by rw [hres], by rw [hres]; rfl, by rw [hres]; rfl, by rw [hres],
    congrArg Prod.fst hanswered, congrArg (fun w => w.2.2.1) hanswered⟩

/-- The load of a pull order (R444). -/
def pullOf (x : I3cId) (m : Taken) (n : PortId) (now : Ns) : FwLoad :=
  { port := x, pull := true, size := 0, cells := [], covered := [], lastAt := now, linkPort := n.val,
    locator := (m.field 16 2, m.field 18 2, m.field 24 8, m.field 32 8), cabinet := m.field 8 4, asked := some m, ahead := 0 }

theorem execFwBeginPull_deferred (hd : s.fw.deferred.isSome = true) (hmode : m.field 0 1 = 1) : ∃ u v, execFwBeginPull x s = .next u ∧
    u = answer v m 0x10 (zeros 3 ++ leBytes 1 12) ∧ u.fw.result = 12 ∧ u.fw.staged = s.fw.staged ∧ u.mem = s.mem := by
  have hrun : execFwBeginPull x s = .next (answerCause (heard s rest) m 12 []) := by
    unfold execFwBeginPull
    rw [onFw_heard (ok := fun m => m.field 0 1 == 1) hp hown hm rfl (beq_iff_eq.mpr hmode)]
    dsimp only
    rw [if_pos (show (heard s rest).fw.deferred.isSome = true from hd)]
  refine ⟨_, _, hrun, answerCause_refuses (by decide), ?_, ?_, congrArg Prod.fst (answerCause_offLoad _)⟩
  · rw [answerCause_fw]
  · rw [answerCause_fw]
    rfl

variable {n : PortId} (hd : s.fw.deferred = none) (hmode : m.field 0 1 = 1) (hn : n.val = m.field 1 1 % 16) (hboot : s.power.state ≠ .boot)
include hd hmode hn hboot

/-- A pull that does not wait for its port to train starts or fails. -/
theorem execFwBeginPull_heard : execFwBeginPull x s = .next
    (if m.field 32 8 < 4096 || !pullAccepts (openLoad (heard s rest) (pullOf x m n s.now)) (pullOf x m n s.now)
     then failPull (openLoad (heard s rest) (pullOf x m n s.now)) 8
     else beginPull (openLoad (heard s rest) (pullOf x m n s.now)) (pullOf x m n s.now)) := by
  have hpull : pullOf x m n s.now = pullOf x m ⟨m.field 1 1 % 16, Nat.mod_lt _ (by decide)⟩ s.now := congrArg (fun k => pullOf x m k s.now) (Fin.ext hn)
  have hnot : ∀ b : Bool, ((heard s rest).power.state == .boot && b) = false := fun b => by
    rw [Bool.and_eq_false_iff]
    exact .inl (beq_eq_false_iff_ne.mpr hboot)
  unfold execFwBeginPull
  rw [onFw_heard (ok := fun m => m.field 0 1 == 1) hp hown hm rfl (beq_iff_eq.mpr hmode)]
  dsimp only
  rw [if_neg (show ¬ (heard s rest).fw.deferred.isSome = true by simp [show (heard s rest).fw.deferred = none from hd]), hnot]
  simp only [Bool.not_false, Bool.true_and, Bool.false_eq_true, if_false]
  rw [hpull]
  rfl

theorem execFwBeginPull_fails (hport : (s.link n).state ≠ .up ∨ (s.link n).far = none) :
    ∃ u, execFwBeginPull x s = .next u ∧ u.fw.load = none ∧ u.fw.loadState = 7 ∧ u.fw.result = 8 ∧ u.mem = s.mem := by
  obtain ⟨-, hoff, -⟩ := openLoad_leaves (s := heard s rest) (l := pullOf x m n s.now)
  have hlinks : (openLoad (heard s rest) (pullOf x m n s.now)).links = s.links := congrArg (fun w => w.2.2.2.2.2.2) hoff
  have hrefused : pullAccepts (openLoad (heard s rest) (pullOf x m n s.now)) (pullOf x m n s.now) = false := by
    have hlink : (openLoad (heard s rest) (pullOf x m n s.now)).link ⟨(pullOf x m n s.now).linkPort % 16, by omega⟩ = s.link n := by
      unfold State.link
      rw [hlinks]
      exact congrArg s.links.get (Fin.ext (Nat.mod_eq_of_lt n.isLt))
    unfold pullAccepts
    dsimp only
    rw [hlink]
    obtain hstate | hfar := hport
    · rw [Bool.and_eq_false_iff]
      exact .inl (beq_eq_false_iff_ne.mpr hstate)
    · rw [hfar, Bool.and_false]
  have hrun := execFwBeginPull_heard hp hown hm hd hmode hn hboot
  rw [if_pos (by simp [hrefused])] at hrun
  obtain ⟨hfw, hfail⟩ := failPull_leaves (s := openLoad (heard s rest) (pullOf x m n s.now)) (cause := 8)
  rw [hoff] at hfail
  generalize failPull (openLoad (heard s rest) (pullOf x m n s.now)) 8 = u at hrun hfw hfail
  exact ⟨u, hrun, by rw [hfw], by rw [hfw], by rw [hfw], congrArg Prod.fst hfail⟩

theorem execFwBeginPull_starts {g : FarEnd} (hup : (s.link n).state = .up) (hfar : (s.link n).far = some g) (hstore : g.claimsStore = true)
    (hcab : g.cabinet = m.field 8 4) (hplace : g.place = m.field 16 2) (hlen : 4096 ≤ m.field 32 8) :
    ∃ u l, execFwBeginPull x s = .next u ∧ u.fw.load = some l ∧ l.pull = true ∧ l.size = 0 ∧ l.ahead = 4096 ∧ u.fw.loadState = 2 ∧ u.fw.result = 0 ∧
      u.requests.length = (s.requests.filter (fun r => r.use ≠ .pull)).length + 1 ∧ u.mem = s.mem := by
  obtain ⟨⟨r, hfw⟩, hoff, hreq⟩ := openLoad_leaves (s := heard s rest) (l := pullOf x m n s.now)
  have hlinks : (openLoad (heard s rest) (pullOf x m n s.now)).links = s.links := congrArg (fun w => w.2.2.2.2.2.2) hoff
  have hmem : (openLoad (heard s rest) (pullOf x m n s.now)).mem = s.mem := congrArg Prod.fst hoff
  have hrun := execFwBeginPull_heard hp hown hm hd hmode hn hboot
  generalize openLoad (heard s rest) (pullOf x m n s.now) = o at hfw hreq hlinks hmem hrun
  have haccepts : pullAccepts o (pullOf x m n s.now) = true := by
    have hlink : o.link ⟨(pullOf x m n s.now).linkPort % 16, by omega⟩ = s.link n := by
      unfold State.link
      rw [hlinks]
      exact congrArg s.links.get (Fin.ext (Nat.mod_eq_of_lt n.isLt))
    unfold pullAccepts
    dsimp only
    rw [hlink, hfar]
    simp [hup, hstore, hcab, hplace, pullOf]
  rw [if_neg (by simp [haccepts, hlen])] at hrun
  have hres := answerCause_fw (s := o) (m := m) (cause := 0) []
  have hansReq := answerCause_requests (s := o) (m := m) (cause := 0) []
  have hansMem : (answerCause o m 0 []).mem = o.mem := congrArg Prod.fst (answerCause_offLoad _)
  have hbegin : beginPull o (pullOf x m n s.now) = pullRange ((answerCause o m 0 []).modFw
      (fun f => { f with load := some { pullOf x m n s.now with asked := none, ahead := 4096 } })) (pullOf x m n s.now) 0 4096 := rfl
  rw [hbegin] at hrun
  generalize answerCause o m 0 [] = b at hrun hres hansReq hansMem
  have hnet := fun {β : Type} {v : State → β} (hv : OffNet v) => hv.openRequest
    (s := b.modFw (fun f => { f with load := some { pullOf x m n s.now with asked := none, ahead := 4096 } })) .pull 8 0
    (pullOf x m n s.now).locator.1 (pullOf x m n s.now).locator.2.1 ((pullOf x m n s.now).locator.2.2.1 + 0) 4096 []
  have hfwNet : OffNet State.fw := ⟨fun _ _ => rfl, fun _ _ _ => rfl⟩
  have hufw : (pullRange (b.modFw (fun f => { f with load := some { pullOf x m n s.now with asked := none, ahead := 4096 } })) (pullOf x m n s.now) 0 4096).fw =
      { b.fw with load := some { pullOf x m n s.now with asked := none, ahead := 4096 } } := hnet hfwNet
  have hureq : (pullRange (b.modFw (fun f => { f with load := some { pullOf x m n s.now with asked := none, ahead := 4096 } })) (pullOf x m n s.now) 0 4096).requests.length =
      b.requests.length + 1 := openRequest_requests ..
  have humem : (pullRange (b.modFw (fun f => { f with load := some { pullOf x m n s.now with asked := none, ahead := 4096 } })) (pullOf x m n s.now) 0 4096).mem = b.mem := hnet mem_offNet
  generalize pullRange (b.modFw (fun f => { f with load := some { pullOf x m n s.now with asked := none, ahead := 4096 } })) (pullOf x m n s.now) 0 4096 = u
    at hrun hufw hureq humem
  refine ⟨u, _, hrun, by rw [hufw], rfl, rfl, rfl, ?_, ?_, ?_, humem.trans (hansMem.trans hmem)⟩
  · rw [hufw, hres, hfw]
    rfl
  · rw [hufw, hres]
  · rw [hureq, hansReq, hreq]
    have hpull : ∀ r : StoreReq, (!(r.use == .pull)) = decide (r.use ≠ .pull) := fun r => by cases r.use <;> rfl
    simp only [hpull]
    rfl

end

end

end

end Sys2Proof.Machine

namespace Sys2Proof.Machine

section
variable {s t u a : State} {x y : I3cId} {m : Taken} {rest : List Taken} {l : FwLoad} {h : FwHeader} {data : Bytes}

/-- A load that has just heard a message. -/
def FwLoad.kept (l : FwLoad) (now : Ns) : FwLoad := { l with lastAt := now }

theorem heard_load (hl : s.fw.load = some l) : (heard s rest).fw.load = some (l.kept s.now) := by
  show s.fw.load.map _ = _
  rw [hl]
  rfl

theorem heard_unloaded (hl : s.fw.load = none) : (heard s rest).fw.load = none := by
  show s.fw.load.map _ = _
  rw [hl]
  rfl

section
variable (hp : startPaused s = false) (hown : ∀ l, s.fw.load = some l → l.port = x)
include hp hown

/-! ### FW_BLOCK (16 R443) -/

section
variable (hm : firstTaken s x 0x51 m rest)
include hm

theorem execFwBlock_unloaded (hl : s.fw.load = none) : ∃ u, execFwBlock x s = .next u ∧ u.fw.result = 2 ∧ u.fw.load = none ∧ u.mem = s.mem := by
  have hrun : execFwBlock x s = .next (answerCause (heard s rest) m 2 (zeros 3 ++ leBytes 4 0)) := by
    unfold execFwBlock
    rw [onFw_heard (ok := fun _ => true) hp hown hm rfl rfl]
    dsimp only
    rw [heard_unloaded hl]
  refine ⟨_, hrun, ?_, ?_, congrArg Prod.fst (answerCause_offLoad _)⟩
  · rw [answerCause_fw]
  · rw [answerCause_fw]
    exact heard_unloaded hl

/-- A block of a load, by its place and its CRC-32C. -/
theorem execFwBlock_loaded (hl : s.fw.load = some l) (hdata : data = padTo (m.field 4 2) (slice m.msg.body 16 (m.field 4 2))) : execFwBlock x s = .next
    (if l.size < m.field 0 4 + data.length then answerBare (heard s rest) m 0x04
     else if crc32c data ≠ m.field 8 4 then
       answerCause ((heard s rest).modFw (fun f => { f with crcFail := satAdd 8 f.crcFail 1 })) m 1 (zeros 3 ++ leBytes 4 (covered (l.kept s.now)))
     else answerCause ((heard s rest).modFw (fun f => { f with load := some (stage (l.kept s.now) (m.field 0 4) data) })) m 0
       (zeros 3 ++ leBytes 4 (covered (stage (l.kept s.now) (m.field 0 4) data)))) := by
  unfold execFwBlock
  rw [onFw_heard (ok := fun _ => true) hp hown hm rfl rfl]
  dsimp only
  rw [heard_load hl, ← hdata]
  rfl

theorem execFwBlock_acts (hl : s.fw.load = some l) (hdata : data = padTo (m.field 4 2) (slice m.msg.body 16 (m.field 4 2))) :
    (l.size < m.field 0 4 + data.length → ∃ u, execFwBlock x s = .next (answerBare u m 0x04) ∧ u.fw.load = some { l with lastAt := s.now } ∧
      u.fw.crcFail = s.fw.crcFail) ∧
    (m.field 0 4 + data.length ≤ l.size → crc32c data ≠ m.field 8 4 → ∃ u, execFwBlock x s = .next u ∧ u.fw.load = some { l with lastAt := s.now } ∧
      u.fw.result = 1 ∧ u.fw.crcFail = satAdd 8 s.fw.crcFail 1) ∧
    (m.field 0 4 + data.length ≤ l.size → crc32c data = m.field 8 4 → cellsWf l.cells = true →
      ∃ u k, execFwBlock x s = .next u ∧ u.fw.load = some k ∧ u.fw.result = 0 ∧ cellsRead k.cells (m.field 0 4) data.length = data ∧
        (∀ a, a < m.field 0 4 ∨ m.field 0 4 + data.length ≤ a → cellRead k.cells a = cellRead l.cells a) ∧ k.size = l.size ∧ u.mem = s.mem) := by
  have hrun := execFwBlock_loaded hp hown hm hl hdata
  have hload := heard_load (rest := rest) hl
  refine ⟨fun hpast => ?_, fun hin hcrc => ?_, fun hin hcrc hwf => ?_⟩
  · rw [if_pos hpast] at hrun
    exact ⟨_, hrun, hload, rfl⟩
  · rw [if_neg (Nat.not_lt.mpr hin), if_pos hcrc] at hrun
    refine ⟨_, hrun, ?_, ?_, ?_⟩ <;> rw [answerCause_fw]
    · exact hload
    · rfl
  · rw [if_neg (Nat.not_lt.mpr hin), if_neg (not_not.mpr hcrc)] at hrun
    obtain ⟨hread, hframe⟩ := cellsWrite_spec hwf (m.field 0 4) (bs := data) rfl
    refine ⟨_, stage (l.kept s.now) (m.field 0 4) data, hrun, ?_, ?_, hread, hframe, rfl, congrArg Prod.fst (answerCause_offLoad _)⟩ <;> rw [answerCause_fw]
    rfl

end

/-! ### FW_END (16 R439–R441, R445) -/

section
variable (hm : firstTaken s x 0x52 m rest)
include hm

theorem execFwEnd_unloaded (hl : s.fw.load = none) : ∃ u, execFwEnd x s = .next u ∧ u.fw.result = 2 ∧ u.fw.staged = s.fw.staged ∧ u.mem = s.mem := by
  have hrun : execFwEnd x s = .next (answerCause (heard s rest) m 2 (zeros 3 ++ zeros 5)) := by
    unfold execFwEnd
    rw [onFw_heard (ok := fun _ => true) hp hown hm rfl rfl]
    dsimp only
    rw [heard_unloaded hl]
  refine ⟨_, hrun, ?_, ?_, congrArg Prod.fst (answerCause_offLoad _)⟩
  · rw [answerCause_fw]
  · rw [answerCause_fw]
    rfl

/-- The state once the load has ended and its order is answered. -/
def loadEnded (s : State) (rest : List Taken) (m : Taken) (l : FwLoad) : State :=
  answerCause (dropLoad (heard s rest) 7) m (imageCause s l) (zeros 3 ++ leBytes 4 (headerOf l).version ++ leBytes 1 (headerOf l).secver)

/-- The state in which the start goes on with an image. -/
def imageTaken (s : State) (h : FwHeader) : State := (burn s h).modFw (fun f => { f with running := h, loadState := 0, startStep := 4, pulled := h.pulled })

theorem execFwEnd_loaded (hl : s.fw.load = some l) : execFwEnd x s = .next
    (if imageCause s l ≠ 0 then loadEnded s rest m l
     else if awaitsImage (loadEnded s rest m l) then
       runFirmware (imageTaken (loadEnded s rest m l) (headerOf l)) (restartIn (burn (loadEnded s rest m l) (headerOf l)))
     else (loadEnded s rest m l).modFw (fun f => { f with staged := some (headerOf l), loadState := 4 })) := by
  unfold execFwEnd
  rw [onFw_heard (ok := fun _ => true) hp hown hm rfl rfl]
  dsimp only
  rw [heard_load hl]
  rfl

omit hp hown hm in
theorem loadEnded_leaves : (loadEnded s rest m l).fw = { (heard s rest).fw with load := none, loadState := 7, result := imageCause s l } ∧
    (loadEnded s rest m l).offLoad = s.offLoad := by
  obtain ⟨⟨r, hfw⟩, hoff, -⟩ := dropLoad_leaves (s := heard s rest) 7
  unfold loadEnded
  generalize dropLoad (heard s rest) 7 = a at hfw hoff ⊢
  exact ⟨(answerCause_fw _).trans (by rw [hfw]), (answerCause_offLoad _).trans hoff⟩

theorem execFwEnd_acts (hl : s.fw.load = some l) :
    (imageCause s l ≠ 0 → ∃ u, execFwEnd x s = .next u ∧ u.fw.result = imageCause s l ∧ u.fw.load = none ∧ u.fw.loadState = 7 ∧
      u.fw.running = s.fw.running ∧ u.fuses = s.fuses ∧ u.mem = s.mem) ∧
    (imageCause s l = 0 → awaitsImage s = false → ∃ u, execFwEnd x s = .next u ∧ u.fw.result = 0 ∧ u.fw.load = none ∧ u.fw.loadState = 4 ∧
      u.fw.staged = some (headerOf l) ∧ u.fw.running = s.fw.running ∧ u.fuses = s.fuses ∧ u.mem = s.mem) ∧
    (imageCause s l = 0 → awaitsImage s = true → ∃ u, execFwEnd x s = .next u ∧ u.fw.running = headerOf l ∧
      u.fuses.secver = max s.fuses.secver (headerOf l).secver ∧ 5 ≤ u.fw.startStep ∧ u.power.state = .boot) := by
  have hrun := execFwEnd_loaded hp hown hm hl
  obtain ⟨hfw, hoff⟩ := loadEnded_leaves (s := s) (rest := rest) (m := m) (l := l)
  generalize loadEnded s rest m l = a at hrun hfw hoff
  have hmem : a.mem = s.mem := congrArg Prod.fst hoff
  have hpower : a.power = s.power := congrArg (fun w => w.2.2.2.1) hoff
  have hfuses : a.fuses = s.fuses := congrArg (fun w => w.2.2.2.2.1) hoff
  have hawaits : awaitsImage a = awaitsImage s := by
    unfold awaitsImage
    rw [hpower, hfw]
    rfl
  rw [hawaits] at hrun
  refine ⟨fun hbad => ?_, fun hgood hw => ?_, fun hgood hw => ?_⟩
  · rw [if_pos hbad] at hrun
    exact ⟨a, hrun, by rw [hfw], by rw [hfw], by rw [hfw], by rw [hfw]; rfl, hfuses, hmem⟩
  · rw [if_neg (not_not.mpr hgood), hw, if_neg Bool.false_ne_true] at hrun
    have hstaged : (a.modFw (fun f => { f with staged := some (headerOf l), loadState := 4 })).fw = { a.fw with staged := some (headerOf l), loadState := 4 } := rfl
    refine ⟨_, hrun, ?_, ?_, ?_, ?_, ?_, hfuses, hmem⟩ <;> rw [hstaged, hfw]
    · exact hgood
    · rfl
  · rw [if_neg (not_not.mpr hgood), hw, if_pos rfl] at hrun
    have hboot : s.power.state = .boot := by
      unfold awaitsImage at hw
      rw [Bool.and_eq_true] at hw
      exact beq_iff_eq.mp hw.1
    have hlaunch : (imageTaken a (headerOf l)).launch = ({ a.fuses with secver := max a.fuses.secver (headerOf l).secver }, headerOf l, a.power.state, a.lives, a.orders) := rfl
    obtain ⟨hkeeps, hstep⟩ := runFirmware_launch (s := imageTaken a (headerOf l)) (restartIn (burn a (headerOf l)))
    rw [hlaunch, hfuses, hpower, hboot] at hkeeps
    generalize runFirmware (imageTaken a (headerOf l)) (restartIn (burn a (headerOf l))) = u at hrun hkeeps hstep
    unfold State.launch at hkeeps
    simp only [Prod.mk.injEq] at hkeeps
    obtain ⟨ufuses, urunning, ustate, -, -⟩ := hkeeps
    exact ⟨u, hrun, urunning, by rw [ufuses], hstep, ustate⟩

end

/-! ### FW_LOAD_TIMEOUT and FW_WITHDRAW (16 R442) -/

omit hown in
theorem execFwLoadTimeout_drops (hl : s.fw.load = some l) : ∃ u, execFwLoadTimeout s = .next u ∧ u.now = max s.now (l.lastAt + 10000000000) ∧
    u.fw.load = none ∧ u.fw.loadState = 0 ∧ u.fw.staged = s.fw.staged ∧ u.mem = s.mem := by
  have hsec : l.lastAt + sec 10 = l.lastAt + 10000000000 := rfl
  have hrun : execFwLoadTimeout s = .next (dropLoad (s.reach (l.lastAt + 10000000000)) 0) := by
    unfold execFwLoadTimeout
    rw [hl]
    dsimp only
    rw [if_neg (by simp [hp]), hsec]
  generalize l.lastAt + 10000000000 = e at hrun ⊢
  obtain ⟨⟨r, hfw⟩, hoff, -⟩ := dropLoad_leaves (s := s.reach e) 0
  generalize dropLoad (s.reach e) 0 = u at hrun hfw hoff
  exact ⟨u, hrun, congrArg (fun w => w.2.1) hoff, by rw [hfw], by rw [hfw], by rw [hfw]; rfl, congrArg Prod.fst hoff⟩

variable (hm : firstTaken s x 0x54 m rest)
include hm

theorem execFwWithdrawDeferred_acts (hmode : m.field 0 1 = 1) : ∃ u, execFwWithdrawDeferred x s = .next u ∧ u.fw.deferred = none ∧ u.fw.result = 0 ∧
    u.fw.staged = s.fw.staged ∧ (s.fw.deferred.isSome = true → u.fw.loadState = 4) ∧ u.mem = s.mem := by
  have hrun : execFwWithdrawDeferred x s = .next (answerCause
      (if s.fw.deferred.isSome then (heard s rest).modFw (fun f => { f with deferred := none, loadState := 4 }) else heard s rest) m 0 []) :=
    onFw_heard hp hown hm rfl (beq_iff_eq.mpr hmode)
  cases hd : s.fw.deferred with
  | none =>
    rw [hd, if_neg (by simp)] at hrun
    refine ⟨_, hrun, ?_, ?_, ?_, fun h => absurd h (by simp), congrArg Prod.fst (answerCause_offLoad _)⟩ <;> rw [answerCause_fw]
    · exact hd
    · rfl
  | some d =>
    rw [hd, if_pos Option.isSome_some] at hrun
    refine ⟨_, hrun, ?_, ?_, ?_, fun _ => ?_, congrArg Prod.fst (answerCause_offLoad _)⟩ <;> rw [answerCause_fw] <;> rfl

omit hown in
theorem execFwWithdrawLoad_acts (hmode : m.field 0 1 = 2) : ∃ u, execFwWithdrawLoad x s = .next u ∧ u.fw.load = none ∧ u.fw.staged = none ∧
    u.fw.deferred = none ∧ u.fw.loadState = 0 ∧ u.fw.result = 0 ∧ u.mem = s.mem := by
  have hok : (fun m : Msg => m.field 0 1 == 2) m.msg = true := beq_iff_eq.mpr hmode
  have hrun : execFwWithdrawLoad x s = .next (answerCause ((dropLoad (s.withTaken rest) 0).modFw (fun f => { f with staged := none, deferred := none })) m 0 []) := by
    unfold execFwWithdrawLoad
    rw [if_neg (by simp [hp, fwFirst_of_first (ok := fun m => m.field 0 1 == 2) hm rfl hok]), onTaken_first (ok := fun m => m.field 0 1 == 2) hm hok]
  obtain ⟨⟨r, hfw⟩, hoff, -⟩ := dropLoad_leaves (s := s.withTaken rest) 0
  generalize dropLoad (s.withTaken rest) 0 = a at hrun hfw hoff
  have hfields : (a.modFw (fun f => { f with staged := none, deferred := none })).fw = { a.fw with staged := none, deferred := none } := rfl
  refine ⟨_, hrun, ?_, ?_, ?_, ?_, ?_, (congrArg Prod.fst (answerCause_offLoad _)).trans (congrArg Prod.fst hoff)⟩ <;> rw [answerCause_fw, hfields, hfw]

end

end

end Sys2Proof.Machine

namespace Sys2Proof.Machine

section
variable {s t u a : State} {x y : I3cId} {m : Taken} {rest : List Taken} {h : FwHeader} {p : PartId}

/-! ### A switch (16 R447) -/

theorem burn_base : (burn s h).base = { s.base with fuses := { s.fuses with secver := max s.fuses.secver h.secver } } := rfl

/-- The firmware once another image runs. -/
def Firmware.switched (f : Firmware) (h : FwHeader) (now : Ns) : Firmware :=
  { f with
    running := h
    staged := none
    deferred := none
    loadState := 0
    windowEnd := some (now + 1000000)
    activations := satAdd 8 f.activations 1 }

/-- The firmware versions of the partitions that hold one are noted. -/
def entriesNoted (s : State) (h : FwHeader) : State :=
  forParts (fun p s => if (s.part p).state ≠ .free then s.modPart p (fun x => { x with fwEntry := some h.version }) else s) (dropEphemeral (burn s h))

theorem switchTo_eq : switchTo s h = forI3c (fun x s => if (s.port x).session.live && (s.port x).session.iface ≠ h.iface then endSession s x 3 else s)
    (((entriesNoted s h).modFw (fun f => f.switched h (entriesNoted s h).now)).event srcSecurity 0x0505 0xFF
      (leBytes 4 s.fw.running.version ++ leBytes 4 h.version)) := rfl

theorem entriesNoted_base : (entriesNoted s h).base = { s.base with fuses := { s.fuses with secver := max s.fuses.secver h.secver } } := by
  unfold entriesNoted dropEphemeral
  refine (forParts_view _ State.base fun p u => ?_).trans ((forParts_view (burn s h) State.base fun p u => by rfl).trans burn_base)
  split <;> rfl

theorem endSessions_view {β : Type} (v : State → β) (hv : ∀ u, v u.offMail = v u) :
    v (forI3c (fun x s => if (s.port x).session.live && (s.port x).session.iface ≠ h.iface then endSession s x 3 else s) s) = v s :=
  forI3c_view v fun x u => by
    split
    · exact (hv _).symm.trans ((congrArg v (endSession_offMail 3)).trans (hv _))
    · rfl

theorem switchTo_base : (switchTo s h).base =
    { s.base with fuses := { s.fuses with secver := max s.fuses.secver h.secver }, fw := s.fw.switched h s.now } := by
  rw [switchTo_eq, endSessions_view State.base fun _ => rfl, State.event_base, State.modFw_base]
  have hbase := entriesNoted_base (s := s) (h := h)
  generalize entriesNoted s h = e at hbase ⊢
  have hnow : e.now = s.now := congrArg Base.now hbase
  rw [hbase, hnow]
  rfl

/-- The keys of a partition without its ephemeral ones. -/
def PKeys.lasting (k : PKeys) : PKeys := { k with ephemeral := [] }

theorem dropEphemeral_part : (dropEphemeral s).part p = { s.part p with keys := (s.part p).keys.lasting } :=
  forParts_each (g := fun _ x => { x with keys := x.keys.lasting }) (fun _ _ => State.modPart_part ..) (fun _ _ _ hpq => State.modPart_part_ne _ _ _ _ hpq) p

theorem entriesNoted_part : ∃ e, (entriesNoted s h).part p = { s.part p with keys := (s.part p).keys.lasting, fwEntry := e } := by
  have heach := forParts_each (s := dropEphemeral (burn s h))
    (F := fun p s => if (s.part p).state ≠ .free then s.modPart p (fun x => { x with fwEntry := some h.version }) else s)
    (g := fun _ x => if x.state ≠ .free then { x with fwEntry := some h.version } else x)
    (fun p u => by
      split
      · exact State.modPart_part ..
      · rfl)
    (fun p q u hpq => by
      split
      · exact State.modPart_part_ne _ _ _ _ hpq
      · rfl) p
  have hdrop := dropEphemeral_part (s := burn s h) (p := p)
  have hburn : (burn s h).part p = s.part p := rfl
  unfold entriesNoted
  rw [heach, hdrop, hburn]
  split
  · exact ⟨_, rfl⟩
  · exact ⟨_, rfl⟩

/-- A switch keeps every partition, but for its ephemeral keys and the version that it runs by. -/
theorem switchTo_part : ∃ e, (switchTo s h).part p = { s.part p with keys := (s.part p).keys.lasting, fwEntry := e } := by
  obtain ⟨e, hpart⟩ := entriesNoted_part (s := s) (h := h) (p := p)
  refine ⟨e, ?_⟩
  have hend := endSessions_view (h := h) (s := (((entriesNoted s h).modFw (fun f => f.switched h (entriesNoted s h).now)).event srcSecurity 0x0505 0xFF
    (leBytes 4 s.fw.running.version ++ leBytes 4 h.version))) (fun u => u.part p) fun _ => rfl
  rw [switchTo_eq]
  refine hend.trans ?_
  generalize entriesNoted s h = e at hpart ⊢
  exact (event_part ..).trans hpart

/-! ### The test of R446 -/

theorem activationOf_hold {mode : Nat} (hs : s.fw.staged = some h) (hh : s.power.state = .hold) : activationOf s mode = .restart h := by
  unfold activationOf
  rw [hs]
  exact if_pos hh

theorem activationOf_boundary (hs : s.fw.staged = some h) (hh : s.power.state ≠ .hold) : activationOf s 0 =
    if (s.power.state = .run || s.power.state = .drain) && h.major ≠ s.fw.running.major then .fails 9 else .switch h := by
  unfold activationOf
  rw [hs]
  exact (if_neg hh).trans (if_neg (by decide))

theorem activationOf_restart (hs : s.fw.staged = some h) (hh : s.power.state ≠ .hold) : activationOf s 1 =
    if s.parts.toList.all (fun x => x.state == .free) then .restart h else .fails 10 := by
  unfold activationOf
  rw [hs]
  exact (if_neg hh).trans (if_pos rfl)

theorem activationOf_switches (hs : s.fw.staged = some h) (hh : s.power.state ≠ .hold)
    (hmajor : h.major = s.fw.running.major ∨ s.power.state ≠ .run ∧ s.power.state ≠ .drain) : activationOf s 0 = .switch h := by
  rw [activationOf_boundary hs hh, if_neg]
  obtain hsame | ⟨hrun, hdrain⟩ := hmajor
  · simp [hsame]
  · simp [hrun, hdrain]

/-! ### What an activation does -/

section
variable {mode : Nat}

theorem activate_deferred (hd : a.fw.deferred.isSome = true) : activate a m mode = answerCause a m 12 [] := if_pos hd

variable (hd : a.fw.deferred = none)
include hd

theorem activate_unstaged (hs : a.fw.staged = none) : activate a m mode = answerCause a m 11 [] :=
  (if_neg (by simp [hd])).trans (if_pos (by simp [hs]))

variable (hs : a.fw.staged = some h)
include hs

theorem activate_defers (hl : a.power.latch = true ∨ a.power.state = .quench) : activate a m mode =
    answerFw (a.modFw (fun f => { f with deferred := some (m.port, mode), loadState := 5, deferrals := satAdd 8 f.deferrals 1 })) m 0x0B 0 [] :=
  (if_neg (by simp [hd])).trans ((if_neg (by simp [hs])).trans (if_pos (by simpa using hl)))

theorem activate_proceeds (hl : a.power.latch = false) (hq : a.power.state ≠ .quench) : activate a m mode = match activationOf a mode with
    | .fails c => answerCause a m c []
    | .switch h => switchTo (answerCause a m 0 []) h
    | .restart h => restartWith (burn (answerCause a m 0 []) h) h :=
  (if_neg (by simp [hd])).trans ((if_neg (by simp [hs])).trans ((if_neg (by simp [hl, hq])).trans (by unfold activationOf; rfl)))

end

theorem answerCause_base (cause : Nat) (tail : Bytes) : (answerCause s m cause tail).base = { s.base with fw := { s.fw with result := cause } } :=
  answer_base ..

theorem answerCause_part (cause : Nat) (tail : Bytes) : (answerCause s m cause tail).part p = s.part p := answer_part ..

/-- What an activation that is answered and then switches leaves. -/
theorem switched_leaves : (switchTo (answerCause a m 0 []) h).fw.running = h ∧ (switchTo (answerCause a m 0 []) h).fw.staged = none ∧
    (switchTo (answerCause a m 0 []) h).fw.windowEnd = some (a.now + 1000000) ∧
    (switchTo (answerCause a m 0 []) h).fuses.secver = max a.fuses.secver h.secver ∧ (switchTo (answerCause a m 0 []) h).mem = a.mem ∧
    (switchTo (answerCause a m 0 []) h).power = a.power ∧
    (∀ p, ((switchTo (answerCause a m 0 []) h).part p).keys = { (a.part p).keys with ephemeral := [] } ∧
      ((switchTo (answerCause a m 0 []) h).part p).step = (a.part p).step ∧ ((switchTo (answerCause a m 0 []) h).part p).state = (a.part p).state) := by
  have hanswer := answerCause_base (s := a) (m := m) 0 []
  have hparts := fun p => answerCause_part (s := a) (m := m) (p := p) 0 []
  generalize answerCause a m 0 [] = b at hanswer hparts ⊢
  have hbase := switchTo_base (s := b) (h := h)
  have hpart := fun p => switchTo_part (s := b) (h := h) (p := p)
  generalize switchTo b h = u at hbase hpart ⊢
  have hfw : u.fw = b.fw.switched h b.now := congrArg Base.fw hbase
  have hfuses : u.fuses = { b.fuses with secver := max b.fuses.secver h.secver } := congrArg Base.fuses hbase
  have hbfuses : b.fuses = a.fuses := congrArg Base.fuses hanswer
  have hbnow : b.now = a.now := congrArg Base.now hanswer
  refine ⟨by rw [hfw]; rfl, by rw [hfw]; rfl, ?_, ?_, (congrArg Base.mem hbase).trans (congrArg Base.mem hanswer),
    (congrArg Base.power hbase).trans (congrArg Base.power hanswer), fun p => ?_⟩
  · rw [hfw, ← hbnow]
    rfl
  · rw [hfuses, hbfuses]
  · obtain ⟨e, he⟩ := hpart p
    rw [he, hparts]
    exact ⟨rfl, rfl, rfl⟩

/-- What an activation that is answered and then restarts leaves. -/
theorem restarted_leaves : (restartWith (burn (answerCause a m 0 []) h) h).fw.running = h ∧ (restartWith (burn (answerCause a m 0 []) h) h).power.state = .boot ∧
    (restartWith (burn (answerCause a m 0 []) h) h).fuses.secver = max a.fuses.secver h.secver ∧
    (restartWith (burn (answerCause a m 0 []) h) h).orders.refusedFlag = false ∧
    (∀ y, ((restartWith (burn (answerCause a m 0 []) h) h).port y).session.live = false) := by
  have hanswer : (answerCause a m 0 []).fuses = a.fuses := congrArg Base.fuses (answerCause_base 0 [])
  generalize answerCause a m 0 [] = b at hanswer ⊢
  have hburn : (burn b h).fuses = { b.fuses with secver := max b.fuses.secver h.secver } := rfl
  obtain ⟨hrunning, hstate, hfuses, hflag, hlives⟩ := restartWith_runs (s := burn b h) h
  generalize restartWith (burn b h) h = u at hrunning hstate hfuses hflag hlives ⊢
  exact ⟨hrunning, hstate, by rw [hfuses, hburn, hanswer], hflag, hlives⟩

section
variable (hp : startPaused s = false) (hown : ∀ l, s.fw.load = some l → l.port = x) (hm : firstTaken s x 0x53 m rest)
include hp hown hm

theorem execFwActivateBoundary_heard (hmode : m.field 0 1 = 0) : execFwActivateBoundary x s = .next (activate (heard s rest) m 0) :=
  onFw_heard hp hown hm rfl (beq_iff_eq.mpr hmode)

theorem execFwActivateRestart_heard (hmode : m.field 0 1 = 1) : execFwActivateRestart x s = .next (activate (heard s rest) m 1) :=
  onFw_heard hp hown hm rfl (beq_iff_eq.mpr hmode)

end

/-- An activation while one is deferred, or without an image, in either mode. -/
theorem activate_refuses {mode : Nat} :
    (s.fw.deferred.isSome = true → (activate (heard s rest) m mode).fw.result = 12 ∧ (activate (heard s rest) m mode).fw.deferred = s.fw.deferred ∧
      (activate (heard s rest) m mode).mem = s.mem) ∧
    (s.fw.deferred = none → s.fw.staged = none → (activate (heard s rest) m mode).fw.result = 11 ∧
      (activate (heard s rest) m mode).fw.running = s.fw.running ∧ (activate (heard s rest) m mode).mem = s.mem) := by
  refine ⟨fun hd => ?_, fun hd hs => ?_⟩
  · rw [activate_deferred (a := heard s rest) hd]
    exact ⟨by rw [answerCause_fw], by rw [answerCause_fw]; rfl, congrArg Prod.fst (answerCause_offLoad _)⟩
  · rw [activate_unstaged (a := heard s rest) hd hs]
    exact ⟨by rw [answerCause_fw], by rw [answerCause_fw]; rfl, congrArg Prod.fst (answerCause_offLoad _)⟩

/-- An activation under the latch or in QUENCH, in either mode. -/
theorem activate_waits {mode : Nat} (hport : m.port = x) (hd : s.fw.deferred = none) (hs : s.fw.staged = some h)
    (hl : s.power.latch = true ∨ s.power.state = .quench) : ∃ v, activate (heard s rest) m mode = answer v m 0x0B (zeros 4) ∧
    (activate (heard s rest) m mode).fw.deferred = some (x, mode) ∧ (activate (heard s rest) m mode).fw.loadState = 5 ∧
    (activate (heard s rest) m mode).fw.deferrals = satAdd 8 s.fw.deferrals 1 ∧ (activate (heard s rest) m mode).fw.running = s.fw.running := by
  rw [activate_defers (a := heard s rest) hd hs hl]
  refine ⟨_, rfl, ?_, ?_, ?_, ?_⟩ <;> rw [answerFw_fw]
  · exact congrArg (fun y => some (y, mode)) hport
  · rfl
  · rfl
  · rfl

/-- An activation that fails leaves what runs and what is staged. -/
theorem activate_fails {mode cause : Nat} (hd : s.fw.deferred = none) (hs : s.fw.staged = some h) (hl : s.power.latch = false) (hq : s.power.state ≠ .quench)
    (hfail : activationOf (heard s rest) mode = .fails cause) : (activate (heard s rest) m mode).fw.result = cause ∧
    (activate (heard s rest) m mode).fw.running = s.fw.running ∧ (activate (heard s rest) m mode).fw.staged = some h ∧
    (activate (heard s rest) m mode).mem = s.mem := by
  rw [activate_proceeds (a := heard s rest) hd hs hl hq, hfail]
  dsimp only
  refine ⟨by rw [answerCause_fw], by rw [answerCause_fw]; rfl, ?_, congrArg Prod.fst (answerCause_offLoad _)⟩
  rw [answerCause_fw]
  exact hs

/-- An activation that restarts. -/
theorem activate_restarts {mode : Nat} (hd : s.fw.deferred = none) (hs : s.fw.staged = some h) (hl : s.power.latch = false) (hq : s.power.state ≠ .quench)
    (hrestart : activationOf (heard s rest) mode = .restart h) : (activate (heard s rest) m mode).fw.running = h ∧
    (activate (heard s rest) m mode).power.state = .boot ∧ (activate (heard s rest) m mode).fuses.secver = max s.fuses.secver h.secver ∧
    (activate (heard s rest) m mode).orders.refusedFlag = false ∧ (∀ y, ((activate (heard s rest) m mode).port y).session.live = false) := by
  rw [activate_proceeds (a := heard s rest) hd hs hl hq, hrestart]
  dsimp only
  have hleaves := restarted_leaves (a := heard s rest) (m := m) (h := h)
  generalize restartWith (burn (answerCause (heard s rest) m 0 []) h) h = u at hleaves ⊢
  exact hleaves

/-- An activation that switches. -/
theorem activate_switches {mode : Nat} (hd : s.fw.deferred = none) (hs : s.fw.staged = some h) (hl : s.power.latch = false) (hq : s.power.state ≠ .quench)
    (hswitch : activationOf (heard s rest) mode = .switch h) : (activate (heard s rest) m mode).fw.running = h ∧
    (activate (heard s rest) m mode).fw.staged = none ∧ (activate (heard s rest) m mode).fw.windowEnd = some (s.now + 1000000) ∧
    (activate (heard s rest) m mode).fuses.secver = max s.fuses.secver h.secver ∧ (activate (heard s rest) m mode).mem = s.mem ∧
    (activate (heard s rest) m mode).power = s.power ∧
    (∀ p, ((activate (heard s rest) m mode).part p).keys = { (s.part p).keys with ephemeral := [] } ∧
      ((activate (heard s rest) m mode).part p).step = (s.part p).step ∧ ((activate (heard s rest) m mode).part p).state = (s.part p).state) := by
  rw [activate_proceeds (a := heard s rest) hd hs hl hq, hswitch]
  dsimp only
  have hleaves := switched_leaves (a := heard s rest) (m := m) (h := h)
  generalize switchTo (answerCause (heard s rest) m 0 []) h = u at hleaves ⊢
  exact hleaves

/-! ### DEFERRED_ACTIVATION (16 R450) -/

section
variable (hd : s.fw.deferred = some (y, 0)) (hs : s.fw.staged = some h)
include hd

theorem execDeferredActivation_waits (hl : s.power.latch = true ∨ s.power.state = .quench ∨ s.thermal.calm = false) : execDeferredActivation s = .next s := by
  unfold execDeferredActivation
  rw [hd]
  refine if_pos ?_
  obtain hl | hq | hc := hl <;> simp [*]

include hs in
theorem execDeferredActivation_switches (hl : s.power.latch = false) (hq : s.power.state ≠ .quench) (hc : s.thermal.calm = true) (hh : s.power.state ≠ .hold)
    (hmajor : h.major = s.fw.running.major ∨ s.power.state ≠ .run ∧ s.power.state ≠ .drain) :
    ∃ u, execDeferredActivation s = .next u ∧ u.fw.running = h ∧ u.fw.deferred = none ∧ u.mem = s.mem := by
  have hrun : execDeferredActivation s = .next (switchTo s h) := by
    unfold execDeferredActivation
    rw [hd]
    dsimp only
    rw [if_neg (by simp [hl, hq, hc]), activationOf_switches hs hh hmajor]
  have hbase := switchTo_base (s := s) (h := h)
  generalize switchTo s h = u at hrun hbase
  have hfw : u.fw = s.fw.switched h s.now := congrArg Base.fw hbase
  exact ⟨u, hrun, by rw [hfw]; rfl, by rw [hfw]; rfl, congrArg Base.mem hbase⟩

end

end

end Sys2Proof.Machine

namespace Sys2Proof.Machine

section
variable {s : State} {x : I3cId} {m : Taken} {rest : List Taken} {l : FwLoad}

/-! ### Firmware rows without their occasion -/

theorem firmware_paused (hp : startPaused s = true) (x : I3cId) : execFwBeginBlocks x s = .next s ∧ execFwBeginPull x s = .next s ∧ execFwBlock x s = .next s ∧
    execFwEnd x s = .next s ∧ execFwActivateBoundary x s = .next s ∧ execFwActivateRestart x s = .next s ∧ execFwWithdrawDeferred x s = .next s ∧
    execFwWithdrawLoad x s = .next s ∧ execFwLoadTimeout s = .next s := by
  refine ⟨onFw_paused hp, onFw_paused hp, onFw_paused hp, onFw_paused hp, onFw_paused hp, onFw_paused hp, onFw_paused hp, if_pos (by simp [hp]), ?_⟩
  unfold execFwLoadTimeout
  split
  · exact if_pos hp
  · rfl

theorem firmware_busy (hp : startPaused s = false) (hl : s.fw.load = some l) (hother : l.port ≠ x) :
    (firstTaken s x 0x50 m rest → m.field 0 1 = 0 → execFwBeginBlocks x s = .next (answerBare (s.withTaken rest) m 0x01)) ∧
    (firstTaken s x 0x50 m rest → m.field 0 1 = 1 → execFwBeginPull x s = .next (answerBare (s.withTaken rest) m 0x01)) ∧
    (firstTaken s x 0x51 m rest → execFwBlock x s = .next (answerBare (s.withTaken rest) m 0x01)) ∧
    (firstTaken s x 0x52 m rest → execFwEnd x s = .next (answerBare (s.withTaken rest) m 0x01)) ∧
    (firstTaken s x 0x53 m rest → m.field 0 1 = 0 → execFwActivateBoundary x s = .next (answerBare (s.withTaken rest) m 0x01)) ∧
    (firstTaken s x 0x53 m rest → m.field 0 1 = 1 → execFwActivateRestart x s = .next (answerBare (s.withTaken rest) m 0x01)) ∧
    (firstTaken s x 0x54 m rest → m.field 0 1 = 1 → execFwWithdrawDeferred x s = .next (answerBare (s.withTaken rest) m 0x01)) :=
  ⟨fun hm h => onFw_busy hp hl hother hm rfl (beq_iff_eq.mpr h), fun hm h => onFw_busy hp hl hother hm rfl (beq_iff_eq.mpr h),
    fun hm => onFw_busy hp hl hother hm rfl rfl, fun hm => onFw_busy hp hl hother hm rfl rfl,
    fun hm h => onFw_busy hp hl hother hm rfl (beq_iff_eq.mpr h), fun hm h => onFw_busy hp hl hother hm rfl (beq_iff_eq.mpr h),
    fun hm h => onFw_busy hp hl hother hm rfl (beq_iff_eq.mpr h)⟩

theorem firmware_unasked (h : ∀ m ∈ s.orders.taken, m.port = x → m.msg.typ < 0x50 ∨ 0x54 < m.msg.typ) :
    execFwBeginBlocks x s = .next s ∧ execFwBeginPull x s = .next s ∧ execFwBlock x s = .next s ∧ execFwEnd x s = .next s ∧
    execFwActivateBoundary x s = .next s ∧ execFwActivateRestart x s = .next s ∧ execFwWithdrawDeferred x s = .next s ∧ execFwWithdrawLoad x s = .next s :=
  ⟨onFw_none h, onFw_none h, onFw_none h, onFw_none h, onFw_none h, onFw_none h, onFw_none h, if_pos (by simp [fwFirst_none h])⟩

end

/-- Settles O52: a message is handled by `onFw_heard`, a load ends by `dropLoad_leaves`, an activation switches by `switchTo_base` and
`switchTo_part` or restarts by `restartWith_runs`. The pause is log entry 98, loads and images log entry 101, settings kept, the window and the
deferred answer log entry 102, withdrawals log entry 103, pulls log entry 104; a row's time is log entry 10, a row without an occasion log
entry 26. -/
theorem firmwareMessagesAct : Obligations.FirmwareMessagesAct := by
  unfold Obligations.FirmwareMessagesAct
  refine ⟨fun s x hp => firmware_paused hp x, fun s x m rest l hp hl hother => firmware_busy hp hl hother, fun s x h => firmware_unasked h,
    fun s => ⟨fun hl => ?_, fun hd => ?_⟩, fun s x m rest hp hown => ⟨?begins, ?block, ?ends, fun l hl => execFwLoadTimeout_drops hp hl, ?boundary,
      ?restart, ?deferred, ?withdraw⟩⟩
  · show execFwLoadTimeout s = .next s
    unfold execFwLoadTimeout
    rw [hl]
  · show execDeferredActivation s = .next s
    unfold execDeferredActivation
    rw [hd]
  case begins =>
    intro hm
    exact ⟨fun hd => ⟨execFwBeginBlocks_deferred hp hown hm hd, execFwBeginPull_deferred hp hown hm hd⟩, execFwBeginBlocks_opens hp hown hm,
      fun n hd hmode hn hboot => ⟨fun f hup hfar hstore hcab hplace hlen => execFwBeginPull_starts hp hown hm hd hmode hn hboot hup hfar hstore hcab hplace hlen,
        execFwBeginPull_fails hp hown hm hd hmode hn hboot⟩⟩
  case block =>
    intro hm
    exact ⟨execFwBlock_unloaded hp hown hm, fun l data hl hdata => execFwBlock_acts hp hown hm hl hdata⟩
  case ends =>
    intro hm
    exact ⟨execFwEnd_unloaded hp hown hm, fun l hl => execFwEnd_acts hp hown hm hl⟩
  case boundary =>
    intro hm hmode
    have hrun := execFwActivateBoundary_heard hp hown hm hmode
    obtain ⟨hdeferred, hunstaged⟩ := activate_refuses (s := s) (m := m) (rest := rest) (mode := 0)
    refine ⟨fun hd => ⟨_, hrun, hdeferred hd⟩, fun hd hs => ⟨_, hrun, hunstaged hd hs⟩, fun h hd hs => ⟨fun hl => ?_, fun hl hh hq hmajor => ?_,
      fun hl hmajor hstate => ?_, fun hl hh => ?_⟩⟩
    · obtain ⟨-, hport, -⟩ := hm
      obtain ⟨v, hv, hleaves⟩ := activate_waits (rest := rest) (mode := 0) hport hd hs hl
      exact ⟨_, v, hrun, hv, hleaves⟩
    · obtain ⟨hrunning, hstaged, hleaves⟩ := activate_switches (m := m) (rest := rest) hd hs hl hq (activationOf_switches (s := heard s rest) hs hh hmajor)
      exact ⟨_, hrun, hrunning, hstaged, hleaves⟩
    · have hh : s.power.state ≠ .hold := by obtain h | h := hstate <;> simp [h]
      have hq : s.power.state ≠ .quench := by obtain h | h := hstate <;> simp [h]
      have hfail : activationOf (heard s rest) 0 = .fails 9 := by
        rw [activationOf_boundary (s := heard s rest) hs hh, if_pos]
        have hrunning : (heard s rest).fw.running = s.fw.running := rfl
        have hpower : (heard s rest).power = s.power := rfl
        simpa [hrunning, hpower, hmajor] using hstate
      exact ⟨_, hrun, activate_fails (m := m) hd hs hl hq hfail⟩
    · obtain ⟨hrunning, hboot, hsec, -, hlives⟩ := activate_restarts (m := m) (rest := rest) hd hs hl (by simp [hh])
        (activationOf_hold (mode := 0) (s := heard s rest) hs hh)
      exact ⟨_, hrun, hrunning, hboot, hsec, hlives⟩
  case restart =>
    intro hm hmode
    have hrun := execFwActivateRestart_heard hp hown hm hmode
    obtain ⟨hdeferred, hunstaged⟩ := activate_refuses (s := s) (m := m) (rest := rest) (mode := 1)
    refine ⟨fun hd => ⟨_, hrun, hdeferred hd⟩, fun hd hs => ⟨_, hrun, hunstaged hd hs⟩, fun h hd hs => ⟨fun hl => ?_, fun hl hq hmay => ?_,
      fun hl hq hh hbusy => ?_⟩⟩
    · obtain ⟨-, hport, -⟩ := hm
      obtain ⟨v, hv, hdef, hload, -, hrunning⟩ := activate_waits (rest := rest) (mode := 1) hport hd hs hl
      exact ⟨_, v, hrun, hv, hdef, hload, hrunning⟩
    · have hrestart : activationOf (heard s rest) 1 = .restart h := by
        by_cases hh : s.power.state = .hold
        · exact activationOf_hold (s := heard s rest) hs hh
        · have hfree : (heard s rest).parts.toList.all (fun x => x.state == .free) = true :=
            (parts_all _).mpr fun p => beq_iff_eq.mpr (hmay.resolve_left hh p)
          rw [activationOf_restart (s := heard s rest) hs hh, if_pos hfree]
      exact ⟨_, hrun, activate_restarts (m := m) hd hs hl hq hrestart⟩
    · have hfail : activationOf (heard s rest) 1 = .fails 10 := by
        rw [activationOf_restart (s := heard s rest) hs hh, if_neg]
        intro hall
        obtain ⟨p, hpart⟩ := hbusy
        exact hpart (beq_iff_eq.mp ((parts_all (s := heard s rest) _).mp hall p))
      obtain ⟨hres, hrunning, -, hmem⟩ := activate_fails (m := m) (rest := rest) hd hs hl hq hfail
      exact ⟨_, hrun, hres, hrunning, hmem⟩
  case deferred =>
    exact fun y h hd hs => ⟨execDeferredActivation_waits hd, fun hl hq hc hh hmajor => execDeferredActivation_switches hd hs hl hq hc hh hmajor⟩
  case withdraw =>
    exact fun hm => ⟨execFwWithdrawDeferred_acts hp hown hm, execFwWithdrawLoad_acts hp hm⟩

end Sys2Proof.Machine
